-- ==== Sys2Proof/Word.lean ====
section
/-!
DEFINITION. The word and byte types of the block: registers are 32-bit words (R3, R7), memories and records are bytes.
-/

namespace Sys2Proof

/-- A 32-bit register word. -/
abbrev Word := BitVec 32

/-- A byte. -/
abbrev Byte := BitVec 8

end Sys2Proof
end

