-- ==== Sys2Proof/Syntax.lean ====
section
/-!
DEFINITION. The commands of the block: one constructor of `Instr` per row of spec/opcode_table.json, in the
table's order, and the operand types they need. Where a rule judges a fact the block cannot compute from its
own state (a converter code, a pin, a frame, an instant), the fact is an operand.
-/

namespace Sys2Proof

/-- An access path (R8): a Perzo session, the I2C target or a service core. -/
inductive Path where
  | sess (s : Fin 4) | i2c | core (c : Fin 4)
  deriving DecidableEq, Repr

/-- Where a Perzo datagram came from: ingress port, IPv4 address and UDP port of the sender; the UDP port it was addressed to
(51520 control, 51521 telemetry); the source MAC address and the 802.1Q VID of its frame (none: untagged). -/
structure Endpoint where
  port : Fin 2
  ip : Nat
  udp : Nat
  dport : Nat
  mac : Nat
  vid : Option Nat
  deriving DecidableEq, Repr

/-- What a base sample belongs to: a front end, or VSUMP_SNS (R90). -/
inductive SampSrc where
  | fe (n : Fin 128) | vsump
  deriving DecidableEq, Repr

/-- A PTP message as it reaches the device's clock (R245, R246): times in ns, the correction in 2^-16 ns. -/
structure PtpMsg where
  /-- ingress port -/
  port : Fin 2
  /-- it came by Ethertype 0x88F7 (true) or in UDP/IPv4 -/
  l2 : Bool
  /-- 802.1Q VID of its frame; none: untagged -/
  vid : Option Nat
  domain : Nat
  /-- messageType of IEEE 1588: 0 Sync, 1 Delay_Req, 2 Pdelay_Req, 3 Pdelay_Resp, 8 Follow_Up, 9 Delay_Resp,
  10 Pdelay_Resp_Follow_Up, 11 Announce -/
  mtype : Nat
  /-- sourcePortIdentity -/
  ident : Nat
  srcPort : Nat
  seq : Nat
  twoStep : Bool
  /-- originTimestamp, preciseOriginTimestamp, receiveTimestamp or requestReceiptTimestamp, ns -/
  origin : Int
  /-- correctionField, 2^-16 ns -/
  corr : Int
  /-- ingress timestamp in line time, ns -/
  rx : Int
  /-- logMessageInterval -/
  logInt : Int
  /-- Announce dataset: priority1, clockClass, clockAccuracy, variance, priority2, grandmaster, stepsRemoved -/
  p1 : Nat
  cls : Nat
  accu : Nat
  vari : Nat
  p2 : Nat
  gm : Nat
  steps : Nat
  utc : Int
  utcValid : Bool
  deriving DecidableEq, Repr

/-- What the switch sees of a frame (R267 to R271, R276). -/
inductive FrameDst where
  | own | other | group | pdelay | ropeHello
  deriving DecidableEq, Repr

/-- What an internal frame carries (R276, R279). -/
inductive FrameKind where
  /-- a PTP event message of the clock's domain that the transparent clock corrects: Sync or Delay_Req (R270) -/
  | ptpSync (twoStep : Bool) | ptpFollowUp | ptpDelayReq | ptpOther
  /-- a Perzo datagram -/
  | perzo (ep : Endpoint) (bytes : List Byte)
  | otherData
  deriving DecidableEq, Repr

/-- A frame on its way through the switch. -/
structure Frame where
  dst : FrameDst
  /-- bytes, tag included -/
  len : Nat
  /-- 802.1Q VID and PCP; none: untagged (R269, R277) -/
  tag : Option (Nat × Nat)
  fcsOk : Bool
  /-- when it arrives, in octet times of 1 Gb/s since the last launch tick edge, in units of 1/8192 octet (R269) -/
  at_ : Nat
  /-- it is carried in UDP/IPv4 (R270) -/
  udp : Bool
  /-- domainNumber of a PTP message (R270) -/
  domain : Nat
  /-- residence time, 2^-16 ns (R270) -/
  resid : Int
  kind : FrameKind
  /-- which frame it is, for the out list -/
  ident : Nat
  deriving DecidableEq, Repr

/-- Outcome of a two-wire host transfer (R376, R377): the bytes read, or the bytes transferred before the failure. -/
inductive XferEnd where
  | done (read : List Byte) | nack (bytes : Nat) | arbLost (bytes : Nat) | stuck (bytes : Nat)
  deriving DecidableEq, Repr

/-- Which line of the two-wire bus is held (R381). -/
inductive StuckLine where
  | scl | sda
  deriving DecidableEq, Repr

/-- How busy the two-wire target finds the device (R380). -/
inductive TwiBusy where
  | free
  /-- reset in progress or less than 1 ms after t1; image being applied -/
  | address
  /-- the fetch of a read, or the previous word of a write, is not complete; stretched or not, and the
  stretch did or did not suffice -/
  | fetch (within120us : Bool)
  deriving DecidableEq, Repr

/-- A backup-domain count register (R409). -/
inductive CalField where
  | sec | min | hour | day | mon | year
  deriving DecidableEq, Repr

/-- A producer of events with a crossing of its own (R487, R495), or the fabric itself. -/
inductive Producer where
  | fabric | timebase | island | ports | backup | supervisor | watchdog
  deriving DecidableEq, Repr

/-- The commands: one constructor per row of the opcode table. -/
inductive Instr where
  /-- a register write on path p -/
  | regWrite (p : Path) (addr : Nat) (v : Word)
  /-- a read of an RC register; `racing`: bits a hardware event sets in the same access cycle -/
  | rcRead (p : Path) (addr : Nat) (racing : Word)
  /-- a read of the lowest word of a wide quantity -/
  | wideReadCapture (p : Path) (addr : Nat)
  /-- a read of PH_LFR[0] of phase n -/
  | lfrRead (p : Path) (n : Fin 128)
  /-- a read of FE_VSAMP of front end n -/
  | feVsampRead (p : Path) (n : Fin 128)
  /-- a read of TB_FRAC -/
  | tbFracRead (p : Path)
  /-- a write of RCP_SEL -/
  | rcpSelWrite (p : Path) (v : Word)
  /-- VIN_AUX above the restart level for 20 ms; `fallen`: slot 0 has fallen -/
  | vinAuxValid (mv : Nat) (fallen : Bool)
  /-- VIN_AUX below 7.0 V for 10 us -/
  | vinAuxLost (mv : Nat)
  /-- VIN_AUX below V_PFW_MV for 50 us -/
  | seqPfw (mv : Nat)
  /-- the moment at which a waiting shutdown starts its power-down -/
  | powerDownStart
  /-- slot r good for 200 us; `nextFallen`: slot r + 1 has fallen -/
  | railGood (r : Fin 8) (nextFallen : Bool)
  /-- slot r not good within T_RISE_MS -/
  | railNorise (r : Fin 8)
  /-- t_OFF_MIN after a reversal or a power-down; `fallen`: slot 0 has fallen -/
  | powerUpRetry (fallen : Bool)
  /-- slot r has fallen during a power-down -/
  | railFallen (r : Fin 8)
  /-- T_FALL_MS after the disable of slot r without a fall -/
  | railFallTimeout (r : Fin 8)
  /-- slot r out of its window for 10 us, above it or below it -/
  | railWindowExit (r : Fin 8) (above : Bool)
  /-- PB_N held 50 ms; `fallen`: slot 0 has fallen -/
  | pbWake (fallen : Bool)
  /-- PB_N released after 50 ms to 2 s -/
  | pbShortPress
  /-- PB_N held 8 s -/
  | pbLongPress
  /-- SEQ_CMD written with CMD 1 and KEY -/
  | seqCmdOff (p : Path) (key : Byte)
  /-- SEQ_CMD written with CMD 2 and KEY -/
  | seqCmdReboot (p : Path) (key : Byte)
  /-- SEQ_CMD written with CMD 3 and KEY -/
  | seqCmdHostrst (p : Path) (key : Byte)
  /-- SEQ_CMD written with CMD 4 and KEY -/
  | seqCmdClrEvt (p : Path) (key : Byte)
  /-- RST0_MS or RST1_MS expires -/
  | resetStretchEnd (which : Fin 2)
  /-- the device, drained to REST, starts its rail sequence -/
  | restEntry
  /-- REST is left; `fallen`: slot 6 has fallen -/
  | restExit (fallen : Bool)
  /-- t2: the fuse map is read -/
  | fuseRead
  /-- the island's start-up self-check ends -/
  | islandSelfCheckDone (pass : Bool)
  /-- store recall completes; `romOk`: the service-core ROM passed its CRC-32 -/
  | storeRecallDone (romOk : Bool)
  /-- 15 ms after t2 -/
  | recallTimeout (romOk : Bool)
  /-- a slot's container has been read: its bytes, the other slot's 64 header bytes, a two-wire cause if the read
  failed, whether the speed was dropped, whether the SRAM pool passed -/
  | imageReadDone (slot : Fin 2) (bytes otherHdr : List Byte) (fail : Option Nat) (speedDrop sramOk : Bool)
  /-- t6 -/
  | imageApplyDone
  /-- t7: ms since LOAD entry, and the front ends that failed the Echo self-test -/
  | endOfLoad (fails : List (Fin 128 × Fin 6))
  /-- LDR_CMD written with CMD 1 and KEY -/
  | ldrCmdReload (p : Path) (key : Byte)
  /-- LDR_CMD written with CMD 2, SLOT and KEY -/
  | ldrCmdCommit (p : Path) (key : Byte) (slot : Fin 2)
  /-- the read-back of a COMMIT: bytes from offset 64, and whether the header was written and read back -/
  | commitDone (readback : List Byte) (hdrOk : Bool)
  /-- LDR_CMD written with CMD 3 and KEY -/
  | ldrCmdAbort (p : Path) (key : Byte)
  /-- an IMAGE_BLOCK message -/
  | imageBlock (ep : Endpoint) (msg : List Byte)
  /-- a page write is acknowledged, or POLL_MS expires -/
  | eepromPageWriteDone (ok : Bool)
  /-- 50 us after SEN<g> turned on -/
  | stageWakeDone (g : Fin 8)
  /-- the valley comparator of phase n calls at instant `at` (2^-30 s) -/
  | onTimeStart (n : Fin 128) (at_ : Nat)
  /-- the on-time of phase n is due to end at `at`, with the IMON converter's reading; `calls`: the comparator still calls -/
  | onTimeEnd (n : Fin 128) (at_ : Nat) (code : BitVec 12) (calls : Bool)
  /-- IMON of phase n reaches zero in the off period -/
  | imonZeroCross (n : Fin 128)
  /-- an on-time code is computed for phase n from the regulation sample -/
  | tonCodeUpdate (n : Fin 128)
  /-- the token holder n has not called in time; instant -/
  | tokenSkip (n : Fin 128) (at_ : Nat)
  /-- IMON of phase n crosses its fast limit at `at`, outwards or back; its level as a code of the DAC's and converter's scale -/
  | fastLimitCross (n : Fin 128) (at_ : Nat) (code : BitVec 12)
  /-- a slow-limit bin of phase n ends; the sum of the IMON converter's codes over the time it covers -/
  | slowLimitBinEnd (n : Fin 128) (sum : Nat)
  /-- four consecutive IMON samples of phase n, the last at `at` -/
  | phImonRange (n : Fin 128) (at_ : Nat) (codes : Vector (BitVec 12) 4)
  /-- four consecutive IMON samples of phase n in BRAKE, `us` after its entry -/
  | brakeExit (n : Fin 128) (us : Nat) (codes : Vector (BitVec 12) 4)
  /-- 50 us after BRAKE entry of phase n, at `at` -/
  | phBrakeStuck (n : Fin 128) (at_ : Nat)
  /-- 20 us after a decision for channel k -/
  | discOffDeadline (k : Fin 128)
  /-- the dwell count of channel k reaches DWELL_TK -/
  | shedStart (k : Fin 128)
  /-- eight ramp cycles of the shedding phase of channel k are done -/
  | shedComplete (k : Fin 128)
  /-- four saturated cycles of phase n with IMON below OL_THR -/
  | phOpenLoad (n : Fin 128)
  /-- 100 us after the declaration on channel k, or after the start of a repeat -/
  | confirmBiasStart (k : Fin 128)
  /-- 1 ms after it -/
  | confirmTestOutcome (k : Fin 128)
  /-- a 10 ms repeat starts while LOST -/
  | confirmTestRepeat (k : Fin 128)
  /-- a base sample reaches the fabric: codes, over-range, parity, and the Squeeze encoder's fault, if any -/
  | baseSample (src : SampSrc) (codeV codeI : Int) (parityOk encFault : Bool)
  /-- the decimator FIFO of front end n is full -/
  | fabFifoOvf (n : Fin 128)
  /-- a base sample reaches the island -/
  | islandSample (n : Fin 128) (codeV codeI : Int) (parityOk : Bool)
  /-- a window comparator of front end n crosses OV_MV or UV_MV -/
  | windowComparatorTrip (n : Fin 128) (above tested : Bool)
  /-- it returns inside by its hysteresis -/
  | windowComparatorRelease (n : Fin 128) (above : Bool)
  /-- an Echo pass of front end n falls due or may start -/
  | echoPassStart (n : Fin 128)
  /-- its 64th tick has been sampled -/
  | echoPassEnd (n : Fin 128)
  /-- the last pass of density front end n becomes DMAX_S old -/
  | feEchoOverdue (n : Fin 128)
  /-- a write to an FE_CAL_ register -/
  | feCalWrite (p : Path) (addr : Nat) (v : Word)
  /-- the regulator of channel k computes for the next tick; slack in timebase counts; for each of its phases the sum of the
  128 IMON converter codes of the tick -/
  | regulatorCompute (k : Fin 128) (slack : Int) (sums : List Nat)
  /-- the next launch tick edge; slack of the liveness token (none: missing) -/
  | launchTickStrike (live : Option Int)
  | chCmdStop (p : Path) (k : Fin 128)
  | chCmdPause (p : Path) (k : Fin 128)
  | chCmdResume (p : Path) (k : Fin 128)
  | chCmdClearFault (p : Path) (k : Fin 128)
  | chCmdDisable (p : Path) (k : Fin 128)
  | chCmdEnable (p : Path) (k : Fin 128)
  /-- channel k reaches its quiescent point -/
  | drainQuiescent (k : Fin 128)
  /-- the return of channel k is qualified -/
  | qualifiedReturn (k : Fin 128)
  /-- T_DISC_US after DISC closed on the return -/
  | stepResumed (k : Fin 128)
  /-- CH_RCP_ARM written -/
  | chRcpArm (p : Path) (k : Fin 128) (v : Word)
  /-- CH_RCP_ARM written with GO -/
  | chRcpGo (p : Path) (k : Fin 128)
  | autoLaunch (k : Fin 128)
  /-- step engine g evaluates for the next tick; slack in timebase counts -/
  | stepEngineEval (g : Fin 8) (slack : Int)
  | pulseSegment (k : Fin 128)
  | rcpTempTimeout (k : Fin 128)
  | topOffStart (k : Fin 128)
  | rcpTopoffTimeout (k : Fin 128)
  | rcpHoldEnd (k : Fin 128)
  /-- the publication tick of channel k; `inTime`: the update is complete -/
  | estPublish (k : Fin 128) (inTime : Bool)
  | estDiverge (k : Fin 128)
  | capWriteback (k : Fin 128)
  | estCmdReinit (p : Path) (k : Fin 128)
  | estCmdKlogStart (p : Path) (k : Fin 128)
  | estCmdKlogStop (p : Path) (k : Fin 128)
  | estCmdGrade (p : Path) (k : Fin 128)
  | estCmdRelearn (p : Path) (k : Fin 128)
  | klogPoint (k : Fin 128)
  /-- allocation n is computed at run tick 8n - 1; slack in timebase counts -/
  | sumpAllocation (slack : Int)
  | grantsZeroed
  | sumpFeLost
  | sourceBack
  /-- INHIBIT_N low on 16 samples -/
  | sumpInhibit
  /-- INHIBIT_N high, or 5 ms after pin and told inhibit cleared -/
  | inhibitClear
  | sumpDroop
  | droopRelease
  | sumpOv
  | ovRelease
  | droopTimeout
  | droopRecovered
  | pauseQuiescent
  | rideTimeout
  | sumpReturned
  | rideTransitionDone
  | pauseClassClear
  | sumpBudgetStale
  | ptpSync (m : PtpMsg)
  | ptpAnnounce (m : PtpMsg)
  /-- `tx`: when the response to a Pdelay_Req leaves, in line time, ns -/
  | ptpDelayMessage (m : PtpMsg) (tx : Int)
  /-- `tx`: when the message leaves, in line time, ns -/
  | delayReqSend (tx : Int)
  | pdelayReqSend (port : Fin 2) (tx : Int)
  | syncLoss
  | tbFreerun
  | timeStepApply
  | tcmdLaunch
  | tcmdSetpoint
  | tcmdGroupRelease
  | tcmdChannelCmd
  | tcmdMode
  | tcmdCancel
  /-- entry e is released, 16 ticks before its launch tick -/
  | tcmdRelease (e : Fin 256)
  | tcmdDone (e : Fin 256)
  /-- TB_GMASK[g] word 3 written -/
  | gmaskCommit (p : Path) (g : Fin 16) (v : Word)
  /-- TB_GCTRL[g] written with EN 0 -/
  | groupDisable (p : Path) (g : Fin 16)
  | deviceDrainDone
  | modeDrainTimeout
  | ppsStart
  | ppsEnd
  | rtcHandoff
  | portUp (port : Fin 2)
  | linkPortDown (port : Fin 2)
  | frameIngress (port : Fin 2) (f : Frame)
  | ropeHelloSend (port : Fin 2)
  /-- a Perzo message received in a rope hello's frame -/
  | ropeHello (port : Fin 2) (msg : List Byte)
  | headTimeout
  | tailTimeout
  /-- an ARP request for address `target` from (ip, mac); the 802.1Q VID of its frame -/
  | arpRequest (port : Fin 2) (target ip mac : Nat) (vid : Option Nat)
  | icmpEcho (port : Fin 2) (ip mac : Nat) (vid : Option Nat) (bytes : List Byte)
  | hello (ep : Endpoint) (msg : List Byte)
  | bye (ep : Endpoint) (msg : List Byte)
  | heartbeat (ep : Endpoint) (msg : List Byte)
  | read (ep : Endpoint) (msg : List Byte)
  | write (ep : Endpoint) (msg : List Byte)
  | toldTemp (ep : Endpoint) (msg : List Byte)
  | toldFixture (ep : Endpoint) (msg : List Byte)
  | toldBudget (ep : Endpoint) (msg : List Byte)
  | toldInhibit (ep : Endpoint) (msg : List Byte)
  | toldCellId (ep : Endpoint) (msg : List Byte)
  | extSetpoint (ep : Endpoint) (msg : List Byte)
  | ringSub (ep : Endpoint) (msg : List Byte)
  | ringAck (ep : Endpoint) (msg : List Byte)
  | ringReplay (ep : Endpoint) (msg : List Byte)
  | ringPush (ep : Endpoint) (msg : List Byte)
  /-- the device takes the next record of session s's input ring -/
  | inputRingConsume (ses : Fin 4)
  /-- ring r sends what it may -/
  | ringDataSend (r : Fin 64)
  | ringRetransmit (r : Fin 64)
  /-- RING_CTRL of ring r written with EN 0 -/
  | ringDisable (p : Path) (r : Fin 64)
  | pzSessionLost (ses : Fin 4)
  | challenge (ep : Endpoint) (msg : List Byte)
  | unlockHmac (ep : Endpoint) (msg : List Byte)
  | unlockPwd (ep : Endpoint) (msg : List Byte)
  | enter (ep : Endpoint) (msg : List Byte)
  | exit (ep : Endpoint) (msg : List Byte)
  | regionUnlock (ep : Endpoint) (msg : List Byte)
  | regionLock (ep : Endpoint) (msg : List Byte)
  | regionPwd (ep : Endpoint) (msg : List Byte)
  | tap (ep : Endpoint) (msg : List Byte)
  | unlockLapse (ses : Fin 4)
  | nonceLapse (ses : Fin 4)
  /-- a write of SQZ_CFG or SQZ_Q -/
  | sqzCfgWrite (p : Path) (addr : Nat) (v : Word)
  | islandTempCheck
  | safSumpOv2 (above : Bool)
  /-- SFLT<g>_N low for 1 us -/
  | safSflt (g : Fin 8)
  | safClkLoss
  | safFabricStall
  | safParam (addr : Nat) (m : Word)
  | cmpTestStart (n : Fin 128)
  | cmpTestDone (n : Fin 128) (pass : Bool)
  /-- a signature computation completes; a corrupted word of the working copy, if any: address and flipped bits -/
  | signatureDone (flip : Option (Nat × Word))
  | keepaliveLost
  /-- the copies disagree; `recovers`: the island recovers and records it -/
  | safLockstep (recovers : Bool)
  /-- SAF_CMD written with CMD 1, GAL and KEY -/
  | galRelease (p : Path) (g : Fin 8) (key : Byte)
  | devRelease (p : Path) (key : Byte)
  | proof (p : Path) (key : Byte)
  /-- the three items of the proof test -/
  | proofDone (safeN decay disc : Bool)
  | safSigrefWrite (p : Path) (v : Word)
  | safetySetApplied
  /-- a target write transaction: the bytes after address + W; how busy the device is at the address and at the words -/
  | twiTargetWrite (bytes : List Byte) (busy : TwiBusy)
  /-- a target read: address bytes (none: continued), number of words, how busy -/
  | twiTargetRead (addr : Option (List Byte)) (words : Nat) (busy : TwiBusy)
  /-- TWI_XCTL written with GO 1 -/
  | twiXferStart (p : Path) (v : Word)
  | twiXferDone (r : XferEnd)
  /-- loss of arbitration; the address byte on the bus if the loss fell within one -/
  | twiArbLoss (addrByte : Option Byte)
  | twiRetry
  | twiBusStuck (line : StuckLine)
  | rtcAlarm (fallen : Bool)
  | rtcPwake (fallen : Bool)
  | rtcOscFail
  | rtcSubsecRead (p : Path)
  | rtcYearRead (p : Path)
  | rtcFreezeTimeout (p : Path)
  | rtcCtrlWrite (p : Path) (v : Word)
  | rtcPwakeWrite (p : Path) (v : Word)
  | rtcBramWrite (p : Path) (i : Fin 16) (v : Word)
  /-- VBAK compared: below the threshold or not -/
  | vbakCheck (low : Bool)
  | domainCollapse
  /-- WDT_SERVE[s] written with a token -/
  | wdtServe (p : Path) (slot : Fin 24) (v : Word)
  | wdtExpired (slot : Fin 24)
  | wdtCfgWrite (p : Path) (slot : Fin 24) (v : Word)
  | wdtClkLoss
  | wdtIntExpired (slot : Fin 24)
  /-- a reading of sensor i: the result and the two oscillators' estimates, 0.01 degC -/
  | dieSensorReading (i : Fin 10) (t e1 e2 : Int)
  | thmTStale (k : Fin 128)
  | eventCrossingConsume (prod : Producer)
  | holdoffExpire (g : Fin 16)
  | intcClaim (p : Path) (t : Fin 8)
  | intcEoi (p : Path) (t : Fin 8) (v : Word)
  | intcSwset (p : Path) (v : Word)
  | nvmFormat (p : Path) (key : Byte)
  | nvmFormatted
  | calCommit (p : Path) (key : Byte)
  | nvmCalCommitted
  | define (p : Path) (key : Byte)
  | scanNow (p : Path) (key : Byte)
  /-- one page is margin-read: words of the page that fail the margin, and words uncorrectable -/
  | marginScan (weak bad : List (Fin 32))
  | nvmWordWriteDone
  | nvmWindowWrite (p : Path) (addr : Nat) (v : Word)
  | commitSetDone
  /-- ACC_FCMD written: the whole word -/
  | fuseProgramWord (p : Path) (v : Word)
  | fuseProgramBlock (p : Path) (v : Word)
  | accFuseDone
  /-- a sump tick ends: ring count and measured VCORE, mV -/
  | vcoreAdapt (rate vcore : Nat)
  | fabUnitReset (slot : Fin 8)
  | calendarWrap
  | rtcTrimWindow
  | rtcCountWrite (p : Path) (field : CalField) (v : Word)
  /-- SFLT<g>_N returns high -/
  | sfltHigh (g : Fin 8)
  /-- ACC_SVC written with STAGE_OP 1 -/
  | stageOperationEnable (p : Path)
  deriving DecidableEq, Repr

end Sys2Proof
end

