-- ==== Sys2Proof/Decode.lean ====
section
/-!
DEFINITION. The command a word spells by the opcode table's bits. No row of the table gives bits, so no word spells a
command: commands reach the block as events and accesses, not as words.
-/

namespace Sys2Proof

/-- The command that a word of nbits bits spells by the table: none, for no row has bits. -/
def decodeTableWord (_nbits _w : Nat) : Option Instr := none

end Sys2Proof
end

