-- ==== Sys2Proof/Config.lean ====
section
/-!
DEFINITION. What one device fixes and the spec leaves open, and the free values. The opaque constants have no body:
nothing can prove a value of them, so a statement holds for every value (log entries 2, 3, 84 and 86).
-/

namespace Sys2Proof.Config

/-- A free byte: the n-th value the spec leaves undefined (backup RAM after a collapse, R405; the nonce's entropy,
R477). `State.free` counts them. -/
opaque freeByte : Nat → Byte

/-- Version of the service cores' ROM (R474). -/
opaque romVersion : Word

/-- The core part of each interrupt source's mask, which Tvednyx firmware sets (R448). -/
opaque coreMask : Nat → BitVec 4

/-- Echo reference levels in force on a front end, from the trim words of the fuse map, whose format is Tvednyx's own
(R12, R102): the true value of level j of quantity q (0 V, 1 I) on front end n for the trim words given. -/
opaque echoLevel : List Word → Nat → Nat → Nat → Int

/-- The number by which ARG names an unmet condition of a release or of a SAF_CMD, whose coding the spec leaves open
(R343): the conditions are counted as `Machine.Unmet` gives them. -/
opaque unmetArg : Nat → BitVec 32

/-- The PCP of an ARP or ICMP frame the device sends tagged: R277 gives one to PTP, control-port and telemetry-port frames
alone. -/
opaque pcpOther : BitVec 3

/-- The service core that keeps a channel's estimate: R431 has a reset core lose its updates, and the spec does not say which
channels are a core's. -/
opaque coreOf : Nat → Fin 4

/-- LEND_SOC, the state of charge, 0.01 %, from which an eligible lender may lend (R229): the spec names it and gives it
no register and no value. -/
opaque lendSoc : Int

end Sys2Proof.Config
end

