-- ==== Sys2Proof/Machine/Num.lean ====
section
/-!
DEFINITION. Arithmetic the spec's pseudocode names: rounding, clamping, truncating division, saturating counters,
two's complement, little-endian bytes, bit fields (R9, R10, R95), and finite tables by index.
-/

namespace Sys2Proof.Machine

/-- Clamp an integer to an interval. -/
def clampI (x lo hi : Int) : Int := if x < lo then lo else if hi < x then hi else x

/-- Clamp a natural number from above: a saturating counter's value. -/
def satN (x top : Nat) : Nat := if top < x then top else x

/-- Add one to a saturating counter of w bits. -/
def incSat (w x : Nat) : Nat := satN (x + 1) (2 ^ w - 1)

/-- Add n to a saturating counter of w bits. -/
def addSat (w x n : Nat) : Nat := satN (x + n) (2 ^ w - 1)

/-- rnd(n, d) of R95: n / d rounded to the nearest integer, halves away from zero; 0 for d = 0, which no rule
forms. -/
def rnd (n d : Int) : Int :=
  if d = 0 then 0
  else
    let q := (2 * n.natAbs + d.natAbs) / (2 * d.natAbs)
    if (n < 0) = (d < 0) then (q : Int) else -(q : Int)

/-- div of the pseudocode: truncation toward zero. -/
def divT (n d : Int) : Int := Int.tdiv n d

/-- Floor and ceiling of an exact quotient by a positive divisor. -/
def floorD (n d : Int) : Int := Int.fdiv n d
def ceilD (n d : Int) : Int := -(Int.fdiv (-n) d)

/-- The low w bits of an integer as a natural number (two's complement). -/
def wrapN (w : Nat) (x : Int) : Nat := (x % ((2 : Int) ^ w)).toNat

/-- The signed value of the low w bits of a natural number. -/
def signN (w x : Nat) : Int :=
  let m := x % 2 ^ w
  if m < 2 ^ (w - 1) then (m : Int) else (m : Int) - (2 : Int) ^ w

/-- Saturate an integer into a signed field of w bits. -/
def satI (w : Nat) (x : Int) : Int := clampI x (-((2 : Int) ^ (w - 1))) ((2 : Int) ^ (w - 1) - 1)

/-- A register word from a natural number or an integer. -/
def wordN (x : Nat) : Word := BitVec.ofNat 32 x
def wordI (x : Int) : Word := BitVec.ofNat 32 (wrapN 32 x)

/-- A signed 32-bit register's value. -/
def wordS (w : Word) : Int := signN 32 w.toNat

/-- Bits [lo + w - 1 : lo] of a natural number. -/
def fieldN (x lo w : Nat) : Nat := (x >>> lo) % 2 ^ w

/-- The same of a register word. -/
def field (x : Word) (lo w : Nat) : Nat := fieldN x.toNat lo w

/-- A bit of a natural number as a Bool; a Bool as a number. -/
def bitN (x i : Nat) : Bool := x.testBit i
def b2n (b : Bool) : Nat := if b then 1 else 0

/-- Set or clear bit i of a mask. -/
def setBitN (x i : Nat) (b : Bool) : Nat :=
  if b then x ||| (1 <<< i) else if x.testBit i then x - 2 ^ i else x

/-- Number of set bits among the low n bits. -/
def popN : Nat → Nat → Nat
  | 0, _ => 0
  | n + 1, x => popN n x + b2n (x.testBit n)

/-- The indices below n that are set in x, ascending. -/
def bitsOf (n x : Nat) : List Nat := (List.range n).filter fun i => x.testBit i

/-- The mask of a list of indices. -/
def maskOf (l : List Nat) : Nat := l.foldl (fun m i => m ||| (1 <<< i)) 0

/-- The n little-endian bytes of a natural number (R10). -/
def leBytes : Nat → Nat → List Byte
  | 0, _ => []
  | n + 1, x => BitVec.ofNat 8 x :: leBytes n (x / 256)

/-- The little-endian bytes of an integer in n bytes. -/
def leBytesI (n : Nat) (x : Int) : List Byte := leBytes n (wrapN (8 * n) x)

/-- The natural number of little-endian bytes. -/
def leNat : List Byte → Nat
  | [] => 0
  | b :: l => b.toNat + 256 * leNat l

/-- The bytes from offset o, n of them, absent ones 0. -/
def slice (l : List Byte) (o n : Nat) : List Byte :=
  let m := (l.drop o).take n
  m ++ List.replicate (n - m.length) 0

/-- Unsigned and signed little-endian fields of n bytes at offset o. -/
def leAt (l : List Byte) (o n : Nat) : Nat := leNat ((l.drop o).take n)
def leAtS (l : List Byte) (o n : Nat) : Int := signN (8 * n) (leAt l o n)

/-- Byte at an offset. -/
def byteAt (l : List Byte) (o : Nat) : Nat := leAt l o 1

/-- All bytes are zero. -/
def allZero (l : List Byte) : Bool := l.all fun b => b == 0

/-- Little-endian words of a byte list. -/
def leWords (l : List Byte) (n : Nat) : List Word := (List.range n).map fun i => wordN (leAt l (4 * i) 4)

/-- Sum and maximum of integer lists. -/
def sumI (l : List Int) : Int := l.foldl (· + ·) 0
def sumN (l : List Nat) : Nat := l.foldl (· + ·) 0
def maxN (l : List Nat) : Nat := l.foldl max 0

/-- A sorted list of natural numbers without repeats: insertion and removal. -/
def insN (x : Nat) : List Nat → List Nat
  | [] => [x]
  | y :: l => if x < y then x :: y :: l else if x = y then y :: l else y :: insN x l
def delN (x : Nat) (l : List Nat) : List Nat := l.filter (· != x)

/-- Association lists in canonical form: keys strictly rising, no entry equal to the value an unlisted key reads
as. Reading, and writing one key. -/
def alGet {α : Type} (d : α) (k : Nat) : List (Nat × α) → α
  | [] => d
  | (j, a) :: l => if k = j then a else alGet d k l

/-- Write key k; a value equal to the default removes the entry. -/
def alSet {α : Type} [DecidableEq α] (d : α) (k : Nat) (a : α) : List (Nat × α) → List (Nat × α)
  | [] => if a = d then [] else [(k, a)]
  | (j, b) :: l =>
    if k < j then (if a = d then (j, b) :: l else (k, a) :: (j, b) :: l)
    else if k = j then (if a = d then l else (k, a) :: l)
    else (j, b) :: alSet d k a l

/-- The canonical form of such a list: keys at least lo, strictly rising, no default value. -/
def alWf {α : Type} [DecidableEq α] (d : α) : Nat → List (Nat × α) → Bool
  | _, [] => true
  | lo, (k, a) :: l => decide (lo ≤ k) && !decide (a = d) && alWf d (k + 1) l

/-- Entry k of a plain association list. -/
def alFind {α : Type} (k : Nat) : List (Nat × α) → Option α
  | [] => none
  | (j, a) :: l => if k = j then some a else alFind k l

/-- Replace element i of a list. -/
def lset {α : Type} (l : List α) (i : Nat) (a : α) : List α := l.set i a

/-- Modify element i of a list. -/
def lmod {α : Type} (l : List α) (i : Nat) (f : α → α) : List α :=
  match l[i]? with
  | some a => l.set i (f a)
  | none => l

/-- Entry i of a table, a default beyond its end. -/
def tget {α : Type} {n : Nat} (d : α) (v : Vector α n) (i : Nat) : α := v.toList.getD i d

/-- Modify entry i of a table; nothing beyond its end. -/
def tmod {α : Type} {n : Nat} (v : Vector α n) (i : Nat) (f : α → α) : Vector α n :=
  if h : i < n then v.set i (f v[i]) h else v

end Sys2Proof.Machine
end

