-- ==== Sys2Proof/Machine/Crc.lean ====
section
/-!
DEFINITION. The checks of R11: CRC-32, CRC-32C and CRC-8, bit by bit from their polynomials.
-/

namespace Sys2Proof.Machine

/-- One bit of a reflected CRC of 32 bits with the reflected polynomial `p`. -/
def crcBit (p c : Nat) : Nat := if c % 2 = 1 then (c >>> 1) ^^^ p else c >>> 1

/-- One byte of a reflected CRC. -/
def crcByte (p c : Nat) (b : Byte) : Nat :=
  let x := c ^^^ b.toNat
  crcBit p (crcBit p (crcBit p (crcBit p (crcBit p (crcBit p (crcBit p (crcBit p x)))))))

/-- A reflected 32-bit CRC, all ones at the start and at the end. -/
def crcRefl (p : Nat) (l : List Byte) : Nat := l.foldl (crcByte p) 0xFFFFFFFF ^^^ 0xFFFFFFFF

/-- CRC-32 (polynomial 0x04C11DB7, reflected 0xEDB88320). -/
def crc32 (l : List Byte) : Nat := crcRefl 0xEDB88320 l

/-- CRC-32C (polynomial 0x1EDC6F41, reflected 0x82F63B78). -/
def crc32c (l : List Byte) : Nat := crcRefl 0x82F63B78 l

/-- One bit of the CRC-8 with polynomial 0x07. -/
def crc8Bit (c : Nat) : Nat := if 128 ≤ c then ((c <<< 1) % 256) ^^^ 7 else c <<< 1

/-- One byte of the CRC-8. -/
def crc8Byte (c : Nat) (b : Byte) : Nat :=
  let x := c ^^^ b.toNat
  crc8Bit (crc8Bit (crc8Bit (crc8Bit (crc8Bit (crc8Bit (crc8Bit (crc8Bit x)))))))

/-- CRC-8 (not reflected, start 0, no final XOR). -/
def crc8 (l : List Byte) : Nat := l.foldl crc8Byte 0

/-- A record with its CRC-32C appended (R302). -/
def withCrc32c (l : List Byte) : List Byte := l ++ leBytes 4 (crc32c l)

/-- A record whose last four bytes are the CRC-32C of those before. -/
def crc32cOk (l : List Byte) : Bool :=
  decide (4 ≤ l.length) && decide (leAt l (l.length - 4) 4 = crc32c (l.take (l.length - 4)))

end Sys2Proof.Machine
end

