-- ==== Sys2Proof/Machine/State.lean ====
section
/-!
DEFINITION. The state of the GB7128 as plain data, its parts in the order of the spec's chapters, the reasons a step
can stop, and the state right after reset. A field's docstring gives its width, the file and rule of spec/ that
names it, and its value at reset; the default value of the field is that value.
-/

namespace Sys2Proof.Machine

/-- Why a step stops with a fault: no command of this block does, so there is no reason (every command has the effect
the spec gives it, in every state). -/
inductive Fault where
  deriving DecidableEq

/-- Why a command is refused by the model. -/
inductive Refusal where
  /-- Raised by `exec` for a command that has no meaning yet; safe, the model stops. -/
  | notModelled (mnemonic : String)
  deriving DecidableEq, Repr

/-- The modes of R1, in the order of their codes (R525). -/
inductive Mode where
  | backup | ship | rest | load | run | safe | service
  deriving DecidableEq, Repr

/-! ### Phases (R36 to R78) -/

/-- The level of a PWM pin. -/
inductive Pwm where
  | hiZ | mid | high | low
  deriving DecidableEq, Repr

/-- PH_STAT.STATE. -/
inductive PhSt where
  | off | idle | runC | runD | shedding | shed | brake | fault
  deriving DecidableEq, Repr

/-- One phase controller and its timing core. -/
structure Phase where
  /-- level of PWM<n>, tri-level | 02 R37, R38 | hiZ -/
  pwm : Pwm := .hiZ
  /-- PH_STAT.STATE, 4 bit | 02 R73 | off -/
  st : PhSt := .off
  /-- PH_STAT.DIR, 1 = discharge | 02 R73 | 0 -/
  dir : Bool := false
  /-- PH_STAT.SAT, last cycle saturated | 02 R47 | 0 -/
  sat : Bool := false
  /-- PH_STAT.LIM, last cycle limited | 02 R51 | 0 -/
  lim : Bool := false
  /-- PH_STAT.OCF_RUN, consecutive limited cycles, 8 bit | 02 R52 | 0 -/
  ocfRun : Nat := 0
  /-- PH_STAT.SAT_RUN, consecutive saturated cycles, 3 bit | 02 R65 | 0 -/
  satRun : Nat := 0
  /-- consecutive saturated cycles with IMON below OL_THR, 3 bit | 02 R65 | 0 -/
  olRun : Nat := 0
  /-- PH_TON.TON_CODE, on-time code in force, 16 bit, 2^-30 s | 02 R45, R46 | 0 -/
  tonCode : Nat := 0
  /-- mailbox of on-time codes on their way to the timing core, two entries of 16 bit | 02 R46, 18 R488 | empty -/
  tonMail : List Nat := []
  /-- PH_TON.FSW_MEAS, 16 bit, kHz | 02 R73 | 0 -/
  fswMeas : Nat := 0
  /-- on-time starts counted for FSW_MEAS in the present 1/1,024 s | 02 R73 | 0 -/
  cycles : Nat := 0
  /-- PH_IMON, latest IMON current, signed 32 bit, uA | 02 R40 | 0 -/
  imon : Int := 0
  /-- the IMON converter's reading it comes from, 12 bit | 02 R41 | DESIGN CHOICE 0 (log entry 1) -/
  imonCode : Nat := 0
  /-- IMON reached OL_THR in the present cycle | 02 R65 | false -/
  olHit : Bool := false
  /-- the phase was in an on-time when a decision brought it to mid | 02 R71 | false -/
  cut : Bool := false
  /-- tick-averaged IMON current, signed 32 bit, uA | 04 R129 | 0 -/
  imonAvg : Int := 0
  /-- PH_IAVG, slow-limit window average, signed 32 bit, uA | 02 R53 | 0 -/
  iavg : Int := 0
  /-- bins of the slow-limit window, newest first: average, signed uA, and the launch ticks it covers | 02 R53 | empty -/
  ocsBins : List (Int × Nat) := []
  /-- run tick at which the slow-limit window restarted | 02 R53 | 0 -/
  ocsFrom : Nat := 0
  /-- PH_DEM, struck demand share, signed 32 bit, uA | 02 R73, 04 R129 | 0 -/
  dem : Int := 0
  /-- share in force after shed ramps and readmission, signed uA | 02 R527 | 0 -/
  share : Int := 0
  /-- demand DAC code in force, 12 bit | 02 R49 | 0 -/
  dac : Nat := 0
  /-- balance trim bal_j, signed uA | 04 R129 | 0 -/
  bal : Int := 0
  /-- PH_FLT, latched faults, 7 bit | 02 R54 | 0 -/
  flt : Nat := 0
  /-- PH_FLT_HIST, 7 bit | 02 R73 | 0 -/
  fltHist : Nat := 0
  /-- PH_CNT_LIM, 32 bit saturating | 02 R51 | 0 -/
  cntLim : Nat := 0
  /-- PH_CNT_SKIP, 32 bit saturating | 02 R59 | 0 -/
  cntSkip : Nat := 0
  /-- PH_CNT_SHED[15:0], sheds completed | 02 R61 | 0 -/
  cntShed : Nat := 0
  /-- PH_CNT_SHED[31:16], sheds cancelled | 02 R62 | 0 -/
  cntShedX : Nat := 0
  /-- an on-time is running | 02 R43 | false -/
  onTime : Bool := false
  /-- instant of the last on-time start, 2^-30 s | 02 R58 | 0 -/
  tStart : Nat := 0
  /-- instant of the last on-time end, 2^-30 s | 02 R43 | 0 -/
  tEnd : Nat := 0
  /-- the last on-time reached t_ON_MAX | 02 R47 | false -/
  reachedMax : Bool := false
  /-- the fast limit is crossed now | 02 R51 | false -/
  limNow : Bool := false
  /-- the present switching period is a limited cycle | 02 R51 | false -/
  limCycle : Bool := false
  /-- last off-time, 16 bit saturating, 2^-30 s | 02 R74 | 0 -/
  toff : Nat := 0
  /-- IMON magnitudes of the last 64 cycles, newest first, uA | 02 R74 | empty -/
  peaks : List Nat := []
  /-- shed ramp cycle 1 to 8, 0 if none | 02 R61 | 0 -/
  shedStep : Nat := 0
  /-- share from which the shed ramp started, signed uA | 02 R61 | 0 -/
  shedFrom : Int := 0
  /-- last-fault record, 64 bytes | 02 R74 | 64 zero bytes -/
  lfr : List Byte := List.replicate 64 0
  /-- a record captured whose BRK_US is not complete: the bytes so far | 02 R74 | none -/
  lfrOpen : Option (List Byte) := none
  /-- faults of this phase since LOAD, 16 bit saturating | 02 R74 | 0 -/
  faultCnt : Nat := 0
  /-- latest run tick at which the quantity of a cause of R54 was beyond its limit, by cause | 11 R343 | empty -/
  bad : List (Nat × Nat) := []
  deriving DecidableEq, Repr

/-! ### Front ends (R79 to R120) -/

/-- One calibrated base sample with its stamp. -/
structure Samp where
  /-- run-time tick of the stamp -/
  run : Nat
  /-- TB_SEC of the stamp -/
  sec : Nat
  /-- tick index of the stamp, 0 to 8,191 -/
  idx : Nat
  /-- calibrated V, uV -/
  v : Int
  /-- calibrated I, nV -/
  i : Int
  /-- flags OVR, SETTLE, SUBST, UNCAL in bits 0 to 3 (R93) -/
  fl : Nat
  /-- V over range (R93) -/
  vO : Bool
  /-- I over range (R93) -/
  iO : Bool
  /-- current range in force -/
  irng : Nat
  /-- ACC after the entry of this tick -/
  acc : Int
  /-- the path was out of service for this stamp, and its partner supplied the regulation sample (R104) -/
  out : Bool := false
  /-- CH_STAT.SUSPECT of the channel at the stamp (R185) -/
  sus : Bool := false
  deriving DecidableEq, Repr

/-- An Echo pass in progress (R102): its first tick, whether it is a repeat, the range it runs in, and the sums of the six
windows. -/
structure EchoPass where
  start : Nat
  rep : Bool
  irng : Nat := 0
  v0 : Int := 0
  i0 : Int := 0
  v1 : Int := 0
  i1 : Int := 0
  v2 : Int := 0
  i2 : Int := 0
  deriving DecidableEq, Repr

/-- The island's copy of the last calibrated sample of a front end (R333, R108). -/
structure IslSamp where
  run : Nat
  v : Int
  i : Int
  fl : Nat
  deriving DecidableEq, Repr

/-- One measurement front end. -/
structure FrontEnd where
  /-- FE_STAT.PWR: 0 down, 1 A path, 2 B path, 3 density | 03 R118 | 0 -/
  pwr : Nat := 0
  /-- FE_STAT.OUT, out of service | 03 R102 | 0 -/
  out : Bool := false
  /-- FE_STAT.IRNG, 2 bit | 03 R91 | 0 -/
  irng : Nat := 0
  /-- range to take on reconnection, 2 bit | 03 R92 | 0 -/
  irngNext : Nat := 0
  /-- range before the last change, in which the sample stamped with the change's own tick is scaled, 2 bit | 03 R92 | 0 -/
  irngOld : Nat := 0
  /-- FE_STAT.CAL_SRC, 2 bit | 03 R96, R97 | 0 -/
  calSrc : Nat := 0
  /-- FE_STAT.CMP_OV | 03 R101 | 0 -/
  cmpOv : Bool := false
  /-- FE_STAT.CMP_UV | 03 R101 | 0 -/
  cmpUv : Bool := false
  /-- FE_VSAMP, signed 32 bit, uV | 03 R118 | 0 -/
  vs : Int := 0
  /-- FE_ISAMP, signed 32 bit, nV | 03 R118 | 0 -/
  is : Int := 0
  /-- FE_ICUR, signed 32 bit, uA | 03 R118 | 0 -/
  icur : Int := 0
  /-- FE_SFLAG.FLAGS, 4 bit | 03 R93 | 0 -/
  fl : Nat := 0
  /-- run-time tick of the latest sample | 03 R118 | 0 -/
  stk : Nat := 0
  /-- ACC, signed 64 bit | 03 R110 | 0 -/
  acc : Int := 0
  /-- the previous entry of ACC, signed nV | 03 R111 | 0 -/
  accLast : Int := 0
  /-- FE_ACC_SUBST, 32 bit saturating | 03 R111 | 0 -/
  accSubst : Nat := 0
  /-- FE_ACC_OVR, 32 bit saturating | 03 R111 | 0 -/
  accOvr : Nat := 0
  /-- FE_AB.CNT_V, 0 to 328 | 03 R108 | 0 -/
  abV : Nat := 0
  /-- FE_AB.CNT_I, 0 to 328 | 03 R108 | 0 -/
  abI : Nat := 0
  /-- FE_AB_DIFF.DV, 16 bit saturating | 03 R118 | 0 -/
  dv : Nat := 0
  /-- FE_AB_DIFF.DI, 16 bit saturating | 03 R118 | 0 -/
  di : Nat := 0
  /-- FE_ECHO_RES.PTS, 6 bit | 03 R103 | 0 -/
  echoPts : Nat := 0
  /-- FE_ECHO_RES.OK | 03 R103 | 0 -/
  echoOk : Bool := false
  /-- FE_ECHO_RES.RETRY | 03 R103 | 0 -/
  echoRetry : Bool := false
  /-- run-time tick of the last completed pass | 03 R105 | 0 -/
  echoTk : Nat := 0
  /-- FE_ECHO_CNT.DONE, 16 bit saturating | 03 R118 | 0 -/
  echoDone : Nat := 0
  /-- FE_ECHO_CNT.ABORT, 16 bit saturating | 03 R106 | 0 -/
  echoAbort : Nat := 0
  /-- the Echo pass in progress | 03 R102 | none -/
  echo : Option EchoPass := none
  /-- a scheduled pass that waits or is deferred | 03 R104 | false -/
  echoDue : Bool := false
  /-- FE_FLT, 10 bit | 03 R119 | 0 -/
  flt : Nat := 0
  /-- FE_FLT_HIST, 10 bit | 03 R119 | 0 -/
  fltHist : Nat := 0
  /-- consecutive words that failed parity at the fabric's crossing | 03 R94 | 0 -/
  parRun : Nat := 0
  /-- run of V_OVR, saturating at 8 | 03 R119 | 0 -/
  vRun : Nat := 0
  /-- run of I_OVR, saturating at 8 | 03 R119 | 0 -/
  iRun : Nat := 0
  /-- last run tick whose sample carries SETTLE after a range change | 03 R92 | 0 -/
  settle : Nat := 0
  /-- last run tick whose sample carries SETTLE after a reconnection | 03 R102, R106 | 0 -/
  reconn : Nat := 0
  /-- last run tick whose sample is replaced because of Echo | 03 R102, R106 | 0 -/
  subTo : Nat := 0
  /-- a sample of the present tick to be replaced that waits for its partner's, with the encoder's fault | 03 R104, R111 | none -/
  waitSub : Option Bool := none
  /-- run of I_OVR while the regulator runs, saturating at 8 | 04 R136 | 0 -/
  iReg : Nat := 0
  /-- last run tick whose sample is replaced after a line-time step | 03 R88 | 0 -/
  stepSub : Nat := 0
  /-- island count for SAF_VMAX, 2 bit | 11 R333 | 0 -/
  nVmax : Nat := 0
  /-- island count for SAF_VMIN, 2 bit | 11 R333 | 0 -/
  nVmin : Nat := 0
  /-- island count for SAF_IMAX, 2 bit | 11 R333 | 0 -/
  nImax : Nat := 0
  /-- the island's latest sample of this front end | 11 R333, 03 R108 | none -/
  isl : Option IslSamp := none
  /-- run-time tick at which a limit or comparator of this front end was last exceeded | 11 R343 | none -/
  badTk : Option Nat := none
  /-- a comparator test is running; true: it is the repeat | 11 R341 | none -/
  cmpTest : Option Bool := none
  /-- run tick from which a comparator test waits for its conditions | 11 R341 | none -/
  cmpDefer : Option Nat := none
  /-- the running comparator test was started by a CLEAR_FAULT | 11 R343 | false -/
  cmpRetest : Bool := false
  /-- intervals of the comparator tests for which the test has started | 11 R341 | 0 -/
  cmpDone : Nat := 0
  /-- calibrated base samples, newest first, the rate ladder's memory | 03 R83, R84 | empty -/
  hist : List Samp := []
  /-- an N block is open | 10 R303 | false -/
  nOpen : Bool := false
  /-- the open N block is marked RESTART | 10 R304 | true -/
  nRestart : Bool := true
  /-- ACC before the first tick of the open block's span, signed 64 bit | 10 R314 | 0 -/
  nAcc : Int := 0
  /-- run-time tick before the first tick of the open block's span | 10 R305 | 0 -/
  nRun : Nat := 0
  /-- TRATE of the open block, 4 bit | 10 R303 | 0 -/
  nK : Nat := 0
  /-- verification of the open block | 10 R313 | false -/
  nVerify : Bool := false
  /-- mode of the open block, 2 bit | 10 R313 | 0 -/
  nMode : Nat := 0
  /-- V step of the open block, 16 bit | 10 R313 | 0 -/
  nQv : Nat := 0
  /-- I step of the open block, 16 bit | 10 R313 | 0 -/
  nQi : Nat := 0
  deriving DecidableEq, Repr

/-! ### Channels: regulation, states, recipe in progress (R121 to R181) -/

/-- Setpoint modes. -/
inductive SpMode where
  | cc | cv | cp | cr
  deriving DecidableEq, Repr

/-- A setpoint command (R121). `value` is signed only for the segments of a PULSE step. -/
structure Sp where
  mode : SpMode
  /-- true: DISCHARGE -/
  dis : Bool
  value : Int
  vcr : Int := 0
  slew : Int
  ibnd : Int
  vlim : Int := 0
  deriving DecidableEq, Repr

/-- CH_STAT.LIMITER. -/
inductive Limiter where
  | none | vlim | ibnd | grant
  deriving DecidableEq, Repr

/-- Channel states of R131, in the order of their codes. -/
inductive ChSt where
  | disabled | idle | armed | step | paused | tempWait | hold | lost | fault
  deriving DecidableEq, Repr

/-- Who staged a setpoint command (R122). -/
inductive SpSrc where
  | engine | host
  deriving DecidableEq, Repr

/-- Host commands of CH_CMD (R135). -/
inductive ChCmd where
  | stop | pause | resume | clearFault | disable | enable
  deriving DecidableEq, Repr

/-- Why a channel drains (R134). -/
inductive Drain where
  | stop | disable | mode | recipe
  deriving DecidableEq, Repr

/-- The regulator of a channel: what is in force after the last strike (R123, R128). -/
structure Reg where
  /-- the command in force | 04 R121 | none -/
  cmd : Option Sp := none
  /-- a command of the other direction that waits for the reversal | 04 R126 | none -/
  pend : Option Sp := none
  /-- the ramp to zero of a reversal is in force | 04 R126 | false -/
  ramp : Bool := false
  /-- CH_STAT.REV, reversal tick in force | 04 R126 | 0 -/
  rev : Bool := false
  /-- CH_SPX, slewed value x, signed 32 bit | 04 R123 | 0 -/
  x : Int := 0
  /-- CH_SPT, target, signed 32 bit | 04 R123 | 0 -/
  target : Int := 0
  /-- CC trim, signed uA | 04 R128 | 0 -/
  trim : Int := 0
  /-- CV integrator, signed uA | 04 R128 | 0 -/
  accV : Int := 0
  /-- V_LIM integrator acc_l, signed uA | 04 R128 | 0 -/
  accL : Int := 0
  /-- c_prev, signed uA | 04 R128 | 0 -/
  cPrev : Int := 0
  /-- c before grant_limit, signed uA | 07 R225 | 0 -/
  cDem : Int := 0
  /-- CH_IDEM, struck I_dem, signed 32 bit, uA | 04 R128 | 0 -/
  iDem : Int := 0
  /-- CH_STAT.LIMITER | 04 R128 | none -/
  limiter : Limiter := .none
  /-- the command in force restarts from I_dem = 0 as a change of mode | 04 R133 | false -/
  restart : Bool := false
  /-- SLEW_DONE has been raised, or may not be raised, for the command in force | 04 R124 | true -/
  done : Bool := true
  /-- g_eff, uA | 07 R226 | 0 -/
  gEff : Int := 0
  /-- CH_STAT.SAT, a share was clamped | 04 R129 | 0 -/
  sat : Bool := false
  deriving DecidableEq, Repr

/-- What a regulator staged for the next tick (R490). -/
structure RegStage where
  reg : Reg
  shares : List Int
  bals : List Int
  dacs : List Nat
  nAct : Nat
  slewDone : Bool
  reversal : Bool
  /-- a command is struck on the tick (R60, R122) -/
  launched : Bool := false
  /-- it is a lend command's (R231) -/
  lend : Bool := false
  /-- commands superseded, and how many of the channel's staged commands it has taken up -/
  superseded : Nat
  taken : Nat
  /-- the timed setpoint it strikes, and those it supersedes -/
  entry : Option Nat
  beaten : List Nat
  ibEff : Int
  ibnd : Int
  /-- counts before the staging deadline; negative: late -/
  slack : Int
  deriving DecidableEq, Repr

/-- A confirmation test in progress (R67). -/
structure ConfTest where
  /-- the bias has risen: the samples of later ticks count -/
  biased : Bool := false
  /-- run tick at which it rose -/
  biasTk : Nat := 0
  /-- v0 of the A and the B path, uV -/
  v0a : Option Int := none
  v0b : Option Int := none
  /-- the A path, the B path reports open -/
  openA : Bool := false
  openB : Bool := false
  deriving DecidableEq, Repr

/-- The recipe in progress on a channel (R145 to R174). -/
structure RcpRun where
  /-- CH_RCP_STAT.RECIPE, 5 bit | 05 R179 | 0 -/
  recipe : Nat := 0
  /-- CH_RCP_STAT.BOUND | 05 R145 | 0 -/
  bound : Bool := false
  /-- CH_RCP_STAT.STEP, 6 bit | 05 R179 | 0 -/
  step : Nat := 0
  /-- start step of the arm request, 6 bit | 05 R145 | 0 -/
  start : Nat := 0
  /-- TIMED of the arm request | 05 R146 | false -/
  timed : Bool := false
  /-- a GO, or a timed launch, is to act | 05 R146 | false -/
  go : Bool := false
  /-- S, run-time tick of the step's first tick | 05 R147 | 0 -/
  s : Nat := 0
  /-- CH_PAUSE_TK, P, pause ticks in the open step, 32 bit saturating | 05 R147 | 0 -/
  p : Nat := 0
  /-- W, TEMP_WAIT ticks in the step | 05 R147 | 0 -/
  w : Nat := 0
  /-- a step is open | 05 R148 | false -/
  isOpen : Bool := false
  /-- step time at which BLANK_TK counts from, moved by a resume | 05 R153 | 0 -/
  blank0 : Nat := 0
  /-- step times of the steps run before the open one, ticks | 05 R147 | 0 -/
  rtk : Nat := 0
  /-- CH_RCP_STAT.LAST_END, 3 bit | 05 R179 | 7 -/
  lastEnd : Nat := 7
  /-- CH_RCP_STAT.DERATE | 05 R164 | 0 -/
  derate : Bool := false
  /-- CH_RCP_STAT.TOPOFF, top-off in progress | 05 R172 | 0 -/
  topoff : Bool := false
  /-- CH_RCP_STAT.WAIT | 05 R168 | 0 -/
  wait : Bool := false
  /-- a group release stands for the channel | 05 R169 | false -/
  released : Bool := false
  /-- loop counters by step index | 05 R158 | empty -/
  loops : List (Nat × Nat) := []
  /-- confirm counters of slots 0 to 3 | 05 R153 | 0 each -/
  conf : List Nat := [0, 0, 0, 0]
  /-- ACC at arming, signed 64 bit | 05 R145 | 0 -/
  accArm : Int := 0
  /-- ACC of stamp S - 1, signed 64 bit | 05 R149 | 0 -/
  accStep : Int := 0
  /-- SLEW_DONE was raised on the last tick | 05 R152 | false -/
  slewDone : Bool := false
  /-- last run tick of the open step that was not step time | 05 R147, R166 | none -/
  gapTk : Option Nat := none
  /-- ticks spent in TEMP_WAIT without a break | 05 R162 | 0 -/
  tempTk : Nat := 0
  /-- segment of a PULSE step that is struck, 0 base | 05 R165 | 0 -/
  seg : Nat := 0
  /-- capture windows, each pulse: v1 i1 v2 i2 and validity | 05 R166 | empty -/
  pulses : List (Int × Int × Int × Int × Bool) := []
  /-- hold time, ticks | 05 R171 | 0 -/
  holdTk : Nat := 0
  /-- CH_HOLD, recharges done, 8 bit | 05 R172 | 0 -/
  rechg : Nat := 0
  /-- consecutive ticks with the 64-tick mean at or below V_RECHG | 05 R171 | 0 -/
  lowTk : Nat := 0
  /-- ticks of the present top-off | 05 R172 | 0 -/
  topTk : Nat := 0
  /-- blanking ticks left of the present top-off | 05 R172 | 0 -/
  topBlank : Nat := 0
  /-- taper confirm count | 05 R172 | 0 -/
  topConf : Nat := 0
  /-- the demand of a hold is held at 0 by temperature | 05 R173 | false -/
  holdHot : Bool := false
  /-- CH_IBND_EFF, ib_eff, 32 bit, uA | 05 R163 | 0 -/
  ibEff : Int := 0
  /-- sum of positive step charges since arming, uAh | 06 R212 | 0 -/
  qChg : Int := 0
  /-- sum of magnitudes of negative step charges since arming, uAh | 06 R212 | 0 -/
  qDis : Int := 0
  /-- a recipe has been bound since LOAD | 06 R210 | false -/
  armed : Bool := false
  /-- the recipe was graded at completion | 06 R212 | false -/
  graded : Bool := false
  /-- ACC of the entry before the closing tick, when a loss closed the step, signed 64 bit | 04 R140, 05 R160 | 0 -/
  accClose : Int := 0
  deriving DecidableEq, Repr

/-- What a recipe goes on to at a boundary: a step that occupies ticks, the hold, or IDLE by drain with a cause. -/
inductive RcpNext where
  | step (i : Nat)
  | hold
  | idle (cause : Nat)
  deriving DecidableEq, Repr

/-- What the step engine decided for a channel at a tick (R148, R156). -/
inductive EngEff where
  /-- nothing happens but the counters -/
  | stay
  /-- the channel enters FAULT with a cause of the recipe; `slot`: the termination whose action it is -/
  | fault (cause : Nat) (slot : Option Nat)
  /-- TEMP_WAIT is entered, or left -/
  | tempIn | tempOut
  /-- an ARMED channel launches; `entry`: the timed command that launched it -/
  | launch (n : RcpNext) (entry : Option Nat)
  /-- the open step ends with a cause and LAST_END; `drain`: by ABORT -/
  | boundary (cause lastEnd : Nat) (n : RcpNext)
  /-- the recipe ends from TEMP_WAIT or HOLD: the channel drains with the cause -/
  | quit (cause : Nat)
  /-- a top-off starts, or ends -/
  | topOn | topOff
  deriving DecidableEq, Repr

/-- What is staged for one channel for the next tick by its step engine (R148, R490). -/
structure EngAct where
  eff : EngEff
  /-- the recipe's counters after the evaluation -/
  rcp : RcpRun
  /-- the setpoint command of what follows -/
  cmd : Option Sp := none
  deriving DecidableEq, Repr

/-- One channel slot. -/
structure Channel where
  /-- CH_TOPO.NPH, 0 not declared, 1, 2, 4 or 8 | 01 R35 | 0 -/
  nph : Nat := 0
  /-- CH_TOPO.POP | 01 R35 | 0 -/
  pop : Bool := false
  /-- CH_STAT.STATE, 4 bit | 04 R131 | disabled -/
  st : ChSt := .disabled
  /-- the state left for PAUSED, or before a loss | 04 R133, R140 | idle -/
  left : ChSt := .idle
  /-- CH_STAT.BUSY with the drain in progress | 04 R134 | none -/
  drain : Option Drain := none
  /-- CH_STAT.SUSPECT | 04 R136 | 0 -/
  suspect : Bool := false
  /-- V_OVR, not open load, started the SUSPECT | 04 R136 | false -/
  susOvr : Bool := false
  /-- run-time tick of the declaration | 04 R139 | 0 -/
  declTk : Nat := 0
  /-- the confirmation test in progress | 02 R67 | none -/
  test : Option ConfTest := none
  /-- outcome of the test to act at the next launch tick: cell absent | 04 R138 | false -/
  lostNext : Bool := false
  /-- an open finding that is not cleared | 02 R69 | false -/
  isOpen : Bool := false
  /-- CH_STAT.PSRC bit 16, host pause | 04 R133 | 0 -/
  psHost : Bool := false
  /-- CH_STAT.PSRC bit 17, sump pause | 04 R133 | 0 -/
  psSump : Bool := false
  /-- CH_STAT.PSRC bit 18, Echo overdue pause | 04 R133 | 0 -/
  psEcho : Bool := false
  /-- CH_STAT.PSRC bit 19, cell return pause | 04 R133 | 0 -/
  psRet : Bool := false
  /-- pause sources seen in the pause in progress, 4 bit | 10 R321 | 0 -/
  psSeen : Nat := 0
  /-- run-time tick at which the pause in progress began | 10 R321 | none -/
  pauseFrom : Option Nat := none
  /-- run-time tick at which the sump pause began | 07 R235 | none -/
  sumpFrom : Option Nat := none
  /-- ride states passed through by the sump pause, 7 bit | 07 R235 | 0 -/
  sumpStates : Nat := 0
  /-- CH_STAT.DISC, DISC on | 04 R132 | 0 -/
  disc : Bool := false
  /-- the channel asks for DISC closed | 04 R132 | false -/
  discWant : Bool := false
  /-- run-time tick at which DISC closed | 04 R132, 05 R146 | 0 -/
  discTk : Nat := 0
  /-- an opening of DISC waits for the last phase to leave BRAKE | 02 R57 | false -/
  discOpening : Bool := false
  /-- told fixture presence | 09 R287 | none -/
  told : Option Bool := none
  /-- CH_CAUSE, 16 bit | 04 R141 | 0 -/
  cause : Nat := 0
  /-- the cause of a latched fault, 16 bit, 0 none | 04 R136 | 0 -/
  flt : Nat := 0
  /-- channel safe state in force, with its cause | 11 R331 | none -/
  safe : Option Nat := none
  /-- a fault decided and not yet entered: its cause | 11 R331, 04 R136 | none -/
  fltNext : Option Nat := none
  /-- count (2^-28 s) and phase of the detection of a phase that supplies it | 02 R71 | none -/
  det : Option (Nat × Nat) := none
  /-- the removal was told | 04 R139 | false -/
  toldLoss : Bool := false
  /-- qualifying ticks of the return, 0 to 820 | 04 R139 | 0 -/
  qual : Nat := 0
  /-- first tick of the qualification window | 04 R139 | 0 -/
  qualFrom : Nat := 0
  /-- CH_ABS_TK, last absence, ticks, 32 bit saturating | 04 R140 | 0 -/
  absTk : Nat := 0
  /-- IDLE was entered: both paths take IRNG_DEF in the strike of the present or the next launch tick | 03 R91 | false -/
  defRange : Bool := false
  /-- the regulator in force | 04 R128 | as Reg -/
  reg : Reg := {}
  /-- what the regulator staged for the next tick | 18 R490 | none -/
  stage : Option RegStage := none
  /-- what the step engine staged for the next tick | 05 R148, 18 R490 | none -/
  eng : Option EngAct := none
  /-- setpoint commands staged and not struck, in order of staging, each with the run tick of its staging | 04 R122 | empty -/
  cmds : List (SpSrc × Sp × Nat) := []
  /-- host commands that act at the next launch tick, in order | 04 R135 | empty -/
  host : List ChCmd := []
  /-- CH_CNT.REVERSALS, 16 bit saturating | 04 R141 | 0 -/
  nRev : Nat := 0
  /-- CH_CNT.SUPERSEDED, 16 bit saturating | 04 R122 | 0 -/
  nSup : Nat := 0
  /-- CH_IMEAS, signed 32 bit, uA | 04 R141 | 0 -/
  im : Int := 0
  /-- CH_VMEAS, signed 32 bit, uV | 04 R141 | 0 -/
  vm : Int := 0
  /-- phase (offset in the block) that holds the token | 02 R58 | 0 -/
  token : Nat := 0
  /-- instant at which the holder received the token, 2^-30 s | 02 R59 | 0 -/
  tokT : Nat := 0
  /-- instant of the last on-time start in the block, 2^-30 s | 02 R58 | 0 -/
  tokStart : Nat := 0
  /-- active phases, offsets in the block, ascending | 02 R60 | empty -/
  active : List Nat := []
  /-- shed dwell count, ticks | 02 R60 | 0 -/
  dwell : Nat := 0
  /-- launch ticks since the last demand event, saturating at 4 | 02 R60 | 0 -/
  sinceEv : Nat := 0
  /-- phases at mid because a shed ramp or reversal or stop put them there | 02 R64 | true -/
  allMid : Bool := true
  /-- g_k of the allocation in force, uA | 07 R225 | 0 -/
  grant : Int := 0
  /-- lend target lend_k in force, uA | 07 R230 | 0 -/
  lend : Int := 0
  /-- the channel lends: a lend command is struck and its demand nonzero | 07 R231 | false -/
  lending : Bool := false
  /-- lent charge of the lending period, ACC units, signed | 07 R229 | 0 -/
  lentAcc : Int := 0
  /-- the channel stopped on LEND_Q | 07 R231 | false -/
  lendQ : Bool := false
  /-- ticks of the top-off dwell restart after lending | 07 R231 | 0 -/
  lendAfter : Nat := 0
  /-- the recipe in progress | 05 R145 | as RcpRun -/
  rcp : RcpRun := {}
  deriving DecidableEq, Repr

/-! ### Estimation and grading (R182 to R216) -/

/-- A binary64 number (R190): `fin m e` is m times 2 to the e, m odd or m = e = 0. -/
inductive F64 where
  | fin (m e : Int)
  | inf (neg : Bool)
  | nan
  deriving DecidableEq, Repr

/-- The number 0. -/
def F64.zero : F64 := .fin 0 0

/-- EST_STAT.STATE. -/
inductive EstSt where
  | off | wait | valid | frozen
  deriving DecidableEq, Repr

/-- The estimator of one channel. -/
structure Estimator where
  /-- EST_STAT.STATE, 2 bit | 06 R215 | OFF -/
  st : EstSt := .off
  /-- EST_STAT.RELEARN | 06 R200 | 0 -/
  relearn : Bool := false
  /-- EST_STAT.CAP_PROV | 06 R200 | 0 -/
  capProv : Bool := false
  /-- EST_STAT.OCV_FLAT | 06 R196 | 0 -/
  ocvFlat : Bool := false
  /-- EST_STAT.OCV_CLAMP | 06 R188 | 0 -/
  ocvClamp : Bool := false
  /-- EST_STAT.TSTALE | 06 R184 | 0 -/
  tStale : Bool := false
  /-- EST_STAT.DIVERGE | 06 R205 | 0 -/
  diverge : Bool := false
  /-- EST_STAT.ANCHOR, 2 bit | 06 R194 | 0 -/
  anchor : Nat := 0
  /-- EST_STAT.DIRN, 2 bit: 0 rest, 1 charge, 2 discharge | 06 R184 | 0 -/
  dirn : Nat := 0
  /-- EST_STAT.MODEL: index of the model bound to the channel, 3 bit | 06 R186 | none -/
  model : Option Nat := none
  /-- EST_STAT.KLOG | 06 R207 | 0 -/
  kLog : Bool := false
  /-- EST_SOC.SOC_REP, 16 bit, 0.01 % | 06 R193 | 0 -/
  socRep : Int := 0
  /-- EST_SOC.SOC_FILT, 16 bit, 0.01 % | 06 R192 | 0 -/
  socFilt : Int := 0
  /-- EST_SOC_C, signed 32 bit, 0.01 % | 06 R195 | 0 -/
  socC : Int := 0
  /-- EST_SOC_V, signed 32 bit, 0.01 % | 06 R204 | 0 -/
  socV : Int := 0
  /-- EST_V1, signed 32 bit, uV | 06 R192 | 0 -/
  v1Reg : Int := 0
  /-- EST_OCV, signed 32 bit, uV | 06 R192 | 0 -/
  ocvReg : Int := 0
  /-- EST_CAP, learned capacity q, 32 bit, uAh | 06 R200 | 0 -/
  q : Nat := 0
  /-- EST_CAPM, 32 bit, uAh | 06 R202 | 0 -/
  capM : Nat := 0
  /-- EST_DCIR, signed 32 bit, uOhm | 06 R206 | 0 -/
  dcir : Int := 0
  /-- EST_K, signed 32 bit, uV per day | 06 R209 | 0 -/
  k : Int := 0
  /-- EST_OCVPT, signed 32 bit, uV | 06 R194 | 0 -/
  ocvPt : Int := 0
  /-- EST_T, temperature in use, signed 16 bit, 0.01 degC | 06 R215 | 0 -/
  tUse : Int := 0
  /-- EST_DIVCNT, 10 bit | 06 R204 | 0 -/
  divCnt : Nat := 0
  /-- EST_CNT[15:0], overruns | 06 R182 | 0 -/
  overruns : Nat := 0
  /-- EST_CNT[31:16], dropped write-backs | 06 R203 | 0 -/
  wbDrops : Nat := 0
  /-- EST_CELLID, told identity, 64 bit | 06 R199, 09 R287 | none -/
  cellId : Option Nat := none
  /-- EST_RES, latest result record, 64 bytes | 06 R212 | 64 zero bytes -/
  res : List Byte := List.replicate 64 0
  /-- filter state s, binary64 | 06 R190 | 0 -/
  s : F64 := .fin 0 0
  /-- filter state v1, binary64, uV | 06 R190 | 0 -/
  v1 : F64 := .fin 0 0
  /-- covariance Pss, binary64 | 06 R190 | 0 -/
  pss : F64 := .fin 0 0
  /-- covariance Psv, binary64 | 06 R190 | 0 -/
  psv : F64 := .fin 0 0
  /-- covariance Pvv, binary64 | 06 R190 | 0 -/
  pvv : F64 := .fin 0 0
  /-- soc_a of the coulomb anchor, 0.01 % | 06 R195 | 0 -/
  socA : Int := 0
  /-- acc_a of the coulomb anchor, signed 64 bit | 06 R195 | 0 -/
  accA : Int := 0
  /-- last stamp covered by a published update, run tick | 06 R182 | 0 -/
  pubTk : Nat := 0
  /-- ACC of the last stamp covered by a published update | 06 R184 | 0 -/
  pubAcc : Int := 0
  /-- run tick at which |i| of a stamp last exceeded I_IDLE, or of the end of LOAD | 06 R196 | 0 -/
  idleTk : Nat := 0
  /-- earliest first stamp of a period that may initialise (after a return) | 06 R196, R197 | 0 -/
  waitTk : Nat := 0
  /-- run tick from which the cell has been present without a break | 06 R196, 04 R132 | none -/
  presTk : Option Nat := none
  /-- ticks of open-load declarations that no published update covers yet, newest first | 06 R197 | empty -/
  decls : List Nat := []
  /-- at the end of the last period the cell had been present for all of it, and CH_STAT.SUSPECT was 0 | 06 R196 | false -/
  endOk : Bool := false
  /-- ACC at the end of the last period, signed 64 bit | 06 R201 | 0 -/
  perAcc : Int := 0
  /-- the update of the coming publication tick, and whether it is complete in time | 06 R182 | none -/
  pubDue : Option Bool := none
  /-- publication tick whose update a reset of its service core lost | 15 R431 | none -/
  lostTk : Option Nat := none
  /-- ACC snapshot of the last full anchor since arming with no charge period since | 06 R201 | none -/
  fullAcc : Option Int := none
  /-- a capacity measurement was taken since arming, uAh | 06 R210 | none -/
  capArm : Option Nat := none
  /-- the DCIR of the last PULSE step since arming with a valid pulse | 06 R206 | none -/
  dcirArm : Option Int := none
  /-- the last OCV point since arming, with its run tick | 06 R210 | none -/
  ocvArm : Option (Nat × Int) := none
  /-- a stale temperature was used since arming | 06 R212 | false -/
  tsSeen : Bool := false
  /-- the estimator was not VALID in some period since arming | 06 R212 | false -/
  gap : Bool := false
  /-- run tick of KLOG_START | 06 R208 | 0 -/
  kStart : Nat := 0
  /-- the channel's K log, newest first, each point 16 bytes; SRAM | 06 R208 | empty -/
  kPts : List (List Byte) := []
  /-- capacity record: CELL_ID, 64 bit | 06 R199 | 0 -/
  recId : Nat := 0
  /-- capacity record: N_LEARN, 16 bit saturating | 06 R199 | 0 -/
  nLearn : Nat := 0
  /-- the capacity record has changed since it was last queued | 06 R203 | false -/
  changed : Bool := false
  /-- an event of R203 has occurred for the changed record, and its write-back waits | 06 R203 | false -/
  wbWait : Bool := false
  /-- run tick of the last write-back | 06 R203 | none -/
  wbTk : Option Nat := none
  /-- OCV points taken at boundaries, tick and mean v, oldest first, that act at their periods' publications | 06 R194 | empty -/
  ocvPend : List (Nat × Int) := []
  /-- run tick of the last time at which the K log took a point, or of KLOG_START | 06 R207 | 0 -/
  kTk : Nat := 0
  /-- the last K log point since arming and since KLOG_START, with its run tick | 06 R210 | none -/
  kArm : Option (Nat × Int) := none
  deriving DecidableEq, Repr

/-! ### The sump (R217 to R240) -/

/-- SUMP_STAT.RIDE, in the order of the codes of R232. -/
inductive Ride where
  | normal | droop | pause | lend | hold | ret | expire
  deriving DecidableEq, Repr

/-- Events of the ride-through sequencer that wait for a transition to complete (R234). -/
inductive RideEv where
  | lost | back | droop | droopTo | recovered | quiescent | rideTo | returned
  deriving DecidableEq, Repr

/-- What an allocation staged (R225). -/
structure AllocStage where
  /-- the run tick at which the grants come into force -/
  at_ : Nat
  grants : List (Nat × Int)
  lends : List (Nat × Int)
  constr : Bool
  expLim : Bool
  /-- priority classes allocated nothing, 4 bit -/
  noCls : Nat
  dem : Int
  rec_ : Int
  lendP : Int
  fep : Int
  /-- slack of its commit, timebase counts (R494) -/
  slack : Int := 0
  deriving DecidableEq, Repr

/-- The sump arbiter, its comparators and the ride-through sequencer. -/
structure Sump where
  /-- SUMP_STAT.RIDE, 3 bit | 07 R238 | NORMAL -/
  ride : Ride := .normal
  /-- SUMP_STAT.LOSS | 07 R233 | 0 -/
  loss : Bool := false
  /-- SUMP_STAT.CONSTR | 07 R225 | 0 -/
  constr : Bool := false
  /-- SUMP_STAT.EXPLIM | 07 R225 | 0 -/
  expLim : Bool := false
  /-- SUMP_STAT.FE_OK, source back by R219 | 07 R219 | 0 -/
  feOk : Bool := false
  /-- INHIBIT_N read low on 16 consecutive samples | 07 R220 | false -/
  inhPin : Bool := false
  /-- SUMP_TOLD.TOLD_INH | 07 R220 | 0 -/
  inhTold : Bool := false
  /-- SUMP_STAT.INH, an inhibit is in force | 07 R220 | 0 -/
  inh : Bool := false
  /-- the pauses of the inhibit have not been lifted | 07 R220 | false -/
  inhPause : Bool := false
  /-- run tick from which pin and told inhibit are clear | 07 R220 | 0 -/
  inhClrTk : Nat := 0
  /-- SUMP_STAT.CMP_DROOP | 07 R221 | 0 -/
  cmpDroop : Bool := false
  /-- SUMP_STAT.CMP_OV | 07 R222 | 0 -/
  cmpOv : Bool := false
  /-- SUMP_STAT.RET_FROM, 3 bit | 07 R233 | 0 -/
  retFrom : Ride := .normal
  /-- classes the next allocation in force leaves without power, 4 bit | 07 R232 | 0 -/
  noCls : Nat := 0
  /-- the next class to clear after NORMAL re-entry, with the run tick of the entry or of the last clear | 07 R235 | none -/
  clrCls : Option (Nat × Nat) := none
  /-- VSUMP_SNS calibrated pin sample, uV | 07 R218, 03 R90 | 0 -/
  pinUv : Int := 0
  /-- run tick at which the ride timer started | 07 R233 | none -/
  rideFrom : Option Nat := none
  /-- run tick at which the droop comparator tripped | 07 R233 | none -/
  droopFrom : Option Nat := none
  /-- run tick at which DROOP was entered | 07 R233 | 0 -/
  droopTk : Nat := 0
  /-- run tick of the droop comparator's release, or of the last sample below V_DROOP + HYST since | 07 R233 | none -/
  busOkFrom : Option Nat := none
  /-- run tick from which RETURN has its 5 ms of good samples | 07 R233 | 0 -/
  retOkTk : Nat := 0
  /-- a transition is in progress; the state it ends in has been entered | 07 R234 | false -/
  moving : Bool := false
  /-- events that wait for the transition in progress, oldest first | 07 R234 | empty -/
  waiting : List RideEv := []
  /-- charge on-times are blocked by a loss until the plan is struck | 07 R233 | false -/
  blocked : Bool := false
  /-- the out-of-cycle plan of a transition is not struck yet | 07 R233, R234 | false -/
  planDue : Bool := false
  /-- ride timer as it stopped at NORMAL, ticks | 07 R233 | 0 -/
  rideTk : Nat := 0
  /-- told budget, mW, with its time in run ticks | 07 R228, 09 R286 | none -/
  told : Option (Nat × Int) := none
  /-- the told budget an allocation has taken up, mW | 07 R228 | none -/
  budIn : Option Nat := none
  /-- SUMP_STAT.BUD_STALE | 07 R228 | 0 -/
  stale : Bool := false
  /-- SUMP_DEM, D of the last allocation, mW | 07 R238 | 0 -/
  dem : Int := 0
  /-- SUMP_REC, R of the last allocation, mW | 07 R238 | 0 -/
  rec_ : Int := 0
  /-- SUMP_LENDP, L of the last allocation, mW | 07 R238 | 0 -/
  lendP : Int := 0
  /-- SUMP_FEP, signed 32 bit, mW | 07 R238 | 0 -/
  fep : Int := 0
  /-- SUMP_CNT.DROOPS, 8 bit saturating | 07 R238 | 0 -/
  nDroop : Nat := 0
  /-- SUMP_CNT.LOSSES, 8 bit saturating | 07 R238 | 0 -/
  nLoss : Nat := 0
  /-- SUMP_CNT.EXPIRES, 8 bit saturating | 07 R238 | 0 -/
  nExp : Nat := 0
  /-- SUMP_CNT.LATE, 8 bit saturating | 07 R227 | 0 -/
  nLate : Nat := 0
  /-- consecutive late allocations | 07 R227 | 0 -/
  lateRun : Nat := 0
  /-- every charging g_eff is held at 0 | 07 R227 | false -/
  zeroed : Bool := false
  /-- the allocation staged and not yet in force | 07 R225 | none -/
  stage : Option AllocStage := none
  /-- an allocation is in progress: it is to be staged for the coming tick 8n + 1 | 07 R225, R237 | false -/
  due : Bool := false
  deriving DecidableEq, Repr

/-! ### Time (R241 to R266) -/

/-- TB_STAT.STATE. -/
inductive TbSt where
  | freerun | acquire | locked | holdover
  deriving DecidableEq, Repr

/-- A slot of the timed-command table (R254). -/
inductive TcSlot where
  | free | pending | released | completed
  deriving DecidableEq, Repr

/-- One entry of the table of pending timed commands. -/
structure TcEnt where
  /-- TB_TCINFO.SLOT -/
  slot : TcSlot := .free
  /-- the 64-byte record of R254 -/
  raw : List Byte := []
  /-- the session that sent it, and the record's RSN on its input ring -/
  sess : Nat := 0
  rsn : Nat := 0
  /-- order of acceptance -/
  ord : Nat := 0
  /-- run tick of the launch tick L, once released -/
  l : Nat := 0
  /-- targets at release, bit k channel k -/
  targets : Nat := 0
  /-- TB_TCAPP -/
  applied : Nat := 0
  /-- TB_TCMIS -/
  missed : Nat := 0
  /-- targets whose staged command was superseded, in neither bitmap -/
  superseded : Nat := 0
  /-- latest apply tick minus L -/
  lastTk : Nat := 0
  /-- OUTCOME, 3 bit -/
  outcome : Nat := 0
  /-- epoch at release -/
  epoch : Nat := 0
  /-- no channel is to apply it: the epoch changed -/
  epochBad : Bool := false
  deriving DecidableEq, Repr

/-- A launch group (R257, R260). -/
structure Group where
  /-- TB_GMASK, words 0 to 3, bit k channel k | 08 R257 | 0 -/
  mask : Nat := 0
  /-- TB_GMASK words 0 to 2 written and held | 08 R257 | none -/
  held : List (Option Word) := [none, none, none]
  /-- TB_GEPOCH, 32 bit | 08 R257 | 0 -/
  epoch : Nat := 0
  /-- TB_GCTRL.EN | 08 R264 | 1 -/
  en : Bool := true
  /-- TB_GCTRL.BUSY | 08 R260 | 0 -/
  busy : Bool := false
  deriving DecidableEq, Repr

/-- A master heard in Announce messages (R245). -/
structure Master where
  /-- grandmasterPriority1, clockClass, accuracy, variance, priority2, identity: the dataset in comparison order -/
  p1 : Nat
  cls : Nat
  accu : Nat
  vari : Nat
  p2 : Nat
  gm : Nat
  steps : Nat
  /-- sender's clockIdentity and portNumber -/
  ident : Nat
  port : Nat
  /-- ingress port of the device -/
  ingress : Nat
  utc : Int
  utcValid : Bool
  logAnn : Int
  /-- run ticks of its Announce messages, newest first -/
  heard : List Nat
  deriving DecidableEq, Repr

/-- Where a device drain leads (R261, R396, R478). -/
inductive DrainGoal where
  | rest | load | service | off
  deriving DecidableEq, Repr

/-- A device drain in progress (R261). -/
structure DevDrain where
  /-- the mode it leads to, or an orderly off -/
  goal : DrainGoal
  /-- run tick at which it began -/
  from_ : Nat
  /-- its time limit, ms -/
  lim : Nat
  /-- the timed command that ordered it -/
  entry : Option Nat
  /-- channels forced at the time limit -/
  forced : Nat := 0
  /-- the time limit has passed -/
  timedOut : Bool := false
  /-- the channels it drains -/
  chans : Nat := 0
  deriving DecidableEq, Repr

/-- The timebase island. -/
structure Timebase where
  /-- TB_SEC, 48 bit, TAI seconds | 08 R241 | 0 -/
  sec : Nat := 0
  /-- TB_FRAC, 32 bit, 2^-32 s | 08 R241 | 0 -/
  frac : Nat := 0
  /-- TB_RUN, 64 bit, launch tick edges | 08 R243 | 0 -/
  run : Nat := 0
  /-- line time (TB_SEC, TB_FRAC) of the next launch tick edge where a step has moved it | 08 R249 | none -/
  nextEdge : Option (Nat × Nat) := none
  /-- TB_STAT.STATE | 08 R247 | FREERUN -/
  st : TbSt := .freerun
  /-- TB_STAT.TRACE | 08 R247 | 0 -/
  trace : Bool := false
  /-- TB_STAT.SEEDED | 08 R263 | 0 -/
  seeded : Bool := false
  /-- TB_STAT.STEP_PEND: the requested step, ns, and the run tick of the request | 08 R249 | none -/
  step : Option (Int × Nat) := none
  /-- TB_STAT.MASTER, TB_MASTER: the selected master | 08 R245, R264 | none -/
  master : Option Master := none
  /-- clockIdentity and portNumber of the master selected last | 08 R247 | none -/
  lastMaster : Option (Nat × Nat) := none
  /-- masters heard | 08 R245 | empty -/
  foreign : List Master := []
  /-- TB_STAT.PORT | 08 R264 | 0 -/
  port : Nat := 0
  /-- yf, signed 64 bit, 2^-40 | 08 R241 | 0 -/
  yf : Int := 0
  /-- yp, signed 64 bit, 2^-40 | 08 R241 | 0 -/
  yp : Int := 0
  /-- yf after each of the last 64 accepted Syncs, newest first | 08 R247 | empty -/
  yfs : List Int := []
  /-- consecutive accepted offsets within LOCK_NS | 08 R247 | 0 -/
  nIn : Nat := 0
  /-- consecutive accepted offsets beyond UNLOCK_NS | 08 R247 | 0 -/
  nOut : Nat := 0
  /-- TB_OFS, signed 32 bit, ns | 08 R264 | 0 -/
  ofs : Int := 0
  /-- TB_MPD, mean path delay, ns | 08 R264 | 0 -/
  mpd : Int := 0
  /-- run tick of the last accepted Sync | 08 R247 | 0 -/
  syncTk : Nat := 0
  /-- logSyncInterval of the last accepted Sync | 08 R247 | 0 -/
  logSync : Int := 0
  /-- a two-step Sync that waits for its Follow_Up: sequenceId, receive time ns, correction 2^-16 ns | 08 R245 | none -/
  syncWait : Option (Nat × Int × Int) := none
  /-- t1 and t2 of the last Sync, ns, corrected | 08 R246 | none -/
  t12 : Option (Int × Int) := none
  /-- the Delay_Req outstanding: sequenceId and transmit time, ns | 08 R245 | none -/
  dreq : Option (Nat × Int) := none
  /-- next sequenceId of Delay_Req, 16 bit | 08 R245 | 0 -/
  dreqSeq : Nat := 0
  /-- logMinDelayReqInterval told by the master | 08 R245 | 0 -/
  logDreq : Int := 0
  /-- run tick of the last Delay_Req sent | 08 R245 | none -/
  dreqTk : Option Nat := none
  /-- run tick of the last Pdelay_Req sent on P0 and P1 | 08 R245, 09 R270 | none each -/
  pdTk : List (Option Nat) := [none, none]
  /-- Pdelay_Req outstanding for P0 and P1: sequenceId, transmit time, and the response that waits | 08 R245 | none each -/
  pdreq : List (Option (Nat × Int)) := [none, none]
  /-- a two-step Pdelay_Resp that waits for its Follow_Up, by port: sequenceId, t2, t4, correction | 08 R245 | none each -/
  pdwait : List (Option (Nat × Int × Int × Int)) := [none, none]
  /-- next sequenceId of Pdelay_Req, by port | 08 R245 | 0 each -/
  pdSeq : List Nat := [0, 0]
  /-- mean link delay of P0 and P1, ns | 08 R245, 09 R272 | none each -/
  linkDelay : List (Option Int) := [none, none]
  /-- TB_CNT.STEPS, 8 bit saturating | 08 R264 | 0 -/
  nSteps : Nat := 0
  /-- TB_CNT.UNLOCKS, 8 bit saturating | 08 R264 | 0 -/
  nUnlock : Nat := 0
  /-- TB_CNT.HOLDOVERS, 8 bit saturating | 08 R264 | 0 -/
  nHold : Nat := 0
  /-- TB_CNT.MASTERS, 8 bit saturating | 08 R264 | 0 -/
  nMaster : Nat := 0
  /-- TB_UTC: currentUtcOffset and valid | 08 R264 | (0, false) -/
  utc : Int × Bool := (0, false)
  /-- run tick at which HOLDOVER was entered | 08 R247 | 0 -/
  holdTk : Nat := 0
  /-- run tick at which LOCKED was entered | 08 R263 | 0 -/
  lockTk : Nat := 0
  /-- TB_TCSEL, 8 bit | 08 R264 | 0 -/
  tcSel : Nat := 0
  /-- the table of 256 pending timed commands | 08 R254 | 256 free entries -/
  tc : Vector TcEnt 256 := Vector.replicate 256 {}
  /-- next order of acceptance | 08 R256 | 0 -/
  tcOrd : Nat := 0
  /-- records taken from the input rings and not yet judged: session, RSN and 64 bytes, oldest first | 08 R254, 09 R294 | empty -/
  tcIn : List (Nat × Nat × List Byte) := []
  /-- the launch groups | 08 R257 | 16 groups -/
  grp : Vector Group 16 := Vector.replicate 16 {}
  /-- a pulse of PTP_PPS runs: the run tick at which it began | 08 R262 | none -/
  pps : Option Nat := none
  /-- device drain in progress | 08 R261 | none -/
  drain : Option DevDrain := none
  /-- run tick at which line time last stepped: the sample grid runs from it | 03 R88, 10 R304 | 0 -/
  stepTk : Nat := 0
  deriving DecidableEq, Repr

/-! ### Link, sessions and rings (R267 to R301) -/

/-- A controller, teller or observer (R283). -/
inductive Role where
  | observer | teller | controller
  deriving DecidableEq, Repr

/-- A Perzo session (R283). -/
structure Session where
  /-- LINK_SESSINFO.ROLE | 09 R283 | observer -/
  role : Role := .observer
  /-- LINK_SESSINFO.PORT, the port its HELLO entered | 09 R298 | 0 -/
  port : Nat := 0
  /-- LINK_SESSINFO.HB_MS, 16 bit | 09 R298 | 0 -/
  hbMs : Nat := 0
  /-- host IPv4 address, 32 bit | 09 R298 | 0 -/
  ip : Nat := 0
  /-- host UDP port, 16 bit | 09 R298 | 0 -/
  udp : Nat := 0
  /-- TEL_PORT, 16 bit | 09 R298 | 0 -/
  telPort : Nat := 0
  /-- HOST_ID, 64 bit | 09 R284 | 0 -/
  hostId : Nat := 0
  /-- SEQ of the last executed request, 32 bit | 09 R281 | 0 -/
  seq : Nat := 0
  /-- the kept response, its type and payload | 09 R281 | none -/
  kept : Option (List Byte) := none
  /-- a request is executing: the type it answers and its SEQ | 09 R281 | none -/
  busy : Option (Nat × Nat) := none
  /-- run tick of the last valid message | 09 R285 | 0 -/
  lastTk : Nat := 0
  /-- rings subscribed to, bit r ring r | 09 R291 | 0 -/
  subs : Nat := 0
  /-- replay in progress: ring, next RSN, records left | 09 R293 | none -/
  replay : Option (Nat × Nat × Nat) := none
  /-- nonce issued, 16 bytes, with the run tick of issue | 17 R477 | none -/
  nonce : Option (List Byte × Nat) := none
  /-- run tick of the unlock | 17 R477 | none -/
  unlockTk : Option Nat := none
  /-- unlocked by UNLOCK_HMAC | 17 R480 | false -/
  byHmac : Bool := false
  /-- user regions unlocked, 8 bit | 17 R473 | 0 -/
  regions : Nat := 0
  deriving DecidableEq, Repr

/-- A record held in a ring. -/
structure RingRec where
  rsn : Nat
  bytes : List Byte
  /-- it has been sent once -/
  sent : Bool := false
  deriving DecidableEq, Repr

/-- One of the 64 rings of the SRAM pool (R289). -/
structure Ring where
  /-- records held, oldest first; SRAM | 09 R289 | empty -/
  recs : List RingRec := []
  /-- RING_CTRL.EN | 09 R295 | 1 -/
  en : Bool := true
  /-- RING_CTRL.BUSY | 09 R295 | 0 -/
  busy : Bool := false
  /-- RING_STAT.OVF | 09 R292 | 0 -/
  ovf : Bool := false
  /-- RING_STAT.OWNED and OWNER | 09 R291 | none -/
  owner : Option Nat := none
  /-- RING_STAT.STREAM: session of the stream destination | 09 R293 | none -/
  stream : Option Nat := none
  /-- RING_NEXT, 32 bit | 09 R290 | 0 -/
  next : Nat := 0
  /-- RING_ACKED, 32 bit | 09 R291 | 0 -/
  acked : Nat := 0
  /-- next RSN to be sent to the owner or the stream, 32 bit | 09 R291 | 0 -/
  sendNext : Nat := 0
  /-- RING_DROP, 32 bit saturating | 09 R292 | 0 -/
  drop : Nat := 0
  /-- RING_RETX, 32 bit saturating | 09 R299 | 0 -/
  retx : Nat := 0
  /-- run tick of the last advance of the acknowledged point or resend | 09 R291 | 0 -/
  ackTk : Nat := 0
  /-- present retransmission wait, ms | 09 R291 | 0 -/
  rto : Nat := 0
  deriving DecidableEq, Repr

/-- A port of the link (R267 to R275). -/
structure Port where
  /-- LINK_STAT.Pp_UP | 09 R298 | 0 -/
  up : Bool := false
  /-- run tick at which the port came up | 09 R273 | 0 -/
  upTk : Nat := 0
  /-- the last valid hello heard: position, SEG_KBPS, run tick | 09 R273, R274 | none -/
  hello : Option (Nat × Nat × Nat) := none
  /-- LINK_Pp_CNT.FCS, 16 bit saturating | 09 R269 | 0 -/
  fcs : Nat := 0
  /-- LINK_Pp_CNT.DROP, 16 bit saturating | 09 R269 | 0 -/
  drop : Nat := 0
  /-- what the high queue and the frame on the wire still hold, of the port's 16 KiB, in 1/8192 octet | 09 R269 | 0 -/
  hi : Nat := 0
  /-- what the normal queue still holds, in 1/8192 octet | 09 R269 | 0 -/
  lo : Nat := 0
  /-- the instant of `hi` and `lo`, in 1/8192 octet times since the last launch tick edge | 09 R269 | 0 -/
  txAt : Nat := 0
  deriving DecidableEq, Repr

/-- The link: ports, rope, addressing and sessions. -/
structure Link where
  /-- port P0 | 09 R267 | as Port -/
  p0 : Port := {}
  /-- port P1 | 09 R267 | as Port -/
  p1 : Port := {}
  /-- LINK_ROPE.POS with LINK_STAT.POS_OK, 6 bit | 09 R273 | none -/
  pos : Option Nat := none
  /-- the position derived last | 09 R273 | none -/
  lastPos : Option Nat := none
  /-- LINK_STAT.HEAD | 09 R273 | 0 -/
  head : Bool := false
  /-- LINK_STAT.TAIL | 09 R273 | 0 -/
  tail : Bool := false
  /-- LINK_STAT.OVER | 09 R274 | 0 -/
  budgetOver : Bool := false
  /-- LINK_IPNOW, 32 bit, 0 none | 09 R275 | 0 -/
  ipNow : Nat := 0
  /-- LINK_WCR, kbit/s | 10 R322 | 0 -/
  wcr : Nat := 0
  /-- LINK_SEG, kbit/s | 09 R274 | 0 -/
  seg : Nat := 0
  /-- telemetry bytes sent in the present and the last second, for LINK_RATE | 09 R298 | 0, 0 -/
  rateNow : Nat := 0
  /-- LINK_RATE, kbit/s | 09 R298 | 0 -/
  rate : Nat := 0
  /-- ARP cache, at most 16 (IPv4, MAC) pairs, newest first | 09 R275 | empty -/
  arp : List (Nat × Nat) := []
  /-- echo requests answered in the present second | 09 R276 | 0 -/
  icmp : Nat := 0
  /-- LINK_PZ_CNT.DISC, 8 bit saturating | 09 R298 | 0 -/
  nDisc : Nat := 0
  /-- LINK_PZ_CNT.SEQ, 8 bit saturating | 09 R298 | 0 -/
  nSeq : Nat := 0
  /-- LINK_PZ_CNT.BUSY, 8 bit saturating | 09 R298 | 0 -/
  nBusy : Nat := 0
  /-- LINK_PZ_CNT.ACK, 8 bit saturating | 09 R298 | 0 -/
  nAck : Nat := 0
  /-- sessions 0 to 3 | 09 R283 | none each -/
  sess : List (Option Session) := [none, none, none, none]
  /-- a loss of the controller acts at the next launch tick: LOSS_ACT | 09 R285 | none -/
  lossAct : Option Nat := none
  /-- LINK_IP, LINK_CTRL and LINK_NET at the last LOAD, for the sessions | 12 R373 | none -/
  kept : Option (Nat × Nat × Nat) := none
  deriving DecidableEq, Repr

/-! ### Codec (R302 to R325) -/

/-- The codec state of one telemetry ring. -/
structure Sqz where
  /-- SQZ_CNT.DEGRADED, 16 bit saturating | 10 R312 | 0 -/
  degraded : Nat := 0
  /-- SQZ_CNT.VFAIL, 16 bit saturating | 10 R316 | 0 -/
  vfail : Nat := 0
  /-- run tick of the last SQZ_DEGRADED raised | 10 R312 | none -/
  evTk : Option Nat := none
  /-- front ends (of 4) whose open block has not yet changed, 4 bit; SQZ_STAT.PEND | 10 R313 | 0 -/
  pend : Nat := 0
  deriving DecidableEq, Repr

/-- A Flowstone sample of a channel: V in uV, I in nV, flags, largest range and ACC after its last tick. -/
structure FSamp where
  ch : Nat
  v : Int
  i : Int
  fl : Nat
  irng : Nat
  acc : Int
  deriving DecidableEq, Repr

/-- The F stream of one gallery (R317). -/
structure FStream where
  /-- the F stream runs | 10 R317 | false -/
  run : Bool := false
  /-- the open record is marked RESTART | 10 R317 | true -/
  restart : Bool := true
  /-- run tick of the last stamp before the open record | 10 R317 | 0 -/
  from_ : Nat := 0
  /-- ACC of each entry before its span: channel and ACC | 10 R318 | empty -/
  accs : List (Nat × Int) := []
  /-- seconds completed in the open record, newest first: TB_SEC, run tick, samples | 10 R317 | empty -/
  secs : List (Nat × Nat × List FSamp) := []
  /-- samples of the second that is being collected, ascending channels | 10 R317 | empty -/
  now : List FSamp := []
  deriving DecidableEq, Repr

/-! ### Galleries and step engines -/

/-- A gallery: stage enable, stage fault input, step engine. -/
structure Gallery where
  /-- DEV_GTOPO.BLK_MAP, 16 bit | 01 R33 | 0 -/
  blkMap : Nat := 0
  /-- DEV_GTOPO.MODE, 2 bit | 01 R33 | 0 -/
  mode : Nat := 0
  /-- DEV_GTOPO.NCH, 5 bit | 01 R33 | 0 -/
  nch : Nat := 0
  /-- DEV_GPOP.POP, 16 bit | 01 R34 | 0 -/
  pop : Nat := 0
  /-- pin SEN<g> on | 02 R39 | false -/
  sen : Bool := false
  /-- SFLT<g>_N low now | 11 R336 | false -/
  sflt : Bool := false
  /-- run tick at which SFLT<g>_N last rose | 11 R343 | 0 -/
  sfltHighTk : Nat := 0
  /-- SAF_GCAUSE, cause of the gallery safe state, 16 bit | 11 R331 | none -/
  safe : Option Nat := none
  /-- RCP_ENG_LATE, late boundaries, 32 bit saturating | 05 R179 | 0 -/
  late : Nat := 0
  /-- the step engine staged its results for the tick after run tick .1, slack .2 (R490) | 18 R490 | none -/
  engCommit : Option (Nat × Int) := none
  /-- the stage wake of SEN before the first closing of DISC has run | 12 R360, 02 R39 | false -/
  awake : Bool := false
  /-- the F stream of the gallery | 10 R317 | as FStream -/
  f : FStream := {}
  deriving DecidableEq, Repr

/-! ### Recipes held in SRAM -/

/-- The recipe memory and the wait groups. -/
structure Recipes where
  /-- loaded RCP section payloads: recipe index and bytes | 05 R145, R175 | empty -/
  rcp : List (Nat × List Byte) := []
  /-- loaded WAITGRP payload: 16 wait groups | 05 R168, R177 | empty -/
  waitCfg : List Byte := []
  /-- loaded MODEL payloads: index and bytes | 06 R186 | empty -/
  models : List (Nat × List Byte) := []
  /-- loaded GRADE payloads: recipe index and bytes | 06 R213 | empty -/
  grades : List (Nat × List Byte) := []
  /-- next SEQ of a result record, 32 bit | 06 R212 | 0 -/
  resSeq : Nat := 0
  deriving DecidableEq, Repr

/-! ### Safety island (R326 to R355) -/

/-- The proof test in progress (R349). -/
structure Proof where
  from_ : Nat
  deriving DecidableEq, Repr

/-- The safety island. -/
structure Island where
  /-- SAF_STAT.DEV_SAFE and SAF_CAUSE: cause and channel of the device safe state | 11 R353 | none -/
  dev : Option (Nat × Nat) := none
  /-- SAF_CAUSE as it reads after a release, cause and channel | 11 R353 | 0, 0 -/
  lastCause : Nat × Nat := (0, 0)
  /-- SAF_STAT.CLASS_X | 11 R353 | 0 -/
  classX : Bool := false
  /-- pin SAFE_N asserted (low) | 11 R330 | true -/
  safeN : Bool := true
  /-- the start-up self-check has passed | 11 R330, 12 R358 | false -/
  checked : Bool := false
  /-- the keep-alive toggles | 11 R329 | false -/
  keepAlive : Bool := false
  /-- SAF_STAT.SIG_OK | 11 R353 | 0 -/
  sigOk : Bool := false
  /-- SAF_SIGNOW, 32 bit | 11 R346 | 0 -/
  sigNow : Word := 0
  /-- SAF_STAT.PEND with the pending copy: writes to safety registers, addresses rising | 11 R345 | none -/
  pend : Option (List (Nat × Word)) := none
  /-- a signed SERVICE set accepted and still to be applied | 11 R345 | none -/
  apply : Option (List (Nat × Word)) := none
  /-- second copies of safety thresholds: the bits in which the copy of the threshold at an address differs from the first |
  11 R340, 02 R41 | empty -/
  copies : List (Nat × Word) := []
  /-- a bit of the working copy flipped in place: address and mask | 11 R346 | empty -/
  flips : List (Nat × Word) := []
  /-- SAF_STAT.PROOF: the proof test running | 11 R349 | none -/
  proof : Option Proof := none
  /-- SAF_PROOF.SAFE_N, DECAY, DISC, 3 bit | 11 R353 | 0 -/
  proofRes : Nat := 0
  /-- PASS_SEC of the last fully passed proof test, for SAF_PROOF.AGE_D | 11 R353, 17 R460 | none -/
  passSec : Option Nat := none
  /-- SAF_STAT.SIL_OK, 8 bit | 11 R347 | 0 -/
  sil : Nat := 0
  /-- SAF_HIST, 32 bit | 11 R353 | 0 -/
  hist : Nat := 0
  /-- SAF_CNT.CH, 8 bit saturating | 11 R353 | 0 -/
  nCh : Nat := 0
  /-- SAF_CNT.GAL, 8 bit saturating | 11 R353 | 0 -/
  nGal : Nat := 0
  /-- SAF_CNT.DEV, 8 bit saturating | 11 R353 | 0 -/
  nDev : Nat := 0
  /-- SAF_CNT.CMPT, 8 bit saturating | 11 R353 | 0 -/
  nCmpt : Nat := 0
  /-- run tick of entry to the device safe state | 11 R343 | 0 -/
  devTk : Nat := 0
  /-- run tick at which a cause of the device safe state was last present | 11 R343 | 0 -/
  devBadTk : Nat := 0
  /-- mode from which SAFE was entered | 11 R344 | load -/
  from_ : Mode := .load
  /-- run tick at which the comparator test interval began | 11 R341 | 0 -/
  cmpFrom : Nat := 0
  /-- the VSUMP_SNS comparator at V_OV2_MV is tripped | 11 R335 | false -/
  ov2 : Bool := false
  /-- SAFE was entered, and the channels change state at the next launch tick | 11 R331, 04 R136 | false -/
  entry : Bool := false
  /-- a monitored clock is lost | 11 R337 | false -/
  clkLost : Bool := false
  deriving DecidableEq, Repr

/-! ### Loader and two-wire bus (R356 to R385) -/

/-- LDR_STAT.STATE. -/
inductive LdrSt where
  | boot | reading | checking | applying | selftest | loaded | noImage | halted
  deriving DecidableEq, Repr

/-- An open image update (R371). -/
structure Update where
  sess : Nat
  slot : Nat
  /-- bytes 0 to 63, held; absent ones none -/
  held : List (Option Byte)
  /-- LDR_UPD, highest offset -/
  high : Nat
  /-- page writes still to be confirmed for the block in progress: EEPROM address and bytes -/
  pages : List (Nat × List Byte)
  /-- the block being answered: offset and length -/
  block : Option (Nat × Nat)
  /-- a COMMIT is reading the slot back -/
  committing : Bool := false
  deriving DecidableEq, Repr

/-- The image loader. -/
structure Loader where
  /-- LDR_STAT.STATE, 3 bit | 12 R382 | BOOT -/
  st : LdrSt := .boot
  /-- LDR_STAT.SLOT | 12 R382 | 0 -/
  slot : Nat := 0
  /-- LDR_STAT.FALLBACK | 12 R382 | 0 -/
  fallback : Bool := false
  /-- LDR_STAT.RECALL_REF | 12 R382 | 0 -/
  recallRef : Bool := false
  /-- LDR_STAT.PATCH | 12 R382 | 0 -/
  patch : Bool := false
  /-- LDR_STAT.SPEED_DROP | 12 R382 | 0 -/
  speedDrop : Bool := false
  /-- LDR_STAT.ECHO_FAIL, 8 bit | 12 R382 | 0 -/
  echoFail : Nat := 0
  /-- LDR_GEN, 32 bit | 12 R382 | 0 -/
  gen : Nat := 0
  /-- LDR_GEN_ALT, 32 bit | 12 R382 | 0 -/
  genAlt : Nat := 0
  /-- LDR_CAUSE, 25 bit | 12 R382 | 0 -/
  cause : Nat := 0
  /-- LDR_CNT.LOADS, 8 bit saturating | 12 R382 | 0 -/
  nLoads : Nat := 0
  /-- LDR_CNT.FALLBACKS, 8 bit saturating | 12 R382 | 0 -/
  nFall : Nat := 0
  /-- LDR_CNT.COMMITS, 8 bit saturating | 12 R382 | 0 -/
  nCommit : Nat := 0
  /-- LDR_CNT.REFUSED, 8 bit saturating | 12 R382 | 0 -/
  nRef : Nat := 0
  /-- LDR_TIME, 16 bit, ms | 12 R382 | 0 -/
  time : Nat := 0
  /-- LDR_IMGID, 64 bit | 12 R382 | 0 -/
  imgId : Nat := 0
  /-- slots still to read in this load, in order; the head is being read | 12 R365 | empty -/
  order : List Nat := []
  /-- the slot being read is not the first of the order | 12 R365 | false -/
  second : Bool := false
  /-- the checked container that waits to be applied, its bytes | 12 R368 | none -/
  image : Option (List Byte) := none
  /-- run tick of t2, the fuses read and good | 12 R356 | none -/
  t2 : Option Nat := none
  /-- run tick of the LOAD entry | 12 R382 | 0 -/
  loadTk : Nat := 0
  /-- a LOAD has ended since reset | 12 R369, 16 R452 | false -/
  applied : Bool := false
  /-- LDR_STAT.UPD_OPEN, the open update | 12 R371 | none -/
  upd : Option Update := none
  deriving DecidableEq, Repr

/-- TWI_XSTAT.STATE. -/
inductive XferSt where
  | idle | busy | done | failed
  deriving DecidableEq, Repr

/-- The two-wire controller and target. -/
structure Twi where
  /-- TWI_STAT.BUS_BUSY | 12 R383 | 0 -/
  busBusy : Bool := false
  /-- TWI_STAT.CTL | 12 R383 | 0 -/
  ctl : Bool := false
  /-- TWI_STAT.TGT | 12 R383 | 0 -/
  tgt : Bool := false
  /-- TWI_STAT.SCL, pin level | 12 R383 | 0 -/
  scl : Bool := false
  /-- TWI_STAT.SDA, pin level | 12 R383 | 0 -/
  sda : Bool := false
  /-- TWI_STAT.ADDR, 3 bit | 12 R383 | 0 -/
  addr : Nat := 0
  /-- pins TWI_ADDR[2:0] | 12 R375 | 0 -/
  addrPins : Nat := 0
  /-- TWI_STAT.LAST_ALIGN | 12 R379 | 0 -/
  lastAlign : Bool := false
  /-- TWI_CNT.ARB, 8 bit saturating | 12 R383 | 0 -/
  nArb : Nat := 0
  /-- TWI_CNT.NACK, 8 bit saturating | 12 R383 | 0 -/
  nNack : Nat := 0
  /-- TWI_CNT.BUSY, 8 bit saturating | 12 R383 | 0 -/
  nBusy : Nat := 0
  /-- TWI_CNT.STUCK, 8 bit saturating | 12 R383 | 0 -/
  nStuck : Nat := 0
  /-- TWI_TCAUSE, 16 bit | 12 R379 | 0 -/
  tCause : Nat := 0
  /-- TWI_XCTL without GO, 31 bit | 12 R383 | 0 -/
  xctl : Word := 0
  /-- TWI_XSTAT.STATE | 12 R383 | idle -/
  xst : XferSt := .idle
  /-- TWI_XSTAT.BYTES, 8 bit | 12 R383 | 0 -/
  xbytes : Nat := 0
  /-- TWI_XSTAT.CAUSE, 16 bit | 12 R383 | 0 -/
  xcause : Nat := 0
  /-- TWI_XBUF, 32 bytes | 12 R383 | 32 zero bytes -/
  xbuf : List Byte := List.replicate 32 0
  /-- attempts of the transaction in progress | 12 R378 | 0 -/
  tries : Nat := 0
  /-- a transaction as controller waits for its retry | 12 R378 | false -/
  retry : Bool := false
  /-- address at which a continued read goes on, 24 bit | 12 R379 | 0 -/
  ptr : Nat := 0
  /-- a word fetched for a read that was NACKed as busy: its address, the word, the run tick | 12 R380 | none -/
  kept : Option (Nat × Word × Nat) := none
  deriving DecidableEq, Repr

/-! ### Supplies (R386 to R402), backup domain (R403 to R422) -/

/-- SEQ_STAT.SEQ. -/
inductive SeqSt where
  | off | up | on | down | reverse | restartWait
  deriving DecidableEq, Repr

/-- Where a power-down ends (R390, R393, R396). -/
inductive DownGoal where
  | backup | ship | reboot | retry
  deriving DecidableEq, Repr

/-- One rail slot. -/
structure Rail where
  /-- RAIL_EN<s>, the slot is enabled | 13 R387 | false -/
  en : Bool := false
  /-- SEQ_STAT.PG bit, the slot is good | 13 R386 | 0 -/
  good : Bool := false
  /-- SEQ_EVT.NORISE, 8 bit saturating | 13 R399 | 0 -/
  noRise : Nat := 0
  /-- SEQ_EVT.STUCK, 8 bit saturating | 13 R399 | 0 -/
  stuck : Nat := 0
  /-- SEQ_EVT.UV, 8 bit saturating | 13 R399 | 0 -/
  uv : Nat := 0
  /-- SEQ_EVT.OV, 8 bit saturating | 13 R399 | 0 -/
  ov : Nat := 0
  deriving DecidableEq, Repr

/-- The supply sequencer and supervisor; backup domain. -/
structure Seq where
  /-- SEQ_STAT.SEQ, 3 bit | 13 R400 | OFF -/
  st : SeqSt := .off
  /-- SEQ_STAT.SLOT, 3 bit | 13 R400 | 0 -/
  slot : Nat := 0
  /-- SEQ_STAT.ON_LATCHED | 13 R397 | 0 -/
  onLatched : Bool := false
  /-- SEQ_STAT.PFW, the warning is in force | 13 R393 | 0 -/
  pfw : Bool := false
  /-- run tick of the warning whose T_PFW_MS power-down waits for | 13 R393 | none -/
  pfwTk : Option Nat := none
  /-- SEQ_STAT.VIN_OK | 13 R392 | 0 -/
  vinOk : Bool := false
  /-- SEQ_STAT.SHIP_LATCH | 13 R396 | 0 -/
  shipLatch : Bool := false
  /-- SEQ_STAT.TORN | 13 R399 | 0 -/
  torn : Bool := false
  /-- SEQ_STAT.NOSTORE | 13 R399 | 0 -/
  noStore : Bool := false
  /-- SEQ_STAT.LAST_DOWN, 4 bit | 13 R400 | 0 -/
  lastDown : Nat := 0
  /-- SEQ_VIN, VIN_AUX in mV, 16 bit | 13 R400 | 0 -/
  vin : Nat := 0
  /-- SEQ_CNT.PFW, 8 bit saturating | 13 R399 | 0 -/
  nPfw : Nat := 0
  /-- SEQ_CNT.VIN_LOST, 8 bit saturating | 13 R399 | 0 -/
  nVin : Nat := 0
  /-- SEQ_CNT.BROWNOUT, 8 bit saturating | 13 R399 | 0 -/
  nBrown : Nat := 0
  /-- SEQ_CNT.LONG, 8 bit saturating | 13 R399 | 0 -/
  nLong : Nat := 0
  /-- the eight rail slots | 13 R386 | 8 slots -/
  rails : Vector Rail 8 := Vector.replicate 8 {}
  /-- consecutive failed attempts of power-up | 13 R390 | 0 -/
  fails : Nat := 0
  /-- the power-up in progress is a REST exit: mode taken at its end | 13 R391 | none -/
  restExit : Option Mode := none
  /-- the power-down in progress is a REST entry | 13 R391 | false -/
  restEntry : Bool := false
  /-- where the power-down in progress ends | 13 R393, R396 | none -/
  goal : Option DownGoal := none
  /-- a shutdown waits for its drain, store writes, commit set and braking | 13 R393, R396 | none -/
  wait : Option DownGoal := none
  /-- every active or LOST channel is forced at the next launch tick | 13 R393 | false -/
  force : Bool := false
  /-- pin RSTOUT0_N low by stretch | 13 R398 | false -/
  rst0 : Bool := false
  /-- pin RSTOUT1_N low by stretch | 13 R398 | false -/
  rst1 : Bool := false
  /-- no-rise lockout in SHIP | 13 R390 | false -/
  lockout : Bool := false
  deriving DecidableEq, Repr

/-- The calendar counts. -/
structure Calendar where
  sub : Nat := 0
  sec : Nat := 0
  min : Nat := 0
  hour : Nat := 0
  day : Nat := 1
  mon : Nat := 1
  year : Nat := 2000
  deriving DecidableEq, Repr

/-- The real-time clock and the backup RAM; backup domain. -/
structure Rtc where
  /-- RTC_SUBSEC to RTC_YEAR, the live counters | 14 R407 | 2000-01-01 00:00:00 -/
  cal : Calendar := {}
  /-- RTC_TRIM in force, signed 10 bit | 14 R410 | 0 -/
  trim : Int := 0
  /-- RTC_TRIM as written, in force from the next window | 14 R410 | 0 -/
  trimNext : Int := 0
  /-- second of the trim window, 0 to 63 | 14 R410 | 0 -/
  winSec : Nat := 0
  /-- RTC_STAT.VALID | 14 R420 | 0 -/
  valid : Bool := false
  /-- RTC_STAT.DOMAIN_LOST | 14 R404 | 1 -/
  lost : Bool := true
  /-- RTC_STAT.WERR | 14 R409 | 0 -/
  werr : Bool := false
  /-- RTC_STAT.OSC_FAIL | 14 R407 | 0 -/
  oscFail : Bool := false
  /-- RTC_OSC_FAIL is still to be raised | 14 R407 | false -/
  oscEv : Bool := false
  /-- RTC_STAT.VBAK_LOW | 14 R406 | 0 -/
  vbakLow : Bool := false
  /-- RTC_STAT.TRIM_SAT | 14 R413 | 0 -/
  trimSat : Bool := false
  /-- RTC_STAT.DISC | 14 R411 | 0 -/
  disc : Bool := false
  /-- RTC_STAT.UTCOFS_OK | 14 R412 | 0 -/
  utcOk : Bool := false
  /-- RTC_UTCOFS, 16 bit | 14 R412 | 0 -/
  utcOfs : Int := 0
  /-- RTC_STAT.ALM | 14 R414 | 0 -/
  alm : Bool := false
  /-- RTC_STAT.PWAKE | 14 R415 | 0 -/
  pwake : Bool := false
  /-- RTC_STAT.WAKE_PEND | 14 R416 | 0 -/
  wakePend : Bool := false
  /-- RTC_DERR, signed 32 bit | 14 R411 | 0 -/
  derr : Int := 0
  /-- F of the discipline, signed 32 bit | 14 R413 | 0 -/
  f : Int := 0
  /-- e_prev of the discipline, signed 32 bit | 14 R413 | 0 -/
  ePrev : Int := 0
  /-- RTC_PWCNT, 24 bit | 14 R415 | 0 -/
  pwCnt : Nat := 0
  /-- oscillator counts within the present 1/256 s of the periodic wake | 14 R415 | 0 -/
  pwSub : Nat := 0
  /-- backup RAM, 64 bytes | 14 R417 | DESIGN CHOICE 64 zero bytes (log entry 1) -/
  bram : List Byte := List.replicate 64 0
  /-- hidden CRC-8 of the 8 blocks | 14 R417 | DESIGN CHOICE 8 zero bytes (log entry 1) -/
  bcrc : List Byte := List.replicate 8 0
  /-- RTC_BSTAT, 8 bit | 14 R418 | 0 -/
  bstat : Nat := 0
  /-- a negative trim pulse has held the present count | 14 R410 | false -/
  held : Bool := false
  /-- MODEL FIELD: fraction of an oscillator count in units of 1/1,000,000 | log entry 4 | 0 -/
  oscAcc : Nat := 0
  /-- a REST wake is running | 14 R416, 03 R107 | false -/
  restWake : Bool := false
  deriving DecidableEq, Repr

/-! ### Watchdogs and thermal monitor (R423 to R443) -/

/-- One watchdog slot. -/
structure WdtSlot where
  /-- WDT_COUNT, 26 bit | 15 R425 | 0 -/
  count : Nat := 0
  /-- WDT_TOKEN, 16 bit | 15 R426 | 0x5A00 + s -/
  token : Nat
  /-- token used by the last valid service, 16 bit | 15 R426 | none -/
  used : Option Nat := none
  /-- WDT_CNT.EXP, 8 bit saturating | 15 R440 | 0 -/
  nExp : Nat := 0
  /-- WDT_CNT.EARLY, 8 bit saturating | 15 R440 | 0 -/
  nEarly : Nat := 0
  /-- WDT_CNT.DUP, 8 bit saturating | 15 R440 | 0 -/
  nDup : Nat := 0
  /-- WDT_CNT.BAD, 8 bit saturating | 15 R440 | 0 -/
  nBad : Nat := 0
  /-- run ticks of the last expiries of an internal slot, newest first | 15 R431 | empty -/
  expTks : List Nat := []
  deriving DecidableEq, Repr

/-- The watchdogs. -/
structure Wdt where
  /-- the 24 slots | 15 R423 | tokens 0x5A00 + s -/
  slots : List WdtSlot := (List.range 24).map fun s => { token := 0x5A00 + s }
  /-- WDT_STAT.CLK_NOW | 15 R424 | 0 -/
  clkNow : Bool := false
  /-- WDT_STAT.CLK_LOST | 15 R424 | 0 -/
  clkLost : Bool := false
  /-- WDT_EXP, 24 bit | 15 R428 | 0 -/
  exp : Nat := 0
  /-- channel action at the next launch tick: 1 PAUSE, 2 STOP (strongest) | 15 R428 | 0 -/
  act : Nat := 0
  /-- services (slot, token) that wait for the next watchdog tick, oldest first | 15 R423 | empty -/
  pend : List (Nat × Nat) := []
  deriving DecidableEq, Repr

/-- One die temperature sensor. -/
structure Die where
  /-- THM_SENS.T, signed 16 bit, 0.01 degC | 15 R432 | 0 -/
  t : Int := 0
  /-- a first plausible reading has been taken | 15 R432 | false -/
  ok : Bool := false
  /-- THM_SENS.FAST | 15 R432 | 0 -/
  fast : Bool := false
  /-- THM_SENS.WARN | 15 R433 | 0 -/
  warn : Bool := false
  /-- at the DERATE limit | 15 R433 | 0 -/
  derate : Bool := false
  /-- THM_SENS.SHUT | 15 R433 | 0 -/
  shut : Bool := false
  /-- THM_SENS.RISE | 15 R433 | 0 -/
  rise : Bool := false
  /-- THM_SENS.BROKEN | 15 R435 | 0 -/
  broken : Bool := false
  /-- consecutive implausible readings | 15 R435 | 0 -/
  impl : Nat := 0
  /-- plausible readings of the last second: run tick and value, newest first | 15 R433 | empty -/
  hist : List (Nat × Int) := []
  /-- run tick from which the difference has been at or below 2.50 degC | 15 R433 | none -/
  calmTk : Option Nat := none
  deriving DecidableEq, Repr

/-- Told temperature of a channel. -/
structure Told where
  /-- THM_TCELL.T and its take time in run ticks (signed), 0.01 degC | 15 R436 | none -/
  t : Option (Int × Int) := none
  /-- reference value and its take time | 15 R438 | none -/
  ref : Option (Int × Int) := none
  /-- the value was stale when last looked at: THM_T_STALE is raised, or the channel was never told | 15 R437 | 1 -/
  stale : Bool := true
  /-- THM_TCELL.RISE | 15 R438 | 0 -/
  rise : Bool := false
  /-- run tick at which an accepted value took the place of one the island judges hot or old | 11 R343 | none -/
  badTk : Option Nat := none
  deriving DecidableEq, Repr

/-- The thermal monitor. -/
structure Thm where
  /-- sensors 0 to 9 | 15 R432 | 10 sensors -/
  die : Vector Die 10 := Vector.replicate 10 {}
  /-- told temperatures of channels 0 to 127 | 15 R436 | 128 entries -/
  told : Vector Told 128 := Vector.replicate 128 {}
  /-- THM_CNT.DERATE, 8 bit saturating | 15 R441 | 0 -/
  nDer : Nat := 0
  /-- THM_CNT.RISE, 8 bit saturating | 15 R441 | 0 -/
  nRise : Nat := 0
  /-- THM_CNT.STALE, 8 bit saturating | 15 R441 | 0 -/
  nStale : Nat := 0
  /-- THM_CNT.IMPL, 8 bit saturating | 15 R441 | 0 -/
  nImpl : Nat := 0
  deriving DecidableEq, Repr

/-! ### Events and interrupts (R444 to R457) -/

/-- An event raised and not yet consumed (R446, R495). -/
structure Event where
  cause : Nat
  /-- channel id or 0xFF -/
  ch : Nat
  akind : Nat
  arg : List Byte
  /-- line time and run time of the raise -/
  sec : Nat
  frac : Nat
  run : Nat
  prod : Producer
  /-- the source it belongs to (R447) -/
  src : Nat
  /-- its argument record was lost (R495) -/
  lost : Bool := false
  /-- the response ring of an answer to a timed command (R446) -/
  ring : Option Nat := none
  deriving DecidableEq, Repr

/-- The event controller. -/
structure Intc where
  /-- INTC_PEND, sources pending, rising | 16 R448 | empty -/
  pend : List Nat := []
  /-- pending sources that are held by their group's timer, rising | 16 R449 | empty -/
  held : List Nat := []
  /-- INTC_AGAIN, rising | 16 R448 | empty -/
  again : List Nat := []
  /-- INTC_GRP.RUN, 16 bit | 16 R449 | 0 -/
  run : Nat := 0
  /-- us left of each group's hold-off | 16 R449 | 16 zeros -/
  left : List Nat := List.replicate 16 0
  /-- in-service stacks of targets 0 to 7, top first: id and priority | 16 R450 | empty each -/
  stk : List (List (Nat × Nat)) := List.replicate 8 []
  /-- INTC_CNT.SPURIOUS, 16 bit saturating | 16 R450 | 0 -/
  nSpur : Nat := 0
  /-- INTC_CNT.ORDER, 16 bit saturating | 16 R451 | 0 -/
  nOrder : Nat := 0
  deriving DecidableEq, Repr

/-! ### Store and access (R458 to R486) -/

/-- A request to the write manager (R463). -/
inductive NvmReq where
  /-- a record: kind, index, payload -/
  | record (kind index : Nat) (payload : List Byte)
  /-- one word written through the window -/
  | word (addr : Nat) (bytes : List Byte)
  /-- a word written back in place -/
  | refresh (addr : Nat)
  deriving DecidableEq, Repr

/-- The write in progress: its request and the words still to write. -/
structure NvmJob where
  req : NvmReq
  words : List (Nat × List Byte)
  deriving DecidableEq, Repr

/-- What keeps NVM_STAT.BUSY at 1. -/
inductive NvmBusy where
  | format | calCommit | scanNow (left : Nat)
  deriving DecidableEq, Repr

/-- The non-volatile store. -/
structure Nvm where
  /-- the array: 1,048,576 bytes, (address, byte) with addresses rising and no zero byte listed | 17 R458 | nothing listed -/
  mem : List Host.Cell := []
  /-- uncorrectable words, word indices rising | 17 R458 | empty -/
  bad : List Nat := []
  /-- words with a single-bit error, word indices rising | 17 R458 | empty -/
  weak : List Nat := []
  /-- NVM_STAT.REFUSED | 17 R484 | 0 -/
  refused : Bool := false
  /-- NVM_STAT.BUSY | 17 R484 | none -/
  busy : Option NvmBusy := none
  /-- NVM_STAT.PFW_LOCK | 17 R465 | 0 -/
  lock : Bool := false
  /-- NVM_STAT.PATCH_BANK | 17 R484 | 0 -/
  bank : Nat := 0
  /-- store recall has completed in this LOAD | 12 R359 | false -/
  recalled : Bool := false
  /-- queued writes, oldest first | 17 R463 | empty -/
  queue : List NvmReq := []
  /-- the write in progress | 17 R458 | none -/
  job : Option NvmJob := none
  /-- the commit set is being written: requests left | 17 R465 | none -/
  commit : Option (List NvmReq) := none
  /-- NVM_SCAN, next page, 12 bit | 17 R468 | 0 -/
  scanPage : Nat := 0
  /-- NVM_SCAN, full scans since LOAD, 16 bit saturating | 17 R468 | 0 -/
  scans : Nat := 0
  /-- run tick from which the next page of the scan is due | 17 R468 | 0 -/
  scanTk : Nat := 0
  /-- NVM_CNT.CORR, 8 bit saturating | 17 R484 | 0 -/
  nCorr : Nat := 0
  /-- NVM_CNT.UNCORR, 8 bit saturating | 17 R484 | 0 -/
  nUncorr : Nat := 0
  /-- NVM_CNT.REFRESH, 8 bit saturating | 17 R484 | 0 -/
  nRefresh : Nat := 0
  /-- NVM_CNT.TORN, 8 bit saturating | 17 R484 | 0 -/
  nTorn : Nat := 0
  deriving DecidableEq, Repr

/-- Fuse programming in progress (R483). -/
inductive FuseJob where
  | word (w : Nat) (v : Word)
  | block (w : Nat) (v : List Word)
  deriving DecidableEq, Repr

/-- Access control and the fuse map. -/
structure Acc where
  /-- the fuse map, 64 words of 32 bit | 17 R481 | word 0 and FCRC, all else 0 (log entry 7) -/
  fuse : List Word := [0x00017128] ++ List.replicate 14 0 ++ [0x1EBD898A] ++ List.replicate 48 0
  /-- ACC_STAT.SVC and ACC_SVC: SERVICE was entered from this mode | 17 R478 | none -/
  svcFrom : Option Mode := none
  /-- a drain for ENTER is in progress, for session s | 17 R478 | none -/
  entering : Option Nat := none
  /-- ACC_SVC.STAGE_OP | 17 R484 | 0 -/
  stageOp : Bool := false
  /-- ACC_STAT.TAP_OPEN | 17 R480 | 0 -/
  tapOpen : Bool := false
  /-- failure count F, 8 bit, as held in the ACCESS record; none: absent | 17 R479 | none -/
  fails : Option Nat := none
  /-- run tick from which the back-off counts | 17 R479 | 0 -/
  failTk : Nat := 0
  /-- a back-off runs | 17 R479 | true -/
  waiting : Bool := true
  /-- ACC_FBUF, 8 words | 17 R484 | 0 each -/
  fbuf : List Word := List.replicate 8 0
  /-- fuse programming in progress | 17 R483 | none -/
  job : Option FuseJob := none
  /-- run tick at which the programming began | 17 R483 | 0 -/
  jobTk : Nat := 0
  deriving DecidableEq, Repr

/-! ### Fabric and crossings (R487 to R500) -/

/-- The fabric, its crossings and the adaptive core voltage. -/
structure Fabric where
  /-- events raised and not yet consumed, oldest first | 18 R495, 16 R446 | empty -/
  events : List Event := []
  /-- DEV_FRATE, 32 bit | 18 R499 | 0 -/
  rate : Nat := 0
  /-- DEV_FSLACK[15:0], 16 bit, 0.01 us | 18 R494 | 0 -/
  slack : Nat := 0
  /-- DEV_FSLACK[31:16], lowest since LOAD, 16 bit | 18 R494 | 0 -/
  slackLow : Option Nat := none
  /-- slacks of the ticks of the present sump tick, 0.01 us | 18 R494 | empty -/
  slacks : List Nat := []
  /-- DEV_VTRIM.CODE, 8 bit | 18 R496 | 128 -/
  code : Nat := 128
  /-- DEV_VTRIM.HOLD | 18 R497 | 0 -/
  hold : Bool := false
  /-- DEV_VTRIM.VCORE_MV, 10 bit | 18 R499 | 0 -/
  vcore : Nat := 0
  /-- internal slots 16 to 23 whose unit has not rejoined after a reset | 18 R497 R498 | empty -/
  resetting : List Nat := []
  /-- low_run of the adaptation | 18 R496 | 0 -/
  lowRun : Nat := 0
  /-- r_prev of the adaptation | 18 R496 | 0 -/
  ratePrev : Nat := 0
  /-- DEV_FOVR.UNITS, 8 bit | 18 R493 | 0 -/
  ovUnits : Nat := 0
  /-- DEV_FOVR.RUN, 8 bit saturating | 18 R493 | 0 -/
  ovRun : Nat := 0
  /-- flagged ticks of the run in progress | 18 R493 | 0 -/
  ovNow : Nat := 0
  /-- DEV_FOVR.TK16, 16 bit | 18 R493 | 0 -/
  ovTk : Nat := 0
  /-- DEV_FCNT.OVR, 16 bit saturating | 18 R499 | 0 -/
  nOvr : Nat := 0
  /-- DEV_FCNT.FIFO, 8 bit saturating | 18 R499 | 0 -/
  nFifo : Nat := 0
  /-- DEV_FCNT.RESET, 8 bit saturating | 18 R499 | 0 -/
  nReset : Nat := 0
  deriving DecidableEq, Repr

/-! ### Access paths (R8) -/

/-- What each access path keeps of its own (R8, R408, R471, R523). -/
structure Shadow where
  /-- wide captures: address of a higher word and its captured value, addresses rising | 00 R8 | empty (0) -/
  wide : List (Nat × Word) := []
  /-- frozen calendar, with the oscillator counts since the freeze | 14 R408 | none -/
  cal : Option (Calendar × Nat) := none
  /-- RTC_SHSTAT.STALE | 14 R408 | 0 -/
  stale : Bool := false
  /-- RCP_SEL, 32 bit | 05 R179, 20 R523 | 0 -/
  rcpSel : Word := 0
  /-- RCP_WIN, the 64 bytes loaded by the last write of RCP_SEL | 05 R180 | 64 zero bytes -/
  rcpWin : List Byte := List.replicate 64 0
  /-- NVM_WINSEL.BANK | 17 R470 | 0 -/
  winBank : Bool := false
  /-- held lower half of a window word, 32 bit | 17 R471, 20 R523 | 0 -/
  winHeld : Word := 0
  deriving DecidableEq, Repr

/-- What leaves the block through its ports and buses. -/
inductive Out where
  /-- the word a register read returns to its access path -/
  | readData (p : Path) (addr : Nat) (v : Word)
  /-- an Ethernet frame on P0 or P1: its kind and its bytes or fields. `src`: the UDP port it leaves from; `mac`: the address of
  the next hop, none where the ARP cache does not hold it; `tag`: its 802.1Q VID and PCP (R277); `udpZero`: its UDP checksum is
  set to 0 (R270) -/
  | perzo (port src : Nat) (mac : Option Nat) (ip udp : Nat) (tag : Option (Nat × Nat)) (bytes : List Byte)
  | hello (port : Nat) (bytes : List Byte)
  | arpReply (port ip mac : Nat) (tag : Option (Nat × Nat))
  | arpAnnounce (port ip : Nat) (tag : Option (Nat × Nat))
  | icmpReply (port ip mac : Nat) (tag : Option (Nat × Nat)) (bytes : List Byte)
  | ptp (port : Nat) (l2 : Bool) (tag : Option (Nat × Nat)) (type seq : Nat) (origin : Int) (corr : Int)
  | forward (port : Nat) (high : Bool) (badFcs : Bool) (corr : Int) (udpZero : Bool) (id : Nat)
  /-- a two-wire transaction as controller: address, bytes written, bytes to read -/
  | twiXfer (addr : Nat) (wr : List Byte) (nrd : Nat)
  | eepromWrite (addr : Nat) (bytes : List Byte)
  | eepromRead (slot : Nat)
  /-- what the two-wire target answers: acknowledged, and the bytes read -/
  | twiTarget (ack : Bool) (bytes : List Byte)
  deriving DecidableEq, Repr

/-! ### The whole machine -/

/-- The state of the block. -/
structure State where
  /-- the mode of R1 | 00 R1, R525 | BACKUP -/
  mode : Mode := .backup
  /-- the supply sequencer | 13 R386 | as Seq -/
  seq : Seq := {}
  /-- configuration registers: (address, word), addresses rising, none at its reset value | 00 R3, 20 R521 | nothing listed -/
  regs : List (Nat × Word) := []
  /-- the timebase island | 08 R241 | as Timebase -/
  tb : Timebase := {}
  /-- phases 0 to 127 | 02 R36 | 128 phases -/
  ph : Vector Phase 128 := Vector.replicate 128 {}
  /-- galleries 0 to 7 | 01 R13 | 8 galleries -/
  gal : Vector Gallery 8 := Vector.replicate 8 {}
  /-- front ends 0 to 127 | 03 R79 | 128 front ends -/
  fe : Vector FrontEnd 128 := Vector.replicate 128 {}
  /-- channel slots 0 to 127 | 01 R24 | 128 slots -/
  ch : Vector Channel 128 := Vector.replicate 128 {}
  /-- estimators of channels 0 to 127 | 06 R182 | 128 estimators -/
  est : Vector Estimator 128 := Vector.replicate 128 {}
  /-- recipe, model and grade memory | 05 R145 | as Recipes -/
  rcp : Recipes := {}
  /-- the sump | 07 R217 | as Sump -/
  sump : Sump := {}
  /-- the link | 09 R267 | as Link -/
  link : Link := {}
  /-- rings 0 to 63 | 09 R289 | 64 rings -/
  ring : Vector Ring 64 := Vector.replicate 64 {}
  /-- the codec, by telemetry ring | 10 R323 | 32 entries -/
  sqz : Vector Sqz 32 := Vector.replicate 32 {}
  /-- the safety island | 11 R328 | as Island -/
  saf : Island := {}
  /-- the loader | 12 R365 | as Loader -/
  ldr : Loader := {}
  /-- the two-wire bus | 12 R375 | as Twi -/
  twi : Twi := {}
  /-- the backup domain | 14 R403 | as Rtc -/
  rtc : Rtc := {}
  /-- the watchdogs | 15 R423 | as Wdt -/
  wdt : Wdt := {}
  /-- the thermal monitor | 15 R432 | as Thm -/
  thm : Thm := {}
  /-- the event controller | 16 R448 | as Intc -/
  intc : Intc := {}
  /-- the non-volatile store | 17 R458 | as Nvm -/
  nvm : Nvm := {}
  /-- access control and fuses | 17 R475, R481 | as Acc -/
  acc : Acc := {}
  /-- the fabric and the event crossings | 18 R487 | as Fabric -/
  fab : Fabric := {}
  /-- per-path state: sessions 0 to 3, the I2C target, cores 0 to 3 | 00 R8 | 9 entries -/
  shadow : List Shadow := List.replicate 9 {}
  /-- MODEL FIELD: what has left the block, oldest first | 09 R268, 12 R375 | empty -/
  out : List Out := []
  /-- MODEL FIELD: counter of the free values taken so far | log entry 2 | 0, DESIGN CHOICE -/
  free : Nat := 0
  /-- MODEL FIELD: the commands that are waiting, first in first out | the row's cut | empty -/
  pending : List Instr := []
  deriving DecidableEq, Repr

/-- The state right after reset: a cold start, every part at the value its docstring gives. -/
def State.reset : State := {}

end Sys2Proof.Machine
end

