-- ==== Sys2Proof/Machine/Flags.lean ====
section
/-!
DEFINITION. The cause codes of every subsystem (R444) and the event source each belongs to (R447).
-/

namespace Sys2Proof.Machine

/-! High byte 0x01 (R445). -/

/-- REG_WRITE_LOCKED: RWL or RWS write outside its modes -/
def Cause.regWriteLocked : Nat := 0x0101
/-- TOPO_MISSING: no TOPO section, or more than one -/
def Cause.topoMissing : Nat := 0x0102
/-- TOPO_FORMAT_BAD: TOPO format or reserved byte wrong -/
def Cause.topoFormatBad : Nat := 0x0103
/-- TOPO_MODE_BAD: gallery mode code illegal -/
def Cause.topoModeBad : Nat := 0x0104
/-- TOPO_BLOCK_BAD: block map illegal -/
def Cause.topoBlockBad : Nat := 0x0105
/-- TOPO_POP_BAD: population bit for a slot that is not declared -/
def Cause.topoPopBad : Nat := 0x0106
/-- TOPO_REF_BAD: a section names a channel, phase or front end that is not declared -/
def Cause.topoRefBad : Nat := 0x0107

/-! High byte 0x02 (R78). -/

/-- PH_OCF_LATCH: eight consecutive limited cycles -/
def Cause.phOcfLatch : Nat := 0x0201
/-- PH_OCS_TRIP: slow limit exceeded -/
def Cause.phOcsTrip : Nat := 0x0202
/-- PH_OPEN_LOAD: open load declared -/
def Cause.phOpenLoad : Nat := 0x0203
/-- PH_NO_CURRENT: confirmation found the cell present -/
def Cause.phNoCurrent : Nat := 0x0204
/-- PH_SENSE_OPEN_A: confirmation found the A-path sense open -/
def Cause.phSenseOpenA : Nat := 0x0205
/-- PH_SENSE_OPEN_B: confirmation found the B-path sense open -/
def Cause.phSenseOpenB : Nat := 0x0206
/-- PH_BRAKE_STUCK: braking beyond 50 µs -/
def Cause.phBrakeStuck : Nat := 0x0207
/-- PH_IMON_RANGE: IMON outside 0.05 V to 2.95 V -/
def Cause.phImonRange : Nat := 0x0208
/-- PHCFG_RANGE: PHCFG section rejected at load -/
def Cause.phcfgRange : Nat := 0x0209

/-! High byte 0x03 (R120). -/

/-- FE_ECHO_FAIL: Echo pass and its repeat failed -/
def Cause.feEchoFail : Nat := 0x0301
/-- FE_AB_MISMATCH_V: A/B V counter reached 328 -/
def Cause.feAbMismatchV : Nat := 0x0302
/-- FE_AB_MISMATCH_I: A/B I counter reached 328 -/
def Cause.feAbMismatchI : Nat := 0x0303
/-- FE_V_OVR: V over range on the regulation path -/
def Cause.feVOvr : Nat := 0x0304
/-- FE_I_OVR: I over range -/
def Cause.feIOvr : Nat := 0x0305
/-- FE_CMP_OV: window comparator above OV_MV -/
def Cause.feCmpOv : Nat := 0x0306
/-- FE_CMP_UV: window comparator below UV_MV -/
def Cause.feCmpUv : Nat := 0x0307
/-- FE_ECHO_OVERDUE: density Echo older than DMAX_S -/
def Cause.feEchoOverdue : Nat := 0x0308
/-- FE_PARITY: three consecutive parity failures -/
def Cause.feParity : Nat := 0x0309
/-- FE_UNCAL: default calibration in force -/
def Cause.feUncal : Nat := 0x030A
/-- FECFG_RANGE: FECFG section rejected at load -/
def Cause.fecfgRange : Nat := 0x030B
/-- FECAL_RANGE: FECAL section rejected at load -/
def Cause.fecalRange : Nat := 0x030C

/-! High byte 0x04 (R143). -/

/-- CELL_LOST: R67 found the cell absent -/
def Cause.cellLost : Nat := 0x0401
/-- FIXTURE_REMOVED: fixture told absent in an active state -/
def Cause.fixtureRemoved : Nat := 0x0402
/-- ABORTED_HOST: step ended by STOP -/
def Cause.abortedHost : Nat := 0x0403
/-- ABORTED_DISABLE: step ended by DISABLE -/
def Cause.abortedDisable : Nat := 0x0404
/-- ABORTED_MODE: step ended by a device mode change -/
def Cause.abortedMode : Nat := 0x0405
/-- CH_ABSENT: access to a slot that is not declared or not populated (R26) -/
def Cause.chAbsent : Nat := 0x0406
/-- CH_CMD_REFUSED: command or setpoint refused -/
def Cause.chCmdRefused : Nat := 0x0407
/-- SLEW_DONE: slewed value reached its target (R124) -/
def Cause.slewDone : Nat := 0x0408
/-- STEP_RESUMED: a closed step reopened after a qualified return -/
def Cause.stepResumed : Nat := 0x0409
/-- CHCFG_RANGE: CHCFG section rejected at load -/
def Cause.chcfgRange : Nat := 0x040A

/-! High byte 0x05 (R181). -/

/-- RCP_TERM0: termination slot 0 confirmed -/
def Cause.rcpTerm0 : Nat := 0x0501
/-- RCP_TERM1: termination slot 1 confirmed -/
def Cause.rcpTerm1 : Nat := 0x0502
/-- RCP_TERM2: termination slot 2 confirmed -/
def Cause.rcpTerm2 : Nat := 0x0503
/-- RCP_TERM3: termination slot 3 confirmed -/
def Cause.rcpTerm3 : Nat := 0x0504
/-- RCP_STEP_DONE: natural end of a PULSE or GROUP_WAIT step -/
def Cause.rcpStepDone : Nat := 0x0505
/-- RCP_DONE: recipe completed without hold -/
def Cause.rcpDone : Nat := 0x0506
/-- RCP_TERM_ABORT: ABORT action -/
def Cause.rcpTermAbort : Nat := 0x0507
/-- RCP_TERM_FAULT: FAULT action -/
def Cause.rcpTermFault : Nat := 0x0508
/-- RCP_GUARD_VMAX: guard G_VMAX -/
def Cause.rcpGuardVmax : Nat := 0x0509
/-- RCP_GUARD_VMIN: guard G_VMIN -/
def Cause.rcpGuardVmin : Nat := 0x050A
/-- RCP_GUARD_QMAX: guard G_QMAX -/
def Cause.rcpGuardQmax : Nat := 0x050B
/-- RCP_TEMP_TIMEOUT: TEMP_WAIT beyond T_WAIT_MAX_TK -/
def Cause.rcpTempTimeout : Nat := 0x050C
/-- RCP_TOPOFF_TIMEOUT: top-off beyond T_TOP_MAX_TK -/
def Cause.rcpTopoffTimeout : Nat := 0x050D
/-- RCP_RECHG_LIMIT: recharge needed beyond N_RECHG -/
def Cause.rcpRechgLimit : Nat := 0x050E
/-- RCP_HOLD_END: hold reached T_HOLD_MAX_TK -/
def Cause.rcpHoldEnd : Nat := 0x050F
/-- RCP_CHAIN_LONG: more than eight zero-duration steps at one boundary -/
def Cause.rcpChainLong : Nat := 0x0510
/-- RCP_BOUNDARY_LATE: boundary moved one tick (R149) -/
def Cause.rcpBoundaryLate : Nat := 0x0511
/-- RCP_RANGE: RCP or WAITGRP section rejected at load -/
def Cause.rcpRange : Nat := 0x0512

/-! High byte 0x06 (R216). -/

/-- EST_DIVERGE: coulomb and voltage SoC differed for 60 s -/
def Cause.estDiverge : Nat := 0x0601
/-- EST_INIT: estimator initialised from OCV -/
def Cause.estInit : Nat := 0x0602
/-- EST_OCV_CLAMP: initial OCV outside the table -/
def Cause.estOcvClamp : Nat := 0x0603
/-- EST_CAP_LEARNED: capacity measurement accepted -/
def Cause.estCapLearned : Nat := 0x0604
/-- EST_CAP_REJECT: measurement outside 50 % to 150 % of Q_NOM -/
def Cause.estCapReject : Nat := 0x0605
/-- EST_GRADED: result record issued -/
def Cause.estGraded : Nat := 0x0606
/-- EST_NO_BIN: grading matched no bin -/
def Cause.estNoBin : Nat := 0x0607
/-- EST_OVERRUN: update not published in time (R182) -/
def Cause.estOverrun : Nat := 0x0608
/-- EST_WB_DROP: capacity write-back dropped at power fail -/
def Cause.estWbDrop : Nat := 0x0609
/-- EST_CMD_REFUSED: estimator command refused -/
def Cause.estCmdRefused : Nat := 0x060A
/-- MODEL_RANGE: MODEL section rejected at load -/
def Cause.modelRange : Nat := 0x060B
/-- GRADE_RANGE: GRADE section rejected at load -/
def Cause.gradeRange : Nat := 0x060C

/-! High byte 0x07 (R240). -/

/-- SUMP_DROOP: droop comparator tripped -/
def Cause.sumpDroop : Nat := 0x0701
/-- SUMP_FE_LOST: source lost -/
def Cause.sumpFeLost : Nat := 0x0702
/-- SUMP_LEND_START: a channel began lending -/
def Cause.sumpLendStart : Nat := 0x0703
/-- SUMP_LEND_END: a channel stopped lending -/
def Cause.sumpLendEnd : Nat := 0x0704
/-- SUMP_RETURNED: NORMAL re-entered -/
def Cause.sumpReturned : Nat := 0x0705
/-- SUMP_EXPIRED: step ended at EXPIRE -/
def Cause.sumpExpired : Nat := 0x0706
/-- SUMP_OV: overvoltage comparator tripped -/
def Cause.sumpOv : Nat := 0x0707
/-- SUMP_INHIBIT: line inhibit began -/
def Cause.sumpInhibit : Nat := 0x0708
/-- SUMP_BUDGET_STALE: fallback budget in force -/
def Cause.sumpBudgetStale : Nat := 0x0709
/-- SUMP_ARB_LATE: allocation not staged in time -/
def Cause.sumpArbLate : Nat := 0x070A
/-- SUMP_PAUSE_END: a channel's sump pause ended -/
def Cause.sumpPauseEnd : Nat := 0x070B
/-- SUMPCFG_RANGE: SUMPCFG section rejected at load -/
def Cause.sumpcfgRange : Nat := 0x070C

/-! High byte 0x08 (R266). -/

/-- TB_LOCKED: LOCKED entered -/
def Cause.tbLocked : Nat := 0x0801
/-- TB_UNLOCKED: LOCKED left for ACQUIRE -/
def Cause.tbUnlocked : Nat := 0x0802
/-- TB_HOLDOVER: HOLDOVER entered -/
def Cause.tbHoldover : Nat := 0x0803
/-- TB_FREERUN: HOLDOVER expired -/
def Cause.tbFreerun : Nat := 0x0804
/-- TB_MASTER_CHANGE: a different master selected -/
def Cause.tbMasterChange : Nat := 0x0805
/-- TIME_STEPPED: line time stepped (R250) -/
def Cause.timeStepped : Nat := 0x0806
/-- TB_STEP_FORCED: step applied after 2 s without a free tick -/
def Cause.tbStepForced : Nat := 0x0807
/-- MISSED: a target did not apply a timed command -/
def Cause.missed : Nat := 0x0808
/-- TCMD_ACCEPTED: timed command accepted -/
def Cause.tcmdAccepted : Nat := 0x0809
/-- TCMD_DONE: timed command completed -/
def Cause.tcmdDone : Nat := 0x080A
/-- TCMD_BAD: malformed or illegal command -/
def Cause.tcmdBad : Nat := 0x080B
/-- TCMD_LATE: launch time too near -/
def Cause.tcmdLate : Nat := 0x080C
/-- TCMD_FULL: command table full -/
def Cause.tcmdFull : Nat := 0x080D
/-- TCMD_EPOCH: epoch mismatch at acceptance -/
def Cause.tcmdEpoch : Nat := 0x080E
/-- TCMD_NOTIME: no usable line time -/
def Cause.tcmdNotime : Nat := 0x080F
/-- TCMD_GROUP_DIS: launch group disabled or draining -/
def Cause.tcmdGroupDis : Nat := 0x0810
/-- TCMD_CANCELLED: command removed by CANCEL -/
def Cause.tcmdCancelled : Nat := 0x0811
/-- TCMD_CANCEL_LATE: CANCEL after release -/
def Cause.tcmdCancelLate : Nat := 0x0812
/-- MODE_DRAIN_TIMEOUT: drain forced at its timeout (R261) -/
def Cause.modeDrainTimeout : Nat := 0x0813
/-- TIME_RANGE: TIMECFG section rejected at load -/
def Cause.timeRange : Nat := 0x0814

/-! High byte 0x09 (R301). -/

/-- PZ_BAD: malformed request or payload -/
def Cause.pzBad : Nat := 0x0901
/-- PZ_SEQ: request out of sequence -/
def Cause.pzSeq : Nat := 0x0902
/-- PZ_ALIGN: misaligned register address -/
def Cause.pzAlign : Nat := 0x0903
/-- PZ_NOT_PERMITTED: message not permitted to the session's role -/
def Cause.pzNotPermitted : Nat := 0x0904
/-- PZ_NO_SESSION: four sessions already open -/
def Cause.pzNoSession : Nat := 0x0905
/-- PZ_WRITER_BUSY: another controller session exists -/
def Cause.pzWriterBusy : Nat := 0x0906
/-- PZ_SESSION_LOST: session lost (R285) -/
def Cause.pzSessionLost : Nat := 0x0907
/-- PZ_TOLD_FUTURE: told timestamp more than 1 ms ahead -/
def Cause.pzToldFuture : Nat := 0x0908
/-- PZ_TOLD_OLD: told value older than the one in force -/
def Cause.pzToldOld : Nat := 0x0909
/-- PZ_REPLAY_GONE: replay start older than the ring holds -/
def Cause.pzReplayGone : Nat := 0x090A
/-- PZ_RING_BAD: ring not usable for the request -/
def Cause.pzRingBad : Nat := 0x090B
/-- PZ_PUSH_GAP: push beyond the ring's next RSN -/
def Cause.pzPushGap : Nat := 0x090C
/-- RING_OVERFLOW: reliable or input ring full; record dropped -/
def Cause.ringOverflow : Nat := 0x090D
/-- LINK_ROPE_LONG: position 32 or more -/
def Cause.linkRopeLong : Nat := 0x090E
/-- LINK_POS_CHANGE: position changed after first derivation -/
def Cause.linkPosChange : Nat := 0x090F
/-- LINK_BUDGET_OVER: SEG_KBPS above 800,000 kbit/s -/
def Cause.linkBudgetOver : Nat := 0x0910
/-- LINK_PORT_DOWN: P0 or P1 went down -/
def Cause.linkPortDown : Nat := 0x0911
/-- NETCFG_RANGE: NETCFG section rejected at load -/
def Cause.netcfgRange : Nat := 0x0912

/-! High byte 0x0A (R325). -/

/-- SQZ_DEGRADED: a block was re-encoded to fit S_max (R312) -/
def Cause.sqzDegraded : Nat := 0x0A01
/-- SQZ_VERIFY_FAIL: re-decode verification failed; summary sent (R316) -/
def Cause.sqzVerifyFail : Nat := 0x0A02
/-- SQZ_WRITE_BAD: illegal value written to a codec register -/
def Cause.sqzWriteBad : Nat := 0x0A03
/-- SQZCFG_RANGE: SQZCFG section rejected at load -/
def Cause.sqzcfgRange : Nat := 0x0A04

/-! High byte 0x0B (R355). -/

/-- SAF_VMAX: digital over-voltage (R333) -/
def Cause.safVmax : Nat := 0x0B01
/-- SAF_VMIN: digital under-voltage -/
def Cause.safVmin : Nat := 0x0B02
/-- SAF_IMAX: digital over-current -/
def Cause.safImax : Nat := 0x0B03
/-- SAF_TMAX: told temperature at or above T_MAX (R334) -/
def Cause.safTmax : Nat := 0x0B04
/-- SAF_TSTALE: told temperature older than TSTALE_MS -/
def Cause.safTstale : Nat := 0x0B05
/-- SAF_SFLT: stage fault (R336) -/
def Cause.safSflt : Nat := 0x0B06
/-- SAF_SUMP_OV2: sump above V_OV2_MV (R335) -/
def Cause.safSumpOv2 : Nat := 0x0B07
/-- SAF_CLK_LOSS: clock lost (R337) -/
def Cause.safClkLoss : Nat := 0x0B08
/-- SAF_FABRIC_STALL: eight consecutive tick overruns (R338) -/
def Cause.safFabricStall : Nat := 0x0B09
/-- SAF_PARAM: threshold copies differ (R340) -/
def Cause.safParam : Nat := 0x0B0A
/-- SAF_SIG: signature mismatch (R346) -/
def Cause.safSig : Nat := 0x0B0B
/-- SAF_SUPPLY: rail out of window (R339) -/
def Cause.safSupply : Nat := 0x0B0C
/-- SAF_DIE_TEMP: die sensor at shut limit (R339) -/
def Cause.safDieTemp : Nat := 0x0B0D
/-- SAF_CMP_TEST: comparator test failed twice (R341) -/
def Cause.safCmpTest : Nat := 0x0B0E
/-- SAF_CMP_DEFER: comparator test deferred for an interval -/
def Cause.safCmpDefer : Nat := 0x0B0F
/-- SAF_GALLERY: channel in FAULT through its gallery's safe state -/
def Cause.safGallery : Nat := 0x0B10
/-- SAF_LOCKSTEP: island copies disagreed; recorded if the island recovers -/
def Cause.safLockstep : Nat := 0x0B11
/-- SAF_RELEASED: device safe state released (R344) -/
def Cause.safReleased : Nat := 0x0B12
/-- SAF_RELEASE_REFUSED: release or SAF_CMD refused (R343) -/
def Cause.safReleaseRefused : Nat := 0x0B13
/-- SAF_PROOF_FAIL: proof test item failed (R349) -/
def Cause.safProofFail : Nat := 0x0B14
/-- SAFCFG_RANGE: SAFCFG section rejected at load -/
def Cause.safcfgRange : Nat := 0x0B15
/-- SAFCFG_SIG: signature mismatch at load or at a SERVICE set -/
def Cause.safcfgSig : Nat := 0x0B16

/-! High byte 0x0C (R385). -/

/-- LDR_LOADED: image applied; ARG holds GEN -/
def Cause.ldrLoaded : Nat := 0x0C01
/-- LDR_FALLBACK: a later candidate was loaded -/
def Cause.ldrFallback : Nat := 0x0C02
/-- LDR_NO_IMAGE: no candidate passed -/
def Cause.ldrNoImage : Nat := 0x0C03
/-- LDR_HDR_BAD: container header failed -/
def Cause.ldrHdrBad : Nat := 0x0C04
/-- LDR_SECT_BAD: section header or walk failed -/
def Cause.ldrSectBad : Nat := 0x0C05
/-- LDR_SECT_CRC: section payload CRC failed -/
def Cause.ldrSectCrc : Nat := 0x0C06
/-- LDR_SECT_UNKNOWN: unknown section without OPTIONAL -/
def Cause.ldrSectUnknown : Nat := 0x0C07
/-- LDR_FUSE_BAD: fuse map check failed -/
def Cause.ldrFuseBad : Nat := 0x0C08
/-- LDR_RECALL_REFUSED: store recall refused; ARG holds the reason -/
def Cause.ldrRecallRefused : Nat := 0x0C09
/-- LDR_ISLAND_FAIL: island start-up self-check failed -/
def Cause.ldrIslandFail : Nat := 0x0C0A
/-- LDR_ROM_FAIL: service-core ROM check failed -/
def Cause.ldrRomFail : Nat := 0x0C0B
/-- LDR_SRAM_FAIL: uncorrectable SRAM word at start-up -/
def Cause.ldrSramFail : Nat := 0x0C0C
/-- LDR_PATCH_SKIPPED: firmware patch not applied -/
def Cause.ldrPatchSkipped : Nat := 0x0C0D
/-- LDR_ECHO_FAIL: front end failed the Echo self-test -/
def Cause.ldrEchoFail : Nat := 0x0C0E
/-- LDR_BUSY: request refused while loading -/
def Cause.ldrBusy : Nat := 0x0C0F
/-- LDR_SLOT_ACTIVE: update addressed the loaded slot -/
def Cause.ldrSlotActive : Nat := 0x0C10
/-- LDR_UPD_RANGE: update beyond the slot -/
def Cause.ldrUpdRange : Nat := 0x0C11
/-- LDR_UPD_BUSY: another session's update is open -/
def Cause.ldrUpdBusy : Nat := 0x0C12
/-- LDR_UPD_REFUSED: COMMIT or LDR_CMD refused -/
def Cause.ldrUpdRefused : Nat := 0x0C13
/-- LDR_UPD_COMMITTED: update committed -/
def Cause.ldrUpdCommitted : Nat := 0x0C14
/-- LDR_GEN_OLD: committed GEN not above the loaded one -/
def Cause.ldrGenOld : Nat := 0x0C15

/-! High byte 0x0D (R385). -/

/-- TWI_ARB_LOST: arbitration lost on every attempt -/
def Cause.twiArbLost : Nat := 0x0D01
/-- TWI_NACK: target did not acknowledge -/
def Cause.twiNack : Nat := 0x0D02
/-- TWI_BUS_STUCK: SCL or SDA held low for STUCK_MS -/
def Cause.twiBusStuck : Nat := 0x0D03
/-- TWI_PEC_BAD: target write with a wrong CRC-8 -/
def Cause.twiPecBad : Nat := 0x0D04
/-- TWI_XFER_REFUSED: host transfer refused -/
def Cause.twiXferRefused : Nat := 0x0D05
/-- TWICFG_RANGE: TWICFG section rejected at load -/
def Cause.twicfgRange : Nat := 0x0D06

/-! High byte 0x0E (R402). -/

/-- RAIL_NORISE: slot not good within T_RISE_MS -/
def Cause.railNorise : Nat := 0x0E01
/-- RAIL_STUCK: slot not fallen within T_FALL_MS, or not fallen before power-up -/
def Cause.railStuck : Nat := 0x0E02
/-- SEQ_PFW: early power-fail warning -/
def Cause.seqPfw : Nat := 0x0E03
/-- SEQ_BROWNOUT: slot 0 to 3 out of window while on -/
def Cause.seqBrownout : Nat := 0x0E04
/-- SEQ_VIN_LOST: VIN_AUX lost -/
def Cause.seqVinLost : Nat := 0x0E05
/-- SEQ_PB_LONG: long press -/
def Cause.seqPbLong : Nat := 0x0E06
/-- SEQ_ON_LATCHED: on request latched during power-down -/
def Cause.seqOnLatched : Nat := 0x0E07
/-- SEQ_CMD_REFUSED: request or SEQ_CMD refused -/
def Cause.seqCmdRefused : Nat := 0x0E08
/-- SEQ_EVT_TORN: torn counter record skipped at recall -/
def Cause.seqEvtTorn : Nat := 0x0E09
/-- SEQCFG_RANGE: SEQCFG section rejected at load -/
def Cause.seqcfgRange : Nat := 0x0E0A

/-! High byte 0x0F (R422). -/

/-- RTC_DOMAIN_LOST: domain collapsed since the last clear -/
def Cause.rtcDomainLost : Nat := 0x0F01
/-- RTC_SET: RTC set from line time -/
def Cause.rtcSet : Nat := 0x0F02
/-- RTC_STEPPED: valid RTC stepped by discipline -/
def Cause.rtcStepped : Nat := 0x0F03
/-- RTC_TRIM_SAT: frequency term at its limit -/
def Cause.rtcTrimSat : Nat := 0x0F04
/-- RTC_ALARM: alarm fired -/
def Cause.rtcAlarm : Nat := 0x0F05
/-- RTC_PWAKE: periodic wake fired -/
def Cause.rtcPwake : Nat := 0x0F06
/-- RTC_WERR: count-register write refused -/
def Cause.rtcWerr : Nat := 0x0F07
/-- RTC_BRAM_BAD: backup RAM block failed its CRC-8 -/
def Cause.rtcBramBad : Nat := 0x0F08
/-- RTC_VBAK_LOW: VBAK below threshold -/
def Cause.rtcVbakLow : Nat := 0x0F09
/-- RTC_OSC_FAIL: 32.768 kHz oscillator stopped -/
def Cause.rtcOscFail : Nat := 0x0F0A
/-- RTCCFG_RANGE: RTCCFG section rejected at load -/
def Cause.rtccfgRange : Nat := 0x0F0B

/-! High byte 0x10 (R443). -/

/-- WDT_EXPIRED: host slot expired -/
def Cause.wdtExpired : Nat := 0x1001
/-- WDT_EARLY: strict slot served before its window -/
def Cause.wdtEarly : Nat := 0x1002
/-- WDT_DUP: strict slot served with its used token -/
def Cause.wdtDup : Nat := 0x1003
/-- WDT_BAD_TOKEN: service with a wrong token -/
def Cause.wdtBadToken : Nat := 0x1004
/-- WDT_INT_EXPIRED: internal slot expired -/
def Cause.wdtIntExpired : Nat := 0x1005
/-- WDT_CLK_LOSS: watchdog clock source lost -/
def Cause.wdtClkLoss : Nat := 0x1006
/-- WDT_LOCKED: write to a locked slot or WDT_CTRL -/
def Cause.wdtLocked : Nat := 0x1007
/-- WDTCFG_RANGE: WDTCFG section rejected at load -/
def Cause.wdtcfgRange : Nat := 0x1008

/-! High byte 0x11 (R443). -/

/-- THM_WARN: die sensor at WARN -/
def Cause.thmWarn : Nat := 0x1101
/-- THM_DERATE: die sensor at DERATE -/
def Cause.thmDerate : Nat := 0x1102
/-- THM_DIE_RISE: die rate of rise above 5 °C/s -/
def Cause.thmDieRise : Nat := 0x1103
/-- THM_BROKEN: die sensor broken -/
def Cause.thmBroken : Nat := 0x1104
/-- THM_T_STALE: told temperature stale -/
def Cause.thmTStale : Nat := 0x1105
/-- THM_T_RISE: told temperature rising above TRISE -/
def Cause.thmTRise : Nat := 0x1106
/-- THM_T_RANGE: told entry out of range, refused -/
def Cause.thmTRange : Nat := 0x1107
/-- THMCFG_RANGE: THMCFG section rejected at load -/
def Cause.thmcfgRange : Nat := 0x1108

/-! High byte 0x12 (R457). -/

/-- INTC_ORDER_FAULT: EOI not matching the stack top, or on an empty stack -/
def Cause.intcOrderFault : Nat := 0x1201
/-- INTC_SOFT: software source raised by INTC_SWSET -/
def Cause.intcSoft : Nat := 0x1202
/-- INTCCFG_RANGE: INTCCFG section rejected at load -/
def Cause.intccfgRange : Nat := 0x1203
/-- RTC: R422 -/
def Cause.rtc : Nat := 0x120F

/-! High byte 0x13 (R486). -/

/-- NVM_REC_LOST: record absent; ARG holds KIND and INDEX -/
def Cause.nvmRecLost : Nat := 0x1301
/-- NVM_TORN: torn copy skipped -/
def Cause.nvmTorn : Nat := 0x1302
/-- NVM_UNCORR: uncorrectable word -/
def Cause.nvmUncorr : Nat := 0x1303
/-- NVM_REFUSED: write refused: recall refused or PFW_LOCK -/
def Cause.nvmRefused : Nat := 0x1304
/-- NVM_BUSY: write refused while BUSY -/
def Cause.nvmBusy : Nat := 0x1305
/-- NVM_RES_DROP: queued result not written at power fail -/
def Cause.nvmResDrop : Nat := 0x1306
/-- NVM_FORMATTED: FORMAT completed -/
def Cause.nvmFormatted : Nat := 0x1307
/-- NVM_REGION_LOCKED: window write to a protected region -/
def Cause.nvmRegionLocked : Nat := 0x1308
/-- NVM_CMD_REFUSED: NVM_CMD refused -/
def Cause.nvmCmdRefused : Nat := 0x1309
/-- NVMCFG_RANGE: NVMCFG section rejected at load -/
def Cause.nvmcfgRange : Nat := 0x130A
/-- NVM_CAL_COMMITTED: calibration record written by CAL_COMMIT (R467) -/
def Cause.nvmCalCommitted : Nat := 0x130B

/-! High byte 0x14 (R486). -/

/-- ACC_UNLOCKED: session unlocked -/
def Cause.accUnlocked : Nat := 0x1401
/-- ACC_AUTH_FAIL: unlock attempt failed -/
def Cause.accAuthFail : Nat := 0x1402
/-- ACC_WAIT: attempt during back-off -/
def Cause.accWait : Nat := 0x1403
/-- ACC_SERVICE_ENTER: SERVICE entered -/
def Cause.accServiceEnter : Nat := 0x1404
/-- ACC_SERVICE_EXIT: SERVICE left -/
def Cause.accServiceExit : Nat := 0x1405
/-- ACC_REFUSED: access operation or fuse command refused -/
def Cause.accRefused : Nat := 0x1406
/-- ACC_FUSE_USED: fuse target already programmed -/
def Cause.accFuseUsed : Nat := 0x1407
/-- ACC_FUSE_DONE: fuse programmed -/
def Cause.accFuseDone : Nat := 0x1408
/-- ACC_TAP_OPEN: test port opened -/
def Cause.accTapOpen : Nat := 0x1409
/-- ACCCFG_RANGE: ACCCFG section rejected at load -/
def Cause.acccfgRange : Nat := 0x140A

/-! High byte 0x15 (R500). -/

/-- TICK_OVERRUN: first flagged tick of a run (R493) -/
def Cause.tickOverrun : Nat := 0x1501
/-- FAB_OVERRUN_END: a run of flagged ticks ended -/
def Cause.fabOverrunEnd : Nat := 0x1502
/-- FAB_VCORE_LIMIT: a raise needed with VCORE at 880 mV -/
def Cause.fabVcoreLimit : Nat := 0x1503
/-- FAB_RATE_DROP: ring count fell by more than 3 % in one sump tick -/
def Cause.fabRateDrop : Nat := 0x1504
/-- FAB_UNIT_RESET: a unit was reset with flush (R498) -/
def Cause.fabUnitReset : Nat := 0x1505
/-- FAB_EVT_LOST: an event's argument record was lost (R495) -/
def Cause.fabEvtLost : Nat := 0x1506
/-- FAB_FIFO_OVF: decimator FIFO full (R489) -/
def Cause.fabFifoOvf : Nat := 0x1507

/-! ### Sources (R447) -/

/-- Causes raised by an image check at LOAD or COMMIT, or by the calibration check, whatever their high byte. -/
def Cause.imageChecks : List Nat :=
  [Cause.topoMissing, Cause.topoFormatBad, Cause.topoModeBad, Cause.topoBlockBad, Cause.topoPopBad, Cause.topoRefBad,
   Cause.phcfgRange, Cause.fecfgRange, Cause.fecalRange, Cause.chcfgRange, Cause.rcpRange, Cause.modelRange,
   Cause.gradeRange, Cause.sumpcfgRange, Cause.timeRange, Cause.netcfgRange, Cause.sqzcfgRange, Cause.safcfgRange,
   Cause.twicfgRange, Cause.seqcfgRange, Cause.rtccfgRange, Cause.wdtcfgRange, Cause.thmcfgRange, Cause.intccfgRange,
   Cause.nvmcfgRange, Cause.acccfgRange, Cause.feUncal]

/-- The source of an event with channel id 0xFF whose source its cause alone decides. -/
def deviceSource (cause : Nat) : Nat :=
  if cause ∈ Cause.imageChecks then 150
  else match cause / 256 with
  | 0x07 =>
    if cause ∈ [Cause.sumpDroop, Cause.sumpFeLost, Cause.sumpReturned, Cause.sumpOv, Cause.sumpInhibit] then 138
    else 139
  | 0x08 =>
    if cause ≤ Cause.tbMasterChange then 140
    else if cause = Cause.timeStepped ∨ cause = Cause.tbStepForced then 141
    else 142
  | 0x09 =>
    if cause = Cause.ringOverflow then 148
    else if Cause.linkRopeLong ≤ cause then 147
    else 160
  | 0x0A => 149
  | 0x0B => if cause = Cause.safReleased then 136 else 137
  | 0x0C => 150
  | 0x0D => 151
  | 0x0E => 152
  | 0x0F => 153
  | 0x10 => if cause = Cause.wdtIntExpired ∨ cause = Cause.wdtClkLoss then 155 else 154
  | 0x12 => 159
  | 0x13 => 156
  | 0x14 => 157
  | 0x15 => 158
  | _ => 160

/-- The source of an event (R447): its channel, or the table of device sources. -/
def eventSource (cause ch : Nat) : Nat := if ch < 128 then ch else deviceSource cause

end Sys2Proof.Machine
end

