-- ==== Sys2Proof/Machine/RegMap.lean ====
section
/-!
DEFINITION. The register map (R3, R4, R521 to R523): every register of every block with its address, access type,
writable bits and reset value, the search by address, and the configuration words held in `State.regs`.
-/

namespace Sys2Proof.Machine

/-- Access types of R4. -/
inductive Access where
  | ro | rw | wo | w1c | rc | rwl | rws
  deriving DecidableEq, Repr

/-- Which register a row of the map is: a plain configuration word (`cfg`), or one with a view or an act of its own. -/
inductive RegId where
  | cfg
  | devGtopo | devGpop | devFrate | devFslack | devVtrim | devFovr | devFcnt
  | seqCmd | seqStat | seqVin | seqCnt | seqEvt
  | tbStat | tbFrac | tbSecLo | tbSecHi | tbRunLo | tbRunHi | tbOfs | tbMpd | tbFreq | tbMasterLo | tbMasterHi
  | tbMasterPort | tbUtc | tbCnt | tbHoldS | tbTcStat | tbTcsel | tbTcinfo | tbTcapp | tbTcmis | tbGmask | tbGepoch
  | tbGctrl
  | rtcSubsec | rtcSec | rtcMin | rtcHour | rtcDay | rtcMon | rtcYear | rtcCtrl | rtcStat | rtcShstat | rtcTrim
  | rtcDerr | rtcUtcofs | rtcPwake | rtcPwcnt | rtcBstat | rtcBram
  | thmCnt | thmSens | thmTcell
  | wdtCtrl | wdtStat | wdtExp | wdtCfg | wdtServe | wdtToken | wdtCount | wdtCnt
  | intcGrp | intcClaim | intcEoi | intcStack | intcSrc | intcPend | intcAgain | intcSwset | intcCnt
  | safSigref | safSet | safStat | safCause | safSignow | safCmd | safChsafe | safHist | safCnt | safProof | safGcause
  | sumpStat | sumpVbus | sumpBudget | sumpDem | sumpRec | sumpLendp | sumpFep | sumpRideMs | sumpCnt | sumpTold
  | sumpGrant
  | linkStat | linkRope | linkIpnow | linkMacLo | linkMacHi | linkWcr | linkSeg | linkRate | linkP0Cnt | linkP1Cnt
  | linkPzCnt | linkSessinfo
  | ringCtrl | ringStat | ringNext | ringAcked | ringOldest | ringDrop | ringRetx
  | sqzCfg | sqzQ | sqzStat | sqzCnt
  | twiStat | twiCnt | twiTcause | twiXctl | twiXstat | twiXbuf
  | nvmCmd | nvmWinsel | nvmStat | nvmScan | nvmCnt | accStat | accWait | accSvc | accFcmd | accFbuf | accFuse
  | ldrCmd | ldrStat | ldrGen | ldrGenAlt | ldrCause | ldrUpd | ldrCnt | ldrTime | ldrImgidLo | ldrImgidHi
  | phStat | phTon | phImon | phIavg | phDem | phFlt | phFltHist | phCntLim | phCntSkip | phCntShed | phLfr
  | chStat | chTopo | chCmd | chCause | chIdem | chImeas | chVmeas | chSpx | chSpt | chPauseTk | chAbsTk | chCnt
  | chRcpArm | chRcpStat | chStepTk | chRcpTk | chQstepLo | chQstepHi | chIbndEff | chHold
  | feCal | feStat | feVsamp | feIsamp | feIcur | feSflag | feAccLo | feAccHi | feQuahLo | feQuahHi
  | feAccSubst | feAccOvr | feAb | feAbDiff | feEchoRes | feEchoCnt | feFlt | feFltHist
  | estStat | estCmd | estSoc | estSocC | estSocV | estV1 | estOcv | estCap | estCapm | estDcir | estK | estOcvpt
  | estT | estDivcnt | estKpts | estCnt | estCellidLo | estCellidHi | estRes
  | rcpSel | rcpWin | rcpDir | rcpEng | rcpEngLate | rcpWait
  | window
  deriving DecidableEq, Repr

/-- A row of the map: offset in its block's instance, stride and count within the instance, type, writable bits,
reset value. -/
structure RegRow where
  id : RegId
  off : Nat
  stride : Nat := 4
  count : Nat := 1
  acc : Access
  mask : Nat := 0xFFFFFFFF
  reset : Nat := 0

/-- A block: base, instance stride and count, its rows. -/
structure RegBlock where
  base : Nat
  stride : Nat
  count : Nat
  rows : List RegRow

/-- A register found by address: its row, the block instance and the index within the row. -/
structure RegHit where
  row : RegRow
  inst : Nat
  idx : Nat

def Map.dev : RegBlock := ⟨0x000000, 0x1000, 1, [
  { id := .devGtopo, off := 0x100, stride := 8, count := 8, acc := .ro },
  { id := .devGpop, off := 0x104, stride := 8, count := 8, acc := .ro },
  { id := .devFrate, off := 0x200, acc := .ro }, { id := .devFslack, off := 0x204, acc := .ro },
  { id := .devVtrim, off := 0x208, acc := .rws, mask := 0x100 }, { id := .devFovr, off := 0x20C, acc := .ro },
  { id := .devFcnt, off := 0x210, acc := .rc }]⟩

def Map.seq : RegBlock := ⟨0x001000, 0x1000, 1, [
  { id := .cfg, off := 0x000, acc := .rwl, mask := 0x7, reset := 0x7 },
  { id := .cfg, off := 0x004, acc := .rwl, mask := 0x001F3FFF, reset := 0x00051F40 },
  { id := .cfg, off := 0x008, acc := .rwl, mask := 0xFFFF, reset := 0x0A14 },
  { id := .seqCmd, off := 0x00C, acc := .wo },
  { id := .cfg, off := 0x040, acc := .ro, mask := 0, reset := 0x0502 },
  { id := .cfg, off := 0x044, acc := .rwl, mask := 0xFFFF, reset := 0x0A05 },
  { id := .cfg, off := 0x048, acc := .rwl, mask := 0xFFFF, reset := 0x0A05 },
  { id := .cfg, off := 0x04C, acc := .ro, mask := 0, reset := 0x0502 },
  { id := .cfg, off := 0x050, acc := .rwl, mask := 0xFFFF, reset := 0x0A05 },
  { id := .cfg, off := 0x054, acc := .ro, mask := 0, reset := 0x0502 },
  { id := .cfg, off := 0x058, count := 2, acc := .rwl, mask := 0xFFFF, reset := 0x140A },
  { id := .seqStat, off := 0x080, acc := .ro }, { id := .seqVin, off := 0x084, acc := .ro },
  { id := .seqCnt, off := 0x090, acc := .ro }, { id := .seqEvt, off := 0x100, count := 8, acc := .ro }]⟩

def Map.tb : RegBlock := ⟨0x002000, 0x1000, 1, [
  { id := .cfg, off := 0x000, acc := .rwl, mask := 0xF },
  { id := .cfg, off := 0x004, acc := .rwl, mask := 0x77F },
  { id := .cfg, off := 0x008, acc := .rwl, mask := 0xFFFF },
  { id := .cfg, off := 0x00C, acc := .rwl, mask := 0xFFFF, reset := 0x0840 },
  { id := .cfg, off := 0x010, acc := .rwl, reset := 0x03E80064 },
  { id := .cfg, off := 0x014, acc := .rwl, mask := 0x00FFFFFF, reset := 0x00330258 },
  { id := .cfg, off := 0x018, acc := .rwl, mask := 0x1FFF, reset := 100 },
  { id := .cfg, off := 0x01C, acc := .rwl, mask := 0xFFFF },
  { id := .cfg, off := 0x020, acc := .rwl },
  { id := .tbStat, off := 0x080, acc := .ro }, { id := .tbFrac, off := 0x084, acc := .ro },
  { id := .tbSecLo, off := 0x088, acc := .ro }, { id := .tbSecHi, off := 0x08C, acc := .ro },
  { id := .tbRunLo, off := 0x090, acc := .ro }, { id := .tbRunHi, off := 0x094, acc := .ro },
  { id := .tbOfs, off := 0x098, acc := .ro }, { id := .tbMpd, off := 0x09C, acc := .ro },
  { id := .tbFreq, off := 0x0A0, acc := .ro }, { id := .tbMasterLo, off := 0x0A4, acc := .ro },
  { id := .tbMasterHi, off := 0x0A8, acc := .ro }, { id := .tbMasterPort, off := 0x0AC, acc := .ro },
  { id := .tbUtc, off := 0x0B0, acc := .ro }, { id := .tbCnt, off := 0x0B4, acc := .rc },
  { id := .tbHoldS, off := 0x0B8, acc := .ro }, { id := .tbTcStat, off := 0x100, acc := .ro },
  { id := .tbTcsel, off := 0x104, acc := .rw, mask := 0xFF }, { id := .tbTcinfo, off := 0x108, acc := .ro },
  { id := .tbTcapp, off := 0x110, count := 4, acc := .ro }, { id := .tbTcmis, off := 0x120, count := 4, acc := .ro },
  { id := .tbGmask, off := 0x200, count := 64, acc := .rw }, { id := .tbGepoch, off := 0x300, count := 16, acc := .ro },
  { id := .tbGctrl, off := 0x340, count := 16, acc := .rw, mask := 1, reset := 1 }]⟩

def Map.rtc : RegBlock := ⟨0x003000, 0x400, 1, [
  { id := .rtcSubsec, off := 0x000, acc := .ro }, { id := .rtcSec, off := 0x004, acc := .rw },
  { id := .rtcMin, off := 0x008, acc := .rw }, { id := .rtcHour, off := 0x00C, acc := .rw },
  { id := .rtcDay, off := 0x010, acc := .rw }, { id := .rtcMon, off := 0x014, acc := .rw },
  { id := .rtcYear, off := 0x018, acc := .rw }, { id := .rtcCtrl, off := 0x020, acc := .rw, mask := 0x1F },
  { id := .rtcStat, off := 0x024, acc := .w1c, mask := 0x70E }, { id := .rtcShstat, off := 0x028, acc := .rc },
  { id := .rtcTrim, off := 0x02C, acc := .rw, mask := 0x3FF }, { id := .rtcDerr, off := 0x030, acc := .ro },
  { id := .rtcUtcofs, off := 0x034, acc := .ro },
  { id := .cfg, off := 0x038, acc := .rw, mask := 0x3F3F7F7F },
  { id := .rtcPwake, off := 0x03C, acc := .rw, mask := 0xFFFFFF }, { id := .rtcPwcnt, off := 0x040, acc := .ro },
  { id := .rtcBstat, off := 0x044, acc := .ro }, { id := .rtcBram, off := 0x080, count := 16, acc := .rw }]⟩

def Map.thm : RegBlock := ⟨0x003400, 0x400, 1, [
  { id := .cfg, off := 0x000, acc := .rwl, mask := 0x7FFFFF, reset := 0x0032786E },
  { id := .cfg, off := 0x004, acc := .rwl, mask := 0x03FF3FFF, reset := 2000 },
  { id := .thmCnt, off := 0x008, acc := .rc }, { id := .thmSens, off := 0x100, count := 10, acc := .ro },
  { id := .thmTcell, off := 0x200, count := 128, acc := .ro }]⟩

def Map.wdt : RegBlock := ⟨0x003800, 0x800, 1, [
  { id := .wdtCtrl, off := 0x000, acc := .rw, mask := 1 }, { id := .wdtStat, off := 0x004, acc := .ro },
  { id := .wdtExp, off := 0x008, acc := .w1c, mask := 0xFFFFFF },
  { id := .wdtCfg, off := 0x100, stride := 32, count := 24, acc := .rw, mask := 0xC03FFFFF },
  { id := .wdtServe, off := 0x104, stride := 32, count := 24, acc := .wo },
  { id := .wdtToken, off := 0x108, stride := 32, count := 24, acc := .ro },
  { id := .wdtCount, off := 0x10C, stride := 32, count := 24, acc := .ro },
  { id := .wdtCnt, off := 0x110, stride := 32, count := 24, acc := .rc }]⟩

def Map.intc : RegBlock := ⟨0x004000, 0x1000, 1, [
  { id := .cfg, off := 0x000, acc := .rw, mask := 0xF },
  { id := .intcGrp, off := 0x100, count := 16, acc := .rw, mask := 0xFFFF },
  { id := .intcClaim, off := 0x200, stride := 16, count := 8, acc := .ro },
  { id := .intcEoi, off := 0x204, stride := 16, count := 8, acc := .wo },
  { id := .cfg, off := 0x208, stride := 16, count := 8, acc := .rw, mask := 0xF },
  { id := .intcStack, off := 0x20C, stride := 16, count := 8, acc := .ro },
  { id := .intcSrc, off := 0x400, count := 256, acc := .rw, mask := 0x10FFF },
  { id := .intcPend, off := 0x800, count := 8, acc := .ro }, { id := .intcAgain, off := 0x820, count := 8, acc := .w1c },
  { id := .intcSwset, off := 0x840, acc := .wo }, { id := .intcCnt, off := 0x844, acc := .rc }]⟩

def Map.saf : RegBlock := ⟨0x005000, 0x1000, 1, [
  { id := .safSet, off := 0x000, acc := .rwl, mask := 3 }, { id := .safSet, off := 0x004, acc := .rwl, mask := 0x3FFF },
  { id := .safSet, off := 0x008, acc := .rwl, mask := 0xFFF }, { id := .safSigref, off := 0x00C, acc := .rwl },
  { id := .safStat, off := 0x080, acc := .ro }, { id := .safCause, off := 0x084, acc := .ro },
  { id := .safSignow, off := 0x088, acc := .ro }, { id := .safCmd, off := 0x08C, acc := .wo },
  { id := .safChsafe, off := 0x090, count := 4, acc := .ro }, { id := .safHist, off := 0x0A0, acc := .w1c },
  { id := .safCnt, off := 0x0A4, acc := .rc }, { id := .safProof, off := 0x0A8, acc := .ro },
  { id := .safGcause, off := 0x100, count := 8, acc := .ro },
  { id := .safSet, off := 0x400, stride := 16, count := 128, acc := .rwl },
  { id := .safSet, off := 0x404, stride := 16, count := 128, acc := .rwl },
  { id := .safSet, off := 0x408, stride := 16, count := 128, acc := .rwl },
  { id := .safSet, off := 0x40C, stride := 16, count := 128, acc := .rwl, mask := 0x3FFFF }]⟩

def Map.sump : RegBlock := ⟨0x006000, 0x1000, 1, [
  { id := .cfg, off := 0x000, acc := .rwl, mask := 7 }, { id := .cfg, off := 0x004, acc := .rwl, mask := 0x3FFFFF },
  { id := .cfg, off := 0x008, acc := .rwl, mask := 0x03FF03FF }, { id := .cfg, off := 0x00C, count := 3, acc := .rwl },
  { id := .cfg, off := 0x018, acc := .rwl, mask := 0x0FFFFFFF }, { id := .safSet, off := 0x01C, acc := .rwl },
  { id := .cfg, off := 0x020, count := 4, acc := .rwl }, { id := .cfg, off := 0x030, acc := .rwl, mask := 0x3FFF },
  { id := .sumpStat, off := 0x080, acc := .ro }, { id := .sumpVbus, off := 0x084, acc := .ro },
  { id := .sumpBudget, off := 0x088, acc := .ro }, { id := .sumpDem, off := 0x08C, acc := .ro },
  { id := .sumpRec, off := 0x090, acc := .ro }, { id := .sumpLendp, off := 0x094, acc := .ro },
  { id := .sumpFep, off := 0x098, acc := .ro }, { id := .sumpRideMs, off := 0x09C, acc := .ro },
  { id := .sumpCnt, off := 0x0A0, acc := .rc }, { id := .sumpTold, off := 0x0A4, acc := .ro },
  { id := .cfg, off := 0x100, count := 128, acc := .rwl, mask := 0xFFFF0007 },
  { id := .sumpGrant, off := 0x300, count := 128, acc := .ro }]⟩

def Map.link : RegBlock := ⟨0x007000, 0x1000, 1, [
  { id := .cfg, off := 0x000, acc := .rwl, mask := 0x7F }, { id := .cfg, off := 0x004, acc := .rwl },
  { id := .cfg, off := 0x008, acc := .rwl, mask := 0x1F }, { id := .cfg, off := 0x00C, acc := .rwl },
  { id := .cfg, off := 0x010, acc := .rwl, mask := 0x00777FFF }, { id := .cfg, off := 0x014, acc := .rwl, mask := 0x00FF03FF },
  { id := .cfg, off := 0x018, acc := .rwl }, { id := .cfg, off := 0x01C, acc := .rwl, mask := 0x3FFF },
  { id := .linkStat, off := 0x080, acc := .ro }, { id := .linkRope, off := 0x084, acc := .ro },
  { id := .linkIpnow, off := 0x088, acc := .ro }, { id := .linkMacLo, off := 0x08C, acc := .ro },
  { id := .linkMacHi, off := 0x090, acc := .ro }, { id := .linkWcr, off := 0x094, acc := .ro },
  { id := .linkSeg, off := 0x098, acc := .ro }, { id := .linkRate, off := 0x09C, acc := .ro },
  { id := .linkP0Cnt, off := 0x0A0, acc := .rc }, { id := .linkP1Cnt, off := 0x0A4, acc := .rc },
  { id := .linkPzCnt, off := 0x0A8, acc := .rc }, { id := .linkSessinfo, off := 0x100, count := 16, acc := .ro }]⟩

/-- Default size of a ring in units of 4 KiB (R289). -/
def ringDefault (r : Nat) : Nat := if r < 32 then 56 else if r < 40 then 24 else if r < 48 then 4 else 2

def Map.ring : RegBlock := ⟨0x008000, 0x40, 64, [
  { id := .cfg, off := 0x00, acc := .rwl, mask := 0x7FF }, { id := .ringCtrl, off := 0x04, acc := .rw, mask := 1, reset := 1 },
  { id := .ringStat, off := 0x08, acc := .ro }, { id := .ringNext, off := 0x0C, acc := .ro },
  { id := .ringAcked, off := 0x10, acc := .ro }, { id := .ringOldest, off := 0x14, acc := .ro },
  { id := .ringDrop, off := 0x18, acc := .ro }, { id := .ringRetx, off := 0x1C, acc := .rc }]⟩

def Map.sqz : RegBlock := ⟨0x009000, 0x1000, 1, [
  { id := .sqzCfg, off := 0x000, count := 32, acc := .rw, mask := 7 }, { id := .sqzQ, off := 0x080, count := 32, acc := .rw },
  { id := .sqzStat, off := 0x100, count := 32, acc := .ro }, { id := .sqzCnt, off := 0x180, count := 32, acc := .rc }]⟩

def Map.twi : RegBlock := ⟨0x00A000, 0x1000, 1, [
  { id := .cfg, off := 0x000, acc := .rwl, mask := 0x1F, reset := 4 }, { id := .cfg, off := 0x004, acc := .rwl },
  { id := .cfg, off := 0x008, acc := .rwl, mask := 0x00FF0FFF, reset := 0x000A0819 },
  { id := .twiStat, off := 0x080, acc := .ro }, { id := .twiCnt, off := 0x084, acc := .rc },
  { id := .twiTcause, off := 0x088, acc := .ro }, { id := .twiXctl, off := 0x100, acc := .rw, mask := 0x803F3F7F },
  { id := .twiXstat, off := 0x104, acc := .ro }, { id := .twiXbuf, off := 0x110, count := 8, acc := .rw }]⟩

def Map.nvm : RegBlock := ⟨0x00B000, 0x1000, 1, [
  { id := .nvmCmd, off := 0x000, acc := .wo }, { id := .cfg, off := 0x004, acc := .rw, mask := 0x3FFFFFFF },
  { id := .nvmWinsel, off := 0x008, acc := .rw, mask := 1 },
  { id := .cfg, off := 0x00C, acc := .rwl, mask := 0xF1, reset := 0x81 },
  { id := .nvmStat, off := 0x080, acc := .ro }, { id := .nvmScan, off := 0x084, acc := .ro },
  { id := .nvmCnt, off := 0x088, acc := .rc }]⟩

def Map.acc : RegBlock := ⟨0x00C000, 0x1000, 1, [
  { id := .cfg, off := 0x000, acc := .rwl, mask := 0xFFF, reset := 300 },
  { id := .accStat, off := 0x080, acc := .ro }, { id := .accWait, off := 0x084, acc := .ro },
  { id := .accSvc, off := 0x088, acc := .rws, mask := 1 }, { id := .accFcmd, off := 0x08C, acc := .wo },
  { id := .cfg, off := 0x090, acc := .rw, mask := 0xFFFFFF }, { id := .accFbuf, off := 0x0A0, count := 8, acc := .wo },
  { id := .accFuse, off := 0x100, count := 64, acc := .ro }]⟩

def Map.ldr : RegBlock := ⟨0x00D000, 0x1000, 1, [
  { id := .ldrCmd, off := 0x000, acc := .wo }, { id := .ldrStat, off := 0x080, acc := .ro },
  { id := .ldrGen, off := 0x084, acc := .ro }, { id := .ldrGenAlt, off := 0x088, acc := .ro },
  { id := .ldrCause, off := 0x08C, acc := .ro }, { id := .ldrUpd, off := 0x090, acc := .ro },
  { id := .ldrCnt, off := 0x094, acc := .rc }, { id := .ldrTime, off := 0x098, acc := .ro },
  { id := .ldrImgidLo, off := 0x09C, acc := .ro }, { id := .ldrImgidHi, off := 0x0A0, acc := .ro }]⟩

def Map.ph : RegBlock := ⟨0x010000, 0x200, 128, [
  { id := .cfg, off := 0x000, acc := .rwl, mask := 0x003FF7FF }, { id := .cfg, off := 0x004, acc := .rwl, mask := 0xFFF },
  { id := .cfg, off := 0x008, acc := .rwl, mask := 0xFFFF }, { id := .cfg, off := 0x00C, acc := .rwl },
  { id := .safSet, off := 0x010, count := 2, acc := .rwl }, { id := .cfg, off := 0x018, acc := .rwl },
  { id := .cfg, off := 0x01C, acc := .rwl, mask := 0x3FF }, { id := .cfg, off := 0x020, count := 2, acc := .rwl },
  { id := .cfg, off := 0x028, acc := .rwl, mask := 0x00FFFF1F }, { id := .cfg, off := 0x02C, acc := .rwl, mask := 0xFFFF },
  { id := .cfg, off := 0x030, acc := .rwl }, { id := .cfg, off := 0x034, acc := .rwl, mask := 0xFF },
  { id := .phStat, off := 0x080, acc := .ro }, { id := .phTon, off := 0x084, acc := .ro },
  { id := .phImon, off := 0x088, acc := .ro }, { id := .phIavg, off := 0x08C, acc := .ro },
  { id := .phDem, off := 0x090, acc := .ro }, { id := .phFlt, off := 0x094, acc := .ro },
  { id := .phFltHist, off := 0x098, acc := .w1c, mask := 0x7F }, { id := .phCntLim, off := 0x09C, acc := .rc },
  { id := .phCntSkip, off := 0x0A0, acc := .rc }, { id := .phCntShed, off := 0x0A4, acc := .rc },
  { id := .phLfr, off := 0x100, count := 16, acc := .ro }]⟩

def Map.ch : RegBlock := ⟨0x020000, 0x400, 128, [
  { id := .chStat, off := 0x000, acc := .ro }, { id := .chTopo, off := 0x004, acc := .ro },
  { id := .chCmd, off := 0x008, acc := .wo }, { id := .chCause, off := 0x00C, acc := .ro },
  { id := .cfg, off := 0x010, acc := .rwl }, { id := .cfg, off := 0x014, acc := .rwl, mask := 0xFFFFFF },
  { id := .cfg, off := 0x018, acc := .rwl, mask := 0xFFFFFF }, { id := .cfg, off := 0x01C, count := 3, acc := .rwl },
  { id := .cfg, off := 0x028, acc := .rwl, mask := 0x1FFF1FFF }, { id := .cfg, off := 0x02C, acc := .rwl, mask := 0x3FFF },
  { id := .chIdem, off := 0x040, acc := .ro }, { id := .chImeas, off := 0x044, acc := .ro },
  { id := .chVmeas, off := 0x048, acc := .ro }, { id := .chSpx, off := 0x04C, acc := .ro },
  { id := .chSpt, off := 0x050, acc := .ro }, { id := .chPauseTk, off := 0x054, acc := .ro },
  { id := .chAbsTk, off := 0x058, acc := .ro }, { id := .chCnt, off := 0x05C, acc := .rc },
  { id := .chRcpArm, off := 0x100, acc := .wo }, { id := .chRcpStat, off := 0x104, acc := .ro },
  { id := .chStepTk, off := 0x108, acc := .ro }, { id := .chRcpTk, off := 0x10C, acc := .ro },
  { id := .chQstepLo, off := 0x110, acc := .ro }, { id := .chQstepHi, off := 0x114, acc := .ro },
  { id := .chIbndEff, off := 0x118, acc := .ro }, { id := .chHold, off := 0x11C, acc := .ro }]⟩

def Map.fe : RegBlock := ⟨0x040000, 0x200, 128, [
  { id := .cfg, off := 0x000, acc := .rwl, mask := 0x3FF7F }, { id := .cfg, off := 0x004, acc := .rwl, mask := 0x1FFFF },
  { id := .safSet, off := 0x008, acc := .rwl, mask := 0x3FFF3FFF },
  { id := .feCal, off := 0x010, acc := .rws }, { id := .feCal, off := 0x014, acc := .rws, reset := 0x40000000 },
  { id := .feCal, off := 0x018, acc := .rws }, { id := .feCal, off := 0x01C, acc := .rws, mask := 0xFFFF },
  { id := .feCal, off := 0x020, acc := .rws }, { id := .feCal, off := 0x024, acc := .rws, reset := 100000 },
  { id := .feCal, off := 0x028, count := 4, acc := .rws },
  { id := .feCal, off := 0x038, count := 4, acc := .rws, reset := 0x40000000 },
  { id := .feStat, off := 0x080, acc := .ro }, { id := .feVsamp, off := 0x084, acc := .ro },
  { id := .feIsamp, off := 0x088, acc := .ro }, { id := .feIcur, off := 0x08C, acc := .ro },
  { id := .feSflag, off := 0x090, acc := .ro }, { id := .feAccLo, off := 0x0A0, acc := .ro },
  { id := .feAccHi, off := 0x0A4, acc := .ro }, { id := .feQuahLo, off := 0x0A8, acc := .ro },
  { id := .feQuahHi, off := 0x0AC, acc := .ro }, { id := .feAccSubst, off := 0x0B0, acc := .ro },
  { id := .feAccOvr, off := 0x0B4, acc := .ro }, { id := .feAb, off := 0x0B8, acc := .ro },
  { id := .feAbDiff, off := 0x0BC, acc := .ro }, { id := .feEchoRes, off := 0x0C0, acc := .ro },
  { id := .feEchoCnt, off := 0x0C4, acc := .rc }, { id := .feFlt, off := 0x0D0, acc := .ro },
  { id := .feFltHist, off := 0x0D4, acc := .w1c, mask := 0x3FF }]⟩

def Map.est : RegBlock := ⟨0x050000, 0x200, 128, [
  { id := .estStat, off := 0x000, acc := .ro }, { id := .estCmd, off := 0x004, acc := .wo },
  { id := .estSoc, off := 0x008, acc := .ro }, { id := .estSocC, off := 0x00C, acc := .ro },
  { id := .estSocV, off := 0x010, acc := .ro }, { id := .estV1, off := 0x014, acc := .ro },
  { id := .estOcv, off := 0x018, acc := .ro }, { id := .estCap, off := 0x01C, acc := .ro },
  { id := .estCapm, off := 0x020, acc := .ro }, { id := .estDcir, off := 0x024, acc := .ro },
  { id := .estK, off := 0x028, acc := .ro }, { id := .estOcvpt, off := 0x02C, acc := .ro },
  { id := .estT, off := 0x030, acc := .ro }, { id := .estDivcnt, off := 0x034, acc := .ro },
  { id := .estKpts, off := 0x038, acc := .ro }, { id := .estCnt, off := 0x03C, acc := .rc },
  { id := .estCellidLo, off := 0x040, acc := .ro }, { id := .estCellidHi, off := 0x044, acc := .ro },
  { id := .estRes, off := 0x080, count := 16, acc := .ro }]⟩

def Map.rcp : RegBlock := ⟨0x060000, 0x1000, 1, [
  { id := .rcpSel, off := 0x000, acc := .rw, mask := 0x13F1F }, { id := .rcpWin, off := 0x040, count := 16, acc := .ro },
  { id := .rcpDir, off := 0x100, count := 32, acc := .ro }, { id := .rcpEng, off := 0x200, count := 8, acc := .ro },
  { id := .rcpEngLate, off := 0x220, count := 8, acc := .rc }, { id := .rcpWait, off := 0x240, count := 16, acc := .ro }]⟩

/-- The store window (R470): its words are not configuration. -/
def Map.win : RegBlock := ⟨0x080000, 0x80000, 1, [{ id := .window, off := 0, count := 131072, acc := .rw }]⟩

/-- The block an address lies in (R521). -/
def regBlock (a : Nat) : Option RegBlock :=
  if a < 0x001000 then some Map.dev else if a < 0x002000 then some Map.seq else if a < 0x003000 then some Map.tb
  else if a < 0x003400 then some Map.rtc else if a < 0x003800 then some Map.thm else if a < 0x004000 then some Map.wdt
  else if a < 0x005000 then some Map.intc else if a < 0x006000 then some Map.saf else if a < 0x007000 then some Map.sump
  else if a < 0x008000 then some Map.link else if a < 0x009000 then some Map.ring else if a < 0x00A000 then some Map.sqz
  else if a < 0x00B000 then some Map.twi else if a < 0x00C000 then some Map.nvm else if a < 0x00D000 then some Map.acc
  else if a < 0x00E000 then some Map.ldr else if a < 0x010000 then none else if a < 0x020000 then some Map.ph
  else if a < 0x040000 then some Map.ch else if a < 0x050000 then some Map.fe else if a < 0x060000 then some Map.est
  else if a < 0x061000 then some Map.rcp else if a < 0x080000 then none else if a < 0x100000 then some Map.win
  else none

/-- The row of a block that holds offset o of an instance, and the index within it. -/
def findRow (o : Nat) : List RegRow → Option (RegRow × Nat)
  | [] => none
  | r :: l =>
    if r.off ≤ o ∧ (o - r.off) % r.stride = 0 ∧ (o - r.off) / r.stride < r.count then some (r, (o - r.off) / r.stride)
    else findRow o l

/-- The register at a byte address; none: unmapped (R6, R521). -/
def findReg (a : Nat) : Option RegHit :=
  match regBlock a with
  | none => none
  | some b =>
    let i := (a - b.base) / b.stride
    if i < b.count then
      match findRow ((a - b.base) % b.stride) b.rows with
      | some (r, j) => some ⟨r, i, j⟩
      | none => none
    else none

/-- What a configuration word reads as when `State.regs` does not list it. -/
def cfgDefault (a : Nat) : Word :=
  match findReg a with
  | some h => if 0x8000 ≤ a ∧ a < 0x9000 ∧ a % 0x40 = 0 then wordN (ringDefault h.inst) else wordN h.row.reset
  | none => 0

/-- The word in force at a configuration address. -/
def cfgW (s : State) (a : Nat) : Word :=
  match alFind a s.regs with
  | some v => v
  | none => cfgDefault a

/-- A field of a configuration word, unsigned; the word as a signed or unsigned number. -/
def cfgF (s : State) (a lo w : Nat) : Nat := field (cfgW s a) lo w
def cfgN (s : State) (a : Nat) : Nat := (cfgW s a).toNat
def cfgI (s : State) (a : Nat) : Int := (cfgW s a).toNat
def cfgS (s : State) (a : Nat) : Int := wordS (cfgW s a)

/-- Store a configuration word, keeping the canonical form. -/
def setCfg (a : Nat) (v : Word) (s : State) : State := { s with regs := alSet (cfgDefault a) a v s.regs }

/-- The list of configuration words is canonical: addresses rising, no word equal to its default. -/
def regsWf : Nat → List (Nat × Word) → Bool
  | _, [] => true
  | lo, (a, v) :: l => decide (lo ≤ a) && !decide (v = cfgDefault a) && regsWf (a + 1) l

/-! Addresses of the configuration words the rules name. -/

def Addr.ph (n o : Nat) : Nat := 0x010000 + n * 0x200 + o
def Addr.ch (k o : Nat) : Nat := 0x020000 + k * 0x400 + o
def Addr.fe (n o : Nat) : Nat := 0x040000 + n * 0x200 + o
def Addr.saf (k o : Nat) : Nat := 0x005400 + 16 * k + o
def Addr.est (k o : Nat) : Nat := 0x050000 + k * 0x200 + o
def Addr.sumpOv : Nat := 0x00601C
def Addr.sumpCh (k : Nat) : Nat := 0x006100 + 4 * k
def Addr.ringCfg (r : Nat) : Nat := 0x008000 + r * 0x40
def Addr.sqzCfg (r : Nat) : Nat := 0x009000 + 4 * r
def Addr.sqzQ (r : Nat) : Nat := 0x009080 + 4 * r
def Addr.intcGrp (g : Nat) : Nat := 0x004100 + 4 * g
def Addr.intcThr (t : Nat) : Nat := 0x004208 + 16 * t
def Addr.intcSrc (i : Nat) : Nat := 0x004400 + 4 * i
def Addr.wdtCfg (i : Nat) : Nat := 0x003900 + 32 * i
def Addr.seqRail (i : Nat) : Nat := 0x001040 + 4 * i

/-- The registers of the safety parameter set (R345), SAF_SIGREF left aside. -/
def inSafetySet (a : Nat) : Bool :=
  a == 0x005000 || a == 0x005004 || a == 0x005008 || a == Addr.sumpOv
  || (decide (0x005400 ≤ a) && decide (a < 0x005C00))
  || (decide (0x040000 ≤ a) && decide (a < 0x050000) && a % 0x200 == 8)
  || (decide (0x010000 ≤ a) && decide (a < 0x020000) && (a % 0x200 == 0x10 || a % 0x200 == 0x14))

/-- The thresholds that are held twice (R340). -/
def isThreshold (a : Nat) : Bool := inSafetySet a && !(a == 0x005000 || a == 0x005004 || a == 0x005008)

/-- Registers of the backup domain keep their values while the rails are off (R400, R420). -/
def inBackup (a : Nat) : Bool :=
  (decide (0x001000 ≤ a) && decide (a < 0x002000)) || (decide (0x003000 ≤ a) && decide (a < 0x003400))

end Sys2Proof.Machine
end

