-- ==== Sys2Proof/Machine/Ops.lean ====
section
/-!
DEFINITION. The named operations every family uses: reading and changing one entry of a table of State, raising an
event (R446, R495), writing a ring (R289 to R292), leaving data at the ports, topology (R13 to R27) and time.
-/

namespace Sys2Proof.Machine

/-! ### Entries of the tables -/

def State.getPh (s : State) (n : Nat) : Phase := tget {} s.ph n
def State.getGal (s : State) (g : Nat) : Gallery := tget {} s.gal g
def State.getFe (s : State) (n : Nat) : FrontEnd := tget {} s.fe n
def State.getCh (s : State) (k : Nat) : Channel := tget {} s.ch k
def State.getEst (s : State) (k : Nat) : Estimator := tget {} s.est k
def State.getRing (s : State) (r : Nat) : Ring := tget {} s.ring r
def State.getSqz (s : State) (r : Nat) : Sqz := tget {} s.sqz r
def State.getTold (s : State) (k : Nat) : Told := tget {} s.thm.told k
def State.getDie (s : State) (i : Nat) : Die := tget {} s.thm.die i
def State.getRail (s : State) (r : Nat) : Rail := tget {} s.seq.rails r
def State.getTc (s : State) (e : Nat) : TcEnt := tget {} s.tb.tc e
def State.getGrp (s : State) (g : Nat) : Group := tget {} s.tb.grp g

def modPh (n : Nat) (f : Phase → Phase) (s : State) : State := { s with ph := tmod s.ph n f }
def modGal (g : Nat) (f : Gallery → Gallery) (s : State) : State := { s with gal := tmod s.gal g f }
def modFe (n : Nat) (f : FrontEnd → FrontEnd) (s : State) : State := { s with fe := tmod s.fe n f }
def modCh (k : Nat) (f : Channel → Channel) (s : State) : State := { s with ch := tmod s.ch k f }
def modEst (k : Nat) (f : Estimator → Estimator) (s : State) : State := { s with est := tmod s.est k f }
def modRing (r : Nat) (f : Ring → Ring) (s : State) : State := { s with ring := tmod s.ring r f }
def modSqz (r : Nat) (f : Sqz → Sqz) (s : State) : State := { s with sqz := tmod s.sqz r f }
def modTold (k : Nat) (f : Told → Told) (s : State) : State := { s with thm := { s.thm with told := tmod s.thm.told k f } }
def modDie (i : Nat) (f : Die → Die) (s : State) : State := { s with thm := { s.thm with die := tmod s.thm.die i f } }
def modRail (r : Nat) (f : Rail → Rail) (s : State) : State := { s with seq := { s.seq with rails := tmod s.seq.rails r f } }
def modTc (e : Nat) (f : TcEnt → TcEnt) (s : State) : State := { s with tb := { s.tb with tc := tmod s.tb.tc e f } }
def modGrp (g : Nat) (f : Group → Group) (s : State) : State := { s with tb := { s.tb with grp := tmod s.tb.grp g f } }

/-- Apply an operation for each index of a list, in order. -/
def forEach (l : List Nat) (f : Nat → State → State) (s : State) : State := l.foldl (fun t i => f i t) s

/-- The indices 0 to n - 1. -/
def upto (n : Nat) : List Nat := List.range n

/-! ### Modes (R1) and time (R9, R241 to R243) -/

/-- A mode in which VPLL is up, so launch ticks count (R243). -/
def Mode.up : Mode → Bool
  | .backup | .ship => false
  | _ => true

/-- The mode code of R525. -/
def Mode.code : Mode → Nat
  | .backup => 0 | .ship => 1 | .rest => 2 | .load => 3 | .run => 4 | .safe => 5 | .service => 6

/-- The mode of a code; LOAD for a code that is not used. -/
def Mode.ofCode : Nat → Mode
  | 0 => .backup | 1 => .ship | 2 => .rest | 4 => .run | 5 => .safe | 6 => .service | _ => .load

/-- RUN, or SERVICE with stage operation enabled (R225, R236, R491). -/
def stageOn (s : State) : Bool := s.mode == .run || (s.mode == .service && s.acc.stageOp)

/-- Run-time ticks of a number of milliseconds or seconds: the first tick count not below it (8,192 a second). -/
def msTk (ms : Nat) : Nat := (ms * 8192 + 999) / 1000
def secTk (sec : Nat) : Nat := sec * 8192

/-- Whole milliseconds and seconds in a number of ticks. -/
def tkMs (tk : Nat) : Nat := tk * 1000 / 8192
def tkSec (tk : Nat) : Nat := tk / 8192

/-- Run time elapsed since a tick. -/
def since (s : State) (tk : Nat) : Nat := s.tb.run - tk

/-- The tick index of the present line time within its second (R242). -/
def tickIdx (s : State) : Nat := s.tb.frac / 2 ^ 19

/-- Line time in ns, and in units of 2^-32 s. -/
def lineNs (s : State) : Int := (s.tb.sec : Int) * 1000000000 + (s.tb.frac * 1000000000 / 2 ^ 32 : Nat)
def lineU (s : State) : Nat := s.tb.sec * 2 ^ 32 + s.tb.frac

/-! ### Events (R446, R495, R526) -/

/-- Append an event to its crossing. A clocked producer's crossing keeps 16 argument records: beyond them the event
still counts and its record is lost (R495). -/
def pushEvent (e : Event) (s : State) : State :=
  let full := e.prod != .fabric && decide (16 ≤ (s.fab.events.filter fun x => x.prod == e.prod && !x.lost).length)
  let e' := if full then { e with ch := 0xFF, akind := 2, arg := leBytes 4 0, lost := true } else e
  { s with fab := { s.fab with events := s.fab.events ++ [e'] } }

/-- Raise a cause: the event carries the line time and run time of the raise (R446). -/
def raiseSrc (prod : Producer) (cause ch src akind : Nat) (arg : List Byte) (s : State) : State :=
  pushEvent { cause := cause, ch := ch, akind := akind, arg := arg, sec := s.tb.sec, frac := s.tb.frac,
              run := s.tb.run, prod := prod, src := src } s

/-- Raise a cause with no argument (AKIND 0). -/
def raise (prod : Producer) (cause ch : Nat) (s : State) : State :=
  raiseSrc prod cause ch (eventSource cause ch) 0 [] s

/-- Raise a cause with a 4-byte argument (AKIND 2). -/
def raiseA (prod : Producer) (cause ch arg : Nat) (s : State) : State :=
  raiseSrc prod cause ch (eventSource cause ch) 2 (leBytes 4 arg) s

/-- Raise a cause with a 4-byte argument on a source named by the rule. -/
def raiseAt (prod : Producer) (cause ch src arg : Nat) (s : State) : State :=
  raiseSrc prod cause ch src 2 (leBytes 4 arg) s

/-- Raise a cause of an access path's write, with the address as its argument (R526). -/
def raiseReg (cause addr : Nat) (s : State) : State := raiseA .fabric cause 0xFF addr s

/-- The loader reads, checks or applies an image: register writes are discarded (R370) and host slots hold (R429). -/
def loaderBusy (s : State) : Bool :=
  match s.ldr.st with
  | .reading | .checking | .applying => true
  | _ => false

/-- A register write from an access path: there are none while the device is off, and the loader discards it while it
reads, checks or applies an image (R370). -/
def regGate (addr : Nat) (f : State → State) (s : State) : State :=
  if !s.mode.up then s else if loaderBusy s then raiseReg Cause.ldrBusy addr s else f s

/-- Ticks that have certainly passed when a time in ms has. -/
def floorTk (ms : Nat) : Nat := ms * 8192 / 1000

/-! ### What leaves the block -/

def emit (o : Out) (s : State) : State := { s with out := s.out ++ [o] }

def modLink (f : Link → Link) (s : State) : State := { s with link := f s.link }
def State.getPort (s : State) (p : Nat) : Port := if p = 0 then s.link.p0 else s.link.p1
def modPort (p : Nat) (f : Port → Port) (s : State) : State :=
  modLink (fun l => if p = 0 then { l with p0 := f l.p0 } else { l with p1 := f l.p1 }) s

/-- The switch forwards: rails up, and in REST with REST_FWD (R271). -/
def linkRuns (s : State) : Bool := s.mode.up && (s.mode != .rest || bitN (cfgN s 0x007000) 3)

/-- A port that carries frames. -/
def linkUp (s : State) (p : Nat) : Bool := linkRuns s && (s.getPort p).up

/-! ### Frames the device originates (R269, R277) -/

def vlanVid (s : State) : Nat := cfgF s 0x007010 0 12
def pcpCtl (s : State) : Nat := cfgF s 0x007010 12 3
def pcpTel (s : State) : Nat := cfgF s 0x007010 16 3
def pcpPtp (s : State) : Nat := cfgF s 0x007010 20 3

/-- The tag of a frame of the device: none while LINK_VLAN.VID is 0. -/
def ownTag (s : State) (pcp : Nat) : Option (Nat × Nat) := if vlanVid s = 0 then none else some (vlanVid s, pcp)

/-- The internal port accepts untagged frames, and frames tagged with VID 0 or LINK_VLAN.VID. -/
def vlanIn (s : State) (vid : Option Nat) : Bool := match vid with | none => true | some v => v == 0 || v == vlanVid s

/-- A frame of this tag takes the high queue whatever it carries. -/
def tagHigh (tag : Option (Nat × Nat)) : Bool := match tag with | some (_, p) => decide (6 ≤ p) | none => false

/-- Octets of a frame: 64 at least, and its tag. -/
def frameLen (n : Nat) (tag : Option (Nat × Nat)) : Nat := Nat.max 64 n + 4 * b2n tag.isSome

/-- A queued octet takes 8 ns at 1,000 Mb/s: time passes at an egress port, the high queue first. -/
def Port.drain (e : Nat) (p : Port) : Port := { p with hi := p.hi - e, lo := p.lo - (e - p.hi) }

/-- The egress port at a later instant of the tick. -/
def Port.atTime (a : Nat) (p : Port) : Port := if p.txAt < a then { p.drain (a - p.txAt) with txAt := a } else p

/-- Octets that wait at the egress port. -/
def Port.held (p : Port) : Nat := (p.hi + p.lo + 8191) / 8192

/-- A frame of n octets finds no room: each egress port buffers 16 KiB. DESIGN CHOICE (log entry 84): its two queues share them. -/
def Port.full (p : Port) (n : Nat) : Bool := decide (16384 < p.held + n)

/-- n octets, with preamble and gap, enter a queue. -/
def Port.enqueue (high : Bool) (n : Nat) (p : Port) : Port :=
  if high then { p with hi := p.hi + (n + 20) * 8192 } else { p with lo := p.lo + (n + 20) * 8192 }

/-- A frame of n octets goes to the egress queues of a port: sent, or dropped and counted where they are full (R269). -/
def txFrame (port : Nat) (high : Bool) (n : Nat) (o : Out) (s : State) : State :=
  if (s.getPort port).full n then modPort port (fun p => { p with drop := incSat 16 p.drop }) s
  else emit o (modPort port (Port.enqueue high n) s)

/-- Octet times of one tick, in 1/8192 octet. -/
def tickOctets : Nat := 125000000

/-- A launch tick edge at the egress ports. -/
def txTick (s : State) : State :=
  let f (p : Port) : Port := { p.drain (tickOctets - p.txAt) with txAt := 0 }
  modPort 0 f (modPort 1 f s)

/-- Take the next n free bytes (log entry 2). -/
def freeBytes (n : Nat) (s : State) : List Byte × State :=
  ((upto n).map fun i => Config.freeByte (s.free + i), { s with free := s.free + n })

/-- The not-acknowledged bytes that a two-wire transaction as controller met before its outcome, at most top: how many is not
stated (log entry 2); TWI_CNT.NACK counts them (R383). -/
def nacksSeen (top : Nat) (s : State) : State :=
  let r := freeBytes 1 s
  { r.2 with twi := { s.twi with nNack := addSat 8 s.twi.nNack ((r.1.headD 0).toNat % (top + 1)) } }

/-- The device acts as controller on the two-wire bus (R376): a host transfer, a slot being read, pages being written or an
image being committed. -/
def controlling (s : State) : Bool :=
  s.twi.ctl || s.ldr.st == .reading || match s.ldr.upd with | some u => u.committing || !u.pages.isEmpty | none => false

/-! ### Topology (R13 to R27) -/

/-- Gallery of a phase, front end or channel (R13). -/
def galOf (n : Nat) : Nat := n / 16

/-- Declared and populated slots (R25). -/
def declared (s : State) (k : Nat) : Bool := decide (0 < (s.getCh k).nph)
def populated (s : State) (k : Nat) : Bool := decide (0 < (s.getCh k).nph) && (s.getCh k).pop

/-- A native channel has a B path (R18, R35). -/
def native (s : State) (k : Nat) : Bool := decide (2 ≤ (s.getCh k).nph)

/-- Phases of a channel's block, ascending (R16, R20). -/
def phasesOf (s : State) (k : Nat) : List Nat := (upto (s.getCh k).nph).map (k + ·)

/-- The channel that owns phase or front end n: the declared slot whose block covers it. -/
def chanOf (s : State) (n : Nat) : Option Nat :=
  [0, 1, 2, 3, 4, 5, 6, 7].findSome? fun d =>
    if d ≤ n ∧ d < (s.getCh (n - d)).nph then some (n - d) else none

/-- The channel that owns n, or n itself where no block covers it. -/
def chanOr (s : State) (n : Nat) : Nat := (chanOf s n).getD n

/-- Powered front ends of a channel: the A path, and the B path of a native channel (R18, R20). -/
def frontEndsOf (s : State) (k : Nat) : List Nat := if native s k then [k, k + 1] else [k]

/-- Populated channels of a gallery, ascending; all populated channels. -/
def popOfGal (s : State) (g : Nat) : List Nat := ((upto 16).map (16 * g + ·)).filter (populated s)
def popAll (s : State) : List Nat := (upto 128).filter (populated s)

/-! ### Rings (R289 to R292) -/

/-- Kind of a ring by its number: 0 telemetry, 1 reliable, 2 input (R289). -/
def ringKind (r : Nat) : Nat := if r < 40 then 0 else if r < 60 then 1 else 2

/-- Size in bytes; a configured 0 selects the default (R289, R300). -/
def ringSize (s : State) (r : Nat) : Nat :=
  let c := cfgF s (Addr.ringCfg r) 0 11
  (if c = 0 then ringDefault r else c) * 4096

/-- Bytes held: a record occupies its own length (log entry 9). -/
def ringUsed (g : Ring) : Nat := sumN (g.recs.map fun x => x.bytes.length)

/-- Drop the oldest records until n bytes fit (telemetry rings, R293). -/
def ringTrim (room : Nat) : Nat → List RingRec → List RingRec
  | 0, l => l
  | _ + 1, [] => []
  | f + 1, x :: l => if sumN ((x :: l).map fun y => y.bytes.length) ≤ room then x :: l else ringTrim room f l

/-- Append a record to a ring that is enabled. A telemetry ring overwrites its oldest records (R293); a reliable or
input ring without room drops the new one, counts it and raises RING_OVERFLOW (R292). A disabled ring takes the record
that was in progress, and no more (R295). -/
def ringPush (r : Nat) (bytes : List Byte) (s : State) : State :=
  let g0 := s.getRing r
  let g := { g0 with busy := g0.busy && g0.en }
  let x : RingRec := { rsn := g.next, bytes := bytes }
  let add (recs : List RingRec) : Ring := { g with recs := recs ++ [x], next := (g.next + 1) % 2 ^ 32 }
  if !g0.en && !g0.busy then s
  else if ringKind r = 0 then
    if bytes.length ≤ ringSize s r then
      modRing r (fun _ => add (ringTrim (ringSize s r - bytes.length) g.recs.length g.recs)) s
    else s
  else if ringUsed g + bytes.length ≤ ringSize s r then modRing r (fun _ => add g.recs) s
  else
    raiseA .fabric Cause.ringOverflow 0xFF r
      (modRing r (fun _ => { g with drop := incSat 32 g.drop, ovf := true }) s)

/-- An N record of the stamp of another: TB_FRAC and TB_SEC (R306). -/
def sameStamp (a b : RingRec) : Bool := slice a.bytes 8 10 == slice b.bytes 8 10

/-- A record takes its place before those of higher front ends. -/
def feInsert (x : RingRec) : List RingRec → List RingRec
  | [] => [x]
  | y :: l => if byteAt x.bytes 2 < byteAt y.bytes 2 then x :: y :: l else y :: feInsert x l

/-- The records at the end of a ring that share a stamp and have not been sent stand in ascending front-end order, numbered anew
(R302). -/
def feOrder (sendNext : Nat) (l : List RingRec) : List RingRec :=
  match l.reverse with
  | [] => []
  | z :: _ =>
    let n := ((l.reverse.takeWhile fun x => sameStamp x z && decide ((((x.rsn : Int) - sendNext) % 4294967296) < 2147483648))).length
    let tail := l.drop (l.length - n)
    let sorted := tail.foldl (fun a x => feInsert x a) []
    l.take (l.length - n) ++ (sorted.zip tail).map fun p => { p.1 with rsn := p.2.rsn }

/-- An N record enters its telemetry ring (R302, R303): its samples may reach the fabric before or after those of the ring's other
front ends. -/
def ringPushN (r : Nat) (bytes : List Byte) (s : State) : State :=
  modRing r (fun g => { g with recs := feOrder g.sendNext g.recs }) (ringPush r bytes s)

/-! ### Records (R319, R321) -/

/-- An E record. -/
def eRecord (e : Event) : List Byte :=
  withCrc32c ([0x45, 0x01] ++ leBytes 2 e.cause ++ leBytes 1 e.ch ++ leBytes 1 e.akind ++ leBytes 1 e.arg.length ++ [0]
    ++ leBytes 4 e.frac ++ leBytes 6 e.sec ++ [0, 0] ++ leBytes 4 e.run ++ e.arg)

/-- An L record of a channel, on log ring 56 + (gallery div 2) (R302, R321). -/
def lRecord (s : State) (kind k : Nat) (payload : List Byte) : List Byte :=
  withCrc32c ([0x4C, 0x01] ++ leBytes 1 kind ++ leBytes 1 k ++ leBytes 4 s.tb.frac ++ leBytes 6 s.tb.sec ++ [0, 0]
    ++ slice payload 0 16)

def pushLog (kind k : Nat) (payload : List Byte) (s : State) : State :=
  ringPush (56 + galOf k / 2) (lRecord s kind k payload) s

/-! ### Pins as functions of the state -/

/-- RSTOUT1_N is low while slot 6 or 7 is not good and for its stretch (R398). -/
def rstout1Low (s : State) : Bool := !(s.getRail 6).good || !(s.getRail 7).good || s.seq.rst1

/-- RSTOUT0_N is low while VIO is not good and for its stretch (R398). -/
def rstout0Low (s : State) : Bool := !(s.getRail 1).good || s.seq.rst0

/-- Whether a step of a counter of edges passed a multiple. -/
def okNext (s : State) : Host.Outcome State Fault Refusal := .next s

end Sys2Proof.Machine
end

