-- ==== Sys2Proof/Machine/Operands.lean ====
section
/-!
DEFINITION. The operand forms the carriers give: recipe headers, step records, termination slots and pulse blocks
(R175, R176), setpoint commands and their legality (R121), cell models (R186) and grade bins (R213), and the fields
of the configuration registers of channels, phases and the sump that several families read.
-/

namespace Sys2Proof.Machine

/-! ### Channel and phase configuration -/

def chKpV (s : State) (k : Nat) : Int := cfgF s (Addr.ch k 0x10) 0 16
def chKiV (s : State) (k : Nat) : Int := cfgF s (Addr.ch k 0x10) 16 16
def chKiI (s : State) (k : Nat) : Int := cfgF s (Addr.ch k 0x14) 0 16
def chTrimPct (s : State) (k : Nat) : Int := cfgF s (Addr.ch k 0x14) 16 8
def chBalKi (s : State) (k : Nat) : Int := cfgF s (Addr.ch k 0x18) 0 16
def chBalLim (s : State) (k : Nat) : Int := cfgF s (Addr.ch k 0x18) 16 8
def chRampdn (s : State) (k : Nat) : Int := cfgI s (Addr.ch k 0x1C)
def chSrdefI (s : State) (k : Nat) : Int := cfgI s (Addr.ch k 0x20)
def chSrdefV (s : State) (k : Nat) : Int := cfgI s (Addr.ch k 0x24)
def chVmin (s : State) (k : Nat) : Int := cfgF s (Addr.ch k 0x28) 0 13
def chVmax (s : State) (k : Nat) : Int := cfgF s (Addr.ch k 0x28) 16 13
def chTdisc (s : State) (k : Nat) : Nat := cfgF s (Addr.ch k 0x2C) 0 14

/-- T_DISC_US in launch ticks: the first tick count not below it. -/
def discTicks (s : State) (k : Nat) : Nat := (chTdisc s k * 8192 + 999999) / 1000000

def phFsw (s : State) (n : Nat) : Nat := cfgF s (Addr.ph n 0) 0 11
def phBlank (s : State) (n : Nat) : Nat := cfgF s (Addr.ph n 0) 12 2
def phTmax (s : State) (n : Nat) : Nat := let x := cfgF s (Addr.ph n 0) 14 2; if x = 3 then 6 else x + 2
def phGain (s : State) (n : Nat) : Nat := cfgF s (Addr.ph n 0) 16 6
/-- K_IMON in 0.1 mV/A and V_REF in mV. -/
def phKimon (s : State) (n : Nat) : Nat := cfgF s (Addr.ph n 4) 0 10
def phVref (s : State) (n : Nat) : Nat := 600 + 300 * cfgF s (Addr.ph n 4) 10 2
/-- The current, uA, of `count` readings of the IMON converter whose codes add up to `sum` (R40, R41): a code is 3.0 V / 4,096
at the pin. DESIGN CHOICE (log entry 82): the spec gives no rounding of the quotient; the nearest uA, halves away from zero. -/
def imonMean (s : State) (n sum count : Nat) : Int :=
  rnd (((sum : Int) * 3000 - (count : Int) * phVref s n * 4096) * 10000000) ((count : Int) * 4096 * phKimon s n)
/-- The current of one reading. -/
def imonOf (s : State) (n code : Nat) : Int := imonMean s n code 1
/-- A reading within 0.05 V to 2.95 V (R40). -/
def imonInRange (code : Nat) : Bool := decide (50 * 4096 ≤ code * 3000) && decide (code * 3000 ≤ 2950 * 4096)
def phLout (s : State) (n : Nat) : Nat := cfgF s (Addr.ph n 8) 0 16
def phIstg (s : State) (n : Nat) : Int := cfgI s (Addr.ph n 0x0C)
def phOcfChg (s : State) (n : Nat) : Int := cfgI s (Addr.ph n 0x10)
def phOcfDis (s : State) (n : Nat) : Int := cfgI s (Addr.ph n 0x14)
def phOcsThr (s : State) (n : Nat) : Int := cfgI s (Addr.ph n 0x18)
def phOcsWin (s : State) (n : Nat) : Nat := cfgF s (Addr.ph n 0x1C) 0 10
def phOlThr (s : State) (n : Nat) : Int := cfgI s (Addr.ph n 0x20)
def phBrkExit (s : State) (n : Nat) : Int := cfgI s (Addr.ph n 0x24)
def shedMin (s : State) (k : Nat) : Nat := cfgF s (Addr.ph k 0x28) 0 4
def shedEn (s : State) (k : Nat) : Bool := bitN (cfgN s (Addr.ph k 0x28)) 4
def shedFrac (s : State) (k : Nat) : Int := cfgF s (Addr.ph k 0x28) 8 8
def addFrac (s : State) (k : Nat) : Int := cfgF s (Addr.ph k 0x28) 16 8
def shedDwell (s : State) (k : Nat) : Nat := cfgF s (Addr.ph k 0x2C) 0 16
def stepDet (s : State) (k : Nat) : Int := cfgI s (Addr.ph k 0x30)
def tokSpace (s : State) (k : Nat) : Nat := cfgF s (Addr.ph k 0x34) 0 8

/-- The bound of I_BND and I_TOP: the phase count times I_STG (R121, R145). -/
def iMax (s : State) (k : Nat) : Int := (s.getCh k).nph * phIstg s k

/-! ### Setpoint commands (R121) -/

def SpMode.ofCode : Nat → SpMode
  | 1 => .cv | 2 => .cp | 3 => .cr | _ => .cc

def SpMode.code : SpMode → Nat
  | .cc => 0 | .cv => 1 | .cp => 2 | .cr => 3

/-- A setpoint command from the unsigned fields of a carrier: SLEW 0 selects the default of its mode. -/
def mkSp (s : State) (k : Nat) (mode : SpMode) (dis : Bool) (value vcr slew ibnd vlim : Nat) : Sp :=
  let sl : Int := if slew ≠ 0 then slew else if mode = .cv then chSrdefV s k else chSrdefI s k
  { mode := mode, dis := dis, value := value, vcr := vcr, slew := sl, ibnd := ibnd, vlim := if mode = .cv then 0 else vlim }

/-- The fields are legal but for the upper bound of I_BND, which needs the channel. -/
def spFieldsOk (mode : SpMode) (value slew ibnd : Nat) : Bool :=
  decide (1000 ≤ ibnd) && (mode != .cr || decide (1000 ≤ value)) && (mode != .cp || slew != 0)

/-- The whole of R121 for channel k. -/
def spLegal (s : State) (k : Nat) (mode : SpMode) (value slew ibnd : Nat) : Bool :=
  spFieldsOk mode value slew ibnd && decide ((ibnd : Int) ≤ iMax s k)

/-- The target of a command (R123). -/
def Sp.target (c : Sp) : Int :=
  match c.mode with
  | .cv => c.value
  | .cr => 0
  | _ => if c.dis then -c.value else c.value

/-! ### Recipes (R175, R176) -/

/-- The payload of a loaded recipe. -/
def rcpOf (s : State) (r : Nat) : Option (List Byte) := alFind r s.rcp.rcp

def rcpNstep (b : List Byte) : Nat := byteAt b 2

/-- Header fields of a recipe payload. -/
def Hdr.resume (b : List Byte) : Bool := bitN (leAt b 4 2) 0
def Hdr.grade (b : List Byte) : Bool := bitN (leAt b 4 2) 1
def Hdr.holdMode (b : List Byte) : Nat := byteAt b 6
def Hdr.nRechg (b : List Byte) : Nat := byteAt b 7
def Hdr.id (b : List Byte) : Nat := leAt b 8 4
def Hdr.gVmax (b : List Byte) : Int := leAt b 12 4
def Hdr.gVmin (b : List Byte) : Int := leAt b 16 4
def Hdr.gQmax (b : List Byte) : Int := leAt b 20 4
def Hdr.tStop (b : List Byte) : Int := leAtS b 24 2
def Hdr.tHyst (b : List Byte) : Int := leAt b 26 2
def Hdr.tDer0 (b : List Byte) : Int := leAtS b 28 2
def Hdr.derMin (b : List Byte) : Int := byteAt b 30
def Hdr.tWaitMax (b : List Byte) : Nat := leAt b 32 4
def Hdr.vRechg (b : List Byte) : Int := leAt b 36 4
def Hdr.vTop (b : List Byte) : Nat := leAt b 40 4
def Hdr.iTop (b : List Byte) : Nat := leAt b 44 4
def Hdr.iTopEnd (b : List Byte) : Int := leAt b 48 4
def Hdr.tTopMax (b : List Byte) : Nat := leAt b 52 4
def Hdr.tHoldMax (b : List Byte) : Nat := leAt b 56 4

/-- Step i of a recipe payload: 64 bytes. -/
def rcpStep (b : List Byte) (i : Nat) : List Byte := slice b (68 + 64 * i) 64

/-- Step record fields. -/
def Stp.type (t : List Byte) : Nat := byteAt t 0
def Stp.dis (t : List Byte) : Bool := bitN (byteAt t 1) 0
def Stp.capMeas (t : List Byte) : Bool := bitN (byteAt t 1) 1
def Stp.ocvPoint (t : List Byte) : Bool := bitN (byteAt t 1) 2
def Stp.tempEn (t : List Byte) : Bool := bitN (byteAt t 1) 3
def Stp.irng (t : List Byte) : Nat := byteAt t 2
def Stp.aux8 (t : List Byte) : Nat := byteAt t 3
def Stp.value (t : List Byte) : Nat := leAt t 4 4
def Stp.vcr (t : List Byte) : Nat := leAt t 8 4
def Stp.iBase (t : List Byte) : Int := leAtS t 4 4
def Stp.iPulse (t : List Byte) : Int := leAtS t 8 4
def Stp.slew (t : List Byte) : Nat := leAt t 12 4
def Stp.ibnd (t : List Byte) : Nat := leAt t 16 4
def Stp.vlim (t : List Byte) : Nat := leAt t 20 4
def Stp.tLo (t : List Byte) : Int := leAtS t 24 2
def Stp.tHi (t : List Byte) : Int := leAtS t 26 2
def Stp.blank (t : List Byte) : Nat := leAt t 28 2
def Stp.aux16 (t : List Byte) : Nat := leAt t 30 2
def Stp.term (t : List Byte) (j : Nat) : List Byte := slice t (32 + 8 * j) 8
def Stp.tBase (t : List Byte) : Nat := leAt t 56 3
def Stp.tPulse (t : List Byte) : Nat := leAt t 59 3
def Stp.capTk (t : List Byte) : Nat := byteAt t 62
def Stp.nPulse (t : List Byte) : Nat := byteAt t 63

/-- Step types (R150). -/
def StepT.end_ : Nat := 0
def StepT.rest : Nat := 5
def StepT.pulse : Nat := 6
def StepT.loop : Nat := 7
def StepT.groupWait : Nat := 8
def StepT.ext : Nat := 9

/-- A step with a setpoint command. -/
def drives (ty : Nat) : Bool := (decide (1 ≤ ty) && decide (ty ≤ 4)) || ty == StepT.pulse || ty == StepT.ext

/-- Termination slot fields. -/
def Trm.qty (x : List Byte) : Nat := fieldN (byteAt x 0) 0 5
def Trm.k (x : List Byte) : Nat := fieldN (byteAt x 0) 5 3
def Trm.action (x : List Byte) : Nat := fieldN (byteAt x 1) 0 3
def Trm.target (x : List Byte) : Nat := byteAt x 2
def Trm.conf (x : List Byte) : Nat := byteAt x 3
def Trm.thresh (x : List Byte) : Int := leAtS x 4 4
def Trm.threshU (x : List Byte) : Nat := leAt x 4 4

/-- The termination slots a step uses: slot 3 of a PULSE step is its pulse block. -/
def Stp.slots (t : List Byte) : List Nat := if Stp.type t = StepT.pulse then [0, 1, 2] else [0, 1, 2, 3]

/-- The command of a segment of a PULSE step (R165). -/
def pulseSp (s : State) (k : Nat) (t : List Byte) (seg : Nat) : Sp :=
  let i := if seg % 2 = 0 then Stp.iBase t else Stp.iPulse t
  let dis := if i = 0 then decide (Stp.iPulse t < 0) else decide (i < 0)
  mkSp s k .cc dis i.natAbs 0 (Stp.slew t) (Stp.ibnd t) (Stp.vlim t)

/-- The command a step's first tick strikes. -/
def stepSp (s : State) (k : Nat) (t : List Byte) : Option Sp :=
  let ty := Stp.type t
  if 1 ≤ ty ∧ ty ≤ 4 then
    some (mkSp s k (SpMode.ofCode (ty - 1)) (Stp.dis t) (Stp.value t) (Stp.vcr t) (Stp.slew t) (Stp.ibnd t) (Stp.vlim t))
  else if ty = StepT.ext then
    some (mkSp s k (SpMode.ofCode (Stp.aux8 t)) (Stp.dis t) (Stp.value t) (Stp.vcr t) (Stp.slew t) (Stp.ibnd t) (Stp.vlim t))
  else if ty = StepT.pulse then some (pulseSp s k t 0)
  else none

/-- The recipe bound to a channel, and its open step's record. -/
def boundRcp (s : State) (k : Nat) : List Byte := (rcpOf s (s.getCh k).rcp.recipe).getD []
def openStep (s : State) (k : Nat) : List Byte := rcpStep (boundRcp s k) (s.getCh k).rcp.step

/-- The channel is in STEP in a step of a type. -/
def inStepType (s : State) (k ty : Nat) : Bool :=
  (s.getCh k).st == .step && (s.getCh k).rcp.isOpen && Stp.type (openStep s k) == ty

/-- The channel is in STEP in a REST or GROUP_WAIT step. -/
def inRestStep (s : State) (k : Nat) : Bool := inStepType s k StepT.rest || inStepType s k StepT.groupWait

/-! ### Cell models (R186) and grade bins (R213) -/

def modelOf (s : State) (k : Nat) : Option (List Byte) :=
  match (s.getEst k).model with
  | some i => alFind i s.rcp.models
  | none => none

def Mdl.qNom (m : List Byte) : Nat := leAt m 20 4
def Mdl.vCut (m : List Byte) : Int := leAtS m 24 4
def Mdl.vFull (m : List Byte) : Int := leAtS m 28 4
def Mdl.iFull (m : List Byte) : Int := leAt m 32 4
def Mdl.iIdle (m : List Byte) : Int := leAt m 36 4
def Mdl.divLim (m : List Byte) : Int := leAt m 40 2
def Mdl.tDef (m : List Byte) : Int := leAtS m 42 2
def Mdl.tGrid (m : List Byte) (i : Nat) : Int := leAtS m (44 + 2 * i) 2
def Mdl.tRelax (m : List Byte) : Nat := leAt m 54 2
def Mdl.minSlope (m : List Byte) : Int := leAt m 56 4
def Mdl.capW (m : List Byte) : Int := byteAt m 60
def Mdl.capMax (m : List Byte) : Int := byteAt m 61
def Mdl.kMinPts (m : List Byte) : Nat := byteAt m 62
def Mdl.kMinH (m : List Byte) : Nat := byteAt m 63
def Mdl.kTc (m : List Byte) : Int := leAtS m 64 4
def Mdl.tKref (m : List Byte) : Int := leAtS m 68 2
def Mdl.ocv (m : List Byte) (j : Nat) : Int := leAtS m (92 + 4 * j) 4
def Mdl.r0 (m : List Byte) (j : Nat) : Int := leAt m (224 + 4 * j) 4
def Mdl.r1 (m : List Byte) (j : Nat) : Int := leAt m (404 + 4 * j) 4
def Mdl.c1 (m : List Byte) (j : Nat) : Int := leAt m (584 + 4 * j) 4

/-! ### Sump configuration (R238) -/

def Sump.lendEn (s : State) : Bool := bitN (cfgN s 0x006000) 0
def Sump.lendNorm (s : State) : Bool := bitN (cfgN s 0x006000) 1
def Sump.inhPinEn (s : State) : Bool := bitN (cfgN s 0x006000) 2
def Sump.div (s : State) : Int := cfgF s 0x006004 0 22
def Sump.etaC (s : State) : Int := cfgF s 0x006008 0 10
def Sump.etaD (s : State) : Int := cfgF s 0x006008 16 10
def Sump.pAux (s : State) : Int := cfgI s 0x00600C
def Sump.export (s : State) : Int := cfgI s 0x006010
def Sump.budFb (s : State) : Int := cfgI s 0x006014
def Sump.vDroop (s : State) : Int := cfgF s 0x006018 0 16
def Sump.hyst (s : State) : Int := cfgF s 0x006018 16 12
def Sump.tDroopMs (s : State) : Nat := cfgF s 0x006020 0 8
def Sump.tRideMs (s : State) : Nat := cfgF s 0x006020 8 24
def Sump.lendSlew (s : State) : Int := cfgI s 0x006024
def Sump.lendVm (s : State) : Int := cfgI s 0x006028
def Sump.lendQ (s : State) : Int := cfgI s 0x00602C
def Sump.budAgeMs (s : State) : Nat := cfgF s 0x006030 0 14
def Sump.prio (s : State) (k : Nat) : Nat := cfgF s (Addr.sumpCh k) 0 2
def Sump.chLend (s : State) (k : Nat) : Bool := bitN (cfgN s (Addr.sumpCh k)) 2
/-- LI_k in uA: LEND_I_MAX is in 0.01 A. -/
def Sump.lendI (s : State) (k : Nat) : Int := cfgF s (Addr.sumpCh k) 16 16 * 10000

/-- vsump_uv (R218). -/
def vsumpUv (s : State) : Int := rnd (s.sump.pinUv * Sump.div s) 65536

/-! ### The working copy of the safety island (R346) -/

/-- A word of the island's working copy: the configured one, with the bits that have flipped in place (R346). -/
def safW (s : State) (a : Nat) : Word := cfgW s a ^^^ alGet 0 a s.saf.flips
def safF (s : State) (a lo w : Nat) : Nat := field (safW s a) lo w

/-- SAF_CTRL.TEMP_EN, CMPT_EN; SAF_TEMP.TSTALE_MS; SAF_CMPT.CMPT_S (R353). -/
def tempEn (s : State) : Bool := bitN (safW s 0x005000).toNat 0
def cmptEn (s : State) : Bool := bitN (safW s 0x005000).toNat 1
def safStaleMs (s : State) : Nat := safF s 0x005004 0 14
def cmptS (s : State) : Nat := safF s 0x005008 0 12

def safVmax (s : State) (k : Nat) : Int := (safW s (Addr.saf k 0)).toNat
def safVmin (s : State) (k : Nat) : Int := (safW s (Addr.saf k 4)).toNat
def safImax (s : State) (k : Nat) : Int := (safW s (Addr.saf k 8)).toNat
def safTmax (s : State) (k : Nat) : Int := signN 16 (safW s (Addr.saf k 0xC)).toNat
def nconf (s : State) (k : Nat) : Nat := safF s (Addr.saf k 0xC) 16 2

/-- FE_WIN of front end n: OV_EN, UV_EN. -/
def ovEn (s : State) (n : Nat) : Bool := bitN (safW s (Addr.fe n 8)).toNat 29
def uvEn (s : State) (n : Nat) : Bool := bitN (safW s (Addr.fe n 8)).toNat 13

end Sys2Proof.Machine
end

