-- ==== Sys2Proof/Machine/Squeeze.lean ====
section
/-!
DEFINITION. The Squeeze codec (R306 to R316) and the F record (R317, R318): coded streams, bounded-loss quantisation,
the N record of a block with its budget, degradation and verification, stream budgets and LINK_WCR (R322).
-/

namespace Sys2Proof.Machine

/-! ### Coded streams (R308) -/

/-- The prediction of element j from the elements before it, newest first: z_0 is `z0`. -/
def sqzPredict (order : Nat) (z0 : Int) : List Int → Int
  | [] => z0
  | [a] => if order = 0 then z0 else a
  | a :: b :: _ => if order = 0 then z0 else if order = 1 then a else 2 * a - b

/-- The mapping of a residual to a non-negative number. -/
def sqzMap (e : Int) : Nat := if 0 ≤ e then (2 * e).toNat else (-2 * e - 1).toNat

/-- The inverse mapping of the decoder. -/
def sqzUnmap (u : Nat) : Int := if u % 2 = 0 then (u / 2 : Nat) else -(((u + 1) / 2 : Nat) : Int)

/-- Mapped residuals of z_1 to z_(n-1); `past` holds the elements before, newest first. -/
def sqzResiduals (order : Nat) (z0 : Int) (past : List Int) : List Int → List Nat
  | [] => []
  | z :: l => sqzMap (z - sqzPredict order z0 past) :: sqzResiduals order z0 (z :: past) l

/-- Bits of one code, most significant first. -/
def bitsMsb (w x : Nat) : List Bool := (upto w).map fun i => x.testBit (w - 1 - i)

def sqzCode (k u : Nat) : List Bool :=
  let q := u >>> k
  if q < 24 then List.replicate q true ++ [false] ++ bitsMsb k u else List.replicate 24 true ++ bitsMsb 32 u

def sqzCodeLen (k u : Nat) : Nat := let q := u >>> k; if q < 24 then q + 1 + k else 56

/-- The length in bits of a stream for an order and a Rice parameter. -/
def sqzLen (order k : Nat) (zs : List Int) : Nat :=
  match zs with
  | [] => 0
  | z0 :: l => sumN ((sqzResiduals order z0 [z0] l).map (sqzCodeLen k))

/-- Every element but the first fits 24 bits, so raw coding is open. -/
def fits24 (zs : List Int) : Bool := (zs.drop 1).all fun z => decide (-8388608 ≤ z) && decide (z ≤ 8388607)

/-- Candidates in the order of preference: order 0, K 0 to 23, then raw; orders 1 and 2. -/
def sqzCandidates (zs : List Int) : List (Nat × Nat) :=
  (upto 24).map (fun k => (0, k)) ++ (if fits24 zs then [(0, 31)] else []) ++ (upto 24).map (fun k => (1, k)) ++ (upto 24).map (fun k => (2, k))

def sqzCost (zs : List Int) (c : Nat × Nat) : Nat := if c.2 = 31 then 24 * (zs.length - 1) else sqzLen c.1 c.2 zs

/-- The first candidate with the fewest bits. -/
def sqzChoose (zs : List Int) : Nat × Nat :=
  ((sqzCandidates zs).foldl (fun (b : Option ((Nat × Nat) × Nat)) c =>
    let n := sqzCost zs c
    match b with
    | some (x, m) => if n < m then some (c, n) else some (x, m)
    | none => some (c, n)) none).map (·.1) |>.getD (0, 0)

/-- Pack bits into bytes, most significant first. -/
def packBits (l : List Bool) : List Byte :=
  let n := (l.length + 31) / 32 * 4
  let v := l ++ List.replicate (8 * n - l.length) false
  (upto n).map fun i => BitVec.ofNat 8 (((v.drop (8 * i)).take 8).foldl (fun a b => 2 * a + b2n b) 0)

/-- The bits of a stream with a chosen order and parameter. -/
def sqzBits (order k : Nat) (zs : List Int) : List Bool :=
  match zs with
  | [] => []
  | z0 :: l =>
    if k = 31 then l.flatMap fun z => bitsMsb 24 (wrapN 24 z)
    else (sqzResiduals order z0 [z0] l).flatMap (sqzCode k)

/-- Order, parameter and bytes of a quantity's stream. -/
def sqzStream (zs : List Int) : Nat × Nat × List Byte :=
  let c := sqzChoose zs
  (c.1, c.2, packBits (sqzBits c.1 c.2 zs))

/-! ### Bounded loss (R309) -/

/-- One step of the quantiser: grid index, and the error state after it. The index lies in the interval that reaches
from the larger of x and t less H to the smaller plus H. -/
def quantStep (h : Int) (x es : Int) : Int × Int :=
  let t := x + es
  let lo := max x t - h
  let hi := min x t + h
  let c := clampI (floorD (2 * t + h) (2 * h)) (ceilD lo h) (floorD hi h)
  (c, es + x - c * h)

/-- Grid indices of a block. -/
def quantise (h : Int) : Int → List Int → List Int
  | _, [] => []
  | es, x :: l => let r := quantStep h x es; r.1 :: quantise h r.2 l

/-! ### N records (R306, R311, R314) -/

/-- A block that closes. -/
structure Blk where
  fe : Nat
  k : Nat
  irng : Nat
  sec : Nat
  frac : Nat
  run : Nat
  /-- coded values, oldest first, in the units of R307 -/
  v : List Int
  i : List Int
  fl : List Nat
  accStart : Int
  accEnd : Int
  short : Bool
  restart : Bool

def Blk.ns (b : Blk) : Nat := b.v.length

/-- Two flags to a byte, low nibble first, in whole words (R306). -/
def fmap (fl : List Nat) : List Byte :=
  (upto (4 * ((fl.length + 7) / 8))).map fun j => BitVec.ofNat 8 (fl.getD (2 * j) 0 % 16 + 16 * (fl.getD (2 * j + 1) 0 % 16))

/-- The first 40 bytes; `ctl` adds DEGRADED and VFAIL. -/
def nHead (b : Blk) (mode : Nat) (degraded vfail : Bool) (pred : Nat) (res : Int) : List Byte :=
  let ctl := mode + 4 * b2n b.short + 8 * b2n b.restart + 16 * b2n degraded + 32 * b2n vfail
  [0x4E, 0x01] ++ leBytes 1 b.fe ++ leBytes 1 ctl ++ leBytes 1 b.k ++ leBytes 1 b.irng ++ leBytes 2 b.ns
    ++ leBytes 4 b.frac ++ leBytes 6 b.sec ++ leBytes 1 (b.fl.foldl (· ||| ·) 0 % 16) ++ leBytes 1 pred
    ++ leBytes 4 b.run ++ leBytesI 8 b.accEnd ++ leBytesI 8 res

/-- RES for reconstructed current values (R314). -/
def nRes (b : Blk) (y : List Int) : Int := b.accEnd - b.accStart - sumI y * 2 ^ (b.irng + b.k)

/-- Least, greatest and mean of a block's values. -/
def minI (l : List Int) : Int := l.foldl min (l.headD 0)
def maxI (l : List Int) : Int := l.foldl max (l.headD 0)
def meanI (l : List Int) : Int := rnd (sumI l) l.length

/-- The summary record of a block: 92 bytes (R311). -/
def nSummary (b : Blk) (vfail : Bool) : List Byte :=
  let m := meanI b.i
  withCrc32c (nHead b 2 false vfail 0 (nRes b (List.replicate b.ns m)) ++ List.replicate 24 0
    ++ leBytesI 4 (minI b.v) ++ leBytesI 4 (maxI b.v) ++ leBytesI 4 (meanI b.v)
    ++ leBytesI 4 (minI b.i) ++ leBytesI 4 (maxI b.i) ++ leBytesI 4 m)

/-- The coded values of a quantity for a step: themselves, or their grid indices. -/
def coded (q : Nat) (x : List Int) : List Int := if q = 0 then x else quantise (q / 2 : Nat) 0 x

/-- The values a decoder reconstructs. -/
def recon (q : Nat) (z : List Int) : List Int := if q = 0 then z else z.map fun c => c * (q / 2 : Nat)

/-- A coded record with steps qv and qi (0: lossless); `junk` stands in for the streams of a faulty encoder. -/
def nCoded (b : Blk) (qv qi : Nat) (degraded : Bool) (junk : List Byte → List Byte) : List Byte :=
  let zv := coded qv b.v
  let zi := coded qi b.i
  let sv := sqzStream zv
  let si := sqzStream zi
  let fl := if b.fl.foldl (· ||| ·) 0 % 16 = 0 then [] else fmap b.fl
  withCrc32c (nHead b (if qv = 0 then 0 else 1) degraded false (sv.1 + 4 * si.1) (nRes b (recon qi zi))
    ++ leBytes 4 qv ++ leBytes 4 qi ++ leBytesI 4 (zv.headD 0) ++ leBytesI 4 (zi.headD 0)
    ++ leBytes 2 sv.2.2.length ++ leBytes 2 si.2.2.length ++ leBytes 1 sv.2.1 ++ leBytes 1 si.2.1 ++ [0, 0]
    ++ fl ++ junk sv.2.2 ++ junk si.2.2)

/-- S_max of a TRATE, bytes (R322). -/
def sMax (k : Nat) : Nat :=
  match k with
  | 0 => 712 | 1 | 2 | 3 | 4 | 5 | 6 => 740 | 7 => 484 | 8 => 276 | 9 => 172 | 10 => 120 | 11 => 96 | _ => 92

/-- Double the steps until the record fits (R312): the steps used, and whether the block was degraded. -/
def nFit (b : Blk) : Nat → Nat → Nat → Bool → Nat × Nat × Bool
  | 0, qv, qi, d => (qv, qi, d)
  | f + 1, qv, qi, d =>
    if (nCoded b qv qi d id).length ≤ sMax b.k then (qv, qi, d)
    else if qv = 0 then nFit b f 4 4 true
    else nFit b f (2 * qv) (2 * qi) true

/-- The record of a block in its mode: its bytes and whether it was degraded. -/
def nEncode (b : Blk) (mode qv qi : Nat) (junk : List Byte → List Byte) : List Byte × Bool :=
  if mode = 2 then (nSummary b false, false)
  else
    let r := nFit b 26 (if mode = 1 then qv else 0) (if mode = 1 then qi else 0) false
    (nCoded b r.1 r.2.1 r.2.2 junk, r.2.2)

/-! ### Decoding, as the manual's pseudocode gives it -/

/-- Read one code: the mapped value and the bits left; none: the bits end. -/
def readCode (k : Nat) (l : List Bool) : Option (Nat × List Bool) :=
  let q := (l.take 24).takeWhile id |>.length
  let num (l : List Bool) : Nat := l.foldl (fun a b => 2 * a + b2n b) 0
  if q = 24 then (if 56 ≤ l.length then some (num ((l.drop 24).take 32), l.drop 56) else none)
  else if q + 1 + k ≤ l.length then some (q * 2 ^ k + num ((l.drop (q + 1)).take k), l.drop (q + 1 + k)) else none

/-- Decode n further elements after those in `past` (newest first). -/
def readStream (order k : Nat) (z0 : Int) (past : List Int) : Nat → List Bool → Option (List Int)
  | 0, _ => some []
  | n + 1, l =>
    match readCode k l with
    | some (u, r) =>
      let z := sqzPredict order z0 past + sqzUnmap u
      (readStream order k z0 (z :: past) n r).map (z :: ·)
    | none => none

/-! ### F records (R317, R318) -/

/-- One entry: channel, FLT1, largest range, samples (v, i in nV, flags), ACC difference over the span. -/
structure FEntry where
  ch : Nat
  flt1 : Bool
  irng : Nat
  v : List Int
  i : List Int
  fl : List Nat
  acc : Int

def fEntryBytes (e : FEntry) : List Byte :=
  let x := e.i.map fun n => clampI (rnd n (2 ^ e.irng)) (-8388608) 8388607
  let pad (l : List Int) : List Byte := ((upto 8).flatMap fun j => leBytesI 3 (l.getD j 0))
  leBytes 1 (e.irng + 4 * b2n e.flt1) ++ leBytes 1 (e.fl.foldl (· ||| ·) 0 % 16)
    ++ leBytesI 6 (e.acc - 8192 * 2 ^ e.irng * sumI x) ++ pad e.v ++ pad x

/-- The record of a gallery; `ns` samples, stamp of the last one. -/
def fRecord (g ns sec run : Nat) (short restart : Bool) (es : List FEntry) : List Byte :=
  withCrc32c ([0x46, 0x01] ++ leBytes 1 g ++ leBytes 1 es.length ++ leBytes 2 (maskOf (es.map fun e => e.ch % 16))
    ++ leBytes 1 (b2n short + 2 * b2n restart) ++ leBytes 1 ns ++ leBytes 6 sec ++ [0, 0] ++ leBytes 4 run
    ++ es.flatMap fEntryBytes)

/-! ### SQZ registers (R313, R316, R323) -/

def sqzMode (s : State) (r : Nat) : Nat := cfgF s (Addr.sqzCfg r) 0 2
def sqzVerify (s : State) (r : Nat) : Bool := bitN (cfgN s (Addr.sqzCfg r)) 2
def sqzQv (s : State) (r : Nat) : Nat := cfgF s (Addr.sqzQ r) 0 16
def sqzQi (s : State) (r : Nat) : Nat := cfgF s (Addr.sqzQ r) 16 16

/-- A step of bounded mode is legal: even, 2 to 65,534. -/
def stepOk (q : Nat) : Bool := decide (2 ≤ q) && q % 2 == 0

/-- Records per second and worst-case bits per second of an N stream (R322). -/
def recPerS (k : Nat) : Nat := match k with | 0 => 64 | 1 => 32 | 2 => 16 | 3 => 8 | 4 => 4 | 5 => 2 | _ => 1
def streamW (k mode : Nat) : Nat := recPerS k * ((if mode = 2 then 92 else sMax k) + 110) * 8

/-- TRATE of a front end. -/
def feTrate (s : State) (n : Nat) : Nat := cfgF s (Addr.fe n 0) 0 4

/-- LINK_WCR, kbit/s (R322). -/
def linkWcr (s : State) : Nat :=
  let fes := (upto 128).filter fun n => decide (0 < (s.getFe n).pwr) && (s.getRing (n / 4)).en
  let w := sumN (fes.map fun n => streamW (feTrate s n) (sqzMode s (n / 4)))
  let g := ((upto 8).filter fun g => !(popOfGal s g).isEmpty && (s.getRing (32 + g)).en).length
  (w + 1030 * g + 120000 + 999) / 1000

/-- LINK_WCR is recomputed whenever a term changes (R322). -/
def updateWcr (s : State) : State := { s with link := { s.link with wcr := linkWcr s } }

/-- Front ends of ring r whose block is open: they change at their next block (R313). -/
def openMask (s : State) (r : Nat) : Nat := maskOf ((upto 4).filter fun j => (s.getFe (4 * r + j)).nOpen)

/-- A write of SQZ_CFG[r] or SQZ_Q[r]: an illegal value is discarded with SQZ_WRITE_BAD. VERIFY is RWL: outside LOAD
and SERVICE it keeps its value, and a change of it raises REG_WRITE_LOCKED (R4, R313, R323). -/
def writeSqz (a : Nat) (v : Word) (s : State) : State :=
  let isQ := decide (0x009080 ≤ a)
  let r := a % 0x80 / 4
  let bad := if isQ then !((stepOk (field v 0 16) && stepOk (field v 16 16)) || (sqzMode s r != 1 && v == 0))
             else field v 0 2 == 3
  if bad then raise .fabric Cause.sqzWriteBad 0xFF s
  else
    let open_ := s.mode == .load || s.mode == .service
    let w := if isQ then v else (v &&& 3) ||| ((if open_ then v else cfgW s a) &&& 4)
    let s1 := updateWcr (modSqz r (fun q => { q with pend := openMask s r }) (setCfg a w s))
    if !isQ && !open_ && v &&& 4 != cfgW s a &&& 4 then raiseReg Cause.regWriteLocked a s1 else s1

def execSqzCfgWrite (_p : Path) (addr : Nat) (v : Word) (s : State) : Host.Outcome State Fault Refusal :=
  .next (if decide (0x009000 ≤ addr) && decide (addr < 0x009100) && addr % 4 == 0 then regGate addr (writeSqz addr v) s else s)

/-! ### A block enters its ring -/

/-- Encode a block in the mode, and with the verification, in which it was opened and append it to its ring (R312, R313, R316).
`fault`: the encoder's internal working failed; verification finds it, and without verification the streams are free values. -/
def sendBlock (b : Blk) (mode qv qi : Nat) (verify fault : Bool) (s : State) : State :=
  let r := b.fe / 4
  if mode ≠ 2 ∧ fault = true ∧ verify = true then
    raise .fabric Cause.sqzVerifyFail 0xFF
      (ringPushN r (nSummary b true) (modSqz r (fun q => { q with vfail := incSat 16 q.vfail }) s))
  else
    let n := (nEncode b mode qv qi id).1.length
    let f := if fault && mode != 2 then freeBytes n s else ([], s)
    let junk (l : List Byte) : List Byte := if fault then (f.1 ++ List.replicate l.length 0).take l.length else l
    let e := nEncode b mode qv qi junk
    let s1 := ringPushN r e.1 f.2
    if e.2 then
      let s2 := modSqz r (fun q => { q with degraded := incSat 16 q.degraded }) s1
      let due := match (s.getSqz r).evTk with | some t => decide (8192 ≤ since s t) | none => true
      if due then raise .fabric Cause.sqzDegraded 0xFF (modSqz r (fun q => { q with evTk := some s.tb.run }) s2) else s2
    else s1

end Sys2Proof.Machine
end

