-- ==== Sys2Proof/Machine/Stream.lean ====
section
/-!
DEFINITION. The streams of the front ends: calibration (R95), conversion to field units (R112), the rate ladder
(R83), the blocks of the N records (R303 to R307) and the records of the F streams (R317, R318).
-/

namespace Sys2Proof.Machine

/-! ### Calibration and conversion -/

/-- Calibrate a code (R95): `lsb` is 1 for V and 2^IRNG for I, `t` and `tcal` in 0.01 degC. -/
def calibrate (raw lsb ofs : Int) (gain : Int) (tco tcg t tcal : Int) : Int :=
  let dt := t - tcal
  let x := raw * lsb * 256
  let o := ofs + rnd (tco * dt * 256) 100000
  let g := gain + rnd (gain * tcg * dt) 10000000000
  satI 32 (rnd ((x - o) * g) (2 ^ 38))

/-- FE_CAL_TREF.T_CAL. -/
def calTref (s : State) (n : Nat) : Int := signN 16 (cfgN s (Addr.fe n 0x1C))

/-- Calibrated V in uV of a code on front end n at temperature t. -/
def calV (s : State) (n : Nat) (t raw : Int) : Int :=
  let tc := cfgN s (Addr.fe n 0x18)
  calibrate raw 1 (cfgS s (Addr.fe n 0x10)) (cfgI s (Addr.fe n 0x14)) (signN 16 tc) (signN 16 (tc / 2 ^ 16)) t (calTref s n)

/-- Calibrated I in nV of a code in range r. -/
def calI (s : State) (n r : Nat) (t raw : Int) : Int :=
  let tc := cfgN s (Addr.fe n 0x20)
  calibrate raw ((2 : Int) ^ r) (cfgS s (Addr.fe n (0x28 + 4 * r))) (cfgI s (Addr.fe n (0x38 + 4 * r))) (signN 16 tc)
    (signN 16 (tc / 2 ^ 16)) t (calTref s n)

/-- FE_CAL_RSH in nOhm. -/
def rsh (s : State) (n : Nat) : Int := cfgI s (Addr.fe n 0x24)

/-- i_ua and q_uah of R112. -/
def iUa (s : State) (n : Nat) (nv : Int) : Int := rnd (nv * 1000000) (rsh s n)
def qUah (s : State) (n : Nat) (acc : Int) : Int := rnd (acc * 625) (18432 * rsh s n)

/-- The difference of two ACC snapshots, modulo 2^64, read as signed (R110). -/
def accDiff (a b : Int) : Int := signN 64 (wrapN 64 (a - b))

/-! ### The rate ladder (R83) -/

def meanOf (f : Samp → Int) (l : List Samp) : Int := rnd (sumI (l.map f)) l.length
def orOf (l : List Samp) : Nat := l.foldl (fun a x => a ||| x.fl) 0
def irngOf (l : List Samp) : Nat := maxN (l.map fun x => x.irng)

/-- The output at TRATE k that ends `off` base samples before the newest: V, I and flags; `tri`: triangular. -/
def ladder (hist : List Samp) (k : Nat) (tri : Bool) (off : Nat) : Int × Int × Nat :=
  let h := hist.drop off
  if tri && k == 13 then
    let box (f : Samp → Int) : Int := rnd (sumI ((upto 8192).map fun j => meanOf f ((h.drop j).take 8192))) 8192
    (box (·.v), box (·.i), orOf (h.take 16383))
  else
    let w := h.take (2 ^ k)
    (meanOf (·.v) w, meanOf (·.i) w, orOf w)

/-- FE_CFG fields. -/
def feFlt1 (s : State) (n : Nat) : Bool := bitN (cfgN s (Addr.fe n 0)) 4
def feIrngDef (s : State) (n : Nat) : Nat := cfgF s (Addr.fe n 0) 5 2
def feEchoInt (s : State) (n : Nat) : Nat := cfgF s (Addr.fe n 0) 8 10

/-- Base samples one output spans. -/
def ladderSpan (k : Nat) (tri : Bool) : Nat := if tri && k == 13 then 16383 else 2 ^ k

/-! ### N blocks -/

/-- Ticks of a regular block at TRATE k (R303). -/
def blockTk (k : Nat) : Nat := Nat.min (2 ^ (7 + k)) 8192

/-- The open block of front end n that ends `off` base samples before the newest one (R303 to R307), in the TRATE in which it was
opened; none if it would hold no sample. -/
def blockOf (s : State) (n off : Nat) (short : Bool) : Option Blk :=
  let f := s.getFe n
  let k := f.nK
  let tri := feFlt1 s n
  match f.hist.drop off with
  | [] => none
  | x :: _ =>
    let ns := Nat.min ((x.run - f.nRun) / 2 ^ k) ((x.run - s.tb.stepTk) / ladderSpan k tri)
    if ns = 0 then none
    else
      let out := (upto ns).reverse.map fun j => ladder f.hist k tri (off + j * 2 ^ k)
      let lead := if f.nRestart && tri && k == 13 then 8191 else 0
      let irng := irngOf ((f.hist.drop off).take (x.run - f.nRun + lead))
      some { fe := n, k := k, irng := irng, sec := x.sec, frac := x.idx * 2 ^ 19, run := x.run,
             v := out.map fun o => o.1,
             i := out.map fun o => clampI (rnd o.2.1 ((2 : Int) ^ irng)) (-8388608) 8388607,
             fl := out.map fun o => o.2.2, accStart := f.nAcc, accEnd := x.acc, short := short, restart := f.nRestart }

/-- The front end opens its next block in the mode now configured (R313), and in the TRATE now configured. DESIGN CHOICE (log entry
85): the spec does not say what a change of TRATE does to an open block; it ends as it began. -/
def openBlock (n : Nat) (acc : Int) (run : Nat) (restart : Bool) (s : State) : State :=
  let r := n / 4
  let s1 := modFe n (fun f => { f with nOpen := true, nRestart := restart, nAcc := acc, nRun := run, nK := feTrate s n, nVerify := sqzVerify s r, nMode := sqzMode s r,
                                       nQv := sqzQv s r, nQi := sqzQi s r }) s
  modSqz r (fun q => { q with pend := setBitN q.pend (n % 4) false }) s1

/-- The open block closes with the sample `off` base samples before the newest; the stream goes on, or stops. -/
def closeBlock (n off : Nat) (short stop fault : Bool) (s : State) : State :=
  let f := s.getFe n
  if !f.nOpen then s
  else
    let stopped (t : State) : State :=
      let u := modFe n (fun g => { g with nOpen := false, nRestart := true })
        (modSqz (n / 4) (fun q => { q with pend := setBitN q.pend (n % 4) false }) t)
      modRing (n / 4) (fun g => { g with busy := !g.en && openMask u (n / 4) != 0 }) u
    match blockOf s n off short with
    | some b =>
      let s1 := sendBlock b f.nMode f.nQv f.nQi f.nVerify fault s
      if stop then stopped s1 else openBlock n b.accEnd b.run false s1
    | none => if stop then stopped s else s

/-- ACC before the entry of a sample (R110). -/
def accBefore (x : Samp) : Int := signN 64 (wrapN 64 (x.acc - x.i))

/-- The stream (re)starts on the first stamp of a regular block, with a RESTART block, where the front end has produced every base
sample of its tick span: with FLT1 at 1 Sa/s that begins 8,191 ticks before (R83, R304, R305). -/
def restartBlock (n : Nat) (x : Samp) (s : State) : State :=
  if feFlt1 s n && feTrate s n == 13 then
    match (s.getFe n).hist.drop 8191 with
    | y :: _ => if y.run + 8191 = x.run ∧ s.tb.stepTk < y.run then openBlock n (accBefore y) (x.run - 1) true s else s
    | [] => s
  else openBlock n (accBefore x) (x.run - 1) true s

/-- The newest sample ends the open block, or begins a block of a stream that (re)starts (R303, R304). -/
def blockTick (n : Nat) (fault : Bool) (s : State) : State :=
  let f := s.getFe n
  match f.hist with
  | [] => s
  | x :: _ =>
    if f.nOpen then (if x.idx % blockTk f.nK = 0 then closeBlock n 0 false (!(s.getRing (n / 4)).en) fault s else s)
    else if x.idx % blockTk (feTrate s n) = 1 ∧ (s.getRing (n / 4)).en = true then restartBlock n x s
    else s

/-! ### F records -/

/-- Close the open record of gallery g with the seconds it holds. -/
def closeF (g : Nat) (short : Bool) (s : State) : State :=
  let f := (s.getGal g).f
  match f.secs with
  | [] => s
  | (sec, run, last) :: _ =>
    let old := f.secs.reverse
    let entry (x : FSamp) : FEntry :=
      let mine := old.filterMap fun y => y.2.2.find? fun z => z.ch == x.ch
      { ch := x.ch, flt1 := feFlt1 s x.ch, irng := maxN (mine.map fun z => z.irng), v := mine.map fun z => z.v,
        i := mine.map fun z => z.i, fl := mine.map fun z => z.fl, acc := accDiff x.acc (alGet 0 x.ch f.accs) }
    let s1 := ringPush (32 + g) (fRecord g old.length sec run short f.restart (last.map entry)) s
    modGal g (fun y => { y with f := { f with restart := false, from_ := run, secs := [], now := f.now,
                                              accs := last.map fun z => (z.ch, z.acc) } }) s1

/-- The F stream stops: the open record closes short (R304). -/
def stopF (g : Nat) (s : State) : State :=
  modRing (32 + g) (fun r => { r with busy := false })
    (modGal g (fun y => { y with f := { y.f with run := false, restart := true, secs := [], now := [] } }) (closeF g true s))

/-- A sample takes its place before those of higher channels. -/
def chInsert (x : FSamp) : List FSamp → List FSamp
  | [] => [x]
  | y :: l => if x.ch < y.ch then x :: y :: l else y :: chInsert x l

/-- The Flowstone sample of channel k at a second's start enters its gallery's record, in ascending channel order (R317). DESIGN
CHOICE (log entry 85): a second of which a step leaves one channel no sample (FLT1 spans two) is in no channel's entry. -/
def fTick (k : Nat) (s : State) : State :=
  let g := galOf k
  let fe := s.getFe k
  match fe.hist with
  | [] => s
  | x :: _ =>
    if x.idx ≠ 0 ∨ populated s k = false then s
    else
      let tri := feFlt1 s k
      let o := ladder fe.hist 13 tri 0
      let first := (s.getGal g).f.restart && (s.getGal g).f.secs.isEmpty
      let span := if first then ladderSpan 13 tri else 8192
      let smp : FSamp := { ch := k, v := o.1, i := o.2.1, fl := o.2.2, irng := irngOf (fe.hist.take span), acc := x.acc }
      let now := chInsert smp (s.getGal g).f.now
      if now.length < (popOfGal s g).length then modGal g (fun y => { y with f := { y.f with now := now } }) s
      else
        let en := (s.getRing (32 + g)).en
        let f := (s.getGal g).f
        let whole := now.all fun z => decide (s.tb.stepTk + ladderSpan 13 (feFlt1 s z.ch) ≤ x.run)
        let s1 := modGal g (fun y => { y with f := { f with now := [], secs := if f.run && whole then (x.sec, x.run, now) :: f.secs else f.secs } }) s
        if x.sec % 8 ≠ 0 then s1
        else if f.run then (if en then closeF g (decide ((s1.getGal g).f.secs.length < 8)) s1 else stopF g (closeF g false s1))
        else if en then
          let start (z : FSamp) : Nat × Int :=
            (z.ch, if feFlt1 s z.ch then (match (s.getFe z.ch).hist.drop 8191 with | y :: _ => y.acc | [] => z.acc) else z.acc)
          modGal g (fun y => { y with f := { run := true, restart := true, from_ := x.run, accs := now.map start } }) s1
        else s1

/-- Every stream stops: front ends produce no more base samples (R304). -/
def stopStreams (s : State) : State :=
  let fin (n : Nat) (t : State) : State :=
    let f := t.getFe n
    match f.hist with
    | x :: _ => closeBlock n (x.idx % 2 ^ f.nK) true true false t
    | [] => t
  forEach (upto 8) stopF (forEach (upto 128) fin s)

/-- A line-time step ends every open block and record with its last sample before the step (R304). -/
def splitStreams (s : State) : State :=
  let fin (n : Nat) (t : State) : State :=
    let f := t.getFe n
    match f.hist with
    | x :: _ => closeBlock n (x.idx % 2 ^ f.nK) true false false t
    | [] => t
  forEach (upto 8) (fun g t => modGal g (fun y => { y with f := { y.f with now := [] } }) (if (t.getGal g).f.run then closeF g true t else t))
    (forEach (upto 128) fin s)

end Sys2Proof.Machine
end

