-- ==== Sys2Proof/Machine/Stage.lean ====
section
/-!
DEFINITION. What the pins of the stages do and what the safety island decides: PWM to mid with braking (R38, R55),
DISC and its timing (R57), the last-fault record (R74), a latched phase fault (R54), and the safe-state decisions of
the three levels (R331, R332).
-/

namespace Sys2Proof.Machine

/-! ### PWM, BRAKE and DISC -/

/-- VIO is valid, so PWM pins are driven (R38). -/
def vioGood (s : State) : Bool := (s.getRail 1).good

/-- PWM is at a switching level. -/
def Pwm.switching : Pwm → Bool
  | .high | .low => true
  | _ => false

/-- PWM of phase n goes to mid for any cause: BRAKE if IMON exceeds BRK_EXIT, the given state otherwise; a phase
that brakes or is in FAULT stays so (R54, R55). -/
def midPhase (rest : PhSt) (n : Nat) (s : State) : State :=
  let lim := cfgI s (Addr.ph n 0x24)
  let lvl := if vioGood s then Pwm.mid else Pwm.hiZ
  modPh n (fun p =>
    let q := { p with pwm := lvl, onTime := false, cut := p.onTime, shedStep := 0, share := 0 }
    if p.st = .brake ∨ p.st = .fault then q
    else if p.pwm.switching && decide (lim < p.imon.natAbs) then { q with st := .brake, lfrOpen := p.lfrOpen.map fun b => lset b 3 (b.getD 3 0 ||| 0x10) }
    else { q with st := rest }) s

/-- Every phase of a channel goes to mid; its shedding state is discarded (R64). -/
def midChannel (k : Nat) (s : State) : State :=
  modCh k (fun c => { c with allMid := true, dwell := 0, token := 0, active := [] })
    (forEach (phasesOf s k) (midPhase .idle) s)

/-- A phase of the channel is in BRAKE. -/
def braking (s : State) (k : Nat) : Bool := (phasesOf s k).any fun n => (s.getPh n).st == .brake

/-- DISC of a channel goes off: at once, or when the last phase leaves BRAKE (R57). -/
def openDisc (k : Nat) (s : State) : State :=
  if (s.getCh k).disc && braking s k then modCh k (fun c => { c with discWant := false, discOpening := true }) s
  else modCh k (fun c => { c with discWant := false, discOpening := false, disc := false }) s

/-- Mid and DISC off for a channel. -/
def safeChannel (k : Nat) (s : State) : State := openDisc k (midChannel k s)

/-- The channel ids whose block lies in gallery g and is declared. -/
def chansOfGal (s : State) (g : Nat) : List Nat := ((upto 16).map (16 * g + ·)).filter (declared s)

/-- All 16 phases of a gallery at mid, SEN off, every DISC off (R331). -/
def safeGallery (g : Nat) (s : State) : State :=
  forEach (chansOfGal s g) safeChannel
    (forEach ((upto 16).map (16 * g + ·)) (midPhase .off) (modGal g (fun x => { x with sen := false, awake := false }) s))

/-! ### SEN (R39) -/

/-- The drive rail of a gallery is good: slot 6 for galleries 0 to 3, slot 7 for 4 to 7. -/
def driveGood (s : State) (g : Nat) : Bool := (s.getRail (if g < 4 then 6 else 7)).good

/-- The conditions of R39 and R398 under which SEN is on. -/
def senCond (s : State) (g : Nat) : Bool :=
  stageOn s && !(popOfGal s g).isEmpty && driveGood s g && (s.getGal g).safe.isNone && s.saf.dev.isNone
    && s.saf.keepAlive && !rstout1Low s

/-- SEN of a gallery follows its conditions; a gallery that turns on waits 50 us for its stages (R39). -/
def updateSen (g : Nat) (s : State) : State :=
  if senCond s g then
    (if (s.getGal g).sen then s else modGal g (fun x => { x with sen := true, awake := false }) s)
  else if (s.getGal g).sen then
    forEach (chansOfGal s g) midChannel
      (forEach ((upto 16).map (16 * g + ·)) (midPhase .off) (modGal g (fun x => { x with sen := false, awake := false }) s))
  else s

def updateSens (s : State) : State := forEach (upto 8) updateSen s

/-! ### Modes -/

/-- g_eff of every channel starts at 0 at an entry to RUN (R226). -/
def zeroGrants (s : State) : State := forEach (upto 128) (modCh · fun c => { c with reg := { c.reg with gEff := 0 } }) s

/-- A mode is entered. -/
def goMode (m : Mode) (s : State) : State := let t := { s with mode := m }; if m = .run then zeroGrants t else t

/-- SAFE has all rails up (R1): with the drive rails off, and no sequence in progress, slot 6 is enabled and slot 7 follows it as on
a REST exit (R387, R391). DESIGN CHOICE (log entry 83): its RAIL_STUCK check, for which no command of the table carries the level,
finds the slot fallen. -/
def safeRails (s : State) : State :=
  if s.seq.st = .on ∧ s.seq.wait = none ∧ (s.getRail 7).en = false then
    modRail 6 (fun x => { x with en := true }) { s with seq := { s.seq with st := .up, restExit := some .safe, slot := 6 } }
  else { s with seq := { s.seq with restExit := s.seq.restExit.map fun _ => .safe } }

/-- SAFE_N is asserted in these cases (R330, R349). -/
def safeNOn (s : State) : Bool :=
  s.saf.dev.isSome || !s.saf.keepAlive || !s.saf.checked || !s.mode.up
    || (match s.saf.proof with | some p => decide (since s p.from_ < msTk 200) | none => false)

def updateSafeN (s : State) : State := { s with saf := { s.saf with safeN := safeNOn s } }

/-! ### Echo aborts -/

/-- An Echo pass is aborted: the path reconnects on this tick, whose own sample is still the pass's, and the samples of the next
4 ticks carry SETTLE (R106). -/
def abortEcho (n : Nat) (s : State) : State :=
  match (s.getFe n).echo with
  | some p =>
    modFe n (fun f => { f with echo := none, out := false, irng := f.irngNext, echoAbort := incSat 16 f.echoAbort,
                               subTo := if p.start < s.tb.run then s.tb.run else f.subTo, reconn := s.tb.run + 4 }) s
  | none => s

/-- The device leaves the mode in which passes began: every one is aborted (R106). -/
def abortAll (s : State) : State := forEach ((upto 128).filter fun n => (s.getFe n).echo.isSome) abortEcho s

/-! ### Safe-state decisions -/

/-- SAF_HIST bit of a decision: the low byte of its cause (R353). -/
def setHist (cause : Nat) (s : State) : State :=
  { s with saf := { s.saf with hist := setBitN s.saf.hist (cause % 32) true } }

/-- An event of the island with an optional argument. -/
def raiseOpt (prod : Producer) (cause ch : Nat) (arg : Option Nat) (s : State) : State :=
  match arg with
  | some a => raiseA prod cause ch a s
  | none => raise prod cause ch s

/-- A safe state is in force for channel k at its level or above (R332). -/
def chSafe (s : State) (k : Nat) : Bool :=
  (s.getCh k).safe.isSome || (s.getGal (galOf k)).safe.isSome || s.saf.dev.isSome

/-- A channel safe-state decision (R331): outputs at once, FAULT at the next launch tick. -/
def decideCh (k cause : Nat) (arg : Option Nat) (s : State) : State :=
  let s1 := setHist cause s
  if chSafe s k then s1
  else
    let s2 := safeChannel k { s1 with saf := { s1.saf with nCh := incSat 8 s1.saf.nCh } }
    let s3 := modCh k (fun c => { c with safe := some cause,
                                         fltNext := if c.fltNext.isSome then c.fltNext else some cause }) s2
    raiseOpt .island cause k arg s3

/-- Decisions for channel k on one island clock, lowest low byte first: the first is the level's cause, and every other still
counts and sets its bit (R332). -/
def decideChs (k : Nat) (l : List (Nat × Option Nat)) (s : State) : State :=
  match l with
  | [] => s
  | (c, a) :: rest =>
    rest.foldl (fun t x => setHist x.1 (if chSafe s k then t else { t with saf := { t.saf with nCh := incSat 8 t.saf.nCh } }))
      (decideCh k c a s)

/-- A gallery safe-state decision: every channel of it in a state other than DISABLED or FAULT is to enter FAULT
with SAF_GALLERY. -/
def decideGal (g cause : Nat) (s : State) : State :=
  let s1 := setHist cause s
  if (s.getGal g).safe.isSome || s.saf.dev.isSome then s1
  else
    let s2 := safeGallery g { s1 with saf := { s1.saf with nGal := incSat 8 s1.saf.nGal } }
    let s3 := modGal g (fun x => { x with safe := some cause }) s2
    let s4 := forEach (chansOfGal s g) (modCh · fun c =>
      if c.st = .disabled ∨ c.st = .fault ∨ c.fltNext.isSome then c else { c with fltNext := some Cause.safGallery }) s3
    raiseAt .island cause 0xFF (128 + g) g s4

/-- Causes of release class X (R342, R343). -/
def classXCause (cause : Nat) : Bool :=
  cause == Cause.safClkLoss || cause == Cause.safFabricStall || cause == Cause.safParam || cause == Cause.safSig
    || cause == Cause.safLockstep

/-- What ends with SERVICE however it is left: pending safety writes, stage operation, the test port, the hold of
the core voltage code (R345, R478, R480, R497). -/
def leaveService (s : State) : State :=
  { s with saf := { s.saf with pend := none }, acc := { s.acc with stageOp := false, tapOpen := false },
           fab := { s.fab with hold := false } }

/-- Outputs of a device safe state: every gallery's, and SAFE_N. -/
def safeDevice (s : State) : State :=
  let t := forEach (upto 8) safeGallery s
  { t with saf := { t.saf with safeN := true } }

/-- Entry to SAFE from a mode with rails up (R331, R2): it overrides a drain in progress, and an orderly off that
drains is refused. The channels change state at the next launch tick (R136). -/
def enterSafe (s : State) : State :=
  let s1 := abortAll { s with mode := .safe, saf := { s.saf with from_ := s.mode, entry := true }, tb := { s.tb with drain := none } }
  let s2 := if s.mode = .service then leaveService s1 else if s.mode = .rest then safeRails s1 else s1
  let off := (match s.tb.drain with | some d => d.goal == .off | none => false) && s.seq.wait.isSome
  if off then raise .supervisor Cause.seqCmdRefused 0xFF { s2 with seq := { s2.seq with wait := none, lastDown := 0 } }
  else s2

/-- The device safe state is in force with its cause: SAFE is entered and the cause raised. -/
def enterDev (cause ch : Nat) (x : Bool) (s : State) : State :=
  let t := { s with saf := { s.saf with dev := some (cause, ch), lastCause := (cause, ch), classX := x } }
  raiseSrc .island cause 0xFF 136 0 [] (if t.mode = .safe then t else enterSafe t)

/-- A device safe-state decision; x: its release class is X. -/
def decideDev (cause ch : Nat) (x : Bool) (s : State) : State :=
  let s1 := setHist cause s
  let s2 := { s1 with saf := { s1.saf with classX := s1.saf.classX || x, devBadTk := s1.tb.run } }
  if s.saf.dev.isSome || !s.mode.up then s2
  else enterDev cause ch x (safeDevice { s2 with saf := { s2.saf with nDev := incSat 8 s2.saf.nDev, devTk := s2.tb.run } })

/-- The keep-alive stops (R329): PWM at mid, SEN off, DISC off and SAFE_N asserted, whatever the fabric does. -/
def stopKeepAlive (s : State) : State :=
  let t := safeDevice s
  { t with saf := { t.saf with keepAlive := false } }

/-! ### Latched phase faults and the last-fault record -/

/-- PH_STAT.STATE codes (R73). -/
def PhSt.code : PhSt → Nat
  | .off => 0 | .idle => 1 | .runC => 2 | .runD => 3 | .shedding => 4 | .shed => 5 | .brake => 6 | .fault => 7

/-- N_ACT of a channel. -/
def nAct (s : State) (k : Nat) : Nat := (s.getCh k).active.length

/-- A run tick is one of the `len` that end with `last`; 0: there is none. -/
def inSpan (run last len : Nat) : Bool := decide (0 < last) && decide (run ≤ last) && decide (last < run + len)

/-- Front end n is out of service for the stamp of the present tick: an Echo pass that started on an earlier tick, one that
ended or was aborted on this one, or, in a native channel, the four ticks after a reconnection (R102, R106). -/
def echoOut (s : State) (n : Nat) (nat : Bool) : Bool :=
  let f := s.getFe n
  (match f.echo with | some p => decide (p.start < s.tb.run) | none => false) || (decide (0 < f.subTo) && decide (s.tb.run ≤ f.subTo))
    || (nat && inSpan s.tb.run f.reconn 4)

/-- The front end whose samples regulate channel k: its A path, or the B path for the stamps for which the A path is out of
service (R46, R104, R106). -/
def regFe (s : State) (k : Nat) : Nat := if native s k && echoOut s k true then k + 1 else k

/-- Bytes 0 to 51 and 54 to 59 of the record of a fault of phase n (R74); BRK_US and the CRC follow. -/
def lfrBytes (n cause : Nat) (s : State) : List Byte :=
  let k := chanOr s n
  let c := s.getCh k
  let p := s.getPh n
  let flags := 1 + 2 * b2n p.dir + 4 * b2n (c.token == n - k && decide (2 ≤ c.nph)) + 8 * b2n (decide (0 < p.shedStep))
  [0x01] ++ leBytes 1 n ++ leBytes 1 k ++ leBytes 1 flags ++ leBytes 2 cause ++ leBytes 1 p.st.code ++ [0]
    ++ leBytes 4 s.tb.frac ++ leBytes 6 s.tb.sec ++ [0, 0] ++ leBytes 4 s.tb.run
    ++ leBytesI 4 p.dem ++ leBytesI 4 p.imon ++ leBytes 4 (maxN p.peaks)
    ++ leBytesI 4 (s.getFe (regFe s k)).vs ++ leBytesI 4 (vsumpUv s)
    ++ leBytes 2 p.tonCode ++ leBytes 2 p.toff ++ leBytes 1 p.ocfRun ++ leBytes 1 p.satRun
    ++ leBytes 1 c.active.length ++ leBytes 1 p.shedStep ++ [0, 0] ++ leBytes 2 (incSat 16 p.faultCnt)
    ++ leBytesI 2 (s.getDie (galOf n)).t ++ [0, 0]

/-- The record becomes valid: BRK_US is filled in and the CRC-32C written last (R74). -/
def lfrFinish (us : Nat) (b : List Byte) : List Byte :=
  withCrc32c (b.take 52 ++ leBytes 2 us ++ (b.drop 54).take 6)

/-- FAULT_CNT of a record that is not yet valid. -/
def lfrCount (n : Nat) (b : List Byte) : List Byte := b.take 54 ++ leBytes 2 n ++ b.drop 56

/-- Capture the record of a fault as the block stood before its reaction, `pre`. One that arrives before the record is valid
only increments FAULT_CNT. -/
def captureLfr (n cause : Nat) (pre s : State) : State :=
  let b := lfrBytes n cause pre
  modPh n (fun p =>
    let q := { p with faultCnt := incSat 16 p.faultCnt }
    if (pre.getPh n).lfrOpen.isSome then { q with lfrOpen := p.lfrOpen.map (lfrCount q.faultCnt) }
    else if p.st = .brake then { q with lfrOpen := some (lset b 3 (b.getD 3 0 ||| 0x10)) }
    else { q with lfr := lfrFinish 0 b }) s

/-- Bits of PH_FLT (R73). -/
def PhFlt.ocf : Nat := 0
def PhFlt.ocs : Nat := 1
def PhFlt.openLoad : Nat := 2
def PhFlt.noCurrent : Nat := 3
def PhFlt.senseOpen : Nat := 4
def PhFlt.brakeStuck : Nat := 5
def PhFlt.imonRange : Nat := 6

/-- Set a bit of PH_FLT and PH_FLT_HIST. -/
def setPhFlt (n bit : Nat) (s : State) : State :=
  modPh n (fun p => { p with flt := setBitN p.flt bit true, fltHist := setBitN p.fltHist bit true }) s

/-- The bits of PH_FLT that are phase faults (R54). -/
def phFaultMask : Nat := 0x63

/-- The detection of a fault of phase n at a count of 2^-28 s supplies the channel's cause if it is the first, or if it falls on
the same count as the first and its index is lower (R71). -/
def supplyCause (k n cause count : Nat) (had : Bool) (s : State) : State :=
  modCh k (fun c =>
    match c.det with
    | some (t, m) =>
      if t = count ∧ n < m ∧ c.fltNext.isSome = true then { c with det := some (count, n), safe := c.safe.map fun _ => cause, fltNext := some cause } else c
    | none => if had then c else { c with det := some (count, n) }) s

/-- A phase fault is latched (R54) at a count of 2^-28 s: the phase goes to FAULT, the island brings the channel's phases to mid
and opens DISC as a channel safe state, the record is captured and the cause raised with the phase as its argument (R526). -/
def latchPhase (n bit cause count : Nat) (s : State) : State :=
  let k := chanOr s n
  if bitN (s.getPh n).flt bit then s
  else
    let s1 := safeChannel k (setPhFlt n bit s)
    let s2 := captureLfr n cause s (modPh n (fun p => if p.st = .brake then p else { p with st := .fault }) s1)
    let had := chSafe s2 k
    let s3 := decideCh k cause (some n) s2
    supplyCause k n cause count had (if had then raiseA .timebase cause k n s3 else s3)

/-- A phase leaves BRAKE after `us` microseconds: to FAULT if it has a latched fault, to SHED if it left the ring,
to IDLE otherwise; the record in progress becomes valid. DISC goes off with the last one (R56, R57, R74). -/
def leaveBrake (n us : Nat) (s : State) : State :=
  let k := chanOr s n
  let c := s.getCh k
  let s1 := modPh n (fun p =>
    let st := if p.flt &&& phFaultMask ≠ 0 then PhSt.fault
              else if !c.allMid && !c.active.contains (n - k) then .shed
              else if (s.getGal (galOf n)).sen then .idle else .off
    match p.lfrOpen with
    | some b => { p with st := st, lfr := lfrFinish us b, lfrOpen := none, bad := alSet 0 Cause.phBrakeStuck s.tb.run p.bad }
    | none => { p with st := st, bad := alSet 0 Cause.phBrakeStuck s.tb.run p.bad }) s
  if c.discOpening && !braking s1 k then modCh k (fun c => { c with disc := false, discOpening := false }) s1 else s1

end Sys2Proof.Machine
end

