-- ==== Sys2Proof/Machine/Store.lean ====
section
/-!
DEFINITION. The non-volatile store: reading it with SECDED, record copies (R460 to R462), the write manager (R463),
the commit set (R465), formatting, calibration commit, user regions, margin scan and the window (R458 to R474).
-/

namespace Sys2Proof.Machine

/-! ### The array (R458) -/

/-- The byte of the store at an address; one nothing has written reads 0 (log entry 8). -/
def nvmByte (s : State) (a : Nat) : Byte := alGet 0 a s.nvm.mem

def nvmBytes (s : State) (a n : Nat) : List Byte := (upto n).map fun i => nvmByte s (a + i)

/-- Write bytes at consecutive addresses. -/
def nvmPut (a : Nat) (l : List Byte) (m : List Host.Cell) : List Host.Cell :=
  match l with
  | [] => m
  | b :: r => nvmPut (a + 1) r (alSet 0 a b m)

/-- One 64-bit word is written: its SECDED is whole again. -/
def nvmWriteWord (a : Nat) (bytes : List Byte) (s : State) : State :=
  { s with nvm := { s.nvm with mem := nvmPut a bytes s.nvm.mem, bad := delN (a / 8) s.nvm.bad, weak := delN (a / 8) s.nvm.weak } }

/-- Pages [page, page + n) are zeroed. -/
def nvmZeroPages (page n : Nat) (s : State) : State :=
  let inside (a : Nat) : Bool := decide (256 * page ≤ a) && decide (a < 256 * (page + n))
  { s with nvm := { s.nvm with mem := s.nvm.mem.filter (fun c => !inside c.1),
                               bad := s.nvm.bad.filter (fun w => !inside (8 * w)),
                               weak := s.nvm.weak.filter (fun w => !inside (8 * w)) } }

/-- Some word of [a, a + n) is uncorrectable. -/
def nvmUncorr (s : State) (a n : Nat) : Bool := s.nvm.bad.any fun w => decide (a < 8 * w + 8) && decide (8 * w < a + n)

/-- A read corrects the words with a single-bit error in [a, a + n), counts them and queues their refresh. -/
def nvmCorrect (a n : Nat) (s : State) : State :=
  let ws := s.nvm.weak.filter fun w => decide (a < 8 * w + 8) && decide (8 * w < a + n)
  let q := if s.nvm.lock || s.nvm.refused then s.nvm.queue
           else s.nvm.queue ++ (ws.filter fun w => !s.nvm.queue.contains (.refresh (8 * w))).map fun w => .refresh (8 * w)
  { s with nvm := { s.nvm with nCorr := addSat 8 s.nvm.nCorr ws.length, queue := q } }

/-! ### Records (R459 to R462) -/

/-- Record kinds (R460). -/
def Kind.cal : Nat := 0x01
def Kind.cap : Nat := 0x02
def Kind.res : Nat := 0x03
def Kind.seqcnt : Nat := 0x04
def Kind.stop : Nat := 0x05
def Kind.proof : Nat := 0x06
def Kind.access : Nat := 0x07
def Kind.table : Nat := 0x10

/-- Byte addresses of copies A and B, and the payload length, of a record. -/
def recPlace (kind index : Nat) : Nat × Nat × Nat :=
  match kind with
  | 0x01 => (256 * 10, 256 * 42, 7176)
  | 0x02 => (256 * 74 + 64 * index, 256 * 74 + 64 * index + 32, 16)
  | 0x03 => (256 * 106 + 160 * index, 256 * 106 + 160 * index + 80, 64)
  | 0x04 => (256 * 2, 256 * 2 + 128, 40)
  | 0x05 => (256 * 3, 256 * 3 + 128, 24)
  | 0x06 => (256 * 4, 256 * 4 + 128, 8)
  | 0x07 => (256 * 5, 256 * 5 + 128, 8)
  | _ => (0, 256, 240)

/-- The 16-byte header of a copy. -/
def recHeader (kind index seq : Nat) (payload : List Byte) : List Byte :=
  let h := leBytes 1 kind ++ leBytes 1 index ++ leBytes 2 payload.length ++ leBytes 4 seq ++ leBytes 4 (crc32c payload) ++ [0, 0, 0]
  h ++ leBytes 1 (crc8 h)

/-- A copy at an address is valid (R461). -/
def copyValid (s : State) (kind index len a : Nat) : Bool :=
  let h := nvmBytes s a 16
  byteAt h 15 == crc8 (h.take 15) && byteAt h 0 == kind && byteAt h 1 == index && leAt h 2 2 == len
    && leAt h 8 4 == crc32c (nvmBytes s (a + 16) len) && !nvmUncorr s a (16 + len)

/-- SEQ of a copy. -/
def copySeq (s : State) (a : Nat) : Nat := leNat (nvmBytes s (a + 4) 4)

/-- The address of the newer valid copy (R461). -/
def newerCopy (s : State) (kind index : Nat) : Option Nat :=
  match recPlace kind index with
  | (a, b, len) =>
    let va := copyValid s kind index len a
    let vb := copyValid s kind index len b
    if va && vb then
      let d := (((copySeq s b : Int) - copySeq s a) % 4294967296).toNat
      if 1 ≤ d ∧ d ≤ 2 ^ 31 - 1 then some b else some a
    else if va then some a else if vb then some b else none

/-- A copy that holds something and is not valid was torn (R462). -/
def tornCopies (s : State) (kind index : Nat) : Nat :=
  match recPlace kind index with
  | (a, b, len) =>
    let torn (x : Nat) : Nat := b2n (!copyValid s kind index len x && (!allZero (nvmBytes s x (16 + len)) || nvmUncorr s x (16 + len)))
    torn a + torn b

/-- The payload of the newer valid copy; none: the record is absent. -/
def recPayload (s : State) (kind index : Nat) : Option (List Byte) :=
  (newerCopy s kind index).map fun a => nvmBytes s (a + 16) (recPlace kind index).2.2

/-- The words of a record write in the order of R462: payload, header bytes 0 to 7, header bytes 8 to 15. -/
def recWords (s : State) (kind index : Nat) (payload : List Byte) : List (Nat × List Byte) :=
  match recPlace kind index with
  | (a, b, _) =>
    let at_ := match newerCopy s kind index with
      | some x => if x = a then b else a
      | none => a
    let seq := match newerCopy s kind index with
      | some x => (copySeq s x + 1) % 2 ^ 32
      | none => 1
    let h := recHeader kind index seq payload
    (upto (payload.length / 8)).map (fun i => (at_ + 16 + 8 * i, slice payload (8 * i) 8))
      ++ [(at_, h.take 8), (at_ + 8, h.drop 8)]

/-! ### The write manager (R463) -/

/-- Two requests for the same record, or for the refresh of the same word. -/
def sameRecord (x y : NvmReq) : Bool :=
  match x, y with
  | .record k i _, .record k' i' _ => k == k' && i == i'
  | .refresh a, .refresh b => a == b
  | _, _ => false

/-- Queue a request: one for a record that waits already takes its place (R463). -/
def queueReq (r : NvmReq) (q : List NvmReq) : List NvmReq :=
  if q.any (sameRecord r) then q.map fun x => if sameRecord r x then r else x else q ++ [r]

/-- The words a request writes, as the store stands when it starts. -/
def reqWords (s : State) (r : NvmReq) : List (Nat × List Byte) :=
  match r with
  | .record k i p => recWords s k i p
  | .word a b => [(a, b)]
  | .refresh a => [(a, nvmBytes s a 8)]

/-- The write manager takes its next request: from the commit set once it is due, from the queue before that
(R463, R465). While FORMAT runs it takes none. -/
def nvmNext (s : State) : State :=
  if s.nvm.job.isSome || s.nvm.refused || s.nvm.busy == some .format then s
  else
    let begin_ (r : NvmReq) (n : Nvm) : State := { s with nvm := { n with job := some { req := r, words := reqWords s r } } }
    match s.nvm.queue, s.nvm.commit, s.nvm.lock with
    | r :: q, _, false => begin_ r { s.nvm with queue := q }
    | [], some (r :: l), _ => begin_ r { s.nvm with commit := some l }
    | _ :: _, some (r :: l), true => begin_ r { s.nvm with commit := some l }
    | _, _, _ => s

/-- Request a record write; nothing is written after a refused recall or while the power-fail lock holds. -/
def nvmRequest (r : NvmReq) (s : State) : State :=
  if s.nvm.refused || s.nvm.lock then s else nvmNext { s with nvm := { s.nvm with queue := queueReq r s.nvm.queue } }

/-- Payload of SEQCNT: SEQ_EVT[0] to [7], SEQ_CNT, 4 zero bytes (R399, R460). -/
def seqCntPayload (s : State) : List Byte :=
  ((upto 8).flatMap fun i => let r := s.getRail i; leBytes 1 r.noRise ++ leBytes 1 r.stuck ++ leBytes 1 r.uv ++ leBytes 1 r.ov)
    ++ leBytes 1 s.seq.nPfw ++ leBytes 1 s.seq.nVin ++ leBytes 1 s.seq.nBrown ++ leBytes 1 s.seq.nLong ++ [0, 0, 0, 0]

/-- Payload of STOP (R460). -/
def stopPayload (s : State) : List Byte :=
  leBytes 1 s.seq.lastDown ++ leBytes 1 s.mode.code ++ [0, 0] ++ leBytes 4 s.tb.run ++ leBytes 4 s.tb.frac
    ++ leBytes 6 s.tb.sec ++ leBytes 2 s.nvm.scanPage ++ [0, 0, 0, 0]

/-- The commit set in its order: SEQCNT, STOP, then the RES records handed in (R465). The counters are not written
after a refused recall (R399). -/
def commitSet (s : State) (res : List NvmReq) : List NvmReq :=
  [.record Kind.seqcnt 0 (seqCntPayload s), .record Kind.stop 0 (stopPayload s)] ++ res

def isRes (r : NvmReq) : Bool := match r with | .record k _ _ => k == Kind.res | _ => false
def isCap (r : NvmReq) : Bool := match r with | .record k _ _ => k == Kind.cap | _ => false

/-- What a discarded write raises (R465). -/
def dropReq (r : NvmReq) (s : State) : State :=
  match r with
  | .record k i _ =>
    if k = Kind.res then raise .fabric Cause.nvmResDrop i s
    else if k = Kind.cap then
      raise .fabric Cause.estWbDrop i (modEst i (fun e => { e with wbDrops := incSat 16 e.wbDrops }) s)
    else s
  | _ => s

/-- A capacity write-back that waits for its hour is dropped (R203). -/
def dropHeld (k : Nat) (s : State) : State :=
  raise .fabric Cause.estWbDrop k (modEst k (fun e => { e with wbWait := false, wbDrops := incSat 16 e.wbDrops }) s)

/-- The job in progress at the power-fail warning goes on to its next word boundary; whether its record is abandoned there. -/
def lockJob (j : NvmJob) : NvmJob × Bool := ({ j with words := j.words.take 1 }, decide (1 < j.words.length))

/-- The power-fail lock (R465): the write in progress is abandoned at its next word boundary, the commit set is formed
from SEQCNT, STOP and up to RES_COMMIT queued results, and every other queued write, a held write-back among them, is discarded. A
calibration commit whose last word is being written still completes. -/
def nvmLock (s : State) : State :=
  let keep := ((s.nvm.queue.filter isRes).take (cfgF s 0x00B00C 4 4))
  let cut := match s.nvm.job with | some j => (lockJob j).2 | none => false
  let lost := (match s.nvm.job with | some j => if cut && isCap j.req then [j.req] else [] | none => [])
    ++ s.nvm.queue.filter fun r => (isRes r || isCap r) && !keep.contains r
  let s0 := lost.foldl (fun t r => dropReq r t) s
  let s1 := forEach ((upto 128).filter fun k => (s.getEst k).wbWait) dropHeld s0
  let busy := match s.nvm.busy, s.nvm.job with
    | some .calCommit, some ⟨.record 0x01 _ _, _⟩ => if cut then none else some NvmBusy.calCommit
    | _, _ => none
  let s2 := { s1 with nvm := { s1.nvm with lock := true, job := s.nvm.job.map fun j => (lockJob j).1, queue := [], busy := busy,
                                           commit := if s.nvm.refused then none else some (commitSet s keep) } }
  nvmNext s2

/-- A 64-bit word has been written; the last word of a request ends it, and the next request starts (R458, R462). -/
def execNvmWordWriteDone (s : State) : Host.Outcome State Fault Refusal :=
  match s.nvm.job with
  | some ⟨r, (a, b) :: rest⟩ =>
    let s1 := nvmWriteWord a b s
    if rest.isEmpty then
      let n := match r with | .refresh _ => incSat 8 s1.nvm.nRefresh | _ => s1.nvm.nRefresh
      .next (nvmNext { s1 with nvm := { s1.nvm with job := none, nRefresh := n } })
    else .next { s1 with nvm := { s1.nvm with job := some ⟨r, rest⟩ } }
  | some ⟨_, []⟩ => .next (nvmNext { s with nvm := { s.nvm with job := none } })
  | none => .next s

/-- The last word of the commit set has been written (R465). -/
def execCommitSetDone (s : State) : Host.Outcome State Fault Refusal :=
  if s.nvm.commit = some [] ∧ s.nvm.job = none then .next { s with nvm := { s.nvm with commit := none } } else .next s

/-- A word write cut short by the loss of the input reads back as uncorrectable (R458). -/
def nvmTear (s : State) : State :=
  match s.nvm.job with
  | some ⟨_, (a, _) :: _⟩ => { s with nvm := { s.nvm with job := none, bad := insN (a / 8) s.nvm.bad } }
  | _ => { s with nvm := { s.nvm with job := none } }

/-! ### The region table (R459, R472, R473) -/

/-- One entry of the region table. -/
def tabEntry (id kind flags base pages : Nat) (pwd : List Byte) : List Byte :=
  leBytes 1 id ++ leBytes 1 kind ++ leBytes 1 flags ++ [0] ++ leBytes 2 base ++ leBytes 2 pages ++ slice pwd 0 8

/-- The table FORMAT writes: the fixed regions and empty user entries. -/
def tabFresh : List Byte :=
  tabEntry 0 1 0 2 8 [] ++ tabEntry 1 1 0 10 64 [] ++ tabEntry 2 1 0 74 32 [] ++ tabEntry 3 1 0 106 80 [] ++ tabEntry 4 1 0 186 256 []
    ++ (upto 8).flatMap (fun u => tabEntry (5 + u) 0 0 0 0 []) ++ List.replicate 32 0

/-- The table as it stands: the newer valid copy, or what a queued write will make of it. -/
def tabNow (s : State) : List Byte :=
  let waiting := (match s.nvm.job with | some j => [j.req] | none => []) ++ s.nvm.queue
  match (waiting.filterMap fun r => match r with | .record 0x10 _ p => some p | _ => none).getLast? with
  | some p => p
  | none => (recPayload s Kind.table 0).getD (List.replicate 240 0)

/-- A user region. -/
structure Region where
  kind : Nat
  flags : Nat
  base : Nat
  pages : Nat
  pwd : List Byte

def regionOf (s : State) (u : Nat) : Region :=
  let e := slice (tabNow s) (16 * (5 + u)) 16
  ⟨byteAt e 1, byteAt e 2, leAt e 4 2, leAt e 6 2, e.drop 8⟩

def Region.covers (r : Region) (page : Nat) : Bool := r.kind == 2 && decide (r.base ≤ page) && decide (page < r.base + r.pages)

/-- The user region a page lies in. -/
def regionAt (s : State) (page : Nat) : Option Nat := (upto 8).find? fun u => (regionOf s u).covers page

/-- Replace user entry u of the table and request its rewriting. -/
def putRegion (u kind flags base pages : Nat) (pwd : List Byte) (s : State) : State :=
  let t := tabNow s
  nvmRequest (.record Kind.table 0 (t.take (16 * (5 + u)) ++ tabEntry (5 + u) kind flags base pages pwd ++ t.drop (16 * (6 + u)))) s

/-! ### NVM_CMD (R466 to R468, R472, R484) -/

/-- The checks every keyed command of the store passes first: KEY, SERVICE, PFW_LOCK, BUSY, refused recall; what it
raises otherwise. `recalled`: a refused recall stops it. -/
def nvmCmdCheck (s : State) (key : Byte) (service recalled : Bool) : Option Nat :=
  if key ≠ 0x4E then some Cause.nvmCmdRefused
  else if service && s.mode != .service then some Cause.nvmCmdRefused
  else if s.nvm.lock then some Cause.nvmRefused
  else if recalled && s.nvm.refused then some Cause.nvmRefused
  else if s.nvm.busy.isSome then some Cause.nvmCmdRefused
  else none

def nvmCmdGate (key : Byte) (service recalled : Bool) (f : State → State) (s : State) : State :=
  regGate 0x00B000 (fun t =>
    match nvmCmdCheck t key service recalled with
    | some c => raise .fabric c 0xFF t
    | none => f t) s

/-- A word of the PATCH area, which FORMAT leaves. -/
def inPatch (r : NvmReq) : Bool :=
  match r with
  | .word a _ | .refresh a => decide (256 * 186 ≤ a) && decide (a < 256 * 442)
  | .record _ _ _ => false

/-- FORMAT begins (R466). What waited for a page that it writes with zeros need not be written any more. -/
def formatStore (key : Byte) (s : State) : State :=
  nvmCmdGate key true false (fun t => { t with nvm := { t.nvm with busy := some .format, queue := t.nvm.queue.filter inPatch } }) s

def execNvmFormat (_p : Path) (key : Byte) (s : State) : Host.Outcome State Fault Refusal := .next (formatStore key s)

/-- CRC-8 over the low three bytes of a fuse field word, in bits [31:24] (R482). -/
def fuseFieldWord (v : Nat) : Word :=
  let low := v % 2 ^ 24
  wordN (low + 2 ^ 24 * crc8 (leBytes 3 low))

/-- Fields of the fuse map (R481). -/
def fuseW (s : State) (w : Nat) : Nat := (s.acc.fuse.getD w 0).toNat
def eeSpeed (s : State) : Nat := let x := fieldN (fuseW s 16) 0 2; if x = 3 then 0 else x
def eeAmode (s : State) : Bool := bitN (fuseW s 16) 2
def eePage (s : State) : Nat := if bitN (fuseW s 16) 3 then 256 else 64
def hwStart (s : State) : Bool := bitN (fuseW s 16) 4
def storeFmt (s : State) : Bool := bitN (fuseW s 17) 0
def svcAuth (s : State) : Nat := fieldN (fuseW s 18) 0 2
def tapClose (s : State) : Bool := bitN (fuseW s 18) 2
def unitId (s : State) : Nat := fuseW s 3 + 2 ^ 32 * fuseW s 4
def fuseMac (s : State) : Nat := fuseW s 1 + 2 ^ 32 * (fuseW s 2 % 2 ^ 16)

/-- FORMAT completes (R466): zeros in every page except PATCH, both copies of the table, the fuse STORE_FMT; the
store takes writes again, first those requested meanwhile. -/
def execNvmFormatted (s : State) : Host.Outcome State Fault Refusal :=
  if s.nvm.busy = some .format ∧ s.nvm.job = none then
    let s1 := nvmZeroPages 442 3654 (nvmZeroPages 0 186 s)
    let h := recHeader Kind.table 0 1 tabFresh
    let mem := nvmPut 256 (h ++ tabFresh) (nvmPut 0 (h ++ tabFresh) s1.nvm.mem)
    let s2 := { s1 with nvm := { s1.nvm with mem := mem, busy := none, refused := false } }
    let s3 := if storeFmt s2 then s2 else { s2 with acc := { s2.acc with fuse := lset s2.acc.fuse 17 (fuseFieldWord 1) } }
    let kept := s.nvm.queue.any fun r => match r with | .record 0x07 _ _ => true | _ => false
    .next (nvmNext (raise .fabric Cause.nvmFormatted 0xFF (if kept then s3 else { s3 with acc := { s3.acc with fails := none } })))
  else .next s

/-- The FECAL payload formed from the FE_CAL_ registers of front ends 0 to 127, FLAGS 0, then 4 zero bytes (R467). -/
def calPayload (s : State) : List Byte :=
  [0x01, 0, 0, 0] ++ ((upto 128).flatMap fun n => (upto 14).flatMap fun i => leBytes 4 (cfgN s (Addr.fe n (0x10 + 4 * i)))) ++ [0, 0, 0, 0]

def commitCal (key : Byte) (s : State) : State :=
  nvmCmdGate key true true
    (fun t => nvmRequest (.record Kind.cal 0 (calPayload t)) { t with nvm := { t.nvm with busy := some .calCommit } }) s

def execCalCommit (_p : Path) (key : Byte) (s : State) : Host.Outcome State Fault Refusal := .next (commitCal key s)

/-- A CAL write is queued or in progress. -/
def calWaiting (s : State) : Bool :=
  s.nvm.queue.any (fun r => match r with | .record 0x01 _ _ => true | _ => false)
    || (match s.nvm.job with | some ⟨.record 0x01 _ _, _⟩ => true | _ => false)

/-- The calibration record is written (R467). -/
def execNvmCalCommitted (s : State) : Host.Outcome State Fault Refusal :=
  if s.nvm.busy = some .calCommit ∧ calWaiting s = false then
    let s1 := { s with nvm := { s.nvm with busy := none } }
    .next (raise .fabric Cause.nvmCalCommitted 0xFF
      (forEach (upto 128) (modFe · fun f => if f.pwr = 0 then f else { f with calSrc := 2, flt := setBitN f.flt 9 false }) s1))
  else .next s

/-- DEFINE on the values of NVM_ARG (R472). -/
def defineRegion (s : State) : State :=
  let a := cfgN s 0x00B004
  let base := fieldN a 0 12
  let pages := fieldN a 12 12
  let u := fieldN a 24 3
  let flags := fieldN a 27 3
  let overlaps := (upto 8).any fun v => v != u && (regionOf s v).kind == 2
      && decide ((regionOf s v).base < base + pages) && decide (base < (regionOf s v).base + (regionOf s v).pages)
  if pages = 0 then
    let r := regionOf s u
    putRegion u 0 0 0 0 [] (if r.kind = 2 then nvmZeroPages r.base r.pages s else s)
  else if base < 442 ∨ 4096 < base + pages ∨ overlaps = true then raise .fabric Cause.nvmCmdRefused 0xFF s
  else putRegion u 2 flags base pages [] (nvmZeroPages base pages s)

def defineStore (key : Byte) (s : State) : State :=
  nvmCmdGate key true true defineRegion s

def execDefine (_p : Path) (key : Byte) (s : State) : Host.Outcome State Fault Refusal := .next (defineStore key s)

def scanStore (key : Byte) (s : State) : State :=
  nvmCmdGate key false false (fun t => { t with nvm := { t.nvm with busy := some (.scanNow 4096), scanTk := t.tb.run } }) s

def execScanNow (_p : Path) (key : Byte) (s : State) : Host.Outcome State Fault Refusal := .next (scanStore key s)

/-- The store scans in this mode (R468). -/
def scanRuns (s : State) : Bool :=
  match s.mode with
  | .load | .run | .safe | .service => true
  | .rest => bitN (cfgN s 0x00B00C) 0 || (match s.nvm.busy with | some (.scanNow _) => true | _ => false)
  | _ => false

/-- The next page is due: 147 s of run time after the last one, 20 ms in a scan that SCAN_NOW started (R468). -/
def scanDue (s : State) : Bool :=
  scanRuns s && decide ((match s.nvm.busy with | some (.scanNow _) => floorTk 20 | _ => secTk 147) ≤ since s s.nvm.scanTk)

/-- One page is margin-read: words that fail are refreshed, uncorrectable ones raise NVM_UNCORR (R468). -/
def execMarginScan (weak bad : List (Fin 32)) (s : State) : Host.Outcome State Fault Refusal :=
  if !scanDue s then .next s
  else
    let page := s.nvm.scanPage
    let dead := (upto 32).filter fun i => bad.any (fun w => w.val == i) || s.nvm.bad.contains (32 * page + i)
    let s1 := dead.foldl (fun t i =>
      raiseA .fabric Cause.nvmUncorr 0xFF page
        { t with nvm := { t.nvm with bad := insN (32 * page + i) t.nvm.bad, nUncorr := incSat 8 t.nvm.nUncorr } }) s
    let ws := (upto 32).filter fun i => (weak.any (fun w => w.val == i) || s.nvm.weak.contains (32 * page + i)) && !dead.contains i
    let s2 := ws.foldl (fun t i => nvmRequest (.refresh (256 * page + 8 * i)) t) (nvmCorrect (256 * page) 256 s1)
    let next := (page + 1) % 4096
    let scans := if next = 0 then incSat 16 s2.nvm.scans else s2.nvm.scans
    let busy := match s2.nvm.busy with
      | some (.scanNow (n + 1)) => if n = 0 then none else some (.scanNow n)
      | b => b
    .next { s2 with nvm := { s2.nvm with scanPage := next, scans := scans, busy := busy, scanTk := s.tb.run } }

/-! ### The window (R470, R471) -/

/-- The store byte address of a window address on a path: its bank selects the half. -/
def winAddr (bank : Bool) (a : Nat) : Nat := a % 0x080000 + (if bank then 0x080000 else 0)

/-- A path's session unlock of user region u (R473). -/
def pathUnlocked (s : State) (p : Path) (u : Nat) : Bool :=
  match p with
  | .sess i => match s.link.sess.getD i.val none with
    | some x => bitN x.regions u
    | none => false
  | _ => false

/-- What a window read returns (R470). -/
def winRead (p : Path) (bank : Bool) (a : Nat) (s : State) : Word × State :=
  let x := winAddr bank a
  let page := x / 256
  let hidden := page == 5 || s.nvm.refused
    || (match regionAt s page with | some u => bitN (regionOf s u).flags 0 && !pathUnlocked s p u | none => false)
  if hidden then (0, s) else (wordN (leNat (nvmBytes s x 4)), nvmCorrect x 4 s)

/-- Why a window write to a store page is refused (R471). -/
def winRefused (p : Path) (page : Nat) (s : State) : Option Nat :=
  if s.nvm.refused || s.nvm.lock then some Cause.nvmRefused
  else if s.nvm.busy.isSome then some Cause.nvmBusy
  else match regionAt s page with
    | some u =>
      let r := regionOf s u
      if bitN r.flags 2 && s.mode != .service then some Cause.nvmRegionLocked
      else if bitN r.flags 1 && !pathUnlocked s p u then some Cause.nvmRegionLocked
      else none
    | none =>
      let other := if s.nvm.bank = 0 then decide (314 ≤ page) && decide (page < 442) else decide (186 ≤ page) && decide (page < 314)
      let free := if s.ldr.patch then other else decide (186 ≤ page) && decide (page < 442)
      if free && s.mode == .service then none else some Cause.nvmRegionLocked

/-- Number of a path's entry in `State.shadow`. -/
def Path.slot : Path → Nat
  | .sess i => i.val
  | .i2c => 4
  | .core c => 5 + c.val

def State.shad (s : State) (p : Path) : Shadow := s.shadow.getD (Path.slot p) {}
def modShad (p : Path) (f : Shadow → Shadow) (s : State) : State := { s with shadow := lmod s.shadow (Path.slot p) f }

/-- A window write (R471): the lower half is held for the path, the upper half performs the whole word. The cause of
a refusal, and the state. -/
def winWrite (p : Path) (a : Nat) (v : Word) (s : State) : Option Nat × State :=
  let x := winAddr (s.shad p).winBank a
  match winRefused p (x / 256) s with
  | some c => (some c, s)
  | none =>
    if x % 8 < 4 then (none, modShad p (fun h => { h with winHeld := v }) s)
    else
      let bytes := leBytes 4 (s.shad p).winHeld.toNat ++ leBytes 4 v.toNat
      (none, nvmRequest (.word (x - x % 8) bytes) s)

/-- A window write as a command: its refusal is raised (R471). -/
def execNvmWindowWrite (p : Path) (addr : Nat) (v : Word) (s : State) : Host.Outcome State Fault Refusal :=
  if decide (addr < 0x080000) || decide (0x100000 ≤ addr) || decide (addr % 4 ≠ 0) then .next s
  else .next (regGate addr (fun u =>
    match winWrite p addr v u with
    | (some c, t) => raise .fabric c 0xFF t
    | (none, t) => t) s)

/-! ### Fuses (R481 to R483) -/

/-- A block of eight words is all zero, or carries the CRC-32 of them in its ninth (R482). -/
def fuseBlockOk (s : State) (w : Nat) : Bool :=
  let b := (upto 8).flatMap fun i => leBytes 4 (fuseW s (w + i))
  (allZero b && fuseW s (w + 8) == 0) || fuseW s (w + 8) == crc32 b

def fuseBlockSet (s : State) (w : Nat) : Bool := (upto 9).any fun i => fuseW s (w + i) != 0

/-- The fuse check (R482). -/
def fuseOk (s : State) : Bool :=
  fuseW s 15 == crc32 ((upto 15).flatMap fun w => leBytes 4 (fuseW s w))
    && [16, 17, 18].all (fun w => fuseW s w / 2 ^ 24 == crc8 (leBytes 3 (fuseW s w)))
    && fuseBlockOk s 20 && fuseBlockOk s 29
    && fuseW s 14 == 0 && fuseW s 19 == 0 && (upto 26).all (fun i => fuseW s (38 + i) == 0)

/-- SVC_AUTH value a names a method whose block is unprogrammed (R483). -/
def authUnbacked (s : State) (a : Nat) : Bool :=
  (bitN a 0 && !fuseBlockSet s 29) || (bitN a 1 && !fuseBlockSet s 20)

/-- ACC_FCMD (R483, R484): its checks in the order key, SERVICE, lock, target, then the rule of SVC_AUTH. -/
def fuseCmd (v : Word) (s : State) : State :=
  let refuse (c : Nat) : State := raise .fabric c 0xFF s
  let w := field v 0 6
  let block := v.toNat.testBit 8
  if field v 24 8 ≠ 0x46 ∨ s.mode ≠ .service ∨ s.nvm.lock = true ∨ s.acc.job.isSome = true then refuse Cause.accRefused
  else if block then
    if w ≠ 20 ∧ w ≠ 29 then refuse Cause.accRefused
    else if fuseBlockSet s w then refuse Cause.accFuseUsed
    else { s with acc := { s.acc with job := some (.block w s.acc.fbuf), jobTk := s.tb.run } }
  else if fuseW s w ≠ 0 then refuse Cause.accFuseUsed
  else if w < 16 ∨ (20 ≤ w ∧ w < 38) then refuse Cause.accRefused
  else if w = 18 ∧ authUnbacked s (cfgF s 0x00C090 0 2) = true then refuse Cause.accRefused
  else { s with acc := { s.acc with job := some (.word w (fuseFieldWord (cfgN s 0x00C090))), jobTk := s.tb.run } }

def execFuseProgramWord (_p : Path) (v : Word) (s : State) : Host.Outcome State Fault Refusal :=
  .next (if !v.toNat.testBit 8 then regGate 0x00C08C (fuseCmd v) s else s)
def execFuseProgramBlock (_p : Path) (v : Word) (s : State) : Host.Outcome State Fault Refusal :=
  .next (if v.toNat.testBit 8 then regGate 0x00C08C (fuseCmd v) s else s)

/-- Words a programming writes: 1, or a block's 9. -/
def FuseJob.words : FuseJob → Nat
  | .word _ _ => 1
  | .block _ _ => 9

/-- The fuse map once a programming is complete: field words carry their CRC-8, blocks their CRC-32 (R483). -/
def fuseMade (s : State) : FuseJob → List Word
  | .word w v => lset s.acc.fuse w v
  | .block w l =>
    let b := (upto 8).flatMap fun i => leBytes 4 (l.getD i 0).toNat
    lset ((upto 8).foldl (fun f i => lset f (w + i) (l.getD i 0)) s.acc.fuse) (w + 8) (wordN (crc32 b))

/-- The programming completes, 10 ms for each word (R483). -/
def execAccFuseDone (s : State) : Host.Outcome State Fault Refusal :=
  match s.acc.job with
  | some j =>
    if floorTk (10 * j.words) ≤ since s s.acc.jobTk then
      .next (raise .fabric Cause.accFuseDone 0xFF { s with acc := { s.acc with job := none, fuse := fuseMade s j } })
    else .next s
  | none => .next s

/-- Fuse word w, being programmed, takes 32 free bits. -/
def freeFuse (w : Nat) (s : State) : State :=
  let r := freeBytes 4 s
  { r.2 with acc := { r.2.acc with fuse := lset r.2.acc.fuse w (wordN (leNat r.1)) } }

/-- A power loss during programming can leave the word or the block failing R482 (R483): what it holds is free (log entry 87). -/
def fuseTear (s : State) : State :=
  match s.acc.job with
  | some (.word w _) => freeFuse w { s with acc := { s.acc with job := none } }
  | some (.block w _) => forEach (upto 9) (fun i => freeFuse (w + i)) { s with acc := { s.acc with job := none } }
  | none => s

/-- What a power loss cuts short: a word write and a fuse programming. -/
def powerTear (s : State) : State := fuseTear (nvmTear s)

/-- ACC_SVC written with STAGE_OP (R484): it takes effect in SERVICE; enabling it starts every g_eff at 0 (R226), and
SEN follows (R39). -/
def setStageOp (b : Bool) (s : State) : State :=
  let s1 := if b && !s.acc.stageOp then zeroGrants s else s
  updateSens { s1 with acc := { s1.acc with stageOp := b } }

/-- A write of ACC_SVC: RWS. -/
def writeAccSvc (b : Bool) (s : State) : State :=
  if s.mode = .service then setStageOp b s else raiseReg Cause.regWriteLocked 0x00C088 s

def execStageOperationEnable (_p : Path) (s : State) : Host.Outcome State Fault Refusal :=
  .next (regGate 0x00C088 (writeAccSvc true) s)

end Sys2Proof.Machine
end

