-- ==== Sys2Proof/Machine/Supply.lean ====
section
/-!
DEFINITION. The supply sequencer and supervisor: power-up and power-down (R386 to R391), the input and the timed
shutdowns (R392 to R394), push-button, requests and SEQ_CMD (R396, R397, R400), the reset outputs (R398), and the
device drain they share with the timebase (R261).
-/

namespace Sys2Proof.Machine

def modSeq (f : Seq → Seq) (s : State) : State := { s with seq := f s.seq }

/-! ### The device drain (R261) -/

/-- Active states of R136. -/
def ChSt.active : ChSt → Bool
  | .armed | .step | .paused | .tempWait | .hold => true
  | _ => false

/-- Channels a device drain takes: active or LOST. -/
def drainable (s : State) : List Nat := (upto 128).filter fun k => (s.getCh k).st.active || (s.getCh k).st == .lost

/-- Start a device drain at the next launch tick, or at tick `from_` for a timed command. -/
def startDrain (goal : DrainGoal) (from_ lim : Nat) (entry : Option Nat) (s : State) : State :=
  { s with tb := { s.tb with drain := some { goal := goal, from_ := from_, lim := lim, entry := entry } } }

/-- Limit of a drain a host request makes, ms: TB_DRAIN.DEF_MS. -/
def defDrainMs (s : State) : Nat := cfgF s 0x00201C 0 16

/-- A host's drain: from the next launch tick, with the default limit. -/
def hostDrain (goal : DrainGoal) (s : State) : State := startDrain goal (s.tb.run + 1) (defDrainMs s) none s

/-! ### Power-up (R387, R390) -/

/-- Enable a slot. -/
def railOn (r : Nat) (s : State) : State :=
  modRail r (fun x => { x with en := true }) (modSeq (fun q => { q with slot := r }) s)

/-- Disable a slot: it is no longer good. VIO's loss makes PWM high-impedance (R38). -/
def railOff (r : Nat) (s : State) : State :=
  let t := modRail r (fun x => { x with en := false, good := false }) (modSeq (fun q => { q with slot := r }) s)
  if r = 1 then forEach (upto 128) (modPh · fun p => { p with pwm := .hiZ, onTime := false }) t else t

/-- Raise a sequencer cause with the slot as its argument. -/
def raiseSlot (cause r : Nat) (s : State) : State := raiseA .supervisor cause 0xFF r s

/-- Where a power-down or reversal ends. -/
def downDone (s0 : State) : State :=
  let s := powerTear s0
  let s1 := { s with nvm := { s.nvm with lock := false, commit := none, queue := [], busy := none }, saf := { s.saf with safeN := true, keepAlive := false } }
  let q := s1.seq
  let finish (m : Mode) (f : Seq → Seq) : State := { s1 with mode := m, seq := f { q with goal := none, pfw := false, slot := 0 } }
  match q.goal with
  | some .ship => finish .ship fun x => { x with st := if x.onLatched || s.rtc.wakePend then .restartWait else .off, shipLatch := true }
  | some .reboot => finish .ship fun x => { x with st := .restartWait, shipLatch := false }
  | some .retry =>
    if 3 ≤ q.fails then
      finish .ship fun x => { x with st := .off, shipLatch := false, lastDown := 6, fails := 0, lockout := true }
    else finish s1.mode fun x => { x with st := .restartWait }
  | _ => finish .backup fun x => { x with st := .restartWait, vinOk := false }

/-- Go on with a power-down or reversal below slot r: the next enabled slot is disabled, or it is done (R388). -/
def downBelow (r : Nat) (s : State) : State :=
  match ((upto r).reverse).find? fun i => (s.getRail i).en with
  | some i => railOff i s
  | none => downDone s

/-- A failed attempt or a request reverses the power-up: the ramping slot is disabled at once and the slots below it
are powered down (R390). -/
def reverse (goal : DownGoal) (s : State) : State :=
  let r := s.seq.slot
  let ramping := (s.getRail r).en && !(s.getRail r).good
  let s1 := modSeq (fun q => { q with st := .reverse, goal := some goal, restExit := none }) s
  if ramping then downBelow r (railOff r s1) else downBelow (r + 1) s1

/-- A failed attempt (R387, R390). -/
def failedAttempt (s : State) : State := reverse .retry (modSeq (fun q => { q with fails := q.fails + 1 }) s)

/-- Enable slot r, or find that it has not fallen: RAIL_STUCK, and the attempt fails (R387). -/
def enableSlot (r : Nat) (fallen : Bool) (s : State) : State :=
  if fallen then railOn r s
  else failedAttempt (raiseSlot Cause.railStuck r (modRail r (fun x => { x with stuck := incSat 8 x.stuck }) (modSeq (fun q => { q with slot := r - 1 }) s)))

/-- An on request powers the device up from slot 0 (R396). -/
def powerUp (fallen : Bool) (s : State) : State :=
  let s1 := modSeq (fun q => { q with st := .up, slot := 0, onLatched := false, goal := none, lockout := false,
                                      shipLatch := false, lastDown := q.lastDown }) s
  if fallen then railOn 0 s1
  else
    let s2 := raiseSlot Cause.railStuck 0 (modRail 0 (fun x => { x with stuck := incSat 8 x.stuck }) s1)
    downDone (modSeq (fun q => { q with fails := q.fails + 1, goal := some .retry }) s2)

/-- On request in SHIP or BACKUP, or latched during a power-down (R396, R397). -/
def onRequest (fallen : Bool) (s : State) : State :=
  match s.seq.st with
  | .off => if s.seq.vinOk && !s.mode.up then powerUp fallen s else s
  | .down | .reverse | .restartWait =>
    if s.seq.restEntry then s
    else raise .supervisor Cause.seqOnLatched 0xFF (modSeq (fun q => { q with onLatched := true }) s)
  | _ => s

/-- Everything outside the backup domain returns to its reset values at t1 (R356); pins, the store's array, the
fuses, and the events of the backup domain and the supervisor remain. An oscillator failure found while no access path
existed is raised (R407). -/
def coldStart (s : State) : State :=
  let r : State := {}
  let t : State := { r with
    mode := .load, seq := s.seq, rtc := { s.rtc with oscEv := false }, regs := s.regs.filter (fun x => inBackup x.1)
    nvm := { mem := s.nvm.mem, bad := s.nvm.bad, weak := s.nvm.weak }
    acc := { fuse := s.acc.fuse }
    fab := { events := s.fab.events.filter fun e => e.prod == .backup || e.prod == .supervisor }
    gal := s.gal.map fun g => { sflt := g.sflt }
    twi := { addrPins := s.twi.addrPins, addr := s.twi.addrPins }
    ph := Vector.replicate 128 { pwm := .mid }
    out := s.out, free := s.free, pending := s.pending }
  if s.rtc.oscEv then raise .backup Cause.rtcOscFail 0xFF t else t

/-- Slot 7 is good: t1 of a power-up (R356, R387), or the end of a REST exit (R391). A SAFE entry that came meanwhile overrides
the exit (R2), and the passes of REST are aborted with it (R106). -/
def powerUpDone (s : State) : State :=
  let q := { s.seq with st := .on, slot := 0, fails := 0, restExit := none, rst1 := true }
  match s.seq.restExit with
  | some m => updateSens (if m = .safe then { s with seq := q } else goMode m (abortAll { s with seq := q }))
  | none => coldStart { s with seq := q }

/-- A rail slot has been good for 200 us (R387); one that had left its window is good again (R386). -/
def execRailGood (r : Fin 8) (nextFallen : Bool) (s : State) : Host.Outcome State Fault Refusal :=
  let x := s.getRail r
  if s.seq.st = .up ∧ s.seq.slot = r ∧ x.en = true ∧ x.good = false then
    let s1 := modRail r (fun x => { x with good := true }) s
    let s2 := if r.val = 1 then
        modSeq (fun q => { q with rst0 := true }) (forEach (upto 128) (modPh · fun p => { p with pwm := .mid }) s1)
      else if r.val = 2 then { s1 with fab := { s1.fab with code := 128 } } else s1
    .next (if r.val = 7 then powerUpDone s2
      else if s2.seq.restExit.isSome && !nextFallen then
        (let s3 := raiseSlot Cause.railStuck (r.val + 1) (modRail (r.val + 1) (fun x => { x with stuck := incSat 8 x.stuck }) s2)
         powerUpDone (forEach [4, 5, 6, 7] (decideGal · Cause.safSupply) s3))
      else enableSlot (r.val + 1) nextFallen s2)
  else if s.seq.st = .on ∧ x.en = true ∧ x.good = false then
    .next (updateSens (modRail r (fun x => { x with good := true })
      (if r.val = 4 ∨ r.val = 5 then { s with saf := { s.saf with devBadTk := s.tb.run } } else s)))
  else .next s

/-- Galleries a drive rail feeds. -/
def galsOfRail (r : Nat) : List Nat := if r = 6 then [0, 1, 2, 3] else if r = 7 then [4, 5, 6, 7] else []

/-- A slot is not good within T_RISE_MS: the power-up reverses; on a REST exit the rail is disabled and its
galleries are held in safe state (R387, R391). -/
def execRailNorise (r : Fin 8) (s : State) : Host.Outcome State Fault Refusal :=
  let x := s.getRail r
  if s.seq.st = .up ∧ s.seq.slot = r ∧ x.en = true ∧ x.good = false then
    let s1 := raiseSlot Cause.railNorise r (modRail r (fun x => { x with noRise := incSat 8 x.noRise }) s)
    if s.seq.restExit.isSome then
      let s2 := forEach (galsOfRail r) (decideGal · Cause.safSupply) (railOff r s1)
      .next (if r.val = 6 then railOn 7 s2 else powerUpDone s2)
    else .next (failedAttempt s1)
  else .next s

/-- t_OFF_MIN has passed since a power-down or reversal ended (R390, R393, R396). -/
def execPowerUpRetry (fallen : Bool) (s : State) : Host.Outcome State Fault Refusal :=
  if s.seq.st = .restartWait then
    let s0 := { s with rtc := { s.rtc with wakePend := s.rtc.wakePend && s.mode != .ship } }
    if s.seq.vinOk then
      if s.mode = .backup ∧ s.seq.shipLatch = true ∧ s.seq.onLatched = false then
        .next { s0 with mode := .ship, seq := { s.seq with st := .off } }
      else .next (powerUp fallen s0)
    else .next { s with seq := { s.seq with st := .off } }
  else .next s

/-! ### Power-down (R388) -/

/-- SEN of every gallery goes off, then the highest enabled slot is disabled. -/
def beginDown (s : State) : State :=
  let g := s.seq.wait
  let s1 := forEach (upto 8) (fun g t => modGal g (fun x => { x with sen := false, awake := false }) t)
    (forEach (upto 128) (midPhase .off) s)
  downBelow 8 (modSeq (fun q => { q with st := .down, goal := g, wait := none, restEntry := false, restExit := none, pfwTk := none }) s1)

/-- Slot r has fallen, or T_FALL_MS has passed: the next lower slot is disabled (R388); a REST entry ends below slot
6 (R391), and SAFE, entered meanwhile, has the drive rails up. -/
def slotDown (r : Nat) (s : State) : State :=
  if s.seq.restEntry then
    if r = 7 ∧ (s.getRail 6).en = true then railOff 6 s
    else
      let t := modSeq (fun q => { q with st := .on, slot := 0, restEntry := false }) s
      if s.mode = .safe then safeRails t else t
  else downBelow r s

/-- The slot being switched off. -/
def goingDown (s : State) (r : Nat) : Bool :=
  (s.seq.st == .down || s.seq.st == .reverse) && s.seq.slot == r && !(s.getRail r).en

def execRailFallen (r : Fin 8) (s : State) : Host.Outcome State Fault Refusal :=
  if goingDown s r then .next (slotDown r s) else .next s

def execRailFallTimeout (r : Fin 8) (s : State) : Host.Outcome State Fault Refusal :=
  if goingDown s r then
    .next (slotDown r (raiseSlot Cause.railStuck r (modRail r (fun x => { x with stuck := incSat 8 x.stuck }) s)))
  else .next s

/-- T_PFW_MS after the warning has passed (R393). -/
def pfwOver (s : State) : Bool :=
  match s.seq.pfwTk with
  | some t => decide (floorTk (cfgF s 0x001004 16 5) ≤ since s t)
  | none => true

/-- The moments a waiting shutdown waits for have come: the drain, T_PFW_MS, the commit set and BRAKE are over, and the queued
writes but after a long press (R393, R396). -/
def downReady (s : State) : Bool :=
  s.seq.wait.isSome && s.tb.drain.isNone && pfwOver s && s.nvm.commit.isNone
    && (s.seq.lastDown == 4 || (s.nvm.job.isNone && (s.nvm.queue.isEmpty || s.nvm.refused)))
    && (upto 128).all fun n => (s.getPh n).st != .brake

def execPowerDownStart (s : State) : Host.Outcome State Fault Refusal :=
  if downReady s then .next (beginDown s) else .next s

/-! ### The input (R392 to R394) -/

/-- VIN_AUX is valid: an on request in BACKUP with the ship latch clear, SHIP with the latch set (R392, R396). -/
def execVinAuxValid (mv : Nat) (fallen : Bool) (s : State) : Host.Outcome State Fault Refusal :=
  let s1 := modSeq (fun q => { q with vinOk := true, vin := mv % 2 ^ 16 }) s
  if s.mode = .backup ∧ s.seq.st = .off then
    if s.seq.shipLatch then
      let s2 := { s1 with mode := .ship }
      .next (if s.rtc.wakePend then powerUp fallen { s2 with rtc := { s2.rtc with wakePend := false } } else s2)
    else .next (powerUp fallen s1)
  else .next s1

/-- VIN_AUX is lost (R394): every enable off at once, latched requests discarded, BACKUP. -/
def execVinAuxLost (mv : Nat) (s : State) : Host.Outcome State Fault Refusal :=
  let s1 := powerTear (forEach (upto 8) (fun r t => modRail r (fun x => { x with en := false, good := false }) t) s)
  let s2 := forEach (upto 128) (modPh · fun p => { p with pwm := .hiZ, onTime := false, st := .off }) s1
  let s3 := forEach (upto 128) (modCh · fun c => { c with disc := false, discOpening := false, discWant := false }) s2
  let s4 := forEach (upto 8) (modGal · fun g => { g with sen := false, awake := false }) s3
  let s5 := modSeq (fun q => { q with st := .off, slot := 0, onLatched := false, vinOk := false, vin := mv % 2 ^ 16, pfw := false, pfwTk := none, wait := none,
                                      goal := none, restExit := none, restEntry := false, force := false, lockout := false,
                                      fails := 0, lastDown := 5, nVin := incSat 8 q.nVin, rst0 := false, rst1 := false }) s4
  let s6 := { s5 with mode := .backup, saf := { s5.saf with safeN := true, keepAlive := false }, tb := { s5.tb with drain := none },
                      nvm := { s5.nvm with lock := false, commit := none, queue := [], busy := none } }
  .next (raise .supervisor Cause.seqVinLost 0xFF s6)

/-- Steps 2 to 4 of a timed shutdown (R393): the commit set, and every active or LOST channel forced at the next
launch tick; power-down waits for its moments. -/
def timedShutdown (goal : DownGoal) (down : Nat) (s : State) : State :=
  let s1 := nvmLock { s with tb := { s.tb with drain := none } }
  modSeq (fun q => { q with wait := some goal, force := true, lastDown := down }) s1

/-- A power-fail or long-press shutdown is in progress. -/
def shuttingDown (s : State) : Bool := s.seq.wait.isSome && s.nvm.lock

/-- The early power-fail warning (R392, R393, R397). -/
def execSeqPfw (mv : Nat) (s : State) : Host.Outcome State Fault Refusal :=
  if (s.getRail 0).en = false ∨ s.seq.pfw = true then .next s
  else
    let s1 := raise .supervisor Cause.seqPfw 0xFF (modSeq (fun q => { q with pfw := true, vin := mv % 2 ^ 16, nPfw := incSat 8 q.nPfw }) s)
    match s.seq.st with
    | .up => .next (reverse .backup (modSeq (fun q => { q with lastDown := 3 }) s1))
    | .on | .down =>
      if s.seq.st = .down ∧ s.seq.restEntry = false then
        .next (if s1.nvm.lock then s1 else nvmLock s1)
      else if shuttingDown s then .next s1
      else
        let goal := if s.seq.wait = some .ship then DownGoal.ship else .backup
        .next (modSeq (fun q => { q with pfwTk := some s.tb.run }) (timedShutdown goal 3 s1))
    | _ => .next s1

/-- An enabled slot leaves its window (R389, R339). While the sequencer moves the drive rails alone, for REST, the slots below 6 are in
no power-up or power-down. -/
def execRailWindowExit (r : Fin 8) (above : Bool) (s : State) : Host.Outcome State Fault Refusal :=
  let x := s.getRail r
  if (s.seq.st = .on ∨ (r.val < 6 ∧ (s.seq.restExit.isSome = true ∨ s.seq.restEntry = true))) ∧ x.en = true ∧ x.good = true then
    let s1 := modRail r (fun x => { x with good := false, uv := if above then x.uv else incSat 8 x.uv,
                                           ov := if above then incSat 8 x.ov else x.ov }) s
    if 6 ≤ r.val then .next (forEach (galsOfRail r) (decideGal · Cause.safSupply) s1)
    else if 4 ≤ r.val then .next (decideDev Cause.safSupply 0xFF false s1)
    else
      let s2 := if r.val = 0 then stopKeepAlive (setHist Cause.safSupply s1) else s1
      let s3 := forEach (upto 8) (decideGal · Cause.safSupply) s2
      let s4 := raise .supervisor Cause.seqBrownout 0xFF (modSeq (fun q => { q with nBrown := incSat 8 q.nBrown }) s3)
      .next (beginDown (timedShutdown .backup 7 s4))
  else .next s

/-! ### Requests (R396, R397, R400) -/

/-- A sequence is in progress, so a second request is discarded. -/
def sequenceRuns (s : State) : Bool := s.seq.st != .on || s.seq.wait.isSome || s.seq.restExit.isSome

def seqRefused (s : State) : State := raise .supervisor Cause.seqCmdRefused 0xFF s

/-- An orderly off or REBOOT: a drain as for a host request, then the queued store writes and the commit set
(R396); during a power-up, a reversal (R397). -/
def orderly (goal : DownGoal) (down : Nat) (s : State) : State :=
  if s.seq.st = .up ∧ s.seq.restExit = none ∧ goal = .ship then reverse .ship (modSeq (fun q => { q with lastDown := down }) s)
  else if sequenceRuns s then seqRefused s
  else hostDrain .off (modSeq (fun q => { q with wait := some goal, lastDown := down }) s)

def execPbShortPress (s : State) : Host.Outcome State Fault Refusal :=
  if s.mode = .ship ∨ (s.mode = .backup ∧ s.seq.st ≠ .up) ∨ cfgF s 0x001000 0 1 = 0 then .next s else .next (orderly .ship 1 s)

/-- PB_N held 50 ms in SHIP, or an on request during a power-down (R396, R397). -/
def execPbWake (fallen : Bool) (s : State) : Host.Outcome State Fault Refusal :=
  if cfgF s 0x001000 2 1 = 0 then .next s
  else if s.mode = .ship ∧ s.seq.st = .off then .next (onRequest fallen (modSeq (fun q => { q with shipLatch := false }) s))
  else .next (onRequest fallen s)

/-- PB_N held 8 s (R396, R397). With the rails off there is nothing to shut down: SHIP, the ship latch set; BACKUP while VIN_AUX is
not valid (R1). -/
def execPbLongPress (s : State) : Host.Outcome State Fault Refusal :=
  if cfgF s 0x001000 1 1 = 0 then .next s
  else
    let s1 := raise .supervisor Cause.seqPbLong 0xFF
      (modSeq (fun q => { q with nLong := incSat 8 q.nLong, onLatched := false, lastDown := 4 }) s)
    match s.seq.st with
    | .up => .next (reverse .ship (modSeq (fun q => { q with restExit := none }) s1))
    | .on => .next { (modSeq (fun q => { q with wait := some .ship, force := true }) s1) with tb := { s1.tb with drain := none } }
    | .off => .next { s1 with mode := if s1.seq.vinOk then .ship else s1.mode, seq := { s1.seq with shipLatch := true } }
    | .restartWait => .next { s1 with mode := .ship, seq := { s1.seq with st := .off, shipLatch := true } }
    | _ => .next (modSeq (fun q => { q with goal := some .ship, restEntry := false }) s1)

/-- A SEQ_CMD: it needs an access path, its KEY, and what the command asks for (R400, R524). -/
def seqCmdGate (key : Byte) (f : State → State) (s : State) : State :=
  regGate 0x00100C (fun t => if key ≠ 0x69 then seqRefused t else f t) s

def execSeqCmdOff (_p : Path) (key : Byte) (s : State) : Host.Outcome State Fault Refusal := .next (seqCmdGate key (orderly .ship 1) s)
def execSeqCmdReboot (_p : Path) (key : Byte) (s : State) : Host.Outcome State Fault Refusal :=
  .next (seqCmdGate key (orderly .reboot 2) s)

/-- RSTOUT0_N is driven low for RST0_MS (R398). -/
def hostReset (s : State) : State := modSeq (fun q => { q with rst0 := true }) s

def execSeqCmdHostrst (_p : Path) (key : Byte) (s : State) : Host.Outcome State Fault Refusal := .next (seqCmdGate key hostReset s)

/-- CLR_EVT in SERVICE clears the event counters (R399). -/
def clearEvt (s : State) : State :=
  if s.mode = .service then
    modSeq (fun q => { q with nPfw := 0, nVin := 0, nBrown := 0, nLong := 0 })
      (forEach (upto 8) (modRail · fun x => { x with noRise := 0, stuck := 0, uv := 0, ov := 0 }) s)
  else seqRefused s

def execSeqCmdClrEvt (_p : Path) (key : Byte) (s : State) : Host.Outcome State Fault Refusal := .next (seqCmdGate key clearEvt s)

/-- RST0_MS or RST1_MS expires (R398); SEN may follow (R39). -/
def execResetStretchEnd (which : Fin 2) (s : State) : Host.Outcome State Fault Refusal :=
  if which = 0 then .next (modSeq (fun q => { q with rst0 := false }) s)
  else .next (updateSens (modSeq (fun q => { q with rst1 := false }) s))

/-! ### REST (R391) -/

/-- The device, drained to REST, disables the drive rails. -/
def execRestEntry (s : State) : Host.Outcome State Fault Refusal :=
  if s.mode = .rest ∧ s.seq.st = .on ∧ s.seq.wait = none ∧ (s.getRail 7).en = true then
    .next (railOff 7 (modSeq (fun q => { q with st := .down, restEntry := true })
      (stopStreams (forEach (upto 8) (modGal · fun g => { g with sen := false, awake := false }) s))))
  else .next s

/-- REST is left for a mode: slots 6 and 7 are enabled in turn. -/
def exitRest (m : Mode) (fallen : Bool) (s : State) : State :=
  if s.mode = .rest ∧ s.seq.st = .on ∧ s.seq.wait = none then
    let s1 := modSeq (fun q => { q with st := .up, restExit := some m }) s
    if fallen then railOn 6 s1
    else
      let s2 := raiseSlot Cause.railStuck 6 (modRail 6 (fun x => { x with stuck := incSat 8 x.stuck }) s1)
      railOn 7 (forEach [0, 1, 2, 3] (decideGal · Cause.safSupply) s2)
  else s

def execRestExit (fallen : Bool) (s : State) : Host.Outcome State Fault Refusal := .next (exitRest .run fallen s)

end Sys2Proof.Machine
end

