-- ==== Sys2Proof/Machine/Thermal.lean ====
section
/-!
DEFINITION. The thermal monitor: die sensors (R432 to R435) and told cell temperatures (R436 to R439).
-/

namespace Sys2Proof.Machine

def thmWarn (s : State) : Int := cfgF s 0x003400 0 8 * 100
def thmDerate (s : State) : Int := cfgF s 0x003400 8 8 * 100
def thmDerPct (s : State) : Nat := cfgF s 0x003400 16 7
def thmStaleMs (s : State) : Nat := cfgF s 0x003404 0 14
def thmTrise (s : State) : Int := cfgF s 0x003404 16 10

/-- Source of a sensor's events: its gallery's, or the device's for sensors 8 and 9 (R447). -/
def dieSource (i : Nat) : Nat := if i < 8 then 128 + i else 136

/-- Raise a sensor's cause with the sensor as its argument (R526). -/
def raiseDie (cause i : Nat) (s : State) : State := raiseAt .fabric cause 0xFF (dieSource i) i s

/-- The die sensor of a gallery that rules use: sensor 9 while the gallery's own is broken (R432). -/
def dieOf (s : State) (g : Nat) : Die := let d := s.getDie g; if d.broken then s.getDie 9 else d

/-- Sensor i is at its shut limit or broken: the gallery's, or the device's safe state (R339, R435). -/
def dieShut (i : Nat) (s : State) : State :=
  if i < 8 then decideGal i Cause.safDieTemp s else decideDev Cause.safDieTemp 0xFF false s

/-- A reading is implausible (R435). -/
def implausible (d : Die) (t e1 e2 : Int) : Bool :=
  decide (t < -5500) || decide (17500 < t) || decide (800 < (e1 - e2).natAbs) || (d.ok && decide (2000 < (t - d.t).natAbs))

/-- A flag with 5 degC of hysteresis below its limit (R433). -/
def dieFlag (was : Bool) (t lim : Int) : Bool := if lim ≤ t then true else was && decide (lim - 500 < t)

/-- The reading 1 s earlier: the latest kept one at least 1 s old. -/
def dieBefore (s : State) (d : Die) : Option Int := (d.hist.find? fun x => decide (8192 ≤ since s x.1)).map (·.2)

/-- A plausible reading: the limits, the rate of rise and their events (R433). -/
def dieTake (i : Nat) (t : Int) (s : State) : State :=
  let d := s.getDie i
  let warn := dieFlag d.warn t (thmWarn s)
  let der := dieFlag d.derate t (thmDerate s)
  let shut := dieFlag d.shut t 13500
  let diff : Int := match dieBefore s d with | some x => t - x | none => 0
  let calm : Option Nat := if 250 < diff then none else if d.calmTk.isSome then d.calmTk else some s.tb.run
  let calmed := match calm with | some k => decide (8192 ≤ since s k) | none => false
  let rise := if 500 < diff then true else d.rise && !calmed
  let fast := decide (thmWarn s - 1000 ≤ t)
  let hist := (s.tb.run, t) :: d.hist.filter fun x => decide (since s x.1 ≤ 8192 + 1024)
  let s1 := modDie i (fun d => { d with t := t, ok := true, fast := fast, warn := warn, derate := der, shut := shut, rise := rise,
                                        impl := 0, hist := hist, calmTk := calm }) s
  let s2 := if warn && !d.warn then raiseDie Cause.thmWarn i s1 else s1
  let s3 := if der && !d.derate then raiseDie Cause.thmDerate i s2 else s2
  let s4 := if rise && !d.rise then raiseDie Cause.thmDieRise i s3 else s3
  let s5 := if (der || rise) && !(d.derate || d.rise) then { s4 with thm := { s4.thm with nDer := incSat 8 s4.thm.nDer } } else s4
  let s6 := if d.shut && !shut && decide (8 ≤ i) then { s5 with saf := { s5.saf with devBadTk := s.tb.run } } else s5
  if shut then dieShut i s6 else s6

/-- A reading of sensor i (R432, R435). Sensors read in LOAD, RUN, SAFE, SERVICE and REST. -/
def execDieSensorReading (i : Fin 10) (t e1 e2 : Int) (s : State) : Host.Outcome State Fault Refusal :=
  if s.mode.up = false then .next s
  else
    let d := s.getDie i
    if implausible d t e1 e2 then
      let s1 := { s with thm := { s.thm with nImpl := incSat 8 s.thm.nImpl } }
      let s2 := modDie i (fun d => { d with impl := satN (d.impl + 1) 3, broken := d.broken || decide (2 ≤ d.impl) }) s1
      if decide (2 ≤ d.impl) && !d.broken then .next (dieShut i (raiseDie Cause.thmBroken i s2)) else .next s2
    else .next (dieTake i t s)

/-- At DERATE for channel k: its gallery's sensor, or sensor 8 or 9, is at the limit or rising too fast (R433, R434). -/
def dieDerates (s : State) (k : Nat) : Bool :=
  [galOf k, 8, 9].any fun i => let d := s.getDie i; d.derate || d.rise

/-! ### Told temperatures (R436 to R439) -/

/-- The told temperature of channel k is older than TSTALE_MS, or there is none. -/
def toldOld (s : State) (k : Nat) : Bool :=
  match (s.getTold k).t with
  | none => true
  | some (_, take) => decide ((safStaleMs s : Int) * 8192 < ((s.tb.run : Int) - take) * 1000)

def toldHot (s : State) (k : Nat) : Bool :=
  match (s.getTold k).t with
  | none => false
  | some (t, _) => decide (safTmax s k ≤ t)

/-- The told temperature is younger than TSTALE_MS and below T_MAX, as a release asks (R343). -/
def toldInside (s : State) (k : Nat) : Bool :=
  match (s.getTold k).t with
  | some (t, take) => decide (((s.tb.run : Int) - take) * 1000 < (safStaleMs s : Int) * 8192) && decide (t < safTmax s k)
  | none => false

/-- Age of a channel's told temperature in ticks. -/
def toldAgeTk (s : State) (k : Nat) : Option Nat := (s.getTold k).t.map fun x => ((s.tb.run : Int) - x.2).toNat

/-- A told temperature is stale: its age exceeds TSTALE_MS, or the channel has never been told one (R437). -/
def toldStale (s : State) (k : Nat) : Bool :=
  match toldAgeTk s k with
  | some a => decide (thmStaleMs s * 8192 < a * 1000)
  | none => true

/-- A told temperature that was not stale has become so: THM_T_STALE and THM_CNT.STALE, once (R437). -/
def noteStale (k : Nat) (s : State) : State :=
  if toldStale s k && !(s.getTold k).stale then
    let s1 := modTold k (fun t => { t with stale := true }) s
    raise .fabric Cause.thmTStale k { s1 with thm := { s1.thm with nStale := incSat 8 s1.thm.nStale } }
  else s

/-- A told temperature ages past TSTALE_MS (R437). -/
def execThmTStale (k : Fin 128) (s : State) : Host.Outcome State Fault Refusal :=
  .next (if s.mode.up then noteStale k s else s)

/-- An accepted value takes the told value's place; `r`, `rise`: the reference and RISE it leaves (R436, R437). -/
def putTold (k : Nat) (t take : Int) (r : Option (Int × Int)) (rise : Bool) (s : State) : State :=
  let s1 := modTold k (fun y => { y with t := some (t, take), ref := r, rise := rise,
                                          badTk := if toldInside s k then y.badTk else some s.tb.run }) (noteStale k s)
  noteStale k (if toldStale s1 k then s1 else modTold k (fun y => { y with stale := false }) s1)

/-- A told value is accepted with its take time (R436, R438). The rate is compared with TRISE exactly. -/
def takeTold (k : Nat) (t take : Int) (s : State) : State :=
  let x := s.getTold k
  match x.ref with
  | none => putTold k t take (some (t, take)) x.rise s
  | some (t0, k0) =>
    if 250 * 8192 ≤ (take - k0) * 1000 then
      let lim := thmTrise s
      let up := decide (0 < lim) && decide (lim * (take - k0) < (t - t0) * 8192)
      let s1 := putTold k t take (some (t, take)) (if lim = 0 then x.rise else up) s
      if up && !x.rise then
        raise .fabric Cause.thmTRise k { s1 with thm := { s1.thm with nRise := incSat 8 s1.thm.nRise } }
      else s1
    else putTold k t take x.ref x.rise s

/-- The temperature steering rules read as above every threshold (R439). -/
def tempHigh (s : State) (k : Nat) : Bool := toldStale s k || (s.getTold k).rise

/-- The told temperature in force; none: it reads as above every threshold (R439). -/
def tempOf (s : State) (k : Nat) : Option Int := if tempHigh s k then none else (s.getTold k).t.map (·.1)

end Sys2Proof.Machine
end

