-- ==== Sys2Proof/Machine/Channel.lean ====
section
/-!
DEFINITION. The channel state machine: presence and DISC (R132), step closures (R320), pauses (R133), drains (R134),
the entries to IDLE, FAULT and LOST (R136, R138), current ranges (R91) and host commands (R135).
-/

namespace Sys2Proof.Machine

/-! ### Samples, presence, DISC -/

/-- v and i of the regulation path: uV and uA. -/
def vOf (s : State) (k : Nat) : Int := (s.getFe (regFe s k)).vs
def iOf (s : State) (k : Nat) : Int := (s.getFe (regFe s k)).icur

/-- A path's samples, newest first, with each stamp for which it was out of service replaced by the partner's sample of that
stamp. -/
def mergeSamples : List Samp → List Samp → List Samp
  | [], _ => []
  | a :: l, bs =>
    let rest := bs.dropWhile fun b => decide (a.run < b.run)
    (if a.out then (match rest with | b :: _ => if b.run = a.run then b else a | [] => a) else a) :: mergeSamples l rest

/-- The regulation samples of channel k (R46, R104): `len` of them, newest first, after the newest `skip`. -/
def regHist (s : State) (k skip len : Nat) : List Samp :=
  let h := ((s.getFe k).hist.drop skip).take len
  if native s k && h.any (fun x => x.out) then mergeSamples h (s.getFe (k + 1)).hist else h

/-- The regulation samples of channel k up to a stamp: `len` of them, newest first. -/
def regHistTo (s : State) (k last len : Nat) : List Samp :=
  regHist s k ((s.getFe k).hist.takeWhile fun x => decide (last < x.run)).length len

/-- The cell is present (R132). -/
def present (s : State) (k : Nat) : Bool :=
  let v := vOf s k
  !(s.getCh k).isOpen && decide (chVmin s k * 1000 ≤ v) && decide (v ≤ chVmax s k * 1000)

def toldAbsent (s : State) (k : Nat) : Bool := (s.getCh k).told == some false

/-- Every phase of the block is at mid and out of BRAKE. -/
def quietPhases (s : State) (k : Nat) : Bool :=
  (phasesOf s k).all fun n => !(s.getPh n).pwm.switching && (s.getPh n).st != .brake

/-- The conditions under which DISC closes (R132); a safe state holds it off (R331). -/
def discOk (s : State) (k : Nat) : Bool :=
  stageOn s && present s k && !toldAbsent s k && (s.getCh k).flt == 0 && quietPhases s k && !chSafe s k && s.saf.keepAlive

/-- A channel that asks for DISC closes it if every condition holds (R132). -/
def tryDisc (k : Nat) (s : State) : State :=
  let c := s.getCh k
  if c.discWant && !c.disc && discOk s k then modCh k (fun c => { c with disc := true, discTk := s.tb.run, discOpening := false }) s
  else s

/-- The channel asks for DISC. -/
def wantDisc (k : Nat) (s : State) : State := tryDisc k (modCh k (fun c => { c with discWant := true }) s)

/-! ### Current ranges (R91, R92) -/

/-- The smallest range whose 80 % covers a current bound in uA. -/
def autoRange (s : State) (k : Nat) (ib : Int) : Nat :=
  ([0, 1, 2].find? fun r => decide (5 * (ib.natAbs : Int) * rsh s k ≤ 4 * (8000000 * 2 ^ r) * 1000000)).getD 3

/-- Both paths of a channel take a range at a launch tick; the two samples that follow carry SETTLE, and a path out of service
takes it when it reconnects. -/
def setRange (k r : Nat) (s : State) : State :=
  forEach (frontEndsOf s k) (modFe · fun f =>
    if (match f.echo with | some p => decide (s.tb.run < p.start + 60) | none => false) || f.irng == r then { f with irngNext := r }
    else { f with irng := r, irngNext := r, irngOld := f.irng, settle := s.tb.run + 2 }) s

/-! ### Step time, charge, closure -/

/-- Step time at tick t (R147). -/
def stepTime (s : State) (k t : Nat) : Nat := let r := (s.getCh k).rcp; t - r.s - r.p - r.w

/-- Step charge up to the newest entry of the A path, uAh (R149). -/
def stepQ (s : State) (k : Nat) : Int := qUah s k (accDiff (s.getFe k).acc (s.getCh k).rcp.accStep)

/-- Recipe time at tick t. -/
def rcpTime (s : State) (k t : Nat) : Nat :=
  (s.getCh k).rcp.rtk + (if (s.getCh k).rcp.isOpen then stepTime s k t else 0)

/-- The argument of a step closure (R320). -/
def stepArg (s : State) (k next : Nat) : List Byte :=
  let r := (s.getCh k).rcp
  leBytes 4 (satN (stepTime s k s.tb.run) (2 ^ 32 - 1)) ++ leBytesI 8 (stepQ s k) ++ leBytesI 4 (vOf s k) ++ leBytesI 4 (iOf s k)
    ++ leBytes 1 r.recipe ++ leBytes 1 r.step ++ leBytes 1 next ++ [0]

/-- Charges of closed steps since arming (R212). -/
def addCharge (q : Int) (r : RcpRun) : RcpRun :=
  if 0 < q then { r with qChg := r.qChg + q } else { r with qDis := r.qDis - q }
def subCharge (q : Int) (r : RcpRun) : RcpRun :=
  if 0 < q then { r with qChg := r.qChg - q } else { r with qDis := r.qDis + q }

/-- The open step is closed with a cause: its event, recipe time, charges, LAST_END and CH_CAUSE. -/
def closeStep (k cause lastEnd next : Nat) (s : State) : State :=
  if !(s.getCh k).rcp.isOpen then s
  else
    let q := stepQ s k
    let st := stepTime s k s.tb.run
    let s1 := raiseSrc .fabric cause k k 1 (stepArg s k next) s
    let close (r : RcpRun) : RcpRun :=
      addCharge q { r with isOpen := false, rtk := r.rtk + st, lastEnd := lastEnd, wait := false, accClose := (s.getFe k).acc }
    modCh k (fun c => { c with cause := cause, rcp := close c.rcp }) s1

/-- Close the open step, or raise the cause where no step is open. -/
def closeOrRaise (k cause lastEnd : Nat) (s : State) : State :=
  if (s.getCh k).rcp.isOpen then closeStep k cause lastEnd 0xFF s
  else raise .fabric cause k (modCh k (fun c => { c with cause := cause }) s)

/-! ### Pauses (R133) -/

/-- PSRC of a channel. -/
def psMask (c : Channel) : Nat := b2n c.psHost + 2 * b2n c.psSump + 4 * b2n c.psEcho + 8 * b2n c.psRet

/-- A pause counted in CH_PAUSE_TK ends: its L record (R321). -/
def endPause (k : Nat) (s : State) : State :=
  let c := s.getCh k
  match c.pauseFrom with
  | none => s
  | some a =>
    pushLog 2 k (leBytes 4 a ++ leBytes 4 (satN (s.tb.run - a) (2 ^ 32 - 1)) ++ leBytes 1 c.psSeen ++ leBytes 1 c.rcp.recipe
      ++ leBytes 1 c.rcp.step ++ [0, 0, 0, 0, 0]) (modCh k (fun c => { c with pauseFrom := none, psSeen := 0 }) s)

/-- The sump pause of a channel ends: SUMP_PAUSE_END (R235); `how`: 0 cleared, 1 EXPIRE. -/
def clearSump (k how : Nat) (s : State) : State :=
  let c := s.getCh k
  if !c.psSump then s
  else
    let tk := satN (s.tb.run - c.sumpFrom.getD s.tb.run) (2 ^ 32 - 1)
    raiseSrc .timebase Cause.sumpPauseEnd k k 6 (leBytes 4 tk ++ leBytes 1 c.sumpStates ++ leBytes 1 how ++ [0, 0])
      (modCh k (fun c => { c with psSump := false, sumpFrom := none, sumpStates := 0 }) s)

/-- A state a pause source acts on. -/
def pausable (c : Channel) : Bool := (c.st == .step || c.st == .tempWait || c.st == .hold) && c.drain.isNone

/-- The sump pause source is set on a channel (R232). -/
def setSump (k ride : Nat) (s : State) : State :=
  modCh k (fun c => if c.psSump then { c with sumpStates := c.sumpStates ||| 2 ^ ride }
    else { c with psSump := true, sumpFrom := some (s.tb.run + 1), sumpStates := 2 ^ ride }) s

/-- PAUSED is entered at a launch tick. -/
def enterPaused (k : Nat) (s : State) : State :=
  modCh k (fun c => { c with left := c.st, st := .paused, pauseFrom := if c.pauseFrom.isSome then c.pauseFrom else some s.tb.run,
                             psSeen := c.psSeen ||| psMask c }) s

/-- The regulator restarts from zero demand: the command in force, or the one that waited for a reversal, as a change of
mode (R133). -/
def restartReg (r : Reg) : Reg :=
  { r with cmd := if r.pend.isSome then r.pend else r.cmd, restart := true, iDem := 0, pend := none, ramp := false, rev := false }

/-- A restart from zero demand: confirm counters and blanking start anew (R133, R153). -/
def restartCh (k : Nat) (s : State) : State :=
  let st := stepTime s k s.tb.run
  modCh k (fun c => { c with reg := restartReg c.reg, rcp := { c.rcp with conf := [0, 0, 0, 0], blank0 := st } }) s

/-- The channel returns from PAUSED to the state it left. -/
def leavePaused (k : Nat) (s : State) : State :=
  restartCh k (modCh k (fun c => { c with st := c.left }) (endPause k s))

/-! ### Estimator states that follow the channel (R196 to R198) -/

def estOff (k : Nat) (s : State) : State := modEst k (fun e => { e with st := .off }) s
def estWait (k : Nat) (s : State) : State :=
  modEst k (fun e => if e.model.isSome then { e with st := .wait } else e) s
def estFreeze (k : Nat) (s : State) : State := modEst k (fun e => if e.st = .off then e else { e with st := .frozen }) s
/-- A changed capacity record is to be queued (R203). -/
def estChanged (k : Nat) (s : State) : State := modEst k (fun e => { e with wbWait := e.wbWait || e.changed }) s

/-! ### State entries -/

/-- What ends with any departure from the active states and LOST. -/
def clearRun (k : Nat) (s : State) : State :=
  let s1 := clearSump k 0 (endPause k s)
  modCh k (fun c => { c with suspect := false, susOvr := false, test := none, lostNext := false, drain := none,
                             psHost := false, psEcho := false, psRet := false, toldLoss := false, qual := 0, eng := none, stage := none,
                             cmds := [], host := c.host.filter fun h => h != .pause && h != .resume,
                             reg := { gEff := c.reg.gEff }, lending := false,
                             rcp := { c.rcp with isOpen := false, topoff := false, wait := false, go := false, released := false,
                                                 holdHot := false, derate := false } }) s1

/-- PH_FLT.OPEN_LOAD clears when the channel leaves LOST (R54). -/
def clearOpenLoad (k : Nat) (s : State) : State :=
  forEach (phasesOf s k) (modPh · fun p => { p with flt := setBitN p.flt PhFlt.openLoad false }) s

/-- IDLE is entered: phases at mid, DISC off, and IRNG_DEF in the strike of a launch tick (R91, R131, R132). DESIGN CHOICE (log
entry 83): the spec does not say whether an open that R69 has not cleared stays in force once LOST is left for IDLE, where no test
repeats; it does, until the channel leaves IDLE for FAULT or DISABLED and comes back. -/
def toIdle (k : Nat) (s : State) : State :=
  let s0 := if (s.getCh k).st = .lost then clearOpenLoad k s else s
  modCh k (fun c => { c with st := .idle, isOpen := c.isOpen && c.st == .lost, defRange := true, rcp := { c.rcp with bound := false } })
    (safeChannel k (clearRun k s0))

/-- DISABLED is entered (R26, R198): latched flags are kept, and so is the current range (R91). -/
def toDisabled (k : Nat) (s : State) : State :=
  estOff k (modCh k (fun c => { c with st := .disabled, defRange := false }) (toIdle k s))

/-- The range of a channel that entered IDLE changes in the strike of a launch tick (R91). -/
def takeDefRange (k : Nat) (s : State) : State :=
  if (s.getCh k).defRange then setRange k (feIrngDef s k) (modCh k (fun c => { c with defRange := false }) s) else s

/-- FAULT is entered with a cause: the step is closed with it; a DISABLE in progress completes (R134, R136). -/
def toFault (k cause : Nat) (s : State) : State :=
  let disabling := (s.getCh k).drain == some .disable
  let s1 := closeStep k cause 7 0xFF s
  let s2 := safeChannel k (clearRun k s1)
  let s3 := modCh k (fun c => { c with st := .fault, fltNext := none, cause := cause, flt := cause,
                                       rcp := { c.rcp with bound := false } }) s2
  if disabling then toDisabled k s3 else s3

/-- LOST is entered at a launch tick: after a confirmation test, or because the fixture was told absent (R136, R138). -/
def toLost (k : Nat) (s : State) : State :=
  let c := s.getCh k
  let cause := if c.toldLoss then Cause.fixtureRemoved else Cause.cellLost
  let s1 := closeOrRaise k cause 7 s
  let s2 := safeChannel k s1
  estFreeze k (modCh k (fun c => { c with st := .lost, left := if c.st = .paused then c.left else c.st, lostNext := false, suspect := false,
                                          susOvr := false, test := none, qual := 0, eng := none, stage := none, cmds := [],
                                          declTk := if c.toldLoss && !c.suspect then s.tb.run else c.declTk,
                                          reg := { c.reg with iDem := 0 } }) s2)

/-! ### Drains (R134) -/

/-- A drain starts: the open step ends with the cause, and I_dem ramps to zero. -/
def drainCh (k : Nat) (kind : Drain) (cause : Nat) (s : State) : State :=
  let s1 := closeStep k cause 7 0xFF s
  modCh k (fun c => { c with drain := some kind, eng := none, cmds := [], discWant := false,
                             lending := false, reg := { c.reg with cmd := none, pend := none, ramp := false },
                             rcp := { c.rcp with topoff := false, wait := false, go := false } }) s1

/-- Once the ramp has reached zero the phases are at mid and DISC opens. -/
def drainTick (k : Nat) (s : State) : State :=
  let c := s.getCh k
  if c.drain.isSome && c.reg.iDem == 0 then openDisc k (if c.allMid then s else midChannel k s) else s

/-- Zero demand is forced on a channel (R261, R393). -/
def forceZero (k : Nat) (s : State) : State :=
  midChannel k (modCh k (fun c => { c with stage := none, reg := { c.reg with iDem := 0, cDem := 0, x := 0, cmd := none, pend := none, ramp := false } }) s)

/-- The quiescent point of a drain is reached (R134). -/
def quiescent (s : State) (k : Nat) : Bool :=
  let c := s.getCh k
  c.drain.isSome && c.reg.iDem == 0 && quietPhases s k && !c.disc

/-- The drain's transition completes; a changed capacity record is queued (R203). -/
def endDrain (k : Nat) (s : State) : State :=
  let s1 := estChanged k s
  match (s.getCh k).drain with
  | some .disable => toDisabled k s1
  | some _ => toIdle k s1
  | none => s

/-- CH_STAT.BUSY: from the request of a drain to its quiescent point (R134). -/
def chBusy (s : State) (k : Nat) : Bool :=
  let c := s.getCh k
  c.drain.isSome || c.host.contains .stop || c.host.contains .disable
    || (match s.tb.drain with | some d => decide (s.tb.run < d.from_) && (c.st.active || c.st == .lost) | none => false)

def execDrainQuiescent (k : Fin 128) (s : State) : Host.Outcome State Fault Refusal :=
  .next (if s.mode.up && quiescent s k then endDrain k s else s)

/-! ### Echo abort and SUSPECT (R66, R106, R136, R138) -/

def abortEchoes (k : Nat) (s : State) : State := forEach (frontEndsOf s k) abortEcho s

/-- An open-load declaration, or FE_V_OVR on the regulation path: phases at mid, DISC off, and in an active state
SUSPECT from the next launch tick with its confirmation test, which pre-empts Echo. -/
def declare (k : Nat) (ovr : Bool) (s : State) : State :=
  let c := s.getCh k
  if c.st.active && !c.suspect then
    let s1 := abortEchoes k (safeChannel k s)
    let s2 := modEst k (fun e => { e with decls := (s.tb.run + 1) :: e.decls }) s1
    modCh k (fun c => { c with suspect := true, susOvr := ovr, declTk := s.tb.run + 1, test := some {}, stage := none,
                               reg := { c.reg with iDem := 0, cDem := 0 } }) s2
  else s

/-! ### Host commands (R135, R136) -/

def refuseCmd (k : Nat) (s : State) : State := raise .fabric Cause.chCmdRefused k s

/-- STOP, PAUSE, RESUME, DISABLE and ENABLE have a row for the present state. -/
def cmdHasRow (s : State) (k : Nat) (c : ChCmd) : Bool :=
  let x := s.getCh k
  match c with
  | .stop => (x.st.active || x.st == .lost) && x.drain.isNone
  | .pause => pausable x
  | .resume => x.st == .paused && x.drain.isNone
  | .disable => x.st != .disabled
  | .enable => x.st == .disabled && populated s k
  | .clearFault => x.st == .fault

/-- A write to a slot that is not declared or not populated is discarded with CH_ABSENT (R26). -/
def chGate (_p : Path) (k addr : Nat) (f : State → State) (s : State) : State :=
  regGate addr (fun t => if !populated t k then raiseA .fabric Cause.chAbsent k addr t else f t) s

/-- A command is taken for the next launch tick, or refused (R135). -/
def queueCmd (k : Nat) (c : ChCmd) (s : State) : State :=
  if cmdHasRow s k c then modCh k (fun x => { x with host := x.host ++ [c] }) s else refuseCmd k s

def chCmd (p : Path) (k : Nat) (c : ChCmd) (s : State) : State := chGate p k (Addr.ch k 8) (queueCmd k c) s

def execChCmdStop (p : Path) (k : Fin 128) (s : State) : Host.Outcome State Fault Refusal := .next (chCmd p k .stop s)
def execChCmdPause (p : Path) (k : Fin 128) (s : State) : Host.Outcome State Fault Refusal := .next (chCmd p k .pause s)
def execChCmdResume (p : Path) (k : Fin 128) (s : State) : Host.Outcome State Fault Refusal := .next (chCmd p k .resume s)
def execChCmdDisable (p : Path) (k : Fin 128) (s : State) : Host.Outcome State Fault Refusal := .next (chCmd p k .disable s)
def execChCmdEnable (p : Path) (k : Fin 128) (s : State) : Host.Outcome State Fault Refusal := .next (chCmd p k .enable s)

/-! ### CLEAR_FAULT (R137, R343) -/

/-- Causes for which R343's class C conditions hold in addition to R137: those of R54 and those the island detects. -/
def classC (cause : Nat) : Bool :=
  cause == Cause.phOcfLatch || cause == Cause.phOcsTrip || cause == Cause.phBrakeStuck || cause == Cause.phImonRange
    || cause == Cause.feAbMismatchV || cause == Cause.feAbMismatchI || cause == Cause.feCmpOv || cause == Cause.feCmpUv
    || decide (0x0B00 ≤ cause ∧ cause < 0x0C00)

/-- The cause's quantity is inside its limit now, and nothing was beyond it for the last 100 ms (R343). -/
def insideLimit (s : State) (k cause : Nat) : Bool :=
  let fes := frontEndsOf s k
  let calm := fes.all fun n => match (s.getFe n).badTk with | some t => decide (msTk 100 ≤ since s t) | none => true
  let ph := phasesOf s k
  let calmPh := ph.all fun n => match alFind cause (s.getPh n).bad with | some t => decide (msTk 100 ≤ since s t) | none => true
  if !calmPh then false
  else if cause = Cause.phOcfLatch then ph.all fun n => !(s.getPh n).limNow && decide ((s.getPh n).imon < phOcfChg s n) && decide (-(phOcfDis s n) < (s.getPh n).imon)
  else if cause = Cause.phOcsTrip then ph.all fun n => decide (((s.getPh n).imon.natAbs : Int) < phOcsThr s n)
  else if cause = Cause.phBrakeStuck then ph.all fun n => (s.getPh n).st != .brake
  else if cause = Cause.phImonRange then ph.all fun n => imonInRange (s.getPh n).imonCode
  else if cause = Cause.safTmax ∨ cause = Cause.safTstale then
    toldInside s k && (match (s.getTold k).badTk with | some t => decide (msTk 100 ≤ since s t) | none => true)
  else if cause = Cause.safGallery then true
  else calm && fes.all fun n => let f := s.getFe n; !f.cmpOv && !f.cmpUv && f.nVmax == 0 && f.nVmin == 0 && f.nImax == 0 && f.abV == 0 && f.abI == 0

/-- A fault condition of the channel is still present. -/
def conditionPresent (s : State) (k : Nat) : Bool :=
  (frontEndsOf s k).any fun n => let f := s.getFe n; f.flt &&& 0x78 != 0 || decide (3 ≤ f.parRun)

/-- What stands against CLEAR_FAULT; for SAF_CMP_TEST the retest decides (R343). -/
def clearOk (s : State) (k : Nat) : Bool :=
  let c := s.getCh k
  c.st == .fault && !conditionPresent s k && (s.getGal (galOf k)).safe.isNone && s.saf.dev.isNone
    && (phasesOf s k).all (fun n => (s.getPh n).st != .brake)
    && (match c.safe with
        | some x => classC x && insideLimit s k x
        | none => true)
    && (!classC c.flt || insideLimit s k c.flt)

/-- The fault is released: IDLE, latched PH_FLT and FE_FLT bits and the channel safe state clear (R54, R119, R136). -/
def clearFault (k : Nat) (s : State) : State :=
  let s1 := forEach (phasesOf s k) (modPh · fun p => { p with flt := 0, st := if p.st = .fault then .idle else p.st, cut := false, ocfRun := 0, satRun := 0, olRun := 0 }) s
  let s2 := forEach (frontEndsOf s k) (modFe · fun f => { f with flt := f.flt &&& 0x2F8, parRun := 0, abV := 0, abI := 0 }) s1
  toIdle k (modCh k (fun c => { c with safe := none, flt := 0, fltNext := none, det := none }) s2)

/-- CLEAR_FAULT acts at a launch tick. A SAF_CMP_TEST starts a retest instead, and the clear acts at its end. -/
def actClear (k : Nat) (s : State) : State :=
  if !clearOk s k then refuseCmd k s
  else if (s.getCh k).safe = some Cause.safCmpTest then
    forEach (frontEndsOf s k) (modFe · fun f => { f with cmpTest := some false, cmpRetest := true }) s
  else clearFault k s

/-- CLEAR_FAULT is taken for the next launch tick, or refused. -/
def clearCmd (k : Nat) (s : State) : State :=
  if clearOk s k then modCh k (fun x => { x with host := x.host ++ [.clearFault] }) s else refuseCmd k s

def execChCmdClearFault (p : Path) (k : Fin 128) (s : State) : Host.Outcome State Fault Refusal :=
  .next (chGate p k (Addr.ch k 8) (clearCmd k) s)

/-- A host command acts at a launch tick; one with no row any more is refused. -/
def actCmd (k : Nat) (c : ChCmd) (s : State) : State :=
  if !cmdHasRow s k c then refuseCmd k s
  else
    match c with
    | .stop => drainCh k .stop Cause.abortedHost s
    | .pause => modCh k (fun x => { x with psHost := true }) s
    | .resume => modCh k (fun x => { x with psHost := false }) s
    | .disable => drainCh k .disable Cause.abortedDisable s
    | .clearFault => actClear k s
    | .enable =>
      modCh k (fun x => { x with st := if x.flt ≠ 0 then .fault else .idle, defRange := x.flt == 0 }) (estWait k s)

end Sys2Proof.Machine
end

