-- ==== Sys2Proof/Machine/Front.lean ====
section
/-!
DEFINITION. The front ends: base samples with their flags, substitution and accumulation (R80 to R94, R110, R111,
R119), the decimator FIFO (R489), and writes of the calibration registers (R97).
-/

namespace Sys2Proof.Machine

/-! ### Values -/

/-- FE_CFG.PWR says that a front end runs. -/
def fePowered (s : State) (n : Nat) : Bool := (s.getFe n).pwr != 0

/-- The partner path of front end n in a native channel (R18). -/
def partner (s : State) (n : Nat) : Option Nat :=
  let k := chanOr s n
  if native s k then (if n = k then some (k + 1) else if n = k + 1 then some k else none) else none

/-- Saturation of the modulators, and the linear ranges (R80, R81). -/
def satV (x : Int) : Int := clampI x (-700000) 6400000
def satIcode (x : Int) : Int := clampI x (-8320000) 8320000
def overV (x : Int) : Bool := decide (x < -500000) || decide (6000000 < x)
def overI (x : Int) : Bool := decide (x < -8000000) || decide (8000000 < x)

/-- The temperature calibration uses: the gallery's sensor (R95, R432). -/
def calTemp (s : State) (n : Nat) : Int := let d := dieOf s (galOf n); if d.ok then d.t else calTref s n

/-- The range a path's own sample of the present tick is scaled in: that of the Echo pass up to its 60th tick, and on the tick of
a change the range before it (R92, R102). -/
def ownRange (s : State) (n : Nat) : Nat :=
  let f := s.getFe n
  let r := if f.settle = s.tb.run + 2 then f.irngOld else f.irng
  match f.echo with
  | some p => if p.start < s.tb.run ∧ s.tb.run ≤ p.start + 60 then p.irng else r
  | none => r

/-- What a path's own conversion gives: V in uV, I in nV, with its over-range indications. -/
def ownValue (s : State) (n : Nat) (codeV codeI : Int) : Int × Int × Bool × Bool :=
  (calV s n (calTemp s n) (satV codeV), calI s n (ownRange s n) (calTemp s n) (satIcode codeI), overV codeV, overI codeI)

/-- What replaces a path's own conversion (R111): the partner's sample of the same stamp if it is its own, and the
previous sample otherwise; V, I and flags, V and I over range, and whether the ACC entry is from an OVR sample. -/
def substValue (s : State) (n : Nat) : (Int × Int × Nat) × Bool × Bool × Bool :=
  let old : (Int × Int × Nat) × Bool × Bool × Bool :=
    match (s.getFe n).hist with
    | x :: _ => ((x.v, x.i, x.fl), x.vO, x.iO, false)
    | [] => ((0, (s.getFe n).accLast, 0), false, false, false)
  match partner s n with
  | some m =>
    match (s.getFe m).hist with
    | x :: _ => if x.run = s.tb.run ∧ bitN x.fl 2 = false then ((x.v, x.i, x.fl), x.vO, x.iO, bitN x.fl 0) else old
    | [] => old
  | none => old

/-- The sample of the present tick carries SETTLE: on the two ticks after a range change, and on the four after a reconnection
(R92, R102, R106). -/
def settling (s : State) (n : Nat) : Bool :=
  let f := s.getFe n
  inSpan s.tb.run f.settle 2 || inSpan s.tb.run f.reconn 4
    || (match f.echo with | some p => decide (p.start + 60 < s.tb.run) | none => false)

/-- The present tick is one of the three that follow a line-time step (R88). -/
def stepping (s : State) (n : Nat) : Bool := inSpan s.tb.run (s.getFe n).stepSub 3

/-- The sample of the present tick is not the path's own: Echo, the reconnection of a native path, or a line-time step (R88,
R102, R104, R106). -/
def replaced (s : State) (n : Nat) : Bool := echoOut s n (partner s n).isSome || stepping s n

/-! ### Over-range runs (R119) -/

/-- The next run count: SUBST holds it. -/
def nextRun (run : Nat) (hold over_ : Bool) : Nat := if hold then run else if over_ then satN (run + 1) 8 else 0

/-- The regulator of a channel runs (R131): in STEP, in a HOLD that drives, and while a drain ramps it down. -/
def regRuns (c : Channel) : Bool :=
  !c.suspect && (if c.drain.isSome then c.reg.iDem != 0 else c.st == .step || (c.st == .hold && c.reg.cmd.isSome))

/-- A fault of the fabric's own detection: the channel is to enter FAULT at the next launch tick (R136). -/
def faultNext (k cause : Nat) (s : State) : State :=
  modCh k (fun c => if c.fltNext.isSome || c.st == .disabled || c.st == .fault then c else { c with fltNext := some cause }) s

/-- FE_FLT bit b follows a condition; FE_FLT_HIST keeps it. DESIGN CHOICE (log entry 83): the spec does not say whether a history
bit that was cleared while its condition stands is set again: V_OVR and I_OVR are set by the next sample, CMP_OV, CMP_UV and
ECHO_OVERDUE by a new occurrence. -/
def feCond (n b : Nat) (on : Bool) (s : State) : State :=
  modFe n (fun f => { f with flt := setBitN f.flt b on, fltHist := if on then setBitN f.fltHist b true else f.fltHist }) s

/-- The runs behind V_OVR and I_OVR take the sample of the present tick. I_OVR is a fault of the channel once eight samples in a
row were over range while the regulator ran (R136). -/
def overRuns (n : Nat) (subst vO iO : Bool) (s : State) : State :=
  let k := chanOr s n
  let f := s.getFe n
  let v := nextRun f.vRun (subst || regFe s k != n) vO
  let i := nextRun f.iRun subst iO
  let r := if regRuns (s.getCh k) then nextRun f.iReg subst iO else 0
  let s1 := feCond n 4 (i == 8) (feCond n 3 (v == 8) (modFe n (fun f => { f with vRun := v, iRun := i, iReg := r }) s))
  let s2 := if v = 8 ∧ f.vRun ≠ 8 then declare k true (raiseA .fabric Cause.feVOvr k n s1) else s1
  let s3 := if i = 8 ∧ f.iRun ≠ 8 then raiseA .fabric Cause.feIOvr k n s2 else s2
  if r = 8 then faultNext k Cause.feIOvr s3 else s3

/-! ### Taking a sample -/

/-- Samples a front end's ladder needs: the triangular output of 16,383, and the block that follows. -/
def histLen : Nat := 16640

/-- The sample of the present tick enters ACC, the registers, the ladder and the streams (R84, R110, R111, R118). -/
def takeSample (n : Nat) (v i : Int) (fl : Nat) (vO iO ovr encFault : Bool) (s : State) : State :=
  let f := s.getFe n
  let k := chanOr s n
  let subst := bitN fl 2
  let acc := signN 64 (wrapN 64 (f.acc + i))
  let x : Samp := { run := s.tb.run, sec := s.tb.sec, idx := tickIdx s, v := v, i := i, fl := fl, vO := vO, iO := iO, irng := ownRange s n, acc := acc,
                    out := echoOut s n (partner s n).isSome, sus := (s.getCh k).suspect }
  let s1 := modFe n (fun f => { f with vs := v, is := i, icur := satI 32 (iUa s n i), fl := fl, stk := s.tb.run, acc := acc, accLast := i,
                                       accSubst := if subst then incSat 32 f.accSubst else f.accSubst,
                                       accOvr := if ovr then incSat 32 f.accOvr else f.accOvr,
                                       hist := (x :: f.hist).take histLen }) s
  let s2 := if regFe s k = n then modCh k (fun c => { c with im := (s1.getFe n).icur, vm := v }) s1 else s1
  let s3 := blockTick n encFault (overRuns n subst vO iO s2)
  if n = k then fTick k s3 else s3

/-- Flags of the present sample of front end n. -/
def sampleFlags (s : State) (n base : Nat) (over_ subst : Bool) : Nat :=
  base ||| (b2n over_ + 2 * b2n (settling s n) + 4 * b2n subst + 8 * b2n ((s.getFe n).calSrc == 0))

/-- A sample that is replaced (R88, R94, R104, R111, R489). -/
def takeSubst (n : Nat) (encFault : Bool) (s : State) : State :=
  match substValue s n with
  | ((v, i, fl), vO, iO, ovr) =>
    takeSample n v i (sampleFlags s n (fl &&& 9) false true) vO iO ovr encFault (modFe n (fun f => { f with waitSub := none }) s)

/-- A front end's sample of the present tick has come, or is known to be replaced. -/
def sampleSeen (s : State) (n : Nat) : Bool :=
  (s.getFe n).waitSub.isSome || (match (s.getFe n).hist with | x :: _ => x.run == s.tb.run | [] => false)

/-- A sample to be replaced waits for the partner's of the same stamp (R104, R111); where the partner has none of its own, each
takes its previous one. -/
def substOrWait (n : Nat) (encFault : Bool) (s : State) : State :=
  match partner s n with
  | none => takeSubst n encFault s
  | some m =>
    if stepping s n then takeSubst n encFault s
    else match (s.getFe m).waitSub with
      | some e => takeSubst n encFault (takeSubst m e s)
      | none => if sampleSeen s m then takeSubst n encFault s else modFe n (fun f => { f with waitSub := some encFault }) s

/-- The partner's sample that waited for front end n's is taken. -/
def wakePartner (n : Nat) (s : State) : State :=
  match partner s n with
  | some m => (match (s.getFe m).waitSub with | some e => takeSubst m e s | none => s)
  | none => s

/-- A sample still waiting when its tick ends takes the previous one. -/
def flushWaiting (s : State) : State :=
  forEach ((upto 128).filter fun n => (s.getFe n).waitSub.isSome) (fun n t => takeSubst n ((s.getFe n).waitSub.getD false) t) s

/-- The window of an Echo pass a stamp falls into (R102). -/
def echoAdd (n : Nat) (v i : Int) (s : State) : State :=
  match (s.getFe n).echo with
  | none => s
  | some p =>
    let o := s.tb.run - p.start
    let p' : EchoPass :=
      if 5 ≤ o ∧ o ≤ 20 then { p with v0 := p.v0 + v, i0 := p.i0 + i }
      else if 25 ≤ o ∧ o ≤ 40 then { p with v1 := p.v1 + v, i1 := p.i1 + i }
      else if 45 ≤ o ∧ o ≤ 60 then { p with v2 := p.v2 + v, i2 := p.i2 + i }
      else p
    modFe n (fun f => { f with echo := some p' }) s

/-- The voltage a path reports open at: 200,000 uV above v0, or over range (R67). -/
def pathOpen (v0 v : Int) (vO : Bool) : Bool := decide (200000 ≤ v - v0) || vO

/-- A V sample of a powered front end enters the confirmation test of its channel: the first after the rise of the bias is v0, and
each later one may report the path open (R67). -/
def confirmSample (n : Nat) (v : Int) (vO : Bool) (s : State) : State :=
  let k := chanOr s n
  modCh k (fun c =>
    match c.test with
    | some t =>
      if !t.biased || decide (s.tb.run ≤ t.biasTk) then c
      else if n = k then
        { c with test := some (match t.v0a with
          | none => { t with v0a := some v }
          | some v0 => { t with openA := t.openA || pathOpen v0 v vO }) }
      else
        { c with test := some (match t.v0b with
          | none => { t with v0b := some v }
          | some v0 => { t with openB := t.openB || pathOpen v0 v vO }) }
    | none => c) s

/-- A word that fails parity is discarded; the third in a row makes the channel enter FAULT (R94). -/
def parityFail (n : Nat) (s : State) : State :=
  let k := chanOr s n
  let run := (s.getFe n).parRun + 1
  let s1 := feCond n 8 true (modFe n (fun f => { f with parRun := satN run 3 }) s)
  if run = 3 then faultNext k Cause.feParity (raiseA .fabric Cause.feParity k n s1) else s1

/-- A base sample of a front end that runs, at most one for a launch tick. -/
def feSample (n : Nat) (codeV codeI : Int) (parityOk encFault : Bool) (s : State) : State :=
  if !s.mode.up || !fePowered s n || sampleSeen s n then s
  else if !parityOk then substOrWait n encFault (parityFail n s)
  else
    let s1 := modFe n (fun f => { f with parRun := 0 }) s
    match ownValue s1 n codeV codeI with
    | (v, i, vO, iO) =>
      let s2 := echoAdd n v i s1
      if replaced s2 n then substOrWait n encFault s2
      else
        wakePartner n (confirmSample n v vO
          (takeSample n v i (sampleFlags s2 n 0 (vO || iO) false) vO iO (vO || iO) encFault s2))

/-- The sense bias a front end sources into VSP and sinks from VSN, nominal uA (R100): none while it is powered down, 100 in the
test of R67, 1 otherwise, in REST for the first 10 ms of each second of line time. -/
def senseBias (s : State) (n : Nat) : Nat :=
  if !fePowered s n then 0
  else if (match (s.getCh (chanOr s n)).test with | some t => t.biased | none => false) then 100
  else match s.mode with
    | .load | .run | .safe | .service => 1
    | .rest => if s.tb.frac * 100 < 2 ^ 32 then 1 else 0
    | .backup | .ship => 0

/-- A base sample of VSUMP_SNS (R90): its saturation is that of the pin. A sample below V_DROOP + HYST restarts the 5 ms
of RETURN and the 8 launch ticks of DROOP (R233). -/
def sumpSample (code : Int) (s : State) : State :=
  let s0 := { s with sump := { s.sump with pinUv := clampI code (-50000) 2600000 } }
  if vsumpUv s0 < (Sump.vDroop s + Sump.hyst s) * 1000 then { s0 with sump := { s0.sump with retOkTk := s.tb.run, busOkFrom := s0.sump.busOkFrom.map fun _ => s.tb.run } }
  else s0

/-- A base sample reaches the fabric (R82 to R94). -/
def execBaseSample (src : SampSrc) (codeV codeI : Int) (parityOk encFault : Bool) (s : State) : Host.Outcome State Fault Refusal :=
  match src with
  | .fe n => .next (feSample n codeV codeI parityOk encFault s)
  | .vsump => .next (if s.mode.up && parityOk then sumpSample codeV s else s)

/-- A full decimator FIFO drops the newest sample: it is replaced by R111 (R489). -/
def execFabFifoOvf (n : Fin 128) (s : State) : Host.Outcome State Fault Refusal :=
  if !s.mode.up || !fePowered s n then .next s
  else
    let s1 := raiseA .fabric Cause.fabFifoOvf 0xFF n { s with fab := { s.fab with nFifo := incSat 8 s.fab.nFifo } }
    .next (if sampleSeen s n then s1 else substOrWait n false s1)

/-! ### Calibration registers (R97) -/

/-- A front end of an FE_CAL_ address. -/
def calFe (a : Nat) : Nat := a % 0x040000 / 0x200

/-- A write of an FE_CAL_ register: RWS, in force from the next base sample. -/
def writeFeCal (a : Nat) (v : Word) (s : State) : State :=
  if s.mode = .service then modFe (calFe a) (fun f => { f with calSrc := if f.pwr = 0 then f.calSrc else 3, flt := setBitN f.flt 9 false }) (setCfg a v s)
  else raiseReg Cause.regWriteLocked a s

/-- The row of an FE_CAL_ address. -/
def isFeCal (a : Nat) : Bool := match findReg a with | some h => h.row.id == .feCal | none => false

def execFeCalWrite (_p : Path) (addr : Nat) (v : Word) (s : State) : Host.Outcome State Fault Refusal :=
  .next (if isFeCal addr then regGate addr (writeFeCal addr (if addr % 0x200 = 0x1C then v &&& 0xFFFF else v)) s else s)

end Sys2Proof.Machine
end

