-- ==== Sys2Proof/Machine/Phase.lean ====
section
/-!
DEFINITION. Phase control: constant on-time cycles (R43 to R48), on-time codes and demand DAC codes (R45, R49), limits
(R51 to R53), braking (R55, R56), the token (R58, R59), shedding (R60 to R62, R527), open load and its confirmation
(R65 to R69).
-/

namespace Sys2Proof.Machine

/-! ### Codes -/

/-- The switching period in units of 2^-30 s (R45). -/
def periodCode (fsw : Nat) : Nat := (2 ^ 30 + fsw * 500) / (fsw * 1000)

/-- The on-time code (R45). -/
def tonOf (dis : Bool) (vcell vsump : Int) (fsw : Nat) : Nat :=
  let vs := max vsump 8000000
  let numer := max (if dis then vs - vcell else vcell) 0
  let den := vs * fsw * 1000
  let ton := divT (numer * 2 ^ 30 + divT den 2) den
  (min (max ton 43) ((periodCode fsw : Int) - 86)).toNat

/-- t_ON_MAX (R47). -/
def tonMax (s : State) (n ton : Nat) : Nat := Nat.min (phTmax s n * ton) (periodCode (phFsw s n) - 86)

/-- t_OFF_MIN, and 40 ns, in units of 2^-30 s (R42). -/
def tOffMin : Nat := 86
def t40ns : Nat := 43

/-- The demand DAC code of a share (R49), nearest 12-bit code, halves away from zero. -/
def dacOf (s : State) (n : Nat) (dis : Bool) (share : Int) : Nat :=
  let k := chanOr s n
  let vcell := vOf s k
  let vs := vsumpUv s
  let dv : Int := if dis then vcell else vs - vcell
  let l : Int := phLout s n
  let ton : Int := (s.getPh n).tonCode
  let half : Int := ((16 : Int) + phGain s n) * dv * ton * 1000000000
  let i : Int := if dis then share * 32 * 2 ^ 30 * l + half else share * 32 * 2 ^ 30 * l - half
  let d : Int := 10000000 * 32 * 2 ^ 30 * l
  (clampI (rnd (((phVref s n : Int) * d + phKimon s n * i) * 4096) (d * 3000)) 0 4095).toNat

/-! ### Shares between launch ticks (R527) -/

/-- Put a share into force on a phase. -/
def setShare (n : Nat) (share : Int) (s : State) : State :=
  let code := dacOf s n (s.getPh n).dir share
  modPh n (fun p => { p with share := share, dac := code }) s

/-- Clamp a share to the stage rating (R129). -/
def clampShare (s : State) (n : Nat) (x : Int) : Int := clampI x (-(phIstg s n)) (phIstg s n)

/-- The struck demand shared across the active phases; the first takes the remainder. -/
def shareEqual (k : Nat) (s : State) : State :=
  let c := s.getCh k
  let n : Int := c.active.length
  if n = 0 then s
  else
    let base := divT c.reg.iDem n
    let rem := c.reg.iDem - base * n
    (upto c.active.length).foldl (fun t j =>
      let o := c.active.getD j 0
      setShare (k + o) (clampShare t (k + o) (base + (if j = 0 then rem else 0) + (t.getPh (k + o)).bal)) t) s

/-- The phase that sheds, as an offset. -/
def shedding (s : State) (k : Nat) : Option Nat := (s.getCh k).active.find? fun o => decide (0 < (s.getPh (k + o)).shedStep)

/-- One cycle of a shed ramp: the share of the shedding phase after `step` cycles; the others take up equally what it leaves of
its struck share (R61, R527), the first of them the remainder of the division. -/
def rampShares (k o step : Nat) (s : State) : State :=
  let p := s.getPh (k + o)
  let mine := rnd (p.shedFrom * (8 - step : Nat)) 8
  let s1 := modPh (k + o) (fun p => { p with shedStep := step }) (setShare (k + o) mine s)
  let others := (s.getCh k).active.filter (· != o)
  let n : Int := others.length
  let more := divT (p.dem - mine) n
  forEach others (fun j t =>
    let rem := if others.head? = some j then p.dem - mine - more * n else 0
    setShare (k + j) (clampShare t (k + j) ((t.getPh (k + j)).dem + more + rem)) t) s1

/-- The next active phase after offset o, ascending and wrapping (R58). -/
def nextToken (active : List Nat) (o : Nat) : Nat :=
  match active.find? (fun j => decide (o < j)) with
  | some j => j
  | none => active.headD 0

/-- A shed in progress is cancelled: the phase returns to a full share at once (R62). -/
def cancelShed (k : Nat) (s : State) : State :=
  match shedding s k with
  | some o =>
    shareEqual k (modPh (k + o) (fun p => { p with shedStep := 0, cntShedX := incSat 16 p.cntShedX, st := if p.dir then .runD else .runC }) s)
  | none => s

/-- The add threshold is exceeded with n active phases (R62). -/
def addDue (s : State) (k n : Nat) : Bool :=
  decide (addFrac s k * phIstg s k * n < (s.getCh k).reg.iDem.natAbs * 256)

/-- Readmit shed phases in ascending order while the add threshold is exceeded; a readmitted phase has no trim and
enters the ring (R62). -/
def readmitMore (k : Nat) : Nat → State → State
  | 0, s => s
  | f + 1, s =>
    let c := s.getCh k
    if addDue s k c.active.length then
      match (upto c.nph).find? fun o => !c.active.contains o && (s.getPh (k + o)).st != .fault with
      | some o =>
        readmitMore k f (modPh (k + o) (fun p => { p with bal := 0, dir := decide (c.reg.iDem < 0), st := if p.st = .brake then .brake else if c.reg.iDem < 0 then .runD else .runC })
          (modCh k (fun c => { c with active := insN o c.active }) s))
      | none => s
    else s

def readmit (k : Nat) (s : State) : State :=
  let t := readmitMore k 8 s
  if (t.getCh k).active.length = (s.getCh k).active.length then t else shareEqual k t

/-- A demand event of R60. -/
def demandEvent (k : Nat) (s : State) : State := cancelShed k (modCh k (fun c => { c with sinceEv := 0 }) s)

/-! ### On-times -/

/-- On-times of a direction are blocked by the sump's comparators or a loss (R221, R222, R233). -/
def sumpBlocks (s : State) (dis : Bool) : Bool := if dis then s.sump.cmpOv else s.sump.cmpDroop || s.sump.blocked

/-- t_SPACE in units of 2^-30 s (R58). DESIGN CHOICE (log entry 82): the spec gives no rounding to these units; downwards. -/
def tSpace (s : State) (k : Nat) : Nat :=
  let c := s.getCh k
  Nat.max t40ns (tokSpace s k * 2 ^ 30 / (256 * c.active.length * phFsw s k * 1000))

/-- The phase may switch: stages awake, no fault, braking or safe state, DISC closed and settled, and a demand. -/
def maySwitch (s : State) (n : Nat) : Bool :=
  let k := chanOr s n
  let c := s.getCh k
  let p := s.getPh n
  vioGood s && (s.getGal (galOf n)).sen && (s.getGal (galOf n)).awake && s.saf.keepAlive && !chSafe s k
    && p.st != .brake && p.st != .fault && c.disc && !c.discOpening && !c.suspect && decide (discTicks s k ≤ since s c.discTk)
    && c.active.contains (n - k) && c.reg.iDem != 0

/-- The conditions of R43, R44, R58 for an on-time of phase n at an instant, the fast limit aside. -/
def mayStart (s : State) (n at_ : Nat) : Bool :=
  let k := chanOr s n
  let c := s.getCh k
  let p := s.getPh n
  maySwitch s n && !p.onTime && !sumpBlocks s p.dir && decide (p.tEnd + tOffMin ≤ at_)
    && (decide (c.nph < 2) || (c.token == n - k && decide (c.tokStart + tSpace s k ≤ at_)))

/-- A limited cycle is counted once in a switching period; the eighth in a row latches PH_OCF_LATCH (R51, R52). DESIGN CHOICE
(log entry 83): the spec does not say what a switching period is while the limit stays crossed and no on-time starts; the period
lasts until the next on-time start, so it is one limited cycle. -/
def limitedCycle (n at_ : Nat) (s : State) : State :=
  let p := s.getPh n
  if p.limCycle then s
  else
    let s1 := modPh n (fun p => { p with limCycle := true, lim := true, cntLim := incSat 32 p.cntLim, ocfRun := incSat 8 p.ocfRun }) s
    let s2 := demandEvent (chanOr s n) s1
    if p.ocfRun + 1 = 8 then latchPhase n PhFlt.ocf Cause.phOcfLatch (at_ / 4) s2 else s2

/-- An on-time starts (R43, R44): the previous cycle is judged (R47, R52, R65), the on-time code in the mailbox is
latched (R46), a shed ramp goes on by a cycle (R61), and the token passes (R58). A call while the fast limit is
crossed is prevented (R51). -/
def execOnTimeStart (n : Fin 128) (at_ : Nat) (s : State) : Host.Outcome State Fault Refusal :=
  if !mayStart s n at_ then .next s
  else if (s.getPh n).limNow then .next (limitedCycle n at_ s)
  else
    let k := chanOr s n
    let c := s.getCh k
    let p := s.getPh n
    let sat := p.reachedMax && at_ == p.tEnd + tOffMin
    let s1 := modPh n (fun p => { p with
      pwm := if p.dir then .low else .high, onTime := true, cut := false, olHit := false, tStart := at_, toff := satN (at_ - p.tEnd) 0xFFFF,
      sat := sat, satRun := if sat then satN (p.satRun + 1) 4 else 0, olRun := if sat && !p.olHit then satN (p.olRun + 1) 4 else 0,
      lim := p.limCycle, limCycle := false, ocfRun := if p.limCycle then p.ocfRun else 0, reachedMax := false,
      tonCode := p.tonMail.getLastD p.tonCode, tonMail := [],
      st := if p.shedStep ≠ 0 then .shedding else if p.dir then .runD else .runC }) s
    let s2 := if c.nph < 2 then s1
      else modCh k (fun c => { c with token := nextToken c.active (n.val - k), tokT := at_, tokStart := at_ }) s1
    .next (if 0 < p.shedStep ∧ p.shedStep < 8 then rampShares k (n.val - k) (p.shedStep + 1) s2 else s2)

/-- PWM in the off period. -/
def offLevel (dis : Bool) : Pwm := if dis then .high else .low

/-- Causes of R54 whose quantity a reading of IMON has beyond its limit (R343). -/
def imonBad (s : State) (n : Nat) (i : Int) (code : Nat) : List Nat :=
  (if phOcfChg s n ≤ i ∨ i ≤ -(phOcfDis s n) then [Cause.phOcfLatch] else [])
    ++ (if phOcsThr s n ≤ i.natAbs then [Cause.phOcsTrip] else []) ++ (if imonInRange code then [] else [Cause.phImonRange])

/-- A reading of IMON is in force as the phase's latest (R40, R65). A quantity beyond its limit was so until this tick. -/
def takeImon (s : State) (n code : Nat) (p : Phase) : Phase :=
  let i := imonOf s n code
  { p with imonCode := code, imon := i, olHit := p.olHit || decide (phOlThr s n ≤ i.natAbs),
           bad := (imonBad s n p.imon p.imonCode ++ imonBad s n i code).foldl (fun l c => alSet 0 c s.tb.run l) p.bad }

/-- The running on-time ends at an instant with a reading of IMON. -/
def endOnTime (s : State) (n at_ code : Nat) (reached : Bool) (p : Phase) : Phase :=
  { takeImon s n code p with pwm := offLevel p.dir, onTime := false, tEnd := at_, reachedMax := reached, cycles := p.cycles + 1,
                             peaks := ((imonOf s n code).natAbs :: p.peaks).take 64 }

/-- The instant lies in the leading-edge blanking of the running on-time, BLANK x 12 ns (R51). -/
def blanked (s : State) (n at_ : Nat) : Bool :=
  decide ((at_ - (s.getPh n).tStart) * 10 ^ 9 < 12 * phBlank s n * 2 ^ 30)

/-- An on-time ends after t_ON, or later while the comparator calls, at t_ON_MAX at the latest (R47), or when its blanking ends
with the fast limit crossed (R51). -/
def execOnTimeEnd (n : Fin 128) (at_ : Nat) (code : BitVec 12) (calls : Bool) (s : State) : Host.Outcome State Fault Refusal :=
  let p := s.getPh n
  let len := at_ - p.tStart
  let top := tonMax s n p.tonCode
  if p.onTime && p.limNow && !blanked s n at_ then .next (limitedCycle n at_ (modPh n (endOnTime s n at_ code.toNat false) s))
  else if !p.onTime || decide (len < p.tonCode) || (calls && decide (len < top)) then .next s
  else .next (modPh n (endOnTime s n at_ code.toNat (decide (top ≤ len))) s)

/-- IMON reaches zero in the off period: PWM at mid until the next on-time (R48). -/
def execImonZeroCross (n : Fin 128) (s : State) : Host.Outcome State Fault Refusal :=
  let p := s.getPh n
  if !p.onTime && p.pwm.switching then .next (modPh n (fun p => { p with pwm := .mid, imon := 0, limNow := false }) s) else .next s

/-- An on-time code is computed from the latest samples and put into the two-entry mailbox of the timing core (R45,
R46). -/
def execTonCodeUpdate (n : Fin 128) (s : State) : Host.Outcome State Fault Refusal :=
  let k := chanOr s n
  if s.mode.up && populated s k && phFsw s n != 0 then
    let c := tonOf (s.getPh n).dir (vOf s k) (vsumpUv s) (phFsw s n)
    .next (modPh n (fun p => { p with tonMail := if p.tonMail.length < 2 then p.tonMail ++ [c] else p.tonMail.drop 1 ++ [c] }) s)
  else .next s

/-- The holder has not called within 2 / (N_act x f_sw): the token passes without a pulse (R59). DESIGN CHOICE (log entry 82):
the spec gives no rounding of that time to units of 2^-30 s; downwards. -/
def execTokenSkip (n : Fin 128) (at_ : Nat) (s : State) : Host.Outcome State Fault Refusal :=
  let k := chanOr s n
  let c := s.getCh k
  let wait := 2 * 2 ^ 30 / (c.active.length * phFsw s k * 1000)
  if 2 ≤ c.nph ∧ c.allMid = false ∧ c.token = n.val - k ∧ c.active.contains (n.val - k) = true ∧ c.tokT + wait ≤ at_ then
    .next (modCh k (fun c => { c with token := nextToken c.active (n.val - k), tokT := at_ })
      (modPh n (fun p => { p with cntSkip := incSat 32 p.cntSkip }) s))
  else .next s

/-! ### Limits -/

/-- The fast-limit DAC value of a direction, 12 bit (R41, R51): V_REF + K_IMON x OCF_CHG, or V_REF - K_IMON x OCF_DIS. DESIGN
CHOICE (log entry 82): the nearest code, halves away from zero. -/
def fastDac (s : State) (n : Nat) (dis : Bool) : Nat :=
  let i : Int := if dis then -(phOcfDis s n) else phOcfChg s n
  (clampI (rnd (((phVref s n : Int) * 10000000 + phKimon s n * i) * 4096) (10000000 * 3000)) 0 4095).toNat

/-- The second copy of the fast-limit DAC value (R41, R340). -/
def fastDac2 (s : State) (n : Nat) (dis : Bool) : Nat :=
  fastDac s n dis ^^^ (alGet 0 (Addr.ph n (if dis then 0x14 else 0x10)) s.saf.copies).toNat

/-- IMON is beyond the fast limit of the phase's direction (R51). -/
def beyondOcf (s : State) (n code : Nat) : Bool :=
  if (s.getPh n).dir then decide (code ≤ fastDac s n true) else decide (fastDac s n false ≤ code)

/-- A detection at an instant falls on the count on which another phase's detection brought the channel to mid (R71). -/
def coincides (s : State) (n at_ : Nat) : Bool :=
  (s.getPh n).cut && (match (s.getCh (chanOr s n)).det with | some (t, _) => t == at_ / 4 | none => false)

/-- IMON crosses the fast limit (R51): outwards it ends an on-time, once its blanking is over, and makes the cycle a limited one.
IMON of an unpopulated channel is ignored (R27). -/
def execFastLimitCross (n : Fin 128) (at_ : Nat) (code : BitVec 12) (s : State) : Host.Outcome State Fault Refusal :=
  let p := s.getPh n
  if !s.mode.up || !populated s (chanOr s n) then .next s
  else if beyondOcf s n code.toNat then
    let s1 := modPh n (fun p => { takeImon s n code.toNat p with limNow := true }) s
    if p.onTime then
      (if blanked s n at_ then .next s1 else .next (limitedCycle n at_ (modPh n (endOnTime s n at_ code.toNat false) s1)))
    else if coincides s n at_ then .next (limitedCycle n at_ s1)
    else .next s1
  else .next (modPh n (fun p => { takeImon s n code.toNat p with limNow := false }) s)

/-- Bins of the slow window (R53). -/
def ocsBinsN (s : State) (n : Nat) : Nat := Nat.max 1 ((phOcsWin s n * 1024 + 500) / 1000)

/-- A slow-limit bin ends: `sum` adds up the converter's codes of the time it covers, 128 a launch tick (R41). The window's
average, over the time its bins cover, is compared (R53). DESIGN CHOICE (log entry 82): the spec gives no rounding of a bin's
average and of the window's; the nearest uA, halves away from zero. IMON of an unpopulated channel is ignored (R27). -/
def execSlowLimitBinEnd (n : Fin 128) (sum : Nat) (s : State) : Host.Outcome State Fault Refusal :=
  if !s.mode.up || !populated s (chanOr s n) then .next s
  else
    let p := s.getPh n
    let cover := Nat.max 1 (Nat.min 8 (since s p.ocsFrom))
    let bins := ((imonMean s n sum (128 * cover), cover) :: p.ocsBins).take (ocsBinsN s n)
    let mean := rnd (sumI (bins.map fun b => b.1 * (b.2 : Int))) (sumN (bins.map fun b => b.2))
    let s1 := modPh n (fun p => { p with ocsBins := bins, iavg := mean }) s
    if phOcsThr s n < mean.natAbs then .next (latchPhase n PhFlt.ocs Cause.phOcsTrip (lineU s / 16) s1) else .next s1

/-- Four consecutive readings of IMON, the last at an instant, are out of 0.05 V to 2.95 V with SEN on (R40). -/
def execPhImonRange (n : Fin 128) (at_ : Nat) (codes : Vector (BitVec 12) 4) (s : State) : Host.Outcome State Fault Refusal :=
  if (s.getGal (galOf n)).sen && codes.toList.all (fun c => !imonInRange c.toNat) && populated s (chanOr s n) then
    .next (latchPhase n PhFlt.imonRange Cause.phImonRange (at_ / 4) (modPh n (takeImon s n codes[3].toNat) s))
  else .next s

/-! ### Braking and DISC -/

/-- Four consecutive readings at or below BRK_EXIT end BRAKE (R56). -/
def execBrakeExit (n : Fin 128) (us : Nat) (codes : Vector (BitVec 12) 4) (s : State) : Host.Outcome State Fault Refusal :=
  if (s.getPh n).st = .brake ∧ codes.toList.all (fun c => decide (((imonOf s n c.toNat).natAbs : Int) ≤ phBrkExit s n)) = true then
    .next (leaveBrake n us (modPh n (takeImon s n codes[3].toNat) s))
  else .next s

/-- 50 us after entry the phase is still in BRAKE: PH_BRAKE_STUCK, and the record is completed with 50 (R56, R74). -/
def execPhBrakeStuck (n : Fin 128) (at_ : Nat) (s : State) : Host.Outcome State Fault Refusal :=
  if (s.getPh n).st = .brake then
    let s1 := latchPhase n PhFlt.brakeStuck Cause.phBrakeStuck (at_ / 4) s
    .next (modPh n (fun p => { p with st := .fault, lfr := (match p.lfrOpen with | some b => lfrFinish 50 b | none => p.lfr), lfrOpen := none }) s1)
  else .next s

/-- 20 us after a decision DISC is off, braking or not (R57). -/
def execDiscOffDeadline (k : Fin 128) (s : State) : Host.Outcome State Fault Refusal :=
  if (s.getCh k).discOpening then .next (modCh k (fun c => { c with disc := false, discOpening := false }) s) else .next s

/-- 50 us after SEN turned on the gallery's stages are awake (R39). -/
def execStageWakeDone (g : Fin 8) (s : State) : Host.Outcome State Fault Refusal :=
  if (s.getGal g).sen then
    .next (forEach ((upto 16).map (16 * g.val + ·)) (modPh · fun p => { p with st := if p.st = .off then .idle else p.st })
      (modGal g (fun x => { x with awake := true }) s))
  else .next s

/-! ### Shedding -/

/-- The shed threshold holds for the struck demand (R60). -/
def shedLow (s : State) (k : Nat) : Bool :=
  let c := s.getCh k
  decide ((c.reg.iDem.natAbs : Int) * 256 < shedFrac s k * phIstg s k * ((c.active.length : Int) - 1))

/-- A shed is due (R60). -/
def shedDue (s : State) (k : Nat) : Bool :=
  let c := s.getCh k
  native s k && !c.allMid && shedEn s k && decide (shedMin s k < c.active.length) && decide (2 ≤ c.active.length) && shedLow s k
    && decide (shedDwell s k ≤ c.dwell) && (shedding s k).isNone && decide (4 ≤ c.sinceEv)

/-- The highest active phase begins to shed: the first of its eight ramp cycles (R61). -/
def execShedStart (k : Fin 128) (s : State) : Host.Outcome State Fault Refusal :=
  if shedDue s k then
    let o := (s.getCh k).active.getLastD 0
    let s1 := modPh (k.val + o) (fun p => { p with shedFrom := p.share, st := .shedding }) s
    .next (rampShares k o 1 (modCh k (fun c => { c with dwell := 0 }) s1))
  else .next s

/-- After the eighth cycle the phase goes to mid and leaves the ring as SHED (R61); with the add threshold of the phases left
exceeded, it is readmitted (R62). -/
def execShedComplete (k : Fin 128) (s : State) : Host.Outcome State Fault Refusal :=
  match shedding s k with
  | some o =>
    if (s.getPh (k.val + o)).shedStep = 8 then
      let left := (s.getCh k).active.filter (· != o)
      let s1 := modPh (k.val + o) (fun p => { p with cntShed := incSat 16 p.cntShed, bal := 0, dem := 0 }) (midPhase .shed (k.val + o) s)
      .next (readmit k (shareEqual k (modCh k (fun c => { c with active := left, token := if c.token = o then nextToken left o else c.token }) s1)))
    else .next s
  | none => .next s

/-! ### Open load and confirmation -/

/-- Four saturated cycles with IMON below OL_THR: open load is declared (R65, R66). -/
def execPhOpenLoad (n : Fin 128) (s : State) : Host.Outcome State Fault Refusal :=
  let k := chanOr s n
  if (s.getPh n).olRun = 4 ∧ (s.getCh k).active.contains (n.val - k) = true ∧ (s.getCh k).suspect = false then
    .next (declare k false (raiseA .timebase Cause.phOpenLoad k n (setPhFlt n PhFlt.openLoad s)))
  else .next s

/-- 100 us after the declaration the bias rises; the first sample of a later tick is v0 (R67). -/
def execConfirmBiasStart (k : Fin 128) (s : State) : Host.Outcome State Fault Refusal :=
  match (s.getCh k).test with
  | some _ => .next (modCh k (fun c => { c with test := some { biased := true, biasTk := s.tb.run } }) s)
  | none => .next s

/-- The phase that detected the open load, the block's first otherwise. -/
def openPhase (s : State) (k : Nat) : Nat := ((phasesOf s k).find? fun n => bitN (s.getPh n).flt PhFlt.openLoad).getD k

/-- A fault the confirmation found is latched in a phase, and the channel is to enter FAULT. -/
def confirmFault (k n bit cause arg : Nat) (s : State) : State :=
  let s1 := captureLfr n cause s (setPhFlt n bit s)
  modCh k (fun c => { c with fltNext := if c.fltNext.isSome then c.fltNext else some cause }) (raiseA .fabric cause k arg s1)

/-- Front end n's latest V sample lies in the linear range (R69). -/
def linearV (s : State) (n : Nat) : Bool := match (s.getFe n).hist with | x :: _ => !x.vO | [] => false

/-- The open of a LOST channel after a repeat of the test: it is cleared when every powered path reports none and reads within
its linear range (R69). -/
def openAfter (s : State) (k : Nat) (t : ConfTest) : Bool := t.openA || t.openB || !(frontEndsOf s k).all (linearV s)

/-- At 1 ms the test decides (R67, R136): cell absent, stage not delivering, or a sense wire open. A repeat while LOST decides
whether the open is cleared (R69). -/
def execConfirmTestOutcome (k : Fin 128) (s : State) : Host.Outcome State Fault Refusal :=
  let c := s.getCh k
  match c.test with
  | some t =>
    if t.biased then
      let nat := native s k
      let s1 := modCh k (fun c => { c with test := none }) s
      .next (if c.st = .lost then modCh k (fun c => { c with isOpen := openAfter s k t }) s1
        else if t.openA && (t.openB || !nat) then modCh k (fun c => { c with lostNext := true, isOpen := true }) s1
        else if nat && t.openA then confirmFault k k PhFlt.senseOpen Cause.phSenseOpenA k s1
        else if nat && t.openB then confirmFault k k PhFlt.senseOpen Cause.phSenseOpenB k s1
        else if c.susOvr then modCh k (fun c => { c with fltNext := if c.fltNext.isSome then c.fltNext else some Cause.feVOvr }) s1
        else (let n := openPhase s k; confirmFault k n PhFlt.noCurrent Cause.phNoCurrent n s1))
    else .next s
  | none => .next s

/-- While LOST the test repeats every 10 ms, from its 100 us wait on (R69). -/
def execConfirmTestRepeat (k : Fin 128) (s : State) : Host.Outcome State Fault Refusal :=
  if (s.getCh k).st = .lost then .next (modCh k (fun c => { c with test := some {} }) s) else .next s

end Sys2Proof.Machine
end

