-- ==== Sys2Proof/Machine/Island.lean ====
section
/-!
DEFINITION. The safety island: checks of samples, comparators, temperatures, stages, clocks and copies (R101, R108,
R109, R333 to R341), releases (R343, R344), the safety parameter set and its signature (R345 to R347), and the proof
test (R349).
-/

namespace Sys2Proof.Machine

def modSaf (f : Island → Island) (s : State) : State := { s with saf := f s.saf }

/-! ### Base samples (R108, R109, R333) -/

/-- The next count of a limit and whether it decides. -/
def limitCount (hold beyond : Bool) (cnt conf : Nat) : Nat × Bool :=
  if hold then (cnt, false) else if beyond then (satN (cnt + 1) 3, decide (conf ≤ cnt + 1)) else (0, false)

/-- The three limits of R333 for a sample of front end n: V in uV, I in uA. -/
def checkLimits (n : Nat) (v i : Int) (subst settle vO iO bad : Bool) (s : State) : State :=
  let k := chanOr s n
  let f := s.getFe n
  let c := nconf s k
  let hi := safVmax s k
  let lo := safVmin s k
  let im := safImax s k
  let bV := hi != 0 && (bad || vO || decide (hi ≤ v))
  let bL := lo != 0 && (bad || vO || decide (v ≤ lo))
  let bI := im != 0 && (bad || iO || decide (im ≤ i.natAbs))
  let rV := limitCount subst bV f.nVmax c
  let rL := limitCount subst bL f.nVmin c
  let rI := limitCount (subst || settle) bI f.nImax c
  let s1 := modFe n (fun f => { f with nVmax := rV.1, nVmin := rL.1, nImax := rI.1,
                                       badTk := if !subst && (bV || bL || bI) then some s.tb.run else f.badTk }) s
  let dec (b : Bool) (cause : Nat) : List (Nat × Option Nat) := if b then [(cause, none)] else []
  decideChs k (dec rV.2 Cause.safVmax ++ dec rL.2 Cause.safVmin ++ dec rI.2 Cause.safImax) s1

/-- A cross-check counter (R108). -/
def abCount (cnt : Nat) (differ : Bool) : Nat := if differ then satN (cnt + 1) 328 else cnt - 1

/-- The A and B samples of one stamp are compared once both have come; SUBST and SETTLE hold the counters (R108,
R109). -/
def crossCheck (k : Nat) (s : State) : State :=
  match (s.getFe k).isl, (s.getFe (k + 1)).isl with
  | some a, some b =>
    if a.run ≠ b.run ∨ (a.fl ||| b.fl) &&& 6 ≠ 0 then s
    else
      let f := s.getFe k
      let dv := (a.v - b.v).natAbs
      let di := (a.i - b.i).natAbs
      let difV := decide (2000 < dv)
      let difI := decide (40000 * 2 ^ f.irng < di)
      let cv := abCount f.abV difV
      let ci := abCount f.abI difI
      let s1 := modFe k (fun f => { f with abV := cv, abI := ci, dv := satN dv 0xFFFF, di := satN (di / 10) 0xFFFF,
                                           badTk := if difV || difI then some s.tb.run else f.badTk }) s
      let hitV := cv == 328 && f.abV != 328
      let hitI := ci == 328 && f.abI != 328
      let s2 := if hitV then feCond k 1 true s1 else s1
      let s3 := if hitI then feCond k 2 true s2 else s2
      decideChs k ((if hitV then [(Cause.feAbMismatchV, some k)] else []) ++ if hitI then [(Cause.feAbMismatchI, some k)] else []) s3
  | _, _ => s

/-- A base sample reaches the island by its own crossing (R89, R333). -/
def islandSample (n : Nat) (codeV codeI : Int) (parityOk : Bool) (s : State) : State :=
  if !s.mode.up || !fePowered s n then s
  else
    let k := chanOr s n
    let f := s.getFe n
    let subst := replaced s n
    let settle := settling s n
    match ownValue s n codeV codeI with
    | (v, i, vO, iO) =>
      let fl := b2n (vO || iO) + 2 * b2n settle + 4 * b2n subst
      let x : Option IslSamp := if parityOk then some { run := s.tb.run, v := v, i := i, fl := fl } else f.isl
      let s1 := checkLimits n v (iUa s n i) subst settle (vO && parityOk) (iO && parityOk) (!parityOk) (modFe n (fun f => { f with isl := x }) s)
      if native s k && parityOk then crossCheck k s1 else s1

def execIslandSample (n : Fin 128) (codeV codeI : Int) (parityOk : Bool) (s : State) : Host.Outcome State Fault Refusal :=
  .next (islandSample n codeV codeI parityOk s)

/-! ### Window comparators (R101, R341) -/

/-- VANA is good. -/
def vanaGood (s : State) : Bool := (s.getRail 4).good

/-- The reaction to a tripped comparator; a running test masks it (R341). -/
def cmpReact (n : Nat) (s : State) : State :=
  let f := s.getFe n
  let k := chanOr s n
  if f.cmpTest.isSome then s
  else
    decideChs k ((if f.cmpOv then [(Cause.feCmpOv, some n)] else []) ++ if f.cmpUv then [(Cause.feCmpUv, some n)] else []) s

/-- A comparator crosses its threshold. `tested`: a running test has that threshold at work, so the test masks it; the other
threshold stays active (R341). -/
def execWindowComparatorTrip (n : Fin 128) (above tested : Bool) (s : State) : Host.Outcome State Fault Refusal :=
  let en := if above then ovEn s n else uvEn s n
  if s.mode.up && fePowered s n && vanaGood s && en then
    let s1 := modFe n (fun f => { f with cmpOv := f.cmpOv || above, cmpUv := f.cmpUv || !above, badTk := some s.tb.run }) s
    let s2 := feCond n (if above then 5 else 6) true s1
    .next (if tested && (s.getFe n).cmpTest.isSome then s2
      else decideCh (chanOr s n) (if above then Cause.feCmpOv else Cause.feCmpUv) (some n.val) s2)
  else .next s

/-- It returns inside by its hysteresis. -/
def execWindowComparatorRelease (n : Fin 128) (above : Bool) (s : State) : Host.Outcome State Fault Refusal :=
  let f := s.getFe n
  if (if above then f.cmpOv else f.cmpUv) then
    let s1 := modFe n (fun f => { f with cmpOv := f.cmpOv && !above, cmpUv := f.cmpUv && above, badTk := some s.tb.run }) s
    .next (feCond n (if above then 5 else 6) false s1)
  else .next s

/-- The conditions under which a comparator test runs. -/
def cmpTestOk (s : State) (n : Nat) : Bool :=
  let f := s.getFe n
  !f.out && decide (2050000 ≤ f.vs) && decide (f.vs ≤ 5950000)

/-- Run tick at which front end n's test of the present interval fell due, n x CMPT_S / 128 into it, and the interval's number
from 1; none: the first has not fallen due (R341). -/
def cmpDue (s : State) (n : Nat) : Option (Nat × Nat) :=
  let at0 := s.saf.cmpFrom + n * cmptS s * 64
  let i := since s at0 / secTk (cmptS s)
  if at0 ≤ s.tb.run then some (at0 + i * secTk (cmptS s), i + 1) else none

/-- The test of front end n falls due, once in each interval; one that waits for a whole interval raises SAF_CMP_DEFER, once per
interval (R341). -/
def execCmpTestStart (n : Fin 128) (s : State) : Host.Outcome State Fault Refusal :=
  let f := s.getFe n
  match cmpDue s n with
  | none => .next s
  | some (at_, i) =>
    if !(s.mode.up && cmptEn s && fePowered s n && f.cmpTest.isNone && decide (f.cmpDone < i)) then .next s
    else if cmpTestOk s n then
      .next (modFe n (fun f => { f with cmpTest := some false, cmpDefer := none, cmpRetest := false, cmpDone := i }) s)
    else
      match f.cmpDefer with
      | none => .next (modFe n (fun f => { f with cmpDefer := some at_ }) s)
      | some t =>
        if secTk (cmptS s) ≤ since s t then
          .next (raise .island Cause.safCmpDefer (chanOr s n) (modFe n (fun f => { f with cmpDefer := some (t + secTk (cmptS s)) }) s))
        else .next s

/-- The retests a CLEAR_FAULT started are over: the clear acts. -/
def retestDone (k : Nat) (s : State) : State :=
  if (frontEndsOf s k).any fun m => (s.getFe m).cmpRetest && (s.getFe m).cmpTest.isSome then s
  else
    let s1 := forEach (frontEndsOf s k) (modFe · fun f => { f with cmpRetest := false }) s
    if (s1.getCh k).st = .fault then clearFault k s1 else s1

/-- A test ends: a failure repeats at once, a second decides; the mask ends with the test (R341). -/
def execCmpTestDone (n : Fin 128) (pass : Bool) (s : State) : Host.Outcome State Fault Refusal :=
  let k := chanOr s n
  let f := s.getFe n
  match f.cmpTest with
  | none => .next s
  | some rep =>
    let fin (t : State) : State := modFe n (fun f => { f with cmpTest := none }) t
    if pass then
      let s1 := cmpReact n (fin s)
      .next (if f.cmpRetest then retestDone k s1 else s1)
    else
      let s1 := modSaf (fun q => { q with nCmpt := incSat 8 q.nCmpt }) s
      if rep then
        let s2 := decideCh k Cause.safCmpTest none (cmpReact n (fin s1))
        .next (if f.cmpRetest then refuseCmd k (forEach (frontEndsOf s2 k) (modFe · fun f => { f with cmpRetest := false, cmpTest := none }) s2) else s2)
      else .next (modFe n (fun f => { f with cmpTest := some true }) s1)

/-! ### Temperatures (R334) -/

def checkTemp (k : Nat) (s : State) : State :=
  let c := s.getCh k
  if c.st = .step ∨ c.st = .hold then
    decideChs k ((if toldHot s k then [(Cause.safTmax, none)] else []) ++ if toldOld s k then [(Cause.safTstale, none)] else []) s
  else s

/-- The check of once a millisecond. -/
def execIslandTempCheck (s : State) : Host.Outcome State Fault Refusal :=
  .next (if s.mode.up && tempEn s then forEach (upto 128) checkTemp s else s)

/-! ### Sump, stages, clocks, fabric, copies -/

/-- The analog comparator of V_OV2_MV changes (R90, R335): a trip decides; back below, its cause is absent from now on (R343). -/
def execSafSumpOv2 (above : Bool) (s : State) : Host.Outcome State Fault Refusal :=
  if !s.mode.up then .next s
  else if above then .next (decideDev Cause.safSumpOv2 0xFF false (modSaf (fun f => { f with ov2 := true }) s))
  else .next (if s.saf.ov2 then modSaf (fun f => { f with ov2 := false, devBadTk := s.tb.run }) s else s)

/-- SFLT<g>_N has been low for 1 us (R336). -/
def execSafSflt (g : Fin 8) (s : State) : Host.Outcome State Fault Refusal :=
  .next (if vioGood s then decideGal g Cause.safSflt (modGal g (fun x => { x with sflt := true }) s) else s)

/-- It returns high. -/
def execSfltHigh (g : Fin 8) (s : State) : Host.Outcome State Fault Refusal :=
  .next (if (s.getGal g).sflt then modGal g (fun x => { x with sflt := false, sfltHighTk := s.tb.run }) s else s)

/-- A clock is lost (R337). -/
def execSafClkLoss (s : State) : Host.Outcome State Fault Refusal :=
  .next (if s.mode.up then decideDev Cause.safClkLoss 0xFF true (modSaf (fun f => { f with clkLost := true }) s) else s)

/-- Eight consecutive flagged ticks (R338). -/
def execSafFabricStall (s : State) : Host.Outcome State Fault Refusal :=
  .next (if s.mode.up && decide (8 ≤ s.fab.ovNow) then decideDev Cause.safFabricStall 0xFF true s else s)

/-- The second copy of the threshold at an address has come to differ in the bits m (R340, R41). -/
def execSafParam (addr : Nat) (m : Word) (s : State) : Host.Outcome State Fault Refusal :=
  if s.mode.up && isThreshold addr && m != 0 then
    .next (decideDev Cause.safParam 0xFF true (modSaf (fun f => { f with copies := alSet 0 addr m f.copies }) s))
  else .next s

/-- The keep-alive is lost: the outputs, and the channels as at SAFE entry (R329, R331). -/
def keepaliveStop (s : State) : State :=
  modSaf (fun f => { f with entry := f.entry || s.mode.up }) (stopKeepAlive s)

/-- No edge of the keep-alive for 2 us. -/
def execKeepaliveLost (s : State) : Host.Outcome State Fault Refusal := .next (keepaliveStop s)

/-- The copies of the island disagree: the keep-alive stops, and an island that recovers records the cause (R328,
R355). -/
def execSafLockstep (recovers : Bool) (s : State) : Host.Outcome State Fault Refusal :=
  if s.mode.up then
    let s1 := keepaliveStop s
    .next (if recovers then decideDev Cause.safLockstep 0xFF true s1 else s1)
  else .next s

/-! ### Release (R343, R344) -/

/-- Conditions a refused release or SAF_CMD names, in the order they are judged. -/
inductive Unmet where
  | path | key | mode | notSafe | causePresent | held1s | absent1s | sigOk | classX | deviceSafe | senOn | running | cmd
  deriving DecidableEq, Repr

/-- Number of a condition. -/
def Unmet.num : Unmet → Nat
  | .path => 0 | .key => 1 | .mode => 2 | .notSafe => 3 | .causePresent => 4 | .held1s => 5 | .absent1s => 6
  | .sigOk => 7 | .classX => 8 | .deviceSafe => 9 | .senOn => 10 | .running => 11
  | .cmd => 12

/-- A refused release or SAF_CMD names its unmet condition in ARG; the number is the device's (log entry 3). -/
def refuseRelease (src : Nat) (u : Unmet) (s : State) : State :=
  raiseSrc .island Cause.safReleaseRefused 0xFF src 2 (leBytes 4 (Config.unmetArg u.num).toNat) s

/-- A path that may write SAF_CMD: the controller session or the I2C target. -/
def mayRelease (s : State) (p : Path) : Bool :=
  match p with
  | .i2c => true
  | .sess i => (match s.link.sess.getD i.val none with | some x => x.role == .controller | none => false)
  | .core _ => false

/-- A safety command: its path and its KEY first. -/
def safCmd (p : Path) (key : Byte) (f : State → State) (s : State) : State :=
  regGate 0x00508C (fun t =>
    if !mayRelease t p then refuseRelease 137 .path t
    else if key ≠ 0xA5 then refuseRelease 137 .key t
    else f t) s

/-- What stands against a GAL_RELEASE. -/
def galUnmet (s : State) (g : Nat) : Option Unmet :=
  let x := s.getGal g
  let d := s.getDie g
  if x.safe.isNone then some .notSafe
  else if x.sflt || decide (since s x.sfltHighTk < msTk 10) || !driveGood s g || d.broken || decide (12500 < d.t) then some .causePresent
  else if s.saf.dev.isSome then some .deviceSafe
  else none

/-- GAL_RELEASE: the channels stay in FAULT (R343); SEN may follow (R39). -/
def galRelease (g : Nat) (s : State) : State :=
  match galUnmet s g with
  | some u => refuseRelease (128 + g) u s
  | none => updateSens (modGal g (fun x => { x with safe := none }) s)

def execGalRelease (p : Path) (g : Fin 8) (key : Byte) (s : State) : Host.Outcome State Fault Refusal :=
  .next (safCmd p key (galRelease g) s)

/-- A cause of a class D device safe state is present. -/
def devCausePresent (s : State) : Bool :=
  s.saf.ov2 || !(s.getRail 4).good || !(s.getRail 5).good || s.saf.clkLost
    || [8, 9].any fun i => let d := s.getDie i; d.broken || d.shut

/-- What stands against a DEV_RELEASE: the conditions of R343, and a power-down in progress (R2). -/
def devUnmet (s : State) : Option Unmet :=
  if s.saf.dev.isNone then some .notSafe
  else if s.saf.classX then some .classX
  else if since s s.saf.devTk < secTk 1 then some .held1s
  else if devCausePresent s then some .causePresent
  else if since s s.saf.devBadTk < secTk 1 then some .absent1s
  else if !s.saf.sigOk then some .sigOk
  else if s.seq.wait.isSome || s.seq.st == .down || s.seq.st == .reverse then some .running
  else none

/-- A controller session is open (R283). -/
def hasController (s : State) : Bool := s.link.sess.any fun x => match x with | some y => y.role == .controller | none => false

/-- The mode a release returns to (R344). -/
def releaseMode (s : State) : Mode := if s.saf.from_ = .service ∧ hasController s = false then .run else s.saf.from_

/-- DEV_RELEASE: SAFE is left for the mode from which it was entered; no step resumes by itself (R344). -/
def devRelease (s : State) : State :=
  match devUnmet s with
  | some u => refuseRelease 136 u s
  | none =>
    let s1 := goMode (releaseMode s) (abortAll { s with saf := { s.saf with dev := none } })
    updateSens (raiseSrc .island Cause.safReleased 0xFF 136 0 [] (updateSafeN s1))

def execDevRelease (p : Path) (key : Byte) (s : State) : Host.Outcome State Fault Refusal := .next (safCmd p key devRelease s)

/-! ### Proof test (R349) -/

/-- PROOF is accepted in SERVICE with every SEN off. -/
def proofStart (s : State) : State :=
  if s.mode ≠ .service then refuseRelease 137 .mode s
  else if (upto 8).any (fun g => (s.getGal g).sen) then refuseRelease 137 .senOn s
  else if s.saf.proof.isSome then refuseRelease 137 .running s
  else updateSafeN (modSaf (fun f => { f with proof := some { from_ := s.tb.run } }) s)

def execProof (p : Path) (key : Byte) (s : State) : Host.Outcome State Fault Refusal := .next (safCmd p key proofStart s)

/-- The test ends after 1 s: its result, an event for each failed item, and PASS_SEC once all have passed. -/
def execProofDone (safeN decay disc : Bool) (s : State) : Host.Outcome State Fault Refusal :=
  if (match s.saf.proof with | some p => decide (since s p.from_ < floorTk 1000) | none => true) then .next s
  else
    let res := b2n safeN + 2 * b2n decay + 4 * b2n disc
    let s1 := updateSafeN (modSaf (fun f => { f with proof := none, proofRes := res }) s)
    let s2 := modSaf (fun f => { f with safeN := safeNOn s1 }) s1
    let fail (ok : Bool) (t : State) : State := if ok then t else raiseSrc .island Cause.safProofFail 0xFF 137 0 [] t
    let s3 := fail disc (fail decay (fail safeN s2))
    .next (if res = 7 then
      nvmRequest (.record Kind.proof 0 (leBytes 6 s.tb.sec ++ [0, 0])) (modSaf (fun f => { f with passSec := some s.tb.sec }) s3)
    else s3)

/-! ### The safety parameter set (R345 to R347) -/

/-- The set as bytes, each word read by a function (R345). -/
def safetyBytes (w : Nat → Word) : List Byte :=
  let b (a : Nat) : List Byte := leBytes 4 (w a).toNat
  [0x01, 0, 0, 0] ++ b 0x005000 ++ b 0x005004 ++ b 0x005008 ++ [0, 0, 0, 0]
    ++ (upto 512).flatMap (fun i => b (0x005400 + 4 * i))
    ++ (upto 128).flatMap (fun n => b (Addr.fe n 8)) ++ b Addr.sumpOv
    ++ (upto 128).flatMap (fun n => b (Addr.ph n 0x10) ++ b (Addr.ph n 0x14))

/-- The signature of a set. -/
def signature (w : Nat → Word) : Word := wordN (crc32 (safetyBytes w))

/-- SAF_SIGREF. -/
def sigRef (s : State) : Word := cfgW s 0x00500C

/-- The set with the pending writes. -/
def pendW (s : State) (a : Nat) : Word :=
  match s.saf.pend with
  | some l => (match alFind a l with | some v => v | none => cfgW s a)
  | none => cfgW s a

/-- A write to a register of the set: to the pending copy in SERVICE, discarded elsewhere (R345). -/
def writeSafetySet (a : Nat) (v : Word) (s : State) : State :=
  if s.mode = .service then
    let l := s.saf.pend.getD []
    modSaf (fun f => { f with pend := some (l.filter (fun x => x.1 < a) ++ (a, v) :: l.filter fun x => a < x.1) }) s
  else raiseReg Cause.regWriteLocked a s

/-- SIL_OK of gallery g (R347). -/
def silOk (s : State) (g : Nat) : Bool :=
  let ks := popOfGal s g
  !ks.isEmpty && cmptEn s && decide (cmptS s ≤ 600)
    && ks.all fun k =>
      (frontEndsOf s k).all (fun n => ovEn s n && uvEn s n) && safVmax s k != 0 && safVmin s k != 0 && safImax s k != 0
        && (native s k || (decide (feEchoInt s k ≤ 60) && decide (cfgF s (Addr.fe k 4) 0 16 ≤ 600) && bitN (cfgN s (Addr.fe k 4)) 16))

def updateSil (s : State) : State := modSaf (fun f => { f with sil := maskOf ((upto 8).filter (silOk s)) }) s

/-- SAF_SIGREF is written (R345): the pending set is accepted, to be applied, or discarded. -/
def sigrefWrite (v : Word) (s : State) : State :=
  if s.mode ≠ .service then raiseReg Cause.regWriteLocked 0x00500C s
  else if signature (pendW s) = v then
    modSaf (fun f => { f with pend := none, apply := some (s.saf.pend.getD [] ++ [(0x00500C, v)]) }) s
  else raiseSrc .island Cause.safcfgSig 0xFF 137 0 [] (modSaf (fun f => { f with pend := none }) s)

def execSafSigrefWrite (_p : Path) (v : Word) (s : State) : Host.Outcome State Fault Refusal :=
  .next (regGate 0x00500C (sigrefWrite v) s)

/-- The island applies an accepted set whole, SAF_SIGREF with it; a change of CMPT_EN or CMPT_S begins the intervals afresh (R341). -/
def execSafetySetApplied (s : State) : Host.Outcome State Fault Refusal :=
  match s.saf.apply with
  | none => .next s
  | some l =>
    let s1 := modSaf (fun f => { f with apply := none, flips := [], copies := [] }) (l.foldl (fun t x => setCfg x.1 x.2 t) s)
    let fresh := cmptEn s1 != cmptEn s || cmptS s1 != cmptS s
    let s2 := if fresh then
        modSaf (fun f => { f with cmpFrom := s.tb.run }) (forEach (upto 128) (modFe · fun f => { f with cmpDefer := none, cmpDone := 0 }) s1)
      else s1
    .next (updateSil s2)

/-- A computation over the working copy completes; a mismatch decides (R346). `flip`: a word of the copy that has
been corrupted. -/
def execSignatureDone (flip : Option (Nat × Word)) (s : State) : Host.Outcome State Fault Refusal :=
  if !s.mode.up || !s.ldr.applied then .next s
  else
    let s1 := match flip with
      | some (a, m) => if inSafetySet a then modSaf (fun f => { f with flips := alSet 0 a (alGet 0 a f.flips ^^^ m) f.flips }) s else s
      | none => s
    let sig := signature (safW s1)
    let ok := sig == sigRef s1
    let s2 := modSaf (fun f => { f with sigNow := sig, sigOk := ok }) s1
    .next (if ok then s2 else decideDev Cause.safSig 0xFF true s2)

end Sys2Proof.Machine
end

