-- ==== Sys2Proof/Machine/Sha.lean ====
section
/-!
DEFINITION. SHA-256 and HMAC-SHA-256 (R473, R477, R345): FIPS 180-4 and RFC 2104, which the spec names and does not
repeat (PRESUMED, log entry 13).
-/

namespace Sys2Proof.Machine

/-- The round constants. -/
def Sha.k : List Word :=
  [0x428A2F98, 0x71374491, 0xB5C0FBCF, 0xE9B5DBA5, 0x3956C25B, 0x59F111F1, 0x923F82A4, 0xAB1C5ED5] ++
  [0xD807AA98, 0x12835B01, 0x243185BE, 0x550C7DC3, 0x72BE5D74, 0x80DEB1FE, 0x9BDC06A7, 0xC19BF174] ++
  [0xE49B69C1, 0xEFBE4786, 0x0FC19DC6, 0x240CA1CC, 0x2DE92C6F, 0x4A7484AA, 0x5CB0A9DC, 0x76F988DA] ++
  [0x983E5152, 0xA831C66D, 0xB00327C8, 0xBF597FC7, 0xC6E00BF3, 0xD5A79147, 0x06CA6351, 0x14292967] ++
  [0x27B70A85, 0x2E1B2138, 0x4D2C6DFC, 0x53380D13, 0x650A7354, 0x766A0ABB, 0x81C2C92E, 0x92722C85] ++
  [0xA2BFE8A1, 0xA81A664B, 0xC24B8B70, 0xC76C51A3, 0xD192E819, 0xD6990624, 0xF40E3585, 0x106AA070] ++
  [0x19A4C116, 0x1E376C08, 0x2748774C, 0x34B0BCB5, 0x391C0CB3, 0x4ED8AA4A, 0x5B9CCA4F, 0x682E6FF3] ++
  [0x748F82EE, 0x78A5636F, 0x84C87814, 0x8CC70208, 0x90BEFFFA, 0xA4506CEB, 0xBEF9A3F7, 0xC67178F2]

/-- The initial hash value. -/
def Sha.h0 : List Word := [0x6A09E667, 0xBB67AE85, 0x3C6EF372, 0xA54FF53A, 0x510E527F, 0x9B05688C, 0x1F83D9AB, 0x5BE0CD19]

def Sha.rotr (x : Word) (n : Nat) : Word := (x >>> n) ||| (x <<< (32 - n))

/-- The big-endian words of bytes. -/
def Sha.words : List Byte → List Word
  | a :: b :: c :: d :: l => wordN (((a.toNat * 256 + b.toNat) * 256 + c.toNat) * 256 + d.toNat) :: Sha.words l
  | _ => []

/-- The big-endian bytes of a word. -/
def Sha.bytes (w : Word) : List Byte := [BitVec.ofNat 8 (w.toNat / 2 ^ 24), BitVec.ofNat 8 (w.toNat / 2 ^ 16), BitVec.ofNat 8 (w.toNat / 2 ^ 8), BitVec.ofNat 8 w.toNat]

/-- The message schedule is extended by n words; the words are kept newest first. -/
def Sha.extend : Nat → List Word → List Word
  | 0, w => w
  | n + 1, w =>
    let g (i : Nat) : Word := w.getD i 0
    let s0 := Sha.rotr (g 14) 7 ^^^ Sha.rotr (g 14) 18 ^^^ (g 14 >>> 3)
    let s1 := Sha.rotr (g 1) 17 ^^^ Sha.rotr (g 1) 19 ^^^ (g 1 >>> 10)
    Sha.extend n ((s1 + g 6 + s0 + g 15) :: w)

/-- The working variables a to h. -/
structure Sha.Vars where
  a : Word
  b : Word
  c : Word
  d : Word
  e : Word
  f : Word
  g : Word
  h : Word

/-- One round. -/
def Sha.round (v : Sha.Vars) (k w : Word) : Sha.Vars :=
  let s1 := Sha.rotr v.e 6 ^^^ Sha.rotr v.e 11 ^^^ Sha.rotr v.e 25
  let ch := (v.e &&& v.f) ^^^ ((~~~ v.e) &&& v.g)
  let t1 := v.h + s1 + ch + k + w
  let s0 := Sha.rotr v.a 2 ^^^ Sha.rotr v.a 13 ^^^ Sha.rotr v.a 22
  let maj := (v.a &&& v.b) ^^^ (v.a &&& v.c) ^^^ (v.b &&& v.c)
  { a := t1 + s0 + maj, b := v.a, c := v.b, d := v.c, e := v.d + t1, f := v.e, g := v.f, h := v.g }

/-- One block of 16 words. -/
def Sha.block (h w : List Word) : List Word :=
  let sched := (Sha.extend 48 w.reverse).reverse
  let g (i : Nat) : Word := h.getD i 0
  let v := (Sha.k.zip sched).foldl (fun v x => Sha.round v x.1 x.2) (Sha.Vars.mk (g 0) (g 1) (g 2) (g 3) (g 4) (g 5) (g 6) (g 7))
  [g 0 + v.a, g 1 + v.b, g 2 + v.c, g 3 + v.d, g 4 + v.e, g 5 + v.f, g 6 + v.g, g 7 + v.h]

/-- The blocks of a message, n of them. -/
def Sha.blocks : Nat → List Word → List Word → List Word
  | 0, h, _ => h
  | n + 1, h, w => Sha.blocks n (Sha.block h (w.take 16)) (w.drop 16)

/-- The padding of a message. -/
def Sha.pad (m : List Byte) : List Byte :=
  m ++ [0x80] ++ List.replicate ((119 - m.length % 64) % 64) 0 ++ (leBytes 8 (8 * m.length)).reverse

/-- SHA-256 of a message: 32 bytes. -/
def sha256 (m : List Byte) : List Byte :=
  let w := Sha.words (Sha.pad m)
  (Sha.blocks (w.length / 16) Sha.h0 w).flatMap Sha.bytes

/-- HMAC-SHA-256 with a key of at most 64 bytes. -/
def hmacSha256 (key m : List Byte) : List Byte :=
  let k := slice key 0 64
  sha256 (k.map (· ^^^ 0x5C) ++ sha256 (k.map (· ^^^ 0x36) ++ m))

end Sys2Proof.Machine
end

