-- ==== Sys2Proof/Machine/Timed.lean ====
section
/-!
DEFINITION. Timed commands: acceptance, cancelling, release and completion (R252 to R259), launch groups (R257, R260),
the limit of a device drain (R261), the PPS output (R262) and line-time steps (R249, R250).
-/

namespace Sys2Proof.Machine

def modTb (f : Timebase → Timebase) (s : State) : State := { s with tb := f s.tb }

/-! ### The record (R254) -/

def Tc.kind (b : List Byte) : Nat := byteAt b 1
def Tc.group (b : List Byte) : Nat := byteAt b 2
def Tc.epoch (b : List Byte) : Nat := leAt b 4 4
def Tc.sec (b : List Byte) : Nat := leAt b 8 6
def Tc.tick (b : List Byte) : Nat := leAt b 14 2
def Tc.grace (b : List Byte) : Nat := leAt b 16 4
def Tc.tag (b : List Byte) : Nat := leAt b 20 4
/-- Launch time in units of 2^-32 s. -/
def Tc.time (b : List Byte) : Nat := Tc.sec b * 2 ^ 32 + Tc.tick b * 2 ^ 19
/-- Arguments of the kinds. -/
def Tc.waitGrp (b : List Byte) : Nat := byteAt b 24
def Tc.cmd (b : List Byte) : Nat := byteAt b 24
def Tc.target (b : List Byte) : Nat := byteAt b 24
def Tc.drainMs (b : List Byte) : Nat := leAt b 28 4
def Tc.cancel (b : List Byte) : Nat := leAt b 24 4
def Tc.sp (s : State) (k : Nat) (b : List Byte) : Sp :=
  mkSp s k (SpMode.ofCode (byteAt b 24)) (byteAt b 25 == 1) (leAt b 28 4) (leAt b 32 4) (leAt b 36 4) (leAt b 40 4) (leAt b 44 4)

/-- Kinds. -/
def TcK.launch : Nat := 1
def TcK.setpoint : Nat := 2
def TcK.release : Nat := 3
def TcK.chCmd : Nat := 4
def TcK.mode : Nat := 5
def TcK.cancel : Nat := 6

/-- The bytes of ARG a kind uses. -/
def tcArgUsed (kind : Nat) : List Nat :=
  match kind with
  | 2 => [24, 25] ++ (upto 20).map (28 + ·)
  | 3 => [24]
  | 4 => [24]
  | 5 => [24, 28, 29, 30, 31]
  | 6 => [24, 25, 26, 27]
  | _ => []

/-- The ranges of the arguments and of GROUP. -/
def tcArgOk (b : List Byte) : Bool :=
  let k := Tc.kind b
  let grp := decide (Tc.group b ≤ 15) || (Tc.group b == 0xFE && Tc.epoch b == 0)
  match k with
  | 1 => grp
  | 2 => grp && decide (byteAt b 24 ≤ 3) && decide (byteAt b 25 ≤ 1)
      && spFieldsOk (SpMode.ofCode (byteAt b 24)) (leAt b 28 4) (leAt b 36 4) (leAt b 40 4)
  | 3 => grp && decide (Tc.waitGrp b ≤ 15)
  | 4 => grp && decide (1 ≤ Tc.cmd b) && decide (Tc.cmd b ≤ 3)
  | 5 => Tc.group b == 0 && decide (1 ≤ Tc.target b) && decide (Tc.target b ≤ 2) && decide (100 ≤ Tc.drainMs b) && decide (Tc.drainMs b ≤ 60000)
  | 6 => Tc.group b == 0
  | _ => false

/-- The format of a record (R255, first row). -/
def tcFormatOk (b : List Byte) : Bool :=
  b.length == 64 && crc32cOk b && byteAt b 0 == 1 && byteAt b 3 == 0 && allZero (slice b 56 4)
    && ((upto 32).map (24 + ·)).all (fun i => (tcArgUsed (Tc.kind b)).contains i || byteAt b i == 0)
    && decide (Tc.tick b ≤ 8191) && decide (Tc.grace b ≤ 81920) && tcArgOk b

/-! ### The table -/

/-- Entries in order of acceptance that satisfy a test: numbers. -/
def tcInsert (x : Nat × Nat) : List (Nat × Nat) → List (Nat × Nat)
  | [] => [x]
  | y :: l => if x.1 < y.1 then x :: y :: l else y :: tcInsert x l

def tcFind (s : State) (p : TcEnt → Bool) : List Nat :=
  ((s.tb.tc.toList.zip (upto 256)).foldl (fun l x => if p x.1 then tcInsert (x.1.ord, x.2) l else l) []).map (·.2)

/-- A pending or released command. -/
def TcEnt.live (e : TcEnt) : Bool := e.slot == .pending || e.slot == .released

/-- A command that launches in a group. -/
def TcEnt.inGroup (e : TcEnt) (g : Nat) : Bool := e.live && decide (Tc.kind e.raw ≤ 4) && Tc.group e.raw == g

/-- The entry a new command takes: a free one, else the oldest completed one. -/
def tcFree (s : State) : Option Nat :=
  match tcFind s (fun e => e.slot == .free) with
  | e :: _ => some e
  | [] => (tcFind s (fun e => e.slot == .completed)).head?

/-- Group g takes new commands. -/
def groupOpen (s : State) (g : Nat) : Bool := (s.getGrp g).en

/-- Line time of the next launch tick edge (R242, R249). -/
def nextEdgeU (s : State) : Nat :=
  match s.tb.nextEdge with
  | some (sec, frac) => sec * 2 ^ 32 + frac
  | none => (lineU s / 2 ^ 19 + 1) * 2 ^ 19

/-- The run tick of the launch tick at a line time: the first edge not before it. -/
def tickOf (s : State) (t : Nat) : Nat := s.tb.run + 1 + (t - nextEdgeU s + (2 ^ 19 - 1)) / 2 ^ 19

/-- Targets of a command as the masks stand: populated channels of its group (R257, R258). -/
def tcTargets (s : State) (b : List Byte) : Nat :=
  if Tc.kind b ≤ 4 then
    maskOf ((upto 128).filter fun k => populated s k && (Tc.group b == 0xFE || (s.getGrp (Tc.group b)).mask.testBit k))
  else 0

/-- A SETPOINT is illegal by R121 for a channel: its I_BND is above that channel's bound. DESIGN CHOICE (log entry 84): one such
target, as the mask stands at acceptance, makes the command illegal. -/
def tcBoundBad (s : State) (b : List Byte) : Bool :=
  Tc.kind b == TcK.setpoint && (bitsOf 128 (tcTargets s b)).any fun k => decide (iMax s k < (leAt b 40 4 : Int))

/-- What refuses a command (R255), in the order of the table. -/
def tcRefused (s : State) (b : List Byte) : Option Nat :=
  let k := Tc.kind b
  let g := Tc.group b
  if !tcFormatOk b || tcBoundBad s b then some Cause.tcmdBad
  else if k = TcK.cancel then none
  else if k = TcK.mode ∧ (s.mode ≠ .run ∨ tcFind s (fun e => e.live && Tc.kind e.raw == TcK.mode) ≠ []) then some Cause.tcmdBad
  else if Tc.time b < lineU s + 24 * 2 ^ 19 then some Cause.tcmdLate
  else if (lineU s : Int) + 371085174374400 < Tc.time b then some Cause.tcmdBad
  else if (tcFree s).isNone then some Cause.tcmdFull
  else if k ≤ 4 ∧ g ≤ 15 ∧ Tc.epoch b ≠ (s.getGrp g).epoch then some Cause.tcmdEpoch
  else if k ≤ 4 ∧ g ≤ 15 ∧ groupOpen s g = false then some Cause.tcmdGroupDis
  else if (s.tb.st = .freerun ∨ s.tb.st = .acquire) ∧ bitN (cfgN s 0x002000) 1 = false then some Cause.tcmdNotime
  else none

/-- The answer to a command, on the response ring of its session (R255, R319). -/
def tcAnswer (cause sess rsn tag : Nat) (s : State) : State :=
  pushEvent { cause := cause, ch := 0xFF, akind := 3, arg := leBytes 4 tag ++ leBytes 4 rsn, sec := s.tb.sec, frac := s.tb.frac,
              run := s.tb.run, prod := .fabric, src := 142, ring := some (52 + sess) } s

/-! ### Completion (R259, R260) -/

/-- A disabled group is no longer busy once its last command has completed. -/
def groupIdle (g : Nat) (s : State) : State :=
  if (tcFind s fun e => e.inGroup g).isEmpty then modGrp g (fun x => { x with busy := false }) s else s

/-- The completion record (R259). -/
def tcRecord (e : TcEnt) : List Byte :=
  let b := e.raw
  let last := if e.applied = 0 then 0 else e.lastTk
  withCrc32c ([0x01] ++ leBytes 1 (Tc.kind b) ++ leBytes 1 (Tc.group b) ++ leBytes 1 e.outcome ++ leBytes 4 (Tc.tag b) ++ leBytes 4 e.epoch
    ++ leBytes 4 e.l ++ leBytes 16 e.applied ++ leBytes 16 e.missed ++ leBytes 1 (popN 128 e.applied) ++ leBytes 1 (popN 128 e.missed) ++ [0, 0]
    ++ leBytes 4 last ++ [0, 0, 0, 0])

/-- Targets of an entry in neither bitmap. -/
def TcEnt.left (e : TcEnt) : Nat := maskOf ((bitsOf 128 e.targets).filter fun k => !e.applied.testBit k && !e.superseded.testBit k)

/-- An entry completes: TCMD_DONE with its record, and MISSED for every target missed. -/
def tcComplete (i outcome : Nat) (s : State) : State :=
  let e := s.getTc i
  let e' : TcEnt := { e with slot := .completed, outcome := outcome, missed := e.left }
  let s1 := modTc i (fun _ => e') s
  let s2 := raiseSrc .fabric Cause.tcmdDone 0xFF 142 4 (tcRecord e') s1
  let s3 := forEach (bitsOf 128 e'.missed) (fun k t => raiseA .fabric Cause.missed k (Tc.tag e.raw) t) s2
  if Tc.kind e.raw ≤ 4 ∧ Tc.group e.raw ≤ 15 then groupIdle (Tc.group e.raw) s3 else s3

/-- OUTCOME of an entry that has run its course: all, none, or some of its targets applied; a superseded target did not. -/
def tcOutcome (e : TcEnt) : Nat :=
  if e.epochBad then 3 else if e.applied = e.targets then 0 else if e.applied = 0 then 2 else 1

/-! ### Acceptance -/

/-- CANCEL acts at once (R256). DESIGN CHOICE (log entry 32): the removed command completes with a record of OUTCOME 5 beside its
answer TCMD_CANCELLED. -/
def tcCancel (b : List Byte) (s : State) : Nat × State :=
  let same (e : TcEnt) : Bool := Tc.tag e.raw == Tc.cancel b && e.slot != .free && !(e.slot == .completed && e.outcome == 5)
  match tcFind s (fun e => same e && e.slot == .pending) with
  | i :: _ =>
    let e := s.getTc i
    let s1 := tcComplete i 5 (modTc i (fun e => { e with l := tickOf s (Tc.time e.raw), epoch := Tc.epoch e.raw }) s)
    (Cause.tcmdAccepted, tcAnswer Cause.tcmdCancelled e.sess e.rsn (Tc.tag e.raw) s1)
  | [] => (if (tcFind s same).isEmpty then Cause.tcmdBad else Cause.tcmdCancelLate, s)

/-- A record is judged: taken into the table, or refused; it is answered in either case. -/
def tcJudge (sess rsn : Nat) (b : List Byte) (s : State) : State :=
  let answer (c : Nat) (t : State) : State := tcAnswer c sess rsn (Tc.tag b) t
  match tcRefused s b with
  | some c => answer c s
  | none =>
    if Tc.kind b = TcK.cancel then
      let r := tcCancel b s
      answer r.1 r.2
    else
      match tcFree s with
      | some i =>
        answer Cause.tcmdAccepted
          (modTb (fun t => { t with tcOrd := t.tcOrd + 1 })
            (modTc i (fun _ => { slot := .pending, raw := b, sess := sess, rsn := rsn, ord := s.tb.tcOrd }) s))
      | none => answer Cause.tcmdFull s

/-- The oldest record taken from the input rings is judged, if it is of a kind. -/
def tcTake (kind : Nat) (s : State) : State :=
  match s.tb.tcIn with
  | (sess, rsn, b) :: rest => if Tc.kind b = kind then tcJudge sess rsn b (modTb (fun t => { t with tcIn := rest }) s) else s
  | [] => s

def execTcmdLaunch (s : State) : Host.Outcome State Fault Refusal := .next (tcTake TcK.launch s)
def execTcmdSetpoint (s : State) : Host.Outcome State Fault Refusal := .next (tcTake TcK.setpoint s)
def execTcmdGroupRelease (s : State) : Host.Outcome State Fault Refusal := .next (tcTake TcK.release s)
def execTcmdChannelCmd (s : State) : Host.Outcome State Fault Refusal := .next (tcTake TcK.chCmd s)
def execTcmdMode (s : State) : Host.Outcome State Fault Refusal := .next (tcTake TcK.mode s)
def execTcmdCancel (s : State) : Host.Outcome State Fault Refusal := .next (tcTake TcK.cancel s)

/-! ### Release and application (R252, R257, R258) -/

/-- 16 ticks before its launch tick a command is released; a MODE command's drain begins at its launch tick. -/
def execTcmdRelease (e : Fin 256) (s : State) : Host.Outcome State Fault Refusal :=
  let x := s.getTc e
  let b := x.raw
  if x.slot = .pending ∧ Tc.time b ≤ lineU s + 16 * 2 ^ 19 then
    let l := tickOf s (Tc.time b)
    let grouped := decide (Tc.kind b ≤ 4) && decide (Tc.group b ≤ 15)
    let now := if grouped then (s.getGrp (Tc.group b)).epoch else Tc.epoch b
    let s1 := modTc e (fun x => { x with slot := .released, l := l, targets := tcTargets s b, epoch := now, epochBad := now != Tc.epoch b }) s
    .next (if Tc.kind b = TcK.mode ∧ s.tb.drain = none then
        startDrain (if Tc.target b = 1 then .rest else .load) l (Tc.drainMs b) (some e.val) s1
      else s1)
  else .next s

/-- Released commands of a kind that a channel may apply at tick t, in order of acceptance (R258). -/
def tcDue (s : State) (kind k t : Nat) : List Nat :=
  tcFind s fun e => e.slot == .released && Tc.kind e.raw == kind && !e.epochBad && e.targets.testBit k && !e.applied.testBit k
    && !e.superseded.testBit k && decide (e.l ≤ t) && decide (t ≤ e.l + Tc.grace e.raw)

/-- Channel k applied entry i at tick t, or its staged command was superseded. -/
def tcApplied (i k t : Nat) (s : State) : State :=
  modTc i (fun e => { e with applied := setBitN e.applied k true, lastTk := Nat.max e.lastTk (t - e.l) }) s
def tcSuperseded (i k : Nat) (s : State) : State := modTc i (fun e => { e with superseded := setBitN e.superseded k true }) s

/-- A command completes at L when every target applied at L, else at L + GRACE_TK + 1 (R259); a MODE command whose
drain another has replaced completes with none applied. -/
def execTcmdDone (e : Fin 256) (s : State) : Host.Outcome State Fault Refusal :=
  let x := s.getTc e
  if x.slot = .released then
    if Tc.kind x.raw = TcK.mode then
      let mine := match s.tb.drain with | some d => d.entry == some e.val | none => false
      .next (if !mine && decide (x.l ≤ s.tb.run) then tcComplete e 2 s else s)
    else if (x.l ≤ s.tb.run ∧ x.applied = x.targets ∧ x.lastTk = 0) ∨ x.l + Tc.grace x.raw < s.tb.run then .next (tcComplete e (tcOutcome x) s)
    else .next s
  else .next s

/-- A timed command that targets channel k has its launch tick within the next 64 ticks (R105). -/
def launchSoon (s : State) (k : Nat) : Bool :=
  !(tcFind s fun e =>
    decide (Tc.kind e.raw ≤ 4)
      && ((e.slot == .released && e.targets.testBit k && decide (s.tb.run < e.l) && decide (e.l ≤ s.tb.run + 64))
        || (e.slot == .pending && (tcTargets s e.raw).testBit k && decide (tickOf s (Tc.time e.raw) ≤ s.tb.run + 64)))).isEmpty

/-! ### Groups (R257, R260) -/

/-- Words 0 to 2 of a mask are held. -/
def holdMask (g w : Nat) (v : Word) (s : State) : State := modGrp g (fun x => { x with held := lset x.held w (some v) }) s

/-- Writing word 3 commits all four and adds 1 to the epoch. -/
def commitMask (g : Nat) (v : Word) (s : State) : State :=
  modGrp g (fun x =>
    let word (w : Nat) : Nat := match x.held.getD w none with | some y => y.toNat | none => fieldN x.mask (32 * w) 32
    { x with mask := word 0 + word 1 * 2 ^ 32 + word 2 * 2 ^ 64 + v.toNat * 2 ^ 96, held := [none, none, none],
             epoch := (x.epoch + 1) % 2 ^ 32 }) s

def execGmaskCommit (_p : Path) (g : Fin 16) (v : Word) (s : State) : Host.Outcome State Fault Refusal :=
  .next (regGate (0x00220C + 16 * g.val) (commitMask g v) s)

/-- A group is disabled: it refuses new commands at once and is busy until the last accepted one completes. -/
def disableGroup (g : Nat) (s : State) : State :=
  modGrp g (fun x => { x with en := false, busy := !(tcFind s fun e => e.inGroup g).isEmpty }) s

def execGroupDisable (_p : Path) (g : Fin 16) (s : State) : Host.Outcome State Fault Refusal :=
  .next (regGate (0x002340 + 4 * g.val) (disableGroup g) s)

/-! ### The limit of a drain (R261) -/

/-- A channel of a drain is not at its quiescent point. -/
def drainOpen (s : State) (d : DevDrain) : List Nat :=
  (bitsOf 128 d.chans).filter fun k => (s.getCh k).drain.isSome || (s.getCh k).st.active || (s.getCh k).st == .lost

/-- The limit passes: the remaining channels are forced (R261). -/
def execModeDrainTimeout (s : State) : Host.Outcome State Fault Refusal :=
  match s.tb.drain with
  | some d =>
    if d.timedOut = false ∧ d.from_ ≤ s.tb.run ∧ msTk d.lim < s.tb.run - d.from_ + 1 then
      let ks := drainOpen s d
      if ks.isEmpty then .next s
      else
        let s1 := forEach ks (fun k t => openDisc k (forceZero k t)) s
        .next (raiseA .fabric Cause.modeDrainTimeout 0xFF ks.length
          (modTb (fun t => { t with drain := some { d with timedOut := true, forced := maskOf ks } }) s1))
    else .next s
  | none => .next s

/-! ### PPS (R262) -/

/-- PTP_PPS may pulse in the present state. -/
def ppsOn (s : State) : Bool :=
  let c := cfgN s 0x002018
  bitN c 9 && s.mode.up
    && (match fieldN c 10 2 with
        | 0 => s.tb.st == .locked
        | 1 => s.tb.st == .locked || s.tb.st == .holdover
        | _ => true)

def execPpsStart (s : State) : Host.Outcome State Fault Refusal :=
  .next (if ppsOn s && s.tb.frac == 0 then modTb (fun t => { t with pps := some t.run }) s else s)

/-- TB_PPS.WIDTH_MS. -/
def ppsWidth (s : State) : Nat := cfgF s 0x002018 0 9

/-- WIDTH_MS of counter time have passed. -/
def execPpsEnd (s : State) : Host.Outcome State Fault Refusal :=
  match s.tb.pps with
  | some t => .next (if floorTk (ppsWidth s) ≤ since s t then modTb (fun t => { t with pps := none }) s else s)
  | none => .next s

/-- PTP_PPS is active: a pulse runs, in a state in which pulses appear. -/
def ppsActive (s : State) : Bool := s.tb.pps.isSome && ppsOn s

/-- Level of pin PTP_PPS: TB_PPS.POL makes it active low. -/
def ppsPin (s : State) : Bool := ppsActive s != bitN (cfgN s 0x002018) 12

/-! ### Line-time steps (R249, R250) -/

/-- A released command waits for its launch tick. -/
def launchWaits (s : State) : Bool := !(tcFind s fun e => e.slot == .released && decide (s.tb.run < e.l)).isEmpty

/-- Line time and the edge that follows, at a line time in units of 2^-32 s. -/
def setLine (u : Nat) (t : Timebase) : Timebase :=
  let e := ((u + 2 ^ 19 + (2 ^ 19 - 1)) / 2 ^ 19) * 2 ^ 19
  { t with sec := u / 2 ^ 32, frac := u % 2 ^ 32, nextEdge := if u % 2 ^ 19 = 0 then none else some (e / 2 ^ 32, e % 2 ^ 32) }

/-- The device drain that the entry ordered, changed or given up. -/
def drainOf (i : Nat) (f : DevDrain → Option DevDrain) (s : State) : State :=
  modTb (fun t => { t with drain := match t.drain with | some d => if d.entry = some i then f d else some d | none => none }) s

/-- A pending command whose launch time a step skips is MISSED for all of its targets, a MODE command with its drain; any other
that waits launches at its line time (R250). -/
def skipTc (old new : Nat) (i : Nat) (s : State) : State :=
  let e := s.getTc i
  let t := Tc.time e.raw
  let waits := e.slot == .pending || (e.slot == .released && decide (s.tb.run < e.l))
  if waits && decide (old ≤ t) && decide (t < new) then
    let tg := if e.slot = .pending then tcTargets s e.raw else e.targets
    let s1 := modTc i (fun e => { e with targets := tg, applied := 0, superseded := 0, l := s.tb.run, epoch := if e.slot = .pending then Tc.epoch e.raw else e.epoch }) s
    drainOf i (fun _ => none) (tcComplete i 4 s1)
  else if waits && e.slot == .released then
    drainOf i (fun d => some { d with from_ := tickOf s t }) (modTc i (fun e => { e with l := tickOf s t }) s)
  else s

/-- A requested step is applied at a free edge within 16,384 ticks of its request, or forced at the next one (R249, R250). -/
def execTimeStepApply (s : State) : Host.Outcome State Fault Refusal :=
  match s.tb.step with
  | none => .next s
  | some (delta, at_) =>
    let forced := decide (16384 < since s at_)
    if launchWaits s && !forced then .next s
    else
      let dc := rnd (delta * 2 ^ 28) 1000000000
      let old := lineU s
      let new := ((old : Int) + dc * 16).toNat
      let s0 := if forced then raise .timebase Cause.tbStepForced 0xFF s else s
      let oldArg := leBytes 4 s.tb.frac ++ leBytes 6 s.tb.sec ++ [0, 0]
      let s1 := splitStreams s0
      let s2 := modTb (fun t => { setLine new t with step := none, nSteps := incSat 8 t.nSteps, stepTk := t.run }) s1
      let s3 := forEach (upto 128) (modFe · fun f => { f with stepSub := s.tb.run + 3 }) s2
      let s4 := raiseSrc .timebase Cause.timeStepped 0xFF 141 5
        (leBytesI 8 (rnd (dc * 1000000000) (2 ^ 28)) ++ oldArg ++ leBytes 4 s3.tb.frac ++ leBytes 6 s3.tb.sec ++ [0, 0]) s3
      .next (forEach (tcFind s fun e => e.live) (skipTc old new) s4)

end Sys2Proof.Machine
end

