-- ==== Sys2Proof/Machine/Echo.lean ====
section
/-!
DEFINITION. Echo passes: when they start (R104, R105, R107), how they are judged (R102, R103), and the overdue rule of
density channels (R105).
-/

namespace Sys2Proof.Machine

/-- P = ECHO_INT_S x 8,192, the configured interval of the channel's A path. -/
def echoP (s : State) (k : Nat) : Nat := feEchoInt s k * 8192

/-- A native path's pass falls due on this run-time tick (R104). DEDUCED (log entry 83): RUN_TK of the schedule is the run time of
64 bits, so the schedule does not jump when its low 32 bits wrap. -/
def echoSlot (s : State) (k n : Nat) : Bool :=
  let p := echoP s k
  p != 0 && (s.tb.run + k * (p / 128) + (if n = k then 0 else p / 2)) % p == 0

/-- The partner path is in service, its first sample back included. -/
def partnerIn (s : State) (n : Nat) : Bool := match partner s n with | some m => !(s.getFe m).out && !echoOut s m true | none => true

/-- The modes whose passes follow R104 and R105 (R107). -/
def echoMode (s : State) : Bool := s.mode == .run || s.mode == .safe || s.mode == .service

/-- The pass of the present REST wake is still to run (R107). -/
def restPassDue (s : State) (n : Nat) : Bool :=
  s.mode == .rest && s.rtc.restWake && decide ((s.getFe n).echoTk + tickIdx s < s.tb.run)

/-- A state of R105 in which a density channel may pass. -/
def densityState (s : State) (k : Nat) : Bool :=
  match (s.getCh k).st with
  | .idle | .armed | .paused | .tempWait | .hold => true
  | .step => inRestStep s k
  | _ => false

/-- A launch of channel k is pending within the next 64 ticks (R105). -/
def launchPending (s : State) (k : Nat) : Bool :=
  let c := s.getCh k
  launchSoon s k || (c.st == .armed && c.disc && !c.rcp.timed && decide (c.discTk + discTicks s k ≤ s.tb.run + 64))

/-- Density: every condition of R105 holds; a channel that the overdue rule pauses passes once its phases are at mid and out of
BRAKE. -/
def densityOk (s : State) (k : Nat) : Bool :=
  quietPhases s k && ((s.getCh k).psEcho && (s.getCh k).st == .paused
    || (decide (echoP s k ≤ since s (s.getFe k).echoTk) && densityState s k && !(s.getCh k).suspect && !launchPending s k))

/-- Native: the path may start (R104). -/
def nativeOk (s : State) (k n : Nat) : Bool := !(s.getCh k).suspect && (s.getCh k).st != .lost && partnerIn s n

/-- A pass starts: the path is out of service. -/
def startEcho (n : Nat) (rep : Bool) (s : State) : State :=
  modFe n (fun f => { f with echo := some { start := s.tb.run, rep := rep, irng := f.irng }, out := true, echoDue := false }) s

/-- A pass of front end n falls due, or one that waited may start. -/
def execEchoPassStart (n : Fin 128) (s : State) : Host.Outcome State Fault Refusal :=
  let k := chanOr s n
  let f := s.getFe n
  if !s.mode.up || !fePowered s n || f.echo.isSome then .next s
  else if s.mode = .rest then
    (if restPassDue s n && partnerIn s n then .next (startEcho n false s) else .next s)
  else if !echoMode s then .next s
  else if native s k then
    if echoSlot s k n || f.echoDue then
      (if nativeOk s k n then .next (startEcho n false s) else .next (modFe n (fun f => { f with echoDue := true }) s))
    else .next s
  else if densityOk s k then .next (startEcho n false s)
  else .next s

/-- Points of R103: V0, V1 - V0, V2 - V0, I0, I1 - I0, I0 - I2, each from 16 calibrated samples. DESIGN CHOICE (log entry 82): the
spec gives no rounding of a point's average; to the nearest unit, halves away from zero, before the differences are taken. DESIGN
CHOICE (log entry 83): a word lost to parity or to a full FIFO adds nothing to a point, whose sum is still divided by 16. -/
def echoPoints (s : State) (n : Nat) (p : EchoPass) : List Bool :=
  let a (x : Int) : Int := rnd x 16
  let ref (q l : Nat) : Int := Config.echoLevel s.acc.fuse n q l
  let half : Int := 4000000 * 2 ^ p.irng
  let nearV (x lev : Int) : Bool := decide ((x - lev).natAbs * 10000 ≤ 100 * 10000 + lev.natAbs)
  let nearI (x : Int) : Bool := decide ((x - half).natAbs * 1000 ≤ 1000 * 1000 + half.natAbs)
  [decide ((a p.v0).natAbs ≤ 2000), nearV (a p.v1 - a p.v0) (ref 0 1), nearV (a p.v2 - a p.v0) (ref 0 2),
   decide ((a p.i0).natAbs ≤ 50000), nearI (a p.i1 - a p.i0), nearI (a p.i0 - a p.i2)]

/-- A completed pass: its result, its age, and the end of an overdue pause (R105). The stamps up to its 64th tick stay replaced, the
last four with SETTLE (R102). -/
def echoResult (n : Nat) (pts : List Bool) (start : Nat) (rep : Bool) (s : State) : State :=
  let k := chanOr s n
  let ok := pts.all id
  let s1 := modFe n (fun f => { f with echo := none, out := false, subTo := start + 64, reconn := start + 64, echoOk := ok, echoRetry := rep,
                                       echoPts := maskOf ((upto 6).filter fun i => pts.getD i false), echoTk := s.tb.run,
                                       echoDone := incSat 16 f.echoDone }) s
  modCh k (fun c => { c with psEcho := false }) (feCond n 7 false s1)

/-- The 64th tick of a pass has been sampled: it is judged; a failure repeats at once, a second failure raises
FE_ECHO_FAIL and the channel is to enter FAULT (R103). -/
def execEchoPassEnd (n : Fin 128) (s : State) : Host.Outcome State Fault Refusal :=
  let k := chanOr s n
  match (s.getFe n).echo with
  | some p =>
    if s.tb.run < p.start + 64 then .next s
    else
      let pts := echoPoints s n p
      let s1 := echoResult n pts p.start p.rep s
      .next (if pts.all id then s1
        else if !p.rep then startEcho n true s1
        else faultNext k Cause.feEchoFail (raiseA .fabric Cause.feEchoFail k n (feCond n 0 true s1)))
  | none => .next s

/-- At its 60th tick a pass reconnects the path to the pins, and a range that was chosen meanwhile is taken (R92, R102). -/
def reconnectTick (s : State) : State :=
  { s with fe := s.fe.map fun f =>
      match f.echo with
      | some p => if p.start + 60 = s.tb.run then { f with irng := f.irngNext } else f
      | none => f }

/-- FE_ECHO.DMAX_S of a density channel. -/
def feDmax (s : State) (n : Nat) : Nat := cfgF s (Addr.fe n 4) 0 16

/-- The last completed pass of a density channel becomes DMAX_S old (R105). -/
def execFeEchoOverdue (n : Fin 128) (s : State) : Host.Outcome State Fault Refusal :=
  let k := chanOr s n
  let f := s.getFe n
  if s.mode.up && f.pwr == 3 && feDmax s n != 0 && decide (secTk (feDmax s n) ≤ since s f.echoTk) && !bitN f.flt 7 then
    let s1 := raiseA .fabric Cause.feEchoOverdue k n (feCond n 7 true s)
    let c := s.getCh k
    .next (if bitN (cfgN s (Addr.fe n 4)) 16 && (pausable c || (c.st == .paused && c.drain.isNone)) then modCh k (fun c => { c with psEcho := true }) s1 else s1)
  else .next s

end Sys2Proof.Machine
end

