-- ==== Sys2Proof/Machine/Float.lean ====
section
/-!
DEFINITION. binary64 arithmetic, round to nearest even, over exact dyadic numbers (R190): a result is rounded to 53
significant bits, to a multiple of 2 to the -1074, and to infinity beyond the largest number. The sign of a zero is not
kept: no rule reads it.
-/

namespace Sys2Proof.Machine

/-- Divide a mantissa by two while it is even, at most n times. -/
def stripZeros : Nat → Int → Int → F64
  | 0, m, e => .fin m e
  | n + 1, m, e => if m = 0 then .fin 0 0 else if m % 2 = 0 then stripZeros n (m / 2) (e + 1) else .fin m e

/-- Bits of a magnitude. -/
def bitLen (n : Nat) : Nat := if n = 0 then 0 else Nat.log2 n + 1

/-- m times 2 to the e exactly, in lowest terms. -/
def F64.exact (m e : Int) : F64 := stripZeros (bitLen m.natAbs) m e

/-- A natural number divided by 2 to the n, rounded to nearest, ties to even. -/
def shiftRne (a n : Nat) : Nat :=
  let q := a / 2 ^ n
  let r := a % 2 ^ n
  if n = 0 then a
  else if 2 ^ (n - 1) < r then q + 1
  else if r = 2 ^ (n - 1) then q + q % 2
  else q

/-- Round m times 2 to the e to binary64. -/
def F64.round (m e : Int) : F64 :=
  let a := m.natAbs
  let len : Int := bitLen a
  let low : Int := max (e + len - 53) (-1074)
  let r : F64 :=
    if low ≤ e then F64.exact m e
    else
      let q : Int := shiftRne a (low - e).toNat
      F64.exact (if m < 0 then -q else q) low
  match r with
  | .fin x y => if 1024 < (bitLen x.natAbs : Int) + y then .inf (decide (m < 0)) else .fin x y
  | z => z

/-- An integer, converted exactly. -/
def F64.ofInt (n : Int) : F64 := F64.exact n 0

/-- A binary32 number, converted exactly. -/
def F64.ofBits32 (w : Nat) : F64 :=
  let sign := decide (2 ^ 31 ≤ w % 2 ^ 32)
  let ex := fieldN w 23 8
  let fr := fieldN w 0 23
  let sg (m : Int) : Int := if sign then -m else m
  if ex = 255 then (if fr = 0 then .inf sign else .nan)
  else if ex = 0 then F64.exact (sg fr) (-149)
  else F64.exact (sg (fr + 2 ^ 23 : Nat)) ((ex : Int) - 150)

def F64.neg : F64 → F64
  | .fin m e => .fin (-m) e
  | .inf s => .inf (!s)
  | .nan => .nan

/-- The sum of two numbers brought to one exponent, rounded. -/
def addFin (m1 e1 m2 e2 : Int) : F64 :=
  if m1 = 0 then F64.round m2 e2
  else if m2 = 0 then F64.round m1 e1
  else
    let e := min e1 e2
    F64.round (m1 * 2 ^ (e1 - e).toNat + m2 * 2 ^ (e2 - e).toNat) e

def F64.add : F64 → F64 → F64
  | .fin m1 e1, .fin m2 e2 => addFin m1 e1 m2 e2
  | .inf a, .inf b => if a = b then .inf a else .nan
  | .nan, _ => .nan
  | _, .nan => .nan
  | .inf a, .fin _ _ => .inf a
  | .fin _ _, .inf b => .inf b

def F64.sub (a b : F64) : F64 := a.add b.neg

def F64.isNeg : F64 → Bool
  | .fin m _ => decide (m < 0)
  | .inf s => s
  | .nan => false

def F64.mul : F64 → F64 → F64
  | .fin m1 e1, .fin m2 e2 => F64.round (m1 * m2) (e1 + e2)
  | .nan, _ => .nan
  | _, .nan => .nan
  | .inf a, .inf b => .inf (a != b)
  | .inf a, .fin m _ => if m = 0 then .nan else .inf (a != decide (m < 0))
  | .fin m _, .inf b => if m = 0 then .nan else .inf (b != decide (m < 0))

/-- A quotient of mantissas with 64 bits beyond the point of rounding and a sticky bit, rounded. -/
def divFin (m1 e1 m2 e2 : Int) : F64 :=
  let k := 64 + bitLen m2.natAbs
  let n := m1.natAbs * 2 ^ k
  let q := n / m2.natAbs
  let st := if n % m2.natAbs = 0 then 0 else 1
  let a : Int := 2 * q + st
  F64.round (if (m1 < 0) = (m2 < 0) then a else -a) (e1 - e2 - k - 1)

def F64.div : F64 → F64 → F64
  | .fin m1 e1, .fin m2 e2 => if m2 = 0 then (if m1 = 0 then .nan else .inf (decide (m1 < 0))) else divFin m1 e1 m2 e2
  | .nan, _ => .nan
  | _, .nan => .nan
  | .inf _, .inf _ => .nan
  | .inf a, .fin m _ => .inf (a != decide (m < 0))
  | .fin _ _, .inf _ => .fin 0 0

/-- a below b; false where either is not a number. -/
def F64.lt : F64 → F64 → Bool
  | .fin m1 e1, .fin m2 e2 =>
    let e := min e1 e2
    decide (m1 * 2 ^ (e1 - e).toNat < m2 * 2 ^ (e2 - e).toNat)
  | .inf a, .inf b => a && !b
  | .inf a, .fin _ _ => a
  | .fin _ _, .inf b => !b
  | .nan, _ => false
  | _, .nan => false

def F64.le (a b : F64) : Bool := match a, b with | .nan, _ => false | _, .nan => false | a, b => !(b.lt a)

def F64.max (a b : F64) : F64 := if a.lt b then b else a

/-- Clamp between two numbers. -/
def F64.clamp (x lo hi : F64) : F64 := if x.lt lo then lo else if hi.lt x then hi else x

/-- floor, as an integer; 0 where there is none. -/
def F64.floor : F64 → Int
  | .fin m e => if 0 ≤ e then m * 2 ^ e.toNat else Int.fdiv m (2 ^ (-e).toNat)
  | _ => 0

/-- rnd of R95 on a binary64 number: the nearest integer, halves away from zero; a largest magnitude of 2^62 stands for
infinity, 0 for what is not a number. -/
def F64.rnd : F64 → Int
  | .fin m e => if 0 ≤ e then m * 2 ^ e.toNat else Sys2Proof.Machine.rnd m (2 ^ (-e).toNat)
  | .inf s => if s then -(2 ^ 62) else 2 ^ 62
  | .nan => 0

end Sys2Proof.Machine
end

