-- ==== Sys2Proof/Machine/Estimate.lean ====
section
/-!
DEFINITION. Cell state estimation (R182 to R205), capacity (R201 to R203), DCIR (R206), the K log (R207 to R209),
grading (R210 to R212) and the estimator's commands (R215).
-/

namespace Sys2Proof.Machine

/-! ### The model's tables (R186 to R189) -/

def Mdl.qs (m : List Byte) : F64 := F64.ofBits32 (leAt m 72 4)
def Mdl.qv (m : List Byte) : F64 := F64.ofBits32 (leAt m 76 4)
def Mdl.rv (m : List Byte) : F64 := F64.ofBits32 (leAt m 80 4)
def Mdl.p0s (m : List Byte) : F64 := F64.ofBits32 (leAt m 84 4)
def Mdl.p0v (m : List Byte) : F64 := F64.ofBits32 (leAt m 88 4)

/-- An integer as binary64. -/
def fi (n : Int) : F64 := F64.ofInt n

/-- The OCV interval that contains s: the one above at a knot, the end ones outside (R188). -/
def ocvInterval (s : F64) : Nat := (clampI (F64.floor (F64.mul (fi 32) s)) 0 31).toNat

/-- The rise of an OCV interval, uV. -/
def ocvRise (m : List Byte) (j : Nat) : Int := Mdl.ocv m (j + 1) - Mdl.ocv m j

/-- ocv(s) (R188). -/
def ocvOf (m : List Byte) (s : F64) : F64 :=
  let j := ocvInterval s
  F64.add (fi (Mdl.ocv m j)) (F64.mul (fi (ocvRise m j)) (F64.sub (F64.mul (fi 32) s) (fi j)))

/-- ocv_slope(s) (R188). -/
def ocvSlope (m : List Byte) (s : F64) : F64 := fi (32 * ocvRise m (ocvInterval s))

/-- ocv_inv(v): the SoC, whether it was clamped, and the interval that contains it (R188). -/
def ocvInv (m : List Byte) (v : F64) : F64 × Bool × Nat :=
  if v.lt (fi (Mdl.ocv m 0)) then (fi 0, true, 0)
  else if (fi (Mdl.ocv m 32)).lt v then (fi 1, true, 31)
  else
    let j := ((upto 32).filter fun j => (fi (Mdl.ocv m j)).le v).length - 1
    (F64.div (F64.add (fi j) (F64.div (F64.sub v (fi (Mdl.ocv m j))) (fi (ocvRise m j)))) (fi 32), false, j)

/-- Bilinear interpolation over the 9 by 5 grid (R189). -/
def bilin (m : List Byte) (tab : Nat → Int) (s : F64) (t : Int) : F64 :=
  let x := F64.mul (fi 8) (F64.clamp s (fi 0) (fi 1))
  let j := (clampI (F64.floor x) 0 7).toNat
  let fx := F64.sub x (fi j)
  let tc := clampI t (Mdl.tGrid m 0) (Mdl.tGrid m 4)
  let i := ((upto 4).filter fun i => decide (Mdl.tGrid m i ≤ tc)).length - 1
  let ft := F64.div (fi (tc - Mdl.tGrid m i)) (fi (Mdl.tGrid m (i + 1) - Mdl.tGrid m i))
  let row (i : Nat) : F64 :=
    F64.add (F64.mul (F64.sub (fi 1) fx) (fi (tab (i * 9 + j)))) (F64.mul fx (fi (tab (i * 9 + j + 1))))
  F64.add (F64.mul (F64.sub (fi 1) ft) (row i)) (F64.mul ft (row (i + 1)))

/-! ### One update (R184, R185, R190 to R195, R204) -/

/-- Mean v in uV, and mean i in uA, over samples of a channel (R152, R184). -/
def winV (l : List Samp) : Int := rnd (sumI (l.map (·.v))) l.length
def winI (s : State) (k : Nat) (l : List Samp) : Int := rnd (sumI (l.map fun x => iUa s k x.i)) l.length

/-- The newest entry of the A path up to a stamp. -/
def sampAt (s : State) (k last : Nat) : Option Samp := (s.getFe k).hist.find? fun x => decide (x.run ≤ last)

/-- The inputs of an update (R184). -/
structure EstIn where
  /-- ticks covered over 512 -/
  m : Nat
  dacc : Int
  acc : Int
  vm : Int
  im : Int
  t : Int
  stale : Bool
  predict : Bool

/-- Which period a mean current makes: charge, discharge or rest. -/
inductive Dirn where
  | rest | charge | discharge
  deriving DecidableEq, Repr

def Dirn.code : Dirn → Nat
  | .rest => 0 | .charge => 1 | .discharge => 2

/-- A sample carries what makes an update predict-only (R185). -/
def badMeas (s : State) (k : Nat) (x : Samp) : Bool := bitN x.fl 0 || bitN x.fl 1 || (bitN x.fl 2 && !native s k) || x.sus

/-- The temperature in use: the last accepted told value, T_DEF until there is one (R184). -/
def estTemp (s : State) (k : Nat) (m : List Byte) : Int := match (s.getTold k).t with | some (t, _) => t | none => Mdl.tDef m

/-- The inputs of the update that covers the stamps up to `last` (R184, R185, R197). -/
def estInputs (s : State) (k last : Nat) (m : List Byte) : Option EstIn :=
  let e := s.getEst k
  match sampAt s k last with
  | none => none
  | some x =>
    if x.run ≠ last then none
    else
      let w := regHistTo s k last 64
      let decl := e.decls.any fun t => decide (e.pubTk < t) && decide (t ≤ last)
      some { m := (last - e.pubTk) / 512, dacc := accDiff x.acc e.pubAcc, acc := x.acc, vm := winV w, im := winI s k w,
             t := estTemp s k m, stale := toldStale s k, predict := w.any (badMeas s k) || decl }

/-- What the filter leaves: its state, the mean current, and r0. -/
structure EstOut where
  s : F64
  v1 : F64
  pss : F64
  psv : F64
  pvv : F64
  ibar : F64
  r0 : F64

/-- The charge and the mean current of m periods, by lines of R190. -/
def spanCharge (rshv dacc : Int) : F64 := F64.div (F64.mul (fi dacc) (fi 625)) (F64.mul (fi 18432) (fi rshv))
def spanTime (m : Nat) : F64 := F64.div (fi (512 * m : Nat)) (fi 8192)
def spanMean (rshv dacc : Int) (m : Nat) : F64 := F64.div (F64.mul (spanCharge rshv dacc) (fi 3600)) (spanTime m)

/-- The direction of a period by its mean current (R184). -/
def dirOf (m : List Byte) (ibar : F64) : Dirn :=
  let idle := fi (Mdl.iIdle m)
  if idle.lt ibar then .charge else if ibar.lt idle.neg then .discharge else .rest

/-- The update of R190, in the order of its lines. -/
def estFilter (m : List Byte) (e : Estimator) (rshv : Int) (x : EstIn) : EstOut :=
  let dq := spanCharge rshv x.dacc
  let dt := spanTime x.m
  let ibar := spanMean rshv x.dacc x.m
  let r0 := bilin m (Mdl.r0 m) e.s x.t
  let r1 := bilin m (Mdl.r1 m) e.s x.t
  let c1 := bilin m (Mdl.c1 m) e.s x.t
  let tau := F64.div (F64.mul r1 c1) (fi 1000000)
  let tau2 := F64.mul (fi 2) tau
  let a := F64.div (F64.sub tau2 dt) (F64.add tau2 dt)
  let sp := F64.add e.s (F64.div dq (fi e.q))
  let vp := F64.add (F64.mul a e.v1) (F64.div (F64.mul (F64.mul (F64.sub (fi 1) a) r1) ibar) (fi 1000000))
  let pss := F64.add e.pss (F64.mul (fi x.m) (Mdl.qs m))
  let psv := F64.mul a e.psv
  let pvv := F64.add (F64.mul (F64.mul a a) e.pvv) (F64.mul (fi x.m) (Mdl.qv m))
  if x.predict then { s := sp, v1 := vp, pss := pss, psv := psv, pvv := pvv, ibar := ibar, r0 := r0 }
  else
    let g := ocvSlope m sp
    let y := F64.sub (fi x.vm) (F64.add (F64.add (ocvOf m sp) vp) (F64.div (F64.mul r0 (fi x.im)) (fi 1000000)))
    let sg := F64.add (F64.add (F64.add (F64.mul (F64.mul g g) pss) (F64.mul (F64.mul (fi 2) g) psv)) pvv) (Mdl.rv m)
    let hs := F64.add (F64.mul g pss) psv
    let hv := F64.add (F64.mul g psv) pvv
    let ks := F64.div hs sg
    let kv := F64.div hv sg
    { s := F64.add sp (F64.mul ks y), v1 := F64.add vp (F64.mul kv y), pss := F64.sub pss (F64.mul ks hs),
      psv := F64.sub psv (F64.mul ks hv), pvv := F64.sub pvv (F64.mul kv hv), ibar := ibar, r0 := r0 }

/-- A SoC in 0.01 %, clamped (R192, R196). -/
def socPct (s : F64) : Int := clampI (F64.rnd (F64.mul s (fi 10000))) 0 10000

/-- EST_SOC_C (R195). -/
def socCOf (e : Estimator) (rshv acc : Int) : Int := e.socA + rnd (accDiff acc e.accA * 625 * 10000) (18432 * rshv * e.q)

/-- Anchors of a period (R194). -/
inductive AnchorKind where
  | none | cutoff | full | ocv (v : Int)
  deriving DecidableEq, Repr

def anchorOf (m : List Byte) (e : Estimator) (last : Nat) (dir : Dirn) (x : EstIn) : AnchorKind :=
  match (e.ocvPend.filter fun p => decide (p.1 ≤ last + 1)).getLast? with
  | some (_, v) => .ocv v
  | Option.none =>
    match dir with
    | .discharge => if x.vm ≤ Mdl.vCut m + 5000 then .cutoff else .none
    | .charge => if Mdl.vFull m - 5000 ≤ x.vm ∧ (x.im.natAbs : Int) ≤ Mdl.iFull m then .full else .none
    | .rest => .none

/-- SOC_REP of a period before the anchors (R193). -/
def socRepNext (dir : Dirn) (rep r : Int) : Int :=
  match dir with
  | .discharge => min rep r
  | .charge => max rep r
  | .rest => if rep < r then rep + 1 else if r < rep then rep - 1 else rep

/-- An anchor acts (R194). -/
def anchorAct (m : List Byte) (acc : Int) (a : AnchorKind) (e : Estimator) : Estimator :=
  match a with
  | .none => e
  | .cutoff => { e with socRep := 0, s := fi 0, socA := 0, accA := acc, anchor := 1 }
  | .full => { e with socRep := 10000, s := fi 1, pss := F64.div (Mdl.p0s m) (fi 16), socA := 10000, accA := acc, anchor := 2,
                      fullAcc := some acc }
  | .ocv v =>
    let i := ocvInv m (fi v)
    { e with s := i.1, v1 := fi 0, pss := Mdl.p0s m, psv := fi 0, pvv := Mdl.p0v m, socA := F64.rnd (F64.mul i.1 (fi 10000)), accA := acc,
             anchor := 3, ocvPt := v, ocvClamp := i.2.1 }

/-- The registers that follow the state (R192). -/
def estRegs (m : List Byte) (e : Estimator) : Estimator :=
  { e with socFilt := socPct e.s, v1Reg := satI 32 (F64.rnd e.v1), ocvReg := satI 32 (F64.rnd (ocvOf m e.s)) }

/-- The voltage-implied SoC and the divergence counter (R204). -/
def divergence (m : List Byte) (x : EstIn) (r0 : F64) (anchored : Bool) (e : Estimator) : Estimator :=
  if x.predict then e
  else
    let v := F64.sub (F64.sub (fi x.vm) (F64.div (F64.mul r0 (fi x.im)) (fi 1000000))) e.v1
    let i := ocvInv m v
    let sv := F64.rnd (F64.mul i.1 (fi 10000))
    let e1 := { e with socV := sv, ocvClamp := i.2.1 }
    if anchored || decide (ocvRise m i.2.2 < leAt m 56 4) then e1
    else if Mdl.divLim m < (e.socC - sv).natAbs then { e1 with divCnt := satN (e.divCnt + 1) 1023 }
    else { e1 with divCnt := 0 }

/-- The update of a VALID estimator is published (R182, R190 to R195, R204). -/
def estUpdate (s : State) (k last : Nat) (m : List Byte) (x : EstIn) (e : Estimator) : Estimator :=
  let o := estFilter m e (rsh s k) x
  let dir := dirOf m o.ibar
  let e1 := { e with s := o.s, v1 := o.v1, pss := o.pss, psv := o.psv, pvv := o.pvv, tUse := x.t, tStale := x.stale, dirn := dir.code,
                     pubTk := last, pubAcc := x.acc, tsSeen := e.tsSeen || x.stale,
                     fullAcc := if dir = .charge then Option.none else e.fullAcc, socRep := socRepNext dir e.socRep (socPct o.s) }
  let a := anchorOf m e1 last dir x
  let e2 := { anchorAct m x.acc a e1 with ocvPend := e1.ocvPend.filter fun p => decide (last + 1 < p.1), decls := e1.decls.filter fun t => decide (last < t) }
  let e3 := { e2 with socC := socCOf e2 (rsh s k) x.acc }
  estRegs m (divergence m x o.r0 (a != .none) e3)

/-! ### Starting from OCV (R196) -/

/-- The estimator may leave WAIT with the period that ends at `last`. -/
def estMayInit (s : State) (k last : Nat) (m : List Byte) (x : EstIn) : Bool :=
  let e := s.getEst k
  e.endOk && decide (e.waitTk + 511 ≤ last) && decide ((x.im.natAbs : Int) ≤ Mdl.iIdle m)

def estInit (_s : State) (t last : Nat) (m : List Byte) (x : EstIn) (e : Estimator) : Estimator :=
  let i := ocvInv m (fi x.vm)
  let rt := t - e.idleTk
  let p0 := if rt < Mdl.tRelax m * 8192 then F64.mul (fi 16) (Mdl.p0s m) else Mdl.p0s m
  let flat := decide (ocvRise m i.2.2 < Mdl.minSlope m)
  let p := if flat then F64.max p0 (F64.div (fi 1) (fi 100)) else p0
  let rep := socPct i.1
  let e1 := { e with st := .valid, s := i.1, v1 := fi 0, psv := fi 0, pvv := Mdl.p0v m, pss := p, ocvFlat := flat, ocvClamp := i.2.1,
                     socRep := rep, socA := rep, accA := x.acc, socC := rep, divCnt := 0, pubTk := last, pubAcc := x.acc,
                     tUse := x.t, tStale := x.stale, ocvPend := [], decls := e.decls.filter (fun t => decide (last < t)), dirn := 0 }
  estRegs m e1

/-- The estimator that a publication tick t leaves, and whether it initialises; none: nothing is published (R182, R196). -/
def published (s : State) (k t : Nat) : Option (Estimator × Bool) :=
  let e := s.getEst k
  let last := t - 257
  match modelOf s k with
  | none => none
  | some m =>
    match estInputs s k last m with
    | none => none
    | some x =>
      if e.st = .valid then some (estUpdate s k last m x e, false)
      else if e.st = .wait ∧ estMayInit s k last m x = true then some (estInit s t last m x e, true)
      else none

/-- The publication tick of channel k has come: its update is in force from this tick, or an overrun is counted. -/
def publish (k : Nat) (inTime : Bool) (s : State) : State :=
  let e := s.getEst k
  let s0 := modEst k (fun e => { e with gap := e.gap || e.st != .valid, pubDue := none }) s
  if e.st != .wait && e.st != .valid then s0
  else if !inTime then raise .fabric Cause.estOverrun k (modEst k (fun e => { e with overruns := incSat 16 e.overruns }) s0)
  else
    match published s0 k s.tb.run with
    | none => s0
    | some (e', false) => modEst k (fun _ => e') s0
    | some (e', true) =>
      let s1 := raise .fabric Cause.estInit k (modEst k (fun _ => e') s0)
      if e'.ocvClamp then raise .fabric Cause.estOcvClamp k s1 else s1

/-- What the strike of a tick does for the estimator of channel k: at the first tick of a period, the direction of the period that
ended (R201); at a publication tick, the update (R182). -/
def estEdge (k : Nat) (s : State) : State :=
  let s1 := match (s.getEst k).pubDue with | some b => publish k b s | none => s
  match modelOf s k with
  | some m =>
    if s.tb.run % 512 = 0 then
      let a := (s.getFe k).acc
      modEst k (fun e => { e with perAcc := a,
                                  fullAcc := if dirOf m (spanMean (rsh s k) (accDiff a e.perAcc) 1) = .charge then none else e.fullAcc }) s1
    else s1
  | none => s1

/-- The estimator the step engine sees on the next tick (R182, R183). -/
def estNext (s : State) (k : Nat) : Estimator :=
  let e := s.getEst k
  match e.pubDue with
  | some true => (match published s k (s.tb.run + 1) with | some (e', _) => e' | none => e)
  | _ => e

/-- The update of channel k for the publication tick 512p + 768, the next launch tick, is complete or it is not (R182). -/
def execEstPublish (k : Fin 128) (inTime : Bool) (s : State) : Host.Outcome State Fault Refusal :=
  if s.mode.up && populated s k && decide (768 ≤ s.tb.run + 1) && (s.tb.run + 1) % 512 == 256 then
    .next (modEst k (fun e => { e with pubDue := some (inTime && e.lostTk != some (s.tb.run + 1)) }) s)
  else .next s

/-- 60 s of disagreement (R205). -/
def execEstDiverge (k : Fin 128) (s : State) : Host.Outcome State Fault Refusal :=
  let e := s.getEst k
  if e.st = .valid ∧ 960 ≤ e.divCnt then
    .next (raise .fabric Cause.estDiverge k
      (modEst k (fun e => { e with relearn := true, diverge := true, socA := e.socRep, accA := e.pubAcc, divCnt := 0, changed := true }) s))
  else .next s

/-! ### Capacity (R199, R201 to R203) -/

/-- The capacity record of a channel (R199). -/
def capPayload (e : Estimator) : List Byte :=
  leBytes 8 e.recId ++ leBytes 4 e.q ++ leBytes 2 e.nLearn ++ leBytes 1 (b2n e.relearn) ++ leBytes 1 (e.model.getD 0)

/-- A measurement updates q (R202). -/
def learnCap (m : List Byte) (qm : Nat) (e : Estimator) : Estimator × Bool :=
  let e0 := { e with capM := qm, capArm := some qm }
  if qm < Mdl.qNom m / 2 ∨ 3 * Mdl.qNom m / 2 < qm then (e0, false)
  else
    let q' : Nat :=
      if e.relearn then qm
      else
        let dq := rnd (((qm : Int) - e.q) * Mdl.capW m) 256
        let lim := rnd (e.q * Mdl.capMax m) 100
        (e.q + clampI dq (-lim) lim).toNat
    ({ e0 with q := q', relearn := false, nLearn := incSat 16 e.nLearn, changed := true }, true)

/-- A capacity measurement is taken at a boundary, if its conditions hold (R201); `byTerm`: the step ended by a confirmed
termination other than TIME_GE and RTIME_GE. -/
def measureCap (k : Nat) (t : List Byte) (byTerm : Bool) (s : State) : State :=
  match modelOf s k, (s.getEst k).fullAcc with
  | some m, some a =>
    if Stp.capMeas t && Stp.dis t && byTerm && decide (vOf s k ≤ Mdl.vCut m + 5000) then
      let qm := (qUah s k (accDiff (s.getFe k).acc a)).natAbs
      let r := learnCap m qm (s.getEst k)
      let s1 := modEst k (fun _ => { r.1 with diverge := false }) s
      raise .fabric (if r.2 then Cause.estCapLearned else Cause.estCapReject) k s1
    else s
  | _, _ => s

/-- An OCV point at a boundary of a step with OCV_POINT (R194): it acts when the period that holds the boundary is
published. -/
def measureOcv (k : Nat) (t : List Byte) (st : Nat) (s : State) : State :=
  match modelOf s k with
  | some m =>
    if Stp.ocvPoint t && (s.getEst k).st == .valid && decide (Mdl.tRelax m * 8192 ≤ st)
        && decide (((winI s k (regHist s k 0 128)).natAbs : Int) ≤ Mdl.iIdle m) then
      let v := winV (regHist s k 0 64)
      modEst k (fun e => { e with ocvPend := e.ocvPend ++ [(s.tb.run, v)], ocvArm := some (s.tb.run, v) }) s
    else s
  | none => s

/-- A changed capacity record is written back: at most once per hour of run time, and not under the power-fail lock (R203). -/
def execCapWriteback (k : Fin 128) (s : State) : Host.Outcome State Fault Refusal :=
  let e := s.getEst k
  let hour := match e.wbTk with | some t => decide (secTk 3600 ≤ since s t) | none => true
  if s.mode.up && e.changed && e.wbWait && hour && !s.nvm.lock then
    .next (nvmRequest (.record Kind.cap k (capPayload e))
      (modEst k (fun e => { e with changed := false, wbWait := false, wbTk := some s.tb.run }) s))
  else .next s

/-! ### DCIR (R206) -/

/-- The DCIR of the valid pulses of a PULSE step: v1, i1, v2, i2 and whether both windows are valid. -/
def dcirOf (m : List Byte) (l : List (Int × Int × Int × Int × Bool)) : Option Int :=
  let ok := l.filter fun p => p.2.2.2.2 && decide (max (10 * Mdl.iIdle m) 100000 ≤ (p.2.2.2.1 - p.2.1).natAbs)
  if ok.isEmpty then none
  else some (rnd (sumI (ok.map fun p => rnd ((p.2.2.1 - p.1) * 1000000) (p.2.2.2.1 - p.2.1))) ok.length)

/-- A PULSE step's DCIR is published at its boundary. -/
def publishDcir (k : Nat) (s : State) : State :=
  match modelOf s k with
  | some m =>
    match dcirOf m (s.getCh k).rcp.pulses with
    | some d => modEst k (fun e => { e with dcir := satI 32 d, dcirArm := some (satI 32 d) }) s
    | none => s
  | none => s

/-! ### K log (R207 to R209) -/

/-- A logging channel takes a point now: once in a REST wake, after the wake's Echo pass, or every 600 s of run time while it is IDLE
or FAULT (R207). -/
def kPointDue (s : State) (k : Nat) : Bool :=
  let c := s.getCh k
  let e := s.getEst k
  let f := s.getFe k
  e.kLog
    && ((s.mode == .rest && s.rtc.restWake && f.echo.isNone && decide (s.tb.run ≤ f.echoTk + tickIdx s) && decide (e.kTk + tickIdx s < s.tb.run))
      || ((s.mode == .run || s.mode == .safe || s.mode == .service) && (c.st == .idle || c.st == .fault) && decide (e.kTk + secTk 600 ≤ s.tb.run)))

/-- The K log point of channel k with its mean v, over the 1,024 samples from 0.125 s to 0.25 s after a line-time second, the last of
which has come within the second (R207, R208). -/
def kPoint (s : State) (k : Nat) (m : List Byte) : Option (Int × List Byte) :=
  match (s.getFe k).hist.dropWhile fun x => x.idx != 2047 with
  | [] => none
  | x :: l =>
    let w := (x :: l).take 1024
    let e := s.getEst k
    let good := decide (w.length = 1024) && decide (s.tb.run < x.run + 8192)
      && w.all fun y => y.sec == x.sec && y.fl &&& 7 == 0 && decide (((iUa s k y.i).natAbs : Int) ≤ Mdl.iIdle m)
    if good && present s k then
      some (winV w, leBytes 4 ((s.tb.run - e.kStart) / 8192) ++ leBytesI 4 (winV w) ++ leBytesI 2 (estTemp s k m) ++ leBytes 1 k
        ++ leBytes 1 (b2n (toldStale s k)) ++ [0, 0, 0, 0])
    else none

/-- A K log point is taken, or left out for what its window holds. -/
def execKlogPoint (k : Fin 128) (s : State) : Host.Outcome State Fault Refusal :=
  match modelOf s k with
  | none => .next s
  | some m =>
    if s.mode.up && kPointDue s k then
      let s1 := modEst k (fun e => { e with kTk := s.tb.run }) s
      match kPoint s k m with
      | some (v, p) => .next (pushLog 1 k p (modEst k (fun e => { e with kPts := (p :: e.kPts).take 64, kArm := some (s.tb.run, v) }) s1))
      | none => .next s1
    else .next s

/-- K of the points in the log, in uV per day (R209). -/
def kOf (m : List Byte) (pts : List (List Byte)) : Option Int :=
  let use := pts.reverse.filter fun p => decide (Mdl.kTc m = 0) || !bitN (byteAt p 11) 0
  let ts := use.map fun p => leAt p 0 4
  let span := maxN ts - ts.foldl Nat.min (maxN ts)
  if use.length < Mdl.kMinPts m ∨ use.isEmpty = true ∨ span < Mdl.kMinH m * 3600 then none
  else
    let n := fi use.length
    let x (p : List Byte) : F64 := fi (leAt p 0 4)
    let y (p : List Byte) : F64 :=
      F64.sub (fi (leAtS p 4 4)) (F64.div (fi (Mdl.kTc m * (leAtS p 8 2 - Mdl.tKref m))) (fi 100))
    let sum (f : List Byte → F64) : F64 := use.foldl (fun a p => F64.add a (f p)) (fi 0)
    let mx := F64.div (sum x) n
    let my := F64.div (sum y) n
    let sxy := sum fun p => F64.mul (F64.sub (x p) mx) (F64.sub (y p) my)
    let sxx := sum fun p => F64.mul (F64.sub (x p) mx) (F64.sub (x p) mx)
    some (satI 32 (F64.rnd (F64.mul (F64.div sxy sxx).neg (fi 86400))))

/-! ### Grading (R210 to R213) -/

/-- What is graded: each quantity where it is valid. -/
structure Graded where
  cap : Option Int
  dcir : Option Int
  k : Option Int
  ocv : Option Int

/-- The later of the last OCV point and the last K log point since arming (R210). -/
def gradedOcv (e : Estimator) : Option Int :=
  match e.ocvArm, e.kArm with
  | none, none => none
  | some (_, v), none => some v
  | none, some (_, v) => some v
  | some (t, v), some (u, w) => some (if t ≤ u then w else v)

/-- Bin b of a GRADE payload matches (R211). -/
def binMatch (g : List Byte) (b : Nat) (x : Graded) : Bool :=
  let r := slice g (4 + 36 * b) 36
  let mask := byteAt r 0
  let inside (v : Option Int) (lo hi : Int) : Bool := match v with | some v => decide (lo ≤ v) && decide (v ≤ hi) | none => false
  (!bitN mask 0 || inside x.cap (leAt r 4 4) (leAt r 8 4)) && (!bitN mask 1 || inside x.dcir (leAt r 12 4) (leAt r 16 4))
    && (!bitN mask 2 || inside x.k (leAtS r 20 4) (leAtS r 24 4)) && (!bitN mask 3 || inside x.ocv (leAtS r 28 4) (leAtS r 32 4))

/-- The bin, 0xFF where none matches. -/
def binOf (g : List Byte) (x : Graded) : Nat := ((upto (byteAt g 2)).find? fun b => binMatch g b x).getD 0xFF

/-- A result record (R212). -/
def resultRecord (s : State) (k bin cause : Nat) (hold : Bool) (x : Graded) : List Byte :=
  let e := s.getEst k
  let r := (s.getCh k).rcp
  let b2 (o : Option Int) : Nat := b2n o.isSome
  let flags := b2 x.cap + 2 * b2 x.dcir + 4 * b2 x.k + 8 * b2 x.ocv + 16 * b2n e.tsSeen + 32 * b2n e.gap + 64 * b2n e.capProv + 128 * b2n hold
  withCrc32c ([0x01] ++ leBytes 1 k ++ leBytes 1 bin ++ leBytes 1 flags ++ leBytes 4 (Hdr.id (boundRcp s k)) ++ leBytes 4 s.rcp.resSeq
    ++ leBytes 6 s.tb.sec ++ leBytes 2 cause ++ leBytes 4 s.tb.frac ++ leBytes 8 (e.cellId.getD 0) ++ leBytesI 4 (x.cap.getD 0) ++ leBytes 4 e.q
    ++ leBytesI 4 r.qChg ++ leBytesI 4 r.qDis ++ leBytesI 4 (x.dcir.getD 0) ++ leBytesI 4 (x.k.getD 0) ++ leBytesI 4 (x.ocv.getD 0))

/-- A result record is published, placed on its results ring and written to the store; EST_GRADED is raised (R212). -/
def sendResult (k bin cause : Nat) (hold : Bool) (x : Graded) (s : State) : State :=
  let b := resultRecord s k bin cause hold x
  let s1 := modEst k (fun e => { e with res := b }) s
  let s2 := { s1 with rcp := { s1.rcp with resSeq := (s1.rcp.resSeq + 1) % 2 ^ 32 } }
  raise .fabric Cause.estGraded k (nvmRequest (.record Kind.res k b) (ringPush (48 + galOf k / 2) b s2))

/-- The graded quantities of a channel now. -/
def gradedOf (s : State) (k : Nat) : Graded :=
  let e := s.getEst k
  let kv := match modelOf s k with | some m => kOf m e.kPts | none => none
  { cap := e.capArm.map fun x => (x : Int), dcir := e.dcirArm, k := kv, ocv := gradedOcv e }

/-- Grading of the bound or last-bound recipe, if it has a GRADE section. -/
def grade (k cause : Nat) (s : State) : State :=
  match alFind (s.getCh k).rcp.recipe s.rcp.grades with
  | some g =>
    let x := gradedOf s k
    let s1 := match x.k with | some v => modEst k (fun e => { e with k := v }) s | none => s
    let bin := binOf g x
    let s2 := if bin = 0xFF then raise .fabric Cause.estNoBin k s1 else s1
    sendResult k bin cause false x s2
  | none => s

/-- The second record of a graded recipe that ends from HOLD (R212). -/
def gradeHold (k cause : Nat) (s : State) : State :=
  if (s.getCh k).rcp.graded then sendResult k 0xFE cause true (gradedOf s k) s else s

/-! ### Commands (R215) -/

/-- A command to a channel whose estimator is OFF is refused; the channel gate is that of R26. -/
def estCmd (p : Path) (k : Nat) (f : State → State) (s : State) : State :=
  chGate p k (Addr.est k 4) (fun t => if (t.getEst k).st = .off then raise .fabric Cause.estCmdRefused k t else f t) s

def execEstCmdReinit (p : Path) (k : Fin 128) (s : State) : Host.Outcome State Fault Refusal := .next (estCmd p k (estWait k) s)

def klogStart (k : Nat) (s : State) : State := modEst k (fun e => { e with kLog := true, kPts := [], kArm := none, kStart := s.tb.run, kTk := s.tb.run }) s
def klogStop (k : Nat) (s : State) : State := modEst k (fun e => { e with kLog := false }) s

/-- EST_CMD GRADE: IDLE or HOLD, with a bound or last-bound recipe that has a GRADE section (R210). -/
def gradeCmd (k : Nat) (s : State) : State :=
  let c := s.getCh k
  if (c.st = .idle ∨ c.st = .hold) ∧ c.rcp.armed = true ∧ (alFind c.rcp.recipe s.rcp.grades).isSome = true then grade k Cause.estGraded s
  else raise .fabric Cause.estCmdRefused k s

def relearnCmd (k : Nat) (s : State) : State := modEst k (fun e => { e with relearn := true, changed := true }) s

def execEstCmdKlogStart (p : Path) (k : Fin 128) (s : State) : Host.Outcome State Fault Refusal := .next (estCmd p k (klogStart k) s)

def execEstCmdKlogStop (p : Path) (k : Fin 128) (s : State) : Host.Outcome State Fault Refusal :=
  .next (estCmd p k (klogStop k) s)

def execEstCmdGrade (p : Path) (k : Fin 128) (s : State) : Host.Outcome State Fault Refusal := .next (estCmd p k (gradeCmd k) s)

def execEstCmdRelearn (p : Path) (k : Fin 128) (s : State) : Host.Outcome State Fault Refusal :=
  .next (estCmd p k (relearnCmd k) s)

end Sys2Proof.Machine
end

