-- ==== Sys2Proof/Machine/Regulate.lean ====
section
/-!
DEFINITION. The channel regulators: what a regulator does on the next tick, the commands it takes up (R122), slewing and
starts (R123, R124), reversals (R126, R127), the loops (R128), grants (R226), the demand split (R129), and a cell's
qualified return (R139, R140).
-/

namespace Sys2Proof.Machine

/-! ### Lenders (R229) -/

/-- A step rests without an OCV point or a termination on a voltage, current or derived quantity. -/
def lendStep (t : List Byte) : Bool :=
  (Stp.type t == StepT.rest || Stp.type t == StepT.groupWait)
    && !Stp.ocvPoint t && (Stp.slots t).all fun j => let q := Trm.qty (Stp.term t j); !(decide (2 ≤ q) && decide (q ≤ 7))

/-- Lent charge of the period, uAh. -/
def lentQ (s : State) (k : Nat) : Nat := (qUah s k (s.getCh k).lentAcc).natAbs

/-- What R229 asks of a lender wherever it rests. -/
def lendFit (s : State) (k : Nat) : Bool :=
  let c := s.getCh k
  populated s k && Sump.chLend s k && Sump.lendEn s && c.drain.isNone && !c.suspect
    && (s.getEst k).st == .valid && decide (Config.lendSoc ≤ (s.getEst k).socRep)
    && !c.lendQ && decide ((lentQ s k : Int) < Sump.lendQ s)

/-- An eligible lender (R229). -/
def eligible (s : State) (k : Nat) : Bool :=
  let c := s.getCh k
  lendFit s k && ((inRestStep s k && lendStep (openStep s k)) || (c.st == .hold && Hdr.holdMode (boundRcp s k) == 1 && !c.rcp.topoff))

def lenders (s : State) : List Nat := (popAll s).filter (eligible s)

/-! ### What the next tick asks of a channel -/

/-- What a regulator does on the next tick: no demand, the ramp of a drain, or its loops, restarting or not, with the
command the step engine or the sump hands it. -/
inductive Plan where
  | rest
  | drain
  | run (restart : Bool) (new : Option Sp)
  | lend (restart : Bool) (new : Option Sp)
  deriving DecidableEq, Repr

/-- The record of the step that is open on the next tick, as the engine staged it. -/
def stepNext (s : State) (k : Nat) : Option (List Byte) :=
  let c := s.getCh k
  let open_ := if c.rcp.isOpen then some (openStep s k) else none
  match c.eng with
  | some a =>
    match a.eff with
    | .boundary _ _ (.step i) => some (rcpStep (boundRcp s k) i)
    | .launch (.step i) _ => some (rcpStep (boundRcp s k) i)
    | .boundary _ _ _ => none
    | .launch _ _ => none
    | .quit _ => none
    | .fault _ _ => none
    | _ => open_
  | none => open_

/-- The lend target of the next tick (R230, R231). -/
def lendTarget (s : State) (k : Nat) : Int :=
  match s.sump.stage with
  | some a => if a.at_ = s.tb.run + 1 then (alFind k a.lends).getD 0 else (s.getCh k).lend
  | none => (s.getCh k).lend

/-- The lend command of R231. -/
def lendSp (s : State) (k : Nat) (v : Int) : Sp :=
  { mode := .cc, dis := true, value := v, slew := Sump.lendSlew s, ibnd := Sump.lendI s k,
    vlim := (match modelOf s k with | some m => Mdl.vCut m | none => 0) + Sump.lendVm s }

/-- A channel at rest lends while it is eligible, `may`, and else ramps its lending down at once (R231, R237). -/
def lendPlan (s : State) (k : Nat) (may restart : Bool) : Plan :=
  let c := s.getCh k
  let v := if may then lendTarget s k else 0
  if 0 < v ∨ (c.lending = true ∧ c.reg.iDem ≠ 0) then
    (let x := lendSp s k v
     .lend restart (if c.lending && c.reg.cmd == some x then none else some x))
  else .rest

/-- What a recipe goes on to: a step that drives (no command: TEMP_WAIT), one that rests, where lending goes on, FLOAT, or a drain
to IDLE. -/
def nextPlan (s : State) (k : Nat) (n : RcpNext) (cmd : Option Sp) (hot : Bool) : Plan :=
  let b := boundRcp s k
  match n with
  | .step i =>
    if drives (Stp.type (rcpStep b i)) then (if cmd.isSome then .run false cmd else .rest)
    else lendPlan s k (lendFit s k && lendStep (rcpStep b i)) false
  | .hold =>
    if Hdr.holdMode b = 2 then (if cmd.isSome && !hot then .run false cmd else .rest)
    else lendPlan s k (lendFit s k && Hdr.holdMode b == 1) false
  | .idle _ => .drain

/-- The host pause source as the commands taken for the next tick leave it. -/
def hostPauseNext (c : Channel) : Bool :=
  c.host.foldl (fun b h => match h with | .pause => true | .resume => false | _ => b) c.psHost

/-- A pause source will be set on the next tick. -/
def pausedNext (c : Channel) : Bool := hostPauseNext c || c.psSump || c.psEcho || c.psRet

/-- What a channel in STEP or HOLD does with no boundary. -/
def workPlan (s : State) (k : Nat) (st : ChSt) (restart : Bool) : Plan :=
  let c := s.getCh k
  let cmd := match c.eng with | some a => a.cmd | none => none
  match st with
  | .step => if drives (Stp.type (openStep s k)) then .run restart cmd else lendPlan s k (eligible s k) restart
  | .hold =>
    let hot := match c.eng with | some a => a.rcp.holdHot | none => c.rcp.holdHot
    if c.rcp.topoff || Hdr.holdMode (boundRcp s k) == 2 then (if hot then .rest else .run (restart || c.rcp.holdHot) cmd)
    else lendPlan s k (eligible s k) restart
  | _ => .rest

/-- A drain will run on the next tick (R134, R261). -/
def drainsNext (s : State) (c : Channel) : Bool :=
  c.drain.isSome || c.host.contains .stop || c.host.contains .disable
    || (match s.tb.drain with | some d => decide (d.from_ = s.tb.run + 1) | none => false)

/-- The plan of channel k for the next tick. -/
def plan (s : State) (k : Nat) : Plan :=
  let c := s.getCh k
  if !(c.st.active) || c.suspect || c.lostNext || c.fltNext.isSome then .rest
  else if drainsNext s c then (if c.reg.iDem = 0 then .rest else .drain)
  else
    let cmd := match c.eng with | some a => a.cmd | none => none
    let hot := match c.eng with | some a => a.rcp.holdHot | none => false
    match c.eng.map fun (a : EngAct) => a.eff with
    | some (.fault _ _) => .rest
    | some .tempIn => .rest
    | some .topOff => .rest
    | some .tempOut => .run true cmd
    | some (.launch n _) => nextPlan s k n cmd hot
    | some (.boundary _ _ n) => nextPlan s k n cmd hot
    | some (.quit _) => if c.reg.iDem = 0 then .rest else .drain
    | some .topOn => if hot then .rest else .run false cmd
    | _ =>
      if c.st = .paused then (if pausedNext c then .rest else workPlan s k c.left true)
      else if pausedNext c && (c.st == .step || c.st == .hold || c.st == .tempWait) then .rest
      else workPlan s k c.st false

/-! ### The command that is struck (R122) -/

/-- The commands staged for one tick: the one struck, and those superseded. -/
structure Choice where
  cmd : Option Sp := none
  entry : Option Nat := none
  beaten : List Nat := []
  superseded : Nat := 0
  taken : Nat := 0

/-- A timed setpoint is legal for the channel (R121). -/
def tcSpOk (s : State) (k i : Nat) : Bool := decide ((Tc.sp s k (s.getTc i).raw).ibnd ≤ iMax s k)

/-- Timed setpoints the channel may apply on the next tick: its open step is then an EXT step (R258). -/
def dueSetpoints (s : State) (k : Nat) : List Nat :=
  match stepNext s k with
  | some t =>
    if Stp.type t = StepT.ext ∧ (s.getCh k).suspect = false then (tcDue s TcK.setpoint k (s.tb.run + 1)).filter (tcSpOk s k) else []
  | none => []

/-- The run tick at which a timed command is staged to its units: 16 ticks before its launch tick (R252). -/
def tcStaged (s : State) (i : Nat) : Nat := (s.getTc i).l - 16

/-- A step engine's command wins over a host command; among one source's the last staged wins (R122). A timed setpoint is a host
command, staged at its release. -/
def choose (s : State) (k : Nat) (eng : Option Sp) : Choice :=
  let c := s.getCh k
  let due := dueSetpoints s k
  let n := c.cmds.length
  match eng with
  | some x => { cmd := some x, beaten := due, superseded := n + due.length, taken := n }
  | none =>
    match (c.cmds.filter fun x => x.1 == .engine).getLast? with
    | some x => { cmd := some x.2.1, beaten := due, superseded := n - 1 + due.length, taken := n }
    | none =>
      match due.getLast?, c.cmds.getLast? with
      | some i, x? =>
        match x?.filter fun x => decide (tcStaged s i ≤ x.2.2) with
        | some x => { cmd := some x.2.1, beaten := due, superseded := n + due.length - 1, taken := n }
        | none => { cmd := some (Tc.sp s k (s.getTc i).raw), entry := some i, beaten := due.dropLast, superseded := n + due.length - 1, taken := n }
      | none, some x => { cmd := some x.2.1, superseded := n - 1, taken := n }
      | none, none => {}

/-! ### Bounds -/

/-- ib_eff in a step with TEMP_EN (R163). -/
def derate (b : List Byte) (ib t : Int) : Int :=
  let der := Hdr.derMin b
  let x := if der = 100 ∨ t ≤ Hdr.tDer0 b then ib
    else ib - divT (ib * (100 - der) * (t - Hdr.tDer0 b)) (100 * (Hdr.tStop b - Hdr.tDer0 b))
  max x 1000

/-- The temperature derating uses: T_STOP while T reads as above every threshold. -/
def derTemp (s : State) (k : Nat) : Int := (tempOf s k).getD (Hdr.tStop (boundRcp s k))

/-- ib_eff of a command on the next tick. -/
def ibEffOf (s : State) (k : Nat) (ib : Int) : Int :=
  match stepNext s k with
  | some t => if Stp.tempEn t && drives (Stp.type t) then derate (boundRcp s k) ib (derTemp s k) else ib
  | none => ib

/-- g_k of the next tick (R225). -/
def grantNext (s : State) (k : Nat) : Int :=
  match s.sump.stage with
  | some a => if a.at_ = s.tb.run + 1 then (alFind k a.grants).getD (s.getCh k).grant else (s.getCh k).grant
  | none => (s.getCh k).grant

/-- s_k of R225 and R226. -/
def slewI (s : State) (k : Nat) (c : Sp) : Int := if c.mode = .cc ∨ c.mode = .cr then c.slew else chSrdefI s k

/-! ### Slewing and the loops -/

/-- Move a value towards another by at most a step, stopping exactly on it (R123). -/
def slewTo (x target step : Int) : Int := if (target - x).natAbs ≤ step then target else if x < target then x + step else x - step

/-- Start a command (R123); `same`: the command in force has its mode and DIR, and there is no restart. -/
def startCmd (r : Reg) (n : Sp) (same : Bool) (v : Int) : Reg :=
  let r1 := { r with cmd := some n, pend := none, ramp := false, restart := false, target := n.target, done := false }
  let oldLim := match r.cmd with | some c => c.vlim | none => 0
  if same && n.mode != .cr then { r1 with accL := if oldLim = 0 ∧ n.vlim ≠ 0 then r.iDem else r.accL }
  else
    let r2 := { r1 with accL := r.iDem }
    match n.mode with
    | .cc => { r2 with x := r.iDem, trim := 0 }
    | .cv => { r2 with x := v, accV := r.iDem }
    | .cp => { r2 with x := rnd (r.iDem * v) 1000000000 }
    | .cr => { r2 with x := 0, cPrev := r.iDem }

/-- g_eff of the next tick (R226, R227). -/
def gEffNext (r : Reg) (g s_k : Int) (zero : Bool) : Int :=
  if zero then 0 else if g < r.gEff then g else min g (r.gEff + s_k)

/-- What the loops read: v, i, ib, the gains, and the grant. -/
structure LoopIn where
  v : Int
  i : Int
  ib : Int
  kpV : Int
  kiV : Int
  kiI : Int
  tpct : Int
  gEff : Int

/-- grant_limit (R226). -/
def grantLimit (g c : Int) : Int := if g < c.natAbs then (if c < 0 then -g else g) else c

/-- The mode's own loop (R128): the state after it and c before the clamp; for CR, whether the rate limiter limits. -/
def modeLoop (p : LoopIn) (n : Sp) (lo hi : Int) (r : Reg) : Reg × Int × Bool :=
  match n.mode with
  | .cc =>
    let tl := divT (p.tpct * p.ib) 1000
    let trim := if r.limiter = .none then clampI (r.trim + rnd (p.kiI * (r.x - p.i)) 65536) (-tl) tl else r.trim
    ({ r with trim := trim }, r.x + trim, false)
  | .cv =>
    let e := r.x - p.v
    let a := clampI (r.accV + rnd (p.kiV * e) 65536) lo hi
    ({ r with accV := a }, a + rnd (p.kpV * e) 256, false)
  | .cp => (r, rnd (r.x * 1000000000) (max p.v 100000), false)
  | .cr =>
    let c := rnd ((n.vcr - p.v) * 1000000) n.value
    let c' := clampI c (r.cPrev - n.slew) (r.cPrev + n.slew)
    (r, c', c' != c)

/-- The V_LIM loop (R128). -/
def limLoop (p : LoopIn) (n : Sp) (lo hi : Int) (rc : Reg × Int) : Reg × Int :=
  let r := rc.1
  let c := rc.2
  if n.vlim ≠ 0 ∧ n.mode ≠ .cv then
    let e := n.vlim - p.v
    let a := clampI (r.accL + rnd (p.kiV * e) 65536) lo hi
    let l := clampI (a + rnd (p.kpV * e) 256) lo hi
    if l.natAbs < c.natAbs then ({ r with accL := a, limiter := .vlim }, l) else ({ r with accL := c }, c)
  else (r, c)

/-- The loops of R128 on a command in force: the state after the tick, and whether x, or CR's limiter, is done. -/
def loops (p : LoopIn) (n : Sp) (r0 : Reg) : Reg × Bool :=
  let d : Int := if n.dis then -1 else 1
  let lo := min 0 (d * p.ib)
  let hi := max 0 (d * p.ib)
  let r := if n.mode = .cr then r0 else { r0 with x := slewTo r0.x r0.target n.slew }
  match modeLoop p n lo hi r with
  | (r1, c0, limited) =>
    let c := clampI c0 lo hi
    let r2 := { r1 with limiter := if (c.natAbs : Int) = p.ib then .ibnd else .none }
    match limLoop p n lo hi (r2, c) with
    | (r3, c1) =>
      let g := grantLimit p.gEff c1
      ({ r3 with cDem := c1, cPrev := g, iDem := g, gEff := p.gEff, limiter := if g = c1 then r3.limiter else .grant },
       if n.mode = .cr then !limited else r.x == r.target)

/-- What a die at DERATE leaves of a grant: no more than ib x DER_PCT / 100 (R434). -/
def derGrant (s : State) (k : Nat) (ib g : Int) : Int := if dieDerates s k then min g (ib * thmDerPct s / 100) else g

/-- What the loops read for a command in force on the next tick. -/
def loopIn (s : State) (k : Nat) (n : Sp) (r : Reg) : LoopIn :=
  let ib : Int := ibEffOf s k n.ibnd
  { v := vOf s k, i := iOf s k, ib := ib, kpV := chKpV s k, kiV := chKiV s k, kiI := chKiI s k, tpct := chTrimPct s k,
    gEff := gEffNext r (derGrant s k ib (grantNext s k)) (slewI s k n) (s.sump.zeroed && !n.dis) }

/-- The rate of the ramp of a reversal, by its pending command (R126). -/
def rampRate (pend : Sp) (srdef : Int) : Int := if pend.mode = .cc ∨ pend.mode = .cr then pend.slew else srdef

/-- A tick of the ramp of a reversal (R126): the ramp value, or the reversal tick. -/
def rampStep (p : LoopIn) (pend : Sp) (rate : Int) (r : Reg) : Reg × Bool :=
  let r1 := { r with pend := some pend, ramp := true, restart := false, trim := 0, limiter := .none, done := true, gEff := p.gEff }
  if r.iDem.natAbs ≤ rate then
    ({ r1 with ramp := false, rev := true, iDem := 0, x := 0, target := 0, cPrev := 0, cDem := 0, accL := 0 }, true)
  else
    let c := clampI (slewTo r.iDem 0 rate) (-p.ib) p.ib
    let g := grantLimit p.gEff c
    ({ r1 with iDem := g, x := g, target := 0, cPrev := g, cDem := c, accL := g, limiter := if g = c then .none else .grant }, false)

/-- The regulator on a tick with its command in force, after the starts (R123): SLEW_DONE when x, or CR's limiter, is done
for the first time (R124). -/
def regGo (s : State) (k : Nat) (r : Reg) : Reg × Bool × Bool :=
  match r.cmd with
  | some n =>
    match loops (loopIn s k n r) n r with
    | (r', hit) => ({ r' with done := r.done || hit }, hit && !r.done, false)
  | none => ({ r with iDem := 0, cDem := 0, x := 0, restart := false }, false, false)

/-- The regulator ramps towards a reversal for a pending command. -/
def regRamp (s : State) (k : Nat) (c n : Sp) (r : Reg) : Reg × Bool × Bool :=
  match rampStep (loopIn s k c r) n (rampRate n (chSrdefI s k)) r with
  | (r', rev) => (r', false, rev)

/-- A command of the direction in force stops the ramp, unless this tick is the reversal tick: then it becomes the pending
command (R127). -/
def regStop (s : State) (k : Nat) (c n : Sp) (r : Reg) : Reg × Bool × Bool :=
  let rate := rampRate (r.pend.getD c) (chSrdefI s k)
  if r.iDem.natAbs ≤ rate then
    match rampStep (loopIn s k c r) n rate r with
    | (r', rev) => (r', false, rev)
  else regGo s k (startCmd r n (n.mode == .cc) (vOf s k))

/-- The regulator's next tick in its loops: the state, SLEW_DONE, and the reversal tick (R123 to R128). -/
def regRun (s : State) (k : Nat) (restart : Bool) (new : Option Sp) : Reg × Bool × Bool :=
  let r0 := (s.getCh k).reg
  let re := restart || r0.restart
  let v := vOf s k
  let r1 := if re then restartReg r0 else r0
  if r1.rev then
    (let r := { r1 with rev := false }
     match new, r1.pend with
     | some n, _ => regGo s k (startCmd r n false v)
     | none, some n => regGo s k (startCmd r n false v)
     | none, none => regGo s k r)
  else
    match r1.cmd, new with
    | none, none => regGo s k r1
    | none, some n => regGo s k (startCmd r1 n false v)
    | some c, none =>
      if re then regGo s k { startCmd r1 c false v with done := true }
      else if r1.ramp then regRamp s k c (r1.pend.getD c) r1
      else regGo s k r1
    | some c, some n =>
      if re then regGo s k (startCmd r1 n false v)
      else if r1.ramp then
        (if c.dis = n.dis then regStop s k c n r1 else regRamp s k c n r1)
      else if c.dis ≠ n.dis ∧ r1.iDem ≠ 0 then regRamp s k c n r1
      else regGo s k (startCmd r1 n (c.mode == n.mode && c.dis == n.dis) v)

/-- The ramp of a drain (R134). -/
def regDrain (s : State) (k : Nat) : Reg :=
  let r := (s.getCh k).reg
  let v := slewTo r.iDem 0 (chRampdn s k)
  { r with cmd := none, pend := none, ramp := false, rev := false, restart := false, iDem := v, cDem := v, cPrev := v, limiter := .none }

/-! ### The demand split (R129, R130) -/

/-- The phases that are active on the next tick, as offsets: all of the block where every phase was at mid (R64). -/
def actNext (s : State) (k : Nat) : List Nat :=
  let c := s.getCh k
  if c.allMid || c.active.isEmpty then (upto c.nph).filter fun o => (s.getPh (k + o)).st != .fault else c.active

/-- The balance trims of the active phases for the next tick. They hold during a shed ramp, and a density channel has
none. DESIGN CHOICE (log entry 82): the spec does not say how the mean m and BAL_LIM x I_STG / 256 are rounded; m to the nearest
uA, halves away from zero, and the limit by truncation. -/
def balNext (s : State) (k : Nat) (act : List Nat) (imons : List Int) : List Int :=
  let old := act.map fun o => (s.getPh (k + o)).bal
  if act.length < 2 ∧ native s k = false then act.map fun _ => 0
  else if (shedding s k).isSome then old
  else
    let n : Int := act.length
    let im (o : Nat) : Int := imons.getD o 0
    let m := rnd (sumI (act.map im)) n
    let lim := divT (chBalLim s k * phIstg s k) 256
    let b := act.map fun o => clampI ((s.getPh (k + o)).bal + rnd (chBalKi s k * (m - im o)) 65536) (-lim) lim
    let mean := rnd (sumI b) n
    let c := b.map fun x => x - mean
    match c with
    | x :: l => (x - sumI c) :: l
    | [] => []

/-- The shares of a demand before the clamp; the first active phase takes the remainder. -/
def splitDemand (i : Int) (bals : List Int) : List Int :=
  let n : Int := bals.length
  if n = 0 then []
  else
    let base := divT i n
    match bals with
    | b :: l => (base + (i - base * n) + b) :: l.map (base + ·)
    | [] => []

/-- What the regulator stages for the next tick. -/
def stageOf (s : State) (k : Nat) (slack : Int) (imons : List Int) (c : Choice) (x : Reg × Bool × Bool) : RegStage :=
  let r := x.1
  let act := if r.iDem = 0 then [] else actNext s k
  let bals := balNext s k act imons
  let raw := splitDemand r.iDem bals
  let shares := (upto act.length).map fun j => clampShare s (k + act.getD j 0) (raw.getD j 0)
  let dis := decide (r.iDem < 0)
  let ib := match r.cmd with | some n => n.ibnd | none => 0
  { reg := { r with sat := shares != raw }, shares := shares, bals := bals,
    dacs := (upto act.length).map fun j => dacOf s (k + act.getD j 0) dis (shares.getD j 0),
    nAct := act.length, slewDone := x.2.1, reversal := x.2.2, launched := c.cmd.isSome, superseded := c.superseded, taken := c.taken, entry := c.entry,
    beaten := c.beaten, ibEff := ibEffOf s k ib, ibnd := ib, slack := slack }

/-- The regulator's values for the next tick by its plan. -/
def regStage (s : State) (k : Nat) (slack : Int) (imons : List Int) : Option RegStage :=
  match plan s k with
  | .rest => none
  | .drain => some (stageOf s k slack imons {} (regDrain s k, false, false))
  | .run restart new =>
    let c := choose s k new
    some (stageOf s k slack imons c (regRun s k restart c.cmd))
  | .lend restart new => some { stageOf s k slack imons {} (regRun s k restart new) with lend := true, launched := new.isSome }

/-- The tick averages of IMON of a channel's phases: each operand adds up the 128 converter codes of the tick (R41, R129). -/
def imonAvgs (s : State) (k : Nat) (sums : List Nat) : List Int :=
  (upto (s.getCh k).nph).map fun o => imonMean s (k + o) (sums.getD o 0) 128

/-- The regulator of channel k computes for the next tick on the samples of this one and stages its values; the slack says
whether its commit is in time (R128, R490). -/
def execRegulatorCompute (k : Fin 128) (slack : Int) (sums : List Nat) (s : State) : Host.Outcome State Fault Refusal :=
  if s.mode.up && populated s k then
    let imons := imonAvgs s k sums
    .next (modCh k (fun c => { c with stage := regStage s k slack imons })
      (forEach (phasesOf s k) (fun n => modPh n fun p => { p with imonAvg := imons.getD (n - k) 0 }) s))
  else .next s

/-! ### Qualified return (R139, R140) -/

/-- The step that a loss closed reopens with its time, charge and pulse position (R140, R160). -/
def reopenStep (k : Nat) (s : State) : State :=
  let r := (s.getCh k).rcp
  let wait := Stp.type (openStep s k) == StepT.groupWait
  let q := qUah s k (accDiff r.accClose r.accStep)
  let st := stepTime s k s.tb.run
  modCh k (fun c => { c with rcp := subCharge q { c.rcp with isOpen := true, wait := wait, rtk := c.rcp.rtk - st } }) s

/-- The return of channel k is qualified: the step reopens under the cell-return pause, or the channel enters IDLE. The
estimator restarts from OCV either way. -/
def execQualifiedReturn (k : Fin 128) (s : State) : Host.Outcome State Fault Refusal :=
  let c := s.getCh k
  if !s.mode.up || c.st != .lost || c.drain.isSome || decide (c.qual < 820) || decide (s.tb.run < c.qualFrom + 820) then .next s
  else
    let abs := satN (c.qualFrom - c.declTk) (2 ^ 32 - 1)
    let s1 := modEst k (fun e => { e with waitTk := s.tb.run }) (estWait k (modCh k (fun c => { c with absTk := abs }) (clearOpenLoad k s)))
    if Hdr.resume (boundRcp s k) = true ∧ abs ≤ 81920 then
      let s2 := if c.left = .step ∨ c.left = .tempWait then reopenStep k s1 else s1
      let s3 := if c.left = .armed then modCh k (fun c => { c with st := .armed, toldLoss := false, qual := 0 }) s2
        else modCh k (fun c => { c with st := .paused, psRet := true, toldLoss := false, qual := 0, psSeen := c.psSeen ||| 8,
                                        pauseFrom := if c.pauseFrom.isSome then c.pauseFrom else some c.declTk }) s2
      .next (wantDisc k s3)
    else .next (toIdle k s1)

/-- T_DISC_US after DISC closed the cell-return pause ends, and the channel resumes by R133. -/
def execStepResumed (k : Fin 128) (s : State) : Host.Outcome State Fault Refusal :=
  let c := s.getCh k
  if s.mode.up && c.psRet && c.disc && decide (c.discTk + discTicks s k ≤ s.tb.run + 1) then
    .next (raise .fabric Cause.stepResumed k (modCh k (fun c => { c with psRet := false }) s))
  else .next s

end Sys2Proof.Machine
end

