-- ==== Sys2Proof/Machine/Recipe.lean ====
section
/-!
DEFINITION. Recipes: arming and launching (R145, R146), what a step engine decides for a channel at a tick (R148 to R174),
and the happenings it has commands for. Decisions are staged; they act at the launch tick.
-/

namespace Sys2Proof.Machine

/-! ### Arming (R145) -/

/-- Every driving step's I_BND, and I_TOP where the hold needs it, lie within the channel's bound. -/
def rcpBoundsOk (s : State) (k : Nat) (b : List Byte) : Bool :=
  let top := iMax s k
  ((upto (rcpNstep b)).all fun i =>
      let t := rcpStep b i
      !drives (Stp.type t) || decide ((Stp.ibnd t : Int) ≤ top))
    && (!(Hdr.holdMode b == 2 || (Hdr.holdMode b == 1 && decide (0 < Hdr.nRechg b))) || decide ((Hdr.iTop b : Int) ≤ top))

/-- An arm request is accepted (R145); a device drain refuses it (R261). -/
def armOk (s : State) (k r start : Nat) : Bool :=
  let draining := match s.tb.drain with | some d => decide (d.from_ ≤ s.tb.run) | none => false
  (s.getCh k).st == .idle && present s k && !toldAbsent s k && !draining
    && (match rcpOf s r with
        | some b => decide (start < rcpNstep b) && rcpBoundsOk s k b
        | none => false)

/-- The channel is armed: counters at zero, the ACC snapshot taken, what grading needs since arming cleared, and DISC asked
for. -/
def arm (k r start : Nat) (timed : Bool) (s : State) : State :=
  let acc := (s.getFe k).acc
  let s1 := modEst k (fun e => { e with fullAcc := none, capArm := none, dcirArm := none, ocvArm := none, kArm := none, tsSeen := false, gap := false }) s
  wantDisc k (modCh k (fun c => { c with
    st := .armed, eng := none, stage := none, cmds := [], nSup := c.nSup,
    rcp := { recipe := r, bound := true, step := start, start := start, timed := timed, accArm := acc, armed := true, ibEff := c.rcp.ibEff } }) s1)

def armReq (k r start : Nat) (timed : Bool) (s : State) : State := if armOk s k r start then arm k r start timed s else refuseCmd k s

/-! ### What a step starts with -/

/-- The start condition of a TEMP_EN step (R161). -/
def startOk (s : State) (k : Nat) (b t : List Byte) : Bool :=
  if Stp.tempEn t then
    (match tempOf s k with
     | some x => decide (Stp.tLo t ≤ x) && decide (x ≤ Stp.tHi t) && decide (x ≤ Hdr.tStop b - Hdr.tHyst b)
     | none => false)
  else true

/-- T reads at or above T_STOP (R162, R173). -/
def tooHot (s : State) (k : Nat) (b : List Byte) : Bool := match tempOf s k with | some x => decide (Hdr.tStop b ≤ x) | none => true

/-- T allows the demand of a hold to restart (R173). -/
def coolAgain (s : State) (k : Nat) (b : List Byte) : Bool :=
  match tempOf s k with | some x => decide (x ≤ Hdr.tStop b - Hdr.tHyst b) | none => false

/-- The commands of a hold: FLOAT (R171) and a top-off (R172). -/
def floatSp (s : State) (k : Nat) (b : List Byte) : Sp := mkSp s k .cv false (Hdr.vTop b) 0 0 (Hdr.iTop b) 0
def topSp (s : State) (k : Nat) (b : List Byte) : Sp := mkSp s k .cc false (Hdr.iTop b) 0 0 (Hdr.iTop b) (Hdr.vTop b)

/-- A loop counter; and control goes through zero-duration steps to a step that occupies ticks, or the recipe ends (R158,
R159). `met`: zero-duration steps met so far. -/
def resolve (b : List Byte) : Nat → Nat → Nat → List (Nat × Nat) → List (Nat × Nat) × RcpNext
  | 0, _, _, loops => (loops, .idle Cause.rcpChainLong)
  | fuel + 1, met, i, loops =>
    let done : RcpNext := if Hdr.holdMode b = 0 then .idle Cause.rcpDone else .hold
    if rcpNstep b ≤ i then (loops, done)
    else
      let t := rcpStep b i
      let ty := Stp.type t
      if ty ≠ StepT.end_ ∧ ty ≠ StepT.loop then (loops, .step i)
      else if 8 ≤ met then (loops, .idle Cause.rcpChainLong)
      else if ty = StepT.end_ then (loops, done)
      else
        let n := alGet 0 i loops + 1
        if n < Stp.aux16 t then resolve b fuel (met + 1) (Stp.aux8 t) (alSet 0 i n loops)
        else resolve b fuel (met + 1) (i + 1) (alSet 0 i 0 loops)

/-- What follows on index i: the recipe's counters, what it goes on to, and its command. A step whose start condition does
not hold starts in TEMP_WAIT without a command (R161). -/
def follow (s : State) (k : Nat) (b : List Byte) (r : RcpRun) (i : Nat) : RcpRun × RcpNext × Option Sp :=
  match resolve b 10 0 i r.loops with
  | (loops, .step j) =>
    let t := rcpStep b j
    ({ r with loops := loops }, .step j, if startOk s k b t then stepSp s k t else none)
  | (loops, .hold) =>
    if Hdr.holdMode b = 2 then ({ r with loops := loops, holdHot := tooHot s k b }, .hold, some (floatSp s k b))
    else ({ r with loops := loops, holdHot := false }, .hold, none)
  | (loops, n) => ({ r with loops := loops }, n, none)

/-! ### Launching (R146, R174) -/

/-- The T_DISC_US floor is met on the next tick. -/
def floorMet (s : State) (k : Nat) : Bool := let c := s.getCh k; c.disc && decide (c.discTk + discTicks s k ≤ s.tb.run + 1)

/-- Nothing but `stay` is staged by the step engine for the channel. -/
def engFree (c : Channel) : Bool := match c.eng with | some a => a.eff == .stay | none => true

/-- The recipe counters a decision for the next tick starts from. -/
def engRcp (c : Channel) : RcpRun := match c.eng with | some a => a.rcp | none => c.rcp

/-- Stage a decision for the next tick. -/
def stageEng (k : Nat) (a : EngAct) (s : State) : State := modCh k (fun c => { c with eng := some a }) s

/-- The channel launches on the next tick. -/
def launchAct (s : State) (k : Nat) (entry : Option Nat) : EngAct :=
  let r := (s.getCh k).rcp
  match follow s k (boundRcp s k) r r.start with
  | (r', n, cmd) => { eff := .launch n entry, rcp := r', cmd := cmd }

/-- The channel may launch by itself: TIMED = 0, or a GO stands (R146). -/
def mayLaunch (s : State) (k : Nat) : Bool :=
  let c := s.getCh k
  c.st == .armed && c.drain.isNone && !c.suspect && (!c.rcp.timed || c.rcp.go) && floorMet s k && engFree c

def tryLaunch (k : Nat) (s : State) : State := if mayLaunch s k then stageEng k (launchAct s k none) s else s

/-- A GO: it launches a channel that is ARMED, at the T_DISC_US floor at the earliest. -/
def goReq (k : Nat) (s : State) : State :=
  if (s.getCh k).st = .armed then tryLaunch k (modCh k (fun c => { c with rcp := { c.rcp with go := true } }) s) else refuseCmd k s

/-- A write of CH_RCP_ARM: ARM, then GO. -/
def writeRcpArm (p : Path) (k : Nat) (v : Word) (s : State) : State :=
  chGate p k (Addr.ch k 0x100) (fun t =>
    let t1 := if v.toNat.testBit 16 then armReq k (field v 0 5) (field v 8 6) (v.toNat.testBit 18) t else t
    if v.toNat.testBit 17 then goReq k t1 else t1) s

def execChRcpArm (p : Path) (k : Fin 128) (v : Word) (s : State) : Host.Outcome State Fault Refusal := .next (writeRcpArm p k v s)

def execChRcpGo (p : Path) (k : Fin 128) (s : State) : Host.Outcome State Fault Refusal :=
  .next (chGate p k (Addr.ch k 0x100) (goReq k) s)

/-- An ARMED channel with TIMED = 0, or with a GO that stands, reaches its T_DISC_US floor. -/
def execAutoLaunch (k : Fin 128) (s : State) : Host.Outcome State Fault Refusal :=
  .next (if s.mode.up then tryLaunch k s else s)

/-! ### Guards and terminations -/

/-- The recipe guard that trips (R157). -/
def guardOf (s : State) (k : Nat) (b : List Byte) : Option Nat :=
  let v := vOf s k
  let q := (qUah s k (accDiff (s.getFe k).acc (s.getCh k).rcp.accArm)).natAbs
  if Hdr.gVmax b ≠ 0 ∧ Hdr.gVmax b ≤ v then some Cause.rcpGuardVmax
  else if Hdr.gVmin b ≠ 0 ∧ v ≤ Hdr.gVmin b ∧ inRestStep s k = false then some Cause.rcpGuardVmin
  else if Hdr.gQmax b ≠ 0 ∧ Hdr.gQmax b ≤ q then some Cause.rcpGuardQmax
  else none

/-- A quantity that reads the samples, codes 0x02 to 0x07 (R153). -/
def qtySampled (q : Nat) : Bool := decide (2 ≤ q) && decide (q ≤ 7)

/-- The newest regulation sample holds the confirm counters of sampled quantities. -/
def heldSample (s : State) (k : Nat) : Bool :=
  let fl := (s.getFe (regFe s k)).fl
  bitN fl 1 || (bitN fl 2 && !native s k)

/-- The condition of a termination at step time st on the next tick (R152, R154); none: its counter holds (R153). -/
def termCond (s : State) (k : Nat) (t x : List Byte) (st : Nat) : Option Bool :=
  let q := Trm.qty x
  let c := s.getCh k
  let n := 2 ^ Trm.k x
  let h := regHist s k 0 n
  if qtySampled q && (heldSample s k || decide (st - c.rcp.blank0 < Stp.blank t) || (q == 7 && decide (st < 8193))) then none
  else if q = 0x01 then some (decide (Trm.threshU x ≤ st))
  else if q = 0x02 then some (decide (Trm.thresh x ≤ winV h))
  else if q = 0x03 then some (decide (winV h ≤ Trm.thresh x))
  else if q = 0x04 then some (decide (((winI s k h).natAbs : Int) ≤ Trm.thresh x))
  else if q = 0x05 then some (decide (Trm.thresh x ≤ ((winI s k h).natAbs : Int)))
  else if q = 0x06 then some (decide (Trm.thresh x ≤ ((stepQ s k).natAbs : Int)))
  else if q = 0x07 then some (decide (((winV h - winV (regHist s k 8192 n)).natAbs : Int) ≤ Trm.thresh x))
  else if q = 0x08 then some (match tempOf s k with | some y => decide (Trm.thresh x ≤ y) | none => true)
  else if q = 0x09 then some (match tempOf s k with | some y => decide (y ≤ Trm.thresh x) | none => false)
  else if q = 0x0A then (if (estNext s k).st = .valid then some (decide (Trm.thresh x ≤ (estNext s k).socRep)) else none)
  else if q = 0x0B then (if (estNext s k).st = .valid then some (decide ((estNext s k).socRep ≤ Trm.thresh x)) else none)
  else if q = 0x0C then some c.rcp.slewDone
  else if q = 0x0D then some (decide (Trm.threshU x ≤ rcpTime s k (s.tb.run + 1)))
  else some false

/-- TIME_GE, RTIME_GE and SLEW_DONE ignore CONF (R153). -/
def qtyAtOnce (q : Nat) : Bool := q == 0x01 || q == 0x0D || q == 0x0C

/-- The confirm counter of slot j after the next tick, and whether the termination is confirmed (R153). -/
def confirm (s : State) (k : Nat) (t : List Byte) (st : Nat) (conf : List Nat) (j : Nat) : Nat × Bool :=
  let x := Stp.term t j
  let n := conf.getD j 0
  if Trm.qty x = 0 ∨ (Stp.slots t).contains j = false then (0, false)
  else
    match termCond s k t x st with
    | none => (n, false)
    | some true => if qtyAtOnce (Trm.qty x) then (n, true) else (satN (n + 1) 255, decide (Trm.conf x ≤ n + 1))
    | some false => (0, false)

/-- The counters of all slots, and the lowest slot that is confirmed. -/
def confirmAll (s : State) (k : Nat) (t : List Byte) (st : Nat) (conf : List Nat) : List Nat × Option Nat :=
  let l := (upto 4).map (confirm s k t st conf)
  (l.map (·.1), (upto 4).find? fun j => (l.getD j (0, false)).2)

/-- A confirmed termination acts (R155). -/
def termAct (s : State) (k : Nat) (b t : List Byte) (r : RcpRun) (j : Nat) : EngAct :=
  let x := Stp.term t j
  let cause := Cause.rcpTerm0 + j
  let go (i : Nat) : EngAct := match follow s k b r i with | (r', n, cmd) => { eff := .boundary cause j n, rcp := r', cmd := cmd }
  match Trm.action x with
  | 0 => go (r.step + 1)
  | 1 => go (Trm.target x)
  | 2 => go (rcpNstep b)
  | 3 => { eff := .boundary cause j (.idle Cause.rcpTermAbort), rcp := r }
  | _ => { eff := .fault Cause.rcpTermFault (some j), rcp := r }

/-! ### Group waits (R168 to R170) -/

/-- Members of a wait group. -/
def waitMember (s : State) (w k : Nat) : Bool :=
  populated s k && (if s.rcp.waitCfg.isEmpty then true else (leAt s.rcp.waitCfg (4 + 16 * w) 16).testBit k)

/-- The channel waits in a GROUP_WAIT step naming w. -/
def waitingOn (s : State) (w k : Nat) : Bool := inStepType s k StepT.groupWait && Stp.aux8 (openStep s k) == w && (s.getCh k).drain.isNone

def waitHost (s : State) (k : Nat) : Bool := bitN (Stp.aux16 (openStep s k)) 0
def waitAlign (s : State) (k : Nat) : Nat := fieldN (Stp.aux16 (openStep s k)) 1 4

/-- Line-time tick index of the next launch tick. -/
def nextIdx (s : State) : Nat := nextEdgeU s % 2 ^ 32 / 2 ^ 19

/-- Wait group w is released locally on the next tick (R169). -/
def releasedLocally (s : State) (w : Nat) : Bool :=
  let mem := (upto 128).filter (waitMember s w)
  let wait := mem.filter (waitingOn s w)
  !wait.isEmpty && wait.all (fun k => !waitHost s k) && (mem.all fun k => !(s.getCh k).st.active || waitingOn s w k)
    && nextIdx s % 2 ^ maxN (wait.map (waitAlign s)) == 0

/-- A group release that channel k may apply on the next tick names its wait group (R170, R258). -/
def releasesDue (s : State) (k w : Nat) : List Nat :=
  (tcDue s TcK.release k (s.tb.run + 1)).filter fun i => Tc.waitGrp (s.getTc i).raw == w

/-- A local release that stands for the channel, or falls on the next tick (R169). -/
def groupReleased (s : State) (k : Nat) (t : List Byte) : Bool :=
  (engRcp (s.getCh k)).released || (waitMember s (Stp.aux8 t) k && releasedLocally s (Stp.aux8 t))

/-! ### Evaluation (R148, R156) -/

/-- Step time at which a PULSE step ends, and the one at which pulse j starts (R165). -/
def pulseEnd (t : List Byte) : Nat := (Stp.nPulse t + 1) * Stp.tBase t + Stp.nPulse t * Stp.tPulse t
def pulseStart (t : List Byte) (j : Nat) : Nat := (j + 1) * Stp.tBase t + j * Stp.tPulse t

/-- Nothing but the counters. -/
def stayAct (r : RcpRun) (cmd : Option Sp) : EngAct := { eff := .stay, rcp := r, cmd := cmd }

/-- The temperature stop of the open step (R162). -/
def tempStop (s : State) (k : Nat) (b : List Byte) : Bool := Stp.tempEn (openStep s k) && tooHot s k b

/-- A channel in STEP: temperature stop, terminations, natural end. -/
def evalStep (s : State) (k : Nat) (b : List Byte) (r : RcpRun) (cmd : Option Sp) : EngAct :=
  let t := openStep s k
  let st := stepTime s k (s.tb.run + 1)
  if tempStop s k b then { eff := .tempIn, rcp := r, cmd := cmd }
  else
    match confirmAll s k t st r.conf with
    | (_, some j) => termAct s k b t r j
    | (conf, none) =>
      let r1 := { r with conf := conf }
      let ends := (Stp.type t == StepT.pulse && decide (pulseEnd t ≤ st)) || (Stp.type t == StepT.groupWait && (r.released || !(releasesDue s k (Stp.aux8 t)).isEmpty))
      if ends then
        match follow s k b r1 (r.step + 1) with | (r', n, c) => { eff := .boundary Cause.rcpStepDone 4 n, rcp := r', cmd := c }
      else stayAct r1 cmd

/-- A 64-tick window that holds the recharge count (R171). -/
def heldWindow (s : State) (k : Nat) (h : List Samp) : Bool := h.any fun x => bitN x.fl 1 || (bitN x.fl 2 && !native s k)

/-- The temperature holds the demand of a hold at 0 on the next tick (R173). -/
def hotNext (s : State) (k : Nat) (b : List Byte) (r : RcpRun) : Bool := if r.holdHot then !coolAgain s k b else tooHot s k b

/-- A channel in HOLD: the temperature rule, the recharge count, the taper of a top-off (R171 to R173). -/
def evalHold (s : State) (k : Nat) (b : List Byte) (r : RcpRun) (cmd : Option Sp) : EngAct :=
  let c := s.getCh k
  if Hdr.holdMode b = 2 then
    stayAct { r with holdHot := hotNext s k b r } cmd
  else if r.topoff then
    if hotNext s k b r then stayAct { r with holdHot := true, topBlank := 8192 } cmd
    else
      let low := decide (((winI s k (regHist s k 0 128)).natAbs : Int) ≤ Hdr.iTopEnd b)
      let conf := if 0 < r.topBlank then 0 else if low then r.topConf + 1 else 0
      let r1 := { r with holdHot := false, topBlank := r.topBlank - 1, topConf := conf }
      if 64 ≤ conf then { eff := .topOff, rcp := { r1 with topoff := false, topConf := 0, lowTk := 0 } } else stayAct r1 cmd
  else if Hdr.nRechg b = 0 then stayAct r cmd
  else
    let w := regHist s k 0 64
    let low :=
      if c.lending ∨ 0 < c.lendAfter then 0
      else if heldWindow s k w then r.lowTk
      else if winV w ≤ Hdr.vRechg b then satN (r.lowTk + 1) 8192 else 0
    stayAct { r with lowTk := low } cmd

/-- A timed launch the channel may apply on the next tick (R146, R258). -/
def launchDue (s : State) (k : Nat) : Option Nat := (tcDue s TcK.launch k (s.tb.run + 1)).getLast?

/-- What the step engine decides for channel k on the next tick, in the order of R156. -/
def evalCh (s : State) (k : Nat) : Option EngAct :=
  let c := s.getCh k
  let b := boundRcp s k
  let cmd := match c.eng with | some a => a.cmd | none => none
  let r0 := engRcp c
  let rel := r0.released || (c.st == .step && inStepType s k StepT.groupWait && groupReleased s k (openStep s k))
  let r := { r0 with released := rel }
  let guard := if c.st = .step ∨ c.st = .hold then guardOf s k b else none
  if c.lostNext || c.fltNext.isSome || c.drain.isSome then c.eng
  else if c.suspect then (if rel then some (stayAct r cmd) else c.eng)
  else if guard.isSome then guard.map fun g => { eff := .fault g none, rcp := r }
  else if !engFree c then (if c.st = .step ∧ tempStop s k b = true then some { eff := .tempIn, rcp := c.rcp } else c.eng)
  else
    match c.st with
    | .armed =>
      match launchDue s k with
      | some e => if floorMet s k && !drainsNext s c then some (launchAct s k (some e)) else c.eng
      | none => c.eng
    | .step => some (if drainsNext s c || pausedNext c then stayAct r cmd else evalStep s k b r cmd)
    | .hold => some (if drainsNext s c || pausedNext c then stayAct r cmd else evalHold s k b r cmd)
    | .paused =>
      if c.left = .hold ∧ drainsNext s c = false ∧ pausedNext c = false then
        some (stayAct { r with holdHot := hotNext s k b r && (r.topoff || Hdr.holdMode b == 2), topBlank := if hotNext s k b r then 8192 else r.topBlank } cmd)
      else c.eng
    | .tempWait =>
      if !drainsNext s c && !pausedNext c && startOk s k b (openStep s k) then
        let t := openStep s k
        let first := if Stp.type t = StepT.pulse then some (pulseSp s k t r.seg) else stepSp s k t
        some { eff := .tempOut, rcp := r, cmd := if c.reg.cmd.isNone then first else none }
      else some (stayAct r cmd)
    | _ => c.eng

/-- Step engine g evaluates its channels for the next tick, in ascending id, and commits (R144, R148, R490). -/
def execStepEngineEval (g : Fin 8) (slack : Int) (s : State) : Host.Outcome State Fault Refusal :=
  if !stageOn s then .next s
  else
    let one (k : Nat) (t : State) : State := modCh k (fun c => { c with eng := evalCh s k }) t
    .next (modGal g (fun x => { x with engCommit := some (s.tb.run + 1, slack) }) (forEach (popOfGal s g) one s))

/-! ### Happenings with commands of their own -/

/-- Captures of the PULSE step at step time st: a pulse's W1 at its start, its W2 at its end (R166). -/
def pulseCapture (s : State) (k : Nat) (t : List Byte) (st : Nat) (r : RcpRun) : RcpRun :=
  let n := Stp.capTk t
  let w := regHist s k 0 n
  let gap := match r.gapTk with | some g => decide (s.tb.run < g + n) | none => false
  let ok := decide (w.length = n) && !gap && w.all fun x => !bitN x.fl 0 && !bitN x.fl 1 && (native s k || !bitN x.fl 2)
  let v := winV w
  let i := winI s k w
  match (upto (Stp.nPulse t)).find? fun j => pulseStart t j == st || pulseStart t j + Stp.tPulse t == st with
  | none => r
  | some j =>
    if pulseStart t j = st then { r with pulses := r.pulses.take j ++ [(v, i, 0, 0, ok)] }
    else
      match r.pulses[j]? with
      | some (v1, i1, _, _, ok1) => { r with pulses := r.pulses.take j ++ [(v1, i1, v, i, ok1 && ok)] }
      | none => r

/-- The segment that is struck at step time st. -/
def segAt (t : List Byte) (st : Nat) : Nat :=
  let p := Stp.tBase t + Stp.tPulse t
  2 * (st / p) + (if Stp.tBase t ≤ st % p then 1 else 0)

/-- Step time reaches a segment edge of a PULSE step on the next tick: the windows are captured, and the next segment's
command is staged (R165, R166). -/
def execPulseSegment (k : Fin 128) (s : State) : Host.Outcome State Fault Refusal :=
  let c := s.getCh k
  let t := openStep s k
  let st := stepTime s k (s.tb.run + 1)
  let r := engRcp c
  let eff := match c.eng with | some a => a.eff | none => .stay
  if s.mode.up && inStepType s k StepT.pulse && (eff == .stay || eff == .tempIn) && !c.suspect && c.drain.isNone && decide (r.seg < segAt t st) then
    let r1 := { pulseCapture s k t st r with seg := segAt t st }
    .next (stageEng k { eff := eff, rcp := r1, cmd := if st < pulseEnd t then some (pulseSp s k t (segAt t st)) else none } s)
  else .next s

/-- The recipe ends from TEMP_WAIT or HOLD with a cause on the next tick. -/
def stageQuit (k cause : Nat) (s : State) : State := stageEng k { eff := .quit cause, rcp := engRcp (s.getCh k) } s

/-- T_WAIT_MAX_TK ticks in TEMP_WAIT (R162). -/
def execRcpTempTimeout (k : Fin 128) (s : State) : Host.Outcome State Fault Refusal :=
  let c := s.getCh k
  if s.mode.up && c.st == .tempWait && c.drain.isNone && engFree c && decide (Hdr.tWaitMax (boundRcp s k) ≤ c.rcp.tempTk + 1) then
    .next (stageQuit k Cause.rcpTempTimeout s)
  else .next s

/-- A hold whose happenings may act. -/
def holdFree (s : State) (k : Nat) : Bool :=
  let c := s.getCh k
  s.mode.up && c.st == .hold && c.drain.isNone && !c.suspect && engFree c

/-- A need for recharge: a top-off starts, or the limit of recharges ends the recipe (R171, R172). While the temperature is at or
above T_STOP it holds the demand of the top-off at 0 (R173). -/
def execTopOffStart (k : Fin 128) (s : State) : Host.Outcome State Fault Refusal :=
  let c := s.getCh k
  let b := boundRcp s k
  let r := engRcp c
  if holdFree s k && Hdr.holdMode b == 1 && decide (0 < Hdr.nRechg b) && !r.topoff && decide (8192 ≤ r.lowTk) then
    if Hdr.nRechg b ≤ r.rechg then .next (stageQuit k Cause.rcpRechgLimit s)
    else
      let hot := tooHot s k b
      .next (stageEng k { eff := .topOn, cmd := some (topSp s k b),
                          rcp := { r with topoff := true, rechg := r.rechg + 1, topTk := 0, topBlank := if hot then 8192 else 8191, topConf := 0,
                                          lowTk := 0, holdHot := hot } } s)
  else .next s

/-- A top-off has lasted T_TOP_MAX_TK ticks (R172). -/
def execRcpTopoffTimeout (k : Fin 128) (s : State) : Host.Outcome State Fault Refusal :=
  let c := s.getCh k
  if holdFree s k && c.rcp.topoff && decide (Hdr.tTopMax (boundRcp s k) ≤ c.rcp.topTk + 1) then
    .next (stageQuit k Cause.rcpTopoffTimeout s)
  else .next s

/-- The hold has lasted T_HOLD_MAX_TK ticks (R171). -/
def execRcpHoldEnd (k : Fin 128) (s : State) : Host.Outcome State Fault Refusal :=
  let c := s.getCh k
  let b := boundRcp s k
  if holdFree s k && Hdr.tHoldMax b != 0 && decide (Hdr.tHoldMax b ≤ c.rcp.holdTk + 1) then .next (stageQuit k Cause.rcpHoldEnd s)
  else .next s

end Sys2Proof.Machine
end

