-- ==== Sys2Proof/Machine/Sump.lean ====
section
/-!
DEFINITION. The sump: the allocation of grants (R225 to R228), lenders (R229 to R231), the source, the comparators and
the line inhibit (R219 to R223), and the ride-through sequencer (R232 to R237).
-/

namespace Sys2Proof.Machine

def modSump (f : Sump → Sump) (s : State) : State := { s with sump := f s.sump }

/-! ### Budget and levels -/

/-- The told budget is older than BUD_AGE_MS (R228). -/
def budOld (s : State) : Bool :=
  match s.sump.told with
  | some (_, tk) => decide ((Sump.budAgeMs s : Int) * 8192 < ((s.tb.run : Int) - tk) * 1000)
  | none => false

/-- The fallback budget is in force (R228). -/
def budFallback (s : State) : Bool := s.sump.told.isNone || s.sump.stale

/-- The state lets the front end supply: NORMAL, and DROOP with no loss (R228, R232). -/
def budgetOn (s : State) : Bool := s.sump.ride == .normal || (s.sump.ride == .droop && !s.sump.loss)

/-- B of an allocation that starts now. -/
def budgetOf (s : State) : Int :=
  if budgetOn s = false then 0
  else if budFallback s then Sump.budFb s
  else match s.sump.told with | some (mw, _) => mw | none => Sump.budFb s

/-- SUMP_BUDGET: B in force. -/
def budgetNow (s : State) : Int :=
  if budgetOn s = false then 0
  else if budFallback s then Sump.budFb s
  else match s.sump.budIn with | some mw => mw | none => Sump.budFb s

/-- The level at which the droop comparator releases, uV. -/
def busOkUv (s : State) : Int := (Sump.vDroop s + Sump.hyst s) * 1000

/-- The bus is at V_DROOP + HYST or above. -/
def busOk (s : State) : Bool := !s.sump.cmpDroop && decide (busOkUv s ≤ vsumpUv s)

/-! ### Lenders (R229, R230) -/

/-- Lending is allowed (R220, R230). -/
def lendAllowed (s : State) : Bool :=
  !s.sump.inh && (s.sump.ride == .lend || (s.sump.ride == .ret && s.sump.retFrom == .lend) || (s.sump.ride == .normal && Sump.lendNorm s))

/-! ### Pauses of the sump (R220, R232) -/

/-- The state LEND, or RETURN from it. -/
def lendState (s : State) : Bool := s.sump.ride == .lend || (s.sump.ride == .ret && s.sump.retFrom == .lend)

/-- A state whose channels are paused, or RETURN from one. -/
def pauseState (s : State) : Bool :=
  let p (r : Ride) : Bool := r == .pause || r == .hold || r == .expire
  p s.sump.ride || (s.sump.ride == .ret && p s.sump.retFrom)

/-- The channel charges: its command is a CHARGE command. -/
def charges (c : Channel) : Bool := match c.reg.cmd with | some n => !n.dis | none => false

/-- The sump holds the channel paused: an inhibit, a state that pauses every channel, or in LEND a charging channel of a
class that is allocated nothing (R232). -/
def sumpHolds (s : State) (k : Nat) : Bool :=
  s.sump.inhPause || pauseState s || (lendState s && bitN s.sump.noCls (Sump.prio s k) && charges (s.getCh k))

/-- A channel on which a pause source is set: in STEP, TEMP_WAIT or HOLD, or PAUSED out of one of them. -/
def sumpActs (c : Channel) : Bool := pausable c || (c.st == .paused && c.drain.isNone)

/-- Set the source on every channel it holds; in LEND a class that is allocated something again is lifted. -/
def sumpPauses (s : State) : State :=
  forEach (popAll s) (fun k t =>
    let c := t.getCh k
    if sumpHolds t k then (if sumpActs c && !c.psSump then setSump k (t.sump.ride.ctorIdx) t else t)
    else if lendState t && c.psSump && t.sump.clrCls.isNone then clearSump k 0 t
    else t) s

/-! ### The allocation (R225) -/

/-- How a channel enters an allocation. -/
inductive ReqKind where
  | charge | discharge | lender
  deriving DecidableEq

/-- A channel's request: its class, v, ib, q, and d or r in sump mW. -/
structure Req where
  k : Nat
  kind : ReqKind
  cls : Nat
  v : Int
  ib : Int
  q : Int
  p : Int

/-- Bound of the command in force: I_BND, or ib_eff. -/
def ibOf (c : Channel) (n : Sp) : Int := if c.rcp.derate then c.rcp.ibEff else n.ibnd

/-- The request of a channel: none when it does not regulate. In LEND a charging channel that only its class pauses still
requests, with the demand it had (log entry 40). -/
def reqOf (s : State) (k : Nat) : Option Req :=
  let c := s.getCh k
  let v := max (vOf s k) 100000
  let a : Int := c.reg.cDem.natAbs
  let held := c.st == .paused && c.psSump && !c.psHost && !c.psEcho && !c.psRet && lendState s && !s.sump.inhPause
  let works := (c.st == .step || c.st == .hold || held) && !c.suspect
  let dRaw (q : Int) : Int := divT (rnd (q * v) 1000000000 * 1000 + Sump.etaC s - 1) (Sump.etaC s)
  let rRaw : Int := divT (rnd (a * v) 1000000000 * Sump.etaD s) 1000
  match c.reg.cmd with
  | some n =>
    let ib := ibOf c n
    if !works then none
    else if c.lending then some { k := k, kind := .lender, cls := Sump.prio s k, v := v, ib := ib, q := a, p := rRaw }
    else if n.dis then some { k := k, kind := .discharge, cls := Sump.prio s k, v := v, ib := ib, q := a, p := rRaw }
    else
      let q1 := min ib (a + 8 * slewI s k n)
      let q := if n.mode = .cc then min q1 c.reg.target.natAbs else q1
      some { k := k, kind := .charge, cls := Sump.prio s k, v := v, ib := ib, q := q, p := dRaw q }
  | none =>
    if c.drain.isNone || c.reg.iDem == 0 then none
    else if c.reg.iDem < 0 then some { k := k, kind := .discharge, cls := Sump.prio s k, v := v, ib := iMax s k, q := a, p := rRaw }
    else some { k := k, kind := .charge, cls := Sump.prio s k, v := v, ib := iMax s k, q := a, p := dRaw a }

/-- Sum of the requested powers. -/
def powerOf (l : List Req) : Int := sumI (l.map fun r => r.p)

/-- Grants of one class of charging channels from what remains: the grants, and what remains after it. -/
def allotClass (s : State) (l : List Req) (rest : Int) : List (Nat × Int) × Int :=
  let dc := powerOf l
  if dc ≤ rest then (l.map (fun r => (r.k, r.q)), rest - dc)
  else (l.map (fun r => (r.k, divT (divT (divT (r.p * rest) dc * Sump.etaC s) 1000 * 1000000000) r.v)), 0)

/-- Grants of the charging channels by class, in a constrained allocation; the classes allocated nothing; and the power
granted. -/
def allotCharge (s : State) (l : List Req) : List Nat → Int → List (Nat × Int) × Nat × Int
  | [], _ => ([], 0, 0)
  | c :: cs, rest =>
    let mine := l.filter fun r => r.cls == c
    match allotClass s mine rest with
    | (g, rest') =>
      match allotCharge s l cs rest' with
      | (gs, no, used) => (g ++ gs, if 0 < powerOf mine ∧ rest ≤ 0 then setBitN no c true else no, used + min rest (powerOf mine))

/-- Cut discharging power group by group: the grants that differ from ib_k, and the power cut. -/
def cutGroups (s : State) : List (List Req) → Int → List (Nat × Int) × Int
  | [], _ => ([], 0)
  | l :: gs, cut =>
    if cut ≤ 0 then ([], 0)
    else
      let sg := powerOf l
      if sg ≤ cut then
        (match cutGroups s gs (cut - sg) with
         | (g, c) => (l.map (fun r => (r.k, 0)) ++ g, sg + c))
      else (l.map (fun r => (r.k, divT (divT ((r.p - divT (r.p * cut) sg) * 1000) (Sump.etaD s) * 1000000000) r.v)), cut)

/-- The lend targets of R230. -/
def lendTargets (s : State) (d r : Int) : List (Nat × Int) :=
  if lendAllowed s then
    let es := lenders s
    let need := max 0 (d - (budgetOf s + r - Sump.pAux s))
    let want := divT (need * 1000 + Sump.etaD s - 1) (Sump.etaD s)
    let cap := sumI (es.map fun k => rnd (Sump.lendI s k * max (vOf s k) 100000) 1000000000)
    es.map fun k => (k, if cap = 0 then 0 else min (Sump.lendI s k) (divT (Sump.lendI s k * want) cap))
  else []

/-- The whole of an allocation on the values in force, for the tick at which its grants come into force. -/
def allocate (s : State) (at_ : Nat) : AllocStage :=
  let rs := (popAll s).filterMap (reqOf s)
  let chg := rs.filter fun r => r.kind == .charge
  let dis := rs.filter fun r => r.kind == .discharge
  let len := rs.filter fun r => r.kind == .lender
  let d := powerOf chg
  let r := powerOf dis
  let l := powerOf len
  let a := budgetOf s + r + l - Sump.pAux s
  let constr := decide (a < d)
  let e := if s.sump.ride == .normal then Sump.export s else 0
  let cut := max 0 (r + l - Sump.pAux s - d - e)
  let cls (c : Nat) : List Req := dis.filter fun x => x.cls == c
  match allotCharge s chg [0, 1, 2, 3] (max a 0), cutGroups s [len, cls 3, cls 2, cls 1, cls 0] cut with
  | (gc, no, used), (gd, _) =>
    let lends := lendTargets s d r
    let grant (k : Nat) : Int :=
      match rs.find? (fun x => x.k == k) with
      | some x => if x.kind = .charge then (if constr then (alFind k gc).getD 0 else x.ib) else (alFind k gd).getD x.ib
      | none =>
        if 0 < (alFind k lends).getD 0 then Sump.lendI s k
        else if constr then 0 else iMax s k
    { at_ := at_, grants := (popAll s).map (fun k => (k, grant k)), lends := lends, constr := constr, expLim := decide (0 < cut),
      noCls := if constr then no else 0, dem := d, rec_ := r, lendP := l,
      fep := (if constr then used else d) + Sump.pAux s - r - l }

/-- Allocation n, at tick 8n - 1: staged for tick 8n + 1 if its commit is in time (R225, R227). In LEND without an eligible
lender the sequencer goes on to PAUSE; that is `rideTick`'s. -/
def execSumpAllocation (slack : Int) (s : State) : Host.Outcome State Fault Refusal :=
  if s.mode.up && stageOn s && s.sump.due && decide (s.tb.run % 8 = 7) && decide (0 ≤ slack) then
    .next (modSump (fun x => { x with stage := some { allocate s (s.tb.run + 2) with slack := slack }, budIn := if budFallback s then none else x.told.map (·.1) }) s)
  else .next s

/-- The grants of an allocation come into force at their tick, and with them its lend targets, its figures and the
classes it leaves without power (R225, R227). -/
def allocInForce (s : State) : State :=
  match s.sump.stage with
  | some a =>
    if a.at_ = s.tb.run then
      let s1 := forEach (popAll s) (fun k => modCh k fun c => { c with grant := (alFind k a.grants).getD 0, lend := (alFind k a.lends).getD 0 }) s
      modSump (fun x => { x with stage := none, planDue := false, blocked := false, zeroed := false, lateRun := 0, due := false, constr := a.constr, expLim := a.expLim,
                                 noCls := a.noCls, dem := a.dem, rec_ := a.rec_, lendP := a.lendP, fep := a.fep }) s1
    else s
  | none => s

/-- Outside stage operation every grant reads 0 (R225). -/
def allocOff (s : State) : State :=
  forEach (popAll s) (modCh · fun c => { c with grant := 0, lend := 0 })
    (modSump (fun x => { x with stage := none, planDue := false, due := false, constr := false, expLim := false, noCls := 0, lateRun := 0, blocked := false, zeroed := false }) s)

/-- An allocation is missing at its tick 8n + 1 (R227). -/
def allocLate (s : State) : Bool := stageOn s && s.sump.due && decide (s.tb.run % 8 = 1)

/-- The sump's part of the strike of a tick: the staged allocation, a late one, and at tick 8n - 1 the start of the next. -/
def allocTick (s : State) : State :=
  if !stageOn s then allocOff s
  else
    let s1 := allocInForce s
    let s2 := if allocLate s1 then
        raise .fabric Cause.sumpArbLate 0xFF (modSump (fun x => { x with due := false, nLate := incSat 8 x.nLate, lateRun := x.lateRun + 1 }) s1)
      else s1
    if s2.tb.run % 8 = 7 then modSump (fun x => { x with due := true }) s2 else s2

/-- After four consecutive late allocations every charging g_eff is 0 until one arrives in time (R227). -/
def execGrantsZeroed (s : State) : Host.Outcome State Fault Refusal :=
  if 4 ≤ s.sump.lateRun then
    .next (forEach (popAll s) (modCh · fun c => if charges c then { c with reg := { c.reg with gEff := 0 } } else c)
      (modSump (fun x => { x with zeroed := true }) s))
  else .next s

/-- The told budget grows older than BUD_AGE_MS: the fallback takes over, and SUMP_BUDGET_STALE is raised once (R228). -/
def execSumpBudgetStale (s : State) : Host.Outcome State Fault Refusal :=
  if s.mode.up && s.sump.told.isSome && !s.sump.stale && budOld s then
    .next (raise .fabric Cause.sumpBudgetStale 0xFF (modSump (fun x => { x with stale := true, budIn := none }) s))
  else .next s

/-! ### Ride-through (R232 to R236) -/

/-- A plan out of cycle, for the next launch tick; it takes the place of an allocation in progress (R233, R237). -/
def stagePlan (s : State) : State :=
  if stageOn s then modSump (fun x => { x with stage := some (allocate s (s.tb.run + 1)), planDue := true, due := false }) s
  else modSump (fun x => { x with stage := none, planDue := false, due := false }) s

/-- Lending stops: every lend target is 0, in force or staged. -/
def stopLending (s : State) : State :=
  forEach (popAll s) (modCh · fun c => { c with lend := 0 }) (modSump (fun x => { x with stage := x.stage.map fun a => { a with lends := [] } }) s)

/-- A lending period begins (R229). `all`: at NORMAL a lender that stopped on LEND_Q may lend again (R231). -/
def newPeriod (all : Bool) (s : State) : State :=
  forEach (popAll s) (modCh · fun c => { c with lentAcc := 0, lendQ := c.lendQ && !all }) s

/-- The ride timer has reached T_RIDE_MAX. -/
def rideDone (s : State) : Bool :=
  match s.sump.rideFrom with
  | some t => decide (t + floorTk (Sump.tRideMs s) ≤ s.tb.run)
  | none => false

/-- A state is entered: a transition is in progress, and the channels the sump has paused pass through the state. -/
def setRide (new : Ride) (s : State) : State :=
  forEach (popAll s) (modCh · fun c => if c.psSump then { c with sumpStates := c.sumpStates ||| 2 ^ new.ctorIdx } else c)
    (modSump (fun x => { x with ride := new, moving := true }) s)

/-- EXPIRE: channels the sump has paused end their open steps with SUMP_EXPIRED and drain to IDLE, and their sump pauses
end (R233, R235); outside stage operation it drains nothing (R236). -/
def expireAll (s : State) : State :=
  let s1 := setRide .expire (modSump (fun x => { x with nExp := incSat 8 x.nExp }) s)
  if stageOn s then
    forEach (popAll s1) (fun k t =>
      if (t.getCh k).psSump && sumpActs (t.getCh k) then clearSump k 1 (drainCh k .recipe Cause.sumpExpired t) else t) s1
  else s1

/-- Every channel is paused and lenders stop; HOLD goes on to EXPIRE if the ride timer has run out (R233). -/
def enterPause (new : Ride) (s : State) : State :=
  let s1 := sumpPauses (stopLending (setRide new s))
  if new = .hold ∧ rideDone s1 = true then expireAll s1 else s1

/-- A loss in DROOP leads to LEND, or to PAUSE (R233). -/
def enterLoss (s : State) : State :=
  if Sump.lendEn s && !s.sump.inh && !(lenders s).isEmpty && stageOn s then
    stagePlan (newPeriod false (setRide .lend s))
  else enterPause .pause s

/-- DROOP is entered. A loss follows it up as soon as the transition completes. -/
def enterDroop (lost : Bool) (s : State) : State :=
  let s1 := setRide .droop (modSump (fun x => { x with nDroop := incSat 8 x.nDroop, droopTk := s.tb.run, blocked := stageOn s,
                                                       waiting := if lost then x.waiting ++ [.lost] else x.waiting }) s)
  stagePlan (stopLending s1)

/-- RETURN is entered. -/
def enterReturn (s : State) : State :=
  setRide .ret (modSump (fun x => { x with retFrom := x.ride, retOkTk := s.tb.run }) s)

/-- NORMAL is entered: no loss is in progress, the ride timer stops, and a lending period begins. -/
def enterNormal (s : State) : State :=
  newPeriod true (setRide .normal (modSump (fun x => { x with loss := false, rideTk := (match x.rideFrom with | some t => s.tb.run - t | none => x.rideTk),
                                                              rideFrom := none }) s))

/-- Sump pauses begin to clear, class 0 at the next sump tick (R235), unless an inhibit holds them (R237). -/
def startClear (s : State) : State :=
  if s.sump.inhPause || pauseState s || lendState s then s else modSump (fun x => { x with clrCls := some (0, s.tb.run) }) s

/-- One event in a state with no transition in progress: the table of R233. -/
def rideStep (e : RideEv) (s : State) : State :=
  match s.sump.ride, e with
  | .normal, .lost => enterDroop true s
  | .normal, .droop => enterDroop false s
  | .droop, .lost => enterLoss s
  | .droop, .droopTo => enterLoss s
  | .droop, .recovered => if s.sump.loss then s else enterNormal s
  | .lend, .rideTo => enterPause .pause s
  | .pause, .quiescent => enterPause .hold s
  | .hold, .rideTo => expireAll s
  | .ret, .lost => enterPause .hold s
  | .ret, .returned => raise .timebase Cause.sumpReturned 0xFF (startClear (enterNormal s))
  | .droop, .back => if s.sump.loss && s.sump.feOk then enterReturn s else s
  | .lend, .back => if s.sump.feOk then enterReturn s else s
  | .pause, .back => if s.sump.feOk then enterReturn s else s
  | .hold, .back => if s.sump.feOk then enterReturn s else s
  | .expire, .back => if s.sump.feOk then enterReturn s else s
  | _, _ => s

/-- An event: taken up at once, or when the transition in progress completes (R234). -/
def rideEvent (e : RideEv) (s : State) : State :=
  if s.sump.moving then modSump (fun x => { x with waiting := if x.waiting.contains e then x.waiting else x.waiting ++ [e] }) s
  else rideStep e s

/-- The transition in progress may complete: its out-of-cycle plan is struck, or for PAUSE and HOLD every phase is at mid and out
of BRAKE (R234). -/
def transitionDone (s : State) : Bool :=
  match s.sump.ride with
  | .droop => !s.sump.planDue
  | .lend => !s.sump.planDue
  | .pause => (popAll s).all (quietPhases s)
  | .hold => (popAll s).all (quietPhases s)
  | _ => true

/-- A transition completes, and the events that arrived during it are taken up in order (R234). -/
def execRideTransitionDone (s : State) : Host.Outcome State Fault Refusal :=
  if s.mode.up && s.sump.moving && transitionDone s then
    .next (s.sump.waiting.foldl (fun t e => rideEvent e t) (modSump (fun x => { x with moving := false, waiting := [] }) s))
  else .next s

/-- A loss (R233): LOSS for the first two kinds; the first loss of a ride starts the ride timer and counts. -/
def noteLoss (flag : Bool) (s : State) : State :=
  modSump (fun x => { x with loss := x.loss || flag, nLoss := if x.rideFrom.isNone then incSat 8 x.nLoss else x.nLoss,
                             rideFrom := if x.rideFrom.isNone then some s.tb.run else x.rideFrom }) s

/-- FE_OK_N high on 16 samples: the source is lost, SUMP_FE_LOST (R219, R233). An allocation in progress is discarded
(R237). -/
def execSumpFeLost (s : State) : Host.Outcome State Fault Refusal :=
  if s.mode.up && (s.sump.feOk || !s.sump.loss) then
    let s1 := noteLoss true (raise .timebase Cause.sumpFeLost 0xFF (modSump (fun x => { x with feOk := false }) s))
    let s2 := if s1.sump.ride = .droop then stagePlan s1 else if s1.sump.ride = .normal then modSump (fun x => { x with stage := none, planDue := false, due := false }) s1 else s1
    .next (rideEvent .lost s2)
  else .next s

/-- FE_OK_N low on 16 samples: the source is back (R219); with the bus high enough RETURN is entered (R233). -/
def execSourceBack (s : State) : Host.Outcome State Fault Refusal :=
  if s.mode.up && !s.sump.feOk then
    let s1 := modSump (fun x => { x with feOk := true }) s
    .next (if busOk s1 then rideEvent .back s1 else s1)
  else .next s

/-- The droop comparator trips: SUMP_DROOP, charge on-times blocked, and from NORMAL the state DROOP (R221, R233). -/
def execSumpDroop (s : State) : Host.Outcome State Fault Refusal :=
  if s.mode.up && !s.sump.cmpDroop then
    let s1 := raise .timebase Cause.sumpDroop 0xFF (modSump (fun x => { x with cmpDroop := true, droopFrom := some s.tb.run, busOkFrom := none }) s)
    .next (rideEvent .droop s1)
  else .next s

/-- It releases: the bus is at V_DROOP + HYST (R221), so a source that is back leads to RETURN (R233). -/
def execDroopRelease (s : State) : Host.Outcome State Fault Refusal :=
  if s.sump.cmpDroop then
    let s1 := modSump (fun x => { x with cmpDroop := false, droopFrom := none, busOkFrom := some s.tb.run, retOkTk := s.tb.run }) s
    .next (if s1.sump.feOk then rideEvent .back s1 else s1)
  else .next s

/-- The overvoltage comparator trips: SUMP_OV, and every discharging on-time ends (R222). -/
def execSumpOv (s : State) : Host.Outcome State Fault Refusal :=
  if s.mode.up && !s.sump.cmpOv then
    let s1 := raise .timebase Cause.sumpOv 0xFF (modSump (fun x => { x with cmpOv := true }) s)
    .next (forEach (upto 128) (modPh · fun p => if p.onTime && p.dir then { p with onTime := false, pwm := offLevel true } else p) s1)
  else .next s

/-- It releases at V_OV - HYST (R222). -/
def execOvRelease (s : State) : Host.Outcome State Fault Refusal := .next (modSump (fun x => { x with cmpOv := false }) s)

/-- The droop has lasted T_DROOP_MS, or DROOP has not been left within it: a loss (R233). -/
def execDroopTimeout (s : State) : Host.Outcome State Fault Refusal :=
  let long := match s.sump.droopFrom with
    | some t => s.sump.cmpDroop && decide (t + floorTk (Sump.tDroopMs s) ≤ s.tb.run)
    | none => false
  let late := s.sump.ride == .droop && !s.sump.loss && decide (s.sump.droopTk + floorTk (Sump.tDroopMs s) ≤ s.tb.run)
  if s.mode.up && (long || late) then .next (rideEvent .droopTo (noteLoss long s)) else .next s

/-- Without a loss, the comparator has been released and every sample of the bus at V_DROOP + HYST or above for 8 launch ticks:
NORMAL (R233). -/
def execDroopRecovered (s : State) : Host.Outcome State Fault Refusal :=
  match s.sump.busOkFrom with
  | some t => .next (if s.mode.up && !s.sump.cmpDroop && busOk s && decide (t + 8 ≤ s.tb.run) && s.sump.ride == .droop then rideEvent .recovered s else s)
  | none => .next s

/-- In PAUSE every phase is at mid and out of BRAKE: HOLD (R233). -/
def execPauseQuiescent (s : State) : Host.Outcome State Fault Refusal :=
  .next (if s.mode.up && s.sump.ride == .pause && (popAll s).all (quietPhases s) then rideEvent .quiescent s else s)

/-- The ride timer reaches T_RIDE_MAX: LEND goes to PAUSE, HOLD to EXPIRE (R233). -/
def execRideTimeout (s : State) : Host.Outcome State Fault Refusal :=
  .next (if s.mode.up && rideDone s then rideEvent .rideTo s else s)

/-- 5 ms in RETURN with the source back and the bus high enough on every sample: NORMAL, SUMP_RETURNED (R233). -/
def execSumpReturned (s : State) : Host.Outcome State Fault Refusal :=
  .next (if s.mode.up && s.sump.ride == .ret && s.sump.feOk && busOk s && decide (s.sump.retOkTk + floorTk 5 ≤ s.tb.run) then rideEvent .returned s else s)

/-- What the sequencer judges at every launch tick: a source that is back with the bus high enough, and LEND without an
eligible lender (R233); then the pauses on the channels (R220, R232). -/
def rideTick (s : State) : State :=
  let s1 :=
    if s.sump.moving then s
    else
      let back := s.sump.feOk && busOk s
      let s0 := if back then rideStep .back s else s
      if s0.sump.ride = .lend ∧ s0.sump.moving = false ∧ (lenders s0).isEmpty = true then enterPause .pause s0 else s0
  sumpPauses s1

/-- After NORMAL re-entry the sump pauses of one priority class clear per sump tick (R235). -/
def execPauseClassClear (s : State) : Host.Outcome State Fault Refusal :=
  match s.sump.clrCls with
  | some (c, from_) =>
    if s.mode.up && decide (s.tb.run % 8 = 0) && decide (from_ < s.tb.run) && !s.sump.inhPause && !pauseState s then
      let s1 := forEach (popAll s) (fun k t => if Sump.prio t k = c then clearSump k 0 t else t) s
      .next (modSump (fun x => { x with clrCls := if c < 3 then some (c + 1, s.tb.run) else none }) s1)
    else .next s
  | none => .next s

/-! ### Line inhibit (R220) -/

/-- The inhibit is judged again after a change of the pin or of the told one: at its start SUMP_INHIBIT, the pauses, and
lending stops. -/
def inhUpdate (s : State) : State :=
  let now := (s.sump.inhPin && Sump.inhPinEn s) || s.sump.inhTold
  if now && !s.sump.inh then
    sumpPauses (stopLending (raise .timebase Cause.sumpInhibit 0xFF (modSump (fun x => { x with inh := true, inhPause := true, clrCls := none }) s)))
  else if !now && s.sump.inh then modSump (fun x => { x with inh := false, inhClrTk := s.tb.run }) s
  else s

/-- INHIBIT_N low on 16 consecutive samples. -/
def execSumpInhibit (s : State) : Host.Outcome State Fault Refusal :=
  .next (if s.mode.up then inhUpdate (modSump (fun x => { x with inhPin := true }) s) else s)

/-- INHIBIT_N reads high; and once pin and told inhibit have been clear for 5 ms the pauses are lifted as at NORMAL
re-entry. -/
def execInhibitClear (s : State) : Host.Outcome State Fault Refusal :=
  if !s.mode.up then .next s
  else if s.sump.inhPin then .next (inhUpdate (modSump (fun x => { x with inhPin := false }) s))
  else if s.sump.inhPause && !s.sump.inh && decide (s.sump.inhClrTk + floorTk 5 ≤ s.tb.run) then
    .next (startClear (modSump (fun x => { x with inhPause := false }) s))
  else .next s

/-- A told inhibit (R287). -/
def tellInhibit (on : Bool) (s : State) : State := inhUpdate (modSump (fun x => { x with inhTold := on }) s)

end Sys2Proof.Machine
end

