-- ==== Sys2Proof/Machine/Access.lean ====
section
/-!
DEFINITION. SERVICE access (R475 to R480): entry and exit, the failure count and its back-off, unlocks and region
passwords; and the closing of a Perzo session, which ends what it held (R285).
-/

namespace Sys2Proof.Machine

def modAcc (f : Acc → Acc) (s : State) : State := { s with acc := f s.acc }

/-! ### Sessions (R283) -/

def State.getSess (s : State) (i : Nat) : Option Session := s.link.sess.getD i none
def modSess (i : Nat) (f : Session → Session) (s : State) : State := modLink (fun l => { l with sess := lmod l.sess i (fun x => x.map f) }) s

/-! ### SERVICE (R478) -/

/-- SERVICE is entered from the present mode. -/
def enterService (s : State) : State :=
  raise .fabric Cause.accServiceEnter 0xFF
    (updateSens { modAcc (fun a => { a with svcFrom := some s.mode, entering := none, stageOp := false }) (abortAll s) with mode := .service })

/-- SERVICE ends: the mode it was entered from returns, and what ends with SERVICE ends. -/
def exitService (s : State) : State :=
  let m := s.acc.svcFrom.getD .run
  let s1 := leaveService (goMode m (abortAll (modAcc (fun a => { a with svcFrom := none }) s)))
  let s2 := modLink (fun l => { l with sess := l.sess.map fun x => x.map fun y => { y with unlockTk := none, byHmac := false } }) s1
  raise .fabric Cause.accServiceExit 0xFF (updateSens s2)

/-- The entry in progress is abandoned (R478). -/
def abandonEnter (s : State) : State :=
  let mine : Bool := match s.tb.drain with | some d => d.goal == .service | none => false
  let d := if mine then none else s.tb.drain
  { modAcc (fun a => { a with entering := none }) s with tb := { s.tb with drain := d } }

/-! ### Closing a session (R285) -/

/-- What every close ends: subscriptions, ownership, streams, the response ring's records, an open update, an entry. -/
def dropSession (i : Nat) (s : State) : State :=
  let s1 := forEach (upto 64) (modRing · fun r => { r with owner := if r.owner = some i then none else r.owner, stream := if r.stream = some i then none else r.stream }) s
  let s2 := modRing (52 + i) (fun r => { r with recs := [], acked := r.next, sendNext := r.next, owner := none }) s1
  let s3 := modLink (fun l => { l with sess := lset l.sess i none }) s2
  let mine : Bool := match s.ldr.upd with | some u => u.sess == i | none => false
  let s4 := if mine then { s3 with ldr := { s3.ldr with upd := none } } else s3
  if s.acc.entering = some i then abandonEnter s4 else s4

/-- A session closes by BYE, or is lost. -/
def closeSession (i : Nat) (lost : Bool) (s : State) : State :=
  match s.getSess i with
  | none => s
  | some x =>
    let s1 := dropSession i s
    let s2 := if lost then raiseAt .fabric Cause.pzSessionLost 0xFF (143 + i) i s1 else s1
    if x.role ≠ .controller then s2
    else if s.mode = .service then exitService s2
    else if lost ∧ s.mode = .run then modLink (fun l => { l with lossAct := some (cfgF s 0x007000 5 2) }) s2
    else s2

/-- No valid message for 3 x HB_MS. -/
def execPzSessionLost (ses : Fin 4) (s : State) : Host.Outcome State Fault Refusal :=
  match s.getSess ses with
  | some x => .next (if s.mode.up && decide (floorTk (3 * x.hbMs) ≤ since s x.lastTk) then closeSession ses true s else s)
  | none => .next s

/-! ### Failures and back-off (R479) -/

/-- F as it is taken. -/
def failCount (s : State) : Nat := if s.nvm.refused then 11 else s.acc.fails.getD 11

/-- Run ticks of back-off that remain. -/
def backoffTk (s : State) : Nat :=
  if s.acc.waiting = true ∧ 0 < failCount s then Nat.min (2 ^ (failCount s - 1)) 1024 * 8192 - since s s.acc.failTk else 0

/-- The same in whole seconds, a started one counted. -/
def backoffS (s : State) : Nat := (backoffTk s + 8191) / 8192

/-- The ACCESS record is written whenever F changes. -/
def setFails (n : Nat) (s : State) : State :=
  if s.acc.fails = some n then s
  else nvmRequest (.record Kind.access 0 (leBytes 2 n ++ [0, 0, 0, 0, 0, 0])) (modAcc (fun a => { a with fails := some n }) s)

def authFail (s : State) : State :=
  raise .fabric Cause.accAuthFail 0xFF
    (modAcc (fun a => { a with failTk := s.tb.run, waiting := true }) (setFails (satN (failCount s + 1) 255) s))

def authOk (s : State) : State := modAcc (fun a => { a with waiting := false }) (setFails 0 s)

/-! ### Unlocks (R473, R477) -/

/-- The bytes of fuse words. -/
def fuseBytes (s : State) (w n : Nat) : List Byte := (upto n).flatMap fun i => leBytes 4 (fuseW s (w + i))

/-- The answer of an ACCESS operation: its cause, the fields from offset 8, and the state. -/
structure AccAns where
  cause : Nat
  data : List Byte := []
  st : State

def accRefuse (c : Nat) (s : State) : AccAns := { cause := c, st := raise .fabric c 0xFF s }

/-- Session i is unlocked. -/
def unlockSess (i : Nat) (hmac : Bool) (s : State) : State :=
  raise .fabric Cause.accUnlocked 0xFF (modSess i (fun x => { x with unlockTk := some s.tb.run, byHmac := hmac }) (authOk s))

/-- CHALLENGE: a fresh nonce, the unit identity and the permitted methods. -/
def accChallenge (i : Nat) (s : State) : AccAns :=
  match freeBytes 16 s with
  | (n, s1) =>
    { cause := 0, data := n ++ leBytes 8 (unitId s) ++ leBytes 1 (svcAuth s) ++ [0, 0, 0],
      st := modSess i (fun x => { x with nonce := some (n, s.tb.run) }) s1 }

/-- A method needs its permission and its fuse block. -/
def methodOk (s : State) (bit block : Nat) : Bool := bitN (svcAuth s) bit && fuseBlockSet s block

def accUnlockHmac (i : Nat) (mac : List Byte) (s : State) : AccAns :=
  if !methodOk s 1 20 then accRefuse Cause.accRefused s
  else if 0 < backoffTk s then { cause := Cause.accWait, st := s }
  else match s.getSess i with
    | some x =>
      let s1 := modSess i (fun y => { y with nonce := none }) s
      (match x.nonce with
       | some (n, tk) =>
         if since s tk < secTk 30 ∧ mac = hmacSha256 (fuseBytes s 20 8) (n ++ leBytes 8 (unitId s) ++ leBytes 8 x.hostId ++ [0x02]) then
           { cause := 0, st := unlockSess i true s1 }
         else { cause := Cause.accAuthFail, st := authFail s1 }
       | none => { cause := Cause.accAuthFail, st := authFail s1 })
    | none => { cause := 0, st := s }

def accUnlockPwd (i : Nat) (pwd : List Byte) (s : State) : AccAns :=
  if !methodOk s 0 29 then accRefuse Cause.accRefused s
  else if 0 < backoffTk s then { cause := Cause.accWait, st := s }
  else if sha256 (leBytes 8 (unitId s) ++ pwd) = fuseBytes s 29 8 then { cause := 0, st := unlockSess i false s }
  else { cause := Cause.accAuthFail, st := authFail s }

/-- The unlock of session i is live: UNLOCK_S has not passed without ENTER (R477). -/
def unlocked (s : State) (i : Nat) : Bool :=
  match s.getSess i with
  | some x => match x.unlockTk with
    | some t => s.mode == .service || s.acc.entering == some i || decide (since s t < secTk (cfgF s 0x00C000 0 12))
    | none => false
  | none => false

/-- No load is in progress in LOAD. -/
def loadIdle (s : State) : Bool :=
  match s.ldr.st with
  | .noImage | .halted => true
  | _ => false

/-- A load is in progress (R373, R478). -/
def loadRuns (s : State) : Bool := s.mode == .load && !loadIdle s

def accEnter (i : Nat) (s : State) : AccAns :=
  if svcAuth s ≠ 0 ∧ unlocked s i = false then accRefuse Cause.accRefused s
  else if s.seq.st ≠ .on ∨ s.seq.wait ≠ none then accRefuse Cause.accRefused s
  else if s.mode = .run ∧ s.tb.drain = none then { cause := 0, st := hostDrain .service (modAcc (fun a => { a with entering := some i }) s) }
  else if s.mode = .load ∧ loadIdle s = true then { cause := 0, st := enterService s }
  else accRefuse Cause.accRefused s

def accExit (s : State) : AccAns :=
  if s.mode = .service then { cause := 0, st := exitService s } else accRefuse Cause.accRefused s

/-- The digest of a region password (R473). -/
def regionDigest (s : State) (u : Nat) (pwd : List Byte) : List Byte := (sha256 (leBytes 8 (unitId s) ++ leBytes 1 u ++ pwd)).take 8

def accRegionUnlock (i u : Nat) (pwd : List Byte) (s : State) : AccAns :=
  if 8 ≤ u ∨ (regionOf s u).kind ≠ 2 then accRefuse Cause.accRefused s
  else if 0 < backoffTk s then { cause := Cause.accWait, st := s }
  else if regionDigest s u pwd = (regionOf s u).pwd then { cause := 0, st := modSess i (fun x => { x with regions := setBitN x.regions u true }) (authOk s) }
  else { cause := Cause.accAuthFail, st := authFail s }

def accRegionLock (i u : Nat) (s : State) : AccAns :=
  if 8 ≤ u then accRefuse Cause.accRefused s else { cause := 0, st := modSess i (fun x => { x with regions := setBitN x.regions u false }) s }

def accRegionPwd (u : Nat) (pwd : List Byte) (s : State) : AccAns :=
  if 8 ≤ u ∨ (regionOf s u).kind ≠ 2 then accRefuse Cause.accRefused s
  else
    let r := regionOf s u
    { cause := 0, st := putRegion u r.kind r.flags r.base r.pages (if allZero pwd then [] else regionDigest s u pwd) s }

def accTap (i : Nat) (open_ : Bool) (s : State) : AccAns :=
  match s.getSess i with
  | some x =>
    if open_ = false then { cause := 0, st := modAcc (fun a => { a with tapOpen := false }) s }
    else if unlocked s i && x.byHmac then
      { cause := 0, st := raise .fabric Cause.accTapOpen 0xFF (modAcc (fun a => { a with tapOpen := true }) s) }
    else accRefuse Cause.accRefused s
  | none => { cause := 0, st := s }

/-- UNLOCK_S passes without ENTER (R477). -/
def execUnlockLapse (ses : Fin 4) (s : State) : Host.Outcome State Fault Refusal :=
  match s.getSess ses with
  | some x =>
    match x.unlockTk with
    | some t =>
      if s.mode != .service && s.acc.entering != some ses.val && decide (secTk (cfgF s 0x00C000 0 12) ≤ since s t) then
        .next (modSess ses (fun y => { y with unlockTk := none, byHmac := false }) s)
      else .next s
    | none => .next s
  | none => .next s

/-- A nonce lapses 30 s after its issue. -/
def execNonceLapse (ses : Fin 4) (s : State) : Host.Outcome State Fault Refusal :=
  match s.getSess ses with
  | some x =>
    match x.nonce with
    | some (_, t) => .next (if secTk 30 ≤ since s t then modSess ses (fun y => { y with nonce := none }) s else s)
    | none => .next s
  | none => .next s

end Sys2Proof.Machine
end

