-- ==== Sys2Proof/Machine/Backup.lean ====
section
/-!
DEFINITION. The backup domain: calendar, freezes and counts (R407 to R409), trim and discipline (R410 to R413),
alarm, periodic wake and wakes (R414 to R416), backup RAM (R417, R418), supply of the domain (R403 to R406), and one
oscillator count.
-/

namespace Sys2Proof.Machine

def modRtc (f : Rtc → Rtc) (s : State) : State := { s with rtc := f s.rtc }

/-- The access paths exist: a mode with rails up (R1, R407). -/
def pathsUp (s : State) : Bool := s.mode.up

/-! ### RTC_CTRL fields -/

def rtcCtrl (s : State) : Nat := cfgN s 0x003020
def rtcHalt (s : State) : Bool := bitN (rtcCtrl s) 0
def rtcAlmEn (s : State) : Bool := bitN (rtcCtrl s) 2
def rtcPwakeEn (s : State) : Bool := bitN (rtcCtrl s) 3
def rtcRestAct (s : State) : Bool := bitN (rtcCtrl s) 4
def rtcN (s : State) : Nat := cfgF s 0x00303C 0 24

/-! ### The calendar (R407) -/

def leapYear (y : Nat) : Bool := (y % 4 == 0 && y % 100 != 0) || y % 400 == 0

def monthDays (y m : Nat) : Nat :=
  match m with
  | 2 => if leapYear y then 29 else 28
  | 4 | 6 | 9 | 11 => 30
  | _ => 31

/-- The date exists (R409). -/
def dateExists (c : Calendar) : Bool :=
  decide (2000 ≤ c.year) && decide (c.year ≤ 2199) && decide (1 ≤ c.mon) && decide (c.mon ≤ 12) && decide (1 ≤ c.day)
    && decide (c.day ≤ monthDays c.year c.mon)

/-- One second later; after 2199-12-31 23:59:59 the calendar continues at 2000-01-01 00:00:00. -/
def nextSecond (c : Calendar) : Calendar :=
  let c := { c with sub := 0 }
  if c.sec < 59 then { c with sec := c.sec + 1 }
  else if c.min < 59 then { c with sec := 0, min := c.min + 1 }
  else if c.hour < 23 then { c with sec := 0, min := 0, hour := c.hour + 1 }
  else if c.day < monthDays c.year c.mon then { c with sec := 0, min := 0, hour := 0, day := c.day + 1 }
  else if c.mon < 12 then { c with sec := 0, min := 0, hour := 0, day := 1, mon := c.mon + 1 }
  else if c.year < 2199 then { c with sec := 0, min := 0, hour := 0, day := 1, mon := 1, year := c.year + 1 }
  else {}

/-- Days from 2000-01-01 to the first day of year y, and to the first of month m within a year. -/
def daysToYear (y : Nat) : Nat := let n := y - 2000; 365 * n + (n + 3) / 4 - (n + 99) / 100 + (n + 399) / 400
def daysToMonth (y m : Nat) : Nat := sumN ((upto (m - 1)).map fun i => monthDays y (i + 1))

/-- Seconds since 2000-01-01 00:00:00. -/
def calSeconds (c : Calendar) : Nat :=
  86400 * (daysToYear c.year + daysToMonth c.year c.mon + (c.day - 1)) + 3600 * c.hour + 60 * c.min + c.sec

/-- Month and day of a day number within a year. -/
def monthOf (y : Nat) : Nat → Nat → Nat → Nat × Nat
  | 0, m, d => (m, d + 1)
  | f + 1, m, d => if d < monthDays y m then (m, d + 1) else monthOf y f (m + 1) (d - monthDays y m)

/-- The calendar of a number of seconds since 2000-01-01, modulo the 200 years it spans. -/
def calOfSeconds (t : Nat) : Calendar :=
  let t := t % (86400 * daysToYear 2200)
  let days := t / 86400
  let r := t % 86400
  let y0 := 2000 + days / 366
  let y1 := (upto 3).foldl (fun y _ => if daysToYear (y + 1) ≤ days then y + 1 else y) y0
  let md := monthOf y1 11 1 (days - daysToYear y1)
  { sub := 0, sec := r % 60, min := r / 60 % 60, hour := r / 3600, day := md.2, mon := md.1, year := y1 }

/-- The last count of the last second of 2199. -/
def calLast (c : Calendar) : Bool :=
  c.year == 2199 && calSeconds c + 1 == 86400 * daysToYear 2200 && c.sub == 32767

/-- CALENDAR_WRAP: the roll-over after the last second of 2199; VALID becomes 0 (R407). A halted calendar does not
roll over. -/
def execCalendarWrap (s : State) : Host.Outcome State Fault Refusal :=
  if rtcHalt s || !calLast s.rtc.cal then .next s else .next (modRtc (fun r => { r with cal := {}, valid := false }) s)

/-- No oscillator edge for 8 ms (R407); the event waits for an access path. -/
def execRtcOscFail (s : State) : Host.Outcome State Fault Refusal :=
  let s1 := modRtc (fun r => { r with oscFail := true, valid := false }) s
  if pathsUp s then .next (raise .backup Cause.rtcOscFail 0xFF s1) else .next (modRtc (fun r => { r with oscEv := true }) s1)

/-! ### Freezes (R408) -/

/-- A read of RTC_SUBSEC: all seven counts are copied into the path's shadows, which stay frozen. -/
def freezeCal (p : Path) (s : State) : Word × State :=
  (wordN s.rtc.cal.sub, modShad p (fun h => { h with cal := some (s.rtc.cal, 0) }) s)

/-- A freeze has lasted 32,768 counts, so it has ended (R408). -/
def freezeOver (h : Shadow) : Bool := match h.cal with | some (_, n) => decide (32768 ≤ n) | none => false

/-- The counts a path reads: the shadows during a freeze, the live counters outside. -/
def calSeen (s : State) (p : Path) : Calendar :=
  match (s.shad p).cal with
  | some (c, n) => if n < 32768 then c else s.rtc.cal
  | none => s.rtc.cal

/-- A read of RTC_YEAR returns its shadow and ends the freeze. -/
def readYear (p : Path) (s : State) : Word × State :=
  (wordN (calSeen s p).year, modShad p (fun h => { h with cal := none, stale := h.stale || freezeOver h }) s)

def execRtcSubsecRead (p : Path) (s : State) : Host.Outcome State Fault Refusal :=
  if !pathsUp s then .next s
  else let r := freezeCal p s; .next (emit (.readData p 0x003000 r.1) r.2)

def execRtcYearRead (p : Path) (s : State) : Host.Outcome State Fault Refusal :=
  if !pathsUp s then .next s
  else let r := readYear p s; .next (emit (.readData p 0x003018 r.1) r.2)

/-- 32,768 counts without a read of RTC_YEAR: the freeze ends and STALE is set. -/
def execRtcFreezeTimeout (p : Path) (s : State) : Host.Outcome State Fault Refusal :=
  if freezeOver (s.shad p) then .next (modShad p (fun h => { h with cal := none, stale := true }) s) else .next s

/-! ### Counts and RTC_CTRL (R409) -/

def rtcWerr (s : State) : State := raise .backup Cause.rtcWerr 0xFF (modRtc (fun r => { r with werr := true }) s)

/-- Range of a count register. -/
def calRange : CalField → Nat × Nat
  | .sec | .min => (0, 59)
  | .hour => (0, 23)
  | .day => (1, 31)
  | .mon => (1, 12)
  | .year => (2000, 2199)

/-- Bits of a count register's field. -/
def calBits : CalField → Nat
  | .sec | .min => 6
  | .hour | .day => 5
  | .mon => 4
  | .year => 12

/-- The address of a count register (R420). -/
def calAddr : CalField → Nat
  | .sec => 0x003004 | .min => 0x003008 | .hour => 0x00300C | .day => 0x003010 | .mon => 0x003014 | .year => 0x003018

def setCal (f : CalField) (n : Nat) (c : Calendar) : Calendar :=
  match f with
  | .sec => { c with sec := n }
  | .min => { c with min := n }
  | .hour => { c with hour := n }
  | .day => { c with day := n }
  | .mon => { c with mon := n }
  | .year => { c with year := n }

/-- A write of RTC_SEC to RTC_YEAR; reserved bits are taken as 0 (R6). -/
def writeCount (f : CalField) (v : Word) (s : State) : State :=
  let n := field v 0 (calBits f)
  if rtcHalt s && decide ((calRange f).1 ≤ n) && decide (n ≤ (calRange f).2) then
    modRtc (fun r => { r with cal := setCal f n r.cal }) s
  else rtcWerr s

def execRtcCountWrite (_p : Path) (field : CalField) (v : Word) (s : State) : Host.Outcome State Fault Refusal :=
  .next (regGate (calAddr field) (writeCount field v) s)

/-- A write of RTC_CTRL. Clearing HALT needs a date that exists; counting then restarts at RTC_SUBSEC 0 with a new
trim window, and VALID becomes 1. -/
def writeRtcCtrl (v : Word) (s : State) : State :=
  let w := v &&& 0x1F
  if rtcHalt s && !w.toNat.testBit 0 then
    if dateExists s.rtc.cal then
      setCfg 0x003020 w (modRtc (fun r => { r with cal := { r.cal with sub := 0 }, winSec := 0, held := false, trim := r.trimNext, valid := true }) s)
    else rtcWerr (setCfg 0x003020 (w ||| 1) s)
  else setCfg 0x003020 w s

def execRtcCtrlWrite (_p : Path) (v : Word) (s : State) : Host.Outcome State Fault Refusal :=
  .next (regGate 0x003020 (writeRtcCtrl v) s)

/-- A write of RTC_TRIM takes effect from the next window (R410); it is limited to its range. -/
def writeRtcTrim (v : Word) (s : State) : State :=
  modRtc (fun r => { r with trimNext := clampI (signN 10 (field v 0 10)) (-511) 511 }) s

/-- A new trim window begins 64 s after the last (R410). -/
def execRtcTrimWindow (s : State) : Host.Outcome State Fault Refusal :=
  if rtcHalt s || decide (s.rtc.winSec < 64) then .next s else .next (modRtc (fun r => { r with winSec := 0, trim := r.trimNext }) s)

/-! ### Discipline (R411 to R413) -/

/-- The conditions of the hand-off (R263, R411). -/
def handoffRuns (s : State) : Bool :=
  bitN (cfgN s 0x002000) 3 && s.tb.st == .locked && decide (8192 * 60 ≤ since s s.tb.lockTk) && s.tb.utc.2

/-- TAI seconds at 2000-01-01 00:00:00 on the PTP scale, before the UTC offset is removed. -/
def ptpEpoch2000 : Nat := 946684800

/-- The hand-off at a line-time second edge with TB_SEC mod 64 = 0, which the block sees in the launch tick it falls in. -/
def execRtcHandoff (s : State) : Host.Outcome State Fault Refusal :=
  if handoffRuns s = false ∨ s.tb.sec % 64 ≠ 0 ∨ 2 ^ 19 ≤ s.tb.frac then
    .next (if handoffRuns s then s else modRtc (fun r => { r with disc := false }) s)
  else if rtcHalt s then .next (modRtc (fun r => { r with disc := false }) s)
  else
    let u : Int := (s.tb.sec : Int) - s.tb.utc.1 - ptpEpoch2000
    let r := s.rtc
    let e := ((calSeconds r.cal : Int) - u) * 32768 + r.cal.sub
    let s1 := modRtc (fun r => { r with derr := e, disc := true }) s
    if r.valid = false ∨ r.utcOk = false ∨ 16384 ≤ e.natAbs ∨ s.tb.utc.1 ≠ r.utcOfs then
      let s2 := modRtc (fun r => { r with cal := calOfSeconds u.toNat, utcOfs := s.tb.utc.1, valid := true, utcOk := true,
                                          winSec := 0, held := false, ePrev := 0, trim := r.trimNext }) s1
      if r.valid then .next (raise .backup Cause.rtcStepped 0xFF s2)
      else .next (raise .backup Cause.rtcSet 0xFF (modRtc (fun r => { r with f := 0, trim := 0, trimNext := 0, trimSat := false }) s2))
    else
      let f := clampI (r.trim - (e - r.ePrev)) (-511) 511
      let t := clampI (f - rnd e 4) (-511) 511
      let sat := f == 511 || f == -511
      let s2 := modRtc (fun r => { r with f := f, trim := t, trimNext := t, ePrev := e, winSec := 0, held := false, trimSat := sat }) s1
      .next (if sat && !r.trimSat then raise .backup Cause.rtcTrimSat 0xFF s2 else s2)

/-! ### Alarm, periodic wake and wakes (R414 to R416) -/

/-- A wake by mode (R416); after three failed attempts SHIP is not left by a wake (R390). `fallen`: the slot a power-up or REST exit enables first has fallen. -/
def wake (fallen : Bool) (s : State) : State :=
  match s.mode with
  | .ship => if s.seq.lockout then s else onRequest fallen s
  | .rest => if rtcRestAct s then exitRest .run fallen s else modRtc (fun r => { r with restWake := true }) s
  | .backup => modRtc (fun r => { r with wakePend := true }) s
  | _ => s

/-- Every enabled field of RTC_ALM equals its live counter (R414, R420). -/
def almMatches (s : State) : Bool :=
  let a := cfgN s 0x003038
  let c := s.rtc.cal
  (!bitN a 6 || a % 64 == c.sec) && (!bitN a 14 || a / 256 % 64 == c.min)
    && (!bitN a 21 || a / 65536 % 32 == c.hour) && (!bitN a 29 || a / 16777216 % 32 == c.day)

/-- The alarm fires at a counting roll-over into a second that matches (R414). -/
def execRtcAlarm (fallen : Bool) (s : State) : Host.Outcome State Fault Refusal :=
  if rtcAlmEn s && !rtcHalt s && almMatches s then
    .next (wake fallen (raise .backup Cause.rtcAlarm 0xFF (modRtc (fun r => { r with alm := true }) s)))
  else .next s

/-- The periodic wake fires when its countdown has reached 0, and starts again (R415). -/
def execRtcPwake (fallen : Bool) (s : State) : Host.Outcome State Fault Refusal :=
  if rtcPwakeEn s && decide (0 < rtcN s) && s.rtc.pwCnt == 0 then
    .next (wake fallen (raise .backup Cause.rtcPwake 0xFF
      (modRtc (fun r => { r with pwake := true, pwCnt := rtcN s, pwSub := 0 }) s)))
  else .next s

/-- Writing RTC_PWAKE restarts the countdown from N. -/
def writeRtcPwake (v : Word) (s : State) : State :=
  modRtc (fun r => { r with pwCnt := field v 0 24, pwSub := 0 }) (setCfg 0x00303C (v &&& 0xFFFFFF) s)

def execRtcPwakeWrite (_p : Path) (v : Word) (s : State) : Host.Outcome State Fault Refusal :=
  .next (regGate 0x00303C (writeRtcPwake v) s)

/-! ### Backup RAM (R417, R418) -/

def bramBlock (r : Rtc) (b : Nat) : List Byte := slice r.bram (8 * b) 8
def bramBad (r : Rtc) (b : Nat) : Bool := (r.bcrc.getD b 0).toNat != crc8 (bramBlock r b)

/-- A word write and its block's CRC-8 take effect together; the block is valid afterwards. -/
def writeBram (i : Nat) (v : Word) (s : State) : State :=
  modRtc (fun r =>
    let m := r.bram.take (4 * i) ++ leBytes 4 v.toNat ++ r.bram.drop (4 * i + 4)
    { r with bram := m, bcrc := lset r.bcrc (i / 2) (BitVec.ofNat 8 (crc8 (slice m (8 * (i / 2)) 8))),
             bstat := setBitN r.bstat (i / 2) false }) s

def execRtcBramWrite (_p : Path) (i : Fin 16) (v : Word) (s : State) : Host.Outcome State Fault Refusal :=
  .next (regGate (0x003080 + 4 * i.val) (writeBram i v) s)

/-- Check some blocks: RTC_BSTAT follows, and RTC_BRAM_BAD is raised with the mask when a bit becomes 1. -/
def checkBram (blocks : List Nat) (s : State) : State :=
  let m := blocks.foldl (fun m b => setBitN m b (bramBad s.rtc b)) s.rtc.bstat
  let new := blocks.any fun b => bramBad s.rtc b && !bitN s.rtc.bstat b
  let s1 := modRtc (fun r => { r with bstat := m }) s
  if new then raiseA .backup Cause.rtcBramBad 0xFF m s1 else s1

/-- A read of a backup RAM word checks its block and returns the contents. -/
def readBram (i : Nat) (s : State) : Word × State := (wordN (leAt s.rtc.bram (4 * i) 4), checkBram [i / 2] s)

/-! ### The domain's supply (R403 to R406) -/

/-- VBAK is compared every 64 s while VIN_AUX is valid; the event marks a change to low (R406). -/
def execVbakCheck (low : Bool) (s : State) : Host.Outcome State Fault Refusal :=
  if s.seq.vinOk then
    let s1 := modRtc (fun r => { r with vbakLow := low }) s
    .next (if low && !s.rtc.vbakLow then raise .backup Cause.rtcVbakLow 0xFF s1 else s1)
  else .next s

/-- The domain supply falls below retention: DOMAIN_LOST, and everything in the domain restarts (R404, R405). The
backup RAM's contents and hidden CRCs are free values. -/
def execDomainCollapse (s : State) : Host.Outcome State Fault Refusal :=
  let a := freeBytes 64 s
  let b := freeBytes 8 a.2
  let s1 := b.2
  let fresh : Rtc := {}
  .next { s1 with
    rtc := { fresh with bram := a.1, bcrc := b.1 }
    regs := s1.regs.filter fun x => !inBackup x.1
    seq := if s1.mode.up then { ({} : Seq) with st := s1.seq.st, slot := s1.seq.slot, rails := s1.seq.rails.map (fun r => { r with noRise := 0, stuck := 0, uv := 0, ov := 0 }),
                                                vinOk := s1.seq.vinOk, vin := s1.seq.vin, wait := s1.seq.wait, goal := s1.seq.goal,
                                                force := s1.seq.force, pfwTk := s1.seq.pfwTk, restExit := s1.seq.restExit, restEntry := s1.seq.restEntry,
                                                rst0 := s1.seq.rst0, rst1 := s1.seq.rst1 }
           else { ({} : Seq) with vinOk := s1.seq.vinOk, vin := s1.seq.vin }
    mode := if s1.mode.up then s1.mode else .backup }

/-! ### One oscillator count -/

/-- Slot k of the trim window carries a pulse (R410). -/
def trimPulse (t : Int) (k : Nat) : Bool := decide (k * t.natAbs / 512 < (k + 1) * t.natAbs / 512)

/-- The calendar advances by one count, with the pulse of its slot. A roll-over past 2199 is CALENDAR_WRAP's. -/
def calCount (r : Rtc) : Rtc :=
  let sub := r.cal.sub
  let slot := decide (sub % 4096 = 2048) && decide (r.winSec < 64) && trimPulse r.trim (8 * r.winSec + sub / 4096)
  let step := if slot && decide (0 < r.trim) then 2 else if slot && decide (r.trim < 0) && !r.held then 0 else 1
  let held := slot && decide (r.trim < 0) && !r.held
  if sub + step < 32768 then { r with cal := { r.cal with sub := sub + step }, held := held }
  else { r with cal := nextSecond r.cal, held := false, winSec := r.winSec + 1 }

/-- The periodic wake counts the untrimmed oscillator, 128 counts to 1/256 s; its firing is RTC_PWAKE's (R415). -/
def pwCount (r : Rtc) : Rtc :=
  if r.pwSub < 127 then { r with pwSub := r.pwSub + 1 } else { r with pwSub := 0, pwCnt := r.pwCnt - 1 }

/-- One count of the 32,768 Hz oscillator. -/
def oscCount (s : State) : State :=
  let s1 := modRtc (fun r => if rtcPwakeEn s && decide (0 < rtcN s) then pwCount r else r) s
  let s2 := if rtcHalt s || calLast s.rtc.cal then s1 else modRtc calCount s1
  { s2 with shadow := s2.shadow.map fun h => match h.cal with
      | some (c, n) => { h with cal := some (c, n + 1) }
      | none => h }

/-- 1 us of the oscillator: 32,768 counts in 1,000,000 (log entry 4). -/
def oscTick (s : State) : State :=
  let a := s.rtc.oscAcc + 32768
  if 1000000 ≤ a then oscCount (modRtc (fun r => { r with oscAcc := a % 1000000 }) s) else modRtc (fun r => { r with oscAcc := a }) s

end Sys2Proof.Machine
end

