-- ==== Sys2Proof/Machine/Events.lean ====
section
/-!
DEFINITION. The event controller: events consumed from their crossings become records and pending sources
(R446 to R449, R495), claims and ends of interrupt (R450, R451), the interrupt pins (R452).
-/

namespace Sys2Proof.Machine

/-- Sources 161 to 223 are never pending (R447). -/
def srcReal (i : Nat) : Bool := decide (i < 161) || (decide (224 ≤ i) && decide (i < 256))

def srcEnabled (s : State) (i : Nat) : Bool := (cfgW s (Addr.intcSrc i)).toNat.testBit 16
def srcPrio (s : State) (i : Nat) : Nat := cfgF s (Addr.intcSrc i) 0 4
def srcGroup (s : State) (i : Nat) : Nat := cfgF s (Addr.intcSrc i) 4 4

/-- The target mask: the host part is configured, the core part is the firmware's (R448). -/
def srcMask (s : State) (i t : Nat) : Bool :=
  if t < 4 then (Config.coreMask i).toNat.testBit t else (cfgF s (Addr.intcSrc i) 8 4).testBit (t - 4)

/-- Hold-off of a group, us (R449). -/
def holdoffUs (s : State) (g : Nat) : Nat := cfgF s (Addr.intcGrp g) 0 16

/-- A group's hold-off timer starts with the HOLDOFF_US of now; with 0 it does not run (R449, R453). -/
def startHold (s : State) (g : Nat) (c : Intc) : Intc :=
  { c with run := setBitN c.run g (decide (0 < holdoffUs s g)), left := lset c.left g (holdoffUs s g) }

/-- An event of source i: pending and released or held, or AGAIN if it is pending already (R448, R449). -/
def setPending (i : Nat) (s : State) : State :=
  if !srcReal i || !srcEnabled s i then s
  else if s.intc.pend.contains i then { s with intc := { s.intc with again := insN i s.intc.again } }
  else
    let g := srcGroup s i
    let c := { s.intc with pend := insN i s.intc.pend }
    if s.intc.run.testBit g then { s with intc := { c with held := insN i s.intc.held } }
    else { s with intc := startHold s g c }

/-- A RING_OVERFLOW that concerns an event ring makes no record (R292, R446). -/
def noRecord (e : Event) : Bool :=
  e.cause == Cause.ringOverflow && decide (40 ≤ leAt e.arg 0 4) && decide (leAt e.arg 0 4 < 48)

/-- The ring of an event's record: its response ring, or event ring 40 + (GROUP div 2) (R446). -/
def eventRing (s : State) (e : Event) : Nat :=
  match e.ring with
  | some r => r
  | none => 40 + srcGroup s e.src / 2

/-- Consume one event: its record, its source, and FAB_EVT_LOST if its argument record was lost (R446, R495). -/
def consumeEvent (e : Event) (s : State) : State :=
  let s1 := if noRecord e then s else ringPush (eventRing s e) (eRecord e) s
  let s2 := setPending e.src s1
  if e.lost then raise .fabric Cause.fabEvtLost 0xFF s2 else s2

/-- The fabric consumes every event of one producer, in order of raising (R495). -/
def execEventCrossingConsume (prod : Producer) (s : State) : Host.Outcome State Fault Refusal :=
  let mine := s.fab.events.filter fun e => e.prod == prod
  let rest := s.fab.events.filter fun e => e.prod != prod
  .next (mine.foldl (fun t e => consumeEvent e t) { s with fab := { s.fab with events := rest } })

/-- A group's hold-off timer has run down: its held sources are released, and the timer starts again if there was one
(R449). -/
def execHoldoffExpire (g : Fin 16) (s : State) : Host.Outcome State Fault Refusal :=
  if s.intc.run.testBit g && s.intc.left.getD g 0 == 0 then
    let c := { s.intc with held := s.intc.held.filter (fun i => srcGroup s i != g.val) }
    .next { s with intc := if s.intc.held.any (fun i => srcGroup s i == g.val) then startHold s g c else { c with run := setBitN c.run g false } }
  else .next s

/-- In-service stack of a target, top first. -/
def stackOf (s : State) (t : Nat) : List (Nat × Nat) := s.intc.stk.getD t []

/-- Whether a priority lies above a stack's top (R450). -/
def aboveTop (stk : List (Nat × Nat)) (p : Nat) : Bool :=
  match stk with
  | [] => true
  | (_, q) :: _ => decide (q < p)

/-- A source that target t can claim (R450). -/
def claimable (s : State) (t i : Nat) : Bool :=
  s.intc.pend.contains i && !s.intc.held.contains i && srcMask s i t
    && decide (cfgF s (Addr.intcThr t) 0 4 ≤ srcPrio s i) && aboveTop (stackOf s t) (srcPrio s i)

/-- The claimable source with the highest priority, the lowest id among equals. -/
def bestClaim (s : State) (t : Nat) : Option Nat :=
  (s.intc.pend.filter (claimable s t)).foldl
    (fun b i => match b with
      | none => some i
      | some j => if srcPrio s j < srcPrio s i then some i else some j) none

/-- A read of INTC_CLAIM[t] by a path that may claim: the id, or 0x3FF (R450). -/
def claim (t : Nat) (s : State) : Nat × State :=
  match bestClaim s t with
  | some i =>
    (i, { s with intc := { s.intc with pend := delN i s.intc.pend,
                                       stk := lset s.intc.stk t ((i, srcPrio s i) :: stackOf s t) } })
  | none => (0x3FF, { s with intc := { s.intc with nSpur := incSat 16 s.intc.nSpur } })

/-- Targets 0 to 3 are claimed by the cores alone; a read from outside answers 0x3FF and changes nothing. -/
def claimRead (p : Path) (t : Nat) (s : State) : Nat × State :=
  match p with
  | .core _ => claim t s
  | _ => if t < 4 then (0x3FF, s) else claim t s

def execIntcClaim (p : Path) (t : Fin 8) (s : State) : Host.Outcome State Fault Refusal :=
  if !s.mode.up then .next s else
  let r := claimRead p t s
  .next (emit (.readData p (0x004200 + 16 * t.val) (wordN r.1)) r.2)

/-- The source at the top of a stack, 0x3FF when it is empty. -/
def topId (stk : List (Nat × Nat)) : Nat :=
  match stk with
  | [] => 0x3FF
  | (i, _) :: _ => i

/-- A write of INTC_EOI[t]: the top is popped if its id is written, and INTC_ORDER_FAULT is raised otherwise
(R451). -/
def eoi (t : Nat) (v : Word) (s : State) : State :=
  let id := field v 0 10
  match stackOf s t with
  | (i, _) :: rest =>
    if i = id then { s with intc := { s.intc with stk := lset s.intc.stk t rest } }
    else
      raiseA .fabric Cause.intcOrderFault 0xFF (id + i * 2 ^ 16)
        { s with intc := { s.intc with nOrder := incSat 16 s.intc.nOrder } }
  | [] =>
    raiseA .fabric Cause.intcOrderFault 0xFF (id + 0x3FF * 2 ^ 16)
      { s with intc := { s.intc with nOrder := incSat 16 s.intc.nOrder } }

def execIntcEoi (_p : Path) (t : Fin 8) (v : Word) (s : State) : Host.Outcome State Fault Refusal :=
  .next (regGate (0x004204 + 16 * t.val) (eoi t v) s)

/-- A write of INTC_SWSET raises software source 224 + n, cause INTC_SOFT with ARG = source (R447, R455). -/
def swset (v : Word) (s : State) : State :=
  raiseAt .fabric Cause.intcSoft 0xFF (224 + field v 0 5) (224 + field v 0 5) s

def execIntcSwset (_p : Path) (v : Word) (s : State) : Host.Outcome State Fault Refusal :=
  .next (regGate 0x004840 (swset v) s)

/-- A write of INTC_SRC: clearing EN clears the pending bit (R448). -/
def writeIntcSrc (i : Nat) (v : Word) (s : State) : State :=
  let s1 := setCfg (Addr.intcSrc i) (v &&& 0x10FFF) s
  if v.toNat.testBit 16 then s1
  else { s1 with intc := { s1.intc with pend := delN i s1.intc.pend, held := delN i s1.intc.held } }

/-- IRQn_N is low (R452): high-impedance in BACKUP and SHIP and until the end of LOAD. -/
def irqLow (s : State) (n : Nat) : Bool :=
  s.mode.up && s.ldr.applied && (cfgW s 0x004000).toNat.testBit n && (bestClaim s (4 + n)).isSome

end Sys2Proof.Machine
end

