-- ==== Sys2Proof/Machine/Fabric.lean ====
section
/-!
DEFINITION. The fabric: slack of the ticks and the adaptive core voltage (R494, R496, R497), and the account of tick
overruns (R493).
-/

namespace Sys2Proof.Machine

def modFab (f : Fabric → Fabric) (s : State) : State := { s with fab := f s.fab }

/-- Smallest of a list of slacks, 0 for none. -/
def minSlack : List Nat → Nat
  | [] => 0
  | x :: l => l.foldl Nat.min x

/-- Slack in 0.01 us of a count of 2^-28 s, saturating in 16 bits; 0 on an overrun (R494). -/
def slackOf (counts : Int) : Nat := if counts < 0 then 0 else satN (counts.toNat * 100000000 / 2 ^ 28) 0xFFFF

/-- The code is adapted: after LOAD, outside power-up, power-down and brown-out, no unit reset in progress, HOLD clear (R496, R497). -/
def adapts (s : State) : Bool := s.ldr.applied && s.seq.st == .on && s.seq.wait.isNone && s.fab.resetting.isEmpty && !s.fab.hold

/-- What the pseudocode of R496 decides: the step `up` and `low_run`. -/
def adaptStep (s : State) (slack rate : Nat) : Int × Nat :=
  let drop := decide (rate * 100 < s.fab.ratePrev * 97)
  if decide (slack < 1500) || drop then (4, 0)
  else if slack < 3000 then (1, 0)
  else if decide (4500 < slack) && !(upto 10).any (fun i => (s.getDie i).fast) then
    (if s.fab.lowRun + 1 = 1024 then (-1, 0) else (0, s.fab.lowRun + 1))
  else (0, 0)

/-- The end of a sump tick: DEV_FRATE, DEV_FSLACK and VCORE_MV, and the adaptation (R494, R496). -/
def execVcoreAdapt (rate vcore : Nat) (s : State) : Host.Outcome State Fault Refusal :=
  if s.mode.up = false then .next s
  else
    let slack := minSlack s.fab.slacks
    let low := match s.fab.slackLow with | some x => Nat.min x slack | none => slack
    let s1 := modFab (fun f => { f with rate := rate % 2 ^ 32, slack := slack, slackLow := some low, slacks := [], vcore := satN vcore 1023 }) s
    if adapts s then
      let a := adaptStep s slack rate
      let top := decide (0 < a.1) && decide (880 ≤ vcore)
      let up := if top then 0 else if decide (a.1 < 0) && decide (vcore ≤ 620) then 0 else a.1
      let s2 := if top then raise .fabric Cause.fabVcoreLimit 0xFF s1 else s1
      let s3 := if rate * 100 < s.fab.ratePrev * 97 then raise .fabric Cause.fabRateDrop 0xFF s2 else s2
      .next (modFab (fun f => { f with code := (clampI (f.code + up) 0 255).toNat, lowRun := a.2, ratePrev := rate }) s3)
    else .next s1

/-- A launch tick is judged (R493): `units` has a bit per kind of unit that missed; `slack` is the tick's (R494).
The first flagged tick of a run raises TICK_OVERRUN, the end of a run FAB_OVERRUN_END. -/
def judgeTick (units : Nat) (slack : Nat) (s : State) : State :=
  let s1 := modFab (fun f => { f with slacks := f.slacks ++ [if units = 0 then slack else 0] }) s
  if units ≠ 0 then
    let first := s.fab.ovNow == 0
    let s2 := modFab (fun f => { f with ovNow := f.ovNow + 1, ovRun := satN (f.ovNow + 1) 255, nOvr := incSat 16 f.nOvr,
                                        ovUnits := units, ovTk := if first then s.tb.run % 2 ^ 16 else f.ovTk }) s1
    if first then raiseA .timebase Cause.tickOverrun 0xFF units s2 else s2
  else if s.fab.ovNow = 0 then s1
  else raiseA .timebase Cause.fabOverrunEnd 0xFF s.fab.ovNow (modFab (fun f => { f with ovNow := 0 }) s1)

end Sys2Proof.Machine
end

