-- ==== Sys2Proof/Machine/Ptp.lean ====
section
/-!
DEFINITION. The IEEE 1588 slave: offsets and servo (R246), the states of the timebase (R247), best master selection
and path delays (R245, R270).
-/

namespace Sys2Proof.Machine

/-! ### Configuration (R264) -/

def ptpEn (s : State) : Bool := bitN (cfgN s 0x002000) 0 && s.mode.up
def ptpDomain (s : State) : Nat := cfgF s 0x002004 0 7
/-- TB_PTP.TRANSPORT: true for layer 2. -/
def ptpL2 (s : State) : Bool := bitN (cfgN s 0x002004) 8
/-- LOG_MIN_DREQ and LOG_PDREQ. -/
def logMinDreq (s : State) : Int := signN 8 (cfgF s 0x002008 0 8)
def logPdreq (s : State) : Int := signN 8 (cfgF s 0x002008 8 8)
/-- TB_PTP.DELAY: true for P2P. -/
def ptpP2p (s : State) : Bool := bitN (cfgN s 0x002004) 9
def pdOneStep (s : State) : Bool := bitN (cfgN s 0x002004) 10
def servoKp (s : State) : Int := cfgF s 0x00200C 0 8
def servoKi (s : State) : Int := cfgF s 0x00200C 8 8
def lockNs (s : State) : Nat := cfgF s 0x002010 0 16
def unlockNs (s : State) : Nat := cfgF s 0x002010 16 16
def holdMaxS (s : State) : Nat := cfgF s 0x002014 0 16
def syncTo (s : State) : Nat := cfgF s 0x002014 16 4
def annTo (s : State) : Nat := cfgF s 0x002014 20 4
/-- ASYM of a port, ns. -/
def asymOf (s : State) (port : Nat) : Int := signN 16 (cfgF s 0x002020 (16 * port) 16)

/-- Run ticks in 2^e seconds. -/
def pow2Tk (e : Int) : Nat := if 0 ≤ e then 8192 * 2 ^ e.toNat else 8192 / 2 ^ (-e).toNat

/-! ### States (R247) -/

def TbSt.code : TbSt → Nat
  | .freerun => 0 | .acquire => 1 | .locked => 2 | .holdover => 3

def toAcquire (s : State) : State := modTb (fun t => { t with st := .acquire, nIn := 0, nOut := 0, trace := false }) s

/-- LOCKED is left for ACQUIRE after four offsets beyond UNLOCK_NS. -/
def unlock (s : State) : State :=
  raise .timebase Cause.tbUnlocked 0xFF (modTb (fun t => { t with nUnlock := incSat 8 t.nUnlock }) (toAcquire s))

/-- Sync loss (R247). -/
def syncLost (s : State) : State :=
  match s.tb.st with
  | .acquire => modTb (fun t => { t with st := .freerun, yp := 0 }) s
  | .locked =>
    let mean := if s.tb.yfs.isEmpty then s.tb.yf else rnd (sumI s.tb.yfs) s.tb.yfs.length
    raise .timebase Cause.tbHoldover 0xFF
      (modTb (fun t => { t with st := .holdover, yp := 0, yf := mean, holdTk := t.run, nHold := incSat 8 t.nHold,
                                nUnlock := incSat 8 t.nUnlock }) s)
  | _ => s

/-- HOLDOVER has lasted HOLDOVER_MAX_S seconds of run time. -/
def execTbFreerun (s : State) : Host.Outcome State Fault Refusal :=
  if s.tb.st = .holdover ∧ secTk (holdMaxS s) ≤ since s s.tb.holdTk then
    .next (raise .timebase Cause.tbFreerun 0xFF (modTb (fun t => { t with st := .freerun, trace := false }) s))
  else .next s

/-! ### The servo (R246) -/

def yfMax : Int := 219902326
def ypMax : Int := 109951163

/-- The step limit: 1 ms in RUN, 10 us elsewhere. -/
def stepLim (s : State) : Nat := if s.mode = .run then 1000000 else 10000

/-- n x 2^40 / (256 x 10^9 x 2^logInt), rounded, with the exact interval. -/
def servoTerm (n : Int) (log : Int) : Int :=
  if 0 ≤ log then rnd (n * 2 ^ 40) (256 * 1000000000 * 2 ^ log.toNat) else rnd (n * 2 ^ 40 * 2 ^ (-log).toNat) (256 * 1000000000)

/-- The servo takes an offset; beyond the limit it requests a step by -o. A request keeps the tick of the first. -/
def servo (o log : Int) (s : State) : State :=
  if stepLim s < o.natAbs then
    modTb (fun t => { t with step := some (-o, match t.step with | some x => x.2 | none => t.run) }) s
  else
    modTb (fun t => { t with yp := clampI (-(servoTerm (o * servoKp s) log)) (-ypMax) ypMax,
                             yf := clampI (t.yf - servoTerm (o * servoKi s) log) (-yfMax) yfMax }) s

/-- The counts behind the transitions, and the transitions of an accepted Sync. -/
def syncState (o : Int) (s : State) : State :=
  let nIn := if o.natAbs ≤ lockNs s then s.tb.nIn + 1 else 0
  let nOut := if unlockNs s < o.natAbs then s.tb.nOut + 1 else 0
  match s.tb.st with
  | .freerun | .holdover => toAcquire s
  | .acquire =>
    if 16 ≤ nIn then
      raise .timebase Cause.tbLocked 0xFF (modTb (fun t => { t with st := .locked, trace := true, lockTk := t.run, nIn := 0, nOut := 0 }) s)
    else modTb (fun t => { t with nIn := nIn }) s
  | .locked => if 4 ≤ nOut then unlock s else modTb (fun t => { t with nOut := nOut }) s

/-- A Sync with its origin time and correction is accepted: t1 and t2 are kept for the delay request. -/
def acceptSync (port : Nat) (origin rx corr log : Int) (s : State) : State :=
  let delay : Int := if ptpP2p s then (s.tb.linkDelay.getD port none).getD 0 else s.tb.mpd
  let t2 := rx - asymOf s port
  let o := rnd ((t2 - origin - delay) * 65536 - corr) 65536
  let s1 := servo o log s
  let s2 := modTb (fun t => { t with ofs := satI 32 o, syncTk := t.run, logSync := log, port := port, yfs := (t.yf :: t.yfs).take 64,
                                     mpd := delay, t12 := some (rnd (origin * 65536 + corr) 65536, t2) }) s1
  syncState o s2

/-- A PTP message reaches the device's clock: its port is up, its transport and domain are the configured ones, and the internal
port takes its frame (R245, R277). -/
def ptpHeard (s : State) (m : PtpMsg) : Bool :=
  linkUp s m.port && m.l2 == ptpL2 s && m.domain == ptpDomain s && vlanIn s m.vid

/-- A message of the selected master. -/
def fromMaster (s : State) (m : PtpMsg) : Bool :=
  ptpEn s && ptpHeard s m
    && (match s.tb.master with | some x => x.ident == m.ident && x.port == m.srcPort | none => false)

/-- A Sync, or the Follow_Up of a two-step Sync. -/
def execPtpSync (m : PtpMsg) (s : State) : Host.Outcome State Fault Refusal :=
  if !fromMaster s m then .next s
  else if m.mtype = 0 then
    if m.logInt < -7 ∨ 1 < m.logInt then .next s
    else if m.twoStep then .next (modTb (fun t => { t with syncWait := some (m.seq, m.rx, m.corr), logSync := m.logInt }) s)
    else .next (acceptSync m.port.val m.origin m.rx m.corr m.logInt (modTb (fun t => { t with syncWait := none }) s))
  else if m.mtype = 8 then
    match s.tb.syncWait with
    | some (seq, rx, corr) =>
      if seq = m.seq then .next (acceptSync m.port.val m.origin rx (corr + m.corr) s.tb.logSync (modTb (fun t => { t with syncWait := none }) s))
      else .next s
    | none => .next s
  else .next s

/-! ### Best master (R245) -/

/-- Lexicographic comparison of lists. -/
def lexLess : List Nat → List Nat → Bool
  | [], _ => false
  | _ :: _, [] => false
  | a :: l, b :: r => decide (a < b) || (a == b && lexLess l r)

/-- Master a is better than b: the default dataset comparison of the standard. -/
def better (a b : Master) : Bool :=
  if a.gm = b.gm then lexLess [a.steps, a.ident, a.port] [b.steps, b.ident, b.port]
  else lexLess [a.p1, a.cls, a.accu, a.vari, a.p2, a.gm] [b.p1, b.cls, b.accu, b.vari, b.p2, b.gm]

/-- A foreign master is qualified: two Announces within four of its intervals; the selected one until its receipt
timeout. -/
def qualified (s : State) (m : Master) : Bool :=
  let n := (m.heard.filter fun t => decide (since s t ≤ 4 * pow2Tk m.logAnn)).length
  let mine := match s.tb.master with | some x => x.ident == m.ident && x.port == m.port | none => false
  decide (2 ≤ n) || (mine && m.heard.any fun t => decide (since s t ≤ annTo s * pow2Tk m.logAnn))

def bestOf (l : List Master) : Option Master :=
  l.foldl (fun b m => match b with | none => some m | some x => if better m x then some m else some x) none

/-- The best qualified master is selected; one that differs from the master selected last restarts acquisition (R247). -/
def selectMaster (s : State) : State :=
  match bestOf (s.tb.foreign.filter (qualified s)) with
  | none => s
  | some m =>
    let s1 := modTb (fun t => { t with master := some m, lastMaster := some (m.ident, m.port), utc := (m.utc, m.utcValid), port := m.ingress }) s
    if s.tb.lastMaster = none ∨ s.tb.lastMaster = some (m.ident, m.port) then s1
    else
      let s2 := modTb (fun t => { t with nMaster := incSat 8 t.nMaster, syncWait := none, t12 := none, nIn := 0, nOut := 0 }) s1
      let s3 := if s.tb.st = .locked ∨ s.tb.st = .holdover then toAcquire s2 else s2
      let s4 := if s.tb.st = .locked then modTb (fun t => { t with nUnlock := incSat 8 t.nUnlock }) s3 else s3
      raise .timebase Cause.tbMasterChange 0xFF s4

/-- An Announce is heard. -/
def execPtpAnnounce (m : PtpMsg) (s : State) : Host.Outcome State Fault Refusal :=
  if !(ptpEn s && ptpHeard s m && decide (-3 ≤ m.logInt) && decide (m.logInt ≤ 4) && decide (m.steps < 255)) then .next s
  else
    let same (x : Master) : Bool := x.ident == m.ident && x.port == m.srcPort
    let old := (s.tb.foreign.find? same).map (·.heard)
    let x : Master := { p1 := m.p1, cls := m.cls, accu := m.accu, vari := m.vari, p2 := m.p2, gm := m.gm, steps := m.steps,
                        ident := m.ident, port := m.srcPort, ingress := m.port.val, utc := m.utc, utcValid := m.utcValid,
                        logAnn := m.logInt, heard := (s.tb.run :: old.getD []).take 4 }
    .next (selectMaster (modTb (fun t => { t with foreign := x :: t.foreign.filter fun y => !same y }) s))

/-- The Announce receipt timeout of the selected master, in run ticks. -/
def annTimeout (s : State) : Bool :=
  match s.tb.master with
  | some m =>
    (match s.tb.foreign.find? fun y => y.ident == m.ident && y.port == m.port with
     | some y => !y.heard.any fun t => decide (since s t < annTo s * pow2Tk y.logAnn)
     | none => true)
  | none => false

/-- No Sync for SYNC_TO intervals, or an Announce timeout with no other qualified master (R247); with one, it is
selected. -/
def execSyncLoss (s : State) : Host.Outcome State Fault Refusal :=
  if s.mode.up = false then .next s
  else if annTimeout s then
    let mine (y : Master) : Bool := match s.tb.master with | some m => y.ident == m.ident && y.port == m.port | none => false
    let s1 := modTb (fun t => { t with foreign := t.foreign.filter fun y => !mine y }) s
    match bestOf (s1.tb.foreign.filter (qualified s1)) with
    | some _ => .next (selectMaster s1)
    | none => .next (syncLost (modTb (fun t => { t with master := none, syncWait := none, t12 := none }) s1))
  else if syncTo s * pow2Tk s.tb.logSync ≤ since s s.tb.syncTk then .next (syncLost s)
  else .next s

/-! ### Path delays (R245, R270) -/

/-- Octets of a PTP frame: its message, and the headers of its transport. -/
def ptpLen (l2 : Bool) (type : Nat) : Nat := (if type = 1 then 44 else 54) + (if l2 then 18 else 46)

/-- A PTP message of the device leaves in the configured transport, tagged with PCP_PTP; event messages take the high queue
(R245, R269, R277). In UDP/IPv4 it needs an address (R275). -/
def sendPtp (port type seq : Nat) (origin corr : Int) (s : State) : State :=
  let l2 := ptpL2 s
  let tag := ownTag s (pcpPtp s)
  if l2 || s.link.ipNow != 0 then
    txFrame port (type != 10 || tagHigh tag) (frameLen (ptpLen l2 type) tag) (.ptp port l2 tag type seq origin corr) s
  else s

/-- 2^e seconds have passed since a request of a run tick. -/
def intervalOver (s : State) (e : Int) (last : Option Nat) : Bool := match last with | some t => decide (pow2Tk e ≤ since s t) | none => true

/-- The Delay_Req interval: 2^max(logMinDelayReqInterval of the master, LOG_MIN_DREQ) s (R245). -/
def dreqLog (s : State) : Int := max s.tb.logDreq (logMinDreq s)

/-- The Delay_Req interval has passed: a Delay_Req is sent (E2E), with the port's asymmetry taken off its correction as the
standard defines. -/
def execDelayReqSend (tx : Int) (s : State) : Host.Outcome State Fault Refusal :=
  if ptpEn s && !ptpP2p s && s.tb.master.isSome && s.tb.t12.isSome && linkUp s s.tb.port && intervalOver s (dreqLog s) s.tb.dreqTk then
    let q := s.tb.dreqSeq
    .next (sendPtp s.tb.port 1 q 0 (-(asymOf s s.tb.port * 65536))
      (modTb (fun t => { t with dreq := some (q, tx), dreqTk := some t.run, dreqSeq := (q + 1) % 2 ^ 16 }) s))
  else .next s

/-- 2^LOG_PDREQ s have passed: a Pdelay_Req is sent on a port (P2P), whether or not the slave runs (R270). -/
def execPdelayReqSend (port : Fin 2) (tx : Int) (s : State) : Host.Outcome State Fault Refusal :=
  if ptpP2p s && linkUp s port.val && intervalOver s (logPdreq s) (s.tb.pdTk.getD port.val none) then
    let q := s.tb.pdSeq.getD port.val 0
    .next (sendPtp port.val 2 q 0 (-(asymOf s port.val * 65536))
      (modTb (fun t => { t with pdreq := lset t.pdreq port.val (some (q, tx)), pdwait := lset t.pdwait port.val none,
                                pdTk := lset t.pdTk port.val (some t.run), pdSeq := lset t.pdSeq port.val ((q + 1) % 2 ^ 16) }) s))
  else .next s

/-- A neighbour's Pdelay_Req is answered at time t3 as PD_ONESTEP selects: a one-step response carries the turnaround in its
correction. -/
def answerPdelay (m : PtpMsg) (t3 : Int) (s : State) : State :=
  if pdOneStep s then sendPtp m.port.val 3 m.seq 0 (m.corr + (t3 - m.rx) * 65536) s
  else sendPtp m.port.val 10 m.seq t3 m.corr (sendPtp m.port.val 3 m.seq m.rx 0 s)

/-- The link delay of a port from the times of a Pdelay exchange: t1, t2, t3, t4 and the corrections, to which a response's
ingress adds the port's asymmetry. -/
def setLinkDelay (p : Nat) (t1 t2 t3 t4 corr : Int) (s : State) : State :=
  modTb (fun t => { t with linkDelay := lset t.linkDelay p (some (rnd (((t4 - t1) - (t3 - t2) - asymOf s p) * 65536 - corr) (2 * 65536))),
                           pdreq := lset t.pdreq p none, pdwait := lset t.pdwait p none }) s

/-- A Delay_Resp or a Pdelay message (R245). -/
def execPtpDelayMessage (m : PtpMsg) (tx : Int) (s : State) : Host.Outcome State Fault Refusal :=
  if !ptpHeard s m then .next s
  else if m.mtype = 9 then
    match s.tb.dreq, s.tb.t12 with
    | some (q, t3), some (t1, t2) =>
      if fromMaster s m && q == m.seq && !ptpP2p s then
        let d := rnd (((t2 - t1) + (m.origin - t3)) * 65536 - m.corr) (2 * 65536)
        .next (modTb (fun t => { t with mpd := d, dreq := none, logDreq := m.logInt }) s)
      else .next s
    | _, _ => .next s
  else if !ptpP2p s then .next s
  else if m.mtype = 2 then .next (answerPdelay m tx s)
  else if m.mtype = 3 then
    match s.tb.pdreq.getD m.port.val none with
    | some (q, t1) =>
      if q ≠ m.seq then .next s
      else if m.twoStep then .next (modTb (fun t => { t with pdwait := lset t.pdwait m.port.val (some (q, m.origin, m.rx, m.corr)) }) s)
      else .next (setLinkDelay m.port.val t1 0 0 m.rx m.corr s)
    | none => .next s
  else if m.mtype = 10 then
    match s.tb.pdreq.getD m.port.val none, s.tb.pdwait.getD m.port.val none with
    | some (_, t1), some (q, t2, t4, corr) =>
      if q = m.seq then .next (setLinkDelay m.port.val t1 t2 m.origin t4 (corr + m.corr) s) else .next s
    | _, _ => .next s
  else .next s

end Sys2Proof.Machine
end

