-- ==== Sys2Proof/Machine/Link.lean ====
section
/-!
DEFINITION. The link below Perzo: ports and switch (R267 to R271), the rope (R272 to R274), addressing (R275, R276), and
the form of a Perzo message (R278).
-/

namespace Sys2Proof.Machine

/-! ### Perzo messages (R278) -/

/-- TYPE, SESSION, FLAGS, LEN and SEQ of a message, and its payload. -/
def Pz.type (m : List Byte) : Nat := byteAt m 3
def Pz.sess (m : List Byte) : Nat := byteAt m 4
def Pz.flags (m : List Byte) : Nat := byteAt m 5
def Pz.len (m : List Byte) : Nat := leAt m 6 2
def Pz.seq (m : List Byte) : Nat := leAt m 8 4
def Pz.payload (m : List Byte) : List Byte := (m.drop 16).take (Pz.len m)

/-- MAGIC, VER, LEN and CRC are right (R279). -/
def Pz.whole (m : List Byte) : Bool :=
  decide (20 ≤ m.length) && leAt m 0 2 == 0x5A50 && byteAt m 2 == 1 && m.length == Pz.len m + 20 && Pz.len m % 4 == 0
    && decide (Pz.len m ≤ 1452) && crc32cOk m

/-- LINK_ROPE.POS, 0 until it is derived. -/
def ropePos (s : State) : Nat := s.link.pos.getD 0

/-- A message the device sends. -/
def pzMsg (s : State) (type sess flags seq : Nat) (payload : List Byte) : List Byte :=
  withCrc32c ([0x50, 0x5A, 0x01] ++ leBytes 1 type ++ leBytes 1 sess ++ leBytes 1 flags ++ leBytes 2 payload.length ++ leBytes 4 seq
    ++ leBytes 1 (ropePos s) ++ [0, 0, 0] ++ payload)

/-! ### Addressing (R275) -/

/-- LINK_NET.PREFIX and LINK_GW. -/
def netPrefix (s : State) : Nat := cfgF s 0x007008 0 5
def linkGw (s : State) : Nat := cfgN s 0x00700C

/-- The next hop of traffic for an address: itself in the subnet, LINK_GW beyond it. -/
def nextHop (s : State) (ip : Nat) : Nat :=
  let net (x : Nat) : Nat := x / 2 ^ (32 - netPrefix s)
  if net ip = net s.link.ipNow ∨ linkGw s = 0 then ip else linkGw s

/-- The MAC address traffic for an address is sent to: that of the group, or that of the next hop, from the ARP cache. -/
def hopMac (s : State) (ip : Nat) : Option Nat :=
  if ip / 2 ^ 28 = 14 then some (0x01005E000000 + ip % 2 ^ 23) else alFind (nextHop s ip) s.link.arp

/-- An address the cache covers: the next hop of a session, or the gateway. -/
def arpKeeps (s : State) (ip : Nat) : Bool :=
  ip == linkGw s || s.link.sess.any fun x => match x with | some y => nextHop s y.ip == ip | none => false

/-- A sender's addresses enter the cache of 16; those it covers stay. -/
def learnArp (ip mac : Nat) (s : State) : State :=
  let all := (ip, mac) :: s.link.arp.filter fun x => x.1 != ip
  modLink (fun l => { l with arp := (all.filter (fun x => arpKeeps s x.1) ++ all.filter (fun x => !arpKeeps s x.1)).take 16 }) s

/-- The tag of an ARP or ICMP frame, of which R277 gives no PCP. -/
def otherTag (s : State) : Option (Nat × Nat) := ownTag s Config.pcpOther.toNat

/-- A gratuitous ARP leaves a port. -/
def announce (p a : Nat) (s : State) : State :=
  txFrame p (tagHigh (otherTag s)) (frameLen 46 (otherTag s)) (.arpAnnounce p a (otherTag s)) s

/-- The address is taken, once, as LINK_CTRL.ADDR_MODE says: a gratuitous ARP goes out of each port that is up. -/
def takeAddress (s : State) : State :=
  if s.link.ipNow ≠ 0 ∨ s.ldr.gen = 0 then s
  else
    let base := cfgN s 0x007004
    let addr : Option Nat := if bitN (cfgN s 0x007000) 2 then s.link.pos.map (base + ·) else some base
    match addr with
    | some a =>
      let s1 := modLink (fun l => { l with ipNow := a }) s
      if a = 0 then s1 else forEach [0, 1] (fun p t => if linkUp t p then announce p a t else t) s1
    | none => s

/-! ### The rope (R273, R274) -/

/-- A position is derived: LINK_POS_CHANGE after the first, LINK_ROPE_LONG from 32 on. -/
def setPos (p : Nat) (head : Bool) (s : State) : State :=
  let s1 := modLink (fun l => { l with pos := some p, lastPos := some p, head := head }) s
  let s2 := match s.link.lastPos with
    | some q => if q ≠ p then raise .ports Cause.linkPosChange 0xFF s1 else s1
    | none => s1
  let s3 := if 32 ≤ p ∧ s.link.pos ≠ some p then raise .ports Cause.linkRopeLong 0xFF s2 else s2
  takeAddress s3

/-- SEG_KBPS is recomputed from LINK_WCR and the latest P1 hello no older than 3 s. -/
def updateSeg (s : State) : State :=
  let down := match s.link.p1.hello with | some (_, seg, tk) => if since s tk ≤ secTk 3 then seg else 0 | none => 0
  let seg := s.link.wcr + down
  let over_ := decide (800000 < seg)
  let s1 := modLink (fun l => { l with seg := seg, budgetOver := over_ }) s
  if over_ && !s.link.budgetOver then raise .ports Cause.linkBudgetOver 0xFF s1 else s1

/-- The device is the tail: it has heard no hello on P1 for 3 s, or P1 is down (R273). -/
def isTail (s : State) : Bool := s.link.tail || !s.link.p1.up

/-- The rope hello of R273, R280. -/
def helloMsg (s : State) : List Byte :=
  pzMsg s 0x50 0xFF 0 0 (leBytes 1 (ropePos s) ++ leBytes 1 (b2n s.link.pos.isSome + 2 * b2n s.link.head + 4 * b2n (isTail s)) ++ [0, 0]
    ++ leBytes 6 (fuseMac s) ++ [0, 0] ++ leBytes 4 s.link.ipNow ++ leBytes 4 s.link.seg)

/-- A port comes up at 1,000 Mb/s. -/
def execPortUp (port : Fin 2) (s : State) : Host.Outcome State Fault Refusal :=
  if linkRuns s && !(s.getPort port).up then
    let s1 := modPort port (fun p => { p with up := true, upTk := s.tb.run, hi := 0, lo := 0 }) s
    .next (if s1.link.ipNow = 0 then takeAddress s1 else announce port s1.link.ipNow s1)
  else .next s

/-- A port is down: what its queues held is gone. The hello it heard last counts until it is 3 s old (R273, R274). -/
def portDown (p : Nat) (s : State) : State := modPort p (fun x => { x with up := false, hi := 0, lo := 0 }) s

/-- A port goes down: LINK_PORT_DOWN. -/
def execLinkPortDown (port : Fin 2) (s : State) : Host.Outcome State Fault Refusal :=
  if (s.getPort port).up then .next (raise .ports Cause.linkPortDown 0xFF (portDown port s)) else .next s

/-- REST with REST_FWD = 0: both ports power down and every session is lost (R271). -/
def linkRest (s : State) : State :=
  if linkRuns s then s else forEach (upto 4) (closeSession · true) (portDown 1 (portDown 0 s))

/-- A rope hello leaves a port that is up. -/
def execRopeHelloSend (port : Fin 2) (s : State) : Host.Outcome State Fault Refusal :=
  if linkUp s port then
    let s1 := updateSeg s
    .next (txFrame port false (frameLen ((helloMsg s1).length + 18) none) (.hello port (helloMsg s1)) s1)
  else .next s

/-- LINK_PZ_CNT.DISC counts a discarded message (R279). -/
def pzDiscard (s : State) : State := modLink (fun l => { l with nDisc := incSat 8 l.nDisc }) s

/-- TYPE, header and payload of a rope hello are what R278 and R280 say, its reserved bits 0. -/
def helloOk (m : List Byte) : Bool :=
  let b := Pz.payload m
  Pz.type m == 0x50 && Pz.flags m == 0 && allZero (slice m 13 3) && b.length == 20 && decide (byteAt b 0 ≤ 63) && decide (byteAt b 1 < 8)
    && allZero (slice b 2 2) && allZero (slice b 10 2)

/-- A rope hello takes effect: on P0 it gives the position, on P1 the load below. -/
def helloIn (port : Nat) (b : List Byte) (s : State) : State :=
  let s1 := modPort port (fun p => { p with hello := some (byteAt b 0, leAt b 16 4, s.tb.run) }) s
  if port = 0 then
    (if bitN (byteAt b 1) 0 then setPos (Nat.min (byteAt b 0 + 1) 63) false s1 else modLink (fun l => { l with head := false }) s1)
  else updateSeg (modLink (fun l => { l with tail := false }) s1)

/-- A rope hello is heard: one that fails the checks of R279 is discarded and counted, a malformed one refused. DESIGN CHOICE (log
entry 84): its sender is no session and gets no response, so that the refusal is the event alone. -/
def execRopeHello (port : Fin 2) (msg : List Byte) (s : State) : Host.Outcome State Fault Refusal :=
  .next (if !linkUp s port then s
    else if !Pz.whole msg || Pz.sess msg != 0xFF then pzDiscard s
    else if !helloOk msg then raiseSrc .fabric Cause.pzBad 0xFF 160 0 [] s
    else helloIn port (Pz.payload msg) s)

/-- No hello has come on a port for 3 s (R273). -/
def quiet (s : State) (p : Nat) : Bool :=
  match (s.getPort p).hello with
  | some (_, _, tk) => decide (secTk 3 ≤ since s tk)
  | none => true

/-- No hello on P0 for 3 s, and 3 s since P0 came up: the device is the head at position 0; else a position it had lapses. -/
def execHeadTimeout (s : State) : Host.Outcome State Fault Refusal :=
  if linkRuns s && quiet s 0 then
    .next (if s.link.p0.up && decide (secTk 3 ≤ since s s.link.p0.upTk) then setPos 0 true s
      else modLink (fun l => { l with pos := none, head := false }) s)
  else .next s

/-- No hello on P1 for 3 s, of which it was up if it has heard none yet: the device is the tail, and the load below is 0 (R273,
R274). -/
def execTailTimeout (s : State) : Host.Outcome State Fault Refusal :=
  if linkRuns s && quiet s 1 && (s.link.p1.hello.isSome || decide (secTk 3 ≤ since s s.link.p1.upTk)) then
    .next (updateSeg (modLink (fun l => { l with tail := true, p1 := { l.p1 with hello := none } }) s))
  else .next s

/-! ### ARP and ICMP (R275, R276) -/

/-- IPv4 traffic of a frame reaches the device: its port carries frames, an address is in force, and the internal port takes the
frame's tag (R276, R277). -/
def ipHeard (s : State) (port : Nat) (vid : Option Nat) : Bool := linkUp s port && decide (s.link.ipNow ≠ 0) && vlanIn s vid

def execArpRequest (port : Fin 2) (target ip mac : Nat) (vid : Option Nat) (s : State) : Host.Outcome State Fault Refusal :=
  if ipHeard s port vid && target == s.link.ipNow then
    .next (txFrame port (tagHigh (otherTag s)) (frameLen 46 (otherTag s)) (.arpReply port ip mac (otherTag s)) (learnArp ip mac s))
  else .next s

/-- Echo requests are answered while enabled, 100 in a second. -/
def execIcmpEcho (port : Fin 2) (ip mac : Nat) (vid : Option Nat) (bytes : List Byte) (s : State) : Host.Outcome State Fault Refusal :=
  if ipHeard s port vid && bitN (cfgN s 0x007000) 4 && decide (s.link.icmp < 100) then
    .next (txFrame port (tagHigh (otherTag s)) (frameLen (bytes.length + 38) (otherTag s)) (.icmpReply port ip mac (otherTag s) bytes)
      (modLink (fun l => { l with icmp := l.icmp + 1 }) s))
  else .next s

/-- A second of line time begins: LINK_RATE takes the bytes of the last one, and echo requests are counted anew. -/
def linkSecond (s : State) : State := modLink (fun l => { l with rate := l.rateNow * 8 / 1000, rateNow := 0, icmp := 0 }) s

/-! ### The switch (R268 to R270) -/

/-- What the transparent clock adds to a message's correctionField, 2^-16 ns. -/
def tcCorrection (s : State) (ingress : Nat) (f : Frame) : Int :=
  let link : Int := if ptpP2p s then ((s.tb.linkDelay.getD ingress none).getD 0) * 65536 else 0
  if f.domain ≠ ptpDomain s then 0
  else match f.kind with
    | .ptpSync two => if two then 0 else f.resid + link
    | .ptpFollowUp => f.resid + link
    | .ptpDelayReq => if ptpP2p s then 0 else f.resid
    | _ => 0

/-- The high queue: PTP event messages, and frames of PCP 6 or 7. -/
def highQueue (f : Frame) : Bool :=
  tagHigh f.tag || (match f.kind with | .ptpSync _ => true | .ptpDelayReq => true | _ => false)

/-- A frame crosses to the other port: it cuts through an egress port that is idle with empty queues, and is stored and forwarded
otherwise; a correction in flight sets the checksum of its UDP frame to 0 (R268 to R270). -/
def forwardFrame (ingress : Nat) (f : Frame) (s : State) : State :=
  let out_ := 1 - ingress
  if f.dst = .own ∨ f.dst = .pdelay ∨ f.dst = .ropeHello ∨ linkUp s out_ = false then s
  else
    let s1 := modPort out_ (Port.atTime f.at_) s
    let corr := tcCorrection s ingress f
    if !f.fcsOk && (s1.getPort out_).held != 0 then s1
    else txFrame out_ (highQueue f) f.len (.forward out_ (highQueue f) (!f.fcsOk) corr (f.udp && corr != 0) f.ident) s1

/-- A frame arrives: oversized ones are dropped and counted, FCS failures are counted, the others are forwarded. -/
def ingressFrame (port : Nat) (f : Frame) (s : State) : State :=
  if 1522 < f.len then modPort port (fun p => { p with drop := incSat 16 p.drop }) s
  else
    let s1 := if f.fcsOk then s else modPort port (fun p => { p with fcs := incSat 16 p.fcs }) s
    forwardFrame port f s1

end Sys2Proof.Machine
end

