-- ==== Sys2Proof/Machine/Launch.lean ====
section
/-!
DEFINITION. The launch tick: at its edge the island strikes what was staged in time (R253, R490 to R493). Channels change
state (R136), commands and steps begin (R122, R148), grants come into force, and timed commands are applied (R258).
-/

namespace Sys2Proof.Machine

/-! ### Commits (R490 to R492) -/

/-- A commit of gallery g's step engine is required for the next tick. -/
def engNeeded (s : State) (g : Nat) : Bool := stageOn s && !(popOfGal s g).isEmpty

/-- It is in time. -/
def engInTime (s : State) (g : Nat) : Bool :=
  match (s.getGal g).engCommit with
  | some (t, slack) => t == s.tb.run + 1 && decide (0 ≤ slack)
  | none => false

/-- The step engine of channel k is late. -/
def engLate (s : State) (k : Nat) : Bool := engNeeded s (galOf k) && !engInTime s (galOf k)

/-- A step end, which R149 makes late. -/
def EngEff.isEnd : EngEff → Bool
  | .boundary _ _ _ => true
  | .fault _ (some _) => true
  | _ => false

/-- What the step engine has for the next tick, a step end it did not even evaluate included. -/
def engDue (s : State) (k : Nat) : Option EngAct :=
  let c := s.getCh k
  match (s.getGal (galOf k)).engCommit with
  | some _ => c.eng
  | none =>
    match evalCh s k with
    | some a => if a.eff.isEnd then some a else c.eng
    | none => c.eng

/-- A decision other than the counters. -/
def EngAct.acts (a : EngAct) : Bool := a.eff != .stay || a.cmd.isSome

/-- What the step engine staged for channel k and is struck on the next tick. -/
def engStruck (s : State) (k : Nat) : Option EngAct := if stageOn s && engInTime s (galOf k) then (s.getCh k).eng else none

/-- The plan of channel k for the next tick, a late engine left aside. -/
def planStruck (s : State) (k : Nat) : Plan :=
  if (engStruck s k).isSome then plan s k else plan (modCh k (fun c => { c with eng := none }) s) k

/-- A staged value of a kind fits the plan of the tick. -/
def fits (c : Channel) (p : Plan) (x : RegStage) : Bool :=
  match p with
  | .rest => false
  | .drain => x.reg.cmd.isNone && !x.lend
  | .run _ _ => !x.lend && (x.reg.cmd.isSome || c.reg.cmd.isNone)
  | .lend _ _ => x.lend

/-- What regulator k staged for the next tick, if its commit is in time. A late boundary is a tick overrun of its channel
(R149). -/
def regStruck (s : State) (k : Nat) : Option RegStage :=
  let c := s.getCh k
  let late := engLate s k && (match engDue s k with | some a => a.acts | none => false)
  match c.stage with
  | some x => if 0 ≤ x.slack ∧ late = false ∧ fits c (planStruck s k) x = true then some x else none
  | none => none

/-- A required commit of regulator k is missing. -/
def regMissed (s : State) (k : Nat) : Bool := planStruck s k != .rest && (regStruck s k).isNone

/-- A timed command that channel k would apply on the next tick misses it (R492). -/
def timedMissed (s : State) (k : Nat) : Bool :=
  let c := s.getCh k
  (engLate s k && ((c.st == .armed && (launchDue s k).isSome && floorMet s k)
      || (inStepType s k StepT.groupWait && !(releasesDue s k (Stp.aux8 (openStep s k))).isEmpty)))
    || (regMissed s k && !(dueSetpoints s k).isEmpty)

/-- The units that missed the next tick: regulators, step engines, the sump, timed commands, the liveness token, in bits 0
to 4 (R491, R493, R499). -/
def missedUnits (s : State) (live : Option Int) : Nat :=
  let ks := popAll s
  let alive := match live with | some x => decide (0 ≤ x) | none => false
  let sump := match s.sump.stage with | some a => decide (a.at_ ≠ s.tb.run + 1) | none => true
  b2n (ks.any (regMissed s)) + 2 * b2n ((upto 8).any fun g => engNeeded s g && !engInTime s g)
    + 4 * b2n (stageOn s && s.sump.due && decide ((s.tb.run + 1) % 8 = 1) && sump) + 8 * b2n (ks.any (timedMissed s))
    + 16 * b2n ((s.getRail 2).good && !alive)

/-- The slack of the tick: that of its last required commit (R494). -/
def tickSlack (s : State) (live : Option Int) : Nat :=
  minSlack (((popAll s).filterMap fun k => (regStruck s k).map fun x => slackOf x.slack)
    ++ ((upto 8).filterMap fun g => if engNeeded s g then (s.getGal g).engCommit.map fun x => slackOf x.2 else none)
    ++ (match s.sump.stage with | some a => if a.at_ = s.tb.run + 1 then [slackOf a.slack] else [] | none => [])
    ++ (match live with | some x => [slackOf x] | none => []))

/-! ### Counters of the tick that ends -/

/-- Pause ticks, TEMP_WAIT ticks and hold time count tick t, which ends (R147, R162, R171, R172). -/
def countTick (c : Channel) (t : Nat) (r : RcpRun) : RcpRun :=
  let paused := c.st == .paused || c.st == .lost || (c.suspect && decide (c.declTk ≤ t))
  let temp := c.st == .tempWait && !paused
  let hold := c.st == .hold
  { r with p := if paused then r.p + 1 else r.p, w := if temp then r.w + 1 else r.w, gapTk := if paused || temp then some t else r.gapTk,
           tempTk := if c.st = .tempWait then r.tempTk + 1 else 0, holdTk := if hold then r.holdTk + 1 else r.holdTk,
           topTk := if hold && r.topoff then r.topTk + 1 else r.topTk, slewDone := false }

def countCh (k : Nat) (s : State) : State :=
  let c := s.getCh k
  let f := countTick c (s.tb.run - 1)
  let acc := if c.lendAfter = 8192 then c.lentAcc + (s.getFe k).accLast else c.lentAcc
  modCh k (fun c => { c with rcp := f c.rcp, eng := c.eng.map (fun a => { a with rcp := f a.rcp }), lentAcc := acc,
                             lendAfter := if c.lending then 8192 else c.lendAfter - 1 }) s

/-! ### What starts at a boundary -/

/-- A recipe completes (R159): grading, and the capacity record's event (R203). -/
def completeRcp (k : Nat) (s : State) : State :=
  let s1 := estChanged k s
  if Hdr.grade (boundRcp s k) then grade k Cause.rcpDone (modCh k (fun c => { c with rcp := { c.rcp with graded := true } }) s1) else s1

/-- The regulator stops; its g_eff stays. -/
def stopReg (k : Nat) (s : State) : State := modCh k (fun c => { c with reg := { c.reg with cmd := none, pend := none, ramp := false, restart := false, done := true } }) s

/-- The range of a step (R91). -/
def stepRange (s : State) (k : Nat) (t : List Byte) : Nat :=
  if !drives (Stp.type t) then (if Stp.irng t < 4 then Stp.irng t else 0)
  else if Stp.irng t < 4 then Stp.irng t else autoRange s k (Stp.ibnd t)

/-- Step i starts on this tick. -/
def enterStep (k i : Nat) (cmd : Option Sp) (s : State) : State :=
  let t := rcpStep (boundRcp s k) i
  let wait := drives (Stp.type t) && cmd.isNone
  let s1 := modCh k (fun c => { c with
    st := if wait then .tempWait else .step,
    rcp := { c.rcp with step := i, s := s.tb.run, p := 0, w := 0, isOpen := true, blank0 := 0, conf := [0, 0, 0, 0], accStep := (s.getFe k).acc,
                        gapTk := none, tempTk := 0, seg := 0, pulses := [], wait := Stp.type t == StepT.groupWait, released := false } }) s
  setRange k (stepRange s k t) (if drives (Stp.type t) && !wait then s1 else stopReg k s1)

/-- HOLD is entered (R159, R171). A FLOAT whose demand temperature holds at 0 keeps its command (R173). -/
def enterHold (k : Nat) (a : EngAct) (s : State) : State :=
  let b := boundRcp s k
  let s1 := modCh k (fun c => { c with st := .hold, rcp := { c.rcp with holdTk := 0, lowTk := 0, topoff := false, topTk := 0, holdHot := a.rcp.holdHot, wait := false } }) s
  if Hdr.holdMode b = 2 then
    setRange k (autoRange s k (Hdr.iTop b))
      (if a.rcp.holdHot then modCh k (fun c => { c with reg := { c.reg with cmd := a.cmd, pend := none, ramp := false, restart := true } }) s1 else s1)
  else setRange k (feIrngDef s k) (stopReg k s1)

/-- What the recipe goes on to. -/
def goOn (k : Nat) (n : RcpNext) (a : EngAct) (s : State) : State :=
  match n with
  | .step i => enterStep k i a.cmd s
  | .hold => enterHold k a (completeRcp k s)
  | .idle cause =>
    let s1 := if cause = Cause.rcpDone then completeRcp k s else s
    drainCh k .recipe cause (raise .fabric cause k (modCh k (fun c => { c with cause := cause }) s1))

/-- The open step ends at a boundary (R148): measurements, DCIR, and its closure. -/
def endStep (k cause lastEnd next : Nat) (s : State) : State :=
  let t := openStep s k
  let q := Trm.qty (Stp.term t lastEnd)
  let byTerm := decide (lastEnd < 4) && q != 0x01 && q != 0x0D
  let s1 := measureOcv k t (stepTime s k s.tb.run) (measureCap k t byTerm s)
  closeStep k cause lastEnd next (if Stp.type t = StepT.pulse then publishDcir k s1 else s1)

/-- The recipe ends from TEMP_WAIT or HOLD (R162, R171, R172). -/
def quitRcp (k cause : Nat) (s : State) : State :=
  let s1 := if (s.getCh k).rcp.isOpen then closeStep k cause 7 0xFF s else raise .fabric cause k (modCh k (fun c => { c with cause := cause }) s)
  let s2 := if cause = Cause.rcpTopoffTimeout ∨ cause = Cause.rcpRechgLimit then gradeHold k cause s1 else s1
  drainCh k .recipe cause s2

/-- An entry and those it beats (R258). -/
def markLaunch (k : Nat) (e : Option Nat) (s : State) : State :=
  match e with
  | none => s
  | some i =>
    let others := (tcDue s TcK.launch k s.tb.run).filter (· != i)
    forEach others (fun j => tcSuperseded j k) (tcApplied i k s.tb.run s)

/-- A guard or a FAULT action (R155, R157). -/
def engFault (k cause : Nat) (slot : Option Nat) (s : State) : State :=
  match slot with
  | some j => toFault k cause (raise .fabric cause k (endStep k (Cause.rcpTerm0 + j) j 0xFF s))
  | none => toFault k cause (if (s.getCh k).rcp.isOpen then s else raise .fabric cause k s)

/-- A segment edge of a PULSE step on a tick on which a happening of the order of R156 stops the demand: the segment is in force
when the demand restarts (R133), and the window captured at the edge, which a tick that is no step time parts from its segment, is
marked invalid (R165, R166). -/
def keepEdge (k : Nat) (x : EngAct) (s : State) : State :=
  modCh k (fun c =>
    if c.rcp.seg < x.rcp.seg then
      let ps := x.rcp.pulses
      { c with rcp := { c.rcp with seg := x.rcp.seg,
                                   pulses := ps.dropLast ++ (ps.getLast?.map fun p => (p.1, p.2.1, p.2.2.1, p.2.2.2.1, false)).toList },
               reg := if x.cmd.isSome then { c.reg with cmd := x.cmd, pend := none, ramp := false } else c.reg }
    else c) s

/-- A decision of the step engine acts. -/
def actEng (k : Nat) (a : EngAct) (s : State) : State :=
  let take (t : State) : State := modCh k (fun c => { c with rcp := a.rcp }) t
  match a.eff with
  | .stay => take s
  | .tempIn => modCh k (fun c => { c with st := .tempWait, rcp := { a.rcp with seg := c.rcp.seg, pulses := c.rcp.pulses, tempTk := 0 } }) (keepEdge k a s)
  | .tempOut => restartCh k (modCh k (fun c => { c with st := .step }) (take s))
  | .topOn =>
    let s1 := setRange k (autoRange s k (Hdr.iTop (boundRcp s k))) (take s)
    if a.rcp.holdHot then modCh k (fun c => { c with reg := { c.reg with cmd := a.cmd, pend := none, ramp := false, restart := true } }) s1 else s1
  | .topOff => setRange k (feIrngDef s k) (stopReg k (take s))
  | .quit cause => quitRcp k cause (take s)
  | .fault cause slot => engFault k cause slot (take s)
  | .launch n e => goOn k n a (modCh k (fun c => { c with rcp := { a.rcp with go := false } }) (markLaunch k e s))
  | .boundary cause lastEnd n =>
    let next := match n with | .step i => i | _ => 0xFF
    let loops := a.rcp.loops
    goOn k n a (modCh k (fun c => { c with rcp := { c.rcp with loops := loops } }) (endStep k cause lastEnd next (take s)))

/-! ### The first orders of R156 -/

/-- The channel's own cause in force at SAFE entry (R136). -/
def safeOwn (s : State) (k : Nat) : Option Nat :=
  let c := s.getCh k
  if c.flt ≠ 0 then some c.flt
  else match c.safe, (s.getGal (galOf k)).safe, s.saf.dev with
    | some x, _, _ => some x
    | none, some _, _ => some Cause.safGallery
    | none, none, some (x, j) => if j = k then some x else none
    | none, none, none => none

/-- SAFE was entered, or the keep-alive was lost: no drain (R136, R331). -/
def safeEntry (k : Nat) (s : State) : State :=
  let c := s.getCh k
  let s1 := abortEchoes k s
  if !c.st.active && c.st != .lost then s1
  else match safeOwn s k with
    | some x => toFault k x s1
    | none => toIdle k (modCh k (fun c => { c with cause := Cause.abortedMode }) (closeStep k Cause.abortedMode 7 0xFF s1))

/-- A fault, SAFE, the force of a shutdown, a loss, or a guard decides the channel's state on this tick; none: nothing of
the kind. -/
def fate (k : Nat) (a : Option EngAct) (s : State) : Option State :=
  let c := s.getCh k
  let runs := c.st.active || c.st == .lost
  match c.fltNext with
  | some cause =>
    if c.st = .disabled ∨ c.st = .fault then none else some (toFault k cause s)
  | none =>
    if s.saf.entry then some (safeEntry k s)
    else if s.seq.force && runs then some (drainCh k .mode Cause.abortedMode (forceZero k s))
    else if c.lostNext && c.st.active then some (toLost k s)
    else match a with
      | some x => (match x.eff with | .fault _ none => if c.suspect then none else some (actEng k x s) | _ => none)
      | none => none

/-! ### Commands and pauses -/

/-- A command acts if the channel has a row for it. -/
def tryCmd (k : Nat) (h : ChCmd) (s : State) : State := if cmdHasRow s k h then actCmd k h s else s

/-- PAUSE and STOP of a watchdog or of a lost session (R285, R428): 1 and 2. -/
def actLoss (k n : Nat) (s : State) : State :=
  if n = 1 then (if pausable (s.getCh k) then modCh k (fun c => { c with psHost := true }) s else s)
  else if n = 2 then tryCmd k .stop s else s

/-- Host command of a timed CHANNEL_CMD (R254). -/
def tcChCmd (n : Nat) : ChCmd := match n with | 1 => .stop | 2 => .pause | _ => .resume

/-- Timed channel commands act where the channel is eligible (R258). -/
def actTimed (k : Nat) (s : State) : State :=
  forEach (tcDue s TcK.chCmd k s.tb.run) (fun i t =>
    let h := tcChCmd (Tc.cmd (t.getTc i).raw)
    if cmdHasRow t k h then tcApplied i k t.tb.run (actCmd k h t) else t) s

/-- The device drain that begins on this tick (R261). -/
def drainBegins (s : State) : Bool := match s.tb.drain with | some d => decide (d.from_ = s.tb.run) | none => false

def actDrain (k : Nat) (s : State) : State :=
  let c := s.getCh k
  if drainBegins s && (c.st.active || c.st == .lost) && c.drain.isNone then drainCh k .mode Cause.abortedMode s else s

/-- Host commands, the actions of losses, timed commands and the device drain, in this order. -/
def actCmds (k : Nat) (s : State) : State :=
  let hs := (s.getCh k).host
  let s1 := hs.foldl (fun t h => actCmd k h t) (modCh k (fun c => { c with host := [] }) s)
  actDrain k (actTimed k (actLoss k (s.link.lossAct.getD 0) (actLoss k s.wdt.act s1)))

/-- PAUSED is entered or left by the sources in force (R133). -/
def actPause (k : Nat) (s : State) : State :=
  let c := s.getCh k
  if c.st = .paused then
    (if psMask c = 0 ∧ c.drain = none then leavePaused k s else modCh k (fun c => { c with psSeen := c.psSeen ||| psMask c }) s)
  else if psMask c ≠ 0 ∧ pausable c = true then enterPaused k s
  else s

/-- The open step of a channel, or the one a loss closed, waits for a group. -/
def waitsOpen (s : State) (k : Nat) : Bool :=
  let c := s.getCh k
  (c.rcp.isOpen || c.st == .lost) && Stp.type (openStep s k) == StepT.groupWait

/-- The local release of a wait stands for a channel on which a happening of higher order acts (R169). -/
def keepRelease (k : Nat) (a : Option EngAct) (s : State) : State :=
  match a with
  | some x => if x.rcp.released && waitsOpen s k then modCh k (fun c => { c with rcp := { c.rcp with released := true } }) s else s
  | none => s

/-- The decision ends a GROUP_WAIT step by its release. -/
def endsWait (pre : State) (k : Nat) (x : EngAct) : Bool :=
  inStepType pre k StepT.groupWait && (match x.eff with | .boundary cause _ _ => cause == Cause.rcpStepDone | _ => false)

/-- Group releases that the waiting channel applies on this tick (R170, R258). -/
def markReleases (pre : State) (k : Nat) (x : EngAct) (s : State) : State :=
  if endsWait pre k x then forEach (releasesDue pre k (Stp.aux8 (openStep pre k))) (fun i => tcApplied i k s.tb.run) s else s

/-- No happening of higher order acts on the channel, whose state is the one the step engine judged, or the HOLD a pause returns
to. -/
def engActs (pre : State) (k : Nat) (x : EngAct) (s : State) : Bool :=
  let c := s.getCh k
  let old := (pre.getCh k).st
  c.drain.isNone && !c.suspect && (psMask c == 0 || c.st == .armed)
    && (c.st == old || (old == .paused && c.st == .hold && x.eff == .stay))

/-- The step engine's decision acts unless a happening of higher order did; what stands then is kept. -/
def actStep (pre : State) (k : Nat) (a : Option EngAct) (s : State) : State :=
  match a with
  | some x => if engActs pre k x s then markReleases pre k x (actEng k x s) else keepEdge k x (keepRelease k a s)
  | none => s

/-- A late engine's decision waits for the next tick; a late step end is raised and counted (R149). What it only counted is
discarded, and so is the end of a wait by a group release, which applies on a tick within the command's grace alone (R492). -/
def deferEng (pre : State) (k : Nat) (s : State) : State :=
  match engDue pre k with
  | some a =>
    if a.eff.isEnd then
      modCh k (fun c => { c with eng := if endsWait pre k a && !a.rcp.released then none else some a })
        (raise .fabric Cause.rcpBoundaryLate k (modGal (galOf k) (fun g => { g with late := incSat 32 g.late }) s))
    else if a.eff = .stay then
      modCh k (fun c => { c with eng := some { a with rcp := { c.rcp with seg := a.rcp.seg, pulses := a.rcp.pulses, released := a.rcp.released } } }) s
    else s
  | none => s

/-! ### The struck demand -/

/-- Lending begins and ends (R231). -/
def setLending (k : Nat) (now : Bool) (s : State) : State :=
  let c := s.getCh k
  let s1 := modCh k (fun c => { c with lending := now, lendQ := c.lendQ || (now && decide (Sump.lendQ s ≤ (lentQ s k : Int))) }) s
  if now && !c.lending then raise .fabric Cause.sumpLendStart k s1
  else if !now && c.lending then raise .fabric Cause.sumpLendEnd k s1
  else s1

/-- The bound that a TEMP_EN step holds while it does not drive: that of the command it restarts from, of its record otherwise, with
ib_eff (R163, R164). -/
def restBound (s : State) (k : Nat) : Option (Int × Int) :=
  let c := s.getCh k
  let t := openStep s k
  if c.rcp.isOpen && Stp.tempEn t && drives (Stp.type t) then
    let ib : Int := match c.reg.cmd with | some n => n.ibnd | none => Stp.ibnd t
    some (ib, derate (boundRcp s k) ib (derTemp s k))
  else none

/-- A demand of 0: the phases are at mid, and the regulator's state is kept; g_eff falls to g_k, and rises again with a command
in force (R226). -/
def strikeRest (k : Nat) (s : State) : State :=
  let c := s.getCh k
  let s0 := if c.lending then stopReg k s else s
  let eff := restBound s0 k
  let s1 := modCh k (fun c => { c with
    reg := { c.reg with iDem := 0, gEff := min c.reg.gEff c.grant, rev := false, limiter := .none, sat := false },
    rcp := { c.rcp with ibEff := (match eff with | some x => x.2 | none => c.rcp.ibEff), derate := (match eff with | some x => decide (x.2 < x.1) | none => false) } })
    (setLending k false s0)
  if c.allMid then s1 else midChannel k s1

/-- Codes staged for another set of active phases give way to an equal split of the struck demand (R527). -/
def strikeEqual (k : Nat) (s : State) : State :=
  let t := shareEqual k s
  forEach (t.getCh k).active (fun o => modPh (k + o) fun p => { p with dem := p.share }) t

/-- The slow-limit window of every phase of a channel restarts empty (R53). -/
def restartWindow (k : Nat) (s : State) : State :=
  forEach (phasesOf s k) (modPh · fun p => { p with ocsBins := [], ocsFrom := s.tb.run }) s

/-- The shares, trims and DAC codes of a tick reach the phases (R129, R527); a start uses every phase (R64). A start after a stop
restarts the slow-limit window (R53). DEDUCED (log entry 83): every start from mid but the one that follows a reversal tick is one
after a stop. -/
def strikeShares (k : Nat) (stopped : Bool) (x : RegStage) (s : State) : State :=
  let c := s.getCh k
  let start := c.allMid || c.active.isEmpty
  let act := actNext s k
  let dis := decide (x.reg.iDem < 0)
  let s1 := if start then
      forEach act (fun o => modPh (k + o) fun p => { p with st := if p.st = .brake ∨ p.st = .fault then p.st else if dis then .runD else .runC })
        (modCh k (fun c => { c with allMid := false, active := act, token := act.headD 0, tokT := lineU s / 4, dwell := 0, sinceEv := 0 })
          (if stopped then restartWindow k s else s))
    else s
  let s2 := if x.nAct = act.length then
      (upto act.length).foldl (fun t j => modPh (k + act.getD j 0) (fun p =>
        { p with dir := dis, dem := x.shares.getD j 0, share := x.shares.getD j 0, dac := x.dacs.getD j 0, bal := x.bals.getD j 0 }) t) s1
    else strikeEqual k s1
  match shedding s2 k with
  | some o => rampShares k o (s2.getPh (k + o)).shedStep s2
  | none => s2

/-- Demand events, cancellation, readmission and the shed dwell (R60, R62). A tick on which a setpoint is launched is an event
whatever its value. -/
def strikeShed (k : Nat) (old : Reg) (x : RegStage) (s : State) : State :=
  let ev := x.launched || x.reg.pend.isSome || x.reg.x != old.x || decide (stepDet s k < (x.reg.iDem - old.iDem).natAbs)
  let s0 := if ev then demandEvent k s else modCh k (fun c => { c with sinceEv := satN (c.sinceEv + 1) 4 }) s
  let s1 := if addDue s0 k (s0.getCh k).active.length then cancelShed k s0 else s0
  let s2 := readmit k s1
  modCh k (fun c => { c with dwell := if shedLow s2 k then satN (c.dwell + 1) 65535 else 0 }) s2

/-- On the reversal tick the phases change between buck and mirrored operation (R126). -/
def turnPhases (k : Nat) (r : Reg) (s : State) : State :=
  match r.pend with
  | some n => forEach (phasesOf s k) (modPh · fun p => { p with dir := n.dis }) s
  | none => s

/-- A regulator's values are struck (R122 to R129). -/
def strikeReg (k : Nat) (x : RegStage) (s : State) : State :=
  let c := s.getCh k
  let s1 := modCh k (fun c => { c with reg := x.reg, cmds := c.cmds.drop x.taken, nSup := addSat 16 c.nSup x.superseded,
                                       nRev := if x.reversal then incSat 16 c.nRev else c.nRev,
                                       rcp := { c.rcp with ibEff := x.ibEff, derate := decide (x.ibEff < x.ibnd), slewDone := x.slewDone } }) s
  let s2 := match x.entry with | some i => tcApplied i k s.tb.run s1 | none => s1
  let s3 := forEach x.beaten (fun i => tcSuperseded i k) s2
  let s4 := if x.slewDone then raise .fabric Cause.slewDone k s3 else s3
  let s5 := setLending k (x.lend && x.reg.iDem != 0) s4
  let s6 := if x.reversal then turnPhases k x.reg s5 else s5
  if x.reg.iDem = 0 then (if c.allMid then s6 else midChannel k s6)
  else strikeShed k c.reg x (strikeShares k (!c.reg.rev) x s6)

/-- Demand in force on a tick, as the channel's state asks for it. -/
def demands (s : State) (k : Nat) : Bool :=
  let c := s.getCh k
  c.st.active && !c.suspect && (c.drain.isSome || c.st == .step || c.st == .hold)

/-- A command for a channel that does not regulate becomes the command in force, from which it restarts (R133). DESIGN CHOICE (log
entry 83): the spec does not say whether such a command is new at the resume; it is not, so SLEW_DONE is not raised for it (R124). -/
def keepCmd (pre : State) (k : Nat) (a : Option EngAct) (s : State) : State :=
  let c := s.getCh k
  let x := choose pre k (match a with | some x => x.cmd | none => none)
  if (c.st == .paused || c.st == .tempWait) && c.drain.isNone && c.rcp.isOpen && Stp.type (openStep s k) == StepT.ext then
    match x.cmd with
    | some n =>
      let s1 := modCh k (fun c => { c with reg := { c.reg with cmd := some n, pend := none, restart := true }, cmds := c.cmds.drop x.taken, nSup := addSat 16 c.nSup x.superseded }) s
      let s2 := match x.entry with | some i => tcApplied i k s.tb.run s1 | none => s1
      forEach x.beaten (fun i => tcSuperseded i k) s2
    | none => s
  else s

/-- The demand of the tick. -/
def strikeDemand (pre : State) (k : Nat) (a : Option EngAct) (s : State) : State :=
  let c := s.getCh k
  let p := planStruck pre k
  if !demands s k then keepCmd pre k a (strikeRest k s)
  else if c.drain.isSome then
    if c.reg.iDem = 0 then strikeRest k s
    else match (pre.getCh k).stage with
      | some x =>
        if 0 ≤ x.slack then
          (if p = .drain then strikeReg k x s else strikeReg k (stageOf pre k x.slack ((phasesOf s k).map fun n => (s.getPh n).imonAvg) {} (regDrain pre k, false, false)) s)
        else s
      | none => s
  else if p = .rest then strikeRest k s
  else match regStruck pre k with
    | some x => strikeReg k x s
    | none =>
      let cmd := match a with | some y => y.cmd | none => none
      modCh k (fun c => { c with cmds := match cmd with | some n => c.cmds ++ [(.engine, n, s.tb.run)] | none => c.cmds, sinceEv := satN (c.sinceEv + 1) 4 }) s

/-! ### What follows the tick in a channel -/

/-- 820 consecutive ticks of a qualified return (R139). -/
def qualTick (k : Nat) (s : State) : State :=
  let c := s.getCh k
  if c.st ≠ .lost ∨ c.qual = 820 then s
  else if present s k && (!c.toldLoss || c.told == some true) then
    modCh k (fun c => { c with qual := c.qual + 1, qualFrom := if c.qual = 0 then s.tb.run else c.qualFrom }) s
  else modCh k (fun c => { c with qual := 0 }) s

/-- What the estimator keeps of every tick (R196): at the last tick of a period, whether it may initialise. -/
def estTick (k : Nat) (s : State) : State :=
  match modelOf s k with
  | some m =>
    let big := decide (Mdl.iIdle m < (iOf s k).natAbs)
    let pres := if present s k then (if (s.getEst k).presTk.isSome then (s.getEst k).presTk else some s.tb.run) else none
    let whole := match pres with | some t => decide (t + 511 ≤ s.tb.run) | none => false
    modEst k (fun e => { e with presTk := pres, idleTk := if big then s.tb.run - 1 else e.idleTk,
                                endOk := if s.tb.run % 512 = 511 then whole && !(s.getCh k).suspect else e.endOk }) s
  | none => s

/-- A density channel that now has a demand aborts its Echo pass (R106). -/
def echoTick (k : Nat) (s : State) : State := if !native s k && (s.getCh k).reg.iDem != 0 then abortEcho k s else s

/-- A timed setpoint that is illegal for the channel is refused at its launch tick (R121). -/
def refuseTimed (k : Nat) (s : State) : State :=
  forEach (tcDue s TcK.setpoint k s.tb.run) (fun i t => if (t.getTc i).l = t.tb.run ∧ tcSpOk t k i = false then refuseCmd k t else t) s

/-- One channel at the edge; `pre` is the state before it. -/
def strikeCh (pre : State) (k : Nat) (s : State) : State :=
  let a := engStruck pre k
  let s0 := countCh k s
  let a' := if a.isSome then (s0.getCh k).eng else none
  let late := engLate pre k
  let s1 := match fate k a' s0 with
    | some t => keepRelease k a' t
    | none =>
      let t := actCmds k (modCh k (fun c => { c with fltNext := none }) s0)
      let u := actStep pre k a' (actPause k t)
      if late then deferEng pre k u else u
  let s2 := if late then s1 else modCh k (fun c => { c with eng := none }) s1
  let s3 := modCh k (fun c => { c with stage := none }) (strikeDemand pre k a' (refuseTimed k s2))
  estTick k (qualTick k (echoTick k (takeDefRange k (drainTick k (tryDisc k s3)))))

/-! ### The whole tick -/

/-- Line time and run time at the edge (R242, R243). -/
def advance (s : State) : State :=
  let u := nextEdgeU s
  { s with tb := { s.tb with sec := u / 2 ^ 32, frac := u % 2 ^ 32, nextEdge := none, run := s.tb.run + 1 } }

/-- A MODE drain finds the device outside RUN and is dropped; the channels of one that begins are noted (R261). -/
def drainStart (s : State) : State :=
  match s.tb.drain with
  | some d =>
    if d.from_ ≠ s.tb.run then s
    else if d.entry.isSome && s.mode != .run then { s with tb := { s.tb with drain := none } }
    else { s with tb := { s.tb with drain := some { d with chans := maskOf (drainable s) } } }
  | none => s

/-- FSW_MEAS of the last 1/1,024 s (R73). -/
def fswTick (s : State) : State :=
  if s.tb.run % 8 = 0 then { s with ph := s.ph.map fun p => { p with fswMeas := satN ((p.cycles * 1024 + 500) / 1000) 0xFFFF, cycles := 0 } } else s

/-- What ends with the tick: actions that were to act on it, and the commits for it. -/
def tickEnd (s : State) : State :=
  let s1 := forEach (upto 8) (modGal · fun g => { g with engCommit := none }) s
  let wake := s.rtc.restWake && !(s.mode == .rest && tickIdx s == 2048 && (upto 128).all fun n => (s.getFe n).echo.isNone)
  { s1 with saf := { s1.saf with entry := false }, seq := { s1.seq with force := false }, wdt := { s1.wdt with act := 0 },
            link := { s1.link with lossAct := none }, rtc := { s1.rtc with restWake := wake } }

/-- Eight flagged ticks in a row (R338). -/
def stallTick (s : State) : State := if 8 ≤ s.fab.ovNow then decideDev Cause.safFabricStall 0xFF true s else s

/-- The edge of the next launch tick. A sample that still waits for its partner's is taken before it. -/
def strike (live : Option Int) (s0 : State) : State :=
  let s := txTick (flushWaiting s0)
  let units := missedUnits s live
  let slack := tickSlack s live
  let s1 := judgeTick units slack (reconnectTick (advance s))
  let s2 := drainStart (allocTick s1)
  let s3 := forEach (popAll s2) (strikeCh s) (forEach (popAll s2) estEdge s2)
  let s4 := updateSafeN (rideTick (stallTick (tickEnd (fswTick s3))))
  if tickIdx s4 = 0 then linkSecond s4 else s4

/-- The next launch tick edge; launch ticks count in the modes with rails up (R243). -/
def execLaunchTickStrike (live : Option Int) (s : State) : Host.Outcome State Fault Refusal :=
  if s.mode.up then .next (strike live s) else .next s

end Sys2Proof.Machine
end

