-- ==== Sys2Proof/Machine/ImageCheck.lean ====
section
/-!
DEFINITION. The Claig container and its checks: header and candidate (R363, R365), walk, section CRCs, types and the
load checks of every chapter in the order of R366 (R31, R77, R99, R142, R178, R214, R239, R265, R300, R324, R354, R384,
R401, R421, R442, R456, R485), and the check of the stored calibration (R96).
-/

namespace Sys2Proof.Machine

/-! ### The container (R363, R365) -/

/-- A section of a container. -/
structure Sect where
  type : Nat
  /-- FLAGS.OPTIONAL -/
  opt : Bool
  /-- its index in the container -/
  idx : Nat
  /-- its payload, and PCRC -/
  body : List Byte
  pcrc : Nat
  deriving DecidableEq

/-- GEN of a header that makes its slot a candidate, 0 otherwise (R365). -/
def hdrGen (b : List Byte) : Nat :=
  let gen := leAt b 8 4
  let len := leAt b 12 4
  if decide (64 ≤ b.length) && b.take 4 == [0x43, 0x4C, 0x47, 0x49] && byteAt b 4 == 1 && byteAt b 5 == 0
      && leAt b 18 2 == 0 && allZero (slice b 34 26) && leAt b 60 4 == crc32 (b.take 60) && leAt b 16 2 == 0x7128
      && decide (1 ≤ gen) && decide (gen ≤ 0xFFFFFFFE) && decide (80 ≤ len) && decide (len ≤ 122880) && len % 4 == 0
  then gen else 0

/-- A section header is legal and its payload lies inside the container (R363, R366): FLAGS bits 7 to 1, byte 3 and
bytes 12 to 15 are 0 and PLEN lies in its range. -/
def sectHdrOk (len off : Nat) (l : List Byte) : Bool :=
  let plen := leAt l 4 4
  decide (off + 16 + plen ≤ len) && decide (16 + plen ≤ l.length) && decide (byteAt l 2 ≤ 1) && byteAt l 3 == 0
    && leAt l 12 4 == 0 && plen % 4 == 0 && decide (4 ≤ plen) && decide (plen ≤ 16384)

/-- The walk (R363): n sections from an offset on; the index of the section whose header or end fails. -/
def walk (len : Nat) : Nat → Nat → Nat → List Byte → Sum Nat (List Sect)
  | 0, i, off, _ => if off = len then .inr [] else .inl (i - 1)
  | n + 1, i, off, l =>
    if sectHdrOk len off l then
      let plen := leAt l 4 4
      match walk len n (i + 1) (off + 16 + plen) (l.drop (16 + plen)) with
      | .inl e => .inl e
      | .inr r => .inr (⟨leAt l 0 2, byteAt l 2 == 1, i, (l.drop 16).take plen, leAt l 8 4⟩ :: r)
    else .inl i

/-- The sections of a container; an NSECT outside 1 to 128 fails the walk at section 0. -/
def sectionsOf (b : List Byte) : Sum Nat (List Sect) :=
  let n := leAt b 6 2
  if n = 0 ∨ 128 < n then .inl 0 else walk (leAt b 12 4) n 0 64 (b.drop 64)

/-- Section types of R364. -/
def SectT.topo : Nat := 0x01
def SectT.phcfg : Nat := 0x02
def SectT.fecfg : Nat := 0x03
def SectT.fecal : Nat := 0x04
def SectT.chcfg : Nat := 0x05
def SectT.rcp : Nat := 0x06
def SectT.waitgrp : Nat := 0x07
def SectT.model : Nat := 0x08
def SectT.grade : Nat := 0x09
def SectT.sumpcfg : Nat := 0x0A
def SectT.timecfg : Nat := 0x0B
def SectT.netcfg : Nat := 0x0C
def SectT.sqzcfg : Nat := 0x0D
def SectT.safcfg : Nat := 0x0E
def SectT.twicfg : Nat := 0x0F
def SectT.seqcfg : Nat := 0x10
def SectT.rtccfg : Nat := 0x11
def SectT.wdtcfg : Nat := 0x12
def SectT.thmcfg : Nat := 0x13
def SectT.intccfg : Nat := 0x14
def SectT.nvmcfg : Nat := 0x15
def SectT.acccfg : Nat := 0x16

/-- Sections of each type an image may carry: the fewest and the most (R364). -/
def sectCount (ty : Nat) : Nat × Nat :=
  if ty ∈ [0x01, 0x02, 0x03, 0x05, 0x0A, 0x0B, 0x0C, 0x0E] then (1, 1)
  else if ty = SectT.rcp ∨ ty = SectT.grade then (0, 32)
  else if ty = SectT.model then (0, 8)
  else (0, 1)

/-- The cause of a wrong count, and of every stage 4 row that has no other. -/
def sectCause (ty : Nat) : Nat :=
  match ty with
  | 0x01 => Cause.topoMissing | 0x02 => Cause.phcfgRange | 0x03 => Cause.fecfgRange | 0x04 => Cause.fecfgRange
  | 0x05 => Cause.chcfgRange | 0x06 => Cause.rcpRange | 0x07 => Cause.rcpRange | 0x08 => Cause.modelRange
  | 0x09 => Cause.gradeRange | 0x0A => Cause.sumpcfgRange | 0x0B => Cause.timeRange | 0x0C => Cause.netcfgRange
  | 0x0D => Cause.sqzcfgRange | 0x0E => Cause.safcfgRange | 0x0F => Cause.twicfgRange | 0x10 => Cause.seqcfgRange
  | 0x11 => Cause.rtccfgRange | 0x12 => Cause.wdtcfgRange | 0x13 => Cause.thmcfgRange | 0x14 => Cause.intccfgRange
  | 0x15 => Cause.nvmcfgRange | _ => Cause.acccfgRange

/-- The registers whose words a payload holds, from byte 4 on, in its order; empty for the types of another layout. -/
def sectAddrs (ty : Nat) : List Nat :=
  let words (base n : Nat) : List Nat := (upto n).map fun i => base + 4 * i
  match ty with
  | 0x02 => (upto 128).flatMap fun n => words (Addr.ph n 0) 14
  | 0x03 => (upto 128).flatMap fun n => words (Addr.fe n 0) 3
  | 0x04 => (upto 128).flatMap fun n => words (Addr.fe n 0x10) 14
  | 0x05 => (upto 128).flatMap fun k => words (Addr.ch k 0x10) 8
  | 0x0A => words 0x006000 13 ++ words 0x006100 128
  | 0x0B => words 0x002000 9 ++ words 0x002200 64
  | 0x0C => words 0x007000 8 ++ (upto 64).map Addr.ringCfg
  | 0x0D => words 0x009000 32 ++ words 0x009080 32
  | 0x0E => words 0x005000 4 ++ words 0x005400 512
  | 0x0F => words 0x00A000 3
  | 0x10 => words 0x001000 3 ++ words 0x001040 8
  | 0x11 => [0x003020, 0x003038, 0x00303C]
  | 0x12 => 0x003800 :: (upto 16).map Addr.wdtCfg
  | 0x13 => words 0x003400 2
  | 0x14 => 0x004000 :: (words 0x004100 16 ++ words 0x004400 256)
  | 0x15 => [0x00B00C]
  | 0x16 => [0x00C000]
  | _ => []

/-- Consecutive little-endian words of a byte list. -/
def wordsFrom : List Byte → List Nat
  | a :: b :: c :: d :: l => leNat [a, b, c, d] :: wordsFrom l
  | _ => []

/-- The words of a payload. -/
def Sect.words (x : Sect) : List Nat := wordsFrom (x.body.drop 4)

/-- Bits of a register that are not reserved in its image word (R3): the writable ones. -/
def imageMask (a : Nat) : Nat := match findReg a with | some h => h.row.mask | none => 0

/-- Length, FORMAT, the three bytes after it, and reserved bits of a payload of register words; the second byte of
FECAL holds FLAGS. -/
def wordsFormOk (x : Sect) : Bool :=
  let as := sectAddrs x.type
  decide (x.body.length = 4 + 4 * as.length) && byteAt x.body 0 == 1
    && (byteAt x.body 1 == 0 || (x.type == SectT.fecal && byteAt x.body 1 == 1)) && leAt x.body 2 2 == 0
    && (as.zip x.words).all fun y => y.2 ||| imageMask y.1 == imageMask y.1

/-! ### Topology (R29 to R31) -/

/-- What the checks of other sections need of the image. -/
structure Img where
  gen : Nat
  sects : List Sect
  /-- NPH and POP of each slot -/
  nph : List Nat
  pop : List Bool

def Img.n (m : Img) (k : Nat) : Nat := m.nph.getD k 0
def Img.p (m : Img) (k : Nat) : Bool := m.pop.getD k false

/-- MODE, BLK_MAP and POP of gallery g in a TOPO payload. -/
def Tp.mode (b : List Byte) (g : Nat) : Nat := byteAt b (4 + 8 * g)
def Tp.blk (b : List Byte) (g : Nat) : Nat := leAt b (6 + 8 * g) 2
def Tp.pop (b : List Byte) (g : Nat) : Nat := leAt b (8 + 8 * g) 2

/-- The check of a native BLK_MAP, as R30 writes it. -/
def blkMapOk (m : Nat) : Bool :=
  (upto 8).all fun p =>
    let c := fieldN m (2 * p) 2
    let sz := 2 ^ c
    let start := (2 * p) / sz * sz
    c != 0 && (upto 8).all fun q => q < start / 2 || (start + sz) / 2 ≤ q || fieldN m (2 * q) 2 == c

/-- NPH of slot k in a TOPO payload: its phases if a block begins at k, else 0 (R16, R30, R35). -/
def Tp.nph (b : List Byte) (k : Nat) : Nat :=
  let g := k / 16
  if Tp.mode b g = 1 then 1
  else
    let sz := 2 ^ fieldN (Tp.blk b g) (2 * (k % 16 / 2)) 2
    if k % 16 % sz = 0 ∧ 2 ≤ sz then sz else 0

/-- Stage 4 rows of TOPO, in order. -/
def topoCheck (b : List Byte) : Option Nat :=
  let gs := upto 8
  if b.length ≠ 68 ∨ byteAt b 0 ≠ 1 ∨ leAt b 1 3 ≠ 0 ∨ (gs.any fun g => byteAt b (5 + 8 * g) != 0 || leAt b (10 + 8 * g) 2 != 0)
  then some Cause.topoFormatBad
  else if gs.any fun g => Tp.mode b g != 1 && Tp.mode b g != 2 then some Cause.topoModeBad
  else if gs.any fun g => Tp.mode b g == 1 && Tp.blk b g != 0 then some Cause.topoBlockBad
  else if gs.any fun g => Tp.mode b g == 2 && !blkMapOk (Tp.blk b g) then some Cause.topoBlockBad
  else if (upto 128).any fun k => bitN (Tp.pop b (k / 16)) (k % 16) && Tp.nph b k == 0 then some Cause.topoPopBad
  else none

/-- The first phase of the block that holds n. -/
def Img.block (m : Img) (n : Nat) : Nat :=
  (([0, 1, 2, 3, 4, 5, 6, 7].find? fun d => decide (d ≤ n) && decide (d < m.n (n - d))).map (n - ·)).getD n

def within (x lo hi : Nat) : Bool := decide (lo ≤ x) && decide (x ≤ hi)

/-- The words of the first section of a type; word i of record n of m words. -/
def Img.wordsOf (m : Img) (ty : Nat) : List Nat := match m.sects.find? (·.type == ty) with | some x => x.words | none => []
def recW (ws : List Nat) (m n i : Nat) : Nat := ws.getD (m * n + i) 0

/-! ### PHCFG (R73, R77) -/

def phRangeOk (m : Img) (ws : List Nat) (n : Nat) : Bool :=
  let r := recW ws 14 n
  within (fieldN (r 0) 0 11) 150 1200 && within (fieldN (r 0) 16 6) 0 48 && within (fieldN (r 1) 0 10) 50 1000
    && within (r 2) 100 22000 && within (r 3) 1000000 60000000 && within (r 7) 1 1000
    && (decide (m.n n < 2) || within (r 11) 16 65535)

/-- The limits of IMON at its amplifier, of the fast and slow limits, and of the small thresholds. -/
def phLimitsOk (ws : List Nat) (n : Nat) : Bool :=
  let r := recW ws 14 n
  let vref := (600 + 300 * fieldN (r 1) 10 2) * 10000000
  let k := fieldN (r 1) 0 10
  let istg := r 3
  let small (x : Nat) : Bool := decide (istg ≤ 200 * x) && decide (10 * x ≤ istg)
  decide (vref + k * r 4 ≤ 29000000000) && decide (1000000000 + k * r 5 ≤ vref)
    && decide (2 * r 4 ≤ 3 * istg) && decide (2 * r 5 ≤ 3 * istg) && decide (r 6 ≤ r 4) && decide (r 6 ≤ r 5)
    && small (r 8) && small (r 9)

/-- Phases of one block agree in their first four words; the first of a native block holds legal block words. -/
def phBlockOk (m : Img) (ws : List Nat) (n : Nat) : Bool :=
  let r := recW ws 14 n
  let d := m.block n
  let sz := m.n n
  ((upto 4).all fun i => r i == recW ws 14 d i)
    && (decide (sz < 2)
        || (within (fieldN (r 10) 0 4) 1 sz && decide (fieldN (r 10) 8 8 < fieldN (r 10) 16 8)
            && decide (sz * r 3 ≤ 100 * r 12) && decide (r 12 ≤ sz * r 3)))

def phOk (m : Img) (x : Sect) : Bool :=
  let ws := x.words
  wordsFormOk x && (upto 128).all fun n => phRangeOk m ws n && phLimitsOk ws n && phBlockOk m ws n

/-- Block words outside the first phase of a native block. -/
def phRefBad (m : Img) (x : Sect) : Bool :=
  let ws := x.words
  (upto 128).any fun n => decide (m.n n < 2) && [10, 11, 12, 13].any fun i => recW ws 14 n i != 0

/-! ### FECFG and FECAL (R99, R118) -/

/-- A window threshold in its range; 0 is legal while its enable is 0. -/
def winOk (v : Nat) (en : Bool) : Bool := within v 2000 6000 || (v == 0 && !en)

def feRangeOk (ws : List Nat) (n : Nat) : Bool :=
  let cfg := recW ws 3 n 0
  let dmax := fieldN (recW ws 3 n 1) 0 16
  let win := recW ws 3 n 2
  within (fieldN cfg 0 4) 0 13 && within (fieldN cfg 8 10) 0 600 && (dmax == 0 || within dmax 60 65535)
    && winOk (fieldN win 0 13) (bitN win 13) && winOk (fieldN win 16 13) (bitN win 29)
    && !(bitN win 13 && bitN win 29 && decide (fieldN win 16 13 ≤ fieldN win 0 13))

/-- The A and B paths of a native channel agree in FE_WIN, TRATE and FLT1; an A path has an Echo interval, and DMAX_S
as its mode asks. -/
def fePathsOk (m : Img) (ws : List Nat) (k : Nat) : Bool :=
  let cfg := recW ws 3 k 0
  let dmax := fieldN (recW ws 3 k 1) 0 16
  if m.n k = 0 then true
  else
    (decide (m.n k < 2) || (recW ws 3 k 2 == recW ws 3 (k + 1) 2 && fieldN cfg 0 5 == fieldN (recW ws 3 (k + 1) 0) 0 5))
      && fieldN cfg 8 10 != 0 && (if m.n k < 2 then decide (60 ≤ dmax) else dmax == 0)

def feOk (m : Img) (x : Sect) : Bool :=
  let ws := x.words
  wordsFormOk x && (upto 128).all fun n => feRangeOk ws n && fePathsOk m ws n

/-- IRNG_DEF, ECHO_INT_S or FE_ECHO outside an A path of a declared channel. -/
def feRefBad (m : Img) (x : Sect) : Bool :=
  let ws := x.words
  (upto 128).any fun n => m.n n == 0 && (fieldN (recW ws 3 n 0) 5 2 != 0 || fieldN (recW ws 3 n 0) 8 10 != 0 || recW ws 3 n 1 != 0)

/-- Gains and shunts of a FECAL payload lie in their ranges. -/
def calRangeOk (ws : List Nat) : Bool :=
  (upto 128).all fun n =>
    within (recW ws 14 n 1) 966367642 1181116006 && within (recW ws 14 n 5) 1000 100000000
      && [10, 11, 12, 13].all fun i => within (recW ws 14 n i) 966367642 1181116006

def feCalCheck (x : Sect) : Option Nat :=
  if wordsFormOk x = false then some Cause.fecfgRange
  else if calRangeOk x.words = false then some Cause.fecalRange
  else none

/-- The payload of a stored calibration record counts: every FECAL check, and 4 zero bytes after it (R96). -/
def storedCalOk (b : List Byte) : Bool :=
  decide (b.length = 7176) && leAt b 7172 4 == 0 && (feCalCheck ⟨SectT.fecal, false, 0, b.take 7172, 0⟩).isNone

/-! ### CHCFG (R141, R142) -/

def chRecOk (m : Img) (ws : List Nat) (k : Nat) : Bool :=
  let r := recW ws 8 k
  if m.n k = 0 then true
  else
    within (fieldN (r 1) 16 8) 0 100 && within (fieldN (r 2) 16 8) 0 64 && within (r 3) 1000 10000000
      && within (r 4) 1 10000000 && within (r 5) 1 1000000 && within (fieldN (r 6) 0 13) 0 6000
      && within (fieldN (r 6) 16 13) 0 6000 && within (r 7) 100 10000
      && (!m.p k || decide (fieldN (r 6) 0 13 < fieldN (r 6) 16 13)) && (decide (2 ≤ m.n k) || r 2 == 0)

def chOk (m : Img) (x : Sect) : Bool :=
  let ws := x.words
  wordsFormOk x && (upto 128).all (chRecOk m ws)

/-- A nonzero record of w words, the first at word o, for a slot that is not declared. -/
def slotRefBad (m : Img) (ws : List Nat) (o w : Nat) : Bool :=
  (upto 128).any fun k => m.n k == 0 && (upto w).any fun i => ws.getD (o + w * k + i) 0 != 0

/-! ### RCP and WAITGRP (R175 to R178) -/

/-- A termination slot is legal in a recipe of n steps. -/
def termOk (n : Nat) (x : List Byte) : Bool :=
  let q := Trm.qty x
  if q = 0 then allZero (slice x 1 7)
  else
    decide (q ≤ 13) && decide (byteAt x 1 ≤ 4)
      && (if Trm.action x = 1 then decide (Trm.target x < n) else Trm.target x == 0)
      && (decide (1 ≤ Trm.conf x) || q == 1 || q == 12 || q == 13)

/-- The setpoint fields of a step are legal by R121 but for the upper bound of I_BND. -/
def stepSpOk (t : List Byte) : Bool :=
  let ty := Stp.type t
  let i := Stp.ibnd t
  if 1 ≤ ty ∧ ty ≤ 4 then spFieldsOk (SpMode.ofCode (ty - 1)) (Stp.value t) (Stp.slew t) i
  else if ty = StepT.ext then decide (Stp.aux8 t ≤ 3) && spFieldsOk (SpMode.ofCode (Stp.aux8 t)) (Stp.value t) (Stp.slew t) i
  else if ty = StepT.pulse then decide (1000 ≤ i)
  else true

/-- The pulse block and the pulse current of a PULSE step lie in their ranges. -/
def pulseOk (t : List Byte) : Bool :=
  Stp.type t != StepT.pulse
    || (decide (1 ≤ Stp.tBase t) && decide (1 ≤ Stp.tPulse t) && decide (1 ≤ Stp.capTk t) && decide (Stp.capTk t ≤ Stp.tBase t)
        && decide (Stp.capTk t ≤ Stp.tPulse t) && decide (1 ≤ Stp.nPulse t) && Stp.iPulse t != 0)

/-- AUX8 and AUX16 as the step's type asks. -/
def auxOk (i : Nat) (t : List Byte) : Bool :=
  let a := Stp.aux16 t
  match Stp.type t with
  | 7 => decide (Stp.aux8 t < i) && decide (1 ≤ a)
  | 8 => decide (Stp.aux8 t ≤ 15) && decide (a < 32) && decide (fieldN a 1 4 ≤ 13)
  | 9 => a == 0
  | _ => Stp.aux8 t == 0 && a == 0

/-- Step i of a recipe payload is legal. -/
def stepOkAt (b : List Byte) (i : Nat) : Bool :=
  let t := rcpStep b i
  let ty := Stp.type t
  let slots := (Stp.slots t).map (Stp.term t)
  decide (ty ≤ 9) && decide (byteAt t 1 < 16) && decide (Stp.irng t ≤ 4) && slots.all (termOk (rcpNstep b))
    && (!([1, 2, 3, 4, 5, 8, 9].contains ty) || slots.any fun x => Trm.qty x == 1)
    && stepSpOk t && pulseOk t && auxOk i t
    && (!Stp.tempEn t || (drives ty && decide (Stp.tLo t < Stp.tHi t) && decide (Stp.tHi t ≤ Hdr.tStop b - Hdr.tHyst b)))

/-- The header of a recipe is legal. -/
def rcpHdrOk (b : List Byte) : Bool :=
  let hold := Hdr.holdMode b
  let open_ := hold == 1 && decide (0 < Hdr.nRechg b)
  byteAt b 0 == 1 && decide (byteAt b 1 ≤ 31) && within (rcpNstep b) 1 64 && byteAt b 3 == 0
    && decide (b.length = 68 + 64 * rcpNstep b) && decide (leAt b 4 2 < 4) && byteAt b 31 == 0 && allZero (slice b 60 8)
    && decide (hold ≤ 2) && decide (Hdr.derMin b ≤ 100) && decide (100 ≤ Hdr.tHyst b) && decide (Hdr.tHyst b ≤ 2000)
    && decide (1 ≤ Hdr.tWaitMax b) && (decide (Hdr.derMin b = 100) || decide (Hdr.tDer0 b < Hdr.tStop b))
    && (!open_ || (decide (Hdr.vRechg b < Hdr.vTop b) && decide (Hdr.iTopEnd b < Hdr.iTop b) && decide (1 ≤ Hdr.tTopMax b)))
    && (!(open_ || hold == 2) || decide (1000 ≤ Hdr.iTop b))

/-- No earlier section of the type has the INDEX. -/
def firstIndex (m : Img) (x : Sect) : Bool :=
  !(m.sects.any fun y => y.type == x.type && decide (y.idx < x.idx) && byteAt y.body 1 == byteAt x.body 1)

def rcpOk (m : Img) (x : Sect) : Bool :=
  firstIndex m x && rcpHdrOk x.body && (upto (rcpNstep x.body)).all (stepOkAt x.body)

def waitgrpOk (x : Sect) : Bool := decide (x.body.length = 260) && byteAt x.body 0 == 1 && leAt x.body 1 3 == 0

/-- A mask of 128 bits names a channel that is not declared. -/
def maskRefBad (m : Img) (mask : Nat) : Bool := (upto 128).any fun k => bitN mask k && m.n k == 0

/-- WAITGRP, or the masks of TIMECFG: 16 masks of 16 bytes from an offset. -/
def masksRefBad (m : Img) (b : List Byte) (o : Nat) : Bool := (upto 16).any fun g => maskRefBad m (leAt b (o + 16 * g) 16)

/-! ### MODEL and GRADE (R186, R213, R214) -/

/-- A binary32 field is finite and positive. -/
def posFinite (w : Nat) : Bool := decide (0 < w) && decide (w < 0x7F800000)

def rising (l : List Int) : Bool := (l.zip (l.drop 1)).all fun x => decide (x.1 < x.2)

def modelFieldsOk (b : List Byte) : Bool :=
  within (Mdl.qNom b) 100000 4000000000 && within (leAt b 36 4) 1 10000000 && within (leAt b 40 2) 50 5000
    && within (Mdl.tRelax b) 1 65535 && within (leAt b 56 4) 0 1000000 && within (byteAt b 60) 1 255
    && within (byteAt b 61) 1 50 && within (Mdl.kMinPts b) 2 64 && within (Mdl.kMinH b) 1 255
    && ((upto 45).all fun j => decide (1 ≤ Mdl.r0 b j) && decide (1 ≤ Mdl.r1 b j) && decide (1 ≤ Mdl.c1 b j))
    && rising ((upto 33).map (Mdl.ocv b)) && rising ((upto 5).map (Mdl.tGrid b)) && decide (Mdl.vCut b < Mdl.vFull b)

def modelOk (m : Img) (x : Sect) : Bool :=
  let b := x.body
  firstIndex m x && byteAt b 0 == 1 && decide (byteAt b 1 ≤ 7) && decide (b.length = 764) && leAt b 2 2 == 0 && leAt b 70 2 == 0
    && modelFieldsOk b && ([72, 76, 80, 84, 88].all fun o => posFinite (leAt b o 4))
    && ((upto 45).all fun j => decide (500000 ≤ Mdl.r1 b j * Mdl.c1 b j))
    && !(m.sects.any fun y => y.type == x.type && decide (y.idx < x.idx) && leAt y.body 4 16 &&& leAt b 4 16 != 0)

/-- A bin record of 36 bytes is legal: a quantity in MASK, none with its MIN above its MAX. -/
def binOk (r : List Byte) : Bool :=
  let u (o : Nat) : Bool := decide (leAt r o 4 ≤ leAt r (o + 4) 4)
  let i (o : Nat) : Bool := decide (leAtS r o 4 ≤ leAtS r (o + 4) 4)
  let k := byteAt r 0
  decide (1 ≤ k) && decide (k < 16) && leAt r 1 3 == 0
    && (!bitN k 0 || u 4) && (!bitN k 1 || u 12) && (!bitN k 2 || i 20) && (!bitN k 3 || i 28)

def gradeOk (m : Img) (x : Sect) : Bool :=
  let b := x.body
  firstIndex m x && byteAt b 0 == 1 && decide (byteAt b 1 ≤ 31) && within (byteAt b 2) 1 16
    && decide (b.length = 4 + 36 * byteAt b 2) && byteAt b 3 == 0 && (upto (byteAt b 2)).all fun j => binOk (slice b (4 + 36 * j) 36)

/-- A recipe that grades has a GRADE section of its INDEX. -/
def gradeLinkOk (m : Img) (x : Sect) : Bool :=
  !Hdr.grade x.body || m.sects.any fun y => y.type == SectT.grade && byteAt y.body 1 == byteAt x.body 1

/-! ### SUMPCFG (R238, R239) -/

def sumpOk (x : Sect) : Bool :=
  let ws := x.words
  let w (i : Nat) : Nat := ws.getD i 0
  let droop := fieldN (w 6) 0 16
  let hyst := fieldN (w 6) 16 12
  let ov := fieldN (w 7) 0 16
  let ov2 := fieldN (w 7) 16 16
  wordsFormOk x && within (w 1) 655360 2621440 && within (fieldN (w 2) 0 10) 500 1000 && within (fieldN (w 2) 16 10) 500 1000
    && within (w 3) 0 1000000 && within (w 4) 0 100000000 && within (w 5) 0 100000000 && within droop 8000 30000
    && within hyst 100 4000 && within ov 17000 56000 && within ov2 (ov + 1000) 58000 && within (fieldN (w 8) 0 8) 1 100
    && within (fieldN (w 8) 8 24) 10 600000 && within (w 9) 1000 10000000 && within (w 10) 0 1000000
    && within (w 11) 1 4000000000 && within (w 12) 500 10000
    && decide (droop + hyst + hyst < ov) && decide (ov2 * 65536 ≤ 2450 * w 1)

/-- LEND_I_MAX is at most the phase count times I_STG, and a lender has a model. -/
def lenderOk (m : Img) (x : Sect) : Bool :=
  let ws := x.words
  let ph := m.wordsOf SectT.phcfg
  (upto 128).all fun k =>
    let w := ws.getD (13 + k) 0
    decide (fieldN w 16 16 * 10000 ≤ m.n k * recW ph 14 k 3)
      && (!bitN w 2 || m.sects.any fun y => y.type == SectT.model && bitN (leAt y.body 4 16) k)

/-! ### TIMECFG (R264, R265) and NETCFG (R298, R300) -/

def timeOk (x : Sect) : Bool :=
  let ws := x.words
  let w (i : Nat) : Nat := ws.getD i 0
  let b (v lo : Nat) : Int := signN 8 (fieldN v lo 8)
  let lock := fieldN (w 4) 0 16
  wordsFormOk x && decide (-7 ≤ b (w 2) 0) && decide (b (w 2) 0 ≤ 6) && decide (-4 ≤ b (w 2) 8) && decide (b (w 2) 8 ≤ 5)
    && within (fieldN (w 3) 0 8) 1 255 && decide (fieldN (w 3) 8 8 ≤ fieldN (w 3) 0 8) && within lock 20 10000
    && decide (2 * lock ≤ fieldN (w 4) 16 16) && within (fieldN (w 5) 0 16) 1 65535 && within (fieldN (w 5) 16 4) 2 10
    && within (fieldN (w 5) 20 4) 2 10 && within (fieldN (w 6) 0 9) 1 500 && decide (fieldN (w 6) 10 2 ≤ 2)
    && within (w 7) 100 60000

/-- The subnet of an address. -/
def subnetOf (prefixLen ip : Nat) : Nat := ip / 2 ^ (32 - prefixLen)

/-- A unicast address in its subnet: of classes A to C, neither the subnet's own nor its broadcast address. -/
def unicastOk (prefixLen ip : Nat) : Bool :=
  let host := ip % 2 ^ (32 - prefixLen)
  within (ip / 2 ^ 24) 1 223 && host != 0 && decide (host + 1 < 2 ^ (32 - prefixLen))

def netOk (x : Sect) : Bool :=
  let ws := x.words
  let w (i : Nat) : Nat := ws.getD i 0
  let pre := w 2
  let sizes := (upto 64).map fun r => w (8 + r)
  let inForce := (upto 64).map fun r => if w (8 + r) = 0 then ringDefault r else w (8 + r)
  wordsFormOk x && decide (fieldN (w 0) 5 2 ≤ 2) && within pre 8 30 && within (fieldN (w 4) 0 12) 0 4094
    && within (fieldN (w 5) 0 10) 10 1000 && within (fieldN (w 5) 16 8) 1 255
    && (w 6 == 0 || within (w 6 / 2 ^ 24) 224 239) && within (w 7) 0 10000 && sizes.all (fun z => decide (z ≤ 1792))
    && unicastOk pre (w 1) && (w 3 == 0 || subnetOf pre (w 3) == subnetOf pre (w 1))
    && (!bitN (w 0) 2 || subnetOf pre (w 1 + 63) == subnetOf pre (w 1)) && decide (sumN inForce ≤ 2048)

/-! ### The small sections (R324, R354, R384, R401, R421, R442, R456, R485) -/

def sqzOk (x : Sect) : Bool :=
  let ws := x.words
  let step (q : Nat) : Bool := decide (2 ≤ q) && q % 2 == 0
  wordsFormOk x && (upto 32).all fun r =>
    let mode := fieldN (ws.getD r 0) 0 2
    let q := ws.getD (32 + r) 0
    decide (mode ≤ 2) && (if mode = 1 then step (fieldN q 0 16) && step (fieldN q 16 16) else q == 0)

def safOk (m : Img) (x : Sect) : Bool :=
  let ws := x.words
  let zeroOr (v lo hi : Nat) : Bool := v == 0 || within v lo hi
  wordsFormOk x && within (ws.getD 1 0) 500 10000 && within (ws.getD 2 0) 10 3600 && (upto 128).all fun k =>
    let r (i : Nat) : Nat := ws.getD (4 + 4 * k + i) 0
    let nc := fieldN (r 3) 16 2
    zeroOr (r 0) 2000000 6000000 && zeroOr (r 1) 500000 5000000 && zeroOr (r 2) 1000000 720000000 && decide (nc ≤ 2)
      && (!m.p k || decide (1 ≤ nc)) && !(r 0 != 0 && r 1 != 0 && decide (r 0 ≤ r 1))

/-- SAF_IMAX is at most 1.5 times the phase count times I_STG. -/
def imaxOk (m : Img) (x : Sect) : Bool :=
  let ws := x.words
  let ph := m.wordsOf SectT.phcfg
  (upto 128).all fun k => m.n k == 0 || decide (2 * ws.getD (6 + 4 * k) 0 ≤ 3 * m.n k * recW ph 14 k 3)

/-- The signature of R345 over the image's safety parameter set. -/
def imageSig (m : Img) (x : Sect) : Nat :=
  let fe := m.wordsOf SectT.fecfg
  let ph := m.wordsOf SectT.phcfg
  crc32 (x.body.take 16 ++ [0, 0, 0, 0] ++ x.body.drop 20 ++ ((upto 128).flatMap fun n => leBytes 4 (recW fe 3 n 2))
    ++ leBytes 4 ((m.wordsOf SectT.sumpcfg).getD 7 0)
    ++ (upto 128).flatMap fun n => leBytes 4 (recW ph 14 n 4) ++ leBytes 4 (recW ph 14 n 5))

def twiOk (x : Sect) : Bool :=
  let w (i : Nat) : Nat := x.words.getD i 0
  let f := fieldN (w 1)
  wordsFormOk x
    && (if fieldN (w 0) 0 2 = 3 then decide (16 ≤ f 0 8) && decide (10 ≤ f 8 8) && decide (8 ≤ f 16 8) && decide (16 ≤ f 24 8)
        else w 1 == 0)
    && within (fieldN (w 2) 0 8) 10 100 && within (fieldN (w 2) 8 4) 1 15 && within (fieldN (w 2) 16 8) 1 50

def seqOk (x : Sect) : Bool :=
  let w (i : Nat) : Nat := x.words.getD i 0
  wordsFormOk x && within (fieldN (w 1) 0 14) 8000 12000 && within (fieldN (w 1) 16 5) 1 20 && within (fieldN (w 2) 0 8) 1 200
    && within (fieldN (w 2) 8 8) 1 200
    && (upto 8).all fun r =>
      if [0, 3, 5].contains r then w (3 + r) == 0 else within (fieldN (w (3 + r)) 0 8) 1 50 && within (fieldN (w (3 + r)) 8 8) 1 100

/-- RTC_ALM fields in their ranges; DAY reads 0 at reset, which is legal while DAY_EN is 0. -/
def almOk (v : Nat) : Bool :=
  within (fieldN v 0 6) 0 59 && within (fieldN v 8 6) 0 59 && within (fieldN v 16 5) 0 23
    && (within (fieldN v 24 5) 1 31 || (fieldN v 24 5 == 0 && !bitN v 29))

def rtcOk (x : Sect) : Bool := wordsFormOk x && !bitN (x.words.getD 0 0) 0 && almOk (x.words.getD 1 0)

def wdtOk (x : Sect) : Bool :=
  wordsFormOk x && (x.words.drop 1).all fun v =>
    let p := fieldN v 0 16
    decide (p ≤ 65000) && decide (fieldN v 19 2 ≤ 2) && (!bitN v 30 || p != 0)

def thmOk (x : Sect) : Bool :=
  let v := x.words.getD 0 0
  let t := x.words.getD 1 0
  wordsFormOk x && within (fieldN v 0 8) 60 110 && within (fieldN v 8 8) 70 120 && within (fieldN v 16 7) 10 100
    && decide (fieldN v 0 8 < fieldN v 8 8) && within (fieldN t 0 14) 500 10000
    && (fieldN t 16 10 == 0 || within (fieldN t 16 10) 10 1000)

/-- EN = 1 on a reserved source is illegal. -/
def intcOk (x : Sect) : Bool :=
  wordsFormOk x && (upto 63).all fun i => !bitN (x.words.getD (17 + 161 + i) 0) 16

def nvmOk (x : Sect) : Bool := wordsFormOk x && decide (fieldN (x.words.getD 0 0) 4 4 ≤ 8)
def accOk (x : Sect) : Bool := wordsFormOk x && within (x.words.getD 0 0) 10 3600

/-! ### The stages of R366 -/

/-- The first failure of stage 4 within one known section. -/
def sectCheck (m : Img) (x : Sect) : Option Nat :=
  let by_ (ok : Bool) : Option Nat := if ok then none else some (sectCause x.type)
  match x.type with
  | 0x01 => topoCheck x.body
  | 0x02 => by_ (phOk m x)
  | 0x03 => by_ (feOk m x)
  | 0x04 => feCalCheck x
  | 0x05 => by_ (chOk m x)
  | 0x06 => by_ (rcpOk m x)
  | 0x07 => by_ (waitgrpOk x)
  | 0x08 => by_ (modelOk m x)
  | 0x09 => by_ (gradeOk m x)
  | 0x0A => by_ (sumpOk x)
  | 0x0B => by_ (timeOk x)
  | 0x0C => by_ (netOk x)
  | 0x0D => by_ (sqzOk x)
  | 0x0E => by_ (safOk m x)
  | 0x0F => by_ (twiOk x)
  | 0x10 => by_ (seqOk x)
  | 0x11 => by_ (rtcOk x)
  | 0x12 => by_ (wdtOk x)
  | 0x13 => by_ (thmOk x)
  | 0x14 => by_ (intcOk x)
  | 0x15 => by_ (nvmOk x)
  | 0x16 => by_ (accOk x)
  | _ => none

/-- Stage 4 for one type: the count with its first section, then each section. The failure is a cause and
LDR_CAUSE.SECT. -/
def typeCheck (m : Img) (ty : Nat) : Option (Nat × Nat) :=
  let xs := m.sects.filter (·.type == ty)
  let c := sectCount ty
  if xs.length < c.1 then some (sectCause ty, 0xFE)
  else match xs[c.2]? with
    | some x => some (sectCause ty, x.idx)
    | none => xs.findSome? fun x => (sectCheck m x).map fun e => (e, x.idx)

/-- A known type (R364). -/
def knownType (ty : Nat) : Bool := within ty 0x01 0x16

/-- A section names a channel that is not declared (R31, row 7). -/
def chanRefBad (m : Img) (x : Sect) : Bool :=
  match x.type with
  | 0x05 => slotRefBad m x.words 0 8
  | 0x07 => masksRefBad m x.body 4
  | 0x08 => maskRefBad m (leAt x.body 4 16)
  | 0x0A => slotRefBad m x.words 13 1
  | 0x0B => masksRefBad m x.body 40
  | 0x0E => slotRefBad m x.words 4 4
  | _ => false

/-- It names a phase or front end of a block by a parameter of declared channels (R31, row 8). -/
def partRefBad (m : Img) (x : Sect) : Bool :=
  match x.type with
  | 0x02 => phRefBad m x
  | 0x03 => feRefBad m x
  | _ => false

/-- The GRADE link, the lenders and SAF_IMAX (R366). -/
def linkBad (m : Img) (x : Sect) : Option Nat :=
  match x.type with
  | 0x06 => if gradeLinkOk m x then none else some Cause.gradeRange
  | 0x0A => if lenderOk m x then none else some Cause.sumpcfgRange
  | 0x0E => if imaxOk m x then none else some Cause.safcfgRange
  | _ => none

/-- Stage 5: each row of R31 over all sections in container order, then the other limits in container order, the signature last.
DEDUCED (log entry 83): R366 puts TOPO_REF_BAD before the other cross-section checks. -/
def crossFail (m : Img) : Option (Nat × Nat) :=
  match m.sects.find? (chanRefBad m) with
  | some x => some (Cause.topoRefBad, x.idx)
  | none =>
    match m.sects.find? (partRefBad m) with
    | some x => some (Cause.topoRefBad, x.idx)
    | none => m.sects.findSome? fun x => (linkBad m x).map fun e => (e, x.idx)

/-- The image a list of sections makes, once TOPO is known. -/
def imgOf (gen : Nat) (xs : List Sect) : Img :=
  match xs.find? (·.type == SectT.topo) with
  | some t => ⟨gen, xs, (upto 128).map (Tp.nph t.body), (upto 128).map fun k => bitN (Tp.pop t.body (k / 16)) (k % 16)⟩
  | none => ⟨gen, xs, [], []⟩

/-- Stages 2 and 3: the walk and the section CRCs. -/
def walkAndCrc (b : List Byte) : Sum (Nat × Nat) (List Sect) :=
  match sectionsOf b with
  | .inl i => .inl (Cause.ldrSectBad, i)
  | .inr xs =>
    match xs.find? (fun x => crc32 x.body != x.pcrc) with
    | some x => .inl (Cause.ldrSectCrc, x.idx)
    | none => .inr xs

/-- Stages 4 and 5. -/
def typesAndCross (m : Img) : Option (Nat × Nat) :=
  match m.sects.find? (fun x => !knownType x.type && !x.opt) with
  | some x => some (Cause.ldrSectUnknown, x.idx)
  | none =>
    match (upto 22).findSome? (fun i => typeCheck m (i + 1)) with
    | some e => some e
    | none =>
      match crossFail m with
      | some e => some e
      | none =>
        match m.sects.find? (·.type == SectT.safcfg) with
        | some x => if imageSig m x = leAt x.body 16 4 then none else some (Cause.safcfgSig, x.idx)
        | none => none

/-- The five stages of R366 on a container: its image, or the first failure as a cause and LDR_CAUSE.SECT. -/
def checkContainer (b : List Byte) : Sum (Nat × Nat) Img :=
  if hdrGen b = 0 then .inl (Cause.ldrHdrBad, 0xFF)
  else match walkAndCrc b with
    | .inl e => .inl e
    | .inr xs =>
      let m := imgOf (hdrGen b) xs
      match typesAndCross m with
      | some e => .inl e
      | none => .inr m

end Sys2Proof.Machine
end

