-- ==== Sys2Proof/Machine/Watchdog.lean ====
section
/-!
DEFINITION. The watchdogs: counts, tokens, services, expiries and their actions, configuration, internal slots and
the clock (R423 to R431, R440), and the flush of a fabric unit (R498).
-/

namespace Sys2Proof.Machine

def modWdt (f : Wdt → Wdt) (s : State) : State := { s with wdt := f s.wdt }
def modSlot (i : Nat) (f : WdtSlot → WdtSlot) (s : State) : State := modWdt (fun w => { w with slots := lmod w.slots i f }) s
def State.slot (s : State) (i : Nat) : WdtSlot := s.wdt.slots.getD i { token := 0 }

/-! ### Fields of WDT_CFG (R440) -/

def wdtPeriodMs (s : State) (i : Nat) : Nat := cfgF s (Addr.wdtCfg i) 0 16
def wdtOpen (s : State) (i : Nat) : Nat := cfgF s (Addr.wdtCfg i) 16 2
def wdtHostRst (s : State) (i : Nat) : Bool := bitN (cfgN s (Addr.wdtCfg i)) 18
def wdtChact (s : State) (i : Nat) : Nat := cfgF s (Addr.wdtCfg i) 19 2
def wdtRestRun (s : State) (i : Nat) : Bool := bitN (cfgN s (Addr.wdtCfg i)) 21
def wdtEn (s : State) (i : Nat) : Bool := bitN (cfgN s (Addr.wdtCfg i)) 30
def wdtLocked (s : State) (i : Nat) : Bool := bitN (cfgN s (Addr.wdtCfg i)) 31

/-- Ticks of the period and of the open point (R425). -/
def wdtPeriod (s : State) (i : Nat) : Nat := wdtPeriodMs s i * 1000
def wdtOpenPoint (s : State) (i : Nat) : Nat := wdtPeriodMs s i * 125 * (wdtOpen s i + 1)

/-- The rolling of a token (R426). -/
def rollToken (t : Nat) : Nat := if t % 2 = 1 then (t / 2) ^^^ 0xB400 else t / 2

/-- Host slots count in this mode (R429). -/
def wdtCounts (s : State) (i : Nat) : Bool :=
  match s.mode with
  | .load | .run | .safe | .service => !loaderBusy s
  | .rest => wdtRestRun s i
  | _ => false

/-- The slot's actions (R428). Channel actions act only in RUN, at the next launch tick; STOP is the stronger. -/
def wdtAct (i : Nat) (s : State) : State :=
  let s1 := if wdtHostRst s i then hostReset s else s
  if s.mode = .run then modWdt (fun w => { w with act := max w.act (wdtChact s i % 3) }) s1 else s1

/-- An expiry or a strict fault: WDT_EXP, the event with the slot as argument, the actions, and the count from 0. -/
def wdtStrike (i cause : Nat) (s : State) : State :=
  let s1 := modSlot i (fun x => { x with count := 0 }) (modWdt (fun w => { w with exp := setBitN w.exp i true }) s)
  wdtAct i (raiseA .watchdog cause 0xFF i s1)

/-- A write of WDT_SERVE waits for the next watchdog tick; internal slots ignore it (R423, R440). -/
def serve (i : Nat) (v : Word) (s : State) : State :=
  if 16 ≤ i then s else modWdt (fun w => { w with pend := w.pend ++ [(i, field v 0 16)] }) s

/-- A service of slot i with token t is judged (R427): expiry wins over any token, a duplicate is judged before the window. -/
def judgeServe (i t : Nat) (s : State) : State :=
  let x := s.slot i
  if !wdtEn s i || decide (x.count = wdtPeriod s i) then s
  else if t = x.token ∧ x.used ≠ some t then
    if wdtOpenPoint s i ≤ x.count then modSlot i (fun x => { x with count := 0, token := rollToken x.token, used := some t }) s
    else if i < 12 then modSlot i (fun x => { x with nEarly := incSat 8 x.nEarly }) s
    else wdtStrike i Cause.wdtEarly (modSlot i (fun x => { x with nEarly := incSat 8 x.nEarly }) s)
  else if x.used = some t then
    if i < 12 then modSlot i (fun x => { x with nDup := incSat 8 x.nDup }) s
    else wdtStrike i Cause.wdtDup (modSlot i (fun x => { x with nDup := incSat 8 x.nDup }) s)
  else wdtStrike i Cause.wdtBadToken (modSlot i (fun x => { x with nBad := incSat 8 x.nBad }) s)

def execWdtServe (_p : Path) (slot : Fin 24) (v : Word) (s : State) : Host.Outcome State Fault Refusal :=
  .next (regGate (Addr.wdtCfg slot + 4) (serve slot v) s)

/-- A host slot's count has reached its period (R425, R428). -/
def execWdtExpired (slot : Fin 24) (s : State) : Host.Outcome State Fault Refusal :=
  if slot.val < 16 ∧ wdtEn s slot = true ∧ wdtCounts s slot = true ∧ (s.slot slot).count = wdtPeriod s slot then
    .next (wdtStrike slot Cause.wdtExpired (modSlot slot (fun x => { x with nExp := incSat 8 x.nExp }) s))
  else .next s

/-- A write of WDT_CFG (R430, R440): internal slots are fixed, a locked slot is left. -/
def writeWdtCfg (i : Nat) (v : Word) (s : State) : State :=
  if 16 ≤ i then s
  else if wdtLocked s i then raise .fabric Cause.wdtLocked 0xFF s
  else
    let en := v.toNat.testBit 30
    let s1 := setCfg (Addr.wdtCfg i) (v &&& 0xC03FFFFF) s
    if en then
      modSlot i (fun x => if wdtEn s i then { x with count := 0 } else { x with count := 0, token := 0x5A00 + i, used := none }) s1
    else s1

def execWdtCfgWrite (_p : Path) (slot : Fin 24) (v : Word) (s : State) : Host.Outcome State Fault Refusal :=
  .next (regGate (Addr.wdtCfg slot) (writeWdtCfg slot v) s)

/-- WDT_CTRL is locked as soon as a slot has LOCK (R430). CLKSEL selects the source while it is not lost. -/
def writeWdtCtrl (v : Word) (s : State) : State :=
  if (upto 16).any (wdtLocked s) then raise .fabric Cause.wdtLocked 0xFF s
  else
    let s1 := setCfg 0x003800 (v &&& 1) s
    if s.wdt.clkLost then s1 else modWdt (fun w => { w with clkNow := v.toNat.testBit 0 }) s1

/-- The selected source is lost: the tick switches to the other one and stays there (R424). -/
def execWdtClkLoss (s : State) : Host.Outcome State Fault Refusal :=
  if s.wdt.clkLost || !s.mode.up then .next s
  else .next (raise .watchdog Cause.wdtClkLoss 0xFF (modWdt (fun w => { w with clkLost := true, clkNow := !w.clkNow }) s))

/-! ### Internal slots (R431) and unit resets (R498) -/

/-- A service core restarts: its channels' updates whose stamps are complete and which are not yet published are lost
(R182, R431). -/
def flushCore (c : Nat) (s : State) : State :=
  if 512 ≤ s.tb.run ∧ s.tb.run % 512 < 256 then
    forEach (upto 128) (fun k => if (Config.coreOf k).val = c then modEst k (fun e =>
      { e with lostTk := some (s.tb.run - s.tb.run % 512 + 256), pubDue := e.pubDue.map fun _ => false }) else id) s
  else s

/-- Isolate and flush the unit of an internal slot: what it staged for ticks not yet struck is marked uncommitted,
and its work in progress is discarded. -/
def flushUnit (slot : Nat) (s : State) : State :=
  match slot with
  | 16 => flushCore 0 s
  | 17 => flushCore 1 s
  | 18 => flushCore 2 s
  | 19 => flushCore 3 s
  | 20 => { s with sump := { s.sump with stage := none } }
  | 21 => forEach (upto 8) (modGal · fun g => { g with engCommit := none }) (forEach (upto 128) (modCh · fun c => { c with eng := none }) s)
  | 23 => nvmTear s
  | _ => s

/-- An internal slot expires: its unit is reset with flush; the third expiry within 60 s of run time requests
REBOOT. -/
def execWdtIntExpired (slot : Fin 24) (s : State) : Host.Outcome State Fault Refusal :=
  if slot.val < 16 ∨ s.mode.up = false then .next s
  else
    let tks := (s.tb.run :: (s.slot slot).expTks.filter fun t => decide (since s t ≤ 60 * 8192)).take 3
    let s1 := modSlot slot (fun x => { x with count := 0, expTks := if tks.length = 3 then [] else tks, nExp := incSat 8 x.nExp }) s
    let s2 := modFab (fun f => { f with resetting := insN slot f.resetting }) (flushUnit slot (raiseA .watchdog Cause.wdtIntExpired 0xFF slot s1))
    .next (if tks.length = 3 then orderly .reboot 2 s2 else s2)

/-- A reset unit rejoins (R498): its reset counts and FAB_UNIT_RESET is raised with the unit's number, which is the
number of its watchdog slot. -/
def execFabUnitReset (slot : Fin 8) (s : State) : Host.Outcome State Fault Refusal :=
  if s.mode.up then
    let s1 := nvmNext { s with fab := { s.fab with nReset := incSat 8 s.fab.nReset, resetting := delN (16 + slot.val) s.fab.resetting } }
    .next (raiseA .fabric Cause.fabUnitReset 0xFF (16 + slot.val) s1)
  else .next s

/-! ### One watchdog tick -/

/-- A host slot that counts adds 1; it stops at its period, where WDT_EXPIRED is due (R425). -/
def slotTick (s : State) (y : WdtSlot × Nat) : WdtSlot :=
  if decide (y.2 < 16) && wdtEn s y.2 && wdtCounts s y.2 && decide (y.1.count < wdtPeriod s y.2) then
    { y.1 with count := y.1.count + 1 }
  else y.1

/-- 1 us: the counts of the host slots and of the hold-off timers, then the services that waited, in arrival order (R423, R449). -/
def wdtTick (s : State) : State :=
  let s1 := modWdt (fun w => { w with slots := (w.slots.zip (upto 24)).map (slotTick s), pend := [] })
    { s with intc := { s.intc with left := s.intc.left.map (· - 1) } }
  s.wdt.pend.foldl (fun t x => judgeServe x.1 x.2 t) s1

end Sys2Proof.Machine
end

