-- ==== Sys2Proof/Machine/Loader.lean ====
section
/-!
DEFINITION. Start-up and the loader: fuses, self-checks and store recall (R356 to R360, R464, R474), choosing and
reading a slot (R365 to R369), applying an image (R368, R370), the end of LOAD (R356, R361, R373), LDR_CMD and COMMIT
(R372, R382), and what a device drain leads to (R261, R373, R396, R478).
-/

namespace Sys2Proof.Machine

def modLdr (f : Loader → Loader) (s : State) : State := { s with ldr := f s.ldr }

/-- The loader is at work in LOAD, and goes on in a SAFE entered from LOAD. -/
def inLoad (s : State) : Bool := s.mode == .load || (s.mode == .safe && s.saf.from_ == .load)

/-- The loader halts: only a reset leaves this (R360). -/
def haltLoader (cause : Nat) (s : State) : State := raise .fabric cause 0xFF (modLdr (fun l => { l with st := .halted }) s)

/-! ### Fuses and self-checks (R357, R358) -/

/-- t2: the fuse map is read and checked; TWI_CTRL.SPEED leaves reset as EE_SPEED (R367, R383). -/
def execFuseRead (s : State) : Host.Outcome State Fault Refusal :=
  if s.mode = .load ∧ s.ldr.st = .boot then
    .next (if fuseOk s then setCfg 0x00A000 (wordN (4 + eeSpeed s)) (modLdr (fun l => { l with t2 := some s.tb.run }) s) else haltLoader Cause.ldrFuseBad s)
  else .next s

/-- The island's self-check ends: the keep-alive starts and SAFE_N is released, or the loader halts. -/
def execIslandSelfCheckDone (pass : Bool) (s : State) : Host.Outcome State Fault Refusal :=
  if s.mode = .load ∧ s.ldr.st = .boot ∧ s.ldr.t2.isSome = true ∧ s.saf.checked = false then
    .next (if pass then updateSafeN (modSaf (fun f => { f with checked := true, keepAlive := true }) s)
      else haltLoader Cause.ldrIslandFail s)
  else .next s

/-! ### Store recall (R359, R464, R474) -/

/-- The records the recall reads after the region table: SYS, CAL, CAP and RES. -/
def recallRecords : List (Nat × Nat) :=
  [(Kind.seqcnt, 0), (Kind.stop, 0), (Kind.proof, 0), (Kind.access, 0), (Kind.cal, 0)]
    ++ (upto 128).map (fun k => (Kind.cap, k)) ++ (upto 128).map (fun k => (Kind.res, k))

/-- Bytes of the pages the recall reads: region table, SYS, CAL, CAP and RES (R459). -/
def recallBytes : Nat := 256 * 186

/-- Why the store refuses the recall. -/
def recallReason (s : State) : Option Nat :=
  if storeFmt s = false then some 1
  else if (newerCopy s Kind.table 0).isNone then some 2
  else if 16 < (s.nvm.bad.filter fun w => decide (8 * w < recallBytes)).length then some 4
  else none

/-- The recall is refused: nothing of the store is used, and the supply counters start at 0 (R359, R399). -/
def refuseRecall (reason : Nat) (s : State) : State :=
  let s1 := forEach (upto 8) (modRail · fun x => { x with noRise := 0, stuck := 0, uv := 0, ov := 0 }) s
  let s2 := modSeq (fun q => { q with nPfw := 0, nVin := 0, nBrown := 0, nLong := 0, noStore := true }) s1
  raiseA .fabric Cause.ldrRecallRefused 0xFF reason
    { s2 with nvm := { s2.nvm with refused := true }, ldr := { s2.ldr with recallRef := true } }

/-- One record is read: torn copies are skipped and counted, an absent record is reported (R461, R462). -/
def recallRecord (kind index : Nat) (s : State) : State :=
  let n := tornCopies s kind index
  let s1 := { s with nvm := { s.nvm with nTorn := addSat 8 s.nvm.nTorn n } }
  let s2 := forEach (upto n) (fun _ t => raise .fabric Cause.nvmTorn 0xFF t) s1
  if (newerCopy s kind index).isNone && kind != Kind.table then raiseA .fabric Cause.nvmRecLost 0xFF (kind + 256 * index) s2
  else s2

/-- The supply counters take the record's values; a count does not fall (R399). -/
def recallSeq (s : State) : State :=
  let torn := decide (0 < tornCopies s Kind.seqcnt 0)
  match recPayload s Kind.seqcnt 0 with
  | none => modSeq (fun q => { q with torn := torn }) s
  | some b =>
    let s1 := forEach (upto 8) (fun r t => modRail r (fun x =>
      { x with noRise := max x.noRise (byteAt b (4 * r)), stuck := max x.stuck (byteAt b (4 * r + 1)),
               uv := max x.uv (byteAt b (4 * r + 2)), ov := max x.ov (byteAt b (4 * r + 3)) }) t) s
    modSeq (fun q => { q with torn := torn, nPfw := max q.nPfw (byteAt b 32), nVin := max q.nVin (byteAt b 33),
                              nBrown := max q.nBrown (byteAt b 34), nLong := max q.nLong (byteAt b 35) }) s1

/-- The next result SEQ: one above the largest of the valid result records, 0 without one (R464). -/
def recallResSeq (s : State) : Nat :=
  match (upto 128).filterMap fun k => (recPayload s Kind.res k).map fun b => leAt b 8 4 with
  | [] => 0
  | l => (maxN l + 1) % 2 ^ 32

/-- Everything a recall that is not refused takes up. -/
def recallAll (s : State) : State :=
  let s1 := recallRecords.foldl (fun t r => recallRecord r.1 r.2 t) (recallRecord Kind.table 0 s)
  let s2 := recallSeq s1
  let words := (s.nvm.bad.filter fun w => decide (8 * w < recallBytes)).length
  let stop := (recPayload s Kind.stop 0).map fun b => leAt b 18 2 % 4096
  let s3 := nvmCorrect 0 recallBytes { s2 with nvm := { s2.nvm with
    recalled := true, nUncorr := addSat 8 s2.nvm.nUncorr words, scanPage := stop.getD s2.nvm.scanPage } }
  { s3 with rcp := { s3.rcp with resSeq := recallResSeq s },
            saf := { s3.saf with passSec := (recPayload s Kind.proof 0).map fun b => leAt b 0 6 },
            acc := { s3.acc with fails := (recPayload s Kind.access 0).map fun b => leAt b 0 2 } }

/-- Byte address of a patch bank, and whether it is valid (R474). -/
def patchBase (b : Nat) : Nat := 256 * (186 + 128 * b)
def patchHdr (s : State) (b : Nat) : List Byte := nvmBytes s (patchBase b) 32
def patchValid (s : State) (b : Nat) : Bool :=
  let h := patchHdr s b
  let len := leAt h 16 4
  leAt h 28 4 == crc32 (h.take 28) && leAt h 8 4 == Config.romVersion.toNat && within len 4 32736
    && leAt h 20 4 == crc32 (nvmBytes s (patchBase b + 32) len) && !nvmUncorr s (patchBase b) (32 + len)

/-- t4: the valid bank with the higher GEN is applied, bank 0 if they are equal. -/
def applyPatch (s : State) : State :=
  let v0 := patchValid s 0
  let v1 := patchValid s 1
  let gen (b : Nat) : Nat := leAt (patchHdr s b) 12 4
  let use (b : Nat) : State := { s with ldr := { s.ldr with patch := true }, nvm := { s.nvm with bank := b } }
  if v0 && (!v1 || decide (gen 1 ≤ gen 0)) then use 0
  else if v1 then use 1
  else if allZero ((patchHdr s 0).take 4) && allZero ((patchHdr s 1).take 4) then s
  else raise .fabric Cause.ldrPatchSkipped 0xFF s

/-- A load begins: the headers of both slots are read first (R365). -/
def startRead (s : State) : State :=
  emit (.eepromRead 1) (emit (.eepromRead 0)
    (modLdr (fun l => { l with st := .reading, order := [], second := false, image := none, cause := 0, speedDrop := false }) s))

/-- The recall and the ROM check are over. -/
def execStoreRecallDone (romOk : Bool) (s : State) : Host.Outcome State Fault Refusal :=
  if s.mode = .load ∧ s.ldr.st = .boot ∧ s.ldr.t2.isSome = true ∧ s.saf.checked = true then
    let go (t : State) : State := if romOk then startRead t else haltLoader Cause.ldrRomFail t
    .next (match recallReason s with
      | some r => go (refuseRecall r s)
      | none => go (if romOk then applyPatch (recallAll s) else recallAll s))
  else .next s

/-- 15 ms after t2 without a complete recall: it is refused, and start-up goes on if the ROM is good (R359, R360). -/
def execRecallTimeout (romOk : Bool) (s : State) : Host.Outcome State Fault Refusal :=
  let due : Bool := match s.ldr.t2 with | some t => decide (floorTk 15 ≤ since s t) | none => false
  if s.mode = .load ∧ s.ldr.st = .boot ∧ due = true ∧ s.saf.checked = true then
    let t := refuseRecall 3 s
    .next (if romOk then startRead t else haltLoader Cause.ldrRomFail t)
  else .next s

/-! ### Choosing and reading a slot (R365 to R369) -/

/-- The candidates in order: the higher GEN first, slot 0 first among equals. -/
def slotOrder (g0 g1 : Nat) : List Nat :=
  if g0 = 0 ∧ g1 = 0 then [] else if g1 = 0 then [0] else if g0 = 0 then [1] else if g1 ≤ g0 then [0, 1] else [1, 0]

/-- No candidate passed: the device stays in LOAD without a loaded image and without IPv4 presence (R369). -/
def noImage (s : State) : State :=
  raise .fabric Cause.ldrNoImage 0xFF
    (modLink (fun l => { l with ipNow := 0 }) (modLdr (fun l => { l with st := .noImage, gen := 0, imgId := 0, order := [] }) s))

/-- The slot that was read fails, on the loader's source but for a two-wire cause (R447): LDR_CAUSE keeps the first failure of the load, and the next candidate is read. -/
def slotFails (slot cause sect : Nat) (s : State) : State :=
  let src := if cause / 256 = 0x0D ∧ cause ∉ Cause.imageChecks then 151 else 150
  let s1 := raiseSrc .fabric cause 0xFF src 0 [] s
  let c := if s.ldr.cause = 0 then cause + sect * 2 ^ 16 + slot * 2 ^ 24 else s.ldr.cause
  let s2 := modLdr (fun l => { l with cause := c, order := l.order.drop 1, second := true }) s1
  match s2.ldr.order with
  | [] => noImage s2
  | n :: _ => emit (.eepromRead n) s2

/-- A slot's container has been read (R366, R367): a slot that is not the head of the order is read again in its turn. -/
def execImageReadDone (slot : Fin 2) (bytes otherHdr : List Byte) (fail : Option Nat) (speedDrop sramOk : Bool) (s : State) :
    Host.Outcome State Fault Refusal :=
  if s.ldr.st ≠ .reading ∨ inLoad s = false then .next s
  else
    let mine := hdrGen bytes
    let other := hdrGen otherHdr
    let order := if s.ldr.order.isEmpty then (if slot.val = 0 then slotOrder mine other else slotOrder other mine) else s.ldr.order
    let s1 := modLdr (fun l => { l with order := order, speedDrop := l.speedDrop || speedDrop }) (nacksSeen 255 s)
    .next (if sramOk = false then haltLoader Cause.ldrSramFail s1
      else if order.isEmpty then noImage s1
      else if order.head? ≠ some slot.val then emit (.eepromRead (order.headD 0)) s1
      else match fail with
        | some c => slotFails slot c 0xFF s1
        | none =>
          match checkContainer bytes with
          | .inl e => slotFails slot e.1 e.2 s1
          | .inr _ => modLdr (fun l => { l with st := .applying, image := some bytes, genAlt := other }) s1)

/-! ### Applying an image (R368) -/

/-- One word of a section takes its register: RTC_CTRL and RTC_PWAKE act as their writes do, the supply words of the
fixed slots 0, 3 and 5 are not registers, a lock of a watchdog slot stays until reset (R401, R409, R415, R430). -/
def applyWord (a w : Nat) (s : State) : State :=
  let v := wordN w
  if a = 0x003020 then writeRtcCtrl v s
  else if a = 0x00303C then writeRtcPwake v s
  else if a = Addr.seqRail 0 ∨ a = Addr.seqRail 3 ∨ a = Addr.seqRail 5 then s
  else if 0x004400 ≤ a ∧ a < 0x004800 then writeIntcSrc (a % 0x400 / 4) v s
  else if 0x003900 ≤ a ∧ a < 0x003B00 then
    let i := a / 32 - 0x1C8
    let s1 := setCfg a (if wdtLocked s i then v ||| 0x80000000 else v) s
    if wdtEn s1 i then
      modSlot i (fun x => if wdtEn s i then { x with count := 0 } else { x with count := 0, token := 0x5A00 + i, used := none }) s1
    else s1
  else if a = 0x003800 then
    let s1 := setCfg a v s
    if s.wdt.clkLost then s1 else modWdt (fun x => { x with clkNow := bitN w 0 }) s1
  else setCfg a v s

/-- A record of an unpopulated channel has no effect (R32). -/
def applyCh (m : Img) (a w : Nat) (s : State) : State := if m.p (a % 0x020000 / 0x400) then applyWord a w s else setCfg a 0 s

/-- A section's words take their registers; the masks of TIMECFG the launch groups (R265). -/
def applySect (m : Img) (x : Sect) (s : State) : State :=
  let s1 := ((sectAddrs x.type).zip x.words).foldl (fun t y =>
    if x.type = SectT.chcfg then applyCh m y.1 y.2 t
    else if x.type = SectT.timecfg ∧ 0x002200 ≤ y.1 then t
    else applyWord y.1 y.2 t) s
  if x.type = SectT.timecfg then
    forEach (upto 16) (fun g t => modGrp g (fun r => { r with mask := leAt x.body (40 + 16 * g) 16, held := [none, none, none] }) t) s1
  else s1

/-- The value a register takes without its section: without SQZCFG, VERIFY is 1 for the rings of native galleries (R316). -/
def absentWord (m : Img) (a : Nat) (s : State) : Nat :=
  if a = 0x00A000 then 4 + eeSpeed s
  else if 0x009000 ≤ a ∧ a < 0x009080 then 4 * b2n (decide (2 ≤ m.n (a % 0x80 / 16 * 16)))
  else (cfgDefault a).toNat

/-- Registers of a section the image does not carry return to their reset values; those of SEQCFG and RTCCFG keep the
values in force (R401, R421). -/
def applyAbsent (m : Img) (ty : Nat) (s : State) : State :=
  if ty = SectT.seqcfg ∨ ty = SectT.rtccfg ∨ ty = SectT.fecal then s
  else (sectAddrs ty).foldl (fun t a => applyWord a (absentWord m a s) t) s

/-- Every section of the image, in ascending type. -/
def applyTypes (m : Img) (s : State) : State :=
  (upto 22).foldl (fun t i =>
    if i + 1 = SectT.fecal then t
    else match m.sects.find? (·.type == i + 1) with
      | some x => applySect m x t
      | none => applyAbsent m (i + 1) t) s

/-- The calibration words of all front ends from a FECAL payload. -/
def applyCal (b : List Byte) (s : State) : State :=
  ((sectAddrs SectT.fecal).zip (wordsFrom (b.drop 4))).foldl (fun t y => setCfg y.1 (wordN y.2) t) s

/-- UNCAL shows the default calibration of a powered front end (R96, R119). -/
def calFlags (f : FrontEnd) : FrontEnd :=
  let on := f.calSrc == 0 && f.pwr != 0
  { f with flt := setBitN f.flt 9 on, fltHist := if on then setBitN f.fltHist 9 true else f.fltHist }

/-- The calibration source (R96): the store's record, the image's FECAL section, or defaults. -/
def chooseCal (m : Img) (s : State) : State :=
  let sect := m.sects.find? (·.type == SectT.fecal)
  let over_ : Bool := match sect with | some x => byteAt x.body 1 == 1 | none => false
  let rec_ := if s.nvm.recalled && !s.nvm.refused then recPayload s Kind.cal 0 else none
  let good : Bool := match rec_ with | some b => storedCalOk b | none => false
  let s1 := if rec_.isSome && !good then raiseSrc .fabric Cause.fecalRange 0xFF 150 2 (leBytes 4 1) s else s
  let src (n : Nat) (t : State) : State := forEach (upto 128) (modFe · fun f => calFlags { f with calSrc := n }) t
  if good && !over_ then src 2 (applyCal (rec_.getD []) s1)
  else match sect with
    | some x => src 1 (applyCal x.body s1)
    | none =>
      raise .fabric Cause.feUncal 0xFF
        (src 0 ((sectAddrs SectT.fecal).foldl (fun t a => setCfg a (cfgDefault a) t) s1))

/-- Payloads of a type with the INDEX in their second byte. -/
def payloadsOf (m : Img) (ty : Nat) : List (Nat × List Byte) :=
  (m.sects.filter (·.type == ty)).map fun x => (byteAt x.body 1, x.body)

/-- Working memory: recipes, wait groups, models and grade bins. -/
def applyMemory (m : Img) (s : State) : State :=
  { s with rcp := { s.rcp with rcp := payloadsOf m SectT.rcp, models := payloadsOf m SectT.model, grades := payloadsOf m SectT.grade,
                               waitCfg := (m.sects.find? (·.type == SectT.waitgrp)).elim [] (·.body) } }

/-- The line time is seeded from the RTC at the first image after a reset (R263). -/
def seedLine (s : State) : State :=
  if !s.ldr.applied && bitN (cfgN s 0x002000) 2 && s.rtc.valid && s.rtc.utcOk && !s.tb.seeded then
    modTb (fun t => { t with sec := ((calSeconds s.rtc.cal : Int) + ptpEpoch2000 + s.rtc.utcOfs).toNat,
                             frac := s.rtc.cal.sub * 2 ^ 17, nextEdge := none, seeded := true, stepTk := t.run }) s
  else s

/-- The image a container holds. -/
def loadedImg (b : List Byte) : Img := imgOf (hdrGen b) (match sectionsOf b with | .inr xs => xs | .inl _ => [])

/-- t6: every value of the image is in force together (R368). DESIGN CHOICE (log entry 83): R76 copies the records at the end
of LOAD, R368 writes every section's values by t6; here they are written once, at t6, so that a read between t6 and t7 shows them
and a write of an RWL register between t6 and t7 stands. -/
def applyImage (b : List Byte) (s : State) : State :=
  let m := loadedImg b
  let s1 := modSaf (fun f => { f with flips := [], copies := [], pend := none, apply := none }) (applyMemory m (chooseCal m (applyTypes m s)))
  let slot := s.ldr.order.headD 0
  let s2 := modLdr (fun l => { l with st := .selftest, slot := slot, fallback := l.second, gen := m.gen, imgId := leAt b 20 8,
                                      nFall := if l.second then incSat 8 l.nFall else l.nFall }) s1
  let s3 := if s.ldr.second then raise .fabric Cause.ldrFallback 0xFF s2 else s2
  let s4 := if cfgW s3 0x002004 = cfgW s 0x002004 then s3
    else modTb (fun t => { t with st := .freerun, trace := false, yp := 0 }) s3
  inhUpdate (updateWcr (takeAddress (seedLine s4)))

def execImageApplyDone (s : State) : Host.Outcome State Fault Refusal :=
  if s.ldr.st = .applying ∧ inLoad s = true then
    match s.ldr.image with
    | some b => .next (applyImage b s)
    | none => .next s
  else .next s

/-! ### The end of LOAD (R356, R361, R373) -/

/-- A cell identity is told, or counts as told (R200). -/
def tellCell (k id : Nat) (s : State) : State :=
  modEst k (fun e =>
    if id = e.recId then { e with cellId := some id, capProv := false }
    else { e with cellId := some id, capProv := false, q := (modelOf s k).elim e.q Mdl.qNom, relearn := true, recId := id, nLearn := 0,
                  changed := true, kPts := [], kArm := none }) s

/-- The capacity record of a channel: what waits to be written, else what the store holds. -/
def capRecord (k : Nat) (s : State) : Option (List Byte) :=
  let waiting := (match s.nvm.job with | some j => [j.req] | none => []) ++ s.nvm.queue
  match (waiting.filterMap fun r => match r with | .record 0x02 i p => if i = k then some p else none | _ => none).getLast? with
  | some p => some p
  | none => if s.nvm.refused || !s.nvm.recalled then none else recPayload s Kind.cap k

/-- The model bound to a channel (R186). -/
def modelIndex (s : State) (k : Nat) : Option Nat := (s.rcp.models.find? fun x => (leAt x.2 4 16).testBit k).map (·.1)

/-- A channel's estimator restarts: WAIT with the capacity of its record, or with Q_NOM (R200); OFF without a model. -/
def startEst (k : Nat) (s : State) : State :=
  let old := s.getEst k
  let mi := if populated s k then modelIndex s k else none
  let base : Estimator := { model := mi, cellId := old.cellId, res := old.res, overruns := old.overruns, wbDrops := old.wbDrops,
                            wbTk := old.wbTk, idleTk := s.tb.run, pubTk := s.tb.run, waitTk := s.tb.run }
  let e : Estimator := match mi with
    | none => base
    | some i =>
      let qn := (alFind i s.rcp.models).elim 0 Mdl.qNom
      match capRecord k s with
      | some b =>
        if byteAt b 15 = i then
          { base with st := .wait, capProv := true, q := leAt b 8 4, relearn := bitN (byteAt b 14) 0, recId := leAt b 0 8, nLearn := leAt b 12 2 }
        else { base with st := .wait, capProv := true, q := qn, relearn := true }
      | none => { base with st := .wait, capProv := true, q := qn, relearn := true }
  let s1 := modEst k (fun _ => e) s
  match e.cellId with
  | some id => tellCell k id s1
  | none => s1

/-- PWR of front end n (R18, R20, R118): paths of unpopulated channels are powered down (R27). -/
def fePwr (s : State) (n : Nat) : Nat :=
  if populated s n then (if native s n then 1 else 3)
  else if 0 < n && populated s (n - 1) && native s (n - 1) then 2 else 0

/-- A front end after LOAD: its accumulator and its states are new, its histories and counters stay, and so do the state of its
comparators, the bits of FE_FLT that show it, and the latched bits of a channel that stays in FAULT (R119). -/
def startFe (failed : List Nat) (n : Nat) (s : State) : State :=
  let bad := failed.contains n && decide (0 < fePwr s n)
  let f := s.getFe n
  let run := s.tb.run
  let g : FrontEnd := { pwr := fePwr s n, irng := feIrngDef s (chanOr s n), irngNext := feIrngDef s (chanOr s n), calSrc := f.calSrc,
                        cmpOv := f.cmpOv && decide (0 < fePwr s n), cmpUv := f.cmpUv && decide (0 < fePwr s n),
                        fltHist := if bad then f.fltHist ||| 1 else f.fltHist,
                        flt := if fePwr s n = 0 then 0 else b2n bad ||| (f.flt &&& (if (s.getCh (chanOr s n)).st = .fault then 0x167 else 0x60)), echoOk := !bad && decide (0 < fePwr s n),
                        echoPts := if bad || fePwr s n = 0 then f.echoPts else 0x3F, echoTk := run,
                        echoDone := if fePwr s n = 0 then f.echoDone else addSat 16 f.echoDone 5, echoAbort := f.echoAbort }
  let s1 := modFe n (fun _ => calFlags g) s
  if bad then raiseA .fabric Cause.ldrEchoFail 0xFF n (modLdr (fun l => { l with echoFail := incSat 8 l.echoFail }) s1) else s1

/-- A channel slot after LOAD (R136, R361): a channel safe state that is in force holds it in FAULT (R331). -/
def startCh (m : Img) (failed : List Nat) (k : Nat) (s : State) : State :=
  let old := s.getCh k
  let c : Channel := { nph := m.n k, pop := m.p k, nRev := old.nRev, nSup := old.nSup }
  let s1 := modCh k (fun _ => c) s
  let bad := (frontEndsOf s1 k).any fun n => failed.contains n
  modCh k (fun c =>
    if !populated s1 k then c
    else match old.safe with
      | some x => { c with st := .fault, safe := some x, cause := x, flt := x }
      | none => if bad then { c with st := .fault, cause := Cause.feEchoFail, flt := Cause.feEchoFail } else { c with st := .idle }) s1

/-- A gallery after LOAD: its topology is shown (R33, R34). -/
def startGal (m : Img) (b : List Byte) (g : Nat) (s : State) : State :=
  modGal g (fun x => { x with blkMap := Tp.blk b g, mode := Tp.mode b g, pop := Tp.pop b g,
                              nch := ((upto 16).filter fun j => decide (0 < m.n (16 * g + j))).length,
                              engCommit := none, awake := false, f := {} }) s

/-- A phase after LOAD: every bit of PH_FLT is clear (R54), no demand, no share. -/
def startPh (s : State) (n : Nat) (p : Phase) : Phase :=
  { pwm := if vioGood s then .mid else .hiZ, st := if (s.getCh (chanOr s n)).st = .fault && p.st == .fault then .fault else .off, fltHist := p.fltHist, cntLim := p.cntLim, cntSkip := p.cntSkip,
    cntShed := p.cntShed, cntShedX := p.cntShedX, imon := p.imon, imonCode := p.imonCode, imonAvg := p.imonAvg, lfr := p.lfr, ocsFrom := s.tb.run, bad := p.bad }

/-- A ring restarts; a session that stays owns its response ring (R290, R291). -/
def startRing (s : State) (r : Nat) : Ring :=
  { owner := if 52 ≤ r ∧ r < 56 ∧ (s.getSess (r - 52)).isSome then some (r - 52) else none, rto := cfgF s 0x007014 0 10, ackTk := s.tb.run }

/-- Sessions stay if LINK_IP, ADDR_MODE and LINK_NET are unchanged; otherwise they are lost, and the address is taken anew
(R373). -/
def keepSessions (s : State) : State :=
  let key := (cfgN s 0x007004, cfgF s 0x007000 2 1, cfgN s 0x007008)
  let same : Bool := match s.link.kept with | some k => k == key | none => true
  let s1 := if same then s
    else takeAddress (modLink (fun l => { l with ipNow := 0 }) (forEach (upto 4) (closeSession · true) s))
  modLink (fun l => { l with kept := some key, sess := l.sess.map fun x => x.map fun y => { y with subs := 0, replay := none } }) s1

/-- HWSTART enables and locks watchdog slot 0 (R430). -/
def hwStartSlot (s : State) : State :=
  if hwStart s then
    let a := Addr.wdtCfg 0
    if wdtEn s 0 then setCfg a (cfgW s a ||| 0x80000000) s
    else modSlot 0 (fun x => { x with count := 0, token := 0x5A00, used := none }) (setCfg a (wordN (10000 + 2 ^ 18 + 2 ^ 30 + 2 ^ 31)) s)
  else s

/-- What the backup domain and the supervisor have to report at the end of LOAD (R399, R404, R418). -/
def reportBackup (s : State) : State :=
  let s1 := if s.rtc.lost then raise .backup Cause.rtcDomainLost 0xFF s else s
  let s2 := checkBram (upto 8) s1
  if s.seq.torn then raise .supervisor Cause.seqEvtTorn 0xFF s2 else s2

/-- t7. -/
def endLoad (b : List Byte) (failed : List Nat) (s : State) : State :=
  let m := loadedImg b
  let topo := (m.sects.find? (·.type == SectT.topo)).elim [] (·.body)
  let s1 := keepSessions { s with ldr := { s.ldr with echoFail := 0 } }
  let s2 := forEach (upto 8) (startGal m topo) s1
  let s3 := forEach (upto 128) (startCh m failed) s2
  let s4 := forEach (upto 128) (startFe failed) s3
  let s5 := forEach (upto 128) startEst s4
  let s6 := { s5 with ph := (s5.ph.toList.zip (upto 128)).foldl (fun v x => tmod v x.2 (fun p => startPh s5 x.2 p)) s5.ph,
                      ring := (upto 64).foldl (fun v r => tmod v r (fun _ => startRing s5 r)) s5.ring,
                      tb := { s5.tb with tc := Vector.replicate 256 {}, tcOrd := 0, tcIn := [], drain := none,
                                         grp := s5.tb.grp.map fun g => { g with epoch := 0, busy := false } },
                      nvm := { s5.nvm with scans := 0 }, fab := { s5.fab with slackLow := none } }
  let s7 := hwStartSlot (updateSil (modSaf (fun f => { f with cmpFrom := s.tb.run }) s6))
  let s8 := modLdr (fun l => { l with st := .loaded, applied := true, image := none, order := [], nLoads := incSat 8 l.nLoads, time := satN (tkMs (since s l.loadTk)) 0xFFFF }) s7
  let s9 := if s.mode = .load then { s8 with mode := .run } else { s8 with saf := { s8.saf with from_ := .run } }
  reportBackup (raiseA .fabric Cause.ldrLoaded 0xFF s9.ldr.gen (updateWcr (updateSens s9)))

/-- The Echo self-test is over: `fails` says in how many of its five passes a front end failed, none being in no entry. Two or more
fail it (R361). -/
def execEndOfLoad (fails : List (Fin 128 × Fin 6)) (s : State) : Host.Outcome State Fault Refusal :=
  if s.ldr.st = .selftest ∧ inLoad s = true then
    match s.ldr.image with
    | some b => .next (endLoad b ((fails.filter fun x => decide (2 ≤ x.2.val)).map (·.1.val)) s)
    | none => .next s
  else .next s

/-! ### LDR_CMD (R372, R373, R382) -/

/-- LDR_CMD is written by the controller session or through the I2C target. -/
def ldrMay (s : State) (p : Path) : Bool :=
  match p with
  | .sess i => (match s.getSess i with | some x => x.role == .controller | none => false)
  | .i2c => true
  | .core _ => false

/-- An update request is refused, with the failing cause if there is one. -/
def updRefused (arg : Option Nat) (s : State) : State :=
  let s1 := modLdr (fun l => { l with nRef := incSat 8 l.nRef }) s
  match arg with
  | some c => raiseA .fabric Cause.ldrUpdRefused 0xFF c s1
  | none => raise .fabric Cause.ldrUpdRefused 0xFF s1

/-- What every LDR_CMD needs: an access path, a sender that may write it, and the key. -/
def ldrGate (p : Path) (key : Byte) (f : State → State) (s : State) : State :=
  if !s.mode.up then s else if key != 0x3C || !ldrMay s p then updRefused none s else f s

/-- A load is in progress. -/
def loading (s : State) : Bool :=
  match s.ldr.st with
  | .boot | .reading | .checking | .applying | .selftest => true
  | _ => false

/-- RELOAD: a host request that drains to LOAD; in LOAD without a load in progress the load begins at once. -/
def reload (s : State) : State :=
  if loading s then raise .fabric Cause.ldrBusy 0xFF s
  else if s.seq.st ≠ .on ∨ s.seq.wait ≠ none then updRefused none s
  else if s.mode = .load ∧ s.ldr.st ≠ .halted then startRead s
  else if (s.mode = .run ∨ s.mode = .service) ∧ s.tb.drain = none then hostDrain .load s
  else updRefused none s

def execLdrCmdReload (p : Path) (key : Byte) (s : State) : Host.Outcome State Fault Refusal := .next (ldrGate p key reload s)

/-- The 64 held header bytes, if all have arrived. -/
def heldHdr (u : Update) : Option (List Byte) :=
  if u.held.length = 64 ∧ u.held.all (·.isSome) = true then some (u.held.map fun x => x.getD 0) else none

/-- A COMMIT fails with a cause: it is raised, and the update stays open. -/
def commitFails (cause : Nat) (s : State) : State :=
  updRefused (some cause) (raise .fabric cause 0xFF
    (modLdr (fun l => { l with upd := match l.upd with | some u => some { u with committing := false } | none => none }) s))

/-- COMMIT: the held header is checked, then the slot is read back (R372). -/
def commit (p : Path) (slot : Nat) (s : State) : State :=
  match s.ldr.upd, p with
  | some u, .sess i =>
    if u.sess ≠ i.val ∨ u.slot ≠ slot ∨ u.committing = true then updRefused none s
    else match heldHdr u with
      | none => commitFails Cause.ldrHdrBad s
      | some h =>
        if hdrGen h = 0 then commitFails Cause.ldrHdrBad s
        else if hdrGen h ≤ s.ldr.gen then commitFails Cause.ldrGenOld s
        else emit (.eepromRead slot) (modLdr (fun l => { l with upd := some { u with committing := true } }) s)
  | _, _ => updRefused none s

def execLdrCmdCommit (p : Path) (key : Byte) (slot : Fin 2) (s : State) : Host.Outcome State Fault Refusal :=
  .next (ldrGate p key (commit p slot) s)

/-- The read-back is complete: stages 2 and 3, and the header written last. -/
def execCommitDone (readback : List Byte) (hdrOk : Bool) (s : State) : Host.Outcome State Fault Refusal :=
  match s.ldr.upd with
  | some u =>
    if u.committing = false ∨ s.mode.up = false then .next s
    else
      let h := (heldHdr u).getD []
      let s := nacksSeen 255 s
      match walkAndCrc (h ++ readback) with
      | .inl e => .next (commitFails e.1 s)
      | .inr _ =>
        let s1 := emit (.eepromWrite (u.slot * 0x20000) h) s
        .next (if hdrOk then
          raise .fabric Cause.ldrUpdCommitted 0xFF
            (modLdr (fun l => { l with upd := none, nCommit := incSat 8 l.nCommit, genAlt := hdrGen h }) s1)
        else commitFails Cause.ldrHdrBad s1)
  | none => .next s

/-- ABORT closes the open update. -/
def abortUpd (s : State) : State := modLdr (fun l => { l with upd := none }) s

def execLdrCmdAbort (p : Path) (key : Byte) (s : State) : Host.Outcome State Fault Refusal := .next (ldrGate p key abortUpd s)

/-! ### Where a device drain leads (R261, R373, R396, R478) -/

/-- The MODE command that ordered a drain completes: APPLIED marks the channels that drained in time. -/
def modeDone (d : DevDrain) (s : State) : State :=
  match d.entry with
  | some e =>
    let ok := maskOf ((bitsOf 128 d.chans).filter fun k => !d.forced.testBit k)
    tcComplete e (if d.forced = 0 then 0 else if ok = 0 then 2 else 1)
      (modTc e (fun x => { x with targets := d.chans, applied := ok, lastTk := s.tb.run - x.l }) s)
  | none => s

/-- LOAD is entered: pending timed commands complete with OUTCOME 2, an open update is aborted, and the load begins. -/
def enterLoad (s : State) : State :=
  let s1 := forEach (tcFind s TcEnt.live) (tcComplete · 2) s
  let s2 := if s.mode = .service then modAcc (fun a => { a with svcFrom := none }) (leaveService s1) else s1
  let s3 := abortUpd (stopStreams { s2 with mode := .load, ldr := { s2.ldr with loadTk := s.tb.run } })
  startRead (updateSens (forEach (popAll s) abortEchoes s3))

/-- REST is entered: Echo passes end, changed capacity records are queued (R203), and without forwarding the link
powers down (R271). -/
def enterRest (s : State) : State :=
  linkRest (updateSens (stopStreams (forEach (popAll s) (fun k t => estChanged k (abortEchoes k t)) { s with mode := .rest })))

/-- The drained device completes an orderly off's store writes: the commit set follows what is queued (R396, R465). -/
def orderlyStore (s : State) : State :=
  nvmNext { s with nvm := { s.nvm with commit := if s.nvm.refused then none else some (commitSet s []) } }

/-- Every channel of the drain is at its quiescent point: the device changes mode. -/
def execDeviceDrainDone (s : State) : Host.Outcome State Fault Refusal :=
  match s.tb.drain with
  | some d =>
    if d.from_ ≤ s.tb.run ∧ (drainOpen s d).isEmpty then
      let s1 := modeDone d { s with tb := { s.tb with drain := none } }
      .next (match d.goal with
        | .rest => enterRest s1
        | .load => enterLoad s1
        | .service => enterService s1
        | .off => orderlyStore s1)
    else .next s
  | none => .next s

end Sys2Proof.Machine
end

