-- ==== Sys2Proof/Machine/View.lean ====
section
/-!
DEFINITION. What each register shows (the register tables of the chapters): one word for every read-only or status register,
computed from the state. Reading has its effects (captures, clears, claims) in RegAccess.
-/

namespace Sys2Proof.Machine

/-- Fields of a word: (low bit, width, value). Values are cut to their width. -/
def packW (l : List (Nat × Nat × Nat)) : Word := wordN (sumN (l.map fun x => x.2.2 % 2 ^ x.2.1 * 2 ^ x.1))

/-- One bit. -/
def fb (i : Nat) (b : Bool) : Nat × Nat × Nat := (i, 1, b2n b)

/-- Word w of a wide number. -/
def wordOf (x w : Nat) : Word := wordN (fieldN x (32 * w) 32)
def wordOfI (x : Int) (w : Nat) : Word := wordOf (wrapN 128 x) w

def bytesWord (l : List Byte) (w : Nat) : Word := wordN (leAt l (4 * w) 4)

/-! ### Device, supplies, timebase -/

def viewGtopo (s : State) (g : Nat) : Word :=
  let x := s.getGal g
  packW [(0, 16, x.blkMap), (16, 2, x.mode), (24, 5, x.nch)]

def viewVtrim (s : State) : Word := packW [(0, 8, s.fab.code), fb 8 s.fab.hold, (16, 10, s.fab.vcore)]
def viewFovr (s : State) : Word := packW [(0, 8, s.fab.ovUnits), (8, 8, s.fab.ovRun), (16, 16, s.fab.ovTk)]
def viewFcnt (s : State) : Word := packW [(0, 16, s.fab.nOvr), (16, 8, s.fab.nFifo), (24, 8, s.fab.nReset)]
def viewFslack (s : State) : Word := packW [(0, 16, s.fab.slack), (16, 16, s.fab.slackLow.getD 0)]

def SeqSt.code : SeqSt → Nat
  | .off => 0 | .up => 1 | .on => 2 | .down => 3 | .reverse => 4 | .restartWait => 5

def viewSeqStat (s : State) : Word :=
  let q := s.seq
  packW [(0, 3, q.st.code), (3, 3, q.slot), fb 6 q.onLatched, fb 7 q.pfw,
    (8, 8, maskOf ((upto 8).filter fun r => (s.getRail r).good)), fb 16 q.vinOk, fb 17 q.shipLatch, fb 18 q.torn,
    fb 19 q.noStore, (20, 4, q.lastDown)]

def viewSeqCnt (s : State) : Word :=
  packW [(0, 8, s.seq.nPfw), (8, 8, s.seq.nVin), (16, 8, s.seq.nBrown), (24, 8, s.seq.nLong)]
def viewSeqEvt (s : State) (r : Nat) : Word :=
  let x := s.getRail r
  packW [(0, 8, x.noRise), (8, 8, x.stuck), (16, 8, x.uv), (24, 8, x.ov)]

def viewTbStat (s : State) : Word :=
  let t := s.tb
  packW [(0, 2, t.st.code), fb 2 t.trace, fb 3 t.seeded, fb 4 t.step.isSome, fb 5 t.master.isSome, (6, 1, t.port)]

def viewTbCnt (s : State) : Word :=
  packW [(0, 8, s.tb.nSteps), (8, 8, s.tb.nUnlock), (16, 8, s.tb.nHold), (24, 8, s.tb.nMaster)]

/-- TB_FREQ: yf in 0.001 ppm, rounded (R264). -/
def viewTbFreq (s : State) : Word := wordI (rnd (s.tb.yf * 1000000000) (2 ^ 40))

def viewMasterPort (s : State) : Word :=
  match s.tb.master with | some m => packW [(0, 16, m.port), (16, 8, m.steps)] | none => 0
def masterId (s : State) : Nat := match s.tb.master with | some m => m.ident | none => 0

def TcSlot.code : TcSlot → Nat
  | .free => 0 | .pending => 1 | .released => 2 | .completed => 3

/-- TB_TCINFO of the selected entry; a free one reads 0. -/
def viewTcinfo (s : State) : Word :=
  let e := s.getTc s.tb.tcSel
  if e.slot = .free then 0
  else packW [(0, 2, e.slot.code), (8, 8, Tc.kind e.raw), (16, 8, Tc.group e.raw),
    (24, 3, if e.slot = .completed then e.outcome else 0)]

def viewTcBits (s : State) (w : Nat) (f : TcEnt → Nat) : Word :=
  let e := s.getTc s.tb.tcSel
  if e.slot = .completed then wordOf (f e) w else 0

/-! ### Backup domain, thermal monitor, watchdogs, events -/

def viewRtcStat (s : State) : Word :=
  let r := s.rtc
  packW [fb 0 r.valid, fb 1 r.lost, fb 2 r.werr, fb 3 r.oscFail, fb 4 r.vbakLow, fb 5 r.trimSat, fb 6 r.disc, fb 7 r.utcOk,
    fb 8 r.alm, fb 9 r.pwake, fb 10 r.wakePend]

def viewThmCnt (s : State) : Word := packW [(0, 8, s.thm.nDer), (8, 8, s.thm.nRise), (16, 8, s.thm.nStale), (24, 8, s.thm.nImpl)]

def viewThmSens (s : State) (i : Nat) : Word :=
  let d := s.getDie i
  packW [(0, 16, wrapN 16 d.t), fb 16 d.fast, fb 17 d.warn, fb 18 (d.derate || d.rise), fb 19 d.shut, fb 20 d.rise, fb 21 d.broken]

/-- THM_TCELL: 0x3FFF as the age of a value never told (R441). -/
def viewTcell (s : State) (k : Nat) : Word :=
  let x := s.getTold k
  let age := match toldAgeTk s k with | some a => satN (tkMs a / 10) 0x3FFF | none => 0x3FFF
  packW [(0, 16, wrapN 16 (match x.t with | some (t, _) => t | none => 0)), (16, 14, age), fb 30 (toldStale s k), fb 31 x.rise]

def viewWdtStat (s : State) : Word := packW [fb 0 s.wdt.clkNow, fb 1 s.wdt.clkLost, fb 2 (hwStart s)]
def viewWdtCnt (s : State) (i : Nat) : Word :=
  let x := s.slot i
  packW [(0, 8, x.nExp), (8, 8, x.nEarly), (16, 8, x.nDup), (24, 8, x.nBad)]

/-- WDT_CFG; an internal slot reads its fixed 100 ms, enabled (R431). -/
def viewWdtCfg (s : State) (i : Nat) : Word := if i < 16 then cfgW s (Addr.wdtCfg i) else packW [(0, 16, 100), fb 30 true]

def viewIntcStack (s : State) (t : Nat) : Word :=
  let l := stackOf s t
  packW [(0, 5, l.length), (8, 4, match l with | (_, p) :: _ => p | [] => 0), (16, 10, topId l)]

def viewMask (l : List Nat) (w : Nat) : Word := wordOf (maskOf l) w

/-! ### Safety, sump -/

def viewSafStat (s : State) : Word :=
  let f := s.saf
  packW [fb 0 f.dev.isSome, fb 1 f.classX, fb 2 f.safeN, fb 3 f.sigOk, fb 4 f.pend.isSome, fb 5 f.proof.isSome, (8, 8, f.sil),
    (16, 8, maskOf ((upto 8).filter fun g => (s.getGal g).safe.isSome)), (24, 8, maskOf ((upto 8).filter fun g => (s.getGal g).sflt))]

def viewSafCause (s : State) : Word :=
  let x := s.saf.dev.getD s.saf.lastCause
  packW [(0, 16, x.1), (16, 8, x.2)]

def viewSafCnt (s : State) : Word := packW [(0, 8, s.saf.nCh), (8, 8, s.saf.nGal), (16, 8, s.saf.nDev), (24, 8, s.saf.nCmpt)]

/-- SAF_PROOF: AGE_D counts days of line time since PASS_SEC. -/
def viewSafProof (s : State) : Word :=
  let age := match s.saf.passSec with | some t => satN ((s.tb.sec - t) / 86400) 0xFFFF | none => 0xFFFF
  packW [(0, 3, s.saf.proofRes), (16, 16, age)]

def Ride.code : Ride → Nat
  | .normal => 0 | .droop => 1 | .pause => 2 | .lend => 3 | .hold => 4 | .ret => 5 | .expire => 6

/-- Priority classes of the channels the sump pauses (SUMP_STAT.PCLS). -/
def pausedClasses (s : State) : Nat :=
  maskOf ((upto 4).filter fun p => (popAll s).any fun k => (s.getCh k).psSump && Sump.prio s k == p)

def viewSumpStat (s : State) : Word :=
  let x := s.sump
  packW [(0, 3, x.ride.code), fb 3 x.loss, fb 4 x.constr, fb 5 x.expLim, fb 6 ((popAll s).any fun k => (s.getCh k).lending),
    fb 7 x.feOk, fb 8 x.inh, fb 9 x.cmpDroop, fb 10 x.cmpOv, fb 11 (s.mode.up && s.mode != .load && budFallback s), (12, 3, x.retFrom.code), (16, 4, pausedClasses s)]

def viewSumpCnt (s : State) : Word := packW [(0, 8, s.sump.nDroop), (8, 8, s.sump.nLoss), (16, 8, s.sump.nExp), (24, 8, s.sump.nLate)]

def viewSumpTold (s : State) : Word :=
  let age := match s.sump.told with | some (_, t) => satN (tkMs ((s.tb.run : Int) - t).toNat) 0xFFFF | none => 0xFFFF
  packW [(0, 16, age), fb 16 s.sump.inhTold]

def viewRideMs (s : State) : Word :=
  wordN (satN (tkMs (match s.sump.rideFrom with | some t => since s t | none => s.sump.rideTk)) 0xFFFFFFFF)

/-! ### Link, rings, codec -/

def viewLinkStat (s : State) : Word :=
  let l := s.link
  let open_ := (upto 4).filter fun i => (s.getSess i).isSome
  let ctl := (upto 4).find? fun i => match s.getSess i with | some x => x.role == .controller | none => false
  packW [fb 0 l.p0.up, fb 1 l.p1.up, fb 2 (l.ipNow != 0), fb 3 l.pos.isSome, fb 4 l.head, fb 5 (isTail s), fb 6 l.budgetOver,
    (8, 4, maskOf open_), (12, 2, ctl.getD 0), fb 14 ctl.isSome]

def viewPortCnt (p : Port) : Word := packW [(0, 16, p.fcs), (16, 16, p.drop)]
def viewPzCnt (s : State) : Word := packW [(0, 8, s.link.nDisc), (8, 8, s.link.nSeq), (16, 8, s.link.nBusy), (24, 8, s.link.nAck)]

def Role.code : Role → Nat
  | .observer => 0 | .teller => 1 | .controller => 2

def viewSessinfo (s : State) (i w : Nat) : Word :=
  match s.getSess i with
  | none => 0
  | some x =>
    match w with
    | 0 => packW [(0, 2, x.role.code), fb 2 true, (3, 1, x.port), (16, 16, x.hbMs)]
    | 1 => wordN x.ip
    | 2 => packW [(0, 16, x.udp), (16, 16, x.telPort)]
    | _ => wordN (satN (tkMs (since s x.lastTk)) 0xFFFFFFFF)

def viewRingStat (s : State) (r : Nat) : Word :=
  let g := s.getRing r
  packW [(0, 2, ringKind r), fb 2 g.ovf, fb 3 g.owner.isSome, (4, 2, g.owner.getD 0),
    fb 6 (ringKind r == 0 && (g.stream.isSome || cfgN s 0x007018 != 0)),
    (16, 16, satN ((ringUsed g + 255) / 256) 0xFFFF)]

/-- RING_OLDEST: the next RSN when the ring holds nothing. -/
def ringOldest (g : Ring) : Nat := match g.recs with | x :: _ => x.rsn | [] => g.next

/-- Mode of the blocks now open on a telemetry ring, the configured one when none is (R323). -/
def sqzModeNow (s : State) (r : Nat) : Nat :=
  match (upto 4).find? fun j => (s.getFe (4 * r + j)).nOpen with
  | some j => (s.getFe (4 * r + j)).nMode
  | none => sqzMode s r

/-- Verification of the blocks now open on a telemetry ring, the configured one when none is (R313, R323). -/
def sqzVerifyNow (s : State) (r : Nat) : Bool :=
  match (upto 4).find? fun j => (s.getFe (4 * r + j)).nOpen with
  | some j => (s.getFe (4 * r + j)).nVerify
  | none => sqzVerify s r

def viewSqzStat (s : State) (r : Nat) : Word :=
  packW [(0, 2, sqzModeNow s r), fb 2 ((s.getSqz r).pend != 0), fb 3 (sqzVerifyNow s r)]
def viewSqzCnt (s : State) (r : Nat) : Word := packW [(0, 16, (s.getSqz r).degraded), (16, 16, (s.getSqz r).vfail)]

/-! ### Two-wire bus, store, access, loader -/

def viewTwiStat (s : State) : Word :=
  let t := s.twi
  packW [fb 0 (t.busBusy || controlling s), fb 1 (controlling s), fb 2 t.tgt, fb 3 t.scl, fb 4 t.sda, (5, 3, t.addr), fb 8 t.lastAlign]
def viewTwiCnt (s : State) : Word := packW [(0, 8, s.twi.nArb), (8, 8, s.twi.nNack), (16, 8, s.twi.nBusy), (24, 8, s.twi.nStuck)]
def XferSt.code : XferSt → Nat
  | .idle => 0 | .busy => 1 | .done => 2 | .failed => 3
def viewXstat (s : State) : Word := packW [(0, 2, s.twi.xst.code), (8, 8, s.twi.xbytes), (16, 16, s.twi.xcause)]
def viewXctl (s : State) : Word := packW [(0, 31, s.twi.xctl.toNat), fb 31 (s.twi.xst == .busy)]

def viewNvmStat (s : State) : Word :=
  packW [fb 0 (storeFmt s), fb 1 s.nvm.refused, fb 2 s.nvm.busy.isSome, fb 3 s.nvm.lock, (4, 1, s.nvm.bank)]
def viewNvmScan (s : State) : Word := packW [(0, 12, s.nvm.scanPage), (16, 16, s.nvm.scans)]
def viewNvmCnt (s : State) : Word := packW [(0, 8, s.nvm.nCorr), (8, 8, s.nvm.nUncorr), (16, 8, s.nvm.nRefresh), (24, 8, s.nvm.nTorn)]

def viewAccStat (s : State) : Word :=
  packW [(0, 2, svcAuth s), fb 2 (tapClose s), fb 3 s.acc.tapOpen, fb 4 (fuseBlockSet s 20 && fuseBlockOk s 20),
    fb 5 (fuseBlockSet s 29 && fuseBlockOk s 29), fb 6 s.acc.svcFrom.isSome, (7, 4, maskOf ((upto 4).filter (unlocked s))),
    (16, 8, failCount s)]

/-- ACC_FUSE: the key and the digest read 0 (R481). -/
def viewFuse (s : State) (w : Nat) : Word := if 20 ≤ w ∧ w < 38 then 0 else wordN (fuseW s w)

def LdrSt.code : LdrSt → Nat
  | .boot => 0 | .reading => 1 | .checking => 2 | .applying => 3 | .selftest => 4 | .loaded => 5 | .noImage => 6 | .halted => 7

def viewLdrStat (s : State) : Word :=
  let l := s.ldr
  packW [(0, 3, l.st.code), (3, 1, l.slot), fb 4 l.fallback, fb 5 l.recallRef, fb 6 l.patch, fb 7 l.upd.isSome,
    (8, 1, match l.upd with | some u => u.slot | none => 0), fb 9 l.speedDrop, (16, 8, l.echoFail)]
def viewLdrCnt (s : State) : Word := packW [(0, 8, s.ldr.nLoads), (8, 8, s.ldr.nFall), (16, 8, s.ldr.nCommit), (24, 8, s.ldr.nRef)]
def viewLdrUpd (s : State) : Word := match s.ldr.upd with | some u => packW [(0, 18, u.high)] | none => 0

/-! ### Phases, channels, front ends, estimators, recipes -/

/-- The phase holds its block's token: an offset among the active phases of a native block. -/
def holdsToken (s : State) (n : Nat) : Bool :=
  match chanOf s n with
  | some k => native s k && (s.getCh k).active.contains (n - k) && (s.getCh k).token == n - k
  | none => false

def viewPhStat (s : State) (n : Nat) : Word :=
  let p := s.getPh n
  let first := declared s n
  packW [(0, 4, p.st.code), fb 4 (holdsToken s n), fb 5 p.dir, fb 6 p.sat, fb 7 p.lim, (8, 4, if first then nAct s n else 0),
    (16, 8, p.ocfRun), (24, 3, p.satRun)]
def viewPhTon (s : State) (n : Nat) : Word := packW [(0, 16, (s.getPh n).tonCode), (16, 16, (s.getPh n).fswMeas)]

def ChSt.code : ChSt → Nat
  | .disabled => 0 | .idle => 1 | .armed => 2 | .step => 3 | .paused => 4 | .tempWait => 5 | .hold => 6 | .lost => 7 | .fault => 8

def Limiter.code : Limiter → Nat
  | .none => 0 | .vlim => 1 | .ibnd => 2 | .grant => 3

/-- Direction and mode of the command in force; the ramp of a reversal runs as CC (R126). -/
def cmdDis (r : Reg) : Bool := match r.cmd with | some c => decide (Sp.target c < 0) || c.dis | none => false
def cmdMode (r : Reg) : Nat := if r.ramp then 0 else match r.cmd with | some c => c.mode.code | none => 0

def viewChStat (s : State) (k : Nat) : Word :=
  let c := s.getCh k
  packW [(0, 4, c.st.code), fb 4 (chBusy s k), fb 5 (cmdDis c.reg), (6, 2, cmdMode c.reg), (8, 2, c.reg.limiter.code),
    fb 10 (c.reg.x != c.reg.target), fb 11 c.reg.rev, fb 12 c.disc, fb 13 c.suspect, fb 14 (present s k), fb 15 (toldAbsent s k),
    (16, 4, psMask c), fb 20 c.reg.sat]

def viewChTopo (s : State) (k : Nat) : Word :=
  let c := s.getCh k
  if c.nph = 0 then 0
  else packW [(0, 4, c.nph), fb 4 c.pop, fb 5 (native s k), (8, 8, k), (16, 8, if native s k then k + 1 else 0xFF)]

def viewChCnt (s : State) (k : Nat) : Word := packW [(0, 16, (s.getCh k).nRev), (16, 16, (s.getCh k).nSup)]

def viewRcpStat (s : State) (k : Nat) : Word :=
  let r := (s.getCh k).rcp
  packW [(0, 5, r.recipe), fb 5 r.bound, (8, 6, r.step), (16, 3, r.lastEnd), fb 19 r.derate, fb 20 r.topoff, fb 21 r.wait]

/-- The step engine's counts at the present tick; step time and step charge read 0 while no step is open. -/
def viewStepTk (s : State) (k : Nat) : Word :=
  if (s.getCh k).rcp.isOpen then wordN (satN (stepTime s k s.tb.run) 0xFFFFFFFF) else 0
def viewRcpTk (s : State) (k : Nat) : Word := wordN (satN (rcpTime s k s.tb.run) 0xFFFFFFFF)
def stepCharge (s : State) (k : Nat) : Int := if (s.getCh k).rcp.isOpen then stepQ s k else 0

/-- Word 1 of a 40-bit signed quantity: bits 39 to 32, sign-extended. -/
def high40 (x : Int) : Word := wordI (signN 8 (fieldN (wrapN 40 x) 32 8))

def viewFeStat (s : State) (n : Nat) : Word :=
  let f := s.getFe n
  if f.pwr = 0 then 0
  else packW [(0, 2, f.pwr), fb 2 f.out, fb 3 (regFe s (chanOr s n) == n), (4, 2, f.irng), (6, 2, f.calSrc), fb 8 f.cmpOv, fb 9 f.cmpUv]

def viewSflag (f : FrontEnd) : Word := packW [(0, 4, f.fl), (16, 16, f.stk)]

def viewEchoRes (s : State) (n : Nat) : Word :=
  let f := s.getFe n
  packW [(0, 6, f.echoPts), fb 6 f.echoOk, fb 7 f.echoRetry, (8, 24, satN (tkSec (since s f.echoTk)) 0xFFFFFF)]

/-- A status or data register of a front end; 0 in a powered-down one (R118). -/
def viewFe (s : State) (n : Nat) (id : RegId) : Word :=
  let f := s.getFe n
  if f.pwr = 0 then 0
  else match id with
    | .feVsamp => wordI f.vs
    | .feIsamp => wordI f.is
    | .feIcur => wordI f.icur
    | .feSflag => viewSflag f
    | .feAccLo => wordOfI f.acc 0
    | .feAccHi => wordOfI f.acc 1
    | .feQuahLo => wordOfI (qUah s n f.acc) 0
    | .feQuahHi => high40 (qUah s n f.acc)
    | .feAccSubst => wordN f.accSubst
    | .feAccOvr => wordN f.accOvr
    | .feAb => packW [(0, 9, f.abV), (16, 9, f.abI)]
    | .feAbDiff => packW [(0, 16, f.dv), (16, 16, f.di)]
    | .feEchoRes => viewEchoRes s n
    | .feEchoCnt => packW [(0, 16, f.echoDone), (16, 16, f.echoAbort)]
    | .feFlt => wordN f.flt
    | .feFltHist => wordN f.fltHist
    | _ => 0

def EstSt.code : EstSt → Nat
  | .off => 0 | .wait => 1 | .valid => 2 | .frozen => 3

def viewEstStat (s : State) (k : Nat) : Word :=
  let e := s.getEst k
  packW [(0, 2, e.st.code), fb 2 e.relearn, fb 3 e.capProv, fb 4 e.ocvFlat, fb 5 e.ocvClamp, fb 6 e.tStale, fb 7 e.diverge,
    (8, 2, e.anchor), (10, 2, e.dirn), (12, 3, e.model.getD 0), fb 15 e.kLog]

/-- A data register of an estimator; 0 while it is OFF (R215). -/
def viewEst (s : State) (k : Nat) (id : RegId) (w : Nat) : Word :=
  let e := s.getEst k
  if e.st = .off then 0
  else match id with
    | .estSoc => packW [(0, 16, wrapN 16 e.socRep), (16, 16, wrapN 16 e.socFilt)]
    | .estSocC => wordI e.socC
    | .estSocV => wordI e.socV
    | .estV1 => wordI e.v1Reg
    | .estOcv => wordI e.ocvReg
    | .estCap => wordN e.q
    | .estCapm => wordN e.capM
    | .estDcir => wordI e.dcir
    | .estK => wordI e.k
    | .estOcvpt => wordI e.ocvPt
    | .estT => packW [(0, 16, wrapN 16 e.tUse)]
    | .estDivcnt => packW [(0, 10, e.divCnt)]
    | .estKpts => packW [(0, 7, e.kPts.length)]
    | .estCellidLo => wordOf (e.cellId.getD 0) 0
    | .estCellidHi => wordOf (e.cellId.getD 0) 1
    | .estRes => bytesWord e.res w
    | _ => 0

/-- RCP_DIR: NSTEP of a recipe, 0 if absent. -/
def viewRcpDir (s : State) (r : Nat) : Word := match rcpOf s r with | some b => packW [(0, 7, rcpNstep b)] | none => 0

/-- RCP_WAIT: waiting members, active members, a member that waits for the host's release (R168, R169). -/
def viewRcpWait (s : State) (w : Nat) : Word :=
  let members := (popAll s).filter (waitMember s w)
  packW [(0, 8, (members.filter (waitingOn s w)).length), (8, 8, (members.filter fun k => (s.getCh k).st.active).length),
    fb 16 (members.any fun k => waitingOn s w k && waitHost s k)]

/-- The 64 bytes RCP_SEL selects: the header with bit 16, a step otherwise; zeros if absent (R180). -/
def rcpSelected (s : State) (v : Word) : List Byte :=
  match rcpOf s (field v 0 5) with
  | some b =>
    if v.toNat.testBit 16 then slice b 4 64
    else if field v 8 6 < rcpNstep b then rcpStep b (field v 8 6) else List.replicate 64 0
  | none => List.replicate 64 0

end Sys2Proof.Machine
end

