-- ==== Sys2Proof/Machine/RegAccess.lean ====
section
/-!
DEFINITION. Register access (R4 to R8, R521 to R524): what a read returns and does, what a write does and when it is
refused, and the commands that are one access.
-/

namespace Sys2Proof.Machine

/-! ### Captures (R8, R75, R118, R264) -/

/-- The captured value of a higher word. -/
def captured (s : State) (p : Path) (a : Nat) : Word := alGet 0 a (s.shad p).wide

/-- Capture higher words for a path. -/
def capture (p : Path) (l : List (Nat × Word)) (s : State) : State :=
  modShad p (fun h => { h with wide := l.foldl (fun w x => alSet 0 x.1 x.2 w) h.wide }) s

/-- The higher words that a read of the word at address a captures; empty for a word that captures nothing. -/
def captureSet (s : State) (a : Nat) (h : RegHit) : List (Nat × Word) :=
  let n := h.inst
  match h.row.id with
  | .feVsamp => [(Addr.fe n 0x88, viewFe s n .feIsamp), (Addr.fe n 0x8C, viewFe s n .feIcur), (Addr.fe n 0x90, viewFe s n .feSflag)]
  | .feAccLo => [(Addr.fe n 0xA4, viewFe s n .feAccHi), (Addr.fe n 0xA8, viewFe s n .feQuahLo), (Addr.fe n 0xAC, viewFe s n .feQuahHi)]
  | .tbFrac => [(0x002088, wordOf s.tb.sec 0), (0x00208C, wordOf (s.tb.sec % 2 ^ 48) 1), (0x002090, wordOf s.tb.run 0), (0x002094, wordOf s.tb.run 1)]
  | .tbMasterLo => [(a + 4, wordOf (masterId s) 1)]
  | .ldrImgidLo => [(a + 4, wordOf s.ldr.imgId 1)]
  | .linkMacLo => [(a + 4, wordOf (fuseMac s) 1)]
  | .chQstepLo => [(a + 4, high40 (stepCharge s n))]
  | .estCellidLo => [(a + 4, viewEst s n .estCellidHi 0)]
  | .estRes => if h.idx = 0 then (upto 15).map fun j => (a + 4 + 4 * j, viewEst s n .estRes (j + 1)) else []
  | .phLfr => if h.idx = 0 then (upto 15).map fun j => (a + 4 + 4 * j, bytesWord (s.getPh n).lfr (j + 1)) else []
  | _ => []

/-- A word that a read of a lower word captures. -/
def isHigher (h : RegHit) : Bool :=
  match h.row.id with
  | .feIsamp | .feIcur | .feSflag | .feAccHi | .feQuahLo | .feQuahHi | .tbSecLo | .tbSecHi | .tbRunLo | .tbRunHi | .tbMasterHi
  | .ldrImgidHi | .linkMacHi | .chQstepHi | .estCellidHi => true
  | .estRes | .phLfr => decide (0 < h.idx)
  | _ => false

/-! ### Reads -/

/-- The configuration word of an address as it reads: 0 in a channel slot that is not populated (R141) and in the block
words of a phase that is not the first of a native block (R73). -/
def viewCfg (s : State) (a : Nat) (h : RegHit) : Word :=
  if 0x020000 ≤ a ∧ a < 0x040000 ∧ populated s h.inst = false then 0
  else if 0x010000 ≤ a ∧ a < 0x020000 ∧ 0x28 ≤ a % 0x200 ∧ a % 0x200 ≤ 0x34 ∧ native s h.inst = false then 0
  else cfgW s a

/-- What a register shows to a path, before any effect of the read. -/
def viewReg (s : State) (p : Path) (a : Nat) (h : RegHit) : Word :=
  let n := h.inst
  let j := h.idx
  let ch := s.getCh n
  match h.row.id with
  | .cfg => viewCfg s a h
  | .devGtopo => viewGtopo s j
  | .devGpop => wordN (s.getGal j).pop
  | .devFrate => wordN s.fab.rate
  | .devFslack => viewFslack s
  | .devVtrim => viewVtrim s
  | .devFovr => viewFovr s
  | .devFcnt => viewFcnt s
  | .seqCmd => 0
  | .seqStat => viewSeqStat s
  | .seqVin => packW [(0, 16, s.seq.vin)]
  | .seqCnt => viewSeqCnt s
  | .seqEvt => viewSeqEvt s j
  | .tbStat => viewTbStat s
  | .tbFrac => wordN s.tb.frac
  | .tbSecLo | .tbSecHi | .tbRunLo | .tbRunHi | .tbMasterHi | .linkMacHi | .ldrImgidHi | .chQstepHi => captured s p a
  | .tbOfs => wordI (satI 32 s.tb.ofs)
  | .tbMpd => wordI s.tb.mpd
  | .tbFreq => viewTbFreq s
  | .tbMasterLo => wordOf (masterId s) 0
  | .tbMasterPort => viewMasterPort s
  | .tbUtc => packW [(0, 16, wrapN 16 s.tb.utc.1), fb 16 s.tb.utc.2]
  | .tbCnt => viewTbCnt s
  | .tbHoldS => if s.tb.st = .holdover then wordN (satN (tkSec (since s s.tb.holdTk)) 0xFFFFFFFF) else 0
  | .tbTcStat => wordN (tcFind s TcEnt.live).length
  | .tbTcsel => wordN s.tb.tcSel
  | .tbTcinfo => viewTcinfo s
  | .tbTcapp => viewTcBits s j TcEnt.applied
  | .tbTcmis => viewTcBits s j TcEnt.missed
  | .tbGmask => wordOf (s.getGrp (j / 4)).mask (j % 4)
  | .tbGepoch => wordN (s.getGrp j).epoch
  | .tbGctrl => packW [fb 0 (s.getGrp j).en, fb 1 (s.getGrp j).busy]
  | .rtcSubsec => wordN s.rtc.cal.sub
  | .rtcSec => wordN (calSeen s p).sec
  | .rtcMin => wordN (calSeen s p).min
  | .rtcHour => wordN (calSeen s p).hour
  | .rtcDay => wordN (calSeen s p).day
  | .rtcMon => wordN (calSeen s p).mon
  | .rtcYear => wordN (calSeen s p).year
  | .rtcCtrl => cfgW s a
  | .rtcStat => viewRtcStat s
  | .rtcShstat => wordN (b2n ((s.shad p).stale || freezeOver (s.shad p)))
  | .rtcTrim => wordI s.rtc.trimNext
  | .rtcDerr => wordI s.rtc.derr
  | .rtcUtcofs => packW [(0, 16, wrapN 16 s.rtc.utcOfs)]
  | .rtcPwake => cfgW s a
  | .rtcPwcnt => packW [(0, 24, s.rtc.pwCnt)]
  | .rtcBstat => packW [(0, 8, s.rtc.bstat)]
  | .rtcBram => (readBram j s).1
  | .thmCnt => viewThmCnt s
  | .thmSens => viewThmSens s j
  | .thmTcell => viewTcell s j
  | .wdtCtrl => cfgW s a
  | .wdtStat => viewWdtStat s
  | .wdtExp => wordN s.wdt.exp
  | .wdtCfg => viewWdtCfg s j
  | .wdtServe => 0
  | .wdtToken => packW [(0, 16, (s.slot j).token)]
  | .wdtCount => packW [(0, 26, (s.slot j).count)]
  | .wdtCnt => viewWdtCnt s j
  | .intcGrp => cfgW s a ||| packW [fb 16 (bitN s.intc.run j)]
  | .intcClaim => wordN (claimRead p j s).1
  | .intcEoi => 0
  | .intcStack => viewIntcStack s j
  | .intcSrc => cfgW s a ||| packW [(12, 4, (Config.coreMask j).toNat)]
  | .intcPend => viewMask s.intc.pend j
  | .intcAgain => viewMask s.intc.again j
  | .intcSwset => 0
  | .intcCnt => packW [(0, 16, s.intc.nSpur), (16, 16, s.intc.nOrder)]
  | .safSigref => sigRef s
  | .safSet => safW s a
  | .safStat => viewSafStat s
  | .safCause => viewSafCause s
  | .safSignow => s.saf.sigNow
  | .safCmd => 0
  | .safChsafe => viewMask ((upto 128).filter fun k => (s.getCh k).safe.isSome) j
  | .safHist => wordN s.saf.hist
  | .safCnt => viewSafCnt s
  | .safProof => viewSafProof s
  | .safGcause => wordN ((s.getGal j).safe.getD 0)
  | .sumpStat => viewSumpStat s
  | .sumpVbus => wordI (vsumpUv s)
  | .sumpBudget => wordI (budgetNow s)
  | .sumpDem => wordI s.sump.dem
  | .sumpRec => wordI s.sump.rec_
  | .sumpLendp => wordI s.sump.lendP
  | .sumpFep => wordI s.sump.fep
  | .sumpRideMs => viewRideMs s
  | .sumpCnt => viewSumpCnt s
  | .sumpTold => viewSumpTold s
  | .sumpGrant => if regRuns (s.getCh j) then wordI (s.getCh j).reg.gEff else 0
  | .linkStat => viewLinkStat s
  | .linkRope => packW [(0, 6, ropePos s)]
  | .linkIpnow => wordN s.link.ipNow
  | .linkMacLo => wordOf (fuseMac s) 0
  | .linkWcr => wordN s.link.wcr
  | .linkSeg => wordN s.link.seg
  | .linkRate => wordN s.link.rate
  | .linkP0Cnt => viewPortCnt s.link.p0
  | .linkP1Cnt => viewPortCnt s.link.p1
  | .linkPzCnt => viewPzCnt s
  | .linkSessinfo => viewSessinfo s (j / 4) (j % 4)
  | .ringCtrl => packW [fb 0 (s.getRing n).en, fb 1 (s.getRing n).busy]
  | .ringStat => viewRingStat s n
  | .ringNext => wordN (s.getRing n).next
  | .ringAcked => wordN (s.getRing n).acked
  | .ringOldest => wordN (ringOldest (s.getRing n))
  | .ringDrop => wordN (s.getRing n).drop
  | .ringRetx => wordN (s.getRing n).retx
  | .sqzCfg | .sqzQ => cfgW s a
  | .sqzStat => viewSqzStat s j
  | .sqzCnt => viewSqzCnt s j
  | .twiStat => viewTwiStat s
  | .twiCnt => viewTwiCnt s
  | .twiTcause => packW [(0, 16, s.twi.tCause)]
  | .twiXctl => viewXctl s
  | .twiXstat => viewXstat s
  | .twiXbuf => bytesWord s.twi.xbuf j
  | .nvmCmd => 0
  | .nvmWinsel => wordN (b2n (s.shad p).winBank)
  | .nvmStat => viewNvmStat s
  | .nvmScan => viewNvmScan s
  | .nvmCnt => viewNvmCnt s
  | .accStat => viewAccStat s
  | .accWait => wordN (backoffS s)
  | .accSvc => wordN (b2n s.acc.stageOp)
  | .accFcmd | .accFbuf => 0
  | .accFuse => viewFuse s j
  | .ldrCmd => 0
  | .ldrStat => viewLdrStat s
  | .ldrGen => wordN s.ldr.gen
  | .ldrGenAlt => wordN s.ldr.genAlt
  | .ldrCause => wordN s.ldr.cause
  | .ldrUpd => viewLdrUpd s
  | .ldrCnt => viewLdrCnt s
  | .ldrTime => packW [(0, 16, s.ldr.time)]
  | .ldrImgidLo => wordOf s.ldr.imgId 0
  | .phStat => viewPhStat s n
  | .phTon => viewPhTon s n
  | .phImon => wordI (s.getPh n).imon
  | .phIavg => wordI (s.getPh n).iavg
  | .phDem => wordI (s.getPh n).dem
  | .phFlt => wordN (s.getPh n).flt
  | .phFltHist => wordN (s.getPh n).fltHist
  | .phCntLim => wordN (s.getPh n).cntLim
  | .phCntSkip => wordN (s.getPh n).cntSkip
  | .phCntShed => packW [(0, 16, (s.getPh n).cntShed), (16, 16, (s.getPh n).cntShedX)]
  | .phLfr => if j = 0 then bytesWord (s.getPh n).lfr 0 else captured s p a
  | .chStat => viewChStat s n
  | .chTopo => viewChTopo s n
  | .chCmd | .chRcpArm => 0
  | .chCause => packW [(0, 16, ch.cause)]
  | .chIdem => wordI ch.reg.iDem
  | .chImeas => wordI ch.im
  | .chVmeas => wordI ch.vm
  | .chSpx => wordI ch.reg.x
  | .chSpt => wordI ch.reg.target
  | .chPauseTk => if ch.rcp.isOpen then wordN (satN ch.rcp.p 0xFFFFFFFF) else 0
  | .chAbsTk => wordN ch.absTk
  | .chCnt => viewChCnt s n
  | .chRcpStat => viewRcpStat s n
  | .chStepTk => viewStepTk s n
  | .chRcpTk => viewRcpTk s n
  | .chQstepLo => wordOfI (stepCharge s n) 0
  | .chIbndEff => wordI ch.rcp.ibEff
  | .chHold => packW [(0, 8, ch.rcp.rechg)]
  | .feCal => cfgW s a
  | .feStat => viewFeStat s n
  | .feIsamp | .feIcur | .feSflag | .feAccHi | .feQuahLo | .feQuahHi => if (s.getFe n).pwr = 0 then 0 else captured s p a
  | .feVsamp => viewFe s n .feVsamp
  | .feAccLo => viewFe s n .feAccLo
  | .feAccSubst => viewFe s n .feAccSubst
  | .feAccOvr => viewFe s n .feAccOvr
  | .feAb => viewFe s n .feAb
  | .feAbDiff => viewFe s n .feAbDiff
  | .feEchoRes => viewFe s n .feEchoRes
  | .feEchoCnt => viewFe s n .feEchoCnt
  | .feFlt => viewFe s n .feFlt
  | .feFltHist => viewFe s n .feFltHist
  | .estStat => viewEstStat s n
  | .estCmd => 0
  | .estSoc => viewEst s n .estSoc 0
  | .estSocC => viewEst s n .estSocC 0
  | .estSocV => viewEst s n .estSocV 0
  | .estV1 => viewEst s n .estV1 0
  | .estOcv => viewEst s n .estOcv 0
  | .estCap => viewEst s n .estCap 0
  | .estCapm => viewEst s n .estCapm 0
  | .estDcir => viewEst s n .estDcir 0
  | .estK => viewEst s n .estK 0
  | .estOcvpt => viewEst s n .estOcvpt 0
  | .estT => viewEst s n .estT 0
  | .estDivcnt => viewEst s n .estDivcnt 0
  | .estKpts => viewEst s n .estKpts 0
  | .estCnt => packW [(0, 16, (s.getEst n).overruns), (16, 16, (s.getEst n).wbDrops)]
  | .estCellidLo => viewEst s n .estCellidLo 0
  | .estCellidHi => if (s.getEst n).st = .off then 0 else captured s p a
  | .estRes => if j = 0 then viewEst s n .estRes 0 else if (s.getEst n).st = .off then 0 else captured s p a
  | .rcpSel => (s.shad p).rcpSel
  | .rcpWin => bytesWord (s.shad p).rcpWin j
  | .rcpDir => viewRcpDir s j
  | .rcpEng => if stageOn s then wordN (popOfGal s j).length else 0
  | .rcpEngLate => wordN (s.getGal j).late
  | .rcpWait => viewRcpWait s j
  | .window => (winRead p (s.shad p).winBank a s).1

/-- Give an RC register the fields of a word: 0 clears it; the bits of a racing event stay set (R4, R5). -/
def rcPut (p : Path) (h : RegHit) (w : Word) (s : State) : State :=
  let n := h.inst
  let j := h.idx
  let b (i : Nat) : Nat := field w (8 * i) 8
  let lo := field w 0 16
  let hi := field w 16 16
  match h.row.id with
  | .devFcnt => modFab (fun x => { x with nOvr := lo, nFifo := b 2, nReset := b 3 }) s
  | .tbCnt => modTb (fun x => { x with nSteps := b 0, nUnlock := b 1, nHold := b 2, nMaster := b 3 }) s
  | .rtcShstat => modShad p (fun x => { x with stale := w.toNat.testBit 0, cal := if freezeOver x then none else x.cal }) s
  | .thmCnt => { s with thm := { s.thm with nDer := b 0, nRise := b 1, nStale := b 2, nImpl := b 3 } }
  | .wdtCnt => modSlot j (fun x => { x with nExp := b 0, nEarly := b 1, nDup := b 2, nBad := b 3 }) s
  | .intcCnt => { s with intc := { s.intc with nSpur := lo, nOrder := hi } }
  | .safCnt => modSaf (fun x => { x with nCh := b 0, nGal := b 1, nDev := b 2, nCmpt := b 3 }) s
  | .sumpCnt => modSump (fun x => { x with nDroop := b 0, nLoss := b 1, nExp := b 2, nLate := b 3 }) s
  | .linkP0Cnt => modPort 0 (fun x => { x with fcs := lo, drop := hi }) s
  | .linkP1Cnt => modPort 1 (fun x => { x with fcs := lo, drop := hi }) s
  | .linkPzCnt => modLink (fun x => { x with nDisc := b 0, nSeq := b 1, nBusy := b 2, nAck := b 3 }) s
  | .ringRetx => modRing n (fun x => { x with retx := w.toNat }) s
  | .sqzCnt => modSqz j (fun x => { x with degraded := lo, vfail := hi }) s
  | .twiCnt => { s with twi := { s.twi with nArb := b 0, nNack := b 1, nBusy := b 2, nStuck := b 3 } }
  | .nvmCnt => { s with nvm := { s.nvm with nCorr := b 0, nUncorr := b 1, nRefresh := b 2, nTorn := b 3 } }
  | .ldrCnt => modLdr (fun x => { x with nLoads := b 0, nFall := b 1, nCommit := b 2, nRef := b 3 }) s
  | .phCntLim => modPh n (fun x => { x with cntLim := w.toNat }) s
  | .phCntSkip => modPh n (fun x => { x with cntSkip := w.toNat }) s
  | .phCntShed => modPh n (fun x => { x with cntShed := lo, cntShedX := hi }) s
  | .chCnt => modCh n (fun x => { x with nRev := lo, nSup := hi }) s
  | .feEchoCnt => modFe n (fun x => { x with echoDone := lo, echoAbort := hi }) s
  | .estCnt => modEst n (fun x => { x with overruns := lo, wbDrops := hi }) s
  | .rcpEngLate => modGal j (fun x => { x with late := w.toNat }) s
  | _ => s

/-- The effect of a read, besides the word it returns: captures, freezes, the clear of an RC register (whose racing bits
stay set), a claim, the checks of the backup RAM and the store. -/
def readEffect (p : Path) (a : Nat) (h : RegHit) (racing : Word) (s : State) : State :=
  match h.row.id with
  | .rtcSubsec => (freezeCal p s).2
  | .rtcYear => (readYear p s).2
  | .rtcBram => (readBram h.idx s).2
  | .intcClaim => (claimRead p h.idx s).2
  | .window => (winRead p (s.shad p).winBank a s).2
  | _ =>
    if h.row.acc = .rc then rcPut p h racing s
    else match captureSet s a h with
      | [] => s
      | l => capture p l s

/-- A register read: the word and the state after it. Unmapped addresses read 0 (R6). -/
def readRacing (p : Path) (a : Nat) (racing : Word) (s : State) : Word × State :=
  match findReg a with
  | none => (0, s)
  | some h => (viewReg s p a h, readEffect p a h racing s)

def readReg (p : Path) (a : Nat) (s : State) : Word × State := readRacing p a 0 s

/-- A read from an access path that is one command: it needs a path and an aligned address (R7). -/
def readCmd (p : Path) (a : Nat) (racing : Word) (s : State) : State :=
  if !s.mode.up || a % 4 != 0 then s
  else
    let r := readRacing p a racing s
    emit (.readData p a r.1) r.2

/-- The register at a is read-and-clear. -/
def isRc (a : Nat) : Bool := match findReg a with | some h => h.row.acc == .rc | none => false

/-- The register at a is the lowest word of a capture. -/
def isLowest (s : State) (a : Nat) : Bool := match findReg a with | some h => !(captureSet s a h).isEmpty | none => false

/-! ### Writes -/

def lockedOut (a : Nat) (s : State) : State := raiseReg Cause.regWriteLocked a s

/-- What follows from a configuration word: the worst-case rate (R322) and SIL_OK (R347) read the front ends' words, the
inhibit SUMP_CTRL (R220). -/
def cfgFollow (a : Nat) (s : State) : State :=
  if 0x040000 ≤ a ∧ a < 0x050000 then updateSil (updateWcr s)
  else if a = 0x006000 then inhUpdate s
  else s

/-- A configuration word takes a value; block words act only in the first phase of a native block. -/
def putCfg (a : Nat) (h : RegHit) (v : Word) (s : State) : State :=
  if 0x010000 ≤ a ∧ a < 0x020000 ∧ 0x28 ≤ a % 0x200 ∧ a % 0x200 ≤ 0x34 ∧ native s h.inst = false then s
  else cfgFollow a (setCfg a (v &&& wordN h.row.mask) s)

/-- A configuration word is written: RW at once, RWL in LOAD and SERVICE, RWS in SERVICE (R4). -/
def writeCfg (a : Nat) (h : RegHit) (v : Word) (s : State) : State :=
  match h.row.acc with
  | .rw => putCfg a h v s
  | .rwl => if s.mode = .load ∨ s.mode = .service then putCfg a h v s else lockedOut a s
  | .rws => if s.mode = .service then putCfg a h v s else lockedOut a s
  | _ => s

/-- Each 1 of v clears a bit (W1C). -/
def w1c (x : Nat) (v : Word) (w : Nat) : Nat := maskOf ((bitsOf w x).filter fun i => !v.toNat.testBit i)

def writeRtcStat (v : Word) (s : State) : State :=
  let c (i : Nat) (x : Bool) : Bool := x && !v.toNat.testBit i
  modRtc (fun r => { r with lost := c 1 r.lost, werr := c 2 r.werr, oscFail := c 3 r.oscFail, alm := c 8 r.alm, pwake := c 9 r.pwake,
                            wakePend := c 10 r.wakePend }) s

/-- INTC_AGAIN[w] is W1C. -/
def writeAgain (w : Nat) (v : Word) (s : State) : State :=
  { s with intc := { s.intc with again := s.intc.again.filter fun i => !(i / 32 == w && v.toNat.testBit (i % 32)) } }

def writeSafCmd (p : Path) (v : Word) (s : State) : State :=
  let key := BitVec.ofNat 8 (field v 24 8)
  match field v 0 4 with
  | 1 => safCmd p key (galRelease (field v 4 3)) s
  | 2 => safCmd p key devRelease s
  | 3 => safCmd p key proofStart s
  | _ => safCmd p key (refuseRelease 137 .cmd) s

def writeSeqCmd (v : Word) (s : State) : State :=
  let key := BitVec.ofNat 8 (field v 24 8)
  match field v 0 4 with
  | 1 => seqCmdGate key (orderly .ship 1) s
  | 2 => seqCmdGate key (orderly .reboot 2) s
  | 3 => seqCmdGate key hostReset s
  | 4 => seqCmdGate key clearEvt s
  | _ => seqCmdGate key seqRefused s

def writeLdrCmd (p : Path) (v : Word) (s : State) : State :=
  let key := BitVec.ofNat 8 (field v 24 8)
  match field v 0 4 with
  | 1 => ldrGate p key reload s
  | 2 => ldrGate p key (commit p (field v 4 1)) s
  | 3 => ldrGate p key abortUpd s
  | _ => ldrGate p key (updRefused none) s

def writeNvmCmd (_p : Path) (v : Word) (s : State) : State :=
  let key := BitVec.ofNat 8 (field v 24 8)
  match field v 0 4 with
  | 1 => formatStore key s
  | 2 => commitCal key s
  | 3 => defineStore key s
  | 4 => scanStore key s
  | _ => raise .fabric Cause.nvmCmdRefused 0xFF s

def writeChCmd (p : Path) (k : Nat) (v : Word) (s : State) : State :=
  match field v 0 4 with
  | 1 => chCmd p k .stop s
  | 2 => chCmd p k .pause s
  | 3 => chCmd p k .resume s
  | 4 => chGate p k (Addr.ch k 8) (clearCmd k) s
  | 5 => chCmd p k .disable s
  | 6 => chCmd p k .enable s
  | _ => chGate p k (Addr.ch k 8) (refuseCmd k) s

def writeEstCmd (p : Path) (k : Nat) (v : Word) (s : State) : State :=
  match field v 0 4 with
  | 1 => estCmd p k (estWait k) s
  | 2 => estCmd p k (klogStart k) s
  | 3 => estCmd p k (klogStop k) s
  | 4 => estCmd p k (gradeCmd k) s
  | 5 => estCmd p k (relearnCmd k) s
  | _ => estCmd p k (raise .fabric Cause.estCmdRefused k) s

/-- A write of RCP_SEL loads the selected 64 bytes into the path's window (R180). -/
def writeRcpSel (p : Path) (v : Word) (s : State) : State :=
  let w := v &&& 0x13F1F
  modShad p (fun h => { h with rcpSel := w, rcpWin := rcpSelected s w }) s

/-- A producer has a record of ring r in progress: an open N block of its front ends, or the open F record of its gallery; every
other record is made at once. -/
def recordOpen (s : State) (r : Nat) : Bool :=
  if r < 32 then openMask s r != 0 else decide (r < 40) && (s.getGal (r - 32)).f.run

/-- RING_CTRL.EN 0 is a request: BUSY until the record in progress is complete; a second one changes nothing (R295, R454). -/
def disableRing (r : Nat) (s : State) : State :=
  updateWcr (modRing r (fun g => { g with en := false, busy := if g.en then recordOpen s r else g.busy }) s)

/-- RING_CTRL: an enable during BUSY is refused with the cause of R295 (R454). -/
def writeRingCtrl (r : Nat) (v : Word) (s : State) : State :=
  if v.toNat.testBit 0 then
    (if (s.getRing r).busy then raise .fabric Cause.pzRingBad 0xFF s else updateWcr (modRing r (fun g => { g with en := true }) s))
  else disableRing r s

/-- TB_GCTRL: an enable during BUSY is refused with TCMD_GROUP_DIS (R260, R454). -/
def writeGctrl (g : Nat) (v : Word) (s : State) : State :=
  if v.toNat.testBit 0 then
    (if (s.getGrp g).busy then raise .fabric Cause.tcmdGroupDis 0xFF s else modGrp g (fun x => { x with en := true }) s)
  else disableGroup g s

/-- A host transfer is refused (R377). -/
def xferRefused (s : State) (v : Word) : Bool :=
  let addr := field v 0 7
  let image := if eeAmode s then addr == 0x50 else decide (0x50 ≤ addr) && decide (addr ≤ 0x53)
  !(s.mode == .run || s.mode == .safe || s.mode == .service) || s.twi.xst == .busy || (decide (0 < field v 8 6) && image)
    || addr == 0x58 + s.twi.addr

/-- TWI_XCTL: the fields are kept, and GO starts the transfer or is refused. NWR and NRD above 32 are refused as no
transfer the buffer can hold. -/
def startXfer (v : Word) (s : State) : State :=
  if xferRefused s v || decide (32 < field v 8 6) || decide (32 < field v 16 6) then raise .fabric Cause.twiXferRefused 0xFF s
  else
    let s1 := { s with twi := { s.twi with xctl := v &&& 0x003F3F7F, xst := .busy, xbytes := 0, xcause := 0, ctl := true, tries := 0, busBusy := true } }
    emit (.twiXfer (field v 0 7) (slice s.twi.xbuf 0 (field v 8 6)) (field v 16 6)) s1

def writeXctl (v : Word) (s : State) : State :=
  if v.toNat.testBit 31 then startXfer v s
  else if s.twi.xst = .busy then s
  else { s with twi := { s.twi with xctl := v &&& 0x003F3F7F } }

/-- Replace word j of a byte buffer. -/
def putWord (l : List Byte) (j : Nat) (v : Word) : List Byte := l.take (4 * j) ++ leBytes 4 v.toNat ++ l.drop (4 * j + 4)

/-- The effect of a write on a register that takes writes; configuration slots of channels that are not populated answer
CH_ABSENT (R26). -/
def writeHit (p : Path) (a : Nat) (h : RegHit) (v : Word) (s : State) : State :=
  let n := h.inst
  let j := h.idx
  let m := v &&& wordN h.row.mask
  match h.row.id with
  | .cfg => writeCfg a h v s
  | .devVtrim => if s.mode = .service then modFab (fun x => { x with hold := v.toNat.testBit 8 }) s else lockedOut a s
  | .seqCmd => writeSeqCmd v s
  | .tbTcsel => modTb (fun t => { t with tcSel := field v 0 8 }) s
  | .tbGmask => if j % 4 = 3 then commitMask (j / 4) v s else holdMask (j / 4) (j % 4) v s
  | .tbGctrl => writeGctrl j v s
  | .rtcSec => writeCount .sec v s
  | .rtcMin => writeCount .min v s
  | .rtcHour => writeCount .hour v s
  | .rtcDay => writeCount .day v s
  | .rtcMon => writeCount .mon v s
  | .rtcYear => writeCount .year v s
  | .rtcCtrl => writeRtcCtrl v s
  | .rtcStat => writeRtcStat v s
  | .rtcTrim => writeRtcTrim v s
  | .rtcPwake => writeRtcPwake v s
  | .rtcBram => writeBram j v s
  | .wdtCtrl => writeWdtCtrl v s
  | .wdtExp => modWdt (fun w => { w with exp := w1c w.exp v 24 }) s
  | .wdtCfg => writeWdtCfg j v s
  | .wdtServe => serve j v s
  | .intcGrp => setCfg a m s
  | .intcEoi => eoi j v s
  | .intcSrc => writeIntcSrc j v s
  | .intcAgain => writeAgain j v s
  | .intcSwset => swset v s
  | .safSigref => sigrefWrite v s
  | .safSet => writeSafetySet a m s
  | .safCmd => writeSafCmd p v s
  | .safHist => modSaf (fun f => { f with hist := w1c f.hist v 32 }) s
  | .ringCtrl => writeRingCtrl n v s
  | .sqzCfg | .sqzQ => writeSqz a m s
  | .twiXctl => writeXctl v s
  | .twiXbuf => { s with twi := { s.twi with xbuf := putWord s.twi.xbuf j v } }
  | .nvmCmd => writeNvmCmd p v s
  | .nvmWinsel => modShad p (fun x => { x with winBank := v.toNat.testBit 0 }) s
  | .accSvc => writeAccSvc (v.toNat.testBit 0) s
  | .accFcmd => fuseCmd v s
  | .accFbuf => modAcc (fun x => { x with fbuf := lset x.fbuf j v }) s
  | .ldrCmd => writeLdrCmd p v s
  | .phFltHist => modPh n (fun x => { x with fltHist := w1c x.fltHist v 7 }) s
  | .chCmd => writeChCmd p n v s
  | .chRcpArm => writeRcpArm p n v s
  | .feCal => writeFeCal a m s
  | .feFltHist => modFe n (fun x => { x with fltHist := w1c x.fltHist v 10 }) s
  | .estCmd => writeEstCmd p n v s
  | .rcpSel => writeRcpSel p v s
  | .window => match winWrite p a v s with | (some c, t) => raise .fabric c 0xFF t | (none, t) => t
  | _ => s

/-- A register of a channel slot, CH_TOPO and CH_STAT left aside (R26). -/
def slotReg (a : Nat) : Bool :=
  (decide (0x020000 ≤ a) && decide (a < 0x040000) && decide (a % 0x400 ≠ 0) && decide (a % 0x400 ≠ 4))
    || (decide (0x050000 ≤ a) && decide (a < 0x060000))

/-- A write to an aligned address from an access path. Unmapped addresses ignore it (R6). -/
def writeWord (p : Path) (a : Nat) (v : Word) (s : State) : State :=
  match findReg a with
  | none => s
  | some h =>
    let go (t : State) : State :=
      if slotReg a && !populated t h.inst then raiseA .fabric Cause.chAbsent h.inst a t else writeHit p a h v t
    if !s.mode.up then s else if h.row.id = .ldrCmd then go s else regGate a go s

/-- The causes with which a register write is discarded. -/
def refusals : List Nat :=
  [Cause.regWriteLocked, Cause.chAbsent, Cause.chCmdRefused, Cause.estCmdRefused, Cause.sqzWriteBad, Cause.safReleaseRefused,
   Cause.safcfgSig, Cause.ldrBusy, Cause.ldrSlotActive, Cause.ldrUpdRefused, Cause.twiXferRefused, Cause.seqCmdRefused, Cause.rtcWerr,
   Cause.wdtLocked, Cause.nvmRefused, Cause.nvmBusy, Cause.nvmRegionLocked, Cause.nvmCmdRefused, Cause.accRefused, Cause.accFuseUsed,
   Cause.pzRingBad, Cause.tcmdGroupDis]

/-- The refusal a write raised: the first of its new events that is one. -/
def refusalOf (s t : State) : Option Nat :=
  ((t.fab.events.drop s.fab.events.length).find? fun e => refusals.contains e.cause).map (·.cause)

/-- A write and the cause of its refusal. -/
def writeReg (p : Path) (a : Nat) (v : Word) (s : State) : Option Nat × State :=
  let t := writeWord p a v s
  (refusalOf s t, t)

/-! ### The commands -/

/-- A register write from an access path; a misaligned one is not performed (R7). -/
def execRegWrite (p : Path) (addr : Nat) (v : Word) (s : State) : Host.Outcome State Fault Refusal :=
  .next (if addr % 4 = 0 then writeWord p addr v s else s)

def execRcRead (p : Path) (addr : Nat) (racing : Word) (s : State) : Host.Outcome State Fault Refusal :=
  .next (if isRc addr then readCmd p addr racing s else s)

def execWideReadCapture (p : Path) (addr : Nat) (s : State) : Host.Outcome State Fault Refusal :=
  .next (if isLowest s addr then readCmd p addr 0 s else s)

def execLfrRead (p : Path) (n : Fin 128) (s : State) : Host.Outcome State Fault Refusal := .next (readCmd p (Addr.ph n 0x100) 0 s)

def execFeVsampRead (p : Path) (n : Fin 128) (s : State) : Host.Outcome State Fault Refusal := .next (readCmd p (Addr.fe n 0x84) 0 s)

def execTbFracRead (p : Path) (s : State) : Host.Outcome State Fault Refusal := .next (readCmd p 0x002084 0 s)

def execRcpSelWrite (p : Path) (v : Word) (s : State) : Host.Outcome State Fault Refusal :=
  .next (regGate 0x060000 (writeRcpSel p v) s)

end Sys2Proof.Machine
end

