-- ==== Sys2Proof/Machine/Perzo.lean ====
section
/-!
DEFINITION. Perzo requests (R278 to R288, R476, R371) and the rings (R289 to R295): what a message from a host does and what is
answered, and what the rings send.
-/

namespace Sys2Proof.Machine

/-! ### Sending, discarding, refusing (R279, R281, R282) -/

/-- A Perzo datagram leaves a UDP port of the device in a frame tagged with that port's PCP (R277, R290). -/
def sendUdp (port src : Nat) (mac : Option Nat) (ip udp : Nat) (m : List Byte) (s : State) : State :=
  let tag := ownTag s (if src = 51520 then pcpCtl s else pcpTel s)
  txFrame port (tagHigh tag) (frameLen (m.length + 46) tag) (.perzo port src mac ip udp tag m) s

/-- A response goes back where its request came from, from the control port (R268). -/
def pzSend (ep : Endpoint) (m : List Byte) (s : State) : State := sendUdp ep.port 51520 (some ep.mac) ep.ip ep.udp m s

/-- A Perzo datagram reaches the control port (R276, R277, R283). Nothing that a host sends is for the telemetry port. -/
def pzHeard (s : State) (ep : Endpoint) : Bool := ipHeard s ep.port ep.vid && ep.dport == 51520

/-- The session of an endpoint (R283). -/
def sessOf (s : State) (ep : Endpoint) : Option Nat :=
  (upto 4).find? fun i => match s.getSess i with | some x => x.ip == ep.ip && x.udp == ep.udp | none => false

/-- The source of a session's refusals; without a session, source 160 (R447). -/
def pzSource (i : Option Nat) : Nat := match i with | some k => 143 + k | none => 160

/-- A refusal is raised; an argument that its rule names goes with it. -/
def pzRaise (i : Option Nat) (cause : Nat) (arg : Option Nat) (s : State) : State :=
  match arg with
  | some a => raiseSrc .fabric cause 0xFF (pzSource i) 2 (leBytes 4 a) s
  | none => raiseSrc .fabric cause 0xFF (pzSource i) 0 [] s

/-- The payload of a refusal. -/
def pzRefusal (cause arg : Nat) : List Byte := leBytes 2 cause ++ [0, 0] ++ leBytes 4 arg

/-- What a request is answered with: a payload, a refusal with the argument its rule names, or an answer that starts with
a cause of its own (ACCESS); `later`: the answer comes when the request completes. -/
inductive PzAns where
  | ok (payload : List Byte) (s : State)
  | refuse (cause : Nat) (arg : Option Nat) (s : State)
  | failed (payload : List Byte) (s : State)
  | later (s : State)

/-- A response leaves and is kept by the session (R281). -/
def pzAnswer (ep : Endpoint) (i type seq flags : Nat) (payload : List Byte) (s : State) : State :=
  let m := pzMsg s type i flags seq payload
  pzSend ep m (modSess i (fun x => { x with kept := some m, busy := none }) s)

/-- The answer of an executed request. -/
def pzDone (ep : Endpoint) (i type seq : Nat) (a : PzAns) : State :=
  match a with
  | .ok p s => pzAnswer ep i type seq 1 p s
  | .refuse c arg s => pzAnswer ep i type seq 3 (pzRefusal c (arg.getD 0)) (pzRaise (some i) c arg s)
  | .failed p s => pzAnswer ep i type seq 3 p s
  | .later s => modSess i (fun x => { x with kept := none, busy := some (type, seq) }) s

/-- A kept response, sent again with DUP = 1. -/
def pzDup (m : List Byte) : List Byte :=
  withCrc32c ((m.take 5) ++ [BitVec.ofNat 8 (byteAt m 5 ||| 4)] ++ (m.drop 6).take (m.length - 10))

/-- Reserved bits of the header (R278). -/
def pzHeadOk (m : List Byte) : Bool := decide (Pz.flags m < 8) && allZero (slice m 13 3)

/-- A request of a session: discards, sequence, form, permission, effect (R279, R281 to R283). `during`: it is answered
during LOAD (R371, R373). DESIGN CHOICE (log entry 65): any other request is not, while a load is in progress. -/
def pzRequest (ep : Endpoint) (m : List Byte) (during : Bool) (form : List Byte → Bool) (least : Role)
    (f : Nat → Session → List Byte → State → PzAns) (s : State) : State :=
  if !pzHeard s ep then s
  else match sessOf s ep with
    | none => pzDiscard s
    | some i =>
      match s.getSess i with
      | none => s
      | some x =>
        if !Pz.whole m || Pz.sess m != i then pzDiscard s
        else
          let s1 := modSess i (fun y => { y with lastTk := s.tb.run }) s
          let seq := Pz.seq m
          let t := Pz.type m
          if loadRuns s = true ∧ during = false then s1
          else if x.busy.isSome then modLink (fun l => { l with nBusy := incSat 8 l.nBusy }) s1
          else if seq = x.seq then
            match x.kept with | some r => pzSend ep (pzDup r) s1 | none => s1
          else if seq ≠ (x.seq + 1) % 2 ^ 32 then
            let want := (x.seq + 1) % 2 ^ 32
            pzSend ep (pzMsg s t i 3 seq (pzRefusal Cause.pzSeq want))
              (pzRaise (some i) Cause.pzSeq (some want) (modLink (fun l => { l with nSeq := incSat 8 l.nSeq }) s1))
          else
            let s2 := modSess i (fun y => { y with seq := seq }) s1
            if !pzHeadOk m || !form (Pz.payload m) then pzDone ep i t seq (.refuse Cause.pzBad none s2)
            else if x.role.code < least.code then pzDone ep i t seq (.refuse Cause.pzNotPermitted none s2)
            else pzDone ep i t seq (f i x (Pz.payload m) s2)

/-- The access path of a session. -/
def sessPath (i : Nat) : Path := .sess (Fin.ofNat 4 i)

/-! ### Sessions (R283 to R285) -/

def helloForm (b : List Byte) : Bool :=
  b.length == 16 && decide (byteAt b 0 ≤ 2) && decide (byteAt b 1 ≤ 1) && decide (100 ≤ leAt b 2 2) && decide (leAt b 2 2 ≤ 10000)
    && allZero (slice b 14 2)

def roleOf : Nat → Role
  | 0 => .observer
  | 1 => .teller
  | _ => .controller

/-- The controller session. -/
def controllerOf (s : State) : Option Nat :=
  (upto 4).find? fun i => match s.getSess i with | some x => x.role == .controller | none => false

def freeSess (s : State) : Option Nat := (upto 4).find? fun i => (s.getSess i).isNone

/-- LINK_SESS.RTO_MS and WIN. -/
def rtoMs (s : State) : Nat := cfgF s 0x007014 0 10
def winRecs (s : State) : Nat := cfgF s 0x007014 16 8

/-- Session r becomes the owner of a reliable ring. -/
def ownRing (r i : Nat) (s : State) : State :=
  modRing r (fun g => { g with owner := some i, sendNext := g.acked, ackTk := s.tb.run, rto := rtoMs s }) s

/-- The session opens and owns its response ring; what its access path held is as from reset (R8, R523). The ARP cache covers it
(R275). -/
def openSession (ep : Endpoint) (i : Nat) (m : List Byte) (s : State) : State :=
  let b := Pz.payload m
  let x : Session := { role := roleOf (byteAt b 0), port := ep.port, hbMs := leAt b 2 2, ip := ep.ip, udp := ep.udp, telPort := leAt b 12 2,
                       hostId := leAt b 4 8, seq := Pz.seq m, lastTk := s.tb.run }
  let s0 := modLink (fun l => { l with sess := lset l.sess i (some x) }) s
  let s1 := modShad (sessPath i) (fun _ => {}) (ownRing (52 + i) i (learnArp (nextHop s ep.ip) ep.mac s0))
  let p := leBytes 6 (fuseMac s) ++ leBytes 1 (ropePos s) ++ leBytes 1 s.mode.code ++ leBytes 4 s.ldr.gen ++ leBytes 4 (s.getRing (60 + i)).next
  pzAnswer ep i 1 (Pz.seq m) 1 p s1

/-- A HELLO without a session of its own is refused. -/
def helloRefuse (ep : Endpoint) (m : List Byte) (cause : Nat) (s : State) : State :=
  pzSend ep (pzMsg s 1 0xFF 3 (Pz.seq m) (pzRefusal cause 0)) (pzRaise none cause none s)

/-- Steps 4 and 5 of R284. -/
def helloOpen (ep : Endpoint) (m : List Byte) (s : State) : State :=
  match freeSess s with
  | none => helloRefuse ep m Cause.pzNoSession s
  | some i => openSession ep i m s

/-- Step 3: at most one controller. -/
def helloRole (ep : Endpoint) (m : List Byte) (s : State) : State :=
  let b := Pz.payload m
  if byteAt b 0 ≠ 2 then helloOpen ep m s
  else match controllerOf s with
    | none => helloOpen ep m s
    | some j =>
      let same : Bool := match s.getSess j with | some y => y.hostId == leAt b 4 8 | none => false
      if byteAt b 1 = 1 ∧ same = true then helloOpen ep m (closeSession j false s) else helloRefuse ep m Cause.pzWriterBusy s

/-- A HELLO, in the order of R284; it is not answered while a load is in progress (R373). -/
def helloAct (ep : Endpoint) (m : List Byte) (s : State) : State :=
  if !pzHeard s ep then s
  else if !Pz.whole m || Pz.sess m != 0xFF then pzDiscard s
  else if loadRuns s then s
  else
    let fresh (t : State) : State := if !pzHeadOk m || !helloForm (Pz.payload m) then helloRefuse ep m Cause.pzBad t else helloRole ep m t
    match sessOf s ep with
    | none => fresh s
    | some i =>
      match s.getSess i with
      | none => s
      | some x =>
        if x.seq = Pz.seq m then
          let s1 := modSess i (fun y => { y with lastTk := s.tb.run }) s
          (match x.kept with
           | some r => pzSend ep (pzDup r) s1
           | none => modLink (fun l => { l with nBusy := incSat 8 l.nBusy }) s1)
        else fresh (closeSession i false s)

def execHello (ep : Endpoint) (msg : List Byte) (s : State) : Host.Outcome State Fault Refusal :=
  .next (if Pz.type msg = 1 then helloAct ep msg s else s)

/-- A command is the message its type names. -/
def ofType (t : Nat) (m : List Byte) (f : State → State) (s : State) : State := if Pz.type m = t then f s else s

def emptyForm (b : List Byte) : Bool := b.isEmpty

/-- BYE is answered, and closes the session. -/
def byeAct (ep : Endpoint) (m : List Byte) (s : State) : State :=
  let t := pzRequest ep m false emptyForm .observer (fun _ _ _ u => .ok [] u) s
  match sessOf s ep with
  | some i =>
    (match s.getSess i, t.getSess i with
     | some x, some y => if y.seq ≠ x.seq ∧ emptyForm (Pz.payload m) = true ∧ pzHeadOk m = true then closeSession i false t else t
     | _, _ => t)
  | none => t

def execBye (ep : Endpoint) (msg : List Byte) (s : State) : Host.Outcome State Fault Refusal := .next (ofType 2 msg (byeAct ep msg) s)

/-- HEARTBEAT: mode, time and status. -/
def heartbeatAns (s : State) : List Byte :=
  let bad := (popAll s).any fun k => (s.getCh k).st == .fault
  leBytes 1 s.mode.code ++ leBytes 1 s.tb.st.code ++ leBytes 1 s.sump.ride.code ++ leBytes 1 (b2n s.saf.safeN + 2 * b2n bad)
    ++ leBytes 4 s.tb.frac ++ leBytes 6 s.tb.sec ++ [0, 0]

def execHeartbeat (ep : Endpoint) (msg : List Byte) (s : State) : Host.Outcome State Fault Refusal :=
  .next (ofType 3 msg (pzRequest ep msg true emptyForm .observer (fun _ _ _ t => .ok (heartbeatAns t) t)) s)

/-! ### Register access (R282) -/

def readForm (b : List Byte) : Bool := b.length == 8 && decide (1 ≤ leAt b 4 2) && decide (leAt b 4 2 ≤ 256) && allZero (slice b 6 2)

/-- Read n words from an address: their bytes, and the state. -/
def readWords (p : Path) : Nat → Nat → State → List Byte × State
  | 0, _, s => ([], s)
  | n + 1, a, s =>
    let r := readReg p a s
    let q := readWords p n (a + 4) r.2
    (leBytes 4 r.1.toNat ++ q.1, q.2)

def readAns (i : Nat) (b : List Byte) (s : State) : PzAns :=
  let a := leAt b 0 4
  if a % 4 ≠ 0 then .refuse Cause.pzAlign (some a) s
  else
    let r := readWords (sessPath i) (leAt b 4 2) a s
    .ok (leBytes 4 a ++ leBytes 2 (leAt b 4 2) ++ [0, 0] ++ r.1) r.2

def execRead (ep : Endpoint) (msg : List Byte) (s : State) : Host.Outcome State Fault Refusal :=
  .next (ofType 0x10 msg (pzRequest ep msg true readForm .observer (fun i _ b t => readAns i b t)) s)

def writeForm (b : List Byte) : Bool :=
  decide (8 ≤ b.length) && decide (1 ≤ leAt b 4 2) && decide (leAt b 4 2 ≤ 64) && allZero (slice b 6 2) && b.length == 8 + 4 * leAt b 4 2

/-- Write words in ascending order until one is refused: words taken, cause, state. -/
def writeWords (p : Path) : List Word → Nat → Nat → State → Nat × Nat × State
  | [], _, done, s => (done, 0, s)
  | v :: l, a, done, s =>
    match writeReg p a v s with
    | (some c, t) => (done, c, t)
    | (none, t) => writeWords p l (a + 4) (done + 1) t

def writeAns (i : Nat) (b : List Byte) (s : State) : PzAns :=
  let a := leAt b 0 4
  if a % 4 ≠ 0 then .refuse Cause.pzAlign (some a) s
  else
    let r := writeWords (sessPath i) (leWords (b.drop 8) (leAt b 4 2)) a 0 s
    .ok (leBytes 4 a ++ leBytes 2 r.1 ++ leBytes 2 r.2.1) r.2.2

def execWrite (ep : Endpoint) (msg : List Byte) (s : State) : Host.Outcome State Fault Refusal :=
  .next (ofType 0x11 msg (pzRequest ep msg false writeForm .controller (fun i _ b t => writeAns i b t)) s)

/-! ### Told facts (R286, R287) -/

/-- The outcome of the entries of a told message: counts, the first cause, the refused channels. -/
structure ToldRes where
  ok : Nat := 0
  ref : Nat := 0
  cause : Nat := 0
  mask : Nat := 0
  st : State

def toldAns (r : ToldRes) : PzAns :=
  .ok (leBytes 2 r.ok ++ leBytes 2 r.ref ++ leBytes 2 r.cause ++ [0, 0] ++ leBytes 16 r.mask) r.st

/-- One entry: refused with a cause for a channel, or taken. -/
def toldEntry (i k : Nat) (why : Option Nat) (take : State → State) (r : ToldRes) : ToldRes :=
  match why with
  | none => { r with ok := r.ok + 1, st := take r.st }
  | some c =>
    { r with ref := r.ref + 1, cause := if r.cause = 0 then c else r.cause, mask := if k < 128 then setBitN r.mask k true else r.mask,
             st := if k < 128 then raiseSrc .fabric c k k 0 [] r.st else pzRaise (some i) c none r.st }

/-- Entries of n bytes after the 4-byte head, folded in order. -/
def toldFold (b : List Byte) (n count : Nat) (f : List Byte → ToldRes → ToldRes) (s : State) : ToldRes :=
  (upto count).foldl (fun r j => f (slice b (4 + n * j) n) r) { st := s }

/-- A told list: N, two reserved bytes, N entries with their reserved bits. -/
def listForm (n most : Nat) (entry : List Byte → Bool) (b : List Byte) : Bool :=
  decide (4 ≤ b.length) && decide (1 ≤ leAt b 0 2) && decide (leAt b 0 2 ≤ most) && allZero (slice b 2 2) && b.length == 4 + n * leAt b 0 2
    && (upto (leAt b 0 2)).all fun j => entry (slice b (4 + n * j) n)

/-- Age of a told value at acceptance, in units of 2^-32 s (R286): TB_SEC_LO names the TB_SEC nearest the device's own. -/
def ageU (s : State) (untimed : Bool) (frac secLo : Nat) : Int :=
  if untimed || !s.tb.trace then (cfgF s 0x00701C 0 14 : Int) * 2 ^ 32 / 1000
  else signN 32 (wrapN 32 ((s.tb.sec : Int) - secLo)) * 2 ^ 32 + ((s.tb.frac : Int) - frac)

/-- The take time of a value of an age: acceptance run time less the age. -/
def takeTk (s : State) (age : Int) : Int := (s.tb.run : Int) - floorD age (2 ^ 19)

/-- Why a value of an age is refused against the value in force (R286). -/
def ageRefused (s : State) (age : Int) (now : Option Int) : Option Nat :=
  if age * 1000 < -(2 ^ 32) then some Cause.pzToldFuture
  else match now with
    | some t => if takeTk s age ≤ t then some Cause.pzToldOld else none
    | none => none

/-- Why a channel of an entry is refused (R26). -/
def slotRefused (s : State) (k : Nat) : Option Nat := if decide (k < 128) && populated s k then none else some Cause.chAbsent

def tempEntry (i : Nat) (e : List Byte) (r : ToldRes) : ToldRes :=
  let s := r.st
  let k := byteAt e 0
  let t := leAtS e 2 2
  let age := ageU s (bitN (byteAt e 1) 0) (leAt e 4 4) (leAt e 8 4)
  let why := match slotRefused s k with
    | some c => some c
    | none => if t < -4000 ∨ 15000 < t then some Cause.thmTRange else ageRefused s age ((s.getTold k).t.map (·.2))
  toldEntry i k why (takeTold k t (takeTk s age)) r

def tempAns (i : Nat) (b : List Byte) (s : State) : PzAns := toldAns (toldFold b 12 (leAt b 0 2) (tempEntry i) s)

def execToldTemp (ep : Endpoint) (msg : List Byte) (s : State) : Host.Outcome State Fault Refusal :=
  .next (ofType 0x20 msg (pzRequest ep msg false (listForm 12 120 fun e => decide (byteAt e 1 ≤ 1)) .teller (fun i _ b t => tempAns i b t)) s)

/-- A told presence; an active channel whose fixture is told absent goes to LOST at the next launch tick (R136). -/
def tellFixture (k : Nat) (there : Bool) (s : State) : State :=
  modCh k (fun c =>
    if !there && c.st.active then { c with told := some there, toldLoss := true, lostNext := true } else { c with told := some there }) s

def fixtureAns (i : Nat) (b : List Byte) (s : State) : PzAns :=
  let valid := leAt b 0 16
  let there := leAt b 16 16
  toldAns ((bitsOf 128 valid).foldl (fun r k => toldEntry i k (slotRefused r.st k) (tellFixture k (there.testBit k)) r) { st := s })

def execToldFixture (ep : Endpoint) (msg : List Byte) (s : State) : Host.Outcome State Fault Refusal :=
  .next (ofType 0x21 msg (pzRequest ep msg false (fun b => b.length == 32) .teller (fun i _ b t => fixtureAns i b t)) s)

def budgetForm (b : List Byte) : Bool :=
  b.length == 16 && decide (leAt b 0 4 ≤ 100000000) && decide (byteAt b 4 ≤ 1) && allZero (slice b 5 3)

/-- TOLD_BUDGET (R228, R286): it reports through N_OK and CAUSE alone (R280). -/
def budgetAns (i : Nat) (b : List Byte) (s : State) : PzAns :=
  let age := ageU s (bitN (byteAt b 4) 0) (leAt b 8 4) (leAt b 12 4)
  toldAns { toldEntry i 0xFF (ageRefused s age (s.sump.told.map (·.2)))
    (modSump (fun x => { x with told := some (leAt b 0 4, takeTk s age), stale := false })) { st := s } with ref := 0 }

def execToldBudget (ep : Endpoint) (msg : List Byte) (s : State) : Host.Outcome State Fault Refusal :=
  .next (ofType 0x22 msg (pzRequest ep msg false budgetForm .controller (fun i _ b t => budgetAns i b t)) s)

def execToldInhibit (ep : Endpoint) (msg : List Byte) (s : State) : Host.Outcome State Fault Refusal :=
  .next (ofType 0x23 msg (pzRequest ep msg false (fun b => b.length == 4 && decide (byteAt b 0 ≤ 1) && allZero (slice b 1 3)) .controller
    (fun _ _ b t => toldAns { ok := 1, st := tellInhibit (byteAt b 0 == 1) t })) s)

def cellEntry (i : Nat) (e : List Byte) (r : ToldRes) : ToldRes :=
  let k := byteAt e 0
  toldEntry i k (slotRefused r.st k) (tellCell k (leAt e 4 8)) r

def execToldCellId (ep : Endpoint) (msg : List Byte) (s : State) : Host.Outcome State Fault Refusal :=
  .next (ofType 0x24 msg (pzRequest ep msg false (listForm 12 120 fun e => allZero (slice e 1 3)) .controller
    (fun i _ b t => toldAns (toldFold b 12 (leAt b 0 2) (cellEntry i) t))) s)

/-- An EXT_SETPOINT entry (R288). -/
def extEntry (i : Nat) (e : List Byte) (r : ToldRes) : ToldRes :=
  let s := r.st
  let k := byteAt e 0
  let mode := SpMode.ofCode (byteAt e 1)
  let why := match slotRefused s k with
    | some c => some c
    | none => if (s.getCh k).rcp.isOpen && Stp.type (openStep s k) == StepT.ext && spLegal s k mode (leAt e 4 4) (leAt e 12 4) (leAt e 16 4) then none else some Cause.chCmdRefused
  let sp := mkSp s k mode (byteAt e 2 == 1) (leAt e 4 4) (leAt e 8 4) (leAt e 12 4) (leAt e 16 4) (leAt e 20 4)
  toldEntry i k why (modCh k fun c => { c with cmds := c.cmds ++ [(.host, sp, s.tb.run)] }) r

def execExtSetpoint (ep : Endpoint) (msg : List Byte) (s : State) : Host.Outcome State Fault Refusal :=
  .next (ofType 0x30 msg (pzRequest ep msg false
    (listForm 24 60 fun e => decide (byteAt e 1 ≤ 3) && decide (byteAt e 2 ≤ 1) && byteAt e 3 == 0) .controller
    (fun i _ b t => toldAns (toldFold b 24 (leAt b 0 2) (extEntry i) t))) s)

/-! ### Subscriptions (R291, R293) -/

def linkTel (s : State) : Nat := cfgN s 0x007018

/-- A subscription to ring r is granted, and what it changes; none: not granted. -/
def subscribe (i r : Nat) (stream own : Bool) (x : Session) (s : State) : Option State :=
  let g := s.getRing r
  let plain := modSess i (fun y => { y with subs := setBitN y.subs r true }) s
  match ringKind r with
  | 0 =>
    if !stream then some plain
    else if linkTel s ≠ 0 ∨ g.stream.isSome = true ∨ x.telPort = 0 then none
    else some (modRing r (fun y => { y with stream := some i, sendNext := y.next }) plain)
  | 1 =>
    if !own then some plain
    else if g.owner = some i then some plain
    else if g.owner.isSome = true ∨ (52 ≤ r ∧ r < 56 ∧ r ≠ 52 + i) then none
    else some (ownRing r i plain)
  | _ => none

def unsubscribe (i r : Nat) (s : State) : State :=
  modRing r (fun g => { g with stream := if g.stream = some i then none else g.stream,
                               owner := if g.owner = some i ∧ r ≠ 52 + i then none else g.owner })
    (modSess i (fun y => { y with subs := setBitN y.subs r false }) s)

def subAns (i : Nat) (x : Session) (b : List Byte) (s : State) : PzAns :=
  let rings := bitsOf 64 (leAt b 0 8)
  let fl := byteAt b 9
  if byteAt b 8 = 0 then .ok (leBytes 8 (leAt b 0 8)) (forEach rings (unsubscribe i) s)
  else
    let q := rings.foldl (fun (a : Nat × State) r =>
      match subscribe i r (bitN fl 0) (bitN fl 1) x a.2 with
      | some t => (setBitN a.1 r true, t)
      | none => a) (0, s)
    .ok (leBytes 8 q.1) q.2

def execRingSub (ep : Endpoint) (msg : List Byte) (s : State) : Host.Outcome State Fault Refusal :=
  .next (ofType 0x40 msg (pzRequest ep msg false
    (fun b => b.length == 12 && decide (byteAt b 8 ≤ 1) && decide (byteAt b 9 ≤ 3) && allZero (slice b 10 2)) .observer
    (fun i x b t => subAns i x b t)) s)

/-- Distance of RSNs modulo 2^32. -/
def rsnGap (lo hi : Nat) : Nat := (((hi : Int) - lo) % 4294967296).toNat

/-- An RSN lies before another, modulo 2^32. -/
def rsnBefore (x y : Nat) : Bool := decide (0 < rsnGap x y) && decide (rsnGap x y < 2 ^ 31)

/-- The acknowledged point moves and the records before it are freed (R291). -/
def ackRing (r a : Nat) (s : State) : State :=
  modRing r (fun g =>
    if g.acked = a then g
    else { g with recs := g.recs.filter (fun x => decide (rsnGap g.acked a ≤ rsnGap g.acked x.rsn)), acked := a,
                  sendNext := if rsnGap g.acked g.sendNext < rsnGap g.acked a then a else g.sendNext,
                  ackTk := s.tb.run, rto := rtoMs s }) s

/-- A RING_ACK of the form R280 gives, its reserved bits 0. -/
def ackForm (b : List Byte) : Bool := b.length == 8 && allZero (slice b 1 3)

/-- RING_ACK is not answered: it is discarded, refused with PZ_BAD where it is malformed (R279), ignored and counted, or taken. -/
def ackAct (ep : Endpoint) (m : List Byte) (s : State) : State :=
  if !pzHeard s ep then s
  else match sessOf s ep with
    | none => pzDiscard s
    | some i =>
      if !Pz.whole m || Pz.sess m != i then pzDiscard s
      else
        let b := Pz.payload m
        let s1 := modSess i (fun y => { y with lastTk := s.tb.run }) s
        let r := byteAt b 0
        let g := s.getRing r
        let good := decide (r < 64) && ringKind r == 1 && g.owner == some i && decide (rsnGap g.acked (leAt b 4 4) ≤ rsnGap g.acked g.next)
        if !pzHeadOk m || !ackForm b then
          pzSend ep (pzMsg s1 0x42 i 3 (Pz.seq m) (pzRefusal Cause.pzBad 0)) (pzRaise (some i) Cause.pzBad none s1)
        else if good then ackRing r (leAt b 4 4) s1 else modLink (fun l => { l with nAck := incSat 8 l.nAck }) s1

def execRingAck (ep : Endpoint) (msg : List Byte) (s : State) : Host.Outcome State Fault Refusal := .next (ofType 0x42 msg (ackAct ep msg) s)

/-- RING_REPLAY (R293). DESIGN CHOICE (log entry 84): R280 gives the answer no CAUSE; that of a replay which starts later than asked
carries PZ_REPLAY_GONE, and two bytes of 0, after its fields. -/
def replayAns (i : Nat) (x : Session) (b : List Byte) (s : State) : PzAns :=
  let r := byteAt b 0
  let g := s.getRing r
  if 64 ≤ r ∨ ringKind r ≠ 0 then .refuse Cause.pzRingBad none s
  else
    let old := ringOldest g
    let gone := rsnBefore (leAt b 4 4) old
    let from_ := if gone then old else leAt b 4 4
    let held := if rsnGap old from_ ≤ rsnGap old g.next then rsnGap from_ g.next else 0
    let n := if x.telPort = 0 then 0 else Nat.min (leAt b 8 4) held
    .ok (leBytes 4 old ++ leBytes 4 g.next ++ leBytes 4 n ++ (if gone then leBytes 2 Cause.pzReplayGone ++ [0, 0] else []))
      (modSess i (fun y => { y with replay := if n = 0 then none else some (r, from_, n) }) s)

def execRingReplay (ep : Endpoint) (msg : List Byte) (s : State) : Host.Outcome State Fault Refusal :=
  .next (ofType 0x43 msg (pzRequest ep msg false (fun b => b.length == 12 && allZero (slice b 1 3)) .observer (fun i x b t => replayAns i x b t)) s)

def pushForm (b : List Byte) : Bool :=
  decide (8 ≤ b.length) && decide (1 ≤ byteAt b 1) && decide (byteAt b 1 ≤ 22) && allZero (slice b 2 2) && b.length == 8 + 64 * byteAt b 1

/-- One record of a RING_PUSH: a duplicate is skipped, one without room is not stored. -/
def pushOne (r rsn : Nat) (rec_ : List Byte) (s : State) : State :=
  let g := s.getRing r
  if g.next = rsn ∧ ringUsed g + 64 ≤ ringSize s r then ringPush r rec_ s else s

def pushAns (i : Nat) (b : List Byte) (s : State) : PzAns :=
  let r := byteAt b 0
  let first := leAt b 4 4
  if r ≠ 60 + i ∨ (s.getRing r).en = false then .refuse Cause.pzRingBad none s
  else if rsnBefore (s.getRing r).next first then .refuse Cause.pzPushGap (some (s.getRing r).next) s
  else
    let t := forEach (upto (byteAt b 1)) (fun j u => pushOne r ((first + j) % 2 ^ 32) (slice b (8 + 64 * j) 64) u) s
    .ok (leBytes 4 (t.getRing r).next ++ leBytes 4 ((ringSize t r - ringUsed (t.getRing r)) / 64)) t

def execRingPush (ep : Endpoint) (msg : List Byte) (s : State) : Host.Outcome State Fault Refusal :=
  .next (ofType 0x44 msg (pzRequest ep msg false pushForm .controller (fun i _ b t => pushAns i b t)) s)

/-- The device takes the oldest record of an input ring: one that no kind of command can be is judged at once (R294). -/
def execInputRingConsume (ses : Fin 4) (s : State) : Host.Outcome State Fault Refusal :=
  match (s.getRing (60 + ses.val)).recs with
  | [] => .next s
  | x :: rest =>
    if s.mode.up then
      let s1 := modRing (60 + ses.val) (fun g => { g with recs := rest, acked := (x.rsn + 1) % 2 ^ 32 }) s
      if 1 ≤ Tc.kind x.bytes ∧ Tc.kind x.bytes ≤ 6 then .next (modTb (fun t => { t with tcIn := t.tcIn ++ [(ses.val, x.rsn, x.bytes)] }) s1)
      else .next (tcJudge ses x.rsn x.bytes s1)
    else .next s

/-! ### Sending the rings (R290 to R293, R297) -/

/-- A record as RING_DATA carries it: its length, and padded to a multiple of 4. -/
def dataRec (b : List Byte) : List Byte := leBytes 2 b.length ++ [0, 0] ++ b ++ List.replicate ((4 - b.length % 4) % 4) 0

/-- As many records as fit a payload of `room` bytes, at most n. -/
def fitRecs (room : Nat) : Nat → List RingRec → List RingRec
  | 0, _ => []
  | _, [] => []
  | n + 1, x :: l =>
    let k := (dataRec x.bytes).length
    if k ≤ room then x :: fitRecs (room - k) n l else []

/-- The payload of a RING_DATA. -/
def dataMsg (g : Ring) (r flags : Nat) (l : List RingRec) : List Byte :=
  leBytes 1 r ++ leBytes 1 flags ++ leBytes 2 l.length ++ leBytes 4 ((l.map (·.rsn)).headD 0) ++ leBytes 4 g.drop ++ [0, 0, 0, 0]
    ++ l.flatMap fun x => dataRec x.bytes

/-- Bytes on the wire of a message with this payload (R322). -/
def wireBytes (payload : List Byte) : Nat := payload.length + 90

/-- Records of a ring from an RSN on. -/
def recsFrom (g : Ring) (from_ : Nat) : List RingRec := g.recs.filter fun x => decide (rsnGap from_ x.rsn < 2 ^ 31)

/-- A RING_DATA to a session: from the telemetry port to its TEL_PORT (`tel`), or from the control port to its endpoint (R290). -/
def sendData (i : Nat) (tel : Bool) (r flags : Nat) (l : List RingRec) (s : State) : State :=
  match s.getSess i with
  | some x =>
    if linkUp s x.port then
      sendUdp x.port (if tel then 51521 else 51520) (hopMac s x.ip) x.ip (if tel then x.telPort else x.udp)
        (pzMsg s 0x41 i 0 0 (dataMsg (s.getRing r) r flags l)) s
    else s
  | none => s

/-- A reliable ring sends to its owner what its window allows; a record that goes out for the first time goes to the other
subscribers as well. -/
def sendReliable (r : Nat) (s : State) : State :=
  let g := s.getRing r
  match g.owner with
  | none => s
  | some i =>
    let l := fitRecs (1452 - 16) (winRecs s - rsnGap g.acked g.sendNext) (recsFrom g g.sendNext)
    match l.getLast? with
    | none => s
    | some z =>
      let next := (z.rsn + 1) % 2 ^ 32
      let fresh := l.filter fun x => !x.sent
      let s1 := sendData i false r 0 l s
      let others := (upto 4).filter fun j => j != i && (match s.getSess j with | some y => bitN y.subs r | none => false)
      let s2 := if fresh.isEmpty then s1 else forEach others (fun j t => sendData j false r 0 fresh t) s1
      modRing r (fun y => { y with recs := y.recs.map (fun q => if decide (rsnGap y.acked q.rsn < rsnGap y.acked next) then { q with sent := true } else q),
                                   sendNext := next, ackTk := if y.sendNext = y.acked then s.tb.run else y.ackTk }) s2

/-- The pacing of the telemetry port leaves room for a frame in the present second (R297). -/
def mayPace (s : State) (bytes : Nat) : Bool := decide ((s.link.rateNow + bytes) * 8 ≤ s.link.wcr * 1000)

def paced (bytes : Nat) (s : State) : State := modLink (fun l => { l with rateNow := l.rateNow + bytes }) s

/-- A telemetry ring streams each record once: to the group of LINK_TEL, or to the TEL_PORT of its stream session. -/
def sendStream (r : Nat) (s : State) : State :=
  let g := s.getRing r
  let l := fitRecs (1452 - 16) 65535 (recsFrom g g.sendNext)
  match l.getLast? with
  | none => s
  | some z =>
    let m := dataMsg g r 0 l
    let sent := modRing r (fun y => { y with sendNext := (z.rsn + 1) % 2 ^ 32 })
    if !mayPace s (wireBytes m) then s
    else if linkTel s ≠ 0 then
      let ports := [0, 1].filter (linkUp s)
      if ports.isEmpty then s
      else paced (wireBytes m) (sent (forEach ports (fun p t => sendUdp p 51521 (hopMac s (linkTel s)) (linkTel s) 51521 (pzMsg t 0x41 0xFF 0 0 m) t) s))
    else match g.stream with
      | some i => paced (wireBytes m) (sent (sendData i true r 0 l s))
      | none => s

/-- A replay of the ring goes on with the rate that is left. -/
def sendReplay (r i : Nat) (s : State) : State :=
  match s.getSess i with
  | some x =>
    match x.replay with
    | some (q, from_, left) =>
      if q ≠ r then s
      else
        let g := s.getRing r
        let start := if rsnBefore from_ (ringOldest g) then ringOldest g else from_
        let l := fitRecs (1452 - 16) left (recsFrom g start)
        match l.getLast? with
        | none => modSess i (fun y => { y with replay := none }) s
        | some z =>
          let n := wireBytes (dataMsg g r 1 l)
          if !mayPace s n then s
          else
            let rest := left - l.length
            paced n (modSess i (fun y => { y with replay := if rest = 0 then none else some (r, (z.rsn + 1) % 2 ^ 32, rest) })
              (sendData i true r 1 l s))
    | none => s
  | none => s

/-- Ring r sends what it may. -/
def execRingDataSend (r : Fin 64) (s : State) : Host.Outcome State Fault Refusal :=
  if !linkRuns s || s.link.ipNow = 0 then .next s
  else match ringKind r with
    | 0 => .next (forEach (upto 4) (sendReplay r) (sendStream r s))
    | 1 => .next (sendReliable r s)
    | _ => .next s

/-- RTO without progress: one message from the acknowledged point, and the wait doubles (R291). -/
def execRingRetransmit (r : Fin 64) (s : State) : Host.Outcome State Fault Refusal :=
  let g := s.getRing r
  match g.owner with
  | some i =>
    if linkRuns s && ringKind r == 1 && g.sendNext != g.acked && decide (msTk g.rto ≤ since s g.ackTk) then
      let l := fitRecs (1452 - 16) (rsnGap g.acked g.sendNext) (recsFrom g g.acked)
      .next (modRing r (fun y => { y with retx := addSat 32 y.retx l.length, rto := Nat.min (2 * y.rto) 1000, ackTk := s.tb.run })
        (sendData i false r 2 l s))
    else .next s
  | none => .next s

def execRingDisable (_p : Path) (r : Fin 64) (s : State) : Host.Outcome State Fault Refusal :=
  .next (regGate (0x008004 + 0x40 * r.val) (disableRing r) s)

/-! ### ACCESS (R476) -/

/-- The answer of an operation: its cause, the back-off remaining, its fields. -/
def accAns (a : AccAns) : PzAns :=
  let p := leBytes 2 a.cause ++ [0, 0] ++ leBytes 4 (backoffS a.st) ++ a.data
  if a.cause = 0 then .ok p a.st else .failed p a.st

/-- An ACCESS message of an operation with n bytes of data; `service`: it needs SERVICE. -/
def accessOp (op n : Nat) (reserved : List Byte → Bool) (least : Role) (service : Bool) (f : Nat → List Byte → State → AccAns)
    (ep : Endpoint) (m : List Byte) (s : State) : State :=
  if Pz.type m ≠ 0x60 ∨ byteAt (Pz.payload m) 0 ≠ op then s
  else pzRequest ep m false (fun b => b.length == 4 + n && allZero (slice b 1 3) && reserved (b.drop 4)) least
    (fun i _ b t => if service && t.mode != .service then .refuse Cause.pzNotPermitted none t else accAns (f i (b.drop 4) t)) s

def anyData (_ : List Byte) : Bool := true

/-- REGION, or OPEN, and three reserved bytes. -/
def headData (d : List Byte) : Bool := allZero (slice d 1 3)

def execChallenge (ep : Endpoint) (msg : List Byte) (s : State) : Host.Outcome State Fault Refusal :=
  .next (accessOp 1 0 anyData .controller false (fun i _ t => accChallenge i t) ep msg s)
def execUnlockHmac (ep : Endpoint) (msg : List Byte) (s : State) : Host.Outcome State Fault Refusal :=
  .next (accessOp 2 32 anyData .controller false (fun i d t => accUnlockHmac i d t) ep msg s)
def execUnlockPwd (ep : Endpoint) (msg : List Byte) (s : State) : Host.Outcome State Fault Refusal :=
  .next (accessOp 3 32 anyData .controller false (fun i d t => accUnlockPwd i d t) ep msg s)
def execEnter (ep : Endpoint) (msg : List Byte) (s : State) : Host.Outcome State Fault Refusal :=
  .next (accessOp 4 0 anyData .controller false (fun i _ t => accEnter i t) ep msg s)
def execExit (ep : Endpoint) (msg : List Byte) (s : State) : Host.Outcome State Fault Refusal :=
  .next (accessOp 5 0 anyData .controller true (fun _ _ t => accExit t) ep msg s)
def execRegionUnlock (ep : Endpoint) (msg : List Byte) (s : State) : Host.Outcome State Fault Refusal :=
  .next (accessOp 6 36 headData .observer false (fun i d t => accRegionUnlock i (byteAt d 0) (d.drop 4) t) ep msg s)
def execRegionLock (ep : Endpoint) (msg : List Byte) (s : State) : Host.Outcome State Fault Refusal :=
  .next (accessOp 7 4 headData .observer false (fun i d t => accRegionLock i (byteAt d 0) t) ep msg s)
def execRegionPwd (ep : Endpoint) (msg : List Byte) (s : State) : Host.Outcome State Fault Refusal :=
  .next (accessOp 8 36 headData .controller true (fun _ d t => accRegionPwd (byteAt d 0) (d.drop 4) t) ep msg s)
def execTap (ep : Endpoint) (msg : List Byte) (s : State) : Host.Outcome State Fault Refusal :=
  .next (accessOp 9 4 (fun d => headData d && decide (byteAt d 0 ≤ 1)) .controller true (fun i d t => accTap i (byteAt d 0 == 1) t) ep msg s)

/-! ### IMAGE_BLOCK (R371) -/

def blockForm (b : List Byte) : Bool :=
  decide (12 ≤ b.length) && decide (b.length ≤ 1032) && decide (byteAt b 0 ≤ 1) && allZero (slice b 1 3) && leAt b 4 4 % 4 == 0

/-- Why a block is refused. REST, in which R371 accepts none and names no cause, answers as LOAD (log entry 86). -/
def blockRefused (s : State) (i slot off n : Nat) : Option Nat :=
  if s.mode = .load ∨ s.mode = .rest then some Cause.ldrBusy
  else if s.ldr.gen ≠ 0 ∧ slot = s.ldr.slot then some Cause.ldrSlotActive
  else if 131072 < off + n then some Cause.ldrUpdRange
  else match s.ldr.upd with
    | some u => if u.sess = i then none else some Cause.ldrUpdBusy
    | none => none

/-- Page writes of bytes from an EEPROM address, split at page bounds. -/
def pagesOf (page : Nat) : Nat → Nat → List Byte → List (Nat × List Byte)
  | 0, _, _ => []
  | _, _, [] => []
  | f + 1, a, b =>
    let n := page - a % page
    (a, b.take n) :: pagesOf page f (a + n) (b.drop n)

/-- Bytes at offsets 0 to 63 are held. -/
def holdBytes (off : Nat) (d : List Byte) (held : List (Option Byte)) : List (Option Byte) :=
  (held.zip (upto 64)).map fun x => if off ≤ x.2 ∧ x.2 < off + d.length then d[x.2 - off]? else x.1

/-- The update of a block: the open one, or a new one whose first write voids the slot's MAGIC. -/
def blockAct (i slot off : Nat) (d : List Byte) (s : State) : State × Bool :=
  let base := slot * 0x20000
  let u0 : Update := { sess := i, slot := slot, held := List.replicate 64 none, high := 0, pages := [], block := none }
  let cur := match s.ldr.upd with | some u => if u.slot = slot then some u else none | none => none
  let u := cur.getD u0
  let void := if cur.isSome then [] else [(base, ([0, 0, 0, 0] : List Byte))]
  let skip := 64 - off
  let pages := void ++ pagesOf (eePage s) 64 (base + off + skip) (d.drop skip)
  let u1 := { u with held := holdBytes off d u.held, high := Nat.max u.high (off + d.length), pages := pages, block := some (off, d.length) }
  let s1 := modLdr (fun l => { l with upd := some u1, genAlt := if cur.isSome then l.genAlt else 0 }) s
  match pages with
  | [] => (s1, true)
  | (a, b) :: _ => (emit (.eepromWrite a b) s1, false)

def blockAns (i : Nat) (b : List Byte) (s : State) : PzAns :=
  let slot := byteAt b 0
  let off := leAt b 4 4
  let d := b.drop 8
  match blockRefused s i slot off d.length with
  | some c => .refuse c none (modLdr (fun l => { l with nRef := incSat 8 l.nRef }) s)
  | none =>
    match blockAct i slot off d s with
    | (t, true) => .ok (leBytes 4 off ++ leBytes 4 d.length) t
    | (t, false) => .later t

def execImageBlock (ep : Endpoint) (msg : List Byte) (s : State) : Host.Outcome State Fault Refusal :=
  .next (ofType 0x61 msg (pzRequest ep msg true blockForm .controller (fun i _ b t => blockAns i b t)) s)

/-- The answer of the block in progress goes to its session. -/
def blockEnd (u : Update) (a : State → PzAns) (s : State) : State :=
  match s.getSess u.sess with
  | some x =>
    match x.busy with
    | some (type, seq) =>
      pzDone { port := Fin.ofNat 2 x.port, ip := x.ip, udp := x.udp, dport := 51520, mac := (hopMac s x.ip).getD 0, vid := none } u.sess type seq (a s)
    | none => s
  | none => s

/-- The page writes of the block in progress fail with a cause: the block is answered with it. -/
def pagesFail (cause : Nat) (s : State) : State :=
  match s.ldr.upd with
  | some u =>
    if u.pages.isEmpty then s
    else blockEnd u (fun t => .refuse cause none t) (modLdr (fun l => { l with upd := some { u with pages := [], block := none } }) s)
  | none => s

/-- A page write is confirmed, or has not been acknowledged within POLL_MS (R376). -/
def execEepromPageWriteDone (ok : Bool) (s : State) : Host.Outcome State Fault Refusal :=
  match s.ldr.upd with
  | some u =>
    if !s.mode.up then .next s
    else match u.pages with
      | [] => .next s
      | _ :: rest =>
        let s := nacksSeen (10 * cfgF s 0x00A008 16 8) s
        if !ok then .next (pagesFail Cause.twiNack (raise .fabric Cause.twiNack 0xFF s))
        else
          match rest with
          | (a, b) :: _ => .next (emit (.eepromWrite a b) (modLdr (fun l => { l with upd := some { u with pages := rest } }) s))
          | [] =>
            let blk := u.block.getD (0, 0)
            .next (blockEnd u (fun t => .ok (leBytes 4 blk.1 ++ leBytes 4 blk.2) t)
              (modLdr (fun l => { l with upd := some { u with pages := [], block := none } }) s))
  | none => .next s

/-! ### Frames (R268, R279) -/

/-- The message types, and the ACCESS operations, that have a command of their own. -/
def pzKnown (m : List Byte) : Bool :=
  [1, 2, 3, 0x10, 0x11, 0x20, 0x21, 0x22, 0x23, 0x24, 0x30, 0x40, 0x42, 0x43, 0x44, 0x61].contains (Pz.type m)
    || (Pz.type m == 0x60 && decide (1 ≤ byteAt (Pz.payload m) 0) && decide (byteAt (Pz.payload m) 0 ≤ 9))

/-- A type that the device alone sends. -/
def pzDeviceType (t : Nat) : Bool := t == 0x41 || t == 0x50

/-- A Perzo datagram of a frame: a message that fails the checks is discarded and counted, one of an unknown type refused; the
others are commands of their own. -/
def pzFrame (ep : Endpoint) (m : List Byte) (s : State) : State :=
  if !pzHeard s ep then s
  else if !Pz.whole m then pzDiscard s
  else if pzKnown m then s
  else pzRequest ep m false (fun _ => pzDeviceType (Pz.type m)) .observer (fun _ _ _ t => .refuse Cause.pzNotPermitted none t) s

def execFrameIngress (port : Fin 2) (f : Frame) (s : State) : Host.Outcome State Fault Refusal :=
  if !linkUp s port then .next s
  else
    let s1 := ingressFrame port f s
    let here := (f.dst == .own || f.dst == .group) && f.fcsOk && decide (f.len ≤ 1522)
    match f.kind with
    | .perzo ep m => .next (if here then pzFrame { ep with port := port, vid := f.tag.map (·.1) } m s1 else s1)
    | _ => .next s1

end Sys2Proof.Machine
end

