-- ==== Sys2Proof/Machine/Twi.lean ====
section
/-!
DEFINITION. The two-wire bus (R375 to R381): the host transfer to a fixture memory, arbitration, a stuck bus, and the target
that gives register access.
-/

namespace Sys2Proof.Machine

def modTwi (f : Twi → Twi) (s : State) : State := { s with twi := f s.twi }

def twiRetryMax (s : State) : Nat := cfgF s 0x00A008 8 4

/-- A STOP and TBUF leave both lines high and the bus free (R378). -/
def busFree (t : Twi) : Twi := { t with busBusy := false, scl := true, sda := true }

/-! ### The host transfer (R377) -/

/-- TWI_XCTL written with GO. -/
def execTwiXferStart (_p : Path) (v : Word) (s : State) : Host.Outcome State Fault Refusal :=
  .next (if v.toNat.testBit 31 then regGate 0x00A100 (writeXctl v) s else s)

/-- The transfer in progress ends. -/
def xferEnd (st : XferSt) (bytes cause : Nat) (t : Twi) : Twi :=
  { busFree t with xst := st, xbytes := bytes, xcause := cause, ctl := false, retry := false }

def xferFails (cause bytes : Nat) (s : State) : State := raise .fabric cause 0xFF (modTwi (xferEnd .failed bytes cause) s)

/-- The transfer's outcome: TWI_XSTAT reports it, the bytes read stand in TWI_XBUF; a NACK is reported after RETRY attempts
(R376, R377). -/
def execTwiXferDone (r : XferEnd) (s : State) : Host.Outcome State Fault Refusal :=
  .next (if s.twi.xst ≠ .busy then s
    else match r with
    | .done read =>
      modTwi (fun t => xferEnd .done (field t.xctl 8 6 + read.length) 0 { t with xbuf := read ++ t.xbuf.drop read.length })
        (nacksSeen (twiRetryMax s) s)
    | .nack n => xferFails Cause.twiNack n (modTwi (fun t => { t with nNack := addSat 8 t.nNack (twiRetryMax s) }) s)
    | .arbLost n => xferFails Cause.twiArbLost n s
    | .stuck n => xferFails Cause.twiBusStuck n s)

/-! ### Arbitration and a stuck bus (R378, R381) -/

/-- Arbitration is lost: both lines are released, nothing is raised, the transaction waits for its retry; an address byte that
is the device's own makes it the target (R378). -/
def execTwiArbLoss (addrByte : Option Byte) (s : State) : Host.Outcome State Fault Refusal :=
  .next (if controlling s then
    let mine := match addrByte with
      | some b => b.toNat / 2 == 0x58 + s.twi.addr && cfgF s 0x00A000 2 1 == 1
      | none => false
    modTwi (fun t => { t with nArb := incSat 8 t.nArb, ctl := false, retry := true, tgt := mine, busBusy := true, sda := false }) s
  else s)

/-- A transaction as controller fails with a cause: the host transfer where one is in progress, else the pages of an update; a
slot's read ends with its own command. -/
def twiFails (cause : Nat) (s : State) : State :=
  if s.twi.xst = .busy then modTwi (xferEnd .failed s.twi.xbytes cause) s
  else pagesFail cause (modTwi (fun t => { busFree t with ctl := false, retry := false }) s)

/-- The bus is free after the back-off: the lost transaction is retried, or fails after RETRY attempts (R378). -/
def execTwiRetry (s : State) : Host.Outcome State Fault Refusal :=
  .next (if s.twi.retry = false then s
    else if s.twi.tries < twiRetryMax s then
      modTwi (fun t => { busFree t with tries := t.tries + 1, retry := false, ctl := t.xst == .busy, busBusy := true }) s
    else raise .fabric Cause.twiArbLost 0xFF (twiFails Cause.twiArbLost (modTwi (fun t => { t with tries := 0 }) s)))

/-- A line has stayed low for STUCK_MS: SCL ends every transaction; SDA is recovered with clock pulses and a STOP while the device
is a controller (R381). -/
def execTwiBusStuck (line : StuckLine) (s : State) : Host.Outcome State Fault Refusal :=
  .next (match line with
    | .scl =>
      let drop := modTwi fun t => { t with tgt := false, ctl := false, retry := false, busBusy := true, scl := false }
      if controlling s then raise .fabric Cause.twiBusStuck 0xFF (drop (twiFails Cause.twiBusStuck s)) else drop s
    | .sda =>
      if controlling s then modTwi (fun t => { busFree t with nStuck := incSat 8 t.nStuck }) s
      else modTwi (fun t => { t with busBusy := true, sda := false }) s)

/-! ### The target (R379, R380) -/

/-- What the target answers leaves the block, and the transaction ends. -/
def twiAnswer (ack : Bool) (bytes : List Byte) (s : State) : State :=
  emit (.twiTarget ack bytes) (modTwi (fun t => { busFree t with tgt := false }) s)

/-- A NACK because the device is busy (R380). -/
def twiBusyNack (s : State) : State := twiAnswer false [] (modTwi (fun t => { t with nBusy := incSat 8 t.nBusy }) s)

/-- STRETCH_EN holds SCL long enough for what is awaited. -/
def stretched (s : State) (within : Bool) : Bool := within && cfgF s 0x00A000 3 1 == 1

/-- Less than 1 ms after t1, where run time starts at 0 (R356). -/
def justReset (s : State) : Bool := decide (s.tb.run * 1000 < 8192)

/-- The address of a transaction is answered: reset and less than 1 ms after t1 give none, an image being applied a NACK. -/
def twiAddressed (busy : TwiBusy) (f : State → State) (s : State) : State :=
  if !s.mode.up || cfgF s 0x00A000 2 1 == 0 then s
  else if s.ldr.st = .applying then twiBusyNack s
  else if busy = .address ∨ justReset s = true then twiAnswer false [] s
  else f s

def twiAddr (a2 a1 a0 : Byte) : Nat := a2.toNat * 0x10000 + a1.toNat * 0x100 + a0.toNat

/-- The register address of a transaction: a misaligned one is not acknowledged at its last byte (R379). -/
def twiAligned (a : Nat) (f : State → State) (s : State) : State :=
  if a % 4 ≠ 0 then twiAnswer false [] (modTwi (fun t => { t with lastAlign := true }) s)
  else f (modTwi (fun t => { t with lastAlign := false, ptr := a }) s)

/-- One word is performed: a refused write is acknowledged and its cause kept (R379). -/
def twiPut (s : State) (w : Word) : State :=
  let r := writeReg .i2c s.twi.ptr w s
  modTwi (fun t => { t with ptr := (t.ptr + 4) % 2 ^ 24, tCause := r.1.getD t.tCause }) r.2

def twiWords (l : List Byte) : List Word := (upto (l.length / 4)).map fun i => wordN (leAt l (4 * i) 4)

/-- The data of a write: with PEC the words are performed together after a right CRC-8, without it one by one; a word whose
predecessor is still being performed is not acknowledged (R379, R380). -/
def twiData (addr data : List Byte) (busy : TwiBusy) (s : State) : State :=
  if cfgF s 0x00A000 4 1 = 1 ∧ data ≠ [] then
    let body := data.dropLast
    if body.length % 4 = 0 ∧ body.length ≤ 64 ∧ crc8 (addr ++ data) = 0 then twiAnswer true [] ((twiWords body).foldl twiPut s)
    else twiAnswer false [] (raise .fabric Cause.twiPecBad 0xFF s)
  else
    let late : Bool := match busy with
      | .fetch w => !stretched s w
      | _ => false
    match twiWords data with
    | w :: _ :: _ => if late then twiBusyNack (twiPut s w) else twiAnswer true [] ((twiWords data).foldl twiPut s)
    | l => twiAnswer true [] (l.foldl twiPut s)

/-- A target write; fewer than three address bytes do nothing. -/
def execTwiTargetWrite (bytes : List Byte) (busy : TwiBusy) (s : State) : Host.Outcome State Fault Refusal :=
  .next (match bytes with
    | a2 :: a1 :: a0 :: data => twiAddressed busy (twiAligned (twiAddr a2 a1 a0) (twiData [a2, a1, a0] data busy)) s
    | _ => s)

/-- The next word of a read: the kept one where the same address was NACKed as busy within 1 ms, else a fetch (R380). -/
def twiGet (s : State) : Word × State :=
  let r : Word × State := match s.twi.kept with
    | some (a, w, t) => if a = s.twi.ptr ∧ since s t ≤ msTk 1 then (w, s) else readReg .i2c s.twi.ptr s
    | none => readReg .i2c s.twi.ptr s
  (r.1, modTwi (fun t => { t with ptr := (t.ptr + 4) % 2 ^ 24, kept := none }) r.2)

/-- Words in order, least significant byte first. -/
def twiGetAll : Nat → State → List Byte × State
  | 0, s => ([], s)
  | n + 1, s =>
    let r := twiGet s
    let q := twiGetAll n r.2
    (leBytes 4 r.1.toNat ++ q.1, q.2)

/-- The word at the address is kept. -/
def twiHasKept (s : State) : Bool :=
  match s.twi.kept with
  | some (a, _, t) => a == s.twi.ptr && decide (since s t ≤ msTk 1)
  | none => false

/-- The words of a read; while the first is being fetched the address is NACKed and the word kept (R380). -/
def twiRead (words : Nat) (busy : TwiBusy) (s : State) : State :=
  let late : Bool := match busy with
    | .fetch w => !stretched s w && !twiHasKept s
    | _ => false
  if late then
    let r := readReg .i2c s.twi.ptr s
    twiBusyNack (modTwi (fun t => { t with kept := some (t.ptr, r.1, s.tb.run) }) r.2)
  else
    let r := twiGetAll words s
    twiAnswer true r.1 r.2

/-- A target read, at an address or where the last access left off. -/
def execTwiTargetRead (addr : Option (List Byte)) (words : Nat) (busy : TwiBusy) (s : State) : Host.Outcome State Fault Refusal :=
  .next (match addr with
    | some [a2, a1, a0] => twiAddressed busy (twiAligned (twiAddr a2 a1 a0) (twiRead words busy)) s
    | some _ => s
    | none => twiAddressed busy (twiRead words busy) s)

end Sys2Proof.Machine
end

