-- ==== Sys2Proof/Machine/Dispatch.lean ====
section
/-!
DEFINITION. One arm per command, each a direct call of its meaning.
-/

namespace Sys2Proof.Machine

def exec (i : Instr) (s : State) : Host.Outcome State Fault Refusal :=
  match i with
  | .regWrite p addr v => Sys2Proof.Machine.execRegWrite p addr v s
  | .rcRead p addr racing => Sys2Proof.Machine.execRcRead p addr racing s
  | .wideReadCapture p addr => Sys2Proof.Machine.execWideReadCapture p addr s
  | .lfrRead p n => Sys2Proof.Machine.execLfrRead p n s
  | .feVsampRead p n => Sys2Proof.Machine.execFeVsampRead p n s
  | .tbFracRead p => Sys2Proof.Machine.execTbFracRead p s
  | .rcpSelWrite p v => Sys2Proof.Machine.execRcpSelWrite p v s
  | .vinAuxValid mv fallen => Sys2Proof.Machine.execVinAuxValid mv fallen s
  | .vinAuxLost mv => Sys2Proof.Machine.execVinAuxLost mv s
  | .seqPfw mv => Sys2Proof.Machine.execSeqPfw mv s
  | .powerDownStart => Sys2Proof.Machine.execPowerDownStart s
  | .railGood r nextFallen => Sys2Proof.Machine.execRailGood r nextFallen s
  | .railNorise r => Sys2Proof.Machine.execRailNorise r s
  | .powerUpRetry fallen => Sys2Proof.Machine.execPowerUpRetry fallen s
  | .railFallen r => Sys2Proof.Machine.execRailFallen r s
  | .railFallTimeout r => Sys2Proof.Machine.execRailFallTimeout r s
  | .railWindowExit r above => Sys2Proof.Machine.execRailWindowExit r above s
  | .pbWake fallen => Sys2Proof.Machine.execPbWake fallen s
  | .pbShortPress => Sys2Proof.Machine.execPbShortPress s
  | .pbLongPress => Sys2Proof.Machine.execPbLongPress s
  | .seqCmdOff p key => Sys2Proof.Machine.execSeqCmdOff p key s
  | .seqCmdReboot p key => Sys2Proof.Machine.execSeqCmdReboot p key s
  | .seqCmdHostrst p key => Sys2Proof.Machine.execSeqCmdHostrst p key s
  | .seqCmdClrEvt p key => Sys2Proof.Machine.execSeqCmdClrEvt p key s
  | .resetStretchEnd which => Sys2Proof.Machine.execResetStretchEnd which s
  | .restEntry => Sys2Proof.Machine.execRestEntry s
  | .restExit fallen => Sys2Proof.Machine.execRestExit fallen s
  | .fuseRead => Sys2Proof.Machine.execFuseRead s
  | .islandSelfCheckDone pass => Sys2Proof.Machine.execIslandSelfCheckDone pass s
  | .storeRecallDone romOk => Sys2Proof.Machine.execStoreRecallDone romOk s
  | .recallTimeout romOk => Sys2Proof.Machine.execRecallTimeout romOk s
  | .imageReadDone slot bytes otherHdr fail speedDrop sramOk => Sys2Proof.Machine.execImageReadDone slot bytes otherHdr fail speedDrop sramOk s
  | .imageApplyDone => Sys2Proof.Machine.execImageApplyDone s
  | .endOfLoad fails => Sys2Proof.Machine.execEndOfLoad fails s
  | .ldrCmdReload p key => Sys2Proof.Machine.execLdrCmdReload p key s
  | .ldrCmdCommit p key slot => Sys2Proof.Machine.execLdrCmdCommit p key slot s
  | .commitDone readback hdrOk => Sys2Proof.Machine.execCommitDone readback hdrOk s
  | .ldrCmdAbort p key => Sys2Proof.Machine.execLdrCmdAbort p key s
  | .imageBlock ep msg => Sys2Proof.Machine.execImageBlock ep msg s
  | .eepromPageWriteDone ok => Sys2Proof.Machine.execEepromPageWriteDone ok s
  | .stageWakeDone g => Sys2Proof.Machine.execStageWakeDone g s
  | .onTimeStart n at_ => Sys2Proof.Machine.execOnTimeStart n at_ s
  | .onTimeEnd n at_ code calls => Sys2Proof.Machine.execOnTimeEnd n at_ code calls s
  | .imonZeroCross n => Sys2Proof.Machine.execImonZeroCross n s
  | .tonCodeUpdate n => Sys2Proof.Machine.execTonCodeUpdate n s
  | .tokenSkip n at_ => Sys2Proof.Machine.execTokenSkip n at_ s
  | .fastLimitCross n at_ code => Sys2Proof.Machine.execFastLimitCross n at_ code s
  | .slowLimitBinEnd n sum => Sys2Proof.Machine.execSlowLimitBinEnd n sum s
  | .phImonRange n at_ codes => Sys2Proof.Machine.execPhImonRange n at_ codes s
  | .brakeExit n us codes => Sys2Proof.Machine.execBrakeExit n us codes s
  | .phBrakeStuck n at_ => Sys2Proof.Machine.execPhBrakeStuck n at_ s
  | .discOffDeadline k => Sys2Proof.Machine.execDiscOffDeadline k s
  | .shedStart k => Sys2Proof.Machine.execShedStart k s
  | .shedComplete k => Sys2Proof.Machine.execShedComplete k s
  | .phOpenLoad n => Sys2Proof.Machine.execPhOpenLoad n s
  | .confirmBiasStart k => Sys2Proof.Machine.execConfirmBiasStart k s
  | .confirmTestOutcome k => Sys2Proof.Machine.execConfirmTestOutcome k s
  | .confirmTestRepeat k => Sys2Proof.Machine.execConfirmTestRepeat k s
  | .baseSample src codeV codeI parityOk encFault => Sys2Proof.Machine.execBaseSample src codeV codeI parityOk encFault s
  | .fabFifoOvf n => Sys2Proof.Machine.execFabFifoOvf n s
  | .islandSample n codeV codeI parityOk => Sys2Proof.Machine.execIslandSample n codeV codeI parityOk s
  | .windowComparatorTrip n above tested => Sys2Proof.Machine.execWindowComparatorTrip n above tested s
  | .windowComparatorRelease n above => Sys2Proof.Machine.execWindowComparatorRelease n above s
  | .echoPassStart n => Sys2Proof.Machine.execEchoPassStart n s
  | .echoPassEnd n => Sys2Proof.Machine.execEchoPassEnd n s
  | .feEchoOverdue n => Sys2Proof.Machine.execFeEchoOverdue n s
  | .feCalWrite p addr v => Sys2Proof.Machine.execFeCalWrite p addr v s
  | .regulatorCompute k slack sums => Sys2Proof.Machine.execRegulatorCompute k slack sums s
  | .launchTickStrike live => Sys2Proof.Machine.execLaunchTickStrike live s
  | .chCmdStop p k => Sys2Proof.Machine.execChCmdStop p k s
  | .chCmdPause p k => Sys2Proof.Machine.execChCmdPause p k s
  | .chCmdResume p k => Sys2Proof.Machine.execChCmdResume p k s
  | .chCmdClearFault p k => Sys2Proof.Machine.execChCmdClearFault p k s
  | .chCmdDisable p k => Sys2Proof.Machine.execChCmdDisable p k s
  | .chCmdEnable p k => Sys2Proof.Machine.execChCmdEnable p k s
  | .drainQuiescent k => Sys2Proof.Machine.execDrainQuiescent k s
  | .qualifiedReturn k => Sys2Proof.Machine.execQualifiedReturn k s
  | .stepResumed k => Sys2Proof.Machine.execStepResumed k s
  | .chRcpArm p k v => Sys2Proof.Machine.execChRcpArm p k v s
  | .chRcpGo p k => Sys2Proof.Machine.execChRcpGo p k s
  | .autoLaunch k => Sys2Proof.Machine.execAutoLaunch k s
  | .stepEngineEval g slack => Sys2Proof.Machine.execStepEngineEval g slack s
  | .pulseSegment k => Sys2Proof.Machine.execPulseSegment k s
  | .rcpTempTimeout k => Sys2Proof.Machine.execRcpTempTimeout k s
  | .topOffStart k => Sys2Proof.Machine.execTopOffStart k s
  | .rcpTopoffTimeout k => Sys2Proof.Machine.execRcpTopoffTimeout k s
  | .rcpHoldEnd k => Sys2Proof.Machine.execRcpHoldEnd k s
  | .estPublish k inTime => Sys2Proof.Machine.execEstPublish k inTime s
  | .estDiverge k => Sys2Proof.Machine.execEstDiverge k s
  | .capWriteback k => Sys2Proof.Machine.execCapWriteback k s
  | .estCmdReinit p k => Sys2Proof.Machine.execEstCmdReinit p k s
  | .estCmdKlogStart p k => Sys2Proof.Machine.execEstCmdKlogStart p k s
  | .estCmdKlogStop p k => Sys2Proof.Machine.execEstCmdKlogStop p k s
  | .estCmdGrade p k => Sys2Proof.Machine.execEstCmdGrade p k s
  | .estCmdRelearn p k => Sys2Proof.Machine.execEstCmdRelearn p k s
  | .klogPoint k => Sys2Proof.Machine.execKlogPoint k s
  | .sumpAllocation slack => Sys2Proof.Machine.execSumpAllocation slack s
  | .grantsZeroed => Sys2Proof.Machine.execGrantsZeroed s
  | .sumpFeLost => Sys2Proof.Machine.execSumpFeLost s
  | .sourceBack => Sys2Proof.Machine.execSourceBack s
  | .sumpInhibit => Sys2Proof.Machine.execSumpInhibit s
  | .inhibitClear => Sys2Proof.Machine.execInhibitClear s
  | .sumpDroop => Sys2Proof.Machine.execSumpDroop s
  | .droopRelease => Sys2Proof.Machine.execDroopRelease s
  | .sumpOv => Sys2Proof.Machine.execSumpOv s
  | .ovRelease => Sys2Proof.Machine.execOvRelease s
  | .droopTimeout => Sys2Proof.Machine.execDroopTimeout s
  | .droopRecovered => Sys2Proof.Machine.execDroopRecovered s
  | .pauseQuiescent => Sys2Proof.Machine.execPauseQuiescent s
  | .rideTimeout => Sys2Proof.Machine.execRideTimeout s
  | .sumpReturned => Sys2Proof.Machine.execSumpReturned s
  | .rideTransitionDone => Sys2Proof.Machine.execRideTransitionDone s
  | .pauseClassClear => Sys2Proof.Machine.execPauseClassClear s
  | .sumpBudgetStale => Sys2Proof.Machine.execSumpBudgetStale s
  | .ptpSync m => Sys2Proof.Machine.execPtpSync m s
  | .ptpAnnounce m => Sys2Proof.Machine.execPtpAnnounce m s
  | .ptpDelayMessage m tx => Sys2Proof.Machine.execPtpDelayMessage m tx s
  | .delayReqSend tx => Sys2Proof.Machine.execDelayReqSend tx s
  | .pdelayReqSend port tx => Sys2Proof.Machine.execPdelayReqSend port tx s
  | .syncLoss => Sys2Proof.Machine.execSyncLoss s
  | .tbFreerun => Sys2Proof.Machine.execTbFreerun s
  | .timeStepApply => Sys2Proof.Machine.execTimeStepApply s
  | .tcmdLaunch => Sys2Proof.Machine.execTcmdLaunch s
  | .tcmdSetpoint => Sys2Proof.Machine.execTcmdSetpoint s
  | .tcmdGroupRelease => Sys2Proof.Machine.execTcmdGroupRelease s
  | .tcmdChannelCmd => Sys2Proof.Machine.execTcmdChannelCmd s
  | .tcmdMode => Sys2Proof.Machine.execTcmdMode s
  | .tcmdCancel => Sys2Proof.Machine.execTcmdCancel s
  | .tcmdRelease e => Sys2Proof.Machine.execTcmdRelease e s
  | .tcmdDone e => Sys2Proof.Machine.execTcmdDone e s
  | .gmaskCommit p g v => Sys2Proof.Machine.execGmaskCommit p g v s
  | .groupDisable p g => Sys2Proof.Machine.execGroupDisable p g s
  | .deviceDrainDone => Sys2Proof.Machine.execDeviceDrainDone s
  | .modeDrainTimeout => Sys2Proof.Machine.execModeDrainTimeout s
  | .ppsStart => Sys2Proof.Machine.execPpsStart s
  | .ppsEnd => Sys2Proof.Machine.execPpsEnd s
  | .rtcHandoff => Sys2Proof.Machine.execRtcHandoff s
  | .portUp port => Sys2Proof.Machine.execPortUp port s
  | .linkPortDown port => Sys2Proof.Machine.execLinkPortDown port s
  | .frameIngress port f => Sys2Proof.Machine.execFrameIngress port f s
  | .ropeHelloSend port => Sys2Proof.Machine.execRopeHelloSend port s
  | .ropeHello port msg => Sys2Proof.Machine.execRopeHello port msg s
  | .headTimeout => Sys2Proof.Machine.execHeadTimeout s
  | .tailTimeout => Sys2Proof.Machine.execTailTimeout s
  | .arpRequest port target ip mac vid => Sys2Proof.Machine.execArpRequest port target ip mac vid s
  | .icmpEcho port ip mac vid bytes => Sys2Proof.Machine.execIcmpEcho port ip mac vid bytes s
  | .hello ep msg => Sys2Proof.Machine.execHello ep msg s
  | .bye ep msg => Sys2Proof.Machine.execBye ep msg s
  | .heartbeat ep msg => Sys2Proof.Machine.execHeartbeat ep msg s
  | .read ep msg => Sys2Proof.Machine.execRead ep msg s
  | .write ep msg => Sys2Proof.Machine.execWrite ep msg s
  | .toldTemp ep msg => Sys2Proof.Machine.execToldTemp ep msg s
  | .toldFixture ep msg => Sys2Proof.Machine.execToldFixture ep msg s
  | .toldBudget ep msg => Sys2Proof.Machine.execToldBudget ep msg s
  | .toldInhibit ep msg => Sys2Proof.Machine.execToldInhibit ep msg s
  | .toldCellId ep msg => Sys2Proof.Machine.execToldCellId ep msg s
  | .extSetpoint ep msg => Sys2Proof.Machine.execExtSetpoint ep msg s
  | .ringSub ep msg => Sys2Proof.Machine.execRingSub ep msg s
  | .ringAck ep msg => Sys2Proof.Machine.execRingAck ep msg s
  | .ringReplay ep msg => Sys2Proof.Machine.execRingReplay ep msg s
  | .ringPush ep msg => Sys2Proof.Machine.execRingPush ep msg s
  | .inputRingConsume ses => Sys2Proof.Machine.execInputRingConsume ses s
  | .ringDataSend r => Sys2Proof.Machine.execRingDataSend r s
  | .ringRetransmit r => Sys2Proof.Machine.execRingRetransmit r s
  | .ringDisable p r => Sys2Proof.Machine.execRingDisable p r s
  | .pzSessionLost ses => Sys2Proof.Machine.execPzSessionLost ses s
  | .challenge ep msg => Sys2Proof.Machine.execChallenge ep msg s
  | .unlockHmac ep msg => Sys2Proof.Machine.execUnlockHmac ep msg s
  | .unlockPwd ep msg => Sys2Proof.Machine.execUnlockPwd ep msg s
  | .enter ep msg => Sys2Proof.Machine.execEnter ep msg s
  | .exit ep msg => Sys2Proof.Machine.execExit ep msg s
  | .regionUnlock ep msg => Sys2Proof.Machine.execRegionUnlock ep msg s
  | .regionLock ep msg => Sys2Proof.Machine.execRegionLock ep msg s
  | .regionPwd ep msg => Sys2Proof.Machine.execRegionPwd ep msg s
  | .tap ep msg => Sys2Proof.Machine.execTap ep msg s
  | .unlockLapse ses => Sys2Proof.Machine.execUnlockLapse ses s
  | .nonceLapse ses => Sys2Proof.Machine.execNonceLapse ses s
  | .sqzCfgWrite p addr v => Sys2Proof.Machine.execSqzCfgWrite p addr v s
  | .islandTempCheck => Sys2Proof.Machine.execIslandTempCheck s
  | .safSumpOv2 above => Sys2Proof.Machine.execSafSumpOv2 above s
  | .safSflt g => Sys2Proof.Machine.execSafSflt g s
  | .safClkLoss => Sys2Proof.Machine.execSafClkLoss s
  | .safFabricStall => Sys2Proof.Machine.execSafFabricStall s
  | .safParam addr m => Sys2Proof.Machine.execSafParam addr m s
  | .cmpTestStart n => Sys2Proof.Machine.execCmpTestStart n s
  | .cmpTestDone n pass => Sys2Proof.Machine.execCmpTestDone n pass s
  | .signatureDone flip => Sys2Proof.Machine.execSignatureDone flip s
  | .keepaliveLost => Sys2Proof.Machine.execKeepaliveLost s
  | .safLockstep recovers => Sys2Proof.Machine.execSafLockstep recovers s
  | .galRelease p g key => Sys2Proof.Machine.execGalRelease p g key s
  | .devRelease p key => Sys2Proof.Machine.execDevRelease p key s
  | .proof p key => Sys2Proof.Machine.execProof p key s
  | .proofDone safeN decay disc => Sys2Proof.Machine.execProofDone safeN decay disc s
  | .safSigrefWrite p v => Sys2Proof.Machine.execSafSigrefWrite p v s
  | .safetySetApplied => Sys2Proof.Machine.execSafetySetApplied s
  | .twiTargetWrite bytes busy => Sys2Proof.Machine.execTwiTargetWrite bytes busy s
  | .twiTargetRead addr words busy => Sys2Proof.Machine.execTwiTargetRead addr words busy s
  | .twiXferStart p v => Sys2Proof.Machine.execTwiXferStart p v s
  | .twiXferDone r => Sys2Proof.Machine.execTwiXferDone r s
  | .twiArbLoss addrByte => Sys2Proof.Machine.execTwiArbLoss addrByte s
  | .twiRetry => Sys2Proof.Machine.execTwiRetry s
  | .twiBusStuck line => Sys2Proof.Machine.execTwiBusStuck line s
  | .rtcAlarm fallen => Sys2Proof.Machine.execRtcAlarm fallen s
  | .rtcPwake fallen => Sys2Proof.Machine.execRtcPwake fallen s
  | .rtcOscFail => Sys2Proof.Machine.execRtcOscFail s
  | .rtcSubsecRead p => Sys2Proof.Machine.execRtcSubsecRead p s
  | .rtcYearRead p => Sys2Proof.Machine.execRtcYearRead p s
  | .rtcFreezeTimeout p => Sys2Proof.Machine.execRtcFreezeTimeout p s
  | .rtcCtrlWrite p v => Sys2Proof.Machine.execRtcCtrlWrite p v s
  | .rtcPwakeWrite p v => Sys2Proof.Machine.execRtcPwakeWrite p v s
  | .rtcBramWrite p idx v => Sys2Proof.Machine.execRtcBramWrite p idx v s
  | .vbakCheck low => Sys2Proof.Machine.execVbakCheck low s
  | .domainCollapse => Sys2Proof.Machine.execDomainCollapse s
  | .wdtServe p slot v => Sys2Proof.Machine.execWdtServe p slot v s
  | .wdtExpired slot => Sys2Proof.Machine.execWdtExpired slot s
  | .wdtCfgWrite p slot v => Sys2Proof.Machine.execWdtCfgWrite p slot v s
  | .wdtClkLoss => Sys2Proof.Machine.execWdtClkLoss s
  | .wdtIntExpired slot => Sys2Proof.Machine.execWdtIntExpired slot s
  | .dieSensorReading idx t e1 e2 => Sys2Proof.Machine.execDieSensorReading idx t e1 e2 s
  | .thmTStale k => Sys2Proof.Machine.execThmTStale k s
  | .eventCrossingConsume prod => Sys2Proof.Machine.execEventCrossingConsume prod s
  | .holdoffExpire g => Sys2Proof.Machine.execHoldoffExpire g s
  | .intcClaim p t => Sys2Proof.Machine.execIntcClaim p t s
  | .intcEoi p t v => Sys2Proof.Machine.execIntcEoi p t v s
  | .intcSwset p v => Sys2Proof.Machine.execIntcSwset p v s
  | .nvmFormat p key => Sys2Proof.Machine.execNvmFormat p key s
  | .nvmFormatted => Sys2Proof.Machine.execNvmFormatted s
  | .calCommit p key => Sys2Proof.Machine.execCalCommit p key s
  | .nvmCalCommitted => Sys2Proof.Machine.execNvmCalCommitted s
  | .define p key => Sys2Proof.Machine.execDefine p key s
  | .scanNow p key => Sys2Proof.Machine.execScanNow p key s
  | .marginScan weak bad => Sys2Proof.Machine.execMarginScan weak bad s
  | .nvmWordWriteDone => Sys2Proof.Machine.execNvmWordWriteDone s
  | .nvmWindowWrite p addr v => Sys2Proof.Machine.execNvmWindowWrite p addr v s
  | .commitSetDone => Sys2Proof.Machine.execCommitSetDone s
  | .fuseProgramWord p v => Sys2Proof.Machine.execFuseProgramWord p v s
  | .fuseProgramBlock p v => Sys2Proof.Machine.execFuseProgramBlock p v s
  | .accFuseDone => Sys2Proof.Machine.execAccFuseDone s
  | .vcoreAdapt rate vcore => Sys2Proof.Machine.execVcoreAdapt rate vcore s
  | .fabUnitReset slot => Sys2Proof.Machine.execFabUnitReset slot s
  | .calendarWrap => Sys2Proof.Machine.execCalendarWrap s
  | .rtcTrimWindow => Sys2Proof.Machine.execRtcTrimWindow s
  | .rtcCountWrite p field v => Sys2Proof.Machine.execRtcCountWrite p field v s
  | .sfltHigh g => Sys2Proof.Machine.execSfltHigh g s
  | .stageOperationEnable p => Sys2Proof.Machine.execStageOperationEnable p s

end Sys2Proof.Machine
end

