-- ==== Sys2Proof/Machine/Pins.lean ====
section
/-!
DEFINITION. The output pins as functions of the state (R501): levels of the stage, supply, safety, reset and interrupt
outputs, the core trim current (R511), and the Lantern outputs (R515). PTP_PPS is `ppsPin` (R262).
-/

namespace Sys2Proof.Machine

/-- What an output pin does. -/
inductive Drive where
  | hiZ | low | high
  deriving DecidableEq, Repr

/-- A push-pull or pulled-down output of VIO: high only with VIO good (R501). -/
def pushPull (s : State) (on : Bool) : Drive := if vioGood s && on then .high else .low

/-- An open-drain output. -/
def openDrain (sinks : Bool) : Drive := if sinks then .low else .hiZ

def pinDisc (s : State) (k : Nat) : Drive := pushPull s (s.getCh k).disc
def pinSen (s : State) (g : Nat) : Drive := pushPull s (s.getGal g).sen
def pinPwm (s : State) (n : Nat) : Pwm := if vioGood s then (s.getPh n).pwm else .hiZ
def pinIrq (s : State) (n : Nat) : Drive := openDrain (vioGood s && irqLow s n)
/-- SAFE_N low is asserted, and it sinks without supply (R330). -/
def pinSafe (s : State) : Drive := openDrain s.saf.safeN
def pinRstout0 (s : State) : Drive := openDrain (rstout0Low s)
def pinRstout1 (s : State) : Drive := openDrain (rstout1Low s)
def pinPps (s : State) : Drive := if vioGood s then (if ppsPin s then .high else .low) else .hiZ
/-- RAIL_EN of slot r: push-pull of the backup domain (R387). -/
def pinRailEn (s : State) (r : Nat) : Drive := if (s.getRail r).en then .high else .low
/-- VCORE_TRIM: the current it sinks, in 10 nA (R511); none while VIO is off. -/
def pinTrim (s : State) : Option Int := if vioGood s then some (((s.fab.code : Int) - 128) * 25) else none

/-- VBAK is charged from the main-derived rail (R406). -/
def chargesVbak (s : State) : Bool := s.seq.vinOk && bitN (cfgN s 0x003020) 1

/-! ### Lantern outputs (R515) -/

/-- A pattern of a Lantern pin. -/
inductive Pattern where
  | off | on | blink (hz : Nat) | flash
  deriving DecidableEq, Repr

/-- A pattern at the line time in force: a blink is on for the first half of each period, and periods start on line-time
second edges. The 4 s period of the REST flash starts on line-time seconds divisible by 4 (log entry 86). -/
def Pattern.lit (p : Pattern) (s : State) : Bool :=
  match p with
  | .off => false
  | .on => true
  | .blink hz => decide (s.tb.frac * 2 * hz / 2 ^ 32 % 2 = 0)
  | .flash => decide (s.tb.sec % 4 = 0) && decide (s.tb.frac * 10 < 2 ^ 32)

/-- LANTERN0 shows the mode. -/
def lanternMode (s : State) : Pattern :=
  match s.mode with
  | .run => .on
  | .load => .blink 1
  | .service => .blink 4
  | .rest => .flash
  | .safe | .backup | .ship => .off

/-- LANTERN1 shows safety: the first row that applies. -/
def lanternSafety (s : State) : Pattern :=
  if s.saf.dev.isSome || s.ldr.st == .halted then .on
  else if (upto 8).any (fun g => (s.getGal g).safe.isSome) || s.ldr.st == .noImage then .blink 4
  else if (popAll s).any (fun k => (s.getCh k).st == .fault) then .blink 1
  else .off

/-- LANTERN2 shows link and time: the first row that applies. -/
def lanternLink (s : State) : Pattern :=
  if !s.link.p0.up && !s.link.p1.up then .off
  else match s.tb.st with
    | .locked => .on
    | .holdover => .blink 4
    | .freerun | .acquire => .blink 1

/-- A Lantern pin sinks: off wherever VIO is off, and from its rise until t1 (R501). -/
def lantern (s : State) (i : Nat) : Bool :=
  vioGood s && s.mode.up
    && (if i = 0 then lanternMode s else if i = 1 then lanternSafety s else lanternLink s).lit s

end Sys2Proof.Machine
end

