-- ==== Sys2Proof/Machine/Step.lean ====
section
/-!
DEFINITION. One step of the block: the command at the front of the queue, or one tick of the free-running clocks
when nothing waits (log entry 4).
-/

namespace Sys2Proof.Machine

open Sys2Proof

/-- Take the command at the front of the queue and run its meaning with the queue's rest; on an empty queue the
clocks that no command drives advance by one watchdog tick of 1 us. -/
def step (s : State) : Host.Outcome State Fault Refusal :=
  match s.pending with
  | c :: rest => exec c { s with pending := rest }
  | [] => .next (oscTick (wdtTick s))

/-- Put the command a table word spells at the front of the queue; a word that spells none leaves s. -/
def State.withFetchWord (s : State) (nbits w : Nat) : State :=
  match decodeTableWord nbits w with
  | some c => { s with pending := c :: s.pending }
  | none => s

end Sys2Proof.Machine
end

