-- ==== Sys2Proof/Safety.lean ====
section
/-!
DEFINITION. The words in which statements speak of a run: which part of the block a command may change, what stays, and the
forms that every step keeps.
-/

namespace Sys2Proof.Machine

/-- The parts of State. -/
inductive Part where
  | mode | seq | regs | tb | ph | gal | fe | ch | est | rcp | sump | link | ring | sqz | saf | ldr | twi | rtc | wdt | thm
  | intc | nvm | acc | fab | shadow | out | free | pending
  deriving DecidableEq, Repr

/-- Two states agree in a part. -/
def Part.same (s t : State) : Part → Prop
  | .mode => t.mode = s.mode
  | .seq => t.seq = s.seq
  | .regs => t.regs = s.regs
  | .tb => t.tb = s.tb
  | .ph => t.ph = s.ph
  | .gal => t.gal = s.gal
  | .fe => t.fe = s.fe
  | .ch => t.ch = s.ch
  | .est => t.est = s.est
  | .rcp => t.rcp = s.rcp
  | .sump => t.sump = s.sump
  | .link => t.link = s.link
  | .ring => t.ring = s.ring
  | .sqz => t.sqz = s.sqz
  | .saf => t.saf = s.saf
  | .ldr => t.ldr = s.ldr
  | .twi => t.twi = s.twi
  | .rtc => t.rtc = s.rtc
  | .wdt => t.wdt = s.wdt
  | .thm => t.thm = s.thm
  | .intc => t.intc = s.intc
  | .nvm => t.nvm = s.nvm
  | .acc => t.acc = s.acc
  | .fab => t.fab = s.fab
  | .shadow => t.shadow = s.shadow
  | .out => t.out = s.out
  | .free => t.free = s.free
  | .pending => t.pending = s.pending

/-- From s to t, every part that l does not name is unchanged. -/
def Within (l : List Part) (s t : State) : Prop := ∀ p, p ∉ l → p.same s t

/-! ### The forms that every step keeps -/

/-- The store's bytes are canonical: addresses rise, and no listed byte is 0, what an unlisted one reads as. -/
def Memory.wf (s : State) : Bool := alWf 0 0 s.nvm.mem

/-- The words captured for each access path are canonical (R8). -/
def CapturesWf (s : State) : Prop := ∀ h ∈ s.shadow, alWf 0 0 h.wide = true

/-- The lengths of the tables that State holds as lists. -/
def Lengths (s : State) : Bool :=
  s.link.sess.length == 4 && s.intc.stk.length == 8 && s.wdt.slots.length == 24 && s.acc.fuse.length == 64 && s.rtc.bram.length == 64
    && s.rtc.bcrc.length == 8 && s.shadow.length == 9

/-- In the in-service stack of each target the priorities rise strictly towards the top, and each is a priority (R450, R451). -/
def StacksRise (s : State) : Prop :=
  s.intc.stk.length = 8 ∧ ∀ l ∈ s.intc.stk, l.Pairwise (fun a b => b.2 < a.2) ∧ ∀ a ∈ l, a.2 < 16

/-- At most one of the four sessions is the controller (R283). -/
def OneController (s : State) : Prop :=
  s.link.sess.length = 4 ∧ ∀ i j x y, s.getSess i = some x → s.getSess j = some y → x.role = .controller → y.role = .controller → i = j

/-! ### What each command may change -/

/-- The parts of State that a command may change; every other part it leaves as it is. -/
def touches : Instr → List Part
  | .discOffDeadline .. | .confirmBiasStart .. | .confirmTestRepeat .. | .autoLaunch .. | .pulseSegment .. | .rcpTempTimeout .. |
    .topOffStart .. | .rcpTopoffTimeout .. | .rcpHoldEnd .. => [.ch]
  | .estPublish .. => [.est]
  | .intcSwset .. | .vcoreAdapt .. => [.fab]
  | .windowComparatorRelease .. | .echoPassStart .. => [.fe]
  | .sfltHigh .. => [.gal]
  | .holdoffExpire .. => [.intc]
  | .unlockLapse .. | .nonceLapse .. => [.link]
  | .nvmWordWriteDone .. | .commitSetDone .. => [.nvm]
  | .imonZeroCross .. | .tonCodeUpdate .. => [.ph]
  | .calendarWrap .. | .rtcTrimWindow .. => [.rtc]
  | .rtcFreezeTimeout .. => [.shadow]
  | .sumpAllocation .. | .ovRelease .. => [.sump]
  | .tcmdRelease .. | .ppsStart .. | .ppsEnd .. => [.tb]
  | .twiArbLoss .. => [.twi]
  | .fuseProgramWord .. | .fuseProgramBlock .. | .accFuseDone .. => [.acc, .fab]
  | .chCmdStop .. | .chCmdPause .. | .chCmdResume .. | .chCmdClearFault .. | .chCmdDisable .. | .chCmdEnable .. | .stepResumed .. |
    .chRcpGo .. => [.ch, .fab]
  | .grantsZeroed .. => [.ch, .sump]
  | .estDiverge .. | .estCmdReinit .. | .estCmdKlogStart .. | .estCmdKlogStop .. | .estCmdRelearn .. => [.est, .fab]
  | .capWriteback .. => [.est, .nvm]
  | .rcpSelWrite .. => [.fab, .shadow]
  | .cmpTestStart .. => [.fe, .fab]
  | .stepEngineEval .. => [.gal, .ch]
  | .intcEoi .. => [.intc, .fab]
  | .intcClaim .. => [.intc, .out]
  | .ldrCmdAbort .. => [.ldr, .fab]
  | .linkPortDown .. | .tailTimeout .. => [.link, .fab]
  | .portUp .. | .arpRequest .. | .icmpEcho .. => [.link, .out]
  | .nvmFormat .. | .calCommit .. | .define .. | .scanNow .. | .marginScan .. | .fabUnitReset .. => [.nvm, .fab]
  | .tokenSkip .. | .brakeExit .. | .shedStart .. | .shedComplete .. | .regulatorCompute .. => [.ph, .ch]
  | .stageWakeDone .. => [.ph, .gal]
  | .rtcHandoff .. | .rtcOscFail .. | .rtcBramWrite .. | .vbakCheck .. | .rtcCountWrite .. => [.rtc, .fab]
  | .proof .. | .safSigrefWrite .. => [.saf, .fab]
  | .seqCmdHostrst .. | .seqCmdClrEvt .. => [.seq, .fab]
  | .rtcSubsecRead .. | .rtcYearRead .. => [.shadow, .out]
  | .sumpBudgetStale .. => [.sump, .fab]
  | .ptpSync .. | .ptpAnnounce .. | .syncLoss .. | .tbFreerun .. | .tcmdLaunch .. | .tcmdSetpoint .. | .tcmdGroupRelease .. |
    .tcmdChannelCmd .. | .tcmdMode .. | .tcmdCancel .. | .tcmdDone .. | .gmaskCommit .. | .groupDisable .. => [.tb, .fab]
  | .thmTStale .. => [.thm, .fab]
  | .wdtServe .. | .wdtClkLoss .. => [.wdt, .fab]
  | .chRcpArm .. => [.ch, .est, .fab]
  | .sumpFeLost .. | .sourceBack .. | .sumpInhibit .. | .inhibitClear .. | .sumpDroop .. | .droopRelease .. | .droopTimeout .. |
    .droopRecovered .. | .pauseQuiescent .. | .rideTimeout .. | .sumpReturned .. | .rideTransitionDone .. | .pauseClassClear .. =>
    [.ch, .sump, .fab]
  | .klogPoint .. => [.est, .ring, .fab]
  | .echoPassEnd .. | .feEchoOverdue .. => [.fe, .ch, .fab]
  | .nvmCalCommitted .. => [.fe, .nvm, .fab]
  | .ldrCmdCommit .. => [.ldr, .fab, .out]
  | .frameIngress .. | .ropeHelloSend .. | .ropeHello .. | .headTimeout .. | .heartbeat .. | .ringReplay .. | .regionLock .. =>
    [.link, .fab, .out]
  | .ringDisable .. => [.link, .ring, .fab]
  | .ringDataSend .. | .ringRetransmit .. => [.link, .ring, .out]
  | .nvmFormatted .. => [.nvm, .acc, .fab]
  | .nvmWindowWrite .. => [.nvm, .fab, .shadow]
  | .confirmTestOutcome .. => [.ph, .ch, .fab]
  | .sumpOv .. => [.ph, .sump, .fab]
  | .feCalWrite .. => [.regs, .fe, .fab]
  | .safetySetApplied .. => [.regs, .fe, .saf]
  | .fuseRead .. => [.regs, .ldr, .fab]
  | .rtcCtrlWrite .. | .rtcPwakeWrite .. => [.regs, .rtc, .fab]
  | .wdtCfgWrite .. => [.regs, .wdt, .fab]
  | .eventCrossingConsume .. => [.ring, .intc, .fab]
  | .islandSelfCheckDone .. => [.saf, .ldr, .fab]
  | .proofDone .. => [.saf, .nvm, .fab]
  | .wdtExpired .. => [.seq, .wdt, .fab]
  | .ptpDelayMessage .. | .delayReqSend .. | .pdelayReqSend .. => [.tb, .link, .out]
  | .inputRingConsume .. => [.tb, .ring, .fab]
  | .twiXferDone .. => [.twi, .fab, .free]
  | .twiXferStart .. => [.twi, .fab, .out]
  | .toldFixture .. | .extSetpoint .. => [.ch, .link, .fab, .out]
  | .toldCellId .. => [.est, .link, .fab, .out]
  | .tap .. => [.link, .acc, .fab, .out]
  | .challenge .. => [.link, .fab, .out, .free]
  | .imageBlock .. => [.link, .ldr, .fab, .out]
  | .regionPwd .. => [.link, .nvm, .fab, .out]
  | .ringSub .. | .ringAck .. | .ringPush .. => [.link, .ring, .fab, .out]
  | .toldTemp .. => [.link, .thm, .fab, .out]
  | .onTimeStart .. | .onTimeEnd .. | .fastLimitCross .. | .slowLimitBinEnd .. | .phImonRange .. | .phBrakeStuck .. |
    .islandTempCheck .. => [.ph, .ch, .saf, .fab]
  | .galRelease .. => [.ph, .gal, .ch, .fab]
  | .keepaliveLost .. => [.ph, .gal, .ch, .saf]
  | .sqzCfgWrite .. => [.regs, .link, .sqz, .fab]
  | .resetStretchEnd .. => [.seq, .ph, .gal, .ch]
  | .toldBudget .. => [.sump, .link, .fab, .out]
  | .ldrCmdReload .. => [.tb, .ldr, .fab, .out]
  | .modeDrainTimeout .. => [.tb, .ph, .ch, .fab]
  | .toldInhibit .. => [.ch, .sump, .link, .fab, .out]
  | .estCmdGrade .. => [.est, .rcp, .ring, .nvm, .fab]
  | .commitDone .. => [.ldr, .twi, .fab, .out, .free]
  | .twiRetry .. | .twiBusStuck .. => [.link, .ldr, .twi, .fab, .out]
  | .unlockHmac .. | .unlockPwd .. | .regionUnlock .. => [.link, .nvm, .acc, .fab, .out]
  | .domainCollapse .. => [.mode, .seq, .regs, .rtc, .free]
  | .drainQuiescent .. | .qualifiedReturn .. => [.ph, .ch, .est, .ring, .fab]
  | .phOpenLoad .. => [.ph, .fe, .ch, .est, .fab]
  | .islandSample .. | .windowComparatorTrip .. => [.ph, .fe, .ch, .saf, .fab]
  | .stageOperationEnable .. => [.ph, .gal, .ch, .acc, .fab]
  | .safSflt .. => [.ph, .gal, .ch, .saf, .fab]
  | .recallTimeout .. => [.seq, .ldr, .nvm, .fab, .out]
  | .imageReadDone .. | .eepromPageWriteDone .. => [.link, .ldr, .twi, .fab, .out, .free]
  | .cmpTestDone .. => [.ph, .fe, .ch, .ring, .saf, .fab]
  | .restExit .. => [.seq, .ph, .gal, .ch, .saf, .fab]
  | .devRelease .. => [.mode, .ph, .gal, .fe, .ch, .saf, .fab]
  | .railFallen .. => [.mode, .seq, .ph, .saf, .nvm, .acc, .free]
  | .pbWake .. => [.mode, .seq, .saf, .nvm, .acc, .fab, .free]
  | .timeStepApply .. => [.tb, .gal, .fe, .ring, .sqz, .fab, .free]
  | .powerDownStart .. => [.mode, .seq, .ph, .gal, .saf, .nvm, .acc, .free]
  | .railFallTimeout .. => [.mode, .seq, .ph, .saf, .nvm, .acc, .fab, .free]
  | .vinAuxValid .. | .powerUpRetry .. => [.mode, .seq, .saf, .rtc, .nvm, .acc, .fab, .free]
  | .restEntry .. => [.seq, .ph, .gal, .fe, .ring, .sqz, .fab, .free]
  | .storeRecallDone .. => [.seq, .rcp, .saf, .ldr, .nvm, .acc, .fab, .out]
  | .pbShortPress .. | .pbLongPress .. | .seqCmdOff .. | .seqCmdReboot .. => [.mode, .seq, .tb, .ph, .saf, .nvm, .acc, .fab, .free]
  | .fabFifoOvf .. => [.ph, .gal, .fe, .ch, .est, .ring, .sqz, .fab, .free]
  | .exit .. => [.mode, .ph, .gal, .fe, .ch, .link, .saf, .acc, .fab, .out]
  | .seqPfw .. => [.mode, .seq, .tb, .ph, .est, .saf, .nvm, .acc, .fab, .free]
  | .safSumpOv2 .. | .safClkLoss .. | .safFabricStall .. | .safParam .. | .signatureDone .. | .safLockstep .. =>
    [.mode, .seq, .tb, .ph, .gal, .fe, .ch, .saf, .acc, .fab]
  | .enter .. => [.mode, .tb, .ph, .gal, .fe, .ch, .link, .acc, .fab, .out]
  | .baseSample .. => [.ph, .gal, .fe, .ch, .est, .sump, .ring, .sqz, .fab, .free]
  | .rtcAlarm .. | .rtcPwake .. => [.mode, .seq, .ph, .gal, .ch, .saf, .rtc, .nvm, .acc, .fab, .free]
  | .vinAuxLost .. => [.mode, .seq, .tb, .ph, .gal, .ch, .saf, .nvm, .acc, .fab, .free]
  | .dieSensorReading .. => [.mode, .seq, .tb, .ph, .gal, .fe, .ch, .saf, .thm, .acc, .fab]
  | .pzSessionLost .. => [.mode, .tb, .ph, .gal, .fe, .ch, .link, .ring, .saf, .ldr, .acc, .fab]
  | .railWindowExit .. => [.mode, .seq, .tb, .ph, .gal, .fe, .ch, .est, .saf, .nvm, .acc, .fab, .free]
  | .bye .. => [.mode, .tb, .ph, .gal, .fe, .ch, .link, .ring, .saf, .ldr, .acc, .fab, .out]
  | .wdtIntExpired .. => [.mode, .seq, .tb, .ph, .gal, .ch, .est, .sump, .saf, .wdt, .nvm, .acc, .fab, .free]
  | .hello .. => [.mode, .tb, .ph, .gal, .fe, .ch, .link, .ring, .saf, .ldr, .acc, .fab, .shadow, .out]
  | .imageApplyDone .. => [.regs, .tb, .fe, .ch, .rcp, .sump, .link, .saf, .ldr, .rtc, .wdt, .intc, .fab, .out]
  | .deviceDrainDone .. => [.mode, .tb, .ph, .gal, .fe, .ch, .est, .link, .ring, .sqz, .saf, .ldr, .nvm, .acc, .fab, .out, .free]
  | .endOfLoad .. => [.mode, .regs, .tb, .ph, .gal, .fe, .ch, .est, .link, .ring, .saf, .ldr, .rtc, .wdt, .nvm, .acc, .fab, .out]
  | .launchTickStrike .. =>
    [.mode, .seq, .tb, .ph, .gal, .fe, .ch, .est, .rcp, .sump, .link, .ring, .sqz, .saf, .rtc, .wdt, .nvm, .acc, .fab, .free]
  | .rcRead .. | .wideReadCapture .. | .lfrRead .. | .feVsampRead .. | .tbFracRead .. | .read .. | .twiTargetRead .. =>
    [.tb, .ph, .gal, .fe, .ch, .est, .sump, .link, .ring, .sqz, .saf, .ldr, .twi, .rtc, .wdt, .thm, .intc, .nvm, .fab, .shadow, .out]
  | .regWrite .. | .write .. | .twiTargetWrite .. =>
    [.mode, .seq, .regs, .tb, .ph, .gal, .fe, .ch, .est, .rcp, .sump, .link, .ring, .sqz, .saf, .ldr, .twi, .rtc, .wdt, .intc, .nvm,
     .acc, .fab, .shadow, .out, .free]
  | .railGood .. | .railNorise .. =>
    [.mode, .seq, .regs, .tb, .ph, .gal, .fe, .ch, .est, .rcp, .sump, .link, .ring, .sqz, .saf, .ldr, .twi, .rtc, .wdt, .thm, .intc,
     .nvm, .acc, .fab, .shadow, .out, .free, .pending]

/-! ### Requests of a session (R278 to R283, R476) -/

/-- A right message of session i, with i's state x: heard, whole, and from its endpoint. -/
def FromSession (s : State) (ep : Endpoint) (m : List Byte) (i : Nat) (x : Session) : Prop :=
  pzHeard s ep = true ∧ sessOf s ep = some i ∧ s.getSess i = some x ∧ Pz.whole m = true ∧ Pz.sess m = i

/-- It is the session's next request (R281). -/
def NextRequest (s : State) (ep : Endpoint) (m : List Byte) (i : Nat) (x : Session) : Prop :=
  FromSession s ep m i x ∧ x.busy = none ∧ Pz.seq m = (x.seq + 1) % 2 ^ 32 ∧ Pz.seq m ≠ x.seq

/-- The session has taken a request: its time and its SEQ. -/
def takenBy (m : List Byte) (i : Nat) (s : State) : State :=
  modSess i (fun y => { y with seq := Pz.seq m }) (modSess i (fun y => { y with lastTk := s.tb.run }) s)

/-- What an executed request answers. -/
def answered (ep : Endpoint) (m : List Byte) (i : Nat) (a : PzAns) : State := pzDone ep i (Pz.type m) (Pz.seq m) a
/-- The commands that are requests of a session, with the form and the role that each needs and what each answers. -/
def requestTable : List (Nat × (Endpoint → List Byte → Instr) × (List Byte → Bool) × Role × (Nat → Session → List Byte → State → PzAns)) :=
  [(3, .heartbeat, emptyForm, .observer, fun _ _ _ t => .ok (heartbeatAns t) t),
   (0x10, .read, readForm, .observer, fun i _ b t => readAns i b t),
   (0x11, .write, writeForm, .controller, fun i _ b t => writeAns i b t),
   (0x20, .toldTemp, listForm 12 120 fun e => decide (byteAt e 1 ≤ 1), .teller, fun i _ b t => tempAns i b t),
   (0x21, .toldFixture, fun b => b.length == 32, .teller, fun i _ b t => fixtureAns i b t),
   (0x22, .toldBudget, budgetForm, .controller, fun i _ b t => budgetAns i b t),
   (0x23, .toldInhibit, fun b => b.length == 4 && decide (byteAt b 0 ≤ 1) && allZero (slice b 1 3), .controller,
     fun _ _ b t => toldAns { ok := 1, st := tellInhibit (byteAt b 0 == 1) t }),
   (0x24, .toldCellId, listForm 12 120 fun e => allZero (slice e 1 3), .controller, fun i _ b t => toldAns (toldFold b 12 (leAt b 0 2) (cellEntry i) t)),
   (0x30, .extSetpoint, listForm 24 60 fun e => decide (byteAt e 1 ≤ 3) && decide (byteAt e 2 ≤ 1) && byteAt e 3 == 0, .controller,
     fun i _ b t => toldAns (toldFold b 24 (leAt b 0 2) (extEntry i) t)),
   (0x40, .ringSub, fun b => b.length == 12 && decide (byteAt b 8 ≤ 1) && decide (byteAt b 9 ≤ 3) && allZero (slice b 10 2), .observer, subAns),
   (0x43, .ringReplay, fun b => b.length == 12 && allZero (slice b 1 3), .observer, replayAns),
   (0x44, .ringPush, pushForm, .controller, fun i _ b t => pushAns i b t),
   (0x61, .imageBlock, blockForm, .controller, fun i _ b t => blockAns i b t)]

/-- The ACCESS operations: number, data bytes, their form, role, whether SERVICE is needed, and what each answers. -/
def accessTable : List (Nat × (Endpoint → List Byte → Instr) × Nat × (List Byte → Bool) × Role × Bool × (Nat → List Byte → State → AccAns)) :=
  [(1, .challenge, 0, anyData, .controller, false, fun i _ t => accChallenge i t),
   (2, .unlockHmac, 32, anyData, .controller, false, accUnlockHmac),
   (3, .unlockPwd, 32, anyData, .controller, false, accUnlockPwd),
   (4, .enter, 0, anyData, .controller, false, fun i _ t => accEnter i t),
   (5, .exit, 0, anyData, .controller, true, fun _ _ t => accExit t),
   (6, .regionUnlock, 36, headData, .observer, false, fun i d t => accRegionUnlock i (byteAt d 0) (d.drop 4) t),
   (7, .regionLock, 4, headData, .observer, false, fun i d t => accRegionLock i (byteAt d 0) t),
   (8, .regionPwd, 36, headData, .controller, true, fun _ d t => accRegionPwd (byteAt d 0) (d.drop 4) t),
   (9, .tap, 4, fun d => headData d && decide (byteAt d 0 ≤ 1), .controller, true, fun i d t => accTap i (byteAt d 0 == 1) t)]

end Sys2Proof.Machine
end

