-- ==== Sys2Proof/Certificates/Slice0/Obligations.lean ====
section
/-!
DEFINITION. The statements about the block, family by family: what holds of every command and of every step first, then what each
command does. A docstring names the rules a statement comes from; a statement that rests on a choice of the model names its log entry.
-/

open Sys2Proof Sys2Proof.Machine

/-- A step takes the command at the front of the queue, and runs it with the queue's rest; an empty queue is one microsecond of the
counts (log entry 4). -/
def Obligations.StepTakesTheFrontCommand : Prop :=
  (∀ (c : Instr) (rest : List Instr) (s : State), step { s with pending := c :: rest } = exec c { s with pending := rest }) ∧
  (∀ s : State, s.pending = [] → ∃ t, step s = .next t ∧ t = oscTick (wdtTick s) ∧ t.pending = [])

/-- No command ends a run: each answers a next state, in every state. -/
def Obligations.EveryCommandAnswersANextState : Prop := ∀ (c : Instr) (s : State), ∃ t, exec c s = .next t

/-- What State.reset holds (derived): the mode, the queue, the calendar, the rings, the watchdog tokens, the channels and the configuration
words; and it has the forms that every step keeps. -/
def Obligations.ResetHoldsTheStatedValues : Prop :=
  State.reset.mode = .backup ∧ State.reset.pending = [] ∧ State.reset.intc.pend = [] ∧ State.reset.regs = [] ∧
  (∀ a, cfgW State.reset a = cfgDefault a) ∧
  (∀ r, r < 64 → (State.reset.getRing r).en = true ∧ (State.reset.getRing r).next = 0 ∧ (State.reset.getRing r).drop = 0 ∧
    (State.reset.getRing r).owner = none) ∧
  (∀ i, i < 24 → (State.reset.slot i).token = 0x5A00 + i ∧ (State.reset.slot i).count = 0) ∧
  (∀ k, k < 128 → (State.reset.getCh k).st = .disabled) ∧
  (∀ i, i < 4 → State.reset.getSess i = none) ∧
  calSeconds State.reset.rtc.cal = 0 ∧ State.reset.rtc.valid = false ∧
  (∀ p, (State.reset.shad p).wide = []) ∧
  regsWf 0 State.reset.regs = true ∧ Memory.wf State.reset = true ∧ CapturesWf State.reset ∧
  Lengths State.reset = true ∧ StacksRise State.reset ∧ OneController State.reset

/-- What a command does not touch it leaves unchanged: for every command, each part of State outside `touches c` is after it as it was
before. -/
def Obligations.EachCommandKeepsWhatItDoesNotTouch : Prop :=
  ∀ (c : Instr) (s t : State), exec c s = .next t → Within (touches c) s t

/-- What is kept as sorted lists keeps its canonical form in every step: the configuration words (no word at its reset value), the bytes of the
store, and the words captured for each access path. -/
def Obligations.StoredWordsStayCanonical : Prop :=
  ∀ s t : State, step s = .next t →
    (regsWf 0 s.regs = true → regsWf 0 t.regs = true) ∧ (Memory.wf s = true → Memory.wf t = true) ∧ (CapturesWf s → CapturesWf t)

/-- The tables that State holds as lists keep their lengths in every step. -/
def Obligations.TablesKeepTheirLengths : Prop := ∀ s t : State, Lengths s = true → step s = .next t → Lengths t = true

/-- R450, R451 (derived): in every step the priorities in each target's in-service stack rise strictly towards its top, so a stack holds at
most 16 sources. -/
def Obligations.ClaimStacksKeepRising : Prop :=
  ∀ s t : State, StacksRise s → step s = .next t → StacksRise t ∧ ∀ l ∈ t.intc.stk, l.length ≤ 16

/-- R283 (derived): at most one session is the controller, after every step. -/
def Obligations.AtMostOneController : Prop :=
  ∀ s t : State, OneController s → step s = .next t → OneController t

/-- R310 (stated): the error of bounded-loss coding, for each sample and for the running sum; lossless coding has none. The steps a record
is coded with are even, and the record carries them. -/
def Obligations.CodingErrorIsBounded : Prop :=
  (∀ (q : Nat) (x : List Int), q ≠ 0 → q % 2 = 0 →
    (recon q (coded q x)).length = x.length ∧
    ∀ j, j < x.length → ((recon q (coded q x)).getD j 0 - x.getD j 0).natAbs ≤ q / 2 ∧
      (sumI ((recon q (coded q x)).take (j + 1)) - sumI (x.take (j + 1))).natAbs ≤ q / 2) ∧
  (∀ x : List Int, recon 0 (coded 0 x) = x) ∧
  (∀ b f qv qi d, qv % 2 = 0 → qi % 2 = 0 → (qv = 0 → qi = 0) → (nFit b f qv qi d).1 % 2 = 0 ∧ (nFit b f qv qi d).2.1 % 2 = 0) ∧
  (∀ b qv qi d, qv < 2 ^ 32 → qi < 2 ^ 32 → leAt (nCoded b qv qi d id) 40 4 = qv ∧ leAt (nCoded b qv qi d id) 44 4 = qi)

/-- R308 (derived): a decoder reads from a predictive stream the elements that were coded, for every order and parameter, whatever bits
follow the stream. -/
def Obligations.CodedStreamsDecode : Prop :=
  ∀ (order k : Nat) (z0 : Int) (l : List Int) (pad : List Bool), k ≤ 23 → (∀ u ∈ sqzResiduals order z0 [z0] l, u < 2 ^ 32) →
    readStream order k z0 [z0] l.length (sqzBits order k (z0 :: l) ++ pad) = some l

/-- R211 (stated): the first bin that matches wins; a bin matches if every quantity in its mask is valid and inside its limits; without one
the bin is 0xFF and EST_NO_BIN is raised. -/
def Obligations.TheFirstMatchingBinWins : Prop :=
  (∀ g b x, binMatch g b x = true ↔
    ∀ q ∈ [(0, x.cap, (leAt (slice g (4 + 36 * b) 36) 4 4 : Int), (leAt (slice g (4 + 36 * b) 36) 8 4 : Int)),
           (1, x.dcir, (leAt (slice g (4 + 36 * b) 36) 12 4 : Int), (leAt (slice g (4 + 36 * b) 36) 16 4 : Int)),
           (2, x.k, leAtS (slice g (4 + 36 * b) 36) 20 4, leAtS (slice g (4 + 36 * b) 36) 24 4),
           (3, x.ocv, leAtS (slice g (4 + 36 * b) 36) 28 4, leAtS (slice g (4 + 36 * b) 36) 32 4)],
      bitN (byteAt (slice g (4 + 36 * b) 36) 0) q.1 = true → ∃ v, q.2.1 = some v ∧ q.2.2.1 ≤ v ∧ v ≤ q.2.2.2) ∧
  (∀ g b x, b < byteAt g 2 → binMatch g b x = true → (∀ c, c < b → binMatch g c x = false) → binOf g x = b) ∧
  (∀ g x, (∀ c, c < byteAt g 2 → binMatch g c x = false) → binOf g x = 0xFF) ∧
  (∀ s k cause g, alFind (s.getCh k).rcp.recipe s.rcp.grades = some g → binOf g (gradedOf s k) = 0xFF →
    ∃ e ∈ (grade k cause s).fab.events, e.cause = Cause.estNoBin)

/-- R344 (stated): what an accepted DEV_RELEASE does. -/
def Obligations.DeviceReleaseReturnsToTheFormerMode : Prop :=
  ∀ s p, s.mode.up = true → loaderBusy s = false → mayRelease s p = true → devUnmet s = none →
    ∃ t, exec (.devRelease p 0xA5) s = .next t ∧ t.saf.dev = none ∧
      (s.saf.from_ ≠ .service → t.mode = s.saf.from_) ∧
      (s.saf.from_ = .service → (∃ i x, s.getSess i = some x ∧ x.role = .controller) → t.mode = .service) ∧
      (s.saf.from_ = .service → (∀ x ∈ s.link.sess, ∀ y, x = some y → y.role ≠ .controller) → t.mode = .run) ∧
      (s.saf.keepAlive = true → s.saf.checked = true → s.saf.proof = none → t.mode.up = true → t.saf.safeN = false) ∧
      (t.fab.events.getLast?).map (·.cause) = some Cause.safReleased ∧
      (∀ k, (t.getCh k).st = (s.getCh k).st ∧ (t.getCh k).rcp = (s.getCh k).rcp)

/-- R525 (stated): the mode codes, in the responses of HELLO and HEARTBEAT and in the STOP record. -/
def Obligations.ModeCodesAreThoseOfTheManual : Prop :=
  Mode.backup.code = 0 ∧ Mode.ship.code = 1 ∧ Mode.rest.code = 2 ∧ Mode.load.code = 3 ∧ Mode.run.code = 4 ∧ Mode.safe.code = 5 ∧
  Mode.service.code = 6 ∧ (∀ m : Mode, m.code < 7) ∧
  (∀ s, byteAt (heartbeatAns s) 0 = s.mode.code ∧ byteAt (stopPayload s) 1 = s.mode.code) ∧
  (∀ ep i m s, i < 4 → Lengths s = true → ∃ x q, (openSession ep i m s).getSess i = some x ∧ x.kept = some q ∧
    byteAt q (16 + 7) = s.mode.code ∧
    ((s.getPort ep.port).full (frameLen (q.length + 46) (ownTag s (pcpCtl s))) = false →
      (openSession ep i m s).out = s.out ++ [.perzo ep.port 51520 (some ep.mac) ep.ip ep.udp (ownTag s (pcpCtl s)) q]))

/-- R4, R6, R7, R26, R356 (derived): a register write in every form: misaligned, unmapped, before there is an access path, refused by the
loader, to an absent channel, to a register that takes no writes, to a configuration word of each access type, to any other register; and
what a write to a bit that 1 clears does. -/
def Obligations.RegisterWritesByAccessType : Prop :=
  (∀ s p a v, (a % 4 ≠ 0 ∨ findReg a = none ∨ s.mode.up = false) → exec (.regWrite p a v) s = .next s) ∧
  (∀ s p a v h, s.mode.up = true → loaderBusy s = true → a % 4 = 0 → findReg a = some h → h.row.id ≠ .ldrCmd →
    exec (.regWrite p a v) s = .next (raiseReg Cause.ldrBusy a s)) ∧
  (∀ s p v, s.mode.up = true → exec (.regWrite p 0x00D000 v) s = .next (writeLdrCmd p v s)) ∧
  (∀ s p a v h, s.mode.up = true → loaderBusy s = false → a % 4 = 0 → findReg a = some h → slotReg a = true → populated s h.inst = false →
    exec (.regWrite p a v) s = .next (raiseA .fabric Cause.chAbsent h.inst a s)) ∧
  (∀ s p a v h, s.mode.up = true → loaderBusy s = false → a % 4 = 0 → findReg a = some h →
      (slotReg a = false ∨ populated s h.inst = true) →
    exec (.regWrite p a v) s = .next (writeHit p a h v s) ∧
    (h.row.acc = .ro ∨ h.row.acc = .rc → exec (.regWrite p a v) s = .next s) ∧
    (h.row.id = .cfg → (h.row.acc = .rwl ∧ s.mode ≠ .load ∧ s.mode ≠ .service ∨ h.row.acc = .rws ∧ s.mode ≠ .service) →
      exec (.regWrite p a v) s = .next (raiseReg Cause.regWriteLocked a s)) ∧
    (h.row.id = .cfg → regsWf 0 s.regs = true →
        (h.row.acc = .rw ∨ h.row.acc = .rwl ∧ (s.mode = .load ∨ s.mode = .service) ∨ h.row.acc = .rws ∧ s.mode = .service) →
        ¬(0x010000 ≤ a ∧ a < 0x020000 ∧ 0x28 ≤ a % 0x200 ∧ a % 0x200 ≤ 0x34 ∧ native s h.inst = false) →
      ∃ t, exec (.regWrite p a v) s = .next t ∧ cfgW t a = v &&& wordN h.row.mask ∧ (∀ b, b ≠ a → cfgW t b = cfgW s b) ∧
        (a ≠ 0x006000 → Within [.regs, .link, .saf] s t)) ∧
    (h.row.id = .cfg → 0x010000 ≤ a → a < 0x020000 → 0x28 ≤ a % 0x200 → a % 0x200 ≤ 0x34 → native s h.inst = false →
        (s.mode = .load ∨ s.mode = .service) →
      exec (.regWrite p a v) s = .next s)) ∧
  (∀ s p v, s.mode = .service → loaderBusy s = false →
    exec (.regWrite p 0x000208 v) s = .next { s with fab := { s.fab with hold := v.toNat.testBit 8 } }) ∧
  (∀ s p v, s.mode.up = true → loaderBusy s = false → s.mode ≠ .service →
    exec (.regWrite p 0x000208 v) s = .next (raiseReg Cause.regWriteLocked 0x000208 s)) ∧
  (∀ s p (n : Fin 128) v, s.mode.up = true → loaderBusy s = false →
    ∃ t, exec (.regWrite p (Addr.ph n 0x98) v) s = .next t ∧ Within [.ph] s t ∧ (∀ j, j ≠ n.val → t.getPh j = s.getPh j) ∧
      t.getPh n = { s.getPh n with fltHist := w1c (s.getPh n).fltHist v 7 }) ∧
  (∀ x v w i, bitN (w1c x v w) i = (decide (i < w) && bitN x i && !v.toNat.testBit i))

/-- R4 to R8 (derived): reads in every form: a read-and-clear register answers its value and keeps only the bits of a racing event; the
lowest word of a wide quantity captures the others for its own path alone; an unmapped address reads 0; before there is an access path a
read does nothing, and so does a read command whose address is of another kind. -/
def Obligations.ReadsClearAndCapture : Prop :=
  (∀ s p a racing, (s.mode.up = false ∨ a % 4 ≠ 0 ∨ isRc a = false) → exec (.rcRead p a racing) s = .next s) ∧
  (∀ s p a h racing, s.mode.up = true → a % 4 = 0 → findReg a = some h → h.row.acc = .rc →
    ∃ t, exec (.rcRead p a racing) s = .next t ∧ t.out = s.out ++ [.readData p a (viewReg s p a h)] ∧
      t = emit (.readData p a (viewReg s p a h)) (rcPut p h racing s) ∧ (racing = 0 → viewReg t p a h = 0)) ∧
  (∀ s p (n : Fin 128) (racing : Word), s.mode.up = true → ∃ t, exec (.rcRead p (Addr.ph n 0x9C) racing) s = .next t ∧
    (t.getPh n).cntLim = racing.toNat ∧ (∀ j, j ≠ n.val → t.getPh j = s.getPh j) ∧ Within [.ph, .out] s t) ∧
  (∀ s p a, findReg a = none → readReg p a s = (0, s)) ∧
  (∀ s p a h, s.mode.up = true → a % 4 = 0 → findReg a = some h → captureSet s a h ≠ [] →
    exec (.wideReadCapture p a) s = .next (emit (.readData p a (viewReg s p a h)) (capture p (captureSet s a h) s))) ∧
  (∀ s p a, (s.mode.up = false ∨ a % 4 ≠ 0 ∨ ∀ h, findReg a = some h → captureSet s a h = []) → exec (.wideReadCapture p a) s = .next s) ∧
  (∀ s p l, (∀ q, q ≠ p → (capture p l s).shad q = s.shad q) ∧ Within [.shadow] s (capture p l s)) ∧
  (∀ s p (n : Fin 128), s.mode.up = false →
    exec (.feVsampRead p n) s = .next s ∧ exec (.lfrRead p n) s = .next s ∧ exec (.tbFracRead p) s = .next s) ∧
  (∀ s p (n : Fin 128), Lengths s = true → CapturesWf s → s.mode.up = true →
    ∃ t, exec (.feVsampRead p n) s = .next t ∧ t.out = s.out ++ [.readData p (Addr.fe n 0x84) (viewFe s n .feVsamp)] ∧
      captured t p (Addr.fe n 0x88) = viewFe s n .feIsamp ∧ captured t p (Addr.fe n 0x8C) = viewFe s n .feIcur ∧
      captured t p (Addr.fe n 0x90) = viewFe s n .feSflag ∧ (∀ q, q ≠ p → t.shad q = s.shad q) ∧ Within [.shadow, .out] s t) ∧
  (∀ s p (n : Fin 128), Lengths s = true → CapturesWf s → s.mode.up = true →
    ∃ t, exec (.lfrRead p n) s = .next t ∧ t.out = s.out ++ [.readData p (Addr.ph n 0x100) (bytesWord (s.getPh n).lfr 0)] ∧
      (∀ j, 1 ≤ j → j < 16 → captured t p (Addr.ph n 0x100 + 4 * j) = bytesWord (s.getPh n).lfr j) ∧
      (∀ q, q ≠ p → t.shad q = s.shad q) ∧ Within [.shadow, .out] s t) ∧
  (∀ s p, Lengths s = true → CapturesWf s → s.mode.up = true →
    ∃ t, exec (.tbFracRead p) s = .next t ∧ t.out = s.out ++ [.readData p 0x002084 (wordN s.tb.frac)] ∧
      captured t p 0x002088 = wordOf s.tb.sec 0 ∧ captured t p 0x00208C = wordOf (s.tb.sec % 2 ^ 48) 1 ∧
      captured t p 0x002090 = wordOf s.tb.run 0 ∧ captured t p 0x002094 = wordOf s.tb.run 1 ∧
      (∀ q, q ≠ p → t.shad q = s.shad q) ∧ Within [.shadow, .out] s t)

/-- R180, R313, R323 (derived): writes of RCP_SEL and of the codec's registers, every form: before there is an access path, while the loader
is at work, at another address, refused, and taken for the next block. -/
def Obligations.RecipeWindowAndCodecWrites : Prop :=
  (∀ s p v, s.mode.up = false → exec (.rcpSelWrite p v) s = .next s) ∧
  (∀ s p v, s.mode.up = true → loaderBusy s = true → exec (.rcpSelWrite p v) s = .next (raiseReg Cause.ldrBusy 0x060000 s)) ∧
  (∀ s p v, Lengths s = true → s.mode.up = true → loaderBusy s = false →
    ∃ t, exec (.rcpSelWrite p v) s = .next t ∧ (t.shad p).rcpSel = v &&& 0x13F1F ∧ (t.shad p).rcpWin = rcpSelected s (v &&& 0x13F1F) ∧
      (∀ q, q ≠ p → t.shad q = s.shad q) ∧ Within [.shadow] s t) ∧
  (∀ s p a v, (s.mode.up = false ∨ a < 0x009000 ∨ 0x009100 ≤ a ∨ a % 4 ≠ 0) → exec (.sqzCfgWrite p a v) s = .next s) ∧
  (∀ s p a v, s.mode.up = true → loaderBusy s = true → 0x009000 ≤ a → a < 0x009100 → a % 4 = 0 →
    exec (.sqzCfgWrite p a v) s = .next (raiseReg Cause.ldrBusy a s)) ∧
  (∀ s p (r : Fin 32) v, s.mode.up = true → loaderBusy s = false → field v 0 2 = 3 →
    exec (.sqzCfgWrite p (0x009000 + 4 * r.val) v) s = .next (raise .fabric Cause.sqzWriteBad 0xFF s)) ∧
  (∀ s p (r : Fin 32) v, s.mode.up = true → loaderBusy s = false → (v ≠ 0 ∨ sqzMode s r = 1) →
      (stepOk (field v 0 16) && stepOk (field v 16 16)) = false →
    exec (.sqzCfgWrite p (0x009080 + 4 * r.val) v) s = .next (raise .fabric Cause.sqzWriteBad 0xFF s)) ∧
  (∀ s p (r : Fin 32) v, regsWf 0 s.regs = true → s.mode.up = true → loaderBusy s = false →
      ((stepOk (field v 0 16) && stepOk (field v 16 16)) = true ∨ v = 0 ∧ sqzMode s r ≠ 1) →
    ∃ t, exec (.sqzCfgWrite p (0x009080 + 4 * r.val) v) s = .next t ∧ sqzQv t r = field v 0 16 ∧ sqzQi t r = field v 16 16 ∧
      (t.getSqz r).pend = openMask s r ∧ (∀ a, a ≠ 0x009080 + 4 * r.val → cfgW t a = cfgW s a) ∧ Within [.regs, .sqz, .link] s t) ∧
  (∀ s p (r : Fin 32) v, regsWf 0 s.regs = true → s.mode.up = true → s.mode ≠ .load → s.mode ≠ .service → loaderBusy s = false →
      field v 0 2 ≠ 3 →
    ∃ t, exec (.sqzCfgWrite p (0x009000 + 4 * r.val) v) s = .next t ∧ sqzMode t r = field v 0 2 ∧ sqzVerify t r = sqzVerify s r ∧
      (t.getSqz r).pend = openMask s r ∧ (∀ a, a ≠ 0x009000 + 4 * r.val → cfgW t a = cfgW s a) ∧
      (v.toNat.testBit 2 = sqzVerify s r → Within [.regs, .sqz, .link] s t) ∧
      (v.toNat.testBit 2 ≠ sqzVerify s r → ∃ e, t.fab.events = s.fab.events ++ [e] ∧ e.cause = Cause.regWriteLocked)) ∧
  (∀ s p (r : Fin 32) v, regsWf 0 s.regs = true → (s.mode = .load ∨ s.mode = .service) → loaderBusy s = false → field v 0 2 ≠ 3 →
    ∃ t, exec (.sqzCfgWrite p (0x009000 + 4 * r.val) v) s = .next t ∧ sqzMode t r = field v 0 2 ∧ sqzVerify t r = v.toNat.testBit 2 ∧
      (t.getSqz r).pend = openMask s r ∧ (∀ a, a ≠ 0x009000 + 4 * r.val → cfgW t a = cfgW s a) ∧ Within [.regs, .sqz, .link] s t)

/-- R386, R387, R390 to R392, R396 (derived): what starts a power-up, what each good rail slot does, what a slot that does not rise or has
not fallen does, and the retry: every form of the four commands. -/
def Obligations.PowerUpGoesFromSlotToSlot : Prop :=
  (∀ s mv, s.mode = .backup → s.seq.st = .off → s.seq.shipLatch = false →
    ∃ t, exec (.vinAuxValid mv true) s = .next t ∧ t.mode = .backup ∧ t.seq.vinOk = true ∧ t.seq.vin = mv % 2 ^ 16 ∧ t.seq.st = .up ∧
      t.seq.slot = 0 ∧ (t.getRail 0).en = true ∧ (∀ r, r ≠ 0 → t.getRail r = s.getRail r) ∧ Within [.seq] s t) ∧
  (∀ s mv, s.mode = .backup → s.seq.st = .off → s.seq.shipLatch = false →
    ∃ t, exec (.vinAuxValid mv false) s = .next t ∧ t = powerUp false { s with seq := { s.seq with vinOk := true, vin := mv % 2 ^ 16 } } ∧
      (t.getRail 0).en = (s.getRail 0).en ∧ (t.getRail 0).stuck = incSat 8 (s.getRail 0).stuck ∧
      ∃ e ∈ t.fab.events, e.cause = Cause.railStuck) ∧
  (∀ s mv f, s.mode = .backup → s.seq.st = .off → s.seq.shipLatch = true →
    (s.rtc.wakePend = false →
      exec (.vinAuxValid mv f) s = .next { s with mode := .ship, seq := { s.seq with vinOk := true, vin := mv % 2 ^ 16 } }) ∧
    (s.rtc.wakePend = true → exec (.vinAuxValid mv f) s = .next (powerUp f { s with
      mode := .ship, rtc := { s.rtc with wakePend := false }, seq := { s.seq with vinOk := true, vin := mv % 2 ^ 16 } }))) ∧
  (∀ s mv f, (s.mode ≠ .backup ∨ s.seq.st ≠ .off) →
    exec (.vinAuxValid mv f) s = .next { s with seq := { s.seq with vinOk := true, vin := mv % 2 ^ 16 } }) ∧
  (∀ s (r : Fin 8), s.seq.st = .up → s.seq.slot = r.val → (s.getRail r).en = true → (s.getRail r).good = false → r.val < 7 →
    ∃ t, exec (.railGood r true) s = .next t ∧ t.seq.st = .up ∧ t.seq.slot = r + 1 ∧ (t.getRail r).good = true ∧
      (t.getRail (r + 1)).en = true ∧ (∀ q, q ≠ r.val → q ≠ r + 1 → t.getRail q = s.getRail q) ∧ Within [.seq, .ph, .fab] s t) ∧
  (∀ s f, s.seq.st = .up → s.seq.slot = 7 → (s.getRail 7).en = true → (s.getRail 7).good = false → s.seq.restExit = none →
    ∃ t, exec (.railGood 7 f) s = .next t ∧ t.mode = .load ∧ t.seq.st = .on ∧ (t.getRail 7).good = true ∧ t.seq.fails = 0 ∧
      t.tb = {} ∧ t.ldr = {} ∧ t.link = {} ∧ t.intc = {} ∧ t.saf = {} ∧ t.pending = s.pending) ∧
  (∀ s f m, s.seq.st = .up → s.seq.slot = 7 → (s.getRail 7).en = true → (s.getRail 7).good = false → s.seq.restExit = some m →
    ∃ t, exec (.railGood 7 f) s = .next t ∧ t.seq.st = .on ∧ t.seq.restExit = none ∧ (t.getRail 7).good = true ∧
      (m = .safe → t.mode = s.mode) ∧ (m ≠ .safe → t.mode = m)) ∧
  (∀ s (r : Fin 8), s.seq.st = .up → s.seq.slot = r.val → (s.getRail r).en = true → (s.getRail r).good = false → r.val < 7 →
      s.seq.restExit = none →
    ∃ t, exec (.railGood r false) s = .next t ∧ (t.getRail (r + 1)).stuck = incSat 8 (s.getRail (r + 1)).stuck ∧ t.seq.st ≠ .up ∧
      ∃ e ∈ t.fab.events, e.cause = Cause.railStuck) ∧
  (∀ s (r : Fin 8) f, s.seq.st = .on → (s.getRail r).en = true → (s.getRail r).good = false →
    ∃ t, exec (.railGood r f) s = .next t ∧ (t.getRail r).good = true ∧ (∀ q, q ≠ r.val → t.getRail q = s.getRail q) ∧
      Within [.seq, .ph, .gal, .ch, .saf] s t) ∧
  (∀ s (r : Fin 8), s.seq.st = .up → s.seq.slot = r.val → (s.getRail r).en = true → (s.getRail r).good = false → r.val < 7 →
      s.seq.restExit.isSome = true →
    ∃ u, exec (.railGood r false) s = .next (powerUpDone (forEach [4, 5, 6, 7] (decideGal · Cause.safSupply) u)) ∧
      (u.getRail (r + 1)).stuck = incSat 8 (s.getRail (r + 1)).stuck ∧ (u.getRail r).good = true ∧
      ∃ e ∈ u.fab.events, e.cause = Cause.railStuck) ∧
  (∀ s (r : Fin 8) f, ((s.getRail r).en = false ∨ (s.getRail r).good = true ∨ s.seq.st ≠ .on ∧ ¬(s.seq.st = .up ∧ s.seq.slot = r.val)) →
    exec (.railGood r f) s = .next s) ∧
  (∀ s (r : Fin 8), ((s.getRail r).en = false ∨ (s.getRail r).good = true ∨ ¬(s.seq.st = .up ∧ s.seq.slot = r.val)) →
    exec (.railNorise r) s = .next s) ∧
  (∀ s (r : Fin 8), s.seq.st = .up → s.seq.slot = r.val → (s.getRail r).en = true → (s.getRail r).good = false → s.seq.restExit = none →
    exec (.railNorise r) s = .next (failedAttempt (raiseA .supervisor Cause.railNorise 0xFF r
      (modRail r (fun x => { x with noRise := incSat 8 x.noRise }) s)))) ∧
  (∀ s (r : Fin 8), s.seq.st = .up → s.seq.slot = r.val → (s.getRail r).en = true → (s.getRail r).good = false →
      s.seq.restExit.isSome = true →
    ∃ u, exec (.railNorise r) s = .next (if r.val = 6 then railOn 7 (forEach (galsOfRail r) (decideGal · Cause.safSupply) (railOff r u))
        else powerUpDone (forEach (galsOfRail r) (decideGal · Cause.safSupply) (railOff r u))) ∧
      (u.getRail r).noRise = incSat 8 (s.getRail r).noRise ∧ ∃ e ∈ u.fab.events, e.cause = Cause.railNorise) ∧
  (∀ s fallen, s.seq.st ≠ .restartWait → exec (.powerUpRetry fallen) s = .next s) ∧
  (∀ s fallen, s.seq.st = .restartWait → s.seq.vinOk = false →
    exec (.powerUpRetry fallen) s = .next { s with seq := { s.seq with st := .off } }) ∧
  (∀ s fallen, s.seq.st = .restartWait → s.seq.vinOk = true →
    (s.mode = .backup → s.seq.shipLatch = true → s.seq.onLatched = false →
      ∃ t, exec (.powerUpRetry fallen) s = .next t ∧ t.mode = .ship ∧ t.seq = { s.seq with st := .off } ∧ Within [.mode, .seq, .rtc] s t) ∧
    (s.mode ≠ .backup ∨ s.seq.shipLatch = false ∨ s.seq.onLatched = true →
      exec (.powerUpRetry fallen) s = .next (powerUp fallen { s with rtc := { s.rtc with wakePend := s.rtc.wakePend && s.mode != .ship } }))) ∧
  (∀ s, s.seq.st = .restartWait → s.seq.vinOk = true → s.mode ≠ .backup →
    ∃ t, exec (.powerUpRetry true) s = .next t ∧ t.seq.st = .up ∧ t.seq.slot = 0 ∧ (t.getRail 0).en = true ∧ t.seq.onLatched = false ∧
      Within [.seq, .rtc] s t)

/-- R388, R389, R392 to R394 (derived): the power-down's order, the two ways a slot's fall is awaited, the loss of VIN_AUX, its early
warning and a rail that leaves its window: every form of the six commands. -/
def Obligations.PowerDownDisablesDescending : Prop :=
  (∀ s (r q : Fin 8), s.seq.st = .down → s.seq.slot = r.val → (s.getRail r).en = false → s.seq.restEntry = false → q.val < r.val →
      (s.getRail q).en = true → (∀ j, q.val < j → j < r.val → (s.getRail j).en = false) →
    ∃ t, exec (.railFallen r) s = .next t ∧ (t.getRail q).en = false ∧ (t.getRail q).good = false ∧ t.seq.slot = q.val ∧ t.seq.st = .down ∧
      (∀ j, j ≠ q.val → t.getRail j = s.getRail j) ∧ Within [.seq, .ph] s t) ∧
  (∀ s (r : Fin 8), s.seq.st = .down → s.seq.slot = r.val → (s.getRail r).en = false →
    exec (.railFallen r) s = .next (slotDown r s) ∧
    exec (.railFallTimeout r) s = .next (slotDown r (raiseA .supervisor Cause.railStuck 0xFF r
      (modRail r (fun x => { x with stuck := incSat 8 x.stuck }) s)))) ∧
  (∀ s (r : Fin 8), (s.seq.st ≠ .down ∧ s.seq.st ≠ .reverse ∨ s.seq.slot ≠ r.val ∨ (s.getRail r).en = true) →
    exec (.railFallen r) s = .next s ∧ exec (.railFallTimeout r) s = .next s) ∧
  (∀ s, downReady s = false → exec .powerDownStart s = .next s) ∧
  (∀ s, downReady s = true ↔ (s.seq.wait.isSome = true ∧ s.tb.drain = none ∧ s.nvm.commit = none ∧
      (∀ t, s.seq.pfwTk = some t → floorTk (cfgF s 0x001004 16 5) ≤ since s t) ∧
      (s.seq.lastDown = 4 ∨ s.nvm.job = none ∧ (s.nvm.queue = [] ∨ s.nvm.refused = true)) ∧
      ∀ n, n < 128 → (s.getPh n).st ≠ .brake)) ∧
  (∀ s, downReady s = true →
    ∃ t, exec .powerDownStart s = .next t ∧ (∀ g, g < 8 → (t.getGal g).sen = false ∧ (t.getGal g).awake = false) ∧
      (∀ n, n < 128 → (t.getPh n).pwm.switching = false) ∧ t.tb = s.tb ∧ t.ch = s.ch) ∧
  (∀ s mv, ∃ t, exec (.vinAuxLost mv) s = .next t ∧ t.mode = .backup ∧ t.seq.st = .off ∧ t.seq.vinOk = false ∧ t.seq.vin = mv % 2 ^ 16 ∧
      t.seq.lastDown = 5 ∧
      t.seq.onLatched = false ∧ t.seq.nVin = incSat 8 s.seq.nVin ∧ (∀ r, r < 8 → (t.getRail r).en = false) ∧
      (∀ n, n < 128 → (t.getPh n).pwm = .hiZ) ∧ (∀ k, k < 128 → (t.getCh k).disc = false) ∧ (∀ g, g < 8 → (t.getGal g).sen = false) ∧
      t.nvm.queue = [] ∧ t.nvm.job = none ∧ t.saf.safeN = true ∧ t.tb.drain = none) ∧
  (∀ s mv, ((s.getRail 0).en = false ∨ s.seq.pfw = true) → exec (.seqPfw mv) s = .next s) ∧
  (∀ s mv, (s.getRail 0).en = true → s.seq.pfw = false →
    ∃ u, u = raise .supervisor Cause.seqPfw 0xFF { s with seq := { s.seq with pfw := true, vin := mv % 2 ^ 16, nPfw := incSat 8 s.seq.nPfw } } ∧
      (s.seq.st = .on → shuttingDown s = false → exec (.seqPfw mv) s = .next (modSeq (fun q => { q with
        pfwTk := some s.tb.run, force := true, lastDown := 3, wait := some (if s.seq.wait = some .ship then DownGoal.ship else .backup) }) (nvmLock { u with tb := { s.tb with drain := none } }))) ∧
      (s.seq.st = .on → shuttingDown s = true → exec (.seqPfw mv) s = .next u) ∧
      (s.seq.st = .up → exec (.seqPfw mv) s = .next (reverse .backup (modSeq (fun q => { q with lastDown := 3 }) u))) ∧
      (s.seq.st = .down → s.seq.restEntry = false → exec (.seqPfw mv) s = .next (if s.nvm.lock then u else nvmLock u)) ∧
      (s.seq.st = .off ∨ s.seq.st = .reverse ∨ s.seq.st = .restartWait → exec (.seqPfw mv) s = .next u)) ∧
  (∀ s (r : Fin 8) above, s.seq.st = .on → (s.getRail r).en = true → (s.getRail r).good = true → 6 ≤ r.val →
    exec (.railWindowExit r above) s = .next (forEach (if r.val = 6 then [0, 1, 2, 3] else [4, 5, 6, 7]) (decideGal · Cause.safSupply)
      (modRail r (fun x => { x with good := false, uv := if above then x.uv else incSat 8 x.uv, ov := if above then incSat 8 x.ov else x.ov }) s))) ∧
  (∀ s (r : Fin 8) above, s.seq.st = .on → (s.getRail r).en = true → (s.getRail r).good = true → 4 ≤ r.val → r.val < 6 →
    exec (.railWindowExit r above) s = .next (decideDev Cause.safSupply 0xFF false
      (modRail r (fun x => { x with good := false, uv := if above then x.uv else incSat 8 x.uv, ov := if above then incSat 8 x.ov else x.ov }) s))) ∧
  (∀ s (r : Fin 8) above, s.seq.st = .on → (s.getRail r).en = true → (s.getRail r).good = true → r.val < 4 →
    ∃ t u, exec (.railWindowExit r above) s = .next t ∧ t = beginDown (timedShutdown .backup 7 (raise .supervisor Cause.seqBrownout 0xFF u)) ∧
      u.seq.nBrown = incSat 8 s.seq.nBrown ∧ (u.getRail r).good = false ∧ Within [.seq, .ph, .gal, .ch, .saf, .fab] s u ∧
      (∀ g, g < 8 → t.getGal g = { u.getGal g with sen := false, awake := false }) ∧ (∀ n, n < 128 → (t.getPh n).pwm.switching = false)) ∧
  (∀ s (r : Fin 8) above, ((s.getRail r).en = false ∨ (s.getRail r).good = false ∨
      s.seq.st ≠ .on ∧ (6 ≤ r.val ∨ s.seq.restExit = none ∧ s.seq.restEntry = false)) →
    exec (.railWindowExit r above) s = .next s)

/-- R391, R396 to R400, R524 (derived): the push-button, the SEQ_CMD commands, the reset outputs, and entry to REST and exit from it: every
form of the ten commands. -/
def Obligations.ButtonAndSeqCommands : Prop :=
  (∀ s f, cfgF s 0x001000 2 1 = 0 → exec (.pbWake f) s = .next s) ∧
  (∀ s f, cfgF s 0x001000 2 1 ≠ 0 → s.seq.st = .on ∨ s.seq.st = .up ∨ s.seq.st ≠ .off ∧ s.seq.restEntry = true ∨
      s.seq.st = .off ∧ s.mode ≠ .ship ∧ (s.seq.vinOk = false ∨ s.mode.up = true) → exec (.pbWake f) s = .next s) ∧
  (∀ s f, cfgF s 0x001000 2 1 ≠ 0 → s.seq.st = .down ∨ s.seq.st = .reverse ∨ s.seq.st = .restartWait → s.seq.restEntry = false →
    exec (.pbWake f) s = .next (raise .supervisor Cause.seqOnLatched 0xFF { s with seq := { s.seq with onLatched := true } })) ∧
  (∀ s f, cfgF s 0x001000 2 1 ≠ 0 → s.seq.st = .off → s.mode ≠ .ship → s.seq.vinOk = true → s.mode.up = false →
    exec (.pbWake f) s = .next (powerUp f s)) ∧
  (∀ s f, cfgF s 0x001000 2 1 ≠ 0 → s.seq.st = .off → s.mode = .ship →
    exec (.pbWake f) s = .next (if s.seq.vinOk then powerUp f { s with seq := { s.seq with shipLatch := false } }
      else { s with seq := { s.seq with shipLatch := false } })) ∧
  (∀ s, cfgF s 0x001000 2 1 = 1 → s.mode = .ship → s.seq.st = .off → s.seq.vinOk = true →
    ∃ t, exec (.pbWake true) s = .next t ∧ t.seq.st = .up ∧ t.seq.slot = 0 ∧ t.seq.shipLatch = false ∧ (t.getRail 0).en = true ∧
      Within [.seq] s t) ∧
  (∀ s, cfgF s 0x001000 0 1 = 1 → s.mode = .run → s.seq.st = .on → s.seq.wait = none → s.seq.restExit = none →
    exec .pbShortPress s = .next { s with
      seq := { s.seq with wait := some .ship, lastDown := 1 },
      tb := { s.tb with drain := some { goal := .off, from_ := s.tb.run + 1, lim := cfgF s 0x00201C 0 16, entry := none } } }) ∧
  (∀ s, s.mode = .ship ∨ s.mode = .backup ∧ s.seq.st ≠ .up ∨ cfgF s 0x001000 0 1 = 0 → exec .pbShortPress s = .next s) ∧
  (∀ s, ¬(s.mode = .ship ∨ s.mode = .backup ∧ s.seq.st ≠ .up ∨ cfgF s 0x001000 0 1 = 0) →
    (s.seq.st = .up → s.seq.restExit = none →
      exec .pbShortPress s = .next (reverse .ship { s with seq := { s.seq with lastDown := 1 } })) ∧
    (sequenceRuns s = true → (s.seq.st ≠ .up ∨ s.seq.restExit ≠ none) →
      exec .pbShortPress s = .next (raise .supervisor Cause.seqCmdRefused 0xFF s))) ∧
  (∀ s, cfgF s 0x001000 1 1 = 0 → exec .pbLongPress s = .next s) ∧
  (∀ s, cfgF s 0x001000 1 1 ≠ 0 →
    ∃ u, u = raise .supervisor Cause.seqPbLong 0xFF { s with seq := { s.seq with nLong := incSat 8 s.seq.nLong, onLatched := false, lastDown := 4 } } ∧
      (s.seq.st = .up → exec .pbLongPress s = .next (reverse .ship { u with seq := { u.seq with restExit := none } })) ∧
      (s.seq.st = .off → exec .pbLongPress s = .next { u with mode := if s.seq.vinOk then .ship else s.mode, seq := { u.seq with shipLatch := true } }) ∧
      (s.seq.st = .restartWait → exec .pbLongPress s = .next { u with mode := .ship, seq := { u.seq with st := .off, shipLatch := true } }) ∧
      (s.seq.st = .down ∨ s.seq.st = .reverse →
        exec .pbLongPress s = .next { u with seq := { u.seq with goal := some .ship, restEntry := false } })) ∧
  (∀ s, cfgF s 0x001000 1 1 = 1 → s.seq.st = .on →
    exec .pbLongPress s = .next { raise .supervisor Cause.seqPbLong 0xFF s with
      seq := { s.seq with nLong := incSat 8 s.seq.nLong, onLatched := false, lastDown := 4, wait := some .ship, force := true },
      tb := { s.tb with drain := none } }) ∧
  (∀ s p, s.mode.up = true → loaderBusy s = false → s.seq.st = .on → s.seq.wait = none → s.seq.restExit = none →
    exec (.seqCmdOff p 0x69) s = .next { s with
      seq := { s.seq with wait := some .ship, lastDown := 1 },
      tb := { s.tb with drain := some { goal := .off, from_ := s.tb.run + 1, lim := cfgF s 0x00201C 0 16, entry := none } } } ∧
    exec (.seqCmdReboot p 0x69) s = .next { s with
      seq := { s.seq with wait := some .reboot, lastDown := 2 },
      tb := { s.tb with drain := some { goal := .off, from_ := s.tb.run + 1, lim := cfgF s 0x00201C 0 16, entry := none } } }) ∧
  (∀ s p key, s.mode.up = false → exec (.seqCmdOff p key) s = .next s ∧ exec (.seqCmdReboot p key) s = .next s ∧
    exec (.seqCmdHostrst p key) s = .next s ∧ exec (.seqCmdClrEvt p key) s = .next s) ∧
  (∀ s p key, s.mode.up = true → loaderBusy s = true →
    exec (.seqCmdOff p key) s = .next (raiseReg Cause.ldrBusy 0x00100C s) ∧ exec (.seqCmdReboot p key) s = .next (raiseReg Cause.ldrBusy 0x00100C s) ∧
    exec (.seqCmdHostrst p key) s = .next (raiseReg Cause.ldrBusy 0x00100C s) ∧
    exec (.seqCmdClrEvt p key) s = .next (raiseReg Cause.ldrBusy 0x00100C s)) ∧
  (∀ s p key, s.mode.up = true → loaderBusy s = false → key ≠ 0x69 →
    exec (.seqCmdOff p key) s = .next (raise .supervisor Cause.seqCmdRefused 0xFF s) ∧
    exec (.seqCmdReboot p key) s = .next (raise .supervisor Cause.seqCmdRefused 0xFF s) ∧
    exec (.seqCmdHostrst p key) s = .next (raise .supervisor Cause.seqCmdRefused 0xFF s) ∧
    exec (.seqCmdClrEvt p key) s = .next (raise .supervisor Cause.seqCmdRefused 0xFF s)) ∧
  (∀ s p, s.mode.up = true → loaderBusy s = false → sequenceRuns s = true →
    (s.seq.st ≠ .up ∨ s.seq.restExit ≠ none → exec (.seqCmdOff p 0x69) s = .next (raise .supervisor Cause.seqCmdRefused 0xFF s)) ∧
    exec (.seqCmdReboot p 0x69) s = .next (raise .supervisor Cause.seqCmdRefused 0xFF s)) ∧
  (∀ s p, s.mode.up = true → s.mode ≠ .service → loaderBusy s = false →
    exec (.seqCmdClrEvt p 0x69) s = .next (raise .supervisor Cause.seqCmdRefused 0xFF s)) ∧
  (∀ s p, s.mode.up = true → loaderBusy s = false →
    exec (.seqCmdHostrst p 0x69) s = .next { s with seq := { s.seq with rst0 := true } }) ∧
  (∀ s p, s.mode = .service → loaderBusy s = false →
    ∃ t, exec (.seqCmdClrEvt p 0x69) s = .next t ∧ t.seq.nPfw = 0 ∧ t.seq.nVin = 0 ∧ t.seq.nBrown = 0 ∧ t.seq.nLong = 0 ∧
      (∀ r, r < 8 → (t.getRail r).noRise = 0 ∧ (t.getRail r).stuck = 0 ∧ (t.getRail r).uv = 0 ∧ (t.getRail r).ov = 0 ∧
        (t.getRail r).en = (s.getRail r).en) ∧ Within [.seq] s t) ∧
  (∀ s, exec (.resetStretchEnd 0) s = .next { s with seq := { s.seq with rst0 := false } }) ∧
  (∀ s, ∃ t, exec (.resetStretchEnd 1) s = .next t ∧ t.seq = { s.seq with rst1 := false }) ∧
  (∀ s, ¬(s.mode = .rest ∧ s.seq.st = .on ∧ s.seq.wait = none ∧ (s.getRail 7).en = true) → exec .restEntry s = .next s) ∧
  (∀ s f, ¬(s.mode = .rest ∧ s.seq.st = .on ∧ s.seq.wait = none) → exec (.restExit f) s = .next s) ∧
  (∀ s, s.mode = .rest → s.seq.st = .on → s.seq.wait = none → ∃ u, exec (.restExit false) s = .next (railOn 7 (forEach [0, 1, 2, 3] (decideGal · Cause.safSupply) u)) ∧
    (u.getRail 6).stuck = incSat 8 (s.getRail 6).stuck ∧ u.seq.restExit = some .run ∧ u.seq.st = .up ∧ ∃ e ∈ u.fab.events, e.cause = Cause.railStuck) ∧
  (∀ s, s.mode = .rest → s.seq.st = .on → s.seq.wait = none → (s.getRail 7).en = true →
    exec .restEntry s = .next (railOff 7 (modSeq (fun q => { q with st := .down, restEntry := true })
      (stopStreams (forEach (upto 8) (modGal · fun g => { g with sen := false, awake := false }) s))))) ∧
  (∀ s, s.mode = .rest → s.seq.st = .on → s.seq.wait = none →
    ∃ t, exec (.restExit true) s = .next t ∧ t.seq.st = .up ∧ t.seq.restExit = some .run ∧ (t.getRail 6).en = true ∧ t.seq.slot = 6 ∧
      Within [.seq] s t)

/-- R356 to R361, R365 to R370 (derived): the steps of start-up: fuses, self-check, recall, choosing a slot, applying its image and
the end of LOAD, every form of the seven commands. The order in which the recall and the ROM check report is log entry 60's. -/
def Obligations.StartUpStepsOfTheLoader : Prop :=
  (∀ s, s.mode = .load → s.ldr.st = .boot → fuseOk s = true →
    exec .fuseRead s = .next (setCfg 0x00A000 (wordN (4 + eeSpeed s)) { s with ldr := { s.ldr with t2 := some s.tb.run } })) ∧
  (∀ s, s.mode = .load → s.ldr.st = .boot → fuseOk s = false →
    exec .fuseRead s = .next (raise .fabric Cause.ldrFuseBad 0xFF { s with ldr := { s.ldr with st := .halted } })) ∧
  (∀ s ok, (s.mode ≠ .load ∨ s.ldr.st ≠ .boot) →
    exec .fuseRead s = .next s ∧ exec (.islandSelfCheckDone ok) s = .next s ∧ exec (.storeRecallDone ok) s = .next s ∧
      exec (.recallTimeout ok) s = .next s) ∧
  (∀ s, s.mode = .load → s.ldr.st = .boot → s.ldr.t2.isSome = true → s.saf.checked = false →
    exec (.islandSelfCheckDone true) s =
      .next (updateSafeN { s with saf := { s.saf with checked := true, keepAlive := true } }) ∧
    exec (.islandSelfCheckDone false) s =
      .next (raise .fabric Cause.ldrIslandFail 0xFF { s with ldr := { s.ldr with st := .halted } })) ∧
  (∀ s ok, (s.ldr.t2 = none ∨ s.saf.checked = true) → exec (.islandSelfCheckDone ok) s = .next s) ∧
  (∀ s ok, (s.ldr.t2 = none ∨ s.saf.checked = false) → exec (.storeRecallDone ok) s = .next s ∧ exec (.recallTimeout ok) s = .next s) ∧
  (∀ s, s.mode = .load → s.ldr.st = .boot → s.ldr.t2.isSome = true → s.saf.checked = true → recallReason s = none →
    exec (.storeRecallDone true) s = .next (startRead (applyPatch (recallAll s))) ∧
    exec (.storeRecallDone false) s =
      .next (raise .fabric Cause.ldrRomFail 0xFF { recallAll s with ldr := { (recallAll s).ldr with st := .halted } })) ∧
  (∀ s r, s.mode = .load → s.ldr.st = .boot → s.ldr.t2.isSome = true → s.saf.checked = true → recallReason s = some r →
    ∃ t u, exec (.storeRecallDone true) s = .next t ∧ exec (.storeRecallDone false) s = .next u ∧ t.ldr.st = .reading ∧
      t.ldr.recallRef = true ∧ t.nvm.refused = true ∧ t.nvm.recalled = s.nvm.recalled ∧ t.ldr.patch = s.ldr.patch ∧
      t.seq.noStore = true ∧ t.seq.nPfw = 0 ∧ t.seq.nVin = 0 ∧ t.seq.nBrown = 0 ∧ t.seq.nLong = 0 ∧
      u.ldr.st = .halted ∧ u.nvm.refused = true ∧ u.out = s.out ∧ ∃ e ∈ u.fab.events, e.cause = Cause.ldrRomFail) ∧
  (∀ s t2, s.mode = .load → s.ldr.st = .boot → s.ldr.t2 = some t2 → s.saf.checked = true → floorTk 15 ≤ since s t2 →
    ∃ t u, exec (.recallTimeout true) s = .next t ∧ exec (.recallTimeout false) s = .next u ∧ t.ldr.st = .reading ∧ t.nvm.refused = true ∧
      t.out = s.out ++ [.eepromRead 0, .eepromRead 1] ∧ u.ldr.st = .halted ∧ u.nvm.refused = true ∧ u.out = s.out ∧
      (∃ e ∈ t.fab.events, e.cause = Cause.ldrRecallRefused ∧ (e.arg = leBytes 4 3 ∨ e.lost = true)) ∧
      ∃ e ∈ u.fab.events, e.cause = Cause.ldrRomFail) ∧
  (∀ s t2 ok, s.ldr.t2 = some t2 → since s t2 < floorTk 15 → exec (.recallTimeout ok) s = .next s) ∧
  (∀ s (slot : Fin 2) bytes other fail drop ok, (s.ldr.st ≠ .reading ∨ inLoad s = false) →
    exec (.imageReadDone slot bytes other fail drop ok) s = .next s) ∧
  (∀ s (slot : Fin 2) bytes other fail drop, s.ldr.st = .reading → inLoad s = true →
    ∃ t, exec (.imageReadDone slot bytes other fail drop false) s = .next t ∧ t.ldr.st = .halted ∧ t.regs = s.regs ∧
      ∃ e ∈ t.fab.events, e.cause = Cause.ldrSramFail) ∧
  (∀ s (slot : Fin 2) bytes other fail drop, s.ldr.st = .reading → inLoad s = true → s.ldr.order = [] → hdrGen bytes = 0 → hdrGen other = 0 →
    ∃ t, exec (.imageReadDone slot bytes other fail drop true) s = .next t ∧ t.ldr.st = .noImage ∧ t.regs = s.regs) ∧
  (∀ s (slot : Fin 2) bytes other fail drop n rest, s.ldr.st = .reading → inLoad s = true → s.ldr.order = n :: rest → n ≠ slot.val →
    ∃ t, exec (.imageReadDone slot bytes other fail drop true) s = .next t ∧ t.ldr.st = .reading ∧ t.ldr.order = s.ldr.order ∧
      t.out = s.out ++ [.eepromRead n] ∧ t.regs = s.regs) ∧
  (∀ s (slot : Fin 2) bytes other drop c rest, s.ldr.st = .reading → inLoad s = true → s.ldr.order = slot.val :: rest →
    ∃ t, exec (.imageReadDone slot bytes other (some c) drop true) s = .next t ∧ t.regs = s.regs ∧ t.ldr.order = rest ∧
      (s.ldr.cause = 0 → t.ldr.cause = c + 0xFF * 2 ^ 16 + slot.val * 2 ^ 24) ∧ (s.ldr.cause ≠ 0 → t.ldr.cause = s.ldr.cause) ∧
      (rest = [] → t.ldr.st = .noImage) ∧ (∀ m l, rest = m :: l → t.ldr.st = .reading ∧ t.ldr.second = true ∧ t.out = s.out ++ [.eepromRead m])) ∧
  (∀ s (slot : Fin 2) bytes other drop rest, s.ldr.st = .reading → inLoad s = true → s.ldr.order = slot.val :: rest →
    ∃ t, exec (.imageReadDone slot bytes other none drop true) s = .next t ∧ t.regs = s.regs ∧ t.mode = s.mode ∧
      (∀ m, checkContainer bytes = .inr m →
        t.ldr.st = .applying ∧ t.ldr.image = some bytes ∧ t.ldr.order = s.ldr.order ∧ t.ldr.genAlt = hdrGen other) ∧
      (∀ e, checkContainer bytes = .inl e → t.ldr.order = rest ∧
        (s.ldr.cause = 0 → t.ldr.cause = e.1 + e.2 * 2 ^ 16 + slot.val * 2 ^ 24) ∧ (rest = [] → t.ldr.st = .noImage) ∧
        (∀ m l, rest = m :: l → t.ldr.st = .reading ∧ t.ldr.second = true ∧ t.out = s.out ++ [.eepromRead m]))) ∧
  (∀ s b, s.ldr.st = .applying → inLoad s = true → s.ldr.image = some b →
    ∃ t, exec .imageApplyDone s = .next t ∧ t.ldr.st = .selftest ∧ t.ldr.slot = s.ldr.order.headD 0 ∧ t.ldr.fallback = s.ldr.second ∧
      t.ldr.gen = hdrGen b ∧ t.rcp.rcp = payloadsOf (loadedImg b) SectT.rcp ∧ t.mode = s.mode ∧ t.ph = s.ph) ∧
  (∀ s fails, (s.ldr.st ≠ .applying ∨ inLoad s = false ∨ s.ldr.image = none) → exec .imageApplyDone s = .next s ∧
    ((s.ldr.st ≠ .selftest ∨ inLoad s = false ∨ s.ldr.image = none) → exec (.endOfLoad fails) s = .next s)) ∧
  (∀ s b fails, s.ldr.st = .selftest → inLoad s = true → s.ldr.image = some b →
    ∃ t, exec (.endOfLoad fails) s = .next t ∧ (s.mode = .load → t.mode = .run) ∧ (s.mode ≠ .load → t.mode = s.mode ∧ t.saf.from_ = .run) ∧
      t.ldr.st = .loaded ∧ t.ldr.applied = true ∧ t.ldr.image = none ∧ t.ldr.time = satN (tkMs (since s s.ldr.loadTk)) 0xFFFF ∧
      t.rcp = s.rcp ∧ t.sump = s.sump ∧
      ∀ k, k < 128 → (t.getCh k).nph = (loadedImg b).n k ∧ (t.getCh k).pop = (loadedImg b).p k ∧
        ((s.getCh k).safe = none → (∀ n ∈ frontEndsOf t k, ∀ c, ((n, c) ∈ fails.map fun x => (x.1.val, x.2.val)) → c < 2) →
          (t.getCh k).st = if populated t k then .idle else .disabled))

/-- R372, R373, R376, R382 (derived): LDR_CMD, the update path and its page writes, every form of the five commands. -/
def Obligations.LoaderCommandsAndUpdates : Prop :=
  (∀ s p key (slot : Fin 2), s.mode.up = false → exec (.ldrCmdReload p key) s = .next s ∧ exec (.ldrCmdCommit p key slot) s = .next s ∧
    exec (.ldrCmdAbort p key) s = .next s) ∧
  (∀ s p key (slot : Fin 2), s.mode.up = true → (key ≠ 0x3C ∨ ldrMay s p = false) →
    ∀ c ∈ [Instr.ldrCmdReload p key, .ldrCmdCommit p key slot, .ldrCmdAbort p key],
      exec c s = .next (raise .fabric Cause.ldrUpdRefused 0xFF { s with ldr := { s.ldr with nRef := incSat 8 s.ldr.nRef } })) ∧
  (∀ s p, s.mode.up = true → ldrMay s p = true → loading s = true → exec (.ldrCmdReload p 0x3C) s = .next (raise .fabric Cause.ldrBusy 0xFF s)) ∧
  (∀ s p, (s.mode = .run ∨ s.mode = .service) → loading s = false → ldrMay s p = true → s.tb.drain = none → s.seq.st = .on → s.seq.wait = none →
    exec (.ldrCmdReload p 0x3C) s = .next { s with
      tb := { s.tb with drain := some { goal := .load, from_ := s.tb.run + 1, lim := cfgF s 0x00201C 0 16, entry := none } } }) ∧
  (∀ s p, s.mode = .load → loading s = false → s.ldr.st ≠ .halted → ldrMay s p = true → s.seq.st = .on → s.seq.wait = none →
    ∃ t, exec (.ldrCmdReload p 0x3C) s = .next t ∧ t.ldr.st = .reading ∧ t.ldr.order = [] ∧ t.ldr.cause = 0 ∧
      t.out = s.out ++ [.eepromRead 0, .eepromRead 1] ∧ Within [.ldr, .out] s t) ∧
  (∀ s p, s.mode.up = true → loading s = false → ldrMay s p = true →
      (s.seq.st ≠ .on ∨ s.seq.wait ≠ none ∨ s.mode = .rest ∨ s.mode = .safe ∨ s.mode = .load ∧ s.ldr.st = .halted ∨
        s.mode ≠ .load ∧ s.tb.drain ≠ none) →
    exec (.ldrCmdReload p 0x3C) s = .next (raise .fabric Cause.ldrUpdRefused 0xFF { s with ldr := { s.ldr with nRef := incSat 8 s.ldr.nRef } })) ∧
  (∀ s (i : Fin 4) u h (slot : Fin 2), s.mode.up = true → ldrMay s (.sess i) = true → s.ldr.upd = some u → u.sess = i.val →
      u.slot = slot.val → u.committing = false → heldHdr u = some h → s.ldr.gen < hdrGen h →
    exec (.ldrCmdCommit (.sess i) 0x3C slot) s =
      .next { s with ldr := { s.ldr with upd := some { u with committing := true } }, out := s.out ++ [.eepromRead slot] }) ∧
  (∀ s (i : Fin 4) u (slot : Fin 2), s.mode.up = true → ldrMay s (.sess i) = true → s.ldr.upd = some u → u.sess = i.val →
      u.slot = slot.val → u.committing = false → (∀ h, heldHdr u = some h → hdrGen h ≤ s.ldr.gen) →
    ∃ t, exec (.ldrCmdCommit (.sess i) 0x3C slot) s = .next t ∧ t.ldr.upd = some u ∧ t.ldr.nRef = incSat 8 s.ldr.nRef ∧ t.out = s.out ∧
      ((heldHdr u = none ∨ ∃ h, heldHdr u = some h ∧ hdrGen h = 0) → ∃ e ∈ t.fab.events, e.cause = Cause.ldrHdrBad) ∧
      (∀ h, heldHdr u = some h → hdrGen h ≠ 0 → ∃ e ∈ t.fab.events, e.cause = Cause.ldrGenOld)) ∧
  (∀ s p (slot : Fin 2), s.mode.up = true → ldrMay s p = true →
      (∀ u (i : Fin 4), s.ldr.upd = some u → p = .sess i → u.sess ≠ i.val ∨ u.slot ≠ slot.val ∨ u.committing = true) →
    exec (.ldrCmdCommit p 0x3C slot) s =
      .next (raise .fabric Cause.ldrUpdRefused 0xFF { s with ldr := { s.ldr with nRef := incSat 8 s.ldr.nRef } })) ∧
  (∀ s rb ok, (s.mode.up = false ∨ ∀ u, s.ldr.upd = some u → u.committing = false) → exec (.commitDone rb ok) s = .next s) ∧
  (∀ s u h rb, s.mode.up = true → s.ldr.upd = some u → u.committing = true → heldHdr u = some h →
    ∃ t f, exec (.commitDone rb true) s = .next t ∧ exec (.commitDone rb false) s = .next f ∧ t.regs = s.regs ∧ f.regs = s.regs ∧
      (∀ m, walkAndCrc (h ++ rb) = .inr m →
        t.ldr.upd = none ∧ t.ldr.nCommit = incSat 8 s.ldr.nCommit ∧ t.ldr.genAlt = hdrGen h ∧
          t.out = s.out ++ [.eepromWrite (u.slot * 0x20000) h] ∧
        f.ldr.upd = some { u with committing := false } ∧ f.ldr.nRef = incSat 8 s.ldr.nRef ∧ f.out = s.out ++ [.eepromWrite (u.slot * 0x20000) h]) ∧
      (∀ e, walkAndCrc (h ++ rb) = .inl e →
        t.ldr.upd = some { u with committing := false } ∧ t.out = s.out ∧ t.ldr.nRef = incSat 8 s.ldr.nRef ∧ f = t)) ∧
  (∀ s p, s.mode.up = true → ldrMay s p = true →
    exec (.ldrCmdAbort p 0x3C) s = .next { s with ldr := { s.ldr with upd := none } }) ∧
  (∀ s ok, (s.mode.up = false ∨ ∀ u, s.ldr.upd = some u → u.pages = []) → exec (.eepromPageWriteDone ok) s = .next s) ∧
  (∀ s u p1 rest, s.mode.up = true → s.ldr.upd = some u → u.pages = p1 :: rest →
    ∃ t, exec (.eepromPageWriteDone false) s = .next t ∧ t.regs = s.regs ∧ (∀ v, t.ldr.upd = some v → v.pages = []) ∧
      ∃ e ∈ t.fab.events, e.cause = Cause.twiNack) ∧
  (∀ s u p1 a b rest, s.mode.up = true → s.ldr.upd = some u → u.pages = p1 :: (a, b) :: rest →
    ∃ t, exec (.eepromPageWriteDone true) s = .next t ∧ t.out = s.out ++ [.eepromWrite a b] ∧
      t.ldr.upd = some { u with pages := (a, b) :: rest } ∧ Within [.ldr, .twi, .out, .free] s t) ∧
  (∀ s u p1, s.mode.up = true → s.ldr.upd = some u → u.pages = [p1] →
    ∃ t, exec (.eepromPageWriteDone true) s = .next t ∧ t.ldr.upd = some { u with pages := [], block := none } ∧ t.ring = s.ring ∧
      t.regs = s.regs)

/-- R40, R43 to R48, R51 to R53, R58, R59 (derived): on-times, off-times, the token and the two limits, every form of the eight
commands. Where an instant is given it is in units of 2^-30 s. -/
def Obligations.OnTimesTokenAndLimits : Prop :=
  (∀ s (n : Fin 128) at_, mayStart s n at_ = false → exec (.onTimeStart n at_) s = .next s) ∧
  (∀ s (n : Fin 128) at_, mayStart s n at_ = true → (s.getPh n).limNow = true →
    ∃ t, exec (.onTimeStart n at_) s = .next t ∧ t = limitedCycle n at_ s ∧ (t.getPh n).onTime = false) ∧
  (∀ s (n : Fin 128) at_, mayStart s n at_ = true → (s.getPh n).limNow = false →
    ∃ t, exec (.onTimeStart n at_) s = .next t ∧ (t.getPh n).onTime = true ∧ (t.getPh n).tStart = at_ ∧
      (t.getPh n).pwm = (if (s.getPh n).dir then .low else .high) ∧
      (t.getPh n).tonCode = (s.getPh n).tonMail.getLastD (s.getPh n).tonCode ∧ (t.getPh n).tonMail = [] ∧
      (t.getPh n).sat = ((s.getPh n).reachedMax && at_ == (s.getPh n).tEnd + tOffMin) ∧
      (t.getPh n).olRun = (if ((s.getPh n).reachedMax && at_ == (s.getPh n).tEnd + tOffMin && !(s.getPh n).olHit) = true
        then satN ((s.getPh n).olRun + 1) 4 else 0) ∧
      (t.getPh n).ocfRun = (if (s.getPh n).limCycle = true then (s.getPh n).ocfRun else 0) ∧ (t.getPh n).limCycle = false ∧
      (t.getPh n).shedStep = (if 0 < (s.getPh n).shedStep ∧ (s.getPh n).shedStep < 8 then (s.getPh n).shedStep + 1 else (s.getPh n).shedStep) ∧
      ((s.getCh (chanOr s n)).nph < 2 → ∀ k, t.getCh k = s.getCh k) ∧
      (2 ≤ (s.getCh (chanOr s n)).nph → (t.getCh (chanOr s n)).tokStart = at_ ∧
        (t.getCh (chanOr s n)).token = nextToken (s.getCh (chanOr s n)).active (n.val - chanOr s n) ∧
        ∀ k, k ≠ chanOr s n → t.getCh k = s.getCh k) ∧
      ((s.getPh n).shedStep = 0 → ∀ j, j ≠ n.val → t.getPh j = s.getPh j) ∧ Within [.ph, .ch] s t) ∧
  (∀ s (n : Fin 128) at_, (s.getPh n).limCycle = true → limitedCycle n at_ s = s) ∧
  (∀ s (n : Fin 128) at_, (s.getPh n).limCycle = false →
    ((limitedCycle n at_ s).getPh n).limCycle = true ∧ ((limitedCycle n at_ s).getPh n).lim = true ∧
    ((limitedCycle n at_ s).getPh n).cntLim = incSat 32 (s.getPh n).cntLim ∧
    ((limitedCycle n at_ s).getPh n).ocfRun = incSat 8 (s.getPh n).ocfRun ∧
    ((s.getPh n).ocfRun + 1 = 8 → bitN ((limitedCycle n at_ s).getPh n).flt 0 = true) ∧
    ((s.getPh n).ocfRun + 1 ≠ 8 → ((limitedCycle n at_ s).getPh n).flt = (s.getPh n).flt ∧ Within [.ph, .ch] s (limitedCycle n at_ s))) ∧
  (∀ s (n : Fin 128) at_ code calls, (s.getPh n).onTime = true → (s.getPh n).limNow = true → blanked s n at_ = false →
    ∃ u, exec (.onTimeEnd n at_ code calls) s = .next (limitedCycle n at_ u) ∧ (u.getPh n).onTime = false ∧ (u.getPh n).tEnd = at_ ∧
      (u.getPh n).imon = imonOf s n code.toNat ∧ (u.getPh n).pwm = (if (s.getPh n).dir then .high else .low) ∧
      (∀ j, j ≠ n.val → u.getPh j = s.getPh j) ∧ Within [.ph] s u) ∧
  (∀ s (n : Fin 128) at_ code calls, ((s.getPh n).onTime && (s.getPh n).limNow && !blanked s n at_) = false →
      ((s.getPh n).onTime = false ∨ at_ - (s.getPh n).tStart < (s.getPh n).tonCode ∨
        calls = true ∧ at_ - (s.getPh n).tStart < tonMax s n (s.getPh n).tonCode) →
    exec (.onTimeEnd n at_ code calls) s = .next s) ∧
  (∀ s (n : Fin 128) at_ code calls, ((s.getPh n).limNow && !blanked s n at_) = false → (s.getPh n).onTime = true →
      (s.getPh n).tonCode ≤ at_ - (s.getPh n).tStart →
      (calls = false ∨ tonMax s n (s.getPh n).tonCode ≤ at_ - (s.getPh n).tStart) →
    ∃ t, exec (.onTimeEnd n at_ code calls) s = .next t ∧ (t.getPh n).onTime = false ∧ (t.getPh n).tEnd = at_ ∧
      (t.getPh n).imon = imonOf s n code.toNat ∧ (t.getPh n).pwm = (if (s.getPh n).dir then .high else .low) ∧
      (t.getPh n).cycles = (s.getPh n).cycles + 1 ∧
      (t.getPh n).reachedMax = decide (tonMax s n (s.getPh n).tonCode ≤ at_ - (s.getPh n).tStart) ∧
      (∀ j, j ≠ n.val → t.getPh j = s.getPh j) ∧ Within [.ph] s t) ∧
  (∀ s (n : Fin 128), exec (.imonZeroCross n) s = .next
    (if (s.getPh n).onTime = false ∧ (s.getPh n).pwm.switching = true then modPh n (fun p => { p with pwm := .mid, imon := 0, limNow := false }) s
     else s)) ∧
  (∀ s (n : Fin 128), ¬(s.mode.up = true ∧ populated s (chanOr s n) = true ∧ phFsw s n ≠ 0) → exec (.tonCodeUpdate n) s = .next s) ∧
  (∀ s (n : Fin 128), s.mode.up = true → populated s (chanOr s n) = true → phFsw s n ≠ 0 →
    ∃ t, exec (.tonCodeUpdate n) s = .next t ∧ (t.getPh n).tonCode = (s.getPh n).tonCode ∧
      (t.getPh n).tonMail.getLast? = some (tonOf (s.getPh n).dir (vOf s (chanOr s n)) (vsumpUv s) (phFsw s n)) ∧
      ((s.getPh n).tonMail.length ≤ 2 → (t.getPh n).tonMail.length ≤ 2) ∧
      (∀ j, j ≠ n.val → t.getPh j = s.getPh j) ∧ Within [.ph] s t) ∧
  (∀ s (n : Fin 128) at_, exec (.tokenSkip n at_) s = .next
    (if 2 ≤ (s.getCh (chanOr s n)).nph ∧ (s.getCh (chanOr s n)).allMid = false ∧ (s.getCh (chanOr s n)).token = n.val - chanOr s n ∧
        (s.getCh (chanOr s n)).active.contains (n.val - chanOr s n) = true ∧
        (s.getCh (chanOr s n)).tokT + 2 * 2 ^ 30 / ((s.getCh (chanOr s n)).active.length * phFsw s (chanOr s n) * 1000) ≤ at_ then
      modCh (chanOr s n) (fun c => { c with token := nextToken c.active (n.val - chanOr s n), tokT := at_ })
        (modPh n (fun p => { p with cntSkip := incSat 32 p.cntSkip }) s)
     else s)) ∧
  (∀ s (n : Fin 128) at_ code, (s.mode.up && populated s (chanOr s n)) = false → exec (.fastLimitCross n at_ code) s = .next s) ∧
  (∀ s (n : Fin 128) at_ code, s.mode.up = true → populated s (chanOr s n) = true →
    ∃ u, (u.getPh n).imon = imonOf s n code.toNat ∧ (u.getPh n).limNow = beyondOcf s n code.toNat ∧ (∀ j, j ≠ n.val → u.getPh j = s.getPh j) ∧
      Within [.ph] s u ∧
      (beyondOcf s n code.toNat = true → (s.getPh n).onTime = true → blanked s n at_ = false →
        exec (.fastLimitCross n at_ code) s = .next (limitedCycle n at_ u) ∧ (u.getPh n).onTime = false ∧ (u.getPh n).tEnd = at_ ∧
        (u.getPh n).pwm = (if (s.getPh n).dir then .high else .low)) ∧
      (beyondOcf s n code.toNat = true → (s.getPh n).onTime = false → coincides s n at_ = true →
        exec (.fastLimitCross n at_ code) s = .next (limitedCycle n at_ u)) ∧
      (beyondOcf s n code.toNat = false ∨ (s.getPh n).onTime = true ∧ blanked s n at_ = true ∨
          (s.getPh n).onTime = false ∧ coincides s n at_ = false →
        exec (.fastLimitCross n at_ code) s = .next u ∧ (u.getPh n).onTime = (s.getPh n).onTime)) ∧
  (∀ s (n : Fin 128) sum, (s.mode.up && populated s (chanOr s n)) = false → exec (.slowLimitBinEnd n sum) s = .next s) ∧
  (∀ s (n : Fin 128) sum, s.mode.up = true → populated s (chanOr s n) = true →
    ∃ u, (u.getPh n).ocsBins = ((imonMean s n sum (128 * Nat.max 1 (Nat.min 8 (since s (s.getPh n).ocsFrom))),
        Nat.max 1 (Nat.min 8 (since s (s.getPh n).ocsFrom))) :: (s.getPh n).ocsBins).take (ocsBinsN s n) ∧
      (u.getPh n).iavg = rnd (sumI ((u.getPh n).ocsBins.map fun b => b.1 * (b.2 : Int))) (sumN ((u.getPh n).ocsBins.map fun b => b.2)) ∧
      (∀ j, j ≠ n.val → u.getPh j = s.getPh j) ∧ Within [.ph] s u ∧
      ((u.getPh n).iavg.natAbs ≤ phOcsThr s n → exec (.slowLimitBinEnd n sum) s = .next u) ∧
      (phOcsThr s n < (u.getPh n).iavg.natAbs → exec (.slowLimitBinEnd n sum) s = .next (latchPhase n 1 Cause.phOcsTrip (lineU s / 16) u))) ∧
  (∀ s (n : Fin 128) at_ codes, ((s.getGal (galOf n)).sen && populated s (chanOr s n)) = false ∨ (∃ c, c ∈ codes.toList ∧ imonInRange c.toNat = true) →
    exec (.phImonRange n at_ codes) s = .next s) ∧
  (∀ s (n : Fin 128) at_ codes, (s.getGal (galOf n)).sen = true → populated s (chanOr s n) = true →
      (∀ c, c ∈ codes.toList → imonInRange c.toNat = false) →
    ∃ u, exec (.phImonRange n at_ codes) s = .next (latchPhase n 6 Cause.phImonRange (at_ / 4) u) ∧ Within [.ph] s u ∧
      (u.getPh n).imon = imonOf s n codes[3].toNat ∧ (∀ j, j ≠ n.val → u.getPh j = s.getPh j)) ∧
  (∀ s (n : Fin 128) b cause count, bitN (s.getPh n).flt b = true → latchPhase n b cause count s = s) ∧
  (∀ s (n : Fin 128) b cause count, bitN (s.getPh n).flt b = false →
    ((latchPhase n b cause count s).getPh n).flt = setBitN (s.getPh n).flt b true ∧
    ((latchPhase n b cause count s).getPh n).fltHist = setBitN (s.getPh n).fltHist b true ∧
    ((latchPhase n b cause count s).getPh n).onTime = ((s.getPh n).onTime && decide (n.val ∉ phasesOf s (chanOr s n))) ∧
    ((latchPhase n b cause count s).getPh n).st ∈ [PhSt.brake, PhSt.fault] ∧ Within [.ph, .ch, .saf, .fab] s (latchPhase n b cause count s))

/-- R39, R55 to R57, R60, R61, R65 to R69 (derived): waking, braking, DISC, shedding, open load and its confirmation, every form of
the ten commands. -/
def Obligations.BrakeShedAndConfirmation : Prop :=
  (∀ s (g : Fin 8), (s.getGal g).sen = false → exec (.stageWakeDone g) s = .next s) ∧
  (∀ s (g : Fin 8), (s.getGal g).sen = true →
    ∃ t, exec (.stageWakeDone g) s = .next t ∧ (t.getGal g).awake = true ∧
      (∀ n, n < 128 → t.getPh n = if galOf n = g.val ∧ (s.getPh n).st = .off then { s.getPh n with st := .idle } else s.getPh n) ∧
      Within [.ph, .gal] s t) ∧
  (∀ s (n : Fin 128) us codes, (s.getPh n).st ≠ .brake ∨ (∃ c, c ∈ codes.toList ∧ phBrkExit s n < (imonOf s n c.toNat).natAbs) →
    exec (.brakeExit n us codes) s = .next s) ∧
  (∀ s (n : Fin 128) us codes, (s.getPh n).st = .brake → (∀ c, c ∈ codes.toList → ((imonOf s n c.toNat).natAbs : Int) ≤ phBrkExit s n) →
    ∃ t, exec (.brakeExit n us codes) s = .next t ∧
      (t.getPh n).st = (if (s.getPh n).flt &&& phFaultMask ≠ 0 then .fault
        else if (s.getCh (chanOr s n)).allMid = false ∧ (s.getCh (chanOr s n)).active.contains (n.val - chanOr s n) = false then .shed
        else if (s.getGal (galOf n)).sen then .idle else .off) ∧
      (t.getPh n).lfr = (match (s.getPh n).lfrOpen with | some b => lfrFinish us b | none => (s.getPh n).lfr) ∧
      (t.getPh n).lfrOpen = none ∧ (∀ j, j ≠ n.val → t.getPh j = s.getPh j) ∧ Within [.ph, .ch] s t) ∧
  (∀ s (n : Fin 128) at_, (s.getPh n).st ≠ .brake → exec (.phBrakeStuck n at_) s = .next s) ∧
  (∀ s (n : Fin 128) at_, (s.getPh n).st = .brake →
    ∃ t, exec (.phBrakeStuck n at_) s = .next t ∧ (t.getPh n).st = .fault ∧ (t.getPh n).lfrOpen = none ∧
      bitN (t.getPh n).flt 5 = true ∧ Within [.ph, .ch, .saf, .fab] s t) ∧
  (∀ s (k : Fin 128), exec (.discOffDeadline k) s = .next
    (if (s.getCh k).discOpening = true then modCh k (fun c => { c with disc := false, discOpening := false }) s else s)) ∧
  (∀ s (k : Fin 128), shedDue s k = false → exec (.shedStart k) s = .next s) ∧
  (∀ s (k : Fin 128), shedDue s k = true →
    ∃ t, exec (.shedStart k) s = .next t ∧ (t.getCh k).dwell = 0 ∧ (t.getCh k).active = (s.getCh k).active ∧
      (∀ n, n < 128 → n = k.val + (s.getCh k).active.getLastD 0 → (t.getPh n).st = .shedding ∧ (t.getPh n).shedStep = 1 ∧
        (t.getPh n).shedFrom = (s.getPh n).share) ∧ Within [.ph, .ch] s t) ∧
  (∀ s (k : Fin 128), (∀ o, shedding s k = some o → (s.getPh (k.val + o)).shedStep ≠ 8) → exec (.shedComplete k) s = .next s) ∧
  (∀ s (k : Fin 128) o, shedding s k = some o → (s.getPh (k.val + o)).shedStep = 8 →
    ∃ t u, exec (.shedComplete k) s = .next t ∧ t = readmit k u ∧ (u.getCh k).active = (s.getCh k).active.filter (· != o) ∧
      ((s.getCh k).active.filter (· != o) ≠ [] → (u.getCh k).token ≠ o) ∧ (k.val + o < 128 → (u.getPh (k.val + o)).cntShed = incSat 16 (s.getPh (k.val + o)).cntShed ∧
        (u.getPh (k.val + o)).onTime = false) ∧ Within [.ph, .ch] s t) ∧
  (∀ s (n : Fin 128), ¬((s.getPh n).olRun = 4 ∧ (s.getCh (chanOr s n)).active.contains (n.val - chanOr s n) = true ∧
      (s.getCh (chanOr s n)).suspect = false) → exec (.phOpenLoad n) s = .next s) ∧
  (∀ s (n : Fin 128), (s.getPh n).olRun = 4 → (s.getCh (chanOr s n)).active.contains (n.val - chanOr s n) = true →
      (s.getCh (chanOr s n)).suspect = false →
    ∃ t, exec (.phOpenLoad n) s = .next t ∧ bitN (t.getPh n).flt 2 = true ∧ bitN (t.getPh n).fltHist 2 = true ∧
      ((s.getCh (chanOr s n)).st.active = true → (t.getCh (chanOr s n)).suspect = true ∧ (t.getCh (chanOr s n)).test = some {} ∧
        (t.getCh (chanOr s n)).reg.iDem = 0 ∧ (t.getCh (chanOr s n)).declTk = s.tb.run + 1) ∧
      ∃ e l, t.fab.events = s.fab.events ++ e :: l ∧ e.cause = Cause.phOpenLoad) ∧
  (∀ s (k : Fin 128), exec (.confirmBiasStart k) s = .next
    (if (s.getCh k).test.isSome = true then modCh k (fun c => { c with test := some { biased := true, biasTk := s.tb.run } }) s else s)) ∧
  (∀ s (k : Fin 128), (∀ u, (s.getCh k).test = some u → u.biased = false) → exec (.confirmTestOutcome k) s = .next s) ∧
  (∀ s (k : Fin 128) u, (s.getCh k).test = some u → u.biased = true →
    ∃ t, exec (.confirmTestOutcome k) s = .next t ∧ (t.getCh k).test = none ∧
      ((s.getCh k).st = .lost → (t.getCh k).isOpen = openAfter s k u ∧ (t.getCh k).fltNext = (s.getCh k).fltNext ∧ Within [.ch] s t) ∧
      ((s.getCh k).st ≠ .lost → u.openA = true → (u.openB = true ∨ native s k = false) →
        (t.getCh k).lostNext = true ∧ (t.getCh k).isOpen = true ∧ Within [.ch] s t) ∧
      ((s.getCh k).st ≠ .lost → native s k = true → u.openA = true → u.openB = false → (s.getCh k).fltNext = none →
        (t.getCh k).fltNext = some Cause.phSenseOpenA ∧ bitN (t.getPh k).flt 4 = true) ∧
      ((s.getCh k).st ≠ .lost → native s k = true → u.openA = false → u.openB = true → (s.getCh k).fltNext = none →
        (t.getCh k).fltNext = some Cause.phSenseOpenB ∧ bitN (t.getPh k).flt 4 = true) ∧
      ((s.getCh k).st ≠ .lost → u.openA = false → (u.openB = false ∨ native s k = false) → (s.getCh k).fltNext = none →
        (t.getCh k).fltNext = some (if (s.getCh k).susOvr then Cause.feVOvr else Cause.phNoCurrent))) ∧
  (∀ s (k : Fin 128), exec (.confirmTestRepeat k) s = .next
    (if (s.getCh k).st = .lost then modCh k (fun c => { c with test := some {} }) s else s))

/-- R328 to R332, R335, R337, R340 (derived): the island's device decisions, every form of the four commands. Entering SAFE turns every
output to its safe level; while a device safe state is in force a decision moves none. That SAF_LOCKSTEP with recovery enters the
device safe state too is log entry 61's reading. -/
def Obligations.DeviceSafeStateOutputs : Prop :=
  (∀ s, s.mode.up = true → s.saf.dev = none →
    ∀ c cause, (c = Instr.safSumpOv2 true ∧ cause = Cause.safSumpOv2 ∨ c = .safClkLoss ∧ cause = Cause.safClkLoss ∨
        (∃ a m, c = .safParam a m ∧ isThreshold a = true ∧ m ≠ 0) ∧ cause = Cause.safParam ∨ c = .safLockstep true ∧ cause = Cause.safLockstep) →
    ∃ t, exec c s = .next t ∧ t.mode = .safe ∧ t.saf.dev = some (cause, 0xFF) ∧ t.saf.lastCause = (cause, 0xFF) ∧ t.saf.safeN = true ∧
      t.saf.classX = (cause != Cause.safSumpOv2) ∧ t.saf.nDev = incSat 8 s.saf.nDev ∧
      (∀ g, g < 8 → (t.getGal g).sen = false) ∧
      (∀ n, n < 128 → (t.getPh n).pwm.switching = false) ∧
      (∀ k, k < 128 → declared s k = true → (t.getCh k).discWant = false ∧
        ((t.getCh k).disc = false ∨ (t.getCh k).discOpening = true))) ∧
  (∀ s d, s.mode.up = true → s.saf.dev = some d →
    exec (.safSumpOv2 true) s = .next { s with saf := { s.saf with
      ov2 := true, hist := setBitN s.saf.hist (Cause.safSumpOv2 % 32) true, devBadTk := s.tb.run } } ∧
    exec .safClkLoss s = .next { s with saf := { s.saf with
      clkLost := true, classX := true, hist := setBitN s.saf.hist (Cause.safClkLoss % 32) true, devBadTk := s.tb.run } } ∧
    (∀ a m, isThreshold a = true → m ≠ 0 → exec (.safParam a m) s = .next { s with saf := { s.saf with
      copies := alSet 0 a m s.saf.copies, classX := true, hist := setBitN s.saf.hist (Cause.safParam % 32) true, devBadTk := s.tb.run } }) ∧
    ∃ t, exec (.safLockstep true) s = .next t ∧ t.saf.dev = some d ∧ t.saf.keepAlive = false ∧ t.saf.safeN = true ∧ t.saf.classX = true ∧
      t.saf.nDev = s.saf.nDev ∧ t.mode = s.mode ∧ (∀ g, g < 8 → (t.getGal g).sen = false) ∧ ∀ n, n < 128 → (t.getPh n).pwm.switching = false) ∧
  (∀ s, s.mode.up = true →
    ∃ t, exec (.safLockstep false) s = .next t ∧ t.saf.dev = s.saf.dev ∧ t.saf.keepAlive = false ∧ t.saf.safeN = true ∧ t.mode = s.mode ∧
      t.saf.entry = true ∧ (∀ g, g < 8 → (t.getGal g).sen = false) ∧ ∀ n, n < 128 → (t.getPh n).pwm.switching = false) ∧
  (∀ s, s.mode.up = true → exec (.safSumpOv2 false) s = .next
    (if s.saf.ov2 = true then { s with saf := { s.saf with ov2 := false, devBadTk := s.tb.run } } else s)) ∧
  (∀ s b a m, s.mode.up = false → exec (.safSumpOv2 b) s = .next s ∧ exec .safClkLoss s = .next s ∧ exec (.safParam a m) s = .next s ∧
    exec (.safLockstep b) s = .next s) ∧
  (∀ s a m, (isThreshold a = false ∨ m = 0) → exec (.safParam a m) s = .next s)

/-- R329, R331 to R334, R336, R338, R341, R346 (derived): the island's other checks, the comparators' tests and the signature, every
form of the eight commands. -/
def Obligations.IslandChecksAndTests : Prop :=
  (∀ s, s.mode.up = true → tempEn s = true → exec .islandTempCheck s = .next (forEach (upto 128) checkTemp s)) ∧
  (∀ s, (s.mode.up = false ∨ tempEn s = false) → exec .islandTempCheck s = .next s) ∧
  (∀ s k, ((s.getCh k).st = .step ∨ (s.getCh k).st = .hold) →
    (toldHot s k = true → toldOld s k = false → checkTemp k s = decideCh k Cause.safTmax none s) ∧
    (toldHot s k = false → toldOld s k = true → checkTemp k s = decideCh k Cause.safTstale none s) ∧
    ((s.getTold k).t = none → checkTemp k s = decideCh k Cause.safTstale none s) ∧
    (toldHot s k = false → toldOld s k = false → checkTemp k s = s)) ∧
  (∀ s k, (s.getCh k).st ≠ .step → (s.getCh k).st ≠ .hold → checkTemp k s = s) ∧
  (∀ s k cause a, k < 128 → chSafe s k = false →
    ∃ t, decideCh k cause a s = t ∧ (t.getCh k).safe = some cause ∧ (t.getCh k).fltNext.isSome = true ∧ t.saf.nCh = incSat 8 s.saf.nCh ∧
      bitN t.saf.hist (cause % 32) = true ∧ (t.getCh k).discWant = false ∧ (∃ e ∈ t.fab.events, e.cause = cause) ∧ t.mode = s.mode ∧
      (∀ n ∈ phasesOf s k, n < 128 → (t.getPh n).pwm.switching = false)) ∧
  (∀ s k cause a, chSafe s k = true → decideCh k cause a s = { s with saf := { s.saf with hist := setBitN s.saf.hist (cause % 32) true } }) ∧
  (∀ s (g : Fin 8), vioGood s = true →
    exec (.safSflt g) s = .next (decideGal g Cause.safSflt (modGal g (fun x => { x with sflt := true }) s))) ∧
  (∀ s (g : Fin 8), vioGood s = false → exec (.safSflt g) s = .next s) ∧
  (∀ s (g : Fin 8), exec (.sfltHigh g) s = .next
    (if (s.getGal g).sflt = true then modGal g (fun x => { x with sflt := false, sfltHighTk := s.tb.run }) s else s)) ∧
  (∀ s, s.mode.up = true → 8 ≤ s.fab.ovNow → exec .safFabricStall s = .next (decideDev Cause.safFabricStall 0xFF true s)) ∧
  (∀ s, (s.mode.up = false ∨ s.fab.ovNow < 8) → exec .safFabricStall s = .next s) ∧
  (∀ s, ∃ t, exec .keepaliveLost s = .next t ∧ t.saf.keepAlive = false ∧ t.saf.safeN = true ∧ t.mode = s.mode ∧ t.saf.dev = s.saf.dev ∧
    (∀ g, g < 8 → (t.getGal g).sen = false) ∧ ∀ n, n < 128 → (t.getPh n).pwm.switching = false) ∧
  (∀ s (n : Fin 128), (cmpDue s n = none ∨ s.mode.up = false ∨ cmptEn s = false ∨ fePowered s n = false ∨ (s.getFe n).cmpTest ≠ none ∨
      ∃ a i, cmpDue s n = some (a, i) ∧ i ≤ (s.getFe n).cmpDone) →
    exec (.cmpTestStart n) s = .next s) ∧
  (∀ s (n : Fin 128) a i, s.mode.up = true → cmptEn s = true → fePowered s n = true → (s.getFe n).cmpTest = none → cmpDue s n = some (a, i) →
      (s.getFe n).cmpDone < i →
    (cmpTestOk s n = true →
      exec (.cmpTestStart n) s = .next (modFe n (fun f => { f with cmpTest := some false, cmpDefer := none, cmpRetest := false, cmpDone := i }) s)) ∧
    (cmpTestOk s n = false → (s.getFe n).cmpDefer = none →
      exec (.cmpTestStart n) s = .next (modFe n (fun f => { f with cmpDefer := some a }) s)) ∧
    (∀ t, cmpTestOk s n = false → (s.getFe n).cmpDefer = some t → since s t < secTk (cmptS s) → exec (.cmpTestStart n) s = .next s) ∧
    (∀ t, cmpTestOk s n = false → (s.getFe n).cmpDefer = some t → secTk (cmptS s) ≤ since s t →
      exec (.cmpTestStart n) s = .next (raise .island Cause.safCmpDefer (chanOr s n)
        (modFe n (fun f => { f with cmpDefer := some (t + secTk (cmptS s)) }) s)))) ∧
  (∀ s (n : Fin 128), cmpDue s n = if s.saf.cmpFrom + n * cmptS s * 64 ≤ s.tb.run then
      some (s.saf.cmpFrom + n * cmptS s * 64 + (since s (s.saf.cmpFrom + n * cmptS s * 64) / secTk (cmptS s)) * secTk (cmptS s),
        since s (s.saf.cmpFrom + n * cmptS s * 64) / secTk (cmptS s) + 1) else none) ∧
  (∀ s (n : Fin 128) pass, (s.getFe n).cmpTest = none → exec (.cmpTestDone n pass) s = .next s) ∧
  (∀ s (n : Fin 128), (s.getFe n).cmpTest = some false →
    exec (.cmpTestDone n false) s = .next (modFe n (fun f => { f with cmpTest := some true })
      { s with saf := { s.saf with nCmpt := incSat 8 s.saf.nCmpt } })) ∧
  (∀ s (n : Fin 128), (s.getFe n).cmpTest = some true → (s.getFe n).cmpRetest = false →
    exec (.cmpTestDone n false) s = .next (decideCh (chanOr s n) Cause.safCmpTest none (cmpReact n (modFe n (fun f => { f with cmpTest := none })
      { s with saf := { s.saf with nCmpt := incSat 8 s.saf.nCmpt } })))) ∧
  (∀ s (n : Fin 128), (s.getFe n).cmpTest = some true → (s.getFe n).cmpRetest = true →
    ∃ t, exec (.cmpTestDone n false) s = .next t ∧ (t.getFe n).cmpTest = none ∧
      (∀ m ∈ frontEndsOf s (chanOr s n), m < 128 → (t.getFe m).cmpTest = none ∧ (t.getFe m).cmpRetest = false) ∧
      chSafe t (chanOr s n) = true ∧ (∃ e ∈ t.fab.events, e.cause = Cause.chCmdRefused) ∧ t.mode = s.mode) ∧
  (∀ s (n : Fin 128) r, (s.getFe n).cmpTest = some r → (s.getFe n).cmpRetest = false →
    exec (.cmpTestDone n true) s = .next (cmpReact n (modFe n (fun f => { f with cmpTest := none }) s)) ∧
    ((s.getFe n).cmpOv = false → (s.getFe n).cmpUv = false →
      exec (.cmpTestDone n true) s = .next (modFe n (fun f => { f with cmpTest := none }) s))) ∧
  (∀ s (n : Fin 128) r, (s.getFe n).cmpTest = some r → (s.getFe n).cmpRetest = true →
    exec (.cmpTestDone n true) s = .next (retestDone (chanOr s n) (cmpReact n (modFe n (fun f => { f with cmpTest := none }) s)))) ∧
  (∀ s fl, (s.mode.up = false ∨ s.ldr.applied = false) → exec (.signatureDone fl) s = .next s) ∧
  (∀ s, s.mode.up = true → s.ldr.applied = true →
    (signature (safW s) = sigRef s → exec (.signatureDone none) s = .next { s with saf := { s.saf with sigNow := sigRef s, sigOk := true } }) ∧
    (signature (safW s) ≠ sigRef s → exec (.signatureDone none) s =
      .next (decideDev Cause.safSig 0xFF true { s with saf := { s.saf with sigNow := signature (safW s), sigOk := false } })) ∧
    (∀ a m, inSafetySet a = false → exec (.signatureDone (some (a, m))) s = exec (.signatureDone none) s) ∧
    (∀ a m, inSafetySet a = true → exec (.signatureDone (some (a, m))) s =
      exec (.signatureDone none) { s with saf := { s.saf with flips := alSet 0 a (alGet 0 a s.saf.flips ^^^ m) s.saf.flips } }))

/-- R343 to R345, R349, R350 (derived): releases, the proof test and the safety set's writes, every form of the six commands. What a
refusal names is the device's (log entry 3). -/
def Obligations.ReleaseProofAndSafetySet : Prop :=
  (∀ s p (g : Fin 8) key v, s.mode.up = false →
    ∀ c ∈ [Instr.galRelease p g key, .devRelease p key, .proof p key, .safSigrefWrite p v], exec c s = .next s) ∧
  (∀ s p (g : Fin 8) key v, s.mode.up = true → loaderBusy s = true →
    (∀ c ∈ [Instr.galRelease p g key, .devRelease p key, .proof p key], exec c s = .next (raiseReg Cause.ldrBusy 0x00508C s)) ∧
    exec (.safSigrefWrite p v) s = .next (raiseReg Cause.ldrBusy 0x00500C s)) ∧
  (∀ s p key (g : Fin 8), s.mode.up = true → loaderBusy s = false → (key ≠ 0xA5 ∨ mayRelease s p = false) →
    ∀ c ∈ [Instr.galRelease p g key, .devRelease p key, .proof p key],
      ∃ t, exec c s = .next t ∧ Within [.fab] s t ∧ ∃ e ∈ t.fab.events, e.cause = Cause.safReleaseRefused) ∧
  (∀ s p (g : Fin 8), s.mode.up = true → loaderBusy s = false → mayRelease s p = true → (s.getGal g).safe.isSome = true → s.saf.dev = none →
      (s.getGal g).sflt = false → msTk 10 ≤ since s (s.getGal g).sfltHighTk → driveGood s g = true → (s.getDie g).broken = false →
      (s.getDie g).t ≤ 12500 →
    exec (.galRelease p g 0xA5) s = .next (updateSens (modGal g (fun x => { x with safe := none }) s))) ∧
  (∀ s p (g : Fin 8), s.mode.up = true → loaderBusy s = false → mayRelease s p = true →
      ((s.getGal g).safe = none ∨ s.saf.dev ≠ none ∨ (s.getGal g).sflt = true ∨ since s (s.getGal g).sfltHighTk < msTk 10 ∨
        driveGood s g = false ∨ (s.getDie g).broken = true ∨ 12500 < (s.getDie g).t) →
    ∃ t, exec (.galRelease p g 0xA5) s = .next t ∧ Within [.fab] s t ∧ ∃ e ∈ t.fab.events, e.cause = Cause.safReleaseRefused) ∧
  (∀ s p, s.mode.up = true → loaderBusy s = false → mayRelease s p = true → s.saf.dev.isSome = true → s.saf.classX = false →
      secTk 1 ≤ since s s.saf.devTk → devCausePresent s = false → secTk 1 ≤ since s s.saf.devBadTk → s.saf.sigOk = true →
      s.seq.wait = none → s.seq.st ≠ .down → s.seq.st ≠ .reverse →
    ∃ t, exec (.devRelease p 0xA5) s = .next t ∧ t.saf.dev = none ∧
      t.mode = (if s.saf.from_ = .service ∧ hasController s = false then .run else s.saf.from_) ∧ t.regs = s.regs ∧ t.tb = s.tb ∧
      ∃ e ∈ t.fab.events, e.cause = Cause.safReleased) ∧
  (∀ s p, s.mode.up = true → loaderBusy s = false → mayRelease s p = true →
      (s.saf.dev = none ∨ s.saf.classX = true ∨ since s s.saf.devTk < secTk 1 ∨ devCausePresent s = true ∨ since s s.saf.devBadTk < secTk 1 ∨
        s.saf.sigOk = false ∨ s.seq.wait ≠ none ∨ s.seq.st = .down ∨ s.seq.st = .reverse) →
    ∃ t, exec (.devRelease p 0xA5) s = .next t ∧ Within [.fab] s t ∧ ∃ e ∈ t.fab.events, e.cause = Cause.safReleaseRefused) ∧
  (∀ s p, s.mode = .service → loaderBusy s = false → mayRelease s p = true → (∀ g, g < 8 → (s.getGal g).sen = false) →
      s.saf.proof = none →
    ∃ t, exec (.proof p 0xA5) s = .next t ∧ t.saf.proof = some { from_ := s.tb.run } ∧ t.saf.safeN = true ∧ Within [.saf] s t) ∧
  (∀ s p, s.mode.up = true → loaderBusy s = false → mayRelease s p = true →
      (s.mode ≠ .service ∨ (∃ g, g < 8 ∧ (s.getGal g).sen = true) ∨ s.saf.proof ≠ none) →
    ∃ t, exec (.proof p 0xA5) s = .next t ∧ Within [.fab] s t ∧ ∃ e ∈ t.fab.events, e.cause = Cause.safReleaseRefused) ∧
  (∀ s a b c, (s.saf.proof = none ∨ ∃ q, s.saf.proof = some q ∧ since s q.from_ < floorTk 1000) → exec (.proofDone a b c) s = .next s) ∧
  (∀ s q, s.saf.proof = some q → floorTk 1000 ≤ since s q.from_ →
    ∃ t, exec (.proofDone true true true) s = .next t ∧ t.saf.proof = none ∧ t.saf.proofRes = 7 ∧ t.saf.passSec = some s.tb.sec) ∧
  (∀ s q a b c, s.saf.proof = some q → floorTk 1000 ≤ since s q.from_ → (a && b && c) = false →
    ∃ t, exec (.proofDone a b c) s = .next t ∧ t.saf.proof = none ∧ t.saf.proofRes = b2n a + 2 * b2n b + 4 * b2n c ∧
      t.saf.passSec = s.saf.passSec ∧ t.nvm = s.nvm ∧ t.fab.events.length = s.fab.events.length + b2n (!a) + b2n (!b) + b2n (!c) ∧
      ∃ e ∈ t.fab.events, e.cause = Cause.safProofFail) ∧
  (∀ s p v, s.mode.up = true → loaderBusy s = false → s.mode ≠ .service →
    exec (.safSigrefWrite p v) s = .next (raiseReg Cause.regWriteLocked 0x00500C s)) ∧
  (∀ s p v, s.mode = .service → loaderBusy s = false → signature (pendW s) = v →
    exec (.safSigrefWrite p v) s = .next { s with
      saf := { s.saf with pend := none, apply := some (s.saf.pend.getD [] ++ [(0x00500C, v)]) } }) ∧
  (∀ s p v, s.mode = .service → loaderBusy s = false → signature (pendW s) ≠ v →
    ∃ t, exec (.safSigrefWrite p v) s = .next t ∧ t.saf = { s.saf with pend := none } ∧ t.regs = s.regs ∧
      ∃ e ∈ t.fab.events, e.cause = Cause.safcfgSig) ∧
  (∀ s, s.saf.apply = none → exec .safetySetApplied s = .next s) ∧
  (∀ s l, s.saf.apply = some l →
    ∃ t, exec .safetySetApplied s = .next t ∧ t.saf.apply = none ∧ t.saf.flips = [] ∧ t.saf.copies = [] ∧
      t.regs = (l.foldl (fun r x => (setCfg x.1 x.2 r)) s).regs ∧
      ((cmptEn t = cmptEn s ∧ cmptS t = cmptS s) → t.saf.cmpFrom = s.saf.cmpFrom ∧ t.fe = s.fe) ∧
      ((cmptEn t ≠ cmptEn s ∨ cmptS t ≠ cmptS s) → t.saf.cmpFrom = s.tb.run ∧
        ∀ n, n < 128 → (t.getFe n).cmpDone = 0 ∧ (t.getFe n).cmpDefer = none))

/-- R82 to R94, R100, R110, R111, R118, R119, R489 (derived): what a base sample does, every form of the two commands: the path's own
enters the registers and the accumulator; one that is replaced, fails parity or is lost in a full FIFO takes the partner's or the
previous value. -/
def Obligations.BaseSamplesEnterTheFrontEnd : Prop :=
  (∀ s (n : Fin 128) cv ci ok enc, (s.mode.up = false ∨ fePowered s n = false ∨ sampleSeen s n = true) →
    exec (.baseSample (.fe n) cv ci ok enc) s = .next s) ∧
  (∀ s (n : Fin 128) cv ci enc v i vO iO, s.mode.up = true → fePowered s n = true → sampleSeen s n = false → replaced s n = false →
      ownValue s n cv ci = (v, i, vO, iO) →
    ∃ t, exec (.baseSample (.fe n) cv ci true enc) s = .next t ∧ (t.getFe n).vs = v ∧ (t.getFe n).is = i ∧
      (t.getFe n).icur = satI 32 (iUa s n i) ∧ (t.getFe n).stk = s.tb.run ∧ (t.getFe n).parRun = 0 ∧
      (t.getFe n).fl = sampleFlags s n 0 (vO || iO) false ∧ (t.getFe n).acc = signN 64 (wrapN 64 ((s.getFe n).acc + i)) ∧
      (t.getFe n).accSubst = (s.getFe n).accSubst ∧
      (t.getFe n).accOvr = (if (vO || iO) = true then incSat 32 (s.getFe n).accOvr else (s.getFe n).accOvr) ∧
      (∀ j, j ≠ n.val → (s.getFe j).waitSub = none → (t.getFe j).vs = (s.getFe j).vs ∧ (t.getFe j).is = (s.getFe j).is ∧
        (t.getFe j).acc = (s.getFe j).acc ∧ (t.getFe j).stk = (s.getFe j).stk) ∧
      Within [.ph, .gal, .fe, .ch, .est, .ring, .sqz, .fab, .free] s t) ∧
  (∀ s (n : Fin 128) cv ci enc, s.mode.up = true → fePowered s n = true → sampleSeen s n = false → replaced s n = true →
    ∃ u, exec (.baseSample (.fe n) cv ci true enc) s = .next (substOrWait n enc u) ∧ (u.getFe n).parRun = 0 ∧
      (u.getFe n).acc = (s.getFe n).acc ∧ (u.getFe n).vs = (s.getFe n).vs ∧ (u.getFe n).hist = (s.getFe n).hist ∧
      (∀ j, j ≠ n.val → u.getFe j = s.getFe j) ∧ Within [.fe] s u) ∧
  (∀ s (n : Fin 128) cv ci enc, s.mode.up = true → fePowered s n = true → sampleSeen s n = false →
    exec (.baseSample (.fe n) cv ci false enc) s = .next (substOrWait n enc (parityFail n s))) ∧
  (∀ s (n : Fin 128), ((parityFail n s).getFe n).parRun = satN ((s.getFe n).parRun + 1) 3 ∧ bitN ((parityFail n s).getFe n).flt 8 = true ∧
    ((s.getFe n).parRun ≠ 2 → Within [.fe] s (parityFail n s)) ∧
    ((s.getFe n).parRun = 2 → (∃ e ∈ (parityFail n s).fab.events, e.cause = Cause.feParity) ∧
      ((s.getCh (chanOr s n)).fltNext = none → (s.getCh (chanOr s n)).st ≠ .disabled → (s.getCh (chanOr s n)).st ≠ .fault →
        ((parityFail n s).getCh (chanOr s n)).fltNext = some Cause.feParity))) ∧
  (∀ s (n : Fin 128) enc, (partner s n = none ∨ stepping s n = true ∨ ∃ m, partner s n = some m ∧ (s.getFe m).waitSub = none ∧ sampleSeen s m = true) →
    substOrWait n enc s = takeSubst n enc s) ∧
  (∀ s (n : Fin 128) enc m, partner s n = some m → stepping s n = false →
    ((s.getFe m).waitSub = none → sampleSeen s m = false → substOrWait n enc s = modFe n (fun f => { f with waitSub := some enc }) s) ∧
    (∀ e, (s.getFe m).waitSub = some e → substOrWait n enc s = takeSubst n enc (takeSubst m e s))) ∧
  (∀ s (n : Fin 128) enc v i fl vO iO ovr, substValue s n = ((v, i, fl), vO, iO, ovr) →
    ((takeSubst n enc s).getFe n).vs = v ∧ ((takeSubst n enc s).getFe n).is = i ∧ bitN ((takeSubst n enc s).getFe n).fl 2 = true ∧
    ((takeSubst n enc s).getFe n).acc = signN 64 (wrapN 64 ((s.getFe n).acc + i)) ∧ ((takeSubst n enc s).getFe n).waitSub = none ∧
    ((takeSubst n enc s).getFe n).accSubst = incSat 32 (s.getFe n).accSubst ∧ ((takeSubst n enc s).getFe n).stk = s.tb.run ∧
    (∀ j, j ≠ n.val → ((takeSubst n enc s).getFe j).acc = (s.getFe j).acc) ∧
    Within [.ph, .gal, .fe, .ch, .est, .ring, .sqz, .fab, .free] s (takeSubst n enc s)) ∧
  (∀ s (n : Fin 128) m x l, partner s n = some m → (s.getFe m).hist = x :: l → x.run = s.tb.run → bitN x.fl 2 = false →
    substValue s n = ((x.v, x.i, x.fl), x.vO, x.iO, bitN x.fl 0)) ∧
  (∀ s (n : Fin 128) x l, (s.getFe n).hist = x :: l → (partner s n = none ∨ ∃ m, partner s n = some m ∧ (s.getFe m).hist = []) →
    substValue s n = ((x.v, x.i, x.fl), x.vO, x.iO, false)) ∧
  (∀ s code ci enc, s.mode.up = true →
    ∃ t, exec (.baseSample .vsump code ci true enc) s = .next t ∧ t.sump.pinUv = clampI code (-50000) 2600000 ∧ Within [.sump] s t) ∧
  (∀ s code ci ok enc, (s.mode.up = false ∨ ok = false) → exec (.baseSample .vsump code ci ok enc) s = .next s) ∧
  (∀ s (n : Fin 128), (s.mode.up = false ∨ fePowered s n = false) → exec (.fabFifoOvf n) s = .next s) ∧
  (∀ s (n : Fin 128), s.mode.up = true → fePowered s n = true →
    ∃ u, u = raiseA .fabric Cause.fabFifoOvf 0xFF n { s with fab := { s.fab with nFifo := incSat 8 s.fab.nFifo } } ∧
      (sampleSeen s n = true → exec (.fabFifoOvf n) s = .next u) ∧
      (sampleSeen s n = false → exec (.fabFifoOvf n) s = .next (substOrWait n false u)))

/-- R97, R101 to R109, R333, R341 (derived): the island's samples, the window comparators, Echo passes and calibration writes, every
form of the seven commands. -/
def Obligations.IslandSamplesComparatorsAndEcho : Prop :=
  (∀ s (n : Fin 128) cv ci ok, (s.mode.up = false ∨ fePowered s n = false) → exec (.islandSample n cv ci ok) s = .next s) ∧
  (∀ s (n : Fin 128) cv ci v i vO iO, s.mode.up = true → fePowered s n = true → ownValue s n cv ci = (v, i, vO, iO) →
    ∃ u w, u = modFe n (fun f => { f with
          isl := some { run := s.tb.run, v := v, i := i, fl := b2n (vO || iO) + 2 * b2n (settling s n) + 4 * b2n (replaced s n) } }) s ∧
      w = checkLimits n v (iUa s n i) (replaced s n) (settling s n) vO iO false u ∧
      (native s (chanOr s n) = false → exec (.islandSample n cv ci true) s = .next w) ∧
      (native s (chanOr s n) = true → exec (.islandSample n cv ci true) s = .next (crossCheck (chanOr s n) w)) ∧
      exec (.islandSample n cv ci false) s = .next (checkLimits n v (iUa s n i) (replaced s n) (settling s n) false false true
        (modFe n (fun f => { f with isl := (s.getFe n).isl }) s))) ∧
  (∀ s (n : Fin 128) v i subst settle vO iO bad bV bL bI,
    bV = (safVmax s (chanOr s n) != 0 && (bad || vO || decide (safVmax s (chanOr s n) ≤ v))) →
    bL = (safVmin s (chanOr s n) != 0 && (bad || vO || decide (v ≤ safVmin s (chanOr s n)))) →
    bI = (safImax s (chanOr s n) != 0 && (bad || iO || decide (safImax s (chanOr s n) ≤ i.natAbs))) →
    ∃ t, checkLimits n v i subst settle vO iO bad s = t ∧
      (t.getFe n).nVmax = (if subst = true then (s.getFe n).nVmax else if bV = true then satN ((s.getFe n).nVmax + 1) 3 else 0) ∧
      (t.getFe n).nVmin = (if subst = true then (s.getFe n).nVmin else if bL = true then satN ((s.getFe n).nVmin + 1) 3 else 0) ∧
      (t.getFe n).nImax = (if (subst || settle) = true then (s.getFe n).nImax else if bI = true then satN ((s.getFe n).nImax + 1) 3 else 0) ∧
      ((subst = true ∨ (bV = false ∧ bL = false ∧ (settle = true ∨ bI = false))) → Within [.fe] s t) ∧
      (chSafe s (chanOr s n) = false → subst = false → bV = true → nconf s (chanOr s n) ≤ (s.getFe n).nVmax + 1 →
        (t.getCh (chanOr s n)).safe = some Cause.safVmax) ∧
      (chSafe s (chanOr s n) = false → subst = false → bV = false → bL = true → nconf s (chanOr s n) ≤ (s.getFe n).nVmin + 1 →
        (t.getCh (chanOr s n)).safe = some Cause.safVmin) ∧
      (chSafe s (chanOr s n) = false → subst = false → settle = false → bV = false → bL = false → bI = true →
        nconf s (chanOr s n) ≤ (s.getFe n).nImax + 1 → (t.getCh (chanOr s n)).safe = some Cause.safImax)) ∧
  (∀ s k, ((s.getFe k).isl = none ∨ (s.getFe (k + 1)).isl = none ∨ ∃ a b, (s.getFe k).isl = some a ∧ (s.getFe (k + 1)).isl = some b ∧
      (a.run ≠ b.run ∨ (a.fl ||| b.fl) &&& 6 ≠ 0)) → crossCheck k s = s) ∧
  (∀ s k a b, k < 128 → (s.getFe k).isl = some a → (s.getFe (k + 1)).isl = some b → a.run = b.run → (a.fl ||| b.fl) &&& 6 = 0 →
    ∃ t, crossCheck k s = t ∧
      (t.getFe k).abV = (if 2000 < (a.v - b.v).natAbs then satN ((s.getFe k).abV + 1) 328 else (s.getFe k).abV - 1) ∧
      (t.getFe k).abI = (if 40000 * 2 ^ (s.getFe k).irng < (a.i - b.i).natAbs then satN ((s.getFe k).abI + 1) 328 else (s.getFe k).abI - 1) ∧
      ((s.getFe k).abV = 327 → 2000 < (a.v - b.v).natAbs → bitN (t.getFe k).flt 1 = true ∧ chSafe t k = true) ∧
      ((s.getFe k).abI = 327 → 40000 * 2 ^ (s.getFe k).irng < (a.i - b.i).natAbs → bitN (t.getFe k).flt 2 = true ∧ chSafe t k = true)) ∧
  (∀ s (n : Fin 128) above tested, (s.mode.up = false ∨ fePowered s n = false ∨ vanaGood s = false ∨
      (if above = true then ovEn s n else uvEn s n) = false) → exec (.windowComparatorTrip n above tested) s = .next s) ∧
  (∀ s (n : Fin 128) above tested, s.mode.up = true → fePowered s n = true → vanaGood s = true →
      (if above = true then ovEn s n else uvEn s n) = true →
    ∃ u, (u.getFe n).cmpOv = ((s.getFe n).cmpOv || above) ∧ (u.getFe n).cmpUv = ((s.getFe n).cmpUv || !above) ∧
      bitN (u.getFe n).flt (if above = true then 5 else 6) = true ∧ Within [.fe] s u ∧
      (tested = true → (s.getFe n).cmpTest.isSome = true → exec (.windowComparatorTrip n above tested) s = .next u) ∧
      ((tested = false ∨ (s.getFe n).cmpTest = none) → exec (.windowComparatorTrip n above tested) s =
        .next (decideCh (chanOr s n) (if above = true then Cause.feCmpOv else Cause.feCmpUv) (some n) u))) ∧
  (∀ s (n : Fin 128) above, (if above = true then (s.getFe n).cmpOv else (s.getFe n).cmpUv) = false →
    exec (.windowComparatorRelease n above) s = .next s) ∧
  (∀ s (n : Fin 128) above, (if above = true then (s.getFe n).cmpOv else (s.getFe n).cmpUv) = true →
    ∃ t, exec (.windowComparatorRelease n above) s = .next t ∧ (t.getFe n).cmpOv = ((s.getFe n).cmpOv && !above) ∧
      (t.getFe n).cmpUv = ((s.getFe n).cmpUv && above) ∧ bitN (t.getFe n).flt (if above = true then 5 else 6) = false ∧
      (t.getFe n).fltHist = (s.getFe n).fltHist ∧ Within [.fe] s t) ∧
  (∀ s (n : Fin 128), (s.mode.up = false ∨ fePowered s n = false ∨ (s.getFe n).echo.isSome = true ∨ s.mode = .load) →
    exec (.echoPassStart n) s = .next s) ∧
  (∀ s (n : Fin 128), fePowered s n = true → (s.getFe n).echo = none →
    ∃ t, t = startEcho n false s ∧ (t.getFe n).out = true ∧ (t.getFe n).echoDue = false ∧
      (t.getFe n).echo = some { start := s.tb.run, rep := false, irng := (s.getFe n).irng } ∧ (∀ j, j ≠ n.val → t.getFe j = s.getFe j) ∧
      Within [.fe] s t ∧
      (s.mode = .rest → exec (.echoPassStart n) s = .next (if restPassDue s n = true ∧ partnerIn s n = true then t else s)) ∧
      (echoMode s = true → native s (chanOr s n) = true → echoSlot s (chanOr s n) n = false → (s.getFe n).echoDue = false →
        exec (.echoPassStart n) s = .next s) ∧
      (echoMode s = true → native s (chanOr s n) = true → (echoSlot s (chanOr s n) n = true ∨ (s.getFe n).echoDue = true) →
        exec (.echoPassStart n) s = .next (if nativeOk s (chanOr s n) n = true then t else modFe n (fun f => { f with echoDue := true }) s)) ∧
      (echoMode s = true → native s (chanOr s n) = false →
        exec (.echoPassStart n) s = .next (if densityOk s (chanOr s n) = true then t else s))) ∧
  (∀ s (n : Fin 128), ((s.getFe n).echo = none ∨ ∃ q, (s.getFe n).echo = some q ∧ s.tb.run < q.start + 64) →
    exec (.echoPassEnd n) s = .next s) ∧
  (∀ s (n : Fin 128) q, (s.getFe n).echo = some q → q.start + 64 ≤ s.tb.run →
    ∃ t, t = echoResult n (echoPoints s n q) q.start q.rep s ∧ (t.getFe n).echo = none ∧ (t.getFe n).out = false ∧
      (t.getFe n).echoOk = (echoPoints s n q).all id ∧ (t.getFe n).echoTk = s.tb.run ∧
      (t.getFe n).echoDone = incSat 16 (s.getFe n).echoDone ∧ (t.getFe n).echoRetry = q.rep ∧ bitN (t.getFe n).flt 7 = false ∧
      ((echoPoints s n q).all id = true → exec (.echoPassEnd n) s = .next t) ∧
      ((echoPoints s n q).all id = false → q.rep = false → exec (.echoPassEnd n) s = .next (startEcho n true t)) ∧
      ((echoPoints s n q).all id = false → q.rep = true →
        ∃ w, exec (.echoPassEnd n) s = .next w ∧ bitN (w.getFe n).flt 0 = true ∧ (w.getFe n).echo = none ∧
          (∃ e ∈ w.fab.events, e.cause = Cause.feEchoFail) ∧
          ((s.getCh (chanOr s n)).fltNext = none → (s.getCh (chanOr s n)).st ≠ .disabled → (s.getCh (chanOr s n)).st ≠ .fault →
            (w.getCh (chanOr s n)).fltNext = some Cause.feEchoFail))) ∧
  (∀ s (n : Fin 128), (s.mode.up = false ∨ (s.getFe n).pwr ≠ 3 ∨ feDmax s n = 0 ∨ since s (s.getFe n).echoTk < secTk (feDmax s n) ∨
      bitN (s.getFe n).flt 7 = true) → exec (.feEchoOverdue n) s = .next s) ∧
  (∀ s (n : Fin 128), s.mode.up = true → (s.getFe n).pwr = 3 → feDmax s n ≠ 0 → secTk (feDmax s n) ≤ since s (s.getFe n).echoTk →
      bitN (s.getFe n).flt 7 = false →
    ∃ u, u = raiseA .fabric Cause.feEchoOverdue (chanOr s n) n (feCond n 7 true s) ∧
      exec (.feEchoOverdue n) s = .next (if bitN (cfgN s (Addr.fe n 4)) 16 = true ∧ (pausable (s.getCh (chanOr s n)) = true ∨
          ((s.getCh (chanOr s n)).st = .paused ∧ (s.getCh (chanOr s n)).drain = none)) then
        modCh (chanOr s n) (fun c => { c with psEcho := true }) u else u)) ∧
  (∀ s p addr v, regsWf 0 s.regs = true → s.mode = .service → loaderBusy s = false → isFeCal addr = true → calFe addr < 128 →
    ∃ t, exec (.feCalWrite p addr v) s = .next t ∧ cfgW t addr = (if addr % 0x200 = 0x1C then v &&& 0xFFFF else v) ∧
      (t.getFe (calFe addr)).calSrc = (if (s.getFe (calFe addr)).pwr = 0 then (s.getFe (calFe addr)).calSrc else 3) ∧
      bitN (t.getFe (calFe addr)).flt 9 = false ∧ (∀ a, a ≠ addr → cfgW t a = cfgW s a) ∧ Within [.regs, .fe] s t) ∧
  (∀ s p addr v, (s.mode.up = false ∨ isFeCal addr = false) → exec (.feCalWrite p addr v) s = .next s) ∧
  (∀ s p addr v, s.mode.up = true → isFeCal addr = true → loaderBusy s = true →
    exec (.feCalWrite p addr v) s = .next (raiseReg Cause.ldrBusy addr s)) ∧
  (∀ s p addr v, s.mode.up = true → s.mode ≠ .service → loaderBusy s = false → isFeCal addr = true →
    exec (.feCalWrite p addr v) s = .next (raiseReg Cause.regWriteLocked addr s))

/-- R123, R128, R129, R226 (derived): whatever the command and the samples, the loops leave a demand inside its current bound and
its grant and never against its direction, x slews by no more than its step, and the split gives away the whole demand. -/
def Obligations.DemandStaysInItsBounds : Prop :=
  (∀ (p : LoopIn) (n : Sp) (r : Reg), 0 ≤ p.ib → 0 ≤ p.gEff →
    ((loops p n r).1.iDem.natAbs : Int) ≤ p.ib ∧ ((loops p n r).1.iDem.natAbs : Int) ≤ p.gEff ∧
      (n.dis = false → 0 ≤ (loops p n r).1.iDem) ∧ (n.dis = true → (loops p n r).1.iDem ≤ 0) ∧
      ((loops p n r).1.cDem.natAbs : Int) ≤ p.ib) ∧
  (∀ (p : LoopIn) (n : Sp) (r : Reg), n.mode ≠ .cr → 0 ≤ n.slew → ((((loops p n r).1.x - r.x).natAbs : Int) ≤ n.slew)) ∧
  (∀ x t step : Int, 0 ≤ step → (slewTo x t step - t).natAbs ≤ (x - t).natAbs) ∧
  (∀ (i : Int) (bals : List Int), bals ≠ [] → sumI (splitDemand i bals) = i + sumI bals) ∧
  (∀ (s : State) (k : Nat) (act : List Nat) (imons : List Int), 2 ≤ act.length → shedding s k = none →
    sumI (balNext s k act imons) = 0)

/-- R128, R134 to R140, R243, R261 (derived): the regulator, the launch tick, host commands to a channel, the end of a drain and a
cell's return, every form of the commands. That a command is judged at the write and again at the tick is log entry 62's reading. -/
def Obligations.LaunchTickAndChannelCommands : Prop :=
  (∀ s (k : Fin 128) slack sums, s.mode.up = true → populated s k = true →
    ∃ t, exec (.regulatorCompute k slack sums) s = .next t ∧ (t.getCh k).stage = regStage s k slack (imonAvgs s k sums) ∧
      (t.getCh k).reg = (s.getCh k).reg ∧ (∀ j, j ≠ k.val → t.getCh j = s.getCh j) ∧ Within [.ph, .ch] s t) ∧
  (∀ s (k : Fin 128) slack sums, (s.mode.up = false ∨ populated s k = false) → exec (.regulatorCompute k slack sums) s = .next s) ∧
  (∀ s live, s.mode.up = true →
    ∃ t, exec (.launchTickStrike live) s = .next t ∧ t.tb.run = s.tb.run + 1 ∧ t.tb.sec = nextEdgeU s / 2 ^ 32 ∧
      t.tb.frac = nextEdgeU s % 2 ^ 32 ∧ t.regs = s.regs ∧ t.pending = s.pending) ∧
  (∀ s live, s.mode.up = false → exec (.launchTickStrike live) s = .next s) ∧
  (∀ s p (k : Fin 128) c h, (c, h) ∈ [(Instr.chCmdStop p k, ChCmd.stop), (.chCmdPause p k, .pause), (.chCmdResume p k, .resume),
      (.chCmdDisable p k, .disable), (.chCmdEnable p k, .enable)] →
    s.mode.up = true → loaderBusy s = false → populated s k = true →
    (cmdHasRow s k h = true → exec c s = .next (modCh k (fun x => { x with host := x.host ++ [h] }) s)) ∧
    (cmdHasRow s k h = false → exec c s = .next (raise .fabric Cause.chCmdRefused k s))) ∧
  (∀ s (k : Fin 128), ∃ x, x = s.getCh k ∧
    (cmdHasRow s k .stop = true ↔ (x.st.active = true ∨ x.st = .lost) ∧ x.drain = none) ∧
    (cmdHasRow s k .pause = true ↔ (x.st = .step ∨ x.st = .tempWait ∨ x.st = .hold) ∧ x.drain = none) ∧
    (cmdHasRow s k .resume = true ↔ x.st = .paused ∧ x.drain = none) ∧ (cmdHasRow s k .disable = true ↔ x.st ≠ .disabled) ∧
    (cmdHasRow s k .enable = true ↔ x.st = .disabled ∧ populated s k = true)) ∧
  (∀ s p (k : Fin 128),
    ∀ c ∈ [Instr.chCmdStop p k, .chCmdPause p k, .chCmdResume p k, .chCmdClearFault p k, .chCmdDisable p k, .chCmdEnable p k],
      (s.mode.up = false → exec c s = .next s) ∧
      (s.mode.up = true → loaderBusy s = true → exec c s = .next (raiseReg Cause.ldrBusy (Addr.ch k 8) s)) ∧
      (s.mode.up = true → loaderBusy s = false → populated s k = false →
        exec c s = .next (raiseA .fabric Cause.chAbsent k (0x020008 + 0x400 * k) s))) ∧
  (∀ s p (k : Fin 128), s.mode.up = true → loaderBusy s = false → populated s k = true →
    exec (.chCmdClearFault p k) s = .next (if clearOk s k = true then modCh k (fun x => { x with host := x.host ++ [.clearFault] }) s
      else raise .fabric Cause.chCmdRefused k s)) ∧
  (∀ s (k : Fin 128), (s.mode.up = false ∨ quiescent s k = false) → exec (.drainQuiescent k) s = .next s) ∧
  (∀ s (k : Fin 128) d, s.mode.up = true → quiescent s k = true → (s.getCh k).drain = some d →
    ∃ t, exec (.drainQuiescent k) s = .next t ∧ (t.getCh k).st = (if d = .disable then .disabled else .idle) ∧ (t.getCh k).drain = none ∧
      (t.getCh k).rcp.isOpen = false ∧ (t.getCh k).discWant = false ∧ (∀ j, j ≠ k.val → t.getCh j = s.getCh j) ∧ t.mode = s.mode ∧
      t.regs = s.regs) ∧
  (∀ s (k : Fin 128), (s.mode.up = false ∨ (s.getCh k).st ≠ .lost ∨ (s.getCh k).drain ≠ none ∨ (s.getCh k).qual < 820 ∨
      s.tb.run < (s.getCh k).qualFrom + 820) → exec (.qualifiedReturn k) s = .next s) ∧
  (∀ s (k : Fin 128), s.mode.up = true → (s.getCh k).st = .lost → (s.getCh k).drain = none → 820 ≤ (s.getCh k).qual →
      (s.getCh k).qualFrom + 820 ≤ s.tb.run →
    ∃ t, exec (.qualifiedReturn k) s = .next t ∧
      (t.getCh k).absTk = satN ((s.getCh k).qualFrom - (s.getCh k).declTk) (2 ^ 32 - 1) ∧ t.mode = s.mode ∧ t.regs = s.regs ∧
      ((Hdr.resume (boundRcp s k) = false ∨ 81920 < (s.getCh k).qualFrom - (s.getCh k).declTk) → (t.getCh k).st = .idle) ∧
      (Hdr.resume (boundRcp s k) = true → (s.getCh k).qualFrom - (s.getCh k).declTk ≤ 81920 →
        (t.getCh k).qual = 0 ∧ (t.getCh k).toldLoss = false ∧ (t.getCh k).discWant = true ∧
        ((s.getCh k).left = .armed → (t.getCh k).st = .armed) ∧
        ((s.getCh k).left ≠ .armed → (t.getCh k).st = .paused ∧ (t.getCh k).psRet = true) ∧
        (((s.getCh k).left = .step ∨ (s.getCh k).left = .tempWait) → (t.getCh k).rcp.isOpen = true))) ∧
  (∀ s (k : Fin 128), exec (.stepResumed k) s = .next
    (if s.mode.up = true ∧ (s.getCh k).psRet = true ∧ (s.getCh k).disc = true ∧ (s.getCh k).discTk + discTicks s k ≤ s.tb.run + 1 then
      raise .fabric Cause.stepResumed k (modCh k (fun c => { c with psRet := false }) s) else s))

/-- R144 to R148, R162, R165, R171 to R174 (derived): arming, launching, evaluating and ending recipes, every form of the commands. -/
def Obligations.RecipesArmLaunchAndEnd : Prop :=
  (∀ s p (k : Fin 128) v, ∀ c ∈ [Instr.chRcpArm p k v, .chRcpGo p k],
    (s.mode.up = false → exec c s = .next s) ∧
    (s.mode.up = true → loaderBusy s = true → exec c s = .next (raiseReg Cause.ldrBusy (Addr.ch k 0x100) s)) ∧
    (s.mode.up = true → loaderBusy s = false → populated s k = false →
      exec c s = .next (raiseA .fabric Cause.chAbsent k (Addr.ch k 0x100) s))) ∧
  (∀ s p (k : Fin 128) v, s.mode.up = true → loaderBusy s = false → populated s k = true → v.toNat.testBit 16 = true →
      armOk s k (field v 0 5) (field v 8 6) = true →
    ∃ t, exec (.chRcpArm p k v) s = .next t ∧ (t.getCh k).st = .armed ∧ (t.getCh k).rcp.recipe = field v 0 5 ∧
      (t.getCh k).rcp.start = field v 8 6 ∧ (t.getCh k).rcp.timed = v.toNat.testBit 18 ∧ (t.getCh k).rcp.go = v.toNat.testBit 17 ∧
      (t.getCh k).rcp.accArm = (s.getFe k).acc ∧ (t.getCh k).discWant = true ∧
      (v.toNat.testBit 17 = false → (t.getCh k).eng = none) ∧
      (∀ j, j ≠ k.val → t.getCh j = s.getCh j) ∧ Within [.ch, .est] s t) ∧
  (∀ s p (k : Fin 128) v, s.mode.up = true → loaderBusy s = false → populated s k = true → v.toNat.testBit 16 = true →
      armOk s k (field v 0 5) (field v 8 6) = false →
    (v.toNat.testBit 17 = false → exec (.chRcpArm p k v) s = .next (raise .fabric Cause.chCmdRefused k s)) ∧
    (v.toNat.testBit 17 = true → exec (.chRcpArm p k v) s = exec (.chRcpGo p k) (raise .fabric Cause.chCmdRefused k s))) ∧
  (∀ s p (k : Fin 128) v, s.mode.up = true → loaderBusy s = false → populated s k = true → v.toNat.testBit 16 = false →
    exec (.chRcpArm p k v) s = if v.toNat.testBit 17 = true then exec (.chRcpGo p k) s else .next s) ∧
  (∀ s p (k : Fin 128), s.mode.up = true → loaderBusy s = false → populated s k = true → (s.getCh k).st = .armed →
    ∃ t, exec (.chRcpGo p k) s = .next t ∧ (t.getCh k).rcp.go = true ∧ (t.getCh k).st = .armed ∧ (∀ j, j ≠ k.val → t.getCh j = s.getCh j) ∧
      Within [.ch] s t ∧
      (((s.getCh k).drain ≠ none ∨ (s.getCh k).suspect = true ∨ floorMet s k = false ∨ engFree (s.getCh k) = false) →
        (t.getCh k).eng = (s.getCh k).eng) ∧
      ((s.getCh k).drain = none → (s.getCh k).suspect = false → floorMet s k = true → engFree (s.getCh k) = true →
        ∃ a n, (t.getCh k).eng = some a ∧ a.eff = .launch n none)) ∧
  (∀ s p (k : Fin 128), s.mode.up = true → loaderBusy s = false → populated s k = true → (s.getCh k).st ≠ .armed →
    exec (.chRcpGo p k) s = .next (raise .fabric Cause.chCmdRefused k s)) ∧
  (∀ s (k : Fin 128), s.mode.up = true → mayLaunch s k = true →
    ∃ a n, launchAct s k none = a ∧ a.eff = .launch n none ∧ exec (.autoLaunch k) s = .next (modCh k (fun c => { c with eng := some a }) s)) ∧
  (∀ s (k : Fin 128), (s.mode.up = false ∨ mayLaunch s k = false) → exec (.autoLaunch k) s = .next s) ∧
  (∀ s (g : Fin 8) slack, stageOn s = true →
    ∃ t, exec (.stepEngineEval g slack) s = .next t ∧ (t.getGal g).engCommit = some (s.tb.run + 1, slack) ∧
      (∀ k, k < 128 → populated s k = true → galOf k = g.val → t.getCh k = { s.getCh k with eng := evalCh s k }) ∧
      (∀ k, populated s k = false ∨ galOf k ≠ g.val → t.getCh k = s.getCh k) ∧ Within [.gal, .ch] s t) ∧
  (∀ s (g : Fin 8) slack, stageOn s = false → exec (.stepEngineEval g slack) s = .next s) ∧
  (∀ s (k : Fin 128) eff, eff = (match (s.getCh k).eng with | some a => a.eff | none => .stay) →
    ((s.mode.up = false ∨ inStepType s k StepT.pulse = false ∨ (eff ≠ .stay ∧ eff ≠ .tempIn) ∨ (s.getCh k).suspect = true ∨
        (s.getCh k).drain ≠ none ∨ segAt (openStep s k) (stepTime s k (s.tb.run + 1)) ≤ (engRcp (s.getCh k)).seg) →
      exec (.pulseSegment k) s = .next s) ∧
    (s.mode.up = true → inStepType s k StepT.pulse = true → (eff = .stay ∨ eff = .tempIn) → (s.getCh k).suspect = false →
        (s.getCh k).drain = none → (engRcp (s.getCh k)).seg < segAt (openStep s k) (stepTime s k (s.tb.run + 1)) →
      ∃ t a, exec (.pulseSegment k) s = .next t ∧ (t.getCh k).eng = some a ∧ a.eff = eff ∧
        a.rcp.seg = segAt (openStep s k) (stepTime s k (s.tb.run + 1)) ∧
        (stepTime s k (s.tb.run + 1) < pulseEnd (openStep s k) → a.cmd = some (pulseSp s k (openStep s k) a.rcp.seg)) ∧
        (pulseEnd (openStep s k) ≤ stepTime s k (s.tb.run + 1) → a.cmd = none) ∧
        (∀ j, j ≠ k.val → t.getCh j = s.getCh j) ∧ Within [.ch] s t)) ∧
  (∀ s (k : Fin 128), exec (.rcpTempTimeout k) s = .next
    (if s.mode.up = true ∧ (s.getCh k).st = .tempWait ∧ (s.getCh k).drain = none ∧ engFree (s.getCh k) = true ∧
        Hdr.tWaitMax (boundRcp s k) ≤ (s.getCh k).rcp.tempTk + 1 then
      modCh k (fun c => { c with eng := some { eff := .quit Cause.rcpTempTimeout, rcp := engRcp (s.getCh k) } }) s else s)) ∧
  (∀ s (k : Fin 128), ¬(holdFree s k = true ∧ Hdr.holdMode (boundRcp s k) = 1 ∧ 0 < Hdr.nRechg (boundRcp s k) ∧
      (engRcp (s.getCh k)).topoff = false ∧ 8192 ≤ (engRcp (s.getCh k)).lowTk) → exec (.topOffStart k) s = .next s) ∧
  (∀ s (k : Fin 128), holdFree s k = true → Hdr.holdMode (boundRcp s k) = 1 → (engRcp (s.getCh k)).topoff = false →
      8192 ≤ (engRcp (s.getCh k)).lowTk → (engRcp (s.getCh k)).rechg < Hdr.nRechg (boundRcp s k) →
    ∃ t a, exec (.topOffStart k) s = .next t ∧ (t.getCh k).eng = some a ∧ a.eff = .topOn ∧ a.rcp.topoff = true ∧
      a.rcp.rechg = (engRcp (s.getCh k)).rechg + 1 ∧ a.rcp.topTk = 0 ∧ a.rcp.holdHot = tooHot s k (boundRcp s k) ∧
      a.cmd = some (topSp s k (boundRcp s k)) ∧ (∀ j, j ≠ k.val → t.getCh j = s.getCh j) ∧ Within [.ch] s t) ∧
  (∀ s (k : Fin 128), holdFree s k = true → Hdr.holdMode (boundRcp s k) = 1 → (engRcp (s.getCh k)).topoff = false →
      8192 ≤ (engRcp (s.getCh k)).lowTk → 0 < Hdr.nRechg (boundRcp s k) → Hdr.nRechg (boundRcp s k) ≤ (engRcp (s.getCh k)).rechg →
    exec (.topOffStart k) s =
      .next (modCh k (fun c => { c with eng := some { eff := .quit Cause.rcpRechgLimit, rcp := engRcp (s.getCh k) } }) s)) ∧
  (∀ s (k : Fin 128), exec (.rcpTopoffTimeout k) s = .next
    (if holdFree s k = true ∧ (s.getCh k).rcp.topoff = true ∧ Hdr.tTopMax (boundRcp s k) ≤ (s.getCh k).rcp.topTk + 1 then
      modCh k (fun c => { c with eng := some { eff := .quit Cause.rcpTopoffTimeout, rcp := engRcp (s.getCh k) } }) s else s)) ∧
  (∀ s (k : Fin 128), exec (.rcpHoldEnd k) s = .next
    (if holdFree s k = true ∧ Hdr.tHoldMax (boundRcp s k) ≠ 0 ∧ Hdr.tHoldMax (boundRcp s k) ≤ (s.getCh k).rcp.holdTk + 1 then
      modCh k (fun c => { c with eng := some { eff := .quit Cause.rcpHoldEnd, rcp := engRcp (s.getCh k) } }) s else s))

/-- R182, R196 to R210, R215 (derived): publication, divergence, capacity records, K points and the estimator's commands, every form. -/
def Obligations.EstimatorPublishesAndObeys : Prop :=
  (∀ s (k : Fin 128) b, s.mode.up = true → populated s k = true → 768 ≤ s.tb.run + 1 → (s.tb.run + 1) % 512 = 256 →
    exec (.estPublish k b) s =
      .next (modEst k (fun e => { e with pubDue := some (b && e.lostTk != some (s.tb.run + 1)) }) s)) ∧
  (∀ s (k : Fin 128) b, (s.mode.up = false ∨ populated s k = false ∨ s.tb.run + 1 < 768 ∨ (s.tb.run + 1) % 512 ≠ 256) →
    exec (.estPublish k b) s = .next s) ∧
  (∀ s (k : Fin 128) b, (s.getEst k).pubDue = some b → s.tb.run % 512 ≠ 0 → estEdge k s = publish k b s) ∧
  (∀ s (k : Fin 128) u, u = modEst k (fun e => { e with gap := e.gap || e.st != .valid, pubDue := none }) s →
    (∀ b, (s.getEst k).st ≠ .wait → (s.getEst k).st ≠ .valid → publish k b s = u) ∧
    (∀ m x, modelOf u k = some m → (s.getEst k).st = .valid → estInputs u k (s.tb.run - 257) m = some x →
      publish k true s = modEst k (fun _ => estUpdate u k (s.tb.run - 257) m x (u.getEst k)) u) ∧
    (∀ m x, modelOf u k = some m → (s.getEst k).st = .wait → estInputs u k (s.tb.run - 257) m = some x →
        estMayInit u k (s.tb.run - 257) m x = true →
      ∃ t, publish k true s = t ∧ t.getEst k = estInit u s.tb.run (s.tb.run - 257) m x (u.getEst k) ∧ (t.getEst k).st = .valid ∧
        ∃ e ∈ t.fab.events, e.cause = Cause.estInit) ∧
    (∀ m, modelOf u k = some m → estInputs u k (s.tb.run - 257) m = none → (s.getEst k).st = .wait ∨ (s.getEst k).st = .valid → publish k true s = u) ∧
    (∀ m x, modelOf u k = some m → (s.getEst k).st = .wait → estInputs u k (s.tb.run - 257) m = some x →
        estMayInit u k (s.tb.run - 257) m x = false → publish k true s = u) ∧
    (((s.getEst k).st = .wait ∨ (s.getEst k).st = .valid) → modelOf u k = none → publish k true s = u) ∧
    (((s.getEst k).st = .wait ∨ (s.getEst k).st = .valid) →
      ∃ t, publish k false s = t ∧ (t.getEst k).overruns = incSat 16 (s.getEst k).overruns ∧ (t.getEst k).socRep = (s.getEst k).socRep ∧
        (t.getEst k).pubTk = (s.getEst k).pubTk ∧ (t.getEst k).st = (s.getEst k).st ∧ (∃ e ∈ t.fab.events, e.cause = Cause.estOverrun) ∧
        (∀ j, j ≠ k.val → t.getEst j = s.getEst j) ∧ Within [.est, .fab] s t)) ∧
  (∀ s (k : Fin 128), ¬((s.getEst k).st = .valid ∧ 960 ≤ (s.getEst k).divCnt) → exec (.estDiverge k) s = .next s) ∧
  (∀ s (k : Fin 128), (s.getEst k).st = .valid → 960 ≤ (s.getEst k).divCnt →
    ∃ t, exec (.estDiverge k) s = .next t ∧ (t.getEst k).relearn = true ∧ (t.getEst k).diverge = true ∧ (t.getEst k).divCnt = 0 ∧
      (t.getEst k).changed = true ∧ (t.getEst k).socA = (s.getEst k).socRep ∧ (t.getEst k).accA = (s.getEst k).pubAcc ∧
      (∃ e ∈ t.fab.events, e.cause = Cause.estDiverge) ∧ (∀ j, j ≠ k.val → t.getEst j = s.getEst j) ∧ Within [.est, .fab] s t) ∧
  (∀ s (k : Fin 128), s.mode.up = true → (s.getEst k).changed = true → (s.getEst k).wbWait = true → s.nvm.lock = false →
      (∀ t0, (s.getEst k).wbTk = some t0 → secTk 3600 ≤ since s t0) →
    exec (.capWriteback k) s = .next (nvmRequest (.record Kind.cap k (capPayload (s.getEst k)))
      (modEst k (fun e => { e with changed := false, wbWait := false, wbTk := some s.tb.run }) s))) ∧
  (∀ s (k : Fin 128), (s.mode.up = false ∨ (s.getEst k).changed = false ∨ (s.getEst k).wbWait = false ∨ s.nvm.lock = true ∨
      ∃ t0, (s.getEst k).wbTk = some t0 ∧ since s t0 < secTk 3600) → exec (.capWriteback k) s = .next s) ∧
  (∀ s p (k : Fin 128), ∀ c ∈ [Instr.estCmdReinit p k, .estCmdKlogStart p k, .estCmdKlogStop p k, .estCmdGrade p k, .estCmdRelearn p k],
    (s.mode.up = false → exec c s = .next s) ∧
    (s.mode.up = true → loaderBusy s = true → exec c s = .next (raiseReg Cause.ldrBusy (Addr.est k 4) s)) ∧
    (s.mode.up = true → loaderBusy s = false → populated s k = false → exec c s = .next (raiseA .fabric Cause.chAbsent k (Addr.est k 4) s)) ∧
    (s.mode.up = true → loaderBusy s = false → populated s k = true → (s.getEst k).st = .off →
      exec c s = .next (raise .fabric Cause.estCmdRefused k s))) ∧
  (∀ s p (k : Fin 128), s.mode.up = true → loaderBusy s = false → populated s k = true → (s.getEst k).st ≠ .off →
    exec (.estCmdReinit p k) s = .next (modEst k (fun e => if e.model.isSome then { e with st := .wait } else e) s) ∧
    exec (.estCmdKlogStart p k) s = .next (modEst k (fun e => { e with
      kLog := true, kPts := [], kArm := none, kStart := s.tb.run, kTk := s.tb.run }) s) ∧
    exec (.estCmdKlogStop p k) s = .next (modEst k (fun e => { e with kLog := false }) s) ∧
    exec (.estCmdRelearn p k) s = .next (modEst k (fun e => { e with relearn := true, changed := true }) s)) ∧
  (∀ s p (k : Fin 128), s.mode.up = true → loaderBusy s = false → populated s k = true → (s.getEst k).st ≠ .off →
    exec (.estCmdGrade p k) s = .next (if ((s.getCh k).st = .idle ∨ (s.getCh k).st = .hold) ∧ (s.getCh k).rcp.armed = true ∧
        (alFind (s.getCh k).rcp.recipe s.rcp.grades).isSome = true then Machine.grade k Cause.estGraded s
      else raise .fabric Cause.estCmdRefused k s)) ∧
  (∀ s (k : Fin 128) cause g, alFind (s.getCh k).rcp.recipe s.rcp.grades = some g →
    ∃ t, Machine.grade k cause s = t ∧ t.rcp.resSeq = (s.rcp.resSeq + 1) % 2 ^ 32 ∧ (t.getEst k).res.length = 64 ∧
      (∃ e ∈ t.fab.events, e.cause = Cause.estGraded) ∧
      (binOf g (gradedOf s k) = 0xFF → ∃ e ∈ t.fab.events, e.cause = Cause.estNoBin) ∧ (∀ j, j ≠ k.val → t.getEst j = s.getEst j)) ∧
  (∀ s (k : Fin 128), (s.mode.up = false ∨ modelOf s k = none ∨ kPointDue s k = false) → exec (.klogPoint k) s = .next s) ∧
  (∀ s (k : Fin 128) m u, s.mode.up = true → modelOf s k = some m → kPointDue s k = true →
      u = modEst k (fun e => { e with kTk := s.tb.run }) s →
    (kPoint s k m = none → exec (.klogPoint k) s = .next u) ∧
    (∀ v p, kPoint s k m = some (v, p) → p.length = 16 ∧
      exec (.klogPoint k) s = .next (pushLog 1 k p (modEst k (fun e => { e with
        kPts := (p :: e.kPts).take 64, kArm := some (s.tb.run, v) }) u))))

/-- R225 to R228 (derived): allocations never give away more than there is, and what their commands do, every form. -/
def Obligations.AllocationsStayWithinThePower : Prop :=
  (∀ s l cs rest, 0 ≤ rest → (allotCharge s l cs rest).2.2 ≤ rest) ∧
  (∀ s l cs rest, (∀ r ∈ l, 0 ≤ r.p) → powerOf (l.filter fun r => cs.contains r.cls) ≤ rest → cs.Nodup →
    (allotCharge s l cs rest).2.2 = powerOf (l.filter fun r => cs.contains r.cls)) ∧
  (∀ s slack, s.mode.up = true → stageOn s = true → s.sump.due = true → s.tb.run % 8 = 7 → 0 ≤ slack →
    ∃ t, exec (.sumpAllocation slack) s = .next t ∧ t.sump.stage = some { allocate s (s.tb.run + 2) with slack := slack } ∧
      t.sump.budIn = (if budFallback s = true then none else s.sump.told.map (·.1)) ∧ Within [.sump] s t) ∧
  (∀ s slack, (s.mode.up = false ∨ stageOn s = false ∨ s.sump.due = false ∨ s.tb.run % 8 ≠ 7 ∨ slack < 0) →
    exec (.sumpAllocation slack) s = .next s) ∧
  (∀ s at_, (allocate s at_).at_ = at_ ∧ (∀ x ∈ (allocate s at_).grants, populated s x.1 = true) ∧
    ((allocate s at_).constr = false → (allocate s at_).noCls = 0)) ∧
  (∀ s, 4 ≤ s.sump.lateRun →
    ∃ t, exec .grantsZeroed s = .next t ∧ t.sump.zeroed = true ∧
      (∀ k, k < 128 → populated s k = true → charges (s.getCh k) = true → (t.getCh k).reg.gEff = 0) ∧
      (∀ k, populated s k = false ∨ charges (s.getCh k) = false → t.getCh k = s.getCh k) ∧ Within [.sump, .ch] s t) ∧
  (∀ s, s.sump.lateRun < 4 → exec .grantsZeroed s = .next s) ∧
  (∀ s, exec .sumpBudgetStale s = .next (if s.mode.up = true ∧ s.sump.told.isSome = true ∧ s.sump.stale = false ∧ budOld s = true then
      raise .fabric Cause.sumpBudgetStale 0xFF { s with sump := { s.sump with stale := true, budIn := none } }
    else s))

/-- R219 to R222, R232 to R237 (derived): losses, droops, over-voltage, the inhibit and the sequencer's moves, every form of the fifteen
commands. The ride timer's start at comparator losses is log entry 63's reading. -/
def Obligations.RideThroughMoves : Prop :=
  (∀ s e, s.sump.moving = true → rideEvent e s = { s with
    sump := { s.sump with waiting := if s.sump.waiting.contains e then s.sump.waiting else s.sump.waiting ++ [e] } }) ∧
  (∀ s e, s.sump.moving = false → ∃ t, rideEvent e s = t ∧
    (s.sump.ride = .normal → (e = .lost ∨ e = .droop) → t.sump.ride = .droop ∧ t.sump.moving = true ∧ t.sump.nDroop = incSat 8 s.sump.nDroop ∧
      t.sump.waiting = (if e = .lost then s.sump.waiting ++ [.lost] else s.sump.waiting)) ∧
    (s.sump.ride = .droop → (e = .lost ∨ e = .droopTo) → t.sump.moving = true ∧
      t.sump.ride = (if (Sump.lendEn s && !s.sump.inh && !(lenders s).isEmpty && stageOn s) = true then .lend else .pause)) ∧
    (s.sump.ride = .droop → e = .recovered → s.sump.loss = false → t.sump.ride = .normal ∧ t.sump.rideFrom = none) ∧
    (s.sump.ride = .droop → e = .recovered → s.sump.loss = true → t = s) ∧
    (s.sump.ride = .lend → e = .rideTo → t.sump.ride = .pause ∧ t.sump.moving = true) ∧
    ((s.sump.ride = .pause ∧ e = .quiescent ∨ s.sump.ride = .ret ∧ e = .lost) → t.sump.moving = true ∧
      t.sump.ride = (if rideDone s = true then .expire else .hold)) ∧
    (s.sump.ride = .hold → e = .rideTo → t.sump.ride = .expire ∧ t.sump.nExp = incSat 8 s.sump.nExp) ∧
    (s.sump.ride = .ret → e = .returned → t.sump.ride = .normal ∧ t.sump.loss = false ∧ ∃ x ∈ t.fab.events, x.cause = Cause.sumpReturned) ∧
    (e = .back → s.sump.feOk = true → (s.sump.ride = .lend ∨ s.sump.ride = .pause ∨ s.sump.ride = .hold ∨ s.sump.ride = .expire ∨
      s.sump.ride = .droop ∧ s.sump.loss = true) → t.sump.ride = .ret ∧ t.sump.retFrom = s.sump.ride ∧ t.sump.retOkTk = s.tb.run ∧ t.sump.moving = true) ∧
    ((e = .back ∧ (s.sump.feOk = false ∨ s.sump.ride = .normal ∨ s.sump.ride = .ret ∨ s.sump.ride = .droop ∧ s.sump.loss = false) ∨
      e = .lost ∧ (s.sump.ride = .lend ∨ s.sump.ride = .pause ∨ s.sump.ride = .hold ∨ s.sump.ride = .expire) ∨
      e = .droop ∧ s.sump.ride ≠ .normal ∨ (e = .droopTo ∨ e = .recovered) ∧ s.sump.ride ≠ .droop ∨ e = .quiescent ∧ s.sump.ride ≠ .pause ∨
      e = .returned ∧ s.sump.ride ≠ .ret ∨ e = .rideTo ∧ s.sump.ride ≠ .lend ∧ s.sump.ride ≠ .hold) → t = s)) ∧
  (∀ s, (s.mode.up = false ∨ (s.sump.feOk = false ∧ s.sump.loss = true)) → exec .sumpFeLost s = .next s) ∧
  (∀ s, s.mode.up = true → (s.sump.feOk = true ∨ s.sump.loss = false) →
    ∃ u, exec .sumpFeLost s = .next (rideEvent .lost u) ∧ u.sump.feOk = false ∧ u.sump.loss = true ∧ u.sump.ride = s.sump.ride ∧
      u.sump.moving = s.sump.moving ∧ u.sump.nLoss = (if s.sump.rideFrom = none then incSat 8 s.sump.nLoss else s.sump.nLoss) ∧
      u.sump.rideFrom = some (s.sump.rideFrom.getD s.tb.run) ∧ (∃ x ∈ u.fab.events, x.cause = Cause.sumpFeLost) ∧ Within [.sump, .fab] s u) ∧
  (∀ s, (s.mode.up = false ∨ s.sump.feOk = true) → exec .sourceBack s = .next s) ∧
  (∀ s u, s.mode.up = true → s.sump.feOk = false → u = { s with sump := { s.sump with feOk := true } } →
    exec .sourceBack s = .next (if busOk u = true then rideEvent .back u else u)) ∧
  (∀ s, (s.mode.up = false ∨ s.sump.cmpDroop = true) → exec .sumpDroop s = .next s) ∧
  (∀ s, s.mode.up = true → s.sump.cmpDroop = false →
    exec .sumpDroop s = .next (rideEvent .droop (raise .timebase Cause.sumpDroop 0xFF
      { s with sump := { s.sump with cmpDroop := true, droopFrom := some s.tb.run, busOkFrom := none } }))) ∧
  (∀ s, s.sump.cmpDroop = false → exec .droopRelease s = .next s) ∧
  (∀ s u, s.sump.cmpDroop = true →
      u = { s with sump := { s.sump with cmpDroop := false, droopFrom := none, busOkFrom := some s.tb.run, retOkTk := s.tb.run } } →
    exec .droopRelease s = .next (if s.sump.feOk = true then rideEvent .back u else u)) ∧
  (∀ s, (s.mode.up = false ∨ s.sump.cmpOv = true) → exec .sumpOv s = .next s) ∧
  (∀ s, s.mode.up = true → s.sump.cmpOv = false →
    ∃ t, exec .sumpOv s = .next t ∧ t.sump.cmpOv = true ∧ (∃ x ∈ t.fab.events, x.cause = Cause.sumpOv) ∧
      (∀ n, n < 128 → (s.getPh n).onTime = true → (s.getPh n).dir = true → (t.getPh n).onTime = false ∧ (t.getPh n).pwm = .high) ∧
      (∀ n, ((s.getPh n).dir = false ∨ (s.getPh n).onTime = false) → t.getPh n = s.getPh n) ∧ Within [.sump, .ph, .fab] s t) ∧
  (∀ s, exec .ovRelease s = .next { s with sump := { s.sump with cmpOv := false } }) ∧
  (∀ s long late,
      long = (s.sump.cmpDroop && match s.sump.droopFrom with | some t => decide (t + floorTk (Sump.tDroopMs s) ≤ s.tb.run) | none => false) →
      late = (s.sump.ride == .droop && !s.sump.loss && decide (s.sump.droopTk + floorTk (Sump.tDroopMs s) ≤ s.tb.run)) →
    exec .droopTimeout s = .next (if s.mode.up = true ∧ (long = true ∨ late = true) then rideEvent .droopTo (noteLoss long s) else s)) ∧
  (∀ s, exec .droopRecovered s = .next (if s.mode.up = true ∧ s.sump.cmpDroop = false ∧ busOk s = true ∧ s.sump.ride = .droop ∧
      (∃ t, s.sump.busOkFrom = some t ∧ t + 8 ≤ s.tb.run) then rideEvent .recovered s else s)) ∧
  (∀ s, exec .pauseQuiescent s = .next (if s.mode.up = true ∧ s.sump.ride = .pause ∧ (popAll s).all (quietPhases s) = true then
    rideEvent .quiescent s else s)) ∧
  (∀ s, exec .rideTimeout s = .next (if s.mode.up = true ∧ rideDone s = true then rideEvent .rideTo s else s)) ∧
  (∀ s, exec .sumpReturned s = .next (if s.mode.up = true ∧ s.sump.ride = .ret ∧ s.sump.feOk = true ∧ busOk s = true ∧
    s.sump.retOkTk + floorTk 5 ≤ s.tb.run then rideEvent .returned s else s)) ∧
  (∀ s, (s.mode.up = false ∨ s.sump.moving = false ∨ transitionDone s = false) → exec .rideTransitionDone s = .next s) ∧
  (∀ s, s.mode.up = true → s.sump.moving = true → transitionDone s = true →
    exec .rideTransitionDone s = .next (s.sump.waiting.foldl (fun t e => rideEvent e t)
      { s with sump := { s.sump with moving := false, waiting := [] } })) ∧
  (∀ s, (s.sump.clrCls = none ∨ s.mode.up = false ∨ s.tb.run % 8 ≠ 0 ∨ s.sump.inhPause = true ∨ pauseState s = true ∨
      ∃ c f, s.sump.clrCls = some (c, f) ∧ s.tb.run ≤ f) → exec .pauseClassClear s = .next s) ∧
  (∀ s c f, s.mode.up = true → s.sump.clrCls = some (c, f) → f < s.tb.run → s.tb.run % 8 = 0 → s.sump.inhPause = false →
      pauseState s = false →
    ∃ t, exec .pauseClassClear s = .next t ∧ t.sump.clrCls = (if c < 3 then some (c + 1, s.tb.run) else none) ∧
      (∀ k, k < 128 → populated s k = true → Sump.prio s k = c → (t.getCh k).psSump = false) ∧
      (∀ k, (populated s k = false ∨ Sump.prio s k ≠ c) → t.getCh k = s.getCh k)) ∧
  (∀ s, s.mode.up = false → exec .sumpInhibit s = .next s ∧ exec .inhibitClear s = .next s) ∧
  (∀ s, s.mode.up = true → s.sump.inh = false → Sump.inhPinEn s = true →
    ∃ t, exec .sumpInhibit s = .next t ∧ t.sump.inh = true ∧ t.sump.inhPin = true ∧ t.sump.inhPause = true ∧ t.sump.clrCls = none ∧
      ∃ x ∈ t.fab.events, x.cause = Cause.sumpInhibit) ∧
  (∀ s, s.mode.up = true → ((Sump.inhPinEn s = false ∧ s.sump.inh = s.sump.inhTold) ∨ (Sump.inhPinEn s = true ∧ s.sump.inh = true)) →
    exec .sumpInhibit s = .next { s with sump := { s.sump with inhPin := true } }) ∧
  (∀ s, s.mode.up = true → s.sump.inhPin = true → s.sump.inh = true → s.sump.inhTold = false →
    exec .inhibitClear s = .next { s with sump := { s.sump with inhPin := false, inh := false, inhClrTk := s.tb.run } }) ∧
  (∀ s, s.mode.up = true → s.sump.inhPin = true → s.sump.inh = s.sump.inhTold →
    exec .inhibitClear s = .next { s with sump := { s.sump with inhPin := false } }) ∧
  (∀ s, s.mode.up = true → s.sump.inhPin = false →
    exec .inhibitClear s = .next (if s.sump.inhPause = true ∧ s.sump.inh = false ∧ s.sump.inhClrTk + floorTk 5 ≤ s.tb.run then
      startClear { s with sump := { s.sump with inhPause := false } } else s))

/-- R245 to R248, R270 (derived): Sync, Announce and delay messages, and the states of the timebase, every form. A first Sync taken into
ACQUIRE does not count towards LOCKED: log entry 64. -/
def Obligations.PtpMessagesAndTimebaseStates : Prop :=
  (∀ s m, (fromMaster s m = false ∨ (m.mtype ≠ 0 ∧ m.mtype ≠ 8) ∨ (m.mtype = 0 ∧ (m.logInt < -7 ∨ 1 < m.logInt)) ∨
      (m.mtype = 8 ∧ ∀ rx corr, s.tb.syncWait ≠ some (m.seq, rx, corr))) → exec (.ptpSync m) s = .next s) ∧
  (∀ s m, fromMaster s m = true → m.mtype = 0 → -7 ≤ m.logInt → m.logInt ≤ 1 →
    exec (.ptpSync m) s = .next (if m.twoStep = true then
        { s with tb := { s.tb with syncWait := some (m.seq, m.rx, m.corr), logSync := m.logInt } }
      else acceptSync m.port.val m.origin m.rx m.corr m.logInt { s with tb := { s.tb with syncWait := none } })) ∧
  (∀ s m rx corr, fromMaster s m = true → m.mtype = 8 → s.tb.syncWait = some (m.seq, rx, corr) →
    exec (.ptpSync m) s = .next (acceptSync m.port.val m.origin rx (corr + m.corr) s.tb.logSync
      { s with tb := { s.tb with syncWait := none } })) ∧
  (∀ s port origin rx corr log, (s.tb.st = .freerun ∨ s.tb.st = .holdover) →
    ∃ t, acceptSync port origin rx corr log s = t ∧ t.tb.st = .acquire ∧ t.tb.nIn = 0 ∧ t.tb.syncTk = s.tb.run ∧ t.tb.trace = false ∧
      t.tb.run = s.tb.run ∧ Within [.tb] s t) ∧
  (∀ o s, s.tb.st = .acquire → 15 ≤ s.tb.nIn → o.natAbs ≤ lockNs s →
    (syncState o s).tb.st = .locked ∧ (syncState o s).tb.lockTk = s.tb.run ∧ ∃ e ∈ (syncState o s).fab.events, e.cause = Cause.tbLocked) ∧
  (∀ o s, s.tb.st = .acquire → (s.tb.nIn < 15 ∨ lockNs s < o.natAbs) → (syncState o s).tb.st = .acquire) ∧
  (∀ o s, s.tb.st = .locked → 3 ≤ s.tb.nOut → unlockNs s < o.natAbs →
    (syncState o s).tb.st = .acquire ∧ (syncState o s).tb.nUnlock = incSat 8 s.tb.nUnlock ∧
      ∃ e ∈ (syncState o s).fab.events, e.cause = Cause.tbUnlocked) ∧
  (∀ o s, s.tb.st = .locked → (s.tb.nOut < 3 ∨ o.natAbs ≤ unlockNs s) → (syncState o s).tb.st = .locked) ∧
  (∀ o log s, (stepLim s < o.natAbs → (servo o log s).tb.step.map (·.1) = some (-o) ∧ (servo o log s).tb.yf = s.tb.yf) ∧
    (o.natAbs ≤ stepLim s → (servo o log s).tb.step = s.tb.step ∧ (servo o log s).tb.yp.natAbs ≤ 109951163 ∧
      (servo o log s).tb.yf.natAbs ≤ 219902326)) ∧
  (∀ s m, (ptpEn s = false ∨ ptpHeard s m = false ∨ m.logInt < -3 ∨ 4 < m.logInt ∨ 255 ≤ m.steps) → exec (.ptpAnnounce m) s = .next s) ∧
  (∀ s m, ptpEn s = true → ptpHeard s m = true → -3 ≤ m.logInt → m.logInt ≤ 4 → m.steps < 255 →
    ∃ t, exec (.ptpAnnounce m) s = .next t ∧
      (∃ x ∈ t.tb.foreign, x.ident = m.ident ∧ x.port = m.srcPort ∧ x.gm = m.gm ∧ s.tb.run ∈ x.heard ∧ x.utc = m.utc) ∧
      (s.tb.foreign = [] → s.tb.master = none → t.tb.master = none) ∧ Within [.tb, .fab] s t) ∧
  (∀ s x, bestOf (s.tb.foreign.filter (qualified s)) = some x → s.tb.lastMaster.isSome = true → s.tb.lastMaster ≠ some (x.ident, x.port) →
    ∃ t, selectMaster s = t ∧ t.tb.master = some x ∧ t.tb.nMaster = incSat 8 s.tb.nMaster ∧
      (s.tb.st = .locked ∨ s.tb.st = .holdover → t.tb.st = .acquire) ∧ (∃ e ∈ t.fab.events, e.cause = Cause.tbMasterChange)) ∧
  (∀ s m tx, ptpHeard s m = false → exec (.ptpDelayMessage m tx) s = .next s) ∧
  (∀ s m tx, m.mtype ≠ 9 → (ptpP2p s = false ∨ m.mtype ≠ 2 ∧ m.mtype ≠ 3 ∧ m.mtype ≠ 10) → exec (.ptpDelayMessage m tx) s = .next s) ∧
  (∀ s m tx t3 t1 t2, fromMaster s m = true → ptpP2p s = false → m.mtype = 9 → s.tb.dreq = some (m.seq, t3) → s.tb.t12 = some (t1, t2) →
    exec (.ptpDelayMessage m tx) s = .next { s with tb := { s.tb with
      mpd := rnd (((t2 - t1) + (m.origin - t3)) * 65536 - m.corr) (2 * 65536), dreq := none, logDreq := m.logInt } }) ∧
  (∀ s m tx, m.mtype = 9 → (fromMaster s m = false ∨ ptpP2p s = true ∨ s.tb.t12 = none ∨ ∀ t3, s.tb.dreq ≠ some (m.seq, t3)) →
    exec (.ptpDelayMessage m tx) s = .next s) ∧
  (∀ s m tx, ptpHeard s m = true → ptpP2p s = true → m.mtype = 2 →
    exec (.ptpDelayMessage m tx) s = .next (if pdOneStep s = true then sendPtp m.port 3 m.seq 0 (m.corr + (tx - m.rx) * 65536) s
      else sendPtp m.port 10 m.seq tx m.corr (sendPtp m.port 3 m.seq m.rx 0 s))) ∧
  (∀ s m tx t1, ptpHeard s m = true → ptpP2p s = true → m.mtype = 3 → s.tb.pdreq.getD m.port none = some (m.seq, t1) →
    exec (.ptpDelayMessage m tx) s = .next (if m.twoStep = true then
        { s with tb := { s.tb with pdwait := lset s.tb.pdwait m.port (some (m.seq, m.origin, m.rx, m.corr)) } }
      else setLinkDelay m.port t1 0 0 m.rx m.corr s)) ∧
  (∀ s m tx t1 q t2 t4 corr, ptpHeard s m = true → ptpP2p s = true → m.mtype = 10 → s.tb.pdreq.getD m.port none = some (q, t1) →
      s.tb.pdwait.getD m.port none = some (m.seq, t2, t4, corr) →
    exec (.ptpDelayMessage m tx) s = .next (setLinkDelay m.port t1 t2 m.origin t4 (corr + m.corr) s)) ∧
  (∀ s m tx, (m.mtype = 3 ∧ (∀ t1, s.tb.pdreq.getD m.port none ≠ some (m.seq, t1)) ∨
      m.mtype = 10 ∧ (s.tb.pdreq.getD m.port none = none ∨ ∀ x, s.tb.pdwait.getD m.port none ≠ some (m.seq, x))) →
    exec (.ptpDelayMessage m tx) s = .next s) ∧
  (∀ s tx u, ptpEn s = true → ptpP2p s = false → s.tb.master.isSome = true → s.tb.t12.isSome = true → linkUp s s.tb.port = true →
      intervalOver s (dreqLog s) s.tb.dreqTk = true →
      u = { s with tb := { s.tb with
        dreq := some (s.tb.dreqSeq, tx), dreqTk := some s.tb.run, dreqSeq := (s.tb.dreqSeq + 1) % 2 ^ 16 } } →
    exec (.delayReqSend tx) s = .next (sendPtp s.tb.port 1 s.tb.dreqSeq 0 (-(asymOf s s.tb.port * 65536)) u)) ∧
  (∀ s tx, (ptpEn s = false ∨ ptpP2p s = true ∨ s.tb.master = none ∨ s.tb.t12 = none ∨ linkUp s s.tb.port = false ∨
      intervalOver s (dreqLog s) s.tb.dreqTk = false) → exec (.delayReqSend tx) s = .next s) ∧
  (∀ s (port : Fin 2) tx, ptpP2p s = true → linkUp s port = true → intervalOver s (logPdreq s) (s.tb.pdTk.getD port none) = true →
    ∃ u, exec (.pdelayReqSend port tx) s = .next (sendPtp port 2 (s.tb.pdSeq.getD port 0) 0 (-(asymOf s port * 65536)) u) ∧
      u.tb.pdreq = lset s.tb.pdreq port (some (s.tb.pdSeq.getD port 0, tx)) ∧ u.tb.pdTk = lset s.tb.pdTk port (some s.tb.run) ∧
      Within [.tb] s u) ∧
  (∀ s (port : Fin 2) tx, (ptpP2p s = false ∨ linkUp s port = false ∨ intervalOver s (logPdreq s) (s.tb.pdTk.getD port none) = false) →
    exec (.pdelayReqSend port tx) s = .next s) ∧
  (∀ s port ty q o corr, sendPtp port ty q o corr s = if (ptpL2 s || s.link.ipNow != 0) = true then
      txFrame port (ty != 10 || tagHigh (ownTag s (pcpPtp s))) (frameLen (ptpLen (ptpL2 s) ty) (ownTag s (pcpPtp s)))
        (.ptp port (ptpL2 s) (ownTag s (pcpPtp s)) ty q o corr) s
    else s) ∧
  (∀ s, (s.mode.up = false ∨ (annTimeout s = false ∧ since s s.tb.syncTk < syncTo s * pow2Tk s.tb.logSync)) → exec .syncLoss s = .next s) ∧
  (∀ s, s.mode.up = true → annTimeout s = false → syncTo s * pow2Tk s.tb.logSync ≤ since s s.tb.syncTk →
    exec .syncLoss s = .next (syncLost s)) ∧
  (∀ s f, s.mode.up = true → annTimeout s = true →
      f = (s.tb.foreign.filter fun y => !(s.tb.master.any fun m => y.ident == m.ident && y.port == m.port)) →
    exec .syncLoss s = .next (if (bestOf (f.filter (qualified s))).isSome = true then selectMaster { s with tb := { s.tb with foreign := f } }
      else syncLost { s with tb := { s.tb with foreign := f, master := none, syncWait := none, t12 := none } })) ∧
  (∀ s, s.tb.st = .locked → ∃ t, syncLost s = t ∧ t.tb.st = .holdover ∧ t.tb.yp = 0 ∧ t.tb.holdTk = s.tb.run ∧
      t.tb.nHold = incSat 8 s.tb.nHold ∧ (∃ e ∈ t.fab.events, e.cause = Cause.tbHoldover) ∧ Within [.tb, .fab] s t) ∧
  (∀ s, s.tb.st = .acquire → syncLost s = { s with tb := { s.tb with st := .freerun, yp := 0 } }) ∧
  (∀ s, (s.tb.st = .freerun ∨ s.tb.st = .holdover) → syncLost s = s) ∧
  (∀ s, exec .tbFreerun s = .next (if s.tb.st = .holdover ∧ secTk (holdMaxS s) ≤ since s s.tb.holdTk then
      raise .timebase Cause.tbFreerun 0xFF { s with tb := { s.tb with st := .freerun, trace := false } }
    else s))

/-- R249 to R251 (derived): a requested step of line time is applied at a free edge, forced past its 16,384 ticks, and never changes run
time. -/
def Obligations.StepsOfLineTime : Prop :=
  (∀ s, s.tb.step = none → exec .timeStepApply s = .next s) ∧
  (∀ s d a, s.tb.step = some (d, a) → launchWaits s = true → since s a ≤ 16384 → exec .timeStepApply s = .next s) ∧
  (∀ s d a, s.tb.step = some (d, a) → (launchWaits s = false ∨ 16384 < since s a) →
    ∃ t, exec .timeStepApply s = .next t ∧ t.tb.run = s.tb.run ∧ t.tb.step = none ∧ t.tb.nSteps = incSat 8 s.tb.nSteps ∧
      t.tb.sec * 2 ^ 32 + t.tb.frac = ((lineU s : Int) + rnd (d * 2 ^ 28) 1000000000 * 16).toNat ∧
      (∀ n, n < 128 → (t.getFe n).stepSub = s.tb.run + 3) ∧ t.ch = s.ch ∧ t.regs = s.regs ∧
      (∃ e ∈ t.fab.events, e.cause = Cause.timeStepped) ∧ (16384 < since s a → ∃ e ∈ t.fab.events, e.cause = Cause.tbStepForced))

/-- R252 to R260 (derived): timed commands are judged in order, cancelled, released 16 ticks ahead and completed, every form. The record of a
cancelled command is log entry 32's choice. -/
def Obligations.TimedCommandsAreJudgedReleasedAndCompleted : Prop :=
  (∀ s c kind, (c, kind) ∈ [(Instr.tcmdLaunch, 1), (.tcmdSetpoint, 2), (.tcmdGroupRelease, 3), (.tcmdChannelCmd, 4), (.tcmdMode, 5),
      (.tcmdCancel, 6)] →
    (∀ x ∈ s.tb.tcIn.head?, Tc.kind x.2.2 ≠ kind) → exec c s = .next s) ∧
  (∀ s u sess rsn b rest c kind, (c, kind) ∈ [(Instr.tcmdLaunch, 1), (.tcmdSetpoint, 2), (.tcmdGroupRelease, 3), (.tcmdChannelCmd, 4),
      (.tcmdMode, 5), (.tcmdCancel, 6)] →
    s.tb.tcIn = (sess, rsn, b) :: rest → Tc.kind b = kind → u = { s with tb := { s.tb with tcIn := rest } } →
    (∀ x, tcRefused u b = some x → exec c s = .next (tcAnswer x sess rsn (Tc.tag b) u)) ∧
    (∀ i, kind ≠ 6 → tcRefused u b = none → tcFree s = some i → i < 256 →
      ∃ t, exec c s = .next (tcAnswer Cause.tcmdAccepted sess rsn (Tc.tag b) t) ∧ t.tb.tcIn = rest ∧
        t.getTc i = { slot := .pending, raw := b, sess := sess, rsn := rsn, ord := s.tb.tcOrd } ∧
        (∀ j, j ≠ i → t.getTc j = s.getTc j) ∧ t.tb.tcOrd = s.tb.tcOrd + 1 ∧ Within [.tb] s t) ∧
    (kind = 6 → tcRefused u b = none → exec c s = .next (tcAnswer (tcCancel b u).1 sess rsn (Tc.tag b) (tcCancel b u).2))) ∧
  (∀ s cause sess rsn tag, ∃ t e, tcAnswer cause sess rsn tag s = t ∧ t.fab.events = s.fab.events ++ [e] ∧ e.cause = cause ∧
    e.arg = leBytes 4 tag ++ leBytes 4 rsn ∧ e.ring = some (52 + sess) ∧ Within [.fab] s t) ∧
  (∀ b s p, p = (fun e : TcEnt => Tc.tag e.raw == Tc.cancel b && e.slot != .free && !(e.slot == .completed && e.outcome == 5)) →
    (tcFind s p = [] → tcCancel b s = (Cause.tcmdBad, s)) ∧
    (tcFind s p ≠ [] → (tcFind s fun e => p e && e.slot == .pending) = [] → tcCancel b s = (Cause.tcmdCancelLate, s)) ∧
    (∀ i l, (tcFind s fun e => p e && e.slot == .pending) = i :: l → i < 256 →
      (tcCancel b s).1 = Cause.tcmdAccepted ∧ ((tcCancel b s).2.getTc i).slot = .completed ∧ ((tcCancel b s).2.getTc i).outcome = 5 ∧
        (∀ j, j ≠ i → (tcCancel b s).2.getTc j = s.getTc j) ∧ ∃ e ∈ (tcCancel b s).2.fab.events, e.cause = Cause.tcmdCancelled)) ∧
  (∀ s (e : Fin 256), ((s.getTc e).slot ≠ .pending ∨ lineU s + 16 * 2 ^ 19 < Tc.time (s.getTc e).raw) → exec (.tcmdRelease e) s = .next s) ∧
  (∀ s (e : Fin 256) b, (s.getTc e).slot = .pending → (s.getTc e).raw = b → Tc.time b ≤ lineU s + 16 * 2 ^ 19 →
    ∃ t, exec (.tcmdRelease e) s = .next t ∧ (t.getTc e).slot = .released ∧ (t.getTc e).l = tickOf s (Tc.time b) ∧
      (t.getTc e).targets = tcTargets s b ∧ (t.getTc e).raw = b ∧
      (Tc.kind b ≤ 4 → Tc.group b ≤ 15 → (t.getTc e).epoch = (s.getGrp (Tc.group b)).epoch ∧
        ((t.getTc e).epochBad = true ↔ (s.getGrp (Tc.group b)).epoch ≠ Tc.epoch b)) ∧
      (Tc.kind b = 5 → s.tb.drain = none → ∃ d, t.tb.drain = some d ∧ d.from_ = tickOf s (Tc.time b) ∧ d.lim = Tc.drainMs b ∧
        d.goal = (if Tc.target b = 1 then .rest else .load) ∧ d.entry = some e.val) ∧
      (Tc.kind b ≠ 5 → t.tb.drain = s.tb.drain) ∧ (∀ j, j ≠ e.val → t.getTc j = s.getTc j)) ∧
  (∀ s (e : Fin 256) x, s.getTc e = x →
      (x.slot ≠ .released ∨ Tc.kind x.raw ≠ 5 ∧ ¬(x.l ≤ s.tb.run ∧ x.applied = x.targets ∧ x.lastTk = 0) ∧ s.tb.run ≤ x.l + Tc.grace x.raw ∨
        Tc.kind x.raw = 5 ∧ (s.tb.run < x.l ∨ ∃ d, s.tb.drain = some d ∧ d.entry = some e.val)) → exec (.tcmdDone e) s = .next s) ∧
  (∀ s (e : Fin 256) x, s.getTc e = x → x.slot = .released → Tc.kind x.raw ≠ 5 →
      (x.l ≤ s.tb.run ∧ x.applied = x.targets ∧ x.lastTk = 0 ∨ x.l + Tc.grace x.raw < s.tb.run) →
    exec (.tcmdDone e) s = .next (tcComplete e (tcOutcome x) s)) ∧
  (∀ s (e : Fin 256) x, s.getTc e = x → x.slot = .released → Tc.kind x.raw = 5 → x.l ≤ s.tb.run →
      (∀ d, s.tb.drain = some d → d.entry ≠ some e.val) → exec (.tcmdDone e) s = .next (tcComplete e 2 s)) ∧
  (∀ s (e : Fin 256) o, ∃ t, tcComplete e o s = t ∧ (t.getTc e).slot = .completed ∧ (t.getTc e).outcome = o ∧
    (t.getTc e).missed = (s.getTc e).left ∧ (∀ j, j ≠ e.val → t.getTc j = s.getTc j) ∧ (∃ x ∈ t.fab.events, x.cause = Cause.tcmdDone) ∧
    (∀ k, (s.getTc e).left.testBit k = true → k < 128 → ∃ x ∈ t.fab.events, x.cause = Cause.missed ∧ x.ch = k) ∧ Within [.tb, .fab] s t) ∧
  (∀ e, e.epochBad = false → tcOutcome e = (if e.applied = e.targets then 0 else if e.applied = 0 then 2 else 1)) ∧
  (∀ e, e.epochBad = true → tcOutcome e = 3)

/-- R257, R260 to R262, R408 (derived): launch groups, the limit and the end of a drain, the PPS pulse and the RTC's hand-off, every form. -/
def Obligations.GroupsDrainLimitPulseAndHandoff : Prop :=
  (∀ s p (g : Fin 16) v, ∀ c ∈ [Instr.gmaskCommit p g v, .groupDisable p g], s.mode.up = false → exec c s = .next s) ∧
  (∀ s p (g : Fin 16) v, s.mode.up = true → loaderBusy s = true →
    exec (.gmaskCommit p g v) s = .next (raiseReg Cause.ldrBusy (0x00220C + 16 * g.val) s) ∧
    exec (.groupDisable p g) s = .next (raiseReg Cause.ldrBusy (0x002340 + 4 * g.val) s)) ∧
  (∀ s p (g : Fin 16) v, s.mode.up = true → loaderBusy s = false →
    ∃ t, exec (.gmaskCommit p g v) s = .next t ∧ (t.getGrp g).epoch = ((s.getGrp g).epoch + 1) % 2 ^ 32 ∧
      (t.getGrp g).held = [none, none, none] ∧ (t.getGrp g).en = (s.getGrp g).en ∧
      (∀ a b c : Word, (s.getGrp g).held = [some a, some b, some c] →
        (t.getGrp g).mask = a.toNat + b.toNat * 2 ^ 32 + c.toNat * 2 ^ 64 + v.toNat * 2 ^ 96) ∧
      ((s.getGrp g).held = [none, none, none] → (s.getGrp g).mask < 2 ^ 128 →
        (t.getGrp g).mask = (s.getGrp g).mask % 2 ^ 96 + v.toNat * 2 ^ 96) ∧
      (∀ j, j ≠ g.val → t.getGrp j = s.getGrp j) ∧ Within [.tb] s t) ∧
  (∀ s p (g : Fin 16), s.mode.up = true → loaderBusy s = false →
    ∃ t, exec (.groupDisable p g) s = .next t ∧ (t.getGrp g).en = false ∧
      (t.getGrp g).busy = !(tcFind s fun e => e.inGroup g).isEmpty ∧ (∀ j, j ≠ g.val → t.getGrp j = s.getGrp j) ∧ Within [.tb] s t) ∧
  (∀ s d, s.tb.drain = some d → d.timedOut = false → d.from_ ≤ s.tb.run → msTk d.lim < s.tb.run - d.from_ + 1 → drainOpen s d ≠ [] →
    ∃ t, exec .modeDrainTimeout s = .next t ∧ t.tb.drain = some { d with timedOut := true, forced := maskOf (drainOpen s d) } ∧
      (∀ k, k < 128 → k ∈ drainOpen s d → (t.getCh k).reg.iDem = 0 ∧ (t.getCh k).reg.cmd = none) ∧
      ∃ e ∈ t.fab.events, e.cause = Cause.modeDrainTimeout) ∧
  (∀ s, (∀ d, s.tb.drain = some d → d.timedOut = true ∨ s.tb.run < d.from_ ∨ s.tb.run - d.from_ + 1 ≤ msTk d.lim ∨ drainOpen s d = []) →
    exec .modeDrainTimeout s = .next s) ∧
  (∀ s d u, s.tb.drain = some d → d.from_ ≤ s.tb.run → drainOpen s d = [] → u = modeDone d { s with tb := { s.tb with drain := none } } →
    exec .deviceDrainDone s = .next (match d.goal with
      | .rest => enterRest u | .load => enterLoad u | .service => enterService u | .off => orderlyStore u)) ∧
  (∀ u, (enterRest u).mode = .rest ∧ (enterLoad u).mode = .load ∧ (enterService u).mode = .service) ∧
  (∀ s, (∀ d, s.tb.drain = some d → s.tb.run < d.from_ ∨ drainOpen s d ≠ []) → exec .deviceDrainDone s = .next s) ∧
  (∀ s, exec .ppsStart s = .next (if ppsOn s = true ∧ s.tb.frac = 0 then { s with tb := { s.tb with pps := some s.tb.run } } else s)) ∧
  (∀ s, exec .ppsEnd s = .next (if (∃ t, s.tb.pps = some t ∧ floorTk (ppsWidth s) ≤ since s t) then { s with tb := { s.tb with pps := none } }
    else s)) ∧
  (∀ s, (ppsActive s = true ↔ s.tb.pps.isSome = true ∧ ppsOn s = true) ∧ ppsPin s = (ppsActive s != bitN (cfgN s 0x002018) 12)) ∧
  (∀ s, handoffRuns s = true → (s.tb.sec % 64 ≠ 0 ∨ 2 ^ 19 ≤ s.tb.frac) → exec .rtcHandoff s = .next s) ∧
  (∀ s, (handoffRuns s = false ∨ (s.tb.sec % 64 = 0 ∧ s.tb.frac < 2 ^ 19 ∧ rtcHalt s = true)) →
    exec .rtcHandoff s = .next { s with rtc := { s.rtc with disc := false } }) ∧
  (∀ s, handoffRuns s = true → s.tb.sec % 64 = 0 → s.tb.frac < 2 ^ 19 → rtcHalt s = false → s.rtc.valid = false →
    ∃ t, exec .rtcHandoff s = .next t ∧ t.rtc.valid = true ∧ t.rtc.utcOk = true ∧ t.rtc.utcOfs = s.tb.utc.1 ∧ t.rtc.f = 0 ∧ t.rtc.trim = 0 ∧
      t.rtc.cal = calOfSeconds ((s.tb.sec : Int) - s.tb.utc.1 - ptpEpoch2000).toNat ∧ t.rtc.winSec = 0 ∧
      (∃ e ∈ t.fab.events, e.cause = Cause.rtcSet) ∧ Within [.rtc, .fab] s t) ∧
  (∀ s e, handoffRuns s = true → s.tb.sec % 64 = 0 → s.tb.frac < 2 ^ 19 → rtcHalt s = false → s.rtc.valid = true →
      e = ((calSeconds s.rtc.cal : Int) - ((s.tb.sec : Int) - s.tb.utc.1 - ptpEpoch2000)) * 32768 + s.rtc.cal.sub →
    (s.rtc.utcOk = false ∨ 16384 ≤ e.natAbs ∨ s.tb.utc.1 ≠ s.rtc.utcOfs →
      ∃ t, exec .rtcHandoff s = .next t ∧ t.rtc.cal = calOfSeconds ((s.tb.sec : Int) - s.tb.utc.1 - ptpEpoch2000).toNat ∧
        t.rtc.utcOfs = s.tb.utc.1 ∧ t.rtc.derr = e ∧ (∃ x ∈ t.fab.events, x.cause = Cause.rtcStepped) ∧ Within [.rtc, .fab] s t) ∧
    (s.rtc.utcOk = true → e.natAbs < 16384 → s.tb.utc.1 = s.rtc.utcOfs →
      ∃ t, exec .rtcHandoff s = .next t ∧ t.rtc.cal = s.rtc.cal ∧ t.rtc.derr = e ∧ t.rtc.ePrev = e ∧
        t.rtc.f = clampI (s.rtc.trim - (e - s.rtc.ePrev)) (-511) 511 ∧ t.rtc.trim = clampI (t.rtc.f - rnd e 4) (-511) 511 ∧
        Within [.rtc, .fab] s t))

/-- R267 to R277 (derived): ports, rope hellos, addresses and frames, every form. That a malformed hello raises its event alone, and that an
egress port's two queues share its 16 KiB, are log entry 84's choices. -/
def Obligations.PortsRopeAndFrames : Prop :=
  (∀ s (p : Fin 2), (linkRuns s = false ∨ (s.getPort p).up = true) → exec (.portUp p) s = .next s) ∧
  (∀ s (p : Fin 2), linkRuns s = true → (s.getPort p).up = false →
    ∃ t, exec (.portUp p) s = .next t ∧ (t.getPort p).up = true ∧ (t.getPort p).upTk = s.tb.run ∧ (t.getPort p).hello = (s.getPort p).hello ∧
      (s.link.ipNow ≠ 0 → t.link.ipNow = s.link.ipNow) ∧ t.link.pos = s.link.pos ∧ Within [.link, .out] s t) ∧
  (∀ s (p : Fin 2), (s.getPort p).up = false → exec (.linkPortDown p) s = .next s) ∧
  (∀ s (p : Fin 2), (s.getPort p).up = true →
    ∃ t, exec (.linkPortDown p) s = .next t ∧ (t.getPort p).up = false ∧ (t.getPort p).hello = (s.getPort p).hello ∧
      (∀ q, (q = 0 ∨ q = 1) → q ≠ p.val → t.getPort q = s.getPort q) ∧ (∃ e ∈ t.fab.events, e.cause = Cause.linkPortDown) ∧
      t.link.pos = s.link.pos ∧ t.link.sess = s.link.sess ∧ Within [.link, .fab] s t) ∧
  (∀ s (p : Fin 2), linkUp s p = false → exec (.ropeHelloSend p) s = .next s ∧ ∀ m, exec (.ropeHello p m) s = .next s) ∧
  (∀ s (p : Fin 2) u, linkUp s p = true → u = updateSeg s →
    exec (.ropeHelloSend p) s = .next (txFrame p false (frameLen ((helloMsg u).length + 18) none) (.hello p (helloMsg u)) u)) ∧
  (∀ s p high n o, ((s.getPort p).full n = true →
      txFrame p high n o s = modPort p (fun x => { x with drop := incSat 16 x.drop }) s) ∧
    ((s.getPort p).full n = false → (txFrame p high n o s).out = s.out ++ [o] ∧ Within [.link, .out] s (txFrame p high n o s))) ∧
  (∀ s (p : Fin 2) m, linkUp s p = true → (Pz.whole m = false ∨ Pz.sess m ≠ 0xFF) →
    exec (.ropeHello p m) s = .next { s with link := { s.link with nDisc := incSat 8 s.link.nDisc } }) ∧
  (∀ s (p : Fin 2) m, linkUp s p = true → Pz.whole m = true → Pz.sess m = 0xFF → helloOk m = false →
    exec (.ropeHello p m) s = .next (raiseSrc .fabric Cause.pzBad 0xFF 160 0 [] s)) ∧
  (∀ s m b, linkUp s 0 = true → Pz.whole m = true → Pz.sess m = 0xFF → helloOk m = true → Pz.payload m = b →
    ∃ t, exec (.ropeHello 0 m) s = .next t ∧ t.link.p0.hello = some (byteAt b 0, leAt b 16 4, s.tb.run) ∧ t.link.head = false ∧
      t.link.pos = (if bitN (byteAt b 1) 0 = true then some (Nat.min (byteAt b 0 + 1) 63) else s.link.pos) ∧
      (s.link.ipNow ≠ 0 → t.link.ipNow = s.link.ipNow) ∧ Within [.link, .fab, .out] s t) ∧
  (∀ s m b, linkUp s 1 = true → Pz.whole m = true → Pz.sess m = 0xFF → helloOk m = true → Pz.payload m = b →
    ∃ t, exec (.ropeHello 1 m) s = .next t ∧ t.link.seg = s.link.wcr + leAt b 16 4 ∧ t.link.tail = false ∧
      t.link.budgetOver = decide (800000 < s.link.wcr + leAt b 16 4) ∧ t.link.pos = s.link.pos ∧ Within [.link, .fab] s t) ∧
  (∀ s, ∃ t, setPos 0 true s = t ∧ t.link.pos = some 0 ∧ t.link.head = true ∧
    (s.link.lastPos.isSome = true → s.link.lastPos ≠ some 0 → ∃ e ∈ t.fab.events, e.cause = Cause.linkPosChange)) ∧
  (∀ s, (linkRuns s = false ∨ quiet s 0 = false) → exec .headTimeout s = .next s) ∧
  (∀ s, linkRuns s = true → quiet s 0 = true → s.link.p0.up = true → secTk 3 ≤ since s s.link.p0.upTk →
    exec .headTimeout s = .next (setPos 0 true s)) ∧
  (∀ s, linkRuns s = true → quiet s 0 = true → (s.link.p0.up = false ∨ since s s.link.p0.upTk < secTk 3) →
    exec .headTimeout s = .next { s with link := { s.link with pos := none, head := false } }) ∧
  (∀ s, (linkRuns s = false ∨ quiet s 1 = false ∨ (s.link.p1.hello = none ∧ since s s.link.p1.upTk < secTk 3)) →
    exec .tailTimeout s = .next s) ∧
  (∀ s, linkRuns s = true → quiet s 1 = true → (s.link.p1.hello.isSome = true ∨ secTk 3 ≤ since s s.link.p1.upTk) →
    ∃ t, exec .tailTimeout s = .next t ∧ t.link.tail = true ∧ t.link.seg = s.link.wcr ∧ t.link.p1.hello = none ∧ t.link.p0 = s.link.p0 ∧
      Within [.link, .fab] s t) ∧
  (∀ s (p : Fin 2) target ip mac vid, (ipHeard s p vid = false ∨ target ≠ s.link.ipNow) → exec (.arpRequest p target ip mac vid) s = .next s) ∧
  (∀ s (p : Fin 2) ip mac vid, ipHeard s p vid = true →
    exec (.arpRequest p s.link.ipNow ip mac vid) s = .next (txFrame p (tagHigh (otherTag s)) (frameLen 46 (otherTag s))
      (.arpReply p ip mac (otherTag s)) (learnArp ip mac s))) ∧
  (∀ s ip mac, (learnArp ip mac s).link.arp.length ≤ 16 ∧ (arpKeeps s ip = true → (ip, mac) ∈ (learnArp ip mac s).link.arp) ∧
    Within [.link] s (learnArp ip mac s)) ∧
  (∀ s (p : Fin 2) ip mac vid b, ipHeard s p vid = true → bitN (cfgN s 0x007000) 4 = true → s.link.icmp < 100 →
    exec (.icmpEcho p ip mac vid b) s = .next (txFrame p (tagHigh (otherTag s)) (frameLen (b.length + 38) (otherTag s))
      (.icmpReply p ip mac (otherTag s) b) { s with link := { s.link with icmp := s.link.icmp + 1 } })) ∧
  (∀ s (p : Fin 2) ip mac vid b, (ipHeard s p vid = false ∨ bitN (cfgN s 0x007000) 4 = false ∨ 100 ≤ s.link.icmp) →
    exec (.icmpEcho p ip mac vid b) s = .next s) ∧
  (∀ s p vid, ipHeard s p vid = true ↔ linkUp s p = true ∧ s.link.ipNow ≠ 0 ∧ (vid = none ∨ vid = some 0 ∨ vid = some (vlanVid s))) ∧
  (∀ s (p : Fin 2) f, linkUp s p = false → exec (.frameIngress p f) s = .next s) ∧
  (∀ s (p : Fin 2) f, linkUp s p = true → ((∀ ep m, f.kind ≠ .perzo ep m) ∨ (f.dst ≠ .own ∧ f.dst ≠ .group) ∨ f.fcsOk = false ∨ 1522 < f.len) →
    exec (.frameIngress p f) s = .next (ingressFrame p f s)) ∧
  (∀ s (p : Fin 2) f ep m, linkUp s p = true → f.kind = .perzo ep m → (f.dst = .own ∨ f.dst = .group) → f.fcsOk = true → f.len ≤ 1522 →
    exec (.frameIngress p f) s = .next (pzFrame { ep with port := p, vid := f.tag.map (·.1) } m (ingressFrame p f s))) ∧
  (∀ s (p : Fin 2) f, 1522 < f.len → ingressFrame p f s = modPort p (fun x => { x with drop := incSat 16 x.drop }) s) ∧
  (∀ s (p : Fin 2) f, f.len ≤ 1522 → f.fcsOk = true → (f.dst = .own ∨ f.dst = .pdelay ∨ f.dst = .ropeHello ∨ linkUp s (1 - p.val) = false) →
    ingressFrame p f s = s) ∧
  (∀ s (p : Fin 2) f u, f.len ≤ 1522 → f.fcsOk = true → (f.dst = .other ∨ f.dst = .group) → linkUp s (1 - p.val) = true →
      u = modPort (1 - p.val) (Port.atTime f.at_) s →
    ingressFrame p f s = txFrame (1 - p.val) (highQueue f) f.len (.forward (1 - p.val) (highQueue f) false (tcCorrection s p f)
      (f.udp && tcCorrection s p f != 0) f.ident) u) ∧
  (∀ s (p : Fin 2) f, f.len ≤ 1522 → f.fcsOk = false →
    ∃ t, ingressFrame p f s = t ∧ (t.getPort p).fcs = incSat 16 (s.getPort p).fcs ∧ Within [.link, .out] s t)

/-- R278 to R283, R371, R373 (derived): what every request of a session does: HEARTBEAT, READ, WRITE, TOLD_TEMP, TOLD_FIXTURE, TOLD_BUDGET,
TOLD_INHIBIT, TOLD_CELL_ID, EXT_SETPOINT, RING_SUB, RING_REPLAY, RING_PUSH and IMAGE_BLOCK. It is executed once and answered, refused, sent
again or discarded. That a load in progress leaves the others unanswered is log entry 65's choice. -/
def Obligations.RequestsAreExecutedOnce : Prop :=
  (∀ q ∈ requestTable, ∀ s ep m,
    ((Pz.type m ≠ q.1 ∨ pzHeard s ep = false) → exec (q.2.1 ep m) s = .next s) ∧
    (Pz.type m = q.1 → pzHeard s ep = true → (sessOf s ep = none ∨ ∃ i x, sessOf s ep = some i ∧ s.getSess i = some x ∧
        (Pz.whole m = false ∨ Pz.sess m ≠ i)) →
      exec (q.2.1 ep m) s = .next { s with link := { s.link with nDisc := incSat 8 s.link.nDisc } }) ∧
    (∀ i x u, FromSession s ep m i x → Pz.type m = q.1 → u = modSess i (fun y => { y with lastTk := s.tb.run }) s →
      (loadRuns s = true → q.1 ≠ 3 → q.1 ≠ 0x10 → q.1 ≠ 0x61 → exec (q.2.1 ep m) s = .next u) ∧
      ((loadRuns s = false ∨ q.1 = 3 ∨ q.1 = 0x10 ∨ q.1 = 0x61) →
        (x.busy ≠ none → exec (q.2.1 ep m) s = .next (modLink (fun l => { l with nBusy := incSat 8 l.nBusy }) u)) ∧
        (x.busy = none → Pz.seq m = x.seq →
          exec (q.2.1 ep m) s = .next (match x.kept with | some r => pzSend ep (pzDup r) u | none => u)) ∧
        (∀ want, want = (x.seq + 1) % 2 ^ 32 → x.busy = none → Pz.seq m ≠ x.seq → Pz.seq m ≠ want →
          exec (q.2.1 ep m) s = .next (pzSend ep (pzMsg s (Pz.type m) i 3 (Pz.seq m) (pzRefusal Cause.pzSeq want))
            (pzRaise (some i) Cause.pzSeq (some want) (modLink (fun l => { l with nSeq := incSat 8 l.nSeq }) u)))) ∧
        (NextRequest s ep m i x → (pzHeadOk m = false ∨ q.2.2.1 (Pz.payload m) = false) →
          exec (q.2.1 ep m) s = .next (answered ep m i (.refuse Cause.pzBad none (takenBy m i s)))) ∧
        (NextRequest s ep m i x → pzHeadOk m = true → q.2.2.1 (Pz.payload m) = true → x.role.code < q.2.2.2.1.code →
          exec (q.2.1 ep m) s = .next (answered ep m i (.refuse Cause.pzNotPermitted none (takenBy m i s)))) ∧
        (NextRequest s ep m i x → pzHeadOk m = true → q.2.2.1 (Pz.payload m) = true → q.2.2.2.1.code ≤ x.role.code →
          exec (q.2.1 ep m) s = .next (answered ep m i (q.2.2.2.2 i x (Pz.payload m) (takenBy m i s))))))) ∧
  (∀ ep m i x s, i < 4 → s.getSess i = some x → Lengths s = true →
    (∀ p r, r = pzMsg s (Pz.type m) i 1 (Pz.seq m) p →
      answered ep m i (.ok p s) = pzSend ep r (modSess i (fun y => { y with kept := some r, busy := none }) s)) ∧
    (∀ c a r, r = pzMsg s (Pz.type m) i 3 (Pz.seq m) (pzRefusal c (a.getD 0)) →
      ∃ u, answered ep m i (.refuse c a s) = pzSend ep r u ∧ u.getSess i = some { x with kept := some r, busy := none } ∧
        (∃ e ∈ u.fab.events, e.cause = c ∧ e.src = 143 + i) ∧ Within [.link, .fab] s u) ∧
    ∃ u, answered ep m i (.later s) = u ∧ u.getSess i = some { x with kept := none, busy := some (Pz.type m, Pz.seq m) } ∧ Within [.link] s u) ∧
  (∀ s (ep : Endpoint) b tag n, tag = ownTag s (pcpCtl s) → n = frameLen (b.length + 46) tag → (s.getPort ep.port).full n = false →
    (pzSend ep b s).out = s.out ++ [.perzo ep.port 51520 (some ep.mac) ep.ip ep.udp tag b] ∧ Within [.link, .out] s (pzSend ep b s))

/-- R284, R373 (derived): the order in which a HELLO is decided, and the session it opens, every form. -/
def Obligations.HelloIsDecidedInOrder : Prop :=
  (∀ s ep m, (Pz.type m ≠ 1 ∨ pzHeard s ep = false) → exec (.hello ep m) s = .next s) ∧
  (∀ s ep m, Pz.type m = 1 → pzHeard s ep = true →
    ((Pz.whole m = false ∨ Pz.sess m ≠ 0xFF) →
      exec (.hello ep m) s = .next { s with link := { s.link with nDisc := incSat 8 s.link.nDisc } }) ∧
    (Pz.whole m = true → Pz.sess m = 0xFF → loadRuns s = true → exec (.hello ep m) s = .next s) ∧
    (Pz.whole m = true → Pz.sess m = 0xFF → loadRuns s = false →
      (∀ i x u, sessOf s ep = some i → s.getSess i = some x → x.seq = Pz.seq m → u = modSess i (fun y => { y with lastTk := s.tb.run }) s →
        exec (.hello ep m) s = .next (match x.kept with
          | some r => pzSend ep (pzDup r) u
          | none => modLink (fun l => { l with nBusy := incSat 8 l.nBusy }) u)) ∧
      (∀ u, (sessOf s ep = none ∧ u = s ∨
          ∃ i x, sessOf s ep = some i ∧ s.getSess i = some x ∧ x.seq ≠ Pz.seq m ∧ u = closeSession i false s) →
        exec (.hello ep m) s = .next (if pzHeadOk m = true ∧ helloForm (Pz.payload m) = true then helloRole ep m u
          else helloRefuse ep m Cause.pzBad u)))) ∧
  (∀ s ep m, Lengths s = true →
    (∀ i, (byteAt (Pz.payload m) 0 ≠ 2 ∨ controllerOf s = none) → freeSess s = some i →
      ∃ t, helloRole ep m s = t ∧
        (∃ x, t.getSess i = some x ∧ x.role = roleOf (byteAt (Pz.payload m) 0) ∧ x.ip = ep.ip ∧ x.udp = ep.udp ∧ x.port = ep.port ∧
          x.hbMs = leAt (Pz.payload m) 2 2 ∧ x.hostId = leAt (Pz.payload m) 4 8 ∧ x.telPort = leAt (Pz.payload m) 12 2 ∧
          x.seq = Pz.seq m ∧ x.lastTk = s.tb.run ∧ x.subs = 0 ∧ x.unlockTk = none ∧ x.regions = 0 ∧ x.kept.isSome = true) ∧
        (∀ j, j ≠ i → t.getSess j = s.getSess j) ∧ (t.getRing (52 + i)).owner = some i ∧ t.shad (sessPath i) = {} ∧
        Within [.link, .ring, .shadow, .out] s t) ∧
    ((byteAt (Pz.payload m) 0 ≠ 2 ∨ controllerOf s = none) → freeSess s = none →
      helloRole ep m s = helloRefuse ep m Cause.pzNoSession s) ∧
    (∀ j y, byteAt (Pz.payload m) 0 = 2 → controllerOf s = some j → s.getSess j = some y →
      (byteAt (Pz.payload m) 1 ≠ 1 ∨ y.hostId ≠ leAt (Pz.payload m) 4 8) → helloRole ep m s = helloRefuse ep m Cause.pzWriterBusy s) ∧
    (∀ j y, byteAt (Pz.payload m) 0 = 2 → controllerOf s = some j → s.getSess j = some y → byteAt (Pz.payload m) 1 = 1 →
      y.hostId = leAt (Pz.payload m) 4 8 → helloRole ep m s = helloOpen ep m (closeSession j false s))) ∧
  (∀ s ep m c, ∃ u, helloRefuse ep m c s = pzSend ep (pzMsg s 1 0xFF 3 (Pz.seq m) (pzRefusal c 0)) u ∧
    (∃ e ∈ u.fab.events, e.cause = c ∧ e.src = 160) ∧ Within [.fab] s u)

/-- R283, R285, R477 (derived): what BYE, the loss of a session and the lapses of its unlock and its nonce do, every form. -/
def Obligations.SessionsEnd : Prop :=
  (∀ s ep m i x, NextRequest s ep m i x → loadRuns s = false → Pz.type m = 2 → pzHeadOk m = true → Pz.payload m = [] → i < 4 →
      Lengths s = true →
    exec (.bye ep m) s = .next (closeSession i false (answered ep m i (.ok [] (takenBy m i s))))) ∧
  (∀ s ep m i x, NextRequest s ep m i x → loadRuns s = false → Pz.type m = 2 → (pzHeadOk m = false ∨ Pz.payload m ≠ []) →
    exec (.bye ep m) s = .next (answered ep m i (.refuse Cause.pzBad none (takenBy m i s)))) ∧
  (∀ s ep m, (Pz.type m ≠ 2 ∨ pzHeard s ep = false) → exec (.bye ep m) s = .next s) ∧
  (∀ s ep m, Pz.type m = 2 → pzHeard s ep = true → (sessOf s ep = none ∨ ∃ i x, sessOf s ep = some i ∧ s.getSess i = some x ∧
      (Pz.whole m = false ∨ Pz.sess m ≠ i)) →
    exec (.bye ep m) s = .next { s with link := { s.link with nDisc := incSat 8 s.link.nDisc } }) ∧
  (∀ s ep m i x u, FromSession s ep m i x → Pz.type m = 2 → i < 4 → Lengths s = true → u = modSess i (fun y => { y with lastTk := s.tb.run }) s →
    (loadRuns s = true → exec (.bye ep m) s = .next u) ∧
    (loadRuns s = false → x.busy = none → Pz.seq m = x.seq →
      exec (.bye ep m) s = .next (match x.kept with | some r => pzSend ep (pzDup r) u | none => u)) ∧
    (loadRuns s = false → x.busy ≠ none → exec (.bye ep m) s = .next (modLink (fun l => { l with nBusy := incSat 8 l.nBusy }) u)) ∧
    (∀ want, want = (x.seq + 1) % 2 ^ 32 → loadRuns s = false → x.busy = none → Pz.seq m ≠ x.seq → Pz.seq m ≠ want →
      exec (.bye ep m) s = .next (pzSend ep (pzMsg s 2 i 3 (Pz.seq m) (pzRefusal Cause.pzSeq want))
        (pzRaise (some i) Cause.pzSeq (some want) (modLink (fun l => { l with nSeq := incSat 8 l.nSeq }) u))))) ∧
  (∀ s (i : Fin 4) x, s.mode.up = true → s.getSess i = some x → floorTk (3 * x.hbMs) ≤ since s x.lastTk →
    exec (.pzSessionLost i) s = .next (closeSession i true s)) ∧
  (∀ s (i : Fin 4), (s.mode.up = false ∨ ∀ x, s.getSess i = some x → since s x.lastTk < floorTk (3 * x.hbMs)) →
    exec (.pzSessionLost i) s = .next s) ∧
  (∀ s (i : Fin 4) x lost, Lengths s = true → s.getSess i = some x →
    ∃ t, closeSession i lost s = t ∧ t.getSess i = none ∧
      (∀ r, r < 64 → (t.getRing r).owner ≠ some i.val ∧ (t.getRing r).stream ≠ some i.val) ∧
      (∀ r, r < 64 → r ≠ 52 + i.val → (t.getRing r).recs = (s.getRing r).recs ∧ (t.getRing r).next = (s.getRing r).next) ∧
      (t.getRing (52 + i.val)).recs = [] ∧
      (lost = true → ∃ e ∈ t.fab.events, e.cause = Cause.pzSessionLost) ∧
      (lost = true → x.role = .controller → s.mode = .run → t.link.lossAct = some (cfgF s 0x007000 5 2)) ∧
      (x.role = .controller → s.mode = .service → t.mode = s.acc.svcFrom.getD .run) ∧
      (x.role ≠ .controller → t.mode = s.mode ∧ t.link.lossAct = s.link.lossAct) ∧ t.tb.tc = s.tb.tc ∧ t.sump.told = s.sump.told) ∧
  (∀ s (i : Fin 4) x tk, s.getSess i = some x → x.unlockTk = some tk → s.mode ≠ .service → s.acc.entering ≠ some i.val →
      secTk (cfgF s 0x00C000 0 12) ≤ since s tk →
    exec (.unlockLapse i) s = .next (modSess i (fun y => { y with unlockTk := none, byHmac := false }) s)) ∧
  (∀ s (i : Fin 4), (s.mode = .service ∨ s.acc.entering = some i.val ∨
      ∀ x tk, s.getSess i = some x → x.unlockTk = some tk → since s tk < secTk (cfgF s 0x00C000 0 12)) → exec (.unlockLapse i) s = .next s) ∧
  (∀ s (i : Fin 4) x n tk, s.getSess i = some x → x.nonce = some (n, tk) →
    exec (.nonceLapse i) s = .next (if secTk 30 ≤ since s tk then modSess i (fun y => { y with nonce := none }) s else s)) ∧
  (∀ s (i : Fin 4), (∀ x, s.getSess i = some x → x.nonce = none) → exec (.nonceLapse i) s = .next s)

/-- R286 to R288 (derived): what each told fact and each EXT_SETPOINT entry does. -/
def Obligations.ToldFactsTakeEffect : Prop :=
  (∀ i e r, slotRefused r.st (byteAt e 0) = some Cause.chAbsent →
    ∀ f ∈ [tempEntry, cellEntry, extEntry], (f i e r).ref = r.ref + 1 ∧ (f i e r).ok = r.ok ∧
      (r.cause = 0 → (f i e r).cause = Cause.chAbsent) ∧ Within [.fab] r.st (f i e r).st) ∧
  (∀ i e r k age, slotRefused r.st k = none → k = byteAt e 0 → age = ageU r.st (bitN (byteAt e 1) 0) (leAt e 4 4) (leAt e 8 4) →
    (-4000 ≤ leAtS e 2 2 → leAtS e 2 2 ≤ 15000 → ageRefused r.st age ((r.st.getTold k).t.map (·.2)) = none →
      tempEntry i e r = { r with ok := r.ok + 1, st := takeTold k (leAtS e 2 2) (takeTk r.st age) r.st }) ∧
    ((leAtS e 2 2 < -4000 ∨ 15000 < leAtS e 2 2) →
      (tempEntry i e r).ref = r.ref + 1 ∧ (r.cause = 0 → (tempEntry i e r).cause = Cause.thmTRange) ∧ Within [.fab] r.st (tempEntry i e r).st)) ∧
  (∀ i e r, slotRefused r.st (byteAt e 0) = none → cellEntry i e r = { r with ok := r.ok + 1, st := tellCell (byteAt e 0) (leAt e 4 8) r.st }) ∧
  (∀ i b s age, age = ageU s (bitN (byteAt b 4) 0) (leAt b 8 4) (leAt b 12 4) → ageRefused s age (s.sump.told.map (·.2)) = none →
    budgetAns i b s = .ok (leBytes 2 1 ++ leBytes 2 0 ++ leBytes 2 0 ++ [0, 0] ++ leBytes 16 0)
      { s with sump := { s.sump with told := some (leAt b 0 4, takeTk s age), stale := false } }) ∧
  (∀ s on, (tellInhibit on s).sump.inhTold = on ∧ (on = true → (tellInhibit on s).sump.inh = true)) ∧
  (∀ s k, k < 128 → ((tellFixture k true s).getCh k).told = some true ∧ ((tellFixture k false s).getCh k).told = some false ∧
    ((s.getCh k).st.active = true → ((tellFixture k false s).getCh k).lostNext = true) ∧
    ((s.getCh k).st.active = false → ((tellFixture k false s).getCh k).lostNext = (s.getCh k).lostNext) ∧
    (∀ on j, j ≠ k → (tellFixture k on s).getCh j = s.getCh j)) ∧
  (∀ s frac lo, ageU s true frac lo = (cfgF s 0x00701C 0 14 : Int) * 2 ^ 32 / 1000 ∧
    (s.tb.trace = false → ageU s false frac lo = ageU s true frac lo) ∧
    (s.tb.trace = true → lo = s.tb.sec % 2 ^ 32 → ageU s false frac lo = (s.tb.frac : Int) - frac)) ∧
  (∀ s age, (age * 1000 < -(2 ^ 32) → ∀ now, ageRefused s age now = some Cause.pzToldFuture) ∧
    (-(2 ^ 32) ≤ age * 1000 → ageRefused s age none = none ∧
      ∀ t, ageRefused s age (some t) = if takeTk s age ≤ t then some Cause.pzToldOld else none)) ∧
  (∀ i e r k, k = byteAt e 0 → slotRefused r.st k = none →
    (((r.st.getCh k).rcp.isOpen = false ∨ Stp.type (openStep r.st k) ≠ StepT.ext ∨
        spLegal r.st k (SpMode.ofCode (byteAt e 1)) (leAt e 4 4) (leAt e 12 4) (leAt e 16 4) = false) →
      (extEntry i e r).ref = r.ref + 1 ∧ (r.cause = 0 → (extEntry i e r).cause = Cause.chCmdRefused) ∧ (extEntry i e r).st.ch = r.st.ch) ∧
    ((r.st.getCh k).rcp.isOpen = true → Stp.type (openStep r.st k) = StepT.ext →
        spLegal r.st k (SpMode.ofCode (byteAt e 1)) (leAt e 4 4) (leAt e 12 4) (leAt e 16 4) = true →
      (extEntry i e r).ok = r.ok + 1 ∧ ((extEntry i e r).st.getCh k).cmds = (r.st.getCh k).cmds ++
        [(.host, mkSp r.st k (SpMode.ofCode (byteAt e 1)) (byteAt e 2 == 1) (leAt e 4 4) (leAt e 8 4) (leAt e 12 4) (leAt e 16 4) (leAt e 20 4),
          r.st.tb.run)] ∧ ∀ j, j ≠ k → (extEntry i e r).st.getCh j = r.st.getCh j))

/-- R290 to R295 (derived): subscription, acknowledgement, replay, push and consumption of the rings, what they send, and the end of a ring,
every form. The answer to a replay of records that are gone, and to a malformed RING_ACK, are log entry 84's choices. -/
def Obligations.RingsMoveTheirRecords : Prop :=
  (∀ s ep m, (Pz.type m ≠ 0x42 ∨ pzHeard s ep = false) → exec (.ringAck ep m) s = .next s) ∧
  (∀ s ep m, Pz.type m = 0x42 → pzHeard s ep = true → (sessOf s ep = none ∨ ∃ i x, sessOf s ep = some i ∧ s.getSess i = some x ∧
      (Pz.whole m = false ∨ Pz.sess m ≠ i)) →
    exec (.ringAck ep m) s = .next { s with link := { s.link with nDisc := incSat 8 s.link.nDisc } }) ∧
  (∀ s ep m i x b g u, FromSession s ep m i x → Pz.type m = 0x42 → Pz.payload m = b → s.getRing (byteAt b 0) = g →
      u = modSess i (fun y => { y with lastTk := s.tb.run }) s →
    ((pzHeadOk m = false ∨ ackForm b = false) →
      exec (.ringAck ep m) s = .next (pzSend ep (pzMsg u 0x42 i 3 (Pz.seq m) (pzRefusal Cause.pzBad 0)) (pzRaise (some i) Cause.pzBad none u))) ∧
    (pzHeadOk m = true → ackForm b = true → byteAt b 0 < 64 → ringKind (byteAt b 0) = 1 → g.owner = some i →
        rsnGap g.acked (leAt b 4 4) ≤ rsnGap g.acked g.next →
      ∃ t, exec (.ringAck ep m) s = .next t ∧ (t.getRing (byteAt b 0)).acked = leAt b 4 4 ∧ (t.getRing (byteAt b 0)).next = g.next ∧
        (∀ y ∈ g.recs, rsnGap g.acked (leAt b 4 4) ≤ rsnGap g.acked y.rsn → y ∈ (t.getRing (byteAt b 0)).recs) ∧
        (∀ r, r ≠ byteAt b 0 → t.getRing r = s.getRing r) ∧ Within [.ring, .link] s t) ∧
    (pzHeadOk m = true → ackForm b = true → (64 ≤ byteAt b 0 ∨ ringKind (byteAt b 0) ≠ 1 ∨ g.owner ≠ some i ∨
        rsnGap g.acked g.next < rsnGap g.acked (leAt b 4 4)) →
      exec (.ringAck ep m) s = .next (modLink (fun l => { l with nAck := incSat 8 l.nAck }) u))) ∧
  (∀ i r stream own x s, ringKind r = 2 → subscribe i r stream own x s = none) ∧
  (∀ i r own x s, ringKind r = 0 → ((linkTel s ≠ 0 ∨ (s.getRing r).stream.isSome = true ∨ x.telPort = 0) →
      subscribe i r true own x s = none) ∧
    (linkTel s = 0 → (s.getRing r).stream = none → x.telPort ≠ 0 → r < 64 →
      ∃ t, subscribe i r true own x s = some t ∧ (t.getRing r).stream = some i ∧ (t.getRing r).sendNext = (s.getRing r).next)) ∧
  (∀ i r stream x s, ringKind r = 1 → r < 64 → (s.getRing r).owner = none → (r < 52 ∨ 56 ≤ r ∨ r = 52 + i) →
    ∃ t, subscribe i r stream true x s = some t ∧ (t.getRing r).owner = some i) ∧
  (∀ i r stream x s, ringKind r = 1 → (s.getRing r).owner ≠ some i → (s.getRing r).owner ≠ none → subscribe i r stream true x s = none) ∧
  (∀ i x b s, (64 ≤ byteAt b 0 ∨ ringKind (byteAt b 0) ≠ 0) → replayAns i x b s = .refuse Cause.pzRingBad none s) ∧
  (∀ i x b s g, byteAt b 0 < 64 → ringKind (byteAt b 0) = 0 → s.getRing (byteAt b 0) = g → rsnBefore (leAt b 4 4) (ringOldest g) = false →
      rsnGap (ringOldest g) (leAt b 4 4) ≤ rsnGap (ringOldest g) g.next → x.telPort ≠ 0 →
    ∃ n, n = Nat.min (leAt b 8 4) (rsnGap (leAt b 4 4) g.next) ∧
      replayAns i x b s = .ok (leBytes 4 (ringOldest g) ++ leBytes 4 g.next ++ leBytes 4 n)
        (modSess i (fun y => { y with replay := if n = 0 then none else some (byteAt b 0, leAt b 4 4, n) }) s)) ∧
  (∀ i b s, (byteAt b 0 ≠ 60 + i ∨ (s.getRing (byteAt b 0)).en = false) → pushAns i b s = .refuse Cause.pzRingBad none s) ∧
  (∀ i b s, byteAt b 0 = 60 + i → (s.getRing (60 + i)).en = true → rsnBefore (s.getRing (60 + i)).next (leAt b 4 4) = true →
    pushAns i b s = .refuse Cause.pzPushGap (some (s.getRing (60 + i)).next) s) ∧
  (∀ i b s t, byteAt b 0 = 60 + i → (s.getRing (60 + i)).en = true → rsnBefore (s.getRing (60 + i)).next (leAt b 4 4) = false →
      t = forEach (upto (byteAt b 1)) (fun j u => pushOne (60 + i) ((leAt b 4 4 + j) % 2 ^ 32) (slice b (8 + 64 * j) 64) u) s →
    pushAns i b s = .ok (leBytes 4 (t.getRing (60 + i)).next ++
      leBytes 4 ((ringSize t (60 + i) - ringUsed (t.getRing (60 + i))) / 64)) t) ∧
  (∀ r n b s, ((s.getRing r).next ≠ n ∨ ringSize s r < ringUsed (s.getRing r) + 64) → pushOne r n b s = s) ∧
  (∀ r b s, 60 ≤ r → r < 64 → b.length = 64 → (s.getRing r).en = true → ringUsed (s.getRing r) + 64 ≤ ringSize s r →
    ∃ t, pushOne r (s.getRing r).next b s = t ∧ (t.getRing r).next = ((s.getRing r).next + 1) % 2 ^ 32 ∧
      (t.getRing r).recs.map (·.bytes) = (s.getRing r).recs.map (·.bytes) ++ [b] ∧ ∀ q, q ≠ r → t.getRing q = s.getRing q) ∧
  (∀ (i : Fin 4) s, (s.mode.up = false ∨ (s.getRing (60 + i.val)).recs = []) → exec (.inputRingConsume i) s = .next s) ∧
  (∀ (i : Fin 4) s x rest, s.mode.up = true → (s.getRing (60 + i.val)).recs = x :: rest →
    ∃ u, (u.getRing (60 + i.val)).recs = rest ∧ (u.getRing (60 + i.val)).acked = (x.rsn + 1) % 2 ^ 32 ∧ Within [.ring] s u ∧
      exec (.inputRingConsume i) s = .next (if 1 ≤ Tc.kind x.bytes ∧ Tc.kind x.bytes ≤ 6 then
          { u with tb := { u.tb with tcIn := u.tb.tcIn ++ [(i.val, x.rsn, x.bytes)] } }
        else tcJudge i x.rsn x.bytes u)) ∧
  (∀ (r : Fin 64) s, (linkRuns s = false ∨ s.link.ipNow = 0 ∨ ringKind r = 2) → exec (.ringDataSend r) s = .next s) ∧
  (∀ (r : Fin 64) s, linkRuns s = true → s.link.ipNow ≠ 0 →
    (ringKind r = 0 → exec (.ringDataSend r) s = .next (forEach (upto 4) (sendReplay r) (sendStream r s))) ∧
    (ringKind r = 1 → exec (.ringDataSend r) s = .next (sendReliable r s))) ∧
  (∀ (r : Fin 64) s, ((s.getRing r).owner = none ∨ linkRuns s = false ∨ ringKind r ≠ 1 ∨ (s.getRing r).sendNext = (s.getRing r).acked ∨
      since s (s.getRing r).ackTk < msTk (s.getRing r).rto) → exec (.ringRetransmit r) s = .next s) ∧
  (∀ (r : Fin 64) s i, linkRuns s = true → ringKind r = 1 → (s.getRing r).owner = some i → (s.getRing r).sendNext ≠ (s.getRing r).acked →
      msTk (s.getRing r).rto ≤ since s (s.getRing r).ackTk →
    ∃ t, exec (.ringRetransmit r) s = .next t ∧ (t.getRing r).rto = Nat.min (2 * (s.getRing r).rto) 1000 ∧
      (t.getRing r).ackTk = s.tb.run ∧ (t.getRing r).acked = (s.getRing r).acked ∧ (t.getRing r).recs = (s.getRing r).recs ∧
      (∀ q, q ≠ r.val → t.getRing q = s.getRing q) ∧ Within [.ring, .link, .out] s t) ∧
  (∀ p (r : Fin 64) s, s.mode.up = false → exec (.ringDisable p r) s = .next s) ∧
  (∀ p (r : Fin 64) s, s.mode.up = true → loaderBusy s = true →
    exec (.ringDisable p r) s = .next (raiseReg Cause.ldrBusy (0x008004 + 0x40 * r.val) s)) ∧
  (∀ p (r : Fin 64) s, s.mode.up = true → loaderBusy s = false →
    ∃ t, exec (.ringDisable p r) s = .next t ∧ (t.getRing r).en = false ∧ (t.getRing r).recs = (s.getRing r).recs ∧
      ((s.getRing r).en = true → (t.getRing r).busy = recordOpen s r) ∧ t.link.wcr = linkWcr t ∧
      (∀ q, q ≠ r.val → t.getRing q = s.getRing q))

/-- R282, R283, R476 (derived): CHALLENGE, UNLOCK_HMAC, UNLOCK_PWD, ENTER, EXIT, REGION_UNLOCK, REGION_LOCK, REGION_PWD and TAP: every ACCESS
operation is carried out once for a session that may send it, every form. -/
def Obligations.AccessOperationsAreCarriedOut : Prop :=
  ∀ q ∈ accessTable, ∀ s ep m b good, Pz.payload m = b →
    good = (pzHeadOk m && (b.length == 4 + q.2.2.1 && allZero (slice b 1 3) && q.2.2.2.1 (b.drop 4))) →
    ((Pz.type m ≠ 0x60 ∨ byteAt b 0 ≠ q.1 ∨ pzHeard s ep = false) → exec (q.2.1 ep m) s = .next s) ∧
    (Pz.type m = 0x60 → byteAt b 0 = q.1 → pzHeard s ep = true → (sessOf s ep = none ∨ ∃ i x, sessOf s ep = some i ∧ s.getSess i = some x ∧
        (Pz.whole m = false ∨ Pz.sess m ≠ i)) →
      exec (q.2.1 ep m) s = .next { s with link := { s.link with nDisc := incSat 8 s.link.nDisc } }) ∧
    (∀ i x u, FromSession s ep m i x → Pz.type m = 0x60 → byteAt b 0 = q.1 → u = modSess i (fun y => { y with lastTk := s.tb.run }) s →
      (loadRuns s = true → exec (q.2.1 ep m) s = .next u) ∧
      (loadRuns s = false → x.busy ≠ none → exec (q.2.1 ep m) s = .next (modLink (fun l => { l with nBusy := incSat 8 l.nBusy }) u)) ∧
      (loadRuns s = false → x.busy = none → Pz.seq m = x.seq →
        exec (q.2.1 ep m) s = .next (match x.kept with | some r => pzSend ep (pzDup r) u | none => u)) ∧
      (∀ want, want = (x.seq + 1) % 2 ^ 32 → loadRuns s = false → x.busy = none → Pz.seq m ≠ x.seq → Pz.seq m ≠ want →
        exec (q.2.1 ep m) s = .next (pzSend ep (pzMsg s 0x60 i 3 (Pz.seq m) (pzRefusal Cause.pzSeq want))
          (pzRaise (some i) Cause.pzSeq (some want) (modLink (fun l => { l with nSeq := incSat 8 l.nSeq }) u)))) ∧
      (NextRequest s ep m i x → loadRuns s = false → good = false →
        exec (q.2.1 ep m) s = .next (answered ep m i (.refuse Cause.pzBad none (takenBy m i s)))) ∧
      (NextRequest s ep m i x → loadRuns s = false → good = true →
        (x.role.code < q.2.2.2.2.1.code ∨ (q.2.2.2.2.2.1 = true ∧ s.mode ≠ .service)) →
        exec (q.2.1 ep m) s = .next (answered ep m i (.refuse Cause.pzNotPermitted none (takenBy m i s)))) ∧
      (NextRequest s ep m i x → loadRuns s = false → good = true → q.2.2.2.2.1.code ≤ x.role.code →
        (q.2.2.2.2.2.1 = true → s.mode = .service) →
        exec (q.2.1 ep m) s = .next (answered ep m i (accAns (q.2.2.2.2.2.2 i (b.drop 4) (takenBy m i s)))))) ∧
    (∀ a : AccAns, accAns a = if a.cause = 0 then .ok (leBytes 2 a.cause ++ [0, 0] ++ leBytes 4 (backoffS a.st) ++ a.data) a.st
      else .failed (leBytes 2 a.cause ++ [0, 0] ++ leBytes 4 (backoffS a.st) ++ a.data) a.st)

/-- R473, R475 to R480 (derived): challenges, unlocks, failures and their back-off, entry to SERVICE and exit from it, the tap and the user
regions. That a session attempt during the back-off keeps its nonce is log entry 87's choice; the nonce's bytes are free values (log
entry 2). -/
def Obligations.ServiceAccessIsGuarded : Prop :=
  (∀ i s x, s.getSess i = some x → i < 4 → Lengths s = true →
    (accChallenge i s).cause = 0 ∧ (accChallenge i s).data.length = 28 ∧ slice (accChallenge i s).data 16 8 = leBytes 8 (unitId s) ∧
      byteAt (accChallenge i s).data 24 = svcAuth s % 256 ∧
      (accChallenge i s).st.getSess i = some { x with nonce := some ((accChallenge i s).data.take 16, s.tb.run) }) ∧
  (∀ i d s, (methodOk s 1 20 = false → accUnlockHmac i d s = accRefuse Cause.accRefused s) ∧
    (methodOk s 1 20 = true → 0 < backoffTk s → accUnlockHmac i d s = { cause := Cause.accWait, st := s }) ∧
    (methodOk s 0 29 = false → accUnlockPwd i d s = accRefuse Cause.accRefused s) ∧
    (methodOk s 0 29 = true → 0 < backoffTk s → accUnlockPwd i d s = { cause := Cause.accWait, st := s }) ∧
    (methodOk s 0 29 = true → backoffTk s = 0 → sha256 (leBytes 8 (unitId s) ++ d) = fuseBytes s 29 8 →
      accUnlockPwd i d s = { cause := 0, st := unlockSess i false s }) ∧
    (methodOk s 0 29 = true → backoffTk s = 0 → sha256 (leBytes 8 (unitId s) ++ d) ≠ fuseBytes s 29 8 →
      accUnlockPwd i d s = { cause := Cause.accAuthFail, st := authFail s })) ∧
  (∀ c s, (accRefuse c s).cause = c ∧ (∃ e ∈ (accRefuse c s).st.fab.events, e.cause = c) ∧ Within [.fab] s (accRefuse c s).st) ∧
  (∀ i h s x, s.getSess i = some x → i < 4 → Lengths s = true →
    (unlockSess i h s).getSess i = some { x with unlockTk := some s.tb.run, byHmac := h } ∧ (unlockSess i h s).acc.waiting = false ∧
      ∃ e ∈ (unlockSess i h s).fab.events, e.cause = Cause.accUnlocked) ∧
  (∀ s, s.nvm.refused = false → failCount (authFail s) = satN (failCount s + 1) 255) ∧
  (∀ s, (authFail s).acc.waiting = true ∧ (authFail s).acc.failTk = s.tb.run ∧ ∃ e ∈ (authFail s).fab.events, e.cause = Cause.accAuthFail) ∧
  (∀ s n, s.acc.waiting = true → s.nvm.refused = false → s.acc.fails = some (n + 1) → s.tb.run = s.acc.failTk →
    backoffS s = Nat.min (2 ^ n) 1024) ∧
  (∀ s, s.acc.waiting = false → backoffTk s = 0) ∧
  (∀ i d s x n tk, methodOk s 1 20 = true → backoffTk s = 0 → s.getSess i = some x → x.nonce = some (n, tk) → i < 4 →
    (accUnlockHmac i d s).st.getSess i ≠ none ∧ ((accUnlockHmac i d s).st.getSess i).all (fun y => y.nonce == none) = true ∧
      ((accUnlockHmac i d s).cause = 0 ↔
        since s tk < secTk 30 ∧ d = hmacSha256 (fuseBytes s 20 8) (n ++ leBytes 8 (unitId s) ++ leBytes 8 x.hostId ++ [0x02]))) ∧
  (∀ i s, (svcAuth s ≠ 0 ∧ unlocked s i = false ∨ s.seq.st ≠ .on ∨ s.seq.wait ≠ none ∨ (s.mode ≠ .run ∧ s.mode ≠ .load) ∨
      (s.mode = .run ∧ s.tb.drain ≠ none) ∨ (s.mode = .load ∧ loadIdle s = false)) → accEnter i s = accRefuse Cause.accRefused s) ∧
  (∀ i s, (svcAuth s = 0 ∨ unlocked s i = true) → s.seq.st = .on → s.seq.wait = none → s.mode = .run → s.tb.drain = none →
    accEnter i s = { cause := 0, st := hostDrain .service { s with acc := { s.acc with entering := some i } } }) ∧
  (∀ i s, (svcAuth s = 0 ∨ unlocked s i = true) → s.seq.st = .on → s.seq.wait = none → s.mode = .load → loadIdle s = true →
    accEnter i s = { cause := 0, st := enterService s } ∧ (enterService s).mode = .service ∧ (enterService s).acc.svcFrom = some .load ∧
      (enterService s).acc.stageOp = false ∧ ∃ e ∈ (enterService s).fab.events, e.cause = Cause.accServiceEnter) ∧
  (∀ s, s.mode = .service → accExit s = { cause := 0, st := exitService s } ∧ (exitService s).mode = s.acc.svcFrom.getD .run ∧
    (exitService s).acc.tapOpen = false ∧ (exitService s).acc.svcFrom = none ∧
    (∀ x ∈ (exitService s).link.sess, ∀ y, x = some y → y.unlockTk = none) ∧ ∃ e ∈ (exitService s).fab.events, e.cause = Cause.accServiceExit) ∧
  (∀ i s x, s.getSess i = some x → (x.byHmac = false ∨ unlocked s i = false) → accTap i true s = accRefuse Cause.accRefused s) ∧
  (∀ i s x, s.getSess i = some x → x.byHmac = true → unlocked s i = true →
    (accTap i true s).cause = 0 ∧ (accTap i true s).st.acc.tapOpen = true ∧ ∃ e ∈ (accTap i true s).st.fab.events, e.cause = Cause.accTapOpen) ∧
  (∀ i s x, s.getSess i = some x → accTap i false s = { cause := 0, st := { s with acc := { s.acc with tapOpen := false } } }) ∧
  (∀ i u d s x, u < 8 → (regionOf s u).kind = 2 → backoffTk s = 0 → regionDigest s u d = (regionOf s u).pwd → s.getSess i = some x → i < 4 →
      Lengths s = true →
    ∃ t, accRegionUnlock i u d s = { cause := 0, st := t } ∧ t.acc.waiting = false ∧
      t.getSess i = some { x with regions := setBitN x.regions u true }) ∧
  (∀ i u d s, u < 8 → (regionOf s u).kind = 2 → backoffTk s = 0 → regionDigest s u d ≠ (regionOf s u).pwd →
    accRegionUnlock i u d s = { cause := Cause.accAuthFail, st := authFail s }) ∧
  (∀ i u d s, u < 8 → (regionOf s u).kind = 2 → 0 < backoffTk s → accRegionUnlock i u d s = { cause := Cause.accWait, st := s }) ∧
  (∀ i u d s, (8 ≤ u ∨ (regionOf s u).kind ≠ 2) → accRegionUnlock i u d s = accRefuse Cause.accRefused s ∧
    accRegionPwd u d s = accRefuse Cause.accRefused s) ∧
  (∀ u d s, u < 8 → (regionOf s u).kind = 2 → (accRegionPwd u d s).cause = 0 ∧ (accRegionPwd u d s).st = putRegion u 2 (regionOf s u).flags
    (regionOf s u).base (regionOf s u).pages (if allZero d = true then [] else regionDigest s u d) s) ∧
  (∀ i u s, (8 ≤ u → accRegionLock i u s = accRefuse Cause.accRefused s) ∧
    (u < 8 → accRegionLock i u s = { cause := 0, st := modSess i (fun x => { x with regions := setBitN x.regions u false }) s }))

/-- R451 (stated): the end of an interrupt. -/
def Obligations.EndOfInterruptPopsTheTop : Prop :=
  ∀ s p (t : Fin 8) v, s.mode.up = true → loaderBusy s = false →
    (∀ q rest, stackOf s t = (field v 0 10, q) :: rest → Lengths s = true →
      ∃ u, exec (.intcEoi p t v) s = .next u ∧ stackOf u t = rest ∧ (∀ j, j ≠ t.val → stackOf u j = stackOf s j) ∧
        u.fab = s.fab ∧ u.intc.nOrder = s.intc.nOrder) ∧
    (∀ i q rest, stackOf s t = (i, q) :: rest → i ≠ field v 0 10 →
      ∃ u, exec (.intcEoi p t v) s = .next u ∧ u.intc.stk = s.intc.stk ∧ u.intc.nOrder = incSat 16 s.intc.nOrder ∧
        (∃ e, u.fab.events = s.fab.events ++ [e] ∧ e.cause = Cause.intcOrderFault ∧ e.arg = leBytes 4 (field v 0 10 + i * 2 ^ 16))) ∧
    (stackOf s t = [] →
      ∃ u, exec (.intcEoi p t v) s = .next u ∧ u.intc.stk = s.intc.stk ∧ u.intc.nOrder = incSat 16 s.intc.nOrder ∧
        (∃ e, u.fab.events = s.fab.events ++ [e] ∧ e.cause = Cause.intcOrderFault)) ∧
    (StacksRise s → (stackOf s t).length ≤ 16)

/-- R427 (stated): how a token written to WDT_SERVE is judged, at the watchdog tick after the write, every form. -/
def Obligations.WatchdogServicesAreJudged : Prop :=
  (∀ s p (i : Fin 24) v, (s.mode.up = false ∨ loaderBusy s = false ∧ 16 ≤ i.val) → exec (.wdtServe p i v) s = .next s) ∧
  (∀ s p (i : Fin 24) v, s.mode.up = true → loaderBusy s = true →
    exec (.wdtServe p i v) s = .next (raiseReg Cause.ldrBusy (Addr.wdtCfg i + 4) s)) ∧
  (∀ s p (i : Fin 24) v, s.mode.up = true → loaderBusy s = false → i.val < 16 →
    exec (.wdtServe p i v) s = .next { s with wdt := { s.wdt with pend := s.wdt.pend ++ [(i.val, field v 0 16)] } }) ∧
  (∀ (s : State) i tok, wdtTick { s with wdt := { s.wdt with pend := [(i, tok)] } } = judgeServe i tok (wdtTick { s with wdt := { s.wdt with pend := [] } })) ∧
  (∀ s i tok, (wdtEn s i = false ∨ (s.slot i).count = wdtPeriod s i) → judgeServe i tok s = s) ∧
  (∀ s i tok t, i < 16 → Lengths s = true → wdtEn s i = true → (s.slot i).count ≠ wdtPeriod s i → judgeServe i tok s = t →
    (tok = (s.slot i).token → (s.slot i).used ≠ some tok → wdtOpenPoint s i ≤ (s.slot i).count →
      (t.slot i).count = 0 ∧ (t.slot i).token = rollToken (s.slot i).token ∧ (t.slot i).used = some tok ∧ t.fab = s.fab) ∧
    (tok = (s.slot i).token → (s.slot i).used ≠ some tok → (s.slot i).count < wdtOpenPoint s i →
      (t.slot i).nEarly = incSat 8 (s.slot i).nEarly ∧ (t.slot i).token = (s.slot i).token ∧
      (i < 12 → (t.slot i).count = (s.slot i).count ∧ t.fab = s.fab) ∧
      (12 ≤ i → t = wdtStrike i Cause.wdtEarly (modSlot i (fun x => { x with nEarly := incSat 8 x.nEarly }) s))) ∧
    ((s.slot i).used = some tok →
      (t.slot i).nDup = incSat 8 (s.slot i).nDup ∧ (t.slot i).token = (s.slot i).token ∧
      (i < 12 → (t.slot i).count = (s.slot i).count ∧ t.fab = s.fab) ∧
      (12 ≤ i → t = wdtStrike i Cause.wdtDup (modSlot i (fun x => { x with nDup := incSat 8 x.nDup }) s))) ∧
    (tok ≠ (s.slot i).token → (s.slot i).used ≠ some tok →
      (t.slot i).token = (s.slot i).token ∧
      t = wdtStrike i Cause.wdtBadToken (modSlot i (fun x => { x with nBad := incSat 8 x.nBad }) s)))

/-- R436 (stated): a told temperature out of range is refused whatever its age; an accepted one becomes the channel's told temperature. -/
def Obligations.ToldTemperaturesAreRangeCheckedFirst : Prop :=
  ∀ i e r, slotRefused r.st (byteAt e 0) = none →
    ((leAtS e 2 2 < -4000 ∨ 15000 < leAtS e 2 2) →
      (tempEntry i e r).ref = r.ref + 1 ∧ (tempEntry i e r).ok = r.ok ∧ (r.cause = 0 → (tempEntry i e r).cause = Cause.thmTRange) ∧
      (tempEntry i e r).st.thm = r.st.thm) ∧
    (-4000 ≤ leAtS e 2 2 → leAtS e 2 2 ≤ 15000 →
      (ageRefused r.st (ageU r.st (bitN (byteAt e 1) 0) (leAt e 4 4) (leAt e 8 4)) ((r.st.getTold (byteAt e 0)).t.map (·.2)) = none →
        (tempEntry i e r).ok = r.ok + 1 ∧ (tempEntry i e r).ref = r.ref ∧
        ((tempEntry i e r).st.getTold (byteAt e 0)).t =
          some (leAtS e 2 2, (r.st.tb.run : Int) - floorD (ageU r.st (bitN (byteAt e 1) 0) (leAt e 4 4) (leAt e 8 4)) (2 ^ 19))) ∧
      (∀ c, ageRefused r.st (ageU r.st (bitN (byteAt e 1) 0) (leAt e 4 4) (leAt e 8 4)) ((r.st.getTold (byteAt e 0)).t.map (·.2)) = some c →
        (tempEntry i e r).ref = r.ref + 1 ∧ (r.cause = 0 → (tempEntry i e r).cause = c) ∧ (tempEntry i e r).st.thm = r.st.thm))

/-- R193 (stated): the reported SoC of a published period, and the anchors that override it. -/
def Obligations.ReportedSocFollowsThePeriod : Prop :=
  ∀ (s : State) (k last : Nat) (m : List Byte) (x : EstIn) (e t : Estimator) (d : Dirn), estUpdate s k last m x e = t → t.dirn = d.code →
    (anchorOf m e last d x = .none →
      (d = .discharge → t.socRep = min e.socRep t.socFilt ∧ t.socRep ≤ e.socRep) ∧
      (d = .charge → t.socRep = max e.socRep t.socFilt ∧ e.socRep ≤ t.socRep) ∧
      (d = .rest → (t.socRep - e.socRep).natAbs ≤ 1 ∧ (t.socRep - t.socFilt).natAbs ≤ (e.socRep - t.socFilt).natAbs ∧
        (e.socRep ≠ t.socFilt → t.socRep ≠ e.socRep))) ∧
    (anchorOf m e last d x = .cutoff → t.socRep = 0 ∧ t.anchor = 1) ∧
    (anchorOf m e last d x = .full → t.socRep = 10000 ∧ t.anchor = 2) ∧
    (∀ v, anchorOf m e last d x = .ocv v → t.anchor = 3 ∧ t.ocvPt = v)

/-- R424, R425, R428, R430, R431, R498 (derived): expiry of a watchdog slot, its strike and its configuration; loss of the watchdog clock,
internal slots and the reset of a unit, every form. That a unit's number is its watchdog slot is log entry 16. -/
def Obligations.WatchdogsExpireAndUnitsReset : Prop :=
  (∀ s (i : Fin 24), exec (.wdtExpired i) s = .next (if i.val < 16 ∧ wdtEn s i = true ∧ wdtCounts s i = true ∧
      (s.slot i).count = wdtPeriod s i then
    wdtStrike i Cause.wdtExpired (modSlot i (fun x => { x with nExp := incSat 8 x.nExp }) s) else s)) ∧
  (∀ s i cause, i < 24 → wdtHostRst s i = false → Lengths s = true →
    ∃ t, wdtStrike i cause s = t ∧ (t.slot i).count = 0 ∧ bitN t.wdt.exp i = true ∧ (∃ e ∈ t.fab.events, e.cause = cause) ∧
      (s.mode = .run → t.wdt.act = max s.wdt.act (wdtChact s i % 3)) ∧ (s.mode ≠ .run → t.wdt.act = s.wdt.act) ∧
      (∀ j, j ≠ i → t.slot j = s.slot j) ∧ Within [.wdt, .fab] s t) ∧
  (∀ s p (i : Fin 24) v, s.mode.up = true → loaderBusy s = false → i.val < 16 → wdtLocked s i = true →
    exec (.wdtCfgWrite p i v) s = .next (raise .fabric Cause.wdtLocked 0xFF s)) ∧
  (∀ s p (i : Fin 24) v, regsWf 0 s.regs = true → s.mode.up = true → loaderBusy s = false → i.val < 16 → wdtLocked s i = false →
    ∃ t, exec (.wdtCfgWrite p i v) s = .next t ∧ cfgW t (Addr.wdtCfg i) = v &&& 0xC03FFFFF ∧
      (∀ a, a ≠ Addr.wdtCfg i → cfgW t a = cfgW s a) ∧ (v.toNat.testBit 30 = true → Lengths s = true →
        (t.slot i).count = 0 ∧ (wdtEn s i = false → (t.slot i).token = 0x5A00 + i.val ∧ (t.slot i).used = none)) ∧
      Within [.wdt, .regs] s t) ∧
  (∀ s p (i : Fin 24) v, (s.mode.up = false ∨ loaderBusy s = false ∧ 16 ≤ i.val) → exec (.wdtCfgWrite p i v) s = .next s) ∧
  (∀ s p (i : Fin 24) v, s.mode.up = true → loaderBusy s = true →
    exec (.wdtCfgWrite p i v) s = .next (raiseReg Cause.ldrBusy (Addr.wdtCfg i) s)) ∧
  (∀ s, s.wdt.clkLost = false → s.mode.up = true →
    ∃ t, exec .wdtClkLoss s = .next t ∧ t.wdt.clkLost = true ∧ t.wdt.clkNow = !s.wdt.clkNow ∧ (∃ e ∈ t.fab.events, e.cause = Cause.wdtClkLoss) ∧
      Within [.wdt, .fab] s t) ∧
  (∀ s, (s.wdt.clkLost = true ∨ s.mode.up = false) → exec .wdtClkLoss s = .next s) ∧
  (∀ s (i : Fin 24) tks u, 16 ≤ i.val → s.mode.up = true →
      tks = (s.tb.run :: (s.slot i).expTks.filter fun t => decide (since s t ≤ 60 * 8192)).take 3 →
      u = flushUnit i (raiseA .watchdog Cause.wdtIntExpired 0xFF i
        (modSlot i (fun x => { x with count := 0, expTks := if tks.length = 3 then [] else tks, nExp := incSat 8 x.nExp }) s)) →
    exec (.wdtIntExpired i) s = .next (if tks.length = 3 then orderly .reboot 2 { u with fab := { u.fab with resetting := insN i u.fab.resetting } }
      else { u with fab := { u.fab with resetting := insN i u.fab.resetting } })) ∧
  (∀ s (i : Fin 24), (i.val < 16 ∨ s.mode.up = false) → exec (.wdtIntExpired i) s = .next s) ∧
  (∀ s, (flushUnit 20 s).sump.stage = none ∧ (flushUnit 23 s).nvm.job = none ∧
    ∀ k, k < 128 → ((flushUnit 21 s).getCh k).eng = none) ∧
  (∀ s (i : Fin 8), s.mode.up = false → exec (.fabUnitReset i) s = .next s) ∧
  (∀ s (i : Fin 8), s.mode.up = true →
    ∃ t e, exec (.fabUnitReset i) s = .next t ∧ t.fab.nReset = incSat 8 s.fab.nReset ∧ t.fab.resetting = delN (16 + i.val) s.fab.resetting ∧
      e ∈ t.fab.events ∧ e.cause = Cause.fabUnitReset ∧ e.arg = leBytes 4 (16 + i.val) ∧ t.mode = s.mode)

/-- R432, R433, R435, R437 (derived): die sensor readings and stale told temperatures, every form. -/
def Obligations.ThermalReadingsAreJudged : Prop :=
  (∀ s (i : Fin 10) t e1 e2, s.mode.up = false → exec (.dieSensorReading i t e1 e2) s = .next s) ∧
  (∀ s (i : Fin 10) t e1 e2, s.mode.up = true → implausible (s.getDie i) t e1 e2 = true →
      ((s.getDie i).impl < 2 ∨ (s.getDie i).broken = true) →
    ∃ u, exec (.dieSensorReading i t e1 e2) s = .next u ∧ (u.getDie i).impl = satN ((s.getDie i).impl + 1) 3 ∧ (u.getDie i).t = (s.getDie i).t ∧
      (u.getDie i).broken = (s.getDie i).broken ∧ u.thm.nImpl = incSat 8 s.thm.nImpl ∧ Within [.thm] s u) ∧
  (∀ s (i : Fin 10) t e1 e2, s.mode.up = true → implausible (s.getDie i) t e1 e2 = true → 2 ≤ (s.getDie i).impl →
      (s.getDie i).broken = false →
    ∃ u, exec (.dieSensorReading i t e1 e2) s = .next u ∧ (u.getDie i).broken = true ∧ (∃ e ∈ u.fab.events, e.cause = Cause.thmBroken) ∧
      u.thm.nImpl = incSat 8 s.thm.nImpl) ∧
  (∀ s (i : Fin 10) t e1 e2, s.mode.up = true → implausible (s.getDie i) t e1 e2 = false →
    ∃ u, exec (.dieSensorReading i t e1 e2) s = .next u ∧ (u.getDie i).t = t ∧ (u.getDie i).ok = true ∧ (u.getDie i).impl = 0 ∧
      (u.getDie i).warn = dieFlag (s.getDie i).warn t (thmWarn s) ∧ (u.getDie i).derate = dieFlag (s.getDie i).derate t (thmDerate s) ∧
      (u.getDie i).shut = dieFlag (s.getDie i).shut t 13500 ∧ (u.getDie i).fast = decide (thmWarn s - 1000 ≤ t)) ∧
  (∀ was t lim, dieFlag was t lim = true ↔ lim ≤ t ∨ (was = true ∧ lim - 500 < t)) ∧
  (∀ s (k : Fin 128), (s.mode.up = false ∨ (s.getTold k).stale = true ∨ toldStale s k = false) → exec (.thmTStale k) s = .next s) ∧
  (∀ s (k : Fin 128), s.mode.up = true → (s.getTold k).stale = false → toldStale s k = true →
    ∃ t, exec (.thmTStale k) s = .next t ∧ (t.getTold k).stale = true ∧ (∀ j, j ≠ k.val → t.getTold j = s.getTold j) ∧
      t.thm.nStale = incSat 8 s.thm.nStale ∧ (∃ e ∈ t.fab.events, e.cause = Cause.thmTStale) ∧ Within [.thm, .fab] s t) ∧
  (∀ s k, (s.getTold k).t = none → toldStale s k = true) ∧
  (∀ s k t take, (s.getTold k).t = some (t, take) →
    (toldStale s k = true ↔ thmStaleMs s * 8192 < ((s.tb.run : Int) - take).toNat * 1000)) ∧
  (∀ s k t take, k < 128 → (s.getTold k).ref = none → ((s.tb.run : Int) - take).toNat * 1000 ≤ thmStaleMs s * 8192 →
    ((takeTold k t take s).getTold k).t = some (t, take) ∧ ((takeTold k t take s).getTold k).ref = some (t, take) ∧
      ((takeTold k t take s).getTold k).stale = false)

/-- R493, R494, R496, R497 (derived): slack, the core voltage code, and the account of overruns, every form. -/
def Obligations.CoreVoltageAndOverruns : Prop :=
  (∀ s rate vcore, s.mode.up = false → exec (.vcoreAdapt rate vcore) s = .next s) ∧
  (∀ s rate vcore, s.mode.up = true → adapts s = false →
    ∃ t, exec (.vcoreAdapt rate vcore) s = .next t ∧ t.fab.rate = rate % 2 ^ 32 ∧ t.fab.slack = minSlack s.fab.slacks ∧
      t.fab.vcore = satN vcore 1023 ∧ t.fab.code = s.fab.code ∧ t.fab.slacks = [] ∧ Within [.fab] s t) ∧
  (∀ s rate vcore drop, s.mode.up = true → adapts s = true → drop = decide (rate * 100 < s.fab.ratePrev * 97) →
    ∃ t, exec (.vcoreAdapt rate vcore) s = .next t ∧ t.fab.code ≤ 255 ∧ t.fab.ratePrev = rate ∧ t.fab.slack = minSlack s.fab.slacks ∧
      (drop = true → ∃ e ∈ t.fab.events, e.cause = Cause.fabRateDrop) ∧
      ((minSlack s.fab.slacks < 1500 ∨ drop = true) → vcore < 880 → t.fab.code = min (s.fab.code + 4) 255) ∧
      ((minSlack s.fab.slacks < 3000 ∨ drop = true) → 880 ≤ vcore → s.fab.code ≤ 255 →
        t.fab.code = s.fab.code ∧ ∃ e ∈ t.fab.events, e.cause = Cause.fabVcoreLimit) ∧
      (1500 ≤ minSlack s.fab.slacks → minSlack s.fab.slacks < 3000 → drop = false → vcore < 880 → t.fab.code = min (s.fab.code + 1) 255) ∧
      (3000 ≤ minSlack s.fab.slacks → (minSlack s.fab.slacks ≤ 4500 ∨ ∃ i < 10, (s.getDie i).fast = true) → drop = false → s.fab.code ≤ 255 →
        t.fab.code = s.fab.code ∧ t.fab.lowRun = 0) ∧
      (4500 < minSlack s.fab.slacks → (∀ i, i < 10 → (s.getDie i).fast = false) → drop = false → s.fab.code ≤ 255 →
        (s.fab.lowRun + 1 = 1024 → t.fab.code = (if vcore ≤ 620 then s.fab.code else s.fab.code - 1) ∧ t.fab.lowRun = 0) ∧
        (s.fab.lowRun + 1 ≠ 1024 → t.fab.code = s.fab.code ∧ t.fab.lowRun = s.fab.lowRun + 1)) ∧ Within [.fab] s t) ∧
  (∀ s units slack, units ≠ 0 →
    ∃ t, judgeTick units slack s = t ∧ t.fab.ovNow = s.fab.ovNow + 1 ∧ t.fab.ovUnits = units ∧ t.fab.nOvr = incSat 16 s.fab.nOvr ∧
      (s.fab.ovNow = 0 → ∃ e ∈ t.fab.events, e.cause = Cause.tickOverrun) ∧ Within [.fab] s t) ∧
  (∀ s slack, s.fab.ovNow ≠ 0 → ∃ t, judgeTick 0 slack s = t ∧ t.fab.ovNow = 0 ∧ (∃ e ∈ t.fab.events, e.cause = Cause.fabOverrunEnd) ∧
    Within [.fab] s t) ∧
  (∀ s slack, s.fab.ovNow = 0 → judgeTick 0 slack s = { s with fab := { s.fab with slacks := s.fab.slacks ++ [slack] } })

/-- R407 to R409 (derived): the calendar, its roll-over and its oscillator, the freezes that reads make and end, and the writes of its
counts and of RTC_CTRL in every form. -/
def Obligations.CalendarFreezesAndCounts : Prop :=
  (∀ c, c.sec < 59 → nextSecond c = { c with sub := 0, sec := c.sec + 1 }) ∧
  nextSecond { year := 2199, mon := 12, day := 31, hour := 23, min := 59, sec := 59, sub := 32767 } = {} ∧
  (∀ s, rtcHalt s = false → calLast s.rtc.cal = true →
    exec .calendarWrap s = .next { s with rtc := { s.rtc with cal := {}, valid := false } }) ∧
  (∀ s, (rtcHalt s = true ∨ calLast s.rtc.cal = false) → exec .calendarWrap s = .next s) ∧
  (∀ s, s.mode.up = true →
    ∃ t, exec .rtcOscFail s = .next t ∧ t = raise .backup Cause.rtcOscFail 0xFF { s with rtc := { s.rtc with oscFail := true, valid := false } }) ∧
  (∀ s, s.mode.up = false →
    exec .rtcOscFail s = .next { s with rtc := { s.rtc with oscFail := true, valid := false, oscEv := true } }) ∧
  (∀ s p, Lengths s = true → s.mode.up = true →
    ∃ t, exec (.rtcSubsecRead p) s = .next t ∧ t.out = s.out ++ [.readData p 0x003000 (wordN s.rtc.cal.sub)] ∧
      (t.shad p).cal = some (s.rtc.cal, 0) ∧ (∀ q, q ≠ p → t.shad q = s.shad q) ∧ Within [.shadow, .out] s t) ∧
  (∀ s p c n, (s.shad p).cal = some (c, n) → calSeen s p = if n < 32768 then c else s.rtc.cal) ∧
  (∀ s p, (s.shad p).cal = none → calSeen s p = s.rtc.cal) ∧
  (∀ s p, Lengths s = true → s.mode.up = true →
    ∃ t, exec (.rtcYearRead p) s = .next t ∧ t.out = s.out ++ [.readData p 0x003018 (wordN (calSeen s p).year)] ∧
      (t.shad p).cal = none ∧ (t.shad p).stale = ((s.shad p).stale || freezeOver (s.shad p)) ∧ (∀ q, q ≠ p → t.shad q = s.shad q) ∧
      Within [.shadow, .out] s t) ∧
  (∀ s p, s.mode.up = false → exec (.rtcSubsecRead p) s = .next s ∧ exec (.rtcYearRead p) s = .next s) ∧
  (∀ s p, Lengths s = true → freezeOver (s.shad p) = true →
    ∃ t, exec (.rtcFreezeTimeout p) s = .next t ∧ (t.shad p).cal = none ∧ (t.shad p).stale = true ∧
      (∀ q, q ≠ p → t.shad q = s.shad q) ∧ Within [.shadow] s t) ∧
  (∀ s p, freezeOver (s.shad p) = false → exec (.rtcFreezeTimeout p) s = .next s) ∧
  (∀ s p f v, s.mode.up = true → loaderBusy s = false → rtcHalt s = true → (calRange f).1 ≤ field v 0 (calBits f) →
      field v 0 (calBits f) ≤ (calRange f).2 →
    exec (.rtcCountWrite p f v) s = .next { s with rtc := { s.rtc with cal := setCal f (field v 0 (calBits f)) s.rtc.cal } }) ∧
  (∀ s p f v, s.mode.up = true → loaderBusy s = false →
      (rtcHalt s = false ∨ field v 0 (calBits f) < (calRange f).1 ∨ (calRange f).2 < field v 0 (calBits f)) →
    exec (.rtcCountWrite p f v) s = .next (raise .backup Cause.rtcWerr 0xFF { s with rtc := { s.rtc with werr := true } })) ∧
  (∀ s p v, s.mode.up = true → loaderBusy s = false → rtcHalt s = true → v.toNat.testBit 0 = false → dateExists s.rtc.cal = true →
    ∃ t, exec (.rtcCtrlWrite p v) s = .next t ∧ Within [.rtc, .regs] s t ∧ t.regs = (setCfg 0x003020 (v &&& 0x1F) s).regs ∧
      t.rtc = { s.rtc with cal := { s.rtc.cal with sub := 0 }, winSec := 0, held := false, trim := s.rtc.trimNext, valid := true }) ∧
  (∀ s p v, s.mode.up = true → loaderBusy s = false → rtcHalt s = true → v.toNat.testBit 0 = false → dateExists s.rtc.cal = false →
    ∃ t, exec (.rtcCtrlWrite p v) s = .next t ∧ t.rtc = { s.rtc with werr := true } ∧
      t.regs = (setCfg 0x003020 ((v &&& 0x1F) ||| 1) s).regs ∧ t.fab = (raise .backup Cause.rtcWerr 0xFF s).fab ∧
      Within [.rtc, .regs, .fab] s t) ∧
  (∀ s p v, s.mode.up = true → loaderBusy s = false → (rtcHalt s = false ∨ v.toNat.testBit 0 = true) →
    exec (.rtcCtrlWrite p v) s = .next (setCfg 0x003020 (v &&& 0x1F) s)) ∧
  (∀ s p f v, s.mode.up = true → loaderBusy s = true →
    exec (.rtcCountWrite p f v) s = .next (raiseReg Cause.ldrBusy (calAddr f) s) ∧
    exec (.rtcCtrlWrite p v) s = .next (raiseReg Cause.ldrBusy 0x003020 s)) ∧
  (∀ s p f v, s.mode.up = false → exec (.rtcCountWrite p f v) s = .next s ∧ exec (.rtcCtrlWrite p v) s = .next s)

/-- R403 to R406, R410, R413 to R418 (derived): trim window, alarm, periodic wake and what a wake does in each mode, backup RAM and the
domain's supply, each in every form. The contents of the backup RAM after a collapse are free values (log entry 2). -/
def Obligations.WakesBackupRamAndSupply : Prop :=
  (∀ s, rtcHalt s = false → 64 ≤ s.rtc.winSec →
    exec .rtcTrimWindow s = .next { s with rtc := { s.rtc with winSec := 0, trim := s.rtc.trimNext } }) ∧
  (∀ s, (rtcHalt s = true ∨ s.rtc.winSec < 64) → exec .rtcTrimWindow s = .next s) ∧
  (∀ s b, rtcAlmEn s = true → rtcHalt s = false → almMatches s = true →
    exec (.rtcAlarm b) s = .next (wake b (raise .backup Cause.rtcAlarm 0xFF { s with rtc := { s.rtc with alm := true } }))) ∧
  (∀ s b, (rtcAlmEn s = false ∨ rtcHalt s = true ∨ almMatches s = false) → exec (.rtcAlarm b) s = .next s) ∧
  (∀ s b, rtcPwakeEn s = true → 0 < rtcN s → s.rtc.pwCnt = 0 →
    exec (.rtcPwake b) s = .next (wake b (raise .backup Cause.rtcPwake 0xFF
      { s with rtc := { s.rtc with pwake := true, pwCnt := rtcN s, pwSub := 0 } }))) ∧
  (∀ s b, (rtcPwakeEn s = false ∨ rtcN s = 0 ∨ s.rtc.pwCnt ≠ 0) → exec (.rtcPwake b) s = .next s) ∧
  (∀ s b, s.mode ≠ .ship → s.mode ≠ .rest → s.mode ≠ .backup → wake b s = s) ∧
  (∀ s b, s.mode = .ship → wake b s = if s.seq.lockout then s else onRequest b s) ∧
  (∀ s b, s.mode = .rest → rtcRestAct s = true → wake b s = exitRest .run b s) ∧
  (∀ s b, s.mode = .rest → rtcRestAct s = false → wake b s = { s with rtc := { s.rtc with restWake := true } }) ∧
  (∀ s b, s.mode = .backup → wake b s = { s with rtc := { s.rtc with wakePend := true } }) ∧
  (∀ s p v, s.mode.up = true → loaderBusy s = false →
    ∃ t, exec (.rtcPwakeWrite p v) s = .next t ∧ t.rtc = { s.rtc with pwCnt := field v 0 24, pwSub := 0 } ∧
      t.regs = (setCfg 0x00303C (v &&& 0xFFFFFF) s).regs ∧ Within [.rtc, .regs] s t) ∧
  (∀ s p (i : Fin 16) v, s.mode.up = true → loaderBusy s = false → Lengths s = true →
    ∃ t, exec (.rtcBramWrite p i v) s = .next t ∧ (readBram i t).1 = v ∧
      (∀ j : Fin 16, j ≠ i → leAt t.rtc.bram (4 * j.val) 4 = leAt s.rtc.bram (4 * j.val) 4) ∧
      bramBad t.rtc (i.val / 2) = false ∧ bitN t.rtc.bstat (i.val / 2) = false ∧ Within [.rtc] s t) ∧
  (∀ s p (i : Fin 16) v, s.mode.up = true → loaderBusy s = true →
    exec (.rtcPwakeWrite p v) s = .next (raiseReg Cause.ldrBusy 0x00303C s) ∧
    exec (.rtcBramWrite p i v) s = .next (raiseReg Cause.ldrBusy (0x003080 + 4 * i.val) s)) ∧
  (∀ s p (i : Fin 16) v, s.mode.up = false →
    exec (.rtcPwakeWrite p v) s = .next s ∧ exec (.rtcBramWrite p i v) s = .next s) ∧
  (∀ s, s.seq.vinOk = true → s.rtc.vbakLow = false →
    exec (.vbakCheck true) s = .next (raise .backup Cause.rtcVbakLow 0xFF { s with rtc := { s.rtc with vbakLow := true } })) ∧
  (∀ s, s.seq.vinOk = true → s.rtc.vbakLow = true → exec (.vbakCheck true) s = .next s) ∧
  (∀ s, s.seq.vinOk = true → exec (.vbakCheck false) s = .next { s with rtc := { s.rtc with vbakLow := false } }) ∧
  (∀ s b, s.seq.vinOk = false → exec (.vbakCheck b) s = .next s) ∧
  (∀ s, ∃ t, exec .domainCollapse s = .next t ∧ t.rtc = { ({} : Rtc) with bram := (freeBytes 64 s).1, bcrc := (freeBytes 8 (freeBytes 64 s).2).1 } ∧
      (∀ a, inBackup a = true → ∀ v, (a, v) ∉ t.regs) ∧ (∀ x ∈ s.regs, inBackup x.1 = false → x ∈ t.regs) ∧
      t.mode = (if s.mode.up then s.mode else .backup) ∧
      (s.mode.up = false → t.seq = { ({} : Seq) with vinOk := s.seq.vinOk, vin := s.seq.vin }) ∧
      (s.mode.up = true → t.seq.nPfw = 0 ∧ t.seq.nVin = 0 ∧ t.seq.nBrown = 0 ∧ t.seq.nLong = 0 ∧ t.seq.st = s.seq.st ∧ t.seq.slot = s.seq.slot ∧
        ∀ r ∈ t.seq.rails, r.noRise = 0 ∧ r.stuck = 0 ∧ r.uv = 0 ∧ r.ov = 0) ∧
      Within [.rtc, .regs, .seq, .mode, .free] s t)

/-- R446 to R450, R455, R495 (derived): events become records and pending sources; the hold-off of a group; claims by the cores and from
outside; software sources. Which sources the cores' targets see is an opaque mask (log entry 2). -/
def Obligations.EventsBecomePendingAndAreClaimed : Prop :=
  (∀ s prod, ∃ t, exec (.eventCrossingConsume prod) s = .next t ∧
    t = (s.fab.events.filter fun e => e.prod == prod).foldl (fun u e => consumeEvent e u)
      { s with fab := { s.fab with events := s.fab.events.filter fun e => e.prod != prod } }) ∧
  (∀ e s, noRecord e = false → e.lost = false →
    consumeEvent e s = setPending e.src (ringPush (eventRing s e) (eRecord e) s)) ∧
  (∀ e s, noRecord e = true → e.lost = false → consumeEvent e s = setPending e.src s) ∧
  (∀ e s, e.lost = true → consumeEvent e s = raise .fabric Cause.fabEvtLost 0xFF (consumeEvent { e with lost := false } s)) ∧
  (∀ s i, srcReal i = true → srcEnabled s i = true → i ∉ s.intc.pend → s.intc.run.testBit (srcGroup s i) = false →
    i ∈ (setPending i s).intc.pend ∧ (setPending i s).intc.held = s.intc.held ∧ (setPending i s).intc.again = s.intc.again ∧
    ((setPending i s).intc.run.testBit (srcGroup s i) = decide (0 < holdoffUs s (srcGroup s i))) ∧ Within [.intc] s (setPending i s)) ∧
  (∀ s i, srcReal i = true → srcEnabled s i = true → i ∉ s.intc.pend → s.intc.run.testBit (srcGroup s i) = true →
    i ∈ (setPending i s).intc.pend ∧ i ∈ (setPending i s).intc.held ∧ (setPending i s).intc.run = s.intc.run ∧
    (setPending i s).intc.left = s.intc.left ∧ Within [.intc] s (setPending i s)) ∧
  (∀ s i, srcReal i = true → srcEnabled s i = true → i ∈ s.intc.pend →
    setPending i s = { s with intc := { s.intc with again := insN i s.intc.again } }) ∧
  (∀ s i, (srcReal i = false ∨ srcEnabled s i = false) → setPending i s = s) ∧
  (∀ s (g : Fin 16), s.intc.run.testBit g = true → s.intc.left.getD g 0 = 0 →
    ∃ t, exec (.holdoffExpire g) s = .next t ∧ t.intc.held = s.intc.held.filter (fun i => srcGroup s i != g.val) ∧
      t.intc.pend = s.intc.pend ∧
      ((∀ i ∈ s.intc.held, srcGroup s i ≠ g.val) → t.intc.run.testBit g = false) ∧
      (∀ i ∈ s.intc.held, srcGroup s i = g.val → t.intc.run.testBit g = decide (0 < holdoffUs s g)) ∧ Within [.intc] s t) ∧
  (∀ s (g : Fin 16), (s.intc.run.testBit g = false ∨ s.intc.left.getD g 0 ≠ 0) → exec (.holdoffExpire g) s = .next s) ∧
  (∀ s p (t : Fin 8) i, s.mode.up = true → (4 ≤ t.val ∨ ∃ c, p = .core c) → bestClaim s t = some i →
    ∃ u, exec (.intcClaim p t) s = .next u ∧ u.out = s.out ++ [.readData p (0x004200 + 16 * t.val) (wordN i)] ∧
      u.intc.pend = delN i s.intc.pend ∧ (Lengths s = true → stackOf u t = (i, srcPrio s i) :: stackOf s t ∧
        ∀ j, j ≠ t.val → stackOf u j = stackOf s j) ∧ Within [.intc, .out] s u) ∧
  (∀ s p (t : Fin 8), s.mode.up = true → (4 ≤ t.val ∨ ∃ c, p = .core c) → bestClaim s t = none →
    ∃ u, exec (.intcClaim p t) s = .next u ∧ u.out = s.out ++ [.readData p (0x004200 + 16 * t.val) 0x3FF] ∧
      u.intc = { s.intc with nSpur := incSat 16 s.intc.nSpur } ∧ Within [.intc, .out] s u) ∧
  (∀ s p (t : Fin 8), s.mode.up = true → t.val < 4 → (∀ c, p ≠ .core c) →
    exec (.intcClaim p t) s = .next (emit (.readData p (0x004200 + 16 * t.val) 0x3FF) s)) ∧
  (∀ s p (t : Fin 8), s.mode.up = false → exec (.intcClaim p t) s = .next s) ∧
  (∀ s (t : Fin 8) i, bestClaim s t = some i → i ∈ s.intc.pend ∧ claimable s t i = true ∧
    ∀ j ∈ s.intc.pend, claimable s t j = true → srcPrio s j ≤ srcPrio s i) ∧
  (∀ s (t : Fin 8), bestClaim s t = none ↔ ∀ j ∈ s.intc.pend, claimable s t j = false) ∧
  (∀ s p v, s.mode.up = true → loaderBusy s = false →
    exec (.intcSwset p v) s = .next (raiseAt .fabric Cause.intcSoft 0xFF (224 + field v 0 5) (224 + field v 0 5) s)) ∧
  (∀ s p (t : Fin 8) v, s.mode.up = true → loaderBusy s = true →
    exec (.intcSwset p v) s = .next (raiseReg Cause.ldrBusy 0x004840 s) ∧
    exec (.intcEoi p t v) s = .next (raiseReg Cause.ldrBusy (0x004204 + 16 * t.val) s)) ∧
  (∀ s p (t : Fin 8) v, s.mode.up = false → exec (.intcSwset p v) s = .next s ∧ exec (.intcEoi p t v) s = .next s)

/-- R458, R462, R463, R465 to R468, R470 to R472 (derived): the write manager, the keyed commands of the store in every form and their
completion, the margin scan and the window. -/
def Obligations.StoreWritesAndCommands : Prop :=
  (∀ s r a b rest, s.nvm.job = some ⟨r, (a, b) :: rest⟩ → rest ≠ [] →
    exec .nvmWordWriteDone s = .next { nvmWriteWord a b s with nvm := { (nvmWriteWord a b s).nvm with job := some ⟨r, rest⟩ } }) ∧
  (∀ s r a b, s.nvm.job = some ⟨r, [(a, b)]⟩ →
    ∃ t, exec .nvmWordWriteDone s = .next t ∧ t.nvm.mem = nvmPut a b s.nvm.mem ∧
      t.nvm.bad = delN (a / 8) s.nvm.bad ∧ t.nvm.weak = delN (a / 8) s.nvm.weak ∧
      t.nvm.nRefresh = (match r with | .refresh _ => incSat 8 s.nvm.nRefresh | _ => s.nvm.nRefresh) ∧ Within [.nvm] s t) ∧
  (∀ s, s.nvm.job = none → exec .nvmWordWriteDone s = .next s) ∧
  (∀ s r rest, s.nvm.job = none → s.nvm.refused = false → s.nvm.busy ≠ some .format → s.nvm.lock = false → s.nvm.queue = r :: rest →
    nvmNext s = { s with nvm := { s.nvm with queue := rest, job := some { req := r, words := reqWords s r } } }) ∧
  (∀ s r rest, s.nvm.job = none → s.nvm.refused = false → s.nvm.busy ≠ some .format → (s.nvm.lock = true ∨ s.nvm.queue = []) →
      s.nvm.commit = some (r :: rest) →
    nvmNext s = { s with nvm := { s.nvm with commit := some rest, job := some { req := r, words := reqWords s r } } }) ∧
  (∀ s, (s.nvm.job.isSome = true ∨ s.nvm.refused = true ∨ s.nvm.busy = some .format) → nvmNext s = s) ∧
  (∀ s r, (s.nvm.refused = true ∨ s.nvm.lock = true) → nvmRequest r s = s) ∧
  (∀ s r, s.nvm.refused = false → s.nvm.lock = false →
    nvmRequest r s = nvmNext { s with nvm := { s.nvm with queue := queueReq r s.nvm.queue } }) ∧
  (∀ s, s.nvm.commit = some [] → s.nvm.job = none → exec .commitSetDone s = .next { s with nvm := { s.nvm with commit := none } }) ∧
  (∀ s, (s.nvm.commit ≠ some [] ∨ s.nvm.job ≠ none) → exec .commitSetDone s = .next s) ∧
  (∀ s key service recalled,
    (key ≠ 0x4E ∨ service = true ∧ s.mode ≠ .service → nvmCmdCheck s key service recalled = some Cause.nvmCmdRefused) ∧
    (key = 0x4E → (service = false ∨ s.mode = .service) →
      (s.nvm.lock = true ∨ recalled = true ∧ s.nvm.refused = true → nvmCmdCheck s key service recalled = some Cause.nvmRefused) ∧
      (s.nvm.lock = false → (recalled = false ∨ s.nvm.refused = false) →
        nvmCmdCheck s key service recalled = if s.nvm.busy.isSome then some Cause.nvmCmdRefused else none))) ∧
  (∀ s p key, s.mode.up = true → loaderBusy s = false →
    (∀ c, nvmCmdCheck s key true false = some c → exec (.nvmFormat p key) s = .next (raise .fabric c 0xFF s)) ∧
    (nvmCmdCheck s key true false = none →
      exec (.nvmFormat p key) s = .next { s with nvm := { s.nvm with busy := some .format, queue := s.nvm.queue.filter inPatch } }) ∧
    (∀ c, nvmCmdCheck s key true true = some c →
      exec (.calCommit p key) s = .next (raise .fabric c 0xFF s) ∧ exec (.define p key) s = .next (raise .fabric c 0xFF s)) ∧
    (nvmCmdCheck s key true true = none →
      exec (.calCommit p key) s = .next (nvmRequest (.record Kind.cal 0 (calPayload s)) { s with nvm := { s.nvm with busy := some .calCommit } }) ∧
      exec (.define p key) s = .next (defineRegion s)) ∧
    (∀ c, nvmCmdCheck s key false false = some c → exec (.scanNow p key) s = .next (raise .fabric c 0xFF s)) ∧
    (nvmCmdCheck s key false false = none →
      exec (.scanNow p key) s = .next { s with nvm := { s.nvm with busy := some (.scanNow 4096), scanTk := s.tb.run } })) ∧
  (∀ s p key, s.mode.up = true → loaderBusy s = true →
    ∀ c ∈ [Instr.nvmFormat p key, .calCommit p key, .define p key, .scanNow p key],
      exec c s = .next (raiseReg Cause.ldrBusy 0x00B000 s)) ∧
  (∀ s p key, s.mode.up = false →
    ∀ c ∈ [Instr.nvmFormat p key, .calCommit p key, .define p key, .scanNow p key], exec c s = .next s) ∧
  (∀ s, s.nvm.busy = some .format → s.nvm.job = none → Memory.wf s = true →
    ∃ t, exec .nvmFormatted s = .next t ∧ t.nvm.busy = none ∧ t.nvm.refused = false ∧ t.fab = (raise .fabric Cause.nvmFormatted 0xFF s).fab ∧
      (∀ a, 256 * 186 ≤ a → a < 256 * 442 → nvmByte t a = nvmByte s a) ∧
      (∀ a, (512 ≤ a ∧ a < 256 * 186 ∨ 256 * 442 ≤ a ∧ a < 2 ^ 20) → nvmByte t a = 0) ∧
      (∀ a, a < 512 → nvmByte t a = (recHeader Kind.table 0 1 tabFresh ++ tabFresh).getD (a % 256) 0) ∧
      (storeFmt s = true → t.acc.fuse = s.acc.fuse) ∧
      (storeFmt s = false → t.acc.fuse = lset s.acc.fuse 17 (fuseFieldWord 1)) ∧
      ((∀ i b, NvmReq.record 0x07 i b ∉ s.nvm.queue) → t.acc.fails = none) ∧ Within [.nvm, .acc, .fab] s t) ∧
  (∀ s, (s.nvm.busy ≠ some .format ∨ s.nvm.job ≠ none) → exec .nvmFormatted s = .next s) ∧
  (∀ s, s.nvm.busy = some .calCommit → calWaiting s = false →
    ∃ t, exec .nvmCalCommitted s = .next t ∧ t.nvm = { s.nvm with busy := none } ∧
      t.fab = (raise .fabric Cause.nvmCalCommitted 0xFF s).fab ∧
      (∀ n, n < 128 → t.getFe n = if (s.getFe n).pwr = 0 then s.getFe n else
        { s.getFe n with calSrc := 2, flt := setBitN (s.getFe n).flt 9 false }) ∧ Within [.nvm, .fe, .fab] s t) ∧
  (∀ s, (s.nvm.busy ≠ some .calCommit ∨ calWaiting s = true) → exec .nvmCalCommitted s = .next s) ∧
  (∀ s base pages u, fieldN (cfgN s 0x00B004) 0 12 = base → fieldN (cfgN s 0x00B004) 12 12 = pages → fieldN (cfgN s 0x00B004) 24 3 = u →
    (pages = 0 →
      defineRegion s = putRegion u 0 0 0 0 [] (if (regionOf s u).kind = 2 then nvmZeroPages (regionOf s u).base (regionOf s u).pages s else s)) ∧
    (pages ≠ 0 → (base < 442 ∨ 4096 < base + pages ∨ ∃ v, v < 8 ∧ v ≠ u ∧ (regionOf s v).kind = 2 ∧
        (regionOf s v).base < base + pages ∧ base < (regionOf s v).base + (regionOf s v).pages) →
      defineRegion s = raise .fabric Cause.nvmCmdRefused 0xFF s) ∧
    (pages ≠ 0 → 442 ≤ base → base + pages ≤ 4096 → (∀ v, v < 8 → v ≠ u → (regionOf s v).kind = 2 →
        ¬((regionOf s v).base < base + pages ∧ base < (regionOf s v).base + (regionOf s v).pages)) →
      defineRegion s = putRegion u 2 (fieldN (cfgN s 0x00B004) 27 3) base pages [] (nvmZeroPages base pages s))) ∧
  (∀ s w b, scanDue s = true →
    ∃ t, exec (.marginScan w b) s = .next t ∧ t.nvm.scanPage = (s.nvm.scanPage + 1) % 4096 ∧ t.nvm.scanTk = s.tb.run ∧
      t.nvm.scans = (if (s.nvm.scanPage + 1) % 4096 = 0 then incSat 16 s.nvm.scans else s.nvm.scans) ∧ t.nvm.mem = s.nvm.mem ∧
      (∀ x, x ∈ t.nvm.bad ↔ x ∈ s.nvm.bad ∨ ∃ i ∈ b, x = 32 * s.nvm.scanPage + i.val) ∧
      (∀ n, s.nvm.busy = some (.scanNow (n + 1)) → t.nvm.busy = if n = 0 then none else some (.scanNow n)) ∧ Within [.nvm, .fab] s t) ∧
  (∀ s, scanDue s = true → s.nvm.weak = [] → s.nvm.bad = [] → s.nvm.scanPage < 4095 → s.nvm.busy = none →
    exec (.marginScan [] []) s = .next { s with nvm := { s.nvm with scanPage := s.nvm.scanPage + 1, scanTk := s.tb.run } }) ∧
  (∀ s w b, scanDue s = false → exec (.marginScan w b) s = .next s) ∧
  (∀ s p a v, s.mode.up = true → loaderBusy s = false → 0x080000 ≤ a → a < 0x100000 → a % 8 = 0 →
      winRefused p (winAddr (s.shad p).winBank a / 256) s = none →
    exec (.nvmWindowWrite p a v) s = .next (modShad p (fun h => { h with winHeld := v }) s)) ∧
  (∀ s p a v, s.mode.up = true → loaderBusy s = false → 0x080000 ≤ a → a < 0x100000 → a % 8 = 4 →
      winRefused p (winAddr (s.shad p).winBank a / 256) s = none →
    exec (.nvmWindowWrite p a v) s = .next (nvmRequest
      (.word (winAddr (s.shad p).winBank a - 4) (leBytes 4 (s.shad p).winHeld.toNat ++ leBytes 4 v.toNat)) s)) ∧
  (∀ s p a v c, s.mode.up = true → loaderBusy s = false → 0x080000 ≤ a → a < 0x100000 → a % 4 = 0 →
      winRefused p (winAddr (s.shad p).winBank a / 256) s = some c →
    exec (.nvmWindowWrite p a v) s = .next (raise .fabric c 0xFF s)) ∧
  (∀ s p a v, (a < 0x080000 ∨ 0x100000 ≤ a ∨ a % 4 ≠ 0 ∨ s.mode.up = false) → exec (.nvmWindowWrite p a v) s = .next s) ∧
  (∀ s p a v, s.mode.up = true → loaderBusy s = true → 0x080000 ≤ a → a < 0x100000 → a % 4 = 0 →
    exec (.nvmWindowWrite p a v) s = .next (raiseReg Cause.ldrBusy a s)) ∧
  (∀ s p page, (s.nvm.refused = true ∨ s.nvm.lock = true) → winRefused p page s = some Cause.nvmRefused) ∧
  (∀ s p page, s.nvm.refused = false → s.nvm.lock = false → s.nvm.busy.isSome = true → winRefused p page s = some Cause.nvmBusy) ∧
  (∀ s p page u, s.nvm.refused = false → s.nvm.lock = false → s.nvm.busy = none → regionAt s page = some u →
    winRefused p page s = if bitN (regionOf s u).flags 2 = true ∧ s.mode ≠ .service ∨
      bitN (regionOf s u).flags 1 = true ∧ pathUnlocked s p u = false then some Cause.nvmRegionLocked else none) ∧
  (∀ s p page, s.nvm.refused = false → s.nvm.lock = false → s.nvm.busy = none → regionAt s page = none →
      (s.mode ≠ .service ∨ page < 186 ∨ 442 ≤ page) →
    winRefused p page s = some Cause.nvmRegionLocked)

/-- R481 to R484 (derived): fuse programming and stage operation, in every form. -/
def Obligations.FusesAndStageOperation : Prop :=
  (∀ s p v, s.mode.up = true → loaderBusy s = false →
    (v.toNat.testBit 8 = false → exec (.fuseProgramWord p v) s = .next (fuseCmd v s)) ∧
    (v.toNat.testBit 8 = true → exec (.fuseProgramBlock p v) s = .next (fuseCmd v s))) ∧
  (∀ s p v, (v.toNat.testBit 8 = true ∨ s.mode.up = false) → exec (.fuseProgramWord p v) s = .next s) ∧
  (∀ s p v, (v.toNat.testBit 8 = false ∨ s.mode.up = false) → exec (.fuseProgramBlock p v) s = .next s) ∧
  (∀ s p v, s.mode.up = true → loaderBusy s = true →
    (v.toNat.testBit 8 = false → exec (.fuseProgramWord p v) s = .next (raiseReg Cause.ldrBusy 0x00C08C s)) ∧
    (v.toNat.testBit 8 = true → exec (.fuseProgramBlock p v) s = .next (raiseReg Cause.ldrBusy 0x00C08C s))) ∧
  (∀ s v, (field v 24 8 ≠ 0x46 ∨ s.mode ≠ .service ∨ s.nvm.lock = true ∨ s.acc.job ≠ none) → fuseCmd v s = raise .fabric Cause.accRefused 0xFF s) ∧
  (∀ s v, s.mode = .service → field v 24 8 = 0x46 → s.nvm.lock = false → s.acc.job = none →
    (v.toNat.testBit 8 = false → fuseW s (field v 0 6) ≠ 0 → fuseCmd v s = raise .fabric Cause.accFuseUsed 0xFF s) ∧
    (v.toNat.testBit 8 = false → fuseW s (field v 0 6) = 0 →
        (field v 0 6 < 16 ∨ 20 ≤ field v 0 6 ∧ field v 0 6 < 38 ∨ field v 0 6 = 18 ∧ authUnbacked s (cfgF s 0x00C090 0 2) = true) →
      fuseCmd v s = raise .fabric Cause.accRefused 0xFF s) ∧
    (v.toNat.testBit 8 = false → fuseW s (field v 0 6) = 0 →
        (16 ≤ field v 0 6 ∧ field v 0 6 < 20 ∨ 38 ≤ field v 0 6) → (field v 0 6 = 18 → authUnbacked s (cfgF s 0x00C090 0 2) = false) →
      fuseCmd v s = { s with acc := { s.acc with job := some (.word (field v 0 6) (fuseFieldWord (cfgN s 0x00C090))), jobTk := s.tb.run } }) ∧
    (v.toNat.testBit 8 = true → field v 0 6 ≠ 20 → field v 0 6 ≠ 29 → fuseCmd v s = raise .fabric Cause.accRefused 0xFF s) ∧
    (v.toNat.testBit 8 = true → (field v 0 6 = 20 ∨ field v 0 6 = 29) → fuseBlockSet s (field v 0 6) = true →
      fuseCmd v s = raise .fabric Cause.accFuseUsed 0xFF s) ∧
    (v.toNat.testBit 8 = true → (field v 0 6 = 20 ∨ field v 0 6 = 29) → fuseBlockSet s (field v 0 6) = false →
      fuseCmd v s = { s with acc := { s.acc with job := some (.block (field v 0 6) s.acc.fbuf), jobTk := s.tb.run } })) ∧
  (∀ s w v, s.acc.job = some (.word w v) → floorTk 10 ≤ since s s.acc.jobTk → Lengths s = true → w < 64 →
    ∃ t, exec .accFuseDone s = .next t ∧ t.acc.job = none ∧ t.acc.fuse.getD w 0 = v ∧
      (∀ j, j ≠ w → t.acc.fuse.getD j 0 = s.acc.fuse.getD j 0) ∧ t.fab = (raise .fabric Cause.accFuseDone 0xFF s).fab ∧
      Within [.acc, .fab] s t) ∧
  (∀ s w l, s.acc.job = some (.block w l) → floorTk 90 ≤ since s s.acc.jobTk → Lengths s = true → (w = 20 ∨ w = 29) →
    ∃ t, exec .accFuseDone s = .next t ∧ t.acc.job = none ∧ fuseBlockOk t w = true ∧
      (∀ i, i < 8 → fuseW t (w + i) = (l.getD i 0).toNat) ∧ (∀ j, (j < w ∨ w + 8 < j) → fuseW t j = fuseW s j) ∧
      t.fab = (raise .fabric Cause.accFuseDone 0xFF s).fab ∧ Within [.acc, .fab] s t) ∧
  (∀ s, (∀ j, s.acc.job = some j → since s s.acc.jobTk < floorTk (10 * j.words)) → exec .accFuseDone s = .next s) ∧
  (∀ s p, s.mode = .service → loaderBusy s = false →
    exec (.stageOperationEnable p) s = .next (setStageOp true s) ∧ (setStageOp true s).acc.stageOp = true ∧
      (s.acc.stageOp = false → ∀ k, k < 128 → ((setStageOp true s).getCh k).reg.gEff = 0)) ∧
  (∀ s p, s.mode.up = true → loaderBusy s = false → s.mode ≠ .service →
    exec (.stageOperationEnable p) s = .next (raiseReg Cause.regWriteLocked 0x00C088 s)) ∧
  (∀ s p, s.mode.up = true → loaderBusy s = true → exec (.stageOperationEnable p) s = .next (raiseReg Cause.ldrBusy 0x00C088 s)) ∧
  (∀ s p, s.mode.up = false → exec (.stageOperationEnable p) s = .next s)

/-- R375 to R378, R381 (derived): the host transfer, lost arbitration, retries and a stuck bus, in every form. How many bytes of a
transaction were not acknowledged before its outcome is a free value (log entry 2); a transfer of more than 32 bytes, which the buffer
cannot hold, is refused by the model's choice (log entry 73). -/
def Obligations.TwoWireControllerTransactions : Prop :=
  (∀ s p v, (v.toNat.testBit 31 = false ∨ s.mode.up = false) → exec (.twiXferStart p v) s = .next s) ∧
  (∀ s p v, s.mode.up = true → loaderBusy s = true → v.toNat.testBit 31 = true →
    exec (.twiXferStart p v) s = .next (raiseReg Cause.ldrBusy 0x00A100 s)) ∧
  (∀ s p v, s.mode.up = true → loaderBusy s = false → v.toNat.testBit 31 = true → xferRefused s v = false → field v 8 6 ≤ 32 →
      field v 16 6 ≤ 32 →
    ∃ t, exec (.twiXferStart p v) s = .next t ∧
      t.twi = { s.twi with xctl := v &&& 0x003F3F7F, xst := .busy, xbytes := 0, xcause := 0, ctl := true, tries := 0, busBusy := true } ∧
      t.out = s.out ++ [.twiXfer (field v 0 7) (slice s.twi.xbuf 0 (field v 8 6)) (field v 16 6)] ∧ Within [.twi, .out] s t) ∧
  (∀ s p v, s.mode.up = true → loaderBusy s = false → v.toNat.testBit 31 = true →
      (xferRefused s v = true ∨ 32 < field v 8 6 ∨ 32 < field v 16 6) →
    exec (.twiXferStart p v) s = .next (raise .fabric Cause.twiXferRefused 0xFF s)) ∧
  (∀ s v, xferRefused s v = true ↔ ((s.mode ≠ .run ∧ s.mode ≠ .safe ∧ s.mode ≠ .service) ∨ s.twi.xst = .busy ∨ field v 0 7 = 0x58 + s.twi.addr ∨
    0 < field v 8 6 ∧ (eeAmode s = true ∧ field v 0 7 = 0x50 ∨ eeAmode s = false ∧ 0x50 ≤ field v 0 7 ∧ field v 0 7 ≤ 0x53))) ∧
  (∀ s b, s.twi.xst = .busy →
    ∃ t, exec (.twiXferDone (.done b)) s = .next t ∧ t.twi.xst = .done ∧ t.twi.xbytes = field s.twi.xctl 8 6 + b.length ∧
      t.twi.xcause = 0 ∧ t.twi.xbuf = b ++ s.twi.xbuf.drop b.length ∧ t.twi.ctl = false ∧ t.twi.retry = false ∧ t.twi.busBusy = false ∧
      Within [.twi, .free] s t) ∧
  (∀ s n, s.twi.xst = .busy →
    ∀ r c, (r, c) ∈ [(XferEnd.nack n, Cause.twiNack), (.arbLost n, Cause.twiArbLost), (.stuck n, Cause.twiBusStuck)] →
    ∃ t, exec (.twiXferDone r) s = .next t ∧ t.twi.xst = .failed ∧ t.twi.xcause = c ∧ t.twi.xbytes = n ∧ t.twi.xbuf = s.twi.xbuf ∧
      t.twi.ctl = false ∧ t.twi.nNack = (if r = .nack n then addSat 8 s.twi.nNack (twiRetryMax s) else s.twi.nNack) ∧
      t.fab = (raise .fabric c 0xFF s).fab ∧ Within [.twi, .fab] s t) ∧
  (∀ s r, s.twi.xst ≠ .busy → exec (.twiXferDone r) s = .next s) ∧
  (∀ s b, controlling s = true →
    ∃ t, exec (.twiArbLoss b) s = .next t ∧ t.twi.nArb = incSat 8 s.twi.nArb ∧ t.twi.retry = true ∧ t.twi.ctl = false ∧
      t.twi.xst = s.twi.xst ∧ (b = none → t.twi.tgt = false) ∧
      (∀ a, b = some a → t.twi.tgt = decide (a.toNat / 2 = 0x58 + s.twi.addr ∧ cfgF s 0x00A000 2 1 = 1)) ∧ Within [.twi] s t) ∧
  (∀ s b, controlling s = false → exec (.twiArbLoss b) s = .next s) ∧
  (∀ s, s.twi.retry = true → s.twi.tries < twiRetryMax s →
    ∃ t, exec .twiRetry s = .next t ∧ t.twi.tries = s.twi.tries + 1 ∧ t.twi.retry = false ∧ t.twi.xst = s.twi.xst ∧
      t.twi.ctl = decide (s.twi.xst = .busy) ∧ Within [.twi] s t) ∧
  (∀ s, s.twi.retry = true → twiRetryMax s ≤ s.twi.tries → s.twi.xst = .busy →
    ∃ t, exec .twiRetry s = .next t ∧ t.twi.xst = .failed ∧ t.twi.xcause = Cause.twiArbLost ∧ t.twi.retry = false ∧
      t.fab = (raise .fabric Cause.twiArbLost 0xFF s).fab ∧ Within [.twi, .fab] s t) ∧
  (∀ s, s.twi.retry = true → twiRetryMax s ≤ s.twi.tries → s.twi.xst ≠ .busy →
    exec .twiRetry s = .next (raise .fabric Cause.twiArbLost 0xFF (pagesFail Cause.twiArbLost
      { s with twi := { busFree s.twi with tries := 0, ctl := false, retry := false } }))) ∧
  (∀ s, s.twi.retry = false → exec .twiRetry s = .next s) ∧
  (∀ s, controlling s = true → s.twi.xst = .busy →
    ∃ t, exec (.twiBusStuck .scl) s = .next t ∧ t.twi.xst = .failed ∧ t.twi.xcause = Cause.twiBusStuck ∧ t.twi.scl = false ∧
      t.fab = (raise .fabric Cause.twiBusStuck 0xFF s).fab ∧ Within [.twi, .fab] s t) ∧
  (∀ s, controlling s = true → s.twi.xst ≠ .busy →
    ∃ u, u = pagesFail Cause.twiBusStuck { s with twi := { busFree s.twi with ctl := false, retry := false } } ∧
      exec (.twiBusStuck .scl) s = .next (raise .fabric Cause.twiBusStuck 0xFF
        { u with twi := { u.twi with tgt := false, ctl := false, retry := false, busBusy := true, scl := false } })) ∧
  (∀ s, controlling s = false →
    exec (.twiBusStuck .scl) s = .next { s with twi := { s.twi with tgt := false, ctl := false, retry := false, busBusy := true, scl := false } }) ∧
  (∀ s, controlling s = true →
    exec (.twiBusStuck .sda) s = .next { s with twi := { s.twi with nStuck := incSat 8 s.twi.nStuck, busBusy := false, scl := true, sda := true } }) ∧
  (∀ s, controlling s = false →
    exec (.twiBusStuck .sda) s = .next { s with twi := { s.twi with busBusy := true, sda := false } })

/-- R379, R380 (derived): register access through the target, in every form. -/
def Obligations.TwoWireTargetAccess : Prop :=
  (∀ s a2 a1 a0 d n b, (s.mode.up = false ∨ cfgF s 0x00A000 2 1 = 0) →
    exec (.twiTargetWrite (a2 :: a1 :: a0 :: d) b) s = .next s ∧ exec (.twiTargetRead none n b) s = .next s ∧
    exec (.twiTargetRead (some [a2, a1, a0]) n b) s = .next s) ∧
  (∀ s l n b, l.length < 3 → exec (.twiTargetWrite l b) s = .next s ∧ exec (.twiTargetRead (some l) n b) s = .next s) ∧
  (∀ s l n b, 3 < l.length → exec (.twiTargetRead (some l) n b) s = .next s) ∧
  (∀ s a2 a1 a0 d n b, s.mode.up = true → cfgF s 0x00A000 2 1 = 1 → s.ldr.st = .applying →
    exec (.twiTargetWrite (a2 :: a1 :: a0 :: d) b) s = .next (twiBusyNack s) ∧ exec (.twiTargetRead none n b) s = .next (twiBusyNack s) ∧
    exec (.twiTargetRead (some [a2, a1, a0]) n b) s = .next (twiBusyNack s)) ∧
  (∀ s a2 a1 a0 d n b, s.mode.up = true → cfgF s 0x00A000 2 1 = 1 → s.ldr.st ≠ .applying → (b = .address ∨ justReset s = true) →
    exec (.twiTargetWrite (a2 :: a1 :: a0 :: d) b) s = .next (twiAnswer false [] s) ∧
    exec (.twiTargetRead none n b) s = .next (twiAnswer false [] s) ∧
    exec (.twiTargetRead (some [a2, a1, a0]) n b) s = .next (twiAnswer false [] s)) ∧
  (∀ s, s.mode.up = true → cfgF s 0x00A000 2 1 = 1 → s.ldr.st ≠ .applying → justReset s = false →
    (∀ a2 a1 a0 d n b, (twiAddr a2 a1 a0) % 4 ≠ 0 → b ≠ .address →
      ∃ t, t = twiAnswer false [] { s with twi := { s.twi with lastAlign := true } } ∧
        exec (.twiTargetWrite (a2 :: a1 :: a0 :: d) b) s = .next t ∧ exec (.twiTargetRead (some [a2, a1, a0]) n b) s = .next t) ∧
    (∀ a2 a1 a0 d b, (twiAddr a2 a1 a0) % 4 = 0 → b ≠ .address →
      exec (.twiTargetWrite (a2 :: a1 :: a0 :: d) b) s =
        .next (twiData [a2, a1, a0] d b { s with twi := { s.twi with lastAlign := false, ptr := twiAddr a2 a1 a0 } })) ∧
    (∀ n b, b ≠ .address → exec (.twiTargetRead none n b) s = .next (twiRead n b s)) ∧
    (∀ a2 a1 a0 n b, (twiAddr a2 a1 a0) % 4 = 0 → b ≠ .address →
      exec (.twiTargetRead (some [a2, a1, a0]) n b) s =
        .next (twiRead n b { s with twi := { s.twi with lastAlign := false, ptr := twiAddr a2 a1 a0 } }))) ∧
  (∀ s v, (twiPut s v).twi.ptr = ((writeReg .i2c s.twi.ptr v s).2.twi.ptr + 4) % 2 ^ 24 ∧
    (twiPut s v).twi.tCause = (writeReg .i2c s.twi.ptr v s).1.getD (writeReg .i2c s.twi.ptr v s).2.twi.tCause) ∧
  (∀ a d s, cfgF s 0x00A000 4 1 = 0 → twiData a d .free s = twiAnswer true [] ((twiWords d).foldl twiPut s)) ∧
  (∀ a d s b, cfgF s 0x00A000 4 1 = 0 → d.length < 8 → twiData a d b s = twiData a d .free s) ∧
  (∀ a d s x, cfgF s 0x00A000 4 1 = 0 → 8 ≤ d.length →
    ((x = false ∨ cfgF s 0x00A000 3 1 = 0) → twiData a d (.fetch x) s = twiBusyNack (twiPut s (wordN (leAt d 0 4)))) ∧
    (x = true → cfgF s 0x00A000 3 1 = 1 → twiData a d (.fetch x) s = twiData a d .free s)) ∧
  (∀ a d s b, cfgF s 0x00A000 4 1 = 1 → d ≠ [] → (d.dropLast.length % 4 ≠ 0 ∨ 64 < d.dropLast.length ∨ crc8 (a ++ d) ≠ 0) →
    twiData a d b s = twiAnswer false [] (raise .fabric Cause.twiPecBad 0xFF s)) ∧
  (∀ a d s b, cfgF s 0x00A000 4 1 = 1 → d ≠ [] → d.dropLast.length % 4 = 0 → d.dropLast.length ≤ 64 → crc8 (a ++ d) = 0 →
    twiData a d b s = twiAnswer true [] ((twiWords d.dropLast).foldl twiPut s)) ∧
  (∀ n s, twiRead n .free s = twiAnswer true (twiGetAll n s).1 (twiGetAll n s).2) ∧
  (∀ n s x, (twiHasKept s = true ∨ x = true ∧ cfgF s 0x00A000 3 1 = 1) → twiRead n (.fetch x) s = twiRead n .free s) ∧
  (∀ n s x, twiHasKept s = false → (x = false ∨ cfgF s 0x00A000 3 1 = 0) →
    twiRead n (.fetch x) s = twiBusyNack { (readReg .i2c s.twi.ptr s).2 with
      twi := { (readReg .i2c s.twi.ptr s).2.twi with
        kept := some ((readReg .i2c s.twi.ptr s).2.twi.ptr, (readReg .i2c s.twi.ptr s).1, (readReg .i2c s.twi.ptr s).2.tb.run) } }) ∧
  (∀ s a w t, s.twi.kept = some (a, w, t) → a = s.twi.ptr → since s t ≤ msTk 1 →
    twiGet s = (w, { s with twi := { s.twi with ptr := (s.twi.ptr + 4) % 2 ^ 24, kept := none } })) ∧
  (∀ s, twiHasKept s = false → (twiGet s).1 = (readReg .i2c s.twi.ptr s).1)
end

