-- ==== Sys2Proof/Laws/Within.lean ====
section
/-!
SUPPORT. How frames compose: a frame of a shared operation is cited, not unfolded.
-/

namespace Sys2Proof.Machine

theorem Part.same_refl (p : Part) (s : State) : p.same s s := by cases p <;> rfl

theorem Part.same_trans {p : Part} {s t u : State} (h : p.same s t) (k : p.same t u) : p.same s u := by
  cases p <;> exact Eq.trans k h

theorem Within.refl (l : List Part) (s : State) : Within l s s := fun p _ => p.same_refl s

/-- A frame goes on over an operation that changes no more. -/
theorem Within.andThen {l m : List Part} {s t u : State} (h : Within l s t) (k : Within m t u) (sub : m.all l.contains = true) :
    Within l s u := by
  intro p hp
  refine Part.same_trans (h p hp) (k p fun hm => hp ?_)
  simpa using List.all_eq_true.mp sub p hm

theorem Within.mono {l m : List Part} {s t : State} (k : Within m s t) (sub : m.all l.contains = true) : Within l s t :=
  (Within.refl l s).andThen k sub

theorem Within.ite {l : List Part} {s a b : State} {c : Prop} [Decidable c] (h : Within l s a) (k : Within l s b) :
    Within l s (if c then a else b) := by split <;> assumption

/-- A fold keeps what each of its steps keeps. -/
theorem Within.foldl {α : Type} {l : List Part} {s t : State} {f : State → α → State} {xs : List α}
    (hf : ∀ u x, Within l u (f u x)) (h : Within l s t) : Within l s (xs.foldl f t) := by
  induction xs generalizing t with
  | nil => exact h
  | cons x xs ih => exact ih (fun p hp => Part.same_trans (h p hp) (hf t x p hp))

theorem Within.forEach {l : List Part} {s t : State} {f : Nat → State → State} {xs : List Nat}
    (hf : ∀ x u, Within l u (f x u)) (h : Within l s t) : Within l s (forEach xs f t) := Within.foldl (fun u x => hf x u) h

/-- The same for the second of a pair. -/
theorem Within.ite2 {α} {l : List Part} {s : State} {c : Prop} [Decidable c] {a b : α × State} (h : Within l s a.2) (k : Within l s b.2) :
    Within l s (if c then a else b).2 := by split <;> assumption

/-- A frame from what stays in each part. -/
theorem Within.mk {l : List Part} {s t u : State} (h : Within l s t) (k : ∀ p, p ∉ l → Part.same t u p) : Within l s u := fun p hp => Part.same_trans (h p hp) (k p hp)

/-! Setting one part. -/

theorem Within.set_mode {l : List Part} {s t : State} {v} (h : Within l s t) (m : l.contains .mode = true) : Within l s { t with mode := v } :=
  Within.mk h (by intro p hp; cases p <;> first | rfl | exact absurd (by simpa using m) hp)
theorem Within.set_seq {l : List Part} {s t : State} {v} (h : Within l s t) (m : l.contains .seq = true) : Within l s { t with seq := v } :=
  Within.mk h (by intro p hp; cases p <;> first | rfl | exact absurd (by simpa using m) hp)
theorem Within.set_regs {l : List Part} {s t : State} {v} (h : Within l s t) (m : l.contains .regs = true) : Within l s { t with regs := v } :=
  Within.mk h (by intro p hp; cases p <;> first | rfl | exact absurd (by simpa using m) hp)
theorem Within.set_tb {l : List Part} {s t : State} {v} (h : Within l s t) (m : l.contains .tb = true) : Within l s { t with tb := v } :=
  Within.mk h (by intro p hp; cases p <;> first | rfl | exact absurd (by simpa using m) hp)
theorem Within.set_ph {l : List Part} {s t : State} {v} (h : Within l s t) (m : l.contains .ph = true) : Within l s { t with ph := v } :=
  Within.mk h (by intro p hp; cases p <;> first | rfl | exact absurd (by simpa using m) hp)
theorem Within.set_gal {l : List Part} {s t : State} {v} (h : Within l s t) (m : l.contains .gal = true) : Within l s { t with gal := v } :=
  Within.mk h (by intro p hp; cases p <;> first | rfl | exact absurd (by simpa using m) hp)
theorem Within.set_fe {l : List Part} {s t : State} {v} (h : Within l s t) (m : l.contains .fe = true) : Within l s { t with fe := v } :=
  Within.mk h (by intro p hp; cases p <;> first | rfl | exact absurd (by simpa using m) hp)
theorem Within.set_ch {l : List Part} {s t : State} {v} (h : Within l s t) (m : l.contains .ch = true) : Within l s { t with ch := v } :=
  Within.mk h (by intro p hp; cases p <;> first | rfl | exact absurd (by simpa using m) hp)
theorem Within.set_est {l : List Part} {s t : State} {v} (h : Within l s t) (m : l.contains .est = true) : Within l s { t with est := v } :=
  Within.mk h (by intro p hp; cases p <;> first | rfl | exact absurd (by simpa using m) hp)
theorem Within.set_rcp {l : List Part} {s t : State} {v} (h : Within l s t) (m : l.contains .rcp = true) : Within l s { t with rcp := v } :=
  Within.mk h (by intro p hp; cases p <;> first | rfl | exact absurd (by simpa using m) hp)
theorem Within.set_sump {l : List Part} {s t : State} {v} (h : Within l s t) (m : l.contains .sump = true) : Within l s { t with sump := v } :=
  Within.mk h (by intro p hp; cases p <;> first | rfl | exact absurd (by simpa using m) hp)
theorem Within.set_link {l : List Part} {s t : State} {v} (h : Within l s t) (m : l.contains .link = true) : Within l s { t with link := v } :=
  Within.mk h (by intro p hp; cases p <;> first | rfl | exact absurd (by simpa using m) hp)
theorem Within.set_ring {l : List Part} {s t : State} {v} (h : Within l s t) (m : l.contains .ring = true) : Within l s { t with ring := v } :=
  Within.mk h (by intro p hp; cases p <;> first | rfl | exact absurd (by simpa using m) hp)
theorem Within.set_sqz {l : List Part} {s t : State} {v} (h : Within l s t) (m : l.contains .sqz = true) : Within l s { t with sqz := v } :=
  Within.mk h (by intro p hp; cases p <;> first | rfl | exact absurd (by simpa using m) hp)
theorem Within.set_saf {l : List Part} {s t : State} {v} (h : Within l s t) (m : l.contains .saf = true) : Within l s { t with saf := v } :=
  Within.mk h (by intro p hp; cases p <;> first | rfl | exact absurd (by simpa using m) hp)
theorem Within.set_ldr {l : List Part} {s t : State} {v} (h : Within l s t) (m : l.contains .ldr = true) : Within l s { t with ldr := v } :=
  Within.mk h (by intro p hp; cases p <;> first | rfl | exact absurd (by simpa using m) hp)
theorem Within.set_twi {l : List Part} {s t : State} {v} (h : Within l s t) (m : l.contains .twi = true) : Within l s { t with twi := v } :=
  Within.mk h (by intro p hp; cases p <;> first | rfl | exact absurd (by simpa using m) hp)
theorem Within.set_rtc {l : List Part} {s t : State} {v} (h : Within l s t) (m : l.contains .rtc = true) : Within l s { t with rtc := v } :=
  Within.mk h (by intro p hp; cases p <;> first | rfl | exact absurd (by simpa using m) hp)
theorem Within.set_wdt {l : List Part} {s t : State} {v} (h : Within l s t) (m : l.contains .wdt = true) : Within l s { t with wdt := v } :=
  Within.mk h (by intro p hp; cases p <;> first | rfl | exact absurd (by simpa using m) hp)
theorem Within.set_thm {l : List Part} {s t : State} {v} (h : Within l s t) (m : l.contains .thm = true) : Within l s { t with thm := v } :=
  Within.mk h (by intro p hp; cases p <;> first | rfl | exact absurd (by simpa using m) hp)
theorem Within.set_intc {l : List Part} {s t : State} {v} (h : Within l s t) (m : l.contains .intc = true) : Within l s { t with intc := v } :=
  Within.mk h (by intro p hp; cases p <;> first | rfl | exact absurd (by simpa using m) hp)
theorem Within.set_nvm {l : List Part} {s t : State} {v} (h : Within l s t) (m : l.contains .nvm = true) : Within l s { t with nvm := v } :=
  Within.mk h (by intro p hp; cases p <;> first | rfl | exact absurd (by simpa using m) hp)
theorem Within.set_acc {l : List Part} {s t : State} {v} (h : Within l s t) (m : l.contains .acc = true) : Within l s { t with acc := v } :=
  Within.mk h (by intro p hp; cases p <;> first | rfl | exact absurd (by simpa using m) hp)
theorem Within.set_fab {l : List Part} {s t : State} {v} (h : Within l s t) (m : l.contains .fab = true) : Within l s { t with fab := v } :=
  Within.mk h (by intro p hp; cases p <;> first | rfl | exact absurd (by simpa using m) hp)
theorem Within.set_shadow {l : List Part} {s t : State} {v} (h : Within l s t) (m : l.contains .shadow = true) : Within l s { t with shadow := v } :=
  Within.mk h (by intro p hp; cases p <;> first | rfl | exact absurd (by simpa using m) hp)
theorem Within.set_out {l : List Part} {s t : State} {v} (h : Within l s t) (m : l.contains .out = true) : Within l s { t with out := v } :=
  Within.mk h (by intro p hp; cases p <;> first | rfl | exact absurd (by simpa using m) hp)
theorem Within.set_free {l : List Part} {s t : State} {v} (h : Within l s t) (m : l.contains .free = true) : Within l s { t with free := v } :=
  Within.mk h (by intro p hp; cases p <;> first | rfl | exact absurd (by simpa using m) hp)
theorem Within.set_pending {l : List Part} {s t : State} {v} (h : Within l s t) (m : l.contains .pending = true) : Within l s { t with pending := v } :=
  Within.mk h (by intro p hp; cases p <;> first | rfl | exact absurd (by simpa using m) hp)

end Sys2Proof.Machine
end

