-- ==== Sys2Proof/Laws/Operations.lean ====
section
/-!
SUPPORT. One lemma for each shared operation: the parts it may change. A proof about a command cites these; none unfolds an
operation again.
-/

set_option linter.all false

namespace Sys2Proof.Machine

theorem modSeq_within {l : List Part} {u : State} {x0 : Seq → Seq} {s1 : State} (h : Within l u s1)
    (m : ([.seq] : List Part).all l.contains = true) :
    Within l u (modSeq x0 s1) := by
  refine h.andThen (m := [.seq]) ?_ m; clear h m
  unfold modSeq
  repeat' first
    | (with_reducible exact Within.refl _ _) | assumption | (with_reducible apply Within.ite)
    | (with_reducible apply Within.forEach (hf := fun _ _ => ?_)) | (with_reducible apply Within.foldl (hf := fun _ _ => ?_))
    | (with_reducible apply Within.set_seq (m := by decide)) | split | dsimp only
    | (refine Within.mk (Within.refl _ _) ?_; intro p hp; cases p <;> first | exact absurd (by decide) hp | rfl)

theorem nvmTear_within {l : List Part} {u : State} {s0 : State} (h : Within l u s0)
    (m : ([.nvm] : List Part).all l.contains = true) :
    Within l u (nvmTear s0) := by
  refine h.andThen (m := [.nvm]) ?_ m; clear h m
  unfold nvmTear
  split <;> exact Within.set_nvm (Within.refl _ _) (by decide)

theorem freeBytes_within {l : List Part} {u : State} {x0 : Nat} {s1 : State} (h : Within l u s1)
    (m : ([.free] : List Part).all l.contains = true) :
    Within l u (freeBytes x0 s1).2 := by
  refine h.andThen (m := [.free]) ?_ m; clear h m
  unfold freeBytes
  repeat' first
    | (with_reducible exact Within.refl _ _) | assumption | (with_reducible apply Within.ite)
    | (with_reducible apply Within.forEach (hf := fun _ _ => ?_)) | (with_reducible apply Within.foldl (hf := fun _ _ => ?_))
    | (with_reducible apply Within.set_free (m := by decide)) | split | dsimp only
    | (refine Within.mk (Within.refl _ _) ?_; intro p hp; cases p <;> first | exact absurd (by decide) hp | rfl)

theorem freeFuse_within {l : List Part} {u : State} {x0 : Nat} {s1 : State} (h : Within l u s1)
    (m : ([.acc, .free] : List Part).all l.contains = true) :
    Within l u (freeFuse x0 s1) := by
  refine h.andThen (m := [.acc, .free]) ?_ m; clear h m
  unfold freeFuse
  repeat' first
    | (with_reducible exact Within.refl _ _) | assumption | (with_reducible apply Within.ite)
    | (with_reducible apply freeBytes_within (m := by decide)) | (with_reducible apply Within.forEach (hf := fun _ _ => ?_))
    | (with_reducible apply Within.foldl (hf := fun _ _ => ?_)) | (with_reducible apply Within.set_acc (m := by decide)) | split
    | dsimp only | (refine Within.mk (Within.refl _ _) ?_; intro p hp; cases p <;> first | exact absurd (by decide) hp | rfl)

theorem fuseTear_within {l : List Part} {u : State} {s0 : State} (h : Within l u s0)
    (m : ([.acc, .free] : List Part).all l.contains = true) :
    Within l u (fuseTear s0) := by
  refine h.andThen (m := [.acc, .free]) ?_ m; clear h m
  unfold fuseTear
  have h0 : Within [.acc, .free] s0 { s0 with acc := { s0.acc with job := none } } := Within.set_acc (Within.refl _ _) (by decide)
  split
  · exact freeFuse_within h0 (by decide)
  · exact Within.forEach (hf := fun _ _ => freeFuse_within (Within.refl _ _) (by decide)) h0
  · exact Within.refl _ _

theorem powerTear_within {l : List Part} {u : State} {s0 : State} (h : Within l u s0)
    (m : ([.nvm, .acc, .free] : List Part).all l.contains = true) :
    Within l u (powerTear s0) := by
  refine h.andThen (m := [.nvm, .acc, .free]) ?_ m; clear h m
  unfold powerTear
  repeat' first
    | (with_reducible exact Within.refl _ _) | assumption | (with_reducible apply Within.ite)
    | (with_reducible apply nvmTear_within (m := by decide)) | (with_reducible apply fuseTear_within (m := by decide))
    | (with_reducible apply Within.forEach (hf := fun _ _ => ?_)) | (with_reducible apply Within.foldl (hf := fun _ _ => ?_))
    | split | dsimp only

theorem modRail_within {l : List Part} {u : State} {x0 : Nat} {x1 : Rail → Rail} {s2 : State} (h : Within l u s2)
    (m : ([.seq] : List Part).all l.contains = true) :
    Within l u (modRail x0 x1 s2) := by
  refine h.andThen (m := [.seq]) ?_ m; clear h m
  unfold modRail
  repeat' first
    | (with_reducible exact Within.refl _ _) | assumption | (with_reducible apply Within.ite)
    | (with_reducible apply Within.forEach (hf := fun _ _ => ?_)) | (with_reducible apply Within.foldl (hf := fun _ _ => ?_))
    | (with_reducible apply Within.set_seq (m := by decide)) | split | dsimp only
    | (refine Within.mk (Within.refl _ _) ?_; intro p hp; cases p <;> first | exact absurd (by decide) hp | rfl)

theorem modPh_within {l : List Part} {u : State} {x0 : Nat} {x1 : Phase → Phase} {s2 : State} (h : Within l u s2)
    (m : ([.ph] : List Part).all l.contains = true) :
    Within l u (modPh x0 x1 s2) := by
  refine h.andThen (m := [.ph]) ?_ m; clear h m
  unfold modPh
  repeat' first
    | (with_reducible exact Within.refl _ _) | assumption | (with_reducible apply Within.ite)
    | (with_reducible apply Within.forEach (hf := fun _ _ => ?_)) | (with_reducible apply Within.foldl (hf := fun _ _ => ?_))
    | (with_reducible apply Within.set_ph (m := by decide)) | split | dsimp only
    | (refine Within.mk (Within.refl _ _) ?_; intro p hp; cases p <;> first | exact absurd (by decide) hp | rfl)

theorem pushEvent_within {l : List Part} {u : State} {x0 : Event} {s1 : State} (h : Within l u s1)
    (m : ([.fab] : List Part).all l.contains = true) :
    Within l u (pushEvent x0 s1) := by
  refine h.andThen (m := [.fab]) ?_ m; clear h m
  unfold pushEvent
  repeat' first
    | (with_reducible exact Within.refl _ _) | assumption | (with_reducible apply Within.ite)
    | (with_reducible apply Within.forEach (hf := fun _ _ => ?_)) | (with_reducible apply Within.foldl (hf := fun _ _ => ?_))
    | (with_reducible apply Within.set_fab (m := by decide)) | split | dsimp only
    | (refine Within.mk (Within.refl _ _) ?_; intro p hp; cases p <;> first | exact absurd (by decide) hp | rfl)

theorem raiseSrc_within {l : List Part} {u : State} {x0 : Producer} {x1 : Nat} {x2 : Nat} {x3 : Nat} {x4 : Nat} {x5 : List Byte} {s6 : State} (h : Within l u s6)
    (m : ([.fab] : List Part).all l.contains = true) :
    Within l u (raiseSrc x0 x1 x2 x3 x4 x5 s6) := by
  refine h.andThen (m := [.fab]) ?_ m; clear h m
  unfold raiseSrc
  repeat' first
    | (with_reducible exact Within.refl _ _) | assumption | (with_reducible apply Within.ite)
    | (with_reducible apply pushEvent_within (m := by decide)) | (with_reducible apply Within.forEach (hf := fun _ _ => ?_))
    | (with_reducible apply Within.foldl (hf := fun _ _ => ?_)) | split | dsimp only

theorem raise_within {l : List Part} {u : State} {x0 : Producer} {x1 : Nat} {x2 : Nat} {s3 : State} (h : Within l u s3)
    (m : ([.fab] : List Part).all l.contains = true) :
    Within l u (raise x0 x1 x2 s3) := by
  refine h.andThen (m := [.fab]) ?_ m; clear h m
  unfold raise
  repeat' first
    | (with_reducible exact Within.refl _ _) | assumption | (with_reducible apply Within.ite)
    | (with_reducible apply raiseSrc_within (m := by decide)) | (with_reducible apply Within.forEach (hf := fun _ _ => ?_))
    | (with_reducible apply Within.foldl (hf := fun _ _ => ?_)) | split | dsimp only

theorem modGal_within {l : List Part} {u : State} {x0 : Nat} {x1 : Gallery → Gallery} {s2 : State} (h : Within l u s2)
    (m : ([.gal] : List Part).all l.contains = true) :
    Within l u (modGal x0 x1 s2) := by
  refine h.andThen (m := [.gal]) ?_ m; clear h m
  unfold modGal
  repeat' first
    | (with_reducible exact Within.refl _ _) | assumption | (with_reducible apply Within.ite)
    | (with_reducible apply Within.forEach (hf := fun _ _ => ?_)) | (with_reducible apply Within.foldl (hf := fun _ _ => ?_))
    | (with_reducible apply Within.set_gal (m := by decide)) | split | dsimp only
    | (refine Within.mk (Within.refl _ _) ?_; intro p hp; cases p <;> first | exact absurd (by decide) hp | rfl)

theorem modCh_within {l : List Part} {u : State} {x0 : Nat} {x1 : Channel → Channel} {s2 : State} (h : Within l u s2)
    (m : ([.ch] : List Part).all l.contains = true) :
    Within l u (modCh x0 x1 s2) := by
  refine h.andThen (m := [.ch]) ?_ m; clear h m
  unfold modCh
  repeat' first
    | (with_reducible exact Within.refl _ _) | assumption | (with_reducible apply Within.ite)
    | (with_reducible apply Within.forEach (hf := fun _ _ => ?_)) | (with_reducible apply Within.foldl (hf := fun _ _ => ?_))
    | (with_reducible apply Within.set_ch (m := by decide)) | split | dsimp only
    | (refine Within.mk (Within.refl _ _) ?_; intro p hp; cases p <;> first | exact absurd (by decide) hp | rfl)

theorem modSaf_within {l : List Part} {u : State} {x0 : Island → Island} {s1 : State} (h : Within l u s1)
    (m : ([.saf] : List Part).all l.contains = true) :
    Within l u (modSaf x0 s1) := by
  refine h.andThen (m := [.saf]) ?_ m; clear h m
  unfold modSaf
  repeat' first
    | (with_reducible exact Within.refl _ _) | assumption | (with_reducible apply Within.ite)
    | (with_reducible apply Within.forEach (hf := fun _ _ => ?_)) | (with_reducible apply Within.foldl (hf := fun _ _ => ?_))
    | (with_reducible apply Within.set_saf (m := by decide)) | split | dsimp only
    | (refine Within.mk (Within.refl _ _) ?_; intro p hp; cases p <;> first | exact absurd (by decide) hp | rfl)

theorem updateSil_within {l : List Part} {u : State} {s0 : State} (h : Within l u s0)
    (m : ([.saf] : List Part).all l.contains = true) :
    Within l u (updateSil s0) := by
  refine h.andThen (m := [.saf]) ?_ m; clear h m
  unfold updateSil
  repeat' first
    | (with_reducible exact Within.refl _ _) | assumption | (with_reducible apply Within.ite)
    | (with_reducible apply modSaf_within (m := by decide)) | (with_reducible apply Within.forEach (hf := fun _ _ => ?_))
    | (with_reducible apply Within.foldl (hf := fun _ _ => ?_)) | split | dsimp only

theorem updateWcr_within {l : List Part} {u : State} {s0 : State} (h : Within l u s0)
    (m : ([.link] : List Part).all l.contains = true) :
    Within l u (updateWcr s0) := by
  refine h.andThen (m := [.link]) ?_ m; clear h m
  unfold updateWcr
  repeat' first
    | (with_reducible exact Within.refl _ _) | assumption | (with_reducible apply Within.ite)
    | (with_reducible apply Within.forEach (hf := fun _ _ => ?_)) | (with_reducible apply Within.foldl (hf := fun _ _ => ?_))
    | (with_reducible apply Within.set_link (m := by decide)) | split | dsimp only
    | (refine Within.mk (Within.refl _ _) ?_; intro p hp; cases p <;> first | exact absurd (by decide) hp | rfl)

theorem modSump_within {l : List Part} {u : State} {x0 : Sump → Sump} {s1 : State} (h : Within l u s1)
    (m : ([.sump] : List Part).all l.contains = true) :
    Within l u (modSump x0 s1) := by
  refine h.andThen (m := [.sump]) ?_ m; clear h m
  unfold modSump
  repeat' first
    | (with_reducible exact Within.refl _ _) | assumption | (with_reducible apply Within.ite)
    | (with_reducible apply Within.forEach (hf := fun _ _ => ?_)) | (with_reducible apply Within.foldl (hf := fun _ _ => ?_))
    | (with_reducible apply Within.set_sump (m := by decide)) | split | dsimp only
    | (refine Within.mk (Within.refl _ _) ?_; intro p hp; cases p <;> first | exact absurd (by decide) hp | rfl)

theorem stopLending_within {l : List Part} {u : State} {s0 : State} (h : Within l u s0)
    (m : ([.ch, .sump] : List Part).all l.contains = true) :
    Within l u (stopLending s0) := by
  refine h.andThen (m := [.ch, .sump]) ?_ m; clear h m
  unfold stopLending forEach
  repeat' first
    | (with_reducible exact Within.refl _ _) | assumption | (with_reducible apply Within.ite)
    | (with_reducible apply modSump_within (m := by decide)) | (with_reducible apply modCh_within (m := by decide))
    | (with_reducible apply Within.forEach (hf := fun _ _ => ?_)) | (with_reducible apply Within.foldl (hf := fun _ _ => ?_))
    | split | dsimp only

theorem setSump_within {l : List Part} {u : State} {x0 : Nat} {x1 : Nat} {s2 : State} (h : Within l u s2)
    (m : ([.ch] : List Part).all l.contains = true) :
    Within l u (setSump x0 x1 s2) := by
  refine h.andThen (m := [.ch]) ?_ m; clear h m
  unfold setSump
  repeat' first
    | (with_reducible exact Within.refl _ _) | assumption | (with_reducible apply Within.ite)
    | (with_reducible apply modCh_within (m := by decide)) | (with_reducible apply Within.forEach (hf := fun _ _ => ?_))
    | (with_reducible apply Within.foldl (hf := fun _ _ => ?_)) | split | dsimp only

theorem clearSump_within {l : List Part} {u : State} {x0 : Nat} {x1 : Nat} {s2 : State} (h : Within l u s2)
    (m : ([.ch, .fab] : List Part).all l.contains = true) :
    Within l u (clearSump x0 x1 s2) := by
  refine h.andThen (m := [.ch, .fab]) ?_ m; clear h m
  unfold clearSump
  repeat' first
    | (with_reducible exact Within.refl _ _) | assumption | (with_reducible apply Within.ite)
    | (with_reducible apply raiseSrc_within (m := by decide)) | (with_reducible apply modCh_within (m := by decide))
    | (with_reducible apply Within.forEach (hf := fun _ _ => ?_)) | (with_reducible apply Within.foldl (hf := fun _ _ => ?_))
    | split | dsimp only

theorem sumpPauses_within {l : List Part} {u : State} {s0 : State} (h : Within l u s0)
    (m : ([.ch, .fab] : List Part).all l.contains = true) :
    Within l u (sumpPauses s0) := by
  refine h.andThen (m := [.ch, .fab]) ?_ m; clear h m
  unfold sumpPauses forEach
  repeat' first
    | (with_reducible exact Within.refl _ _) | assumption | (with_reducible apply Within.ite)
    | (with_reducible apply setSump_within (m := by decide)) | (with_reducible apply clearSump_within (m := by decide))
    | (with_reducible apply Within.forEach (hf := fun _ _ => ?_)) | (with_reducible apply Within.foldl (hf := fun _ _ => ?_))
    | split | dsimp only

theorem inhUpdate_within {l : List Part} {u : State} {s0 : State} (h : Within l u s0)
    (m : ([.ch, .sump, .fab] : List Part).all l.contains = true) :
    Within l u (inhUpdate s0) := by
  refine h.andThen (m := [.ch, .sump, .fab]) ?_ m; clear h m
  unfold inhUpdate
  repeat' first
    | (with_reducible exact Within.refl _ _) | assumption | (with_reducible apply Within.ite)
    | (with_reducible apply modSump_within (m := by decide)) | (with_reducible apply raise_within (m := by decide))
    | (with_reducible apply stopLending_within (m := by decide)) | (with_reducible apply sumpPauses_within (m := by decide))
    | (with_reducible apply Within.forEach (hf := fun _ _ => ?_)) | (with_reducible apply Within.foldl (hf := fun _ _ => ?_))
    | split | dsimp only

theorem cfgFollow_within {l : List Part} {u : State} {x0 : Nat} {s1 : State} (h : Within l u s1)
    (m : ([.ch, .sump, .link, .saf, .fab] : List Part).all l.contains = true) :
    Within l u (cfgFollow x0 s1) := by
  refine h.andThen (m := [.ch, .sump, .link, .saf, .fab]) ?_ m; clear h m
  unfold cfgFollow
  repeat' first
    | (with_reducible exact Within.refl _ _) | assumption | (with_reducible apply Within.ite)
    | (with_reducible apply updateSil_within (m := by decide)) | (with_reducible apply updateWcr_within (m := by decide))
    | (with_reducible apply inhUpdate_within (m := by decide)) | (with_reducible apply Within.forEach (hf := fun _ _ => ?_))
    | (with_reducible apply Within.foldl (hf := fun _ _ => ?_)) | split | dsimp only

theorem modEst_within {l : List Part} {u : State} {x0 : Nat} {x1 : Estimator → Estimator} {s2 : State} (h : Within l u s2)
    (m : ([.est] : List Part).all l.contains = true) :
    Within l u (modEst x0 x1 s2) := by
  refine h.andThen (m := [.est]) ?_ m; clear h m
  unfold modEst
  repeat' first
    | (with_reducible exact Within.refl _ _) | assumption | (with_reducible apply Within.ite)
    | (with_reducible apply Within.forEach (hf := fun _ _ => ?_)) | (with_reducible apply Within.foldl (hf := fun _ _ => ?_))
    | (with_reducible apply Within.set_est (m := by decide)) | split | dsimp only
    | (refine Within.mk (Within.refl _ _) ?_; intro p hp; cases p <;> first | exact absurd (by decide) hp | rfl)

theorem estFreeze_within {l : List Part} {u : State} {x0 : Nat} {s1 : State} (h : Within l u s1)
    (m : ([.est] : List Part).all l.contains = true) :
    Within l u (estFreeze x0 s1) := by
  refine h.andThen (m := [.est]) ?_ m; clear h m
  unfold estFreeze
  repeat' first
    | (with_reducible exact Within.refl _ _) | assumption | (with_reducible apply Within.ite)
    | (with_reducible apply modEst_within (m := by decide)) | (with_reducible apply Within.forEach (hf := fun _ _ => ?_))
    | (with_reducible apply Within.foldl (hf := fun _ _ => ?_)) | split | dsimp only

theorem midPhase_within {l : List Part} {u : State} {x0 : PhSt} {x1 : Nat} {s2 : State} (h : Within l u s2)
    (m : ([.ph] : List Part).all l.contains = true) :
    Within l u (midPhase x0 x1 s2) := by
  refine h.andThen (m := [.ph]) ?_ m; clear h m
  unfold midPhase
  repeat' first
    | (with_reducible exact Within.refl _ _) | assumption | (with_reducible apply Within.ite)
    | (with_reducible apply modPh_within (m := by decide)) | (with_reducible apply Within.forEach (hf := fun _ _ => ?_))
    | (with_reducible apply Within.foldl (hf := fun _ _ => ?_)) | split | dsimp only

theorem midChannel_within {l : List Part} {u : State} {x0 : Nat} {s1 : State} (h : Within l u s1)
    (m : ([.ph, .ch] : List Part).all l.contains = true) :
    Within l u (midChannel x0 s1) := by
  refine h.andThen (m := [.ph, .ch]) ?_ m; clear h m
  unfold midChannel forEach
  repeat' first
    | (with_reducible exact Within.refl _ _) | assumption | (with_reducible apply Within.ite)
    | (with_reducible apply midPhase_within (m := by decide)) | (with_reducible apply modCh_within (m := by decide))
    | (with_reducible apply Within.forEach (hf := fun _ _ => ?_)) | (with_reducible apply Within.foldl (hf := fun _ _ => ?_))
    | split | dsimp only

theorem updateSen_within {l : List Part} {u : State} {x0 : Nat} {s1 : State} (h : Within l u s1)
    (m : ([.ph, .gal, .ch] : List Part).all l.contains = true) :
    Within l u (updateSen x0 s1) := by
  refine h.andThen (m := [.ph, .gal, .ch]) ?_ m; clear h m
  unfold updateSen forEach
  repeat' first
    | (with_reducible exact Within.refl _ _) | assumption | (with_reducible apply Within.ite)
    | (with_reducible apply midChannel_within (m := by decide)) | (with_reducible apply midPhase_within (m := by decide))
    | (with_reducible apply modGal_within (m := by decide)) | (with_reducible apply Within.forEach (hf := fun _ _ => ?_))
    | (with_reducible apply Within.foldl (hf := fun _ _ => ?_)) | split | dsimp only

theorem updateSens_within {l : List Part} {u : State} {s0 : State} (h : Within l u s0)
    (m : ([.ph, .gal, .ch] : List Part).all l.contains = true) :
    Within l u (updateSens s0) := by
  refine h.andThen (m := [.ph, .gal, .ch]) ?_ m; clear h m
  unfold updateSens forEach
  repeat' first
    | (with_reducible exact Within.refl _ _) | assumption | (with_reducible apply Within.ite)
    | (with_reducible apply updateSen_within (m := by decide)) | (with_reducible apply Within.forEach (hf := fun _ _ => ?_))
    | (with_reducible apply Within.foldl (hf := fun _ _ => ?_)) | split | dsimp only

theorem modSqz_within {l : List Part} {u : State} {x0 : Nat} {x1 : Sqz → Sqz} {s2 : State} (h : Within l u s2)
    (m : ([.sqz] : List Part).all l.contains = true) :
    Within l u (modSqz x0 x1 s2) := by
  refine h.andThen (m := [.sqz]) ?_ m; clear h m
  unfold modSqz
  repeat' first
    | (with_reducible exact Within.refl _ _) | assumption | (with_reducible apply Within.ite)
    | (with_reducible apply Within.forEach (hf := fun _ _ => ?_)) | (with_reducible apply Within.foldl (hf := fun _ _ => ?_))
    | (with_reducible apply Within.set_sqz (m := by decide)) | split | dsimp only
    | (refine Within.mk (Within.refl _ _) ?_; intro p hp; cases p <;> first | exact absurd (by decide) hp | rfl)

theorem modRing_within {l : List Part} {u : State} {x0 : Nat} {x1 : Ring → Ring} {s2 : State} (h : Within l u s2)
    (m : ([.ring] : List Part).all l.contains = true) :
    Within l u (modRing x0 x1 s2) := by
  refine h.andThen (m := [.ring]) ?_ m; clear h m
  unfold modRing
  repeat' first
    | (with_reducible exact Within.refl _ _) | assumption | (with_reducible apply Within.ite)
    | (with_reducible apply Within.forEach (hf := fun _ _ => ?_)) | (with_reducible apply Within.foldl (hf := fun _ _ => ?_))
    | (with_reducible apply Within.set_ring (m := by decide)) | split | dsimp only
    | (refine Within.mk (Within.refl _ _) ?_; intro p hp; cases p <;> first | exact absurd (by decide) hp | rfl)

theorem raiseA_within {l : List Part} {u : State} {x0 : Producer} {x1 : Nat} {x2 : Nat} {x3 : Nat} {s4 : State} (h : Within l u s4)
    (m : ([.fab] : List Part).all l.contains = true) :
    Within l u (raiseA x0 x1 x2 x3 s4) := by
  refine h.andThen (m := [.fab]) ?_ m; clear h m
  unfold raiseA
  repeat' first
    | (with_reducible exact Within.refl _ _) | assumption | (with_reducible apply Within.ite)
    | (with_reducible apply raiseSrc_within (m := by decide)) | (with_reducible apply Within.forEach (hf := fun _ _ => ?_))
    | (with_reducible apply Within.foldl (hf := fun _ _ => ?_)) | split | dsimp only

theorem ringPush_within {l : List Part} {u : State} {x0 : Nat} {x1 : List Byte} {s2 : State} (h : Within l u s2)
    (m : ([.ring, .fab] : List Part).all l.contains = true) :
    Within l u (ringPush x0 x1 s2) := by
  refine h.andThen (m := [.ring, .fab]) ?_ m; clear h m
  unfold ringPush
  repeat' first
    | (with_reducible exact Within.refl _ _) | assumption | (with_reducible apply Within.ite)
    | (with_reducible apply raiseA_within (m := by decide)) | (with_reducible apply modRing_within (m := by decide))
    | (with_reducible apply Within.forEach (hf := fun _ _ => ?_)) | (with_reducible apply Within.foldl (hf := fun _ _ => ?_))
    | split | dsimp only

theorem ringPushN_within {l : List Part} {u : State} {x0 : Nat} {x1 : List Byte} {s2 : State} (h : Within l u s2)
    (m : ([.ring, .fab] : List Part).all l.contains = true) :
    Within l u (ringPushN x0 x1 s2) := by
  refine h.andThen (m := [.ring, .fab]) ?_ m; clear h m
  unfold ringPushN
  repeat' first
    | (with_reducible exact Within.refl _ _) | assumption | (with_reducible apply Within.ite)
    | (with_reducible apply modRing_within (m := by decide)) | (with_reducible apply ringPush_within (m := by decide))
    | (with_reducible apply Within.forEach (hf := fun _ _ => ?_)) | (with_reducible apply Within.foldl (hf := fun _ _ => ?_))
    | split | dsimp only

theorem sendBlock_within {l : List Part} {u : State} {x0 : Blk} {x1 : Nat} {x2 : Nat} {x3 : Nat} {x4 : Bool} {x5 : Bool} {s6 : State} (h : Within l u s6)
    (m : ([.ring, .sqz, .fab, .free] : List Part).all l.contains = true) :
    Within l u (sendBlock x0 x1 x2 x3 x4 x5 s6) := by
  refine h.andThen (m := [.ring, .sqz, .fab, .free]) ?_ m; clear h m
  unfold sendBlock
  repeat' first
    | (with_reducible exact Within.refl _ _) | assumption | (with_reducible apply Within.ite)
    | (with_reducible apply freeBytes_within (m := by decide)) | (with_reducible apply modSqz_within (m := by decide))
    | (with_reducible apply raise_within (m := by decide)) | (with_reducible apply ringPushN_within (m := by decide))
    | (with_reducible apply Within.forEach (hf := fun _ _ => ?_)) | (with_reducible apply Within.foldl (hf := fun _ _ => ?_))
    | split | dsimp only

theorem modFe_within {l : List Part} {u : State} {x0 : Nat} {x1 : FrontEnd → FrontEnd} {s2 : State} (h : Within l u s2)
    (m : ([.fe] : List Part).all l.contains = true) :
    Within l u (modFe x0 x1 s2) := by
  refine h.andThen (m := [.fe]) ?_ m; clear h m
  unfold modFe
  repeat' first
    | (with_reducible exact Within.refl _ _) | assumption | (with_reducible apply Within.ite)
    | (with_reducible apply Within.forEach (hf := fun _ _ => ?_)) | (with_reducible apply Within.foldl (hf := fun _ _ => ?_))
    | (with_reducible apply Within.set_fe (m := by decide)) | split | dsimp only
    | (refine Within.mk (Within.refl _ _) ?_; intro p hp; cases p <;> first | exact absurd (by decide) hp | rfl)

theorem openBlock_within {l : List Part} {u : State} {x0 : Nat} {x1 : Int} {x2 : Nat} {x3 : Bool} {s4 : State} (h : Within l u s4)
    (m : ([.fe, .sqz] : List Part).all l.contains = true) :
    Within l u (openBlock x0 x1 x2 x3 s4) := by
  refine h.andThen (m := [.fe, .sqz]) ?_ m; clear h m
  unfold openBlock
  repeat' first
    | (with_reducible exact Within.refl _ _) | assumption | (with_reducible apply Within.ite)
    | (with_reducible apply modFe_within (m := by decide)) | (with_reducible apply modSqz_within (m := by decide))
    | (with_reducible apply Within.forEach (hf := fun _ _ => ?_)) | (with_reducible apply Within.foldl (hf := fun _ _ => ?_))
    | split | dsimp only

theorem closeBlock_within {l : List Part} {u : State} {x0 : Nat} {x1 : Nat} {x2 : Bool} {x3 : Bool} {x4 : Bool} {s5 : State} (h : Within l u s5)
    (m : ([.fe, .ring, .sqz, .fab, .free] : List Part).all l.contains = true) :
    Within l u (closeBlock x0 x1 x2 x3 x4 s5) := by
  refine h.andThen (m := [.fe, .ring, .sqz, .fab, .free]) ?_ m; clear h m
  unfold closeBlock
  repeat' first
    | (with_reducible exact Within.refl _ _) | assumption | (with_reducible apply Within.ite)
    | (with_reducible apply sendBlock_within (m := by decide)) | (with_reducible apply modFe_within (m := by decide))
    | (with_reducible apply modSqz_within (m := by decide)) | (with_reducible apply modRing_within (m := by decide))
    | (with_reducible apply openBlock_within (m := by decide)) | (with_reducible apply Within.forEach (hf := fun _ _ => ?_))
    | (with_reducible apply Within.foldl (hf := fun _ _ => ?_)) | split | dsimp only

theorem closeF_within {l : List Part} {u : State} {x0 : Nat} {x1 : Bool} {s2 : State} (h : Within l u s2)
    (m : ([.gal, .ring, .fab] : List Part).all l.contains = true) :
    Within l u (closeF x0 x1 s2) := by
  refine h.andThen (m := [.gal, .ring, .fab]) ?_ m; clear h m
  unfold closeF
  repeat' first
    | (with_reducible exact Within.refl _ _) | assumption | (with_reducible apply Within.ite)
    | (with_reducible apply ringPush_within (m := by decide)) | (with_reducible apply modGal_within (m := by decide))
    | (with_reducible apply Within.forEach (hf := fun _ _ => ?_)) | (with_reducible apply Within.foldl (hf := fun _ _ => ?_))
    | split | dsimp only

theorem stopF_within {l : List Part} {u : State} {x0 : Nat} {s1 : State} (h : Within l u s1)
    (m : ([.gal, .ring, .fab] : List Part).all l.contains = true) :
    Within l u (stopF x0 s1) := by
  refine h.andThen (m := [.gal, .ring, .fab]) ?_ m; clear h m
  unfold stopF
  repeat' first
    | (with_reducible exact Within.refl _ _) | assumption | (with_reducible apply Within.ite)
    | (with_reducible apply closeF_within (m := by decide)) | (with_reducible apply modRing_within (m := by decide))
    | (with_reducible apply modGal_within (m := by decide)) | (with_reducible apply Within.forEach (hf := fun _ _ => ?_))
    | (with_reducible apply Within.foldl (hf := fun _ _ => ?_)) | split | dsimp only

theorem stopStreams_within {l : List Part} {u : State} {s0 : State} (h : Within l u s0)
    (m : ([.gal, .fe, .ring, .sqz, .fab, .free] : List Part).all l.contains = true) :
    Within l u (stopStreams s0) := by
  refine h.andThen (m := [.gal, .fe, .ring, .sqz, .fab, .free]) ?_ m; clear h m
  unfold stopStreams forEach
  repeat' first
    | (with_reducible exact Within.refl _ _) | assumption | (with_reducible apply Within.ite)
    | (with_reducible apply closeBlock_within (m := by decide)) | (with_reducible apply stopF_within (m := by decide))
    | (with_reducible apply Within.forEach (hf := fun _ _ => ?_)) | (with_reducible apply Within.foldl (hf := fun _ _ => ?_))
    | split | dsimp only

theorem abortEcho_within {l : List Part} {u : State} {x0 : Nat} {s1 : State} (h : Within l u s1)
    (m : ([.fe] : List Part).all l.contains = true) :
    Within l u (abortEcho x0 s1) := by
  refine h.andThen (m := [.fe]) ?_ m; clear h m
  unfold abortEcho
  repeat' first
    | (with_reducible exact Within.refl _ _) | assumption | (with_reducible apply Within.ite)
    | (with_reducible apply modFe_within (m := by decide)) | (with_reducible apply Within.forEach (hf := fun _ _ => ?_))
    | (with_reducible apply Within.foldl (hf := fun _ _ => ?_)) | split | dsimp only

theorem abortEchoes_within {l : List Part} {u : State} {x0 : Nat} {s1 : State} (h : Within l u s1)
    (m : ([.fe] : List Part).all l.contains = true) :
    Within l u (abortEchoes x0 s1) := by
  refine h.andThen (m := [.fe]) ?_ m; clear h m
  unfold abortEchoes forEach
  repeat' first
    | (with_reducible exact Within.refl _ _) | assumption | (with_reducible apply Within.ite)
    | (with_reducible apply abortEcho_within (m := by decide)) | (with_reducible apply Within.forEach (hf := fun _ _ => ?_))
    | (with_reducible apply Within.foldl (hf := fun _ _ => ?_)) | split | dsimp only

theorem modLdr_within {l : List Part} {u : State} {x0 : Loader → Loader} {s1 : State} (h : Within l u s1)
    (m : ([.ldr] : List Part).all l.contains = true) :
    Within l u (modLdr x0 s1) := by
  refine h.andThen (m := [.ldr]) ?_ m; clear h m
  unfold modLdr
  repeat' first
    | (with_reducible exact Within.refl _ _) | assumption | (with_reducible apply Within.ite)
    | (with_reducible apply Within.forEach (hf := fun _ _ => ?_)) | (with_reducible apply Within.foldl (hf := fun _ _ => ?_))
    | (with_reducible apply Within.set_ldr (m := by decide)) | split | dsimp only
    | (refine Within.mk (Within.refl _ _) ?_; intro p hp; cases p <;> first | exact absurd (by decide) hp | rfl)

theorem abortUpd_within {l : List Part} {u : State} {s0 : State} (h : Within l u s0)
    (m : ([.ldr] : List Part).all l.contains = true) :
    Within l u (abortUpd s0) := by
  refine h.andThen (m := [.ldr]) ?_ m; clear h m
  unfold abortUpd
  repeat' first
    | (with_reducible exact Within.refl _ _) | assumption | (with_reducible apply Within.ite)
    | (with_reducible apply modLdr_within (m := by decide)) | (with_reducible apply Within.forEach (hf := fun _ _ => ?_))
    | (with_reducible apply Within.foldl (hf := fun _ _ => ?_)) | split | dsimp only

theorem leaveService_within {l : List Part} {u : State} {s0 : State} (h : Within l u s0)
    (m : ([.saf, .acc, .fab] : List Part).all l.contains = true) :
    Within l u (leaveService s0) := by
  refine h.andThen (m := [.saf, .acc, .fab]) ?_ m; clear h m
  unfold leaveService
  repeat' first
    | (with_reducible exact Within.refl _ _) | assumption | (with_reducible apply Within.ite)
    | (with_reducible apply Within.forEach (hf := fun _ _ => ?_)) | (with_reducible apply Within.foldl (hf := fun _ _ => ?_))
    | (with_reducible apply Within.set_saf (m := by decide)) | (with_reducible apply Within.set_acc (m := by decide))
    | (with_reducible apply Within.set_fab (m := by decide)) | split | dsimp only
    | (refine Within.mk (Within.refl _ _) ?_; intro p hp; cases p <;> first | exact absurd (by decide) hp | rfl)

theorem emit_within {l : List Part} {u : State} {x0 : Out} {s1 : State} (h : Within l u s1)
    (m : ([.out] : List Part).all l.contains = true) :
    Within l u (emit x0 s1) := by
  refine h.andThen (m := [.out]) ?_ m; clear h m
  unfold emit
  repeat' first
    | (with_reducible exact Within.refl _ _) | assumption | (with_reducible apply Within.ite)
    | (with_reducible apply Within.forEach (hf := fun _ _ => ?_)) | (with_reducible apply Within.foldl (hf := fun _ _ => ?_))
    | (with_reducible apply Within.set_out (m := by decide)) | split | dsimp only
    | (refine Within.mk (Within.refl _ _) ?_; intro p hp; cases p <;> first | exact absurd (by decide) hp | rfl)

theorem startRead_within {l : List Part} {u : State} {s0 : State} (h : Within l u s0)
    (m : ([.ldr, .out] : List Part).all l.contains = true) :
    Within l u (startRead s0) := by
  refine h.andThen (m := [.ldr, .out]) ?_ m; clear h m
  unfold startRead
  repeat' first
    | (with_reducible exact Within.refl _ _) | assumption | (with_reducible apply Within.ite)
    | (with_reducible apply emit_within (m := by decide)) | (with_reducible apply modLdr_within (m := by decide))
    | (with_reducible apply Within.forEach (hf := fun _ _ => ?_)) | (with_reducible apply Within.foldl (hf := fun _ _ => ?_))
    | split | dsimp only

theorem modAcc_within {l : List Part} {u : State} {x0 : Acc → Acc} {s1 : State} (h : Within l u s1)
    (m : ([.acc] : List Part).all l.contains = true) :
    Within l u (modAcc x0 s1) := by
  refine h.andThen (m := [.acc]) ?_ m; clear h m
  unfold modAcc
  repeat' first
    | (with_reducible exact Within.refl _ _) | assumption | (with_reducible apply Within.ite)
    | (with_reducible apply Within.forEach (hf := fun _ _ => ?_)) | (with_reducible apply Within.foldl (hf := fun _ _ => ?_))
    | (with_reducible apply Within.set_acc (m := by decide)) | split | dsimp only
    | (refine Within.mk (Within.refl _ _) ?_; intro p hp; cases p <;> first | exact absurd (by decide) hp | rfl)

theorem modGrp_within {l : List Part} {u : State} {x0 : Nat} {x1 : Group → Group} {s2 : State} (h : Within l u s2)
    (m : ([.tb] : List Part).all l.contains = true) :
    Within l u (modGrp x0 x1 s2) := by
  refine h.andThen (m := [.tb]) ?_ m; clear h m
  unfold modGrp
  repeat' first
    | (with_reducible exact Within.refl _ _) | assumption | (with_reducible apply Within.ite)
    | (with_reducible apply Within.forEach (hf := fun _ _ => ?_)) | (with_reducible apply Within.foldl (hf := fun _ _ => ?_))
    | (with_reducible apply Within.set_tb (m := by decide)) | split | dsimp only
    | (refine Within.mk (Within.refl _ _) ?_; intro p hp; cases p <;> first | exact absurd (by decide) hp | rfl)

theorem groupIdle_within {l : List Part} {u : State} {x0 : Nat} {s1 : State} (h : Within l u s1)
    (m : ([.tb] : List Part).all l.contains = true) :
    Within l u (groupIdle x0 s1) := by
  refine h.andThen (m := [.tb]) ?_ m; clear h m
  unfold groupIdle
  repeat' first
    | (with_reducible exact Within.refl _ _) | assumption | (with_reducible apply Within.ite)
    | (with_reducible apply modGrp_within (m := by decide)) | (with_reducible apply Within.forEach (hf := fun _ _ => ?_))
    | (with_reducible apply Within.foldl (hf := fun _ _ => ?_)) | split | dsimp only

theorem modTc_within {l : List Part} {u : State} {x0 : Nat} {x1 : TcEnt → TcEnt} {s2 : State} (h : Within l u s2)
    (m : ([.tb] : List Part).all l.contains = true) :
    Within l u (modTc x0 x1 s2) := by
  refine h.andThen (m := [.tb]) ?_ m; clear h m
  unfold modTc
  repeat' first
    | (with_reducible exact Within.refl _ _) | assumption | (with_reducible apply Within.ite)
    | (with_reducible apply Within.forEach (hf := fun _ _ => ?_)) | (with_reducible apply Within.foldl (hf := fun _ _ => ?_))
    | (with_reducible apply Within.set_tb (m := by decide)) | split | dsimp only
    | (refine Within.mk (Within.refl _ _) ?_; intro p hp; cases p <;> first | exact absurd (by decide) hp | rfl)

theorem tcComplete_within {l : List Part} {u : State} {x0 : Nat} {x1 : Nat} {s2 : State} (h : Within l u s2)
    (m : ([.tb, .fab] : List Part).all l.contains = true) :
    Within l u (tcComplete x0 x1 s2) := by
  refine h.andThen (m := [.tb, .fab]) ?_ m; clear h m
  unfold tcComplete forEach
  repeat' first
    | (with_reducible exact Within.refl _ _) | assumption | (with_reducible apply Within.ite)
    | (with_reducible apply groupIdle_within (m := by decide)) | (with_reducible apply modTc_within (m := by decide))
    | (with_reducible apply raiseA_within (m := by decide)) | (with_reducible apply raiseSrc_within (m := by decide))
    | (with_reducible apply Within.forEach (hf := fun _ _ => ?_)) | (with_reducible apply Within.foldl (hf := fun _ _ => ?_))
    | split | dsimp only

theorem enterLoad_within {l : List Part} {u : State} {s0 : State} (h : Within l u s0)
    (m : ([.mode, .tb, .ph, .gal, .fe, .ch, .ring, .sqz, .saf, .ldr, .acc, .fab, .out, .free] : List Part).all l.contains = true) :
    Within l u (enterLoad s0) := by
  refine h.andThen (m := [.mode, .tb, .ph, .gal, .fe, .ch, .ring, .sqz, .saf, .ldr, .acc, .fab, .out, .free]) ?_ m; clear h m
  unfold enterLoad
  extract_lets s1' s2' l0 s3'
  have h1 : Within [.mode, .tb, .ph, .gal, .fe, .ch, .ring, .sqz, .saf, .ldr, .acc, .fab, .out, .free] s0 s1' := Within.forEach (hf := fun _ _ => tcComplete_within (Within.refl _ _) (by decide)) (Within.refl _ _)
  have h2 : Within [.mode, .tb, .ph, .gal, .fe, .ch, .ring, .sqz, .saf, .ldr, .acc, .fab, .out, .free] s0 s2' := Within.ite (modAcc_within (leaveService_within h1 (by decide)) (by decide)) h1
  have h3 : Within [.mode, .tb, .ph, .gal, .fe, .ch, .ring, .sqz, .saf, .ldr, .acc, .fab, .out, .free] s0 s3' :=
    abortUpd_within (stopStreams_within (Within.set_ldr (Within.set_mode h2 (by decide)) (by decide)) (by decide)) (by decide)
  exact startRead_within (updateSens_within (Within.forEach (hf := fun _ _ => abortEchoes_within (Within.refl _ _) (by decide)) h3) (by decide)) (by decide)

theorem sumpSample_within {l : List Part} {u : State} {x0 : Int} {s1 : State} (h : Within l u s1)
    (m : ([.sump] : List Part).all l.contains = true) :
    Within l u (sumpSample x0 s1) := by
  refine h.andThen (m := [.sump]) ?_ m; clear h m
  unfold sumpSample
  repeat' first
    | (with_reducible exact Within.refl _ _) | assumption | (with_reducible apply Within.ite)
    | (with_reducible apply Within.forEach (hf := fun _ _ => ?_)) | (with_reducible apply Within.foldl (hf := fun _ _ => ?_))
    | (with_reducible apply Within.set_sump (m := by decide)) | split | dsimp only
    | (refine Within.mk (Within.refl _ _) ?_; intro p hp; cases p <;> first | exact absurd (by decide) hp | rfl)

theorem allocOff_within {l : List Part} {u : State} {s0 : State} (h : Within l u s0)
    (m : ([.ch, .sump] : List Part).all l.contains = true) :
    Within l u (allocOff s0) := by
  refine h.andThen (m := [.ch, .sump]) ?_ m; clear h m
  unfold allocOff forEach
  repeat' first
    | (with_reducible exact Within.refl _ _) | assumption | (with_reducible apply Within.ite)
    | (with_reducible apply modSump_within (m := by decide)) | (with_reducible apply modCh_within (m := by decide))
    | (with_reducible apply Within.forEach (hf := fun _ _ => ?_)) | (with_reducible apply Within.foldl (hf := fun _ _ => ?_))
    | split | dsimp only

theorem nvmNext_within {l : List Part} {u : State} {s0 : State} (h : Within l u s0)
    (m : ([.nvm] : List Part).all l.contains = true) :
    Within l u (nvmNext s0) := by
  refine h.andThen (m := [.nvm]) ?_ m; clear h m
  unfold nvmNext
  apply Within.ite (Within.refl _ _)
  dsimp only
  split
  iterate 3 exact Within.set_nvm (Within.refl _ _) (by decide)
  exact Within.refl _ _

theorem nvmRequest_within {l : List Part} {u : State} {x0 : NvmReq} {s1 : State} (h : Within l u s1)
    (m : ([.nvm] : List Part).all l.contains = true) :
    Within l u (nvmRequest x0 s1) := by
  refine h.andThen (m := [.nvm]) ?_ m; clear h m
  unfold nvmRequest
  repeat' first
    | (with_reducible exact Within.refl _ _) | assumption | (with_reducible apply Within.ite)
    | (with_reducible apply nvmNext_within (m := by decide)) | (with_reducible apply Within.forEach (hf := fun _ _ => ?_))
    | (with_reducible apply Within.foldl (hf := fun _ _ => ?_)) | (with_reducible apply Within.set_nvm (m := by decide)) | split
    | dsimp only | (refine Within.mk (Within.refl _ _) ?_; intro p hp; cases p <;> first | exact absurd (by decide) hp | rfl)

theorem modLink_within {l : List Part} {u : State} {x0 : Link → Link} {s1 : State} (h : Within l u s1)
    (m : ([.link] : List Part).all l.contains = true) :
    Within l u (modLink x0 s1) := by
  refine h.andThen (m := [.link]) ?_ m; clear h m
  unfold modLink
  repeat' first
    | (with_reducible exact Within.refl _ _) | assumption | (with_reducible apply Within.ite)
    | (with_reducible apply Within.forEach (hf := fun _ _ => ?_)) | (with_reducible apply Within.foldl (hf := fun _ _ => ?_))
    | (with_reducible apply Within.set_link (m := by decide)) | split | dsimp only
    | (refine Within.mk (Within.refl _ _) ?_; intro p hp; cases p <;> first | exact absurd (by decide) hp | rfl)

theorem pzDiscard_within {l : List Part} {u : State} {s0 : State} (h : Within l u s0)
    (m : ([.link] : List Part).all l.contains = true) :
    Within l u (pzDiscard s0) := by
  refine h.andThen (m := [.link]) ?_ m; clear h m
  unfold pzDiscard
  repeat' first
    | (with_reducible exact Within.refl _ _) | assumption | (with_reducible apply Within.ite)
    | (with_reducible apply modLink_within (m := by decide)) | (with_reducible apply Within.forEach (hf := fun _ _ => ?_))
    | (with_reducible apply Within.foldl (hf := fun _ _ => ?_)) | split | dsimp only

theorem pzRaise_within {l : List Part} {u : State} {x0 : Option Nat} {x1 : Nat} {x2 : Option Nat} {s3 : State} (h : Within l u s3)
    (m : ([.fab] : List Part).all l.contains = true) :
    Within l u (pzRaise x0 x1 x2 s3) := by
  refine h.andThen (m := [.fab]) ?_ m; clear h m
  unfold pzRaise
  repeat' first
    | (with_reducible exact Within.refl _ _) | assumption | (with_reducible apply Within.ite)
    | (with_reducible apply raiseSrc_within (m := by decide)) | (with_reducible apply Within.forEach (hf := fun _ _ => ?_))
    | (with_reducible apply Within.foldl (hf := fun _ _ => ?_)) | split | dsimp only

theorem modSess_within {l : List Part} {u : State} {x0 : Nat} {x1 : Session → Session} {s2 : State} (h : Within l u s2)
    (m : ([.link] : List Part).all l.contains = true) :
    Within l u (modSess x0 x1 s2) := by
  refine h.andThen (m := [.link]) ?_ m; clear h m
  unfold modSess
  repeat' first
    | (with_reducible exact Within.refl _ _) | assumption | (with_reducible apply Within.ite)
    | (with_reducible apply modLink_within (m := by decide)) | (with_reducible apply Within.forEach (hf := fun _ _ => ?_))
    | (with_reducible apply Within.foldl (hf := fun _ _ => ?_)) | split | dsimp only

theorem modPort_within {l : List Part} {u : State} {x0 : Nat} {x1 : Port → Port} {s2 : State} (h : Within l u s2)
    (m : ([.link] : List Part).all l.contains = true) :
    Within l u (modPort x0 x1 s2) := by
  refine h.andThen (m := [.link]) ?_ m; clear h m
  unfold modPort
  repeat' first
    | (with_reducible exact Within.refl _ _) | assumption | (with_reducible apply Within.ite)
    | (with_reducible apply modLink_within (m := by decide)) | (with_reducible apply Within.forEach (hf := fun _ _ => ?_))
    | (with_reducible apply Within.foldl (hf := fun _ _ => ?_)) | split | dsimp only

theorem txFrame_within {l : List Part} {u : State} {x0 : Nat} {x1 : Bool} {x2 : Nat} {x3 : Out} {s4 : State} (h : Within l u s4)
    (m : ([.link, .out] : List Part).all l.contains = true) :
    Within l u (txFrame x0 x1 x2 x3 s4) := by
  refine h.andThen (m := [.link, .out]) ?_ m; clear h m
  unfold txFrame
  repeat' first
    | (with_reducible exact Within.refl _ _) | assumption | (with_reducible apply Within.ite)
    | (with_reducible apply modPort_within (m := by decide)) | (with_reducible apply emit_within (m := by decide))
    | (with_reducible apply Within.forEach (hf := fun _ _ => ?_)) | (with_reducible apply Within.foldl (hf := fun _ _ => ?_))
    | split | dsimp only

theorem sendUdp_within {l : List Part} {u : State} {x0 : Nat} {x1 : Nat} {x2 : Option Nat} {x3 : Nat} {x4 : Nat} {x5 : List Byte} {s6 : State} (h : Within l u s6)
    (m : ([.link, .out] : List Part).all l.contains = true) :
    Within l u (sendUdp x0 x1 x2 x3 x4 x5 s6) := by
  refine h.andThen (m := [.link, .out]) ?_ m; clear h m
  unfold sendUdp
  repeat' first
    | (with_reducible exact Within.refl _ _) | assumption | (with_reducible apply Within.ite)
    | (with_reducible apply txFrame_within (m := by decide)) | (with_reducible apply Within.forEach (hf := fun _ _ => ?_))
    | (with_reducible apply Within.foldl (hf := fun _ _ => ?_)) | split | dsimp only

theorem pzSend_within {l : List Part} {u : State} {x0 : Endpoint} {x1 : List Byte} {s2 : State} (h : Within l u s2)
    (m : ([.link, .out] : List Part).all l.contains = true) :
    Within l u (pzSend x0 x1 s2) := by
  refine h.andThen (m := [.link, .out]) ?_ m; clear h m
  unfold pzSend
  repeat' first
    | (with_reducible exact Within.refl _ _) | assumption | (with_reducible apply Within.ite)
    | (with_reducible apply sendUdp_within (m := by decide)) | (with_reducible apply Within.forEach (hf := fun _ _ => ?_))
    | (with_reducible apply Within.foldl (hf := fun _ _ => ?_)) | split | dsimp only

theorem pzAnswer_within {l : List Part} {u : State} {x0 : Endpoint} {x1 : Nat} {x2 : Nat} {x3 : Nat} {x4 : Nat} {x5 : List Byte} {s6 : State} (h : Within l u s6)
    (m : ([.link, .out] : List Part).all l.contains = true) :
    Within l u (pzAnswer x0 x1 x2 x3 x4 x5 s6) := by
  refine h.andThen (m := [.link, .out]) ?_ m; clear h m
  unfold pzAnswer
  repeat' first
    | (with_reducible exact Within.refl _ _) | assumption | (with_reducible apply Within.ite)
    | (with_reducible apply modSess_within (m := by decide)) | (with_reducible apply pzSend_within (m := by decide))
    | (with_reducible apply Within.forEach (hf := fun _ _ => ?_)) | (with_reducible apply Within.foldl (hf := fun _ _ => ?_))
    | split | dsimp only

/-- The state an answer carries. -/
def PzAns.st : PzAns → State
  | .ok _ s | .refuse _ _ s | .failed _ s | .later s => s

theorem pzDone_within {l : List Part} {u : State} {ep i ty sq a} (h :
    Within l u (PzAns.st a)) (m : ([.link, .fab, .out] : List Part).all l.contains = true) :
    Within l u (pzDone ep i ty sq a) := by
  refine h.andThen (m := [.link, .fab, .out]) ?_ m
  unfold pzDone
  cases a
  · exact pzAnswer_within (Within.refl _ _) (by decide)
  · exact pzAnswer_within (pzRaise_within (Within.refl _ _) (by decide)) (by decide)
  · exact pzAnswer_within (Within.refl _ _) (by decide)
  · exact modSess_within (Within.refl _ _) (by decide)

theorem pzRequest_within {l : List Part} {u s : State} {ep b during form least f} (hf : ∀ i x p t, Within l t (PzAns.st (f i x p t)))
    (h : Within l u s)
    (m : ([.link, .fab, .out] : List Part).all l.contains = true) :
    Within l u (pzRequest ep b during form least f s) := by
  unfold pzRequest
  apply Within.ite h
  split
  · exact pzDiscard_within h (by simp at m ⊢; tauto)
  · split
    · exact h
    · apply Within.ite (pzDiscard_within h (by simp at m ⊢; tauto))
      dsimp only
      have hs (i f t) (ht : Within l u t) : Within l u (modSess i f t) := modSess_within ht (by simp at m ⊢; tauto)
      have hl (f t) (ht : Within l u t) : Within l u (modLink f t) := modLink_within ht (by simp at m ⊢; tauto)
      have hp (e x t) (ht : Within l u t) : Within l u (pzSend e x t) := pzSend_within ht (by simp at m ⊢; tauto)
      have hr (a b c t) (ht : Within l u t) : Within l u (pzRaise a b c t) := pzRaise_within ht (by simp at m ⊢; tauto)
      apply Within.ite (hs _ _ _ h)
      apply Within.ite (hl _ _ (hs _ _ _ h))
      apply Within.ite
      · split
        · exact hp _ _ _ (hs _ _ _ h)
        · exact hs _ _ _ h
      · apply Within.ite (hp _ _ _ (hr _ _ _ _ (hl _ _ (hs _ _ _ h))))
        apply Within.ite (pzDone_within (a := .refuse ..) (hs _ _ _ (hs _ _ _ h)) m)
        apply Within.ite (pzDone_within (a := .refuse ..) (hs _ _ _ (hs _ _ _ h)) m)
        exact pzDone_within (fun p hp => Part.same_trans (hs _ _ _ (hs _ _ _ h) p hp) (hf _ _ _ _ p hp)) m

theorem pzFrame_within {l : List Part} {u : State} {x0 : Endpoint} {x1 : List Byte} {s2 : State} (h : Within l u s2)
    (m : ([.link, .fab, .out] : List Part).all l.contains = true) :
    Within l u (pzFrame x0 x1 s2) := by
  refine h.andThen (m := [.link, .fab, .out]) ?_ m; clear h m
  unfold pzFrame
  apply Within.ite (Within.refl _ _)
  apply Within.ite (pzDiscard_within (Within.refl _ _) (by decide))
  apply Within.ite (Within.refl _ _)
  exact pzRequest_within (fun _ _ _ _ => Within.refl _ _) (Within.refl _ _) (by decide)

theorem readmitMore_within {l : List Part} {u : State} {x0 : Nat} {x1 : Nat} {s2 : State} (h : Within l u s2)
    (m : ([.ph, .ch] : List Part).all l.contains = true) :
    Within l u (readmitMore x0 x1 s2) := by
  refine h.andThen (m := [.ph, .ch]) ?_ m; clear h m
  induction x1 generalizing s2 with
  | zero => exact Within.refl _ _
  | succ n ih =>
    unfold readmitMore
    apply Within.ite
    · split
      · exact Within.andThen (l := [.ph, .ch]) (m := [.ph, .ch]) (modPh_within (modCh_within (Within.refl _ _) (by decide)) (by decide)) ih (by decide)
      · exact Within.refl _ _
    · exact Within.refl _ _

theorem setShare_within {l : List Part} {u : State} {x0 : Nat} {x1 : Int} {s2 : State} (h : Within l u s2)
    (m : ([.ph] : List Part).all l.contains = true) :
    Within l u (setShare x0 x1 s2) := by
  refine h.andThen (m := [.ph]) ?_ m; clear h m
  unfold setShare
  repeat' first
    | (with_reducible exact Within.refl _ _) | assumption | (with_reducible apply Within.ite)
    | (with_reducible apply modPh_within (m := by decide)) | (with_reducible apply Within.forEach (hf := fun _ _ => ?_))
    | (with_reducible apply Within.foldl (hf := fun _ _ => ?_)) | split | dsimp only

theorem shareEqual_within {l : List Part} {u : State} {x0 : Nat} {s1 : State} (h : Within l u s1)
    (m : ([.ph] : List Part).all l.contains = true) :
    Within l u (shareEqual x0 s1) := by
  refine h.andThen (m := [.ph]) ?_ m; clear h m
  unfold shareEqual
  repeat' first
    | (with_reducible exact Within.refl _ _) | assumption | (with_reducible apply Within.ite)
    | (with_reducible apply setShare_within (m := by decide)) | (with_reducible apply Within.forEach (hf := fun _ _ => ?_))
    | (with_reducible apply Within.foldl (hf := fun _ _ => ?_)) | split | dsimp only

theorem readmit_within {l : List Part} {u : State} {x0 : Nat} {s1 : State} (h : Within l u s1)
    (m : ([.ph, .ch] : List Part).all l.contains = true) :
    Within l u (readmit x0 s1) := by
  refine h.andThen (m := [.ph, .ch]) ?_ m; clear h m
  unfold readmit
  repeat' first
    | (with_reducible exact Within.refl _ _) | assumption | (with_reducible apply Within.ite)
    | (with_reducible apply readmitMore_within (m := by decide)) | (with_reducible apply shareEqual_within (m := by decide))
    | (with_reducible apply Within.forEach (hf := fun _ _ => ?_)) | (with_reducible apply Within.foldl (hf := fun _ _ => ?_))
    | split | dsimp only

theorem railOn_within {l : List Part} {u : State} {x0 : Nat} {s1 : State} (h : Within l u s1)
    (m : ([.seq] : List Part).all l.contains = true) :
    Within l u (railOn x0 s1) := by
  refine h.andThen (m := [.seq]) ?_ m; clear h m
  unfold railOn
  repeat' first
    | (with_reducible exact Within.refl _ _) | assumption | (with_reducible apply Within.ite)
    | (with_reducible apply modSeq_within (m := by decide)) | (with_reducible apply modRail_within (m := by decide))
    | (with_reducible apply Within.forEach (hf := fun _ _ => ?_)) | (with_reducible apply Within.foldl (hf := fun _ _ => ?_))
    | split | dsimp only

theorem pushLog_within {l : List Part} {u : State} {x0 : Nat} {x1 : Nat} {x2 : List Byte} {s3 : State} (h : Within l u s3)
    (m : ([.ring, .fab] : List Part).all l.contains = true) :
    Within l u (pushLog x0 x1 x2 s3) := by
  refine h.andThen (m := [.ring, .fab]) ?_ m; clear h m
  unfold pushLog
  repeat' first
    | (with_reducible exact Within.refl _ _) | assumption | (with_reducible apply Within.ite)
    | (with_reducible apply ringPush_within (m := by decide)) | (with_reducible apply Within.forEach (hf := fun _ _ => ?_))
    | (with_reducible apply Within.foldl (hf := fun _ _ => ?_)) | split | dsimp only

theorem endPause_within {l : List Part} {u : State} {x0 : Nat} {s1 : State} (h : Within l u s1)
    (m : ([.ch, .ring, .fab] : List Part).all l.contains = true) :
    Within l u (endPause x0 s1) := by
  refine h.andThen (m := [.ch, .ring, .fab]) ?_ m; clear h m
  unfold endPause
  repeat' first
    | (with_reducible exact Within.refl _ _) | assumption | (with_reducible apply Within.ite)
    | (with_reducible apply pushLog_within (m := by decide)) | (with_reducible apply modCh_within (m := by decide))
    | (with_reducible apply Within.forEach (hf := fun _ _ => ?_)) | (with_reducible apply Within.foldl (hf := fun _ _ => ?_))
    | split | dsimp only

theorem clearRun_within {l : List Part} {u : State} {x0 : Nat} {s1 : State} (h : Within l u s1)
    (m : ([.ch, .ring, .fab] : List Part).all l.contains = true) :
    Within l u (clearRun x0 s1) := by
  refine h.andThen (m := [.ch, .ring, .fab]) ?_ m; clear h m
  unfold clearRun
  repeat' first
    | (with_reducible exact Within.refl _ _) | assumption | (with_reducible apply Within.ite)
    | (with_reducible apply endPause_within (m := by decide)) | (with_reducible apply clearSump_within (m := by decide))
    | (with_reducible apply modCh_within (m := by decide)) | (with_reducible apply Within.forEach (hf := fun _ _ => ?_))
    | (with_reducible apply Within.foldl (hf := fun _ _ => ?_)) | split | dsimp only

theorem clearOpenLoad_within {l : List Part} {u : State} {x0 : Nat} {s1 : State} (h : Within l u s1)
    (m : ([.ph] : List Part).all l.contains = true) :
    Within l u (clearOpenLoad x0 s1) := by
  refine h.andThen (m := [.ph]) ?_ m; clear h m
  unfold clearOpenLoad forEach
  repeat' first
    | (with_reducible exact Within.refl _ _) | assumption | (with_reducible apply Within.ite)
    | (with_reducible apply modPh_within (m := by decide)) | (with_reducible apply Within.forEach (hf := fun _ _ => ?_))
    | (with_reducible apply Within.foldl (hf := fun _ _ => ?_)) | split | dsimp only

theorem openDisc_within {l : List Part} {u : State} {x0 : Nat} {s1 : State} (h : Within l u s1)
    (m : ([.ch] : List Part).all l.contains = true) :
    Within l u (openDisc x0 s1) := by
  refine h.andThen (m := [.ch]) ?_ m; clear h m
  unfold openDisc
  repeat' first
    | (with_reducible exact Within.refl _ _) | assumption | (with_reducible apply Within.ite)
    | (with_reducible apply modCh_within (m := by decide)) | (with_reducible apply Within.forEach (hf := fun _ _ => ?_))
    | (with_reducible apply Within.foldl (hf := fun _ _ => ?_)) | split | dsimp only

theorem safeChannel_within {l : List Part} {u : State} {x0 : Nat} {s1 : State} (h : Within l u s1)
    (m : ([.ph, .ch] : List Part).all l.contains = true) :
    Within l u (safeChannel x0 s1) := by
  refine h.andThen (m := [.ph, .ch]) ?_ m; clear h m
  unfold safeChannel
  repeat' first
    | (with_reducible exact Within.refl _ _) | assumption | (with_reducible apply Within.ite)
    | (with_reducible apply midChannel_within (m := by decide)) | (with_reducible apply openDisc_within (m := by decide))
    | (with_reducible apply Within.forEach (hf := fun _ _ => ?_)) | (with_reducible apply Within.foldl (hf := fun _ _ => ?_))
    | split | dsimp only

theorem toIdle_within {l : List Part} {u : State} {x0 : Nat} {s1 : State} (h : Within l u s1)
    (m : ([.ph, .ch, .ring, .fab] : List Part).all l.contains = true) :
    Within l u (toIdle x0 s1) := by
  refine h.andThen (m := [.ph, .ch, .ring, .fab]) ?_ m; clear h m
  unfold toIdle
  repeat' first
    | (with_reducible exact Within.refl _ _) | assumption | (with_reducible apply Within.ite)
    | (with_reducible apply clearRun_within (m := by decide)) | (with_reducible apply clearOpenLoad_within (m := by decide))
    | (with_reducible apply modCh_within (m := by decide)) | (with_reducible apply safeChannel_within (m := by decide))
    | (with_reducible apply Within.forEach (hf := fun _ _ => ?_)) | (with_reducible apply Within.foldl (hf := fun _ _ => ?_))
    | split | dsimp only

theorem setRange_within {l : List Part} {u : State} {x0 : Nat} {x1 : Nat} {s2 : State} (h : Within l u s2)
    (m : ([.fe] : List Part).all l.contains = true) :
    Within l u (setRange x0 x1 s2) := by
  refine h.andThen (m := [.fe]) ?_ m; clear h m
  unfold setRange forEach
  repeat' first
    | (with_reducible exact Within.refl _ _) | assumption | (with_reducible apply Within.ite)
    | (with_reducible apply modFe_within (m := by decide)) | (with_reducible apply Within.forEach (hf := fun _ _ => ?_))
    | (with_reducible apply Within.foldl (hf := fun _ _ => ?_)) | split | dsimp only

theorem stopReg_within {l : List Part} {u : State} {x0 : Nat} {s1 : State} (h : Within l u s1)
    (m : ([.ch] : List Part).all l.contains = true) :
    Within l u (stopReg x0 s1) := by
  refine h.andThen (m := [.ch]) ?_ m; clear h m
  unfold stopReg
  repeat' first
    | (with_reducible exact Within.refl _ _) | assumption | (with_reducible apply Within.ite)
    | (with_reducible apply modCh_within (m := by decide)) | (with_reducible apply Within.forEach (hf := fun _ _ => ?_))
    | (with_reducible apply Within.foldl (hf := fun _ _ => ?_)) | split | dsimp only

theorem enterStep_within {l : List Part} {u : State} {x0 : Nat} {x1 : Nat} {x2 : Option Sp} {s3 : State} (h : Within l u s3)
    (m : ([.fe, .ch] : List Part).all l.contains = true) :
    Within l u (enterStep x0 x1 x2 s3) := by
  refine h.andThen (m := [.fe, .ch]) ?_ m; clear h m
  unfold enterStep
  repeat' first
    | (with_reducible exact Within.refl _ _) | assumption | (with_reducible apply Within.ite)
    | (with_reducible apply setRange_within (m := by decide)) | (with_reducible apply stopReg_within (m := by decide))
    | (with_reducible apply modCh_within (m := by decide)) | (with_reducible apply Within.forEach (hf := fun _ _ => ?_))
    | (with_reducible apply Within.foldl (hf := fun _ _ => ?_)) | split | dsimp only

theorem takeDefRange_within {l : List Part} {u : State} {x0 : Nat} {s1 : State} (h : Within l u s1)
    (m : ([.fe, .ch] : List Part).all l.contains = true) :
    Within l u (takeDefRange x0 s1) := by
  refine h.andThen (m := [.fe, .ch]) ?_ m; clear h m
  unfold takeDefRange
  repeat' first
    | (with_reducible exact Within.refl _ _) | assumption | (with_reducible apply Within.ite)
    | (with_reducible apply setRange_within (m := by decide)) | (with_reducible apply modCh_within (m := by decide))
    | (with_reducible apply Within.forEach (hf := fun _ _ => ?_)) | (with_reducible apply Within.foldl (hf := fun _ _ => ?_))
    | split | dsimp only

theorem modTwi_within {l : List Part} {u : State} {x0 : Twi → Twi} {s1 : State} (h : Within l u s1)
    (m : ([.twi] : List Part).all l.contains = true) :
    Within l u (modTwi x0 s1) := by
  refine h.andThen (m := [.twi]) ?_ m; clear h m
  unfold modTwi
  repeat' first
    | (with_reducible exact Within.refl _ _) | assumption | (with_reducible apply Within.ite)
    | (with_reducible apply Within.forEach (hf := fun _ _ => ?_)) | (with_reducible apply Within.foldl (hf := fun _ _ => ?_))
    | (with_reducible apply Within.set_twi (m := by decide)) | split | dsimp only
    | (refine Within.mk (Within.refl _ _) ?_; intro p hp; cases p <;> first | exact absurd (by decide) hp | rfl)

theorem hostReset_within {l : List Part} {u : State} {s0 : State} (h : Within l u s0)
    (m : ([.seq] : List Part).all l.contains = true) :
    Within l u (hostReset s0) := by
  refine h.andThen (m := [.seq]) ?_ m; clear h m
  unfold hostReset
  repeat' first
    | (with_reducible exact Within.refl _ _) | assumption | (with_reducible apply Within.ite)
    | (with_reducible apply modSeq_within (m := by decide)) | (with_reducible apply Within.forEach (hf := fun _ _ => ?_))
    | (with_reducible apply Within.foldl (hf := fun _ _ => ?_)) | split | dsimp only

theorem setCfg_within {l : List Part} {u : State} {x0 : Nat} {x1 : Word} {s2 : State} (h : Within l u s2)
    (m : ([.regs] : List Part).all l.contains = true) :
    Within l u (setCfg x0 x1 s2) := by
  refine h.andThen (m := [.regs]) ?_ m; clear h m
  unfold setCfg
  repeat' first
    | (with_reducible exact Within.refl _ _) | assumption | (with_reducible apply Within.ite)
    | (with_reducible apply Within.forEach (hf := fun _ _ => ?_)) | (with_reducible apply Within.foldl (hf := fun _ _ => ?_))
    | (with_reducible apply Within.set_regs (m := by decide)) | split | dsimp only
    | (refine Within.mk (Within.refl _ _) ?_; intro p hp; cases p <;> first | exact absurd (by decide) hp | rfl)

theorem modRtc_within {l : List Part} {u : State} {x0 : Rtc → Rtc} {s1 : State} (h : Within l u s1)
    (m : ([.rtc] : List Part).all l.contains = true) :
    Within l u (modRtc x0 s1) := by
  refine h.andThen (m := [.rtc]) ?_ m; clear h m
  unfold modRtc
  repeat' first
    | (with_reducible exact Within.refl _ _) | assumption | (with_reducible apply Within.ite)
    | (with_reducible apply Within.forEach (hf := fun _ _ => ?_)) | (with_reducible apply Within.foldl (hf := fun _ _ => ?_))
    | (with_reducible apply Within.set_rtc (m := by decide)) | split | dsimp only
    | (refine Within.mk (Within.refl _ _) ?_; intro p hp; cases p <;> first | exact absurd (by decide) hp | rfl)

theorem writeRtcPwake_within {l : List Part} {u : State} {x0 : Word} {s1 : State} (h : Within l u s1)
    (m : ([.regs, .rtc] : List Part).all l.contains = true) :
    Within l u (writeRtcPwake x0 s1) := by
  refine h.andThen (m := [.regs, .rtc]) ?_ m; clear h m
  unfold writeRtcPwake
  repeat' first
    | (with_reducible exact Within.refl _ _) | assumption | (with_reducible apply Within.ite)
    | (with_reducible apply setCfg_within (m := by decide)) | (with_reducible apply modRtc_within (m := by decide))
    | (with_reducible apply Within.forEach (hf := fun _ _ => ?_)) | (with_reducible apply Within.foldl (hf := fun _ _ => ?_))
    | split | dsimp only

theorem cancelShed_within {l : List Part} {u : State} {x0 : Nat} {s1 : State} (h : Within l u s1)
    (m : ([.ph] : List Part).all l.contains = true) :
    Within l u (cancelShed x0 s1) := by
  refine h.andThen (m := [.ph]) ?_ m; clear h m
  unfold cancelShed
  repeat' first
    | (with_reducible exact Within.refl _ _) | assumption | (with_reducible apply Within.ite)
    | (with_reducible apply shareEqual_within (m := by decide)) | (with_reducible apply modPh_within (m := by decide))
    | (with_reducible apply Within.forEach (hf := fun _ _ => ?_)) | (with_reducible apply Within.foldl (hf := fun _ _ => ?_))
    | split | dsimp only

theorem demandEvent_within {l : List Part} {u : State} {x0 : Nat} {s1 : State} (h : Within l u s1)
    (m : ([.ph, .ch] : List Part).all l.contains = true) :
    Within l u (demandEvent x0 s1) := by
  refine h.andThen (m := [.ph, .ch]) ?_ m; clear h m
  unfold demandEvent
  repeat' first
    | (with_reducible exact Within.refl _ _) | assumption | (with_reducible apply Within.ite)
    | (with_reducible apply cancelShed_within (m := by decide)) | (with_reducible apply modCh_within (m := by decide))
    | (with_reducible apply Within.forEach (hf := fun _ _ => ?_)) | (with_reducible apply Within.foldl (hf := fun _ _ => ?_))
    | split | dsimp only

theorem strikeShed_within {l : List Part} {u : State} {x0 : Nat} {x1 : Reg} {x2 : RegStage} {s3 : State} (h : Within l u s3)
    (m : ([.ph, .ch] : List Part).all l.contains = true) :
    Within l u (strikeShed x0 x1 x2 s3) := by
  refine h.andThen (m := [.ph, .ch]) ?_ m; clear h m
  unfold strikeShed
  repeat' first
    | (with_reducible exact Within.refl _ _) | assumption | (with_reducible apply Within.ite)
    | (with_reducible apply cancelShed_within (m := by decide)) | (with_reducible apply readmit_within (m := by decide))
    | (with_reducible apply demandEvent_within (m := by decide)) | (with_reducible apply modCh_within (m := by decide))
    | (with_reducible apply Within.forEach (hf := fun _ _ => ?_)) | (with_reducible apply Within.foldl (hf := fun _ _ => ?_))
    | split | dsimp only

theorem raiseAt_within {l : List Part} {u : State} {x0 : Producer} {x1 : Nat} {x2 : Nat} {x3 : Nat} {x4 : Nat} {s5 : State} (h : Within l u s5)
    (m : ([.fab] : List Part).all l.contains = true) :
    Within l u (raiseAt x0 x1 x2 x3 x4 s5) := by
  refine h.andThen (m := [.fab]) ?_ m; clear h m
  unfold raiseAt
  repeat' first
    | (with_reducible exact Within.refl _ _) | assumption | (with_reducible apply Within.ite)
    | (with_reducible apply raiseSrc_within (m := by decide)) | (with_reducible apply Within.forEach (hf := fun _ _ => ?_))
    | (with_reducible apply Within.foldl (hf := fun _ _ => ?_)) | split | dsimp only

theorem zeroGrants_within {l : List Part} {u : State} {s0 : State} (h : Within l u s0)
    (m : ([.ch] : List Part).all l.contains = true) :
    Within l u (zeroGrants s0) := by
  refine h.andThen (m := [.ch]) ?_ m; clear h m
  unfold zeroGrants forEach
  repeat' first
    | (with_reducible exact Within.refl _ _) | assumption | (with_reducible apply Within.ite)
    | (with_reducible apply modCh_within (m := by decide)) | (with_reducible apply Within.forEach (hf := fun _ _ => ?_))
    | (with_reducible apply Within.foldl (hf := fun _ _ => ?_)) | split | dsimp only

theorem goMode_within {l : List Part} {u : State} {x0 : Mode} {s1 : State} (h : Within l u s1)
    (m : ([.mode, .ch] : List Part).all l.contains = true) :
    Within l u (goMode x0 s1) := by
  refine h.andThen (m := [.mode, .ch]) ?_ m; clear h m
  unfold goMode
  repeat' first
    | (with_reducible exact Within.refl _ _) | assumption | (with_reducible apply Within.ite)
    | (with_reducible apply zeroGrants_within (m := by decide)) | (with_reducible apply Within.forEach (hf := fun _ _ => ?_))
    | (with_reducible apply Within.foldl (hf := fun _ _ => ?_)) | (with_reducible apply Within.set_mode (m := by decide)) | split
    | dsimp only | (refine Within.mk (Within.refl _ _) ?_; intro p hp; cases p <;> first | exact absurd (by decide) hp | rfl)

theorem abortAll_within {l : List Part} {u : State} {s0 : State} (h : Within l u s0)
    (m : ([.fe] : List Part).all l.contains = true) :
    Within l u (abortAll s0) := by
  refine h.andThen (m := [.fe]) ?_ m; clear h m
  unfold abortAll forEach
  repeat' first
    | (with_reducible exact Within.refl _ _) | assumption | (with_reducible apply Within.ite)
    | (with_reducible apply abortEcho_within (m := by decide)) | (with_reducible apply Within.forEach (hf := fun _ _ => ?_))
    | (with_reducible apply Within.foldl (hf := fun _ _ => ?_)) | split | dsimp only

theorem exitService_within {l : List Part} {u : State} {s0 : State} (h : Within l u s0)
    (m : ([.mode, .ph, .gal, .fe, .ch, .link, .saf, .acc, .fab] : List Part).all l.contains = true) :
    Within l u (exitService s0) := by
  refine h.andThen (m := [.mode, .ph, .gal, .fe, .ch, .link, .saf, .acc, .fab]) ?_ m; clear h m
  unfold exitService
  repeat' first
    | (with_reducible exact Within.refl _ _) | assumption | (with_reducible apply Within.ite)
    | (with_reducible apply updateSens_within (m := by decide)) | (with_reducible apply goMode_within (m := by decide))
    | (with_reducible apply modLink_within (m := by decide)) | (with_reducible apply abortAll_within (m := by decide))
    | (with_reducible apply leaveService_within (m := by decide)) | (with_reducible apply raise_within (m := by decide))
    | (with_reducible apply modAcc_within (m := by decide)) | (with_reducible apply Within.forEach (hf := fun _ _ => ?_))
    | (with_reducible apply Within.foldl (hf := fun _ _ => ?_)) | split | dsimp only

theorem abandonEnter_within {l : List Part} {u : State} {s0 : State} (h : Within l u s0)
    (m : ([.tb, .acc] : List Part).all l.contains = true) :
    Within l u (abandonEnter s0) := by
  refine h.andThen (m := [.tb, .acc]) ?_ m; clear h m
  unfold abandonEnter
  repeat' first
    | (with_reducible exact Within.refl _ _) | assumption | (with_reducible apply Within.ite)
    | (with_reducible apply modAcc_within (m := by decide)) | (with_reducible apply Within.forEach (hf := fun _ _ => ?_))
    | (with_reducible apply Within.foldl (hf := fun _ _ => ?_)) | (with_reducible apply Within.set_tb (m := by decide)) | split
    | dsimp only | (refine Within.mk (Within.refl _ _) ?_; intro p hp; cases p <;> first | exact absurd (by decide) hp | rfl)

theorem dropSession_within {l : List Part} {u : State} {x0 : Nat} {s1 : State} (h : Within l u s1)
    (m : ([.tb, .link, .ring, .ldr, .acc] : List Part).all l.contains = true) :
    Within l u (dropSession x0 s1) := by
  refine h.andThen (m := [.tb, .link, .ring, .ldr, .acc]) ?_ m; clear h m
  unfold dropSession forEach
  repeat' first
    | (with_reducible exact Within.refl _ _) | assumption | (with_reducible apply Within.ite)
    | (with_reducible apply modLink_within (m := by decide)) | (with_reducible apply modRing_within (m := by decide))
    | (with_reducible apply abandonEnter_within (m := by decide)) | (with_reducible apply Within.forEach (hf := fun _ _ => ?_))
    | (with_reducible apply Within.foldl (hf := fun _ _ => ?_)) | (with_reducible apply Within.set_ldr (m := by decide)) | split
    | dsimp only | (refine Within.mk (Within.refl _ _) ?_; intro p hp; cases p <;> first | exact absurd (by decide) hp | rfl)

theorem closeSession_within {l : List Part} {u : State} {x0 : Nat} {x1 : Bool} {s2 : State} (h : Within l u s2)
    (m : ([.mode, .tb, .ph, .gal, .fe, .ch, .link, .ring, .saf, .ldr, .acc, .fab] : List Part).all l.contains = true) :
    Within l u (closeSession x0 x1 s2) := by
  refine h.andThen (m := [.mode, .tb, .ph, .gal, .fe, .ch, .link, .ring, .saf, .ldr, .acc, .fab]) ?_ m; clear h m
  unfold closeSession
  repeat' first
    | (with_reducible exact Within.refl _ _) | assumption | (with_reducible apply Within.ite)
    | (with_reducible apply raiseAt_within (m := by decide)) | (with_reducible apply modLink_within (m := by decide))
    | (with_reducible apply exitService_within (m := by decide)) | (with_reducible apply dropSession_within (m := by decide))
    | (with_reducible apply Within.forEach (hf := fun _ _ => ?_)) | (with_reducible apply Within.foldl (hf := fun _ _ => ?_))
    | split | dsimp only

theorem raiseReg_within {l : List Part} {u : State} {x0 : Nat} {x1 : Nat} {s2 : State} (h : Within l u s2)
    (m : ([.fab] : List Part).all l.contains = true) :
    Within l u (raiseReg x0 x1 s2) := by
  refine h.andThen (m := [.fab]) ?_ m; clear h m
  unfold raiseReg
  repeat' first
    | (with_reducible exact Within.refl _ _) | assumption | (with_reducible apply Within.ite)
    | (with_reducible apply raiseA_within (m := by decide)) | (with_reducible apply Within.forEach (hf := fun _ _ => ?_))
    | (with_reducible apply Within.foldl (hf := fun _ _ => ?_)) | split | dsimp only

theorem lockedOut_within {l : List Part} {u : State} {x0 : Nat} {s1 : State} (h : Within l u s1)
    (m : ([.fab] : List Part).all l.contains = true) :
    Within l u (lockedOut x0 s1) := by
  refine h.andThen (m := [.fab]) ?_ m; clear h m
  unfold lockedOut
  repeat' first
    | (with_reducible exact Within.refl _ _) | assumption | (with_reducible apply Within.ite)
    | (with_reducible apply raiseReg_within (m := by decide)) | (with_reducible apply Within.forEach (hf := fun _ _ => ?_))
    | (with_reducible apply Within.foldl (hf := fun _ _ => ?_)) | split | dsimp only

theorem putCfg_within {l : List Part} {u : State} {x0 : Nat} {x1 : RegHit} {x2 : Word} {s3 : State} (h : Within l u s3)
    (m : ([.regs, .ch, .sump, .link, .saf, .fab] : List Part).all l.contains = true) :
    Within l u (putCfg x0 x1 x2 s3) := by
  refine h.andThen (m := [.regs, .ch, .sump, .link, .saf, .fab]) ?_ m; clear h m
  unfold putCfg
  repeat' first
    | (with_reducible exact Within.refl _ _) | assumption | (with_reducible apply Within.ite)
    | (with_reducible apply setCfg_within (m := by decide)) | (with_reducible apply cfgFollow_within (m := by decide))
    | (with_reducible apply Within.forEach (hf := fun _ _ => ?_)) | (with_reducible apply Within.foldl (hf := fun _ _ => ?_))
    | split | dsimp only

theorem writeCfg_within {l : List Part} {u : State} {x0 : Nat} {x1 : RegHit} {x2 : Word} {s3 : State} (h : Within l u s3)
    (m : ([.regs, .ch, .sump, .link, .saf, .fab] : List Part).all l.contains = true) :
    Within l u (writeCfg x0 x1 x2 s3) := by
  refine h.andThen (m := [.regs, .ch, .sump, .link, .saf, .fab]) ?_ m; clear h m
  unfold writeCfg
  repeat' first
    | (with_reducible exact Within.refl _ _) | assumption | (with_reducible apply Within.ite)
    | (with_reducible apply lockedOut_within (m := by decide)) | (with_reducible apply putCfg_within (m := by decide))
    | (with_reducible apply Within.forEach (hf := fun _ _ => ?_)) | (with_reducible apply Within.foldl (hf := fun _ _ => ?_))
    | split | dsimp only

theorem swset_within {l : List Part} {u : State} {x0 : Word} {s1 : State} (h : Within l u s1)
    (m : ([.fab] : List Part).all l.contains = true) :
    Within l u (swset x0 s1) := by
  refine h.andThen (m := [.fab]) ?_ m; clear h m
  unfold swset
  repeat' first
    | (with_reducible exact Within.refl _ _) | assumption | (with_reducible apply Within.ite)
    | (with_reducible apply raiseAt_within (m := by decide)) | (with_reducible apply Within.forEach (hf := fun _ _ => ?_))
    | (with_reducible apply Within.foldl (hf := fun _ _ => ?_)) | split | dsimp only

theorem setRide_within {l : List Part} {u : State} {x0 : Ride} {s1 : State} (h : Within l u s1)
    (m : ([.ch, .sump] : List Part).all l.contains = true) :
    Within l u (setRide x0 s1) := by
  refine h.andThen (m := [.ch, .sump]) ?_ m; clear h m
  unfold setRide forEach
  repeat' first
    | (with_reducible exact Within.refl _ _) | assumption | (with_reducible apply Within.ite)
    | (with_reducible apply modSump_within (m := by decide)) | (with_reducible apply modCh_within (m := by decide))
    | (with_reducible apply Within.forEach (hf := fun _ _ => ?_)) | (with_reducible apply Within.foldl (hf := fun _ _ => ?_))
    | split | dsimp only

theorem closeStep_within {l : List Part} {u : State} {x0 : Nat} {x1 : Nat} {x2 : Nat} {x3 : Nat} {s4 : State} (h : Within l u s4)
    (m : ([.ch, .fab] : List Part).all l.contains = true) :
    Within l u (closeStep x0 x1 x2 x3 s4) := by
  refine h.andThen (m := [.ch, .fab]) ?_ m; clear h m
  unfold closeStep
  repeat' first
    | (with_reducible exact Within.refl _ _) | assumption | (with_reducible apply Within.ite)
    | (with_reducible apply raiseSrc_within (m := by decide)) | (with_reducible apply modCh_within (m := by decide))
    | (with_reducible apply Within.forEach (hf := fun _ _ => ?_)) | (with_reducible apply Within.foldl (hf := fun _ _ => ?_))
    | split | dsimp only

theorem drainCh_within {l : List Part} {u : State} {x0 : Nat} {x1 : Drain} {x2 : Nat} {s3 : State} (h : Within l u s3)
    (m : ([.ch, .fab] : List Part).all l.contains = true) :
    Within l u (drainCh x0 x1 x2 s3) := by
  refine h.andThen (m := [.ch, .fab]) ?_ m; clear h m
  unfold drainCh
  repeat' first
    | (with_reducible exact Within.refl _ _) | assumption | (with_reducible apply Within.ite)
    | (with_reducible apply closeStep_within (m := by decide)) | (with_reducible apply modCh_within (m := by decide))
    | (with_reducible apply Within.forEach (hf := fun _ _ => ?_)) | (with_reducible apply Within.foldl (hf := fun _ _ => ?_))
    | split | dsimp only

theorem expireAll_within {l : List Part} {u : State} {s0 : State} (h : Within l u s0)
    (m : ([.ch, .sump, .fab] : List Part).all l.contains = true) :
    Within l u (expireAll s0) := by
  refine h.andThen (m := [.ch, .sump, .fab]) ?_ m; clear h m
  unfold expireAll forEach
  repeat' first
    | (with_reducible exact Within.refl _ _) | assumption | (with_reducible apply Within.ite)
    | (with_reducible apply setRide_within (m := by decide)) | (with_reducible apply drainCh_within (m := by decide))
    | (with_reducible apply clearSump_within (m := by decide)) | (with_reducible apply modSump_within (m := by decide))
    | (with_reducible apply Within.forEach (hf := fun _ _ => ?_)) | (with_reducible apply Within.foldl (hf := fun _ _ => ?_))
    | split | dsimp only

theorem modeDone_within {l : List Part} {u : State} {x0 : DevDrain} {s1 : State} (h : Within l u s1)
    (m : ([.tb, .fab] : List Part).all l.contains = true) :
    Within l u (modeDone x0 s1) := by
  refine h.andThen (m := [.tb, .fab]) ?_ m; clear h m
  unfold modeDone
  repeat' first
    | (with_reducible exact Within.refl _ _) | assumption | (with_reducible apply Within.ite)
    | (with_reducible apply modTc_within (m := by decide)) | (with_reducible apply tcComplete_within (m := by decide))
    | (with_reducible apply Within.forEach (hf := fun _ _ => ?_)) | (with_reducible apply Within.foldl (hf := fun _ _ => ?_))
    | split | dsimp only

theorem announce_within {l : List Part} {u : State} {x0 : Nat} {x1 : Nat} {s2 : State} (h : Within l u s2)
    (m : ([.link, .out] : List Part).all l.contains = true) :
    Within l u (announce x0 x1 s2) := by
  refine h.andThen (m := [.link, .out]) ?_ m; clear h m
  unfold announce
  repeat' first
    | (with_reducible exact Within.refl _ _) | assumption | (with_reducible apply Within.ite)
    | (with_reducible apply txFrame_within (m := by decide)) | (with_reducible apply Within.forEach (hf := fun _ _ => ?_))
    | (with_reducible apply Within.foldl (hf := fun _ _ => ?_)) | split | dsimp only

theorem disableRing_within {l : List Part} {u : State} {x0 : Nat} {s1 : State} (h : Within l u s1)
    (m : ([.link, .ring] : List Part).all l.contains = true) :
    Within l u (disableRing x0 s1) := by
  refine h.andThen (m := [.link, .ring]) ?_ m; clear h m
  unfold disableRing
  repeat' first
    | (with_reducible exact Within.refl _ _) | assumption | (with_reducible apply Within.ite)
    | (with_reducible apply modRing_within (m := by decide)) | (with_reducible apply updateWcr_within (m := by decide))
    | (with_reducible apply Within.forEach (hf := fun _ _ => ?_)) | (with_reducible apply Within.foldl (hf := fun _ _ => ?_))
    | split | dsimp only

theorem writeRtcTrim_within {l : List Part} {u : State} {x0 : Word} {s1 : State} (h : Within l u s1)
    (m : ([.rtc] : List Part).all l.contains = true) :
    Within l u (writeRtcTrim x0 s1) := by
  refine h.andThen (m := [.rtc]) ?_ m; clear h m
  unfold writeRtcTrim
  repeat' first
    | (with_reducible exact Within.refl _ _) | assumption | (with_reducible apply Within.ite)
    | (with_reducible apply modRtc_within (m := by decide)) | (with_reducible apply Within.forEach (hf := fun _ _ => ?_))
    | (with_reducible apply Within.foldl (hf := fun _ _ => ?_)) | split | dsimp only

theorem startXfer_within {l : List Part} {u : State} {x0 : Word} {s1 : State} (h : Within l u s1)
    (m : ([.twi, .fab, .out] : List Part).all l.contains = true) :
    Within l u (startXfer x0 s1) := by
  refine h.andThen (m := [.twi, .fab, .out]) ?_ m; clear h m
  unfold startXfer
  repeat' first
    | (with_reducible exact Within.refl _ _) | assumption | (with_reducible apply Within.ite)
    | (with_reducible apply emit_within (m := by decide)) | (with_reducible apply raise_within (m := by decide))
    | (with_reducible apply Within.forEach (hf := fun _ _ => ?_)) | (with_reducible apply Within.foldl (hf := fun _ _ => ?_))
    | (with_reducible apply Within.set_twi (m := by decide)) | split | dsimp only
    | (refine Within.mk (Within.refl _ _) ?_; intro p hp; cases p <;> first | exact absurd (by decide) hp | rfl)

theorem restartWindow_within {l : List Part} {u : State} {x0 : Nat} {s1 : State} (h : Within l u s1)
    (m : ([.ph] : List Part).all l.contains = true) :
    Within l u (restartWindow x0 s1) := by
  refine h.andThen (m := [.ph]) ?_ m; clear h m
  unfold restartWindow forEach
  repeat' first
    | (with_reducible exact Within.refl _ _) | assumption | (with_reducible apply Within.ite)
    | (with_reducible apply modPh_within (m := by decide)) | (with_reducible apply Within.forEach (hf := fun _ _ => ?_))
    | (with_reducible apply Within.foldl (hf := fun _ _ => ?_)) | split | dsimp only

theorem strikeEqual_within {l : List Part} {u : State} {x0 : Nat} {s1 : State} (h : Within l u s1)
    (m : ([.ph] : List Part).all l.contains = true) :
    Within l u (strikeEqual x0 s1) := by
  refine h.andThen (m := [.ph]) ?_ m; clear h m
  unfold strikeEqual forEach
  repeat' first
    | (with_reducible exact Within.refl _ _) | assumption | (with_reducible apply Within.ite)
    | (with_reducible apply shareEqual_within (m := by decide)) | (with_reducible apply modPh_within (m := by decide))
    | (with_reducible apply Within.forEach (hf := fun _ _ => ?_)) | (with_reducible apply Within.foldl (hf := fun _ _ => ?_))
    | split | dsimp only

theorem rampShares_within {l : List Part} {u : State} {x0 : Nat} {x1 : Nat} {x2 : Nat} {s3 : State} (h : Within l u s3)
    (m : ([.ph] : List Part).all l.contains = true) :
    Within l u (rampShares x0 x1 x2 s3) := by
  refine h.andThen (m := [.ph]) ?_ m; clear h m
  unfold rampShares forEach
  repeat' first
    | (with_reducible exact Within.refl _ _) | assumption | (with_reducible apply Within.ite)
    | (with_reducible apply setShare_within (m := by decide)) | (with_reducible apply modPh_within (m := by decide))
    | (with_reducible apply Within.forEach (hf := fun _ _ => ?_)) | (with_reducible apply Within.foldl (hf := fun _ _ => ?_))
    | split | dsimp only

theorem strikeShares_within {l : List Part} {u : State} {x0 : Nat} {x1 : Bool} {x2 : RegStage} {s3 : State} (h : Within l u s3)
    (m : ([.ph, .ch] : List Part).all l.contains = true) :
    Within l u (strikeShares x0 x1 x2 s3) := by
  refine h.andThen (m := [.ph, .ch]) ?_ m; clear h m
  unfold strikeShares
  extract_lets c start act dis t1 t2
  have h1 : Within [.ph, .ch] s3 t1 :=
    Within.ite (Within.forEach (hf := fun _ _ => modPh_within (Within.refl _ _) (by decide))
      (modCh_within (Within.ite (restartWindow_within (Within.refl _ _) (by decide)) (Within.refl _ _)) (by decide))) (Within.refl _ _)
  have h2 : Within [.ph, .ch] s3 t2 :=
    Within.ite (Within.foldl (hf := fun _ _ => modPh_within (Within.refl _ _) (by decide)) h1) (strikeEqual_within h1 (by decide))
  split
  · exact rampShares_within h2 (by decide)
  · exact h2

theorem modShad_within {l : List Part} {u : State} {x0 : Path} {x1 : Shadow → Shadow} {s2 : State} (h : Within l u s2)
    (m : ([.shadow] : List Part).all l.contains = true) :
    Within l u (modShad x0 x1 s2) := by
  refine h.andThen (m := [.shadow]) ?_ m; clear h m
  unfold modShad
  repeat' first
    | (with_reducible exact Within.refl _ _) | assumption | (with_reducible apply Within.ite)
    | (with_reducible apply Within.forEach (hf := fun _ _ => ?_)) | (with_reducible apply Within.foldl (hf := fun _ _ => ?_))
    | (with_reducible apply Within.set_shadow (m := by decide)) | split | dsimp only
    | (refine Within.mk (Within.refl _ _) ?_; intro p hp; cases p <;> first | exact absurd (by decide) hp | rfl)

theorem writeRcpSel_within {l : List Part} {u : State} {x0 : Path} {x1 : Word} {s2 : State} (h : Within l u s2)
    (m : ([.shadow] : List Part).all l.contains = true) :
    Within l u (writeRcpSel x0 x1 s2) := by
  refine h.andThen (m := [.shadow]) ?_ m; clear h m
  unfold writeRcpSel
  repeat' first
    | (with_reducible exact Within.refl _ _) | assumption | (with_reducible apply Within.ite)
    | (with_reducible apply modShad_within (m := by decide)) | (with_reducible apply Within.forEach (hf := fun _ _ => ?_))
    | (with_reducible apply Within.foldl (hf := fun _ _ => ?_)) | split | dsimp only

theorem stageEng_within {l : List Part} {u : State} {x0 : Nat} {x1 : EngAct} {s2 : State} (h : Within l u s2)
    (m : ([.ch] : List Part).all l.contains = true) :
    Within l u (stageEng x0 x1 s2) := by
  refine h.andThen (m := [.ch]) ?_ m; clear h m
  unfold stageEng
  repeat' first
    | (with_reducible exact Within.refl _ _) | assumption | (with_reducible apply Within.ite)
    | (with_reducible apply modCh_within (m := by decide)) | (with_reducible apply Within.forEach (hf := fun _ _ => ?_))
    | (with_reducible apply Within.foldl (hf := fun _ _ => ?_)) | split | dsimp only

theorem sendData_within {l : List Part} {u : State} {x0 : Nat} {x1 : Bool} {x2 : Nat} {x3 : Nat} {x4 : List RingRec} {s5 : State} (h : Within l u s5)
    (m : ([.link, .out] : List Part).all l.contains = true) :
    Within l u (sendData x0 x1 x2 x3 x4 s5) := by
  refine h.andThen (m := [.link, .out]) ?_ m; clear h m
  unfold sendData
  repeat' first
    | (with_reducible exact Within.refl _ _) | assumption | (with_reducible apply Within.ite)
    | (with_reducible apply sendUdp_within (m := by decide)) | (with_reducible apply Within.forEach (hf := fun _ _ => ?_))
    | (with_reducible apply Within.foldl (hf := fun _ _ => ?_)) | split | dsimp only

theorem sendReliable_within {l : List Part} {u : State} {x0 : Nat} {s1 : State} (h : Within l u s1)
    (m : ([.link, .ring, .out] : List Part).all l.contains = true) :
    Within l u (sendReliable x0 s1) := by
  refine h.andThen (m := [.link, .ring, .out]) ?_ m; clear h m
  unfold sendReliable
  extract_lets g l' fresh
  clear_value fresh l' g
  split
  · exact Within.refl _ _
  · extract_lets t1 others t2
    split
    · exact Within.refl _ _
    · extract_lets next
      have h1 : Within [.link, .ring, .out] s1 t1 := sendData_within (l := [.link, .ring, .out]) (Within.refl _ _) (by decide)
      have h2 : Within [.link, .ring, .out] s1 t2 := Within.ite h1 (Within.forEach (hf := fun _ _ => sendData_within (Within.refl _ _) (by decide)) h1)
      exact modRing_within h2 (by decide)

theorem paced_within {l : List Part} {u : State} {x0 : Nat} {s1 : State} (h : Within l u s1)
    (m : ([.link] : List Part).all l.contains = true) :
    Within l u (paced x0 s1) := by
  refine h.andThen (m := [.link]) ?_ m; clear h m
  unfold paced
  repeat' first
    | (with_reducible exact Within.refl _ _) | assumption | (with_reducible apply Within.ite)
    | (with_reducible apply modLink_within (m := by decide)) | (with_reducible apply Within.forEach (hf := fun _ _ => ?_))
    | (with_reducible apply Within.foldl (hf := fun _ _ => ?_)) | split | dsimp only

theorem sendStream_within {l : List Part} {u : State} {x0 : Nat} {s1 : State} (h : Within l u s1)
    (m : ([.link, .ring, .out] : List Part).all l.contains = true) :
    Within l u (sendStream x0 s1) := by
  refine h.andThen (m := [.link, .ring, .out]) ?_ m; clear h m
  unfold sendStream forEach
  repeat' first
    | (with_reducible exact Within.refl _ _) | assumption | (with_reducible apply Within.ite)
    | (with_reducible apply sendData_within (m := by decide)) | (with_reducible apply modRing_within (m := by decide))
    | (with_reducible apply sendUdp_within (m := by decide)) | (with_reducible apply paced_within (m := by decide))
    | (with_reducible apply Within.forEach (hf := fun _ _ => ?_)) | (with_reducible apply Within.foldl (hf := fun _ _ => ?_))
    | split | dsimp only

theorem sendReplay_within {l : List Part} {u : State} {x0 : Nat} {x1 : Nat} {s2 : State} (h : Within l u s2)
    (m : ([.link, .out] : List Part).all l.contains = true) :
    Within l u (sendReplay x0 x1 s2) := by
  refine h.andThen (m := [.link, .out]) ?_ m; clear h m
  unfold sendReplay
  repeat' first
    | (with_reducible exact Within.refl _ _) | assumption | (with_reducible apply Within.ite)
    | (with_reducible apply sendData_within (m := by decide)) | (with_reducible apply modSess_within (m := by decide))
    | (with_reducible apply paced_within (m := by decide)) | (with_reducible apply Within.forEach (hf := fun _ _ => ?_))
    | (with_reducible apply Within.foldl (hf := fun _ _ => ?_)) | split | dsimp only

theorem estOff_within {l : List Part} {u : State} {x0 : Nat} {s1 : State} (h : Within l u s1)
    (m : ([.est] : List Part).all l.contains = true) :
    Within l u (estOff x0 s1) := by
  refine h.andThen (m := [.est]) ?_ m; clear h m
  unfold estOff
  repeat' first
    | (with_reducible exact Within.refl _ _) | assumption | (with_reducible apply Within.ite)
    | (with_reducible apply modEst_within (m := by decide)) | (with_reducible apply Within.forEach (hf := fun _ _ => ?_))
    | (with_reducible apply Within.foldl (hf := fun _ _ => ?_)) | split | dsimp only

theorem nvmCorrect_within {l : List Part} {u : State} {x0 : Nat} {x1 : Nat} {s2 : State} (h : Within l u s2)
    (m : ([.nvm] : List Part).all l.contains = true) :
    Within l u (nvmCorrect x0 x1 s2) := by
  refine h.andThen (m := [.nvm]) ?_ m; clear h m
  unfold nvmCorrect
  repeat' first
    | (with_reducible exact Within.refl _ _) | assumption | (with_reducible apply Within.ite)
    | (with_reducible apply Within.forEach (hf := fun _ _ => ?_)) | (with_reducible apply Within.foldl (hf := fun _ _ => ?_))
    | (with_reducible apply Within.set_nvm (m := by decide)) | split | dsimp only
    | (refine Within.mk (Within.refl _ _) ?_; intro p hp; cases p <;> first | exact absurd (by decide) hp | rfl)

theorem safeGallery_within {l : List Part} {u : State} {x0 : Nat} {s1 : State} (h : Within l u s1)
    (m : ([.ph, .gal, .ch] : List Part).all l.contains = true) :
    Within l u (safeGallery x0 s1) := by
  refine h.andThen (m := [.ph, .gal, .ch]) ?_ m; clear h m
  unfold safeGallery forEach
  repeat' first
    | (with_reducible exact Within.refl _ _) | assumption | (with_reducible apply Within.ite)
    | (with_reducible apply midPhase_within (m := by decide)) | (with_reducible apply modGal_within (m := by decide))
    | (with_reducible apply safeChannel_within (m := by decide)) | (with_reducible apply Within.forEach (hf := fun _ _ => ?_))
    | (with_reducible apply Within.foldl (hf := fun _ _ => ?_)) | split | dsimp only

theorem safeDevice_within {l : List Part} {u : State} {s0 : State} (h : Within l u s0)
    (m : ([.ph, .gal, .ch, .saf] : List Part).all l.contains = true) :
    Within l u (safeDevice s0) := by
  refine h.andThen (m := [.ph, .gal, .ch, .saf]) ?_ m; clear h m
  unfold safeDevice forEach
  repeat' first
    | (with_reducible exact Within.refl _ _) | assumption | (with_reducible apply Within.ite)
    | (with_reducible apply safeGallery_within (m := by decide)) | (with_reducible apply Within.forEach (hf := fun _ _ => ?_))
    | (with_reducible apply Within.foldl (hf := fun _ _ => ?_)) | (with_reducible apply Within.set_saf (m := by decide)) | split
    | dsimp only | (refine Within.mk (Within.refl _ _) ?_; intro p hp; cases p <;> first | exact absurd (by decide) hp | rfl)

theorem stopKeepAlive_within {l : List Part} {u : State} {s0 : State} (h : Within l u s0)
    (m : ([.ph, .gal, .ch, .saf] : List Part).all l.contains = true) :
    Within l u (stopKeepAlive s0) := by
  refine h.andThen (m := [.ph, .gal, .ch, .saf]) ?_ m; clear h m
  unfold stopKeepAlive
  repeat' first
    | (with_reducible exact Within.refl _ _) | assumption | (with_reducible apply Within.ite)
    | (with_reducible apply safeDevice_within (m := by decide)) | (with_reducible apply Within.forEach (hf := fun _ _ => ?_))
    | (with_reducible apply Within.foldl (hf := fun _ _ => ?_)) | (with_reducible apply Within.set_saf (m := by decide)) | split
    | dsimp only | (refine Within.mk (Within.refl _ _) ?_; intro p hp; cases p <;> first | exact absurd (by decide) hp | rfl)

theorem keepaliveStop_within {l : List Part} {u : State} {s0 : State} (h : Within l u s0)
    (m : ([.ph, .gal, .ch, .saf] : List Part).all l.contains = true) :
    Within l u (keepaliveStop s0) := by
  refine h.andThen (m := [.ph, .gal, .ch, .saf]) ?_ m; clear h m
  unfold keepaliveStop
  repeat' first
    | (with_reducible exact Within.refl _ _) | assumption | (with_reducible apply Within.ite)
    | (with_reducible apply stopKeepAlive_within (m := by decide)) | (with_reducible apply modSaf_within (m := by decide))
    | (with_reducible apply Within.forEach (hf := fun _ _ => ?_)) | (with_reducible apply Within.foldl (hf := fun _ _ => ?_))
    | split | dsimp only

theorem safeRails_within {l : List Part} {u : State} {s0 : State} (h : Within l u s0)
    (m : ([.seq] : List Part).all l.contains = true) :
    Within l u (safeRails s0) := by
  refine h.andThen (m := [.seq]) ?_ m; clear h m
  unfold safeRails
  repeat' first
    | (with_reducible exact Within.refl _ _) | assumption | (with_reducible apply Within.ite)
    | (with_reducible apply modRail_within (m := by decide)) | (with_reducible apply Within.forEach (hf := fun _ _ => ?_))
    | (with_reducible apply Within.foldl (hf := fun _ _ => ?_)) | (with_reducible apply Within.set_seq (m := by decide)) | split
    | dsimp only | (refine Within.mk (Within.refl _ _) ?_; intro p hp; cases p <;> first | exact absurd (by decide) hp | rfl)

theorem enterSafe_within {l : List Part} {u : State} {s0 : State} (h : Within l u s0)
    (m : ([.mode, .seq, .tb, .fe, .saf, .acc, .fab] : List Part).all l.contains = true) :
    Within l u (enterSafe s0) := by
  refine h.andThen (m := [.mode, .seq, .tb, .fe, .saf, .acc, .fab]) ?_ m; clear h m
  unfold enterSafe
  repeat' first
    | (with_reducible exact Within.refl _ _) | assumption | (with_reducible apply Within.ite)
    | (with_reducible apply abortAll_within (m := by decide)) | (with_reducible apply leaveService_within (m := by decide))
    | (with_reducible apply safeRails_within (m := by decide)) | (with_reducible apply raise_within (m := by decide))
    | (with_reducible apply Within.forEach (hf := fun _ _ => ?_)) | (with_reducible apply Within.foldl (hf := fun _ _ => ?_))
    | (with_reducible apply Within.set_mode (m := by decide)) | (with_reducible apply Within.set_seq (m := by decide))
    | (with_reducible apply Within.set_tb (m := by decide)) | (with_reducible apply Within.set_saf (m := by decide)) | split
    | dsimp only | (refine Within.mk (Within.refl _ _) ?_; intro p hp; cases p <;> first | exact absurd (by decide) hp | rfl)

theorem enterDev_within {l : List Part} {u : State} {x0 : Nat} {x1 : Nat} {x2 : Bool} {s3 : State} (h : Within l u s3)
    (m : ([.mode, .seq, .tb, .fe, .saf, .acc, .fab] : List Part).all l.contains = true) :
    Within l u (enterDev x0 x1 x2 s3) := by
  refine h.andThen (m := [.mode, .seq, .tb, .fe, .saf, .acc, .fab]) ?_ m; clear h m
  unfold enterDev
  repeat' first
    | (with_reducible exact Within.refl _ _) | assumption | (with_reducible apply Within.ite)
    | (with_reducible apply enterSafe_within (m := by decide)) | (with_reducible apply raiseSrc_within (m := by decide))
    | (with_reducible apply Within.forEach (hf := fun _ _ => ?_)) | (with_reducible apply Within.foldl (hf := fun _ _ => ?_))
    | (with_reducible apply Within.set_saf (m := by decide)) | split | dsimp only
    | (refine Within.mk (Within.refl _ _) ?_; intro p hp; cases p <;> first | exact absurd (by decide) hp | rfl)

theorem setHist_within {l : List Part} {u : State} {x0 : Nat} {s1 : State} (h : Within l u s1)
    (m : ([.saf] : List Part).all l.contains = true) :
    Within l u (setHist x0 s1) := by
  refine h.andThen (m := [.saf]) ?_ m; clear h m
  unfold setHist
  repeat' first
    | (with_reducible exact Within.refl _ _) | assumption | (with_reducible apply Within.ite)
    | (with_reducible apply Within.forEach (hf := fun _ _ => ?_)) | (with_reducible apply Within.foldl (hf := fun _ _ => ?_))
    | (with_reducible apply Within.set_saf (m := by decide)) | split | dsimp only
    | (refine Within.mk (Within.refl _ _) ?_; intro p hp; cases p <;> first | exact absurd (by decide) hp | rfl)

theorem decideDev_within {l : List Part} {u : State} {x0 : Nat} {x1 : Nat} {x2 : Bool} {s3 : State} (h : Within l u s3)
    (m : ([.mode, .seq, .tb, .ph, .gal, .fe, .ch, .saf, .acc, .fab] : List Part).all l.contains = true) :
    Within l u (decideDev x0 x1 x2 s3) := by
  refine h.andThen (m := [.mode, .seq, .tb, .ph, .gal, .fe, .ch, .saf, .acc, .fab]) ?_ m; clear h m
  unfold decideDev
  repeat' first
    | (with_reducible exact Within.refl _ _) | assumption | (with_reducible apply Within.ite)
    | (with_reducible apply safeDevice_within (m := by decide)) | (with_reducible apply enterDev_within (m := by decide))
    | (with_reducible apply setHist_within (m := by decide)) | (with_reducible apply Within.forEach (hf := fun _ _ => ?_))
    | (with_reducible apply Within.foldl (hf := fun _ _ => ?_)) | (with_reducible apply Within.set_saf (m := by decide)) | split
    | dsimp only | (refine Within.mk (Within.refl _ _) ?_; intro p hp; cases p <;> first | exact absurd (by decide) hp | rfl)

theorem raiseOpt_within {l : List Part} {u : State} {x0 : Producer} {x1 : Nat} {x2 : Nat} {x3 : Option Nat} {s4 : State} (h : Within l u s4)
    (m : ([.fab] : List Part).all l.contains = true) :
    Within l u (raiseOpt x0 x1 x2 x3 s4) := by
  refine h.andThen (m := [.fab]) ?_ m; clear h m
  unfold raiseOpt
  repeat' first
    | (with_reducible exact Within.refl _ _) | assumption | (with_reducible apply Within.ite)
    | (with_reducible apply raiseA_within (m := by decide)) | (with_reducible apply raise_within (m := by decide))
    | (with_reducible apply Within.forEach (hf := fun _ _ => ?_)) | (with_reducible apply Within.foldl (hf := fun _ _ => ?_))
    | split | dsimp only

theorem decideCh_within {l : List Part} {u : State} {x0 : Nat} {x1 : Nat} {x2 : Option Nat} {s3 : State} (h : Within l u s3)
    (m : ([.ph, .ch, .saf, .fab] : List Part).all l.contains = true) :
    Within l u (decideCh x0 x1 x2 s3) := by
  refine h.andThen (m := [.ph, .ch, .saf, .fab]) ?_ m; clear h m
  unfold decideCh
  repeat' first
    | (with_reducible exact Within.refl _ _) | assumption | (with_reducible apply Within.ite)
    | (with_reducible apply setHist_within (m := by decide)) | (with_reducible apply modCh_within (m := by decide))
    | (with_reducible apply safeChannel_within (m := by decide)) | (with_reducible apply raiseOpt_within (m := by decide))
    | (with_reducible apply Within.forEach (hf := fun _ _ => ?_)) | (with_reducible apply Within.foldl (hf := fun _ _ => ?_))
    | (with_reducible apply Within.set_saf (m := by decide)) | split | dsimp only
    | (refine Within.mk (Within.refl _ _) ?_; intro p hp; cases p <;> first | exact absurd (by decide) hp | rfl)

theorem decideChs_within {l : List Part} {u : State} {x0 : Nat} {x1 : List (Nat × Option Nat)} {s2 : State} (h : Within l u s2)
    (m : ([.ph, .ch, .saf, .fab] : List Part).all l.contains = true) :
    Within l u (decideChs x0 x1 s2) := by
  refine h.andThen (m := [.ph, .ch, .saf, .fab]) ?_ m; clear h m
  unfold decideChs
  split
  · exact Within.refl _ _
  · refine Within.foldl (hf := fun t x => setHist_within ?_ (by decide)) (decideCh_within (Within.refl _ _) (by decide))
    split
    · exact Within.refl _ _
    · exact Within.set_saf (Within.refl _ _) (by decide)

theorem cmpReact_within {l : List Part} {u : State} {x0 : Nat} {s1 : State} (h : Within l u s1)
    (m : ([.ph, .ch, .saf, .fab] : List Part).all l.contains = true) :
    Within l u (cmpReact x0 s1) := by
  refine h.andThen (m := [.ph, .ch, .saf, .fab]) ?_ m; clear h m
  unfold cmpReact
  repeat' first
    | (with_reducible exact Within.refl _ _) | assumption | (with_reducible apply Within.ite)
    | (with_reducible apply decideChs_within (m := by decide)) | (with_reducible apply Within.forEach (hf := fun _ _ => ?_))
    | (with_reducible apply Within.foldl (hf := fun _ _ => ?_)) | split | dsimp only

theorem clearFault_within {l : List Part} {u : State} {x0 : Nat} {s1 : State} (h : Within l u s1)
    (m : ([.ph, .fe, .ch, .ring, .fab] : List Part).all l.contains = true) :
    Within l u (clearFault x0 s1) := by
  refine h.andThen (m := [.ph, .fe, .ch, .ring, .fab]) ?_ m; clear h m
  unfold clearFault forEach
  repeat' first
    | (with_reducible exact Within.refl _ _) | assumption | (with_reducible apply Within.ite)
    | (with_reducible apply modFe_within (m := by decide)) | (with_reducible apply modPh_within (m := by decide))
    | (with_reducible apply modCh_within (m := by decide)) | (with_reducible apply toIdle_within (m := by decide))
    | (with_reducible apply Within.forEach (hf := fun _ _ => ?_)) | (with_reducible apply Within.foldl (hf := fun _ _ => ?_))
    | split | dsimp only

theorem retestDone_within {l : List Part} {u : State} {x0 : Nat} {s1 : State} (h : Within l u s1)
    (m : ([.ph, .fe, .ch, .ring, .fab] : List Part).all l.contains = true) :
    Within l u (retestDone x0 s1) := by
  refine h.andThen (m := [.ph, .fe, .ch, .ring, .fab]) ?_ m; clear h m
  unfold retestDone forEach
  repeat' first
    | (with_reducible exact Within.refl _ _) | assumption | (with_reducible apply Within.ite)
    | (with_reducible apply modFe_within (m := by decide)) | (with_reducible apply clearFault_within (m := by decide))
    | (with_reducible apply Within.forEach (hf := fun _ _ => ?_)) | (with_reducible apply Within.foldl (hf := fun _ _ => ?_))
    | split | dsimp only

theorem refuseCmd_within {l : List Part} {u : State} {x0 : Nat} {s1 : State} (h : Within l u s1)
    (m : ([.fab] : List Part).all l.contains = true) :
    Within l u (refuseCmd x0 s1) := by
  refine h.andThen (m := [.fab]) ?_ m; clear h m
  unfold refuseCmd
  repeat' first
    | (with_reducible exact Within.refl _ _) | assumption | (with_reducible apply Within.ite)
    | (with_reducible apply raise_within (m := by decide)) | (with_reducible apply Within.forEach (hf := fun _ _ => ?_))
    | (with_reducible apply Within.foldl (hf := fun _ _ => ?_)) | split | dsimp only

theorem readYear_within {l : List Part} {u : State} {x0 : Path} {s1 : State} (h : Within l u s1)
    (m : ([.shadow] : List Part).all l.contains = true) :
    Within l u (readYear x0 s1).2 := by
  refine h.andThen (m := [.shadow]) ?_ m; clear h m
  unfold readYear
  repeat' first
    | (with_reducible exact Within.refl _ _) | assumption | (with_reducible apply Within.ite)
    | (with_reducible apply modShad_within (m := by decide)) | (with_reducible apply Within.forEach (hf := fun _ _ => ?_))
    | (with_reducible apply Within.foldl (hf := fun _ _ => ?_)) | split | dsimp only

theorem winRead_within {l : List Part} {u : State} {x0 : Path} {x1 : Bool} {x2 : Nat} {s3 : State} (h : Within l u s3)
    (m : ([.nvm] : List Part).all l.contains = true) :
    Within l u (winRead x0 x1 x2 s3).2 := by
  refine h.andThen (m := [.nvm]) ?_ m; clear h m
  delta winRead
  exact Within.ite2 (Within.refl _ _) (nvmCorrect_within (Within.refl _ _) (by decide))

theorem modFab_within {l : List Part} {u : State} {x0 : Fabric → Fabric} {s1 : State} (h : Within l u s1)
    (m : ([.fab] : List Part).all l.contains = true) :
    Within l u (modFab x0 s1) := by
  refine h.andThen (m := [.fab]) ?_ m; clear h m
  unfold modFab
  repeat' first
    | (with_reducible exact Within.refl _ _) | assumption | (with_reducible apply Within.ite)
    | (with_reducible apply Within.forEach (hf := fun _ _ => ?_)) | (with_reducible apply Within.foldl (hf := fun _ _ => ?_))
    | (with_reducible apply Within.set_fab (m := by decide)) | split | dsimp only
    | (refine Within.mk (Within.refl _ _) ?_; intro p hp; cases p <;> first | exact absurd (by decide) hp | rfl)

theorem modWdt_within {l : List Part} {u : State} {x0 : Wdt → Wdt} {s1 : State} (h : Within l u s1)
    (m : ([.wdt] : List Part).all l.contains = true) :
    Within l u (modWdt x0 s1) := by
  refine h.andThen (m := [.wdt]) ?_ m; clear h m
  unfold modWdt
  repeat' first
    | (with_reducible exact Within.refl _ _) | assumption | (with_reducible apply Within.ite)
    | (with_reducible apply Within.forEach (hf := fun _ _ => ?_)) | (with_reducible apply Within.foldl (hf := fun _ _ => ?_))
    | (with_reducible apply Within.set_wdt (m := by decide)) | split | dsimp only
    | (refine Within.mk (Within.refl _ _) ?_; intro p hp; cases p <;> first | exact absurd (by decide) hp | rfl)

theorem modSlot_within {l : List Part} {u : State} {x0 : Nat} {x1 : WdtSlot → WdtSlot} {s2 : State} (h : Within l u s2)
    (m : ([.wdt] : List Part).all l.contains = true) :
    Within l u (modSlot x0 x1 s2) := by
  refine h.andThen (m := [.wdt]) ?_ m; clear h m
  unfold modSlot
  repeat' first
    | (with_reducible exact Within.refl _ _) | assumption | (with_reducible apply Within.ite)
    | (with_reducible apply modWdt_within (m := by decide)) | (with_reducible apply Within.forEach (hf := fun _ _ => ?_))
    | (with_reducible apply Within.foldl (hf := fun _ _ => ?_)) | split | dsimp only

theorem modTb_within {l : List Part} {u : State} {x0 : Timebase → Timebase} {s1 : State} (h : Within l u s1)
    (m : ([.tb] : List Part).all l.contains = true) :
    Within l u (modTb x0 s1) := by
  refine h.andThen (m := [.tb]) ?_ m; clear h m
  unfold modTb
  repeat' first
    | (with_reducible exact Within.refl _ _) | assumption | (with_reducible apply Within.ite)
    | (with_reducible apply Within.forEach (hf := fun _ _ => ?_)) | (with_reducible apply Within.foldl (hf := fun _ _ => ?_))
    | (with_reducible apply Within.set_tb (m := by decide)) | split | dsimp only
    | (refine Within.mk (Within.refl _ _) ?_; intro p hp; cases p <;> first | exact absurd (by decide) hp | rfl)

theorem rcPut_within {l : List Part} {u : State} {x0 : Path} {x1 : RegHit} {x2 : Word} {s3 : State} (h : Within l u s3)
    (m : ([.tb, .ph, .gal, .fe, .ch, .est, .sump, .link, .ring, .sqz, .saf, .ldr, .twi, .wdt, .thm, .intc, .nvm, .fab, .shadow] : List Part).all l.contains = true) :
    Within l u (rcPut x0 x1 x2 s3) := by
  refine h.andThen (m := [.tb, .ph, .gal, .fe, .ch, .est, .sump, .link, .ring, .sqz, .saf, .ldr, .twi, .wdt, .thm, .intc, .nvm, .fab, .shadow]) ?_ m; clear h m
  unfold rcPut
  dsimp only
  split <;> first
    | exact Within.refl _ _
    | with_reducible exact modFab_within (Within.refl _ _) (by decide)
    | with_reducible exact modTb_within (Within.refl _ _) (by decide)
    | with_reducible exact modShad_within (Within.refl _ _) (by decide)
    | with_reducible exact modSlot_within (Within.refl _ _) (by decide)
    | with_reducible exact modSaf_within (Within.refl _ _) (by decide)
    | with_reducible exact modSump_within (Within.refl _ _) (by decide)
    | with_reducible exact modPort_within (Within.refl _ _) (by decide)
    | with_reducible exact modLink_within (Within.refl _ _) (by decide)
    | with_reducible exact modRing_within (Within.refl _ _) (by decide)
    | with_reducible exact modSqz_within (Within.refl _ _) (by decide)
    | with_reducible exact modLdr_within (Within.refl _ _) (by decide)
    | with_reducible exact modPh_within (Within.refl _ _) (by decide)
    | with_reducible exact modCh_within (Within.refl _ _) (by decide)
    | with_reducible exact modFe_within (Within.refl _ _) (by decide)
    | with_reducible exact modEst_within (Within.refl _ _) (by decide)
    | with_reducible exact modGal_within (Within.refl _ _) (by decide)
    | exact Within.set_thm (Within.refl _ _) (by decide)
    | exact Within.set_intc (Within.refl _ _) (by decide)
    | exact Within.set_twi (Within.refl _ _) (by decide)
    | exact Within.set_nvm (Within.refl _ _) (by decide)

theorem checkBram_within {l : List Part} {u : State} {x0 : List Nat} {s1 : State} (h : Within l u s1)
    (m : ([.rtc, .fab] : List Part).all l.contains = true) :
    Within l u (checkBram x0 s1) := by
  refine h.andThen (m := [.rtc, .fab]) ?_ m; clear h m
  unfold checkBram
  repeat' first
    | (with_reducible exact Within.refl _ _) | assumption | (with_reducible apply Within.ite)
    | (with_reducible apply raiseA_within (m := by decide)) | (with_reducible apply modRtc_within (m := by decide))
    | (with_reducible apply Within.forEach (hf := fun _ _ => ?_)) | (with_reducible apply Within.foldl (hf := fun _ _ => ?_))
    | split | dsimp only

theorem readBram_within {l : List Part} {u : State} {x0 : Nat} {s1 : State} (h : Within l u s1)
    (m : ([.rtc, .fab] : List Part).all l.contains = true) :
    Within l u (readBram x0 s1).2 := by
  refine h.andThen (m := [.rtc, .fab]) ?_ m; clear h m
  unfold readBram
  repeat' first
    | (with_reducible exact Within.refl _ _) | assumption | (with_reducible apply Within.ite)
    | (with_reducible apply checkBram_within (m := by decide)) | (with_reducible apply Within.forEach (hf := fun _ _ => ?_))
    | (with_reducible apply Within.foldl (hf := fun _ _ => ?_)) | split | dsimp only

theorem capture_within {l : List Part} {u : State} {x0 : Path} {x1 : List (Nat × Word)} {s2 : State} (h : Within l u s2)
    (m : ([.shadow] : List Part).all l.contains = true) :
    Within l u (capture x0 x1 s2) := by
  refine h.andThen (m := [.shadow]) ?_ m; clear h m
  unfold capture
  repeat' first
    | (with_reducible exact Within.refl _ _) | assumption | (with_reducible apply Within.ite)
    | (with_reducible apply modShad_within (m := by decide)) | (with_reducible apply Within.forEach (hf := fun _ _ => ?_))
    | (with_reducible apply Within.foldl (hf := fun _ _ => ?_)) | split | dsimp only

theorem claim_within {l : List Part} {u : State} {x0 : Nat} {s1 : State} (h : Within l u s1)
    (m : ([.intc] : List Part).all l.contains = true) :
    Within l u (claim x0 s1).2 := by
  refine h.andThen (m := [.intc]) ?_ m; clear h m
  unfold claim
  split <;> exact Within.set_intc (Within.refl _ _) (by decide)

theorem claimRead_within {l : List Part} {u : State} {x0 : Path} {x1 : Nat} {s2 : State} (h : Within l u s2)
    (m : ([.intc] : List Part).all l.contains = true) :
    Within l u (claimRead x0 x1 s2).2 := by
  refine h.andThen (m := [.intc]) ?_ m; clear h m
  unfold claimRead
  repeat' first
    | (with_reducible exact Within.refl _ _) | assumption | (with_reducible apply Within.ite)
    | (with_reducible apply claim_within (m := by decide)) | (with_reducible apply Within.forEach (hf := fun _ _ => ?_))
    | (with_reducible apply Within.foldl (hf := fun _ _ => ?_)) | split | dsimp only

theorem freezeCal_within {l : List Part} {u : State} {x0 : Path} {s1 : State} (h : Within l u s1)
    (m : ([.shadow] : List Part).all l.contains = true) :
    Within l u (freezeCal x0 s1).2 := by
  refine h.andThen (m := [.shadow]) ?_ m; clear h m
  unfold freezeCal
  repeat' first
    | (with_reducible exact Within.refl _ _) | assumption | (with_reducible apply Within.ite)
    | (with_reducible apply modShad_within (m := by decide)) | (with_reducible apply Within.forEach (hf := fun _ _ => ?_))
    | (with_reducible apply Within.foldl (hf := fun _ _ => ?_)) | split | dsimp only

theorem readEffect_within {l : List Part} {u : State} {x0 : Path} {x1 : Nat} {x2 : RegHit} {x3 : Word} {s4 : State} (h : Within l u s4)
    (m : ([.tb, .ph, .gal, .fe, .ch, .est, .sump, .link, .ring, .sqz, .saf, .ldr, .twi, .rtc, .wdt, .thm, .intc, .nvm, .fab, .shadow] : List Part).all l.contains = true) :
    Within l u (readEffect x0 x1 x2 x3 s4) := by
  refine h.andThen (m := [.tb, .ph, .gal, .fe, .ch, .est, .sump, .link, .ring, .sqz, .saf, .ldr, .twi, .rtc, .wdt, .thm, .intc, .nvm, .fab, .shadow]) ?_ m; clear h m
  unfold readEffect
  have hd : Within [.tb, .ph, .gal, .fe, .ch, .est, .sump, .link, .ring, .sqz, .saf, .ldr, .twi, .rtc, .wdt, .thm, .intc, .nvm, .fab, .shadow] s4 (if x2.row.acc = .rc then rcPut x0 x2 x3 s4 else match captureSet s4 x1 x2 with | [] => s4 | l => capture x0 l s4) := by
    apply Within.ite (rcPut_within (Within.refl _ _) (by decide))
    split
    · exact Within.refl _ _
    · exact capture_within (Within.refl _ _) (by decide)
  have h1 : Within [.tb, .ph, .gal, .fe, .ch, .est, .sump, .link, .ring, .sqz, .saf, .ldr, .twi, .rtc, .wdt, .thm, .intc, .nvm, .fab, .shadow] s4 (freezeCal x0 s4).2 := freezeCal_within (Within.refl _ _) (by decide)
  have h2 : Within [.tb, .ph, .gal, .fe, .ch, .est, .sump, .link, .ring, .sqz, .saf, .ldr, .twi, .rtc, .wdt, .thm, .intc, .nvm, .fab, .shadow] s4 (readYear x0 s4).2 := readYear_within (Within.refl _ _) (by decide)
  have h3 (i : _) : Within [.tb, .ph, .gal, .fe, .ch, .est, .sump, .link, .ring, .sqz, .saf, .ldr, .twi, .rtc, .wdt, .thm, .intc, .nvm, .fab, .shadow] s4 (readBram i s4).2 := readBram_within (Within.refl _ _) (by decide)
  have h4 (i : _) : Within [.tb, .ph, .gal, .fe, .ch, .est, .sump, .link, .ring, .sqz, .saf, .ldr, .twi, .rtc, .wdt, .thm, .intc, .nvm, .fab, .shadow] s4 (claimRead x0 i s4).2 := claimRead_within (Within.refl _ _) (by decide)
  have h5 (i : _) : Within [.tb, .ph, .gal, .fe, .ch, .est, .sump, .link, .ring, .sqz, .saf, .ldr, .twi, .rtc, .wdt, .thm, .intc, .nvm, .fab, .shadow] s4 (winRead x0 i x1 s4).2 := winRead_within (Within.refl _ _) (by decide)
  generalize x2.row.id = r
  split
  · exact h1
  · exact h2
  · exact h3 _
  · exact h4 _
  · exact h5 _
  · exact hd

theorem readRacing_within {l : List Part} {u : State} {x0 : Path} {x1 : Nat} {x2 : Word} {s3 : State} (h : Within l u s3)
    (m : ([.tb, .ph, .gal, .fe, .ch, .est, .sump, .link, .ring, .sqz, .saf, .ldr, .twi, .rtc, .wdt, .thm, .intc, .nvm, .fab, .shadow] : List Part).all l.contains = true) :
    Within l u (readRacing x0 x1 x2 s3).2 := by
  refine h.andThen (m := [.tb, .ph, .gal, .fe, .ch, .est, .sump, .link, .ring, .sqz, .saf, .ldr, .twi, .rtc, .wdt, .thm, .intc, .nvm, .fab, .shadow]) ?_ m; clear h m
  unfold readRacing
  repeat' first
    | (with_reducible exact Within.refl _ _) | assumption | (with_reducible apply Within.ite)
    | (with_reducible apply readEffect_within (m := by decide)) | (with_reducible apply Within.forEach (hf := fun _ _ => ?_))
    | (with_reducible apply Within.foldl (hf := fun _ _ => ?_)) | split | dsimp only

theorem readReg_within {l : List Part} {u : State} {x0 : Path} {x1 : Nat} {s2 : State} (h : Within l u s2)
    (m : ([.tb, .ph, .gal, .fe, .ch, .est, .sump, .link, .ring, .sqz, .saf, .ldr, .twi, .rtc, .wdt, .thm, .intc, .nvm, .fab, .shadow] : List Part).all l.contains = true) :
    Within l u (readReg x0 x1 s2).2 := by
  refine h.andThen (m := [.tb, .ph, .gal, .fe, .ch, .est, .sump, .link, .ring, .sqz, .saf, .ldr, .twi, .rtc, .wdt, .thm, .intc, .nvm, .fab, .shadow]) ?_ m; clear h m
  unfold readReg
  repeat' first
    | (with_reducible exact Within.refl _ _) | assumption | (with_reducible apply Within.ite)
    | (with_reducible apply readRacing_within (m := by decide)) | (with_reducible apply Within.forEach (hf := fun _ _ => ?_))
    | (with_reducible apply Within.foldl (hf := fun _ _ => ?_)) | split | dsimp only

theorem servo_within {l : List Part} {u : State} {x0 : Int} {x1 : Int} {s2 : State} (h : Within l u s2)
    (m : ([.tb] : List Part).all l.contains = true) :
    Within l u (servo x0 x1 s2) := by
  refine h.andThen (m := [.tb]) ?_ m; clear h m
  unfold servo
  repeat' first
    | (with_reducible exact Within.refl _ _) | assumption | (with_reducible apply Within.ite)
    | (with_reducible apply modTb_within (m := by decide)) | (with_reducible apply Within.forEach (hf := fun _ _ => ?_))
    | (with_reducible apply Within.foldl (hf := fun _ _ => ?_)) | split | dsimp only

theorem newPeriod_within {l : List Part} {u : State} {x0 : Bool} {s1 : State} (h : Within l u s1)
    (m : ([.ch] : List Part).all l.contains = true) :
    Within l u (newPeriod x0 s1) := by
  refine h.andThen (m := [.ch]) ?_ m; clear h m
  unfold newPeriod forEach
  repeat' first
    | (with_reducible exact Within.refl _ _) | assumption | (with_reducible apply Within.ite)
    | (with_reducible apply modCh_within (m := by decide)) | (with_reducible apply Within.forEach (hf := fun _ _ => ?_))
    | (with_reducible apply Within.foldl (hf := fun _ _ => ?_)) | split | dsimp only

theorem enterNormal_within {l : List Part} {u : State} {s0 : State} (h : Within l u s0)
    (m : ([.ch, .sump] : List Part).all l.contains = true) :
    Within l u (enterNormal s0) := by
  refine h.andThen (m := [.ch, .sump]) ?_ m; clear h m
  unfold enterNormal
  repeat' first
    | (with_reducible exact Within.refl _ _) | assumption | (with_reducible apply Within.ite)
    | (with_reducible apply setRide_within (m := by decide)) | (with_reducible apply newPeriod_within (m := by decide))
    | (with_reducible apply modSump_within (m := by decide)) | (with_reducible apply Within.forEach (hf := fun _ _ => ?_))
    | (with_reducible apply Within.foldl (hf := fun _ _ => ?_)) | split | dsimp only

theorem stagePlan_within {l : List Part} {u : State} {s0 : State} (h : Within l u s0)
    (m : ([.sump] : List Part).all l.contains = true) :
    Within l u (stagePlan s0) := by
  refine h.andThen (m := [.sump]) ?_ m; clear h m
  unfold stagePlan
  repeat' first
    | (with_reducible exact Within.refl _ _) | assumption | (with_reducible apply Within.ite)
    | (with_reducible apply modSump_within (m := by decide)) | (with_reducible apply Within.forEach (hf := fun _ _ => ?_))
    | (with_reducible apply Within.foldl (hf := fun _ _ => ?_)) | split | dsimp only

theorem enterPause_within {l : List Part} {u : State} {x0 : Ride} {s1 : State} (h : Within l u s1)
    (m : ([.ch, .sump, .fab] : List Part).all l.contains = true) :
    Within l u (enterPause x0 s1) := by
  refine h.andThen (m := [.ch, .sump, .fab]) ?_ m; clear h m
  unfold enterPause
  repeat' first
    | (with_reducible exact Within.refl _ _) | assumption | (with_reducible apply Within.ite)
    | (with_reducible apply setRide_within (m := by decide)) | (with_reducible apply expireAll_within (m := by decide))
    | (with_reducible apply stopLending_within (m := by decide)) | (with_reducible apply sumpPauses_within (m := by decide))
    | (with_reducible apply Within.forEach (hf := fun _ _ => ?_)) | (with_reducible apply Within.foldl (hf := fun _ _ => ?_))
    | split | dsimp only

theorem enterLoss_within {l : List Part} {u : State} {s0 : State} (h : Within l u s0)
    (m : ([.ch, .sump, .fab] : List Part).all l.contains = true) :
    Within l u (enterLoss s0) := by
  refine h.andThen (m := [.ch, .sump, .fab]) ?_ m; clear h m
  unfold enterLoss
  repeat' first
    | (with_reducible exact Within.refl _ _) | assumption | (with_reducible apply Within.ite)
    | (with_reducible apply setRide_within (m := by decide)) | (with_reducible apply newPeriod_within (m := by decide))
    | (with_reducible apply stagePlan_within (m := by decide)) | (with_reducible apply enterPause_within (m := by decide))
    | (with_reducible apply Within.forEach (hf := fun _ _ => ?_)) | (with_reducible apply Within.foldl (hf := fun _ _ => ?_))
    | split | dsimp only

theorem startClear_within {l : List Part} {u : State} {s0 : State} (h : Within l u s0)
    (m : ([.sump] : List Part).all l.contains = true) :
    Within l u (startClear s0) := by
  refine h.andThen (m := [.sump]) ?_ m; clear h m
  unfold startClear
  repeat' first
    | (with_reducible exact Within.refl _ _) | assumption | (with_reducible apply Within.ite)
    | (with_reducible apply modSump_within (m := by decide)) | (with_reducible apply Within.forEach (hf := fun _ _ => ?_))
    | (with_reducible apply Within.foldl (hf := fun _ _ => ?_)) | split | dsimp only

theorem enterReturn_within {l : List Part} {u : State} {s0 : State} (h : Within l u s0)
    (m : ([.ch, .sump] : List Part).all l.contains = true) :
    Within l u (enterReturn s0) := by
  refine h.andThen (m := [.ch, .sump]) ?_ m; clear h m
  unfold enterReturn
  repeat' first
    | (with_reducible exact Within.refl _ _) | assumption | (with_reducible apply Within.ite)
    | (with_reducible apply setRide_within (m := by decide)) | (with_reducible apply modSump_within (m := by decide))
    | (with_reducible apply Within.forEach (hf := fun _ _ => ?_)) | (with_reducible apply Within.foldl (hf := fun _ _ => ?_))
    | split | dsimp only

theorem enterDroop_within {l : List Part} {u : State} {x0 : Bool} {s1 : State} (h : Within l u s1)
    (m : ([.ch, .sump] : List Part).all l.contains = true) :
    Within l u (enterDroop x0 s1) := by
  refine h.andThen (m := [.ch, .sump]) ?_ m; clear h m
  unfold enterDroop
  repeat' first
    | (with_reducible exact Within.refl _ _) | assumption | (with_reducible apply Within.ite)
    | (with_reducible apply setRide_within (m := by decide)) | (with_reducible apply modSump_within (m := by decide))
    | (with_reducible apply stagePlan_within (m := by decide)) | (with_reducible apply stopLending_within (m := by decide))
    | (with_reducible apply Within.forEach (hf := fun _ _ => ?_)) | (with_reducible apply Within.foldl (hf := fun _ _ => ?_))
    | split | dsimp only

theorem rideStep_within {l : List Part} {u : State} {x0 : RideEv} {s1 : State} (h : Within l u s1)
    (m : ([.ch, .sump, .fab] : List Part).all l.contains = true) :
    Within l u (rideStep x0 s1) := by
  refine h.andThen (m := [.ch, .sump, .fab]) ?_ m; clear h m
  unfold rideStep
  repeat' first
    | (with_reducible exact Within.refl _ _) | assumption | (with_reducible apply Within.ite)
    | (with_reducible apply enterNormal_within (m := by decide)) | (with_reducible apply enterLoss_within (m := by decide))
    | (with_reducible apply startClear_within (m := by decide)) | (with_reducible apply expireAll_within (m := by decide))
    | (with_reducible apply enterReturn_within (m := by decide)) | (with_reducible apply enterPause_within (m := by decide))
    | (with_reducible apply raise_within (m := by decide)) | (with_reducible apply enterDroop_within (m := by decide))
    | (with_reducible apply Within.forEach (hf := fun _ _ => ?_)) | (with_reducible apply Within.foldl (hf := fun _ _ => ?_))
    | split | dsimp only

theorem rideEvent_within {l : List Part} {u : State} {x0 : RideEv} {s1 : State} (h : Within l u s1)
    (m : ([.ch, .sump, .fab] : List Part).all l.contains = true) :
    Within l u (rideEvent x0 s1) := by
  refine h.andThen (m := [.ch, .sump, .fab]) ?_ m; clear h m
  unfold rideEvent
  repeat' first
    | (with_reducible exact Within.refl _ _) | assumption | (with_reducible apply Within.ite)
    | (with_reducible apply modSump_within (m := by decide)) | (with_reducible apply rideStep_within (m := by decide))
    | (with_reducible apply Within.forEach (hf := fun _ _ => ?_)) | (with_reducible apply Within.foldl (hf := fun _ _ => ?_))
    | split | dsimp only

theorem xferFails_within {l : List Part} {u : State} {x0 : Nat} {x1 : Nat} {s2 : State} (h : Within l u s2)
    (m : ([.twi, .fab] : List Part).all l.contains = true) :
    Within l u (xferFails x0 x1 s2) := by
  refine h.andThen (m := [.twi, .fab]) ?_ m; clear h m
  unfold xferFails
  repeat' first
    | (with_reducible exact Within.refl _ _) | assumption | (with_reducible apply Within.ite)
    | (with_reducible apply modTwi_within (m := by decide)) | (with_reducible apply raise_within (m := by decide))
    | (with_reducible apply Within.forEach (hf := fun _ _ => ?_)) | (with_reducible apply Within.foldl (hf := fun _ _ => ?_))
    | split | dsimp only

theorem noteLoss_within {l : List Part} {u : State} {x0 : Bool} {s1 : State} (h : Within l u s1)
    (m : ([.sump] : List Part).all l.contains = true) :
    Within l u (noteLoss x0 s1) := by
  refine h.andThen (m := [.sump]) ?_ m; clear h m
  unfold noteLoss
  repeat' first
    | (with_reducible exact Within.refl _ _) | assumption | (with_reducible apply Within.ite)
    | (with_reducible apply modSump_within (m := by decide)) | (with_reducible apply Within.forEach (hf := fun _ _ => ?_))
    | (with_reducible apply Within.foldl (hf := fun _ _ => ?_)) | split | dsimp only

theorem klogStop_within {l : List Part} {u : State} {x0 : Nat} {s1 : State} (h : Within l u s1)
    (m : ([.est] : List Part).all l.contains = true) :
    Within l u (klogStop x0 s1) := by
  refine h.andThen (m := [.est]) ?_ m; clear h m
  unfold klogStop
  repeat' first
    | (with_reducible exact Within.refl _ _) | assumption | (with_reducible apply Within.ite)
    | (with_reducible apply modEst_within (m := by decide)) | (with_reducible apply Within.forEach (hf := fun _ _ => ?_))
    | (with_reducible apply Within.foldl (hf := fun _ _ => ?_)) | split | dsimp only

theorem sendResult_within {l : List Part} {u : State} {x0 : Nat} {x1 : Nat} {x2 : Nat} {x3 : Bool} {x4 : Graded} {s5 : State} (h : Within l u s5)
    (m : ([.est, .rcp, .ring, .nvm, .fab] : List Part).all l.contains = true) :
    Within l u (sendResult x0 x1 x2 x3 x4 s5) := by
  refine h.andThen (m := [.est, .rcp, .ring, .nvm, .fab]) ?_ m; clear h m
  unfold sendResult
  repeat' first
    | (with_reducible exact Within.refl _ _) | assumption | (with_reducible apply Within.ite)
    | (with_reducible apply ringPush_within (m := by decide)) | (with_reducible apply modEst_within (m := by decide))
    | (with_reducible apply raise_within (m := by decide)) | (with_reducible apply nvmRequest_within (m := by decide))
    | (with_reducible apply Within.forEach (hf := fun _ _ => ?_)) | (with_reducible apply Within.foldl (hf := fun _ _ => ?_))
    | (with_reducible apply Within.set_rcp (m := by decide)) | split | dsimp only
    | (refine Within.mk (Within.refl _ _) ?_; intro p hp; cases p <;> first | exact absurd (by decide) hp | rfl)

theorem grade_within {l : List Part} {u : State} {x0 : Nat} {x1 : Nat} {s2 : State} (h : Within l u s2)
    (m : ([.est, .rcp, .ring, .nvm, .fab] : List Part).all l.contains = true) :
    Within l u (grade x0 x1 s2) := by
  refine h.andThen (m := [.est, .rcp, .ring, .nvm, .fab]) ?_ m; clear h m
  unfold grade
  repeat' first
    | (with_reducible exact Within.refl _ _) | assumption | (with_reducible apply Within.ite)
    | (with_reducible apply modEst_within (m := by decide)) | (with_reducible apply raise_within (m := by decide))
    | (with_reducible apply sendResult_within (m := by decide)) | (with_reducible apply Within.forEach (hf := fun _ _ => ?_))
    | (with_reducible apply Within.foldl (hf := fun _ _ => ?_)) | split | dsimp only

theorem gradeCmd_within {l : List Part} {u : State} {x0 : Nat} {s1 : State} (h : Within l u s1)
    (m : ([.est, .rcp, .ring, .nvm, .fab] : List Part).all l.contains = true) :
    Within l u (gradeCmd x0 s1) := by
  refine h.andThen (m := [.est, .rcp, .ring, .nvm, .fab]) ?_ m; clear h m
  unfold gradeCmd
  repeat' first
    | (with_reducible exact Within.refl _ _) | assumption | (with_reducible apply Within.ite)
    | (with_reducible apply grade_within (m := by decide)) | (with_reducible apply raise_within (m := by decide))
    | (with_reducible apply Within.forEach (hf := fun _ _ => ?_)) | (with_reducible apply Within.foldl (hf := fun _ _ => ?_))
    | split | dsimp only

theorem tcAnswer_within {l : List Part} {u : State} {x0 : Nat} {x1 : Nat} {x2 : Nat} {x3 : Nat} {s4 : State} (h : Within l u s4)
    (m : ([.fab] : List Part).all l.contains = true) :
    Within l u (tcAnswer x0 x1 x2 x3 s4) := by
  refine h.andThen (m := [.fab]) ?_ m; clear h m
  unfold tcAnswer
  repeat' first
    | (with_reducible exact Within.refl _ _) | assumption | (with_reducible apply Within.ite)
    | (with_reducible apply pushEvent_within (m := by decide)) | (with_reducible apply Within.forEach (hf := fun _ _ => ?_))
    | (with_reducible apply Within.foldl (hf := fun _ _ => ?_)) | split | dsimp only

theorem tcCancel_within {l : List Part} {u : State} {x0 : List Byte} {s1 : State} (h : Within l u s1)
    (m : ([.tb, .fab] : List Part).all l.contains = true) :
    Within l u (tcCancel x0 s1).2 := by
  refine h.andThen (m := [.tb, .fab]) ?_ m; clear h m
  unfold tcCancel
  repeat' first
    | (with_reducible exact Within.refl _ _) | assumption | (with_reducible apply Within.ite)
    | (with_reducible apply modTc_within (m := by decide)) | (with_reducible apply tcAnswer_within (m := by decide))
    | (with_reducible apply tcComplete_within (m := by decide)) | (with_reducible apply Within.forEach (hf := fun _ _ => ?_))
    | (with_reducible apply Within.foldl (hf := fun _ _ => ?_)) | split | dsimp only

theorem tcJudge_within {l : List Part} {u : State} {x0 : Nat} {x1 : Nat} {x2 : List Byte} {s3 : State} (h : Within l u s3)
    (m : ([.tb, .fab] : List Part).all l.contains = true) :
    Within l u (tcJudge x0 x1 x2 s3) := by
  refine h.andThen (m := [.tb, .fab]) ?_ m; clear h m
  unfold tcJudge
  repeat' first
    | (with_reducible exact Within.refl _ _) | assumption | (with_reducible apply Within.ite)
    | (with_reducible apply modTc_within (m := by decide)) | (with_reducible apply tcAnswer_within (m := by decide))
    | (with_reducible apply modTb_within (m := by decide)) | (with_reducible apply tcCancel_within (m := by decide))
    | (with_reducible apply Within.forEach (hf := fun _ _ => ?_)) | (with_reducible apply Within.foldl (hf := fun _ _ => ?_))
    | split | dsimp only

theorem tcTake_within {l : List Part} {u : State} {x0 : Nat} {s1 : State} (h : Within l u s1)
    (m : ([.tb, .fab] : List Part).all l.contains = true) :
    Within l u (tcTake x0 s1) := by
  refine h.andThen (m := [.tb, .fab]) ?_ m; clear h m
  unfold tcTake
  repeat' first
    | (with_reducible exact Within.refl _ _) | assumption | (with_reducible apply Within.ite)
    | (with_reducible apply modTb_within (m := by decide)) | (with_reducible apply tcJudge_within (m := by decide))
    | (with_reducible apply Within.forEach (hf := fun _ _ => ?_)) | (with_reducible apply Within.foldl (hf := fun _ _ => ?_))
    | split | dsimp only

theorem rtcWerr_within {l : List Part} {u : State} {s0 : State} (h : Within l u s0)
    (m : ([.rtc, .fab] : List Part).all l.contains = true) :
    Within l u (rtcWerr s0) := by
  refine h.andThen (m := [.rtc, .fab]) ?_ m; clear h m
  unfold rtcWerr
  repeat' first
    | (with_reducible exact Within.refl _ _) | assumption | (with_reducible apply Within.ite)
    | (with_reducible apply modRtc_within (m := by decide)) | (with_reducible apply raise_within (m := by decide))
    | (with_reducible apply Within.forEach (hf := fun _ _ => ?_)) | (with_reducible apply Within.foldl (hf := fun _ _ => ?_))
    | split | dsimp only

theorem writeRtcCtrl_within {l : List Part} {u : State} {x0 : Word} {s1 : State} (h : Within l u s1)
    (m : ([.regs, .rtc, .fab] : List Part).all l.contains = true) :
    Within l u (writeRtcCtrl x0 s1) := by
  refine h.andThen (m := [.regs, .rtc, .fab]) ?_ m; clear h m
  unfold writeRtcCtrl
  repeat' first
    | (with_reducible exact Within.refl _ _) | assumption | (with_reducible apply Within.ite)
    | (with_reducible apply rtcWerr_within (m := by decide)) | (with_reducible apply setCfg_within (m := by decide))
    | (with_reducible apply modRtc_within (m := by decide)) | (with_reducible apply Within.forEach (hf := fun _ _ => ?_))
    | (with_reducible apply Within.foldl (hf := fun _ _ => ?_)) | split | dsimp only

theorem raiseSlot_within {l : List Part} {u : State} {x0 : Nat} {x1 : Nat} {s2 : State} (h : Within l u s2)
    (m : ([.fab] : List Part).all l.contains = true) :
    Within l u (raiseSlot x0 x1 s2) := by
  refine h.andThen (m := [.fab]) ?_ m; clear h m
  unfold raiseSlot
  repeat' first
    | (with_reducible exact Within.refl _ _) | assumption | (with_reducible apply Within.ite)
    | (with_reducible apply raiseA_within (m := by decide)) | (with_reducible apply Within.forEach (hf := fun _ _ => ?_))
    | (with_reducible apply Within.foldl (hf := fun _ _ => ?_)) | split | dsimp only

theorem decideGal_within {l : List Part} {u : State} {x0 : Nat} {x1 : Nat} {s2 : State} (h : Within l u s2)
    (m : ([.ph, .gal, .ch, .saf, .fab] : List Part).all l.contains = true) :
    Within l u (decideGal x0 x1 s2) := by
  refine h.andThen (m := [.ph, .gal, .ch, .saf, .fab]) ?_ m; clear h m
  unfold decideGal forEach
  repeat' first
    | (with_reducible exact Within.refl _ _) | assumption | (with_reducible apply Within.ite)
    | (with_reducible apply raiseAt_within (m := by decide)) | (with_reducible apply safeGallery_within (m := by decide))
    | (with_reducible apply setHist_within (m := by decide)) | (with_reducible apply modGal_within (m := by decide))
    | (with_reducible apply modCh_within (m := by decide)) | (with_reducible apply Within.forEach (hf := fun _ _ => ?_))
    | (with_reducible apply Within.foldl (hf := fun _ _ => ?_)) | (with_reducible apply Within.set_saf (m := by decide)) | split
    | dsimp only | (refine Within.mk (Within.refl _ _) ?_; intro p hp; cases p <;> first | exact absurd (by decide) hp | rfl)

theorem railOff_within {l : List Part} {u : State} {x0 : Nat} {s1 : State} (h : Within l u s1)
    (m : ([.seq, .ph] : List Part).all l.contains = true) :
    Within l u (railOff x0 s1) := by
  refine h.andThen (m := [.seq, .ph]) ?_ m; clear h m
  unfold railOff forEach
  repeat' first
    | (with_reducible exact Within.refl _ _) | assumption | (with_reducible apply Within.ite)
    | (with_reducible apply modSeq_within (m := by decide)) | (with_reducible apply modRail_within (m := by decide))
    | (with_reducible apply modPh_within (m := by decide)) | (with_reducible apply Within.forEach (hf := fun _ _ => ?_))
    | (with_reducible apply Within.foldl (hf := fun _ _ => ?_)) | split | dsimp only

theorem downDone_within {l : List Part} {u : State} {s0 : State} (h : Within l u s0)
    (m : ([.mode, .seq, .saf, .nvm, .acc, .free] : List Part).all l.contains = true) :
    Within l u (downDone s0) := by
  refine h.andThen (m := [.mode, .seq, .saf, .nvm, .acc, .free]) ?_ m; clear h m
  unfold downDone
  have fin (t : State) (a b c d : _) : Within [.mode, .seq, .saf, .nvm] t { t with mode := a, seq := b, saf := c, nvm := d } :=
    fun p hp => by cases p <;> first | exact absurd (by decide) hp | rfl
  extract_lets t n0 f0 s1' q finish
  have fin' (m : Mode) (f : Seq → Seq) : Within [.mode, .seq, .saf, .nvm, .acc, .free] s0 (finish m f) :=
    Within.andThen (l := [.mode, .seq, .saf, .nvm, .acc, .free]) (m := [.mode, .seq, .saf, .nvm]) (powerTear_within (Within.refl _ _) (by decide)) (fin _ _ _ _ _) (by decide)
  clear_value finish
  split
  · exact fin' _ _
  · exact fin' _ _
  · exact Within.ite (fin' _ _) (fin' _ _)
  · exact fin' _ _

theorem downBelow_within {l : List Part} {u : State} {x0 : Nat} {s1 : State} (h : Within l u s1)
    (m : ([.mode, .seq, .ph, .saf, .nvm, .acc, .free] : List Part).all l.contains = true) :
    Within l u (downBelow x0 s1) := by
  refine h.andThen (m := [.mode, .seq, .ph, .saf, .nvm, .acc, .free]) ?_ m; clear h m
  unfold downBelow
  repeat' first
    | (with_reducible exact Within.refl _ _) | assumption | (with_reducible apply Within.ite)
    | (with_reducible apply railOff_within (m := by decide)) | (with_reducible apply downDone_within (m := by decide))
    | (with_reducible apply Within.forEach (hf := fun _ _ => ?_)) | (with_reducible apply Within.foldl (hf := fun _ _ => ?_))
    | split | dsimp only

theorem reverse_within {l : List Part} {u : State} {x0 : DownGoal} {s1 : State} (h : Within l u s1)
    (m : ([.mode, .seq, .ph, .saf, .nvm, .acc, .free] : List Part).all l.contains = true) :
    Within l u (reverse x0 s1) := by
  refine h.andThen (m := [.mode, .seq, .ph, .saf, .nvm, .acc, .free]) ?_ m; clear h m
  unfold reverse
  repeat' first
    | (with_reducible exact Within.refl _ _) | assumption | (with_reducible apply Within.ite)
    | (with_reducible apply railOff_within (m := by decide)) | (with_reducible apply modSeq_within (m := by decide))
    | (with_reducible apply downBelow_within (m := by decide)) | (with_reducible apply Within.forEach (hf := fun _ _ => ?_))
    | (with_reducible apply Within.foldl (hf := fun _ _ => ?_)) | split | dsimp only

theorem failedAttempt_within {l : List Part} {u : State} {s0 : State} (h : Within l u s0)
    (m : ([.mode, .seq, .ph, .saf, .nvm, .acc, .free] : List Part).all l.contains = true) :
    Within l u (failedAttempt s0) := by
  refine h.andThen (m := [.mode, .seq, .ph, .saf, .nvm, .acc, .free]) ?_ m; clear h m
  unfold failedAttempt
  repeat' first
    | (with_reducible exact Within.refl _ _) | assumption | (with_reducible apply Within.ite)
    | (with_reducible apply modSeq_within (m := by decide)) | (with_reducible apply reverse_within (m := by decide))
    | (with_reducible apply Within.forEach (hf := fun _ _ => ?_)) | (with_reducible apply Within.foldl (hf := fun _ _ => ?_))
    | split | dsimp only

theorem enableSlot_within {l : List Part} {u : State} {x0 : Nat} {x1 : Bool} {s2 : State} (h : Within l u s2)
    (m : ([.mode, .seq, .ph, .saf, .nvm, .acc, .fab, .free] : List Part).all l.contains = true) :
    Within l u (enableSlot x0 x1 s2) := by
  refine h.andThen (m := [.mode, .seq, .ph, .saf, .nvm, .acc, .fab, .free]) ?_ m; clear h m
  unfold enableSlot
  repeat' first
    | (with_reducible exact Within.refl _ _) | assumption | (with_reducible apply Within.ite)
    | (with_reducible apply raiseSlot_within (m := by decide)) | (with_reducible apply modSeq_within (m := by decide))
    | (with_reducible apply modRail_within (m := by decide)) | (with_reducible apply railOn_within (m := by decide))
    | (with_reducible apply failedAttempt_within (m := by decide)) | (with_reducible apply Within.forEach (hf := fun _ _ => ?_))
    | (with_reducible apply Within.foldl (hf := fun _ _ => ?_)) | split | dsimp only

theorem coldStart_within {l : List Part} {u : State} {s0 : State} (h : Within l u s0)
    (m : ([.mode, .seq, .regs, .tb, .ph, .gal, .fe, .ch, .est, .rcp, .sump, .link, .ring, .sqz, .saf, .ldr, .twi, .rtc, .wdt, .thm, .intc, .nvm, .acc, .fab, .shadow, .out, .free, .pending] : List Part).all l.contains = true) :
    Within l u (coldStart s0) := by
  refine h.andThen (m := [.mode, .seq, .regs, .tb, .ph, .gal, .fe, .ch, .est, .rcp, .sump, .link, .ring, .sqz, .saf, .ldr, .twi, .rtc, .wdt, .thm, .intc, .nvm, .acc, .fab, .shadow, .out, .free, .pending]) ?_ m; clear h m
  unfold coldStart
  repeat' first
    | (with_reducible exact Within.refl _ _) | assumption | (with_reducible apply Within.ite)
    | (with_reducible apply raise_within (m := by decide)) | (with_reducible apply Within.forEach (hf := fun _ _ => ?_))
    | (with_reducible apply Within.foldl (hf := fun _ _ => ?_)) | (with_reducible apply Within.set_mode (m := by decide))
    | (with_reducible apply Within.set_seq (m := by decide)) | (with_reducible apply Within.set_regs (m := by decide))
    | (with_reducible apply Within.set_tb (m := by decide)) | (with_reducible apply Within.set_ph (m := by decide))
    | (with_reducible apply Within.set_gal (m := by decide)) | (with_reducible apply Within.set_fe (m := by decide))
    | (with_reducible apply Within.set_ch (m := by decide)) | (with_reducible apply Within.set_est (m := by decide))
    | (with_reducible apply Within.set_rcp (m := by decide)) | (with_reducible apply Within.set_sump (m := by decide))
    | (with_reducible apply Within.set_link (m := by decide)) | (with_reducible apply Within.set_ring (m := by decide))
    | (with_reducible apply Within.set_sqz (m := by decide)) | (with_reducible apply Within.set_saf (m := by decide))
    | (with_reducible apply Within.set_ldr (m := by decide)) | (with_reducible apply Within.set_twi (m := by decide))
    | (with_reducible apply Within.set_rtc (m := by decide)) | (with_reducible apply Within.set_wdt (m := by decide))
    | (with_reducible apply Within.set_thm (m := by decide)) | (with_reducible apply Within.set_intc (m := by decide))
    | (with_reducible apply Within.set_nvm (m := by decide)) | (with_reducible apply Within.set_acc (m := by decide))
    | (with_reducible apply Within.set_fab (m := by decide)) | (with_reducible apply Within.set_shadow (m := by decide))
    | (with_reducible apply Within.set_out (m := by decide)) | (with_reducible apply Within.set_free (m := by decide))
    | (with_reducible apply Within.set_pending (m := by decide)) | split | dsimp only
    | (refine Within.mk (Within.refl _ _) ?_; intro p hp; cases p <;> first | exact absurd (by decide) hp | rfl)

theorem powerUpDone_within {l : List Part} {u : State} {s0 : State} (h : Within l u s0)
    (m : ([.mode, .seq, .regs, .tb, .ph, .gal, .fe, .ch, .est, .rcp, .sump, .link, .ring, .sqz, .saf, .ldr, .twi, .rtc, .wdt, .thm, .intc, .nvm, .acc, .fab, .shadow, .out, .free, .pending] : List Part).all l.contains = true) :
    Within l u (powerUpDone s0) := by
  refine h.andThen (m := [.mode, .seq, .regs, .tb, .ph, .gal, .fe, .ch, .est, .rcp, .sump, .link, .ring, .sqz, .saf, .ldr, .twi, .rtc, .wdt, .thm, .intc, .nvm, .acc, .fab, .shadow, .out, .free, .pending]) ?_ m; clear h m
  unfold powerUpDone
  extract_lets q0 q
  split
  · rename_i m _
    have h : Within [.mode, .seq, .regs, .tb, .ph, .gal, .fe, .ch, .est, .rcp, .sump, .link, .ring, .sqz, .saf, .ldr, .twi, .rtc, .wdt, .thm, .intc, .nvm, .acc, .fab, .shadow, .out, .free, .pending] s0 { s0 with seq := q } := Within.set_seq (Within.refl _ _) (by decide)
    exact updateSens_within (Within.ite h (goMode_within (abortAll_within h (by decide)) (by decide))) (by decide)
  · exact coldStart_within (Within.set_seq (Within.refl _ _) (by decide)) (by decide)

theorem feCond_within {l : List Part} {u : State} {x0 : Nat} {x1 : Nat} {x2 : Bool} {s3 : State} (h : Within l u s3)
    (m : ([.fe] : List Part).all l.contains = true) :
    Within l u (feCond x0 x1 x2 s3) := by
  refine h.andThen (m := [.fe]) ?_ m; clear h m
  unfold feCond
  repeat' first
    | (with_reducible exact Within.refl _ _) | assumption | (with_reducible apply Within.ite)
    | (with_reducible apply modFe_within (m := by decide)) | (with_reducible apply Within.forEach (hf := fun _ _ => ?_))
    | (with_reducible apply Within.foldl (hf := fun _ _ => ?_)) | split | dsimp only

theorem startCh_within {l : List Part} {u : State} {x0 : Img} {x1 : List Nat} {x2 : Nat} {s3 : State} (h : Within l u s3)
    (m : ([.ch] : List Part).all l.contains = true) :
    Within l u (startCh x0 x1 x2 s3) := by
  refine h.andThen (m := [.ch]) ?_ m; clear h m
  unfold startCh
  repeat' first
    | (with_reducible exact Within.refl _ _) | assumption | (with_reducible apply Within.ite)
    | (with_reducible apply modCh_within (m := by decide)) | (with_reducible apply Within.forEach (hf := fun _ _ => ?_))
    | (with_reducible apply Within.foldl (hf := fun _ _ => ?_)) | split | dsimp only

theorem queueCmd_within {l : List Part} {u : State} {x0 : Nat} {x1 : ChCmd} {s2 : State} (h : Within l u s2)
    (m : ([.ch, .fab] : List Part).all l.contains = true) :
    Within l u (queueCmd x0 x1 s2) := by
  refine h.andThen (m := [.ch, .fab]) ?_ m; clear h m
  unfold queueCmd
  repeat' first
    | (with_reducible exact Within.refl _ _) | assumption | (with_reducible apply Within.ite)
    | (with_reducible apply refuseCmd_within (m := by decide)) | (with_reducible apply modCh_within (m := by decide))
    | (with_reducible apply Within.forEach (hf := fun _ _ => ?_)) | (with_reducible apply Within.foldl (hf := fun _ _ => ?_))
    | split | dsimp only

theorem chCmd_within {l : List Part} {u : State} {x0 : Path} {x1 : Nat} {x2 : ChCmd} {s3 : State} (h : Within l u s3)
    (m : ([.ch, .fab] : List Part).all l.contains = true) :
    Within l u (chCmd x0 x1 x2 s3) := by
  refine h.andThen (m := [.ch, .fab]) ?_ m; clear h m
  unfold chCmd chGate regGate
  repeat' first
    | (with_reducible exact Within.refl _ _) | assumption | (with_reducible apply Within.ite)
    | (with_reducible apply raiseReg_within (m := by decide)) | (with_reducible apply raiseA_within (m := by decide))
    | (with_reducible apply queueCmd_within (m := by decide)) | (with_reducible apply Within.forEach (hf := fun _ _ => ?_))
    | (with_reducible apply Within.foldl (hf := fun _ _ => ?_)) | split | dsimp only

theorem tellCell_within {l : List Part} {u : State} {x0 : Nat} {x1 : Nat} {s2 : State} (h : Within l u s2)
    (m : ([.est] : List Part).all l.contains = true) :
    Within l u (tellCell x0 x1 s2) := by
  refine h.andThen (m := [.est]) ?_ m; clear h m
  unfold tellCell
  repeat' first
    | (with_reducible exact Within.refl _ _) | assumption | (with_reducible apply Within.ite)
    | (with_reducible apply modEst_within (m := by decide)) | (with_reducible apply Within.forEach (hf := fun _ _ => ?_))
    | (with_reducible apply Within.foldl (hf := fun _ _ => ?_)) | split | dsimp only

theorem portDown_within {l : List Part} {u : State} {x0 : Nat} {s1 : State} (h : Within l u s1)
    (m : ([.link] : List Part).all l.contains = true) :
    Within l u (portDown x0 s1) := by
  refine h.andThen (m := [.link]) ?_ m; clear h m
  unfold portDown
  repeat' first
    | (with_reducible exact Within.refl _ _) | assumption | (with_reducible apply Within.ite)
    | (with_reducible apply modPort_within (m := by decide)) | (with_reducible apply Within.forEach (hf := fun _ _ => ?_))
    | (with_reducible apply Within.foldl (hf := fun _ _ => ?_)) | split | dsimp only

theorem startDrain_within {l : List Part} {u : State} {x0 : DrainGoal} {x1 : Nat} {x2 : Nat} {x3 : Option Nat} {s4 : State} (h : Within l u s4)
    (m : ([.tb] : List Part).all l.contains = true) :
    Within l u (startDrain x0 x1 x2 x3 s4) := by
  refine h.andThen (m := [.tb]) ?_ m; clear h m
  unfold startDrain
  repeat' first
    | (with_reducible exact Within.refl _ _) | assumption | (with_reducible apply Within.ite)
    | (with_reducible apply Within.forEach (hf := fun _ _ => ?_)) | (with_reducible apply Within.foldl (hf := fun _ _ => ?_))
    | (with_reducible apply Within.set_tb (m := by decide)) | split | dsimp only
    | (refine Within.mk (Within.refl _ _) ?_; intro p hp; cases p <;> first | exact absurd (by decide) hp | rfl)

theorem hostDrain_within {l : List Part} {u : State} {x0 : DrainGoal} {s1 : State} (h : Within l u s1)
    (m : ([.tb] : List Part).all l.contains = true) :
    Within l u (hostDrain x0 s1) := by
  refine h.andThen (m := [.tb]) ?_ m; clear h m
  unfold hostDrain
  repeat' first
    | (with_reducible exact Within.refl _ _) | assumption | (with_reducible apply Within.ite)
    | (with_reducible apply startDrain_within (m := by decide)) | (with_reducible apply Within.forEach (hf := fun _ _ => ?_))
    | (with_reducible apply Within.foldl (hf := fun _ _ => ?_)) | split | dsimp only

theorem checkTemp_within {l : List Part} {u : State} {x0 : Nat} {s1 : State} (h : Within l u s1)
    (m : ([.ph, .ch, .saf, .fab] : List Part).all l.contains = true) :
    Within l u (checkTemp x0 s1) := by
  refine h.andThen (m := [.ph, .ch, .saf, .fab]) ?_ m; clear h m
  unfold checkTemp
  repeat' first
    | (with_reducible exact Within.refl _ _) | assumption | (with_reducible apply Within.ite)
    | (with_reducible apply decideChs_within (m := by decide)) | (with_reducible apply Within.forEach (hf := fun _ _ => ?_))
    | (with_reducible apply Within.foldl (hf := fun _ _ => ?_)) | split | dsimp only

theorem takeAddress_within {l : List Part} {u : State} {s0 : State} (h : Within l u s0)
    (m : ([.link, .out] : List Part).all l.contains = true) :
    Within l u (takeAddress s0) := by
  refine h.andThen (m := [.link, .out]) ?_ m; clear h m
  unfold takeAddress forEach
  repeat' first
    | (with_reducible exact Within.refl _ _) | assumption | (with_reducible apply Within.ite)
    | (with_reducible apply announce_within (m := by decide)) | (with_reducible apply modLink_within (m := by decide))
    | (with_reducible apply Within.forEach (hf := fun _ _ => ?_)) | (with_reducible apply Within.foldl (hf := fun _ _ => ?_))
    | split | dsimp only

theorem tellInhibit_within {l : List Part} {u : State} {x0 : Bool} {s1 : State} (h : Within l u s1)
    (m : ([.ch, .sump, .fab] : List Part).all l.contains = true) :
    Within l u (tellInhibit x0 s1) := by
  refine h.andThen (m := [.ch, .sump, .fab]) ?_ m; clear h m
  unfold tellInhibit
  repeat' first
    | (with_reducible exact Within.refl _ _) | assumption | (with_reducible apply Within.ite)
    | (with_reducible apply modSump_within (m := by decide)) | (with_reducible apply inhUpdate_within (m := by decide))
    | (with_reducible apply Within.forEach (hf := fun _ _ => ?_)) | (with_reducible apply Within.foldl (hf := fun _ _ => ?_))
    | split | dsimp only

theorem commitMask_within {l : List Part} {u : State} {x0 : Nat} {x1 : Word} {s2 : State} (h : Within l u s2)
    (m : ([.tb] : List Part).all l.contains = true) :
    Within l u (commitMask x0 x1 s2) := by
  refine h.andThen (m := [.tb]) ?_ m; clear h m
  unfold commitMask
  repeat' first
    | (with_reducible exact Within.refl _ _) | assumption | (with_reducible apply Within.ite)
    | (with_reducible apply modGrp_within (m := by decide)) | (with_reducible apply Within.forEach (hf := fun _ _ => ?_))
    | (with_reducible apply Within.foldl (hf := fun _ _ => ?_)) | split | dsimp only

theorem refuseRecall_within {l : List Part} {u : State} {x0 : Nat} {s1 : State} (h : Within l u s1)
    (m : ([.seq, .ldr, .nvm, .fab] : List Part).all l.contains = true) :
    Within l u (refuseRecall x0 s1) := by
  refine h.andThen (m := [.seq, .ldr, .nvm, .fab]) ?_ m; clear h m
  unfold refuseRecall
  have hk (t : State) (a b : _) : Within [.seq, .ldr, .nvm, .fab] t { t with nvm := a, ldr := b } :=
    fun p hp => by cases p <;> first | exact absurd (by decide) hp | rfl
  refine raiseA_within ?_ (by decide)
  refine Within.andThen (l := [.seq, .ldr, .nvm, .fab]) (m := [.seq, .ldr, .nvm, .fab]) ?_ (hk _ _ _) (by decide)
  exact modSeq_within (Within.forEach (hf := fun _ _ => modRail_within (Within.refl _ _) (by decide)) (Within.refl _ _)) (by decide)

theorem haltLoader_within {l : List Part} {u : State} {x0 : Nat} {s1 : State} (h : Within l u s1)
    (m : ([.ldr, .fab] : List Part).all l.contains = true) :
    Within l u (haltLoader x0 s1) := by
  refine h.andThen (m := [.ldr, .fab]) ?_ m; clear h m
  unfold haltLoader
  repeat' first
    | (with_reducible exact Within.refl _ _) | assumption | (with_reducible apply Within.ite)
    | (with_reducible apply modLdr_within (m := by decide)) | (with_reducible apply raise_within (m := by decide))
    | (with_reducible apply Within.forEach (hf := fun _ _ => ?_)) | (with_reducible apply Within.foldl (hf := fun _ _ => ?_))
    | split | dsimp only

theorem applyPatch_within {l : List Part} {u : State} {s0 : State} (h : Within l u s0)
    (m : ([.ldr, .nvm, .fab] : List Part).all l.contains = true) :
    Within l u (applyPatch s0) := by
  refine h.andThen (m := [.ldr, .nvm, .fab]) ?_ m; clear h m
  unfold applyPatch
  repeat' first
    | (with_reducible exact Within.refl _ _) | assumption | (with_reducible apply Within.ite)
    | (with_reducible apply raise_within (m := by decide)) | (with_reducible apply Within.forEach (hf := fun _ _ => ?_))
    | (with_reducible apply Within.foldl (hf := fun _ _ => ?_)) | (with_reducible apply Within.set_ldr (m := by decide))
    | (with_reducible apply Within.set_nvm (m := by decide)) | split | dsimp only
    | (refine Within.mk (Within.refl _ _) ?_; intro p hp; cases p <;> first | exact absurd (by decide) hp | rfl)

theorem recallSeq_within {l : List Part} {u : State} {s0 : State} (h : Within l u s0)
    (m : ([.seq] : List Part).all l.contains = true) :
    Within l u (recallSeq s0) := by
  refine h.andThen (m := [.seq]) ?_ m; clear h m
  unfold recallSeq forEach
  repeat' first
    | (with_reducible exact Within.refl _ _) | assumption | (with_reducible apply Within.ite)
    | (with_reducible apply modSeq_within (m := by decide)) | (with_reducible apply modRail_within (m := by decide))
    | (with_reducible apply Within.forEach (hf := fun _ _ => ?_)) | (with_reducible apply Within.foldl (hf := fun _ _ => ?_))
    | split | dsimp only

theorem recallRecord_within {l : List Part} {u : State} {x0 : Nat} {x1 : Nat} {s2 : State} (h : Within l u s2)
    (m : ([.nvm, .fab] : List Part).all l.contains = true) :
    Within l u (recallRecord x0 x1 s2) := by
  refine h.andThen (m := [.nvm, .fab]) ?_ m; clear h m
  unfold recallRecord forEach
  repeat' first
    | (with_reducible exact Within.refl _ _) | assumption | (with_reducible apply Within.ite)
    | (with_reducible apply raiseA_within (m := by decide)) | (with_reducible apply raise_within (m := by decide))
    | (with_reducible apply Within.forEach (hf := fun _ _ => ?_)) | (with_reducible apply Within.foldl (hf := fun _ _ => ?_))
    | (with_reducible apply Within.set_nvm (m := by decide)) | split | dsimp only
    | (refine Within.mk (Within.refl _ _) ?_; intro p hp; cases p <;> first | exact absurd (by decide) hp | rfl)

theorem recallAll_within {l : List Part} {u : State} {s0 : State} (h : Within l u s0)
    (m : ([.seq, .rcp, .saf, .nvm, .acc, .fab] : List Part).all l.contains = true) :
    Within l u (recallAll s0) := by
  refine h.andThen (m := [.seq, .rcp, .saf, .nvm, .acc, .fab]) ?_ m; clear h m
  have hk (t : State) (a b c : _) : Within [.seq, .rcp, .saf, .nvm, .acc, .fab] t { t with rcp := a, saf := b, acc := c } :=
    fun p hp => by cases p <;> first | exact absurd (by decide) hp | rfl
  unfold recallAll
  extract_lets s1' s2' words stop s3'
  refine Within.andThen (l := [.seq, .rcp, .saf, .nvm, .acc, .fab]) (m := [.seq, .rcp, .saf, .nvm, .acc, .fab]) ?_ (hk _ _ _ _) (by decide)
  refine nvmCorrect_within (Within.set_nvm (recallSeq_within ?_ (by decide)) (by decide)) (by decide)
  exact Within.foldl (hf := fun _ _ => recallRecord_within (Within.refl _ _) (by decide)) (recallRecord_within (Within.refl _ _) (by decide))

theorem tryLaunch_within {l : List Part} {u : State} {x0 : Nat} {s1 : State} (h : Within l u s1)
    (m : ([.ch] : List Part).all l.contains = true) :
    Within l u (tryLaunch x0 s1) := by
  refine h.andThen (m := [.ch]) ?_ m; clear h m
  unfold tryLaunch
  repeat' first
    | (with_reducible exact Within.refl _ _) | assumption | (with_reducible apply Within.ite)
    | (with_reducible apply stageEng_within (m := by decide)) | (with_reducible apply Within.forEach (hf := fun _ _ => ?_))
    | (with_reducible apply Within.foldl (hf := fun _ _ => ?_)) | split | dsimp only

theorem supplyCause_within {l : List Part} {u : State} {x0 : Nat} {x1 : Nat} {x2 : Nat} {x3 : Nat} {x4 : Bool} {s5 : State} (h : Within l u s5)
    (m : ([.ch] : List Part).all l.contains = true) :
    Within l u (supplyCause x0 x1 x2 x3 x4 s5) := by
  refine h.andThen (m := [.ch]) ?_ m; clear h m
  unfold supplyCause
  repeat' first
    | (with_reducible exact Within.refl _ _) | assumption | (with_reducible apply Within.ite)
    | (with_reducible apply modCh_within (m := by decide)) | (with_reducible apply Within.forEach (hf := fun _ _ => ?_))
    | (with_reducible apply Within.foldl (hf := fun _ _ => ?_)) | split | dsimp only

theorem setPhFlt_within {l : List Part} {u : State} {x0 : Nat} {x1 : Nat} {s2 : State} (h : Within l u s2)
    (m : ([.ph] : List Part).all l.contains = true) :
    Within l u (setPhFlt x0 x1 s2) := by
  refine h.andThen (m := [.ph]) ?_ m; clear h m
  unfold setPhFlt
  repeat' first
    | (with_reducible exact Within.refl _ _) | assumption | (with_reducible apply Within.ite)
    | (with_reducible apply modPh_within (m := by decide)) | (with_reducible apply Within.forEach (hf := fun _ _ => ?_))
    | (with_reducible apply Within.foldl (hf := fun _ _ => ?_)) | split | dsimp only

theorem captureLfr_within {l : List Part} {u : State} {x0 : Nat} {x1 : Nat} {s2 : State} {s3 : State} (h : Within l u s3)
    (m : ([.ph] : List Part).all l.contains = true) :
    Within l u (captureLfr x0 x1 s2 s3) := by
  refine h.andThen (m := [.ph]) ?_ m; clear h m
  unfold captureLfr
  repeat' first
    | (with_reducible exact Within.refl _ _) | assumption | (with_reducible apply Within.ite)
    | (with_reducible apply modPh_within (m := by decide)) | (with_reducible apply Within.forEach (hf := fun _ _ => ?_))
    | (with_reducible apply Within.foldl (hf := fun _ _ => ?_)) | split | dsimp only

theorem latchPhase_within {l : List Part} {u : State} {x0 : Nat} {x1 : Nat} {x2 : Nat} {x3 : Nat} {s4 : State} (h : Within l u s4)
    (m : ([.ph, .ch, .saf, .fab] : List Part).all l.contains = true) :
    Within l u (latchPhase x0 x1 x2 x3 s4) := by
  refine h.andThen (m := [.ph, .ch, .saf, .fab]) ?_ m; clear h m
  unfold latchPhase
  repeat' first
    | (with_reducible exact Within.refl _ _) | assumption | (with_reducible apply Within.ite)
    | (with_reducible apply raiseA_within (m := by decide)) | (with_reducible apply supplyCause_within (m := by decide))
    | (with_reducible apply setPhFlt_within (m := by decide)) | (with_reducible apply decideCh_within (m := by decide))
    | (with_reducible apply modPh_within (m := by decide)) | (with_reducible apply captureLfr_within (m := by decide))
    | (with_reducible apply safeChannel_within (m := by decide)) | (with_reducible apply Within.forEach (hf := fun _ _ => ?_))
    | (with_reducible apply Within.foldl (hf := fun _ _ => ?_)) | split | dsimp only

theorem limitedCycle_within {l : List Part} {u : State} {x0 : Nat} {x1 : Nat} {s2 : State} (h : Within l u s2)
    (m : ([.ph, .ch, .saf, .fab] : List Part).all l.contains = true) :
    Within l u (limitedCycle x0 x1 s2) := by
  refine h.andThen (m := [.ph, .ch, .saf, .fab]) ?_ m; clear h m
  unfold limitedCycle
  repeat' first
    | (with_reducible exact Within.refl _ _) | assumption | (with_reducible apply Within.ite)
    | (with_reducible apply latchPhase_within (m := by decide)) | (with_reducible apply demandEvent_within (m := by decide))
    | (with_reducible apply modPh_within (m := by decide)) | (with_reducible apply Within.forEach (hf := fun _ _ => ?_))
    | (with_reducible apply Within.foldl (hf := fun _ _ => ?_)) | split | dsimp only

theorem estWait_within {l : List Part} {u : State} {x0 : Nat} {s1 : State} (h : Within l u s1)
    (m : ([.est] : List Part).all l.contains = true) :
    Within l u (estWait x0 s1) := by
  refine h.andThen (m := [.est]) ?_ m; clear h m
  unfold estWait
  repeat' first
    | (with_reducible exact Within.refl _ _) | assumption | (with_reducible apply Within.ite)
    | (with_reducible apply modEst_within (m := by decide)) | (with_reducible apply Within.forEach (hf := fun _ _ => ?_))
    | (with_reducible apply Within.foldl (hf := fun _ _ => ?_)) | split | dsimp only

theorem helloRefuse_within {l : List Part} {u : State} {x0 : Endpoint} {x1 : List Byte} {x2 : Nat} {s3 : State} (h : Within l u s3)
    (m : ([.link, .fab, .out] : List Part).all l.contains = true) :
    Within l u (helloRefuse x0 x1 x2 s3) := by
  refine h.andThen (m := [.link, .fab, .out]) ?_ m; clear h m
  unfold helloRefuse
  repeat' first
    | (with_reducible exact Within.refl _ _) | assumption | (with_reducible apply Within.ite)
    | (with_reducible apply pzRaise_within (m := by decide)) | (with_reducible apply pzSend_within (m := by decide))
    | (with_reducible apply Within.forEach (hf := fun _ _ => ?_)) | (with_reducible apply Within.foldl (hf := fun _ _ => ?_))
    | split | dsimp only

theorem learnArp_within {l : List Part} {u : State} {x0 : Nat} {x1 : Nat} {s2 : State} (h : Within l u s2)
    (m : ([.link] : List Part).all l.contains = true) :
    Within l u (learnArp x0 x1 s2) := by
  refine h.andThen (m := [.link]) ?_ m; clear h m
  unfold learnArp
  repeat' first
    | (with_reducible exact Within.refl _ _) | assumption | (with_reducible apply Within.ite)
    | (with_reducible apply modLink_within (m := by decide)) | (with_reducible apply Within.forEach (hf := fun _ _ => ?_))
    | (with_reducible apply Within.foldl (hf := fun _ _ => ?_)) | split | dsimp only

theorem ownRing_within {l : List Part} {u : State} {x0 : Nat} {x1 : Nat} {s2 : State} (h : Within l u s2)
    (m : ([.ring] : List Part).all l.contains = true) :
    Within l u (ownRing x0 x1 s2) := by
  refine h.andThen (m := [.ring]) ?_ m; clear h m
  unfold ownRing
  repeat' first
    | (with_reducible exact Within.refl _ _) | assumption | (with_reducible apply Within.ite)
    | (with_reducible apply modRing_within (m := by decide)) | (with_reducible apply Within.forEach (hf := fun _ _ => ?_))
    | (with_reducible apply Within.foldl (hf := fun _ _ => ?_)) | split | dsimp only

theorem openSession_within {l : List Part} {u : State} {x0 : Endpoint} {x1 : Nat} {x2 : List Byte} {s3 : State} (h : Within l u s3)
    (m : ([.link, .ring, .shadow, .out] : List Part).all l.contains = true) :
    Within l u (openSession x0 x1 x2 s3) := by
  refine h.andThen (m := [.link, .ring, .shadow, .out]) ?_ m; clear h m
  unfold openSession
  repeat' first
    | (with_reducible exact Within.refl _ _) | assumption | (with_reducible apply Within.ite)
    | (with_reducible apply learnArp_within (m := by decide)) | (with_reducible apply modLink_within (m := by decide))
    | (with_reducible apply pzAnswer_within (m := by decide)) | (with_reducible apply ownRing_within (m := by decide))
    | (with_reducible apply modShad_within (m := by decide)) | (with_reducible apply Within.forEach (hf := fun _ _ => ?_))
    | (with_reducible apply Within.foldl (hf := fun _ _ => ?_)) | split | dsimp only

theorem helloOpen_within {l : List Part} {u : State} {x0 : Endpoint} {x1 : List Byte} {s2 : State} (h : Within l u s2)
    (m : ([.link, .ring, .fab, .shadow, .out] : List Part).all l.contains = true) :
    Within l u (helloOpen x0 x1 s2) := by
  refine h.andThen (m := [.link, .ring, .fab, .shadow, .out]) ?_ m; clear h m
  unfold helloOpen
  repeat' first
    | (with_reducible exact Within.refl _ _) | assumption | (with_reducible apply Within.ite)
    | (with_reducible apply openSession_within (m := by decide)) | (with_reducible apply helloRefuse_within (m := by decide))
    | (with_reducible apply Within.forEach (hf := fun _ _ => ?_)) | (with_reducible apply Within.foldl (hf := fun _ _ => ?_))
    | split | dsimp only

theorem helloRole_within {l : List Part} {u : State} {x0 : Endpoint} {x1 : List Byte} {s2 : State} (h : Within l u s2)
    (m : ([.mode, .tb, .ph, .gal, .fe, .ch, .link, .ring, .saf, .ldr, .acc, .fab, .shadow, .out] : List Part).all l.contains = true) :
    Within l u (helloRole x0 x1 s2) := by
  refine h.andThen (m := [.mode, .tb, .ph, .gal, .fe, .ch, .link, .ring, .saf, .ldr, .acc, .fab, .shadow, .out]) ?_ m; clear h m
  unfold helloRole
  repeat' first
    | (with_reducible exact Within.refl _ _) | assumption | (with_reducible apply Within.ite)
    | (with_reducible apply closeSession_within (m := by decide)) | (with_reducible apply helloRefuse_within (m := by decide))
    | (with_reducible apply helloOpen_within (m := by decide)) | (with_reducible apply Within.forEach (hf := fun _ _ => ?_))
    | (with_reducible apply Within.foldl (hf := fun _ _ => ?_)) | split | dsimp only

theorem helloAct_within {l : List Part} {u : State} {x0 : Endpoint} {x1 : List Byte} {s2 : State} (h : Within l u s2)
    (m : ([.mode, .tb, .ph, .gal, .fe, .ch, .link, .ring, .saf, .ldr, .acc, .fab, .shadow, .out] : List Part).all l.contains = true) :
    Within l u (helloAct x0 x1 s2) := by
  refine h.andThen (m := [.mode, .tb, .ph, .gal, .fe, .ch, .link, .ring, .saf, .ldr, .acc, .fab, .shadow, .out]) ?_ m; clear h m
  unfold helloAct
  repeat' first
    | (with_reducible exact Within.refl _ _) | assumption | (with_reducible apply Within.ite)
    | (with_reducible apply helloRole_within (m := by decide)) | (with_reducible apply modLink_within (m := by decide))
    | (with_reducible apply closeSession_within (m := by decide)) | (with_reducible apply modSess_within (m := by decide))
    | (with_reducible apply pzSend_within (m := by decide)) | (with_reducible apply helloRefuse_within (m := by decide))
    | (with_reducible apply pzDiscard_within (m := by decide)) | (with_reducible apply Within.forEach (hf := fun _ _ => ?_))
    | (with_reducible apply Within.foldl (hf := fun _ _ => ?_)) | split | dsimp only

theorem fTick_within {l : List Part} {u : State} {x0 : Nat} {s1 : State} (h : Within l u s1)
    (m : ([.gal, .ring, .fab] : List Part).all l.contains = true) :
    Within l u (fTick x0 s1) := by
  refine h.andThen (m := [.gal, .ring, .fab]) ?_ m; clear h m
  unfold fTick
  repeat' first
    | (with_reducible exact Within.refl _ _) | assumption | (with_reducible apply Within.ite)
    | (with_reducible apply stopF_within (m := by decide)) | (with_reducible apply closeF_within (m := by decide))
    | (with_reducible apply modGal_within (m := by decide)) | (with_reducible apply Within.forEach (hf := fun _ _ => ?_))
    | (with_reducible apply Within.foldl (hf := fun _ _ => ?_)) | split | dsimp only

theorem declare_within {l : List Part} {u : State} {x0 : Nat} {x1 : Bool} {s2 : State} (h : Within l u s2)
    (m : ([.ph, .fe, .ch, .est] : List Part).all l.contains = true) :
    Within l u (declare x0 x1 s2) := by
  refine h.andThen (m := [.ph, .fe, .ch, .est]) ?_ m; clear h m
  unfold declare
  repeat' first
    | (with_reducible exact Within.refl _ _) | assumption | (with_reducible apply Within.ite)
    | (with_reducible apply abortEchoes_within (m := by decide)) | (with_reducible apply modEst_within (m := by decide))
    | (with_reducible apply modCh_within (m := by decide)) | (with_reducible apply safeChannel_within (m := by decide))
    | (with_reducible apply Within.forEach (hf := fun _ _ => ?_)) | (with_reducible apply Within.foldl (hf := fun _ _ => ?_))
    | split | dsimp only

theorem faultNext_within {l : List Part} {u : State} {x0 : Nat} {x1 : Nat} {s2 : State} (h : Within l u s2)
    (m : ([.ch] : List Part).all l.contains = true) :
    Within l u (faultNext x0 x1 s2) := by
  refine h.andThen (m := [.ch]) ?_ m; clear h m
  unfold faultNext
  repeat' first
    | (with_reducible exact Within.refl _ _) | assumption | (with_reducible apply Within.ite)
    | (with_reducible apply modCh_within (m := by decide)) | (with_reducible apply Within.forEach (hf := fun _ _ => ?_))
    | (with_reducible apply Within.foldl (hf := fun _ _ => ?_)) | split | dsimp only

theorem overRuns_within {l : List Part} {u : State} {x0 : Nat} {x1 : Bool} {x2 : Bool} {x3 : Bool} {s4 : State} (h : Within l u s4)
    (m : ([.ph, .fe, .ch, .est, .fab] : List Part).all l.contains = true) :
    Within l u (overRuns x0 x1 x2 x3 s4) := by
  refine h.andThen (m := [.ph, .fe, .ch, .est, .fab]) ?_ m; clear h m
  unfold overRuns
  repeat' first
    | (with_reducible exact Within.refl _ _) | assumption | (with_reducible apply Within.ite)
    | (with_reducible apply modFe_within (m := by decide)) | (with_reducible apply raiseA_within (m := by decide))
    | (with_reducible apply declare_within (m := by decide)) | (with_reducible apply feCond_within (m := by decide))
    | (with_reducible apply faultNext_within (m := by decide)) | (with_reducible apply Within.forEach (hf := fun _ _ => ?_))
    | (with_reducible apply Within.foldl (hf := fun _ _ => ?_)) | split | dsimp only

theorem restartBlock_within {l : List Part} {u : State} {x0 : Nat} {x1 : Samp} {s2 : State} (h : Within l u s2)
    (m : ([.fe, .sqz] : List Part).all l.contains = true) :
    Within l u (restartBlock x0 x1 s2) := by
  refine h.andThen (m := [.fe, .sqz]) ?_ m; clear h m
  unfold restartBlock
  repeat' first
    | (with_reducible exact Within.refl _ _) | assumption | (with_reducible apply Within.ite)
    | (with_reducible apply openBlock_within (m := by decide)) | (with_reducible apply Within.forEach (hf := fun _ _ => ?_))
    | (with_reducible apply Within.foldl (hf := fun _ _ => ?_)) | split | dsimp only

theorem blockTick_within {l : List Part} {u : State} {x0 : Nat} {x1 : Bool} {s2 : State} (h : Within l u s2)
    (m : ([.fe, .ring, .sqz, .fab, .free] : List Part).all l.contains = true) :
    Within l u (blockTick x0 x1 s2) := by
  refine h.andThen (m := [.fe, .ring, .sqz, .fab, .free]) ?_ m; clear h m
  unfold blockTick
  repeat' first
    | (with_reducible exact Within.refl _ _) | assumption | (with_reducible apply Within.ite)
    | (with_reducible apply closeBlock_within (m := by decide)) | (with_reducible apply restartBlock_within (m := by decide))
    | (with_reducible apply Within.forEach (hf := fun _ _ => ?_)) | (with_reducible apply Within.foldl (hf := fun _ _ => ?_))
    | split | dsimp only

theorem takeSample_within {l : List Part} {u : State} {x0 : Nat} {x1 : Int} {x2 : Int} {x3 : Nat} {x4 : Bool} {x5 : Bool} {x6 : Bool} {x7 : Bool} {s8 : State} (h : Within l u s8)
    (m : ([.ph, .gal, .fe, .ch, .est, .ring, .sqz, .fab, .free] : List Part).all l.contains = true) :
    Within l u (takeSample x0 x1 x2 x3 x4 x5 x6 x7 s8) := by
  refine h.andThen (m := [.ph, .gal, .fe, .ch, .est, .ring, .sqz, .fab, .free]) ?_ m; clear h m
  unfold takeSample
  repeat' first
    | (with_reducible exact Within.refl _ _) | assumption | (with_reducible apply Within.ite)
    | (with_reducible apply modFe_within (m := by decide)) | (with_reducible apply fTick_within (m := by decide))
    | (with_reducible apply overRuns_within (m := by decide)) | (with_reducible apply blockTick_within (m := by decide))
    | (with_reducible apply modCh_within (m := by decide)) | (with_reducible apply Within.forEach (hf := fun _ _ => ?_))
    | (with_reducible apply Within.foldl (hf := fun _ _ => ?_)) | split | dsimp only

theorem takeSubst_within {l : List Part} {u : State} {x0 : Nat} {x1 : Bool} {s2 : State} (h : Within l u s2)
    (m : ([.ph, .gal, .fe, .ch, .est, .ring, .sqz, .fab, .free] : List Part).all l.contains = true) :
    Within l u (takeSubst x0 x1 s2) := by
  refine h.andThen (m := [.ph, .gal, .fe, .ch, .est, .ring, .sqz, .fab, .free]) ?_ m; clear h m
  unfold takeSubst
  repeat' first
    | (with_reducible exact Within.refl _ _) | assumption | (with_reducible apply Within.ite)
    | (with_reducible apply modFe_within (m := by decide)) | (with_reducible apply takeSample_within (m := by decide))
    | (with_reducible apply Within.forEach (hf := fun _ _ => ?_)) | (with_reducible apply Within.foldl (hf := fun _ _ => ?_))
    | split | dsimp only

theorem wakePartner_within {l : List Part} {u : State} {x0 : Nat} {s1 : State} (h : Within l u s1)
    (m : ([.ph, .gal, .fe, .ch, .est, .ring, .sqz, .fab, .free] : List Part).all l.contains = true) :
    Within l u (wakePartner x0 s1) := by
  refine h.andThen (m := [.ph, .gal, .fe, .ch, .est, .ring, .sqz, .fab, .free]) ?_ m; clear h m
  unfold wakePartner
  repeat' first
    | (with_reducible exact Within.refl _ _) | assumption | (with_reducible apply Within.ite)
    | (with_reducible apply takeSubst_within (m := by decide)) | (with_reducible apply Within.forEach (hf := fun _ _ => ?_))
    | (with_reducible apply Within.foldl (hf := fun _ _ => ?_)) | split | dsimp only

theorem fuseCmd_within {l : List Part} {u : State} {x0 : Word} {s1 : State} (h : Within l u s1)
    (m : ([.acc, .fab] : List Part).all l.contains = true) :
    Within l u (fuseCmd x0 s1) := by
  refine h.andThen (m := [.acc, .fab]) ?_ m; clear h m
  unfold fuseCmd
  repeat' first
    | (with_reducible exact Within.refl _ _) | assumption | (with_reducible apply Within.ite)
    | (with_reducible apply raise_within (m := by decide)) | (with_reducible apply Within.forEach (hf := fun _ _ => ?_))
    | (with_reducible apply Within.foldl (hf := fun _ _ => ?_)) | (with_reducible apply Within.set_acc (m := by decide)) | split
    | dsimp only | (refine Within.mk (Within.refl _ _) ?_; intro p hp; cases p <;> first | exact absurd (by decide) hp | rfl)

theorem powerUp_within {l : List Part} {u : State} {x0 : Bool} {s1 : State} (h : Within l u s1)
    (m : ([.mode, .seq, .saf, .nvm, .acc, .fab, .free] : List Part).all l.contains = true) :
    Within l u (powerUp x0 s1) := by
  refine h.andThen (m := [.mode, .seq, .saf, .nvm, .acc, .fab, .free]) ?_ m; clear h m
  unfold powerUp
  repeat' first
    | (with_reducible exact Within.refl _ _) | assumption | (with_reducible apply Within.ite)
    | (with_reducible apply raiseSlot_within (m := by decide)) | (with_reducible apply modSeq_within (m := by decide))
    | (with_reducible apply modRail_within (m := by decide)) | (with_reducible apply railOn_within (m := by decide))
    | (with_reducible apply downDone_within (m := by decide)) | (with_reducible apply Within.forEach (hf := fun _ _ => ?_))
    | (with_reducible apply Within.foldl (hf := fun _ _ => ?_)) | split | dsimp only

theorem onRequest_within {l : List Part} {u : State} {x0 : Bool} {s1 : State} (h : Within l u s1)
    (m : ([.mode, .seq, .saf, .nvm, .acc, .fab, .free] : List Part).all l.contains = true) :
    Within l u (onRequest x0 s1) := by
  refine h.andThen (m := [.mode, .seq, .saf, .nvm, .acc, .fab, .free]) ?_ m; clear h m
  unfold onRequest
  repeat' first
    | (with_reducible exact Within.refl _ _) | assumption | (with_reducible apply Within.ite)
    | (with_reducible apply modSeq_within (m := by decide)) | (with_reducible apply powerUp_within (m := by decide))
    | (with_reducible apply raise_within (m := by decide)) | (with_reducible apply Within.forEach (hf := fun _ _ => ?_))
    | (with_reducible apply Within.foldl (hf := fun _ _ => ?_)) | split | dsimp only

theorem exitRest_within {l : List Part} {u : State} {x0 : Mode} {x1 : Bool} {s2 : State} (h : Within l u s2)
    (m : ([.seq, .ph, .gal, .ch, .saf, .fab] : List Part).all l.contains = true) :
    Within l u (exitRest x0 x1 s2) := by
  refine h.andThen (m := [.seq, .ph, .gal, .ch, .saf, .fab]) ?_ m; clear h m
  unfold exitRest forEach
  repeat' first
    | (with_reducible exact Within.refl _ _) | assumption | (with_reducible apply Within.ite)
    | (with_reducible apply raiseSlot_within (m := by decide)) | (with_reducible apply modSeq_within (m := by decide))
    | (with_reducible apply decideGal_within (m := by decide)) | (with_reducible apply modRail_within (m := by decide))
    | (with_reducible apply railOn_within (m := by decide)) | (with_reducible apply Within.forEach (hf := fun _ _ => ?_))
    | (with_reducible apply Within.foldl (hf := fun _ _ => ?_)) | split | dsimp only

theorem wake_within {l : List Part} {u : State} {x0 : Bool} {s1 : State} (h : Within l u s1)
    (m : ([.mode, .seq, .ph, .gal, .ch, .saf, .rtc, .nvm, .acc, .fab, .free] : List Part).all l.contains = true) :
    Within l u (wake x0 s1) := by
  refine h.andThen (m := [.mode, .seq, .ph, .gal, .ch, .saf, .rtc, .nvm, .acc, .fab, .free]) ?_ m; clear h m
  unfold wake
  repeat' first
    | (with_reducible exact Within.refl _ _) | assumption | (with_reducible apply Within.ite)
    | (with_reducible apply onRequest_within (m := by decide)) | (with_reducible apply exitRest_within (m := by decide))
    | (with_reducible apply modRtc_within (m := by decide)) | (with_reducible apply Within.forEach (hf := fun _ _ => ?_))
    | (with_reducible apply Within.foldl (hf := fun _ _ => ?_)) | split | dsimp only

theorem twiAnswer_within {l : List Part} {u : State} {x0 : Bool} {x1 : List Byte} {s2 : State} (h : Within l u s2)
    (m : ([.twi, .out] : List Part).all l.contains = true) :
    Within l u (twiAnswer x0 x1 s2) := by
  refine h.andThen (m := [.twi, .out]) ?_ m; clear h m
  unfold twiAnswer
  repeat' first
    | (with_reducible exact Within.refl _ _) | assumption | (with_reducible apply Within.ite)
    | (with_reducible apply modTwi_within (m := by decide)) | (with_reducible apply emit_within (m := by decide))
    | (with_reducible apply Within.forEach (hf := fun _ _ => ?_)) | (with_reducible apply Within.foldl (hf := fun _ _ => ?_))
    | split | dsimp only

theorem twiBusyNack_within {l : List Part} {u : State} {s0 : State} (h : Within l u s0)
    (m : ([.twi, .out] : List Part).all l.contains = true) :
    Within l u (twiBusyNack s0) := by
  refine h.andThen (m := [.twi, .out]) ?_ m; clear h m
  unfold twiBusyNack
  repeat' first
    | (with_reducible exact Within.refl _ _) | assumption | (with_reducible apply Within.ite)
    | (with_reducible apply twiAnswer_within (m := by decide)) | (with_reducible apply modTwi_within (m := by decide))
    | (with_reducible apply Within.forEach (hf := fun _ _ => ?_)) | (with_reducible apply Within.foldl (hf := fun _ _ => ?_))
    | split | dsimp only

theorem holdMask_within {l : List Part} {u : State} {x0 : Nat} {x1 : Nat} {x2 : Word} {s3 : State} (h : Within l u s3)
    (m : ([.tb] : List Part).all l.contains = true) :
    Within l u (holdMask x0 x1 x2 s3) := by
  refine h.andThen (m := [.tb]) ?_ m; clear h m
  unfold holdMask
  repeat' first
    | (with_reducible exact Within.refl _ _) | assumption | (with_reducible apply Within.ite)
    | (with_reducible apply modGrp_within (m := by decide)) | (with_reducible apply Within.forEach (hf := fun _ _ => ?_))
    | (with_reducible apply Within.foldl (hf := fun _ _ => ?_)) | split | dsimp only

theorem formatStore_within {l : List Part} {u : State} {x0 : Byte} {s1 : State} (h : Within l u s1)
    (m : ([.nvm, .fab] : List Part).all l.contains = true) :
    Within l u (formatStore x0 s1) := by
  refine h.andThen (m := [.nvm, .fab]) ?_ m; clear h m
  unfold formatStore nvmCmdGate regGate
  apply Within.ite (Within.refl _ _)
  apply Within.ite (raiseReg_within (Within.refl _ _) (by decide))
  dsimp only
  split
  · exact raise_within (Within.refl _ _) (by decide)
  · exact Within.set_nvm (Within.refl _ _) (by decide)

theorem commitCal_within {l : List Part} {u : State} {x0 : Byte} {s1 : State} (h : Within l u s1)
    (m : ([.nvm, .fab] : List Part).all l.contains = true) :
    Within l u (commitCal x0 s1) := by
  refine h.andThen (m := [.nvm, .fab]) ?_ m; clear h m
  unfold commitCal nvmCmdGate regGate
  apply Within.ite (Within.refl _ _)
  apply Within.ite (raiseReg_within (Within.refl _ _) (by decide))
  dsimp only
  split
  · exact raise_within (Within.refl _ _) (by decide)
  · exact nvmRequest_within (Within.set_nvm (Within.refl _ _) (by decide)) (by decide)

theorem scanStore_within {l : List Part} {u : State} {x0 : Byte} {s1 : State} (h : Within l u s1)
    (m : ([.nvm, .fab] : List Part).all l.contains = true) :
    Within l u (scanStore x0 s1) := by
  refine h.andThen (m := [.nvm, .fab]) ?_ m; clear h m
  unfold scanStore nvmCmdGate regGate
  apply Within.ite (Within.refl _ _)
  apply Within.ite (raiseReg_within (Within.refl _ _) (by decide))
  dsimp only
  split
  · exact raise_within (Within.refl _ _) (by decide)
  · exact Within.set_nvm (Within.refl _ _) (by decide)

theorem nvmZeroPages_within {l : List Part} {u : State} {x0 : Nat} {x1 : Nat} {s2 : State} (h : Within l u s2)
    (m : ([.nvm] : List Part).all l.contains = true) :
    Within l u (nvmZeroPages x0 x1 s2) := by
  refine h.andThen (m := [.nvm]) ?_ m; clear h m
  unfold nvmZeroPages
  repeat' first
    | (with_reducible exact Within.refl _ _) | assumption | (with_reducible apply Within.ite)
    | (with_reducible apply Within.forEach (hf := fun _ _ => ?_)) | (with_reducible apply Within.foldl (hf := fun _ _ => ?_))
    | (with_reducible apply Within.set_nvm (m := by decide)) | split | dsimp only
    | (refine Within.mk (Within.refl _ _) ?_; intro p hp; cases p <;> first | exact absurd (by decide) hp | rfl)

theorem putRegion_within {l : List Part} {u : State} {x0 : Nat} {x1 : Nat} {x2 : Nat} {x3 : Nat} {x4 : Nat} {x5 : List Byte} {s6 : State} (h : Within l u s6)
    (m : ([.nvm] : List Part).all l.contains = true) :
    Within l u (putRegion x0 x1 x2 x3 x4 x5 s6) := by
  refine h.andThen (m := [.nvm]) ?_ m; clear h m
  unfold putRegion
  repeat' first
    | (with_reducible exact Within.refl _ _) | assumption | (with_reducible apply Within.ite)
    | (with_reducible apply nvmRequest_within (m := by decide)) | (with_reducible apply Within.forEach (hf := fun _ _ => ?_))
    | (with_reducible apply Within.foldl (hf := fun _ _ => ?_)) | split | dsimp only

theorem defineRegion_within {l : List Part} {u : State} {s0 : State} (h : Within l u s0)
    (m : ([.nvm, .fab] : List Part).all l.contains = true) :
    Within l u (defineRegion s0) := by
  refine h.andThen (m := [.nvm, .fab]) ?_ m; clear h m
  unfold defineRegion
  repeat' first
    | (with_reducible exact Within.refl _ _) | assumption | (with_reducible apply Within.ite)
    | (with_reducible apply nvmZeroPages_within (m := by decide)) | (with_reducible apply putRegion_within (m := by decide))
    | (with_reducible apply raise_within (m := by decide)) | (with_reducible apply Within.forEach (hf := fun _ _ => ?_))
    | (with_reducible apply Within.foldl (hf := fun _ _ => ?_)) | split | dsimp only

theorem defineStore_within {l : List Part} {u : State} {x0 : Byte} {s1 : State} (h : Within l u s1)
    (m : ([.nvm, .fab] : List Part).all l.contains = true) :
    Within l u (defineStore x0 s1) := by
  refine h.andThen (m := [.nvm, .fab]) ?_ m; clear h m
  unfold defineStore nvmCmdGate regGate
  repeat' first
    | (with_reducible exact Within.refl _ _) | assumption | (with_reducible apply Within.ite)
    | (with_reducible apply defineRegion_within (m := by decide)) | (with_reducible apply raiseReg_within (m := by decide))
    | (with_reducible apply raise_within (m := by decide)) | (with_reducible apply Within.forEach (hf := fun _ _ => ?_))
    | (with_reducible apply Within.foldl (hf := fun _ _ => ?_)) | split | dsimp only

theorem writeNvmCmd_within {l : List Part} {u : State} {x0 : Path} {x1 : Word} {s2 : State} (h : Within l u s2)
    (m : ([.nvm, .fab] : List Part).all l.contains = true) :
    Within l u (writeNvmCmd x0 x1 s2) := by
  refine h.andThen (m := [.nvm, .fab]) ?_ m; clear h m
  unfold writeNvmCmd
  repeat' first
    | (with_reducible exact Within.refl _ _) | assumption | (with_reducible apply Within.ite)
    | (with_reducible apply formatStore_within (m := by decide)) | (with_reducible apply commitCal_within (m := by decide))
    | (with_reducible apply scanStore_within (m := by decide)) | (with_reducible apply raise_within (m := by decide))
    | (with_reducible apply defineStore_within (m := by decide)) | (with_reducible apply Within.forEach (hf := fun _ _ => ?_))
    | (with_reducible apply Within.foldl (hf := fun _ _ => ?_)) | split | dsimp only

theorem writeRingCtrl_within {l : List Part} {u : State} {x0 : Nat} {x1 : Word} {s2 : State} (h : Within l u s2)
    (m : ([.link, .ring, .fab] : List Part).all l.contains = true) :
    Within l u (writeRingCtrl x0 x1 s2) := by
  refine h.andThen (m := [.link, .ring, .fab]) ?_ m; clear h m
  unfold writeRingCtrl
  repeat' first
    | (with_reducible exact Within.refl _ _) | assumption | (with_reducible apply Within.ite)
    | (with_reducible apply modRing_within (m := by decide)) | (with_reducible apply updateWcr_within (m := by decide))
    | (with_reducible apply raise_within (m := by decide)) | (with_reducible apply disableRing_within (m := by decide))
    | (with_reducible apply Within.forEach (hf := fun _ _ => ?_)) | (with_reducible apply Within.foldl (hf := fun _ _ => ?_))
    | split | dsimp only

theorem winWrite_within {l : List Part} {u : State} {x0 : Path} {x1 : Nat} {x2 : Word} {s3 : State} (h : Within l u s3)
    (m : ([.nvm, .shadow] : List Part).all l.contains = true) :
    Within l u (winWrite x0 x1 x2 s3).2 := by
  refine h.andThen (m := [.nvm, .shadow]) ?_ m; clear h m
  unfold winWrite
  dsimp only
  split
  · exact Within.refl _ _
  · rw [apply_ite Prod.snd]
    exact Within.ite (modShad_within (Within.refl _ _) (by decide)) (nvmRequest_within (Within.refl _ _) (by decide))

theorem writeSqz_within {l : List Part} {u : State} {x0 : Nat} {x1 : Word} {s2 : State} (h : Within l u s2)
    (m : ([.regs, .link, .sqz, .fab] : List Part).all l.contains = true) :
    Within l u (writeSqz x0 x1 s2) := by
  refine h.andThen (m := [.regs, .link, .sqz, .fab]) ?_ m; clear h m
  unfold writeSqz
  repeat' first
    | (with_reducible exact Within.refl _ _) | assumption | (with_reducible apply Within.ite)
    | (with_reducible apply raiseReg_within (m := by decide)) | (with_reducible apply setCfg_within (m := by decide))
    | (with_reducible apply modSqz_within (m := by decide)) | (with_reducible apply updateWcr_within (m := by decide))
    | (with_reducible apply raise_within (m := by decide)) | (with_reducible apply Within.forEach (hf := fun _ _ => ?_))
    | (with_reducible apply Within.foldl (hf := fun _ _ => ?_)) | split | dsimp only

theorem seqRefused_within {l : List Part} {u : State} {s0 : State} (h : Within l u s0)
    (m : ([.fab] : List Part).all l.contains = true) :
    Within l u (seqRefused s0) := by
  refine h.andThen (m := [.fab]) ?_ m; clear h m
  unfold seqRefused
  repeat' first
    | (with_reducible exact Within.refl _ _) | assumption | (with_reducible apply Within.ite)
    | (with_reducible apply raise_within (m := by decide)) | (with_reducible apply Within.forEach (hf := fun _ _ => ?_))
    | (with_reducible apply Within.foldl (hf := fun _ _ => ?_)) | split | dsimp only

theorem orderly_within {l : List Part} {u : State} {x0 : DownGoal} {x1 : Nat} {s2 : State} (h : Within l u s2)
    (m : ([.mode, .seq, .tb, .ph, .saf, .nvm, .acc, .fab, .free] : List Part).all l.contains = true) :
    Within l u (orderly x0 x1 s2) := by
  refine h.andThen (m := [.mode, .seq, .tb, .ph, .saf, .nvm, .acc, .fab, .free]) ?_ m; clear h m
  unfold orderly
  repeat' first
    | (with_reducible exact Within.refl _ _) | assumption | (with_reducible apply Within.ite)
    | (with_reducible apply modSeq_within (m := by decide)) | (with_reducible apply seqRefused_within (m := by decide))
    | (with_reducible apply reverse_within (m := by decide)) | (with_reducible apply hostDrain_within (m := by decide))
    | (with_reducible apply Within.forEach (hf := fun _ _ => ?_)) | (with_reducible apply Within.foldl (hf := fun _ _ => ?_))
    | split | dsimp only

theorem clearEvt_within {l : List Part} {u : State} {s0 : State} (h : Within l u s0)
    (m : ([.seq, .fab] : List Part).all l.contains = true) :
    Within l u (clearEvt s0) := by
  refine h.andThen (m := [.seq, .fab]) ?_ m; clear h m
  unfold clearEvt forEach
  repeat' first
    | (with_reducible exact Within.refl _ _) | assumption | (with_reducible apply Within.ite)
    | (with_reducible apply modSeq_within (m := by decide)) | (with_reducible apply modRail_within (m := by decide))
    | (with_reducible apply seqRefused_within (m := by decide)) | (with_reducible apply Within.forEach (hf := fun _ _ => ?_))
    | (with_reducible apply Within.foldl (hf := fun _ _ => ?_)) | split | dsimp only

theorem writeSeqCmd_within {l : List Part} {u : State} {x0 : Word} {s1 : State} (h : Within l u s1)
    (m : ([.mode, .seq, .tb, .ph, .saf, .nvm, .acc, .fab, .free] : List Part).all l.contains = true) :
    Within l u (writeSeqCmd x0 s1) := by
  refine h.andThen (m := [.mode, .seq, .tb, .ph, .saf, .nvm, .acc, .fab, .free]) ?_ m; clear h m
  unfold writeSeqCmd seqCmdGate regGate
  repeat' first
    | (with_reducible exact Within.refl _ _) | assumption | (with_reducible apply Within.ite)
    | (with_reducible apply raiseReg_within (m := by decide)) | (with_reducible apply seqRefused_within (m := by decide))
    | (with_reducible apply orderly_within (m := by decide)) | (with_reducible apply clearEvt_within (m := by decide))
    | (with_reducible apply hostReset_within (m := by decide)) | (with_reducible apply Within.forEach (hf := fun _ _ => ?_))
    | (with_reducible apply Within.foldl (hf := fun _ _ => ?_)) | split | dsimp only

theorem sigrefWrite_within {l : List Part} {u : State} {x0 : Word} {s1 : State} (h : Within l u s1)
    (m : ([.saf, .fab] : List Part).all l.contains = true) :
    Within l u (sigrefWrite x0 s1) := by
  refine h.andThen (m := [.saf, .fab]) ?_ m; clear h m
  unfold sigrefWrite
  repeat' first
    | (with_reducible exact Within.refl _ _) | assumption | (with_reducible apply Within.ite)
    | (with_reducible apply raiseReg_within (m := by decide)) | (with_reducible apply raiseSrc_within (m := by decide))
    | (with_reducible apply modSaf_within (m := by decide)) | (with_reducible apply Within.forEach (hf := fun _ _ => ?_))
    | (with_reducible apply Within.foldl (hf := fun _ _ => ?_)) | split | dsimp only

theorem writeWdtCtrl_within {l : List Part} {u : State} {x0 : Word} {s1 : State} (h : Within l u s1)
    (m : ([.regs, .wdt, .fab] : List Part).all l.contains = true) :
    Within l u (writeWdtCtrl x0 s1) := by
  refine h.andThen (m := [.regs, .wdt, .fab]) ?_ m; clear h m
  unfold writeWdtCtrl
  repeat' first
    | (with_reducible exact Within.refl _ _) | assumption | (with_reducible apply Within.ite)
    | (with_reducible apply setCfg_within (m := by decide)) | (with_reducible apply modWdt_within (m := by decide))
    | (with_reducible apply raise_within (m := by decide)) | (with_reducible apply Within.forEach (hf := fun _ _ => ?_))
    | (with_reducible apply Within.foldl (hf := fun _ _ => ?_)) | split | dsimp only

theorem refuseRelease_within {l : List Part} {u : State} {x0 : Nat} {x1 : Unmet} {s2 : State} (h : Within l u s2)
    (m : ([.fab] : List Part).all l.contains = true) :
    Within l u (refuseRelease x0 x1 s2) := by
  refine h.andThen (m := [.fab]) ?_ m; clear h m
  unfold refuseRelease
  repeat' first
    | (with_reducible exact Within.refl _ _) | assumption | (with_reducible apply Within.ite)
    | (with_reducible apply raiseSrc_within (m := by decide)) | (with_reducible apply Within.forEach (hf := fun _ _ => ?_))
    | (with_reducible apply Within.foldl (hf := fun _ _ => ?_)) | split | dsimp only

theorem updateSafeN_within {l : List Part} {u : State} {s0 : State} (h : Within l u s0)
    (m : ([.saf] : List Part).all l.contains = true) :
    Within l u (updateSafeN s0) := by
  refine h.andThen (m := [.saf]) ?_ m; clear h m
  unfold updateSafeN
  repeat' first
    | (with_reducible exact Within.refl _ _) | assumption | (with_reducible apply Within.ite)
    | (with_reducible apply Within.forEach (hf := fun _ _ => ?_)) | (with_reducible apply Within.foldl (hf := fun _ _ => ?_))
    | (with_reducible apply Within.set_saf (m := by decide)) | split | dsimp only
    | (refine Within.mk (Within.refl _ _) ?_; intro p hp; cases p <;> first | exact absurd (by decide) hp | rfl)

theorem proofStart_within {l : List Part} {u : State} {s0 : State} (h : Within l u s0)
    (m : ([.saf, .fab] : List Part).all l.contains = true) :
    Within l u (proofStart s0) := by
  refine h.andThen (m := [.saf, .fab]) ?_ m; clear h m
  unfold proofStart
  repeat' first
    | (with_reducible exact Within.refl _ _) | assumption | (with_reducible apply Within.ite)
    | (with_reducible apply refuseRelease_within (m := by decide)) | (with_reducible apply updateSafeN_within (m := by decide))
    | (with_reducible apply modSaf_within (m := by decide)) | (with_reducible apply Within.forEach (hf := fun _ _ => ?_))
    | (with_reducible apply Within.foldl (hf := fun _ _ => ?_)) | split | dsimp only

theorem devRelease_within {l : List Part} {u : State} {s0 : State} (h : Within l u s0)
    (m : ([.mode, .ph, .gal, .fe, .ch, .saf, .fab] : List Part).all l.contains = true) :
    Within l u (devRelease s0) := by
  refine h.andThen (m := [.mode, .ph, .gal, .fe, .ch, .saf, .fab]) ?_ m; clear h m
  unfold devRelease
  split
  · exact refuseRelease_within (Within.refl _ _) (by decide)
  · exact updateSens_within (raiseSrc_within (updateSafeN_within (goMode_within (abortAll_within (Within.set_saf (Within.refl _ _) (by decide)) (by decide)) (by decide))
      (by decide)) (by decide)) (by decide)

theorem galRelease_within {l : List Part} {u : State} {x0 : Nat} {s1 : State} (h : Within l u s1)
    (m : ([.ph, .gal, .ch, .fab] : List Part).all l.contains = true) :
    Within l u (galRelease x0 s1) := by
  refine h.andThen (m := [.ph, .gal, .ch, .fab]) ?_ m; clear h m
  unfold galRelease
  repeat' first
    | (with_reducible exact Within.refl _ _) | assumption | (with_reducible apply Within.ite)
    | (with_reducible apply refuseRelease_within (m := by decide)) | (with_reducible apply updateSens_within (m := by decide))
    | (with_reducible apply modGal_within (m := by decide)) | (with_reducible apply Within.forEach (hf := fun _ _ => ?_))
    | (with_reducible apply Within.foldl (hf := fun _ _ => ?_)) | split | dsimp only

theorem writeSafCmd_within {l : List Part} {u : State} {x0 : Path} {x1 : Word} {s2 : State} (h : Within l u s2)
    (m : ([.mode, .ph, .gal, .fe, .ch, .saf, .fab] : List Part).all l.contains = true) :
    Within l u (writeSafCmd x0 x1 s2) := by
  refine h.andThen (m := [.mode, .ph, .gal, .fe, .ch, .saf, .fab]) ?_ m; clear h m
  unfold writeSafCmd safCmd regGate
  repeat' first
    | (with_reducible exact Within.refl _ _) | assumption | (with_reducible apply Within.ite)
    | (with_reducible apply refuseRelease_within (m := by decide)) | (with_reducible apply proofStart_within (m := by decide))
    | (with_reducible apply devRelease_within (m := by decide)) | (with_reducible apply galRelease_within (m := by decide))
    | (with_reducible apply refuseRelease_within (m := by decide)) | (with_reducible apply raiseReg_within (m := by decide))
    | (with_reducible apply Within.forEach (hf := fun _ _ => ?_)) | (with_reducible apply Within.foldl (hf := fun _ _ => ?_))
    | split | dsimp only

theorem writeRtcStat_within {l : List Part} {u : State} {x0 : Word} {s1 : State} (h : Within l u s1)
    (m : ([.rtc] : List Part).all l.contains = true) :
    Within l u (writeRtcStat x0 s1) := by
  refine h.andThen (m := [.rtc]) ?_ m; clear h m
  unfold writeRtcStat
  repeat' first
    | (with_reducible exact Within.refl _ _) | assumption | (with_reducible apply Within.ite)
    | (with_reducible apply modRtc_within (m := by decide)) | (with_reducible apply Within.forEach (hf := fun _ _ => ?_))
    | (with_reducible apply Within.foldl (hf := fun _ _ => ?_)) | split | dsimp only

theorem disableGroup_within {l : List Part} {u : State} {x0 : Nat} {s1 : State} (h : Within l u s1)
    (m : ([.tb] : List Part).all l.contains = true) :
    Within l u (disableGroup x0 s1) := by
  refine h.andThen (m := [.tb]) ?_ m; clear h m
  unfold disableGroup
  repeat' first
    | (with_reducible exact Within.refl _ _) | assumption | (with_reducible apply Within.ite)
    | (with_reducible apply modGrp_within (m := by decide)) | (with_reducible apply Within.forEach (hf := fun _ _ => ?_))
    | (with_reducible apply Within.foldl (hf := fun _ _ => ?_)) | split | dsimp only

theorem writeGctrl_within {l : List Part} {u : State} {x0 : Nat} {x1 : Word} {s2 : State} (h : Within l u s2)
    (m : ([.tb, .fab] : List Part).all l.contains = true) :
    Within l u (writeGctrl x0 x1 s2) := by
  refine h.andThen (m := [.tb, .fab]) ?_ m; clear h m
  unfold writeGctrl
  repeat' first
    | (with_reducible exact Within.refl _ _) | assumption | (with_reducible apply Within.ite)
    | (with_reducible apply disableGroup_within (m := by decide)) | (with_reducible apply modGrp_within (m := by decide))
    | (with_reducible apply raise_within (m := by decide)) | (with_reducible apply Within.forEach (hf := fun _ _ => ?_))
    | (with_reducible apply Within.foldl (hf := fun _ _ => ?_)) | split | dsimp only

theorem writeFeCal_within {l : List Part} {u : State} {x0 : Nat} {x1 : Word} {s2 : State} (h : Within l u s2)
    (m : ([.regs, .fe, .fab] : List Part).all l.contains = true) :
    Within l u (writeFeCal x0 x1 s2) := by
  refine h.andThen (m := [.regs, .fe, .fab]) ?_ m; clear h m
  unfold writeFeCal
  repeat' first
    | (with_reducible exact Within.refl _ _) | assumption | (with_reducible apply Within.ite)
    | (with_reducible apply raiseReg_within (m := by decide)) | (with_reducible apply setCfg_within (m := by decide))
    | (with_reducible apply modFe_within (m := by decide)) | (with_reducible apply Within.forEach (hf := fun _ _ => ?_))
    | (with_reducible apply Within.foldl (hf := fun _ _ => ?_)) | split | dsimp only

theorem relearnCmd_within {l : List Part} {u : State} {x0 : Nat} {s1 : State} (h : Within l u s1)
    (m : ([.est] : List Part).all l.contains = true) :
    Within l u (relearnCmd x0 s1) := by
  refine h.andThen (m := [.est]) ?_ m; clear h m
  unfold relearnCmd
  repeat' first
    | (with_reducible exact Within.refl _ _) | assumption | (with_reducible apply Within.ite)
    | (with_reducible apply modEst_within (m := by decide)) | (with_reducible apply Within.forEach (hf := fun _ _ => ?_))
    | (with_reducible apply Within.foldl (hf := fun _ _ => ?_)) | split | dsimp only

theorem klogStart_within {l : List Part} {u : State} {x0 : Nat} {s1 : State} (h : Within l u s1)
    (m : ([.est] : List Part).all l.contains = true) :
    Within l u (klogStart x0 s1) := by
  refine h.andThen (m := [.est]) ?_ m; clear h m
  unfold klogStart
  repeat' first
    | (with_reducible exact Within.refl _ _) | assumption | (with_reducible apply Within.ite)
    | (with_reducible apply modEst_within (m := by decide)) | (with_reducible apply Within.forEach (hf := fun _ _ => ?_))
    | (with_reducible apply Within.foldl (hf := fun _ _ => ?_)) | split | dsimp only

theorem writeEstCmd_within {l : List Part} {u : State} {x0 : Path} {x1 : Nat} {x2 : Word} {s3 : State} (h : Within l u s3)
    (m : ([.est, .rcp, .ring, .nvm, .fab] : List Part).all l.contains = true) :
    Within l u (writeEstCmd x0 x1 x2 s3) := by
  refine h.andThen (m := [.est, .rcp, .ring, .nvm, .fab]) ?_ m; clear h m
  unfold writeEstCmd estCmd chGate regGate
  repeat' first
    | (with_reducible exact Within.refl _ _) | assumption | (with_reducible apply Within.ite)
    | (with_reducible apply estWait_within (m := by decide)) | (with_reducible apply raiseReg_within (m := by decide))
    | (with_reducible apply raiseA_within (m := by decide)) | (with_reducible apply raise_within (m := by decide))
    | (with_reducible apply relearnCmd_within (m := by decide)) | (with_reducible apply klogStop_within (m := by decide))
    | (with_reducible apply klogStart_within (m := by decide)) | (with_reducible apply gradeCmd_within (m := by decide))
    | (with_reducible apply Within.forEach (hf := fun _ _ => ?_)) | (with_reducible apply Within.foldl (hf := fun _ _ => ?_))
    | split | dsimp only

theorem clearCmd_within {l : List Part} {u : State} {x0 : Nat} {s1 : State} (h : Within l u s1)
    (m : ([.ch, .fab] : List Part).all l.contains = true) :
    Within l u (clearCmd x0 s1) := by
  refine h.andThen (m := [.ch, .fab]) ?_ m; clear h m
  unfold clearCmd
  repeat' first
    | (with_reducible exact Within.refl _ _) | assumption | (with_reducible apply Within.ite)
    | (with_reducible apply refuseCmd_within (m := by decide)) | (with_reducible apply modCh_within (m := by decide))
    | (with_reducible apply Within.forEach (hf := fun _ _ => ?_)) | (with_reducible apply Within.foldl (hf := fun _ _ => ?_))
    | split | dsimp only

theorem writeChCmd_within {l : List Part} {u : State} {x0 : Path} {x1 : Nat} {x2 : Word} {s3 : State} (h : Within l u s3)
    (m : ([.ch, .fab] : List Part).all l.contains = true) :
    Within l u (writeChCmd x0 x1 x2 s3) := by
  refine h.andThen (m := [.ch, .fab]) ?_ m; clear h m
  unfold writeChCmd chGate regGate
  repeat' first
    | (with_reducible exact Within.refl _ _) | assumption | (with_reducible apply Within.ite)
    | (with_reducible apply chCmd_within (m := by decide)) | (with_reducible apply raiseReg_within (m := by decide))
    | (with_reducible apply raiseA_within (m := by decide)) | (with_reducible apply clearCmd_within (m := by decide))
    | (with_reducible apply refuseCmd_within (m := by decide)) | (with_reducible apply Within.forEach (hf := fun _ _ => ?_))
    | (with_reducible apply Within.foldl (hf := fun _ _ => ?_)) | split | dsimp only

theorem writeIntcSrc_within {l : List Part} {u : State} {x0 : Nat} {x1 : Word} {s2 : State} (h : Within l u s2)
    (m : ([.regs, .intc] : List Part).all l.contains = true) :
    Within l u (writeIntcSrc x0 x1 s2) := by
  refine h.andThen (m := [.regs, .intc]) ?_ m; clear h m
  unfold writeIntcSrc
  repeat' first
    | (with_reducible exact Within.refl _ _) | assumption | (with_reducible apply Within.ite)
    | (with_reducible apply setCfg_within (m := by decide)) | (with_reducible apply Within.forEach (hf := fun _ _ => ?_))
    | (with_reducible apply Within.foldl (hf := fun _ _ => ?_)) | (with_reducible apply Within.set_intc (m := by decide)) | split
    | dsimp only | (refine Within.mk (Within.refl _ _) ?_; intro p hp; cases p <;> first | exact absurd (by decide) hp | rfl)

theorem writeWdtCfg_within {l : List Part} {u : State} {x0 : Nat} {x1 : Word} {s2 : State} (h : Within l u s2)
    (m : ([.regs, .wdt, .fab] : List Part).all l.contains = true) :
    Within l u (writeWdtCfg x0 x1 s2) := by
  refine h.andThen (m := [.regs, .wdt, .fab]) ?_ m; clear h m
  unfold writeWdtCfg
  repeat' first
    | (with_reducible exact Within.refl _ _) | assumption | (with_reducible apply Within.ite)
    | (with_reducible apply setCfg_within (m := by decide)) | (with_reducible apply modSlot_within (m := by decide))
    | (with_reducible apply raise_within (m := by decide)) | (with_reducible apply Within.forEach (hf := fun _ _ => ?_))
    | (with_reducible apply Within.foldl (hf := fun _ _ => ?_)) | split | dsimp only

theorem writeXctl_within {l : List Part} {u : State} {x0 : Word} {s1 : State} (h : Within l u s1)
    (m : ([.twi, .fab, .out] : List Part).all l.contains = true) :
    Within l u (writeXctl x0 s1) := by
  refine h.andThen (m := [.twi, .fab, .out]) ?_ m; clear h m
  unfold writeXctl
  repeat' first
    | (with_reducible exact Within.refl _ _) | assumption | (with_reducible apply Within.ite)
    | (with_reducible apply startXfer_within (m := by decide)) | (with_reducible apply Within.forEach (hf := fun _ _ => ?_))
    | (with_reducible apply Within.foldl (hf := fun _ _ => ?_)) | (with_reducible apply Within.set_twi (m := by decide)) | split
    | dsimp only | (refine Within.mk (Within.refl _ _) ?_; intro p hp; cases p <;> first | exact absurd (by decide) hp | rfl)

theorem setStageOp_within {l : List Part} {u : State} {x0 : Bool} {s1 : State} (h : Within l u s1)
    (m : ([.ph, .gal, .ch, .acc] : List Part).all l.contains = true) :
    Within l u (setStageOp x0 s1) := by
  refine h.andThen (m := [.ph, .gal, .ch, .acc]) ?_ m; clear h m
  unfold setStageOp
  repeat' first
    | (with_reducible exact Within.refl _ _) | assumption | (with_reducible apply Within.ite)
    | (with_reducible apply updateSens_within (m := by decide)) | (with_reducible apply zeroGrants_within (m := by decide))
    | (with_reducible apply Within.forEach (hf := fun _ _ => ?_)) | (with_reducible apply Within.foldl (hf := fun _ _ => ?_))
    | (with_reducible apply Within.set_acc (m := by decide)) | split | dsimp only
    | (refine Within.mk (Within.refl _ _) ?_; intro p hp; cases p <;> first | exact absurd (by decide) hp | rfl)

theorem writeAccSvc_within {l : List Part} {u : State} {x0 : Bool} {s1 : State} (h : Within l u s1)
    (m : ([.ph, .gal, .ch, .acc, .fab] : List Part).all l.contains = true) :
    Within l u (writeAccSvc x0 s1) := by
  refine h.andThen (m := [.ph, .gal, .ch, .acc, .fab]) ?_ m; clear h m
  unfold writeAccSvc
  repeat' first
    | (with_reducible exact Within.refl _ _) | assumption | (with_reducible apply Within.ite)
    | (with_reducible apply raiseReg_within (m := by decide)) | (with_reducible apply setStageOp_within (m := by decide))
    | (with_reducible apply Within.forEach (hf := fun _ _ => ?_)) | (with_reducible apply Within.foldl (hf := fun _ _ => ?_))
    | split | dsimp only

theorem tryDisc_within {l : List Part} {u : State} {x0 : Nat} {s1 : State} (h : Within l u s1)
    (m : ([.ch] : List Part).all l.contains = true) :
    Within l u (tryDisc x0 s1) := by
  refine h.andThen (m := [.ch]) ?_ m; clear h m
  unfold tryDisc
  repeat' first
    | (with_reducible exact Within.refl _ _) | assumption | (with_reducible apply Within.ite)
    | (with_reducible apply modCh_within (m := by decide)) | (with_reducible apply Within.forEach (hf := fun _ _ => ?_))
    | (with_reducible apply Within.foldl (hf := fun _ _ => ?_)) | split | dsimp only

theorem wantDisc_within {l : List Part} {u : State} {x0 : Nat} {s1 : State} (h : Within l u s1)
    (m : ([.ch] : List Part).all l.contains = true) :
    Within l u (wantDisc x0 s1) := by
  refine h.andThen (m := [.ch]) ?_ m; clear h m
  unfold wantDisc
  repeat' first
    | (with_reducible exact Within.refl _ _) | assumption | (with_reducible apply Within.ite)
    | (with_reducible apply modCh_within (m := by decide)) | (with_reducible apply tryDisc_within (m := by decide))
    | (with_reducible apply Within.forEach (hf := fun _ _ => ?_)) | (with_reducible apply Within.foldl (hf := fun _ _ => ?_))
    | split | dsimp only

theorem arm_within {l : List Part} {u : State} {x0 : Nat} {x1 : Nat} {x2 : Nat} {x3 : Bool} {s4 : State} (h : Within l u s4)
    (m : ([.ch, .est] : List Part).all l.contains = true) :
    Within l u (arm x0 x1 x2 x3 s4) := by
  refine h.andThen (m := [.ch, .est]) ?_ m; clear h m
  unfold arm
  repeat' first
    | (with_reducible exact Within.refl _ _) | assumption | (with_reducible apply Within.ite)
    | (with_reducible apply modEst_within (m := by decide)) | (with_reducible apply wantDisc_within (m := by decide))
    | (with_reducible apply modCh_within (m := by decide)) | (with_reducible apply Within.forEach (hf := fun _ _ => ?_))
    | (with_reducible apply Within.foldl (hf := fun _ _ => ?_)) | split | dsimp only

theorem armReq_within {l : List Part} {u : State} {x0 : Nat} {x1 : Nat} {x2 : Nat} {x3 : Bool} {s4 : State} (h : Within l u s4)
    (m : ([.ch, .est, .fab] : List Part).all l.contains = true) :
    Within l u (armReq x0 x1 x2 x3 s4) := by
  refine h.andThen (m := [.ch, .est, .fab]) ?_ m; clear h m
  unfold armReq
  repeat' first
    | (with_reducible exact Within.refl _ _) | assumption | (with_reducible apply Within.ite)
    | (with_reducible apply arm_within (m := by decide)) | (with_reducible apply refuseCmd_within (m := by decide))
    | (with_reducible apply Within.forEach (hf := fun _ _ => ?_)) | (with_reducible apply Within.foldl (hf := fun _ _ => ?_))
    | split | dsimp only

theorem goReq_within {l : List Part} {u : State} {x0 : Nat} {s1 : State} (h : Within l u s1)
    (m : ([.ch, .fab] : List Part).all l.contains = true) :
    Within l u (goReq x0 s1) := by
  refine h.andThen (m := [.ch, .fab]) ?_ m; clear h m
  unfold goReq
  repeat' first
    | (with_reducible exact Within.refl _ _) | assumption | (with_reducible apply Within.ite)
    | (with_reducible apply tryLaunch_within (m := by decide)) | (with_reducible apply refuseCmd_within (m := by decide))
    | (with_reducible apply modCh_within (m := by decide)) | (with_reducible apply Within.forEach (hf := fun _ _ => ?_))
    | (with_reducible apply Within.foldl (hf := fun _ _ => ?_)) | split | dsimp only

theorem writeRcpArm_within {l : List Part} {u : State} {x0 : Path} {x1 : Nat} {x2 : Word} {s3 : State} (h : Within l u s3)
    (m : ([.ch, .est, .fab] : List Part).all l.contains = true) :
    Within l u (writeRcpArm x0 x1 x2 s3) := by
  refine h.andThen (m := [.ch, .est, .fab]) ?_ m; clear h m
  unfold writeRcpArm chGate regGate
  repeat' first
    | (with_reducible exact Within.refl _ _) | assumption | (with_reducible apply Within.ite)
    | (with_reducible apply armReq_within (m := by decide)) | (with_reducible apply raiseReg_within (m := by decide))
    | (with_reducible apply raiseA_within (m := by decide)) | (with_reducible apply goReq_within (m := by decide))
    | (with_reducible apply Within.forEach (hf := fun _ _ => ?_)) | (with_reducible apply Within.foldl (hf := fun _ _ => ?_))
    | split | dsimp only

theorem writeAgain_within {l : List Part} {u : State} {x0 : Nat} {x1 : Word} {s2 : State} (h : Within l u s2)
    (m : ([.intc] : List Part).all l.contains = true) :
    Within l u (writeAgain x0 x1 s2) := by
  refine h.andThen (m := [.intc]) ?_ m; clear h m
  unfold writeAgain
  repeat' first
    | (with_reducible exact Within.refl _ _) | assumption | (with_reducible apply Within.ite)
    | (with_reducible apply Within.forEach (hf := fun _ _ => ?_)) | (with_reducible apply Within.foldl (hf := fun _ _ => ?_))
    | (with_reducible apply Within.set_intc (m := by decide)) | split | dsimp only
    | (refine Within.mk (Within.refl _ _) ?_; intro p hp; cases p <;> first | exact absurd (by decide) hp | rfl)

theorem serve_within {l : List Part} {u : State} {x0 : Nat} {x1 : Word} {s2 : State} (h : Within l u s2)
    (m : ([.wdt] : List Part).all l.contains = true) :
    Within l u (serve x0 x1 s2) := by
  refine h.andThen (m := [.wdt]) ?_ m; clear h m
  unfold serve
  repeat' first
    | (with_reducible exact Within.refl _ _) | assumption | (with_reducible apply Within.ite)
    | (with_reducible apply modWdt_within (m := by decide)) | (with_reducible apply Within.forEach (hf := fun _ _ => ?_))
    | (with_reducible apply Within.foldl (hf := fun _ _ => ?_)) | split | dsimp only

theorem writeSafetySet_within {l : List Part} {u : State} {x0 : Nat} {x1 : Word} {s2 : State} (h : Within l u s2)
    (m : ([.saf, .fab] : List Part).all l.contains = true) :
    Within l u (writeSafetySet x0 x1 s2) := by
  refine h.andThen (m := [.saf, .fab]) ?_ m; clear h m
  unfold writeSafetySet
  repeat' first
    | (with_reducible exact Within.refl _ _) | assumption | (with_reducible apply Within.ite)
    | (with_reducible apply raiseReg_within (m := by decide)) | (with_reducible apply modSaf_within (m := by decide))
    | (with_reducible apply Within.forEach (hf := fun _ _ => ?_)) | (with_reducible apply Within.foldl (hf := fun _ _ => ?_))
    | split | dsimp only

theorem writeCount_within {l : List Part} {u : State} {x0 : CalField} {x1 : Word} {s2 : State} (h : Within l u s2)
    (m : ([.rtc, .fab] : List Part).all l.contains = true) :
    Within l u (writeCount x0 x1 s2) := by
  refine h.andThen (m := [.rtc, .fab]) ?_ m; clear h m
  unfold writeCount
  repeat' first
    | (with_reducible exact Within.refl _ _) | assumption | (with_reducible apply Within.ite)
    | (with_reducible apply rtcWerr_within (m := by decide)) | (with_reducible apply modRtc_within (m := by decide))
    | (with_reducible apply Within.forEach (hf := fun _ _ => ?_)) | (with_reducible apply Within.foldl (hf := fun _ _ => ?_))
    | split | dsimp only

theorem updRefused_within {l : List Part} {u : State} {x0 : Option Nat} {s1 : State} (h : Within l u s1)
    (m : ([.ldr, .fab] : List Part).all l.contains = true) :
    Within l u (updRefused x0 s1) := by
  refine h.andThen (m := [.ldr, .fab]) ?_ m; clear h m
  unfold updRefused
  repeat' first
    | (with_reducible exact Within.refl _ _) | assumption | (with_reducible apply Within.ite)
    | (with_reducible apply raiseA_within (m := by decide)) | (with_reducible apply modLdr_within (m := by decide))
    | (with_reducible apply raise_within (m := by decide)) | (with_reducible apply Within.forEach (hf := fun _ _ => ?_))
    | (with_reducible apply Within.foldl (hf := fun _ _ => ?_)) | split | dsimp only

theorem commitFails_within {l : List Part} {u : State} {x0 : Nat} {s1 : State} (h : Within l u s1)
    (m : ([.ldr, .fab] : List Part).all l.contains = true) :
    Within l u (commitFails x0 s1) := by
  refine h.andThen (m := [.ldr, .fab]) ?_ m; clear h m
  unfold commitFails
  repeat' first
    | (with_reducible exact Within.refl _ _) | assumption | (with_reducible apply Within.ite)
    | (with_reducible apply modLdr_within (m := by decide)) | (with_reducible apply raise_within (m := by decide))
    | (with_reducible apply updRefused_within (m := by decide)) | (with_reducible apply Within.forEach (hf := fun _ _ => ?_))
    | (with_reducible apply Within.foldl (hf := fun _ _ => ?_)) | split | dsimp only

theorem commit_within {l : List Part} {u : State} {x0 : Path} {x1 : Nat} {s2 : State} (h : Within l u s2)
    (m : ([.ldr, .fab, .out] : List Part).all l.contains = true) :
    Within l u (commit x0 x1 s2) := by
  refine h.andThen (m := [.ldr, .fab, .out]) ?_ m; clear h m
  unfold commit
  repeat' first
    | (with_reducible exact Within.refl _ _) | assumption | (with_reducible apply Within.ite)
    | (with_reducible apply emit_within (m := by decide)) | (with_reducible apply modLdr_within (m := by decide))
    | (with_reducible apply updRefused_within (m := by decide)) | (with_reducible apply commitFails_within (m := by decide))
    | (with_reducible apply Within.forEach (hf := fun _ _ => ?_)) | (with_reducible apply Within.foldl (hf := fun _ _ => ?_))
    | split | dsimp only

theorem reload_within {l : List Part} {u : State} {s0 : State} (h : Within l u s0)
    (m : ([.tb, .ldr, .fab, .out] : List Part).all l.contains = true) :
    Within l u (reload s0) := by
  refine h.andThen (m := [.tb, .ldr, .fab, .out]) ?_ m; clear h m
  unfold reload
  repeat' first
    | (with_reducible exact Within.refl _ _) | assumption | (with_reducible apply Within.ite)
    | (with_reducible apply raise_within (m := by decide)) | (with_reducible apply startRead_within (m := by decide))
    | (with_reducible apply updRefused_within (m := by decide)) | (with_reducible apply hostDrain_within (m := by decide))
    | (with_reducible apply Within.forEach (hf := fun _ _ => ?_)) | (with_reducible apply Within.foldl (hf := fun _ _ => ?_))
    | split | dsimp only

theorem writeLdrCmd_within {l : List Part} {u : State} {x0 : Path} {x1 : Word} {s2 : State} (h : Within l u s2)
    (m : ([.tb, .ldr, .fab, .out] : List Part).all l.contains = true) :
    Within l u (writeLdrCmd x0 x1 s2) := by
  refine h.andThen (m := [.tb, .ldr, .fab, .out]) ?_ m; clear h m
  unfold writeLdrCmd ldrGate
  repeat' first
    | (with_reducible exact Within.refl _ _) | assumption | (with_reducible apply Within.ite)
    | (with_reducible apply commit_within (m := by decide)) | (with_reducible apply abortUpd_within (m := by decide))
    | (with_reducible apply reload_within (m := by decide)) | (with_reducible apply updRefused_within (m := by decide))
    | (with_reducible apply updRefused_within (m := by decide)) | (with_reducible apply Within.forEach (hf := fun _ _ => ?_))
    | (with_reducible apply Within.foldl (hf := fun _ _ => ?_)) | split | dsimp only

theorem eoi_within {l : List Part} {u : State} {x0 : Nat} {x1 : Word} {s2 : State} (h : Within l u s2)
    (m : ([.intc, .fab] : List Part).all l.contains = true) :
    Within l u (eoi x0 x1 s2) := by
  refine h.andThen (m := [.intc, .fab]) ?_ m; clear h m
  unfold eoi
  dsimp only
  split
  · apply Within.ite
    · exact Within.set_intc (Within.refl _ _) (by decide)
    · exact raiseA_within (Within.set_intc (Within.refl _ _) (by decide)) (by decide)
  · exact raiseA_within (Within.set_intc (Within.refl _ _) (by decide)) (by decide)

theorem writeBram_within {l : List Part} {u : State} {x0 : Nat} {x1 : Word} {s2 : State} (h : Within l u s2)
    (m : ([.rtc] : List Part).all l.contains = true) :
    Within l u (writeBram x0 x1 s2) := by
  refine h.andThen (m := [.rtc]) ?_ m; clear h m
  unfold writeBram
  repeat' first
    | (with_reducible exact Within.refl _ _) | assumption | (with_reducible apply Within.ite)
    | (with_reducible apply modRtc_within (m := by decide)) | (with_reducible apply Within.forEach (hf := fun _ _ => ?_))
    | (with_reducible apply Within.foldl (hf := fun _ _ => ?_)) | split | dsimp only

theorem writeHit_within {l : List Part} {u : State} {x0 : Path} {x1 : Nat} {x2 : RegHit} {x3 : Word} {s4 : State} (h : Within l u s4)
    (m : ([.mode, .seq, .regs, .tb, .ph, .gal, .fe, .ch, .est, .rcp, .sump, .link, .ring, .sqz, .saf, .ldr, .twi, .rtc, .wdt, .intc, .nvm, .acc, .fab, .shadow, .out, .free] : List Part).all l.contains = true) :
    Within l u (writeHit x0 x1 x2 x3 s4) := by
  refine h.andThen (m := [.mode, .seq, .regs, .tb, .ph, .gal, .fe, .ch, .est, .rcp, .sump, .link, .ring, .sqz, .saf, .ldr, .twi, .rtc, .wdt, .intc, .nvm, .acc, .fab, .shadow, .out, .free]) ?_ m; clear h m
  unfold writeHit
  dsimp only
  generalize x2.row.id = r
  split
  · exact (writeCfg_within (Within.refl _ _) (by decide))
  · exact Within.ite (modFab_within (Within.refl _ _) (by decide)) (lockedOut_within (Within.refl _ _) (by decide))
  · exact (writeSeqCmd_within (Within.refl _ _) (by decide))
  · exact (modTb_within (Within.refl _ _) (by decide))
  · exact Within.ite (commitMask_within (Within.refl _ _) (by decide)) (holdMask_within (Within.refl _ _) (by decide))
  · exact (writeGctrl_within (Within.refl _ _) (by decide))
  · exact (writeCount_within (Within.refl _ _) (by decide))
  · exact (writeCount_within (Within.refl _ _) (by decide))
  · exact (writeCount_within (Within.refl _ _) (by decide))
  · exact (writeCount_within (Within.refl _ _) (by decide))
  · exact (writeCount_within (Within.refl _ _) (by decide))
  · exact (writeCount_within (Within.refl _ _) (by decide))
  · exact (writeRtcCtrl_within (Within.refl _ _) (by decide))
  · exact (writeRtcStat_within (Within.refl _ _) (by decide))
  · exact (writeRtcTrim_within (Within.refl _ _) (by decide))
  · exact (writeRtcPwake_within (Within.refl _ _) (by decide))
  · exact (writeBram_within (Within.refl _ _) (by decide))
  · exact (writeWdtCtrl_within (Within.refl _ _) (by decide))
  · exact (modWdt_within (Within.refl _ _) (by decide))
  · exact (writeWdtCfg_within (Within.refl _ _) (by decide))
  · exact (serve_within (Within.refl _ _) (by decide))
  · exact (setCfg_within (Within.refl _ _) (by decide))
  · exact (eoi_within (Within.refl _ _) (by decide))
  · exact (writeIntcSrc_within (Within.refl _ _) (by decide))
  · exact (writeAgain_within (Within.refl _ _) (by decide))
  · exact (swset_within (Within.refl _ _) (by decide))
  · exact (sigrefWrite_within (Within.refl _ _) (by decide))
  · exact (writeSafetySet_within (Within.refl _ _) (by decide))
  · exact (writeSafCmd_within (Within.refl _ _) (by decide))
  · exact (modSaf_within (Within.refl _ _) (by decide))
  · exact (writeRingCtrl_within (Within.refl _ _) (by decide))
  · exact (writeSqz_within (Within.refl _ _) (by decide))
  · exact (writeSqz_within (Within.refl _ _) (by decide))
  · exact (writeXctl_within (Within.refl _ _) (by decide))
  · exact (Within.set_twi (Within.refl _ _) (by decide))
  · exact (writeNvmCmd_within (Within.refl _ _) (by decide))
  · exact (modShad_within (Within.refl _ _) (by decide))
  · exact (writeAccSvc_within (Within.refl _ _) (by decide))
  · exact (fuseCmd_within (Within.refl _ _) (by decide))
  · exact (modAcc_within (Within.refl _ _) (by decide))
  · exact (writeLdrCmd_within (Within.refl _ _) (by decide))
  · exact (modPh_within (Within.refl _ _) (by decide))
  · exact (writeChCmd_within (Within.refl _ _) (by decide))
  · exact (writeRcpArm_within (Within.refl _ _) (by decide))
  · exact (writeFeCal_within (Within.refl _ _) (by decide))
  · exact (modFe_within (Within.refl _ _) (by decide))
  · exact (writeEstCmd_within (Within.refl _ _) (by decide))
  · exact (writeRcpSel_within (Within.refl _ _) (by decide))
  · have hw := winWrite_within (x0 := x0) (x1 := x1) (x2 := x3) (Within.refl [.mode, .seq, .regs, .tb, .ph, .gal, .fe, .ch, .est, .rcp, .sump, .link, .ring, .sqz, .saf, .ldr, .twi, .rtc, .wdt, .intc, .nvm, .acc, .fab, .shadow, .out, .free] s4) (by decide)
    split
    · rename_i h; rw [h] at hw; exact raise_within hw (by decide)
    · rename_i h; rw [h] at hw; exact hw
  · exact (Within.refl _ _)

theorem writeWord_within {l : List Part} {u : State} {x0 : Path} {x1 : Nat} {x2 : Word} {s3 : State} (h : Within l u s3)
    (m : ([.mode, .seq, .regs, .tb, .ph, .gal, .fe, .ch, .est, .rcp, .sump, .link, .ring, .sqz, .saf, .ldr, .twi, .rtc, .wdt, .intc, .nvm, .acc, .fab, .shadow, .out, .free] : List Part).all l.contains = true) :
    Within l u (writeWord x0 x1 x2 s3) := by
  refine h.andThen (m := [.mode, .seq, .regs, .tb, .ph, .gal, .fe, .ch, .est, .rcp, .sump, .link, .ring, .sqz, .saf, .ldr, .twi, .rtc, .wdt, .intc, .nvm, .acc, .fab, .shadow, .out, .free]) ?_ m; clear h m
  unfold writeWord regGate
  repeat' first
    | (with_reducible exact Within.refl _ _) | assumption | (with_reducible apply Within.ite)
    | (with_reducible apply raiseReg_within (m := by decide)) | (with_reducible apply raiseA_within (m := by decide))
    | (with_reducible apply writeHit_within (m := by decide)) | (with_reducible apply Within.forEach (hf := fun _ _ => ?_))
    | (with_reducible apply Within.foldl (hf := fun _ _ => ?_)) | split | dsimp only

theorem writeReg_within {l : List Part} {u : State} {x0 : Path} {x1 : Nat} {x2 : Word} {s3 : State} (h : Within l u s3)
    (m : ([.mode, .seq, .regs, .tb, .ph, .gal, .fe, .ch, .est, .rcp, .sump, .link, .ring, .sqz, .saf, .ldr, .twi, .rtc, .wdt, .intc, .nvm, .acc, .fab, .shadow, .out, .free] : List Part).all l.contains = true) :
    Within l u (writeReg x0 x1 x2 s3).2 := by
  refine h.andThen (m := [.mode, .seq, .regs, .tb, .ph, .gal, .fe, .ch, .est, .rcp, .sump, .link, .ring, .sqz, .saf, .ldr, .twi, .rtc, .wdt, .intc, .nvm, .acc, .fab, .shadow, .out, .free]) ?_ m; clear h m
  exact writeWord_within (Within.refl _ _) (by decide)

theorem twiPut_within {l : List Part} {u : State} {s0 : State} {x1 : Word} (h : Within l u s0)
    (m : ([.mode, .seq, .regs, .tb, .ph, .gal, .fe, .ch, .est, .rcp, .sump, .link, .ring, .sqz, .saf, .ldr, .twi, .rtc, .wdt, .intc, .nvm, .acc, .fab, .shadow, .out, .free] : List Part).all l.contains = true) :
    Within l u (twiPut s0 x1) := by
  refine h.andThen (m := [.mode, .seq, .regs, .tb, .ph, .gal, .fe, .ch, .est, .rcp, .sump, .link, .ring, .sqz, .saf, .ldr, .twi, .rtc, .wdt, .intc, .nvm, .acc, .fab, .shadow, .out, .free]) ?_ m; clear h m
  unfold twiPut
  exact modTwi_within (writeReg_within (Within.refl _ _) (by decide)) (by decide)

theorem twiData_within {l : List Part} {u : State} {x0 : List Byte} {x1 : List Byte} {x2 : TwiBusy} {s3 : State} (h : Within l u s3)
    (m : ([.mode, .seq, .regs, .tb, .ph, .gal, .fe, .ch, .est, .rcp, .sump, .link, .ring, .sqz, .saf, .ldr, .twi, .rtc, .wdt, .intc, .nvm, .acc, .fab, .shadow, .out, .free] : List Part).all l.contains = true) :
    Within l u (twiData x0 x1 x2 s3) := by
  refine h.andThen (m := [.mode, .seq, .regs, .tb, .ph, .gal, .fe, .ch, .est, .rcp, .sump, .link, .ring, .sqz, .saf, .ldr, .twi, .rtc, .wdt, .intc, .nvm, .acc, .fab, .shadow, .out, .free]) ?_ m; clear h m
  unfold twiData
  repeat' first
    | (with_reducible exact Within.refl _ _) | assumption | (with_reducible apply Within.ite)
    | (with_reducible apply twiPut_within (m := by decide)) | (with_reducible apply twiAnswer_within (m := by decide))
    | (with_reducible apply twiBusyNack_within (m := by decide)) | (with_reducible apply raise_within (m := by decide))
    | (with_reducible apply Within.forEach (hf := fun _ _ => ?_)) | (with_reducible apply Within.foldl (hf := fun _ _ => ?_))
    | split | dsimp only

theorem modTold_within {l : List Part} {u : State} {x0 : Nat} {x1 : Told → Told} {s2 : State} (h : Within l u s2)
    (m : ([.thm] : List Part).all l.contains = true) :
    Within l u (modTold x0 x1 s2) := by
  refine h.andThen (m := [.thm]) ?_ m; clear h m
  unfold modTold
  repeat' first
    | (with_reducible exact Within.refl _ _) | assumption | (with_reducible apply Within.ite)
    | (with_reducible apply Within.forEach (hf := fun _ _ => ?_)) | (with_reducible apply Within.foldl (hf := fun _ _ => ?_))
    | (with_reducible apply Within.set_thm (m := by decide)) | split | dsimp only
    | (refine Within.mk (Within.refl _ _) ?_; intro p hp; cases p <;> first | exact absurd (by decide) hp | rfl)

theorem noteStale_within {l : List Part} {u : State} {x0 : Nat} {s1 : State} (h : Within l u s1)
    (m : ([.thm, .fab] : List Part).all l.contains = true) :
    Within l u (noteStale x0 s1) := by
  refine h.andThen (m := [.thm, .fab]) ?_ m; clear h m
  unfold noteStale
  repeat' first
    | (with_reducible exact Within.refl _ _) | assumption | (with_reducible apply Within.ite)
    | (with_reducible apply modTold_within (m := by decide)) | (with_reducible apply raise_within (m := by decide))
    | (with_reducible apply Within.forEach (hf := fun _ _ => ?_)) | (with_reducible apply Within.foldl (hf := fun _ _ => ?_))
    | (with_reducible apply Within.set_thm (m := by decide)) | split | dsimp only
    | (refine Within.mk (Within.refl _ _) ?_; intro p hp; cases p <;> first | exact absurd (by decide) hp | rfl)

theorem putTold_within {l : List Part} {u : State} {x0 : Nat} {x1 : Int} {x2 : Int} {x3 : Option (Int × Int)} {x4 : Bool} {s5 : State} (h : Within l u s5)
    (m : ([.thm, .fab] : List Part).all l.contains = true) :
    Within l u (putTold x0 x1 x2 x3 x4 s5) := by
  refine h.andThen (m := [.thm, .fab]) ?_ m; clear h m
  unfold putTold
  repeat' first
    | (with_reducible exact Within.refl _ _) | assumption | (with_reducible apply Within.ite)
    | (with_reducible apply noteStale_within (m := by decide)) | (with_reducible apply modTold_within (m := by decide))
    | (with_reducible apply Within.forEach (hf := fun _ _ => ?_)) | (with_reducible apply Within.foldl (hf := fun _ _ => ?_))
    | split | dsimp only

theorem takeTold_within {l : List Part} {u : State} {x0 : Nat} {x1 : Int} {x2 : Int} {s3 : State} (h : Within l u s3)
    (m : ([.thm, .fab] : List Part).all l.contains = true) :
    Within l u (takeTold x0 x1 x2 s3) := by
  refine h.andThen (m := [.thm, .fab]) ?_ m; clear h m
  unfold takeTold
  extract_lets x
  split
  · exact putTold_within (Within.refl _ _) (by decide)
  · apply Within.ite
    · have h1 (r : _) (b : _) : Within [.thm, .fab] s3 (putTold x0 x1 x2 r b s3) := putTold_within (Within.refl _ _) (by decide)
      exact Within.ite (raise_within (Within.set_thm (h1 _ _) (by decide)) (by decide)) (h1 _ _)
    · exact putTold_within (Within.refl _ _) (by decide)

theorem orderlyStore_within {l : List Part} {u : State} {s0 : State} (h : Within l u s0)
    (m : ([.nvm] : List Part).all l.contains = true) :
    Within l u (orderlyStore s0) := by
  refine h.andThen (m := [.nvm]) ?_ m; clear h m
  unfold orderlyStore
  repeat' first
    | (with_reducible exact Within.refl _ _) | assumption | (with_reducible apply Within.ite)
    | (with_reducible apply nvmNext_within (m := by decide)) | (with_reducible apply Within.forEach (hf := fun _ _ => ?_))
    | (with_reducible apply Within.foldl (hf := fun _ _ => ?_)) | (with_reducible apply Within.set_nvm (m := by decide)) | split
    | dsimp only | (refine Within.mk (Within.refl _ _) ?_; intro p hp; cases p <;> first | exact absurd (by decide) hp | rfl)

theorem enterService_within {l : List Part} {u : State} {s0 : State} (h : Within l u s0)
    (m : ([.mode, .ph, .gal, .fe, .ch, .acc, .fab] : List Part).all l.contains = true) :
    Within l u (enterService s0) := by
  refine h.andThen (m := [.mode, .ph, .gal, .fe, .ch, .acc, .fab]) ?_ m; clear h m
  unfold enterService
  repeat' first
    | (with_reducible exact Within.refl _ _) | assumption | (with_reducible apply Within.ite)
    | (with_reducible apply updateSens_within (m := by decide)) | (with_reducible apply abortAll_within (m := by decide))
    | (with_reducible apply raise_within (m := by decide)) | (with_reducible apply modAcc_within (m := by decide))
    | (with_reducible apply Within.forEach (hf := fun _ _ => ?_)) | (with_reducible apply Within.foldl (hf := fun _ _ => ?_))
    | (with_reducible apply Within.set_mode (m := by decide)) | split | dsimp only
    | (refine Within.mk (Within.refl _ _) ?_; intro p hp; cases p <;> first | exact absurd (by decide) hp | rfl)

theorem linkRest_within {l : List Part} {u : State} {s0 : State} (h : Within l u s0)
    (m : ([.mode, .tb, .ph, .gal, .fe, .ch, .link, .ring, .saf, .ldr, .acc, .fab] : List Part).all l.contains = true) :
    Within l u (linkRest s0) := by
  refine h.andThen (m := [.mode, .tb, .ph, .gal, .fe, .ch, .link, .ring, .saf, .ldr, .acc, .fab]) ?_ m; clear h m
  unfold linkRest forEach
  repeat' first
    | (with_reducible exact Within.refl _ _) | assumption | (with_reducible apply Within.ite)
    | (with_reducible apply closeSession_within (m := by decide)) | (with_reducible apply portDown_within (m := by decide))
    | (with_reducible apply Within.forEach (hf := fun _ _ => ?_)) | (with_reducible apply Within.foldl (hf := fun _ _ => ?_))
    | split | dsimp only

theorem estChanged_within {l : List Part} {u : State} {x0 : Nat} {s1 : State} (h : Within l u s1)
    (m : ([.est] : List Part).all l.contains = true) :
    Within l u (estChanged x0 s1) := by
  refine h.andThen (m := [.est]) ?_ m; clear h m
  unfold estChanged
  repeat' first
    | (with_reducible exact Within.refl _ _) | assumption | (with_reducible apply Within.ite)
    | (with_reducible apply modEst_within (m := by decide)) | (with_reducible apply Within.forEach (hf := fun _ _ => ?_))
    | (with_reducible apply Within.foldl (hf := fun _ _ => ?_)) | split | dsimp only

theorem enterRest_within {l : List Part} {u : State} {s0 : State} (h : Within l u s0)
    (m : ([.mode, .tb, .ph, .gal, .fe, .ch, .est, .link, .ring, .sqz, .saf, .ldr, .acc, .fab, .free] : List Part).all l.contains = true) :
    Within l u (enterRest s0) := by
  refine h.andThen (m := [.mode, .tb, .ph, .gal, .fe, .ch, .est, .link, .ring, .sqz, .saf, .ldr, .acc, .fab, .free]) ?_ m; clear h m
  unfold enterRest forEach
  repeat' first
    | (with_reducible exact Within.refl _ _) | assumption | (with_reducible apply Within.ite)
    | (with_reducible apply updateSens_within (m := by decide)) | (with_reducible apply linkRest_within (m := by decide))
    | (with_reducible apply stopStreams_within (m := by decide)) | (with_reducible apply estChanged_within (m := by decide))
    | (with_reducible apply abortEchoes_within (m := by decide)) | (with_reducible apply Within.forEach (hf := fun _ _ => ?_))
    | (with_reducible apply Within.foldl (hf := fun _ _ => ?_)) | (with_reducible apply Within.set_mode (m := by decide)) | split
    | dsimp only | (refine Within.mk (Within.refl _ _) ?_; intro p hp; cases p <;> first | exact absurd (by decide) hp | rfl)

theorem startGal_within {l : List Part} {u : State} {x0 : Img} {x1 : List Byte} {x2 : Nat} {s3 : State} (h : Within l u s3)
    (m : ([.gal] : List Part).all l.contains = true) :
    Within l u (startGal x0 x1 x2 s3) := by
  refine h.andThen (m := [.gal]) ?_ m; clear h m
  unfold startGal
  repeat' first
    | (with_reducible exact Within.refl _ _) | assumption | (with_reducible apply Within.ite)
    | (with_reducible apply modGal_within (m := by decide)) | (with_reducible apply Within.forEach (hf := fun _ _ => ?_))
    | (with_reducible apply Within.foldl (hf := fun _ _ => ?_)) | split | dsimp only

theorem startFe_within {l : List Part} {u : State} {x0 : List Nat} {x1 : Nat} {s2 : State} (h : Within l u s2)
    (m : ([.fe, .ldr, .fab] : List Part).all l.contains = true) :
    Within l u (startFe x0 x1 s2) := by
  refine h.andThen (m := [.fe, .ldr, .fab]) ?_ m; clear h m
  unfold startFe
  repeat' first
    | (with_reducible exact Within.refl _ _) | assumption | (with_reducible apply Within.ite)
    | (with_reducible apply modFe_within (m := by decide)) | (with_reducible apply raiseA_within (m := by decide))
    | (with_reducible apply modLdr_within (m := by decide)) | (with_reducible apply Within.forEach (hf := fun _ _ => ?_))
    | (with_reducible apply Within.foldl (hf := fun _ _ => ?_)) | split | dsimp only

theorem hwStartSlot_within {l : List Part} {u : State} {s0 : State} (h : Within l u s0)
    (m : ([.regs, .wdt] : List Part).all l.contains = true) :
    Within l u (hwStartSlot s0) := by
  refine h.andThen (m := [.regs, .wdt]) ?_ m; clear h m
  unfold hwStartSlot
  repeat' first
    | (with_reducible exact Within.refl _ _) | assumption | (with_reducible apply Within.ite)
    | (with_reducible apply setCfg_within (m := by decide)) | (with_reducible apply modSlot_within (m := by decide))
    | (with_reducible apply Within.forEach (hf := fun _ _ => ?_)) | (with_reducible apply Within.foldl (hf := fun _ _ => ?_))
    | split | dsimp only

theorem reportBackup_within {l : List Part} {u : State} {s0 : State} (h : Within l u s0)
    (m : ([.rtc, .fab] : List Part).all l.contains = true) :
    Within l u (reportBackup s0) := by
  refine h.andThen (m := [.rtc, .fab]) ?_ m; clear h m
  unfold reportBackup
  repeat' first
    | (with_reducible exact Within.refl _ _) | assumption | (with_reducible apply Within.ite)
    | (with_reducible apply checkBram_within (m := by decide)) | (with_reducible apply raise_within (m := by decide))
    | (with_reducible apply Within.forEach (hf := fun _ _ => ?_)) | (with_reducible apply Within.foldl (hf := fun _ _ => ?_))
    | split | dsimp only

theorem keepSessions_within {l : List Part} {u : State} {s0 : State} (h : Within l u s0)
    (m : ([.mode, .tb, .ph, .gal, .fe, .ch, .link, .ring, .saf, .ldr, .acc, .fab, .out] : List Part).all l.contains = true) :
    Within l u (keepSessions s0) := by
  refine h.andThen (m := [.mode, .tb, .ph, .gal, .fe, .ch, .link, .ring, .saf, .ldr, .acc, .fab, .out]) ?_ m; clear h m
  unfold keepSessions forEach
  repeat' first
    | (with_reducible exact Within.refl _ _) | assumption | (with_reducible apply Within.ite)
    | (with_reducible apply takeAddress_within (m := by decide)) | (with_reducible apply modLink_within (m := by decide))
    | (with_reducible apply closeSession_within (m := by decide)) | (with_reducible apply Within.forEach (hf := fun _ _ => ?_))
    | (with_reducible apply Within.foldl (hf := fun _ _ => ?_)) | split | dsimp only

theorem startEst_within {l : List Part} {u : State} {x0 : Nat} {s1 : State} (h : Within l u s1)
    (m : ([.est] : List Part).all l.contains = true) :
    Within l u (startEst x0 s1) := by
  refine h.andThen (m := [.est]) ?_ m; clear h m
  unfold startEst
  repeat' first
    | (with_reducible exact Within.refl _ _) | assumption | (with_reducible apply Within.ite)
    | (with_reducible apply modEst_within (m := by decide)) | (with_reducible apply tellCell_within (m := by decide))
    | (with_reducible apply Within.forEach (hf := fun _ _ => ?_)) | (with_reducible apply Within.foldl (hf := fun _ _ => ?_))
    | split | dsimp only

theorem endLoad_within {l : List Part} {u : State} {x0 : List Byte} {x1 : List Nat} {s2 : State} (h : Within l u s2)
    (m : ([.mode, .regs, .tb, .ph, .gal, .fe, .ch, .est, .link, .ring, .saf, .ldr, .rtc, .wdt, .nvm, .acc, .fab, .out] : List Part).all l.contains = true) :
    Within l u (endLoad x0 x1 s2) := by
  refine h.andThen (m := [.mode, .regs, .tb, .ph, .gal, .fe, .ch, .est, .link, .ring, .saf, .ldr, .rtc, .wdt, .nvm, .acc, .fab, .out]) ?_ m; clear h m
  have hk (t : State) (a b c d e : _) : Within [.mode, .regs, .tb, .ph, .gal, .fe, .ch, .est, .link, .ring, .saf, .ldr, .rtc, .wdt, .nvm, .acc, .fab, .out] t { t with ph := a, ring := b, tb := c, nvm := d, fab := e } :=
    fun p hp => by cases p <;> first | exact absurd (by decide) hp | rfl
  unfold endLoad
  extract_lets m topo l0 s1' s2' s3' s4' s5' a1 a2 a3 s6' s7' s8' s9'
  refine reportBackup_within (raiseA_within (updateWcr_within (updateSens_within ?_ (by decide)) (by decide)) (by decide)) (by decide)
  have h1 : Within [.mode, .regs, .tb, .ph, .gal, .fe, .ch, .est, .link, .ring, .saf, .ldr, .rtc, .wdt, .nvm, .acc, .fab, .out] s2 s1' := keepSessions_within (Within.set_ldr (Within.refl _ _) (by decide)) (by decide)
  have h2 : Within [.mode, .regs, .tb, .ph, .gal, .fe, .ch, .est, .link, .ring, .saf, .ldr, .rtc, .wdt, .nvm, .acc, .fab, .out] s2 s2' := Within.forEach (hf := fun _ _ => startGal_within (Within.refl _ _) (by decide)) h1
  have h3 : Within [.mode, .regs, .tb, .ph, .gal, .fe, .ch, .est, .link, .ring, .saf, .ldr, .rtc, .wdt, .nvm, .acc, .fab, .out] s2 s3' := Within.forEach (hf := fun _ _ => startCh_within (Within.refl _ _) (by decide)) h2
  have h4 : Within [.mode, .regs, .tb, .ph, .gal, .fe, .ch, .est, .link, .ring, .saf, .ldr, .rtc, .wdt, .nvm, .acc, .fab, .out] s2 s4' := Within.forEach (hf := fun _ _ => startFe_within (Within.refl _ _) (by decide)) h3
  have h5 : Within [.mode, .regs, .tb, .ph, .gal, .fe, .ch, .est, .link, .ring, .saf, .ldr, .rtc, .wdt, .nvm, .acc, .fab, .out] s2 s5' := Within.forEach (hf := fun _ _ => startEst_within (Within.refl _ _) (by decide)) h4
  have h6 : Within [.mode, .regs, .tb, .ph, .gal, .fe, .ch, .est, .link, .ring, .saf, .ldr, .rtc, .wdt, .nvm, .acc, .fab, .out] s2 s6' := h5.andThen (m := [.mode, .regs, .tb, .ph, .gal, .fe, .ch, .est, .link, .ring, .saf, .ldr, .rtc, .wdt, .nvm, .acc, .fab, .out]) (hk _ _ _ _ _ _) (by decide)
  have h7 : Within [.mode, .regs, .tb, .ph, .gal, .fe, .ch, .est, .link, .ring, .saf, .ldr, .rtc, .wdt, .nvm, .acc, .fab, .out] s2 s7' := hwStartSlot_within (updateSil_within (modSaf_within h6 (by decide)) (by decide)) (by decide)
  have h8 : Within [.mode, .regs, .tb, .ph, .gal, .fe, .ch, .est, .link, .ring, .saf, .ldr, .rtc, .wdt, .nvm, .acc, .fab, .out] s2 s8' := modLdr_within h7 (by decide)
  exact Within.ite (Within.set_mode h8 (by decide)) (Within.set_saf h8 (by decide))

theorem restartCh_within {l : List Part} {u : State} {x0 : Nat} {s1 : State} (h : Within l u s1)
    (m : ([.ch] : List Part).all l.contains = true) :
    Within l u (restartCh x0 s1) := by
  refine h.andThen (m := [.ch]) ?_ m; clear h m
  unfold restartCh
  repeat' first
    | (with_reducible exact Within.refl _ _) | assumption | (with_reducible apply Within.ite)
    | (with_reducible apply modCh_within (m := by decide)) | (with_reducible apply Within.forEach (hf := fun _ _ => ?_))
    | (with_reducible apply Within.foldl (hf := fun _ _ => ?_)) | split | dsimp only

theorem leavePaused_within {l : List Part} {u : State} {x0 : Nat} {s1 : State} (h : Within l u s1)
    (m : ([.ch, .ring, .fab] : List Part).all l.contains = true) :
    Within l u (leavePaused x0 s1) := by
  refine h.andThen (m := [.ch, .ring, .fab]) ?_ m; clear h m
  unfold leavePaused
  repeat' first
    | (with_reducible exact Within.refl _ _) | assumption | (with_reducible apply Within.ite)
    | (with_reducible apply endPause_within (m := by decide)) | (with_reducible apply modCh_within (m := by decide))
    | (with_reducible apply restartCh_within (m := by decide)) | (with_reducible apply Within.forEach (hf := fun _ _ => ?_))
    | (with_reducible apply Within.foldl (hf := fun _ _ => ?_)) | split | dsimp only

theorem sendPtp_within {l : List Part} {u : State} {x0 : Nat} {x1 : Nat} {x2 : Nat} {x3 : Int} {x4 : Int} {s5 : State} (h : Within l u s5)
    (m : ([.link, .out] : List Part).all l.contains = true) :
    Within l u (sendPtp x0 x1 x2 x3 x4 s5) := by
  refine h.andThen (m := [.link, .out]) ?_ m; clear h m
  unfold sendPtp
  repeat' first
    | (with_reducible exact Within.refl _ _) | assumption | (with_reducible apply Within.ite)
    | (with_reducible apply txFrame_within (m := by decide)) | (with_reducible apply Within.forEach (hf := fun _ _ => ?_))
    | (with_reducible apply Within.foldl (hf := fun _ _ => ?_)) | split | dsimp only

theorem answerPdelay_within {l : List Part} {u : State} {x0 : PtpMsg} {x1 : Int} {s2 : State} (h : Within l u s2)
    (m : ([.link, .out] : List Part).all l.contains = true) :
    Within l u (answerPdelay x0 x1 s2) := by
  refine h.andThen (m := [.link, .out]) ?_ m; clear h m
  unfold answerPdelay
  repeat' first
    | (with_reducible exact Within.refl _ _) | assumption | (with_reducible apply Within.ite)
    | (with_reducible apply sendPtp_within (m := by decide)) | (with_reducible apply Within.forEach (hf := fun _ _ => ?_))
    | (with_reducible apply Within.foldl (hf := fun _ _ => ?_)) | split | dsimp only

theorem setLinkDelay_within {l : List Part} {u : State} {x0 : Nat} {x1 : Int} {x2 : Int} {x3 : Int} {x4 : Int} {x5 : Int} {s6 : State} (h : Within l u s6)
    (m : ([.tb] : List Part).all l.contains = true) :
    Within l u (setLinkDelay x0 x1 x2 x3 x4 x5 s6) := by
  refine h.andThen (m := [.tb]) ?_ m; clear h m
  unfold setLinkDelay
  repeat' first
    | (with_reducible exact Within.refl _ _) | assumption | (with_reducible apply Within.ite)
    | (with_reducible apply modTb_within (m := by decide)) | (with_reducible apply Within.forEach (hf := fun _ _ => ?_))
    | (with_reducible apply Within.foldl (hf := fun _ _ => ?_)) | split | dsimp only

theorem toAcquire_within {l : List Part} {u : State} {s0 : State} (h : Within l u s0)
    (m : ([.tb] : List Part).all l.contains = true) :
    Within l u (toAcquire s0) := by
  refine h.andThen (m := [.tb]) ?_ m; clear h m
  unfold toAcquire
  repeat' first
    | (with_reducible exact Within.refl _ _) | assumption | (with_reducible apply Within.ite)
    | (with_reducible apply modTb_within (m := by decide)) | (with_reducible apply Within.forEach (hf := fun _ _ => ?_))
    | (with_reducible apply Within.foldl (hf := fun _ _ => ?_)) | split | dsimp only

theorem selectMaster_within {l : List Part} {u : State} {s0 : State} (h : Within l u s0)
    (m : ([.tb, .fab] : List Part).all l.contains = true) :
    Within l u (selectMaster s0) := by
  refine h.andThen (m := [.tb, .fab]) ?_ m; clear h m
  unfold selectMaster
  repeat' first
    | (with_reducible exact Within.refl _ _) | assumption | (with_reducible apply Within.ite)
    | (with_reducible apply toAcquire_within (m := by decide)) | (with_reducible apply raise_within (m := by decide))
    | (with_reducible apply modTb_within (m := by decide)) | (with_reducible apply Within.forEach (hf := fun _ _ => ?_))
    | (with_reducible apply Within.foldl (hf := fun _ _ => ?_)) | split | dsimp only

theorem ackRing_within {l : List Part} {u : State} {x0 : Nat} {x1 : Nat} {s2 : State} (h : Within l u s2)
    (m : ([.ring] : List Part).all l.contains = true) :
    Within l u (ackRing x0 x1 s2) := by
  refine h.andThen (m := [.ring]) ?_ m; clear h m
  unfold ackRing
  repeat' first
    | (with_reducible exact Within.refl _ _) | assumption | (with_reducible apply Within.ite)
    | (with_reducible apply modRing_within (m := by decide)) | (with_reducible apply Within.forEach (hf := fun _ _ => ?_))
    | (with_reducible apply Within.foldl (hf := fun _ _ => ?_)) | split | dsimp only

theorem forwardFrame_within {l : List Part} {u : State} {x0 : Nat} {x1 : Sys2Proof.Frame} {s2 : State} (h : Within l u s2)
    (m : ([.link, .out] : List Part).all l.contains = true) :
    Within l u (forwardFrame x0 x1 s2) := by
  refine h.andThen (m := [.link, .out]) ?_ m; clear h m
  unfold forwardFrame
  repeat' first
    | (with_reducible exact Within.refl _ _) | assumption | (with_reducible apply Within.ite)
    | (with_reducible apply modPort_within (m := by decide)) | (with_reducible apply txFrame_within (m := by decide))
    | (with_reducible apply Within.forEach (hf := fun _ _ => ?_)) | (with_reducible apply Within.foldl (hf := fun _ _ => ?_))
    | split | dsimp only

theorem ingressFrame_within {l : List Part} {u : State} {x0 : Nat} {x1 : Sys2Proof.Frame} {s2 : State} (h : Within l u s2)
    (m : ([.link, .out] : List Part).all l.contains = true) :
    Within l u (ingressFrame x0 x1 s2) := by
  refine h.andThen (m := [.link, .out]) ?_ m; clear h m
  unfold ingressFrame
  repeat' first
    | (with_reducible exact Within.refl _ _) | assumption | (with_reducible apply Within.ite)
    | (with_reducible apply modPort_within (m := by decide)) | (with_reducible apply forwardFrame_within (m := by decide))
    | (with_reducible apply Within.forEach (hf := fun _ _ => ?_)) | (with_reducible apply Within.foldl (hf := fun _ _ => ?_))
    | split | dsimp only

theorem tcSuperseded_within {l : List Part} {u : State} {x0 : Nat} {x1 : Nat} {s2 : State} (h : Within l u s2)
    (m : ([.tb] : List Part).all l.contains = true) :
    Within l u (tcSuperseded x0 x1 s2) := by
  refine h.andThen (m := [.tb]) ?_ m; clear h m
  unfold tcSuperseded
  repeat' first
    | (with_reducible exact Within.refl _ _) | assumption | (with_reducible apply Within.ite)
    | (with_reducible apply modTc_within (m := by decide)) | (with_reducible apply Within.forEach (hf := fun _ _ => ?_))
    | (with_reducible apply Within.foldl (hf := fun _ _ => ?_)) | split | dsimp only

theorem tcApplied_within {l : List Part} {u : State} {x0 : Nat} {x1 : Nat} {x2 : Nat} {s3 : State} (h : Within l u s3)
    (m : ([.tb] : List Part).all l.contains = true) :
    Within l u (tcApplied x0 x1 x2 s3) := by
  refine h.andThen (m := [.tb]) ?_ m; clear h m
  unfold tcApplied
  repeat' first
    | (with_reducible exact Within.refl _ _) | assumption | (with_reducible apply Within.ite)
    | (with_reducible apply modTc_within (m := by decide)) | (with_reducible apply Within.forEach (hf := fun _ _ => ?_))
    | (with_reducible apply Within.foldl (hf := fun _ _ => ?_)) | split | dsimp only

theorem keepCmd_within {l : List Part} {u : State} {s0 : State} {x1 : Nat} {x2 : Option EngAct} {s3 : State} (h : Within l u s3)
    (m : ([.tb, .ch] : List Part).all l.contains = true) :
    Within l u (keepCmd s0 x1 x2 s3) := by
  refine h.andThen (m := [.tb, .ch]) ?_ m; clear h m
  unfold keepCmd forEach
  repeat' first
    | (with_reducible exact Within.refl _ _) | assumption | (with_reducible apply Within.ite)
    | (with_reducible apply tcSuperseded_within (m := by decide)) | (with_reducible apply modCh_within (m := by decide))
    | (with_reducible apply tcApplied_within (m := by decide)) | (with_reducible apply Within.forEach (hf := fun _ _ => ?_))
    | (with_reducible apply Within.foldl (hf := fun _ _ => ?_)) | split | dsimp only

theorem stageQuit_within {l : List Part} {u : State} {x0 : Nat} {x1 : Nat} {s2 : State} (h : Within l u s2)
    (m : ([.ch] : List Part).all l.contains = true) :
    Within l u (stageQuit x0 x1 s2) := by
  refine h.andThen (m := [.ch]) ?_ m; clear h m
  unfold stageQuit
  repeat' first
    | (with_reducible exact Within.refl _ _) | assumption | (with_reducible apply Within.ite)
    | (with_reducible apply stageEng_within (m := by decide)) | (with_reducible apply Within.forEach (hf := fun _ _ => ?_))
    | (with_reducible apply Within.foldl (hf := fun _ _ => ?_)) | split | dsimp only

theorem substOrWait_within {l : List Part} {u : State} {x0 : Nat} {x1 : Bool} {s2 : State} (h : Within l u s2)
    (m : ([.ph, .gal, .fe, .ch, .est, .ring, .sqz, .fab, .free] : List Part).all l.contains = true) :
    Within l u (substOrWait x0 x1 s2) := by
  refine h.andThen (m := [.ph, .gal, .fe, .ch, .est, .ring, .sqz, .fab, .free]) ?_ m; clear h m
  unfold substOrWait
  repeat' first
    | (with_reducible exact Within.refl _ _) | assumption | (with_reducible apply Within.ite)
    | (with_reducible apply modFe_within (m := by decide)) | (with_reducible apply takeSubst_within (m := by decide))
    | (with_reducible apply Within.forEach (hf := fun _ _ => ?_)) | (with_reducible apply Within.foldl (hf := fun _ _ => ?_))
    | split | dsimp only

theorem unlock_within {l : List Part} {u : State} {s0 : State} (h : Within l u s0)
    (m : ([.tb, .fab] : List Part).all l.contains = true) :
    Within l u (unlock s0) := by
  refine h.andThen (m := [.tb, .fab]) ?_ m; clear h m
  unfold unlock
  repeat' first
    | (with_reducible exact Within.refl _ _) | assumption | (with_reducible apply Within.ite)
    | (with_reducible apply toAcquire_within (m := by decide)) | (with_reducible apply raise_within (m := by decide))
    | (with_reducible apply modTb_within (m := by decide)) | (with_reducible apply Within.forEach (hf := fun _ _ => ?_))
    | (with_reducible apply Within.foldl (hf := fun _ _ => ?_)) | split | dsimp only

theorem subscribe_within (x0 : Nat) (x1 : Nat) (x2 : Bool) (x3 : Bool) (x4 : Session) (s5 : State) :
    ∀ t, (subscribe x0 x1 x2 x3 x4 s5) = some t → Within [.link, .ring] s5 t := by
  intro t h
  unfold subscribe at h
  dsimp only at h
  split at h
  · split at h
    · cases h; exact modSess_within (Within.refl _ _) (by decide)
    · split at h <;> cases h
      exact modRing_within (modSess_within (Within.refl _ _) (by decide)) (by decide)
  · split at h
    · cases h; exact modSess_within (Within.refl _ _) (by decide)
    · split at h
      · cases h; exact modSess_within (Within.refl _ _) (by decide)
      · split at h <;> cases h
        exact ownRing_within (modSess_within (Within.refl _ _) (by decide)) (by decide)
  · cases h

theorem txTick_within {l : List Part} {u : State} {s0 : State} (h : Within l u s0)
    (m : ([.link] : List Part).all l.contains = true) :
    Within l u (txTick s0) := by
  refine h.andThen (m := [.link]) ?_ m; clear h m
  unfold txTick
  repeat' first
    | (with_reducible exact Within.refl _ _) | assumption | (with_reducible apply Within.ite)
    | (with_reducible apply modPort_within (m := by decide)) | (with_reducible apply Within.forEach (hf := fun _ _ => ?_))
    | (with_reducible apply Within.foldl (hf := fun _ _ => ?_)) | split | dsimp only

theorem turnPhases_within {l : List Part} {u : State} {x0 : Nat} {x1 : Reg} {s2 : State} (h : Within l u s2)
    (m : ([.ph] : List Part).all l.contains = true) :
    Within l u (turnPhases x0 x1 s2) := by
  refine h.andThen (m := [.ph]) ?_ m; clear h m
  unfold turnPhases forEach
  repeat' first
    | (with_reducible exact Within.refl _ _) | assumption | (with_reducible apply Within.ite)
    | (with_reducible apply modPh_within (m := by decide)) | (with_reducible apply Within.forEach (hf := fun _ _ => ?_))
    | (with_reducible apply Within.foldl (hf := fun _ _ => ?_)) | split | dsimp only

theorem gradeHold_within {l : List Part} {u : State} {x0 : Nat} {x1 : Nat} {s2 : State} (h : Within l u s2)
    (m : ([.est, .rcp, .ring, .nvm, .fab] : List Part).all l.contains = true) :
    Within l u (gradeHold x0 x1 s2) := by
  refine h.andThen (m := [.est, .rcp, .ring, .nvm, .fab]) ?_ m; clear h m
  unfold gradeHold
  repeat' first
    | (with_reducible exact Within.refl _ _) | assumption | (with_reducible apply Within.ite)
    | (with_reducible apply sendResult_within (m := by decide)) | (with_reducible apply Within.forEach (hf := fun _ _ => ?_))
    | (with_reducible apply Within.foldl (hf := fun _ _ => ?_)) | split | dsimp only

theorem quitRcp_within {l : List Part} {u : State} {x0 : Nat} {x1 : Nat} {s2 : State} (h : Within l u s2)
    (m : ([.ch, .est, .rcp, .ring, .nvm, .fab] : List Part).all l.contains = true) :
    Within l u (quitRcp x0 x1 s2) := by
  refine h.andThen (m := [.ch, .est, .rcp, .ring, .nvm, .fab]) ?_ m; clear h m
  unfold quitRcp
  repeat' first
    | (with_reducible exact Within.refl _ _) | assumption | (with_reducible apply Within.ite)
    | (with_reducible apply drainCh_within (m := by decide)) | (with_reducible apply gradeHold_within (m := by decide))
    | (with_reducible apply closeStep_within (m := by decide)) | (with_reducible apply raise_within (m := by decide))
    | (with_reducible apply modCh_within (m := by decide)) | (with_reducible apply Within.forEach (hf := fun _ _ => ?_))
    | (with_reducible apply Within.foldl (hf := fun _ _ => ?_)) | split | dsimp only

theorem markLaunch_within {l : List Part} {u : State} {x0 : Nat} {x1 : Option Nat} {s2 : State} (h : Within l u s2)
    (m : ([.tb] : List Part).all l.contains = true) :
    Within l u (markLaunch x0 x1 s2) := by
  refine h.andThen (m := [.tb]) ?_ m; clear h m
  unfold markLaunch forEach
  repeat' first
    | (with_reducible exact Within.refl _ _) | assumption | (with_reducible apply Within.ite)
    | (with_reducible apply tcSuperseded_within (m := by decide)) | (with_reducible apply tcApplied_within (m := by decide))
    | (with_reducible apply Within.forEach (hf := fun _ _ => ?_)) | (with_reducible apply Within.foldl (hf := fun _ _ => ?_))
    | split | dsimp only

theorem measureCap_within {l : List Part} {u : State} {x0 : Nat} {x1 : List Byte} {x2 : Bool} {s3 : State} (h : Within l u s3)
    (m : ([.est, .fab] : List Part).all l.contains = true) :
    Within l u (measureCap x0 x1 x2 s3) := by
  refine h.andThen (m := [.est, .fab]) ?_ m; clear h m
  unfold measureCap
  repeat' first
    | (with_reducible exact Within.refl _ _) | assumption | (with_reducible apply Within.ite)
    | (with_reducible apply modEst_within (m := by decide)) | (with_reducible apply raise_within (m := by decide))
    | (with_reducible apply Within.forEach (hf := fun _ _ => ?_)) | (with_reducible apply Within.foldl (hf := fun _ _ => ?_))
    | split | dsimp only

theorem measureOcv_within {l : List Part} {u : State} {x0 : Nat} {x1 : List Byte} {x2 : Nat} {s3 : State} (h : Within l u s3)
    (m : ([.est] : List Part).all l.contains = true) :
    Within l u (measureOcv x0 x1 x2 s3) := by
  refine h.andThen (m := [.est]) ?_ m; clear h m
  unfold measureOcv
  repeat' first
    | (with_reducible exact Within.refl _ _) | assumption | (with_reducible apply Within.ite)
    | (with_reducible apply modEst_within (m := by decide)) | (with_reducible apply Within.forEach (hf := fun _ _ => ?_))
    | (with_reducible apply Within.foldl (hf := fun _ _ => ?_)) | split | dsimp only

theorem publishDcir_within {l : List Part} {u : State} {x0 : Nat} {s1 : State} (h : Within l u s1)
    (m : ([.est] : List Part).all l.contains = true) :
    Within l u (publishDcir x0 s1) := by
  refine h.andThen (m := [.est]) ?_ m; clear h m
  unfold publishDcir
  repeat' first
    | (with_reducible exact Within.refl _ _) | assumption | (with_reducible apply Within.ite)
    | (with_reducible apply modEst_within (m := by decide)) | (with_reducible apply Within.forEach (hf := fun _ _ => ?_))
    | (with_reducible apply Within.foldl (hf := fun _ _ => ?_)) | split | dsimp only

theorem endStep_within {l : List Part} {u : State} {x0 : Nat} {x1 : Nat} {x2 : Nat} {x3 : Nat} {s4 : State} (h : Within l u s4)
    (m : ([.ch, .est, .fab] : List Part).all l.contains = true) :
    Within l u (endStep x0 x1 x2 x3 s4) := by
  refine h.andThen (m := [.ch, .est, .fab]) ?_ m; clear h m
  unfold endStep
  repeat' first
    | (with_reducible exact Within.refl _ _) | assumption | (with_reducible apply Within.ite)
    | (with_reducible apply measureCap_within (m := by decide)) | (with_reducible apply closeStep_within (m := by decide))
    | (with_reducible apply measureOcv_within (m := by decide)) | (with_reducible apply publishDcir_within (m := by decide))
    | (with_reducible apply Within.forEach (hf := fun _ _ => ?_)) | (with_reducible apply Within.foldl (hf := fun _ _ => ?_))
    | split | dsimp only

theorem toDisabled_within {l : List Part} {u : State} {x0 : Nat} {s1 : State} (h : Within l u s1)
    (m : ([.ph, .ch, .est, .ring, .fab] : List Part).all l.contains = true) :
    Within l u (toDisabled x0 s1) := by
  refine h.andThen (m := [.ph, .ch, .est, .ring, .fab]) ?_ m; clear h m
  unfold toDisabled
  repeat' first
    | (with_reducible exact Within.refl _ _) | assumption | (with_reducible apply Within.ite)
    | (with_reducible apply estOff_within (m := by decide)) | (with_reducible apply modCh_within (m := by decide))
    | (with_reducible apply toIdle_within (m := by decide)) | (with_reducible apply Within.forEach (hf := fun _ _ => ?_))
    | (with_reducible apply Within.foldl (hf := fun _ _ => ?_)) | split | dsimp only

theorem toFault_within {l : List Part} {u : State} {x0 : Nat} {x1 : Nat} {s2 : State} (h : Within l u s2)
    (m : ([.ph, .ch, .est, .ring, .fab] : List Part).all l.contains = true) :
    Within l u (toFault x0 x1 s2) := by
  refine h.andThen (m := [.ph, .ch, .est, .ring, .fab]) ?_ m; clear h m
  unfold toFault
  repeat' first
    | (with_reducible exact Within.refl _ _) | assumption | (with_reducible apply Within.ite)
    | (with_reducible apply clearRun_within (m := by decide)) | (with_reducible apply toDisabled_within (m := by decide))
    | (with_reducible apply closeStep_within (m := by decide)) | (with_reducible apply modCh_within (m := by decide))
    | (with_reducible apply safeChannel_within (m := by decide)) | (with_reducible apply Within.forEach (hf := fun _ _ => ?_))
    | (with_reducible apply Within.foldl (hf := fun _ _ => ?_)) | split | dsimp only

theorem engFault_within {l : List Part} {u : State} {x0 : Nat} {x1 : Nat} {x2 : Option Nat} {s3 : State} (h : Within l u s3)
    (m : ([.ph, .ch, .est, .ring, .fab] : List Part).all l.contains = true) :
    Within l u (engFault x0 x1 x2 s3) := by
  refine h.andThen (m := [.ph, .ch, .est, .ring, .fab]) ?_ m; clear h m
  unfold engFault
  repeat' first
    | (with_reducible exact Within.refl _ _) | assumption | (with_reducible apply Within.ite)
    | (with_reducible apply endStep_within (m := by decide)) | (with_reducible apply raise_within (m := by decide))
    | (with_reducible apply toFault_within (m := by decide)) | (with_reducible apply Within.forEach (hf := fun _ _ => ?_))
    | (with_reducible apply Within.foldl (hf := fun _ _ => ?_)) | split | dsimp only

theorem enterHold_within {l : List Part} {u : State} {x0 : Nat} {x1 : EngAct} {s2 : State} (h : Within l u s2)
    (m : ([.fe, .ch] : List Part).all l.contains = true) :
    Within l u (enterHold x0 x1 s2) := by
  refine h.andThen (m := [.fe, .ch]) ?_ m; clear h m
  unfold enterHold
  repeat' first
    | (with_reducible exact Within.refl _ _) | assumption | (with_reducible apply Within.ite)
    | (with_reducible apply setRange_within (m := by decide)) | (with_reducible apply stopReg_within (m := by decide))
    | (with_reducible apply modCh_within (m := by decide)) | (with_reducible apply Within.forEach (hf := fun _ _ => ?_))
    | (with_reducible apply Within.foldl (hf := fun _ _ => ?_)) | split | dsimp only

theorem completeRcp_within {l : List Part} {u : State} {x0 : Nat} {s1 : State} (h : Within l u s1)
    (m : ([.ch, .est, .rcp, .ring, .nvm, .fab] : List Part).all l.contains = true) :
    Within l u (completeRcp x0 s1) := by
  refine h.andThen (m := [.ch, .est, .rcp, .ring, .nvm, .fab]) ?_ m; clear h m
  unfold completeRcp
  repeat' first
    | (with_reducible exact Within.refl _ _) | assumption | (with_reducible apply Within.ite)
    | (with_reducible apply grade_within (m := by decide)) | (with_reducible apply estChanged_within (m := by decide))
    | (with_reducible apply modCh_within (m := by decide)) | (with_reducible apply Within.forEach (hf := fun _ _ => ?_))
    | (with_reducible apply Within.foldl (hf := fun _ _ => ?_)) | split | dsimp only

theorem goOn_within {l : List Part} {u : State} {x0 : Nat} {x1 : RcpNext} {x2 : EngAct} {s3 : State} (h : Within l u s3)
    (m : ([.fe, .ch, .est, .rcp, .ring, .nvm, .fab] : List Part).all l.contains = true) :
    Within l u (goOn x0 x1 x2 s3) := by
  refine h.andThen (m := [.fe, .ch, .est, .rcp, .ring, .nvm, .fab]) ?_ m; clear h m
  unfold goOn
  repeat' first
    | (with_reducible exact Within.refl _ _) | assumption | (with_reducible apply Within.ite)
    | (with_reducible apply enterHold_within (m := by decide)) | (with_reducible apply drainCh_within (m := by decide))
    | (with_reducible apply raise_within (m := by decide)) | (with_reducible apply modCh_within (m := by decide))
    | (with_reducible apply enterStep_within (m := by decide)) | (with_reducible apply completeRcp_within (m := by decide))
    | (with_reducible apply Within.forEach (hf := fun _ _ => ?_)) | (with_reducible apply Within.foldl (hf := fun _ _ => ?_))
    | split | dsimp only

theorem keepEdge_within {l : List Part} {u : State} {x0 : Nat} {x1 : EngAct} {s2 : State} (h : Within l u s2)
    (m : ([.ch] : List Part).all l.contains = true) :
    Within l u (keepEdge x0 x1 s2) := by
  refine h.andThen (m := [.ch]) ?_ m; clear h m
  unfold keepEdge
  repeat' first
    | (with_reducible exact Within.refl _ _) | assumption | (with_reducible apply Within.ite)
    | (with_reducible apply modCh_within (m := by decide)) | (with_reducible apply Within.forEach (hf := fun _ _ => ?_))
    | (with_reducible apply Within.foldl (hf := fun _ _ => ?_)) | split | dsimp only

theorem actEng_within {l : List Part} {u : State} {x0 : Nat} {x1 : EngAct} {s2 : State} (h : Within l u s2)
    (m : ([.tb, .ph, .fe, .ch, .est, .rcp, .ring, .nvm, .fab] : List Part).all l.contains = true) :
    Within l u (actEng x0 x1 s2) := by
  refine h.andThen (m := [.tb, .ph, .fe, .ch, .est, .rcp, .ring, .nvm, .fab]) ?_ m; clear h m
  unfold actEng
  repeat' first
    | (with_reducible exact Within.refl _ _) | assumption | (with_reducible apply Within.ite)
    | (with_reducible apply setRange_within (m := by decide)) | (with_reducible apply quitRcp_within (m := by decide))
    | (with_reducible apply markLaunch_within (m := by decide)) | (with_reducible apply engFault_within (m := by decide))
    | (with_reducible apply stopReg_within (m := by decide)) | (with_reducible apply endStep_within (m := by decide))
    | (with_reducible apply goOn_within (m := by decide)) | (with_reducible apply modCh_within (m := by decide))
    | (with_reducible apply restartCh_within (m := by decide)) | (with_reducible apply keepEdge_within (m := by decide))
    | (with_reducible apply Within.forEach (hf := fun _ _ => ?_)) | (with_reducible apply Within.foldl (hf := fun _ _ => ?_))
    | split | dsimp only

theorem closeOrRaise_within {l : List Part} {u : State} {x0 : Nat} {x1 : Nat} {x2 : Nat} {s3 : State} (h : Within l u s3)
    (m : ([.ch, .fab] : List Part).all l.contains = true) :
    Within l u (closeOrRaise x0 x1 x2 s3) := by
  refine h.andThen (m := [.ch, .fab]) ?_ m; clear h m
  unfold closeOrRaise
  repeat' first
    | (with_reducible exact Within.refl _ _) | assumption | (with_reducible apply Within.ite)
    | (with_reducible apply closeStep_within (m := by decide)) | (with_reducible apply raise_within (m := by decide))
    | (with_reducible apply modCh_within (m := by decide)) | (with_reducible apply Within.forEach (hf := fun _ _ => ?_))
    | (with_reducible apply Within.foldl (hf := fun _ _ => ?_)) | split | dsimp only

theorem toLost_within {l : List Part} {u : State} {x0 : Nat} {s1 : State} (h : Within l u s1)
    (m : ([.ph, .ch, .est, .fab] : List Part).all l.contains = true) :
    Within l u (toLost x0 s1) := by
  refine h.andThen (m := [.ph, .ch, .est, .fab]) ?_ m; clear h m
  unfold toLost
  repeat' first
    | (with_reducible exact Within.refl _ _) | assumption | (with_reducible apply Within.ite)
    | (with_reducible apply closeOrRaise_within (m := by decide)) | (with_reducible apply estFreeze_within (m := by decide))
    | (with_reducible apply modCh_within (m := by decide)) | (with_reducible apply safeChannel_within (m := by decide))
    | (with_reducible apply Within.forEach (hf := fun _ _ => ?_)) | (with_reducible apply Within.foldl (hf := fun _ _ => ?_))
    | split | dsimp only

theorem safeEntry_within {l : List Part} {u : State} {x0 : Nat} {s1 : State} (h : Within l u s1)
    (m : ([.ph, .fe, .ch, .est, .ring, .fab] : List Part).all l.contains = true) :
    Within l u (safeEntry x0 s1) := by
  refine h.andThen (m := [.ph, .fe, .ch, .est, .ring, .fab]) ?_ m; clear h m
  unfold safeEntry
  repeat' first
    | (with_reducible exact Within.refl _ _) | assumption | (with_reducible apply Within.ite)
    | (with_reducible apply abortEchoes_within (m := by decide)) | (with_reducible apply closeStep_within (m := by decide))
    | (with_reducible apply modCh_within (m := by decide)) | (with_reducible apply toIdle_within (m := by decide))
    | (with_reducible apply toFault_within (m := by decide)) | (with_reducible apply Within.forEach (hf := fun _ _ => ?_))
    | (with_reducible apply Within.foldl (hf := fun _ _ => ?_)) | split | dsimp only

theorem forceZero_within {l : List Part} {u : State} {x0 : Nat} {s1 : State} (h : Within l u s1)
    (m : ([.ph, .ch] : List Part).all l.contains = true) :
    Within l u (forceZero x0 s1) := by
  refine h.andThen (m := [.ph, .ch]) ?_ m; clear h m
  unfold forceZero
  repeat' first
    | (with_reducible exact Within.refl _ _) | assumption | (with_reducible apply Within.ite)
    | (with_reducible apply midChannel_within (m := by decide)) | (with_reducible apply modCh_within (m := by decide))
    | (with_reducible apply Within.forEach (hf := fun _ _ => ?_)) | (with_reducible apply Within.foldl (hf := fun _ _ => ?_))
    | split | dsimp only

theorem fate_within (x0 : Nat) (x1 : Option EngAct) (s2 : State) :
    ∀ t, (fate x0 x1 s2) = some t → Within [.tb, .ph, .fe, .ch, .est, .rcp, .ring, .nvm, .fab] s2 t := by
  intro t h
  unfold fate at h
  dsimp only at h
  split at h
  · split at h <;> cases h
    exact toFault_within (Within.refl _ _) (by decide)
  · split at h
    · cases h; exact safeEntry_within (Within.refl _ _) (by decide)
    · split at h
      · cases h; exact drainCh_within (forceZero_within (Within.refl _ _) (by decide)) (by decide)
      · split at h
        · cases h; exact toLost_within (Within.refl _ _) (by decide)
        · split at h
          · split at h
            · split at h <;> cases h
              exact actEng_within (Within.refl _ _) (by decide)
            · cases h
          · cases h

theorem wdtAct_within {l : List Part} {u : State} {x0 : Nat} {s1 : State} (h : Within l u s1)
    (m : ([.seq, .wdt] : List Part).all l.contains = true) :
    Within l u (wdtAct x0 s1) := by
  refine h.andThen (m := [.seq, .wdt]) ?_ m; clear h m
  unfold wdtAct
  repeat' first
    | (with_reducible exact Within.refl _ _) | assumption | (with_reducible apply Within.ite)
    | (with_reducible apply modWdt_within (m := by decide)) | (with_reducible apply hostReset_within (m := by decide))
    | (with_reducible apply Within.forEach (hf := fun _ _ => ?_)) | (with_reducible apply Within.foldl (hf := fun _ _ => ?_))
    | split | dsimp only

theorem wdtStrike_within {l : List Part} {u : State} {x0 : Nat} {x1 : Nat} {s2 : State} (h : Within l u s2)
    (m : ([.seq, .wdt, .fab] : List Part).all l.contains = true) :
    Within l u (wdtStrike x0 x1 s2) := by
  refine h.andThen (m := [.seq, .wdt, .fab]) ?_ m; clear h m
  unfold wdtStrike
  repeat' first
    | (with_reducible exact Within.refl _ _) | assumption | (with_reducible apply Within.ite)
    | (with_reducible apply raiseA_within (m := by decide)) | (with_reducible apply wdtAct_within (m := by decide))
    | (with_reducible apply modWdt_within (m := by decide)) | (with_reducible apply modSlot_within (m := by decide))
    | (with_reducible apply Within.forEach (hf := fun _ _ => ?_)) | (with_reducible apply Within.foldl (hf := fun _ _ => ?_))
    | split | dsimp only

theorem pushOne_within {l : List Part} {u : State} {x0 : Nat} {x1 : Nat} {x2 : List Byte} {s3 : State} (h : Within l u s3)
    (m : ([.ring, .fab] : List Part).all l.contains = true) :
    Within l u (pushOne x0 x1 x2 s3) := by
  refine h.andThen (m := [.ring, .fab]) ?_ m; clear h m
  unfold pushOne
  repeat' first
    | (with_reducible exact Within.refl _ _) | assumption | (with_reducible apply Within.ite)
    | (with_reducible apply ringPush_within (m := by decide)) | (with_reducible apply Within.forEach (hf := fun _ _ => ?_))
    | (with_reducible apply Within.foldl (hf := fun _ _ => ?_)) | split | dsimp only

theorem oscCount_within {l : List Part} {u : State} {s0 : State} (h : Within l u s0)
    (m : ([.rtc, .shadow] : List Part).all l.contains = true) :
    Within l u (oscCount s0) := by
  refine h.andThen (m := [.rtc, .shadow]) ?_ m; clear h m
  unfold oscCount
  repeat' first
    | (with_reducible exact Within.refl _ _) | assumption | (with_reducible apply Within.ite)
    | (with_reducible apply modRtc_within (m := by decide)) | (with_reducible apply Within.forEach (hf := fun _ _ => ?_))
    | (with_reducible apply Within.foldl (hf := fun _ _ => ?_)) | (with_reducible apply Within.set_shadow (m := by decide))
    | split | dsimp only
    | (refine Within.mk (Within.refl _ _) ?_; intro p hp; cases p <;> first | exact absurd (by decide) hp | rfl)

theorem beginDown_within {l : List Part} {u : State} {s0 : State} (h : Within l u s0)
    (m : ([.mode, .seq, .ph, .gal, .saf, .nvm, .acc, .free] : List Part).all l.contains = true) :
    Within l u (beginDown s0) := by
  refine h.andThen (m := [.mode, .seq, .ph, .gal, .saf, .nvm, .acc, .free]) ?_ m; clear h m
  unfold beginDown forEach
  repeat' first
    | (with_reducible exact Within.refl _ _) | assumption | (with_reducible apply Within.ite)
    | (with_reducible apply modSeq_within (m := by decide)) | (with_reducible apply midPhase_within (m := by decide))
    | (with_reducible apply modGal_within (m := by decide)) | (with_reducible apply downBelow_within (m := by decide))
    | (with_reducible apply Within.forEach (hf := fun _ _ => ?_)) | (with_reducible apply Within.foldl (hf := fun _ _ => ?_))
    | split | dsimp only

theorem flushCore_within {l : List Part} {u : State} {x0 : Nat} {s1 : State} (h : Within l u s1)
    (m : ([.est] : List Part).all l.contains = true) :
    Within l u (flushCore x0 s1) := by
  refine h.andThen (m := [.est]) ?_ m; clear h m
  unfold flushCore
  apply Within.ite
  · refine Within.forEach (hf := fun k u => ?_) (Within.refl _ _)
    by_cases h : (Config.coreOf k).val = x0
    · simp only [h, if_true]; exact modEst_within (Within.refl _ _) (by decide)
    · simp only [h, if_false]; exact Within.refl _ _
  · exact Within.refl _ _

theorem flushUnit_within {l : List Part} {u : State} {x0 : Nat} {s1 : State} (h : Within l u s1)
    (m : ([.gal, .ch, .est, .sump, .nvm] : List Part).all l.contains = true) :
    Within l u (flushUnit x0 s1) := by
  refine h.andThen (m := [.gal, .ch, .est, .sump, .nvm]) ?_ m; clear h m
  unfold flushUnit
  split
  iterate 4 exact flushCore_within (Within.refl _ _) (by decide)
  · exact Within.set_sump (Within.refl _ _) (by decide)
  · exact Within.forEach (hf := fun _ _ => modGal_within (Within.refl _ _) (by decide))
      (Within.forEach (hf := fun _ _ => modCh_within (Within.refl _ _) (by decide)) (Within.refl _ _))
  · exact nvmTear_within (Within.refl _ _) (by decide)
  · exact Within.refl _ _

theorem applyMemory_within {l : List Part} {u : State} {x0 : Img} {s1 : State} (h : Within l u s1)
    (m : ([.rcp] : List Part).all l.contains = true) :
    Within l u (applyMemory x0 s1) := by
  refine h.andThen (m := [.rcp]) ?_ m; clear h m
  unfold applyMemory
  repeat' first
    | (with_reducible exact Within.refl _ _) | assumption | (with_reducible apply Within.ite)
    | (with_reducible apply Within.forEach (hf := fun _ _ => ?_)) | (with_reducible apply Within.foldl (hf := fun _ _ => ?_))
    | (with_reducible apply Within.set_rcp (m := by decide)) | split | dsimp only
    | (refine Within.mk (Within.refl _ _) ?_; intro p hp; cases p <;> first | exact absurd (by decide) hp | rfl)

theorem seedLine_within {l : List Part} {u : State} {s0 : State} (h : Within l u s0)
    (m : ([.tb] : List Part).all l.contains = true) :
    Within l u (seedLine s0) := by
  refine h.andThen (m := [.tb]) ?_ m; clear h m
  unfold seedLine
  repeat' first
    | (with_reducible exact Within.refl _ _) | assumption | (with_reducible apply Within.ite)
    | (with_reducible apply modTb_within (m := by decide)) | (with_reducible apply Within.forEach (hf := fun _ _ => ?_))
    | (with_reducible apply Within.foldl (hf := fun _ _ => ?_)) | split | dsimp only

theorem syncLost_within {l : List Part} {u : State} {s0 : State} (h : Within l u s0)
    (m : ([.tb, .fab] : List Part).all l.contains = true) :
    Within l u (syncLost s0) := by
  refine h.andThen (m := [.tb, .fab]) ?_ m; clear h m
  unfold syncLost
  repeat' first
    | (with_reducible exact Within.refl _ _) | assumption | (with_reducible apply Within.ite)
    | (with_reducible apply raise_within (m := by decide)) | (with_reducible apply modTb_within (m := by decide))
    | (with_reducible apply Within.forEach (hf := fun _ _ => ?_)) | (with_reducible apply Within.foldl (hf := fun _ _ => ?_))
    | split | dsimp only

theorem actDrain_within {l : List Part} {u : State} {x0 : Nat} {s1 : State} (h : Within l u s1)
    (m : ([.ch, .fab] : List Part).all l.contains = true) :
    Within l u (actDrain x0 s1) := by
  refine h.andThen (m := [.ch, .fab]) ?_ m; clear h m
  unfold actDrain
  repeat' first
    | (with_reducible exact Within.refl _ _) | assumption | (with_reducible apply Within.ite)
    | (with_reducible apply drainCh_within (m := by decide)) | (with_reducible apply Within.forEach (hf := fun _ _ => ?_))
    | (with_reducible apply Within.foldl (hf := fun _ _ => ?_)) | split | dsimp only

theorem estTick_within {l : List Part} {u : State} {x0 : Nat} {s1 : State} (h : Within l u s1)
    (m : ([.est] : List Part).all l.contains = true) :
    Within l u (estTick x0 s1) := by
  refine h.andThen (m := [.est]) ?_ m; clear h m
  unfold estTick
  repeat' first
    | (with_reducible exact Within.refl _ _) | assumption | (with_reducible apply Within.ite)
    | (with_reducible apply modEst_within (m := by decide)) | (with_reducible apply Within.forEach (hf := fun _ _ => ?_))
    | (with_reducible apply Within.foldl (hf := fun _ _ => ?_)) | split | dsimp only

theorem tellFixture_within {l : List Part} {u : State} {x0 : Nat} {x1 : Bool} {s2 : State} (h : Within l u s2)
    (m : ([.ch] : List Part).all l.contains = true) :
    Within l u (tellFixture x0 x1 s2) := by
  refine h.andThen (m := [.ch]) ?_ m; clear h m
  unfold tellFixture
  repeat' first
    | (with_reducible exact Within.refl _ _) | assumption | (with_reducible apply Within.ite)
    | (with_reducible apply modCh_within (m := by decide)) | (with_reducible apply Within.forEach (hf := fun _ _ => ?_))
    | (with_reducible apply Within.foldl (hf := fun _ _ => ?_)) | split | dsimp only

theorem updateSeg_within {l : List Part} {u : State} {s0 : State} (h : Within l u s0)
    (m : ([.link, .fab] : List Part).all l.contains = true) :
    Within l u (updateSeg s0) := by
  refine h.andThen (m := [.link, .fab]) ?_ m; clear h m
  unfold updateSeg
  repeat' first
    | (with_reducible exact Within.refl _ _) | assumption | (with_reducible apply Within.ite)
    | (with_reducible apply modLink_within (m := by decide)) | (with_reducible apply raise_within (m := by decide))
    | (with_reducible apply Within.forEach (hf := fun _ _ => ?_)) | (with_reducible apply Within.foldl (hf := fun _ _ => ?_))
    | split | dsimp only

theorem syncState_within {l : List Part} {u : State} {x0 : Int} {s1 : State} (h : Within l u s1)
    (m : ([.tb, .fab] : List Part).all l.contains = true) :
    Within l u (syncState x0 s1) := by
  refine h.andThen (m := [.tb, .fab]) ?_ m; clear h m
  unfold syncState
  repeat' first
    | (with_reducible exact Within.refl _ _) | assumption | (with_reducible apply Within.ite)
    | (with_reducible apply unlock_within (m := by decide)) | (with_reducible apply toAcquire_within (m := by decide))
    | (with_reducible apply raise_within (m := by decide)) | (with_reducible apply modTb_within (m := by decide))
    | (with_reducible apply Within.forEach (hf := fun _ _ => ?_)) | (with_reducible apply Within.foldl (hf := fun _ _ => ?_))
    | split | dsimp only

theorem acceptSync_within {l : List Part} {u : State} {x0 : Nat} {x1 : Int} {x2 : Int} {x3 : Int} {x4 : Int} {s5 : State} (h : Within l u s5)
    (m : ([.tb, .fab] : List Part).all l.contains = true) :
    Within l u (acceptSync x0 x1 x2 x3 x4 s5) := by
  refine h.andThen (m := [.tb, .fab]) ?_ m; clear h m
  unfold acceptSync
  repeat' first
    | (with_reducible exact Within.refl _ _) | assumption | (with_reducible apply Within.ite)
    | (with_reducible apply servo_within (m := by decide)) | (with_reducible apply syncState_within (m := by decide))
    | (with_reducible apply modTb_within (m := by decide)) | (with_reducible apply Within.forEach (hf := fun _ _ => ?_))
    | (with_reducible apply Within.foldl (hf := fun _ _ => ?_)) | split | dsimp only

theorem byeAct_within {l : List Part} {u : State} {x0 : Endpoint} {x1 : List Byte} {s2 : State} (h : Within l u s2)
    (m : ([.mode, .tb, .ph, .gal, .fe, .ch, .link, .ring, .saf, .ldr, .acc, .fab, .out] : List Part).all l.contains = true) :
    Within l u (byeAct x0 x1 s2) := by
  refine h.andThen (m := [.mode, .tb, .ph, .gal, .fe, .ch, .link, .ring, .saf, .ldr, .acc, .fab, .out]) ?_ m; clear h m
  unfold byeAct
  have h1 : Within [.mode, .tb, .ph, .gal, .fe, .ch, .link, .ring, .saf, .ldr, .acc, .fab, .out] s2 (pzRequest x0 x1 false emptyForm .observer (fun _ _ _ u => .ok [] u) s2) :=
    pzRequest_within (fun _ _ _ _ => Within.refl _ _) (Within.refl _ _) (by decide)
  dsimp only
  split
  · split
    · exact Within.ite (closeSession_within h1 (by decide)) h1
    · exact h1
  · exact h1

theorem applyCal_within {l : List Part} {u : State} {x0 : List Byte} {s1 : State} (h : Within l u s1)
    (m : ([.regs] : List Part).all l.contains = true) :
    Within l u (applyCal x0 s1) := by
  refine h.andThen (m := [.regs]) ?_ m; clear h m
  unfold applyCal
  repeat' first
    | (with_reducible exact Within.refl _ _) | assumption | (with_reducible apply Within.ite)
    | (with_reducible apply setCfg_within (m := by decide)) | (with_reducible apply Within.forEach (hf := fun _ _ => ?_))
    | (with_reducible apply Within.foldl (hf := fun _ _ => ?_)) | split | dsimp only

theorem applyWord_within {l : List Part} {u : State} {x0 : Nat} {x1 : Nat} {s2 : State} (h : Within l u s2)
    (m : ([.regs, .rtc, .wdt, .intc, .fab] : List Part).all l.contains = true) :
    Within l u (applyWord x0 x1 s2) := by
  refine h.andThen (m := [.regs, .rtc, .wdt, .intc, .fab]) ?_ m; clear h m
  unfold applyWord
  repeat' first
    | (with_reducible exact Within.refl _ _) | assumption | (with_reducible apply Within.ite)
    | (with_reducible apply setCfg_within (m := by decide)) | (with_reducible apply writeRtcCtrl_within (m := by decide))
    | (with_reducible apply modWdt_within (m := by decide)) | (with_reducible apply writeIntcSrc_within (m := by decide))
    | (with_reducible apply modSlot_within (m := by decide)) | (with_reducible apply writeRtcPwake_within (m := by decide))
    | (with_reducible apply Within.forEach (hf := fun _ _ => ?_)) | (with_reducible apply Within.foldl (hf := fun _ _ => ?_))
    | split | dsimp only

theorem applyAbsent_within {l : List Part} {u : State} {x0 : Img} {x1 : Nat} {s2 : State} (h : Within l u s2)
    (m : ([.regs, .rtc, .wdt, .intc, .fab] : List Part).all l.contains = true) :
    Within l u (applyAbsent x0 x1 s2) := by
  refine h.andThen (m := [.regs, .rtc, .wdt, .intc, .fab]) ?_ m; clear h m
  unfold applyAbsent
  repeat' first
    | (with_reducible exact Within.refl _ _) | assumption | (with_reducible apply Within.ite)
    | (with_reducible apply applyWord_within (m := by decide)) | (with_reducible apply Within.forEach (hf := fun _ _ => ?_))
    | (with_reducible apply Within.foldl (hf := fun _ _ => ?_)) | split | dsimp only

theorem applyCh_within {l : List Part} {u : State} {x0 : Img} {x1 : Nat} {x2 : Nat} {s3 : State} (h : Within l u s3)
    (m : ([.regs, .rtc, .wdt, .intc, .fab] : List Part).all l.contains = true) :
    Within l u (applyCh x0 x1 x2 s3) := by
  refine h.andThen (m := [.regs, .rtc, .wdt, .intc, .fab]) ?_ m; clear h m
  unfold applyCh
  repeat' first
    | (with_reducible exact Within.refl _ _) | assumption | (with_reducible apply Within.ite)
    | (with_reducible apply setCfg_within (m := by decide)) | (with_reducible apply applyWord_within (m := by decide))
    | (with_reducible apply Within.forEach (hf := fun _ _ => ?_)) | (with_reducible apply Within.foldl (hf := fun _ _ => ?_))
    | split | dsimp only

theorem applySect_within {l : List Part} {u : State} {x0 : Img} {x1 : Sect} {s2 : State} (h : Within l u s2)
    (m : ([.regs, .tb, .rtc, .wdt, .intc, .fab] : List Part).all l.contains = true) :
    Within l u (applySect x0 x1 s2) := by
  refine h.andThen (m := [.regs, .tb, .rtc, .wdt, .intc, .fab]) ?_ m; clear h m
  unfold applySect forEach
  repeat' first
    | (with_reducible exact Within.refl _ _) | assumption | (with_reducible apply Within.ite)
    | (with_reducible apply applyWord_within (m := by decide)) | (with_reducible apply applyCh_within (m := by decide))
    | (with_reducible apply modGrp_within (m := by decide)) | (with_reducible apply Within.forEach (hf := fun _ _ => ?_))
    | (with_reducible apply Within.foldl (hf := fun _ _ => ?_)) | split | dsimp only

theorem applyTypes_within {l : List Part} {u : State} {x0 : Img} {s1 : State} (h : Within l u s1)
    (m : ([.regs, .tb, .rtc, .wdt, .intc, .fab] : List Part).all l.contains = true) :
    Within l u (applyTypes x0 s1) := by
  refine h.andThen (m := [.regs, .tb, .rtc, .wdt, .intc, .fab]) ?_ m; clear h m
  unfold applyTypes
  repeat' first
    | (with_reducible exact Within.refl _ _) | assumption | (with_reducible apply Within.ite)
    | (with_reducible apply applyAbsent_within (m := by decide)) | (with_reducible apply applySect_within (m := by decide))
    | (with_reducible apply Within.forEach (hf := fun _ _ => ?_)) | (with_reducible apply Within.foldl (hf := fun _ _ => ?_))
    | split | dsimp only

theorem chooseCal_within {l : List Part} {u : State} {x0 : Img} {s1 : State} (h : Within l u s1)
    (m : ([.regs, .fe, .fab] : List Part).all l.contains = true) :
    Within l u (chooseCal x0 s1) := by
  refine h.andThen (m := [.regs, .fe, .fab]) ?_ m; clear h m
  unfold chooseCal forEach
  repeat' first
    | (with_reducible exact Within.refl _ _) | assumption | (with_reducible apply Within.ite)
    | (with_reducible apply applyCal_within (m := by decide)) | (with_reducible apply setCfg_within (m := by decide))
    | (with_reducible apply modFe_within (m := by decide)) | (with_reducible apply raiseSrc_within (m := by decide))
    | (with_reducible apply raise_within (m := by decide)) | (with_reducible apply Within.forEach (hf := fun _ _ => ?_))
    | (with_reducible apply Within.foldl (hf := fun _ _ => ?_)) | split | dsimp only

theorem applyImage_within {l : List Part} {u : State} {x0 : List Byte} {s1 : State} (h : Within l u s1)
    (m : ([.regs, .tb, .fe, .ch, .rcp, .sump, .link, .saf, .ldr, .rtc, .wdt, .intc, .fab, .out] : List Part).all l.contains = true) :
    Within l u (applyImage x0 s1) := by
  refine h.andThen (m := [.regs, .tb, .fe, .ch, .rcp, .sump, .link, .saf, .ldr, .rtc, .wdt, .intc, .fab, .out]) ?_ m; clear h m
  unfold applyImage
  repeat' first
    | (with_reducible exact Within.refl _ _) | assumption | (with_reducible apply Within.ite)
    | (with_reducible apply takeAddress_within (m := by decide)) | (with_reducible apply seedLine_within (m := by decide))
    | (with_reducible apply applyTypes_within (m := by decide)) | (with_reducible apply updateWcr_within (m := by decide))
    | (with_reducible apply chooseCal_within (m := by decide)) | (with_reducible apply modLdr_within (m := by decide))
    | (with_reducible apply modSaf_within (m := by decide)) | (with_reducible apply raise_within (m := by decide))
    | (with_reducible apply modTb_within (m := by decide)) | (with_reducible apply inhUpdate_within (m := by decide))
    | (with_reducible apply applyMemory_within (m := by decide)) | (with_reducible apply Within.forEach (hf := fun _ _ => ?_))
    | (with_reducible apply Within.foldl (hf := fun _ _ => ?_)) | split | dsimp only

theorem dropHeld_within {l : List Part} {u : State} {x0 : Nat} {s1 : State} (h : Within l u s1)
    (m : ([.est, .fab] : List Part).all l.contains = true) :
    Within l u (dropHeld x0 s1) := by
  refine h.andThen (m := [.est, .fab]) ?_ m; clear h m
  unfold dropHeld
  repeat' first
    | (with_reducible exact Within.refl _ _) | assumption | (with_reducible apply Within.ite)
    | (with_reducible apply modEst_within (m := by decide)) | (with_reducible apply raise_within (m := by decide))
    | (with_reducible apply Within.forEach (hf := fun _ _ => ?_)) | (with_reducible apply Within.foldl (hf := fun _ _ => ?_))
    | split | dsimp only

theorem dropReq_within {l : List Part} {u : State} {x0 : NvmReq} {s1 : State} (h : Within l u s1)
    (m : ([.est, .fab] : List Part).all l.contains = true) :
    Within l u (dropReq x0 s1) := by
  refine h.andThen (m := [.est, .fab]) ?_ m; clear h m
  unfold dropReq
  repeat' first
    | (with_reducible exact Within.refl _ _) | assumption | (with_reducible apply Within.ite)
    | (with_reducible apply modEst_within (m := by decide)) | (with_reducible apply raise_within (m := by decide))
    | (with_reducible apply Within.forEach (hf := fun _ _ => ?_)) | (with_reducible apply Within.foldl (hf := fun _ _ => ?_))
    | split | dsimp only

theorem nvmLock_within {l : List Part} {u : State} {s0 : State} (h : Within l u s0)
    (m : ([.est, .nvm, .fab] : List Part).all l.contains = true) :
    Within l u (nvmLock s0) := by
  refine h.andThen (m := [.est, .nvm, .fab]) ?_ m; clear h m
  unfold nvmLock forEach
  repeat' first
    | (with_reducible exact Within.refl _ _) | assumption | (with_reducible apply Within.ite)
    | (with_reducible apply dropHeld_within (m := by decide)) | (with_reducible apply dropReq_within (m := by decide))
    | (with_reducible apply nvmNext_within (m := by decide)) | (with_reducible apply Within.forEach (hf := fun _ _ => ?_))
    | (with_reducible apply Within.foldl (hf := fun _ _ => ?_)) | (with_reducible apply Within.set_nvm (m := by decide)) | split
    | dsimp only | (refine Within.mk (Within.refl _ _) ?_; intro p hp; cases p <;> first | exact absurd (by decide) hp | rfl)

theorem actClear_within {l : List Part} {u : State} {x0 : Nat} {s1 : State} (h : Within l u s1)
    (m : ([.ph, .fe, .ch, .ring, .fab] : List Part).all l.contains = true) :
    Within l u (actClear x0 s1) := by
  refine h.andThen (m := [.ph, .fe, .ch, .ring, .fab]) ?_ m; clear h m
  unfold actClear forEach
  repeat' first
    | (with_reducible exact Within.refl _ _) | assumption | (with_reducible apply Within.ite)
    | (with_reducible apply modFe_within (m := by decide)) | (with_reducible apply clearFault_within (m := by decide))
    | (with_reducible apply refuseCmd_within (m := by decide)) | (with_reducible apply Within.forEach (hf := fun _ _ => ?_))
    | (with_reducible apply Within.foldl (hf := fun _ _ => ?_)) | split | dsimp only

theorem actCmd_within {l : List Part} {u : State} {x0 : Nat} {x1 : ChCmd} {s2 : State} (h : Within l u s2)
    (m : ([.ph, .fe, .ch, .est, .ring, .fab] : List Part).all l.contains = true) :
    Within l u (actCmd x0 x1 s2) := by
  refine h.andThen (m := [.ph, .fe, .ch, .est, .ring, .fab]) ?_ m; clear h m
  unfold actCmd
  repeat' first
    | (with_reducible exact Within.refl _ _) | assumption | (with_reducible apply Within.ite)
    | (with_reducible apply estWait_within (m := by decide)) | (with_reducible apply actClear_within (m := by decide))
    | (with_reducible apply drainCh_within (m := by decide)) | (with_reducible apply refuseCmd_within (m := by decide))
    | (with_reducible apply modCh_within (m := by decide)) | (with_reducible apply Within.forEach (hf := fun _ _ => ?_))
    | (with_reducible apply Within.foldl (hf := fun _ _ => ?_)) | split | dsimp only

theorem tryCmd_within {l : List Part} {u : State} {x0 : Nat} {x1 : ChCmd} {s2 : State} (h : Within l u s2)
    (m : ([.ph, .fe, .ch, .est, .ring, .fab] : List Part).all l.contains = true) :
    Within l u (tryCmd x0 x1 s2) := by
  refine h.andThen (m := [.ph, .fe, .ch, .est, .ring, .fab]) ?_ m; clear h m
  unfold tryCmd
  repeat' first
    | (with_reducible exact Within.refl _ _) | assumption | (with_reducible apply Within.ite)
    | (with_reducible apply actCmd_within (m := by decide)) | (with_reducible apply Within.forEach (hf := fun _ _ => ?_))
    | (with_reducible apply Within.foldl (hf := fun _ _ => ?_)) | split | dsimp only

theorem leaveBrake_within {l : List Part} {u : State} {x0 : Nat} {x1 : Nat} {s2 : State} (h : Within l u s2)
    (m : ([.ph, .ch] : List Part).all l.contains = true) :
    Within l u (leaveBrake x0 x1 s2) := by
  refine h.andThen (m := [.ph, .ch]) ?_ m; clear h m
  unfold leaveBrake
  repeat' first
    | (with_reducible exact Within.refl _ _) | assumption | (with_reducible apply Within.ite)
    | (with_reducible apply modPh_within (m := by decide)) | (with_reducible apply modCh_within (m := by decide))
    | (with_reducible apply Within.forEach (hf := fun _ _ => ?_)) | (with_reducible apply Within.foldl (hf := fun _ _ => ?_))
    | split | dsimp only

theorem ackAct_within {l : List Part} {u : State} {x0 : Endpoint} {x1 : List Byte} {s2 : State} (h : Within l u s2)
    (m : ([.link, .ring, .fab, .out] : List Part).all l.contains = true) :
    Within l u (ackAct x0 x1 s2) := by
  refine h.andThen (m := [.link, .ring, .fab, .out]) ?_ m; clear h m
  unfold ackAct
  repeat' first
    | (with_reducible exact Within.refl _ _) | assumption | (with_reducible apply Within.ite)
    | (with_reducible apply pzRaise_within (m := by decide)) | (with_reducible apply modLink_within (m := by decide))
    | (with_reducible apply modSess_within (m := by decide)) | (with_reducible apply pzSend_within (m := by decide))
    | (with_reducible apply pzDiscard_within (m := by decide)) | (with_reducible apply ackRing_within (m := by decide))
    | (with_reducible apply Within.forEach (hf := fun _ _ => ?_)) | (with_reducible apply Within.foldl (hf := fun _ _ => ?_))
    | split | dsimp only

theorem modDie_within {l : List Part} {u : State} {x0 : Nat} {x1 : Die → Die} {s2 : State} (h : Within l u s2)
    (m : ([.thm] : List Part).all l.contains = true) :
    Within l u (modDie x0 x1 s2) := by
  refine h.andThen (m := [.thm]) ?_ m; clear h m
  unfold modDie
  repeat' first
    | (with_reducible exact Within.refl _ _) | assumption | (with_reducible apply Within.ite)
    | (with_reducible apply Within.forEach (hf := fun _ _ => ?_)) | (with_reducible apply Within.foldl (hf := fun _ _ => ?_))
    | (with_reducible apply Within.set_thm (m := by decide)) | split | dsimp only
    | (refine Within.mk (Within.refl _ _) ?_; intro p hp; cases p <;> first | exact absurd (by decide) hp | rfl)

theorem dieShut_within {l : List Part} {u : State} {x0 : Nat} {s1 : State} (h : Within l u s1)
    (m : ([.mode, .seq, .tb, .ph, .gal, .fe, .ch, .saf, .acc, .fab] : List Part).all l.contains = true) :
    Within l u (dieShut x0 s1) := by
  refine h.andThen (m := [.mode, .seq, .tb, .ph, .gal, .fe, .ch, .saf, .acc, .fab]) ?_ m; clear h m
  unfold dieShut
  repeat' first
    | (with_reducible exact Within.refl _ _) | assumption | (with_reducible apply Within.ite)
    | (with_reducible apply decideGal_within (m := by decide)) | (with_reducible apply decideDev_within (m := by decide))
    | (with_reducible apply Within.forEach (hf := fun _ _ => ?_)) | (with_reducible apply Within.foldl (hf := fun _ _ => ?_))
    | split | dsimp only

theorem raiseDie_within {l : List Part} {u : State} {x0 : Nat} {x1 : Nat} {s2 : State} (h : Within l u s2)
    (m : ([.fab] : List Part).all l.contains = true) :
    Within l u (raiseDie x0 x1 s2) := by
  refine h.andThen (m := [.fab]) ?_ m; clear h m
  unfold raiseDie
  repeat' first
    | (with_reducible exact Within.refl _ _) | assumption | (with_reducible apply Within.ite)
    | (with_reducible apply raiseAt_within (m := by decide)) | (with_reducible apply Within.forEach (hf := fun _ _ => ?_))
    | (with_reducible apply Within.foldl (hf := fun _ _ => ?_)) | split | dsimp only

theorem dieTake_within {l : List Part} {u : State} {x0 : Nat} {x1 : Int} {s2 : State} (h : Within l u s2)
    (m : ([.mode, .seq, .tb, .ph, .gal, .fe, .ch, .saf, .thm, .acc, .fab] : List Part).all l.contains = true) :
    Within l u (dieTake x0 x1 s2) := by
  refine h.andThen (m := [.mode, .seq, .tb, .ph, .gal, .fe, .ch, .saf, .thm, .acc, .fab]) ?_ m; clear h m
  unfold dieTake
  repeat' first
    | (with_reducible exact Within.refl _ _) | assumption | (with_reducible apply Within.ite)
    | (with_reducible apply modDie_within (m := by decide)) | (with_reducible apply dieShut_within (m := by decide))
    | (with_reducible apply raiseDie_within (m := by decide)) | (with_reducible apply Within.forEach (hf := fun _ _ => ?_))
    | (with_reducible apply Within.foldl (hf := fun _ _ => ?_)) | (with_reducible apply Within.set_saf (m := by decide))
    | (with_reducible apply Within.set_thm (m := by decide)) | split | dsimp only
    | (refine Within.mk (Within.refl _ _) ?_; intro p hp; cases p <;> first | exact absurd (by decide) hp | rfl)

theorem confirmFault_within {l : List Part} {u : State} {x0 : Nat} {x1 : Nat} {x2 : Nat} {x3 : Nat} {x4 : Nat} {s5 : State} (h : Within l u s5)
    (m : ([.ph, .ch, .fab] : List Part).all l.contains = true) :
    Within l u (confirmFault x0 x1 x2 x3 x4 s5) := by
  refine h.andThen (m := [.ph, .ch, .fab]) ?_ m; clear h m
  unfold confirmFault
  repeat' first
    | (with_reducible exact Within.refl _ _) | assumption | (with_reducible apply Within.ite)
    | (with_reducible apply raiseA_within (m := by decide)) | (with_reducible apply setPhFlt_within (m := by decide))
    | (with_reducible apply modCh_within (m := by decide)) | (with_reducible apply captureLfr_within (m := by decide))
    | (with_reducible apply Within.forEach (hf := fun _ _ => ?_)) | (with_reducible apply Within.foldl (hf := fun _ _ => ?_))
    | split | dsimp only

theorem twiGet_within {l : List Part} {u : State} {s0 : State} (h : Within l u s0)
    (m : ([.tb, .ph, .gal, .fe, .ch, .est, .sump, .link, .ring, .sqz, .saf, .ldr, .twi, .rtc, .wdt, .thm, .intc, .nvm, .fab, .shadow] : List Part).all l.contains = true) :
    Within l u (twiGet s0).2 := by
  refine h.andThen (m := [.tb, .ph, .gal, .fe, .ch, .est, .sump, .link, .ring, .sqz, .saf, .ldr, .twi, .rtc, .wdt, .thm, .intc, .nvm, .fab, .shadow]) ?_ m; clear h m
  unfold twiGet
  repeat' first
    | (with_reducible exact Within.refl _ _) | assumption | (with_reducible apply Within.ite)
    | (with_reducible apply modTwi_within (m := by decide)) | (with_reducible apply readReg_within (m := by decide))
    | (with_reducible apply Within.forEach (hf := fun _ _ => ?_)) | (with_reducible apply Within.foldl (hf := fun _ _ => ?_))
    | split | dsimp only

theorem twiGetAll_within {l : List Part} {u : State} {x0 : Nat} {s1 : State} (h : Within l u s1)
    (m : ([.tb, .ph, .gal, .fe, .ch, .est, .sump, .link, .ring, .sqz, .saf, .ldr, .twi, .rtc, .wdt, .thm, .intc, .nvm, .fab, .shadow] : List Part).all l.contains = true) :
    Within l u (twiGetAll x0 s1).2 := by
  refine h.andThen (m := [.tb, .ph, .gal, .fe, .ch, .est, .sump, .link, .ring, .sqz, .saf, .ldr, .twi, .rtc, .wdt, .thm, .intc, .nvm, .fab, .shadow]) ?_ m; clear h m
  induction x0 generalizing s1 with
  | zero => exact Within.refl _ _
  | succ n ih => exact Within.andThen (l := [.tb, .ph, .gal, .fe, .ch, .est, .sump, .link, .ring, .sqz, .saf, .ldr, .twi, .rtc, .wdt, .thm, .intc, .nvm, .fab, .shadow]) (m := [.tb, .ph, .gal, .fe, .ch, .est, .sump, .link, .ring, .sqz, .saf, .ldr, .twi, .rtc, .wdt, .thm, .intc, .nvm, .fab, .shadow]) (twiGet_within (Within.refl _ _) (by decide)) ih (by decide)

theorem twiRead_within {l : List Part} {u : State} {x0 : Nat} {x1 : TwiBusy} {s2 : State} (h : Within l u s2)
    (m : ([.tb, .ph, .gal, .fe, .ch, .est, .sump, .link, .ring, .sqz, .saf, .ldr, .twi, .rtc, .wdt, .thm, .intc, .nvm, .fab, .shadow, .out] : List Part).all l.contains = true) :
    Within l u (twiRead x0 x1 s2) := by
  refine h.andThen (m := [.tb, .ph, .gal, .fe, .ch, .est, .sump, .link, .ring, .sqz, .saf, .ldr, .twi, .rtc, .wdt, .thm, .intc, .nvm, .fab, .shadow, .out]) ?_ m; clear h m
  unfold twiRead
  repeat' first
    | (with_reducible exact Within.refl _ _) | assumption | (with_reducible apply Within.ite)
    | (with_reducible apply twiAnswer_within (m := by decide)) | (with_reducible apply modTwi_within (m := by decide))
    | (with_reducible apply readReg_within (m := by decide)) | (with_reducible apply twiGetAll_within (m := by decide))
    | (with_reducible apply twiBusyNack_within (m := by decide)) | (with_reducible apply Within.forEach (hf := fun _ _ => ?_))
    | (with_reducible apply Within.foldl (hf := fun _ _ => ?_)) | split | dsimp only

theorem readCmd_within {l : List Part} {u : State} {x0 : Path} {x1 : Nat} {x2 : Word} {s3 : State} (h : Within l u s3)
    (m : ([.tb, .ph, .gal, .fe, .ch, .est, .sump, .link, .ring, .sqz, .saf, .ldr, .twi, .rtc, .wdt, .thm, .intc, .nvm, .fab, .shadow, .out] : List Part).all l.contains = true) :
    Within l u (readCmd x0 x1 x2 s3) := by
  refine h.andThen (m := [.tb, .ph, .gal, .fe, .ch, .est, .sump, .link, .ring, .sqz, .saf, .ldr, .twi, .rtc, .wdt, .thm, .intc, .nvm, .fab, .shadow, .out]) ?_ m; clear h m
  unfold readCmd
  repeat' first
    | (with_reducible exact Within.refl _ _) | assumption | (with_reducible apply Within.ite)
    | (with_reducible apply readRacing_within (m := by decide)) | (with_reducible apply emit_within (m := by decide))
    | (with_reducible apply Within.forEach (hf := fun _ _ => ?_)) | (with_reducible apply Within.foldl (hf := fun _ _ => ?_))
    | split | dsimp only

theorem tickEnd_within {l : List Part} {u : State} {s0 : State} (h : Within l u s0)
    (m : ([.seq, .gal, .link, .saf, .rtc, .wdt] : List Part).all l.contains = true) :
    Within l u (tickEnd s0) := by
  refine h.andThen (m := [.seq, .gal, .link, .saf, .rtc, .wdt]) ?_ m; clear h m
  have hg : Within [.seq, .gal, .link, .saf, .rtc, .wdt] s0 (forEach (upto 8) (modGal · fun g => { g with engCommit := none }) s0) :=
    Within.forEach (hf := fun _ _ => modGal_within (Within.refl _ _) (by decide)) (Within.refl _ _)
  have hk (t : State) (a b c d e : _) : Within [.seq, .gal, .link, .saf, .rtc, .wdt] t { t with saf := a, seq := b, wdt := c, link := d, rtc := e } :=
    fun p hp => by cases p <;> first | exact absurd (by decide) hp | rfl
  exact hg.andThen (m := [.seq, .gal, .link, .saf, .rtc, .wdt]) (hk _ _ _ _ _ _) (by decide)

theorem markReleases_within {l : List Part} {u : State} {s0 : State} {x1 : Nat} {x2 : EngAct} {s3 : State} (h : Within l u s3)
    (m : ([.tb] : List Part).all l.contains = true) :
    Within l u (markReleases s0 x1 x2 s3) := by
  refine h.andThen (m := [.tb]) ?_ m; clear h m
  unfold markReleases forEach
  repeat' first
    | (with_reducible exact Within.refl _ _) | assumption | (with_reducible apply Within.ite)
    | (with_reducible apply tcApplied_within (m := by decide)) | (with_reducible apply Within.forEach (hf := fun _ _ => ?_))
    | (with_reducible apply Within.foldl (hf := fun _ _ => ?_)) | split | dsimp only

theorem endDrain_within {l : List Part} {u : State} {x0 : Nat} {s1 : State} (h : Within l u s1)
    (m : ([.ph, .ch, .est, .ring, .fab] : List Part).all l.contains = true) :
    Within l u (endDrain x0 s1) := by
  refine h.andThen (m := [.ph, .ch, .est, .ring, .fab]) ?_ m; clear h m
  unfold endDrain
  repeat' first
    | (with_reducible exact Within.refl _ _) | assumption | (with_reducible apply Within.ite)
    | (with_reducible apply estChanged_within (m := by decide)) | (with_reducible apply toDisabled_within (m := by decide))
    | (with_reducible apply toIdle_within (m := by decide)) | (with_reducible apply Within.forEach (hf := fun _ _ => ?_))
    | (with_reducible apply Within.foldl (hf := fun _ _ => ?_)) | split | dsimp only

theorem advance_within {l : List Part} {u : State} {s0 : State} (h : Within l u s0)
    (m : ([.tb] : List Part).all l.contains = true) :
    Within l u (advance s0) := by
  refine h.andThen (m := [.tb]) ?_ m; clear h m
  unfold advance
  repeat' first
    | (with_reducible exact Within.refl _ _) | assumption | (with_reducible apply Within.ite)
    | (with_reducible apply Within.forEach (hf := fun _ _ => ?_)) | (with_reducible apply Within.foldl (hf := fun _ _ => ?_))
    | (with_reducible apply Within.set_tb (m := by decide)) | split | dsimp only
    | (refine Within.mk (Within.refl _ _) ?_; intro p hp; cases p <;> first | exact absurd (by decide) hp | rfl)

theorem noImage_within {l : List Part} {u : State} {s0 : State} (h : Within l u s0)
    (m : ([.link, .ldr, .fab] : List Part).all l.contains = true) :
    Within l u (noImage s0) := by
  refine h.andThen (m := [.link, .ldr, .fab]) ?_ m; clear h m
  unfold noImage
  repeat' first
    | (with_reducible exact Within.refl _ _) | assumption | (with_reducible apply Within.ite)
    | (with_reducible apply modLink_within (m := by decide)) | (with_reducible apply modLdr_within (m := by decide))
    | (with_reducible apply raise_within (m := by decide)) | (with_reducible apply Within.forEach (hf := fun _ _ => ?_))
    | (with_reducible apply Within.foldl (hf := fun _ _ => ?_)) | split | dsimp only

theorem slotFails_within {l : List Part} {u : State} {x0 : Nat} {x1 : Nat} {x2 : Nat} {s3 : State} (h : Within l u s3)
    (m : ([.link, .ldr, .fab, .out] : List Part).all l.contains = true) :
    Within l u (slotFails x0 x1 x2 s3) := by
  refine h.andThen (m := [.link, .ldr, .fab, .out]) ?_ m; clear h m
  unfold slotFails
  repeat' first
    | (with_reducible exact Within.refl _ _) | assumption | (with_reducible apply Within.ite)
    | (with_reducible apply noImage_within (m := by decide)) | (with_reducible apply emit_within (m := by decide))
    | (with_reducible apply raiseSrc_within (m := by decide)) | (with_reducible apply modLdr_within (m := by decide))
    | (with_reducible apply Within.forEach (hf := fun _ _ => ?_)) | (with_reducible apply Within.foldl (hf := fun _ _ => ?_))
    | split | dsimp only

theorem nacksSeen_within {l : List Part} {u : State} {x0 : Nat} {s1 : State} (h : Within l u s1)
    (m : ([.twi, .free] : List Part).all l.contains = true) :
    Within l u (nacksSeen x0 s1) := by
  refine h.andThen (m := [.twi, .free]) ?_ m; clear h m
  unfold nacksSeen
  repeat' first
    | (with_reducible exact Within.refl _ _) | assumption | (with_reducible apply Within.ite)
    | (with_reducible apply freeBytes_within (m := by decide)) | (with_reducible apply Within.forEach (hf := fun _ _ => ?_))
    | (with_reducible apply Within.foldl (hf := fun _ _ => ?_)) | (with_reducible apply Within.set_twi (m := by decide)) | split
    | dsimp only | (refine Within.mk (Within.refl _ _) ?_; intro p hp; cases p <;> first | exact absurd (by decide) hp | rfl)

theorem allocInForce_within {l : List Part} {u : State} {s0 : State} (h : Within l u s0)
    (m : ([.ch, .sump] : List Part).all l.contains = true) :
    Within l u (allocInForce s0) := by
  refine h.andThen (m := [.ch, .sump]) ?_ m; clear h m
  unfold allocInForce forEach
  repeat' first
    | (with_reducible exact Within.refl _ _) | assumption | (with_reducible apply Within.ite)
    | (with_reducible apply modSump_within (m := by decide)) | (with_reducible apply modCh_within (m := by decide))
    | (with_reducible apply Within.forEach (hf := fun _ _ => ?_)) | (with_reducible apply Within.foldl (hf := fun _ _ => ?_))
    | split | dsimp only

theorem allocTick_within {l : List Part} {u : State} {s0 : State} (h : Within l u s0)
    (m : ([.ch, .sump, .fab] : List Part).all l.contains = true) :
    Within l u (allocTick s0) := by
  refine h.andThen (m := [.ch, .sump, .fab]) ?_ m; clear h m
  unfold allocTick
  repeat' first
    | (with_reducible exact Within.refl _ _) | assumption | (with_reducible apply Within.ite)
    | (with_reducible apply allocInForce_within (m := by decide)) | (with_reducible apply allocOff_within (m := by decide))
    | (with_reducible apply modSump_within (m := by decide)) | (with_reducible apply raise_within (m := by decide))
    | (with_reducible apply Within.forEach (hf := fun _ _ => ?_)) | (with_reducible apply Within.foldl (hf := fun _ _ => ?_))
    | split | dsimp only

theorem keepRelease_within {l : List Part} {u : State} {x0 : Nat} {x1 : Option EngAct} {s2 : State} (h : Within l u s2)
    (m : ([.ch] : List Part).all l.contains = true) :
    Within l u (keepRelease x0 x1 s2) := by
  refine h.andThen (m := [.ch]) ?_ m; clear h m
  unfold keepRelease
  repeat' first
    | (with_reducible exact Within.refl _ _) | assumption | (with_reducible apply Within.ite)
    | (with_reducible apply modCh_within (m := by decide)) | (with_reducible apply Within.forEach (hf := fun _ _ => ?_))
    | (with_reducible apply Within.foldl (hf := fun _ _ => ?_)) | split | dsimp only

theorem actStep_within {l : List Part} {u : State} {s0 : State} {x1 : Nat} {x2 : Option EngAct} {s3 : State} (h : Within l u s3)
    (m : ([.tb, .ph, .fe, .ch, .est, .rcp, .ring, .nvm, .fab] : List Part).all l.contains = true) :
    Within l u (actStep s0 x1 x2 s3) := by
  refine h.andThen (m := [.tb, .ph, .fe, .ch, .est, .rcp, .ring, .nvm, .fab]) ?_ m; clear h m
  unfold actStep
  repeat' first
    | (with_reducible exact Within.refl _ _) | assumption | (with_reducible apply Within.ite)
    | (with_reducible apply keepRelease_within (m := by decide)) | (with_reducible apply actEng_within (m := by decide))
    | (with_reducible apply keepEdge_within (m := by decide)) | (with_reducible apply markReleases_within (m := by decide))
    | (with_reducible apply Within.forEach (hf := fun _ _ => ?_)) | (with_reducible apply Within.foldl (hf := fun _ _ => ?_))
    | split | dsimp only

theorem timedShutdown_within {l : List Part} {u : State} {x0 : DownGoal} {x1 : Nat} {s2 : State} (h : Within l u s2)
    (m : ([.seq, .tb, .est, .nvm, .fab] : List Part).all l.contains = true) :
    Within l u (timedShutdown x0 x1 s2) := by
  refine h.andThen (m := [.seq, .tb, .est, .nvm, .fab]) ?_ m; clear h m
  unfold timedShutdown
  repeat' first
    | (with_reducible exact Within.refl _ _) | assumption | (with_reducible apply Within.ite)
    | (with_reducible apply modSeq_within (m := by decide)) | (with_reducible apply nvmLock_within (m := by decide))
    | (with_reducible apply Within.forEach (hf := fun _ _ => ?_)) | (with_reducible apply Within.foldl (hf := fun _ _ => ?_))
    | (with_reducible apply Within.set_tb (m := by decide)) | split | dsimp only
    | (refine Within.mk (Within.refl _ _) ?_; intro p hp; cases p <;> first | exact absurd (by decide) hp | rfl)

theorem crossCheck_within {l : List Part} {u : State} {x0 : Nat} {s1 : State} (h : Within l u s1)
    (m : ([.ph, .fe, .ch, .saf, .fab] : List Part).all l.contains = true) :
    Within l u (crossCheck x0 s1) := by
  refine h.andThen (m := [.ph, .fe, .ch, .saf, .fab]) ?_ m; clear h m
  unfold crossCheck
  repeat' first
    | (with_reducible exact Within.refl _ _) | assumption | (with_reducible apply Within.ite)
    | (with_reducible apply decideChs_within (m := by decide)) | (with_reducible apply modFe_within (m := by decide))
    | (with_reducible apply feCond_within (m := by decide)) | (with_reducible apply Within.forEach (hf := fun _ _ => ?_))
    | (with_reducible apply Within.foldl (hf := fun _ _ => ?_)) | split | dsimp only

theorem checkLimits_within {l : List Part} {u : State} {x0 : Nat} {x1 : Int} {x2 : Int} {x3 : Bool} {x4 : Bool} {x5 : Bool} {x6 : Bool} {x7 : Bool} {s8 : State} (h : Within l u s8)
    (m : ([.ph, .fe, .ch, .saf, .fab] : List Part).all l.contains = true) :
    Within l u (checkLimits x0 x1 x2 x3 x4 x5 x6 x7 s8) := by
  refine h.andThen (m := [.ph, .fe, .ch, .saf, .fab]) ?_ m; clear h m
  unfold checkLimits
  repeat' first
    | (with_reducible exact Within.refl _ _) | assumption | (with_reducible apply Within.ite)
    | (with_reducible apply decideChs_within (m := by decide)) | (with_reducible apply modFe_within (m := by decide))
    | (with_reducible apply Within.forEach (hf := fun _ _ => ?_)) | (with_reducible apply Within.foldl (hf := fun _ _ => ?_))
    | split | dsimp only

theorem islandSample_within {l : List Part} {u : State} {x0 : Nat} {x1 : Int} {x2 : Int} {x3 : Bool} {s4 : State} (h : Within l u s4)
    (m : ([.ph, .fe, .ch, .saf, .fab] : List Part).all l.contains = true) :
    Within l u (islandSample x0 x1 x2 x3 s4) := by
  refine h.andThen (m := [.ph, .fe, .ch, .saf, .fab]) ?_ m; clear h m
  unfold islandSample
  repeat' first
    | (with_reducible exact Within.refl _ _) | assumption | (with_reducible apply Within.ite)
    | (with_reducible apply crossCheck_within (m := by decide)) | (with_reducible apply checkLimits_within (m := by decide))
    | (with_reducible apply modFe_within (m := by decide)) | (with_reducible apply Within.forEach (hf := fun _ _ => ?_))
    | (with_reducible apply Within.foldl (hf := fun _ _ => ?_)) | split | dsimp only

theorem drainStart_within {l : List Part} {u : State} {s0 : State} (h : Within l u s0)
    (m : ([.tb] : List Part).all l.contains = true) :
    Within l u (drainStart s0) := by
  refine h.andThen (m := [.tb]) ?_ m; clear h m
  unfold drainStart
  split
  · apply Within.ite (Within.refl _ _)
    apply Within.ite <;> exact Within.set_tb (Within.refl _ _) (by decide)
  · exact Within.refl _ _

theorem enterPaused_within {l : List Part} {u : State} {x0 : Nat} {s1 : State} (h : Within l u s1)
    (m : ([.ch] : List Part).all l.contains = true) :
    Within l u (enterPaused x0 s1) := by
  refine h.andThen (m := [.ch]) ?_ m; clear h m
  unfold enterPaused
  repeat' first
    | (with_reducible exact Within.refl _ _) | assumption | (with_reducible apply Within.ite)
    | (with_reducible apply modCh_within (m := by decide)) | (with_reducible apply Within.forEach (hf := fun _ _ => ?_))
    | (with_reducible apply Within.foldl (hf := fun _ _ => ?_)) | split | dsimp only

theorem actPause_within {l : List Part} {u : State} {x0 : Nat} {s1 : State} (h : Within l u s1)
    (m : ([.ch, .ring, .fab] : List Part).all l.contains = true) :
    Within l u (actPause x0 s1) := by
  refine h.andThen (m := [.ch, .ring, .fab]) ?_ m; clear h m
  unfold actPause
  repeat' first
    | (with_reducible exact Within.refl _ _) | assumption | (with_reducible apply Within.ite)
    | (with_reducible apply enterPaused_within (m := by decide)) | (with_reducible apply leavePaused_within (m := by decide))
    | (with_reducible apply modCh_within (m := by decide)) | (with_reducible apply Within.forEach (hf := fun _ _ => ?_))
    | (with_reducible apply Within.foldl (hf := fun _ _ => ?_)) | split | dsimp only

theorem setLending_within {l : List Part} {u : State} {x0 : Nat} {x1 : Bool} {s2 : State} (h : Within l u s2)
    (m : ([.ch, .fab] : List Part).all l.contains = true) :
    Within l u (setLending x0 x1 s2) := by
  refine h.andThen (m := [.ch, .fab]) ?_ m; clear h m
  unfold setLending
  repeat' first
    | (with_reducible exact Within.refl _ _) | assumption | (with_reducible apply Within.ite)
    | (with_reducible apply raise_within (m := by decide)) | (with_reducible apply modCh_within (m := by decide))
    | (with_reducible apply Within.forEach (hf := fun _ _ => ?_)) | (with_reducible apply Within.foldl (hf := fun _ _ => ?_))
    | split | dsimp only

theorem flushWaiting_within {l : List Part} {u : State} {s0 : State} (h : Within l u s0)
    (m : ([.ph, .gal, .fe, .ch, .est, .ring, .sqz, .fab, .free] : List Part).all l.contains = true) :
    Within l u (flushWaiting s0) := by
  refine h.andThen (m := [.ph, .gal, .fe, .ch, .est, .ring, .sqz, .fab, .free]) ?_ m; clear h m
  unfold flushWaiting forEach
  repeat' first
    | (with_reducible exact Within.refl _ _) | assumption | (with_reducible apply Within.ite)
    | (with_reducible apply takeSubst_within (m := by decide)) | (with_reducible apply Within.forEach (hf := fun _ _ => ?_))
    | (with_reducible apply Within.foldl (hf := fun _ _ => ?_)) | split | dsimp only

theorem fswTick_within {l : List Part} {u : State} {s0 : State} (h : Within l u s0)
    (m : ([.ph] : List Part).all l.contains = true) :
    Within l u (fswTick s0) := by
  refine h.andThen (m := [.ph]) ?_ m; clear h m
  unfold fswTick
  repeat' first
    | (with_reducible exact Within.refl _ _) | assumption | (with_reducible apply Within.ite)
    | (with_reducible apply Within.forEach (hf := fun _ _ => ?_)) | (with_reducible apply Within.foldl (hf := fun _ _ => ?_))
    | (with_reducible apply Within.set_ph (m := by decide)) | split | dsimp only
    | (refine Within.mk (Within.refl _ _) ?_; intro p hp; cases p <;> first | exact absurd (by decide) hp | rfl)

theorem reconnectTick_within {l : List Part} {u : State} {s0 : State} (h : Within l u s0)
    (m : ([.fe] : List Part).all l.contains = true) :
    Within l u (reconnectTick s0) := by
  refine h.andThen (m := [.fe]) ?_ m; clear h m
  unfold reconnectTick
  repeat' first
    | (with_reducible exact Within.refl _ _) | assumption | (with_reducible apply Within.ite)
    | (with_reducible apply Within.forEach (hf := fun _ _ => ?_)) | (with_reducible apply Within.foldl (hf := fun _ _ => ?_))
    | (with_reducible apply Within.set_fe (m := by decide)) | split | dsimp only
    | (refine Within.mk (Within.refl _ _) ?_; intro p hp; cases p <;> first | exact absurd (by decide) hp | rfl)

theorem linkSecond_within {l : List Part} {u : State} {s0 : State} (h : Within l u s0)
    (m : ([.link] : List Part).all l.contains = true) :
    Within l u (linkSecond s0) := by
  refine h.andThen (m := [.link]) ?_ m; clear h m
  unfold linkSecond
  repeat' first
    | (with_reducible exact Within.refl _ _) | assumption | (with_reducible apply Within.ite)
    | (with_reducible apply modLink_within (m := by decide)) | (with_reducible apply Within.forEach (hf := fun _ _ => ?_))
    | (with_reducible apply Within.foldl (hf := fun _ _ => ?_)) | split | dsimp only

theorem stallTick_within {l : List Part} {u : State} {s0 : State} (h : Within l u s0)
    (m : ([.mode, .seq, .tb, .ph, .gal, .fe, .ch, .saf, .acc, .fab] : List Part).all l.contains = true) :
    Within l u (stallTick s0) := by
  refine h.andThen (m := [.mode, .seq, .tb, .ph, .gal, .fe, .ch, .saf, .acc, .fab]) ?_ m; clear h m
  unfold stallTick
  repeat' first
    | (with_reducible exact Within.refl _ _) | assumption | (with_reducible apply Within.ite)
    | (with_reducible apply decideDev_within (m := by decide)) | (with_reducible apply Within.forEach (hf := fun _ _ => ?_))
    | (with_reducible apply Within.foldl (hf := fun _ _ => ?_)) | split | dsimp only

theorem rideTick_within {l : List Part} {u : State} {s0 : State} (h : Within l u s0)
    (m : ([.ch, .sump, .fab] : List Part).all l.contains = true) :
    Within l u (rideTick s0) := by
  refine h.andThen (m := [.ch, .sump, .fab]) ?_ m; clear h m
  unfold rideTick
  repeat' first
    | (with_reducible exact Within.refl _ _) | assumption | (with_reducible apply Within.ite)
    | (with_reducible apply enterPause_within (m := by decide)) | (with_reducible apply rideStep_within (m := by decide))
    | (with_reducible apply sumpPauses_within (m := by decide)) | (with_reducible apply Within.forEach (hf := fun _ _ => ?_))
    | (with_reducible apply Within.foldl (hf := fun _ _ => ?_)) | split | dsimp only

theorem qualTick_within {l : List Part} {u : State} {x0 : Nat} {s1 : State} (h : Within l u s1)
    (m : ([.ch] : List Part).all l.contains = true) :
    Within l u (qualTick x0 s1) := by
  refine h.andThen (m := [.ch]) ?_ m; clear h m
  unfold qualTick
  repeat' first
    | (with_reducible exact Within.refl _ _) | assumption | (with_reducible apply Within.ite)
    | (with_reducible apply modCh_within (m := by decide)) | (with_reducible apply Within.forEach (hf := fun _ _ => ?_))
    | (with_reducible apply Within.foldl (hf := fun _ _ => ?_)) | split | dsimp only

theorem countCh_within {l : List Part} {u : State} {x0 : Nat} {s1 : State} (h : Within l u s1)
    (m : ([.ch] : List Part).all l.contains = true) :
    Within l u (countCh x0 s1) := by
  refine h.andThen (m := [.ch]) ?_ m; clear h m
  unfold countCh
  repeat' first
    | (with_reducible exact Within.refl _ _) | assumption | (with_reducible apply Within.ite)
    | (with_reducible apply modCh_within (m := by decide)) | (with_reducible apply Within.forEach (hf := fun _ _ => ?_))
    | (with_reducible apply Within.foldl (hf := fun _ _ => ?_)) | split | dsimp only

theorem strikeReg_within {l : List Part} {u : State} {x0 : Nat} {x1 : RegStage} {s2 : State} (h : Within l u s2)
    (m : ([.tb, .ph, .ch, .fab] : List Part).all l.contains = true) :
    Within l u (strikeReg x0 x1 s2) := by
  refine h.andThen (m := [.tb, .ph, .ch, .fab]) ?_ m; clear h m
  unfold strikeReg forEach
  repeat' first
    | (with_reducible exact Within.refl _ _) | assumption | (with_reducible apply Within.ite)
    | (with_reducible apply strikeShares_within (m := by decide)) | (with_reducible apply strikeShed_within (m := by decide))
    | (with_reducible apply midChannel_within (m := by decide)) | (with_reducible apply tcSuperseded_within (m := by decide))
    | (with_reducible apply setLending_within (m := by decide)) | (with_reducible apply raise_within (m := by decide))
    | (with_reducible apply turnPhases_within (m := by decide)) | (with_reducible apply modCh_within (m := by decide))
    | (with_reducible apply tcApplied_within (m := by decide)) | (with_reducible apply Within.forEach (hf := fun _ _ => ?_))
    | (with_reducible apply Within.foldl (hf := fun _ _ => ?_)) | split | dsimp only

theorem strikeRest_within {l : List Part} {u : State} {x0 : Nat} {s1 : State} (h : Within l u s1)
    (m : ([.ph, .ch, .fab] : List Part).all l.contains = true) :
    Within l u (strikeRest x0 s1) := by
  refine h.andThen (m := [.ph, .ch, .fab]) ?_ m; clear h m
  unfold strikeRest
  repeat' first
    | (with_reducible exact Within.refl _ _) | assumption | (with_reducible apply Within.ite)
    | (with_reducible apply midChannel_within (m := by decide)) | (with_reducible apply stopReg_within (m := by decide))
    | (with_reducible apply setLending_within (m := by decide)) | (with_reducible apply modCh_within (m := by decide))
    | (with_reducible apply Within.forEach (hf := fun _ _ => ?_)) | (with_reducible apply Within.foldl (hf := fun _ _ => ?_))
    | split | dsimp only

theorem strikeDemand_within {l : List Part} {u : State} {s0 : State} {x1 : Nat} {x2 : Option EngAct} {s3 : State} (h : Within l u s3)
    (m : ([.tb, .ph, .ch, .fab] : List Part).all l.contains = true) :
    Within l u (strikeDemand s0 x1 x2 s3) := by
  refine h.andThen (m := [.tb, .ph, .ch, .fab]) ?_ m; clear h m
  unfold strikeDemand
  repeat' first
    | (with_reducible exact Within.refl _ _) | assumption | (with_reducible apply Within.ite)
    | (with_reducible apply strikeReg_within (m := by decide)) | (with_reducible apply strikeRest_within (m := by decide))
    | (with_reducible apply keepCmd_within (m := by decide)) | (with_reducible apply modCh_within (m := by decide))
    | (with_reducible apply Within.forEach (hf := fun _ _ => ?_)) | (with_reducible apply Within.foldl (hf := fun _ _ => ?_))
    | split | dsimp only

theorem echoTick_within {l : List Part} {u : State} {x0 : Nat} {s1 : State} (h : Within l u s1)
    (m : ([.fe] : List Part).all l.contains = true) :
    Within l u (echoTick x0 s1) := by
  refine h.andThen (m := [.fe]) ?_ m; clear h m
  unfold echoTick
  repeat' first
    | (with_reducible exact Within.refl _ _) | assumption | (with_reducible apply Within.ite)
    | (with_reducible apply abortEcho_within (m := by decide)) | (with_reducible apply Within.forEach (hf := fun _ _ => ?_))
    | (with_reducible apply Within.foldl (hf := fun _ _ => ?_)) | split | dsimp only

theorem deferEng_within {l : List Part} {u : State} {s0 : State} {x1 : Nat} {s2 : State} (h : Within l u s2)
    (m : ([.gal, .ch, .fab] : List Part).all l.contains = true) :
    Within l u (deferEng s0 x1 s2) := by
  refine h.andThen (m := [.gal, .ch, .fab]) ?_ m; clear h m
  unfold deferEng
  repeat' first
    | (with_reducible exact Within.refl _ _) | assumption | (with_reducible apply Within.ite)
    | (with_reducible apply raise_within (m := by decide)) | (with_reducible apply modGal_within (m := by decide))
    | (with_reducible apply modCh_within (m := by decide)) | (with_reducible apply Within.forEach (hf := fun _ _ => ?_))
    | (with_reducible apply Within.foldl (hf := fun _ _ => ?_)) | split | dsimp only

theorem actTimed_within {l : List Part} {u : State} {x0 : Nat} {s1 : State} (h : Within l u s1)
    (m : ([.tb, .ph, .fe, .ch, .est, .ring, .fab] : List Part).all l.contains = true) :
    Within l u (actTimed x0 s1) := by
  refine h.andThen (m := [.tb, .ph, .fe, .ch, .est, .ring, .fab]) ?_ m; clear h m
  unfold actTimed forEach
  repeat' first
    | (with_reducible exact Within.refl _ _) | assumption | (with_reducible apply Within.ite)
    | (with_reducible apply actCmd_within (m := by decide)) | (with_reducible apply tcApplied_within (m := by decide))
    | (with_reducible apply Within.forEach (hf := fun _ _ => ?_)) | (with_reducible apply Within.foldl (hf := fun _ _ => ?_))
    | split | dsimp only

theorem actLoss_within {l : List Part} {u : State} {x0 : Nat} {x1 : Nat} {s2 : State} (h : Within l u s2)
    (m : ([.ph, .fe, .ch, .est, .ring, .fab] : List Part).all l.contains = true) :
    Within l u (actLoss x0 x1 s2) := by
  refine h.andThen (m := [.ph, .fe, .ch, .est, .ring, .fab]) ?_ m; clear h m
  unfold actLoss
  repeat' first
    | (with_reducible exact Within.refl _ _) | assumption | (with_reducible apply Within.ite)
    | (with_reducible apply tryCmd_within (m := by decide)) | (with_reducible apply modCh_within (m := by decide))
    | (with_reducible apply Within.forEach (hf := fun _ _ => ?_)) | (with_reducible apply Within.foldl (hf := fun _ _ => ?_))
    | split | dsimp only

theorem actCmds_within {l : List Part} {u : State} {x0 : Nat} {s1 : State} (h : Within l u s1)
    (m : ([.tb, .ph, .fe, .ch, .est, .ring, .fab] : List Part).all l.contains = true) :
    Within l u (actCmds x0 s1) := by
  refine h.andThen (m := [.tb, .ph, .fe, .ch, .est, .ring, .fab]) ?_ m; clear h m
  unfold actCmds
  repeat' first
    | (with_reducible exact Within.refl _ _) | assumption | (with_reducible apply Within.ite)
    | (with_reducible apply actCmd_within (m := by decide)) | (with_reducible apply actTimed_within (m := by decide))
    | (with_reducible apply actDrain_within (m := by decide)) | (with_reducible apply actLoss_within (m := by decide))
    | (with_reducible apply modCh_within (m := by decide)) | (with_reducible apply Within.forEach (hf := fun _ _ => ?_))
    | (with_reducible apply Within.foldl (hf := fun _ _ => ?_)) | split | dsimp only

theorem refuseTimed_within {l : List Part} {u : State} {x0 : Nat} {s1 : State} (h : Within l u s1)
    (m : ([.fab] : List Part).all l.contains = true) :
    Within l u (refuseTimed x0 s1) := by
  refine h.andThen (m := [.fab]) ?_ m; clear h m
  unfold refuseTimed forEach
  repeat' first
    | (with_reducible exact Within.refl _ _) | assumption | (with_reducible apply Within.ite)
    | (with_reducible apply refuseCmd_within (m := by decide)) | (with_reducible apply Within.forEach (hf := fun _ _ => ?_))
    | (with_reducible apply Within.foldl (hf := fun _ _ => ?_)) | split | dsimp only

theorem drainTick_within {l : List Part} {u : State} {x0 : Nat} {s1 : State} (h : Within l u s1)
    (m : ([.ph, .ch] : List Part).all l.contains = true) :
    Within l u (drainTick x0 s1) := by
  refine h.andThen (m := [.ph, .ch]) ?_ m; clear h m
  unfold drainTick
  repeat' first
    | (with_reducible exact Within.refl _ _) | assumption | (with_reducible apply Within.ite)
    | (with_reducible apply midChannel_within (m := by decide)) | (with_reducible apply openDisc_within (m := by decide))
    | (with_reducible apply Within.forEach (hf := fun _ _ => ?_)) | (with_reducible apply Within.foldl (hf := fun _ _ => ?_))
    | split | dsimp only

theorem strikeCh_within {l : List Part} {u : State} {s0 : State} {x1 : Nat} {s2 : State} (h : Within l u s2)
    (m : ([.tb, .ph, .gal, .fe, .ch, .est, .rcp, .ring, .nvm, .fab] : List Part).all l.contains = true) :
    Within l u (strikeCh s0 x1 s2) := by
  refine h.andThen (m := [.tb, .ph, .gal, .fe, .ch, .est, .rcp, .ring, .nvm, .fab]) ?_ m; clear h m
  unfold strikeCh
  extract_lets a s0' a' late tt uu s1' s2' s3'
  refine estTick_within (qualTick_within (echoTick_within (takeDefRange_within (drainTick_within (tryDisc_within ?_ (by decide)) (by decide)) (by decide)) (by decide)) (by decide)) (by decide)
  refine modCh_within (strikeDemand_within (refuseTimed_within ?_ (by decide)) (by decide)) (by decide)
  have h1 : Within [.tb, .ph, .gal, .fe, .ch, .est, .rcp, .ring, .nvm, .fab] s2 s1' := by
    have h0 : Within [.tb, .ph, .gal, .fe, .ch, .est, .rcp, .ring, .nvm, .fab] s2 s0' := countCh_within (Within.refl _ _) (by decide)
    simp only [s1']
    split
    · rename_i t ht
      exact keepRelease_within (h0.andThen (fate_within _ _ _ _ ht) (by decide)) (by decide)
    · have hu := actStep_within (s0 := s0) (x1 := x1) (x2 := a') (actPause_within (x0 := x1) (actCmds_within (x0 := x1) (modCh_within (x0 := x1) (x1 := fun c => { c with fltNext := none }) h0 (by decide)) (by decide)) (by decide)) (by decide)
      exact Within.ite (deferEng_within hu (by decide)) hu
  exact Within.ite h1 (modCh_within h1 (by decide))

theorem publish_within {l : List Part} {u : State} {x0 : Nat} {x1 : Bool} {s2 : State} (h : Within l u s2)
    (m : ([.est, .fab] : List Part).all l.contains = true) :
    Within l u (publish x0 x1 s2) := by
  refine h.andThen (m := [.est, .fab]) ?_ m; clear h m
  unfold publish
  repeat' first
    | (with_reducible exact Within.refl _ _) | assumption | (with_reducible apply Within.ite)
    | (with_reducible apply modEst_within (m := by decide)) | (with_reducible apply raise_within (m := by decide))
    | (with_reducible apply Within.forEach (hf := fun _ _ => ?_)) | (with_reducible apply Within.foldl (hf := fun _ _ => ?_))
    | split | dsimp only

theorem estEdge_within {l : List Part} {u : State} {x0 : Nat} {s1 : State} (h : Within l u s1)
    (m : ([.est, .fab] : List Part).all l.contains = true) :
    Within l u (estEdge x0 s1) := by
  refine h.andThen (m := [.est, .fab]) ?_ m; clear h m
  unfold estEdge
  repeat' first
    | (with_reducible exact Within.refl _ _) | assumption | (with_reducible apply Within.ite)
    | (with_reducible apply publish_within (m := by decide)) | (with_reducible apply modEst_within (m := by decide))
    | (with_reducible apply Within.forEach (hf := fun _ _ => ?_)) | (with_reducible apply Within.foldl (hf := fun _ _ => ?_))
    | split | dsimp only

theorem judgeTick_within {l : List Part} {u : State} {x0 : Nat} {x1 : Nat} {s2 : State} (h : Within l u s2)
    (m : ([.fab] : List Part).all l.contains = true) :
    Within l u (judgeTick x0 x1 s2) := by
  refine h.andThen (m := [.fab]) ?_ m; clear h m
  unfold judgeTick
  repeat' first
    | (with_reducible exact Within.refl _ _) | assumption | (with_reducible apply Within.ite)
    | (with_reducible apply raiseA_within (m := by decide)) | (with_reducible apply modFab_within (m := by decide))
    | (with_reducible apply Within.forEach (hf := fun _ _ => ?_)) | (with_reducible apply Within.foldl (hf := fun _ _ => ?_))
    | split | dsimp only

theorem strike_within {l : List Part} {u : State} {x0 : Option Int} {s1 : State} (h : Within l u s1)
    (m : ([.mode, .seq, .tb, .ph, .gal, .fe, .ch, .est, .rcp, .sump, .link, .ring, .sqz, .saf, .rtc, .wdt, .nvm, .acc, .fab, .free] : List Part).all l.contains = true) :
    Within l u (strike x0 s1) := by
  refine h.andThen (m := [.mode, .seq, .tb, .ph, .gal, .fe, .ch, .est, .rcp, .sump, .link, .ring, .sqz, .saf, .rtc, .wdt, .nvm, .acc, .fab, .free]) ?_ m; clear h m
  unfold strike forEach
  repeat' first
    | (with_reducible exact Within.refl _ _) | assumption | (with_reducible apply Within.ite)
    | (with_reducible apply allocTick_within (m := by decide)) | (with_reducible apply drainStart_within (m := by decide))
    | (with_reducible apply flushWaiting_within (m := by decide)) | (with_reducible apply advance_within (m := by decide))
    | (with_reducible apply tickEnd_within (m := by decide)) | (with_reducible apply txTick_within (m := by decide))
    | (with_reducible apply updateSafeN_within (m := by decide)) | (with_reducible apply fswTick_within (m := by decide))
    | (with_reducible apply reconnectTick_within (m := by decide)) | (with_reducible apply linkSecond_within (m := by decide))
    | (with_reducible apply stallTick_within (m := by decide)) | (with_reducible apply rideTick_within (m := by decide))
    | (with_reducible apply strikeCh_within (m := by decide)) | (with_reducible apply estEdge_within (m := by decide))
    | (with_reducible apply judgeTick_within (m := by decide)) | (with_reducible apply Within.forEach (hf := fun _ _ => ?_))
    | (with_reducible apply Within.foldl (hf := fun _ _ => ?_)) | split | dsimp only

theorem blockAct_within {l : List Part} {u : State} {x0 : Nat} {x1 : Nat} {x2 : Nat} {x3 : List Byte} {s4 : State} (h : Within l u s4)
    (m : ([.ldr, .out] : List Part).all l.contains = true) :
    Within l u (blockAct x0 x1 x2 x3 s4).1 := by
  refine h.andThen (m := [.ldr, .out]) ?_ m; clear h m
  unfold blockAct
  repeat' first
    | (with_reducible exact Within.refl _ _) | assumption | (with_reducible apply Within.ite)
    | (with_reducible apply emit_within (m := by decide)) | (with_reducible apply modLdr_within (m := by decide))
    | (with_reducible apply Within.forEach (hf := fun _ _ => ?_)) | (with_reducible apply Within.foldl (hf := fun _ _ => ?_))
    | split | dsimp only

theorem pagesFail_within {l : List Part} {u : State} {x0 : Nat} {s1 : State} (h : Within l u s1)
    (m : ([.link, .ldr, .fab, .out] : List Part).all l.contains = true) :
    Within l u (pagesFail x0 s1) := by
  refine h.andThen (m := [.link, .ldr, .fab, .out]) ?_ m; clear h m
  unfold pagesFail
  split
  · apply Within.ite (Within.refl _ _)
    unfold blockEnd
    split
    · split
      · refine pzDone_within ?_ (by decide)
        dsimp only [PzAns.st]
        exact modLdr_within (Within.refl _ _) (by decide)
      · exact modLdr_within (Within.refl _ _) (by decide)
    · exact modLdr_within (Within.refl _ _) (by decide)
  · exact Within.refl _ _

theorem twiFails_within {l : List Part} {u : State} {x0 : Nat} {s1 : State} (h : Within l u s1)
    (m : ([.link, .ldr, .twi, .fab, .out] : List Part).all l.contains = true) :
    Within l u (twiFails x0 s1) := by
  refine h.andThen (m := [.link, .ldr, .twi, .fab, .out]) ?_ m; clear h m
  unfold twiFails
  repeat' first
    | (with_reducible exact Within.refl _ _) | assumption | (with_reducible apply Within.ite)
    | (with_reducible apply modTwi_within (m := by decide)) | (with_reducible apply pagesFail_within (m := by decide))
    | (with_reducible apply Within.forEach (hf := fun _ _ => ?_)) | (with_reducible apply Within.foldl (hf := fun _ _ => ?_))
    | split | dsimp only

theorem setPending_within {l : List Part} {u : State} {x0 : Nat} {s1 : State} (h : Within l u s1)
    (m : ([.intc] : List Part).all l.contains = true) :
    Within l u (setPending x0 s1) := by
  refine h.andThen (m := [.intc]) ?_ m; clear h m
  unfold setPending
  repeat' first
    | (with_reducible exact Within.refl _ _) | assumption | (with_reducible apply Within.ite)
    | (with_reducible apply Within.forEach (hf := fun _ _ => ?_)) | (with_reducible apply Within.foldl (hf := fun _ _ => ?_))
    | (with_reducible apply Within.set_intc (m := by decide)) | split | dsimp only
    | (refine Within.mk (Within.refl _ _) ?_; intro p hp; cases p <;> first | exact absurd (by decide) hp | rfl)

theorem consumeEvent_within {l : List Part} {u : State} {x0 : Event} {s1 : State} (h : Within l u s1)
    (m : ([.ring, .intc, .fab] : List Part).all l.contains = true) :
    Within l u (consumeEvent x0 s1) := by
  refine h.andThen (m := [.ring, .intc, .fab]) ?_ m; clear h m
  unfold consumeEvent
  repeat' first
    | (with_reducible exact Within.refl _ _) | assumption | (with_reducible apply Within.ite)
    | (with_reducible apply ringPush_within (m := by decide)) | (with_reducible apply setPending_within (m := by decide))
    | (with_reducible apply raise_within (m := by decide)) | (with_reducible apply Within.forEach (hf := fun _ _ => ?_))
    | (with_reducible apply Within.foldl (hf := fun _ _ => ?_)) | split | dsimp only

theorem startEcho_within {l : List Part} {u : State} {x0 : Nat} {x1 : Bool} {s2 : State} (h : Within l u s2)
    (m : ([.fe] : List Part).all l.contains = true) :
    Within l u (startEcho x0 x1 s2) := by
  refine h.andThen (m := [.fe]) ?_ m; clear h m
  unfold startEcho
  repeat' first
    | (with_reducible exact Within.refl _ _) | assumption | (with_reducible apply Within.ite)
    | (with_reducible apply modFe_within (m := by decide)) | (with_reducible apply Within.forEach (hf := fun _ _ => ?_))
    | (with_reducible apply Within.foldl (hf := fun _ _ => ?_)) | split | dsimp only

theorem setFails_within {l : List Part} {u : State} {x0 : Nat} {s1 : State} (h : Within l u s1)
    (m : ([.nvm, .acc] : List Part).all l.contains = true) :
    Within l u (setFails x0 s1) := by
  refine h.andThen (m := [.nvm, .acc]) ?_ m; clear h m
  unfold setFails
  repeat' first
    | (with_reducible exact Within.refl _ _) | assumption | (with_reducible apply Within.ite)
    | (with_reducible apply nvmRequest_within (m := by decide)) | (with_reducible apply modAcc_within (m := by decide))
    | (with_reducible apply Within.forEach (hf := fun _ _ => ?_)) | (with_reducible apply Within.foldl (hf := fun _ _ => ?_))
    | split | dsimp only

theorem authOk_within {l : List Part} {u : State} {s0 : State} (h : Within l u s0)
    (m : ([.nvm, .acc] : List Part).all l.contains = true) :
    Within l u (authOk s0) := by
  refine h.andThen (m := [.nvm, .acc]) ?_ m; clear h m
  unfold authOk
  repeat' first
    | (with_reducible exact Within.refl _ _) | assumption | (with_reducible apply Within.ite)
    | (with_reducible apply setFails_within (m := by decide)) | (with_reducible apply modAcc_within (m := by decide))
    | (with_reducible apply Within.forEach (hf := fun _ _ => ?_)) | (with_reducible apply Within.foldl (hf := fun _ _ => ?_))
    | split | dsimp only

theorem writeWords_within {l : List Part} {u : State} {x0 : Path} {x1 : List Word} {x2 : Nat} {x3 : Nat} {s4 : State} (h : Within l u s4)
    (m : ([.mode, .seq, .regs, .tb, .ph, .gal, .fe, .ch, .est, .rcp, .sump, .link, .ring, .sqz, .saf, .ldr, .twi, .rtc, .wdt, .intc, .nvm, .acc, .fab, .shadow, .out, .free] : List Part).all l.contains = true) :
    Within l u (writeWords x0 x1 x2 x3 s4).2.2 := by
  refine h.andThen (m := [.mode, .seq, .regs, .tb, .ph, .gal, .fe, .ch, .est, .rcp, .sump, .link, .ring, .sqz, .saf, .ldr, .twi, .rtc, .wdt, .intc, .nvm, .acc, .fab, .shadow, .out, .free]) ?_ m; clear h m
  induction x1 generalizing x2 x3 s4 with
  | nil => exact Within.refl _ _
  | cons v l ih =>
    unfold writeWords
    have hw := writeReg_within (x0 := x0) (x1 := x2) (x2 := v) (Within.refl _ s4) (l := [.mode, .seq, .regs, .tb, .ph, .gal, .fe, .ch, .est, .rcp, .sump, .link, .ring, .sqz, .saf, .ldr, .twi, .rtc, .wdt, .intc, .nvm, .acc, .fab, .shadow, .out, .free]) (by decide)
    split
    · rename_i h; rw [h] at hw; exact hw
    · rename_i h; rw [h] at hw; exact Within.andThen (l := [.mode, .seq, .regs, .tb, .ph, .gal, .fe, .ch, .est, .rcp, .sump, .link, .ring, .sqz, .saf, .ldr, .twi, .rtc, .wdt, .intc, .nvm, .acc, .fab, .shadow, .out, .free]) (m := [.mode, .seq, .regs, .tb, .ph, .gal, .fe, .ch, .est, .rcp, .sump, .link, .ring, .sqz, .saf, .ldr, .twi, .rtc, .wdt, .intc, .nvm, .acc, .fab, .shadow, .out, .free]) hw ih (by decide)

theorem slotDown_within {l : List Part} {u : State} {x0 : Nat} {s1 : State} (h : Within l u s1)
    (m : ([.mode, .seq, .ph, .saf, .nvm, .acc, .free] : List Part).all l.contains = true) :
    Within l u (slotDown x0 s1) := by
  refine h.andThen (m := [.mode, .seq, .ph, .saf, .nvm, .acc, .free]) ?_ m; clear h m
  unfold slotDown
  repeat' first
    | (with_reducible exact Within.refl _ _) | assumption | (with_reducible apply Within.ite)
    | (with_reducible apply railOff_within (m := by decide)) | (with_reducible apply modSeq_within (m := by decide))
    | (with_reducible apply safeRails_within (m := by decide)) | (with_reducible apply downBelow_within (m := by decide))
    | (with_reducible apply Within.forEach (hf := fun _ _ => ?_)) | (with_reducible apply Within.foldl (hf := fun _ _ => ?_))
    | split | dsimp only

theorem setPos_within {l : List Part} {u : State} {x0 : Nat} {x1 : Bool} {s2 : State} (h : Within l u s2)
    (m : ([.link, .fab, .out] : List Part).all l.contains = true) :
    Within l u (setPos x0 x1 s2) := by
  refine h.andThen (m := [.link, .fab, .out]) ?_ m; clear h m
  unfold setPos
  repeat' first
    | (with_reducible exact Within.refl _ _) | assumption | (with_reducible apply Within.ite)
    | (with_reducible apply takeAddress_within (m := by decide)) | (with_reducible apply modLink_within (m := by decide))
    | (with_reducible apply raise_within (m := by decide)) | (with_reducible apply Within.forEach (hf := fun _ _ => ?_))
    | (with_reducible apply Within.foldl (hf := fun _ _ => ?_)) | split | dsimp only

theorem helloIn_within {l : List Part} {u : State} {x0 : Nat} {x1 : List Byte} {s2 : State} (h : Within l u s2)
    (m : ([.link, .fab, .out] : List Part).all l.contains = true) :
    Within l u (helloIn x0 x1 s2) := by
  refine h.andThen (m := [.link, .fab, .out]) ?_ m; clear h m
  unfold helloIn
  repeat' first
    | (with_reducible exact Within.refl _ _) | assumption | (with_reducible apply Within.ite)
    | (with_reducible apply modPort_within (m := by decide)) | (with_reducible apply modLink_within (m := by decide))
    | (with_reducible apply setPos_within (m := by decide)) | (with_reducible apply updateSeg_within (m := by decide))
    | (with_reducible apply Within.forEach (hf := fun _ _ => ?_)) | (with_reducible apply Within.foldl (hf := fun _ _ => ?_))
    | split | dsimp only

theorem unsubscribe_within {l : List Part} {u : State} {x0 : Nat} {x1 : Nat} {s2 : State} (h : Within l u s2)
    (m : ([.link, .ring] : List Part).all l.contains = true) :
    Within l u (unsubscribe x0 x1 s2) := by
  refine h.andThen (m := [.link, .ring]) ?_ m; clear h m
  unfold unsubscribe
  repeat' first
    | (with_reducible exact Within.refl _ _) | assumption | (with_reducible apply Within.ite)
    | (with_reducible apply modSess_within (m := by decide)) | (with_reducible apply modRing_within (m := by decide))
    | (with_reducible apply Within.forEach (hf := fun _ _ => ?_)) | (with_reducible apply Within.foldl (hf := fun _ _ => ?_))
    | split | dsimp only

theorem echoAdd_within {l : List Part} {u : State} {x0 : Nat} {x1 : Int} {x2 : Int} {s3 : State} (h : Within l u s3)
    (m : ([.fe] : List Part).all l.contains = true) :
    Within l u (echoAdd x0 x1 x2 s3) := by
  refine h.andThen (m := [.fe]) ?_ m; clear h m
  unfold echoAdd
  repeat' first
    | (with_reducible exact Within.refl _ _) | assumption | (with_reducible apply Within.ite)
    | (with_reducible apply modFe_within (m := by decide)) | (with_reducible apply Within.forEach (hf := fun _ _ => ?_))
    | (with_reducible apply Within.foldl (hf := fun _ _ => ?_)) | split | dsimp only

theorem confirmSample_within {l : List Part} {u : State} {x0 : Nat} {x1 : Int} {x2 : Bool} {s3 : State} (h : Within l u s3)
    (m : ([.ch] : List Part).all l.contains = true) :
    Within l u (confirmSample x0 x1 x2 s3) := by
  refine h.andThen (m := [.ch]) ?_ m; clear h m
  unfold confirmSample
  repeat' first
    | (with_reducible exact Within.refl _ _) | assumption | (with_reducible apply Within.ite)
    | (with_reducible apply modCh_within (m := by decide)) | (with_reducible apply Within.forEach (hf := fun _ _ => ?_))
    | (with_reducible apply Within.foldl (hf := fun _ _ => ?_)) | split | dsimp only

theorem parityFail_within {l : List Part} {u : State} {x0 : Nat} {s1 : State} (h : Within l u s1)
    (m : ([.fe, .ch, .fab] : List Part).all l.contains = true) :
    Within l u (parityFail x0 s1) := by
  refine h.andThen (m := [.fe, .ch, .fab]) ?_ m; clear h m
  unfold parityFail
  repeat' first
    | (with_reducible exact Within.refl _ _) | assumption | (with_reducible apply Within.ite)
    | (with_reducible apply modFe_within (m := by decide)) | (with_reducible apply raiseA_within (m := by decide))
    | (with_reducible apply feCond_within (m := by decide)) | (with_reducible apply faultNext_within (m := by decide))
    | (with_reducible apply Within.forEach (hf := fun _ _ => ?_)) | (with_reducible apply Within.foldl (hf := fun _ _ => ?_))
    | split | dsimp only

theorem feSample_within {l : List Part} {u : State} {x0 : Nat} {x1 : Int} {x2 : Int} {x3 : Bool} {x4 : Bool} {s5 : State} (h : Within l u s5)
    (m : ([.ph, .gal, .fe, .ch, .est, .ring, .sqz, .fab, .free] : List Part).all l.contains = true) :
    Within l u (feSample x0 x1 x2 x3 x4 s5) := by
  refine h.andThen (m := [.ph, .gal, .fe, .ch, .est, .ring, .sqz, .fab, .free]) ?_ m; clear h m
  unfold feSample
  repeat' first
    | (with_reducible exact Within.refl _ _) | assumption | (with_reducible apply Within.ite)
    | (with_reducible apply modFe_within (m := by decide)) | (with_reducible apply takeSample_within (m := by decide))
    | (with_reducible apply substOrWait_within (m := by decide)) | (with_reducible apply wakePartner_within (m := by decide))
    | (with_reducible apply echoAdd_within (m := by decide)) | (with_reducible apply confirmSample_within (m := by decide))
    | (with_reducible apply parityFail_within (m := by decide)) | (with_reducible apply Within.forEach (hf := fun _ _ => ?_))
    | (with_reducible apply Within.foldl (hf := fun _ _ => ?_)) | split | dsimp only

theorem reopenStep_within {l : List Part} {u : State} {x0 : Nat} {s1 : State} (h : Within l u s1)
    (m : ([.ch] : List Part).all l.contains = true) :
    Within l u (reopenStep x0 s1) := by
  refine h.andThen (m := [.ch]) ?_ m; clear h m
  unfold reopenStep
  repeat' first
    | (with_reducible exact Within.refl _ _) | assumption | (with_reducible apply Within.ite)
    | (with_reducible apply modCh_within (m := by decide)) | (with_reducible apply Within.forEach (hf := fun _ _ => ?_))
    | (with_reducible apply Within.foldl (hf := fun _ _ => ?_)) | split | dsimp only

theorem echoResult_within {l : List Part} {u : State} {x0 : Nat} {x1 : List Bool} {x2 : Nat} {x3 : Bool} {s4 : State} (h : Within l u s4)
    (m : ([.fe, .ch] : List Part).all l.contains = true) :
    Within l u (echoResult x0 x1 x2 x3 s4) := by
  refine h.andThen (m := [.fe, .ch]) ?_ m; clear h m
  unfold echoResult
  repeat' first
    | (with_reducible exact Within.refl _ _) | assumption | (with_reducible apply Within.ite)
    | (with_reducible apply modFe_within (m := by decide)) | (with_reducible apply feCond_within (m := by decide))
    | (with_reducible apply modCh_within (m := by decide)) | (with_reducible apply Within.forEach (hf := fun _ _ => ?_))
    | (with_reducible apply Within.foldl (hf := fun _ _ => ?_)) | split | dsimp only

theorem authFail_within {l : List Part} {u : State} {s0 : State} (h : Within l u s0)
    (m : ([.nvm, .acc, .fab] : List Part).all l.contains = true) :
    Within l u (authFail s0) := by
  refine h.andThen (m := [.nvm, .acc, .fab]) ?_ m; clear h m
  unfold authFail
  repeat' first
    | (with_reducible exact Within.refl _ _) | assumption | (with_reducible apply Within.ite)
    | (with_reducible apply setFails_within (m := by decide)) | (with_reducible apply raise_within (m := by decide))
    | (with_reducible apply modAcc_within (m := by decide)) | (with_reducible apply Within.forEach (hf := fun _ _ => ?_))
    | (with_reducible apply Within.foldl (hf := fun _ _ => ?_)) | split | dsimp only

theorem drainOf_within {l : List Part} {u : State} {x0 : Nat} {x1 : DevDrain → Option DevDrain} {s2 : State} (h : Within l u s2)
    (m : ([.tb] : List Part).all l.contains = true) :
    Within l u (drainOf x0 x1 s2) := by
  refine h.andThen (m := [.tb]) ?_ m; clear h m
  unfold drainOf
  repeat' first
    | (with_reducible exact Within.refl _ _) | assumption | (with_reducible apply Within.ite)
    | (with_reducible apply modTb_within (m := by decide)) | (with_reducible apply Within.forEach (hf := fun _ _ => ?_))
    | (with_reducible apply Within.foldl (hf := fun _ _ => ?_)) | split | dsimp only

theorem skipTc_within {l : List Part} {u : State} {x0 : Nat} {x1 : Nat} {x2 : Nat} {s3 : State} (h : Within l u s3)
    (m : ([.tb, .fab] : List Part).all l.contains = true) :
    Within l u (skipTc x0 x1 x2 s3) := by
  refine h.andThen (m := [.tb, .fab]) ?_ m; clear h m
  unfold skipTc
  repeat' first
    | (with_reducible exact Within.refl _ _) | assumption | (with_reducible apply Within.ite)
    | (with_reducible apply modTc_within (m := by decide)) | (with_reducible apply drainOf_within (m := by decide))
    | (with_reducible apply tcComplete_within (m := by decide)) | (with_reducible apply Within.forEach (hf := fun _ _ => ?_))
    | (with_reducible apply Within.foldl (hf := fun _ _ => ?_)) | split | dsimp only

theorem nvmWriteWord_within {l : List Part} {u : State} {x0 : Nat} {x1 : List Byte} {s2 : State} (h : Within l u s2)
    (m : ([.nvm] : List Part).all l.contains = true) :
    Within l u (nvmWriteWord x0 x1 s2) := by
  refine h.andThen (m := [.nvm]) ?_ m; clear h m
  unfold nvmWriteWord
  repeat' first
    | (with_reducible exact Within.refl _ _) | assumption | (with_reducible apply Within.ite)
    | (with_reducible apply Within.forEach (hf := fun _ _ => ?_)) | (with_reducible apply Within.foldl (hf := fun _ _ => ?_))
    | (with_reducible apply Within.set_nvm (m := by decide)) | split | dsimp only
    | (refine Within.mk (Within.refl _ _) ?_; intro p hp; cases p <;> first | exact absurd (by decide) hp | rfl)

theorem splitStreams_within {l : List Part} {u : State} {s0 : State} (h : Within l u s0)
    (m : ([.gal, .fe, .ring, .sqz, .fab, .free] : List Part).all l.contains = true) :
    Within l u (splitStreams s0) := by
  refine h.andThen (m := [.gal, .fe, .ring, .sqz, .fab, .free]) ?_ m; clear h m
  unfold splitStreams forEach
  repeat' first
    | (with_reducible exact Within.refl _ _) | assumption | (with_reducible apply Within.ite)
    | (with_reducible apply closeBlock_within (m := by decide)) | (with_reducible apply closeF_within (m := by decide))
    | (with_reducible apply modGal_within (m := by decide)) | (with_reducible apply Within.forEach (hf := fun _ _ => ?_))
    | (with_reducible apply Within.foldl (hf := fun _ _ => ?_)) | split | dsimp only

theorem okNext_within (s0 : State) : ∀ t, (okNext s0) = .next t → Within [] s0 t := by
  intro t h
  unfold okNext at h
  repeat' (first | (cases h) | (split at h))
  repeat' first
    | cases h | (with_reducible exact Within.refl _ _) | assumption | (with_reducible apply Within.ite)
    | (with_reducible apply Within.forEach (hf := fun _ _ => ?_)) | (with_reducible apply Within.foldl (hf := fun _ _ => ?_))
    | split | dsimp only

theorem judgeServe_within {l : List Part} {u : State} {x0 : Nat} {x1 : Nat} {s2 : State} (h : Within l u s2)
    (m : ([.seq, .wdt, .fab] : List Part).all l.contains = true) :
    Within l u (judgeServe x0 x1 s2) := by
  refine h.andThen (m := [.seq, .wdt, .fab]) ?_ m; clear h m
  unfold judgeServe
  repeat' first
    | (with_reducible exact Within.refl _ _) | assumption | (with_reducible apply Within.ite)
    | (with_reducible apply wdtStrike_within (m := by decide)) | (with_reducible apply modSlot_within (m := by decide))
    | (with_reducible apply Within.forEach (hf := fun _ _ => ?_)) | (with_reducible apply Within.foldl (hf := fun _ _ => ?_))
    | split | dsimp only

theorem wdtTick_within {l : List Part} {u : State} {s0 : State} (h : Within l u s0)
    (m : ([.seq, .wdt, .intc, .fab] : List Part).all l.contains = true) :
    Within l u (wdtTick s0) := by
  refine h.andThen (m := [.seq, .wdt, .intc, .fab]) ?_ m; clear h m
  unfold wdtTick
  repeat' first
    | (with_reducible exact Within.refl _ _) | assumption | (with_reducible apply Within.ite)
    | (with_reducible apply modWdt_within (m := by decide)) | (with_reducible apply judgeServe_within (m := by decide))
    | (with_reducible apply Within.forEach (hf := fun _ _ => ?_)) | (with_reducible apply Within.foldl (hf := fun _ _ => ?_))
    | (with_reducible apply Within.set_intc (m := by decide)) | split | dsimp only
    | (refine Within.mk (Within.refl _ _) ?_; intro p hp; cases p <;> first | exact absurd (by decide) hp | rfl)

theorem oscTick_within {l : List Part} {u : State} {s0 : State} (h : Within l u s0)
    (m : ([.rtc, .shadow] : List Part).all l.contains = true) :
    Within l u (oscTick s0) := by
  refine h.andThen (m := [.rtc, .shadow]) ?_ m; clear h m
  unfold oscTick
  repeat' first
    | (with_reducible exact Within.refl _ _) | assumption | (with_reducible apply Within.ite)
    | (with_reducible apply oscCount_within (m := by decide)) | (with_reducible apply modRtc_within (m := by decide))
    | (with_reducible apply Within.forEach (hf := fun _ _ => ?_)) | (with_reducible apply Within.foldl (hf := fun _ _ => ?_))
    | split | dsimp only

theorem unlockSess_within {l : List Part} {u : State} {x0 : Nat} {x1 : Bool} {s2 : State} (h : Within l u s2)
    (m : ([.link, .nvm, .acc, .fab] : List Part).all l.contains = true) :
    Within l u (unlockSess x0 x1 s2) := by
  refine h.andThen (m := [.link, .nvm, .acc, .fab]) ?_ m; clear h m
  unfold unlockSess
  repeat' first
    | (with_reducible exact Within.refl _ _) | assumption | (with_reducible apply Within.ite)
    | (with_reducible apply modSess_within (m := by decide)) | (with_reducible apply raise_within (m := by decide))
    | (with_reducible apply authOk_within (m := by decide)) | (with_reducible apply Within.forEach (hf := fun _ _ => ?_))
    | (with_reducible apply Within.foldl (hf := fun _ _ => ?_)) | split | dsimp only

theorem readWords_within {l : List Part} {u : State} {x0 : Path} {x1 : Nat} {x2 : Nat} {s3 : State} (h : Within l u s3)
    (m : ([.tb, .ph, .gal, .fe, .ch, .est, .sump, .link, .ring, .sqz, .saf, .ldr, .twi, .rtc, .wdt, .thm, .intc, .nvm, .fab, .shadow] : List Part).all l.contains = true) :
    Within l u (readWords x0 x1 x2 s3).2 := by
  refine h.andThen (m := [.tb, .ph, .gal, .fe, .ch, .est, .sump, .link, .ring, .sqz, .saf, .ldr, .twi, .rtc, .wdt, .thm, .intc, .nvm, .fab, .shadow]) ?_ m; clear h m
  induction x1 generalizing x2 s3 with
  | zero => exact Within.refl _ _
  | succ n ih => exact Within.andThen (l := [.tb, .ph, .gal, .fe, .ch, .est, .sump, .link, .ring, .sqz, .saf, .ldr, .twi, .rtc, .wdt, .thm, .intc, .nvm, .fab, .shadow]) (m := [.tb, .ph, .gal, .fe, .ch, .est, .sump, .link, .ring, .sqz, .saf, .ldr, .twi, .rtc, .wdt, .thm, .intc, .nvm, .fab, .shadow]) (readReg_within (Within.refl _ _) (by decide)) ih (by decide)

end Sys2Proof.Machine
end

