-- ==== Sys2Proof/Laws/Loops.lean ====
section
/-!
SUPPORT. A loop over one table of State leaves every other part as it was.
-/

namespace Sys2Proof.Machine

theorem mem_upto {n r : Nat} (h : r < n) : r ∈ upto n := by simp [upto, h]

theorem nodup_upto (n : Nat) : (upto n).Nodup := List.nodup_range

@[simp] theorem mem_upto_iff {n r : Nat} : r ∈ upto n ↔ r < n := by simp [upto]

theorem loopPh_within (L : List Nat) (f : Nat → Phase → Phase) (s : State) : Within [.ph] s (forEach L (fun i => modPh i (f i)) s) :=
  Within.forEach (fun _ _ => modPh_within (Within.refl _ _) (by decide)) (Within.refl _ _)
@[simp] theorem loopPh_mode (L : List Nat) (f : Nat → Phase → Phase) (s : State) : (forEach L (fun i => modPh i (f i)) s).mode = s.mode :=
  loopPh_within L f s .mode (by decide)
@[simp] theorem loopPh_seq (L : List Nat) (f : Nat → Phase → Phase) (s : State) : (forEach L (fun i => modPh i (f i)) s).seq = s.seq :=
  loopPh_within L f s .seq (by decide)
@[simp] theorem loopPh_regs (L : List Nat) (f : Nat → Phase → Phase) (s : State) : (forEach L (fun i => modPh i (f i)) s).regs = s.regs :=
  loopPh_within L f s .regs (by decide)
@[simp] theorem loopPh_tb (L : List Nat) (f : Nat → Phase → Phase) (s : State) : (forEach L (fun i => modPh i (f i)) s).tb = s.tb :=
  loopPh_within L f s .tb (by decide)
@[simp] theorem loopPh_gal (L : List Nat) (f : Nat → Phase → Phase) (s : State) : (forEach L (fun i => modPh i (f i)) s).gal = s.gal :=
  loopPh_within L f s .gal (by decide)
@[simp] theorem loopPh_fe (L : List Nat) (f : Nat → Phase → Phase) (s : State) : (forEach L (fun i => modPh i (f i)) s).fe = s.fe :=
  loopPh_within L f s .fe (by decide)
@[simp] theorem loopPh_ch (L : List Nat) (f : Nat → Phase → Phase) (s : State) : (forEach L (fun i => modPh i (f i)) s).ch = s.ch :=
  loopPh_within L f s .ch (by decide)
@[simp] theorem loopPh_est (L : List Nat) (f : Nat → Phase → Phase) (s : State) : (forEach L (fun i => modPh i (f i)) s).est = s.est :=
  loopPh_within L f s .est (by decide)
@[simp] theorem loopPh_rcp (L : List Nat) (f : Nat → Phase → Phase) (s : State) : (forEach L (fun i => modPh i (f i)) s).rcp = s.rcp :=
  loopPh_within L f s .rcp (by decide)
@[simp] theorem loopPh_sump (L : List Nat) (f : Nat → Phase → Phase) (s : State) : (forEach L (fun i => modPh i (f i)) s).sump = s.sump :=
  loopPh_within L f s .sump (by decide)
@[simp] theorem loopPh_link (L : List Nat) (f : Nat → Phase → Phase) (s : State) : (forEach L (fun i => modPh i (f i)) s).link = s.link :=
  loopPh_within L f s .link (by decide)
@[simp] theorem loopPh_ring (L : List Nat) (f : Nat → Phase → Phase) (s : State) : (forEach L (fun i => modPh i (f i)) s).ring = s.ring :=
  loopPh_within L f s .ring (by decide)
@[simp] theorem loopPh_sqz (L : List Nat) (f : Nat → Phase → Phase) (s : State) : (forEach L (fun i => modPh i (f i)) s).sqz = s.sqz :=
  loopPh_within L f s .sqz (by decide)
@[simp] theorem loopPh_saf (L : List Nat) (f : Nat → Phase → Phase) (s : State) : (forEach L (fun i => modPh i (f i)) s).saf = s.saf :=
  loopPh_within L f s .saf (by decide)
@[simp] theorem loopPh_ldr (L : List Nat) (f : Nat → Phase → Phase) (s : State) : (forEach L (fun i => modPh i (f i)) s).ldr = s.ldr :=
  loopPh_within L f s .ldr (by decide)
@[simp] theorem loopPh_twi (L : List Nat) (f : Nat → Phase → Phase) (s : State) : (forEach L (fun i => modPh i (f i)) s).twi = s.twi :=
  loopPh_within L f s .twi (by decide)
@[simp] theorem loopPh_rtc (L : List Nat) (f : Nat → Phase → Phase) (s : State) : (forEach L (fun i => modPh i (f i)) s).rtc = s.rtc :=
  loopPh_within L f s .rtc (by decide)
@[simp] theorem loopPh_wdt (L : List Nat) (f : Nat → Phase → Phase) (s : State) : (forEach L (fun i => modPh i (f i)) s).wdt = s.wdt :=
  loopPh_within L f s .wdt (by decide)
@[simp] theorem loopPh_thm (L : List Nat) (f : Nat → Phase → Phase) (s : State) : (forEach L (fun i => modPh i (f i)) s).thm = s.thm :=
  loopPh_within L f s .thm (by decide)
@[simp] theorem loopPh_intc (L : List Nat) (f : Nat → Phase → Phase) (s : State) : (forEach L (fun i => modPh i (f i)) s).intc = s.intc :=
  loopPh_within L f s .intc (by decide)
@[simp] theorem loopPh_nvm (L : List Nat) (f : Nat → Phase → Phase) (s : State) : (forEach L (fun i => modPh i (f i)) s).nvm = s.nvm :=
  loopPh_within L f s .nvm (by decide)
@[simp] theorem loopPh_acc (L : List Nat) (f : Nat → Phase → Phase) (s : State) : (forEach L (fun i => modPh i (f i)) s).acc = s.acc :=
  loopPh_within L f s .acc (by decide)
@[simp] theorem loopPh_fab (L : List Nat) (f : Nat → Phase → Phase) (s : State) : (forEach L (fun i => modPh i (f i)) s).fab = s.fab :=
  loopPh_within L f s .fab (by decide)
@[simp] theorem loopPh_shadow (L : List Nat) (f : Nat → Phase → Phase) (s : State) : (forEach L (fun i => modPh i (f i)) s).shadow = s.shadow :=
  loopPh_within L f s .shadow (by decide)
@[simp] theorem loopPh_out (L : List Nat) (f : Nat → Phase → Phase) (s : State) : (forEach L (fun i => modPh i (f i)) s).out = s.out :=
  loopPh_within L f s .out (by decide)
@[simp] theorem loopPh_free (L : List Nat) (f : Nat → Phase → Phase) (s : State) : (forEach L (fun i => modPh i (f i)) s).free = s.free :=
  loopPh_within L f s .free (by decide)
@[simp] theorem loopPh_pending (L : List Nat) (f : Nat → Phase → Phase) (s : State) : (forEach L (fun i => modPh i (f i)) s).pending = s.pending :=
  loopPh_within L f s .pending (by decide)

theorem loopGal_within (L : List Nat) (f : Nat → Gallery → Gallery) (s : State) : Within [.gal] s (forEach L (fun i => modGal i (f i)) s) :=
  Within.forEach (fun _ _ => modGal_within (Within.refl _ _) (by decide)) (Within.refl _ _)
@[simp] theorem loopGal_mode (L : List Nat) (f : Nat → Gallery → Gallery) (s : State) : (forEach L (fun i => modGal i (f i)) s).mode = s.mode :=
  loopGal_within L f s .mode (by decide)
@[simp] theorem loopGal_seq (L : List Nat) (f : Nat → Gallery → Gallery) (s : State) : (forEach L (fun i => modGal i (f i)) s).seq = s.seq :=
  loopGal_within L f s .seq (by decide)
@[simp] theorem loopGal_regs (L : List Nat) (f : Nat → Gallery → Gallery) (s : State) : (forEach L (fun i => modGal i (f i)) s).regs = s.regs :=
  loopGal_within L f s .regs (by decide)
@[simp] theorem loopGal_tb (L : List Nat) (f : Nat → Gallery → Gallery) (s : State) : (forEach L (fun i => modGal i (f i)) s).tb = s.tb :=
  loopGal_within L f s .tb (by decide)
@[simp] theorem loopGal_ph (L : List Nat) (f : Nat → Gallery → Gallery) (s : State) : (forEach L (fun i => modGal i (f i)) s).ph = s.ph :=
  loopGal_within L f s .ph (by decide)
@[simp] theorem loopGal_fe (L : List Nat) (f : Nat → Gallery → Gallery) (s : State) : (forEach L (fun i => modGal i (f i)) s).fe = s.fe :=
  loopGal_within L f s .fe (by decide)
@[simp] theorem loopGal_ch (L : List Nat) (f : Nat → Gallery → Gallery) (s : State) : (forEach L (fun i => modGal i (f i)) s).ch = s.ch :=
  loopGal_within L f s .ch (by decide)
@[simp] theorem loopGal_est (L : List Nat) (f : Nat → Gallery → Gallery) (s : State) : (forEach L (fun i => modGal i (f i)) s).est = s.est :=
  loopGal_within L f s .est (by decide)
@[simp] theorem loopGal_rcp (L : List Nat) (f : Nat → Gallery → Gallery) (s : State) : (forEach L (fun i => modGal i (f i)) s).rcp = s.rcp :=
  loopGal_within L f s .rcp (by decide)
@[simp] theorem loopGal_sump (L : List Nat) (f : Nat → Gallery → Gallery) (s : State) : (forEach L (fun i => modGal i (f i)) s).sump = s.sump :=
  loopGal_within L f s .sump (by decide)
@[simp] theorem loopGal_link (L : List Nat) (f : Nat → Gallery → Gallery) (s : State) : (forEach L (fun i => modGal i (f i)) s).link = s.link :=
  loopGal_within L f s .link (by decide)
@[simp] theorem loopGal_ring (L : List Nat) (f : Nat → Gallery → Gallery) (s : State) : (forEach L (fun i => modGal i (f i)) s).ring = s.ring :=
  loopGal_within L f s .ring (by decide)
@[simp] theorem loopGal_sqz (L : List Nat) (f : Nat → Gallery → Gallery) (s : State) : (forEach L (fun i => modGal i (f i)) s).sqz = s.sqz :=
  loopGal_within L f s .sqz (by decide)
@[simp] theorem loopGal_saf (L : List Nat) (f : Nat → Gallery → Gallery) (s : State) : (forEach L (fun i => modGal i (f i)) s).saf = s.saf :=
  loopGal_within L f s .saf (by decide)
@[simp] theorem loopGal_ldr (L : List Nat) (f : Nat → Gallery → Gallery) (s : State) : (forEach L (fun i => modGal i (f i)) s).ldr = s.ldr :=
  loopGal_within L f s .ldr (by decide)
@[simp] theorem loopGal_twi (L : List Nat) (f : Nat → Gallery → Gallery) (s : State) : (forEach L (fun i => modGal i (f i)) s).twi = s.twi :=
  loopGal_within L f s .twi (by decide)
@[simp] theorem loopGal_rtc (L : List Nat) (f : Nat → Gallery → Gallery) (s : State) : (forEach L (fun i => modGal i (f i)) s).rtc = s.rtc :=
  loopGal_within L f s .rtc (by decide)
@[simp] theorem loopGal_wdt (L : List Nat) (f : Nat → Gallery → Gallery) (s : State) : (forEach L (fun i => modGal i (f i)) s).wdt = s.wdt :=
  loopGal_within L f s .wdt (by decide)
@[simp] theorem loopGal_thm (L : List Nat) (f : Nat → Gallery → Gallery) (s : State) : (forEach L (fun i => modGal i (f i)) s).thm = s.thm :=
  loopGal_within L f s .thm (by decide)
@[simp] theorem loopGal_intc (L : List Nat) (f : Nat → Gallery → Gallery) (s : State) : (forEach L (fun i => modGal i (f i)) s).intc = s.intc :=
  loopGal_within L f s .intc (by decide)
@[simp] theorem loopGal_nvm (L : List Nat) (f : Nat → Gallery → Gallery) (s : State) : (forEach L (fun i => modGal i (f i)) s).nvm = s.nvm :=
  loopGal_within L f s .nvm (by decide)
@[simp] theorem loopGal_acc (L : List Nat) (f : Nat → Gallery → Gallery) (s : State) : (forEach L (fun i => modGal i (f i)) s).acc = s.acc :=
  loopGal_within L f s .acc (by decide)
@[simp] theorem loopGal_fab (L : List Nat) (f : Nat → Gallery → Gallery) (s : State) : (forEach L (fun i => modGal i (f i)) s).fab = s.fab :=
  loopGal_within L f s .fab (by decide)
@[simp] theorem loopGal_shadow (L : List Nat) (f : Nat → Gallery → Gallery) (s : State) : (forEach L (fun i => modGal i (f i)) s).shadow = s.shadow :=
  loopGal_within L f s .shadow (by decide)
@[simp] theorem loopGal_out (L : List Nat) (f : Nat → Gallery → Gallery) (s : State) : (forEach L (fun i => modGal i (f i)) s).out = s.out :=
  loopGal_within L f s .out (by decide)
@[simp] theorem loopGal_free (L : List Nat) (f : Nat → Gallery → Gallery) (s : State) : (forEach L (fun i => modGal i (f i)) s).free = s.free :=
  loopGal_within L f s .free (by decide)
@[simp] theorem loopGal_pending (L : List Nat) (f : Nat → Gallery → Gallery) (s : State) : (forEach L (fun i => modGal i (f i)) s).pending = s.pending :=
  loopGal_within L f s .pending (by decide)

theorem loopFe_within (L : List Nat) (f : Nat → FrontEnd → FrontEnd) (s : State) : Within [.fe] s (forEach L (fun i => modFe i (f i)) s) :=
  Within.forEach (fun _ _ => modFe_within (Within.refl _ _) (by decide)) (Within.refl _ _)
@[simp] theorem loopFe_mode (L : List Nat) (f : Nat → FrontEnd → FrontEnd) (s : State) : (forEach L (fun i => modFe i (f i)) s).mode = s.mode :=
  loopFe_within L f s .mode (by decide)
@[simp] theorem loopFe_seq (L : List Nat) (f : Nat → FrontEnd → FrontEnd) (s : State) : (forEach L (fun i => modFe i (f i)) s).seq = s.seq :=
  loopFe_within L f s .seq (by decide)
@[simp] theorem loopFe_regs (L : List Nat) (f : Nat → FrontEnd → FrontEnd) (s : State) : (forEach L (fun i => modFe i (f i)) s).regs = s.regs :=
  loopFe_within L f s .regs (by decide)
@[simp] theorem loopFe_tb (L : List Nat) (f : Nat → FrontEnd → FrontEnd) (s : State) : (forEach L (fun i => modFe i (f i)) s).tb = s.tb :=
  loopFe_within L f s .tb (by decide)
@[simp] theorem loopFe_ph (L : List Nat) (f : Nat → FrontEnd → FrontEnd) (s : State) : (forEach L (fun i => modFe i (f i)) s).ph = s.ph :=
  loopFe_within L f s .ph (by decide)
@[simp] theorem loopFe_gal (L : List Nat) (f : Nat → FrontEnd → FrontEnd) (s : State) : (forEach L (fun i => modFe i (f i)) s).gal = s.gal :=
  loopFe_within L f s .gal (by decide)
@[simp] theorem loopFe_ch (L : List Nat) (f : Nat → FrontEnd → FrontEnd) (s : State) : (forEach L (fun i => modFe i (f i)) s).ch = s.ch :=
  loopFe_within L f s .ch (by decide)
@[simp] theorem loopFe_est (L : List Nat) (f : Nat → FrontEnd → FrontEnd) (s : State) : (forEach L (fun i => modFe i (f i)) s).est = s.est :=
  loopFe_within L f s .est (by decide)
@[simp] theorem loopFe_rcp (L : List Nat) (f : Nat → FrontEnd → FrontEnd) (s : State) : (forEach L (fun i => modFe i (f i)) s).rcp = s.rcp :=
  loopFe_within L f s .rcp (by decide)
@[simp] theorem loopFe_sump (L : List Nat) (f : Nat → FrontEnd → FrontEnd) (s : State) : (forEach L (fun i => modFe i (f i)) s).sump = s.sump :=
  loopFe_within L f s .sump (by decide)
@[simp] theorem loopFe_link (L : List Nat) (f : Nat → FrontEnd → FrontEnd) (s : State) : (forEach L (fun i => modFe i (f i)) s).link = s.link :=
  loopFe_within L f s .link (by decide)
@[simp] theorem loopFe_ring (L : List Nat) (f : Nat → FrontEnd → FrontEnd) (s : State) : (forEach L (fun i => modFe i (f i)) s).ring = s.ring :=
  loopFe_within L f s .ring (by decide)
@[simp] theorem loopFe_sqz (L : List Nat) (f : Nat → FrontEnd → FrontEnd) (s : State) : (forEach L (fun i => modFe i (f i)) s).sqz = s.sqz :=
  loopFe_within L f s .sqz (by decide)
@[simp] theorem loopFe_saf (L : List Nat) (f : Nat → FrontEnd → FrontEnd) (s : State) : (forEach L (fun i => modFe i (f i)) s).saf = s.saf :=
  loopFe_within L f s .saf (by decide)
@[simp] theorem loopFe_ldr (L : List Nat) (f : Nat → FrontEnd → FrontEnd) (s : State) : (forEach L (fun i => modFe i (f i)) s).ldr = s.ldr :=
  loopFe_within L f s .ldr (by decide)
@[simp] theorem loopFe_twi (L : List Nat) (f : Nat → FrontEnd → FrontEnd) (s : State) : (forEach L (fun i => modFe i (f i)) s).twi = s.twi :=
  loopFe_within L f s .twi (by decide)
@[simp] theorem loopFe_rtc (L : List Nat) (f : Nat → FrontEnd → FrontEnd) (s : State) : (forEach L (fun i => modFe i (f i)) s).rtc = s.rtc :=
  loopFe_within L f s .rtc (by decide)
@[simp] theorem loopFe_wdt (L : List Nat) (f : Nat → FrontEnd → FrontEnd) (s : State) : (forEach L (fun i => modFe i (f i)) s).wdt = s.wdt :=
  loopFe_within L f s .wdt (by decide)
@[simp] theorem loopFe_thm (L : List Nat) (f : Nat → FrontEnd → FrontEnd) (s : State) : (forEach L (fun i => modFe i (f i)) s).thm = s.thm :=
  loopFe_within L f s .thm (by decide)
@[simp] theorem loopFe_intc (L : List Nat) (f : Nat → FrontEnd → FrontEnd) (s : State) : (forEach L (fun i => modFe i (f i)) s).intc = s.intc :=
  loopFe_within L f s .intc (by decide)
@[simp] theorem loopFe_nvm (L : List Nat) (f : Nat → FrontEnd → FrontEnd) (s : State) : (forEach L (fun i => modFe i (f i)) s).nvm = s.nvm :=
  loopFe_within L f s .nvm (by decide)
@[simp] theorem loopFe_acc (L : List Nat) (f : Nat → FrontEnd → FrontEnd) (s : State) : (forEach L (fun i => modFe i (f i)) s).acc = s.acc :=
  loopFe_within L f s .acc (by decide)
@[simp] theorem loopFe_fab (L : List Nat) (f : Nat → FrontEnd → FrontEnd) (s : State) : (forEach L (fun i => modFe i (f i)) s).fab = s.fab :=
  loopFe_within L f s .fab (by decide)
@[simp] theorem loopFe_shadow (L : List Nat) (f : Nat → FrontEnd → FrontEnd) (s : State) : (forEach L (fun i => modFe i (f i)) s).shadow = s.shadow :=
  loopFe_within L f s .shadow (by decide)
@[simp] theorem loopFe_out (L : List Nat) (f : Nat → FrontEnd → FrontEnd) (s : State) : (forEach L (fun i => modFe i (f i)) s).out = s.out :=
  loopFe_within L f s .out (by decide)
@[simp] theorem loopFe_free (L : List Nat) (f : Nat → FrontEnd → FrontEnd) (s : State) : (forEach L (fun i => modFe i (f i)) s).free = s.free :=
  loopFe_within L f s .free (by decide)
@[simp] theorem loopFe_pending (L : List Nat) (f : Nat → FrontEnd → FrontEnd) (s : State) : (forEach L (fun i => modFe i (f i)) s).pending = s.pending :=
  loopFe_within L f s .pending (by decide)

theorem loopCh_within (L : List Nat) (f : Nat → Channel → Channel) (s : State) : Within [.ch] s (forEach L (fun i => modCh i (f i)) s) :=
  Within.forEach (fun _ _ => modCh_within (Within.refl _ _) (by decide)) (Within.refl _ _)
@[simp] theorem loopCh_mode (L : List Nat) (f : Nat → Channel → Channel) (s : State) : (forEach L (fun i => modCh i (f i)) s).mode = s.mode :=
  loopCh_within L f s .mode (by decide)
@[simp] theorem loopCh_seq (L : List Nat) (f : Nat → Channel → Channel) (s : State) : (forEach L (fun i => modCh i (f i)) s).seq = s.seq :=
  loopCh_within L f s .seq (by decide)
@[simp] theorem loopCh_regs (L : List Nat) (f : Nat → Channel → Channel) (s : State) : (forEach L (fun i => modCh i (f i)) s).regs = s.regs :=
  loopCh_within L f s .regs (by decide)
@[simp] theorem loopCh_tb (L : List Nat) (f : Nat → Channel → Channel) (s : State) : (forEach L (fun i => modCh i (f i)) s).tb = s.tb :=
  loopCh_within L f s .tb (by decide)
@[simp] theorem loopCh_ph (L : List Nat) (f : Nat → Channel → Channel) (s : State) : (forEach L (fun i => modCh i (f i)) s).ph = s.ph :=
  loopCh_within L f s .ph (by decide)
@[simp] theorem loopCh_gal (L : List Nat) (f : Nat → Channel → Channel) (s : State) : (forEach L (fun i => modCh i (f i)) s).gal = s.gal :=
  loopCh_within L f s .gal (by decide)
@[simp] theorem loopCh_fe (L : List Nat) (f : Nat → Channel → Channel) (s : State) : (forEach L (fun i => modCh i (f i)) s).fe = s.fe :=
  loopCh_within L f s .fe (by decide)
@[simp] theorem loopCh_est (L : List Nat) (f : Nat → Channel → Channel) (s : State) : (forEach L (fun i => modCh i (f i)) s).est = s.est :=
  loopCh_within L f s .est (by decide)
@[simp] theorem loopCh_rcp (L : List Nat) (f : Nat → Channel → Channel) (s : State) : (forEach L (fun i => modCh i (f i)) s).rcp = s.rcp :=
  loopCh_within L f s .rcp (by decide)
@[simp] theorem loopCh_sump (L : List Nat) (f : Nat → Channel → Channel) (s : State) : (forEach L (fun i => modCh i (f i)) s).sump = s.sump :=
  loopCh_within L f s .sump (by decide)
@[simp] theorem loopCh_link (L : List Nat) (f : Nat → Channel → Channel) (s : State) : (forEach L (fun i => modCh i (f i)) s).link = s.link :=
  loopCh_within L f s .link (by decide)
@[simp] theorem loopCh_ring (L : List Nat) (f : Nat → Channel → Channel) (s : State) : (forEach L (fun i => modCh i (f i)) s).ring = s.ring :=
  loopCh_within L f s .ring (by decide)
@[simp] theorem loopCh_sqz (L : List Nat) (f : Nat → Channel → Channel) (s : State) : (forEach L (fun i => modCh i (f i)) s).sqz = s.sqz :=
  loopCh_within L f s .sqz (by decide)
@[simp] theorem loopCh_saf (L : List Nat) (f : Nat → Channel → Channel) (s : State) : (forEach L (fun i => modCh i (f i)) s).saf = s.saf :=
  loopCh_within L f s .saf (by decide)
@[simp] theorem loopCh_ldr (L : List Nat) (f : Nat → Channel → Channel) (s : State) : (forEach L (fun i => modCh i (f i)) s).ldr = s.ldr :=
  loopCh_within L f s .ldr (by decide)
@[simp] theorem loopCh_twi (L : List Nat) (f : Nat → Channel → Channel) (s : State) : (forEach L (fun i => modCh i (f i)) s).twi = s.twi :=
  loopCh_within L f s .twi (by decide)
@[simp] theorem loopCh_rtc (L : List Nat) (f : Nat → Channel → Channel) (s : State) : (forEach L (fun i => modCh i (f i)) s).rtc = s.rtc :=
  loopCh_within L f s .rtc (by decide)
@[simp] theorem loopCh_wdt (L : List Nat) (f : Nat → Channel → Channel) (s : State) : (forEach L (fun i => modCh i (f i)) s).wdt = s.wdt :=
  loopCh_within L f s .wdt (by decide)
@[simp] theorem loopCh_thm (L : List Nat) (f : Nat → Channel → Channel) (s : State) : (forEach L (fun i => modCh i (f i)) s).thm = s.thm :=
  loopCh_within L f s .thm (by decide)
@[simp] theorem loopCh_intc (L : List Nat) (f : Nat → Channel → Channel) (s : State) : (forEach L (fun i => modCh i (f i)) s).intc = s.intc :=
  loopCh_within L f s .intc (by decide)
@[simp] theorem loopCh_nvm (L : List Nat) (f : Nat → Channel → Channel) (s : State) : (forEach L (fun i => modCh i (f i)) s).nvm = s.nvm :=
  loopCh_within L f s .nvm (by decide)
@[simp] theorem loopCh_acc (L : List Nat) (f : Nat → Channel → Channel) (s : State) : (forEach L (fun i => modCh i (f i)) s).acc = s.acc :=
  loopCh_within L f s .acc (by decide)
@[simp] theorem loopCh_fab (L : List Nat) (f : Nat → Channel → Channel) (s : State) : (forEach L (fun i => modCh i (f i)) s).fab = s.fab :=
  loopCh_within L f s .fab (by decide)
@[simp] theorem loopCh_shadow (L : List Nat) (f : Nat → Channel → Channel) (s : State) : (forEach L (fun i => modCh i (f i)) s).shadow = s.shadow :=
  loopCh_within L f s .shadow (by decide)
@[simp] theorem loopCh_out (L : List Nat) (f : Nat → Channel → Channel) (s : State) : (forEach L (fun i => modCh i (f i)) s).out = s.out :=
  loopCh_within L f s .out (by decide)
@[simp] theorem loopCh_free (L : List Nat) (f : Nat → Channel → Channel) (s : State) : (forEach L (fun i => modCh i (f i)) s).free = s.free :=
  loopCh_within L f s .free (by decide)
@[simp] theorem loopCh_pending (L : List Nat) (f : Nat → Channel → Channel) (s : State) : (forEach L (fun i => modCh i (f i)) s).pending = s.pending :=
  loopCh_within L f s .pending (by decide)

theorem loopEst_within (L : List Nat) (f : Nat → Estimator → Estimator) (s : State) : Within [.est] s (forEach L (fun i => modEst i (f i)) s) :=
  Within.forEach (fun _ _ => modEst_within (Within.refl _ _) (by decide)) (Within.refl _ _)
@[simp] theorem loopEst_mode (L : List Nat) (f : Nat → Estimator → Estimator) (s : State) : (forEach L (fun i => modEst i (f i)) s).mode = s.mode :=
  loopEst_within L f s .mode (by decide)
@[simp] theorem loopEst_seq (L : List Nat) (f : Nat → Estimator → Estimator) (s : State) : (forEach L (fun i => modEst i (f i)) s).seq = s.seq :=
  loopEst_within L f s .seq (by decide)
@[simp] theorem loopEst_regs (L : List Nat) (f : Nat → Estimator → Estimator) (s : State) : (forEach L (fun i => modEst i (f i)) s).regs = s.regs :=
  loopEst_within L f s .regs (by decide)
@[simp] theorem loopEst_tb (L : List Nat) (f : Nat → Estimator → Estimator) (s : State) : (forEach L (fun i => modEst i (f i)) s).tb = s.tb :=
  loopEst_within L f s .tb (by decide)
@[simp] theorem loopEst_ph (L : List Nat) (f : Nat → Estimator → Estimator) (s : State) : (forEach L (fun i => modEst i (f i)) s).ph = s.ph :=
  loopEst_within L f s .ph (by decide)
@[simp] theorem loopEst_gal (L : List Nat) (f : Nat → Estimator → Estimator) (s : State) : (forEach L (fun i => modEst i (f i)) s).gal = s.gal :=
  loopEst_within L f s .gal (by decide)
@[simp] theorem loopEst_fe (L : List Nat) (f : Nat → Estimator → Estimator) (s : State) : (forEach L (fun i => modEst i (f i)) s).fe = s.fe :=
  loopEst_within L f s .fe (by decide)
@[simp] theorem loopEst_ch (L : List Nat) (f : Nat → Estimator → Estimator) (s : State) : (forEach L (fun i => modEst i (f i)) s).ch = s.ch :=
  loopEst_within L f s .ch (by decide)
@[simp] theorem loopEst_rcp (L : List Nat) (f : Nat → Estimator → Estimator) (s : State) : (forEach L (fun i => modEst i (f i)) s).rcp = s.rcp :=
  loopEst_within L f s .rcp (by decide)
@[simp] theorem loopEst_sump (L : List Nat) (f : Nat → Estimator → Estimator) (s : State) : (forEach L (fun i => modEst i (f i)) s).sump = s.sump :=
  loopEst_within L f s .sump (by decide)
@[simp] theorem loopEst_link (L : List Nat) (f : Nat → Estimator → Estimator) (s : State) : (forEach L (fun i => modEst i (f i)) s).link = s.link :=
  loopEst_within L f s .link (by decide)
@[simp] theorem loopEst_ring (L : List Nat) (f : Nat → Estimator → Estimator) (s : State) : (forEach L (fun i => modEst i (f i)) s).ring = s.ring :=
  loopEst_within L f s .ring (by decide)
@[simp] theorem loopEst_sqz (L : List Nat) (f : Nat → Estimator → Estimator) (s : State) : (forEach L (fun i => modEst i (f i)) s).sqz = s.sqz :=
  loopEst_within L f s .sqz (by decide)
@[simp] theorem loopEst_saf (L : List Nat) (f : Nat → Estimator → Estimator) (s : State) : (forEach L (fun i => modEst i (f i)) s).saf = s.saf :=
  loopEst_within L f s .saf (by decide)
@[simp] theorem loopEst_ldr (L : List Nat) (f : Nat → Estimator → Estimator) (s : State) : (forEach L (fun i => modEst i (f i)) s).ldr = s.ldr :=
  loopEst_within L f s .ldr (by decide)
@[simp] theorem loopEst_twi (L : List Nat) (f : Nat → Estimator → Estimator) (s : State) : (forEach L (fun i => modEst i (f i)) s).twi = s.twi :=
  loopEst_within L f s .twi (by decide)
@[simp] theorem loopEst_rtc (L : List Nat) (f : Nat → Estimator → Estimator) (s : State) : (forEach L (fun i => modEst i (f i)) s).rtc = s.rtc :=
  loopEst_within L f s .rtc (by decide)
@[simp] theorem loopEst_wdt (L : List Nat) (f : Nat → Estimator → Estimator) (s : State) : (forEach L (fun i => modEst i (f i)) s).wdt = s.wdt :=
  loopEst_within L f s .wdt (by decide)
@[simp] theorem loopEst_thm (L : List Nat) (f : Nat → Estimator → Estimator) (s : State) : (forEach L (fun i => modEst i (f i)) s).thm = s.thm :=
  loopEst_within L f s .thm (by decide)
@[simp] theorem loopEst_intc (L : List Nat) (f : Nat → Estimator → Estimator) (s : State) : (forEach L (fun i => modEst i (f i)) s).intc = s.intc :=
  loopEst_within L f s .intc (by decide)
@[simp] theorem loopEst_nvm (L : List Nat) (f : Nat → Estimator → Estimator) (s : State) : (forEach L (fun i => modEst i (f i)) s).nvm = s.nvm :=
  loopEst_within L f s .nvm (by decide)
@[simp] theorem loopEst_acc (L : List Nat) (f : Nat → Estimator → Estimator) (s : State) : (forEach L (fun i => modEst i (f i)) s).acc = s.acc :=
  loopEst_within L f s .acc (by decide)
@[simp] theorem loopEst_fab (L : List Nat) (f : Nat → Estimator → Estimator) (s : State) : (forEach L (fun i => modEst i (f i)) s).fab = s.fab :=
  loopEst_within L f s .fab (by decide)
@[simp] theorem loopEst_shadow (L : List Nat) (f : Nat → Estimator → Estimator) (s : State) : (forEach L (fun i => modEst i (f i)) s).shadow = s.shadow :=
  loopEst_within L f s .shadow (by decide)
@[simp] theorem loopEst_out (L : List Nat) (f : Nat → Estimator → Estimator) (s : State) : (forEach L (fun i => modEst i (f i)) s).out = s.out :=
  loopEst_within L f s .out (by decide)
@[simp] theorem loopEst_free (L : List Nat) (f : Nat → Estimator → Estimator) (s : State) : (forEach L (fun i => modEst i (f i)) s).free = s.free :=
  loopEst_within L f s .free (by decide)
@[simp] theorem loopEst_pending (L : List Nat) (f : Nat → Estimator → Estimator) (s : State) : (forEach L (fun i => modEst i (f i)) s).pending = s.pending :=
  loopEst_within L f s .pending (by decide)

theorem loopRing_within (L : List Nat) (f : Nat → Ring → Ring) (s : State) : Within [.ring] s (forEach L (fun i => modRing i (f i)) s) :=
  Within.forEach (fun _ _ => modRing_within (Within.refl _ _) (by decide)) (Within.refl _ _)
@[simp] theorem loopRing_mode (L : List Nat) (f : Nat → Ring → Ring) (s : State) : (forEach L (fun i => modRing i (f i)) s).mode = s.mode :=
  loopRing_within L f s .mode (by decide)
@[simp] theorem loopRing_seq (L : List Nat) (f : Nat → Ring → Ring) (s : State) : (forEach L (fun i => modRing i (f i)) s).seq = s.seq :=
  loopRing_within L f s .seq (by decide)
@[simp] theorem loopRing_regs (L : List Nat) (f : Nat → Ring → Ring) (s : State) : (forEach L (fun i => modRing i (f i)) s).regs = s.regs :=
  loopRing_within L f s .regs (by decide)
@[simp] theorem loopRing_tb (L : List Nat) (f : Nat → Ring → Ring) (s : State) : (forEach L (fun i => modRing i (f i)) s).tb = s.tb :=
  loopRing_within L f s .tb (by decide)
@[simp] theorem loopRing_ph (L : List Nat) (f : Nat → Ring → Ring) (s : State) : (forEach L (fun i => modRing i (f i)) s).ph = s.ph :=
  loopRing_within L f s .ph (by decide)
@[simp] theorem loopRing_gal (L : List Nat) (f : Nat → Ring → Ring) (s : State) : (forEach L (fun i => modRing i (f i)) s).gal = s.gal :=
  loopRing_within L f s .gal (by decide)
@[simp] theorem loopRing_fe (L : List Nat) (f : Nat → Ring → Ring) (s : State) : (forEach L (fun i => modRing i (f i)) s).fe = s.fe :=
  loopRing_within L f s .fe (by decide)
@[simp] theorem loopRing_ch (L : List Nat) (f : Nat → Ring → Ring) (s : State) : (forEach L (fun i => modRing i (f i)) s).ch = s.ch :=
  loopRing_within L f s .ch (by decide)
@[simp] theorem loopRing_est (L : List Nat) (f : Nat → Ring → Ring) (s : State) : (forEach L (fun i => modRing i (f i)) s).est = s.est :=
  loopRing_within L f s .est (by decide)
@[simp] theorem loopRing_rcp (L : List Nat) (f : Nat → Ring → Ring) (s : State) : (forEach L (fun i => modRing i (f i)) s).rcp = s.rcp :=
  loopRing_within L f s .rcp (by decide)
@[simp] theorem loopRing_sump (L : List Nat) (f : Nat → Ring → Ring) (s : State) : (forEach L (fun i => modRing i (f i)) s).sump = s.sump :=
  loopRing_within L f s .sump (by decide)
@[simp] theorem loopRing_link (L : List Nat) (f : Nat → Ring → Ring) (s : State) : (forEach L (fun i => modRing i (f i)) s).link = s.link :=
  loopRing_within L f s .link (by decide)
@[simp] theorem loopRing_sqz (L : List Nat) (f : Nat → Ring → Ring) (s : State) : (forEach L (fun i => modRing i (f i)) s).sqz = s.sqz :=
  loopRing_within L f s .sqz (by decide)
@[simp] theorem loopRing_saf (L : List Nat) (f : Nat → Ring → Ring) (s : State) : (forEach L (fun i => modRing i (f i)) s).saf = s.saf :=
  loopRing_within L f s .saf (by decide)
@[simp] theorem loopRing_ldr (L : List Nat) (f : Nat → Ring → Ring) (s : State) : (forEach L (fun i => modRing i (f i)) s).ldr = s.ldr :=
  loopRing_within L f s .ldr (by decide)
@[simp] theorem loopRing_twi (L : List Nat) (f : Nat → Ring → Ring) (s : State) : (forEach L (fun i => modRing i (f i)) s).twi = s.twi :=
  loopRing_within L f s .twi (by decide)
@[simp] theorem loopRing_rtc (L : List Nat) (f : Nat → Ring → Ring) (s : State) : (forEach L (fun i => modRing i (f i)) s).rtc = s.rtc :=
  loopRing_within L f s .rtc (by decide)
@[simp] theorem loopRing_wdt (L : List Nat) (f : Nat → Ring → Ring) (s : State) : (forEach L (fun i => modRing i (f i)) s).wdt = s.wdt :=
  loopRing_within L f s .wdt (by decide)
@[simp] theorem loopRing_thm (L : List Nat) (f : Nat → Ring → Ring) (s : State) : (forEach L (fun i => modRing i (f i)) s).thm = s.thm :=
  loopRing_within L f s .thm (by decide)
@[simp] theorem loopRing_intc (L : List Nat) (f : Nat → Ring → Ring) (s : State) : (forEach L (fun i => modRing i (f i)) s).intc = s.intc :=
  loopRing_within L f s .intc (by decide)
@[simp] theorem loopRing_nvm (L : List Nat) (f : Nat → Ring → Ring) (s : State) : (forEach L (fun i => modRing i (f i)) s).nvm = s.nvm :=
  loopRing_within L f s .nvm (by decide)
@[simp] theorem loopRing_acc (L : List Nat) (f : Nat → Ring → Ring) (s : State) : (forEach L (fun i => modRing i (f i)) s).acc = s.acc :=
  loopRing_within L f s .acc (by decide)
@[simp] theorem loopRing_fab (L : List Nat) (f : Nat → Ring → Ring) (s : State) : (forEach L (fun i => modRing i (f i)) s).fab = s.fab :=
  loopRing_within L f s .fab (by decide)
@[simp] theorem loopRing_shadow (L : List Nat) (f : Nat → Ring → Ring) (s : State) : (forEach L (fun i => modRing i (f i)) s).shadow = s.shadow :=
  loopRing_within L f s .shadow (by decide)
@[simp] theorem loopRing_out (L : List Nat) (f : Nat → Ring → Ring) (s : State) : (forEach L (fun i => modRing i (f i)) s).out = s.out :=
  loopRing_within L f s .out (by decide)
@[simp] theorem loopRing_free (L : List Nat) (f : Nat → Ring → Ring) (s : State) : (forEach L (fun i => modRing i (f i)) s).free = s.free :=
  loopRing_within L f s .free (by decide)
@[simp] theorem loopRing_pending (L : List Nat) (f : Nat → Ring → Ring) (s : State) : (forEach L (fun i => modRing i (f i)) s).pending = s.pending :=
  loopRing_within L f s .pending (by decide)

theorem loopRail_within (L : List Nat) (f : Nat → Rail → Rail) (s : State) : Within [.seq] s (forEach L (fun i => modRail i (f i)) s) :=
  Within.forEach (fun _ _ => modRail_within (Within.refl _ _) (by decide)) (Within.refl _ _)
@[simp] theorem loopRail_mode (L : List Nat) (f : Nat → Rail → Rail) (s : State) : (forEach L (fun i => modRail i (f i)) s).mode = s.mode :=
  loopRail_within L f s .mode (by decide)
@[simp] theorem loopRail_regs (L : List Nat) (f : Nat → Rail → Rail) (s : State) : (forEach L (fun i => modRail i (f i)) s).regs = s.regs :=
  loopRail_within L f s .regs (by decide)
@[simp] theorem loopRail_tb (L : List Nat) (f : Nat → Rail → Rail) (s : State) : (forEach L (fun i => modRail i (f i)) s).tb = s.tb :=
  loopRail_within L f s .tb (by decide)
@[simp] theorem loopRail_ph (L : List Nat) (f : Nat → Rail → Rail) (s : State) : (forEach L (fun i => modRail i (f i)) s).ph = s.ph :=
  loopRail_within L f s .ph (by decide)
@[simp] theorem loopRail_gal (L : List Nat) (f : Nat → Rail → Rail) (s : State) : (forEach L (fun i => modRail i (f i)) s).gal = s.gal :=
  loopRail_within L f s .gal (by decide)
@[simp] theorem loopRail_fe (L : List Nat) (f : Nat → Rail → Rail) (s : State) : (forEach L (fun i => modRail i (f i)) s).fe = s.fe :=
  loopRail_within L f s .fe (by decide)
@[simp] theorem loopRail_ch (L : List Nat) (f : Nat → Rail → Rail) (s : State) : (forEach L (fun i => modRail i (f i)) s).ch = s.ch :=
  loopRail_within L f s .ch (by decide)
@[simp] theorem loopRail_est (L : List Nat) (f : Nat → Rail → Rail) (s : State) : (forEach L (fun i => modRail i (f i)) s).est = s.est :=
  loopRail_within L f s .est (by decide)
@[simp] theorem loopRail_rcp (L : List Nat) (f : Nat → Rail → Rail) (s : State) : (forEach L (fun i => modRail i (f i)) s).rcp = s.rcp :=
  loopRail_within L f s .rcp (by decide)
@[simp] theorem loopRail_sump (L : List Nat) (f : Nat → Rail → Rail) (s : State) : (forEach L (fun i => modRail i (f i)) s).sump = s.sump :=
  loopRail_within L f s .sump (by decide)
@[simp] theorem loopRail_link (L : List Nat) (f : Nat → Rail → Rail) (s : State) : (forEach L (fun i => modRail i (f i)) s).link = s.link :=
  loopRail_within L f s .link (by decide)
@[simp] theorem loopRail_ring (L : List Nat) (f : Nat → Rail → Rail) (s : State) : (forEach L (fun i => modRail i (f i)) s).ring = s.ring :=
  loopRail_within L f s .ring (by decide)
@[simp] theorem loopRail_sqz (L : List Nat) (f : Nat → Rail → Rail) (s : State) : (forEach L (fun i => modRail i (f i)) s).sqz = s.sqz :=
  loopRail_within L f s .sqz (by decide)
@[simp] theorem loopRail_saf (L : List Nat) (f : Nat → Rail → Rail) (s : State) : (forEach L (fun i => modRail i (f i)) s).saf = s.saf :=
  loopRail_within L f s .saf (by decide)
@[simp] theorem loopRail_ldr (L : List Nat) (f : Nat → Rail → Rail) (s : State) : (forEach L (fun i => modRail i (f i)) s).ldr = s.ldr :=
  loopRail_within L f s .ldr (by decide)
@[simp] theorem loopRail_twi (L : List Nat) (f : Nat → Rail → Rail) (s : State) : (forEach L (fun i => modRail i (f i)) s).twi = s.twi :=
  loopRail_within L f s .twi (by decide)
@[simp] theorem loopRail_rtc (L : List Nat) (f : Nat → Rail → Rail) (s : State) : (forEach L (fun i => modRail i (f i)) s).rtc = s.rtc :=
  loopRail_within L f s .rtc (by decide)
@[simp] theorem loopRail_wdt (L : List Nat) (f : Nat → Rail → Rail) (s : State) : (forEach L (fun i => modRail i (f i)) s).wdt = s.wdt :=
  loopRail_within L f s .wdt (by decide)
@[simp] theorem loopRail_thm (L : List Nat) (f : Nat → Rail → Rail) (s : State) : (forEach L (fun i => modRail i (f i)) s).thm = s.thm :=
  loopRail_within L f s .thm (by decide)
@[simp] theorem loopRail_intc (L : List Nat) (f : Nat → Rail → Rail) (s : State) : (forEach L (fun i => modRail i (f i)) s).intc = s.intc :=
  loopRail_within L f s .intc (by decide)
@[simp] theorem loopRail_nvm (L : List Nat) (f : Nat → Rail → Rail) (s : State) : (forEach L (fun i => modRail i (f i)) s).nvm = s.nvm :=
  loopRail_within L f s .nvm (by decide)
@[simp] theorem loopRail_acc (L : List Nat) (f : Nat → Rail → Rail) (s : State) : (forEach L (fun i => modRail i (f i)) s).acc = s.acc :=
  loopRail_within L f s .acc (by decide)
@[simp] theorem loopRail_fab (L : List Nat) (f : Nat → Rail → Rail) (s : State) : (forEach L (fun i => modRail i (f i)) s).fab = s.fab :=
  loopRail_within L f s .fab (by decide)
@[simp] theorem loopRail_shadow (L : List Nat) (f : Nat → Rail → Rail) (s : State) : (forEach L (fun i => modRail i (f i)) s).shadow = s.shadow :=
  loopRail_within L f s .shadow (by decide)
@[simp] theorem loopRail_out (L : List Nat) (f : Nat → Rail → Rail) (s : State) : (forEach L (fun i => modRail i (f i)) s).out = s.out :=
  loopRail_within L f s .out (by decide)
@[simp] theorem loopRail_free (L : List Nat) (f : Nat → Rail → Rail) (s : State) : (forEach L (fun i => modRail i (f i)) s).free = s.free :=
  loopRail_within L f s .free (by decide)
@[simp] theorem loopRail_pending (L : List Nat) (f : Nat → Rail → Rail) (s : State) : (forEach L (fun i => modRail i (f i)) s).pending = s.pending :=
  loopRail_within L f s .pending (by decide)

end Sys2Proof.Machine
end

