-- ==== Sys2Proof/Laws/Memory.lean ====
section
/-!
SUPPORT. The bytes of the store: every operation on them keeps their canonical form, and a read after a write answers what was written.
-/

namespace Sys2Proof.Machine

/-! ### Lists of key and value in canonical form -/

theorem alWf_cons {α : Type} [DecidableEq α] {d : α} {lo : Nat} {x : Nat × α} {l : List (Nat × α)} :
    alWf d lo (x :: l) = true ↔ lo ≤ x.1 ∧ x.2 ≠ d ∧ alWf d (x.1 + 1) l = true := by
  obtain ⟨k, a⟩ := x
  simp [alWf, and_assoc]

theorem alWf_mono {α : Type} [DecidableEq α] {d : α} {l : List (Nat × α)} {lo hi : Nat} (h : lo ≤ hi)
    (w : alWf d hi l = true) : alWf d lo l = true := by
  cases l with
  | nil => rfl
  | cons x l => rw [alWf_cons] at w ⊢; exact ⟨h.trans w.1, w.2⟩

theorem alWf_alSet {α : Type} [DecidableEq α] {d : α} {k : Nat} {a : α} {l : List (Nat × α)} :
    ∀ {lo : Nat}, lo ≤ k → alWf d lo l = true → alWf d lo (alSet d k a l) = true := by
  induction l with
  | nil => intro lo h _; unfold alSet; split <;> simp_all [alWf]
  | cons x l ih =>
    obtain ⟨j, b⟩ := x
    intro lo h w
    have w' := alWf_cons.mp w
    simp only at w'
    unfold alSet
    split
    · split
      · exact w
      · rename_i h1 e
        rw [alWf_cons, alWf_cons]; exact ⟨h, e, h1, w'.2⟩
    · split
      · split
        · exact alWf_mono (by omega) w'.2.2
        · rename_i h2 e
          rw [alWf_cons]; exact ⟨h, e, h2 ▸ w'.2.2⟩
      · rw [alWf_cons]; exact ⟨w'.1, w'.2.1, ih (by show j + 1 ≤ k; omega) w'.2.2⟩

theorem alWf_filter {α : Type} [DecidableEq α] {d : α} (f : Nat × α → Bool) {l : List (Nat × α)} :
    ∀ {lo : Nat}, alWf d lo l = true → alWf d lo (l.filter f) = true := by
  induction l with
  | nil => intros; rfl
  | cons x l ih =>
    intro lo w
    have w' := alWf_cons.mp w
    rw [List.filter_cons]
    split
    · rw [alWf_cons]; exact ⟨w'.1, w'.2.1, ih w'.2.2⟩
    · exact alWf_mono (by omega) (ih w'.2.2)

/-- Below the bound every key reads as the default. -/
theorem alGet_below {α : Type} [DecidableEq α] {d : α} {l : List (Nat × α)} :
    ∀ {lo k : Nat}, alWf d lo l = true → k < lo → alGet d k l = d := by
  induction l with
  | nil => intros; rfl
  | cons x l ih =>
    intro lo k w h
    have w' := alWf_cons.mp w
    have : k ≠ x.1 := by omega
    simp only [alGet, this, if_false]
    exact ih w'.2.2 (by omega)

/-- Read after write. -/
theorem alGet_alSet {α : Type} [DecidableEq α] {d : α} {k : Nat} {a : α} {l : List (Nat × α)} (c : Nat) :
    ∀ {lo : Nat}, alWf d lo l = true → alGet d c (alSet d k a l) = if c = k then a else alGet d c l := by
  induction l with
  | nil => intro lo _; by_cases e : a = d <;> by_cases h : c = k <;> simp [alSet, alGet, e, h]
  | cons x l ih =>
    obtain ⟨j, b⟩ := x
    intro lo w
    have w' := alWf_cons.mp w
    simp only at w'
    by_cases h1 : k < j
    · by_cases e : a = d
      · by_cases h : c = k
        · have hj : c ≠ j := by omega
          simp only [alSet, if_pos h1, if_pos e, alGet, if_neg hj, if_pos h]
          rw [e]; exact alGet_below w'.2.2 (by omega)
        · simp only [alSet, if_pos h1, if_pos e, if_neg h]
      · by_cases h : c = k <;> simp [alSet, h1, e, alGet, h]
    · by_cases h2 : k = j
      · by_cases e : a = d
        · by_cases h : c = k
          · simp only [alSet, if_neg h1, if_pos h2, if_pos e, if_pos h]
            rw [e]; exact alGet_below w'.2.2 (by omega)
          · have hj : c ≠ j := by omega
            simp only [alSet, if_neg h1, if_pos h2, if_pos e, if_neg h, alGet, if_neg hj]
        · by_cases h : c = k
          · simp only [alSet, if_neg h1, if_pos h2, if_neg e, alGet, if_pos h]
          · have hj : c ≠ j := by omega
            simp only [alSet, if_neg h1, if_pos h2, if_neg e, alGet, if_neg h, if_neg hj]
      · simp only [alSet, if_neg h1, if_neg h2, alGet]
        by_cases hc : c = j
        · have : c ≠ k := by omega
          simp [hc]; omega
        · simp only [if_neg hc]; exact ih w'.2.2

/-! ### The store -/

theorem nvmPut_wf {l : List Byte} : ∀ {a : Nat} {m : List Host.Cell}, alWf (0 : Byte) 0 m = true → alWf (0 : Byte) 0 (nvmPut a l m) = true := by
  induction l with
  | nil => intro a m h; exact h
  | cons b l ih => intro a m h; exact ih (alWf_alSet (Nat.zero_le _) h)

theorem nvmWriteWord_wf {a : Nat} {b : List Byte} {s : State} (h : Memory.wf s = true) : Memory.wf (nvmWriteWord a b s) = true :=
  nvmPut_wf h

theorem nvmZeroPages_wf {p n : Nat} {s : State} (h : Memory.wf s = true) : Memory.wf (nvmZeroPages p n s) = true :=
  alWf_filter _ h

theorem reset_memory_wf : Memory.wf State.reset = true := rfl

/-- The byte at an address after bytes are put from a on. -/
theorem alGet_nvmPut {l : List Byte} (c : Nat) : ∀ {a : Nat} {m : List Host.Cell}, alWf (0 : Byte) 0 m = true →
    alGet (0 : Byte) c (nvmPut a l m) = if a ≤ c ∧ c < a + l.length then l.getD (c - a) 0 else alGet 0 c m := by
  induction l with
  | nil =>
    intro a m _
    have : ¬ (a ≤ c ∧ c < a + ([] : List Byte).length) := by simp
    simp only [nvmPut, if_neg this]
  | cons b l ih =>
    intro a m h
    rw [nvmPut, ih (alWf_alSet (Nat.zero_le _) h), alGet_alSet c h]
    by_cases h1 : c = a
    · subst h1
      simp
    · by_cases h2 : a + 1 ≤ c ∧ c < a + 1 + l.length
      · have h3 : a ≤ c ∧ c < a + (b :: l).length := by simp only [List.length_cons]; omega
        rw [if_pos h2, if_pos h3]
        obtain ⟨d, hd⟩ : ∃ d, c - a = d + 1 := ⟨c - a - 1, by omega⟩
        rw [hd, show c - (a + 1) = d by omega]; rfl
      · have h3 : ¬ (a ≤ c ∧ c < a + (b :: l).length) := by simp only [List.length_cons]; omega
        rw [if_neg h2, if_neg h3, if_neg h1]

/-- A word write changes the bytes of its word and no other byte. -/
theorem nvmByte_nvmWriteWord {a c : Nat} {b : List Byte} {s : State} (h : Memory.wf s = true) :
    nvmByte (nvmWriteWord a b s) c = if a ≤ c ∧ c < a + b.length then b.getD (c - a) 0 else nvmByte s c :=
  alGet_nvmPut c h

/-- Zeroed pages read 0, and no other byte changes. -/
theorem nvmByte_nvmZeroPages {p n c : Nat} {s : State} :
    nvmByte (nvmZeroPages p n s) c = if 256 * p ≤ c ∧ c < 256 * (p + n) then 0 else nvmByte s c := by
  unfold nvmByte nvmZeroPages
  dsimp only
  induction s.nvm.mem with
  | nil => simp [alGet]
  | cons x l ih =>
    obtain ⟨j, b⟩ := x
    rw [List.filter_cons]
    by_cases hj : c = j
    · subst hj
      by_cases hc : 256 * p ≤ c ∧ c < 256 * (p + n)
      · simp [hc] at ih ⊢
        exact ih
      · have : (decide (256 * p ≤ c) && decide (c < 256 * (p + n))) = false := by
          rw [Bool.and_eq_false_iff]; simp only [decide_eq_false_iff_not]; omega
        simp [hc, this, alGet]
    · split
      · simp only [alGet, if_neg hj]; exact ih
      · simp only [alGet, if_neg hj]; exact ih

/-! ### Bytes and checks -/

theorem leNat_leBytes (n x : Nat) : leNat (leBytes n x) = x % 256 ^ n := by
  induction n generalizing x with
  | zero => simp [leBytes, leNat, Nat.mod_one]
  | succ n ih =>
    have e : (BitVec.ofNat 8 x).toNat = x % 256 := BitVec.toNat_ofNat x 8
    rw [leBytes, leNat, ih, e, Nat.pow_succ', Nat.mod_mul]

theorem length_leBytes (n x : Nat) : (leBytes n x).length = n := by
  induction n generalizing x with
  | zero => rfl
  | succ n ih => simp [leBytes, ih]

theorem crcBit_lt {p c : Nat} (hp : p < 2 ^ 32) (hc : c < 2 ^ 32) : crcBit p c < 2 ^ 32 := by
  have h : c >>> 1 < 2 ^ 32 := lt_of_le_of_lt (Nat.shiftRight_le c 1) hc
  unfold crcBit
  split
  · exact Nat.xor_lt_two_pow h hp
  · exact h

/-- A reflected CRC fits 32 bits. -/
theorem crcRefl_lt {p : Nat} (hp : p < 2 ^ 32) (l : List Byte) : crcRefl p l < 2 ^ 32 := by
  have go : ∀ c, c < 2 ^ 32 → l.foldl (crcByte p) c < 2 ^ 32 := by
    induction l with
    | nil => intro c h; exact h
    | cons b l ih =>
      intro c h
      refine ih _ ?_
      have hb : b.toNat < 2 ^ 32 := lt_trans b.isLt (by decide)
      iterate 8 refine crcBit_lt hp ?_
      exact Nat.xor_lt_two_pow h hb
  exact Nat.xor_lt_two_pow (go _ (by decide)) (by decide)

theorem crc8_lt (l : List Byte) : crc8 l < 256 := by
  have bit : ∀ c, c < 256 → crc8Bit c < 256 := by
    intro c h
    unfold crc8Bit
    split
    · exact Nat.xor_lt_two_pow (n := 8) (Nat.mod_lt _ (by decide)) (by decide)
    · rw [Nat.shiftLeft_eq]; omega
  have go : ∀ c, c < 256 → l.foldl crc8Byte c < 256 := by
    induction l with
    | nil => intro c h; exact h
    | cons b l ih =>
      intro c h
      refine ih _ ?_
      iterate 8 refine bit _ ?_
      exact Nat.xor_lt_two_pow (n := 8) h b.isLt
  exact go 0 (by decide)

/-- Bytes read back after they are put. -/
theorem nvmBytes_put {s : State} {a o n : Nat} {l : List Byte} {m : List Host.Cell} (w : alWf (0 : Byte) 0 m = true)
    (h : s.nvm.mem = nvmPut a l m) (hn : o + n ≤ l.length) : nvmBytes s (a + o) n = (l.drop o).take n := by
  apply List.ext_getElem
  · simp [nvmBytes, upto]; omega
  · intro i h1 h2
    have hi : i < n := by simpa [nvmBytes, upto] using h1
    simp only [nvmBytes, upto, List.getElem_map, List.getElem_range, nvmByte, h, List.getElem_take, List.getElem_drop]
    rw [alGet_nvmPut _ w, if_pos (by omega), show a + o + i - a = o + i by omega]
    exact List.getD_eq_getElem _ _ (by omega)

/-- A record copy that was written is valid when it is read (R459, R461). -/
theorem copyValid_put {s : State} {a kind index seq : Nat} {p : List Byte} {m : List Host.Cell} (w : alWf (0 : Byte) 0 m = true)
    (h : s.nvm.mem = nvmPut a (recHeader kind index seq p ++ p) m) (hk : kind < 256) (hi : index < 256) (hp : p.length < 65536)
    (hu : nvmUncorr s a (16 + p.length) = false) : copyValid s kind index p.length a = true := by
  have len : (recHeader kind index seq p).length = 16 := by simp [recHeader, length_leBytes]
  have head : nvmBytes s a 16 = recHeader kind index seq p := by
    have := nvmBytes_put (o := 0) (n := 16) w h (by simp [len])
    simpa [← len] using this
  have body : nvmBytes s (a + 16) p.length = p := by
    have := nvmBytes_put (o := 16) (n := p.length) w h (by simp [len])
    simpa [← len] using this
  have hc : crc32c p < 2 ^ 32 := crcRefl_lt (by decide) p
  unfold copyValid
  simp only [head, body, hu]
  simp [recHeader, leBytes, byteAt, leAt, leNat, Nat.mod_eq_of_lt hk, Nat.mod_eq_of_lt hi, Nat.mod_eq_of_lt (crc8_lt _)]
  omega

end Sys2Proof.Machine
end

