-- ==== Sys2Proof/Laws/Messages.lean ====
section
/-!
SUPPORT. Messages of the link: one that is put together has the fields it was given, and the receiver finds it whole (R279).
-/

namespace Sys2Proof.Machine

theorem pzMsg_length (s : State) (ty se fl seq : Nat) (b : List Byte) : (pzMsg s ty se fl seq b).length = b.length + 20 := by
  simp [pzMsg, withCrc32c, length_leBytes]; omega

/-- A record that ends with the CRC-32C of its bytes passes the check. -/
theorem crc32cOk_withCrc32c (l : List Byte) : crc32cOk (withCrc32c l) = true := by
  have h : crc32c l < 2 ^ 32 := crcRefl_lt (by decide) l
  have n : (withCrc32c l).length = l.length + 4 := by simp [withCrc32c, length_leBytes]
  unfold crc32cOk
  rw [n]
  have e : (withCrc32c l).take (l.length + 4 - 4) = l := by simp [withCrc32c]
  have f : leAt (withCrc32c l) (l.length + 4 - 4) 4 = crc32c l := by
    have g : (leBytes 4 (crc32c l)).take 4 = leBytes 4 (crc32c l) := List.take_of_length_le (by simp [length_leBytes])
    simp only [leAt, withCrc32c, Nat.add_sub_cancel, List.drop_left, g, leNat_leBytes]
    omega
  rw [e, f]; simp

/-- The fields of a message, and its reserved bytes. -/
theorem pzMsg_fields (s : State) {ty se fl seq : Nat} {b : List Byte} (h1 : ty < 256) (h2 : se < 256) (h3 : fl < 256) (h4 : seq < 2 ^ 32)
    (h5 : b.length < 65536) :
    Pz.type (pzMsg s ty se fl seq b) = ty ∧ Pz.sess (pzMsg s ty se fl seq b) = se ∧ Pz.flags (pzMsg s ty se fl seq b) = fl ∧
    Pz.seq (pzMsg s ty se fl seq b) = seq ∧ Pz.len (pzMsg s ty se fl seq b) = b.length ∧ Pz.payload (pzMsg s ty se fl seq b) = b ∧
    allZero (slice (pzMsg s ty se fl seq b) 13 3) = true := by
  have l : Pz.len (pzMsg s ty se fl seq b) = b.length := by
    simp [Pz.len, leAt, pzMsg, withCrc32c, leBytes, leNat]; omega
  refine ⟨?_, ?_, ?_, ?_, l, ?_, ?_⟩
  · simp [Pz.type, byteAt, leAt, pzMsg, withCrc32c, leBytes, leNat]; omega
  · simp [Pz.sess, byteAt, leAt, pzMsg, withCrc32c, leBytes, leNat]; omega
  · simp [Pz.flags, byteAt, leAt, pzMsg, withCrc32c, leBytes, leNat]; omega
  · simp [Pz.seq, leAt, pzMsg, withCrc32c, leBytes, leNat]; omega
  · unfold Pz.payload; rw [l]
    simp [pzMsg, withCrc32c, leBytes]
  · simp [allZero, slice, pzMsg, withCrc32c, leBytes]

/-- A message is whole: MAGIC, VER, LEN and CRC are right. -/
theorem pzMsg_whole (s : State) {ty se fl seq : Nat} {b : List Byte} (h1 : ty < 256) (h2 : se < 256) (h3 : fl < 256) (h4 : seq < 2 ^ 32)
    (h5 : b.length ≤ 1452) (h6 : b.length % 4 = 0) : Pz.whole (pzMsg s ty se fl seq b) = true := by
  obtain ⟨_, _, _, _, l, _⟩ := pzMsg_fields s h1 h2 h3 h4 (show b.length < 65536 by omega)
  have c : crc32cOk (pzMsg s ty se fl seq b) = true := crc32cOk_withCrc32c _
  have a : leAt (pzMsg s ty se fl seq b) 0 2 = 0x5A50 := by simp [leAt, pzMsg, withCrc32c, leBytes, leNat]
  have v : byteAt (pzMsg s ty se fl seq b) 2 = 1 := by simp [byteAt, leAt, pzMsg, withCrc32c, leBytes, leNat]
  unfold Pz.whole
  rw [c, l, pzMsg_length, a, v]
  simp [h5, h6]

end Sys2Proof.Machine
end

