-- ==== Sys2Proof/Laws/State.lean ====
section
/-!
SUPPORT. Each update of one part of State leaves every other part as it was.
-/

namespace Sys2Proof.Machine

@[simp] theorem modAcc_mode (f : Acc → Acc) (s : State) : (modAcc f s).mode = s.mode := rfl
@[simp] theorem modAcc_seq (f : Acc → Acc) (s : State) : (modAcc f s).seq = s.seq := rfl
@[simp] theorem modAcc_regs (f : Acc → Acc) (s : State) : (modAcc f s).regs = s.regs := rfl
@[simp] theorem modAcc_tb (f : Acc → Acc) (s : State) : (modAcc f s).tb = s.tb := rfl
@[simp] theorem modAcc_ph (f : Acc → Acc) (s : State) : (modAcc f s).ph = s.ph := rfl
@[simp] theorem modAcc_gal (f : Acc → Acc) (s : State) : (modAcc f s).gal = s.gal := rfl
@[simp] theorem modAcc_fe (f : Acc → Acc) (s : State) : (modAcc f s).fe = s.fe := rfl
@[simp] theorem modAcc_ch (f : Acc → Acc) (s : State) : (modAcc f s).ch = s.ch := rfl
@[simp] theorem modAcc_est (f : Acc → Acc) (s : State) : (modAcc f s).est = s.est := rfl
@[simp] theorem modAcc_rcp (f : Acc → Acc) (s : State) : (modAcc f s).rcp = s.rcp := rfl
@[simp] theorem modAcc_sump (f : Acc → Acc) (s : State) : (modAcc f s).sump = s.sump := rfl
@[simp] theorem modAcc_link (f : Acc → Acc) (s : State) : (modAcc f s).link = s.link := rfl
@[simp] theorem modAcc_ring (f : Acc → Acc) (s : State) : (modAcc f s).ring = s.ring := rfl
@[simp] theorem modAcc_sqz (f : Acc → Acc) (s : State) : (modAcc f s).sqz = s.sqz := rfl
@[simp] theorem modAcc_saf (f : Acc → Acc) (s : State) : (modAcc f s).saf = s.saf := rfl
@[simp] theorem modAcc_ldr (f : Acc → Acc) (s : State) : (modAcc f s).ldr = s.ldr := rfl
@[simp] theorem modAcc_twi (f : Acc → Acc) (s : State) : (modAcc f s).twi = s.twi := rfl
@[simp] theorem modAcc_rtc (f : Acc → Acc) (s : State) : (modAcc f s).rtc = s.rtc := rfl
@[simp] theorem modAcc_wdt (f : Acc → Acc) (s : State) : (modAcc f s).wdt = s.wdt := rfl
@[simp] theorem modAcc_thm (f : Acc → Acc) (s : State) : (modAcc f s).thm = s.thm := rfl
@[simp] theorem modAcc_intc (f : Acc → Acc) (s : State) : (modAcc f s).intc = s.intc := rfl
@[simp] theorem modAcc_nvm (f : Acc → Acc) (s : State) : (modAcc f s).nvm = s.nvm := rfl
@[simp] theorem modAcc_fab (f : Acc → Acc) (s : State) : (modAcc f s).fab = s.fab := rfl
@[simp] theorem modAcc_shadow (f : Acc → Acc) (s : State) : (modAcc f s).shadow = s.shadow := rfl
@[simp] theorem modAcc_out (f : Acc → Acc) (s : State) : (modAcc f s).out = s.out := rfl
@[simp] theorem modAcc_free (f : Acc → Acc) (s : State) : (modAcc f s).free = s.free := rfl
@[simp] theorem modAcc_pending (f : Acc → Acc) (s : State) : (modAcc f s).pending = s.pending := rfl

@[simp] theorem modCh_mode (a0 : Nat) (f : Channel → Channel) (s : State) : (modCh a0 f s).mode = s.mode := rfl
@[simp] theorem modCh_seq (a0 : Nat) (f : Channel → Channel) (s : State) : (modCh a0 f s).seq = s.seq := rfl
@[simp] theorem modCh_regs (a0 : Nat) (f : Channel → Channel) (s : State) : (modCh a0 f s).regs = s.regs := rfl
@[simp] theorem modCh_tb (a0 : Nat) (f : Channel → Channel) (s : State) : (modCh a0 f s).tb = s.tb := rfl
@[simp] theorem modCh_ph (a0 : Nat) (f : Channel → Channel) (s : State) : (modCh a0 f s).ph = s.ph := rfl
@[simp] theorem modCh_gal (a0 : Nat) (f : Channel → Channel) (s : State) : (modCh a0 f s).gal = s.gal := rfl
@[simp] theorem modCh_fe (a0 : Nat) (f : Channel → Channel) (s : State) : (modCh a0 f s).fe = s.fe := rfl
@[simp] theorem modCh_est (a0 : Nat) (f : Channel → Channel) (s : State) : (modCh a0 f s).est = s.est := rfl
@[simp] theorem modCh_rcp (a0 : Nat) (f : Channel → Channel) (s : State) : (modCh a0 f s).rcp = s.rcp := rfl
@[simp] theorem modCh_sump (a0 : Nat) (f : Channel → Channel) (s : State) : (modCh a0 f s).sump = s.sump := rfl
@[simp] theorem modCh_link (a0 : Nat) (f : Channel → Channel) (s : State) : (modCh a0 f s).link = s.link := rfl
@[simp] theorem modCh_ring (a0 : Nat) (f : Channel → Channel) (s : State) : (modCh a0 f s).ring = s.ring := rfl
@[simp] theorem modCh_sqz (a0 : Nat) (f : Channel → Channel) (s : State) : (modCh a0 f s).sqz = s.sqz := rfl
@[simp] theorem modCh_saf (a0 : Nat) (f : Channel → Channel) (s : State) : (modCh a0 f s).saf = s.saf := rfl
@[simp] theorem modCh_ldr (a0 : Nat) (f : Channel → Channel) (s : State) : (modCh a0 f s).ldr = s.ldr := rfl
@[simp] theorem modCh_twi (a0 : Nat) (f : Channel → Channel) (s : State) : (modCh a0 f s).twi = s.twi := rfl
@[simp] theorem modCh_rtc (a0 : Nat) (f : Channel → Channel) (s : State) : (modCh a0 f s).rtc = s.rtc := rfl
@[simp] theorem modCh_wdt (a0 : Nat) (f : Channel → Channel) (s : State) : (modCh a0 f s).wdt = s.wdt := rfl
@[simp] theorem modCh_thm (a0 : Nat) (f : Channel → Channel) (s : State) : (modCh a0 f s).thm = s.thm := rfl
@[simp] theorem modCh_intc (a0 : Nat) (f : Channel → Channel) (s : State) : (modCh a0 f s).intc = s.intc := rfl
@[simp] theorem modCh_nvm (a0 : Nat) (f : Channel → Channel) (s : State) : (modCh a0 f s).nvm = s.nvm := rfl
@[simp] theorem modCh_acc (a0 : Nat) (f : Channel → Channel) (s : State) : (modCh a0 f s).acc = s.acc := rfl
@[simp] theorem modCh_fab (a0 : Nat) (f : Channel → Channel) (s : State) : (modCh a0 f s).fab = s.fab := rfl
@[simp] theorem modCh_shadow (a0 : Nat) (f : Channel → Channel) (s : State) : (modCh a0 f s).shadow = s.shadow := rfl
@[simp] theorem modCh_out (a0 : Nat) (f : Channel → Channel) (s : State) : (modCh a0 f s).out = s.out := rfl
@[simp] theorem modCh_free (a0 : Nat) (f : Channel → Channel) (s : State) : (modCh a0 f s).free = s.free := rfl
@[simp] theorem modCh_pending (a0 : Nat) (f : Channel → Channel) (s : State) : (modCh a0 f s).pending = s.pending := rfl

@[simp] theorem modDie_mode (a0 : Nat) (f : Die → Die) (s : State) : (modDie a0 f s).mode = s.mode := rfl
@[simp] theorem modDie_seq (a0 : Nat) (f : Die → Die) (s : State) : (modDie a0 f s).seq = s.seq := rfl
@[simp] theorem modDie_regs (a0 : Nat) (f : Die → Die) (s : State) : (modDie a0 f s).regs = s.regs := rfl
@[simp] theorem modDie_tb (a0 : Nat) (f : Die → Die) (s : State) : (modDie a0 f s).tb = s.tb := rfl
@[simp] theorem modDie_ph (a0 : Nat) (f : Die → Die) (s : State) : (modDie a0 f s).ph = s.ph := rfl
@[simp] theorem modDie_gal (a0 : Nat) (f : Die → Die) (s : State) : (modDie a0 f s).gal = s.gal := rfl
@[simp] theorem modDie_fe (a0 : Nat) (f : Die → Die) (s : State) : (modDie a0 f s).fe = s.fe := rfl
@[simp] theorem modDie_ch (a0 : Nat) (f : Die → Die) (s : State) : (modDie a0 f s).ch = s.ch := rfl
@[simp] theorem modDie_est (a0 : Nat) (f : Die → Die) (s : State) : (modDie a0 f s).est = s.est := rfl
@[simp] theorem modDie_rcp (a0 : Nat) (f : Die → Die) (s : State) : (modDie a0 f s).rcp = s.rcp := rfl
@[simp] theorem modDie_sump (a0 : Nat) (f : Die → Die) (s : State) : (modDie a0 f s).sump = s.sump := rfl
@[simp] theorem modDie_link (a0 : Nat) (f : Die → Die) (s : State) : (modDie a0 f s).link = s.link := rfl
@[simp] theorem modDie_ring (a0 : Nat) (f : Die → Die) (s : State) : (modDie a0 f s).ring = s.ring := rfl
@[simp] theorem modDie_sqz (a0 : Nat) (f : Die → Die) (s : State) : (modDie a0 f s).sqz = s.sqz := rfl
@[simp] theorem modDie_saf (a0 : Nat) (f : Die → Die) (s : State) : (modDie a0 f s).saf = s.saf := rfl
@[simp] theorem modDie_ldr (a0 : Nat) (f : Die → Die) (s : State) : (modDie a0 f s).ldr = s.ldr := rfl
@[simp] theorem modDie_twi (a0 : Nat) (f : Die → Die) (s : State) : (modDie a0 f s).twi = s.twi := rfl
@[simp] theorem modDie_rtc (a0 : Nat) (f : Die → Die) (s : State) : (modDie a0 f s).rtc = s.rtc := rfl
@[simp] theorem modDie_wdt (a0 : Nat) (f : Die → Die) (s : State) : (modDie a0 f s).wdt = s.wdt := rfl
@[simp] theorem modDie_intc (a0 : Nat) (f : Die → Die) (s : State) : (modDie a0 f s).intc = s.intc := rfl
@[simp] theorem modDie_nvm (a0 : Nat) (f : Die → Die) (s : State) : (modDie a0 f s).nvm = s.nvm := rfl
@[simp] theorem modDie_acc (a0 : Nat) (f : Die → Die) (s : State) : (modDie a0 f s).acc = s.acc := rfl
@[simp] theorem modDie_fab (a0 : Nat) (f : Die → Die) (s : State) : (modDie a0 f s).fab = s.fab := rfl
@[simp] theorem modDie_shadow (a0 : Nat) (f : Die → Die) (s : State) : (modDie a0 f s).shadow = s.shadow := rfl
@[simp] theorem modDie_out (a0 : Nat) (f : Die → Die) (s : State) : (modDie a0 f s).out = s.out := rfl
@[simp] theorem modDie_free (a0 : Nat) (f : Die → Die) (s : State) : (modDie a0 f s).free = s.free := rfl
@[simp] theorem modDie_pending (a0 : Nat) (f : Die → Die) (s : State) : (modDie a0 f s).pending = s.pending := rfl

@[simp] theorem modEst_mode (a0 : Nat) (f : Estimator → Estimator) (s : State) : (modEst a0 f s).mode = s.mode := rfl
@[simp] theorem modEst_seq (a0 : Nat) (f : Estimator → Estimator) (s : State) : (modEst a0 f s).seq = s.seq := rfl
@[simp] theorem modEst_regs (a0 : Nat) (f : Estimator → Estimator) (s : State) : (modEst a0 f s).regs = s.regs := rfl
@[simp] theorem modEst_tb (a0 : Nat) (f : Estimator → Estimator) (s : State) : (modEst a0 f s).tb = s.tb := rfl
@[simp] theorem modEst_ph (a0 : Nat) (f : Estimator → Estimator) (s : State) : (modEst a0 f s).ph = s.ph := rfl
@[simp] theorem modEst_gal (a0 : Nat) (f : Estimator → Estimator) (s : State) : (modEst a0 f s).gal = s.gal := rfl
@[simp] theorem modEst_fe (a0 : Nat) (f : Estimator → Estimator) (s : State) : (modEst a0 f s).fe = s.fe := rfl
@[simp] theorem modEst_ch (a0 : Nat) (f : Estimator → Estimator) (s : State) : (modEst a0 f s).ch = s.ch := rfl
@[simp] theorem modEst_rcp (a0 : Nat) (f : Estimator → Estimator) (s : State) : (modEst a0 f s).rcp = s.rcp := rfl
@[simp] theorem modEst_sump (a0 : Nat) (f : Estimator → Estimator) (s : State) : (modEst a0 f s).sump = s.sump := rfl
@[simp] theorem modEst_link (a0 : Nat) (f : Estimator → Estimator) (s : State) : (modEst a0 f s).link = s.link := rfl
@[simp] theorem modEst_ring (a0 : Nat) (f : Estimator → Estimator) (s : State) : (modEst a0 f s).ring = s.ring := rfl
@[simp] theorem modEst_sqz (a0 : Nat) (f : Estimator → Estimator) (s : State) : (modEst a0 f s).sqz = s.sqz := rfl
@[simp] theorem modEst_saf (a0 : Nat) (f : Estimator → Estimator) (s : State) : (modEst a0 f s).saf = s.saf := rfl
@[simp] theorem modEst_ldr (a0 : Nat) (f : Estimator → Estimator) (s : State) : (modEst a0 f s).ldr = s.ldr := rfl
@[simp] theorem modEst_twi (a0 : Nat) (f : Estimator → Estimator) (s : State) : (modEst a0 f s).twi = s.twi := rfl
@[simp] theorem modEst_rtc (a0 : Nat) (f : Estimator → Estimator) (s : State) : (modEst a0 f s).rtc = s.rtc := rfl
@[simp] theorem modEst_wdt (a0 : Nat) (f : Estimator → Estimator) (s : State) : (modEst a0 f s).wdt = s.wdt := rfl
@[simp] theorem modEst_thm (a0 : Nat) (f : Estimator → Estimator) (s : State) : (modEst a0 f s).thm = s.thm := rfl
@[simp] theorem modEst_intc (a0 : Nat) (f : Estimator → Estimator) (s : State) : (modEst a0 f s).intc = s.intc := rfl
@[simp] theorem modEst_nvm (a0 : Nat) (f : Estimator → Estimator) (s : State) : (modEst a0 f s).nvm = s.nvm := rfl
@[simp] theorem modEst_acc (a0 : Nat) (f : Estimator → Estimator) (s : State) : (modEst a0 f s).acc = s.acc := rfl
@[simp] theorem modEst_fab (a0 : Nat) (f : Estimator → Estimator) (s : State) : (modEst a0 f s).fab = s.fab := rfl
@[simp] theorem modEst_shadow (a0 : Nat) (f : Estimator → Estimator) (s : State) : (modEst a0 f s).shadow = s.shadow := rfl
@[simp] theorem modEst_out (a0 : Nat) (f : Estimator → Estimator) (s : State) : (modEst a0 f s).out = s.out := rfl
@[simp] theorem modEst_free (a0 : Nat) (f : Estimator → Estimator) (s : State) : (modEst a0 f s).free = s.free := rfl
@[simp] theorem modEst_pending (a0 : Nat) (f : Estimator → Estimator) (s : State) : (modEst a0 f s).pending = s.pending := rfl

@[simp] theorem modFab_mode (f : Fabric → Fabric) (s : State) : (modFab f s).mode = s.mode := rfl
@[simp] theorem modFab_seq (f : Fabric → Fabric) (s : State) : (modFab f s).seq = s.seq := rfl
@[simp] theorem modFab_regs (f : Fabric → Fabric) (s : State) : (modFab f s).regs = s.regs := rfl
@[simp] theorem modFab_tb (f : Fabric → Fabric) (s : State) : (modFab f s).tb = s.tb := rfl
@[simp] theorem modFab_ph (f : Fabric → Fabric) (s : State) : (modFab f s).ph = s.ph := rfl
@[simp] theorem modFab_gal (f : Fabric → Fabric) (s : State) : (modFab f s).gal = s.gal := rfl
@[simp] theorem modFab_fe (f : Fabric → Fabric) (s : State) : (modFab f s).fe = s.fe := rfl
@[simp] theorem modFab_ch (f : Fabric → Fabric) (s : State) : (modFab f s).ch = s.ch := rfl
@[simp] theorem modFab_est (f : Fabric → Fabric) (s : State) : (modFab f s).est = s.est := rfl
@[simp] theorem modFab_rcp (f : Fabric → Fabric) (s : State) : (modFab f s).rcp = s.rcp := rfl
@[simp] theorem modFab_sump (f : Fabric → Fabric) (s : State) : (modFab f s).sump = s.sump := rfl
@[simp] theorem modFab_link (f : Fabric → Fabric) (s : State) : (modFab f s).link = s.link := rfl
@[simp] theorem modFab_ring (f : Fabric → Fabric) (s : State) : (modFab f s).ring = s.ring := rfl
@[simp] theorem modFab_sqz (f : Fabric → Fabric) (s : State) : (modFab f s).sqz = s.sqz := rfl
@[simp] theorem modFab_saf (f : Fabric → Fabric) (s : State) : (modFab f s).saf = s.saf := rfl
@[simp] theorem modFab_ldr (f : Fabric → Fabric) (s : State) : (modFab f s).ldr = s.ldr := rfl
@[simp] theorem modFab_twi (f : Fabric → Fabric) (s : State) : (modFab f s).twi = s.twi := rfl
@[simp] theorem modFab_rtc (f : Fabric → Fabric) (s : State) : (modFab f s).rtc = s.rtc := rfl
@[simp] theorem modFab_wdt (f : Fabric → Fabric) (s : State) : (modFab f s).wdt = s.wdt := rfl
@[simp] theorem modFab_thm (f : Fabric → Fabric) (s : State) : (modFab f s).thm = s.thm := rfl
@[simp] theorem modFab_intc (f : Fabric → Fabric) (s : State) : (modFab f s).intc = s.intc := rfl
@[simp] theorem modFab_nvm (f : Fabric → Fabric) (s : State) : (modFab f s).nvm = s.nvm := rfl
@[simp] theorem modFab_acc (f : Fabric → Fabric) (s : State) : (modFab f s).acc = s.acc := rfl
@[simp] theorem modFab_shadow (f : Fabric → Fabric) (s : State) : (modFab f s).shadow = s.shadow := rfl
@[simp] theorem modFab_out (f : Fabric → Fabric) (s : State) : (modFab f s).out = s.out := rfl
@[simp] theorem modFab_free (f : Fabric → Fabric) (s : State) : (modFab f s).free = s.free := rfl
@[simp] theorem modFab_pending (f : Fabric → Fabric) (s : State) : (modFab f s).pending = s.pending := rfl

@[simp] theorem modFe_mode (a0 : Nat) (f : FrontEnd → FrontEnd) (s : State) : (modFe a0 f s).mode = s.mode := rfl
@[simp] theorem modFe_seq (a0 : Nat) (f : FrontEnd → FrontEnd) (s : State) : (modFe a0 f s).seq = s.seq := rfl
@[simp] theorem modFe_regs (a0 : Nat) (f : FrontEnd → FrontEnd) (s : State) : (modFe a0 f s).regs = s.regs := rfl
@[simp] theorem modFe_tb (a0 : Nat) (f : FrontEnd → FrontEnd) (s : State) : (modFe a0 f s).tb = s.tb := rfl
@[simp] theorem modFe_ph (a0 : Nat) (f : FrontEnd → FrontEnd) (s : State) : (modFe a0 f s).ph = s.ph := rfl
@[simp] theorem modFe_gal (a0 : Nat) (f : FrontEnd → FrontEnd) (s : State) : (modFe a0 f s).gal = s.gal := rfl
@[simp] theorem modFe_ch (a0 : Nat) (f : FrontEnd → FrontEnd) (s : State) : (modFe a0 f s).ch = s.ch := rfl
@[simp] theorem modFe_est (a0 : Nat) (f : FrontEnd → FrontEnd) (s : State) : (modFe a0 f s).est = s.est := rfl
@[simp] theorem modFe_rcp (a0 : Nat) (f : FrontEnd → FrontEnd) (s : State) : (modFe a0 f s).rcp = s.rcp := rfl
@[simp] theorem modFe_sump (a0 : Nat) (f : FrontEnd → FrontEnd) (s : State) : (modFe a0 f s).sump = s.sump := rfl
@[simp] theorem modFe_link (a0 : Nat) (f : FrontEnd → FrontEnd) (s : State) : (modFe a0 f s).link = s.link := rfl
@[simp] theorem modFe_ring (a0 : Nat) (f : FrontEnd → FrontEnd) (s : State) : (modFe a0 f s).ring = s.ring := rfl
@[simp] theorem modFe_sqz (a0 : Nat) (f : FrontEnd → FrontEnd) (s : State) : (modFe a0 f s).sqz = s.sqz := rfl
@[simp] theorem modFe_saf (a0 : Nat) (f : FrontEnd → FrontEnd) (s : State) : (modFe a0 f s).saf = s.saf := rfl
@[simp] theorem modFe_ldr (a0 : Nat) (f : FrontEnd → FrontEnd) (s : State) : (modFe a0 f s).ldr = s.ldr := rfl
@[simp] theorem modFe_twi (a0 : Nat) (f : FrontEnd → FrontEnd) (s : State) : (modFe a0 f s).twi = s.twi := rfl
@[simp] theorem modFe_rtc (a0 : Nat) (f : FrontEnd → FrontEnd) (s : State) : (modFe a0 f s).rtc = s.rtc := rfl
@[simp] theorem modFe_wdt (a0 : Nat) (f : FrontEnd → FrontEnd) (s : State) : (modFe a0 f s).wdt = s.wdt := rfl
@[simp] theorem modFe_thm (a0 : Nat) (f : FrontEnd → FrontEnd) (s : State) : (modFe a0 f s).thm = s.thm := rfl
@[simp] theorem modFe_intc (a0 : Nat) (f : FrontEnd → FrontEnd) (s : State) : (modFe a0 f s).intc = s.intc := rfl
@[simp] theorem modFe_nvm (a0 : Nat) (f : FrontEnd → FrontEnd) (s : State) : (modFe a0 f s).nvm = s.nvm := rfl
@[simp] theorem modFe_acc (a0 : Nat) (f : FrontEnd → FrontEnd) (s : State) : (modFe a0 f s).acc = s.acc := rfl
@[simp] theorem modFe_fab (a0 : Nat) (f : FrontEnd → FrontEnd) (s : State) : (modFe a0 f s).fab = s.fab := rfl
@[simp] theorem modFe_shadow (a0 : Nat) (f : FrontEnd → FrontEnd) (s : State) : (modFe a0 f s).shadow = s.shadow := rfl
@[simp] theorem modFe_out (a0 : Nat) (f : FrontEnd → FrontEnd) (s : State) : (modFe a0 f s).out = s.out := rfl
@[simp] theorem modFe_free (a0 : Nat) (f : FrontEnd → FrontEnd) (s : State) : (modFe a0 f s).free = s.free := rfl
@[simp] theorem modFe_pending (a0 : Nat) (f : FrontEnd → FrontEnd) (s : State) : (modFe a0 f s).pending = s.pending := rfl

@[simp] theorem modGal_mode (a0 : Nat) (f : Gallery → Gallery) (s : State) : (modGal a0 f s).mode = s.mode := rfl
@[simp] theorem modGal_seq (a0 : Nat) (f : Gallery → Gallery) (s : State) : (modGal a0 f s).seq = s.seq := rfl
@[simp] theorem modGal_regs (a0 : Nat) (f : Gallery → Gallery) (s : State) : (modGal a0 f s).regs = s.regs := rfl
@[simp] theorem modGal_tb (a0 : Nat) (f : Gallery → Gallery) (s : State) : (modGal a0 f s).tb = s.tb := rfl
@[simp] theorem modGal_ph (a0 : Nat) (f : Gallery → Gallery) (s : State) : (modGal a0 f s).ph = s.ph := rfl
@[simp] theorem modGal_fe (a0 : Nat) (f : Gallery → Gallery) (s : State) : (modGal a0 f s).fe = s.fe := rfl
@[simp] theorem modGal_ch (a0 : Nat) (f : Gallery → Gallery) (s : State) : (modGal a0 f s).ch = s.ch := rfl
@[simp] theorem modGal_est (a0 : Nat) (f : Gallery → Gallery) (s : State) : (modGal a0 f s).est = s.est := rfl
@[simp] theorem modGal_rcp (a0 : Nat) (f : Gallery → Gallery) (s : State) : (modGal a0 f s).rcp = s.rcp := rfl
@[simp] theorem modGal_sump (a0 : Nat) (f : Gallery → Gallery) (s : State) : (modGal a0 f s).sump = s.sump := rfl
@[simp] theorem modGal_link (a0 : Nat) (f : Gallery → Gallery) (s : State) : (modGal a0 f s).link = s.link := rfl
@[simp] theorem modGal_ring (a0 : Nat) (f : Gallery → Gallery) (s : State) : (modGal a0 f s).ring = s.ring := rfl
@[simp] theorem modGal_sqz (a0 : Nat) (f : Gallery → Gallery) (s : State) : (modGal a0 f s).sqz = s.sqz := rfl
@[simp] theorem modGal_saf (a0 : Nat) (f : Gallery → Gallery) (s : State) : (modGal a0 f s).saf = s.saf := rfl
@[simp] theorem modGal_ldr (a0 : Nat) (f : Gallery → Gallery) (s : State) : (modGal a0 f s).ldr = s.ldr := rfl
@[simp] theorem modGal_twi (a0 : Nat) (f : Gallery → Gallery) (s : State) : (modGal a0 f s).twi = s.twi := rfl
@[simp] theorem modGal_rtc (a0 : Nat) (f : Gallery → Gallery) (s : State) : (modGal a0 f s).rtc = s.rtc := rfl
@[simp] theorem modGal_wdt (a0 : Nat) (f : Gallery → Gallery) (s : State) : (modGal a0 f s).wdt = s.wdt := rfl
@[simp] theorem modGal_thm (a0 : Nat) (f : Gallery → Gallery) (s : State) : (modGal a0 f s).thm = s.thm := rfl
@[simp] theorem modGal_intc (a0 : Nat) (f : Gallery → Gallery) (s : State) : (modGal a0 f s).intc = s.intc := rfl
@[simp] theorem modGal_nvm (a0 : Nat) (f : Gallery → Gallery) (s : State) : (modGal a0 f s).nvm = s.nvm := rfl
@[simp] theorem modGal_acc (a0 : Nat) (f : Gallery → Gallery) (s : State) : (modGal a0 f s).acc = s.acc := rfl
@[simp] theorem modGal_fab (a0 : Nat) (f : Gallery → Gallery) (s : State) : (modGal a0 f s).fab = s.fab := rfl
@[simp] theorem modGal_shadow (a0 : Nat) (f : Gallery → Gallery) (s : State) : (modGal a0 f s).shadow = s.shadow := rfl
@[simp] theorem modGal_out (a0 : Nat) (f : Gallery → Gallery) (s : State) : (modGal a0 f s).out = s.out := rfl
@[simp] theorem modGal_free (a0 : Nat) (f : Gallery → Gallery) (s : State) : (modGal a0 f s).free = s.free := rfl
@[simp] theorem modGal_pending (a0 : Nat) (f : Gallery → Gallery) (s : State) : (modGal a0 f s).pending = s.pending := rfl

@[simp] theorem modGrp_mode (a0 : Nat) (f : Group → Group) (s : State) : (modGrp a0 f s).mode = s.mode := rfl
@[simp] theorem modGrp_seq (a0 : Nat) (f : Group → Group) (s : State) : (modGrp a0 f s).seq = s.seq := rfl
@[simp] theorem modGrp_regs (a0 : Nat) (f : Group → Group) (s : State) : (modGrp a0 f s).regs = s.regs := rfl
@[simp] theorem modGrp_ph (a0 : Nat) (f : Group → Group) (s : State) : (modGrp a0 f s).ph = s.ph := rfl
@[simp] theorem modGrp_gal (a0 : Nat) (f : Group → Group) (s : State) : (modGrp a0 f s).gal = s.gal := rfl
@[simp] theorem modGrp_fe (a0 : Nat) (f : Group → Group) (s : State) : (modGrp a0 f s).fe = s.fe := rfl
@[simp] theorem modGrp_ch (a0 : Nat) (f : Group → Group) (s : State) : (modGrp a0 f s).ch = s.ch := rfl
@[simp] theorem modGrp_est (a0 : Nat) (f : Group → Group) (s : State) : (modGrp a0 f s).est = s.est := rfl
@[simp] theorem modGrp_rcp (a0 : Nat) (f : Group → Group) (s : State) : (modGrp a0 f s).rcp = s.rcp := rfl
@[simp] theorem modGrp_sump (a0 : Nat) (f : Group → Group) (s : State) : (modGrp a0 f s).sump = s.sump := rfl
@[simp] theorem modGrp_link (a0 : Nat) (f : Group → Group) (s : State) : (modGrp a0 f s).link = s.link := rfl
@[simp] theorem modGrp_ring (a0 : Nat) (f : Group → Group) (s : State) : (modGrp a0 f s).ring = s.ring := rfl
@[simp] theorem modGrp_sqz (a0 : Nat) (f : Group → Group) (s : State) : (modGrp a0 f s).sqz = s.sqz := rfl
@[simp] theorem modGrp_saf (a0 : Nat) (f : Group → Group) (s : State) : (modGrp a0 f s).saf = s.saf := rfl
@[simp] theorem modGrp_ldr (a0 : Nat) (f : Group → Group) (s : State) : (modGrp a0 f s).ldr = s.ldr := rfl
@[simp] theorem modGrp_twi (a0 : Nat) (f : Group → Group) (s : State) : (modGrp a0 f s).twi = s.twi := rfl
@[simp] theorem modGrp_rtc (a0 : Nat) (f : Group → Group) (s : State) : (modGrp a0 f s).rtc = s.rtc := rfl
@[simp] theorem modGrp_wdt (a0 : Nat) (f : Group → Group) (s : State) : (modGrp a0 f s).wdt = s.wdt := rfl
@[simp] theorem modGrp_thm (a0 : Nat) (f : Group → Group) (s : State) : (modGrp a0 f s).thm = s.thm := rfl
@[simp] theorem modGrp_intc (a0 : Nat) (f : Group → Group) (s : State) : (modGrp a0 f s).intc = s.intc := rfl
@[simp] theorem modGrp_nvm (a0 : Nat) (f : Group → Group) (s : State) : (modGrp a0 f s).nvm = s.nvm := rfl
@[simp] theorem modGrp_acc (a0 : Nat) (f : Group → Group) (s : State) : (modGrp a0 f s).acc = s.acc := rfl
@[simp] theorem modGrp_fab (a0 : Nat) (f : Group → Group) (s : State) : (modGrp a0 f s).fab = s.fab := rfl
@[simp] theorem modGrp_shadow (a0 : Nat) (f : Group → Group) (s : State) : (modGrp a0 f s).shadow = s.shadow := rfl
@[simp] theorem modGrp_out (a0 : Nat) (f : Group → Group) (s : State) : (modGrp a0 f s).out = s.out := rfl
@[simp] theorem modGrp_free (a0 : Nat) (f : Group → Group) (s : State) : (modGrp a0 f s).free = s.free := rfl
@[simp] theorem modGrp_pending (a0 : Nat) (f : Group → Group) (s : State) : (modGrp a0 f s).pending = s.pending := rfl

@[simp] theorem modLdr_mode (f : Loader → Loader) (s : State) : (modLdr f s).mode = s.mode := rfl
@[simp] theorem modLdr_seq (f : Loader → Loader) (s : State) : (modLdr f s).seq = s.seq := rfl
@[simp] theorem modLdr_regs (f : Loader → Loader) (s : State) : (modLdr f s).regs = s.regs := rfl
@[simp] theorem modLdr_tb (f : Loader → Loader) (s : State) : (modLdr f s).tb = s.tb := rfl
@[simp] theorem modLdr_ph (f : Loader → Loader) (s : State) : (modLdr f s).ph = s.ph := rfl
@[simp] theorem modLdr_gal (f : Loader → Loader) (s : State) : (modLdr f s).gal = s.gal := rfl
@[simp] theorem modLdr_fe (f : Loader → Loader) (s : State) : (modLdr f s).fe = s.fe := rfl
@[simp] theorem modLdr_ch (f : Loader → Loader) (s : State) : (modLdr f s).ch = s.ch := rfl
@[simp] theorem modLdr_est (f : Loader → Loader) (s : State) : (modLdr f s).est = s.est := rfl
@[simp] theorem modLdr_rcp (f : Loader → Loader) (s : State) : (modLdr f s).rcp = s.rcp := rfl
@[simp] theorem modLdr_sump (f : Loader → Loader) (s : State) : (modLdr f s).sump = s.sump := rfl
@[simp] theorem modLdr_link (f : Loader → Loader) (s : State) : (modLdr f s).link = s.link := rfl
@[simp] theorem modLdr_ring (f : Loader → Loader) (s : State) : (modLdr f s).ring = s.ring := rfl
@[simp] theorem modLdr_sqz (f : Loader → Loader) (s : State) : (modLdr f s).sqz = s.sqz := rfl
@[simp] theorem modLdr_saf (f : Loader → Loader) (s : State) : (modLdr f s).saf = s.saf := rfl
@[simp] theorem modLdr_twi (f : Loader → Loader) (s : State) : (modLdr f s).twi = s.twi := rfl
@[simp] theorem modLdr_rtc (f : Loader → Loader) (s : State) : (modLdr f s).rtc = s.rtc := rfl
@[simp] theorem modLdr_wdt (f : Loader → Loader) (s : State) : (modLdr f s).wdt = s.wdt := rfl
@[simp] theorem modLdr_thm (f : Loader → Loader) (s : State) : (modLdr f s).thm = s.thm := rfl
@[simp] theorem modLdr_intc (f : Loader → Loader) (s : State) : (modLdr f s).intc = s.intc := rfl
@[simp] theorem modLdr_nvm (f : Loader → Loader) (s : State) : (modLdr f s).nvm = s.nvm := rfl
@[simp] theorem modLdr_acc (f : Loader → Loader) (s : State) : (modLdr f s).acc = s.acc := rfl
@[simp] theorem modLdr_fab (f : Loader → Loader) (s : State) : (modLdr f s).fab = s.fab := rfl
@[simp] theorem modLdr_shadow (f : Loader → Loader) (s : State) : (modLdr f s).shadow = s.shadow := rfl
@[simp] theorem modLdr_out (f : Loader → Loader) (s : State) : (modLdr f s).out = s.out := rfl
@[simp] theorem modLdr_free (f : Loader → Loader) (s : State) : (modLdr f s).free = s.free := rfl
@[simp] theorem modLdr_pending (f : Loader → Loader) (s : State) : (modLdr f s).pending = s.pending := rfl

@[simp] theorem modLink_mode (f : Link → Link) (s : State) : (modLink f s).mode = s.mode := rfl
@[simp] theorem modLink_seq (f : Link → Link) (s : State) : (modLink f s).seq = s.seq := rfl
@[simp] theorem modLink_regs (f : Link → Link) (s : State) : (modLink f s).regs = s.regs := rfl
@[simp] theorem modLink_tb (f : Link → Link) (s : State) : (modLink f s).tb = s.tb := rfl
@[simp] theorem modLink_ph (f : Link → Link) (s : State) : (modLink f s).ph = s.ph := rfl
@[simp] theorem modLink_gal (f : Link → Link) (s : State) : (modLink f s).gal = s.gal := rfl
@[simp] theorem modLink_fe (f : Link → Link) (s : State) : (modLink f s).fe = s.fe := rfl
@[simp] theorem modLink_ch (f : Link → Link) (s : State) : (modLink f s).ch = s.ch := rfl
@[simp] theorem modLink_est (f : Link → Link) (s : State) : (modLink f s).est = s.est := rfl
@[simp] theorem modLink_rcp (f : Link → Link) (s : State) : (modLink f s).rcp = s.rcp := rfl
@[simp] theorem modLink_sump (f : Link → Link) (s : State) : (modLink f s).sump = s.sump := rfl
@[simp] theorem modLink_ring (f : Link → Link) (s : State) : (modLink f s).ring = s.ring := rfl
@[simp] theorem modLink_sqz (f : Link → Link) (s : State) : (modLink f s).sqz = s.sqz := rfl
@[simp] theorem modLink_saf (f : Link → Link) (s : State) : (modLink f s).saf = s.saf := rfl
@[simp] theorem modLink_ldr (f : Link → Link) (s : State) : (modLink f s).ldr = s.ldr := rfl
@[simp] theorem modLink_twi (f : Link → Link) (s : State) : (modLink f s).twi = s.twi := rfl
@[simp] theorem modLink_rtc (f : Link → Link) (s : State) : (modLink f s).rtc = s.rtc := rfl
@[simp] theorem modLink_wdt (f : Link → Link) (s : State) : (modLink f s).wdt = s.wdt := rfl
@[simp] theorem modLink_thm (f : Link → Link) (s : State) : (modLink f s).thm = s.thm := rfl
@[simp] theorem modLink_intc (f : Link → Link) (s : State) : (modLink f s).intc = s.intc := rfl
@[simp] theorem modLink_nvm (f : Link → Link) (s : State) : (modLink f s).nvm = s.nvm := rfl
@[simp] theorem modLink_acc (f : Link → Link) (s : State) : (modLink f s).acc = s.acc := rfl
@[simp] theorem modLink_fab (f : Link → Link) (s : State) : (modLink f s).fab = s.fab := rfl
@[simp] theorem modLink_shadow (f : Link → Link) (s : State) : (modLink f s).shadow = s.shadow := rfl
@[simp] theorem modLink_out (f : Link → Link) (s : State) : (modLink f s).out = s.out := rfl
@[simp] theorem modLink_free (f : Link → Link) (s : State) : (modLink f s).free = s.free := rfl
@[simp] theorem modLink_pending (f : Link → Link) (s : State) : (modLink f s).pending = s.pending := rfl

@[simp] theorem modPh_mode (a0 : Nat) (f : Phase → Phase) (s : State) : (modPh a0 f s).mode = s.mode := rfl
@[simp] theorem modPh_seq (a0 : Nat) (f : Phase → Phase) (s : State) : (modPh a0 f s).seq = s.seq := rfl
@[simp] theorem modPh_regs (a0 : Nat) (f : Phase → Phase) (s : State) : (modPh a0 f s).regs = s.regs := rfl
@[simp] theorem modPh_tb (a0 : Nat) (f : Phase → Phase) (s : State) : (modPh a0 f s).tb = s.tb := rfl
@[simp] theorem modPh_gal (a0 : Nat) (f : Phase → Phase) (s : State) : (modPh a0 f s).gal = s.gal := rfl
@[simp] theorem modPh_fe (a0 : Nat) (f : Phase → Phase) (s : State) : (modPh a0 f s).fe = s.fe := rfl
@[simp] theorem modPh_ch (a0 : Nat) (f : Phase → Phase) (s : State) : (modPh a0 f s).ch = s.ch := rfl
@[simp] theorem modPh_est (a0 : Nat) (f : Phase → Phase) (s : State) : (modPh a0 f s).est = s.est := rfl
@[simp] theorem modPh_rcp (a0 : Nat) (f : Phase → Phase) (s : State) : (modPh a0 f s).rcp = s.rcp := rfl
@[simp] theorem modPh_sump (a0 : Nat) (f : Phase → Phase) (s : State) : (modPh a0 f s).sump = s.sump := rfl
@[simp] theorem modPh_link (a0 : Nat) (f : Phase → Phase) (s : State) : (modPh a0 f s).link = s.link := rfl
@[simp] theorem modPh_ring (a0 : Nat) (f : Phase → Phase) (s : State) : (modPh a0 f s).ring = s.ring := rfl
@[simp] theorem modPh_sqz (a0 : Nat) (f : Phase → Phase) (s : State) : (modPh a0 f s).sqz = s.sqz := rfl
@[simp] theorem modPh_saf (a0 : Nat) (f : Phase → Phase) (s : State) : (modPh a0 f s).saf = s.saf := rfl
@[simp] theorem modPh_ldr (a0 : Nat) (f : Phase → Phase) (s : State) : (modPh a0 f s).ldr = s.ldr := rfl
@[simp] theorem modPh_twi (a0 : Nat) (f : Phase → Phase) (s : State) : (modPh a0 f s).twi = s.twi := rfl
@[simp] theorem modPh_rtc (a0 : Nat) (f : Phase → Phase) (s : State) : (modPh a0 f s).rtc = s.rtc := rfl
@[simp] theorem modPh_wdt (a0 : Nat) (f : Phase → Phase) (s : State) : (modPh a0 f s).wdt = s.wdt := rfl
@[simp] theorem modPh_thm (a0 : Nat) (f : Phase → Phase) (s : State) : (modPh a0 f s).thm = s.thm := rfl
@[simp] theorem modPh_intc (a0 : Nat) (f : Phase → Phase) (s : State) : (modPh a0 f s).intc = s.intc := rfl
@[simp] theorem modPh_nvm (a0 : Nat) (f : Phase → Phase) (s : State) : (modPh a0 f s).nvm = s.nvm := rfl
@[simp] theorem modPh_acc (a0 : Nat) (f : Phase → Phase) (s : State) : (modPh a0 f s).acc = s.acc := rfl
@[simp] theorem modPh_fab (a0 : Nat) (f : Phase → Phase) (s : State) : (modPh a0 f s).fab = s.fab := rfl
@[simp] theorem modPh_shadow (a0 : Nat) (f : Phase → Phase) (s : State) : (modPh a0 f s).shadow = s.shadow := rfl
@[simp] theorem modPh_out (a0 : Nat) (f : Phase → Phase) (s : State) : (modPh a0 f s).out = s.out := rfl
@[simp] theorem modPh_free (a0 : Nat) (f : Phase → Phase) (s : State) : (modPh a0 f s).free = s.free := rfl
@[simp] theorem modPh_pending (a0 : Nat) (f : Phase → Phase) (s : State) : (modPh a0 f s).pending = s.pending := rfl

@[simp] theorem modPort_mode (a0 : Nat) (f : Port → Port) (s : State) : (modPort a0 f s).mode = s.mode := rfl
@[simp] theorem modPort_seq (a0 : Nat) (f : Port → Port) (s : State) : (modPort a0 f s).seq = s.seq := rfl
@[simp] theorem modPort_regs (a0 : Nat) (f : Port → Port) (s : State) : (modPort a0 f s).regs = s.regs := rfl
@[simp] theorem modPort_tb (a0 : Nat) (f : Port → Port) (s : State) : (modPort a0 f s).tb = s.tb := rfl
@[simp] theorem modPort_ph (a0 : Nat) (f : Port → Port) (s : State) : (modPort a0 f s).ph = s.ph := rfl
@[simp] theorem modPort_gal (a0 : Nat) (f : Port → Port) (s : State) : (modPort a0 f s).gal = s.gal := rfl
@[simp] theorem modPort_fe (a0 : Nat) (f : Port → Port) (s : State) : (modPort a0 f s).fe = s.fe := rfl
@[simp] theorem modPort_ch (a0 : Nat) (f : Port → Port) (s : State) : (modPort a0 f s).ch = s.ch := rfl
@[simp] theorem modPort_est (a0 : Nat) (f : Port → Port) (s : State) : (modPort a0 f s).est = s.est := rfl
@[simp] theorem modPort_rcp (a0 : Nat) (f : Port → Port) (s : State) : (modPort a0 f s).rcp = s.rcp := rfl
@[simp] theorem modPort_sump (a0 : Nat) (f : Port → Port) (s : State) : (modPort a0 f s).sump = s.sump := rfl
@[simp] theorem modPort_ring (a0 : Nat) (f : Port → Port) (s : State) : (modPort a0 f s).ring = s.ring := rfl
@[simp] theorem modPort_sqz (a0 : Nat) (f : Port → Port) (s : State) : (modPort a0 f s).sqz = s.sqz := rfl
@[simp] theorem modPort_saf (a0 : Nat) (f : Port → Port) (s : State) : (modPort a0 f s).saf = s.saf := rfl
@[simp] theorem modPort_ldr (a0 : Nat) (f : Port → Port) (s : State) : (modPort a0 f s).ldr = s.ldr := rfl
@[simp] theorem modPort_twi (a0 : Nat) (f : Port → Port) (s : State) : (modPort a0 f s).twi = s.twi := rfl
@[simp] theorem modPort_rtc (a0 : Nat) (f : Port → Port) (s : State) : (modPort a0 f s).rtc = s.rtc := rfl
@[simp] theorem modPort_wdt (a0 : Nat) (f : Port → Port) (s : State) : (modPort a0 f s).wdt = s.wdt := rfl
@[simp] theorem modPort_thm (a0 : Nat) (f : Port → Port) (s : State) : (modPort a0 f s).thm = s.thm := rfl
@[simp] theorem modPort_intc (a0 : Nat) (f : Port → Port) (s : State) : (modPort a0 f s).intc = s.intc := rfl
@[simp] theorem modPort_nvm (a0 : Nat) (f : Port → Port) (s : State) : (modPort a0 f s).nvm = s.nvm := rfl
@[simp] theorem modPort_acc (a0 : Nat) (f : Port → Port) (s : State) : (modPort a0 f s).acc = s.acc := rfl
@[simp] theorem modPort_fab (a0 : Nat) (f : Port → Port) (s : State) : (modPort a0 f s).fab = s.fab := rfl
@[simp] theorem modPort_shadow (a0 : Nat) (f : Port → Port) (s : State) : (modPort a0 f s).shadow = s.shadow := rfl
@[simp] theorem modPort_out (a0 : Nat) (f : Port → Port) (s : State) : (modPort a0 f s).out = s.out := rfl
@[simp] theorem modPort_free (a0 : Nat) (f : Port → Port) (s : State) : (modPort a0 f s).free = s.free := rfl
@[simp] theorem modPort_pending (a0 : Nat) (f : Port → Port) (s : State) : (modPort a0 f s).pending = s.pending := rfl

@[simp] theorem modRail_mode (a0 : Nat) (f : Rail → Rail) (s : State) : (modRail a0 f s).mode = s.mode := rfl
@[simp] theorem modRail_regs (a0 : Nat) (f : Rail → Rail) (s : State) : (modRail a0 f s).regs = s.regs := rfl
@[simp] theorem modRail_tb (a0 : Nat) (f : Rail → Rail) (s : State) : (modRail a0 f s).tb = s.tb := rfl
@[simp] theorem modRail_ph (a0 : Nat) (f : Rail → Rail) (s : State) : (modRail a0 f s).ph = s.ph := rfl
@[simp] theorem modRail_gal (a0 : Nat) (f : Rail → Rail) (s : State) : (modRail a0 f s).gal = s.gal := rfl
@[simp] theorem modRail_fe (a0 : Nat) (f : Rail → Rail) (s : State) : (modRail a0 f s).fe = s.fe := rfl
@[simp] theorem modRail_ch (a0 : Nat) (f : Rail → Rail) (s : State) : (modRail a0 f s).ch = s.ch := rfl
@[simp] theorem modRail_est (a0 : Nat) (f : Rail → Rail) (s : State) : (modRail a0 f s).est = s.est := rfl
@[simp] theorem modRail_rcp (a0 : Nat) (f : Rail → Rail) (s : State) : (modRail a0 f s).rcp = s.rcp := rfl
@[simp] theorem modRail_sump (a0 : Nat) (f : Rail → Rail) (s : State) : (modRail a0 f s).sump = s.sump := rfl
@[simp] theorem modRail_link (a0 : Nat) (f : Rail → Rail) (s : State) : (modRail a0 f s).link = s.link := rfl
@[simp] theorem modRail_ring (a0 : Nat) (f : Rail → Rail) (s : State) : (modRail a0 f s).ring = s.ring := rfl
@[simp] theorem modRail_sqz (a0 : Nat) (f : Rail → Rail) (s : State) : (modRail a0 f s).sqz = s.sqz := rfl
@[simp] theorem modRail_saf (a0 : Nat) (f : Rail → Rail) (s : State) : (modRail a0 f s).saf = s.saf := rfl
@[simp] theorem modRail_ldr (a0 : Nat) (f : Rail → Rail) (s : State) : (modRail a0 f s).ldr = s.ldr := rfl
@[simp] theorem modRail_twi (a0 : Nat) (f : Rail → Rail) (s : State) : (modRail a0 f s).twi = s.twi := rfl
@[simp] theorem modRail_rtc (a0 : Nat) (f : Rail → Rail) (s : State) : (modRail a0 f s).rtc = s.rtc := rfl
@[simp] theorem modRail_wdt (a0 : Nat) (f : Rail → Rail) (s : State) : (modRail a0 f s).wdt = s.wdt := rfl
@[simp] theorem modRail_thm (a0 : Nat) (f : Rail → Rail) (s : State) : (modRail a0 f s).thm = s.thm := rfl
@[simp] theorem modRail_intc (a0 : Nat) (f : Rail → Rail) (s : State) : (modRail a0 f s).intc = s.intc := rfl
@[simp] theorem modRail_nvm (a0 : Nat) (f : Rail → Rail) (s : State) : (modRail a0 f s).nvm = s.nvm := rfl
@[simp] theorem modRail_acc (a0 : Nat) (f : Rail → Rail) (s : State) : (modRail a0 f s).acc = s.acc := rfl
@[simp] theorem modRail_fab (a0 : Nat) (f : Rail → Rail) (s : State) : (modRail a0 f s).fab = s.fab := rfl
@[simp] theorem modRail_shadow (a0 : Nat) (f : Rail → Rail) (s : State) : (modRail a0 f s).shadow = s.shadow := rfl
@[simp] theorem modRail_out (a0 : Nat) (f : Rail → Rail) (s : State) : (modRail a0 f s).out = s.out := rfl
@[simp] theorem modRail_free (a0 : Nat) (f : Rail → Rail) (s : State) : (modRail a0 f s).free = s.free := rfl
@[simp] theorem modRail_pending (a0 : Nat) (f : Rail → Rail) (s : State) : (modRail a0 f s).pending = s.pending := rfl

@[simp] theorem modRing_mode (a0 : Nat) (f : Ring → Ring) (s : State) : (modRing a0 f s).mode = s.mode := rfl
@[simp] theorem modRing_seq (a0 : Nat) (f : Ring → Ring) (s : State) : (modRing a0 f s).seq = s.seq := rfl
@[simp] theorem modRing_regs (a0 : Nat) (f : Ring → Ring) (s : State) : (modRing a0 f s).regs = s.regs := rfl
@[simp] theorem modRing_tb (a0 : Nat) (f : Ring → Ring) (s : State) : (modRing a0 f s).tb = s.tb := rfl
@[simp] theorem modRing_ph (a0 : Nat) (f : Ring → Ring) (s : State) : (modRing a0 f s).ph = s.ph := rfl
@[simp] theorem modRing_gal (a0 : Nat) (f : Ring → Ring) (s : State) : (modRing a0 f s).gal = s.gal := rfl
@[simp] theorem modRing_fe (a0 : Nat) (f : Ring → Ring) (s : State) : (modRing a0 f s).fe = s.fe := rfl
@[simp] theorem modRing_ch (a0 : Nat) (f : Ring → Ring) (s : State) : (modRing a0 f s).ch = s.ch := rfl
@[simp] theorem modRing_est (a0 : Nat) (f : Ring → Ring) (s : State) : (modRing a0 f s).est = s.est := rfl
@[simp] theorem modRing_rcp (a0 : Nat) (f : Ring → Ring) (s : State) : (modRing a0 f s).rcp = s.rcp := rfl
@[simp] theorem modRing_sump (a0 : Nat) (f : Ring → Ring) (s : State) : (modRing a0 f s).sump = s.sump := rfl
@[simp] theorem modRing_link (a0 : Nat) (f : Ring → Ring) (s : State) : (modRing a0 f s).link = s.link := rfl
@[simp] theorem modRing_sqz (a0 : Nat) (f : Ring → Ring) (s : State) : (modRing a0 f s).sqz = s.sqz := rfl
@[simp] theorem modRing_saf (a0 : Nat) (f : Ring → Ring) (s : State) : (modRing a0 f s).saf = s.saf := rfl
@[simp] theorem modRing_ldr (a0 : Nat) (f : Ring → Ring) (s : State) : (modRing a0 f s).ldr = s.ldr := rfl
@[simp] theorem modRing_twi (a0 : Nat) (f : Ring → Ring) (s : State) : (modRing a0 f s).twi = s.twi := rfl
@[simp] theorem modRing_rtc (a0 : Nat) (f : Ring → Ring) (s : State) : (modRing a0 f s).rtc = s.rtc := rfl
@[simp] theorem modRing_wdt (a0 : Nat) (f : Ring → Ring) (s : State) : (modRing a0 f s).wdt = s.wdt := rfl
@[simp] theorem modRing_thm (a0 : Nat) (f : Ring → Ring) (s : State) : (modRing a0 f s).thm = s.thm := rfl
@[simp] theorem modRing_intc (a0 : Nat) (f : Ring → Ring) (s : State) : (modRing a0 f s).intc = s.intc := rfl
@[simp] theorem modRing_nvm (a0 : Nat) (f : Ring → Ring) (s : State) : (modRing a0 f s).nvm = s.nvm := rfl
@[simp] theorem modRing_acc (a0 : Nat) (f : Ring → Ring) (s : State) : (modRing a0 f s).acc = s.acc := rfl
@[simp] theorem modRing_fab (a0 : Nat) (f : Ring → Ring) (s : State) : (modRing a0 f s).fab = s.fab := rfl
@[simp] theorem modRing_shadow (a0 : Nat) (f : Ring → Ring) (s : State) : (modRing a0 f s).shadow = s.shadow := rfl
@[simp] theorem modRing_out (a0 : Nat) (f : Ring → Ring) (s : State) : (modRing a0 f s).out = s.out := rfl
@[simp] theorem modRing_free (a0 : Nat) (f : Ring → Ring) (s : State) : (modRing a0 f s).free = s.free := rfl
@[simp] theorem modRing_pending (a0 : Nat) (f : Ring → Ring) (s : State) : (modRing a0 f s).pending = s.pending := rfl

@[simp] theorem modRtc_mode (f : Rtc → Rtc) (s : State) : (modRtc f s).mode = s.mode := rfl
@[simp] theorem modRtc_seq (f : Rtc → Rtc) (s : State) : (modRtc f s).seq = s.seq := rfl
@[simp] theorem modRtc_regs (f : Rtc → Rtc) (s : State) : (modRtc f s).regs = s.regs := rfl
@[simp] theorem modRtc_tb (f : Rtc → Rtc) (s : State) : (modRtc f s).tb = s.tb := rfl
@[simp] theorem modRtc_ph (f : Rtc → Rtc) (s : State) : (modRtc f s).ph = s.ph := rfl
@[simp] theorem modRtc_gal (f : Rtc → Rtc) (s : State) : (modRtc f s).gal = s.gal := rfl
@[simp] theorem modRtc_fe (f : Rtc → Rtc) (s : State) : (modRtc f s).fe = s.fe := rfl
@[simp] theorem modRtc_ch (f : Rtc → Rtc) (s : State) : (modRtc f s).ch = s.ch := rfl
@[simp] theorem modRtc_est (f : Rtc → Rtc) (s : State) : (modRtc f s).est = s.est := rfl
@[simp] theorem modRtc_rcp (f : Rtc → Rtc) (s : State) : (modRtc f s).rcp = s.rcp := rfl
@[simp] theorem modRtc_sump (f : Rtc → Rtc) (s : State) : (modRtc f s).sump = s.sump := rfl
@[simp] theorem modRtc_link (f : Rtc → Rtc) (s : State) : (modRtc f s).link = s.link := rfl
@[simp] theorem modRtc_ring (f : Rtc → Rtc) (s : State) : (modRtc f s).ring = s.ring := rfl
@[simp] theorem modRtc_sqz (f : Rtc → Rtc) (s : State) : (modRtc f s).sqz = s.sqz := rfl
@[simp] theorem modRtc_saf (f : Rtc → Rtc) (s : State) : (modRtc f s).saf = s.saf := rfl
@[simp] theorem modRtc_ldr (f : Rtc → Rtc) (s : State) : (modRtc f s).ldr = s.ldr := rfl
@[simp] theorem modRtc_twi (f : Rtc → Rtc) (s : State) : (modRtc f s).twi = s.twi := rfl
@[simp] theorem modRtc_wdt (f : Rtc → Rtc) (s : State) : (modRtc f s).wdt = s.wdt := rfl
@[simp] theorem modRtc_thm (f : Rtc → Rtc) (s : State) : (modRtc f s).thm = s.thm := rfl
@[simp] theorem modRtc_intc (f : Rtc → Rtc) (s : State) : (modRtc f s).intc = s.intc := rfl
@[simp] theorem modRtc_nvm (f : Rtc → Rtc) (s : State) : (modRtc f s).nvm = s.nvm := rfl
@[simp] theorem modRtc_acc (f : Rtc → Rtc) (s : State) : (modRtc f s).acc = s.acc := rfl
@[simp] theorem modRtc_fab (f : Rtc → Rtc) (s : State) : (modRtc f s).fab = s.fab := rfl
@[simp] theorem modRtc_shadow (f : Rtc → Rtc) (s : State) : (modRtc f s).shadow = s.shadow := rfl
@[simp] theorem modRtc_out (f : Rtc → Rtc) (s : State) : (modRtc f s).out = s.out := rfl
@[simp] theorem modRtc_free (f : Rtc → Rtc) (s : State) : (modRtc f s).free = s.free := rfl
@[simp] theorem modRtc_pending (f : Rtc → Rtc) (s : State) : (modRtc f s).pending = s.pending := rfl

@[simp] theorem modSaf_mode (f : Island → Island) (s : State) : (modSaf f s).mode = s.mode := rfl
@[simp] theorem modSaf_seq (f : Island → Island) (s : State) : (modSaf f s).seq = s.seq := rfl
@[simp] theorem modSaf_regs (f : Island → Island) (s : State) : (modSaf f s).regs = s.regs := rfl
@[simp] theorem modSaf_tb (f : Island → Island) (s : State) : (modSaf f s).tb = s.tb := rfl
@[simp] theorem modSaf_ph (f : Island → Island) (s : State) : (modSaf f s).ph = s.ph := rfl
@[simp] theorem modSaf_gal (f : Island → Island) (s : State) : (modSaf f s).gal = s.gal := rfl
@[simp] theorem modSaf_fe (f : Island → Island) (s : State) : (modSaf f s).fe = s.fe := rfl
@[simp] theorem modSaf_ch (f : Island → Island) (s : State) : (modSaf f s).ch = s.ch := rfl
@[simp] theorem modSaf_est (f : Island → Island) (s : State) : (modSaf f s).est = s.est := rfl
@[simp] theorem modSaf_rcp (f : Island → Island) (s : State) : (modSaf f s).rcp = s.rcp := rfl
@[simp] theorem modSaf_sump (f : Island → Island) (s : State) : (modSaf f s).sump = s.sump := rfl
@[simp] theorem modSaf_link (f : Island → Island) (s : State) : (modSaf f s).link = s.link := rfl
@[simp] theorem modSaf_ring (f : Island → Island) (s : State) : (modSaf f s).ring = s.ring := rfl
@[simp] theorem modSaf_sqz (f : Island → Island) (s : State) : (modSaf f s).sqz = s.sqz := rfl
@[simp] theorem modSaf_ldr (f : Island → Island) (s : State) : (modSaf f s).ldr = s.ldr := rfl
@[simp] theorem modSaf_twi (f : Island → Island) (s : State) : (modSaf f s).twi = s.twi := rfl
@[simp] theorem modSaf_rtc (f : Island → Island) (s : State) : (modSaf f s).rtc = s.rtc := rfl
@[simp] theorem modSaf_wdt (f : Island → Island) (s : State) : (modSaf f s).wdt = s.wdt := rfl
@[simp] theorem modSaf_thm (f : Island → Island) (s : State) : (modSaf f s).thm = s.thm := rfl
@[simp] theorem modSaf_intc (f : Island → Island) (s : State) : (modSaf f s).intc = s.intc := rfl
@[simp] theorem modSaf_nvm (f : Island → Island) (s : State) : (modSaf f s).nvm = s.nvm := rfl
@[simp] theorem modSaf_acc (f : Island → Island) (s : State) : (modSaf f s).acc = s.acc := rfl
@[simp] theorem modSaf_fab (f : Island → Island) (s : State) : (modSaf f s).fab = s.fab := rfl
@[simp] theorem modSaf_shadow (f : Island → Island) (s : State) : (modSaf f s).shadow = s.shadow := rfl
@[simp] theorem modSaf_out (f : Island → Island) (s : State) : (modSaf f s).out = s.out := rfl
@[simp] theorem modSaf_free (f : Island → Island) (s : State) : (modSaf f s).free = s.free := rfl
@[simp] theorem modSaf_pending (f : Island → Island) (s : State) : (modSaf f s).pending = s.pending := rfl

@[simp] theorem modSeq_mode (f : Seq → Seq) (s : State) : (modSeq f s).mode = s.mode := rfl
@[simp] theorem modSeq_regs (f : Seq → Seq) (s : State) : (modSeq f s).regs = s.regs := rfl
@[simp] theorem modSeq_tb (f : Seq → Seq) (s : State) : (modSeq f s).tb = s.tb := rfl
@[simp] theorem modSeq_ph (f : Seq → Seq) (s : State) : (modSeq f s).ph = s.ph := rfl
@[simp] theorem modSeq_gal (f : Seq → Seq) (s : State) : (modSeq f s).gal = s.gal := rfl
@[simp] theorem modSeq_fe (f : Seq → Seq) (s : State) : (modSeq f s).fe = s.fe := rfl
@[simp] theorem modSeq_ch (f : Seq → Seq) (s : State) : (modSeq f s).ch = s.ch := rfl
@[simp] theorem modSeq_est (f : Seq → Seq) (s : State) : (modSeq f s).est = s.est := rfl
@[simp] theorem modSeq_rcp (f : Seq → Seq) (s : State) : (modSeq f s).rcp = s.rcp := rfl
@[simp] theorem modSeq_sump (f : Seq → Seq) (s : State) : (modSeq f s).sump = s.sump := rfl
@[simp] theorem modSeq_link (f : Seq → Seq) (s : State) : (modSeq f s).link = s.link := rfl
@[simp] theorem modSeq_ring (f : Seq → Seq) (s : State) : (modSeq f s).ring = s.ring := rfl
@[simp] theorem modSeq_sqz (f : Seq → Seq) (s : State) : (modSeq f s).sqz = s.sqz := rfl
@[simp] theorem modSeq_saf (f : Seq → Seq) (s : State) : (modSeq f s).saf = s.saf := rfl
@[simp] theorem modSeq_ldr (f : Seq → Seq) (s : State) : (modSeq f s).ldr = s.ldr := rfl
@[simp] theorem modSeq_twi (f : Seq → Seq) (s : State) : (modSeq f s).twi = s.twi := rfl
@[simp] theorem modSeq_rtc (f : Seq → Seq) (s : State) : (modSeq f s).rtc = s.rtc := rfl
@[simp] theorem modSeq_wdt (f : Seq → Seq) (s : State) : (modSeq f s).wdt = s.wdt := rfl
@[simp] theorem modSeq_thm (f : Seq → Seq) (s : State) : (modSeq f s).thm = s.thm := rfl
@[simp] theorem modSeq_intc (f : Seq → Seq) (s : State) : (modSeq f s).intc = s.intc := rfl
@[simp] theorem modSeq_nvm (f : Seq → Seq) (s : State) : (modSeq f s).nvm = s.nvm := rfl
@[simp] theorem modSeq_acc (f : Seq → Seq) (s : State) : (modSeq f s).acc = s.acc := rfl
@[simp] theorem modSeq_fab (f : Seq → Seq) (s : State) : (modSeq f s).fab = s.fab := rfl
@[simp] theorem modSeq_shadow (f : Seq → Seq) (s : State) : (modSeq f s).shadow = s.shadow := rfl
@[simp] theorem modSeq_out (f : Seq → Seq) (s : State) : (modSeq f s).out = s.out := rfl
@[simp] theorem modSeq_free (f : Seq → Seq) (s : State) : (modSeq f s).free = s.free := rfl
@[simp] theorem modSeq_pending (f : Seq → Seq) (s : State) : (modSeq f s).pending = s.pending := rfl

@[simp] theorem modSess_mode (a0 : Nat) (f : Session → Session) (s : State) : (modSess a0 f s).mode = s.mode := rfl
@[simp] theorem modSess_seq (a0 : Nat) (f : Session → Session) (s : State) : (modSess a0 f s).seq = s.seq := rfl
@[simp] theorem modSess_regs (a0 : Nat) (f : Session → Session) (s : State) : (modSess a0 f s).regs = s.regs := rfl
@[simp] theorem modSess_tb (a0 : Nat) (f : Session → Session) (s : State) : (modSess a0 f s).tb = s.tb := rfl
@[simp] theorem modSess_ph (a0 : Nat) (f : Session → Session) (s : State) : (modSess a0 f s).ph = s.ph := rfl
@[simp] theorem modSess_gal (a0 : Nat) (f : Session → Session) (s : State) : (modSess a0 f s).gal = s.gal := rfl
@[simp] theorem modSess_fe (a0 : Nat) (f : Session → Session) (s : State) : (modSess a0 f s).fe = s.fe := rfl
@[simp] theorem modSess_ch (a0 : Nat) (f : Session → Session) (s : State) : (modSess a0 f s).ch = s.ch := rfl
@[simp] theorem modSess_est (a0 : Nat) (f : Session → Session) (s : State) : (modSess a0 f s).est = s.est := rfl
@[simp] theorem modSess_rcp (a0 : Nat) (f : Session → Session) (s : State) : (modSess a0 f s).rcp = s.rcp := rfl
@[simp] theorem modSess_sump (a0 : Nat) (f : Session → Session) (s : State) : (modSess a0 f s).sump = s.sump := rfl
@[simp] theorem modSess_ring (a0 : Nat) (f : Session → Session) (s : State) : (modSess a0 f s).ring = s.ring := rfl
@[simp] theorem modSess_sqz (a0 : Nat) (f : Session → Session) (s : State) : (modSess a0 f s).sqz = s.sqz := rfl
@[simp] theorem modSess_saf (a0 : Nat) (f : Session → Session) (s : State) : (modSess a0 f s).saf = s.saf := rfl
@[simp] theorem modSess_ldr (a0 : Nat) (f : Session → Session) (s : State) : (modSess a0 f s).ldr = s.ldr := rfl
@[simp] theorem modSess_twi (a0 : Nat) (f : Session → Session) (s : State) : (modSess a0 f s).twi = s.twi := rfl
@[simp] theorem modSess_rtc (a0 : Nat) (f : Session → Session) (s : State) : (modSess a0 f s).rtc = s.rtc := rfl
@[simp] theorem modSess_wdt (a0 : Nat) (f : Session → Session) (s : State) : (modSess a0 f s).wdt = s.wdt := rfl
@[simp] theorem modSess_thm (a0 : Nat) (f : Session → Session) (s : State) : (modSess a0 f s).thm = s.thm := rfl
@[simp] theorem modSess_intc (a0 : Nat) (f : Session → Session) (s : State) : (modSess a0 f s).intc = s.intc := rfl
@[simp] theorem modSess_nvm (a0 : Nat) (f : Session → Session) (s : State) : (modSess a0 f s).nvm = s.nvm := rfl
@[simp] theorem modSess_acc (a0 : Nat) (f : Session → Session) (s : State) : (modSess a0 f s).acc = s.acc := rfl
@[simp] theorem modSess_fab (a0 : Nat) (f : Session → Session) (s : State) : (modSess a0 f s).fab = s.fab := rfl
@[simp] theorem modSess_shadow (a0 : Nat) (f : Session → Session) (s : State) : (modSess a0 f s).shadow = s.shadow := rfl
@[simp] theorem modSess_out (a0 : Nat) (f : Session → Session) (s : State) : (modSess a0 f s).out = s.out := rfl
@[simp] theorem modSess_free (a0 : Nat) (f : Session → Session) (s : State) : (modSess a0 f s).free = s.free := rfl
@[simp] theorem modSess_pending (a0 : Nat) (f : Session → Session) (s : State) : (modSess a0 f s).pending = s.pending := rfl

@[simp] theorem modShad_mode (a0 : Path) (f : Shadow → Shadow) (s : State) : (modShad a0 f s).mode = s.mode := rfl
@[simp] theorem modShad_seq (a0 : Path) (f : Shadow → Shadow) (s : State) : (modShad a0 f s).seq = s.seq := rfl
@[simp] theorem modShad_regs (a0 : Path) (f : Shadow → Shadow) (s : State) : (modShad a0 f s).regs = s.regs := rfl
@[simp] theorem modShad_tb (a0 : Path) (f : Shadow → Shadow) (s : State) : (modShad a0 f s).tb = s.tb := rfl
@[simp] theorem modShad_ph (a0 : Path) (f : Shadow → Shadow) (s : State) : (modShad a0 f s).ph = s.ph := rfl
@[simp] theorem modShad_gal (a0 : Path) (f : Shadow → Shadow) (s : State) : (modShad a0 f s).gal = s.gal := rfl
@[simp] theorem modShad_fe (a0 : Path) (f : Shadow → Shadow) (s : State) : (modShad a0 f s).fe = s.fe := rfl
@[simp] theorem modShad_ch (a0 : Path) (f : Shadow → Shadow) (s : State) : (modShad a0 f s).ch = s.ch := rfl
@[simp] theorem modShad_est (a0 : Path) (f : Shadow → Shadow) (s : State) : (modShad a0 f s).est = s.est := rfl
@[simp] theorem modShad_rcp (a0 : Path) (f : Shadow → Shadow) (s : State) : (modShad a0 f s).rcp = s.rcp := rfl
@[simp] theorem modShad_sump (a0 : Path) (f : Shadow → Shadow) (s : State) : (modShad a0 f s).sump = s.sump := rfl
@[simp] theorem modShad_link (a0 : Path) (f : Shadow → Shadow) (s : State) : (modShad a0 f s).link = s.link := rfl
@[simp] theorem modShad_ring (a0 : Path) (f : Shadow → Shadow) (s : State) : (modShad a0 f s).ring = s.ring := rfl
@[simp] theorem modShad_sqz (a0 : Path) (f : Shadow → Shadow) (s : State) : (modShad a0 f s).sqz = s.sqz := rfl
@[simp] theorem modShad_saf (a0 : Path) (f : Shadow → Shadow) (s : State) : (modShad a0 f s).saf = s.saf := rfl
@[simp] theorem modShad_ldr (a0 : Path) (f : Shadow → Shadow) (s : State) : (modShad a0 f s).ldr = s.ldr := rfl
@[simp] theorem modShad_twi (a0 : Path) (f : Shadow → Shadow) (s : State) : (modShad a0 f s).twi = s.twi := rfl
@[simp] theorem modShad_rtc (a0 : Path) (f : Shadow → Shadow) (s : State) : (modShad a0 f s).rtc = s.rtc := rfl
@[simp] theorem modShad_wdt (a0 : Path) (f : Shadow → Shadow) (s : State) : (modShad a0 f s).wdt = s.wdt := rfl
@[simp] theorem modShad_thm (a0 : Path) (f : Shadow → Shadow) (s : State) : (modShad a0 f s).thm = s.thm := rfl
@[simp] theorem modShad_intc (a0 : Path) (f : Shadow → Shadow) (s : State) : (modShad a0 f s).intc = s.intc := rfl
@[simp] theorem modShad_nvm (a0 : Path) (f : Shadow → Shadow) (s : State) : (modShad a0 f s).nvm = s.nvm := rfl
@[simp] theorem modShad_acc (a0 : Path) (f : Shadow → Shadow) (s : State) : (modShad a0 f s).acc = s.acc := rfl
@[simp] theorem modShad_fab (a0 : Path) (f : Shadow → Shadow) (s : State) : (modShad a0 f s).fab = s.fab := rfl
@[simp] theorem modShad_out (a0 : Path) (f : Shadow → Shadow) (s : State) : (modShad a0 f s).out = s.out := rfl
@[simp] theorem modShad_free (a0 : Path) (f : Shadow → Shadow) (s : State) : (modShad a0 f s).free = s.free := rfl
@[simp] theorem modShad_pending (a0 : Path) (f : Shadow → Shadow) (s : State) : (modShad a0 f s).pending = s.pending := rfl

@[simp] theorem modSlot_mode (a0 : Nat) (f : WdtSlot → WdtSlot) (s : State) : (modSlot a0 f s).mode = s.mode := rfl
@[simp] theorem modSlot_seq (a0 : Nat) (f : WdtSlot → WdtSlot) (s : State) : (modSlot a0 f s).seq = s.seq := rfl
@[simp] theorem modSlot_regs (a0 : Nat) (f : WdtSlot → WdtSlot) (s : State) : (modSlot a0 f s).regs = s.regs := rfl
@[simp] theorem modSlot_tb (a0 : Nat) (f : WdtSlot → WdtSlot) (s : State) : (modSlot a0 f s).tb = s.tb := rfl
@[simp] theorem modSlot_ph (a0 : Nat) (f : WdtSlot → WdtSlot) (s : State) : (modSlot a0 f s).ph = s.ph := rfl
@[simp] theorem modSlot_gal (a0 : Nat) (f : WdtSlot → WdtSlot) (s : State) : (modSlot a0 f s).gal = s.gal := rfl
@[simp] theorem modSlot_fe (a0 : Nat) (f : WdtSlot → WdtSlot) (s : State) : (modSlot a0 f s).fe = s.fe := rfl
@[simp] theorem modSlot_ch (a0 : Nat) (f : WdtSlot → WdtSlot) (s : State) : (modSlot a0 f s).ch = s.ch := rfl
@[simp] theorem modSlot_est (a0 : Nat) (f : WdtSlot → WdtSlot) (s : State) : (modSlot a0 f s).est = s.est := rfl
@[simp] theorem modSlot_rcp (a0 : Nat) (f : WdtSlot → WdtSlot) (s : State) : (modSlot a0 f s).rcp = s.rcp := rfl
@[simp] theorem modSlot_sump (a0 : Nat) (f : WdtSlot → WdtSlot) (s : State) : (modSlot a0 f s).sump = s.sump := rfl
@[simp] theorem modSlot_link (a0 : Nat) (f : WdtSlot → WdtSlot) (s : State) : (modSlot a0 f s).link = s.link := rfl
@[simp] theorem modSlot_ring (a0 : Nat) (f : WdtSlot → WdtSlot) (s : State) : (modSlot a0 f s).ring = s.ring := rfl
@[simp] theorem modSlot_sqz (a0 : Nat) (f : WdtSlot → WdtSlot) (s : State) : (modSlot a0 f s).sqz = s.sqz := rfl
@[simp] theorem modSlot_saf (a0 : Nat) (f : WdtSlot → WdtSlot) (s : State) : (modSlot a0 f s).saf = s.saf := rfl
@[simp] theorem modSlot_ldr (a0 : Nat) (f : WdtSlot → WdtSlot) (s : State) : (modSlot a0 f s).ldr = s.ldr := rfl
@[simp] theorem modSlot_twi (a0 : Nat) (f : WdtSlot → WdtSlot) (s : State) : (modSlot a0 f s).twi = s.twi := rfl
@[simp] theorem modSlot_rtc (a0 : Nat) (f : WdtSlot → WdtSlot) (s : State) : (modSlot a0 f s).rtc = s.rtc := rfl
@[simp] theorem modSlot_thm (a0 : Nat) (f : WdtSlot → WdtSlot) (s : State) : (modSlot a0 f s).thm = s.thm := rfl
@[simp] theorem modSlot_intc (a0 : Nat) (f : WdtSlot → WdtSlot) (s : State) : (modSlot a0 f s).intc = s.intc := rfl
@[simp] theorem modSlot_nvm (a0 : Nat) (f : WdtSlot → WdtSlot) (s : State) : (modSlot a0 f s).nvm = s.nvm := rfl
@[simp] theorem modSlot_acc (a0 : Nat) (f : WdtSlot → WdtSlot) (s : State) : (modSlot a0 f s).acc = s.acc := rfl
@[simp] theorem modSlot_fab (a0 : Nat) (f : WdtSlot → WdtSlot) (s : State) : (modSlot a0 f s).fab = s.fab := rfl
@[simp] theorem modSlot_shadow (a0 : Nat) (f : WdtSlot → WdtSlot) (s : State) : (modSlot a0 f s).shadow = s.shadow := rfl
@[simp] theorem modSlot_out (a0 : Nat) (f : WdtSlot → WdtSlot) (s : State) : (modSlot a0 f s).out = s.out := rfl
@[simp] theorem modSlot_free (a0 : Nat) (f : WdtSlot → WdtSlot) (s : State) : (modSlot a0 f s).free = s.free := rfl
@[simp] theorem modSlot_pending (a0 : Nat) (f : WdtSlot → WdtSlot) (s : State) : (modSlot a0 f s).pending = s.pending := rfl

@[simp] theorem modSqz_mode (a0 : Nat) (f : Sqz → Sqz) (s : State) : (modSqz a0 f s).mode = s.mode := rfl
@[simp] theorem modSqz_seq (a0 : Nat) (f : Sqz → Sqz) (s : State) : (modSqz a0 f s).seq = s.seq := rfl
@[simp] theorem modSqz_regs (a0 : Nat) (f : Sqz → Sqz) (s : State) : (modSqz a0 f s).regs = s.regs := rfl
@[simp] theorem modSqz_tb (a0 : Nat) (f : Sqz → Sqz) (s : State) : (modSqz a0 f s).tb = s.tb := rfl
@[simp] theorem modSqz_ph (a0 : Nat) (f : Sqz → Sqz) (s : State) : (modSqz a0 f s).ph = s.ph := rfl
@[simp] theorem modSqz_gal (a0 : Nat) (f : Sqz → Sqz) (s : State) : (modSqz a0 f s).gal = s.gal := rfl
@[simp] theorem modSqz_fe (a0 : Nat) (f : Sqz → Sqz) (s : State) : (modSqz a0 f s).fe = s.fe := rfl
@[simp] theorem modSqz_ch (a0 : Nat) (f : Sqz → Sqz) (s : State) : (modSqz a0 f s).ch = s.ch := rfl
@[simp] theorem modSqz_est (a0 : Nat) (f : Sqz → Sqz) (s : State) : (modSqz a0 f s).est = s.est := rfl
@[simp] theorem modSqz_rcp (a0 : Nat) (f : Sqz → Sqz) (s : State) : (modSqz a0 f s).rcp = s.rcp := rfl
@[simp] theorem modSqz_sump (a0 : Nat) (f : Sqz → Sqz) (s : State) : (modSqz a0 f s).sump = s.sump := rfl
@[simp] theorem modSqz_link (a0 : Nat) (f : Sqz → Sqz) (s : State) : (modSqz a0 f s).link = s.link := rfl
@[simp] theorem modSqz_ring (a0 : Nat) (f : Sqz → Sqz) (s : State) : (modSqz a0 f s).ring = s.ring := rfl
@[simp] theorem modSqz_saf (a0 : Nat) (f : Sqz → Sqz) (s : State) : (modSqz a0 f s).saf = s.saf := rfl
@[simp] theorem modSqz_ldr (a0 : Nat) (f : Sqz → Sqz) (s : State) : (modSqz a0 f s).ldr = s.ldr := rfl
@[simp] theorem modSqz_twi (a0 : Nat) (f : Sqz → Sqz) (s : State) : (modSqz a0 f s).twi = s.twi := rfl
@[simp] theorem modSqz_rtc (a0 : Nat) (f : Sqz → Sqz) (s : State) : (modSqz a0 f s).rtc = s.rtc := rfl
@[simp] theorem modSqz_wdt (a0 : Nat) (f : Sqz → Sqz) (s : State) : (modSqz a0 f s).wdt = s.wdt := rfl
@[simp] theorem modSqz_thm (a0 : Nat) (f : Sqz → Sqz) (s : State) : (modSqz a0 f s).thm = s.thm := rfl
@[simp] theorem modSqz_intc (a0 : Nat) (f : Sqz → Sqz) (s : State) : (modSqz a0 f s).intc = s.intc := rfl
@[simp] theorem modSqz_nvm (a0 : Nat) (f : Sqz → Sqz) (s : State) : (modSqz a0 f s).nvm = s.nvm := rfl
@[simp] theorem modSqz_acc (a0 : Nat) (f : Sqz → Sqz) (s : State) : (modSqz a0 f s).acc = s.acc := rfl
@[simp] theorem modSqz_fab (a0 : Nat) (f : Sqz → Sqz) (s : State) : (modSqz a0 f s).fab = s.fab := rfl
@[simp] theorem modSqz_shadow (a0 : Nat) (f : Sqz → Sqz) (s : State) : (modSqz a0 f s).shadow = s.shadow := rfl
@[simp] theorem modSqz_out (a0 : Nat) (f : Sqz → Sqz) (s : State) : (modSqz a0 f s).out = s.out := rfl
@[simp] theorem modSqz_free (a0 : Nat) (f : Sqz → Sqz) (s : State) : (modSqz a0 f s).free = s.free := rfl
@[simp] theorem modSqz_pending (a0 : Nat) (f : Sqz → Sqz) (s : State) : (modSqz a0 f s).pending = s.pending := rfl

@[simp] theorem modSump_mode (f : Sump → Sump) (s : State) : (modSump f s).mode = s.mode := rfl
@[simp] theorem modSump_seq (f : Sump → Sump) (s : State) : (modSump f s).seq = s.seq := rfl
@[simp] theorem modSump_regs (f : Sump → Sump) (s : State) : (modSump f s).regs = s.regs := rfl
@[simp] theorem modSump_tb (f : Sump → Sump) (s : State) : (modSump f s).tb = s.tb := rfl
@[simp] theorem modSump_ph (f : Sump → Sump) (s : State) : (modSump f s).ph = s.ph := rfl
@[simp] theorem modSump_gal (f : Sump → Sump) (s : State) : (modSump f s).gal = s.gal := rfl
@[simp] theorem modSump_fe (f : Sump → Sump) (s : State) : (modSump f s).fe = s.fe := rfl
@[simp] theorem modSump_ch (f : Sump → Sump) (s : State) : (modSump f s).ch = s.ch := rfl
@[simp] theorem modSump_est (f : Sump → Sump) (s : State) : (modSump f s).est = s.est := rfl
@[simp] theorem modSump_rcp (f : Sump → Sump) (s : State) : (modSump f s).rcp = s.rcp := rfl
@[simp] theorem modSump_link (f : Sump → Sump) (s : State) : (modSump f s).link = s.link := rfl
@[simp] theorem modSump_ring (f : Sump → Sump) (s : State) : (modSump f s).ring = s.ring := rfl
@[simp] theorem modSump_sqz (f : Sump → Sump) (s : State) : (modSump f s).sqz = s.sqz := rfl
@[simp] theorem modSump_saf (f : Sump → Sump) (s : State) : (modSump f s).saf = s.saf := rfl
@[simp] theorem modSump_ldr (f : Sump → Sump) (s : State) : (modSump f s).ldr = s.ldr := rfl
@[simp] theorem modSump_twi (f : Sump → Sump) (s : State) : (modSump f s).twi = s.twi := rfl
@[simp] theorem modSump_rtc (f : Sump → Sump) (s : State) : (modSump f s).rtc = s.rtc := rfl
@[simp] theorem modSump_wdt (f : Sump → Sump) (s : State) : (modSump f s).wdt = s.wdt := rfl
@[simp] theorem modSump_thm (f : Sump → Sump) (s : State) : (modSump f s).thm = s.thm := rfl
@[simp] theorem modSump_intc (f : Sump → Sump) (s : State) : (modSump f s).intc = s.intc := rfl
@[simp] theorem modSump_nvm (f : Sump → Sump) (s : State) : (modSump f s).nvm = s.nvm := rfl
@[simp] theorem modSump_acc (f : Sump → Sump) (s : State) : (modSump f s).acc = s.acc := rfl
@[simp] theorem modSump_fab (f : Sump → Sump) (s : State) : (modSump f s).fab = s.fab := rfl
@[simp] theorem modSump_shadow (f : Sump → Sump) (s : State) : (modSump f s).shadow = s.shadow := rfl
@[simp] theorem modSump_out (f : Sump → Sump) (s : State) : (modSump f s).out = s.out := rfl
@[simp] theorem modSump_free (f : Sump → Sump) (s : State) : (modSump f s).free = s.free := rfl
@[simp] theorem modSump_pending (f : Sump → Sump) (s : State) : (modSump f s).pending = s.pending := rfl

@[simp] theorem modTb_mode (f : Timebase → Timebase) (s : State) : (modTb f s).mode = s.mode := rfl
@[simp] theorem modTb_seq (f : Timebase → Timebase) (s : State) : (modTb f s).seq = s.seq := rfl
@[simp] theorem modTb_regs (f : Timebase → Timebase) (s : State) : (modTb f s).regs = s.regs := rfl
@[simp] theorem modTb_ph (f : Timebase → Timebase) (s : State) : (modTb f s).ph = s.ph := rfl
@[simp] theorem modTb_gal (f : Timebase → Timebase) (s : State) : (modTb f s).gal = s.gal := rfl
@[simp] theorem modTb_fe (f : Timebase → Timebase) (s : State) : (modTb f s).fe = s.fe := rfl
@[simp] theorem modTb_ch (f : Timebase → Timebase) (s : State) : (modTb f s).ch = s.ch := rfl
@[simp] theorem modTb_est (f : Timebase → Timebase) (s : State) : (modTb f s).est = s.est := rfl
@[simp] theorem modTb_rcp (f : Timebase → Timebase) (s : State) : (modTb f s).rcp = s.rcp := rfl
@[simp] theorem modTb_sump (f : Timebase → Timebase) (s : State) : (modTb f s).sump = s.sump := rfl
@[simp] theorem modTb_link (f : Timebase → Timebase) (s : State) : (modTb f s).link = s.link := rfl
@[simp] theorem modTb_ring (f : Timebase → Timebase) (s : State) : (modTb f s).ring = s.ring := rfl
@[simp] theorem modTb_sqz (f : Timebase → Timebase) (s : State) : (modTb f s).sqz = s.sqz := rfl
@[simp] theorem modTb_saf (f : Timebase → Timebase) (s : State) : (modTb f s).saf = s.saf := rfl
@[simp] theorem modTb_ldr (f : Timebase → Timebase) (s : State) : (modTb f s).ldr = s.ldr := rfl
@[simp] theorem modTb_twi (f : Timebase → Timebase) (s : State) : (modTb f s).twi = s.twi := rfl
@[simp] theorem modTb_rtc (f : Timebase → Timebase) (s : State) : (modTb f s).rtc = s.rtc := rfl
@[simp] theorem modTb_wdt (f : Timebase → Timebase) (s : State) : (modTb f s).wdt = s.wdt := rfl
@[simp] theorem modTb_thm (f : Timebase → Timebase) (s : State) : (modTb f s).thm = s.thm := rfl
@[simp] theorem modTb_intc (f : Timebase → Timebase) (s : State) : (modTb f s).intc = s.intc := rfl
@[simp] theorem modTb_nvm (f : Timebase → Timebase) (s : State) : (modTb f s).nvm = s.nvm := rfl
@[simp] theorem modTb_acc (f : Timebase → Timebase) (s : State) : (modTb f s).acc = s.acc := rfl
@[simp] theorem modTb_fab (f : Timebase → Timebase) (s : State) : (modTb f s).fab = s.fab := rfl
@[simp] theorem modTb_shadow (f : Timebase → Timebase) (s : State) : (modTb f s).shadow = s.shadow := rfl
@[simp] theorem modTb_out (f : Timebase → Timebase) (s : State) : (modTb f s).out = s.out := rfl
@[simp] theorem modTb_free (f : Timebase → Timebase) (s : State) : (modTb f s).free = s.free := rfl
@[simp] theorem modTb_pending (f : Timebase → Timebase) (s : State) : (modTb f s).pending = s.pending := rfl

@[simp] theorem modTc_mode (a0 : Nat) (f : TcEnt → TcEnt) (s : State) : (modTc a0 f s).mode = s.mode := rfl
@[simp] theorem modTc_seq (a0 : Nat) (f : TcEnt → TcEnt) (s : State) : (modTc a0 f s).seq = s.seq := rfl
@[simp] theorem modTc_regs (a0 : Nat) (f : TcEnt → TcEnt) (s : State) : (modTc a0 f s).regs = s.regs := rfl
@[simp] theorem modTc_ph (a0 : Nat) (f : TcEnt → TcEnt) (s : State) : (modTc a0 f s).ph = s.ph := rfl
@[simp] theorem modTc_gal (a0 : Nat) (f : TcEnt → TcEnt) (s : State) : (modTc a0 f s).gal = s.gal := rfl
@[simp] theorem modTc_fe (a0 : Nat) (f : TcEnt → TcEnt) (s : State) : (modTc a0 f s).fe = s.fe := rfl
@[simp] theorem modTc_ch (a0 : Nat) (f : TcEnt → TcEnt) (s : State) : (modTc a0 f s).ch = s.ch := rfl
@[simp] theorem modTc_est (a0 : Nat) (f : TcEnt → TcEnt) (s : State) : (modTc a0 f s).est = s.est := rfl
@[simp] theorem modTc_rcp (a0 : Nat) (f : TcEnt → TcEnt) (s : State) : (modTc a0 f s).rcp = s.rcp := rfl
@[simp] theorem modTc_sump (a0 : Nat) (f : TcEnt → TcEnt) (s : State) : (modTc a0 f s).sump = s.sump := rfl
@[simp] theorem modTc_link (a0 : Nat) (f : TcEnt → TcEnt) (s : State) : (modTc a0 f s).link = s.link := rfl
@[simp] theorem modTc_ring (a0 : Nat) (f : TcEnt → TcEnt) (s : State) : (modTc a0 f s).ring = s.ring := rfl
@[simp] theorem modTc_sqz (a0 : Nat) (f : TcEnt → TcEnt) (s : State) : (modTc a0 f s).sqz = s.sqz := rfl
@[simp] theorem modTc_saf (a0 : Nat) (f : TcEnt → TcEnt) (s : State) : (modTc a0 f s).saf = s.saf := rfl
@[simp] theorem modTc_ldr (a0 : Nat) (f : TcEnt → TcEnt) (s : State) : (modTc a0 f s).ldr = s.ldr := rfl
@[simp] theorem modTc_twi (a0 : Nat) (f : TcEnt → TcEnt) (s : State) : (modTc a0 f s).twi = s.twi := rfl
@[simp] theorem modTc_rtc (a0 : Nat) (f : TcEnt → TcEnt) (s : State) : (modTc a0 f s).rtc = s.rtc := rfl
@[simp] theorem modTc_wdt (a0 : Nat) (f : TcEnt → TcEnt) (s : State) : (modTc a0 f s).wdt = s.wdt := rfl
@[simp] theorem modTc_thm (a0 : Nat) (f : TcEnt → TcEnt) (s : State) : (modTc a0 f s).thm = s.thm := rfl
@[simp] theorem modTc_intc (a0 : Nat) (f : TcEnt → TcEnt) (s : State) : (modTc a0 f s).intc = s.intc := rfl
@[simp] theorem modTc_nvm (a0 : Nat) (f : TcEnt → TcEnt) (s : State) : (modTc a0 f s).nvm = s.nvm := rfl
@[simp] theorem modTc_acc (a0 : Nat) (f : TcEnt → TcEnt) (s : State) : (modTc a0 f s).acc = s.acc := rfl
@[simp] theorem modTc_fab (a0 : Nat) (f : TcEnt → TcEnt) (s : State) : (modTc a0 f s).fab = s.fab := rfl
@[simp] theorem modTc_shadow (a0 : Nat) (f : TcEnt → TcEnt) (s : State) : (modTc a0 f s).shadow = s.shadow := rfl
@[simp] theorem modTc_out (a0 : Nat) (f : TcEnt → TcEnt) (s : State) : (modTc a0 f s).out = s.out := rfl
@[simp] theorem modTc_free (a0 : Nat) (f : TcEnt → TcEnt) (s : State) : (modTc a0 f s).free = s.free := rfl
@[simp] theorem modTc_pending (a0 : Nat) (f : TcEnt → TcEnt) (s : State) : (modTc a0 f s).pending = s.pending := rfl

@[simp] theorem modTold_mode (a0 : Nat) (f : Told → Told) (s : State) : (modTold a0 f s).mode = s.mode := rfl
@[simp] theorem modTold_seq (a0 : Nat) (f : Told → Told) (s : State) : (modTold a0 f s).seq = s.seq := rfl
@[simp] theorem modTold_regs (a0 : Nat) (f : Told → Told) (s : State) : (modTold a0 f s).regs = s.regs := rfl
@[simp] theorem modTold_tb (a0 : Nat) (f : Told → Told) (s : State) : (modTold a0 f s).tb = s.tb := rfl
@[simp] theorem modTold_ph (a0 : Nat) (f : Told → Told) (s : State) : (modTold a0 f s).ph = s.ph := rfl
@[simp] theorem modTold_gal (a0 : Nat) (f : Told → Told) (s : State) : (modTold a0 f s).gal = s.gal := rfl
@[simp] theorem modTold_fe (a0 : Nat) (f : Told → Told) (s : State) : (modTold a0 f s).fe = s.fe := rfl
@[simp] theorem modTold_ch (a0 : Nat) (f : Told → Told) (s : State) : (modTold a0 f s).ch = s.ch := rfl
@[simp] theorem modTold_est (a0 : Nat) (f : Told → Told) (s : State) : (modTold a0 f s).est = s.est := rfl
@[simp] theorem modTold_rcp (a0 : Nat) (f : Told → Told) (s : State) : (modTold a0 f s).rcp = s.rcp := rfl
@[simp] theorem modTold_sump (a0 : Nat) (f : Told → Told) (s : State) : (modTold a0 f s).sump = s.sump := rfl
@[simp] theorem modTold_link (a0 : Nat) (f : Told → Told) (s : State) : (modTold a0 f s).link = s.link := rfl
@[simp] theorem modTold_ring (a0 : Nat) (f : Told → Told) (s : State) : (modTold a0 f s).ring = s.ring := rfl
@[simp] theorem modTold_sqz (a0 : Nat) (f : Told → Told) (s : State) : (modTold a0 f s).sqz = s.sqz := rfl
@[simp] theorem modTold_saf (a0 : Nat) (f : Told → Told) (s : State) : (modTold a0 f s).saf = s.saf := rfl
@[simp] theorem modTold_ldr (a0 : Nat) (f : Told → Told) (s : State) : (modTold a0 f s).ldr = s.ldr := rfl
@[simp] theorem modTold_twi (a0 : Nat) (f : Told → Told) (s : State) : (modTold a0 f s).twi = s.twi := rfl
@[simp] theorem modTold_rtc (a0 : Nat) (f : Told → Told) (s : State) : (modTold a0 f s).rtc = s.rtc := rfl
@[simp] theorem modTold_wdt (a0 : Nat) (f : Told → Told) (s : State) : (modTold a0 f s).wdt = s.wdt := rfl
@[simp] theorem modTold_intc (a0 : Nat) (f : Told → Told) (s : State) : (modTold a0 f s).intc = s.intc := rfl
@[simp] theorem modTold_nvm (a0 : Nat) (f : Told → Told) (s : State) : (modTold a0 f s).nvm = s.nvm := rfl
@[simp] theorem modTold_acc (a0 : Nat) (f : Told → Told) (s : State) : (modTold a0 f s).acc = s.acc := rfl
@[simp] theorem modTold_fab (a0 : Nat) (f : Told → Told) (s : State) : (modTold a0 f s).fab = s.fab := rfl
@[simp] theorem modTold_shadow (a0 : Nat) (f : Told → Told) (s : State) : (modTold a0 f s).shadow = s.shadow := rfl
@[simp] theorem modTold_out (a0 : Nat) (f : Told → Told) (s : State) : (modTold a0 f s).out = s.out := rfl
@[simp] theorem modTold_free (a0 : Nat) (f : Told → Told) (s : State) : (modTold a0 f s).free = s.free := rfl
@[simp] theorem modTold_pending (a0 : Nat) (f : Told → Told) (s : State) : (modTold a0 f s).pending = s.pending := rfl

@[simp] theorem modTwi_mode (f : Twi → Twi) (s : State) : (modTwi f s).mode = s.mode := rfl
@[simp] theorem modTwi_seq (f : Twi → Twi) (s : State) : (modTwi f s).seq = s.seq := rfl
@[simp] theorem modTwi_regs (f : Twi → Twi) (s : State) : (modTwi f s).regs = s.regs := rfl
@[simp] theorem modTwi_tb (f : Twi → Twi) (s : State) : (modTwi f s).tb = s.tb := rfl
@[simp] theorem modTwi_ph (f : Twi → Twi) (s : State) : (modTwi f s).ph = s.ph := rfl
@[simp] theorem modTwi_gal (f : Twi → Twi) (s : State) : (modTwi f s).gal = s.gal := rfl
@[simp] theorem modTwi_fe (f : Twi → Twi) (s : State) : (modTwi f s).fe = s.fe := rfl
@[simp] theorem modTwi_ch (f : Twi → Twi) (s : State) : (modTwi f s).ch = s.ch := rfl
@[simp] theorem modTwi_est (f : Twi → Twi) (s : State) : (modTwi f s).est = s.est := rfl
@[simp] theorem modTwi_rcp (f : Twi → Twi) (s : State) : (modTwi f s).rcp = s.rcp := rfl
@[simp] theorem modTwi_sump (f : Twi → Twi) (s : State) : (modTwi f s).sump = s.sump := rfl
@[simp] theorem modTwi_link (f : Twi → Twi) (s : State) : (modTwi f s).link = s.link := rfl
@[simp] theorem modTwi_ring (f : Twi → Twi) (s : State) : (modTwi f s).ring = s.ring := rfl
@[simp] theorem modTwi_sqz (f : Twi → Twi) (s : State) : (modTwi f s).sqz = s.sqz := rfl
@[simp] theorem modTwi_saf (f : Twi → Twi) (s : State) : (modTwi f s).saf = s.saf := rfl
@[simp] theorem modTwi_ldr (f : Twi → Twi) (s : State) : (modTwi f s).ldr = s.ldr := rfl
@[simp] theorem modTwi_rtc (f : Twi → Twi) (s : State) : (modTwi f s).rtc = s.rtc := rfl
@[simp] theorem modTwi_wdt (f : Twi → Twi) (s : State) : (modTwi f s).wdt = s.wdt := rfl
@[simp] theorem modTwi_thm (f : Twi → Twi) (s : State) : (modTwi f s).thm = s.thm := rfl
@[simp] theorem modTwi_intc (f : Twi → Twi) (s : State) : (modTwi f s).intc = s.intc := rfl
@[simp] theorem modTwi_nvm (f : Twi → Twi) (s : State) : (modTwi f s).nvm = s.nvm := rfl
@[simp] theorem modTwi_acc (f : Twi → Twi) (s : State) : (modTwi f s).acc = s.acc := rfl
@[simp] theorem modTwi_fab (f : Twi → Twi) (s : State) : (modTwi f s).fab = s.fab := rfl
@[simp] theorem modTwi_shadow (f : Twi → Twi) (s : State) : (modTwi f s).shadow = s.shadow := rfl
@[simp] theorem modTwi_out (f : Twi → Twi) (s : State) : (modTwi f s).out = s.out := rfl
@[simp] theorem modTwi_free (f : Twi → Twi) (s : State) : (modTwi f s).free = s.free := rfl
@[simp] theorem modTwi_pending (f : Twi → Twi) (s : State) : (modTwi f s).pending = s.pending := rfl

@[simp] theorem modWdt_mode (f : Wdt → Wdt) (s : State) : (modWdt f s).mode = s.mode := rfl
@[simp] theorem modWdt_seq (f : Wdt → Wdt) (s : State) : (modWdt f s).seq = s.seq := rfl
@[simp] theorem modWdt_regs (f : Wdt → Wdt) (s : State) : (modWdt f s).regs = s.regs := rfl
@[simp] theorem modWdt_tb (f : Wdt → Wdt) (s : State) : (modWdt f s).tb = s.tb := rfl
@[simp] theorem modWdt_ph (f : Wdt → Wdt) (s : State) : (modWdt f s).ph = s.ph := rfl
@[simp] theorem modWdt_gal (f : Wdt → Wdt) (s : State) : (modWdt f s).gal = s.gal := rfl
@[simp] theorem modWdt_fe (f : Wdt → Wdt) (s : State) : (modWdt f s).fe = s.fe := rfl
@[simp] theorem modWdt_ch (f : Wdt → Wdt) (s : State) : (modWdt f s).ch = s.ch := rfl
@[simp] theorem modWdt_est (f : Wdt → Wdt) (s : State) : (modWdt f s).est = s.est := rfl
@[simp] theorem modWdt_rcp (f : Wdt → Wdt) (s : State) : (modWdt f s).rcp = s.rcp := rfl
@[simp] theorem modWdt_sump (f : Wdt → Wdt) (s : State) : (modWdt f s).sump = s.sump := rfl
@[simp] theorem modWdt_link (f : Wdt → Wdt) (s : State) : (modWdt f s).link = s.link := rfl
@[simp] theorem modWdt_ring (f : Wdt → Wdt) (s : State) : (modWdt f s).ring = s.ring := rfl
@[simp] theorem modWdt_sqz (f : Wdt → Wdt) (s : State) : (modWdt f s).sqz = s.sqz := rfl
@[simp] theorem modWdt_saf (f : Wdt → Wdt) (s : State) : (modWdt f s).saf = s.saf := rfl
@[simp] theorem modWdt_ldr (f : Wdt → Wdt) (s : State) : (modWdt f s).ldr = s.ldr := rfl
@[simp] theorem modWdt_twi (f : Wdt → Wdt) (s : State) : (modWdt f s).twi = s.twi := rfl
@[simp] theorem modWdt_rtc (f : Wdt → Wdt) (s : State) : (modWdt f s).rtc = s.rtc := rfl
@[simp] theorem modWdt_thm (f : Wdt → Wdt) (s : State) : (modWdt f s).thm = s.thm := rfl
@[simp] theorem modWdt_intc (f : Wdt → Wdt) (s : State) : (modWdt f s).intc = s.intc := rfl
@[simp] theorem modWdt_nvm (f : Wdt → Wdt) (s : State) : (modWdt f s).nvm = s.nvm := rfl
@[simp] theorem modWdt_acc (f : Wdt → Wdt) (s : State) : (modWdt f s).acc = s.acc := rfl
@[simp] theorem modWdt_fab (f : Wdt → Wdt) (s : State) : (modWdt f s).fab = s.fab := rfl
@[simp] theorem modWdt_shadow (f : Wdt → Wdt) (s : State) : (modWdt f s).shadow = s.shadow := rfl
@[simp] theorem modWdt_out (f : Wdt → Wdt) (s : State) : (modWdt f s).out = s.out := rfl
@[simp] theorem modWdt_free (f : Wdt → Wdt) (s : State) : (modWdt f s).free = s.free := rfl
@[simp] theorem modWdt_pending (f : Wdt → Wdt) (s : State) : (modWdt f s).pending = s.pending := rfl

@[simp] theorem pushEvent_mode (a0 : Event) (s : State) : (pushEvent a0 s).mode = s.mode := rfl
@[simp] theorem pushEvent_seq (a0 : Event) (s : State) : (pushEvent a0 s).seq = s.seq := rfl
@[simp] theorem pushEvent_regs (a0 : Event) (s : State) : (pushEvent a0 s).regs = s.regs := rfl
@[simp] theorem pushEvent_tb (a0 : Event) (s : State) : (pushEvent a0 s).tb = s.tb := rfl
@[simp] theorem pushEvent_ph (a0 : Event) (s : State) : (pushEvent a0 s).ph = s.ph := rfl
@[simp] theorem pushEvent_gal (a0 : Event) (s : State) : (pushEvent a0 s).gal = s.gal := rfl
@[simp] theorem pushEvent_fe (a0 : Event) (s : State) : (pushEvent a0 s).fe = s.fe := rfl
@[simp] theorem pushEvent_ch (a0 : Event) (s : State) : (pushEvent a0 s).ch = s.ch := rfl
@[simp] theorem pushEvent_est (a0 : Event) (s : State) : (pushEvent a0 s).est = s.est := rfl
@[simp] theorem pushEvent_rcp (a0 : Event) (s : State) : (pushEvent a0 s).rcp = s.rcp := rfl
@[simp] theorem pushEvent_sump (a0 : Event) (s : State) : (pushEvent a0 s).sump = s.sump := rfl
@[simp] theorem pushEvent_link (a0 : Event) (s : State) : (pushEvent a0 s).link = s.link := rfl
@[simp] theorem pushEvent_ring (a0 : Event) (s : State) : (pushEvent a0 s).ring = s.ring := rfl
@[simp] theorem pushEvent_sqz (a0 : Event) (s : State) : (pushEvent a0 s).sqz = s.sqz := rfl
@[simp] theorem pushEvent_saf (a0 : Event) (s : State) : (pushEvent a0 s).saf = s.saf := rfl
@[simp] theorem pushEvent_ldr (a0 : Event) (s : State) : (pushEvent a0 s).ldr = s.ldr := rfl
@[simp] theorem pushEvent_twi (a0 : Event) (s : State) : (pushEvent a0 s).twi = s.twi := rfl
@[simp] theorem pushEvent_rtc (a0 : Event) (s : State) : (pushEvent a0 s).rtc = s.rtc := rfl
@[simp] theorem pushEvent_wdt (a0 : Event) (s : State) : (pushEvent a0 s).wdt = s.wdt := rfl
@[simp] theorem pushEvent_thm (a0 : Event) (s : State) : (pushEvent a0 s).thm = s.thm := rfl
@[simp] theorem pushEvent_intc (a0 : Event) (s : State) : (pushEvent a0 s).intc = s.intc := rfl
@[simp] theorem pushEvent_nvm (a0 : Event) (s : State) : (pushEvent a0 s).nvm = s.nvm := rfl
@[simp] theorem pushEvent_acc (a0 : Event) (s : State) : (pushEvent a0 s).acc = s.acc := rfl
@[simp] theorem pushEvent_shadow (a0 : Event) (s : State) : (pushEvent a0 s).shadow = s.shadow := rfl
@[simp] theorem pushEvent_out (a0 : Event) (s : State) : (pushEvent a0 s).out = s.out := rfl
@[simp] theorem pushEvent_free (a0 : Event) (s : State) : (pushEvent a0 s).free = s.free := rfl
@[simp] theorem pushEvent_pending (a0 : Event) (s : State) : (pushEvent a0 s).pending = s.pending := rfl

@[simp] theorem raiseSrc_mode (a0 : Producer) (a1 : Nat) (a2 : Nat) (a3 : Nat) (a4 : Nat) (a5 : List Byte) (s : State) : (raiseSrc a0 a1 a2 a3 a4 a5 s).mode = s.mode := rfl
@[simp] theorem raiseSrc_seq (a0 : Producer) (a1 : Nat) (a2 : Nat) (a3 : Nat) (a4 : Nat) (a5 : List Byte) (s : State) : (raiseSrc a0 a1 a2 a3 a4 a5 s).seq = s.seq := rfl
@[simp] theorem raiseSrc_regs (a0 : Producer) (a1 : Nat) (a2 : Nat) (a3 : Nat) (a4 : Nat) (a5 : List Byte) (s : State) : (raiseSrc a0 a1 a2 a3 a4 a5 s).regs = s.regs := rfl
@[simp] theorem raiseSrc_tb (a0 : Producer) (a1 : Nat) (a2 : Nat) (a3 : Nat) (a4 : Nat) (a5 : List Byte) (s : State) : (raiseSrc a0 a1 a2 a3 a4 a5 s).tb = s.tb := rfl
@[simp] theorem raiseSrc_ph (a0 : Producer) (a1 : Nat) (a2 : Nat) (a3 : Nat) (a4 : Nat) (a5 : List Byte) (s : State) : (raiseSrc a0 a1 a2 a3 a4 a5 s).ph = s.ph := rfl
@[simp] theorem raiseSrc_gal (a0 : Producer) (a1 : Nat) (a2 : Nat) (a3 : Nat) (a4 : Nat) (a5 : List Byte) (s : State) : (raiseSrc a0 a1 a2 a3 a4 a5 s).gal = s.gal := rfl
@[simp] theorem raiseSrc_fe (a0 : Producer) (a1 : Nat) (a2 : Nat) (a3 : Nat) (a4 : Nat) (a5 : List Byte) (s : State) : (raiseSrc a0 a1 a2 a3 a4 a5 s).fe = s.fe := rfl
@[simp] theorem raiseSrc_ch (a0 : Producer) (a1 : Nat) (a2 : Nat) (a3 : Nat) (a4 : Nat) (a5 : List Byte) (s : State) : (raiseSrc a0 a1 a2 a3 a4 a5 s).ch = s.ch := rfl
@[simp] theorem raiseSrc_est (a0 : Producer) (a1 : Nat) (a2 : Nat) (a3 : Nat) (a4 : Nat) (a5 : List Byte) (s : State) : (raiseSrc a0 a1 a2 a3 a4 a5 s).est = s.est := rfl
@[simp] theorem raiseSrc_rcp (a0 : Producer) (a1 : Nat) (a2 : Nat) (a3 : Nat) (a4 : Nat) (a5 : List Byte) (s : State) : (raiseSrc a0 a1 a2 a3 a4 a5 s).rcp = s.rcp := rfl
@[simp] theorem raiseSrc_sump (a0 : Producer) (a1 : Nat) (a2 : Nat) (a3 : Nat) (a4 : Nat) (a5 : List Byte) (s : State) : (raiseSrc a0 a1 a2 a3 a4 a5 s).sump = s.sump := rfl
@[simp] theorem raiseSrc_link (a0 : Producer) (a1 : Nat) (a2 : Nat) (a3 : Nat) (a4 : Nat) (a5 : List Byte) (s : State) : (raiseSrc a0 a1 a2 a3 a4 a5 s).link = s.link := rfl
@[simp] theorem raiseSrc_ring (a0 : Producer) (a1 : Nat) (a2 : Nat) (a3 : Nat) (a4 : Nat) (a5 : List Byte) (s : State) : (raiseSrc a0 a1 a2 a3 a4 a5 s).ring = s.ring := rfl
@[simp] theorem raiseSrc_sqz (a0 : Producer) (a1 : Nat) (a2 : Nat) (a3 : Nat) (a4 : Nat) (a5 : List Byte) (s : State) : (raiseSrc a0 a1 a2 a3 a4 a5 s).sqz = s.sqz := rfl
@[simp] theorem raiseSrc_saf (a0 : Producer) (a1 : Nat) (a2 : Nat) (a3 : Nat) (a4 : Nat) (a5 : List Byte) (s : State) : (raiseSrc a0 a1 a2 a3 a4 a5 s).saf = s.saf := rfl
@[simp] theorem raiseSrc_ldr (a0 : Producer) (a1 : Nat) (a2 : Nat) (a3 : Nat) (a4 : Nat) (a5 : List Byte) (s : State) : (raiseSrc a0 a1 a2 a3 a4 a5 s).ldr = s.ldr := rfl
@[simp] theorem raiseSrc_twi (a0 : Producer) (a1 : Nat) (a2 : Nat) (a3 : Nat) (a4 : Nat) (a5 : List Byte) (s : State) : (raiseSrc a0 a1 a2 a3 a4 a5 s).twi = s.twi := rfl
@[simp] theorem raiseSrc_rtc (a0 : Producer) (a1 : Nat) (a2 : Nat) (a3 : Nat) (a4 : Nat) (a5 : List Byte) (s : State) : (raiseSrc a0 a1 a2 a3 a4 a5 s).rtc = s.rtc := rfl
@[simp] theorem raiseSrc_wdt (a0 : Producer) (a1 : Nat) (a2 : Nat) (a3 : Nat) (a4 : Nat) (a5 : List Byte) (s : State) : (raiseSrc a0 a1 a2 a3 a4 a5 s).wdt = s.wdt := rfl
@[simp] theorem raiseSrc_thm (a0 : Producer) (a1 : Nat) (a2 : Nat) (a3 : Nat) (a4 : Nat) (a5 : List Byte) (s : State) : (raiseSrc a0 a1 a2 a3 a4 a5 s).thm = s.thm := rfl
@[simp] theorem raiseSrc_intc (a0 : Producer) (a1 : Nat) (a2 : Nat) (a3 : Nat) (a4 : Nat) (a5 : List Byte) (s : State) : (raiseSrc a0 a1 a2 a3 a4 a5 s).intc = s.intc := rfl
@[simp] theorem raiseSrc_nvm (a0 : Producer) (a1 : Nat) (a2 : Nat) (a3 : Nat) (a4 : Nat) (a5 : List Byte) (s : State) : (raiseSrc a0 a1 a2 a3 a4 a5 s).nvm = s.nvm := rfl
@[simp] theorem raiseSrc_acc (a0 : Producer) (a1 : Nat) (a2 : Nat) (a3 : Nat) (a4 : Nat) (a5 : List Byte) (s : State) : (raiseSrc a0 a1 a2 a3 a4 a5 s).acc = s.acc := rfl
@[simp] theorem raiseSrc_shadow (a0 : Producer) (a1 : Nat) (a2 : Nat) (a3 : Nat) (a4 : Nat) (a5 : List Byte) (s : State) : (raiseSrc a0 a1 a2 a3 a4 a5 s).shadow = s.shadow := rfl
@[simp] theorem raiseSrc_out (a0 : Producer) (a1 : Nat) (a2 : Nat) (a3 : Nat) (a4 : Nat) (a5 : List Byte) (s : State) : (raiseSrc a0 a1 a2 a3 a4 a5 s).out = s.out := rfl
@[simp] theorem raiseSrc_free (a0 : Producer) (a1 : Nat) (a2 : Nat) (a3 : Nat) (a4 : Nat) (a5 : List Byte) (s : State) : (raiseSrc a0 a1 a2 a3 a4 a5 s).free = s.free := rfl
@[simp] theorem raiseSrc_pending (a0 : Producer) (a1 : Nat) (a2 : Nat) (a3 : Nat) (a4 : Nat) (a5 : List Byte) (s : State) : (raiseSrc a0 a1 a2 a3 a4 a5 s).pending = s.pending := rfl

@[simp] theorem raise_mode (a0 : Producer) (a1 : Nat) (a2 : Nat) (s : State) : (raise a0 a1 a2 s).mode = s.mode := rfl
@[simp] theorem raise_seq (a0 : Producer) (a1 : Nat) (a2 : Nat) (s : State) : (raise a0 a1 a2 s).seq = s.seq := rfl
@[simp] theorem raise_regs (a0 : Producer) (a1 : Nat) (a2 : Nat) (s : State) : (raise a0 a1 a2 s).regs = s.regs := rfl
@[simp] theorem raise_tb (a0 : Producer) (a1 : Nat) (a2 : Nat) (s : State) : (raise a0 a1 a2 s).tb = s.tb := rfl
@[simp] theorem raise_ph (a0 : Producer) (a1 : Nat) (a2 : Nat) (s : State) : (raise a0 a1 a2 s).ph = s.ph := rfl
@[simp] theorem raise_gal (a0 : Producer) (a1 : Nat) (a2 : Nat) (s : State) : (raise a0 a1 a2 s).gal = s.gal := rfl
@[simp] theorem raise_fe (a0 : Producer) (a1 : Nat) (a2 : Nat) (s : State) : (raise a0 a1 a2 s).fe = s.fe := rfl
@[simp] theorem raise_ch (a0 : Producer) (a1 : Nat) (a2 : Nat) (s : State) : (raise a0 a1 a2 s).ch = s.ch := rfl
@[simp] theorem raise_est (a0 : Producer) (a1 : Nat) (a2 : Nat) (s : State) : (raise a0 a1 a2 s).est = s.est := rfl
@[simp] theorem raise_rcp (a0 : Producer) (a1 : Nat) (a2 : Nat) (s : State) : (raise a0 a1 a2 s).rcp = s.rcp := rfl
@[simp] theorem raise_sump (a0 : Producer) (a1 : Nat) (a2 : Nat) (s : State) : (raise a0 a1 a2 s).sump = s.sump := rfl
@[simp] theorem raise_link (a0 : Producer) (a1 : Nat) (a2 : Nat) (s : State) : (raise a0 a1 a2 s).link = s.link := rfl
@[simp] theorem raise_ring (a0 : Producer) (a1 : Nat) (a2 : Nat) (s : State) : (raise a0 a1 a2 s).ring = s.ring := rfl
@[simp] theorem raise_sqz (a0 : Producer) (a1 : Nat) (a2 : Nat) (s : State) : (raise a0 a1 a2 s).sqz = s.sqz := rfl
@[simp] theorem raise_saf (a0 : Producer) (a1 : Nat) (a2 : Nat) (s : State) : (raise a0 a1 a2 s).saf = s.saf := rfl
@[simp] theorem raise_ldr (a0 : Producer) (a1 : Nat) (a2 : Nat) (s : State) : (raise a0 a1 a2 s).ldr = s.ldr := rfl
@[simp] theorem raise_twi (a0 : Producer) (a1 : Nat) (a2 : Nat) (s : State) : (raise a0 a1 a2 s).twi = s.twi := rfl
@[simp] theorem raise_rtc (a0 : Producer) (a1 : Nat) (a2 : Nat) (s : State) : (raise a0 a1 a2 s).rtc = s.rtc := rfl
@[simp] theorem raise_wdt (a0 : Producer) (a1 : Nat) (a2 : Nat) (s : State) : (raise a0 a1 a2 s).wdt = s.wdt := rfl
@[simp] theorem raise_thm (a0 : Producer) (a1 : Nat) (a2 : Nat) (s : State) : (raise a0 a1 a2 s).thm = s.thm := rfl
@[simp] theorem raise_intc (a0 : Producer) (a1 : Nat) (a2 : Nat) (s : State) : (raise a0 a1 a2 s).intc = s.intc := rfl
@[simp] theorem raise_nvm (a0 : Producer) (a1 : Nat) (a2 : Nat) (s : State) : (raise a0 a1 a2 s).nvm = s.nvm := rfl
@[simp] theorem raise_acc (a0 : Producer) (a1 : Nat) (a2 : Nat) (s : State) : (raise a0 a1 a2 s).acc = s.acc := rfl
@[simp] theorem raise_shadow (a0 : Producer) (a1 : Nat) (a2 : Nat) (s : State) : (raise a0 a1 a2 s).shadow = s.shadow := rfl
@[simp] theorem raise_out (a0 : Producer) (a1 : Nat) (a2 : Nat) (s : State) : (raise a0 a1 a2 s).out = s.out := rfl
@[simp] theorem raise_free (a0 : Producer) (a1 : Nat) (a2 : Nat) (s : State) : (raise a0 a1 a2 s).free = s.free := rfl
@[simp] theorem raise_pending (a0 : Producer) (a1 : Nat) (a2 : Nat) (s : State) : (raise a0 a1 a2 s).pending = s.pending := rfl

@[simp] theorem raiseA_mode (a0 : Producer) (a1 : Nat) (a2 : Nat) (a3 : Nat) (s : State) : (raiseA a0 a1 a2 a3 s).mode = s.mode := rfl
@[simp] theorem raiseA_seq (a0 : Producer) (a1 : Nat) (a2 : Nat) (a3 : Nat) (s : State) : (raiseA a0 a1 a2 a3 s).seq = s.seq := rfl
@[simp] theorem raiseA_regs (a0 : Producer) (a1 : Nat) (a2 : Nat) (a3 : Nat) (s : State) : (raiseA a0 a1 a2 a3 s).regs = s.regs := rfl
@[simp] theorem raiseA_tb (a0 : Producer) (a1 : Nat) (a2 : Nat) (a3 : Nat) (s : State) : (raiseA a0 a1 a2 a3 s).tb = s.tb := rfl
@[simp] theorem raiseA_ph (a0 : Producer) (a1 : Nat) (a2 : Nat) (a3 : Nat) (s : State) : (raiseA a0 a1 a2 a3 s).ph = s.ph := rfl
@[simp] theorem raiseA_gal (a0 : Producer) (a1 : Nat) (a2 : Nat) (a3 : Nat) (s : State) : (raiseA a0 a1 a2 a3 s).gal = s.gal := rfl
@[simp] theorem raiseA_fe (a0 : Producer) (a1 : Nat) (a2 : Nat) (a3 : Nat) (s : State) : (raiseA a0 a1 a2 a3 s).fe = s.fe := rfl
@[simp] theorem raiseA_ch (a0 : Producer) (a1 : Nat) (a2 : Nat) (a3 : Nat) (s : State) : (raiseA a0 a1 a2 a3 s).ch = s.ch := rfl
@[simp] theorem raiseA_est (a0 : Producer) (a1 : Nat) (a2 : Nat) (a3 : Nat) (s : State) : (raiseA a0 a1 a2 a3 s).est = s.est := rfl
@[simp] theorem raiseA_rcp (a0 : Producer) (a1 : Nat) (a2 : Nat) (a3 : Nat) (s : State) : (raiseA a0 a1 a2 a3 s).rcp = s.rcp := rfl
@[simp] theorem raiseA_sump (a0 : Producer) (a1 : Nat) (a2 : Nat) (a3 : Nat) (s : State) : (raiseA a0 a1 a2 a3 s).sump = s.sump := rfl
@[simp] theorem raiseA_link (a0 : Producer) (a1 : Nat) (a2 : Nat) (a3 : Nat) (s : State) : (raiseA a0 a1 a2 a3 s).link = s.link := rfl
@[simp] theorem raiseA_ring (a0 : Producer) (a1 : Nat) (a2 : Nat) (a3 : Nat) (s : State) : (raiseA a0 a1 a2 a3 s).ring = s.ring := rfl
@[simp] theorem raiseA_sqz (a0 : Producer) (a1 : Nat) (a2 : Nat) (a3 : Nat) (s : State) : (raiseA a0 a1 a2 a3 s).sqz = s.sqz := rfl
@[simp] theorem raiseA_saf (a0 : Producer) (a1 : Nat) (a2 : Nat) (a3 : Nat) (s : State) : (raiseA a0 a1 a2 a3 s).saf = s.saf := rfl
@[simp] theorem raiseA_ldr (a0 : Producer) (a1 : Nat) (a2 : Nat) (a3 : Nat) (s : State) : (raiseA a0 a1 a2 a3 s).ldr = s.ldr := rfl
@[simp] theorem raiseA_twi (a0 : Producer) (a1 : Nat) (a2 : Nat) (a3 : Nat) (s : State) : (raiseA a0 a1 a2 a3 s).twi = s.twi := rfl
@[simp] theorem raiseA_rtc (a0 : Producer) (a1 : Nat) (a2 : Nat) (a3 : Nat) (s : State) : (raiseA a0 a1 a2 a3 s).rtc = s.rtc := rfl
@[simp] theorem raiseA_wdt (a0 : Producer) (a1 : Nat) (a2 : Nat) (a3 : Nat) (s : State) : (raiseA a0 a1 a2 a3 s).wdt = s.wdt := rfl
@[simp] theorem raiseA_thm (a0 : Producer) (a1 : Nat) (a2 : Nat) (a3 : Nat) (s : State) : (raiseA a0 a1 a2 a3 s).thm = s.thm := rfl
@[simp] theorem raiseA_intc (a0 : Producer) (a1 : Nat) (a2 : Nat) (a3 : Nat) (s : State) : (raiseA a0 a1 a2 a3 s).intc = s.intc := rfl
@[simp] theorem raiseA_nvm (a0 : Producer) (a1 : Nat) (a2 : Nat) (a3 : Nat) (s : State) : (raiseA a0 a1 a2 a3 s).nvm = s.nvm := rfl
@[simp] theorem raiseA_acc (a0 : Producer) (a1 : Nat) (a2 : Nat) (a3 : Nat) (s : State) : (raiseA a0 a1 a2 a3 s).acc = s.acc := rfl
@[simp] theorem raiseA_shadow (a0 : Producer) (a1 : Nat) (a2 : Nat) (a3 : Nat) (s : State) : (raiseA a0 a1 a2 a3 s).shadow = s.shadow := rfl
@[simp] theorem raiseA_out (a0 : Producer) (a1 : Nat) (a2 : Nat) (a3 : Nat) (s : State) : (raiseA a0 a1 a2 a3 s).out = s.out := rfl
@[simp] theorem raiseA_free (a0 : Producer) (a1 : Nat) (a2 : Nat) (a3 : Nat) (s : State) : (raiseA a0 a1 a2 a3 s).free = s.free := rfl
@[simp] theorem raiseA_pending (a0 : Producer) (a1 : Nat) (a2 : Nat) (a3 : Nat) (s : State) : (raiseA a0 a1 a2 a3 s).pending = s.pending := rfl

@[simp] theorem raiseAt_mode (a0 : Producer) (a1 : Nat) (a2 : Nat) (a3 : Nat) (a4 : Nat) (s : State) : (raiseAt a0 a1 a2 a3 a4 s).mode = s.mode := rfl
@[simp] theorem raiseAt_seq (a0 : Producer) (a1 : Nat) (a2 : Nat) (a3 : Nat) (a4 : Nat) (s : State) : (raiseAt a0 a1 a2 a3 a4 s).seq = s.seq := rfl
@[simp] theorem raiseAt_regs (a0 : Producer) (a1 : Nat) (a2 : Nat) (a3 : Nat) (a4 : Nat) (s : State) : (raiseAt a0 a1 a2 a3 a4 s).regs = s.regs := rfl
@[simp] theorem raiseAt_tb (a0 : Producer) (a1 : Nat) (a2 : Nat) (a3 : Nat) (a4 : Nat) (s : State) : (raiseAt a0 a1 a2 a3 a4 s).tb = s.tb := rfl
@[simp] theorem raiseAt_ph (a0 : Producer) (a1 : Nat) (a2 : Nat) (a3 : Nat) (a4 : Nat) (s : State) : (raiseAt a0 a1 a2 a3 a4 s).ph = s.ph := rfl
@[simp] theorem raiseAt_gal (a0 : Producer) (a1 : Nat) (a2 : Nat) (a3 : Nat) (a4 : Nat) (s : State) : (raiseAt a0 a1 a2 a3 a4 s).gal = s.gal := rfl
@[simp] theorem raiseAt_fe (a0 : Producer) (a1 : Nat) (a2 : Nat) (a3 : Nat) (a4 : Nat) (s : State) : (raiseAt a0 a1 a2 a3 a4 s).fe = s.fe := rfl
@[simp] theorem raiseAt_ch (a0 : Producer) (a1 : Nat) (a2 : Nat) (a3 : Nat) (a4 : Nat) (s : State) : (raiseAt a0 a1 a2 a3 a4 s).ch = s.ch := rfl
@[simp] theorem raiseAt_est (a0 : Producer) (a1 : Nat) (a2 : Nat) (a3 : Nat) (a4 : Nat) (s : State) : (raiseAt a0 a1 a2 a3 a4 s).est = s.est := rfl
@[simp] theorem raiseAt_rcp (a0 : Producer) (a1 : Nat) (a2 : Nat) (a3 : Nat) (a4 : Nat) (s : State) : (raiseAt a0 a1 a2 a3 a4 s).rcp = s.rcp := rfl
@[simp] theorem raiseAt_sump (a0 : Producer) (a1 : Nat) (a2 : Nat) (a3 : Nat) (a4 : Nat) (s : State) : (raiseAt a0 a1 a2 a3 a4 s).sump = s.sump := rfl
@[simp] theorem raiseAt_link (a0 : Producer) (a1 : Nat) (a2 : Nat) (a3 : Nat) (a4 : Nat) (s : State) : (raiseAt a0 a1 a2 a3 a4 s).link = s.link := rfl
@[simp] theorem raiseAt_ring (a0 : Producer) (a1 : Nat) (a2 : Nat) (a3 : Nat) (a4 : Nat) (s : State) : (raiseAt a0 a1 a2 a3 a4 s).ring = s.ring := rfl
@[simp] theorem raiseAt_sqz (a0 : Producer) (a1 : Nat) (a2 : Nat) (a3 : Nat) (a4 : Nat) (s : State) : (raiseAt a0 a1 a2 a3 a4 s).sqz = s.sqz := rfl
@[simp] theorem raiseAt_saf (a0 : Producer) (a1 : Nat) (a2 : Nat) (a3 : Nat) (a4 : Nat) (s : State) : (raiseAt a0 a1 a2 a3 a4 s).saf = s.saf := rfl
@[simp] theorem raiseAt_ldr (a0 : Producer) (a1 : Nat) (a2 : Nat) (a3 : Nat) (a4 : Nat) (s : State) : (raiseAt a0 a1 a2 a3 a4 s).ldr = s.ldr := rfl
@[simp] theorem raiseAt_twi (a0 : Producer) (a1 : Nat) (a2 : Nat) (a3 : Nat) (a4 : Nat) (s : State) : (raiseAt a0 a1 a2 a3 a4 s).twi = s.twi := rfl
@[simp] theorem raiseAt_rtc (a0 : Producer) (a1 : Nat) (a2 : Nat) (a3 : Nat) (a4 : Nat) (s : State) : (raiseAt a0 a1 a2 a3 a4 s).rtc = s.rtc := rfl
@[simp] theorem raiseAt_wdt (a0 : Producer) (a1 : Nat) (a2 : Nat) (a3 : Nat) (a4 : Nat) (s : State) : (raiseAt a0 a1 a2 a3 a4 s).wdt = s.wdt := rfl
@[simp] theorem raiseAt_thm (a0 : Producer) (a1 : Nat) (a2 : Nat) (a3 : Nat) (a4 : Nat) (s : State) : (raiseAt a0 a1 a2 a3 a4 s).thm = s.thm := rfl
@[simp] theorem raiseAt_intc (a0 : Producer) (a1 : Nat) (a2 : Nat) (a3 : Nat) (a4 : Nat) (s : State) : (raiseAt a0 a1 a2 a3 a4 s).intc = s.intc := rfl
@[simp] theorem raiseAt_nvm (a0 : Producer) (a1 : Nat) (a2 : Nat) (a3 : Nat) (a4 : Nat) (s : State) : (raiseAt a0 a1 a2 a3 a4 s).nvm = s.nvm := rfl
@[simp] theorem raiseAt_acc (a0 : Producer) (a1 : Nat) (a2 : Nat) (a3 : Nat) (a4 : Nat) (s : State) : (raiseAt a0 a1 a2 a3 a4 s).acc = s.acc := rfl
@[simp] theorem raiseAt_shadow (a0 : Producer) (a1 : Nat) (a2 : Nat) (a3 : Nat) (a4 : Nat) (s : State) : (raiseAt a0 a1 a2 a3 a4 s).shadow = s.shadow := rfl
@[simp] theorem raiseAt_out (a0 : Producer) (a1 : Nat) (a2 : Nat) (a3 : Nat) (a4 : Nat) (s : State) : (raiseAt a0 a1 a2 a3 a4 s).out = s.out := rfl
@[simp] theorem raiseAt_free (a0 : Producer) (a1 : Nat) (a2 : Nat) (a3 : Nat) (a4 : Nat) (s : State) : (raiseAt a0 a1 a2 a3 a4 s).free = s.free := rfl
@[simp] theorem raiseAt_pending (a0 : Producer) (a1 : Nat) (a2 : Nat) (a3 : Nat) (a4 : Nat) (s : State) : (raiseAt a0 a1 a2 a3 a4 s).pending = s.pending := rfl

@[simp] theorem raiseReg_mode (a0 : Nat) (a1 : Nat) (s : State) : (raiseReg a0 a1 s).mode = s.mode := rfl
@[simp] theorem raiseReg_seq (a0 : Nat) (a1 : Nat) (s : State) : (raiseReg a0 a1 s).seq = s.seq := rfl
@[simp] theorem raiseReg_regs (a0 : Nat) (a1 : Nat) (s : State) : (raiseReg a0 a1 s).regs = s.regs := rfl
@[simp] theorem raiseReg_tb (a0 : Nat) (a1 : Nat) (s : State) : (raiseReg a0 a1 s).tb = s.tb := rfl
@[simp] theorem raiseReg_ph (a0 : Nat) (a1 : Nat) (s : State) : (raiseReg a0 a1 s).ph = s.ph := rfl
@[simp] theorem raiseReg_gal (a0 : Nat) (a1 : Nat) (s : State) : (raiseReg a0 a1 s).gal = s.gal := rfl
@[simp] theorem raiseReg_fe (a0 : Nat) (a1 : Nat) (s : State) : (raiseReg a0 a1 s).fe = s.fe := rfl
@[simp] theorem raiseReg_ch (a0 : Nat) (a1 : Nat) (s : State) : (raiseReg a0 a1 s).ch = s.ch := rfl
@[simp] theorem raiseReg_est (a0 : Nat) (a1 : Nat) (s : State) : (raiseReg a0 a1 s).est = s.est := rfl
@[simp] theorem raiseReg_rcp (a0 : Nat) (a1 : Nat) (s : State) : (raiseReg a0 a1 s).rcp = s.rcp := rfl
@[simp] theorem raiseReg_sump (a0 : Nat) (a1 : Nat) (s : State) : (raiseReg a0 a1 s).sump = s.sump := rfl
@[simp] theorem raiseReg_link (a0 : Nat) (a1 : Nat) (s : State) : (raiseReg a0 a1 s).link = s.link := rfl
@[simp] theorem raiseReg_ring (a0 : Nat) (a1 : Nat) (s : State) : (raiseReg a0 a1 s).ring = s.ring := rfl
@[simp] theorem raiseReg_sqz (a0 : Nat) (a1 : Nat) (s : State) : (raiseReg a0 a1 s).sqz = s.sqz := rfl
@[simp] theorem raiseReg_saf (a0 : Nat) (a1 : Nat) (s : State) : (raiseReg a0 a1 s).saf = s.saf := rfl
@[simp] theorem raiseReg_ldr (a0 : Nat) (a1 : Nat) (s : State) : (raiseReg a0 a1 s).ldr = s.ldr := rfl
@[simp] theorem raiseReg_twi (a0 : Nat) (a1 : Nat) (s : State) : (raiseReg a0 a1 s).twi = s.twi := rfl
@[simp] theorem raiseReg_rtc (a0 : Nat) (a1 : Nat) (s : State) : (raiseReg a0 a1 s).rtc = s.rtc := rfl
@[simp] theorem raiseReg_wdt (a0 : Nat) (a1 : Nat) (s : State) : (raiseReg a0 a1 s).wdt = s.wdt := rfl
@[simp] theorem raiseReg_thm (a0 : Nat) (a1 : Nat) (s : State) : (raiseReg a0 a1 s).thm = s.thm := rfl
@[simp] theorem raiseReg_intc (a0 : Nat) (a1 : Nat) (s : State) : (raiseReg a0 a1 s).intc = s.intc := rfl
@[simp] theorem raiseReg_nvm (a0 : Nat) (a1 : Nat) (s : State) : (raiseReg a0 a1 s).nvm = s.nvm := rfl
@[simp] theorem raiseReg_acc (a0 : Nat) (a1 : Nat) (s : State) : (raiseReg a0 a1 s).acc = s.acc := rfl
@[simp] theorem raiseReg_shadow (a0 : Nat) (a1 : Nat) (s : State) : (raiseReg a0 a1 s).shadow = s.shadow := rfl
@[simp] theorem raiseReg_out (a0 : Nat) (a1 : Nat) (s : State) : (raiseReg a0 a1 s).out = s.out := rfl
@[simp] theorem raiseReg_free (a0 : Nat) (a1 : Nat) (s : State) : (raiseReg a0 a1 s).free = s.free := rfl
@[simp] theorem raiseReg_pending (a0 : Nat) (a1 : Nat) (s : State) : (raiseReg a0 a1 s).pending = s.pending := rfl

@[simp] theorem emit_mode (a0 : Out) (s : State) : (emit a0 s).mode = s.mode := rfl
@[simp] theorem emit_seq (a0 : Out) (s : State) : (emit a0 s).seq = s.seq := rfl
@[simp] theorem emit_regs (a0 : Out) (s : State) : (emit a0 s).regs = s.regs := rfl
@[simp] theorem emit_tb (a0 : Out) (s : State) : (emit a0 s).tb = s.tb := rfl
@[simp] theorem emit_ph (a0 : Out) (s : State) : (emit a0 s).ph = s.ph := rfl
@[simp] theorem emit_gal (a0 : Out) (s : State) : (emit a0 s).gal = s.gal := rfl
@[simp] theorem emit_fe (a0 : Out) (s : State) : (emit a0 s).fe = s.fe := rfl
@[simp] theorem emit_ch (a0 : Out) (s : State) : (emit a0 s).ch = s.ch := rfl
@[simp] theorem emit_est (a0 : Out) (s : State) : (emit a0 s).est = s.est := rfl
@[simp] theorem emit_rcp (a0 : Out) (s : State) : (emit a0 s).rcp = s.rcp := rfl
@[simp] theorem emit_sump (a0 : Out) (s : State) : (emit a0 s).sump = s.sump := rfl
@[simp] theorem emit_link (a0 : Out) (s : State) : (emit a0 s).link = s.link := rfl
@[simp] theorem emit_ring (a0 : Out) (s : State) : (emit a0 s).ring = s.ring := rfl
@[simp] theorem emit_sqz (a0 : Out) (s : State) : (emit a0 s).sqz = s.sqz := rfl
@[simp] theorem emit_saf (a0 : Out) (s : State) : (emit a0 s).saf = s.saf := rfl
@[simp] theorem emit_ldr (a0 : Out) (s : State) : (emit a0 s).ldr = s.ldr := rfl
@[simp] theorem emit_twi (a0 : Out) (s : State) : (emit a0 s).twi = s.twi := rfl
@[simp] theorem emit_rtc (a0 : Out) (s : State) : (emit a0 s).rtc = s.rtc := rfl
@[simp] theorem emit_wdt (a0 : Out) (s : State) : (emit a0 s).wdt = s.wdt := rfl
@[simp] theorem emit_thm (a0 : Out) (s : State) : (emit a0 s).thm = s.thm := rfl
@[simp] theorem emit_intc (a0 : Out) (s : State) : (emit a0 s).intc = s.intc := rfl
@[simp] theorem emit_nvm (a0 : Out) (s : State) : (emit a0 s).nvm = s.nvm := rfl
@[simp] theorem emit_acc (a0 : Out) (s : State) : (emit a0 s).acc = s.acc := rfl
@[simp] theorem emit_fab (a0 : Out) (s : State) : (emit a0 s).fab = s.fab := rfl
@[simp] theorem emit_shadow (a0 : Out) (s : State) : (emit a0 s).shadow = s.shadow := rfl
@[simp] theorem emit_free (a0 : Out) (s : State) : (emit a0 s).free = s.free := rfl
@[simp] theorem emit_pending (a0 : Out) (s : State) : (emit a0 s).pending = s.pending := rfl

@[simp] theorem setCfg_mode (a0 : Nat) (a1 : Word) (s : State) : (setCfg a0 a1 s).mode = s.mode := rfl
@[simp] theorem setCfg_seq (a0 : Nat) (a1 : Word) (s : State) : (setCfg a0 a1 s).seq = s.seq := rfl
@[simp] theorem setCfg_tb (a0 : Nat) (a1 : Word) (s : State) : (setCfg a0 a1 s).tb = s.tb := rfl
@[simp] theorem setCfg_ph (a0 : Nat) (a1 : Word) (s : State) : (setCfg a0 a1 s).ph = s.ph := rfl
@[simp] theorem setCfg_gal (a0 : Nat) (a1 : Word) (s : State) : (setCfg a0 a1 s).gal = s.gal := rfl
@[simp] theorem setCfg_fe (a0 : Nat) (a1 : Word) (s : State) : (setCfg a0 a1 s).fe = s.fe := rfl
@[simp] theorem setCfg_ch (a0 : Nat) (a1 : Word) (s : State) : (setCfg a0 a1 s).ch = s.ch := rfl
@[simp] theorem setCfg_est (a0 : Nat) (a1 : Word) (s : State) : (setCfg a0 a1 s).est = s.est := rfl
@[simp] theorem setCfg_rcp (a0 : Nat) (a1 : Word) (s : State) : (setCfg a0 a1 s).rcp = s.rcp := rfl
@[simp] theorem setCfg_sump (a0 : Nat) (a1 : Word) (s : State) : (setCfg a0 a1 s).sump = s.sump := rfl
@[simp] theorem setCfg_link (a0 : Nat) (a1 : Word) (s : State) : (setCfg a0 a1 s).link = s.link := rfl
@[simp] theorem setCfg_ring (a0 : Nat) (a1 : Word) (s : State) : (setCfg a0 a1 s).ring = s.ring := rfl
@[simp] theorem setCfg_sqz (a0 : Nat) (a1 : Word) (s : State) : (setCfg a0 a1 s).sqz = s.sqz := rfl
@[simp] theorem setCfg_saf (a0 : Nat) (a1 : Word) (s : State) : (setCfg a0 a1 s).saf = s.saf := rfl
@[simp] theorem setCfg_ldr (a0 : Nat) (a1 : Word) (s : State) : (setCfg a0 a1 s).ldr = s.ldr := rfl
@[simp] theorem setCfg_twi (a0 : Nat) (a1 : Word) (s : State) : (setCfg a0 a1 s).twi = s.twi := rfl
@[simp] theorem setCfg_rtc (a0 : Nat) (a1 : Word) (s : State) : (setCfg a0 a1 s).rtc = s.rtc := rfl
@[simp] theorem setCfg_wdt (a0 : Nat) (a1 : Word) (s : State) : (setCfg a0 a1 s).wdt = s.wdt := rfl
@[simp] theorem setCfg_thm (a0 : Nat) (a1 : Word) (s : State) : (setCfg a0 a1 s).thm = s.thm := rfl
@[simp] theorem setCfg_intc (a0 : Nat) (a1 : Word) (s : State) : (setCfg a0 a1 s).intc = s.intc := rfl
@[simp] theorem setCfg_nvm (a0 : Nat) (a1 : Word) (s : State) : (setCfg a0 a1 s).nvm = s.nvm := rfl
@[simp] theorem setCfg_acc (a0 : Nat) (a1 : Word) (s : State) : (setCfg a0 a1 s).acc = s.acc := rfl
@[simp] theorem setCfg_fab (a0 : Nat) (a1 : Word) (s : State) : (setCfg a0 a1 s).fab = s.fab := rfl
@[simp] theorem setCfg_shadow (a0 : Nat) (a1 : Word) (s : State) : (setCfg a0 a1 s).shadow = s.shadow := rfl
@[simp] theorem setCfg_out (a0 : Nat) (a1 : Word) (s : State) : (setCfg a0 a1 s).out = s.out := rfl
@[simp] theorem setCfg_free (a0 : Nat) (a1 : Word) (s : State) : (setCfg a0 a1 s).free = s.free := rfl
@[simp] theorem setCfg_pending (a0 : Nat) (a1 : Word) (s : State) : (setCfg a0 a1 s).pending = s.pending := rfl

end Sys2Proof.Machine
end

