-- ==== Sys2Proof/Laws/Table.lean ====
section
/-!
SUPPORT. Reading an entry of a table after an update of an entry.
-/

namespace Sys2Proof.Machine

/-- An entry after an update: the updated one where the index is the same and lies in the table. -/
theorem tget_tmod {α : Type} {n : Nat} (d : α) (v : Vector α n) (i j : Nat) (f : α → α) :
    tget d (tmod v i f) j = if i = j ∧ j < n then f (tget d v j) else tget d v j := by
  unfold tget tmod
  by_cases hi : i < n
  · by_cases hij : i = j
    · subst hij; simp [hi]
    · simp [hi, hij, Vector.toList_set]
  · have : ¬ (i = j ∧ j < n) := fun h => hi (h.1 ▸ h.2)
    simp [hi, this]

theorem getPh_modPh (i j : Nat) (f : Phase → Phase) (s : State) :
    (modPh i f s).getPh j = if i = j ∧ j < 128 then f (s.getPh j) else s.getPh j := tget_tmod ..

theorem getGal_modGal (i j : Nat) (f : Gallery → Gallery) (s : State) :
    (modGal i f s).getGal j = if i = j ∧ j < 8 then f (s.getGal j) else s.getGal j := tget_tmod ..

theorem getFe_modFe (i j : Nat) (f : FrontEnd → FrontEnd) (s : State) :
    (modFe i f s).getFe j = if i = j ∧ j < 128 then f (s.getFe j) else s.getFe j := tget_tmod ..

theorem getCh_modCh (i j : Nat) (f : Channel → Channel) (s : State) :
    (modCh i f s).getCh j = if i = j ∧ j < 128 then f (s.getCh j) else s.getCh j := tget_tmod ..

theorem getEst_modEst (i j : Nat) (f : Estimator → Estimator) (s : State) :
    (modEst i f s).getEst j = if i = j ∧ j < 128 then f (s.getEst j) else s.getEst j := tget_tmod ..

theorem getRing_modRing (i j : Nat) (f : Ring → Ring) (s : State) :
    (modRing i f s).getRing j = if i = j ∧ j < 64 then f (s.getRing j) else s.getRing j := tget_tmod ..

theorem getSqz_modSqz (i j : Nat) (f : Sqz → Sqz) (s : State) :
    (modSqz i f s).getSqz j = if i = j ∧ j < 32 then f (s.getSqz j) else s.getSqz j := tget_tmod ..

theorem getTold_modTold (i j : Nat) (f : Told → Told) (s : State) :
    (modTold i f s).getTold j = if i = j ∧ j < 128 then f (s.getTold j) else s.getTold j := tget_tmod ..

theorem getDie_modDie (i j : Nat) (f : Die → Die) (s : State) :
    (modDie i f s).getDie j = if i = j ∧ j < 10 then f (s.getDie j) else s.getDie j := tget_tmod ..

theorem getRail_modRail (i j : Nat) (f : Rail → Rail) (s : State) :
    (modRail i f s).getRail j = if i = j ∧ j < 8 then f (s.getRail j) else s.getRail j := tget_tmod ..

theorem getTc_modTc (i j : Nat) (f : TcEnt → TcEnt) (s : State) :
    (modTc i f s).getTc j = if i = j ∧ j < 256 then f (s.getTc j) else s.getTc j := tget_tmod ..

theorem getGrp_modGrp (i j : Nat) (f : Group → Group) (s : State) :
    (modGrp i f s).getGrp j = if i = j ∧ j < 16 then f (s.getGrp j) else s.getGrp j := tget_tmod ..

theorem getPh_forEach (l : List Nat) (h : l.Nodup) (j : Nat) (f : Phase → Phase) (s : State) :
    (forEach l (modPh · f) s).getPh j = if j ∈ l ∧ j < 128 then f (s.getPh j) else s.getPh j := by
  unfold forEach
  induction l generalizing s with
  | nil => simp
  | cons i l ih =>
    obtain ⟨hi, hl⟩ := List.nodup_cons.mp h
    simp only [List.foldl_cons, ih hl, getPh_modPh]
    by_cases hij : i = j
    · subst hij; simp [hi]
    · simp [hij, Ne.symm hij]

theorem getGal_forEach (l : List Nat) (h : l.Nodup) (j : Nat) (f : Gallery → Gallery) (s : State) :
    (forEach l (modGal · f) s).getGal j = if j ∈ l ∧ j < 8 then f (s.getGal j) else s.getGal j := by
  unfold forEach
  induction l generalizing s with
  | nil => simp
  | cons i l ih =>
    obtain ⟨hi, hl⟩ := List.nodup_cons.mp h
    simp only [List.foldl_cons, ih hl, getGal_modGal]
    by_cases hij : i = j
    · subst hij; simp [hi]
    · simp [hij, Ne.symm hij]

theorem getFe_forEach (l : List Nat) (h : l.Nodup) (j : Nat) (f : FrontEnd → FrontEnd) (s : State) :
    (forEach l (modFe · f) s).getFe j = if j ∈ l ∧ j < 128 then f (s.getFe j) else s.getFe j := by
  unfold forEach
  induction l generalizing s with
  | nil => simp
  | cons i l ih =>
    obtain ⟨hi, hl⟩ := List.nodup_cons.mp h
    simp only [List.foldl_cons, ih hl, getFe_modFe]
    by_cases hij : i = j
    · subst hij; simp [hi]
    · simp [hij, Ne.symm hij]

theorem getCh_forEach (l : List Nat) (h : l.Nodup) (j : Nat) (f : Channel → Channel) (s : State) :
    (forEach l (modCh · f) s).getCh j = if j ∈ l ∧ j < 128 then f (s.getCh j) else s.getCh j := by
  unfold forEach
  induction l generalizing s with
  | nil => simp
  | cons i l ih =>
    obtain ⟨hi, hl⟩ := List.nodup_cons.mp h
    simp only [List.foldl_cons, ih hl, getCh_modCh]
    by_cases hij : i = j
    · subst hij; simp [hi]
    · simp [hij, Ne.symm hij]

theorem getEst_forEach (l : List Nat) (h : l.Nodup) (j : Nat) (f : Estimator → Estimator) (s : State) :
    (forEach l (modEst · f) s).getEst j = if j ∈ l ∧ j < 128 then f (s.getEst j) else s.getEst j := by
  unfold forEach
  induction l generalizing s with
  | nil => simp
  | cons i l ih =>
    obtain ⟨hi, hl⟩ := List.nodup_cons.mp h
    simp only [List.foldl_cons, ih hl, getEst_modEst]
    by_cases hij : i = j
    · subst hij; simp [hi]
    · simp [hij, Ne.symm hij]

theorem getRing_forEach (l : List Nat) (h : l.Nodup) (j : Nat) (f : Ring → Ring) (s : State) :
    (forEach l (modRing · f) s).getRing j = if j ∈ l ∧ j < 64 then f (s.getRing j) else s.getRing j := by
  unfold forEach
  induction l generalizing s with
  | nil => simp
  | cons i l ih =>
    obtain ⟨hi, hl⟩ := List.nodup_cons.mp h
    simp only [List.foldl_cons, ih hl, getRing_modRing]
    by_cases hij : i = j
    · subst hij; simp [hi]
    · simp [hij, Ne.symm hij]

theorem getRail_forEach (l : List Nat) (h : l.Nodup) (j : Nat) (f : Rail → Rail) (s : State) :
    (forEach l (modRail · f) s).getRail j = if j ∈ l ∧ j < 8 then f (s.getRail j) else s.getRail j := by
  unfold forEach
  induction l generalizing s with
  | nil => simp
  | cons i l ih =>
    obtain ⟨hi, hl⟩ := List.nodup_cons.mp h
    simp only [List.foldl_cons, ih hl, getRail_modRail]
    by_cases hij : i = j
    · subst hij; simp [hi]
    · simp [hij, Ne.symm hij]

end Sys2Proof.Machine
end

