-- ==== Sys2Proof/Laws/Phases.lean ====
section
/-!
SUPPORT. What bringing phases to mid, sharing a demand and latching a fault leave of each phase and channel.
-/

set_option linter.all false

namespace Sys2Proof.Machine

/-- What goes to mid or takes a new share keeps of a phase: all but its level, its on-time, its share and its record. -/
def Calm (p q : Phase) : Prop :=
  q = { p with pwm := q.pwm, onTime := q.onTime, cut := q.cut, shedStep := q.shedStep, share := q.share, dac := q.dac, st := q.st,
               lfrOpen := q.lfrOpen, lfr := q.lfr, faultCnt := q.faultCnt, cntShedX := q.cntShedX }

theorem Calm.refl (p : Phase) : Calm p p := rfl

theorem Calm.trans {p q r : Phase} (h : Calm p q) (k : Calm q r) : Calm p r := by
  unfold Calm at *; rw [k, h]

theorem chanOf_le {s : State} {n k : Nat} (h : chanOf s n = some k) : k ≤ n ∧ n < k + (s.getCh k).nph := by
  unfold chanOf at h
  obtain ⟨d, _, hd⟩ := List.exists_of_findSome?_eq_some h
  split at hd
  · rename_i c; cases hd; omega
  · cases hd

theorem chanOr_le (s : State) (n : Nat) : chanOr s n ≤ n := by
  unfold chanOr
  cases h : chanOf s n with
  | none => exact Nat.le_refl _
  | some k => exact (chanOf_le h).1

theorem chanOr_lt (s : State) (n : Fin 128) : chanOr s n < 128 := Nat.lt_of_le_of_lt (chanOr_le s n) n.isLt

/-- A loop over phases keeps of each phase what each of its turns keeps. -/
theorem forEach_calm {l : List Nat} {f : Nat → State → State} (h : ∀ i t j, Calm (t.getPh j) ((f i t).getPh j)) (s : State) (j : Nat) :
    Calm (s.getPh j) ((forEach l f s).getPh j) := by
  unfold forEach
  induction l generalizing s with
  | nil => exact Calm.refl _
  | cons a l ih => exact (h a s j).trans (ih (f a s))

theorem modPh_calm (i : Nat) (f : Phase → Phase) (h : ∀ p, Calm p (f p)) (s : State) (j : Nat) :
    Calm (s.getPh j) ((modPh i f s).getPh j) := by
  rw [getPh_modPh]; split
  · exact h _
  · exact Calm.refl _

theorem midPhase_calm (r : PhSt) (n : Nat) (s : State) (j : Nat) : Calm (s.getPh j) ((midPhase r n s).getPh j) := by
  unfold midPhase; dsimp only
  apply modPh_calm
  intro p
  split
  · rfl
  · split <;> rfl

theorem midChannel_calm (k : Nat) (s : State) (j : Nat) : Calm (s.getPh j) ((midChannel k s).getPh j) :=
  forEach_calm (f := midPhase .idle) (fun i t j => midPhase_calm .idle i t j) s j

@[simp] theorem openDisc_ph (k : Nat) (s : State) : (openDisc k s).ph = s.ph := by unfold openDisc; split <;> rfl

@[simp] theorem openDisc_getPh (k : Nat) (s : State) (j : Nat) : (openDisc k s).getPh j = s.getPh j := by
  simp [State.getPh, openDisc_ph]

theorem safeChannel_calm (k : Nat) (s : State) (j : Nat) : Calm (s.getPh j) ((safeChannel k s).getPh j) := by
  unfold safeChannel; rw [openDisc_getPh]; exact midChannel_calm k s j

@[simp] theorem setHist_getPh (c : Nat) (s : State) (j : Nat) : (setHist c s).getPh j = s.getPh j := rfl

theorem raiseOpt_getPh (p : Producer) (c k : Nat) (a : Option Nat) (s : State) (j : Nat) : (raiseOpt p c k a s).getPh j = s.getPh j := by
  unfold raiseOpt; split <;> rfl

theorem raiseOpt_getCh (p : Producer) (c k : Nat) (a : Option Nat) (s : State) (j : Nat) : (raiseOpt p c k a s).getCh j = s.getCh j := by
  unfold raiseOpt; split <;> rfl

theorem decideCh_calm (k cause : Nat) (arg : Option Nat) (s : State) (j : Nat) : Calm (s.getPh j) ((decideCh k cause arg s).getPh j) := by
  unfold decideCh; dsimp only
  split
  · exact Calm.refl _
  · rw [raiseOpt_getPh]; exact safeChannel_calm k _ j

theorem captureLfr_calm (n cause : Nat) (pre s : State) (j : Nat) : Calm (s.getPh j) ((captureLfr n cause pre s).getPh j) := by
  unfold captureLfr; dsimp only
  apply modPh_calm
  intro p
  split
  · rfl
  · split <;> rfl

theorem setShare_calm (n : Nat) (x : Int) (s : State) (j : Nat) : Calm (s.getPh j) ((setShare n x s).getPh j) :=
  modPh_calm n (fun p => { p with share := x, dac := dacOf s n (s.getPh n).dir x }) (fun _ => rfl) s j

theorem foldl_calm {α : Type} {l : List α} {f : State → α → State} (h : ∀ t i j, Calm (t.getPh j) ((f t i).getPh j)) (s : State) (j : Nat) :
    Calm (s.getPh j) ((l.foldl f s).getPh j) := by
  induction l generalizing s with
  | nil => exact Calm.refl _
  | cons a l ih => exact (h s a j).trans (ih (f s a))

theorem shareEqual_calm (k : Nat) (s : State) (j : Nat) : Calm (s.getPh j) ((shareEqual k s).getPh j) := by
  unfold shareEqual; dsimp only
  split
  · exact Calm.refl _
  · exact foldl_calm (fun t i j => setShare_calm _ _ t j) s j

theorem rampShares_calm (k o step : Nat) (s : State) (j : Nat) : Calm (s.getPh j) ((rampShares k o step s).getPh j) := by
  unfold rampShares
  extract_lets p mine s1 others n more
  have h1 : Calm (s.getPh j) (s1.getPh j) :=
    (setShare_calm (k + o) mine s j).trans (modPh_calm (k + o) (fun p => { p with shedStep := step }) (fun _ => rfl) _ j)
  exact h1.trans (forEach_calm (fun i t j => setShare_calm _ _ t j) s1 j)

theorem cancelShed_calm (k : Nat) (s : State) (j : Nat) : Calm (s.getPh j) ((cancelShed k s).getPh j) := by
  unfold cancelShed; split
  · refine Calm.trans ?_ (shareEqual_calm k _ j)
    exact modPh_calm _ (fun p => { p with shedStep := 0, cntShedX := incSat 16 p.cntShedX, st := if p.dir then .runD else .runC }) (fun _ => rfl) s j
  · exact Calm.refl _

theorem demandEvent_calm (k : Nat) (s : State) (j : Nat) : Calm (s.getPh j) ((demandEvent k s).getPh j) :=
  cancelShed_calm k (modCh k _ s) j

/-! Fields that only some of these change. -/

/-- Level, on-time, shed step and state stay. -/
def Still (p q : Phase) : Prop := q.pwm = p.pwm ∧ q.onTime = p.onTime ∧ q.shedStep = p.shedStep ∧ q.st = p.st ∧ q.lfrOpen = p.lfrOpen ∧ q.lfr = p.lfr

theorem setShare_still (n : Nat) (x : Int) (s : State) (j : Nat) : Still (s.getPh j) ((setShare n x s).getPh j) := by
  unfold setShare; rw [getPh_modPh]; split <;> exact ⟨rfl, rfl, rfl, rfl, rfl, rfl⟩

theorem Still.trans {p q r : Phase} (h : Still p q) (k : Still q r) : Still p r := by
  obtain ⟨a, b, c, d, e, f⟩ := h; obtain ⟨a', b', c', d', e', f'⟩ := k
  exact ⟨a'.trans a, b'.trans b, c'.trans c, d'.trans d, e'.trans e, f'.trans f⟩

theorem foldl_still {α : Type} {l : List α} {f : State → α → State} (h : ∀ t i j, Still (t.getPh j) ((f t i).getPh j)) (s : State) (j : Nat) :
    Still (s.getPh j) ((l.foldl f s).getPh j) := by
  induction l generalizing s with
  | nil => exact ⟨rfl, rfl, rfl, rfl, rfl, rfl⟩
  | cons a l ih => exact (h s a j).trans (ih (f s a))

theorem shareEqual_still (k : Nat) (s : State) (j : Nat) : Still (s.getPh j) ((shareEqual k s).getPh j) := by
  unfold shareEqual; dsimp only
  split
  · exact ⟨rfl, rfl, rfl, rfl, rfl, rfl⟩
  · exact foldl_still (fun t i j => setShare_still _ _ t j) s j

/-- A ramp sets the shed step of its phase and changes no other's level, on-time, step or state. -/
theorem rampShares_ph (k o step : Nat) (s : State) (j : Nat) : Still
    { s.getPh j with shedStep := if k + o = j ∧ j < 128 then step else (s.getPh j).shedStep } ((rampShares k o step s).getPh j) := by
  unfold rampShares; dsimp only
  refine Still.trans ?_ (foldl_still (fun t i j => setShare_still _ _ t j) _ j)
  rw [getPh_modPh]
  obtain ⟨a, b, c, d, e, f⟩ := setShare_still (k + o) (rnd ((s.getPh (k + o)).shedFrom * (8 - step : Nat)) 8) s j
  split
  · exact ⟨a, b, rfl, d, e, f⟩
  · exact ⟨a, b, c, d, e, f⟩

@[simp] theorem setShare_ch (n : Nat) (x : Int) (s : State) : (setShare n x s).ch = s.ch := rfl

theorem foldl_ch {α : Type} {l : List α} {f : State → α → State} (h : ∀ t i, (f t i).ch = t.ch) (s : State) : (l.foldl f s).ch = s.ch := by
  induction l generalizing s with
  | nil => rfl
  | cons a l ih => exact (ih (f s a)).trans (h s a)

@[simp] theorem rampShares_ch (k o step : Nat) (s : State) : (rampShares k o step s).ch = s.ch := by
  unfold rampShares
  extract_lets p mine s1 others n more
  exact (foldl_ch (fun t i => setShare_ch _ _ t) s1).trans rfl

@[simp] theorem shareEqual_ch (k : Nat) (s : State) : (shareEqual k s).ch = s.ch := by
  unfold shareEqual; dsimp only; split
  · rfl
  · exact foldl_ch (fun t i => setShare_ch _ _ t) s

theorem getCh_of_ch {s t : State} (h : t.ch = s.ch) (k : Nat) : t.getCh k = s.getCh k := by simp [State.getCh, h]
theorem getPh_of_ph {s t : State} (h : t.ph = s.ph) (k : Nat) : t.getPh k = s.getPh k := by simp [State.getPh, h]

/-! ### Going to mid -/

theorem midPhase_getPh_ne (r : PhSt) (n : Nat) (s : State) (j : Nat) (h : n ≠ j) : (midPhase r n s).getPh j = s.getPh j := by
  unfold midPhase; dsimp only; rw [getPh_modPh]; simp [h]

theorem midPhase_onTime (r : PhSt) (n : Nat) (s : State) (j : Nat) :
    ((midPhase r n s).getPh j).onTime = ((s.getPh j).onTime && !decide (n = j ∧ j < 128)) := by
  unfold midPhase; dsimp only; rw [getPh_modPh]
  split
  · rename_i h; simp only [h, and_self, decide_true, Bool.not_true, Bool.and_false]; split
    · rfl
    · split <;> rfl
  · rename_i h; simp [h]

/-- A phase that brakes or has a fault goes on to do so. -/
def Held (p q : Phase) : Prop := (p.st = .brake → q.st = .brake) ∧ (p.st = .fault → q.st = .fault)

theorem Held.refl (p : Phase) : Held p p := ⟨id, id⟩
theorem Held.trans {p q r : Phase} (h : Held p q) (k : Held q r) : Held p r := ⟨k.1 ∘ h.1, k.2 ∘ h.2⟩

theorem midPhase_held (r : PhSt) (n : Nat) (s : State) (j : Nat) : Held (s.getPh j) ((midPhase r n s).getPh j) := by
  unfold midPhase; dsimp only; rw [getPh_modPh]
  split
  · constructor <;> intro h <;> simp [h]
  · exact Held.refl _

theorem midList_onTime (l : List Nat) (r : PhSt) (s : State) (j : Nat) :
    ((forEach l (midPhase r) s).getPh j).onTime = ((s.getPh j).onTime && !decide (j ∈ l ∧ j < 128)) := by
  unfold forEach
  induction l generalizing s with
  | nil => simp
  | cons a l ih =>
    rw [List.foldl_cons, ih, midPhase_onTime]
    by_cases h1 : a = j
    · subst h1; by_cases h3 : a < 128 <;> simp [h3]
    · have h2 : ¬ j = a := fun e => h1 e.symm
      simp [h1, h2]

theorem midList_held (l : List Nat) (r : PhSt) (s : State) (j : Nat) : Held (s.getPh j) ((forEach l (midPhase r) s).getPh j) := by
  unfold forEach
  induction l generalizing s with
  | nil => exact Held.refl _
  | cons a l ih => exact (midPhase_held r a s j).trans (ih _)

theorem safeChannel_onTime (k : Nat) (s : State) (j : Nat) :
    ((safeChannel k s).getPh j).onTime = ((s.getPh j).onTime && !decide (j ∈ phasesOf s k ∧ j < 128)) := by
  unfold safeChannel; rw [openDisc_getPh]; exact midList_onTime (phasesOf s k) .idle s j

theorem safeChannel_held (k : Nat) (s : State) (j : Nat) : Held (s.getPh j) ((safeChannel k s).getPh j) := by
  unfold safeChannel; rw [openDisc_getPh]; exact midList_held (phasesOf s k) .idle s j

end Sys2Proof.Machine
end

