-- ==== Sys2Proof/Laws/Regs.lean ====
section
/-!
SUPPORT. The list of configuration words: a store keeps its canonical form, and a read after a store answers the word stored.
-/

namespace Sys2Proof.Machine

theorem regsWf_cons {lo : Nat} {x : Nat × Word} {l : List (Nat × Word)} :
    regsWf lo (x :: l) = true ↔ lo ≤ x.1 ∧ x.2 ≠ cfgDefault x.1 ∧ regsWf (x.1 + 1) l = true := by
  obtain ⟨a, v⟩ := x
  simp [regsWf, Bool.and_eq_true, and_assoc]

theorem regsWf_mono {l : List (Nat × Word)} : ∀ {lo hi : Nat}, lo ≤ hi → regsWf hi l = true → regsWf lo l = true := by
  cases l with
  | nil => intros; rfl
  | cons x l =>
    intro lo hi h k
    rw [regsWf_cons] at k ⊢
    exact ⟨h.trans k.1, k.2⟩

/-- Below the bound nothing is listed. -/
theorem alFind_below {l : List (Nat × Word)} : ∀ {lo a : Nat}, regsWf lo l = true → a < lo → alFind a l = none := by
  induction l with
  | nil => intros; rfl
  | cons x l ih =>
    intro lo a h k
    rw [regsWf_cons] at h
    have : a ≠ x.1 := by omega
    simp only [alFind, this, if_false]
    exact ih h.2.2 (by omega)

theorem regsWf_alSet {l : List (Nat × Word)} {a : Nat} {v : Word} : ∀ {lo : Nat}, lo ≤ a → regsWf lo l = true →
    regsWf lo (alSet (cfgDefault a) a v l) = true := by
  induction l with
  | nil =>
    intro lo h _
    by_cases e : v = cfgDefault a
    · simp [alSet, e, regsWf]
    · simp [alSet, e, regsWf, h]
  | cons x l ih =>
    obtain ⟨j, b⟩ := x
    intro lo h k
    have k' := regsWf_cons.mp k
    simp only at k'
    unfold alSet
    by_cases h1 : a < j
    · rw [if_pos h1]
      by_cases e : v = cfgDefault a
      · rw [if_pos e]; exact k
      · rw [if_neg e, regsWf_cons, regsWf_cons]
        exact ⟨h, e, h1, k'.2⟩
    · rw [if_neg h1]
      by_cases h2 : a = j
      · rw [if_pos h2]
        by_cases e : v = cfgDefault a
        · rw [if_pos e]; exact regsWf_mono (by omega) k'.2.2
        · rw [if_neg e, regsWf_cons]; exact ⟨h, e, h2 ▸ k'.2.2⟩
      · rw [if_neg h2, regsWf_cons]
        exact ⟨k'.1, k'.2.1, ih (by show j + 1 ≤ a; omega) k'.2.2⟩

theorem alFind_alSet {l : List (Nat × Word)} {a : Nat} {v : Word} (c : Nat) : ∀ {lo : Nat}, regsWf lo l = true →
    alFind c (alSet (cfgDefault a) a v l) = if c = a then (if v = cfgDefault a then none else some v) else alFind c l := by
  induction l with
  | nil =>
    intro lo _
    by_cases e : v = cfgDefault a
    · simp [alSet, e, alFind]
    · by_cases h : c = a <;> simp [alSet, e, alFind, h]
  | cons x l ih =>
    obtain ⟨j, b⟩ := x
    intro lo k
    have k' := regsWf_cons.mp k
    simp only at k'
    unfold alSet
    by_cases h1 : a < j
    · rw [if_pos h1]
      by_cases e : v = cfgDefault a
      · rw [if_pos e]
        by_cases h : c = a
        · subst h; simp only [e, if_true]
          exact alFind_below (regsWf_cons.mpr ⟨Nat.le_refl j, k'.2⟩) h1
        · simp [h]
      · rw [if_neg e]
        by_cases h : c = a <;> simp [alFind, h, e]
    · rw [if_neg h1]
      by_cases h2 : a = j
      · subst h2
        rw [if_pos rfl]
        by_cases e : v = cfgDefault a
        · rw [if_pos e]
          by_cases h : c = a
          · subst h; simp only [e, if_true]; exact alFind_below k'.2.2 (by omega)
          · simp [alFind, h]
        · rw [if_neg e]
          by_cases h : c = a <;> simp [alFind, h, e]
      · rw [if_neg h2]
        by_cases h : c = j
        · subst h; simp [alFind, Ne.symm h2]
        · simp only [alFind, h, if_false]; exact ih k'.2.2

/-- A configuration word reads as what was stored last; every other word is unchanged. -/
theorem cfgW_setCfg {a : Nat} {v : Word} {s : State} (h : regsWf 0 s.regs = true) (b : Nat) :
    cfgW (setCfg a v s) b = if b = a then v else cfgW s b := by
  unfold cfgW setCfg
  simp only [alFind_alSet b h]
  by_cases e : b = a
  · subst e
    by_cases d : v = cfgDefault b <;> simp [d]
  · simp [e]

theorem setCfg_regsWf {a : Nat} {v : Word} {s : State} (h : regsWf 0 s.regs = true) : regsWf 0 (setCfg a v s).regs = true :=
  regsWf_alSet (Nat.zero_le a) h

theorem regsWf_filter (p : Nat × Word → Bool) {l : List (Nat × Word)} : ∀ {lo : Nat}, regsWf lo l = true → regsWf lo (l.filter p) = true := by
  induction l with
  | nil => intros; rfl
  | cons x l ih =>
    intro lo h
    have h' := regsWf_cons.mp h
    rw [List.filter_cons]
    split
    · exact regsWf_cons.mpr ⟨h'.1, h'.2.1, ih h'.2.2⟩
    · exact regsWf_mono (by omega) (ih h'.2.2)

end Sys2Proof.Machine
end

