-- ==== Sys2Proof/Laws/Samples.lean ====
section
/-!
SUPPORT. What taking a sample of one front end leaves of every front end: its last sample, accumulator and history.
-/

set_option linter.all false

namespace Sys2Proof.Machine

/-- What a declaration, an over-range run or a block of the streams keeps of a front end: all but its Echo pass, its faults, its
runs and its open block. -/
def Kept (p q : FrontEnd) : Prop :=
  q = { p with echo := q.echo, out := q.out, irng := q.irng, echoAbort := q.echoAbort, subTo := q.subTo, reconn := q.reconn,
               flt := q.flt, fltHist := q.fltHist, vRun := q.vRun, iRun := q.iRun, iReg := q.iReg, nOpen := q.nOpen,
               nRestart := q.nRestart, nAcc := q.nAcc, nRun := q.nRun, nK := q.nK, nVerify := q.nVerify, nMode := q.nMode,
               nQv := q.nQv, nQi := q.nQi }

theorem Kept.refl (p : FrontEnd) : Kept p p := rfl

theorem Kept.trans {p q r : FrontEnd} (h : Kept p q) (k : Kept q r) : Kept p r := by
  unfold Kept at *; rw [k, h]

/-- Every front end of one state is kept in another. -/
def KeptAll (s t : State) : Prop := ∀ j, Kept (s.getFe j) (t.getFe j)

theorem KeptAll.trans {s t u : State} (h : KeptAll s t) (k : KeptAll t u) : KeptAll s u := fun j => (h j).trans (k j)

theorem KeptAll.of_fe {s t : State} (h : t.fe = s.fe) : KeptAll s t := fun j => by
  unfold State.getFe; rw [h]; exact Kept.refl _

theorem KeptAll.modFe {s t : State} {n : Nat} {f : FrontEnd → FrontEnd} (k : KeptAll s t) (h : ∀ p, Kept p (f p)) :
    KeptAll s (modFe n f t) := fun j => by
  rw [getFe_modFe]; split
  · exact (k j).trans (h _)
  · exact k j

/-- A change of other parts keeps the front ends. -/
theorem KeptAll.fe {s t u : State} (k : KeptAll s t) (h : u.fe = t.fe) : KeptAll s u := k.trans (KeptAll.of_fe h)

theorem KeptAll.refl (s : State) : KeptAll s s := KeptAll.of_fe rfl

theorem forEach_kept {l : List Nat} {f : Nat → State → State} (h : ∀ i t, KeptAll t (f i t)) (s : State) :
    KeptAll s (forEach l f s) := by
  unfold forEach
  induction l generalizing s with
  | nil => exact KeptAll.of_fe rfl
  | cons a l ih => exact (h a s).trans (ih (f a s))

theorem abortEcho_kept (n : Nat) (s : State) : KeptAll s (abortEcho n s) := by
  unfold abortEcho; split
  · exact (KeptAll.refl s).modFe fun _ => rfl
  · exact KeptAll.of_fe rfl

theorem declare_kept (k : Nat) (o : Bool) (s : State) : KeptAll s (declare k o s) := by
  unfold declare; dsimp only; split
  · have a : KeptAll s (safeChannel k s) :=
      KeptAll.of_fe ((safeChannel_within (l := [.ph, .ch]) (Within.refl _ s) (by decide)) .fe (by decide))
    have b : KeptAll (safeChannel k s) (abortEchoes k (safeChannel k s)) := forEach_kept (fun i t => abortEcho_kept i t) _
    exact (a.trans b).trans (KeptAll.of_fe rfl)
  · exact KeptAll.of_fe rfl

theorem feCond_kept (n b : Nat) (on : Bool) (s : State) : KeptAll s (feCond n b on s) := (KeptAll.refl s).modFe fun _ => rfl

theorem raiseA_kept (p : Producer) (c ch a : Nat) (s : State) : KeptAll s (raiseA p c ch a s) :=
  KeptAll.of_fe ((raiseA_within (l := [.fab]) (Within.refl _ s) (by decide)) .fe (by decide))

theorem overRuns_kept (n : Nat) (a b c : Bool) (s : State) : KeptAll s (overRuns n a b c s) := by
  unfold overRuns
  extract_lets k f v i r s1 s2 s3
  have h1 : KeptAll s s1 := by
    refine (KeptAll.trans ?_ (feCond_kept _ _ _ _)).trans (feCond_kept _ _ _ _)
    exact KeptAll.modFe (KeptAll.refl s) fun _ => rfl
  have h2 : KeptAll s s2 := h1.trans (by
    show KeptAll s1 (if v = 8 ∧ f.vRun ≠ 8 then declare k true (raiseA .fabric Cause.feVOvr k n s1) else s1)
    split
    · exact (raiseA_kept _ _ _ _ _).trans (declare_kept _ _ _)
    · exact KeptAll.of_fe rfl)
  have h3 : KeptAll s s3 := h2.trans (by
    show KeptAll s2 (if i = 8 ∧ f.iRun ≠ 8 then raiseA .fabric Cause.feIOvr k n s2 else s2)
    split
    · exact raiseA_kept _ _ _ _ _
    · exact KeptAll.of_fe rfl)
  refine h3.trans ?_
  split
  · exact KeptAll.of_fe rfl
  · exact KeptAll.of_fe rfl

theorem openBlock_kept (n : Nat) (a : Int) (r : Nat) (re : Bool) (s : State) : KeptAll s (openBlock n a r re s) := by
  unfold openBlock
  refine KeptAll.fe ?_ (modSqz_fe ..)
  exact KeptAll.modFe (KeptAll.refl s) fun _ => rfl

theorem closeBlock_kept (n off : Nat) (a b c : Bool) (s : State) : KeptAll s (closeBlock n off a b c s) := by
  have st : ∀ t : State, KeptAll t (modRing (n / 4) (fun g => { g with busy := !g.en && openMask (modFe n (fun g => { g with nOpen := false, nRestart := true })
        (modSqz (n / 4) (fun q => { q with pend := setBitN q.pend (n % 4) false }) t)) (n / 4) != 0 }) (modFe n (fun g => { g with nOpen := false, nRestart := true })
        (modSqz (n / 4) (fun q => { q with pend := setBitN q.pend (n % 4) false }) t))) := by
    intro t
    refine KeptAll.fe ?_ (modRing_fe ..)
    exact KeptAll.modFe (KeptAll.fe (KeptAll.refl t) rfl) fun _ => rfl
  unfold closeBlock; dsimp only
  split
  · exact KeptAll.of_fe rfl
  · split
    · rename_i x e
      have sb : KeptAll s (sendBlock x (s.getFe n).nMode (s.getFe n).nQv (s.getFe n).nQi (s.getFe n).nVerify c s) :=
        KeptAll.of_fe ((sendBlock_within (l := [.ring, .sqz, .fab, .free]) (Within.refl _ s) (by decide)) .fe (by decide))
      split
      · exact sb.trans (st _)
      · exact sb.trans (openBlock_kept _ _ _ _ _)
    · split
      · exact st _
      · exact KeptAll.of_fe rfl

theorem blockTick_kept (n : Nat) (b : Bool) (s : State) : KeptAll s (blockTick n b s) := by
  unfold blockTick restartBlock; dsimp only
  repeat' split
  all_goals first | exact KeptAll.of_fe rfl | exact closeBlock_kept _ _ _ _ _ _ | exact openBlock_kept _ _ _ _ _

/-- A sample of front end n becomes its last sample, and leaves every other front end's. -/
theorem takeSample_sample (n : Nat) (v i : Int) (fl : Nat) (vO iO ovr e : Bool) (s : State) :
    (∀ j, j ≠ n → Kept (s.getFe j) ((takeSample n v i fl vO iO ovr e s).getFe j)) ∧
    (n < 128 → Kept { s.getFe n with
        vs := v, is := i, icur := satI 32 (iUa s n i), fl := fl, stk := s.tb.run, acc := signN 64 (wrapN 64 ((s.getFe n).acc + i)), accLast := i,
        accSubst := if bitN fl 2 then incSat 32 (s.getFe n).accSubst else (s.getFe n).accSubst,
        accOvr := if ovr then incSat 32 (s.getFe n).accOvr else (s.getFe n).accOvr,
        hist := ((takeSample n v i fl vO iO ovr e s).getFe n).hist } ((takeSample n v i fl vO iO ovr e s).getFe n)) := by
  unfold takeSample
  extract_lets f k subst acc x s1 s2 s3
  have h2 : s2.fe = s1.fe := by
    show (if regFe s k = n then modCh k (fun c => { c with im := (s1.getFe n).icur, vm := v }) s1 else s1).fe = s1.fe
    split <;> rfl
  have h3 : KeptAll s1 s3 := ((KeptAll.of_fe h2).trans (overRuns_kept _ _ _ _ _)).trans (blockTick_kept _ _ _)
  have h4 : KeptAll s1 (if n = k then fTick k s3 else s3) := h3.trans (by
    split
    · exact KeptAll.of_fe ((fTick_within (l := [.gal, .ring, .fab]) (Within.refl _ s3) (by decide)) .fe (by decide))
    · exact KeptAll.of_fe rfl)
  refine ⟨fun j hj => ?_, fun hn => ?_⟩
  · have := h4 j
    rw [show s1.getFe j = s.getFe j from by show (modFe n _ s).getFe j = _; rw [getFe_modFe, if_neg (fun h => hj h.1.symm)]] at this
    exact this
  · have := h4 n
    generalize (if n = k then fTick k s3 else s3) = u at *
    rw [show s1.getFe n = _ from by show (modFe n _ s).getFe n = _; rw [getFe_modFe, if_pos ⟨rfl, hn⟩]] at this
    unfold Kept at this ⊢
    rw [this]

theorem takeSubst_other (n : Nat) (e : Bool) (s : State) (j : Nat) (h : j ≠ n) : Kept (s.getFe j) ((takeSubst n e s).getFe j) := by
  unfold takeSubst
  split
  rename_i v i fl vO iO ovr q
  have := (takeSample_sample n v i (sampleFlags s n (fl &&& 9) false true) vO iO ovr e (modFe n (fun f => { f with waitSub := none }) s)).1 j h
  rwa [getFe_modFe, if_neg (fun x => h x.1.symm)] at this

theorem partner_ne {s : State} {n m : Nat} (h : partner s n = some m) : m ≠ n := by
  unfold partner at h; dsimp only at h
  split at h
  · split at h
    · cases h; omega
    · split at h
      · cases h; omega
      · cases h
  · cases h

theorem wakePartner_own (n : Nat) (s : State) : Kept (s.getFe n) ((wakePartner n s).getFe n) := by
  unfold wakePartner
  split
  · rename_i m hm
    split
    · exact takeSubst_other m _ s n (partner_ne hm).symm
    · exact Kept.refl _
  · exact Kept.refl _

end Sys2Proof.Machine
end

