-- ==== Sys2Proof/WellFormed.lean ====
section
/-!
DEFINITION. Which commands are well formed: operands inside the ranges their interface can carry (R3, R7, R278).
-/

namespace Sys2Proof

/-- A byte address of the 24-bit register space (R3). -/
def addrOk (a : Nat) : Bool := decide (a < 2 ^ 24)

/-- A UDP datagram carries at most 1,472 bytes (R278). -/
def msgOk (m : List Byte) : Bool := decide (m.length ≤ 1472)

/-- A VID of 12 bits, or an untagged frame. -/
def vidOk (v : Option Nat) : Bool := v.all fun x => decide (x < 2 ^ 12)

/-- An endpoint: IPv4 address, UDP ports, MAC address and VID. -/
def epOk (e : Endpoint) : Bool :=
  decide (e.ip < 2 ^ 32) && decide (e.udp < 2 ^ 16) && decide (e.dport < 2 ^ 16) && decide (e.mac < 2 ^ 48) && vidOk e.vid

/-- A command whose operands its interface can carry. -/
def Instr.wellFormed : Instr → Bool
  | .regWrite _ a _ => addrOk a
  | .rcRead _ a _ => addrOk a
  | .wideReadCapture _ a => addrOk a
  | .feCalWrite _ a _ => addrOk a
  | .sqzCfgWrite _ a _ => addrOk a
  | .nvmWindowWrite _ a _ => addrOk a
  | .imageReadDone _ b h _ _ _ => decide (b.length ≤ 131072) && decide (h.length = 64)
  | .commitDone b _ => decide (b.length ≤ 131072)
  | .imageBlock e m | .hello e m | .bye e m | .heartbeat e m | .read e m | .write e m | .toldTemp e m
  | .toldFixture e m | .toldBudget e m | .toldInhibit e m | .toldCellId e m | .extSetpoint e m | .ringSub e m
  | .ringAck e m | .ringReplay e m | .ringPush e m | .challenge e m | .unlockHmac e m | .unlockPwd e m
  | .enter e m | .exit e m | .regionUnlock e m | .regionLock e m | .regionPwd e m | .tap e m => epOk e && msgOk m
  | .twiTargetRead (some a) _ _ => decide (a.length = 3)
  | .ropeHello _ m => msgOk m
  | .arpRequest _ t i m v => decide (t < 2 ^ 32) && decide (i < 2 ^ 32) && decide (m < 2 ^ 48) && vidOk v
  | .icmpEcho _ i m v b => decide (i < 2 ^ 32) && decide (m < 2 ^ 48) && vidOk v && msgOk b
  | .frameIngress _ f => decide (f.at_ < 125000000) && f.tag.all fun t => decide (t.1 < 2 ^ 12) && decide (t.2 < 8)
  | _ => true

end Sys2Proof
end

