-- ==== Sys2Proof/Tests/Slice0.lean ====
section
/-!
SUPPORT. Tests of the model's author: ill-formed commands that the checks refuse, values that the manual prints, and, for every statement
with hypotheses, a state and operands that meet those of each clause, at the ends of their ranges.
-/

namespace Sys2Proof.Tests

open Sys2Proof Sys2Proof.Machine

set_option Elab.async false

/-! ### Small states -/

/-- In RUN, an image loaded, nothing declared. -/
def run : State := { State.reset with mode := .run, ldr := { ({} : Loader) with st := .loaded, applied := true } }
/-- In SERVICE. -/
def svc : State := { run with mode := .service }
/-- In LOAD, at a step of start-up. -/
def load (x : LdrSt) : State := { State.reset with mode := .load, ldr := { ({} : Loader) with st := x } }
/-- Slot k declared with n phases and populated, with a change of its channel. -/
def slot (k n : Nat) (f : Channel → Channel) (s : State) : State := modCh k (fun c => f { c with nph := n, pop := true }) s
/-- At a tick. -/
def tick (t : Nat) (s : State) : State := { s with tb := { s.tb with run := t } }
/-- The supply sequencer. -/
def supply (f : Seq → Seq) (s : State) : State := modSeq f s
/-- A rail that is enabled, and good or not. -/
def rail (r : Nat) (good : Bool) (s : State) : State := modRail r (fun x => { x with en := true, good := good }) s
/-- A controller's session, number 0. -/
def ctl : Session := { role := .controller, hbMs := 100, ip := 10, udp := 20, hostId := 0x55, seq := 7 }
def ep0 : Endpoint := ⟨0, 10, 20, 51520, 7, none⟩
/-- Both ports up, an address, and a session in place 0. -/
def linked (x : Session) (s : State) : State :=
  { s with link := { s.link with p0 := { up := true }, p1 := { up := true }, ipNow := 0xC0A80001, sess := [some x, none, none, none] } }
/-- A request of session 0. -/
def req (ty seq : Nat) (b : List Byte) : List Byte := pzMsg State.reset ty 0 0 seq b

/-! ### Ill-formed commands -/

theorem test_address_out_of_range :
    [Instr.regWrite .i2c (2 ^ 24) 0, .rcRead .i2c (2 ^ 24) 0, .wideReadCapture .i2c (2 ^ 24), .feCalWrite .i2c (2 ^ 24) 0,
      .sqzCfgWrite .i2c (2 ^ 24) 0, .nvmWindowWrite .i2c (2 ^ 24) 0].all (fun c => !c.wellFormed) = true := by decide

theorem test_short_other_header : (Instr.imageReadDone 0 [] (List.replicate 63 0) none false true).wellFormed = false := by decide

theorem test_endpoint_and_message_too_large :
    ((Instr.hello ⟨0, 2 ^ 32, 0, 0, 0, none⟩ []).wellFormed || (Instr.hello ⟨0, 0, 2 ^ 16, 0, 0, none⟩ []).wellFormed || (Instr.hello ⟨0, 0, 0, 2 ^ 16, 0, none⟩ []).wellFormed ||
      (Instr.hello ⟨0, 0, 0, 0, 2 ^ 48, none⟩ []).wellFormed || (Instr.hello ⟨0, 0, 0, 0, 0, some (2 ^ 12)⟩ []).wellFormed || (Instr.read ep0 (List.replicate 1473 0)).wellFormed)
      = false := by decide +kernel

theorem test_target_address_bytes : (Instr.twiTargetRead (some [0, 0]) 1 .free).wellFormed = false := by decide

theorem test_arp_and_position_out_of_range :
    ((Instr.arpRequest 0 (2 ^ 32) 0 0 none).wellFormed || (Instr.arpRequest 0 0 (2 ^ 32) 0 none).wellFormed ||
      (Instr.arpRequest 0 0 0 (2 ^ 48) none).wellFormed || (Instr.arpRequest 0 0 0 0 (some (2 ^ 12))).wellFormed)
      = false := by decide

theorem test_container_too_long : ∀ n, 131072 < n → (Instr.commitDone (List.replicate n 0) true).wellFormed = false := by
  intro n h
  simp only [Instr.wellFormed, List.length_replicate, decide_eq_false_iff_not]
  omega

theorem test_well_formed : (Instr.regWrite .i2c (2 ^ 24 - 1) 0).wellFormed = true ∧ (Instr.hello ep0 (List.replicate 1472 0)).wellFormed = true := by decide +kernel

/-! ### Witnesses: the whole block -/

theorem witness_StepTakesTheFrontCommand : run.pending = [] := rfl

theorem witness_EachCommandKeepsWhatItDoesNotTouch : ∃ t, exec .ppsEnd run = .next t := ⟨_, rfl⟩

/-- A state in which each kept list holds something. -/
def kept : State :=
  { setCfg 0x002004 5 run with
    nvm := { ({} : Nvm) with mem := [(0, 1), (1048575, 255)] }, shadow := { wide := [(0x002088, 1)] } :: List.replicate 8 {} }

theorem witness_StoredWordsStayCanonical :
    regsWf 0 kept.regs = true ∧ kept.regs ≠ [] ∧ Memory.wf kept = true ∧ CapturesWf kept ∧ ∃ t, step kept = .next t :=
  ⟨by decide +kernel, by decide +kernel, by decide, by unfold CapturesWf; decide, _, rfl⟩

theorem witness_TablesKeepTheirLengths : Lengths kept = true ∧ ∃ t, step kept = .next t := ⟨by decide, _, rfl⟩

/-- A stack of two sources. -/
def stacked : State := { run with intc := { ({} : Intc) with stk := [] :: [] :: [] :: [] :: [(5, 15), (3, 0)] :: List.replicate 3 [] } }

theorem witness_ClaimStacksKeepRising : StacksRise stacked ∧ ∃ t, step stacked = .next t := ⟨by unfold StacksRise; decide, _, rfl⟩

theorem witness_AtMostOneController : OneController (linked ctl run) ∧ ∃ t, step (linked ctl run) = .next t := by
  have h : ∀ i x, (linked ctl run).getSess i = some x → i = 0 := by
    intro i x h
    rcases i with _ | _ | _ | _ | i
    · rfl
    all_goals first | exact absurd h (by decide) | exact absurd h (by simp [State.getSess, linked])
  exact ⟨⟨rfl, fun i j x y a b _ _ => (h i x a).trans (h j y b).symm⟩, _, rfl⟩

theorem witness_CodingErrorIsBounded : (2 ≠ 0 ∧ 2 % 2 = 0) ∧ (65534 ≠ 0 ∧ 65534 % 2 = 0) ∧ 2 ^ 24 < 2 ^ 32 := by decide

theorem witness_CodedStreamsDecode : 23 ≤ 23 ∧ ∀ u ∈ sqzResiduals 3 0 [0] [-8388608, 8388607, 5], u < 2 ^ 32 := by decide

/-- Grades with one bin, for capacity 100 to 200. -/
def oneBin : List Byte := [1, 0, 1, 0] ++ [1, 0, 0, 0] ++ leBytes 4 100 ++ leBytes 4 200 ++ List.replicate 24 0

theorem witness_TheFirstMatchingBinWins :
    0 < byteAt oneBin 2 ∧ binMatch oneBin 0 ⟨some 200, none, none, none⟩ = true ∧ binMatch oneBin 0 ⟨some 201, none, none, none⟩ = false ∧
    alFind (run.getCh 127).rcp.recipe { ({} : Recipes) with grades := [(0, oneBin)] }.grades = some oneBin ∧
    binOf oneBin (gradedOf { run with rcp := { ({} : Recipes) with grades := [(0, oneBin)] } } 127) = 0xFF := by decide +kernel

/-- A device safe state that may be released, entered from a mode. -/
def held (m : Mode) : State :=
  rail 4 true (rail 5 true (tick 8192 { run with
    mode := .safe
    saf := { ({} : Island) with dev := some (Cause.safSumpOv2, 0xFF), sigOk := true, checked := true, keepAlive := true, from_ := m } }))

theorem witness_DeviceReleaseReturnsToTheFormerMode :
    (∀ m ∈ [Mode.run, .service], (held m).mode.up = true ∧ loaderBusy (held m) = false ∧ mayRelease (held m) .i2c = true ∧
      devUnmet (held m) = none) ∧
    (linked ctl (held .service)).getSess 0 = some ctl ∧ ctl.role = .controller ∧
    (∀ x ∈ (held .service).link.sess, ∀ y, x = some y → y.role ≠ .controller) ∧
    (held .run).saf.keepAlive = true ∧ (held .run).saf.checked = true ∧ (held .run).saf.proof = none := by
  refine ⟨by decide +kernel, rfl, rfl, ?_, rfl, rfl, rfl⟩
  intro x hx y e
  simp [held, rail, tick, run, State.reset, modRail] at hx
  simp [hx] at e

theorem witness_ModeCodesAreThoseOfTheManual : 3 < 4 ∧ Lengths run = true ∧ run.mode.up = true := by decide +kernel
/-! ### Witnesses: registers -/

theorem witness_RegisterWritesByAccessType :
    (0x0FFFFF % 4 ≠ 0) ∧ findReg 0x001FFC = none ∧
    (loaderBusy run = false ∧ (findReg 0x002084).map (·.row.acc) = some .ro ∧ slotReg 0x002084 = false) ∧
    ((load .reading).mode.up = true ∧ loaderBusy (load .reading) = true ∧ (findReg 0x002000).isSome = true ∧
      (findReg 0x002000).map (·.row.id) ≠ some .ldrCmd) ∧
    (run.mode.up = true ∧ (findReg 0x03FC10).isSome = true ∧ slotReg 0x03FC10 = true ∧ populated run 127 = false) ∧
    ((findReg 0x002004).map (·.row.id) = some .cfg ∧ (findReg 0x002004).map (·.row.acc) = some .rwl ∧ slotReg 0x002004 = false ∧
      regsWf 0 run.regs = true ∧ run.mode ≠ .load ∧ run.mode ≠ .service ∧ svc.mode = .service ∧ loaderBusy svc = false) ∧
    ((findReg 0x03FC14).map (·.row.id) = some .cfg ∧ populated (slot 127 1 id run) 127 = true) ∧ State.reset.mode.up = false ∧
    ((findReg 0x010028).map (·.row.id) = some .cfg ∧ (findReg 0x010028).map (·.inst) = some 0 ∧ populated (slot 0 1 id svc) 0 = true ∧
      native (slot 0 1 id svc) 0 = false) := by decide +kernel

theorem witness_ReadsClearAndCapture :
    (run.mode.up = true ∧ (findReg 0x000210).map (·.row.acc) = some .rc) ∧ findReg 0x001FFC = none ∧
    ((findReg (Addr.fe 127 0xA0)).map (fun h => captureSet run (Addr.fe 127 0xA0) h != []) = some true) ∧
    (isRc 0x002004 = false ∧ (findReg 0x002004).map (captureSet run 0x002004) = some [] ∧ State.reset.mode.up = false) ∧
    Lengths run = true ∧ CapturesWf run :=
  ⟨by decide +kernel, by decide +kernel, by decide +kernel, by decide +kernel, rfl, by unfold CapturesWf; decide⟩

theorem witness_RecipeWindowAndCodecWrites :
    Lengths run = true ∧ run.mode = .run ∧ loaderBusy run = false ∧ regsWf 0 run.regs = true ∧
    field 3 0 2 = 3 ∧ field 2 0 2 ≠ 3 ∧
    ((0x00030002 : Word) ≠ 0 ∧ (stepOk (field 0x00030002 0 16) && stepOk (field 0x00030002 16 16)) = false) ∧
    (stepOk (field 0xFFFE0002 0 16) = true ∧ stepOk (field 0xFFFE0002 16 16) = true) ∧
    (State.reset.mode.up = false ∧ (load .reading).mode.up = true ∧ loaderBusy (load .reading) = true ∧ svc.mode = .service ∧
      loaderBusy svc = false) ∧
    (sqzMode run 31 ≠ 1 ∧ sqzMode (setCfg 0x00907C 1 run) 31 = 1) ∧
    (sqzVerify run 31 = false ∧ (4 : Word).toNat.testBit 2 = true) := by decide +kernel

/-! ### Witnesses: supplies -/

/-- The supply sequencer in a state, at a slot. -/
def sup (x : SeqSt) (r : Nat) (m : Mode) (f : Seq → Seq) : State := supply (fun q => f { q with st := x, slot := r, vinOk := true }) { run with mode := m }

theorem witness_PowerUpGoesFromSlotToSlot :
    (State.reset.mode = .backup ∧ State.reset.seq.st = .off ∧ State.reset.seq.shipLatch = false ∧ run.mode ≠ .backup) ∧
    ((supply (fun q => { q with shipLatch := true }) State.reset).seq.shipLatch = true ∧ State.reset.rtc.wakePend = false ∧
      { State.reset with rtc := { State.reset.rtc with wakePend := true } }.rtc.wakePend = true) ∧
    (∀ r ∈ [0, 6, 7], let s := rail r false (sup .up r .load id);
      s.seq.st = .up ∧ s.seq.slot = r ∧ (s.getRail r).en = true ∧ (s.getRail r).good = false ∧ s.seq.restExit = none) ∧
    (∀ m ∈ [Mode.run, .safe], ∀ r ∈ [6, 7], let s := rail r false (sup .up r .rest fun q => { q with restExit := some m });
      s.seq.st = .up ∧ s.seq.slot = r ∧ (s.getRail r).en = true ∧ (s.getRail r).good = false ∧ s.seq.restExit = some m) ∧
    (let s := rail 7 false (sup .on 7 .run id); s.seq.st = .on ∧ (s.getRail 7).en = true ∧ (s.getRail 7).good = false) ∧
    ((State.reset.getRail 0).en = false ∧ State.reset.seq.st ≠ .restartWait) ∧
    (supply (fun q => { q with st := .restartWait }) State.reset).seq.vinOk = false ∧
    (∀ l ∈ [true, false], let s := sup .restartWait 0 .backup fun q => { q with shipLatch := true, onLatched := l };
      s.seq.st = .restartWait ∧ s.seq.vinOk = true ∧ s.mode = .backup ∧ s.seq.shipLatch = true ∧ s.seq.onLatched = l) ∧
    (let s := sup .restartWait 0 .load id; s.seq.st = .restartWait ∧ s.seq.vinOk = true ∧ s.mode ≠ .backup) := by decide +kernel

theorem witness_PowerDownDisablesDescending :
    (let s := rail 5 true (sup .down 7 .run id);
      s.seq.st = .down ∧ s.seq.slot = 7 ∧ (s.getRail 7).en = false ∧ s.seq.restEntry = false ∧ 5 < 7 ∧ (s.getRail 5).en = true ∧
      ∀ j, j < 7 → 5 < j → (s.getRail j).en = false) ∧
    (run.seq.st ≠ .down ∧ run.seq.st ≠ .reverse ∧ downReady run = false) ∧
    downReady (sup .on 0 .run fun q => { q with wait := some .ship }) = true ∧
    ((run.getRail 0).en = false ∧ (rail 0 true (sup .on 0 .run fun q => { q with pfw := true })).seq.pfw = true) ∧
    (∀ x ∈ [SeqSt.on, .up, .down, .off, .reverse, .restartWait], let s := rail 0 true (sup x 0 .run id);
      (s.getRail 0).en = true ∧ s.seq.pfw = false ∧ s.seq.st = x ∧ s.seq.restEntry = false) ∧
    (shuttingDown (sup .on 0 .run id) = false ∧ (let s := sup .on 0 .run fun q => { q with wait := some .ship }; shuttingDown { s with nvm := { s.nvm with lock := true } } = true)) ∧
    (∀ r ∈ [0, 3, 4, 5, 6, 7], let s := rail r true (sup .on 0 .run id);
      s.seq.st = .on ∧ (s.getRail r).en = true ∧ (s.getRail r).good = true) ∧
    (let s := rail 0 false (sup .on 0 .run id); (s.getRail 0).good = false) ∧
    (let s := rail 7 true (sup .up 0 .run id); s.seq.st ≠ .on ∧ s.seq.restExit = none ∧ s.seq.restEntry = false) := by decide +kernel

theorem witness_ButtonAndSeqCommands :
    (cfgF (setCfg 0x001000 0 run) 0x001000 0 1 = 0 ∧
      cfgF (setCfg 0x001000 0 run) 0x001000 1 1 = 0 ∧ cfgF (setCfg 0x001000 0 run) 0x001000 2 1 = 0) ∧
    (∀ x ∈ [SeqSt.on, .up, .down, .off, .reverse, .restartWait], ∀ m ∈ [Mode.ship, .backup, .run, .rest],
      let s := setCfg 0x001000 7 (sup x 0 m id);
      cfgF s 0x001000 0 1 = 1 ∧ cfgF s 0x001000 1 1 = 1 ∧ cfgF s 0x001000 2 1 = 1 ∧ s.mode = m ∧ s.seq.st = x ∧ s.seq.wait = none ∧
      s.seq.restExit = none ∧ s.seq.vinOk = true ∧ s.seq.restEntry = false) ∧
    (let s := setCfg 0x001000 7 (sup .down 0 .rest fun q => { q with restEntry := true }); s.seq.st ≠ .off ∧ s.seq.restEntry = true) ∧
    (sequenceRuns (sup .down 0 .run id) = true ∧ sequenceRuns (sup .up 0 .run fun q => { q with restExit := some .run }) = true) ∧
    (run.mode.up = true ∧ loaderBusy run = false ∧ svc.mode = .service ∧ loaderBusy svc = false ∧ run.mode ≠ .service) ∧
    (State.reset.mode.up = false ∧ (load .reading).mode.up = true ∧ loaderBusy (load .reading) = true ∧ (0x68 : Byte) ≠ 0x69) ∧
    (let s := rail 7 true (sup .on 0 .rest id);
      s.mode = .rest ∧ s.seq.st = .on ∧ s.seq.wait = none ∧ (s.getRail 7).en = true) := by decide +kernel

/-! ### Witnesses: the loader -/

/-- Fuses that say the store is formatted. -/
def formatted (s : State) : State := { s with acc := { s.acc with fuse := lset s.acc.fuse 17 (fuseFieldWord 1) } }
/-- After the island's self-check. -/
def checked (s : State) : State := { s with saf := { s.saf with checked := true } }
/-- A store with a valid copy of the table. -/
def tabled (s : State) : State := { s with nvm := { s.nvm with mem := nvmPut 0 (recHeader Kind.table 0 1 tabFresh ++ tabFresh) [] } }
/-- A header of generation 2. -/
def header : List Byte :=
  [0x43, 0x4C, 0x47, 0x49, 1, 0, 1, 0, 2, 0, 0, 0, 80, 0, 0, 0, 0x28, 0x71] ++ List.replicate 42 0 ++ leBytes 4 695595666
/-- An update whose header is held. -/
def update (committing : Bool) : Update :=
  { sess := 0, slot := 1, held := header.map some, high := 64, pages := [(64, [1]), (128, [2])], block := none, committing := committing }
def updating (committing : Bool) : State := { linked ctl run with ldr := { run.ldr with gen := 1, upd := some (update committing) } }

theorem witness_StartUpStepsOfTheLoader_recall : recallReason (checked (tabled (formatted (load .boot)))) = none := by
  have e : (checked (tabled (formatted (load .boot)))).nvm.mem = nvmPut 0 (recHeader Kind.table 0 1 tabFresh ++ tabFresh) [] := by
    simp only [checked, tabled]
  have h := copyValid_put (m := []) rfl e (by decide) (by decide) (by decide +kernel) (by decide +kernel)
  rw [show tabFresh.length = 240 by decide +kernel] at h
  have n : (newerCopy (checked (tabled (formatted (load .boot)))) Kind.table 0).isSome = true := by
    unfold newerCopy
    simp only [show recPlace Kind.table 0 = (0, 256, 240) from rfl, h, Bool.true_and, if_true]
    split
    · split <;> rfl
    · rfl
  have f : storeFmt (checked (tabled (formatted (load .boot)))) = true := by decide +kernel
  have go : ∀ s : State, storeFmt s = true → (newerCopy s Kind.table 0).isSome = true → s.nvm.bad = [] → recallReason s = none := by
    intro s f n b
    cases e : newerCopy s Kind.table 0 with
    | none => rw [e] at n; cases n
    | some x => simp [recallReason, f, e, b]
  exact go _ f n rfl

theorem witness_StartUpStepsOfTheLoader :
    ((load .boot).mode = .load ∧ (load .boot).ldr.st = .boot ∧ fuseOk (load .boot) = true ∧ (load .boot).saf.checked = false ∧
      (load .boot).ldr.t2 = none ∧ run.mode ≠ .load) ∧
    fuseOk { load .boot with acc := { ({} : Acc) with fuse := lset State.reset.acc.fuse 14 1 } } = false ∧
    (let s := { load .boot with ldr := { (load .boot).ldr with t2 := some 0 } };
      s.ldr.t2.isSome = true ∧ s.saf.checked = false ∧ (checked s).saf.checked = true ∧ (checked s).ldr.t2.isSome = true ∧
      recallReason (checked s) = some 1 ∧ since s 0 < floorTk 15 ∧ floorTk 15 ≤ since (tick (floorTk 15) s) 0) ∧
    (∀ l ∈ [[], [1], [1, 0]], ∀ c ∈ [0, 7], let s := { load .reading with ldr := { (load .reading).ldr with order := l, cause := c } };
      s.ldr.st = .reading ∧ inLoad s = true ∧ s.ldr.order = l ∧ s.ldr.cause = c) ∧
    (hdrGen [] = 0 ∧ (0 : Nat) ≠ (1 : Fin 2).val ∧ run.ldr.st ≠ .reading ∧ ∃ e, checkContainer [] = .inl e) ∧
    (∀ x ∈ [LdrSt.applying, .selftest], let s := { load x with ldr := { (load x).ldr with image := some [] } };
      s.mode = .load ∧ s.ldr.st = x ∧ s.ldr.image = some [] ∧ inLoad s = true ∧ (s.getCh 127).safe = none) ∧
    (let s := { load .selftest with mode := .safe, saf := { ({} : Island) with from_ := .load }, ldr := { (load .selftest).ldr with image := some [] } };
      s.mode ≠ .load ∧ inLoad s = true) ∧
    (run.ldr.st ≠ .applying ∧ run.ldr.image = none) :=
  ⟨by decide +kernel, by decide +kernel, by decide +kernel, by decide +kernel, ⟨by decide +kernel, by decide, by decide, _, rfl⟩,
    by decide +kernel, by decide +kernel, by decide +kernel⟩

theorem witness_LoaderCommandsAndUpdates :
    (State.reset.mode.up = false ∧ run.mode = .run ∧ run.ldr.st = .loaded ∧ ldrMay run .i2c = true ∧ loading run = false ∧ run.tb.drain = none ∧
      (supply (fun q => { q with st := .on }) run).seq.st = .on ∧ run.seq.wait = none ∧ run.seq.st ≠ .on) ∧
    ((0x3D : Byte) ≠ 0x3C ∧ ldrMay (linked ctl run) (.sess 1) = false) ∧
    ((load .reading).mode.up = true ∧ ldrMay (load .reading) .i2c = true ∧ loading (load .reading) = true) ∧
    (let s := supply (fun q => { q with st := .on }) (load .noImage);
      s.mode = .load ∧ loading s = false ∧ s.ldr.st ≠ .halted ∧ ldrMay s .i2c = true ∧ s.seq.st = .on ∧ s.seq.wait = none) ∧
    ((updating false).mode.up = true ∧ ldrMay (updating false) (.sess 0) = true ∧ (updating false).ldr.gen < hdrGen header) ∧
    ((updating false).ldr.upd = some (update false) ∧ (update false).sess = 0 ∧ (update false).slot = 1 ∧
      (updating true).ldr.upd = some (update true) ∧ (update true).committing = true) ∧
    (heldHdr (update true) = some header ∧ hdrGen header ≤ 2 ∧ hdrGen header ≠ 0) ∧
    (heldHdr { update false with held := List.replicate 64 none } = none ∧ run.ldr.upd = none) ∧
    ((update false).pages = (64, [1]) :: (128, [2]) :: [] ∧ { update false with pages := [(64, [1])] }.pages = [(64, [1])]) :=
  ⟨by decide +kernel, by decide +kernel, by decide +kernel, by decide +kernel, by decide +kernel, ⟨rfl, rfl, rfl, rfl, rfl⟩,
    ⟨by rfl, by decide +kernel, by decide +kernel⟩, ⟨by rfl, rfl⟩, ⟨rfl, rfl⟩⟩
/-! ### Witnesses: phases -/

/-- Channel 126 conducts on phase 126, alone or with 127, at tick 1. -/
def conducting (n : Nat) (f : Phase → Phase) : State :=
  rail 1 true (tick 1 (modGal 7 (fun g => { g with sen := true, awake := true })
    (modPh (126 + n - 1) (fun p => f { p with st := .runC })
      (slot 126 n (fun c => { c with st := .step, disc := true, active := upto n, allMid := false, token := n - 1, reg := { c.reg with iDem := 1 } })
        (setCfg (Addr.ph 126 0) 500 (setCfg (Addr.ph 127 0) 500 { run with saf := { run.saf with keepAlive := true } }))))))

theorem witness_OnTimesTokenAndLimits_starts :
    (mayStart (conducting 1 id) 126 86 = true ∧ mayStart (conducting 1 id) 126 85 = false ∧ chanOr (conducting 1 id) 126 = 126 ∧
      ((conducting 1 id).getCh 126).nph < 2 ∧ ((conducting 1 id).getPh 126).limNow = false ∧ ((conducting 1 id).getPh 126).shedStep = 0) ∧
    (mayStart (conducting 2 id) 127 86 = true ∧ chanOr (conducting 2 id) 127 = 126 ∧ 2 ≤ ((conducting 2 id).getCh 126).nph ∧
      ((conducting 2 id).getPh 127).limNow = false ∧ ((conducting 2 id).getPh 127).shedStep = 0) ∧
    (let s := conducting 1 fun p => { p with limNow := true, limCycle := true };
      mayStart s 126 86 = true ∧ (s.getPh 126).limNow = true ∧ (s.getPh 126).limCycle = true) := by decide +kernel

theorem witness_OnTimesTokenAndLimits_ends :
    (let s := conducting 1 fun p => { p with onTime := true, tonCode := 10, tStart := 5 };
      (s.getPh 126).onTime = true ∧ (s.getPh 126).limNow = false ∧ (s.getPh 126).tonCode ≤ 15 - (s.getPh 126).tStart ∧
      14 - (s.getPh 126).tStart < (s.getPh 126).tonCode ∧ 24 - 5 < tonMax s 126 10 ∧ tonMax s 126 10 ≤ 25 - 5) ∧
    (let s := conducting 1 fun p => { p with onTime := true, limNow := true };
      blanked s 126 0 = false ∧ blanked (setCfg (Addr.ph 126 0) 0x11F4 s) 126 12 = true ∧ blanked (setCfg (Addr.ph 126 0) 0x11F4 s) 126 13 = false) ∧
    (let s := conducting 1 fun p => { p with pwm := .low };
      (s.getPh 126).onTime = false ∧ (s.getPh 126).pwm.switching = true) ∧
    ((conducting 1 id).mode.up = true ∧ populated (conducting 1 id) (chanOr (conducting 1 id) 126) = true ∧ phFsw (conducting 1 id) 126 ≠ 0 ∧
      ((conducting 1 id).getPh 126).tonMail.length ≤ 2 ∧ populated run (chanOr run 126) = false) ∧
    (let s := conducting 2 id;
      2 ≤ (s.getCh (chanOr s 127)).nph ∧ (s.getCh (chanOr s 127)).allMid = false ∧ (s.getCh (chanOr s 127)).token = 127 - chanOr s 127 ∧
      (s.getCh (chanOr s 127)).active.contains (127 - chanOr s 127) = true ∧
      (s.getCh (chanOr s 127)).tokT + 2 * 2 ^ 30 / ((s.getCh (chanOr s 127)).active.length * phFsw s (chanOr s 127) * 1000) ≤ 2147) := by decide +kernel

/-- A detection at instant 0 that brought channel 126 to mid while phase 126 was on. -/
def coinciding : State :=
  modCh 126 (fun c => { c with det := some (0, 0) }) (conducting 1 fun p => { p with cut := true })

theorem witness_OnTimesTokenAndLimits_limits :
    (beyondOcf (conducting 1 id) 126 4095 = true ∧ beyondOcf (conducting 1 id) 126 0 = false ∧ (conducting 1 id).mode.up = true ∧
      populated (conducting 1 id) (chanOr (conducting 1 id) 126) = true) ∧
    (coincides coinciding 126 3 = true ∧ coincides coinciding 126 4 = false ∧ (coinciding.getPh 126).onTime = false) ∧
    (∀ r ∈ [0, 7], ((conducting 1 fun p => { p with ocfRun := r }).getPh 126).limCycle = false) ∧
    ((run.getPh 127).ocsBins = [] ∧ ((0 : Int).natAbs : Int) ≤ phOcsThr run 127 ∧ phOcsThr run 127 < ((1 : Int).natAbs : Int)) ∧
    (((conducting 1 id).getGal (galOf 126)).sen = true ∧ (run.getGal (galOf 126)).sen = false ∧ imonInRange 68 = false ∧
      imonInRange 69 = true ∧ imonInRange 4027 = true ∧ imonInRange 4028 = false) ∧
    (bitN (run.getPh 127).flt 0 = false ∧ bitN ((modPh 127 (fun p => { p with flt := 1 }) run).getPh 127).flt 0 = true) := by decide +kernel

/-- Channel 126 with two active phases, ready to shed one. -/
def shedable : State :=
  modCh 126 (fun c => { c with dwell := 1, sinceEv := 4 })
    (setCfg (Addr.ph 126 0x28) 0xFF11 (setCfg (Addr.ph 126 0x2C) 1 (setCfg (Addr.ph 126 0x0C) 1000 (conducting 2 id))))
/-- A confirmation test whose bias has risen. -/
def biased (a b : Bool) : ConfTest := { biased := true, openA := a, openB := b }
/-- Channel 126, native, under test. -/
def tested (a b : Bool) (x : ChSt) : State := slot 126 2 (fun c => { c with test := some (biased a b), st := x }) run

theorem witness_BrakeShedAndConfirmation :
    (((conducting 1 id).getGal 7).sen = true ∧ (run.getGal 7).sen = false) ∧
    (((modPh 127 (fun p => { p with st := .brake }) run).getPh 127).st = .brake ∧ (run.getPh 127).st ≠ .brake ∧
      phBrkExit run 127 = 0 ∧ imonOf run 127 0 = 0 ∧
      phBrkExit (setCfg (Addr.ph 127 4) 100 run) 127 < (imonOf (setCfg (Addr.ph 127 4) 100 run) 127 4095).natAbs) ∧
    (((modCh 127 (fun c => { c with discOpening := true }) run).getCh 127).discOpening = true) ∧
    shedDue shedable 126 = true ∧ shedDue (modCh 126 (fun c => { c with dwell := 0 }) shedable) 126 = false := by decide +kernel

theorem witness_BrakeShedAndConfirmation_opens :
    (let s := conducting 2 fun p => { p with shedStep := 8, olRun := 4 };
      shedding s 126 = some 1 ∧ (s.getPh (126 + 1)).shedStep = 8 ∧ (s.getCh 126).active.filter (· != 1) ≠ [] ∧ (s.getPh 127).olRun = 4 ∧
      (s.getCh (chanOr s 127)).active.contains (127 - chanOr s 127) = true ∧ (s.getCh (chanOr s 127)).suspect = false ∧
      (s.getCh (chanOr s 127)).st.active = true) ∧
    (shedding run 126 = none ∧ (run.getPh 127).olRun ≠ 4) ∧
    (∀ a ∈ [true, false], ∀ b ∈ [true, false], ∀ x ∈ [ChSt.step, .lost],
      ((tested a b x).getCh 126).test = some (biased a b) ∧ (biased a b).biased = true ∧ (biased a b).openA = a ∧ (biased a b).openB = b ∧
      native (tested a b x) 126 = true ∧ ((tested a b x).getCh 126).st = x ∧ ((tested a b x).getCh 126).fltNext = none) ∧
    (native (slot 126 1 id run) 126 = false ∧ (run.getCh 126).test = none) := by decide +kernel

/-! ### Witnesses: the island -/

theorem witness_DeviceSafeStateOutputs :
    (run.mode.up = true ∧ run.saf.dev = none ∧ declared (slot 127 1 id run) 127 = true ∧ State.reset.mode.up = false) ∧
    (isThreshold 0x005400 = true ∧ (1 : Word) ≠ 0 ∧ isThreshold 0x00500C = false) ∧
    (held .run).saf.dev = some (Cause.safSumpOv2, 0xFF) ∧
    ({ run with saf := { run.saf with ov2 := true } }.saf.ov2 = true ∧ run.saf.ov2 = false) := by decide +kernel

/-- A channel in a step with a told temperature at its limit. -/
def toldHot100 : State :=
  modTold 127 (fun x => { x with t := some (0, 0) }) (slot 127 1 (fun c => { c with st := .hold }) run)

/-- Front end 0 powered, its comparator test due at run tick 0, with a reading. -/
def testDue (vs : Nat) (x : Option Nat) : State :=
  modFe 0 (fun f => { f with pwr := 3, vs := vs, cmpDefer := x }) (setCfg 0x005000 2 run)

theorem witness_IslandChecksAndTests :
    (tempEn (setCfg 0x005000 1 run) = true ∧ tempEn run = false ∧ State.reset.mode.up = false) ∧
    (((toldHot100.getCh 127).st = .step ∨ (toldHot100.getCh 127).st = .hold) ∧ toldHot toldHot100 127 = true ∧ toldOld toldHot100 127 = false) ∧
    (let s := modTold 127 (fun x => { x with t := some (0, 0) }) (tick (secTk 60) (slot 127 1 (fun c => { c with st := .step }) (setCfg (Addr.saf 127 0xC) 6000 (setCfg 0x005004 1000 run))));
      toldHot s 127 = false ∧ toldOld s 127 = true) ∧
    (let s := modTold 127 (fun x => { x with t := some (0, 0) }) (slot 127 1 (fun c => { c with st := .step }) (setCfg (Addr.saf 127 0xC) 6000 (setCfg 0x005004 1000 run)));
      toldHot s 127 = false ∧ toldOld s 127 = false) ∧
    (((slot 127 1 (fun c => { c with st := .step }) run).getCh 127).st = .step ∧ (run.getTold 127).t = none ∧ (run.getCh 127).st ≠ .step) ∧
    (chSafe run 127 = false ∧ chSafe (slot 127 1 (fun c => { c with safe := some Cause.safTmax }) run) 127 = true) ∧
    (vioGood (rail 1 true run) = true ∧ vioGood run = false) ∧
    ((modGal 7 (fun x => { x with sflt := true }) run).getGal 7).sflt = true ∧
    (8 ≤ { run with fab := { run.fab with ovNow := 8 } }.fab.ovNow ∧ run.fab.ovNow < 8) ∧
    (run.ldr.applied = true ∧ State.reset.ldr.applied = false ∧ inSafetySet 0x005000 = true ∧ inSafetySet 0x002000 = false) := by decide +kernel

theorem witness_IslandChecksAndTests_comparators :
    (cmpDue (setCfg 0x005008 1 run) 127 = none ∧ cmpDue (testDue 2050000 none) 0 = some (0, 1) ∧ (testDue 2050000 none).mode.up = true ∧
      cmptEn (testDue 2050000 none) = true ∧ fePowered (testDue 2050000 none) 0 = true ∧ ((testDue 2050000 none).getFe 0).cmpTest = none ∧
      ((testDue 2050000 none).getFe 0).cmpDone < 1) ∧
    (cmpTestOk (testDue 2050000 none) 0 = true ∧ cmpTestOk (testDue 2049999 none) 0 = false ∧
      ((testDue 2049999 none).getFe 0).cmpDefer = none ∧ ((testDue 2049999 (some 0)).getFe 0).cmpDefer = some 0) ∧
    (let s := setCfg 0x005008 64 (testDue 2049999 (some 0));
      since s 0 < secTk (cmptS s) ∧ secTk (cmptS s) ≤ since (tick (secTk (cmptS s)) s) 0) ∧
    (∀ r ∈ [false, true], ∀ q ∈ [false, true], let s := modFe 127 (fun f => { f with cmpTest := some r, cmpRetest := q }) run;
      (s.getFe 127).cmpTest = some r ∧ (s.getFe 127).cmpRetest = q ∧ (s.getFe 127).cmpOv = false ∧ (s.getFe 127).cmpUv = false) := by decide +kernel

/-- The reference is no part of the set it is compared with. -/
theorem signature_setRef (v : Word) : signature (safW (setCfg 0x00500C v run)) = signature (safW run) := by
  have h : ∀ a, a ≠ 0x00500C → safW (setCfg 0x00500C v run) a = safW run a := by
    intro a ha
    unfold safW
    rw [cfgW_setCfg rfl, if_neg ha]; rfl
  have c : safetyBytes (safW (setCfg 0x00500C v run)) = safetyBytes (safW run) := by
    unfold safetyBytes
    have e1 : (fun i => leBytes 4 (safW (setCfg 0x00500C v run) (0x005400 + 4 * i)).toNat) =
        fun i => leBytes 4 (safW run (0x005400 + 4 * i)).toNat := funext fun i => by rw [h _ (by omega)]
    have e2 : (fun n => leBytes 4 (safW (setCfg 0x00500C v run) (Addr.fe n 8)).toNat) =
        fun n => leBytes 4 (safW run (Addr.fe n 8)).toNat := funext fun n => by rw [h _ (by unfold Addr.fe; omega)]
    have e3 : (fun n => leBytes 4 (safW (setCfg 0x00500C v run) (Addr.ph n 0x10)).toNat ++
          leBytes 4 (safW (setCfg 0x00500C v run) (Addr.ph n 0x14)).toNat) =
        fun n => leBytes 4 (safW run (Addr.ph n 0x10)).toNat ++ leBytes 4 (safW run (Addr.ph n 0x14)).toNat :=
      funext fun n => by rw [h _ (by unfold Addr.ph; omega), h _ (by unfold Addr.ph; omega)]
    simp only [h _ (show (0x005000 : Nat) ≠ 0x00500C by decide), h _ (show (0x005004 : Nat) ≠ 0x00500C by decide),
      h _ (show (0x005008 : Nat) ≠ 0x00500C by decide), h _ (show Addr.sumpOv ≠ 0x00500C by decide), e1, e2, e3]
  unfold signature
  rw [c]

/-- A reference that is the signature, and one that is not. -/
theorem witness_IslandChecksAndTests_signature :
    (∃ v, signature (safW (setCfg 0x00500C v run)) = sigRef (setCfg 0x00500C v run)) ∧
    (∃ v, signature (safW (setCfg 0x00500C v run)) ≠ sigRef (setCfg 0x00500C v run)) := by
  have r : ∀ v, sigRef (setCfg 0x00500C v run) = v := fun v => by unfold sigRef; rw [cfgW_setCfg rfl, if_pos rfl]
  refine ⟨⟨signature (safW run), ?_⟩, ⟨signature (safW run) + 1, ?_⟩⟩
  · rw [r, signature_setRef]
  · rw [r, signature_setRef]
    intro e
    have := congrArg (· - signature (safW run)) e
    simp at this

/-- Gallery 7 in its safe state, with all that its release needs. -/
def galHeld : State :=
  rail 1 true (rail 4 true (rail 6 true (rail 7 true (modGal 7 (fun x => { x with safe := some Cause.safSflt }) (tick 82 run)))))

theorem witness_ReleaseProofAndSafetySet :
    (galHeld.mode.up = true ∧ loaderBusy galHeld = false ∧ mayRelease galHeld .i2c = true ∧ (galHeld.getGal 7).safe.isSome = true ∧
      galHeld.saf.dev = none ∧ (galHeld.getGal 7).sflt = false ∧ msTk 10 ≤ since galHeld (galHeld.getGal 7).sfltHighTk ∧
      driveGood galHeld 7 = true ∧ (galHeld.getDie 7).broken = false ∧ (galHeld.getDie 7).t ≤ 12500) ∧
    ((run.getGal 7).safe = none ∧ since (tick 81 galHeld) (galHeld.getGal 7).sfltHighTk < msTk 10) ∧
    (State.reset.mode.up = false ∧ (load .reading).mode.up = true ∧ loaderBusy (load .reading) = true ∧ (0xA4 : Byte) ≠ 0xA5 ∧
      mayRelease (linked ctl run) (.sess 1) = false) ∧
    ((held .run).mode.up = true ∧ loaderBusy (held .run) = false ∧ mayRelease (held .run) .i2c = true ∧ (held .run).saf.dev.isSome = true ∧
      (held .run).saf.classX = false ∧ secTk 1 ≤ since (held .run) (held .run).saf.devTk ∧ devCausePresent (held .run) = false ∧
      secTk 1 ≤ since (held .run) (held .run).saf.devBadTk ∧ (held .run).saf.sigOk = true ∧ (held .run).seq.wait = none ∧
      (held .run).seq.st ≠ .down ∧ (held .run).seq.st ≠ .reverse) ∧
    run.saf.dev = none ∧
    (svc.mode = .service ∧ loaderBusy svc = false ∧ mayRelease svc .i2c = true ∧ (∀ g, g < 8 → (svc.getGal g).sen = false) ∧
      svc.saf.proof = none ∧ run.mode ≠ .service) ∧
    (let s := { svc with saf := { svc.saf with proof := some ⟨0⟩ } };
      s.saf.proof = some ⟨0⟩ ∧ since s 0 < floorTk 1000 ∧ floorTk 1000 ≤ since (tick (floorTk 1000) s) 0 ∧ (true && true && false) = false) ∧
    ({ svc with saf := { svc.saf with apply := some [] } }.saf.apply = some [] ∧ svc.saf.apply = none) := by decide +kernel

theorem witness_ReleaseProofAndSafetySet_signature : ∃ v w, signature (pendW svc) = v ∧ signature (pendW svc) ≠ w := by
  refine ⟨_, signature (pendW svc) + 1, rfl, ?_⟩
  intro e
  have := congrArg (· - signature (pendW svc)) e
  simp at this
/-! ### Witnesses: front ends -/

/-- Front end 127 powered, its channel a block of its own. -/
def powered (f : FrontEnd → FrontEnd) : State := tick 65 (modFe 127 (fun x => f { x with pwr := 3 }) (slot 127 1 id run))
/-- Channel 126 native, both paths powered, on a tick of its A path's Echo slot. -/
def echoing : State :=
  tick (8192 - 126 * 64) (modFe 126 (fun x => { x with pwr := 3 }) (modFe 127 (fun x => { x with pwr := 3 })
    (setCfg (Addr.fe 126 0) 0x100 (slot 126 2 id run))))

theorem witness_BaseSamplesEnterTheFrontEnd :
    ((powered id).mode.up = true ∧ fePowered (powered id) 127 = true ∧ ((powered id).getFe 127).hist = [] ∧
      ((powered id).getFe 127).echo = none ∧ replaced (powered id) 127 = false ∧ (powered id).tb.drain = none ∧
      (ownValue (powered id) 127 6000000 8000000).2.2 = (false, false) ∧ (ownValue (powered id) 127 6000001 8000000).2.2 = (true, false)) ∧
    ((powered id).getFe 127).parRun = 0 ∧ fePowered run 127 = false ∧ State.reset.mode.up = false := by decide +kernel

/-- A sample of a run tick. -/
def samp (r idx : Nat) : Samp := { run := r, sec := 0, idx := idx, v := 3000000, i := 0, fl := 0, vO := false, iO := false, irng := 0, acc := 0 }

theorem witness_BaseSamplesEnterTheFrontEnd_replaced :
    (sampleSeen (powered id) 127 = false ∧ sampleSeen (powered fun f => { f with hist := [samp 65 65] }) 127 = true ∧
      replaced (powered fun f => { f with out := true, echo := some { start := 64, rep := false } }) 127 = true) ∧
    (let s := modFe 127 (fun f => { f with parRun := 2 }) (slot 127 1 (fun c => { c with st := .step }) run);
      (s.getFe 127).parRun = 2 ∧ (s.getCh (chanOr s 127)).fltNext = none ∧ (s.getCh (chanOr s 127)).st = .step) ∧
    (partner (powered id) 127 = none ∧ stepping (powered id) 127 = false ∧ stepping (powered fun f => { f with stepSub := 66 }) 127 = true) ∧
    (partner echoing 126 = some 127 ∧ stepping echoing 126 = false ∧ (echoing.getFe 127).waitSub = none ∧ sampleSeen echoing 127 = false ∧
      (echoing.getFe 127).hist = [] ∧ ((modFe 127 (fun f => { f with waitSub := some true }) echoing).getFe 127).waitSub = some true) ∧
    (let s := modFe 127 (fun f => { f with hist := [samp 128 128] }) echoing;
      (s.getFe 127).hist = [samp s.tb.run 128] ∧ bitN (samp 128 128).fl 2 = false) ∧
    ((powered fun f => { f with hist := [samp 64 64] }).getFe 127).hist = samp 64 64 :: [] := by decide +kernel

theorem witness_IslandSamplesComparatorsAndEcho_limits :
    ((powered id).mode.up = true ∧ fePowered (powered id) 127 = true ∧ native (powered id) (chanOr (powered id) 127) = false) ∧
    (safVmax run (chanOr run 127) = 0 ∧ safVmin run (chanOr run 127) = 0 ∧ safImax run (chanOr run 127) = 0 ∧ 127 < 128) ∧
    (let s := modFe 127 (fun f => { f with nVmax := 1 }) (setCfg (Addr.saf 127 0xC) 0x20000 (setCfg (Addr.saf 127 0) 4200000 run));
      safVmax s (chanOr s 127) ≠ 0 ∧ safVmax s (chanOr s 127) ≤ 4200000 ∧ safVmin s (chanOr s 127) = 0 ∧ safImax s (chanOr s 127) = 0 ∧
      nconf s (chanOr s 127) ≤ (s.getFe 127).nVmax + 1) ∧
    (let s := rail 4 true (setCfg (Addr.fe 127 8) 0x20000000 (powered id));
      vanaGood s = true ∧ ovEn s 127 = true ∧ (s.getFe 127).cmpTest = none ∧ (s.getFe 127).cmpUv = false) ∧
    ((powered fun f => { f with cmpOv := true }).getFe 127).cmpOv = true ∧ (run.getFe 127).cmpOv = false ∧ vanaGood run = false := by decide +kernel

/-- Both paths of channel 126 with an island sample of the same tick, their voltages d apart. -/
def crossed (d : Int) (n : Nat) : State :=
  modFe 126 (fun f => { f with isl := some { run := 1, v := d, i := 0, fl := 0 }, abV := n })
    (modFe 127 (fun f => { f with isl := some { run := 1, v := 0, i := 0, fl := 0 } }) run)

theorem witness_IslandSamplesComparatorsAndEcho_cross :
    ((run.getFe 126).isl = none ∧ ((crossed 2001 327).getFe 126).isl = some { run := 1, v := 2001, i := 0, fl := 0 } ∧
      ((crossed 2001 327).getFe 127).isl = some { run := 1, v := 0, i := 0, fl := 0 } ∧ ((crossed 2001 327).getFe 126).abV = 327 ∧
      2000 < ((2001 : Int) - 0).natAbs ∧ ¬ 2000 < ((2000 : Int) - 0).natAbs ∧ (0 ||| 0) &&& 6 = 0) ∧
    (native echoing (chanOr echoing 126) = true ∧ (powered id).mode.up = true ∧
      (powered fun f => { f with cmpTest := some false }).mode = .run ∧
      ((powered fun f => { f with cmpTest := some false }).getFe 127).cmpTest.isSome = true) ∧
    (∀ x ∈ [0, 2], chSafe run 127 = false ∧ nconf (setCfg (Addr.saf 127 0xC) 0x30000 run) 127 ≤ x + 1 ∨ x = 0) := by decide +kernel

theorem witness_IslandSamplesComparatorsAndEcho_echo :
    (echoing.mode = .run ∧ fePowered echoing 126 = true ∧ (echoing.getFe 126).echo = none ∧ native echoing (chanOr echoing 126) = true ∧
      echoSlot echoing (chanOr echoing 126) 126 = true ∧ nativeOk echoing (chanOr echoing 126) 126 = true) ∧
    (((powered fun f => { f with echo := some { start := 2, rep := false } }).getFe 127).echo = some { start := 2, rep := false } ∧
      (powered id).tb.run < 2 + 64 ∧ 1 + 64 ≤ (powered id).tb.run ∧ ((powered id).getFe 127).echo = none ∧ (powered id).mode ≠ .load) ∧
    (let s := { tick 20000 (powered id) with mode := .rest, rtc := { run.rtc with restWake := true }, tb := { run.tb with run := 20000, frac := 2 ^ 19 } };
      s.mode = .rest ∧ fePowered s 127 = true ∧ (s.getFe 127).echo = none ∧ restPassDue s 127 = true ∧ partnerIn s 127 = true) ∧
    (echoMode echoing = true ∧ echoSlot (tick 1 echoing) (chanOr echoing 126) 126 = false ∧ (echoing.getFe 126).echoDue = false ∧
      native (powered id) (chanOr (powered id) 127) = false ∧ densityOk (powered id) (chanOr (powered id) 127) = false) ∧
    (let s := tick (secTk 60) (setCfg (Addr.fe 127 4) 60 (powered id));
      s.mode.up = true ∧ (s.getFe 127).pwr = 3 ∧ feDmax s 127 ≠ 0 ∧ secTk (feDmax s 127) ≤ since s (s.getFe 127).echoTk ∧
      bitN (s.getFe 127).flt 7 = false ∧ bitN (cfgN s (Addr.fe 127 4)) 16 = false) ∧
    (regsWf 0 svc.regs = true ∧ svc.mode = .service ∧ loaderBusy svc = false ∧ isFeCal (Addr.fe 127 0x44) = true ∧
      Addr.fe 127 0x44 % 0x200 ≠ 0x1C ∧ calFe (Addr.fe 127 0x44) = 127 ∧ isFeCal 0x010000 = false ∧ (load .reading).mode.up = true ∧
      loaderBusy (load .reading) = true ∧ run.mode ≠ .service ∧ loaderBusy run = false ∧
      ((modFe 127 (fun f => { f with pwr := 1 }) svc).getFe 127).pwr ≠ 0) ∧ run.mode = .run := by decide +kernel

/-- A pass whose readings are the reference levels themselves. -/
def exactPass : EchoPass :=
  { start := 1, rep := false, v1 := 16 * Config.echoLevel run.acc.fuse 127 0 1, v2 := 16 * Config.echoLevel run.acc.fuse 127 0 2,
    i1 := 64000000, i2 := -64000000 }

theorem witness_IslandSamplesComparatorsAndEcho_pass : (echoPoints run 127 exactPass).all id = true := by
  have r : ∀ x : Int, rnd (16 * x) 16 = x := by
    intro x
    have d : Int.natAbs 16 = 16 := rfl
    have q : (2 * (16 * x).natAbs + 16) / (2 * 16) = x.natAbs := by omega
    have h : (16 * x < 0) = (x < 0) := by rw [eq_iff_iff]; omega
    have g : ((16 : Int) < 0) = False := by simp
    unfold rnd
    rw [if_neg (by decide)]
    simp only [d, q, h, g]
    by_cases n : x < 0
    · rw [if_neg (by simp [n])]; omega
    · rw [if_pos (by simp [n])]; omega
  have z : rnd 0 16 = 0 ∧ rnd 64000000 16 = 4000000 ∧ rnd (-64000000) 16 = -4000000 := by decide
  simp [echoPoints, exactPass, r, z]

/-! ### Witnesses: regulation and recipes -/

theorem witness_DemandStaysInItsBounds :
    SpMode.cv ≠ .cr ∧ ([0, 0] : List Int) ≠ [] ∧ 2 ≤ [0, 7].length ∧ shedding run 120 = none := by decide +kernel

/-- A channel alone in its block, with a change. -/
def chan (f : Channel → Channel) : State := tick 1000000 (slot 127 1 f run)
/-- A recipe of one END step that resumes, with the header's bytes 4 to 59 changed. -/
def recipe (f : List Byte → List Byte) : List Byte := [1, 0, 1, 0] ++ f ([1] ++ List.replicate 63 0) ++ List.replicate 64 0
def bound (b : List Byte) (s : State) : State := { s with rcp := { s.rcp with rcp := [(0, b)] } }

theorem witness_LaunchTickAndChannelCommands_commands :
    ((chan id).mode.up = true ∧ populated (chan id) 127 = true ∧ loaderBusy (chan id) = false ∧ populated run 127 = false ∧
      State.reset.mode.up = false) ∧
    ((load .reading).mode.up = true ∧ loaderBusy (load .reading) = true ∧ clearOk (chan id) 127 = false) ∧
    (cmdHasRow (chan fun c => { c with st := .lost }) 127 .stop = true ∧ cmdHasRow (chan fun c => { c with st := .step }) 127 .pause = true ∧
      cmdHasRow (chan fun c => { c with st := .paused }) 127 .resume = true ∧ cmdHasRow (chan fun c => { c with st := .idle }) 127 .disable = true ∧
      cmdHasRow (chan id) 127 .enable = true) ∧
    (∀ c ∈ [ChCmd.stop, .pause, .resume], cmdHasRow (chan fun c => { c with st := .idle }) 127 c = false) ∧
    (cmdHasRow (chan id) 127 .disable = false ∧ cmdHasRow (chan fun c => { c with st := .idle }) 127 .enable = false) ∧
    clearOk (chan fun c => { c with st := .fault }) 127 = true := by decide +kernel

theorem witness_LaunchTickAndChannelCommands_returns :
    (∀ d ∈ [Drain.stop, .disable], let s := chan fun c => { c with st := .step, drain := some d };
      s.mode.up = true ∧ quiescent s 127 = true ∧ (s.getCh 127).drain = some d) ∧ quiescent (chan id) 127 = false ∧
    (chan fun c => { c with st := .armed }).mode = .run ∧ (run.getCh 127).st ≠ .lost ∧ (run.getCh 127).psRet = false ∧
    (let s := chan fun c => { c with st := .lost, qual := 820, qualFrom := 1000000 - 820, left := .step, declTk := 1000000 - 820 - 81920 };
      s.mode.up = true ∧ (s.getCh 127).st = .lost ∧ (s.getCh 127).drain = none ∧ 820 ≤ (s.getCh 127).qual ∧
      (s.getCh 127).qualFrom + 820 ≤ s.tb.run ∧ Hdr.resume (boundRcp s 127) = false ∧
      Hdr.resume (boundRcp (bound (recipe id) s) 127) = true ∧ (s.getCh 127).qualFrom - (s.getCh 127).declTk ≤ 81920 ∧
      (s.getCh 127).left = .step) ∧
    (let s := chan fun c => { c with psRet := true, disc := true, discTk := 1000001 };
      s.mode.up = true ∧ (s.getCh 127).psRet = true ∧ (s.getCh 127).disc = true ∧ (s.getCh 127).discTk + discTicks s 127 ≤ s.tb.run + 1) := by decide +kernel

/-- A PULSE step with a base of one tick and pulses of one tick. -/
def pulsed : List Byte :=
  [1, 0, 1, 0] ++ List.replicate 64 0 ++ [6] ++ List.replicate 55 0 ++ [1, 0, 0, 1, 0, 0, 1, 1]

theorem witness_RecipesArmLaunchAndEnd_arming :
    (let s := bound (recipe id) (chan fun c => { c with st := .idle });
      s.mode.up = true ∧ loaderBusy s = false ∧ populated s 127 = true ∧ (0x10000 : Word).toNat.testBit 16 = true ∧
      (0x10000 : Word).toNat.testBit 17 = false ∧ armOk s 127 (field 0x10000 0 5) (field 0x10000 8 6) = true ∧
      armOk s 127 (field 0x10100 0 5) (field 0x10100 8 6) = false) ∧
    (let s := chan fun c => { c with st := .armed, disc := true };
      (s.getCh 127).st = .armed ∧ mayLaunch s 127 = true) ∧
    ((0x20000 : Word).toNat.testBit 16 = false ∧ (0x20000 : Word).toNat.testBit 17 = true ∧ ((chan id).getCh 127).st ≠ .armed) ∧
    (let s := bound (recipe id) (chan fun c => { c with st := .armed, disc := true });
      floorMet s 127 = true ∧ engFree (s.getCh 127) = true ∧ (s.getCh 127).drain = none ∧ (s.getCh 127).suspect = false) ∧
    mayLaunch run 127 = false ∧ stageOn run = true ∧ stageOn State.reset = false ∧ (populated run 127 = false ∨ galOf 127 ≠ 0) := by decide +kernel

theorem witness_RecipesArmLaunchAndEnd_ends :
    (let s := tick 1 (bound pulsed (chan fun c => { c with st := .step, rcp := { c.rcp with isOpen := true } }));
      s.mode.up = true ∧ inStepType s 127 StepT.pulse = true ∧ (s.getCh 127).eng = none ∧ (s.getCh 127).suspect = false ∧
      segAt (openStep s 127) (stepTime s 127 (s.tb.run + 1)) ≤ 255 ∧ inStepType run 127 StepT.pulse = false ∧
      stepTime s 127 (s.tb.run + 1) < pulseEnd (openStep s 127) ∧
      (s.getCh 127).drain = none ∧ (engRcp (s.getCh 127)).seg < segAt (openStep s 127) (stepTime s 127 (s.tb.run + 1))) ∧
    (let s := chan fun c => { c with st := .tempWait };
      s.mode.up = true ∧ (s.getCh 127).st = .tempWait ∧ (s.getCh 127).drain = none ∧ engFree (s.getCh 127) = true ∧
      Hdr.tWaitMax (boundRcp s 127) ≤ (s.getCh 127).rcp.tempTk + 1) ∧
    (let b := recipe fun l => ((l.set 2 1).set 3 1).set 52 1;
     let s := bound b (chan fun c => { c with st := .hold, rcp := { c.rcp with lowTk := 8192 } });
      holdFree s 127 = true ∧ Hdr.holdMode (boundRcp s 127) = 1 ∧ (engRcp (s.getCh 127)).topoff = false ∧
      8192 ≤ (engRcp (s.getCh 127)).lowTk ∧ (engRcp (s.getCh 127)).rechg < Hdr.nRechg (boundRcp s 127) ∧
      Hdr.tHoldMax (boundRcp s 127) ≠ 0 ∧ Hdr.tHoldMax (boundRcp s 127) ≤ (s.getCh 127).rcp.holdTk + 1) ∧
    (let b := recipe fun l => (l.set 2 1).set 3 1;
     let s := bound b (chan fun c => { c with st := .hold, rcp := { c.rcp with lowTk := 8192, rechg := 1 } });
      0 < Hdr.nRechg (boundRcp s 127) ∧ Hdr.nRechg (boundRcp s 127) ≤ (engRcp (s.getCh 127)).rechg) ∧
    (let s := chan fun c => { c with st := .hold, rcp := { c.rcp with topoff := true } };
      holdFree s 127 = true ∧ (s.getCh 127).rcp.topoff = true ∧ Hdr.tTopMax (boundRcp s 127) ≤ (s.getCh 127).rcp.topTk + 1) := by decide +kernel

/-- A channel whose estimator has a model. -/
def modelled (t : Nat) (f : Estimator → Estimator) : State :=
  tick t { modEst 127 (fun e => f { e with model := some 0, st := .valid }) (slot 127 1 id run) with
    rcp := { ({} : Recipes) with models := [(0, List.replicate 764 0)], grades := [(0, oneBin)] } }
theorem witness_EstimatorPublishesAndObeys :
    (run.mode.up = true ∧ State.reset.mode.up = false ∧ populated (tick 767 (chan id)) 127 = true ∧ 768 ≤ 767 + 1 ∧ (767 + 1) % 512 = 256 ∧
      modelOf (chan id) 127 = none ∧ (768 + 1) % 512 ≠ 256) ∧
    (((modelled 769 fun e => { e with pubDue := some true }).getEst 127).pubDue = some true ∧ 769 % 512 ≠ 0) ∧
    (∀ x ∈ [EstSt.wait, .valid], let s := modelled 769 fun e => { e with st := x };
      modelOf s 127 = some (List.replicate 764 0) ∧ (s.getEst 127).st = x ∧ estInputs s 127 (s.tb.run - 257) (List.replicate 764 0) = none) ∧
    (∀ x ∈ [EstSt.wait, .valid], ((modEst 127 (fun e => { e with st := x, model := none }) run).getEst 127).st = x ∧
      modelOf (modEst 127 (fun e => { e with st := x, model := none }) run) 127 = none) ∧
    (960 ≤ ((modelled 768 fun e => { e with divCnt := 960 }).getEst 127).divCnt ∧ ((modelled 768 id).getEst 127).divCnt < 960) ∧
    (let e := (modelled 768 fun e => { e with changed := true, wbWait := true }).getEst 127;
      e.changed = true ∧ e.wbWait = true ∧ e.wbTk = none) ∧
    (run.nvm.lock = false ∧ since (tick (secTk 3600 - 1) run) 0 < secTk 3600 ∧ secTk 3600 ≤ since (tick (secTk 3600) run) 0) ∧
    ((load .reading).mode.up = true ∧ loaderBusy (load .reading) = true ∧ loaderBusy run = false ∧ populated run 127 = false) ∧
    ((modelled 768 id).getEst 127).st ≠ .off ∧ ((chan id).getEst 127).st = .off ∧
    (let s := modCh 127 (fun c => { c with st := .hold, rcp := { c.rcp with armed := true } }) (modelled 768 id);
      ((s.getCh 127).st = .idle ∨ (s.getCh 127).st = .hold) ∧ (s.getCh 127).rcp.armed = true ∧
      (alFind (s.getCh 127).rcp.recipe s.rcp.grades).isSome = true) := by decide +kernel

/-- The period of the 64 samples with indices 448 to 511 is whole. -/
def period (x : EstSt) (f : Estimator → Estimator) : State :=
  modFe 127 (fun f => { f with hist := (upto 64).map fun i => samp (511 - i) (511 - i) }) (modelled 768 fun e => f { e with st := x })

theorem witness_EstimatorPublishesAndObeys_inputs :
    (∀ x ∈ [EstSt.wait, .valid], (estInputs (period x id) 127 ((period x id).tb.run - 257) (List.replicate 764 0)).isSome = true ∧
      ((period x id).getEst 127).st = x) := by decide +kernel

theorem witness_EstimatorPublishesAndObeys_kpoint :
    (let s := tick (secTk 600) (modCh 127 (fun c => { c with st := .idle }) (modelled 2048 fun e => { e with kLog := true }));
      s.mode.up = true ∧ (modelOf s 127).isSome = true ∧ kPointDue s 127 = true ∧ kPointDue (tick (secTk 600 - 1) s) 127 = false ∧
      kPoint s 127 (List.replicate 764 0) = none) ∧
    kPointDue run 127 = false := by decide +kernel

theorem witness_EstimatorPublishesAndObeys_point :
    (let s := tick (secTk 600) (modFe 127 (fun f => { f with hist := (upto 1024).map fun i => samp (4915200 - 1 - i) (2047 - i) }) (modelled 2048 id));
      (kPoint s 127 (List.replicate 764 0)).isSome = true) := by decide +kernel
/-! ### Witnesses: the sump -/

/-- The sump with a change, in RUN, at a tick. -/
def bus (t : Nat) (f : Sump → Sump) : State := tick t { run with sump := f {} }

theorem witness_AllocationsStayWithinThePower :
    (∀ r ∈ [(⟨127, .charge, 3, 0, 0, 0, 500⟩ : Req)], 0 ≤ r.p) ∧
    powerOf ([(⟨127, .charge, 3, 0, 0, 0, 500⟩ : Req)].filter fun r => [0, 1, 2, 3].contains r.cls) ≤ 500 ∧ [0, 1, 2, 3].Nodup ∧
    (let s := bus 7 fun u => { u with due := true };
      s.mode.up = true ∧ stageOn s = true ∧ s.sump.due = true ∧ s.tb.run % 8 = 7 ∧ run.sump.due = false) ∧
    (4 ≤ (bus 0 fun u => { u with lateRun := 4 }).sump.lateRun ∧ (bus 0 fun u => { u with lateRun := 3 }).sump.lateRun < 4) ∧
    (populated (chan id) 127 = true ∧ charges ((chan id).getCh 127) = false) ∧
    (let s := bus 1 fun u => { u with told := some (0, 0) };
      s.mode.up = true ∧ s.sump.told.isSome = true ∧ s.sump.stale = false ∧ budOld s = true) := by decide +kernel

theorem witness_RideThroughMoves_losses :
    (let s := bus 0 fun u => { u with feOk := true, moving := true };
      s.mode.up = true ∧ s.sump.feOk = true ∧ s.sump.ride = .normal ∧ s.sump.moving = true ∧ s.sump.rideFrom = none) ∧
    (let s := bus 0 fun u => { u with feOk := true };
      s.sump.ride = .normal ∧ s.sump.moving = false ∧ s.sump.cmpDroop = false ∧ s.sump.cmpOv = false) ∧
    (let s := bus 0 fun u => { u with ride := .hold };
      s.sump.feOk = false ∧ busOk { s with sump := { s.sump with feOk := true } } = true ∧ s.sump.ride = .hold ∧ s.sump.moving = false) ∧
    (let s := bus 0 fun u => { u with cmpDroop := true };
      s.sump.cmpDroop = true ∧ s.sump.feOk = false) ∧
    (let s := modPh 127 (fun p => { p with onTime := true, dir := true }) run;
      (s.getPh 127).onTime = true ∧ (s.getPh 127).dir = true) ∧
    (let s := setCfg 0x006020 100 (bus (floorTk 100) fun u => { u with cmpDroop := true, droopFrom := some 0 });
      s.sump.cmpDroop = true ∧ s.sump.droopFrom = some 0 ∧ 0 + floorTk (Sump.tDroopMs s) ≤ s.tb.run) ∧
    (let s := bus 8 fun u => { u with busOkFrom := some 0, ride := .droop };
      s.sump.busOkFrom = some 0 ∧ 0 + 8 ≤ s.tb.run ∧ s.sump.ride = .droop ∧ s.sump.loss = false) := by decide +kernel

theorem witness_RideThroughMoves_states :
    (∀ x ∈ [Ride.normal, .droop, .lend, .pause, .hold, .expire, .ret], ∀ f ∈ [true, false], ∀ l ∈ [true, false],
      let s := bus 0 fun u => { u with ride := x, feOk := f, loss := l };
      s.sump.ride = x ∧ s.sump.feOk = f ∧ s.sump.loss = l ∧ s.sump.moving = false ∧ s.mode.up = true ∧ s.sump.cmpDroop = false) ∧
    ((bus 0 fun u => { u with cmpDroop := true, cmpOv := true }).sump.cmpOv = true ∧ State.reset.mode.up = false ∧
      transitionDone (bus 0 fun u => { u with ride := .pause, moving := true }) = true ∧
      (bus 0 id).sump.clrCls = none) ∧
    ((bus 0 fun u => { u with inhTold := true, inh := true }).sump.inh = true ∧ Sump.inhPinEn run = false ∧ run.sump.inh = run.sump.inhTold) := by
  decide +kernel

theorem witness_RideThroughMoves_ride :
    ((bus 0 fun u => { u with ride := .pause }).sump.ride = .pause ∧
      (popAll (bus 0 fun u => { u with ride := .pause })).all (quietPhases (bus 0 fun u => { u with ride := .pause })) = true) ∧
    (∀ r ∈ [Ride.lend, .hold], let s := setCfg 0x006020 (100 * 256) (bus (floorTk 100) fun u => { u with ride := r, rideFrom := some 0 });
      s.mode.up = true ∧ rideDone s = true ∧ s.sump.moving = false ∧ s.sump.ride = r) ∧
    (let s := bus (floorTk 5) fun u => { u with ride := .ret, feOk := true };
      s.sump.ride = .ret ∧ s.sump.feOk = true ∧ busOk s = true ∧ s.sump.retOkTk + floorTk 5 ≤ s.tb.run ∧ s.sump.moving = false) ∧
    (let s := bus 0 fun u => { u with moving := true };
      s.sump.moving = true ∧ transitionDone s = true ∧ s.sump.waiting = []) ∧
    (∀ c ∈ [0, 3], let s := bus 8 fun u => { u with clrCls := some (c, 7) };
      s.sump.clrCls = some (c, 7) ∧ 7 < s.tb.run ∧ s.tb.run % 8 = 0 ∧ s.sump.inhPause = false ∧ pauseState s = false) ∧
    (run.sump.inh = false ∧ Sump.inhPinEn (setCfg 0x006000 4 run) = true) ∧
    (let s := bus 0 fun u => { u with inhPin := true, inh := true };
      s.sump.inhPin = true ∧ s.sump.inh = true ∧ s.sump.inhTold = false) ∧
    (let s := bus (floorTk 5) fun u => { u with inhPause := true };
      s.sump.inhPin = false ∧ s.sump.inh = false ∧ s.sump.inhPause = true ∧ s.sump.inhClrTk + floorTk 5 ≤ s.tb.run) := by decide +kernel

/-! ### Witnesses: time -/

/-- A master's dataset, heard at tick 0. -/
def mast : Master :=
  { p1 := 0, cls := 0, accu := 0, vari := 0, p2 := 0, gm := 0, steps := 0, ident := 9, port := 1, ingress := 0, utc := 37, utcValid := true,
    logAnn := 0, heard := [0] }
/-- Following that master, both ports up, by UDP/IPv4. -/
def ptp (t : Nat) (f : Timebase → Timebase) : State :=
  let s := setCfg 0x002000 1 (setCfg 0x002004 0 (linked ctl run))
  { s with tb := f { s.tb with run := t, master := some mast, foreign := [mast] } }
/-- A message of its. -/
def msg (mtype : Nat) (log : Int) (two : Bool) : PtpMsg :=
  { port := 0, l2 := false, vid := none, domain := 0, mtype := mtype, ident := 9, srcPort := 1, seq := 3, twoStep := two, origin := 0, corr := 0,
    rx := 0, logInt := log, p1 := 0, cls := 0, accu := 0, vari := 0, p2 := 0, gm := 0, steps := 254, utc := 37, utcValid := true }

theorem witness_PtpMessagesAndTimebaseStates_messages :
    (∀ l ∈ [-7, 1], fromMaster (ptp 0 id) (msg 0 l true) = true ∧ (msg 0 l true).mtype = 0 ∧ -7 ≤ (msg 0 l true).logInt ∧
      (msg 0 l true).logInt ≤ 1 ∧ (msg 0 l true).twoStep = true) ∧
    ((msg 0 1 false).twoStep = false ∧ (ptp 0 id).tb.st = .freerun) ∧
    (fromMaster (ptp 0 fun t => { t with syncWait := some (3, 0, 0) }) (msg 8 0 false) = true ∧
      (ptp 0 fun t => { t with syncWait := some (3, 0, 0) }).tb.syncWait = some ((msg 8 0 false).seq, 0, 0)) ∧
    fromMaster run (msg 0 0 true) = false ∧
    (let s := { ptp 0 id with tb := run.tb };
      ptpEn s = true ∧ ptpHeard s (msg 11 4 false) = true ∧ -3 ≤ (msg 11 (-3) false).logInt ∧ (msg 11 4 false).logInt ≤ 4 ∧
      (msg 11 4 false).steps < 255 ∧ s.tb.foreign = [] ∧ s.tb.master = none ∧ ptpEn run = false) := by decide +kernel

theorem witness_PtpMessagesAndTimebaseStates_delays :
    (let s := ptp 0 fun t => { t with dreq := some (3, 5), t12 := some (1, 2) };
      fromMaster s (msg 9 0 false) = true ∧ ptpP2p s = false ∧ s.tb.dreq = some ((msg 9 0 false).seq, 5) ∧ s.tb.t12 = some (1, 2) ∧
      s.tb.master.isSome = true ∧ linkUp s s.tb.port = true ∧ intervalOver s (dreqLog s) s.tb.dreqTk = true) ∧
    (let s := setCfg 0x002004 0x200 (ptp 0 fun t => { t with pdreq := [some (3, 5), none], pdwait := [some (3, 1, 2, 0), none] });
      ptpEn s = true ∧ ptpP2p s = true ∧ linkUp s 0 = true ∧ linkUp s 1 = true ∧ (∀ k ∈ [2, 3, 10], ptpHeard s (msg k 0 false) = true) ∧
      s.tb.pdreq.getD 0 none = some (3, 5) ∧ s.tb.pdwait.getD 0 none = some (3, 1, 2, 0) ∧ s.tb.pdreq.getD 1 none = none ∧
      intervalOver s (logPdreq s) (s.tb.pdTk.getD 1 none) = true) ∧
    (intervalOver (ptp 0 id) 0 (some 0) = false ∧ intervalOver (ptp 8192 id) 0 (some 0) = true ∧ linkUp run 0 = false ∧
      (ptpL2 (ptp 0 id) || (ptp 0 id).link.ipNow != 0) = true) := by decide +kernel

theorem witness_PtpMessagesAndTimebaseStates_states :
    (let s := setCfg 0x002010 0x03E80064 (ptp 0 fun t => { t with st := .acquire, nIn := 15 });
      s.tb.st = .acquire ∧ 15 ≤ s.tb.nIn ∧ (-100 : Int).natAbs ≤ lockNs s ∧ ¬ (-101 : Int).natAbs ≤ lockNs s) ∧
    (let s := ptp 0 fun t => { t with st := .locked, nOut := 3 };
      s.tb.st = .locked ∧ 3 ≤ s.tb.nOut ∧ unlockNs s < (1001 : Int).natAbs) ∧
    (stepLim run < (-1000001 : Int).natAbs ∧ (-1000000 : Int).natAbs ≤ stepLim run) ∧
    (let s := ptp (3 * 8192) fun t => { t with st := .locked, foreign := [{ mast with heard := [3 * 8192] }] };
      s.mode.up = true ∧ annTimeout s = false ∧ s.tb.st = .locked ∧ syncTo s * pow2Tk s.tb.logSync ≤ since s s.tb.syncTk) ∧
    (let s := ptp (3 * 8192) fun t => { t with st := .locked };
      s.mode.up = true ∧ annTimeout s = true) ∧
    (let s := ptp 100 fun t => { t with lastMaster := some (8, 1), foreign := [{ mast with heard := [100, 50] }] };
      (bestOf (s.tb.foreign.filter (qualified s))).isSome = true ∧ s.tb.lastMaster.isSome = true) ∧
    (let s := ptp (secTk 600) fun t => { t with st := .holdover };
      s.tb.st = .holdover ∧ secTk (holdMaxS s) ≤ since s s.tb.holdTk) := by decide +kernel

theorem witness_StepsOfLineTime :
    run.tb.step = none ∧
    (let s := modTc 255 (fun e => { e with slot := .released, l := 16390 }) (tick 16384 { run with tb := { run.tb with step := some (5, 0) } });
      s.tb.step = some (5, 0) ∧ launchWaits s = true ∧ since s 0 ≤ 16384 ∧ 16384 < since (tick 16385 s) 0) ∧
    launchWaits run = false := by decide +kernel

/-- A timed command of a kind for group 0 at second 1, with arguments. -/
def timed (kind : Nat) (args : List Byte) : List Byte :=
  withCrc32c ([1] ++ leBytes 1 kind ++ [0, 0] ++ leBytes 4 0 ++ leBytes 6 1 ++ [0, 0] ++ leBytes 4 0 ++ leBytes 4 7 ++ args ++ List.replicate 4 0)
def given (b : List Byte) : State := { run with tb := { run.tb with st := .locked, tcIn := [(0, 1, b)] } }

theorem witness_TimedCommandsAreJudgedReleasedAndCompleted_judged :
    (∀ k ∈ [1, 3], tcRefused (given (timed k (List.replicate 32 0))) (timed k (List.replicate 32 0)) = none ∧
      Tc.kind (timed k (List.replicate 32 0)) = k ∧ tcFree run = some 0) ∧
    (tcRefused run (timed 1 (List.replicate 31 0)) = some Cause.tcmdBad ∧ run.tb.tcIn.head? = none) ∧
    tcRefused (given (timed 6 ([7] ++ List.replicate 31 0))) (timed 6 ([7] ++ List.replicate 31 0)) = none := by decide +kernel

theorem witness_TimedCommandsAreJudgedReleasedAndCompleted_cancel :
    (let b := timed 6 ([7] ++ List.replicate 31 0);
     let p : TcEnt → Bool := fun e => (Tc.tag e.raw == Tc.cancel b && e.slot != .free && !(e.slot == .completed && e.outcome == 5));
     let s := modTc 255 (fun e => { e with slot := .pending, raw := timed 5 (List.replicate 32 0) }) run;
     let t := modTc 255 (fun e => { e with slot := .released, raw := timed 5 (List.replicate 32 0) }) run;
      (tcFind s fun e => p e && e.slot == .pending) = [255] ∧ tcFind run p = [] ∧ tcFind t p ≠ [] ∧
      (tcFind t fun e => p e && e.slot == .pending) = []) := by decide +kernel

theorem witness_TimedCommandsAreJudgedReleasedAndCompleted_time :
    (∀ k ∈ [4, 5],
      let s := modTc 255 (fun e => { e with slot := .pending, raw := timed k (List.replicate 32 0) }) { run with tb := { run.tb with frac := 2 ^ 32 - 16 * 2 ^ 19 } };
      (s.getTc 255).slot = .pending ∧ Tc.time (s.getTc 255).raw ≤ lineU s + 16 * 2 ^ 19 ∧ Tc.kind (s.getTc 255).raw = k ∧
      Tc.group (s.getTc 255).raw ≤ 15 ∧ s.tb.drain = none ∧
      lineU { run with tb := { run.tb with frac := 2 ^ 32 - 17 * 2 ^ 19 } } + 16 * 2 ^ 19 < Tc.time (s.getTc 255).raw) ∧
    (∀ k ∈ [4, 5], let s := modTc 255 (fun e => { e with slot := .released, raw := timed k (List.replicate 32 0), l := 5 }) (tick 6 run);
      (s.getTc 255).slot = .released ∧ Tc.kind (s.getTc 255).raw = k ∧ (s.getTc 255).l + Tc.grace (s.getTc 255).raw < s.tb.run ∧
      (s.getTc 255).l ≤ s.tb.run ∧ (s.getTc 255).applied = (s.getTc 255).targets ∧ (s.getTc 255).lastTk = 0 ∧ s.tb.drain = none) ∧
    ((run.getTc 255).slot ≠ .pending ∧ (run.getTc 255).slot ≠ .released ∧ (run.getTc 255).epochBad = false ∧
      ((modTc 255 (fun e => { e with epochBad := true, targets := 2 ^ 127 }) run).getTc 255).epochBad = true ∧
      ((modTc 255 (fun e => { e with epochBad := true, targets := 2 ^ 127 }) run).getTc 255).left.testBit 127 = true) := by decide +kernel

/-- A drain of channel 127 alone. -/
def draining (g : DrainGoal) (chans : Nat) : State :=
  tick (msTk 1) { chan (fun c => { c with st := .step }) with
    tb := { run.tb with drain := some { goal := g, from_ := 0, lim := 1, entry := none, chans := chans } } }

theorem witness_GroupsDrainLimitPulseAndHandoff :
    (run.mode.up = true ∧ loaderBusy run = false ∧ (run.getGrp 15).held = [none, none, none] ∧ (run.getGrp 15).mask < 2 ^ 128 ∧
      State.reset.mode.up = false ∧ (load .reading).mode.up = true ∧ loaderBusy (load .reading) = true ∧
      ((modGrp 15 (fun g => { g with held := [some 1, some 2, some 3] }) run).getGrp 15).held = [some 1, some 2, some 3]) ∧
    (let s := tick (msTk 1) (draining .off (2 ^ 127));
      drainOpen s { goal := .off, from_ := 0, lim := 1, entry := none, chans := 2 ^ 127 } = [127] ∧ 0 ≤ s.tb.run ∧ msTk 1 < s.tb.run - 0 + 1) ∧
    (run.tb.drain = none ∧ drainOpen (draining .off 0) { goal := .off, from_ := 0, lim := 1, entry := none, chans := 0 } = [] ∧
      drainOpen (draining .rest 0) { goal := .rest, from_ := 0, lim := 1, entry := none, chans := 0 } = []) := by decide +kernel

theorem witness_GroupsDrainLimitPulseAndHandoff_time :
    (ppsOn (setCfg 0x002018 0xA00 run) = true ∧ run.tb.frac = 0 ∧ ppsOn run = false ∧
      { run.tb with pps := some 0 }.pps = some 0 ∧ floorTk (ppsWidth run) ≤ since (tick (floorTk (ppsWidth run)) run) 0) ∧
    (∀ o ∈ [true, false], ∀ v ∈ [true, false],
      let s := setCfg 0x002000 8 { run with
        tb := { run.tb with sec := 946684800 + 64, st := .locked, run := 8192 * 60, utc := (37, true) }, rtc := { run.rtc with valid := v, utcOk := o } };
      handoffRuns s = true ∧ s.tb.sec % 64 = 0 ∧ s.tb.frac < 2 ^ 19 ∧ rtcHalt s = false ∧ s.rtc.valid = v ∧ s.rtc.utcOk = o ∧
      rtcHalt (setCfg 0x003020 1 s) = true) ∧
    (handoffRuns run = false ∧ ((0 : Int) * 32768 + 16383).natAbs < 16384 ∧ 16384 ≤ ((0 : Int) * 32768 + 16384).natAbs) := by decide +kernel

/-! ### Witnesses: ports and rope -/

theorem witness_PortsRopeAndFrames :
    (linkRuns run = true ∧ (run.getPort 1).up = false ∧ linkUp run 1 = false ∧ linkRuns State.reset = false) ∧
    (let s := linked ctl run;
      (s.getPort 1).up = true ∧ linkUp s 0 = true ∧ linkUp s 1 = true ∧ linkUp s (1 - 1) = true ∧ s.link.ipNow ≠ 0) ∧
    ((run.getPort 0).full 1522 = false ∧ (modPort 0 (fun p => { p with lo := 16384 * 8192 }) run).link.p0.full 64 = true) ∧
    (Pz.whole (helloMsg run) = true ∧ Pz.sess (helloMsg run) = 0xFF ∧ helloOk (helloMsg run) = true ∧ Pz.whole [] = false) ∧
    (let s := tick (secTk 3) (linked ctl run);
      linkRuns s = true ∧ quiet s 0 = true ∧ quiet s 1 = true ∧ s.link.p0.up = true ∧ secTk 3 ≤ since s s.link.p0.upTk ∧
      since (tick (secTk 3 - 1) s) s.link.p0.upTk < secTk 3 ∧ s.link.p1.hello = none) ∧
    (let s := modPort 0 (fun p => { p with hello := some (0, 0, 1) }) (linked ctl run);
      quiet (tick (secTk 3) s) 0 = false ∧ quiet (tick (secTk 3 + 1) s) 0 = true) ∧
    (∀ v ∈ [none, some 0, some 1], ipHeard (setCfg 0x007010 1 (linked ctl run)) 1 v = true) ∧
    ((0 : Nat) ≠ (linked ctl run).link.ipNow ∧ ipHeard (setCfg 0x007010 1 (linked ctl run)) 1 (some 2) = false ∧ ipHeard run 1 none = false) ∧
    (bitN (cfgN (setCfg 0x007000 0x10 run) 0x007000) 4 = true ∧ 99 < 100 ∧ bitN (cfgN run 0x007000) 4 = false) := by decide +kernel

/-- A frame on its way. -/
def frame (d : FrameDst) (len : Nat) (fcs : Bool) (k : FrameKind) : Frame :=
  { dst := d, len := len, tag := none, fcsOk := fcs, at_ := 0, udp := false, domain := 0, resid := 0, kind := k, ident := 0 }

theorem witness_PortsRopeAndFrames_frames :
    (∀ d ∈ [FrameDst.own, .other, .group, .pdelay, .ropeHello], ∀ n ∈ [1522, 1523], ∀ f ∈ [true, false],
      (frame d n f (.perzo ep0 [])).kind = .perzo ep0 [] ∧ (frame d n f (.perzo ep0 [])).dst = d ∧ (frame d n f (.perzo ep0 [])).len = n ∧
      (frame d n f (.perzo ep0 [])).fcsOk = f) ∧ (1522 ≤ 1522 ∧ 1522 < 1523) := by decide +kernel
/-! ### Witnesses: the link -/

/-- A request of the controller, in sequence, is its next request. -/
theorem next_request {s : State} {ty : Nat} {b : List Byte} (hs : s.link = (linked ctl run).link) (hm : s.mode = .run ∨ s.mode = .service)
    (h1 : ty < 256) (h2 : b.length ≤ 1452) (h3 : b.length % 4 = 0) : NextRequest s ep0 (req ty 8 b) 0 ctl ∧ pzHeadOk (req ty 8 b) = true := by
  obtain ⟨_, f2, f3, f4, _, _, f7⟩ :=
    pzMsg_fields State.reset (fl := 0) (se := 0) (seq := 8) h1 (by decide) (by decide) (by decide) (show b.length < 65536 by omega)
  have w := pzMsg_whole State.reset (fl := 0) (se := 0) (seq := 8) h1 (by decide) (by decide) (by decide) h2 h3
  have a : pzHeard s ep0 = true ∧ sessOf s ep0 = some 0 ∧ s.getSess 0 = some ctl := by
    have e : linkRuns s = true := by rcases hm with hm | hm <;> simp [linkRuns, hm, Mode.up]
    refine ⟨?_, ?_, ?_⟩
    · have u : (linked ctl run).link.ipNow = 0xC0A80001 := rfl
      unfold pzHeard ipHeard linkUp State.getPort; rw [e, hs, u]; rfl
    · unfold sessOf State.getSess; rw [hs]; decide +kernel
    · unfold State.getSess; rw [hs]; rfl
  refine ⟨⟨⟨a.1, a.2.1, a.2.2, w, f2⟩, rfl, f4, ?_⟩, ?_⟩
  · unfold req; rw [f4]; decide
  · unfold pzHeadOk req; rw [f3, f7]; rfl

/-- The type and the payload of a request. -/
theorem req_reads {ty seq : Nat} {b : List Byte} (h1 : ty < 256) (h2 : seq < 2 ^ 32) (h3 : b.length ≤ 1452) :
    Pz.type (req ty seq b) = ty ∧ Pz.payload (req ty seq b) = b := by
  obtain ⟨f1, _, _, _, _, f6, _⟩ := pzMsg_fields State.reset (fl := 0) (se := 0) h1 (by decide) (by decide) h2 (show b.length < 65536 by omega)
  exact ⟨f1, f6⟩

/-- A payload of the right form for each row of the table of requests, of whole words, and one of a wrong form. -/
def goodForms : List (List Byte) :=
  let z (n : Nat) : List Byte := List.replicate n 0
  [[], z 4 ++ [1, 0, 0, 0], z 4 ++ [1, 0, 0, 0] ++ z 4, [1, 0, 0, 0] ++ z 12, z 32, z 16, z 4, [1, 0, 0, 0] ++ z 12, [1, 0, 0, 0] ++ z 24, z 12, z 12,
    [60, 1, 0, 0] ++ z 68, z 12]

theorem witness_RequestsAreExecutedOnce_forms :
    requestTable.length = goodForms.length ∧
    ((requestTable.zip goodForms).all fun x => x.1.2.2.1 x.2 && decide (x.2.length % 4 = 0) && decide (x.1.1 < 256)) = true ∧
    (requestTable.all fun q => !q.2.2.1 (List.replicate 1036 1)) = true ∧
    (requestTable.all fun q => decide (q.2.2.2.1.code ≤ ctl.role.code)) = true ∧
    (requestTable.any fun q => decide (Role.observer.code < q.2.2.2.1.code)) = true := by decide +kernel

theorem witness_RequestsAreExecutedOnce_refused :
    (let m := pzMsg State.reset 3 0 8 8 []; NextRequest (linked ctl run) ep0 m 0 ctl ∧ pzHeadOk m = false) ∧
    (let x := { ctl with role := .observer }; NextRequest (linked x run) ep0 (req 0x23 8 (List.replicate 4 0)) 0 x ∧
      x.role.code < Role.controller.code ∧ pzHeadOk (req 0x23 8 (List.replicate 4 0)) = true ∧
      (linked x run).getSess 0 = some x ∧ Lengths (linked x run) = true) ∧
    (loadRuns (linked ctl (load .reading)) = true ∧ FromSession (linked ctl (load .reading)) ep0 (req 3 8 []) 0 ctl ∧ loadRuns run = false) := by
  unfold NextRequest FromSession; decide +kernel

theorem witness_RequestsAreExecutedOnce_others :
    (FromSession (linked { ctl with kept := some [1] } run) ep0 (req 3 7 []) 0 { ctl with kept := some [1] } ∧ ctl.busy = none ∧
      Pz.seq (req 3 7 []) = ctl.seq) ∧
    (FromSession (linked ctl run) ep0 (req 3 9 []) 0 ctl ∧ Pz.seq (req 3 9 []) ≠ ctl.seq ∧ Pz.seq (req 3 9 []) ≠ (ctl.seq + 1) % 2 ^ 32) ∧
    (FromSession (linked { ctl with busy := some (0x11, 7) } run) ep0 (req 3 8 []) 0 { ctl with busy := some (0x11, 7) }) ∧
    (pzHeard (linked ctl run) { ep0 with ip := 11 } = true ∧ sessOf (linked ctl run) { ep0 with ip := 11 } = none) ∧
    (pzHeard (linked ctl run) ep0 = true ∧ sessOf (linked ctl run) ep0 = some 0 ∧ (linked ctl run).getSess 0 = some ctl ∧
      Pz.sess (pzMsg State.reset 3 1 0 8 []) ≠ 0 ∧ Pz.type (pzMsg State.reset 3 1 0 8 []) = 3) ∧
    (Pz.whole [] = false ∧ pzHeard run ep0 = false ∧ pzHeard (linked ctl run) { ep0 with dport := 51521 } = false) := by
  unfold FromSession; decide +kernel

/-- An endpoint behind the other port, which holds no session. -/
def far : Endpoint := ⟨1, 11, 21, 51520, 8, some 0⟩
/-- The HELLO of a controller. -/
def helloMsg' (seq takeOver : Nat) : List Byte :=
  pzMsg State.reset 1 0xFF 0 seq ([2] ++ leBytes 1 takeOver ++ leBytes 2 100 ++ leBytes 8 0x55 ++ leBytes 2 0 ++ [0, 0])
/-- Four sessions, none of which the message comes from. -/
def crowded : State := { linked ctl run with link := { (linked ctl run).link with sess := List.replicate 4 (some { ctl with role := .teller }) } }

theorem witness_HelloIsDecidedInOrder :
    (Lengths (linked ctl run) = true ∧ pzHeard (linked ctl run) far = true ∧ Pz.whole (helloMsg' 7 1) = true ∧ Pz.sess (helloMsg' 7 1) = 0xFF ∧
      loadRuns (linked ctl run) = false ∧ Pz.type (helloMsg' 7 1) = 1) ∧
    (pzHeard (linked ctl (load .reading)) far = true ∧ loadRuns (linked ctl (load .reading)) = true ∧ Pz.whole [] = false ∧ pzHeard run far = false) ∧
    (sessOf (linked { ctl with kept := some [] } run) ep0 = some 0 ∧ ctl.seq = Pz.seq (helloMsg' 7 1) ∧ ctl.seq ≠ Pz.seq (helloMsg' 8 1)) ∧
    (pzHeadOk (helloMsg' 7 1) = true ∧ helloForm (Pz.payload (helloMsg' 7 1)) = true ∧ sessOf (linked ctl run) far = none) ∧
    (let s := linked { ctl with role := .teller } run; controllerOf s = none ∧ freeSess s = some 1) ∧
    (sessOf crowded far = none ∧ Lengths crowded = true ∧ controllerOf crowded = none ∧ freeSess crowded = none) ∧
    (controllerOf (linked ctl run) = some 0 ∧ byteAt (Pz.payload (helloMsg' 7 0)) 0 = 2 ∧ byteAt (Pz.payload (helloMsg' 7 0)) 1 ≠ 1 ∧
      byteAt (Pz.payload (helloMsg' 7 1)) 1 = 1 ∧ ctl.hostId = leAt (Pz.payload (helloMsg' 7 1)) 4 8) ∧
    (let m := pzMsg State.reset 1 0xFF 0 7 []; Pz.whole m = true ∧ pzHeadOk m = true ∧ helloForm (Pz.payload m) = false) := by decide +kernel

theorem witness_SessionsEnd :
    NextRequest (linked ctl run) ep0 (req 2 8 []) 0 ctl ∧ (Pz.type (req 2 8 []) = 2 ∧ Pz.payload (req 2 8 []) = []) ∧
    (let s := tick (floorTk 300) (linked ctl run);
      s.mode.up = true ∧ s.getSess 0 = some ctl ∧ floorTk (3 * ctl.hbMs) ≤ since s ctl.lastTk) ∧
    since (tick (floorTk 300 - 1) run) 0 < floorTk (3 * ctl.hbMs) ∧ Lengths (linked ctl run) = true ∧
    (loadRuns (linked ctl run) = false ∧ pzHeadOk (req 2 8 []) = true ∧ Pz.payload (req 2 8 [1, 2, 3, 4]) ≠ []) ∧
    (loadRuns (linked ctl (load .reading)) = true ∧ FromSession (linked ctl (load .reading)) ep0 (req 2 8 []) 0 ctl ∧
      FromSession (linked ctl run) ep0 (req 2 7 []) 0 ctl ∧ Pz.seq (req 2 7 []) = ctl.seq ∧
      FromSession (linked ctl run) ep0 (req 2 9 []) 0 ctl ∧ Pz.seq (req 2 9 []) ≠ ctl.seq ∧ Pz.seq (req 2 9 []) ≠ (ctl.seq + 1) % 2 ^ 32 ∧
      FromSession (linked { ctl with busy := some (1, 1) } run) ep0 (req 2 8 []) 0 { ctl with busy := some (1, 1) } ∧
      sessOf (linked ctl run) far = none ∧ pzHeard (linked ctl run) far = true ∧ pzHeard run far = false) ∧
    (let s := linked { ctl with role := .teller } svc; s.getSess 0 = some { ctl with role := .teller } ∧ ({ ctl with role := .teller } : Session).role ≠ .controller ∧
      (linked ctl svc).mode = .service ∧ (linked ctl run).mode = .run) ∧
    (let s := tick (secTk 300) (linked { ctl with unlockTk := some 0 } run);
      s.mode ≠ .service ∧ s.acc.entering ≠ some (0 : Fin 4).val ∧ secTk (cfgF s 0x00C000 0 12) ≤ since s 0) ∧
    since (tick (secTk 300 - 1) run) 0 < secTk (cfgF run 0x00C000 0 12) ∧
    ((linked { ctl with nonce := some ([], 0) } run).getSess 0).map (·.nonce) = some (some ([], 0)) :=
  ⟨(next_request rfl (.inl rfl) (by decide) (by decide) (by decide)).1, req_reads (by decide) (by decide) (by decide), by decide +kernel,
    by decide +kernel, by decide +kernel, by decide +kernel, by unfold FromSession; decide +kernel, by decide +kernel, by decide +kernel,
    by decide +kernel, by decide +kernel⟩

/-- Channel 127 in an EXT step, with phases of 16 A. -/
def extIn : State :=
  setCfg (Addr.ph 127 0x0C) 16000000 (bound ([1, 0, 1, 0] ++ List.replicate 64 0 ++ [9] ++ List.replicate 63 0)
    (chan fun c => { c with st := .step, rcp := { c.rcp with isOpen := true } }))

theorem witness_ToldFactsTakeEffect :
    slotRefused run (byteAt [127] 0) = some Cause.chAbsent ∧ slotRefused (chan id) (byteAt [127] 0) = none ∧
    slotRefused (chan id) (byteAt [128] 0) = some Cause.chAbsent ∧
    (((chan fun c => { c with st := .step }).getCh 127).st.active = true ∧ ((chan id).getCh 127).st.active = false) ∧
    ({ run with tb := { run.tb with trace := true } }.tb.trace = true ∧ run.tb.trace = false) ∧
    ((-4294968 : Int) * 1000 < -(2 ^ 32) ∧ -(2 ^ 32) ≤ (-4294967 : Int) * 1000) ∧
    (let s := chan fun c => { c with st := .paused, rcp := { c.rcp with isOpen := true } };
      (s.getCh 127).rcp.isOpen = true ∧ Stp.type (openStep s 127) ≠ StepT.ext ∧ ((chan id).getCh 127).rcp.isOpen = false) ∧
    (let e := [127, 0, 0, 0] ++ leBytes 4 3000000 ++ leBytes 4 100 ++ leBytes 4 0 ++ leBytes 4 1000 ++ leBytes 4 0;
      byteAt e 0 = 127 ∧ (extIn.getCh 127).rcp.isOpen = true ∧ Stp.type (openStep extIn 127) = StepT.ext ∧
      spLegal extIn 127 (SpMode.ofCode (byteAt e 1)) (leAt e 4 4) (leAt e 12 4) (leAt e 16 4) = true ∧
      spLegal extIn 127 (SpMode.ofCode (byteAt e 1)) (leAt e 4 4) 0 0 = false) ∧
    (ageRefused run (ageU run false 0 0) none = none ∧ ageRefused run (ageU run false 0 0) (some run.tb.run) ≠ none ∧
      takeTk run (ageU run false 0 0) ≤ 0 ∧ leAtS ([127, 0] ++ leBytes 2 1000 ++ leBytes 8 0) 2 2 = 1000) ∧
    (run.sump.told.map (·.2) = none ∧ ((5 : Nat) = (0 + 5) % 2 ^ 32)) := by decide +kernel

/-- A ring with one record, of the length of a timed command. -/
def ringed (r : Nat) (b : List Byte) : State :=
  modRing r (fun g => { g with owner := some 0, recs := [{ rsn := 0, bytes := b }], next := 1 }) (linked ctl run)

theorem witness_RingsMoveTheirRecords_ack :
    (let m := req 0x42 8 ([59, 0, 0, 0] ++ leBytes 4 1);
      FromSession (ringed 59 []) ep0 m 0 ctl ∧ Pz.type m = 0x42 ∧ pzHeadOk m = true ∧ ackForm (Pz.payload m) = true ∧ byteAt (Pz.payload m) 0 = 59 ∧
      ringKind 59 = 1 ∧ ((ringed 59 []).getRing 59).owner = some 0 ∧ leAt (Pz.payload m) 4 4 = 1 ∧
      rsnGap ((ringed 59 []).getRing 59).acked 1 ≤ rsnGap ((ringed 59 []).getRing 59).acked ((ringed 59 []).getRing 59).next ∧
      ((ringed 58 []).getRing 59).owner ≠ some 0 ∧ (run.getRing 59).owner = none) ∧
    (let m := req 0x42 8 ([59, 1, 0, 0] ++ leBytes 4 1); FromSession (ringed 59 []) ep0 m 0 ctl ∧ ackForm (Pz.payload m) = false) ∧
    (rsnGap 0 ((ringed 59 []).getRing 59).next < rsnGap 0 2 ∧ pzHeard run ep0 = false ∧ sessOf (linked ctl run) far = none) := by
  unfold FromSession; decide +kernel

theorem witness_RingsMoveTheirRecords_serve :
    (ringKind 39 = 0 ∧ ringKind 40 = 1 ∧ ringKind 59 = 1 ∧ ringKind 60 = 2) ∧
    (linkTel run = 0 ∧ (run.getRing 39).stream = none ∧ ({ ctl with telPort := 1 } : Session).telPort ≠ 0 ∧ ctl.telPort = 0) ∧
    ((run.getRing 55).owner = none ∧ (55 : Nat) = 52 + 3 ∧ (51 : Nat) < 52 ∧ (run.getRing 59).owner = none ∧
      ((ringed 59 []).getRing 59).owner ≠ some 1 ∧ ((ringed 59 []).getRing 59).owner ≠ none) ∧
    (byteAt [39] 0 < 64 ∧ 64 ≤ byteAt [64] 0 ∧ ringKind (byteAt [40] 0) ≠ 0 ∧ rsnBefore (leAt (List.replicate 12 0) 4 4) (ringOldest (run.getRing 39)) = false ∧
      rsnGap (ringOldest (run.getRing 39)) (leAt (List.replicate 12 0) 4 4) ≤ rsnGap (ringOldest (run.getRing 39)) (run.getRing 39).next) ∧
    (byteAt [60] 0 = 60 + 0 ∧ byteAt [61] 0 ≠ 60 + 0 ∧ (run.getRing 60).en = true ∧ rsnBefore (run.getRing 60).next (leAt ([60, 1, 0, 0] ++ leBytes 4 1) 4 4) = true ∧
      rsnBefore (run.getRing 60).next (leAt ([60, 1, 0, 0] ++ leBytes 4 0) 4 4) = false) ∧
    ((run.getRing 63).next ≠ 1 ∧ (List.replicate 64 (1 : Byte)).length = 64 ∧ (run.getRing 63).en = true ∧
      ringUsed (run.getRing 63) + 64 ≤ ringSize run 63) ∧
    (let s := ringed 63 [1, 6]; s.mode.up = true ∧ (s.getRing 63).recs = [{ rsn := 0, bytes := [1, 6] }] ∧ (run.getRing 63).recs = []) := by
  decide +kernel

theorem witness_RingsMoveTheirRecords_send :
    (linkRuns (ringed 59 []) = true ∧ (ringed 59 []).link.ipNow ≠ 0 ∧ linkRuns State.reset = false ∧ run.link.ipNow = 0) ∧
    (let s := modRing 59 (fun g => { g with sendNext := 1, rto := 200 }) (tick (msTk 200) (ringed 59 []));
      linkRuns s = true ∧ (s.getRing 59).owner = some 0 ∧ (s.getRing 59).sendNext ≠ (s.getRing 59).acked ∧
      msTk (s.getRing 59).rto ≤ since s (s.getRing 59).ackTk ∧ since (tick (msTk 200 - 1) s) (s.getRing 59).ackTk < msTk (s.getRing 59).rto) ∧
    (run.mode.up = true ∧ loaderBusy run = false ∧ State.reset.mode.up = false ∧ (load .reading).mode.up = true ∧
      loaderBusy (load .reading) = true ∧ (run.getRing 63).en = true) := by decide +kernel

/-! ### Witnesses: access -/

theorem witness_AccessOperationsAreCarriedOut :
    (∀ q ∈ accessTable, NextRequest (linked ctl run) ep0 (req 0x60 8 (leBytes 1 q.1 ++ [0, 0, 0] ++ List.replicate q.2.2.1 0)) 0 ctl) ∧
    (accessTable.all fun q =>
      let b := leBytes 1 q.1 ++ [0, 0, 0] ++ List.replicate q.2.2.1 0
      byteAt b 0 == q.1 && b.length == 4 + q.2.2.1 && allZero (slice b 1 3) && q.2.2.2.1 (b.drop 4) && decide (q.2.2.2.2.1.code ≤ ctl.role.code))
      = true ∧
    (run.mode ≠ .service ∧ svc.mode = .service ∧ Role.observer.code < Role.controller.code) ∧
    (let s := linked ctl (load .reading); let m (n : Nat) := req 0x60 n [1, 0, 0, 0];
      loadRuns s = true ∧ FromSession s ep0 (m 8) 0 ctl ∧ Pz.type (m 8) = 0x60 ∧ byteAt (Pz.payload (m 8)) 0 = 1 ∧ loadRuns (linked ctl run) = false ∧
      FromSession (linked ctl run) ep0 (m 7) 0 ctl ∧ Pz.seq (m 7) = ctl.seq ∧ FromSession (linked ctl run) ep0 (m 9) 0 ctl ∧
      Pz.seq (m 9) ≠ ctl.seq ∧ Pz.seq (m 9) ≠ (ctl.seq + 1) % 2 ^ 32 ∧
      FromSession (linked { ctl with busy := some (1, 1) } run) ep0 (m 8) 0 { ctl with busy := some (1, 1) } ∧
      pzHeard run ep0 = false ∧ sessOf (linked ctl run) far = none) ∧
    (let m := req 0x60 8 [1, 1, 0, 0]; NextRequest (linked ctl run) ep0 m 0 ctl ∧ Pz.payload m = [1, 1, 0, 0] ∧ allZero (slice [1, 1, 0, 0] 1 3) = false) ∧
    (let x := { ctl with role := .observer }; let m := req 0x60 8 [1, 0, 0, 0]; NextRequest (linked x run) ep0 m 0 x ∧ x.role.code < Role.controller.code) := by
  refine ⟨fun q hq => ?_, by decide +kernel, by decide, by unfold FromSession; decide +kernel, by unfold NextRequest FromSession; decide +kernel,
    by unfold NextRequest FromSession; decide +kernel⟩
  have h : q.2.2.1 ≤ 36 ∧ q.2.2.1 % 4 = 0 := by
    simp only [accessTable, List.mem_cons, List.not_mem_nil, or_false] at hq
    rcases hq with h | h | h | h | h | h | h | h | h <;> rw [h] <;> exact ⟨by decide, by decide⟩
  refine (next_request rfl (.inl rfl) (by decide) ?_ ?_).1 <;>
    simp only [List.length_append, length_leBytes, List.length_cons, List.length_nil, List.length_replicate] <;> omega

/-- Both unlock methods programmed: the password's block is the digest for unit 0 and 32 zero bytes. -/
def programmed (s : State) : State :=
  let f := s.acc.fuse
  { s with acc := { s.acc with
      fails := some 0
      fuse := f.take 18 ++ [3, 0, 1] ++ (f.drop 21).take 8
        ++ [500053036, 2357410802, 2133507930, 2748069732, 3581806291, 4045799177, 464647709, 3947965272, 0] ++ f.drop 38 } }
/-- A table whose first user region is of kind 2, waiting to be written; its password is that of 32 zero bytes. -/
def regioned (pwd : List Byte) (s : State) : State :=
  { s with
    nvm := { s.nvm with queue := [.record Kind.table 0 (tabFresh.take 80 ++ tabEntry 5 2 0 442 1 pwd ++ tabFresh.drop 96)] }
    acc := { s.acc with fails := some 0 } }

theorem witness_ServiceAccessIsGuarded_unlock :
    (methodOk run 1 20 = false ∧ methodOk run 0 29 = false) ∧
    (methodOk (programmed run) 1 20 = true ∧ methodOk (programmed run) 0 29 = true ∧ backoffTk (programmed run) = 0) ∧
    (0 < backoffTk { programmed run with acc := { (programmed run).acc with fails := some 1 } }) ∧
    (sha256 (leBytes 8 (unitId (programmed run)) ++ List.replicate 32 0) = fuseBytes (programmed run) 29 8 ∧
      sha256 (leBytes 8 (unitId (programmed run)) ++ [1]) ≠ fuseBytes (programmed run) 29 8) ∧
    (run.nvm.refused = false ∧ run.acc.waiting = true ∧ { run.acc with fails := some 1 }.fails = some (0 + 1) ∧ run.tb.run = run.acc.failTk) ∧
    ((linked { ctl with nonce := some ([], 0) } (programmed run)).getSess 0 = some { ctl with nonce := some ([], 0) } ∧
      Lengths (linked ctl run) = true ∧ run.acc.waiting = true ∧ { run.acc with waiting := false }.waiting = false) := by decide +kernel

theorem witness_ServiceAccessIsGuarded_service :
    (svcAuth (programmed run) ≠ 0 ∧ unlocked (linked ctl run) 0 = false ∧ svcAuth run = 0) ∧
    (State.reset.seq.st ≠ .on ∧ (supply (fun q => { q with st := .on }) run).seq.st = .on ∧ (supply (fun q => { q with st := .on }) run).seq.wait = none ∧
      svc.mode ≠ .run ∧ svc.mode ≠ .load ∧ loadIdle (load .halted) = true ∧ loadIdle (load .reading) = false ∧
      { run with tb := { run.tb with drain := some { goal := .off, from_ := 0, lim := 1, entry := none, chans := 0 } } }.tb.drain ≠ none) ∧
    (unlocked (linked { ctl with unlockTk := some 0 } run) 0 = true ∧ run.mode = .run ∧ run.tb.drain = none) ∧
    ((load .halted).mode = .load ∧ (load .halted).ldr.st = .halted) ∧ svc.mode = .service ∧
    ((linked ctl svc).getSess 0 = some ctl ∧ ctl.byHmac = false) ∧
    ((linked { ctl with byHmac := true, unlockTk := some 0 } svc).getSess 0 = some { ctl with byHmac := true, unlockTk := some 0 }) ∧
    (let s := { regioned (regionDigest run 0 (List.replicate 32 0)) run with acc := { run.acc with fails := some 1 } };
      (regionOf s 0).kind = 2 ∧ 0 < backoffTk s ∧ (regionOf s 7).kind ≠ 2) ∧
    (let s := linked ctl (regioned (regionDigest run 0 (List.replicate 32 0)) run);
      (regionOf s 0).kind = 2 ∧ backoffTk s = 0 ∧ regionDigest s 0 (List.replicate 32 0) = (regionOf s 0).pwd ∧ s.getSess 0 = some ctl ∧
      Lengths s = true) ∧
    (let s := regioned (regionDigest run 0 (List.replicate 32 0)) run;
      (regionOf s 0).kind = 2 ∧ backoffTk s = 0 ∧ regionDigest s 0 (List.replicate 32 0) = (regionOf s 0).pwd ∧
      regionDigest s 0 [1] ≠ (regionOf s 0).pwd ∧ (regionOf s 7).kind ≠ 2) := by decide +kernel


/-! ### Witnesses: interrupts, watchdogs, temperatures -/

/-- Target 4 serves source 7 above source 3; target 5 is idle; target 6 serves sixteen sources. -/
def serving : State :=
  { run with intc := { run.intc with
      stk := List.replicate 4 [] ++ [[(7, 9), (3, 1)], [], (List.range 16).map fun i => (100 + i, 15 - i), []] } }

theorem witness_EndOfInterruptPopsTheTop :
    run.mode.up = true ∧ loaderBusy serving = false ∧ Lengths serving = true ∧
    stackOf serving 4 = (field (0xFFFFFC07 : Word) 0 10, 9) :: [(3, 1)] ∧ (7 ≠ field (0x3FF : Word) 0 10) ∧ stackOf serving 5 = [] ∧
    (stackOf serving 6).length = 16 := by decide +kernel

theorem witness_EndOfInterruptPopsTheTop_rise : StacksRise serving := by
  refine ⟨by decide +kernel, fun l hl => ?_⟩
  have e : serving.intc.stk = List.replicate 4 [] ++ [[(7, 9), (3, 1)], [], (List.range 16).map fun i => (100 + i, 15 - i), []] := rfl
  rw [e] at hl
  revert l
  decide +kernel

/-- Watchdog slot i with a period of 1 ms, open from 3/8 ms, and further bits; its counter and its last valid token. -/
def dog (i : Nat) (bits : Word) (n : Nat) (used : Option Nat) (s : State) : State :=
  modSlot i (fun x => { x with count := n, used := used }) (setCfg (Addr.wdtCfg i) (0x40020001 ||| bits) s)

theorem witness_WatchdogServicesAreJudged :
    (wdtEn (dog 15 0 0 none run) 15 = true ∧ Lengths (dog 15 0 0 none run) = true ∧ loaderBusy (dog 15 0 0 none run) = false ∧
      wdtPeriod (dog 15 0 0 none run) 15 = 1000 ∧ wdtOpenPoint (dog 15 0 0 none run) 15 = 375 ∧ run.mode.up = true ∧ wdtEn run 15 = false) ∧
    (State.reset.mode.up = false ∧ (load .reading).mode.up = true ∧ loaderBusy (load .reading) = true) ∧
    ((dog 15 0 1000 none run).slot 15).count = wdtPeriod (dog 15 0 1000 none run) 15 ∧
    (let s := dog 0 0 375 none run; field (0x5A00 : Word) 0 16 = (s.slot 0).token ∧ (s.slot 0).used ≠ some 0x5A00 ∧
      wdtOpenPoint s 0 ≤ (s.slot 0).count ∧ (s.slot 0).count ≠ wdtPeriod s 0) ∧
    (∀ i ∈ [11, 12], let s := dog i 0 374 none run; field (wordN (0x5A00 + i)) 0 16 = (s.slot i).token ∧
      (s.slot i).count < wdtOpenPoint s i ∧ (s.slot i).count ≠ wdtPeriod s i) ∧
    (∀ i ∈ [11, 12], let s := dog i 0 999 (some 7) run; (s.slot i).used = some (field (7 : Word) 0 16) ∧ (s.slot i).count ≠ wdtPeriod s i) ∧
    (let s := dog 3 0 999 none run; field (0x5A04 : Word) 0 16 ≠ (s.slot 3).token ∧ (s.slot 3).used ≠ some (field (0x5A04 : Word) 0 16)) := by decide +kernel

/-- A told temperature of channel 127 with TRACE known and an age of 0. -/
def told (t : Int) : List Byte := [127, 0] ++ leBytes 2 (wrapN 16 t) ++ leBytes 4 0 ++ leBytes 4 0
/-- Channel 127 is populated; the line time is known and 0. -/
def telling : State := { chan id with tb := { (chan id).tb with trace := true } }

theorem witness_ToldTemperaturesAreRangeCheckedFirst :
    slotRefused telling (byteAt (told 0) 0) = none ∧
    [-4001, -4000, 15000, 15001].map (fun t => leAtS (told t) 2 2) = [-4001, -4000, 15000, 15001] ∧
    ageRefused telling (ageU telling (bitN (byteAt (told 0) 1) 0) (leAt (told 0) 4 4) (leAt (told 0) 8 4)) none = none ∧
    (let s := modTold 127 (fun x => { x with t := some (0, 1000000) }) telling;
      ageRefused s (ageU s (bitN (byteAt (told 0) 1) 0) (leAt (told 0) 4 4) (leAt (told 0) 8 4)) ((s.getTold 127).t.map (·.2))
        = some Cause.pzToldOld) := by decide +kernel

theorem witness_WatchdogsExpireAndUnitsReset :
    (wdtEn (dog 15 0 0 none run) 15 = true ∧ wdtCounts (dog 15 0 0 none run) 15 = true ∧
      wdtHostRst (dog 23 0 0 none svc) 23 = false ∧ Lengths (dog 23 0 0 none svc) = true) ∧
    (wdtLocked (dog 15 0x80000000 0 none run) 15 = true ∧ wdtLocked (dog 15 0 0 none run) 15 = false ∧
      regsWf 0 (dog 15 0 0 none run).regs = true ∧ wdtEn run 15 = false) ∧
    (run.wdt.clkLost = false ∧ ({ run with wdt := { run.wdt with clkLost := true } } : State).wdt.clkLost = true ∧
      State.reset.mode.up = false ∧ (load .reading).mode.up = true ∧ loaderBusy (load .reading) = true) ∧
    ((run.slot 16).expTks = []) ∧
    (let s := modSlot 16 (fun x => { x with expTks := [0, 0] }) (tick (60 * 8192) run);
      s.mode.up = true ∧ (s.slot 16).expTks = [0, 0] ∧ since s 0 ≤ 60 * 8192) := by decide +kernel

theorem witness_ThermalReadingsAreJudged :
    (implausible (run.getDie 9) 17501 0 0 = true ∧ implausible (run.getDie 9) (-5501) 0 0 = true ∧ implausible (run.getDie 9) 0 800 (-1) = true ∧
      (run.getDie 9).impl < 2) ∧
    (let s := modDie 9 (fun d => { d with impl := 2, ok := true }) run;
      implausible (s.getDie 9) 2001 0 0 = true ∧ implausible (s.getDie 9) 2000 0 0 = false ∧ 2 ≤ (s.getDie 9).impl ∧ (s.getDie 9).broken = false) ∧
    ((let s := modDie 9 (fun d => { d with impl := 3, broken := true }) run; implausible (s.getDie 9) 17501 0 0 = true ∧ (s.getDie 9).broken = true) ∧
      implausible (run.getDie 9) 17500 800 0 = false ∧ implausible (run.getDie 9) (-5500) 0 0 = false) ∧
    (let n := thmStaleMs run * 8192 / 1000;
      let s (a : Int) := modTold 127 (fun x => { x with t := some (2500, 1000000 - a), stale := false }) (chan id);
      ((s (n + 1)).getTold 127).stale = false ∧ toldStale (s (n + 1)) 127 = true ∧ toldStale (s n) 127 = false ∧
      ((s n).getTold 127).t = some (2500, 1000000 - (n : Int))) ∧
    ((run.getTold 127).t = none ∧ ((chan id).getTold 127).ref = none ∧
      (((chan id).tb.run : Int) - 1000000).toNat * 1000 ≤ thmStaleMs (chan id) * 8192) := by decide +kernel

/-- The core voltage adapts. -/
def adapting (code : Nat) (l : List Nat) : State :=
  supply (fun q => { q with st := .on }) { run with fab := { run.fab with code := code, slacks := l, ratePrev := 100 } }

theorem witness_CoreVoltageAndOverruns :
    (run.mode.up = true ∧ adapts run = false) ∧ (adapts (adapting 251 [1499]) = true ∧ (adapting 251 [1499]).mode.up = true) ∧
    (minSlack (adapting 251 [1499, 5000]).fab.slacks < 1500 ∧ (adapting 255 []).fab.code ≤ 255 ∧ (879 : Nat) < 880 ∧ State.reset.mode.up = false) ∧
    (1500 ≤ minSlack [2999] ∧ minSlack [2999] < 3000 ∧ 1500 ≤ minSlack [1500] ∧ (adapting 254 [1500]).fab.ratePrev * 97 ≤ 97 * 100) ∧
    (3000 ≤ minSlack [3000] ∧ minSlack [4500] ≤ 4500 ∧ 4500 < minSlack [4501] ∧ (decide (97 * 100 < 100 * 97) = false) ∧ decide (96 * 100 < 100 * 97) = true) ∧
    ((∀ i : Fin 10, (run.getDie i).fast = false) ∧ ((modDie 9 (fun d => { d with fast := true }) run).getDie 9).fast = true ∧
      { run.fab with lowRun := 1023 }.lowRun + 1 = 1024 ∧ run.fab.lowRun + 1 ≠ 1024) ∧
    (({ run with fab := { run.fab with ovNow := 1 } } : State).fab.ovNow ≠ 0 ∧ run.fab.ovNow = 0) := by decide +kernel

/-- Source i is enabled with priority p, group g, for target 7. -/
def source (i p g : Nat) (s : State) : State := setCfg (Addr.intcSrc i) (wordN (p + 16 * g + 2048 + 65536)) s
def pending (l : List Nat) (s : State) : State := { s with intc := { s.intc with pend := l } }

theorem witness_EventsBecomePendingAndAreClaimed :
    (let s := source 160 15 15 run;
      srcReal 160 = true ∧ srcEnabled s 160 = true ∧ 160 ∉ s.intc.pend ∧ s.intc.run.testBit (srcGroup s 160) = false ∧
      ({ s with intc := { s.intc with run := 0x8000 } } : State).intc.run.testBit (srcGroup s 160) = true ∧
      160 ∈ (pending [160] s).intc.pend) ∧
    (srcReal 161 = false ∧ srcReal 223 = false ∧ srcReal 224 = true ∧ srcReal 255 = true ∧ srcReal 256 = false ∧ srcEnabled run 0 = false) ∧
    (({ run with intc := { run.intc with run := 0x8000 } } : State).intc.run.testBit (15 : Fin 16).val = true ∧ run.intc.left.getD 15 0 = 0 ∧
      run.intc.run.testBit 15 = false ∧ run.intc.held = [] ∧
      (let s := source 160 15 15 { run with intc := { run.intc with run := 0x8000, held := [160] } };
        160 ∈ s.intc.held ∧ srcGroup s 160 = (15 : Fin 16).val ∧ srcGroup s 160 ≠ (14 : Fin 16).val)) ∧
    (Path.i2c ≠ .core 3 ∧ Path.sess 3 ≠ .core 3 ∧ (3 : Fin 8).val < 4 ∧ 4 ≤ (4 : Fin 8).val) ∧
    (loaderBusy run = false ∧ (load .reading).mode.up = true ∧ loaderBusy (load .reading) = true ∧ State.reset.mode.up = false) ∧
    (let s := pending [3, 5] (source 5 15 0 (source 3 15 0 run)); bestClaim s 7 = some 3 ∧ Lengths s = true ∧ s.mode.up = true) ∧
    (let s := pending [3, 5] (source 5 15 0 (source 3 14 0 run)); bestClaim s 7 = some 5) ∧
    bestClaim run 4 = none := by decide +kernel

/-- An event without argument of channel 127. -/
def event : Event := { cause := Cause.rtcPwake, ch := 127, akind := 0, arg := [], sec := 0, frac := 0, run := 0, prod := .fabric, src := 127 }

theorem witness_EventsBecomePendingAndAreClaimed_records :
    (noRecord event = false ∧ event.lost = false ∧ { event with lost := true }.lost = true) ∧
    (∀ r ∈ [40, 47], let e := { event with cause := Cause.ringOverflow, arg := leBytes 4 r }; noRecord e = true ∧ e.lost = false) ∧
    (∀ r ∈ [39, 48], noRecord { event with cause := Cause.ringOverflow, arg := leBytes 4 r } = false) := by decide +kernel

/-! ### Witnesses: calendar, store, fuses, two-wire bus -/

/-- The calendar stands still at a time. -/
def halted (c : Calendar) (s : State) : State := setCfg 0x003020 1 { s with rtc := { s.rtc with cal := c } }

theorem witness_CalendarFreezesAndCounts :
    ((58 : Nat) < 59 ∧ rtcHalt run = false ∧ run.mode.up = true ∧ State.reset.mode.up = false ∧ Lengths run = true) ∧
    ((modShad .i2c (fun h => { h with cal := some ({}, 0) }) run).shad .i2c).cal = some ({}, 0) ∧
    (let s := halted {} run; rtcHalt s = true ∧ loaderBusy s = false ∧ dateExists s.rtc.cal = true) ∧
    ([CalField.sec, .min, .hour, .day, .mon, .year].all fun f =>
      decide (field (wordN (calRange f).2) 0 (calBits f) = (calRange f).2) && decide (field (wordN (calRange f).1) 0 (calBits f) = (calRange f).1)) = true ∧
    (calRange .sec).2 < field (60 : Word) 0 (calBits .sec) ∧ field (0 : Word) 0 (calBits .day) < (calRange .day).1 ∧
    dateExists (halted { year := 2023, mon := 2, day := 29 } run).rtc.cal = false ∧ dateExists { year := 2024, mon := 2, day := 29 } = true ∧
    ((2 : Word).toNat.testBit 0 = false ∧ (1 : Word).toNat.testBit 0 = true) ∧
    (calLast { year := 2199, mon := 12, day := 31, hour := 23, min := 59, sec := 59, sub := 32767 } = true ∧ calLast run.rtc.cal = false) ∧
    (∀ n ∈ [32767, 32768], let s := modShad (.sess 3) (fun h => { h with cal := some ({ year := 2001 }, n) }) run;
      (s.shad (.sess 3)).cal = some ({ year := 2001 }, n) ∧ freezeOver (s.shad (.sess 3)) = decide (n = 32768)) ∧
    ((run.shad .i2c).cal = none ∧ (load .reading).mode.up = true ∧ loaderBusy (load .reading) = true) := by decide +kernel

/-- The calendar runs, with the alarm and the periodic wake enabled. -/
def waking (s : State) : State := setCfg 0x00303C 0xFFFFFF (setCfg 0x003020 12 s)

theorem witness_WakesBackupRamAndSupply :
    (let s := waking run; rtcHalt s = false ∧ rtcAlmEn s = true ∧ rtcPwakeEn s = true ∧ 0 < rtcN s ∧ s.mode ≠ .ship ∧ s.mode ≠ .rest ∧
      s.mode ≠ .backup) ∧
    ((waking State.reset).mode = .backup ∧ rtcAlmEn (waking State.reset) = true ∧ rtcHalt (waking State.reset) = false) ∧
    (let s := waking { run with mode := .rest }; s.mode = .rest ∧ rtcAlmEn s = true ∧ rtcHalt s = false ∧ rtcRestAct s = false) ∧
    (rtcAlmEn run = false ∧ rtcHalt (halted {} run) = true ∧ rtcPwakeEn run = false) ∧
    (let s := { run with rtc := { run.rtc with winSec := 64 } }; rtcHalt s = false ∧ 64 ≤ s.rtc.winSec ∧ { s.rtc with winSec := 63 }.winSec < 64) ∧
    (almMatches run = true ∧ almMatches (setCfg 0x003038 0x41 run) = false ∧ run.rtc.pwCnt = 0 ∧ { run.rtc with pwCnt := 1 }.pwCnt ≠ 0 ∧
      rtcN run = 0) ∧
    (let s := { run with mode := .ship }; s.mode = .ship ∧ s.seq.lockout = false) ∧
    (let s := setCfg 0x003020 0x1C { run with mode := .rest }; s.mode = .rest ∧ rtcRestAct s = true) ∧
    ((load .reading).mode.up = true ∧ loaderBusy (load .reading) = true ∧ State.reset.mode.up = false) ∧
    ({ run with rtc := { run.rtc with vbakLow := true } }.rtc.vbakLow = true) ∧
    (run.mode.up = true ∧ loaderBusy run = false ∧ Lengths run = true) ∧
    (let s := supply (fun q => { q with vinOk := true }) run; s.seq.vinOk = true ∧ s.rtc.vbakLow = false) ∧
    (supply (fun q => { q with vinOk := false }) run).seq.vinOk = false := by decide +kernel

def store (f : Nvm → Nvm) (s : State) : State := { s with nvm := f s.nvm }
def w8 : List Byte := List.replicate 8 1

theorem witness_StoreWritesAndCommands :
    (let s := store (fun n => { n with job := some ⟨.word 0 w8, (0, w8) :: [(8, w8)]⟩ }) run; s.nvm.job = some ⟨.word 0 w8, (0, w8) :: [(8, w8)]⟩) ∧
    (let s := store (fun n => { n with job := some ⟨.word 0 w8, [(0, w8)]⟩ }) run; s.nvm.job = some ⟨.word 0 w8, [(0, w8)]⟩) ∧
    (let s := store (fun n => { n with queue := [.word 0 w8] }) run;
      s.nvm.job = none ∧ s.nvm.refused = false ∧ s.nvm.lock = false ∧ s.nvm.queue = .word 0 w8 :: []) ∧
    ((store (fun n => { n with commit := some [] }) run).nvm.commit = some [] ∧ run.nvm.commit ≠ some []) ∧
    (svc.mode = .service ∧ loaderBusy svc = false ∧ svc.nvm.lock = false ∧ svc.nvm.busy = none ∧ svc.nvm.refused = false ∧
      (0x4F : Nat) ≠ 0x4E ∧ run.mode ≠ .service ∧ run.mode.up = true) ∧
    ((store (fun n => { n with busy := some .format }) svc).nvm.busy = some .format ∧ storeFmt run = false ∧
      storeFmt { run with acc := { run.acc with fuse := List.replicate 17 0 ++ [1] } } = true) ∧
    (let s := store (fun n => { n with busy := some .calCommit }) svc; s.nvm.busy = some .calCommit ∧ calWaiting s = false) ∧
    (let s := setCfg 0x00B004 (wordN (441 + 4096 * 1)) svc; fieldN (cfgN s 0x00B004) 12 12 ≠ 0 ∧ fieldN (cfgN s 0x00B004) 0 12 < 442) ∧
    (let s := setCfg 0x00B004 (wordN (4095 + 4096 * 2)) svc;
      fieldN (cfgN s 0x00B004) 12 12 ≠ 0 ∧ 4096 < fieldN (cfgN s 0x00B004) 0 12 + fieldN (cfgN s 0x00B004) 12 12) ∧
    svc.nvm.lock = false := by decide +kernel

theorem witness_StoreWritesAndCommands_scan :
    (let s := tick (secTk 147) (store (fun n => { n with scanPage := 4094 }) run);
      scanDue s = true ∧ s.nvm.weak = [] ∧ s.nvm.bad = [] ∧ s.nvm.scanPage < 4095 ∧ s.nvm.busy = none ∧ scanDue (tick (secTk 147 - 1) s) = false ∧
      scanDue (tick (floorTk 20) (store (fun n => { n with busy := some (.scanNow 1) }) run)) = true) ∧
    (let s := store (fun n => { n with lock := true, queue := [.word 0 w8], commit := some [.word 8 w8] }) run;
      s.nvm.job = none ∧ s.nvm.refused = false ∧ s.nvm.busy ≠ some .format ∧ s.nvm.lock = true ∧ s.nvm.commit = some (.word 8 w8 :: [])) ∧
    (let s := setCfg 0x00B004 (wordN (442 + 4096 * 1 + 16777216)) (regioned [] svc);
      fieldN (cfgN s 0x00B004) 0 12 = 442 ∧ fieldN (cfgN s 0x00B004) 12 12 = 1 ∧ fieldN (cfgN s 0x00B004) 24 3 = 1 ∧
      (regionOf s 0).kind = 2 ∧ (regionOf s 0).base < 442 + 1 ∧ 442 < (regionOf s 0).base + (regionOf s 0).pages) ∧
    (let s := setCfg 0x00B004 (wordN (4095 + 4096 * 1 + 16777216 * 7)) (regioned [] svc);
      fieldN (cfgN s 0x00B004) 0 12 = 4095 ∧ fieldN (cfgN s 0x00B004) 12 12 = 1 ∧ fieldN (cfgN s 0x00B004) 24 3 = 7 ∧ 4095 + 1 ≤ 4096 ∧
      ∀ v ∈ List.range 8, v ≠ 7 → (regionOf s v).kind = 2 → ¬((regionOf s v).base < 4095 + 1 ∧ 4095 < (regionOf s v).base + (regionOf s v).pages)) ∧
    (fieldN (cfgN svc 0x00B004) 12 12 = 0 ∧ Memory.wf svc = true ∧
      svc.nvm.queue = [] ∧ calWaiting (store (fun n => { n with queue := [.record Kind.cal 0 []] }) svc) = true) ∧
    (regionAt (regioned [] run) 442 = some 0 ∧ (0x080000 + 4) % 8 = 4 ∧ (0x080000 : Nat) % 8 = 0 ∧ (0x080001 : Nat) % 4 ≠ 0 ∧
      loaderBusy (load .reading) = true ∧ (load .reading).mode.up = true) ∧
    (winRefused .i2c (winAddr (svc.shad .i2c).winBank (0x080000 + 186 * 256) / 256) svc = none ∧
      winRefused .i2c (winAddr (svc.shad .i2c).winBank (0x080000 + 441 * 256 + 252) / 256) svc = none ∧
      winRefused .i2c (winAddr (run.shad .i2c).winBank (0x100000 - 4) / 256) run = some Cause.nvmRegionLocked) ∧
    ((store (fun n => { n with lock := true }) run).nvm.lock = true ∧ (store (fun n => { n with refused := true }) run).nvm.refused = true ∧
      regionAt run 185 = none) := by decide +kernel

theorem witness_FusesAndStageOperation :
    (let v : Word := 0x46000010; svc.mode = .service ∧ loaderBusy svc = false ∧ field v 24 8 = 0x46 ∧ svc.nvm.lock = false ∧
      svc.acc.job = none ∧ v.toNat.testBit 8 = false ∧ fuseW svc (field v 0 6) = 0 ∧ field v 0 6 = 16) ∧
    (38 ≤ field (0x4600003F : Word) 0 6 ∧ fuseW svc (field (0x4600003F : Word) 0 6) = 0) ∧
    (fuseW svc (field (0x46000000 : Word) 0 6) ≠ 0) ∧
    (let v : Word := 0x46000114; v.toNat.testBit 8 = true ∧ field v 24 8 = 0x46 ∧ field v 0 6 = 20 ∧ fuseBlockSet svc (field v 0 6) = false) ∧
    (field (0x4600011D : Word) 0 6 = 29 ∧ fuseBlockSet svc 29 = false ∧ fuseBlockSet (programmed svc) 29 = true) ∧
    (field (0x47000000 : Word) 24 8 ≠ 0x46 ∧ run.mode ≠ .service ∧ run.mode.up = true ∧ loaderBusy run = false) ∧
    (let s := tick (floorTk 10) { svc with acc := { svc.acc with job := some (.word 63 1) } };
      s.acc.job = some (.word 63 1) ∧ floorTk 10 ≤ since s s.acc.jobTk ∧ Lengths s = true ∧ 63 < 64) ∧
    (since (tick (floorTk 10 - 1) svc) svc.acc.jobTk < floorTk (10 * (FuseJob.word 63 1).words)) ∧
    (field (0x46000011 : Word) 0 6 = 17 ∧ field (0x46000025 : Word) 0 6 = 37 ∧ fuseW svc 37 = 0 ∧ field (0x46000012 : Word) 0 6 = 18 ∧ fuseW svc 18 = 0 ∧
      authUnbacked svc (cfgF svc 0x00C090 0 2) = false ∧ authUnbacked (setCfg 0x00C090 3 svc) (cfgF (setCfg 0x00C090 3 svc) 0x00C090 0 2) = true) ∧
    (field (0x46000115 : Word) 0 6 ≠ 20 ∧ field (0x46000115 : Word) 0 6 ≠ 29 ∧ (0x46000115 : Word).toNat.testBit 8 = true) ∧
    (loaderBusy (load .reading) = true ∧ (load .reading).mode.up = true ∧ State.reset.mode.up = false) ∧
    (let s := tick (floorTk 90) { svc with acc := { svc.acc with job := some (.block 29 (List.replicate 8 5)) } };
      s.acc.job = some (.block 29 (List.replicate 8 5)) ∧ floorTk 90 ≤ since s s.acc.jobTk ∧ Lengths s = true) ∧
    svc.acc.stageOp = false := by decide +kernel

def twi (f : Twi → Twi) (s : State) : State := { s with twi := f s.twi }

theorem witness_TwoWireControllerTransactions :
    (let v : Word := 0x80202050; v.toNat.testBit 31 = true ∧ xferRefused run 0x80202010 = false ∧ field v 8 6 ≤ 32 ∧ field v 16 6 ≤ 32 ∧
      field v 8 6 = 32 ∧ xferRefused run v = true ∧ loaderBusy run = false ∧ run.mode.up = true) ∧
    ((0x7FFFFFFF : Word).toNat.testBit 31 = false ∧ field (0x80212110 : Word) 8 6 = 33 ∧ field (0x80212110 : Word) 16 6 = 33 ∧
      loaderBusy (load .reading) = true ∧ (load .reading).mode.up = true ∧ State.reset.mode.up = false) ∧
    (let s := twi (fun x => { x with ctl := true }) run; controlling s = true ∧ s.twi.xst ≠ .busy) ∧
    (let s := twi (fun x => { x with retry := true, tries := twiRetryMax run }) run;
      s.twi.retry = true ∧ twiRetryMax s ≤ s.twi.tries ∧ s.twi.xst ≠ .busy ∧ run.twi.retry = false) ∧
    ((twi (fun x => { x with xst := .busy }) run).twi.xst = .busy ∧ run.twi.xst ≠ .busy) ∧
    (controlling (twi (fun x => { x with ctl := true, xst := .busy }) run) = true ∧ controlling run = false) ∧
    (let s := twi (fun x => { x with retry := true, tries := twiRetryMax run - 1 }) run;
      s.twi.retry = true ∧ (0 < twiRetryMax s → s.twi.tries < twiRetryMax s) ∧ 0 < twiRetryMax s) ∧
    (let s := twi (fun x => { x with retry := true, tries := twiRetryMax run, xst := .busy }) run;
      s.twi.retry = true ∧ twiRetryMax s ≤ s.twi.tries ∧ s.twi.xst = .busy) := by decide +kernel

/-- The target is enabled; 4: with PEC. -/
def target (v : Word) (s : State) : State := setCfg 0x00A000 v s

theorem witness_TwoWireTargetAccess :
    (let s := target 4 run; s.mode.up = true ∧ cfgF s 0x00A000 2 1 = 1 ∧ s.ldr.st ≠ .applying ∧ cfgF s 0x00A000 4 1 = 0 ∧
      justReset s = true ∧ justReset (tick 9 s) = false ∧ cfgF (target 0 run) 0x00A000 2 1 = 0) ∧
    (let s := target 4 (load .applying); s.mode.up = true ∧ cfgF s 0x00A000 2 1 = 1 ∧ s.ldr.st = .applying) ∧
    (([1, 2] : List Byte).length < 3 ∧ 3 < ([1, 2, 3, 4] : List Byte).length ∧ 8 ≤ (List.replicate 8 (0 : Byte)).length ∧ (List.replicate 7 (0 : Byte)).length < 8) ∧
    (let d : List Byte := [1, 2, 3, 4]; let d := d ++ [BitVec.ofNat 8 (crc8 ([0, 0, 0] ++ d))];
      d ≠ [] ∧ d.dropLast.length % 4 = 0 ∧ d.dropLast.length ≤ 64 ∧ crc8 ([0, 0, 0] ++ d) = 0) ∧
    (cfgF (target 12 run) 0x00A000 3 1 = 1 ∧
      let s := tick 17 (twi (fun x => { x with kept := some (0, 5, 9) }) run)
      s.twi.kept = some (s.twi.ptr, 5, 9) ∧ since s 9 ≤ msTk 1 ∧ twiHasKept s = true) ∧
    (twiAddr 0xFF 0xFF 0xFF % 4 ≠ 0 ∧ twiAddr 0 0 1 % 4 ≠ 0 ∧ twiAddr 0xFF 0xFF 0xFC % 4 = 0 ∧ TwiBusy.free ≠ .address) ∧
    (let s := target 0x14 run; cfgF s 0x00A000 2 1 = 1 ∧ cfgF s 0x00A000 4 1 = 1 ∧ crc8 ([0, 0, 0] ++ ([1, 2, 3, 4, 0] : List Byte)) ≠ 0) ∧
    (let s := target 4 run; twiHasKept s = false ∧ cfgF s 0x00A000 3 1 = 0) := by decide +kernel

/-! ### Witnesses: the reported SoC -/

/-- A cell model: OCV 3 to 4 V in equal steps, cut-off 3 V, full at 4 V and 1 mA, idle below 10 uA, resistances 1000 uOhm, 1000 s. -/
def cell : List Byte :=
  List.replicate 20 0 ++ leBytes 4 1000000 ++ leBytes 4 3000000 ++ leBytes 4 4000000 ++ leBytes 4 1000 ++ leBytes 4 10 ++ leBytes 2 100
    ++ leBytes 2 2500 ++ (List.range 5).flatMap (fun i => leBytes 2 (1000 * i)) ++ List.replicate 18 0
    ++ (List.range 3).flatMap (fun _ => leBytes 4 0x3A83126F) ++ (List.range 2).flatMap (fun _ => leBytes 4 0x3C23D70A)
    ++ (List.range 33).flatMap (fun j => leBytes 4 (3000000 + 31250 * j)) ++ (List.range 90).flatMap (fun _ => leBytes 4 1000)
    ++ (List.range 45).flatMap (fun _ => leBytes 4 1000000)
def shunted : State := setCfg (Addr.fe 0 0x24) 1000 run
def half : Estimator := { st := .valid, q := 1000000, socRep := 5000 }
/-- A period of 512 ticks, a change of the charge count, a mean voltage and a mean current. -/
def spanOf (dacc vm im : Int) : EstIn := { m := 1, dacc := dacc, acc := dacc, vm := vm, im := im, t := 2500, stale := false, predict := false }

theorem witness_ReportedSocFollowsThePeriod :
    cell.length = 764 ∧
    ((estUpdate shunted 0 1023 cell (spanOf 1000000000 3500000 20000) half).dirn = 1 ∧
      anchorOf cell half 1023 .charge (spanOf 1000000000 3500000 20000) = .none) ∧
    ((estUpdate shunted 0 1023 cell (spanOf (-1000000000) 3500000 (-20000)) half).dirn = 2 ∧
      anchorOf cell half 1023 .discharge (spanOf (-1000000000) 3500000 (-20000)) = .none) ∧
    ((estUpdate shunted 0 1023 cell (spanOf 0 3500000 0) half).dirn = 0 ∧ anchorOf cell half 1023 .rest (spanOf 0 3500000 0) = .none) ∧
    ((estUpdate shunted 0 1023 cell (spanOf (-1000000000) 3005000 (-20000)) half).dirn = 2 ∧
      anchorOf cell half 1023 .discharge (spanOf (-1000000000) 3005000 (-20000)) = .cutoff) ∧
    ((estUpdate shunted 0 1023 cell (spanOf 1000000000 3995000 1000) half).dirn = 1 ∧
      anchorOf cell half 1023 .charge (spanOf 1000000000 3995000 1000) = .full) ∧
    (let e := { half with ocvPend := [(1024, 3500000)] };
      (estUpdate shunted 0 1023 cell (spanOf 0 3500000 0) e).dirn = 0 ∧
      anchorOf cell e 1023 .rest (spanOf 0 3500000 0) = .ocv 3500000) := by decide +kernel

/-! ### Values that the manual prints -/

/-- R11: the check values over "123456789". -/
theorem test_check_values :
    let nine : List Byte := [49, 50, 51, 52, 53, 54, 55, 56, 57]; crc32 nine = 0xCBF43926 ∧ crc32c nine = 0xE3069283 ∧ crc8 nine = 0xF4 := by decide +kernel

/-- The standard's digest of "abc" (R385). -/
theorem test_sha256_abc :
    sha256 [97, 98, 99] = [0xBA, 0x78, 0x16, 0xBF, 0x8F, 0x01, 0xCF, 0xEA, 0x41, 0x41, 0x40, 0xDE, 0x5D, 0xAE, 0x22, 0x23,
      0xB0, 0x03, 0x61, 0xA3, 0x96, 0x17, 0x7A, 0x9C, 0xB4, 0x10, 0xFF, 0x61, 0xF2, 0x00, 0x15, 0xAD] := by decide +kernel

/-- Chapter 3: the example of channel 96, and with the nominal shunt. -/
theorem test_charge_and_current :
    let s (n : Word) := setCfg (Addr.fe 96 0x24) n run
    iUa (s 100230) 96 2900000 = 28933453 ∧ qUah (s 100230) 96 85524480000000 = 28933453 ∧ qUah (s 100000) 96 85524480000000 = 29000000 := by decide +kernel

/-- Chapter 4: channel 104 slews down at 0.05 A a tick to 30 A. -/
theorem test_slew : slewTo 40000000 30000000 50000 = 39950000 ∧ slewTo 30050000 30000000 50000 = 30000000 := by decide

/-- Chapter 6: DCIR of step 8 on channel 96. -/
theorem test_dcir : dcirOf cell [(3712406, 14, 3502118, -116004880, true)] = some 1813 := by decide +kernel

/-- Chapter 10: the V stream and the I stream of the worked decode: order, Rice parameter, bytes. -/
theorem test_streams :
    sqzStream [3912400, 3912407, 3912413, 3912420, 3912426, 3912433, 3912439, 3912446] = (2, 1, [0xFE, 0x31, 0x8C, 0x00]) ∧
    sqzStream [2906671, 2906668, 2906670, 2906672, 2906669, 2906670, 2906671, 2906669] = (0, 1, [0xD6, 0x54, 0xA0, 0x00]) := by decide +kernel

/-- Chapter 14: the second hand-off of a crystal that runs 20.03 ppm fast: e = 31 gives F = -42 and a trim of -50. -/
theorem test_discipline :
    let s := setCfg 0x002000 8 (tick 1000000 run)
    let u := { s with
      tb := { s.tb with st := .locked, lockTk := 0, sec := 946684800, utc := (0, true) }
      rtc := { s.rtc with cal := { sub := 31 }, valid := true, utcOk := true, trim := -53, trimNext := -53, ePrev := 42 } }
    (match exec .rtcHandoff u with | .next t => (t.rtc.f, t.rtc.trim, t.rtc.derr) | _ => (0, 0, 0)) = (-42, -50, 31) := by decide +kernel

/-- Chapter 15: the tokens of slots 3 and 12 roll. -/
theorem test_tokens : rollToken 0x5A03 = 0x9901 ∧ rollToken 0x5A0C = 0x2D06 := by decide

/-- Chapter 15: slot 3 of the example is served at its open point, one tick before it, and again. -/
theorem test_service :
    let s (n : Nat) (u : Option Nat) := modSlot 3 (fun x => { x with count := n, used := u }) (setCfg (Addr.wdtCfg 3) 0x40090064 run)
    wdtOpenPoint (s 0 none) 3 = 25000 ∧ wdtPeriod (s 0 none) 3 = 100000 := by decide +kernel

/-- Chapter 16: sources 104 and 138 are in service at target 4, and 104 is ended out of order. -/
theorem test_order_fault :
    let s := { run with intc := { run.intc with stk := List.replicate 4 [] ++ [[(138, 12), (104, 5)], [], [], []] } }
    (match exec (.intcEoi .i2c 4 104) s with | .next t => t.fab.events.map fun e => (e.cause, e.src, e.arg) | _ => [])
      = [(Cause.intcOrderFault, 159, [0x68, 0x00, 0x8A, 0x00])] := by decide +kernel

/-- Chapter 20: the worked addresses. -/
theorem test_addresses : Addr.wdtCfg 13 + 4 = 0x003AA4 ∧ Addr.est 104 8 = 0x05D008 ∧ Addr.ch 96 0x104 = 0x038104 := by decide
end Sys2Proof.Tests
end

section
/-!
The mode codes of R525 and the messages that carry them: where a byte of a concatenation stands, what an answer to a session leaves in that
session and at its port, and then a new session's HELLO as such an answer.
-/

namespace Sys2Proof.Machine

/-! ### Bytes at an offset -/

theorem byteAt_append_left {a : List Byte} (b : List Byte) {o : Nat} (h : o < a.length) : byteAt (a ++ b) o = byteAt a o := by
  rw [byteAt, leAt, List.drop_append_of_le_length h.le, List.take_append_of_le_length (by simp; omega), byteAt, leAt]

theorem byteAt_append_right (a b : List Byte) (o : Nat) : byteAt (a ++ b) (a.length + o) = byteAt b o := by
  simp [byteAt, leAt]

/-- A one-byte field reads back from its place. -/
theorem byteAt_field {x : Nat} (a b : List Byte) (h : x < 256) : byteAt (a ++ (leBytes 1 x ++ b)) a.length = x := by
  have place := byteAt_append_right a (leBytes 1 x ++ b) 0
  rw [Nat.add_zero, byteAt_append_left b (by simp [length_leBytes])] at place
  rw [place]
  simpa [byteAt, leAt, leBytes, leNat] using h

/-- The payload of a message starts at its byte 16 (R278). -/
theorem byteAt_pzMsg_payload (s : State) (ty se fl seq : Nat) {b : List Byte} {o : Nat} (h : o < b.length) :
    byteAt (pzMsg s ty se fl seq b) (16 + o) = byteAt b o := by
  have placed (head : List Byte) (n : head.length = 16) : byteAt (withCrc32c (head ++ b)) (16 + o) = byteAt b o := by
    rw [withCrc32c, byteAt_append_left _ (by simp [n, h]), ← n, byteAt_append_right]
  exact placed _ (by simp [length_leBytes])

/-! ### The code in HEARTBEAT and STOP -/

theorem Mode.code_lt_seven (m : Mode) : m.code < 7 := by cases m <;> decide

theorem Mode.code_lt_byte (m : Mode) : m.code < 256 := m.code_lt_seven.trans (by decide)

theorem byteAt_heartbeatAns_zero (s : State) : byteAt (heartbeatAns s) 0 = s.mode.code := by
  simpa [heartbeatAns] using byteAt_field [] _ s.mode.code_lt_byte

theorem byteAt_stopPayload_one (s : State) : byteAt (stopPayload s) 1 = s.mode.code := by
  simpa [stopPayload, length_leBytes] using byteAt_field (leBytes 1 s.seq.lastDown) _ s.mode.code_lt_byte

/-! ### An answer to a session -/

theorem getSess_modSess_self {i : Nat} {f : Session → Session} {s : State} {x : Session} (h : s.getSess i = some x) :
    (modSess i f s).getSess i = some (f x) := by
  have entry : s.link.sess[i]? = some (some x) := by
    simpa [State.getSess, List.getD_eq_getElem?_getD, Option.getD_eq_iff] using h
  obtain ⟨bound, stands⟩ := List.getElem?_eq_some_iff.mp entry
  simp [State.getSess, modSess, modLink, lmod, bound, stands]

@[simp] theorem getSess_modPort (p : Nat) (f : Port → Port) (s : State) (i : Nat) : (modPort p f s).getSess i = s.getSess i := by
  unfold modPort modLink State.getSess
  dsimp only
  split <;> rfl

@[simp] theorem getSess_emit (o : Out) (s : State) (i : Nat) : (emit o s).getSess i = s.getSess i := rfl

@[simp] theorem getSess_txFrame (p : Nat) (high : Bool) (n : Nat) (o : Out) (s : State) (i : Nat) :
    (txFrame p high n o s).getSess i = s.getSess i := by
  unfold txFrame
  split
  · exact getSess_modPort ..
  · rw [getSess_emit, getSess_modPort]

theorem txFrame_out_of_room {p : Nat} {high : Bool} {n : Nat} {o : Out} {s : State} (room : (s.getPort p).full n = false) :
    (txFrame p high n o s).out = s.out ++ [o] := by
  simp [txFrame, room, emit]

/-- The session keeps the response it is answered with (R281). -/
theorem getSess_pzAnswer {ep : Endpoint} {i ty seq fl : Nat} {b : List Byte} {s : State} {x : Session} (h : s.getSess i = some x) :
    (pzAnswer ep i ty seq fl b s).getSess i = some { x with kept := some (pzMsg s ty i fl seq b), busy := none } := by
  rw [pzAnswer, pzSend, sendUdp, getSess_txFrame, getSess_modSess_self h]

/-- The response leaves by the port its request came from, when that port has room (R268, R269). -/
theorem pzAnswer_out_of_room {ep : Endpoint} {i ty seq fl : Nat} {b : List Byte} {s : State}
    (room : (s.getPort ep.port).full (frameLen ((pzMsg s ty i fl seq b).length + 46) (ownTag s (pcpCtl s))) = false) :
    (pzAnswer ep i ty seq fl b s).out
      = s.out ++ [.perzo ep.port 51520 (some ep.mac) ep.ip ep.udp (ownTag s (pcpCtl s)) (pzMsg s ty i fl seq b)] :=
  txFrame_out_of_room room

/-! ### The HELLO of a new session -/

/-- A session as its HELLO asks for it, before anything is kept (R283, R284). -/
def askedSession (ep : Endpoint) (m : List Byte) (s : State) : Session :=
  { role := roleOf (byteAt (Pz.payload m) 0), port := ep.port, hbMs := leAt (Pz.payload m) 2 2, ip := ep.ip, udp := ep.udp,
    telPort := leAt (Pz.payload m) 12 2, hostId := leAt (Pz.payload m) 4 8, seq := Pz.seq m, lastTk := s.tb.run }

/-- The session stands in place i and owns its response ring; its HELLO is not answered yet. -/
def installSession (ep : Endpoint) (i : Nat) (m : List Byte) (s : State) : State :=
  modShad (sessPath i) (fun _ => {}) (ownRing (52 + i) i (learnArp (nextHop s ep.ip) ep.mac
    (modLink (fun l => { l with sess := lset l.sess i (some (askedSession ep m s)) }) s)))

/-- Payload of the response to HELLO: MAC, POS, MODE, IMG_GEN and IN_NEXT (R280). -/
def helloPayload (i : Nat) (s : State) : List Byte :=
  leBytes 6 (fuseMac s) ++ leBytes 1 (ropePos s) ++ leBytes 1 s.mode.code ++ leBytes 4 s.ldr.gen ++ leBytes 4 (s.getRing (60 + i)).next

theorem openSession_eq (ep : Endpoint) (i : Nat) (m : List Byte) (s : State) :
    openSession ep i m s = pzAnswer ep i 1 (Pz.seq m) 1 (helloPayload i s) (installSession ep i m s) := rfl

theorem getSess_installSession {ep : Endpoint} {i : Nat} {m : List Byte} {s : State} (h : i < s.link.sess.length) :
    (installSession ep i m s).getSess i = some (askedSession ep m s) := by
  simp [installSession, ownRing, learnArp, State.getSess, modLink, lset, h]

@[simp] theorem getPort_installSession (ep : Endpoint) (i : Nat) (m : List Byte) (s : State) (p : Nat) :
    (installSession ep i m s).getPort p = s.getPort p := rfl

@[simp] theorem ownTag_installSession (ep : Endpoint) (i : Nat) (m : List Byte) (s : State) (pcp : Nat) :
    ownTag (installSession ep i m s) pcp = ownTag s pcp := rfl

@[simp] theorem pcpCtl_installSession (ep : Endpoint) (i : Nat) (m : List Byte) (s : State) :
    pcpCtl (installSession ep i m s) = pcpCtl s := rfl

@[simp] theorem installSession_out (ep : Endpoint) (i : Nat) (m : List Byte) (s : State) : (installSession ep i m s).out = s.out := rfl

theorem byteAt_helloPayload_seven (i : Nat) (s : State) : byteAt (helloPayload i s) 7 = s.mode.code := by
  simpa [helloPayload, length_leBytes] using byteAt_field (leBytes 6 (fuseMac s) ++ leBytes 1 (ropePos s)) _ s.mode.code_lt_byte

theorem byteAt_hello_response (t s : State) (ty se fl seq i : Nat) :
    byteAt (pzMsg t ty se fl seq (helloPayload i s)) (16 + 7) = s.mode.code := by
  rw [byteAt_pzMsg_payload _ _ _ _ _ (by simp [helloPayload, length_leBytes]), byteAt_helloPayload_seven]

/-- Settles O13: each code is the manual's by definition, and each message holds it in the one-byte field at the stated place; a new
session keeps what its HELLO was answered with. -/
theorem modeCodesAreThoseOfTheManual : Obligations.ModeCodesAreThoseOfTheManual := by
  refine ⟨rfl, rfl, rfl, rfl, rfl, rfl, rfl, Mode.code_lt_seven,
    fun s => ⟨byteAt_heartbeatAns_zero s, byteAt_stopPayload_one s⟩, fun ep i m s hi lengths => ?_⟩
  have four : s.link.sess.length = 4 := by
    simp only [Lengths, Bool.and_eq_true, beq_iff_eq] at lengths
    tauto
  have asked : (installSession ep i m s).getSess i = some (askedSession ep m s) := getSess_installSession (four ▸ hi)
  rw [openSession_eq]
  refine ⟨_, _, getSess_pzAnswer asked, rfl, byteAt_hello_response .., fun room => ?_⟩
  rw [pzAnswer_out_of_room (by simpa using room), installSession_out, pcpCtl_installSession, ownTag_installSession]

end Sys2Proof.Machine
end

section
/-!
Grading (R211): a bin as the limits it sets, the first bin that matches, and the causes that stay raised until the result is sent.
-/

namespace Sys2Proof.Machine

/-! ### A bin of a GRADE payload -/

/-- Record b of the bins. -/
def binRecord (g : List Byte) (b : Nat) : List Byte := slice g (4 + 36 * b) 36

/-- The four quantities of bin b: mask bit, graded value, minimum and maximum (R211, R213). -/
def binLimits (g : List Byte) (b : Nat) (x : Graded) : List (Nat × Option Int × Int × Int) :=
  let r := binRecord g b
  [(0, x.cap, (leAt r 4 4 : Int), (leAt r 8 4 : Int)), (1, x.dcir, (leAt r 12 4 : Int), (leAt r 16 4 : Int)),
   (2, x.k, leAtS r 20 4, leAtS r 24 4), (3, x.ocv, leAtS r 28 4, leAtS r 32 4)]

/-- A graded value is there and lies from the minimum to the maximum. -/
def insideLimits (v : Option Int) (lo hi : Int) : Bool :=
  match v with
  | some v => decide (lo ≤ v) && decide (v ≤ hi)
  | none => false

theorem insideLimits_iff {v : Option Int} {lo hi : Int} : insideLimits v lo hi = true ↔ ∃ w, v = some w ∧ lo ≤ w ∧ w ≤ hi := by
  cases v <;> simp [insideLimits]

theorem binMatch_eq_all (g : List Byte) (b : Nat) (x : Graded) :
    binMatch g b x = (binLimits g b x).all fun q => !bitN (byteAt (binRecord g b) 0) q.1 || insideLimits q.2.1 q.2.2.1 q.2.2.2 := by
  simp only [binLimits, List.all_cons, List.all_nil, Bool.and_true, ← Bool.and_assoc]
  rfl

theorem binMatch_iff {g : List Byte} {b : Nat} {x : Graded} :
    binMatch g b x = true ↔ ∀ q ∈ binLimits g b x, bitN (byteAt (binRecord g b) 0) q.1 = true →
      ∃ v, q.2.1 = some v ∧ q.2.2.1 ≤ v ∧ v ≤ q.2.2.2 := by
  simp only [binMatch_eq_all, List.all_eq_true, Bool.or_eq_true, Bool.not_eq_true', ← insideLimits_iff]
  exact forall₂_congr fun q _ => by cases bitN (byteAt (binRecord g b) 0) q.1 <;> simp

/-! ### The first bin that matches -/

theorem binOf_eq_of_first {g : List Byte} {b : Nat} {x : Graded} (below : b < byteAt g 2) (fits : binMatch g b x = true)
    (first : ∀ c, c < b → binMatch g c x = false) : binOf g x = b := by
  have found : (upto (byteAt g 2)).find? (fun b => binMatch g b x) = some b :=
    List.find?_range_eq_some.mpr ⟨fits, List.mem_range.mpr below, fun c hc => by simp [first c hc]⟩
  simp [binOf, found]

theorem binOf_eq_none_of_no_match {g : List Byte} {x : Graded} (none_fits : ∀ c, c < byteAt g 2 → binMatch g c x = false) :
    binOf g x = 0xFF := by
  have absent : (upto (byteAt g 2)).find? (fun b => binMatch g b x) = none :=
    List.find?_range_eq_none.mpr fun c hc => by simp [none_fits c hc]
  simp [binOf, absent]

/-! ### Causes in the crossings -/

/-- An event of this cause stands in the crossings. -/
def Raised (cause : Nat) (s : State) : Prop := ∃ e ∈ s.fab.events, e.cause = cause

theorem Raised.of_fab {c : Nat} {s t : State} (h : Raised c s) (same : t.fab = s.fab) : Raised c t := by
  rwa [Raised, same]

theorem raiseSrc_events (p : Producer) (c ch src ak : Nat) (arg : List Byte) (s : State) :
    ∃ e, (raiseSrc p c ch src ak arg s).fab.events = s.fab.events ++ [e] ∧ e.cause = c := by
  refine ⟨_, rfl, ?_⟩
  dsimp only
  split <;> rfl

theorem raised_raiseSrc (p : Producer) (c ch src ak : Nat) (arg : List Byte) (s : State) : Raised c (raiseSrc p c ch src ak arg s) := by
  obtain ⟨e, events, cause⟩ := raiseSrc_events p c ch src ak arg s
  exact ⟨e, by simp [events], cause⟩

/-- Raising a cause loses no other: an event is appended. -/
theorem Raised.raiseSrc {c : Nat} {s : State} (h : Raised c s) (p : Producer) (d ch src ak : Nat) (arg : List Byte) :
    Raised c (raiseSrc p d ch src ak arg s) := by
  obtain ⟨e, stands, cause⟩ := h
  obtain ⟨e', events, -⟩ := raiseSrc_events p d ch src ak arg s
  exact ⟨e, by simp [events, stands], cause⟩

theorem raised_raise (p : Producer) (c ch : Nat) (s : State) : Raised c (raise p c ch s) := raised_raiseSrc ..

theorem Raised.raise {c : Nat} {s : State} (h : Raised c s) (p : Producer) (d ch : Nat) : Raised c (raise p d ch s) := h.raiseSrc ..

theorem Raised.raiseA {c : Nat} {s : State} (h : Raised c s) (p : Producer) (d ch arg : Nat) : Raised c (raiseA p d ch arg s) :=
  h.raiseSrc ..

theorem Raised.ringPush {c : Nat} {s : State} (h : Raised c s) (r : Nat) (b : List Byte) : Raised c (ringPush r b s) := by
  unfold Machine.ringPush
  dsimp only
  split
  · exact h
  split
  · split
    · exact h.of_fab rfl
    · exact h
  split
  · exact h.of_fab rfl
  · exact (h.of_fab (modRing_fab ..)).raiseA ..

theorem Raised.nvmRequest {c : Nat} {s : State} (h : Raised c s) (r : NvmReq) : Raised c (nvmRequest r s) :=
  h.of_fab (nvmRequest_within (Within.refl [.nvm] s) (by decide) .fab (by decide))

/-- The next result takes the next number (R212). -/
def countResult (s : State) : State := { s with rcp := { s.rcp with resSeq := (s.rcp.resSeq + 1) % 2 ^ 32 } }

/-- The result record goes out behind what was raised before it (R212). -/
theorem Raised.sendResult {c : Nat} {s : State} (h : Raised c s) (k bin cause : Nat) (hold : Bool) (x : Graded) :
    Raised c (sendResult k bin cause hold x s) := by
  have counted : Raised c (countResult (modEst k (fun e => { e with res := resultRecord s k bin cause hold x }) s)) := h.of_fab rfl
  exact ((counted.ringPush ..).nvmRequest _).raise ..

theorem grade_raises_estNoBin {s : State} {k cause : Nat} {g : List Byte} (graded : alFind (s.getCh k).rcp.recipe s.rcp.grades = some g)
    (no_bin : binOf g (gradedOf s k) = 0xFF) : Raised Cause.estNoBin (grade k cause s) := by
  simp only [grade, graded, no_bin, if_true]
  exact (raised_raise ..).sendResult ..

/-- Settles O11: a bin is the conjunction of its masked limits, the search takes the first one, and EST_NO_BIN stands when the record
has gone out. -/
theorem theFirstMatchingBinWins : Obligations.TheFirstMatchingBinWins :=
  ⟨fun _ _ _ => binMatch_iff, fun _ _ _ => binOf_eq_of_first, fun _ _ => binOf_eq_none_of_no_match,
    fun _ _ _ _ => grade_raises_estNoBin⟩

end Sys2Proof.Machine
end

section
/-!
A published update of the estimator (R190 to R194): the filter's estimate and the reported SoC of the period's direction, then the anchor.
-/

namespace Sys2Proof.Machine

theorem Dirn.code_injective : ∀ {d d' : Dirn}, d.code = d'.code → d = d' := by
  intro d d'
  cases d <;> cases d' <;> decide

/-! ### The stages of an update -/

/-- The estimator as the filter leaves it, before the anchors of its period. -/
def filteredEst (s : State) (k last : Nat) (m : List Byte) (x : EstIn) (e : Estimator) : Estimator :=
  let o := estFilter m e (rsh s k) x
  let d := dirOf m o.ibar
  { e with s := o.s, v1 := o.v1, pss := o.pss, psv := o.psv, pvv := o.pvv, tUse := x.t, tStale := x.stale, dirn := d.code,
           pubTk := last, pubAcc := x.acc, tsSeen := e.tsSeen || x.stale,
           fullAcc := if d = .charge then none else e.fullAcc, socRep := socRepNext d e.socRep (socPct o.s) }

/-- The direction of the period that an update covers. -/
def periodDir (s : State) (k : Nat) (m : List Byte) (x : EstIn) (e : Estimator) : Dirn :=
  dirOf m (estFilter m e (rsh s k) x).ibar

/-- The estimator after the anchor of its period. -/
def anchoredEst (s : State) (k last : Nat) (m : List Byte) (x : EstIn) (e : Estimator) : Estimator :=
  anchorAct m x.acc (anchorOf m e last (periodDir s k m x e) x) (filteredEst s k last m x e)

@[simp] theorem anchorAct_dirn (m : List Byte) (acc : Int) (a : AnchorKind) (e : Estimator) : (anchorAct m acc a e).dirn = e.dirn := by
  cases a <;> rfl

/-- The divergence test moves only what it measures and counts. -/
theorem divergence_keeps (m : List Byte) (x : EstIn) (r0 : F64) (anchored : Bool) (e : Estimator) :
    ∃ sv clamp cnt, divergence m x r0 anchored e = { e with socV := sv, ocvClamp := clamp, divCnt := cnt } := by
  unfold divergence
  split
  · exact ⟨_, _, _, rfl⟩
  dsimp only
  split
  · exact ⟨_, _, _, rfl⟩
  split <;> exact ⟨_, _, _, rfl⟩

/-- After the anchor an update settles the anchors and declarations it covered, counts the charge, tests for divergence, and sets the
registers. -/
theorem estUpdate_after_anchor (s : State) (k last : Nat) (m : List Byte) (x : EstIn) (e : Estimator) :
    ∃ r0 anchored pend decls c, estUpdate s k last m x e =
      estRegs m (divergence m x r0 anchored { anchoredEst s k last m x e with ocvPend := pend, decls := decls, socC := c }) :=
  ⟨_, _, _, _, _, rfl⟩

/-- An update reports what its anchor leaves, and SOC_FILT of that estimate. -/
theorem estUpdate_reports (s : State) (k last : Nat) (m : List Byte) (x : EstIn) (e : Estimator) :
    let t := estUpdate s k last m x e
    let b := anchoredEst s k last m x e
    t.dirn = (periodDir s k m x e).code ∧ t.socRep = b.socRep ∧ t.socFilt = socPct b.s ∧ t.anchor = b.anchor ∧ t.ocvPt = b.ocvPt := by
  intro t b
  obtain ⟨r0, anchored, pend, decls, c, update⟩ := estUpdate_after_anchor s k last m x e
  obtain ⟨sv, clamp, cnt, kept⟩ := divergence_keeps m x r0 anchored { b with ocvPend := pend, decls := decls, socC := c }
  have result : t = estRegs m { b with ocvPend := pend, decls := decls, socC := c, socV := sv, ocvClamp := clamp, divCnt := cnt } :=
    update.trans (congrArg (estRegs m) kept)
  rw [result]
  exact ⟨anchorAct_dirn .., rfl, rfl, rfl, rfl⟩

/-! ### The rule of each direction (R193) -/

theorem socRepNext_rest_near (rep r : Int) : (socRepNext .rest rep r - rep).natAbs ≤ 1 := by
  simp only [socRepNext]; split_ifs <;> omega

theorem socRepNext_rest_towards (rep r : Int) : (socRepNext .rest rep r - r).natAbs ≤ (rep - r).natAbs := by
  simp only [socRepNext]; split_ifs <;> omega

theorem socRepNext_rest_moves {rep r : Int} (h : rep ≠ r) : socRepNext .rest rep r ≠ rep := by
  simp only [socRepNext]; split_ifs <;> omega

/-- Settles O50: the update's report is its anchor's, and without an anchor the direction's rule applied to SOC_FILT. -/
theorem reportedSocFollowsThePeriod : Obligations.ReportedSocFollowsThePeriod := by
  rintro s k last m x e _ d rfl same_dir
  obtain ⟨dirn, rep, filt, anchor, ocvPt⟩ := estUpdate_reports s k last m x e
  obtain rfl : periodDir s k m x e = d := Dirn.code_injective (dirn.symm.trans same_dir)
  refine ⟨fun no_anchor => ?_, fun cutoff => ?_, fun full => ?_, fun v ocv => ?_⟩
  · simp only [anchoredEst, no_anchor] at rep filt
    have rule : (estUpdate s k last m x e).socRep = socRepNext (periodDir s k m x e) e.socRep (estUpdate s k last m x e).socFilt := by
      rw [rep, filt]; rfl
    rw [rule]
    refine ⟨fun h => ?_, fun h => ?_, fun h => ?_⟩ <;> rw [h]
    · exact ⟨rfl, min_le_left ..⟩
    · exact ⟨rfl, le_max_left ..⟩
    · exact ⟨socRepNext_rest_near .., socRepNext_rest_towards .., socRepNext_rest_moves⟩
  · rw [rep, anchor, anchoredEst, cutoff]; exact ⟨rfl, rfl⟩
  · rw [rep, anchor, anchoredEst, full]; exact ⟨rfl, rfl⟩
  · rw [anchor, ocvPt, anchoredEst, ocv]; exact ⟨rfl, rfl⟩

end Sys2Proof.Machine
end

section
/-!
The error of bounded-loss coding (R309, R310): one step of the quantiser stays within H of its sample and keeps the error state within H,
so an induction over the block bounds each sample and each running sum. Then the steps of a record: even (R312), and in their places (R306).
-/

namespace Sys2Proof.Machine

/-! ### Rounding and clamping -/

theorem floorD_mul_le (n : Int) {h : Int} (pos : 0 < h) : floorD n h * h ≤ n := by
  rw [floorD, Int.fdiv_eq_ediv_of_nonneg _ pos.le]
  exact Int.ediv_mul_le n pos.ne'

theorem le_ceilD_mul (n : Int) {h : Int} (pos : 0 < h) : n ≤ ceilD n h * h := by
  have below := floorD_mul_le (-n) pos
  rw [ceilD, Int.neg_mul]
  rw [floorD] at below
  omega

/-- An interval that is at least H wide holds a multiple of H. -/
theorem ceilD_le_floorD {lo hi h : Int} (pos : 0 < h) (wide : lo + h ≤ hi) : ceilD lo h ≤ floorD hi h := by
  rw [ceilD, floorD, Int.fdiv_eq_ediv_of_nonneg _ pos.le, Int.fdiv_eq_ediv_of_nonneg _ pos.le, Int.le_ediv_iff_mul_le pos]
  have above := Int.lt_ediv_add_one_mul_self (-lo) pos
  linarith

theorem clampI_mem {lo hi : Int} (x : Int) (ordered : lo ≤ hi) : lo ≤ clampI x lo hi ∧ clampI x lo hi ≤ hi := by
  unfold clampI
  split_ifs <;> omega

/-! ### One step of the quantiser (R309) -/

/-- The reconstructed value lies in the step's interval, which is wide enough while the error state is within H. -/
theorem quantStep_mem_interval {h : Nat} (pos : 0 < h) {es : Int} (bound : es.natAbs ≤ h) (x : Int) :
    max x (x + es) - h ≤ (quantStep h x es).1 * h ∧ (quantStep h x es).1 * h ≤ min x (x + es) + h := by
  have pos : (0 : Int) < h := by omega
  have wide : max x (x + es) - h + h ≤ min x (x + es) + h := by omega
  obtain ⟨above, below⟩ := clampI_mem (floorD (2 * (x + es) + h) (2 * h)) (ceilD_le_floorD pos wide)
  exact ⟨(le_ceilD_mul _ pos).trans (Int.mul_le_mul_of_nonneg_right above pos.le),
    (Int.mul_le_mul_of_nonneg_right below pos.le).trans (floorD_mul_le _ pos)⟩

theorem quantStep_error {h : Nat} (pos : 0 < h) {es : Int} (bound : es.natAbs ≤ h) (x : Int) :
    ((quantStep h x es).1 * h - x).natAbs ≤ h := by
  have interval := quantStep_mem_interval pos bound x
  omega

theorem quantStep_state (h x es : Int) : (quantStep h x es).2 = es + x - (quantStep h x es).1 * h := rfl

theorem quantStep_state_bounded {h : Nat} (pos : 0 < h) {es : Int} (bound : es.natAbs ≤ h) (x : Int) :
    (quantStep h x es).2.natAbs ≤ h := by
  have interval := quantStep_mem_interval pos bound x
  rw [quantStep_state]
  omega

/-! ### A block (R310) -/

theorem length_quantise (h es : Int) (x : List Int) : (quantise h es x).length = x.length := by
  induction x generalizing es with
  | nil => rfl
  | cons a l ih => simp [quantise, ih]

theorem sumI_cons (a : Int) (l : List Int) : sumI (a :: l) = a + sumI l := by
  simp only [sumI, ← List.sum_eq_foldl, List.sum_cons]

/-- Each sample is met within H. -/
theorem quantise_sample_error {h : Nat} (pos : 0 < h) {es : Int} (bound : es.natAbs ≤ h) (x : List Int) {j : Nat} (hj : j < x.length) :
    (((quantise h es x).map (· * (h : Int))).getD j 0 - x.getD j 0).natAbs ≤ h := by
  induction x generalizing es j with
  | nil => exact absurd hj (Nat.not_lt_zero j)
  | cons a l ih =>
    cases j with
    | zero => exact quantStep_error pos bound a
    | succ j => exact ih (quantStep_state_bounded pos bound a) (Nat.lt_of_succ_lt_succ hj)

/-- The running sum is met within H, counted from the error state before the block. -/
theorem quantise_sum_error {h : Nat} (pos : 0 < h) {es : Int} (bound : es.natAbs ≤ h) (x : List Int) (n : Nat) :
    (sumI (((quantise h es x).map (· * (h : Int))).take n) - (es + sumI (x.take n))).natAbs ≤ h := by
  induction x generalizing es n with
  | nil => simpa [quantise, sumI] using bound
  | cons a l ih =>
    cases n with
    | zero => simpa [sumI] using bound
    | succ n =>
      have rest := ih (quantStep_state_bounded pos bound a) n
      have state := quantStep_state h a es
      simp only [quantise, List.map_cons, List.take_succ_cons, sumI_cons]
      omega

theorem recon_coded {q : Nat} (nonzero : q ≠ 0) (x : List Int) :
    recon q (coded q x) = (quantise (q / 2 : Nat) 0 x).map (· * ((q / 2 : Nat) : Int)) := by
  simp only [recon, coded, if_neg nonzero]

theorem recon_coded_lossless (x : List Int) : recon 0 (coded 0 x) = x := rfl

theorem length_recon_coded {q : Nat} (nonzero : q ≠ 0) (x : List Int) : (recon q (coded q x)).length = x.length := by
  rw [recon_coded nonzero, List.length_map, length_quantise]

/-- R310 for a step that is even and not 0, of which H is the half. -/
theorem recon_coded_error {q : Nat} (nonzero : q ≠ 0) (even : q % 2 = 0) (x : List Int) {j : Nat} (hj : j < x.length) :
    ((recon q (coded q x)).getD j 0 - x.getD j 0).natAbs ≤ q / 2 ∧
      (sumI ((recon q (coded q x)).take (j + 1)) - sumI (x.take (j + 1))).natAbs ≤ q / 2 := by
  have pos : 0 < q / 2 := by omega
  have start : (0 : Int).natAbs ≤ q / 2 := Nat.zero_le _
  have total := quantise_sum_error pos start x (j + 1)
  rw [Int.zero_add] at total
  rw [recon_coded nonzero]
  exact ⟨quantise_sample_error pos start x hj, total⟩

/-! ### The steps of a record (R306, R312) -/

/-- Doubling keeps the steps even, and so does the start at 4 from lossless. -/
theorem nFit_even (b : Blk) (f : Nat) {qv qi : Nat} (d : Bool) (hv : qv % 2 = 0) (hi : qi % 2 = 0) :
    (nFit b f qv qi d).1 % 2 = 0 ∧ (nFit b f qv qi d).2.1 % 2 = 0 := by
  induction f generalizing qv qi d with
  | zero => exact ⟨hv, hi⟩
  | succ f ih =>
    rw [nFit]
    split_ifs
    · exact ⟨hv, hi⟩
    · exact ih true rfl rfl
    · exact ih true (Nat.mul_mod_right 2 qv) (Nat.mul_mod_right 2 qi)

theorem length_nHead (b : Blk) (mode : Nat) (degraded vfail : Bool) (pred : Nat) (res : Int) :
    (nHead b mode degraded vfail pred res).length = 40 := by
  simp [nHead, leBytesI, length_leBytes]

/-- A field of n bytes reads back from its place. -/
theorem leAt_field {o n x : Nat} {a : List Byte} (b : List Byte) (place : a.length = o) (fits : x < 256 ^ n) :
    leAt (a ++ (leBytes n x ++ b)) o n = x := by
  rw [leAt, List.drop_left' place, List.take_left' (length_leBytes n x), leNat_leBytes, Nat.mod_eq_of_lt fits]

/-- A coded record is its 40 bytes of head, its two steps, and the rest. -/
theorem nCoded_eq_head_steps (b : Blk) (qv qi : Nat) (d : Bool) (junk : List Byte → List Byte) :
    ∃ head rest : List Byte, head.length = 40 ∧ nCoded b qv qi d junk = head ++ (leBytes 4 qv ++ (leBytes 4 qi ++ rest)) := by
  simp only [nCoded, withCrc32c, List.append_assoc]
  exact ⟨_, _, length_nHead .., rfl⟩

theorem nCoded_carries_steps (b : Blk) {qv qi : Nat} (d : Bool) (junk : List Byte → List Byte) (hv : qv < 2 ^ 32) (hi : qi < 2 ^ 32) :
    leAt (nCoded b qv qi d junk) 40 4 = qv ∧ leAt (nCoded b qv qi d junk) 44 4 = qi := by
  obtain ⟨head, rest, length, record⟩ := nCoded_eq_head_steps b qv qi d junk
  rw [record]
  refine ⟨leAt_field _ length hv, ?_⟩
  rw [← List.append_assoc]
  exact leAt_field _ (by simp [length, length_leBytes]) hi

/-- Settles O9: the quantiser's error state never leaves H, which bounds both errors by induction over the block; the steps only double, and
follow the record's head. -/
theorem codingErrorIsBounded : Obligations.CodingErrorIsBounded :=
  ⟨fun _ x nonzero even => ⟨length_recon_coded nonzero x, fun _ hj => recon_coded_error nonzero even x hj⟩,
    recon_coded_lossless,
    fun b f _ _ d hv hi _ => nFit_even b f d hv hi,
    fun b _ _ d hv hi => nCoded_carries_steps b d id hv hi⟩

end Sys2Proof.Machine
end

section
/-!
The release of a device safe state (R344): what each stage of an accepted DEV_RELEASE leaves as it was, then the mode it returns to.
-/

namespace Sys2Proof.Machine

/-! ### Channels keep their state and step -/

/-- Every channel is in the state and at the step it was. -/
def SameSteps (s t : State) : Prop := ∀ k, (t.getCh k).st = (s.getCh k).st ∧ (t.getCh k).rcp = (s.getCh k).rcp

theorem SameSteps.of_ch {s t : State} (h : t.ch = s.ch) : SameSteps s t := fun k => by simp [getCh_of_ch h k]

theorem SameSteps.trans {s t u : State} (h : SameSteps s t) (h' : SameSteps t u) : SameSteps s u :=
  fun k => ⟨(h' k).1.trans (h k).1, (h' k).2.trans (h k).2⟩

theorem SameSteps.modCh {f : Channel → Channel} (keeps : ∀ c, (f c).st = c.st ∧ (f c).rcp = c.rcp) (i : Nat) (s : State) :
    SameSteps s (modCh i f s) := fun k => by
  rw [getCh_modCh]
  split
  · exact keeps _
  · exact ⟨rfl, rfl⟩

theorem SameSteps.forEach {f : Nat → State → State} (keeps : ∀ i s, SameSteps s (f i s)) (l : List Nat) (s : State) :
    SameSteps s (forEach l f s) := by
  unfold Machine.forEach
  induction l generalizing s with
  | nil => exact .of_ch rfl
  | cons i l ih => exact (keeps i s).trans (ih (f i s))

theorem midPhases_sameSteps (rest : PhSt) (l : List Nat) (s : State) : SameSteps s (forEach l (midPhase rest) s) :=
  .forEach (fun n s => .of_ch (midPhase_within (Within.refl [.ph] s) (by decide) .ch (by decide))) l s

theorem midChannel_sameSteps (k : Nat) (s : State) : SameSteps s (midChannel k s) := by
  unfold midChannel
  refine (midPhases_sameSteps _ _ _).trans (.modCh ?_ _ _)
  exact fun _ => ⟨rfl, rfl⟩

theorem modGal_sameSteps (g : Nat) (f : Gallery → Gallery) (s : State) : SameSteps s (modGal g f s) := .of_ch (modGal_ch ..)

theorem updateSen_sameSteps (g : Nat) (s : State) : SameSteps s (updateSen g s) := by
  unfold updateSen
  split
  · split
    · exact .of_ch rfl
    · exact modGal_sameSteps _ _ _
  split
  · exact ((modGal_sameSteps _ _ _).trans (midPhases_sameSteps _ _ _)).trans (.forEach midChannel_sameSteps _ _)
  · exact .of_ch rfl

theorem updateSens_sameSteps (s : State) : SameSteps s (updateSens s) := .forEach updateSen_sameSteps _ _

theorem zeroGrants_sameSteps (s : State) : SameSteps s (zeroGrants s) := by
  unfold zeroGrants
  refine .forEach (fun _ _ => .modCh ?_ _ _) _ _
  exact fun _ => ⟨rfl, rfl⟩

theorem goMode_sameSteps (m : Mode) (s : State) : SameSteps s (goMode m s) := by
  have enter : SameSteps s { s with mode := m } := .of_ch rfl
  unfold goMode
  dsimp only
  split
  · exact enter.trans (zeroGrants_sameSteps _)
  · exact enter

/-! ### The parts that each stage leaves -/

@[simp] theorem updateSens_mode (s : State) : (updateSens s).mode = s.mode :=
  updateSens_within (Within.refl [.ph, .gal, .ch] s) (by decide) .mode (by decide)

@[simp] theorem updateSens_saf (s : State) : (updateSens s).saf = s.saf :=
  updateSens_within (Within.refl [.ph, .gal, .ch] s) (by decide) .saf (by decide)

@[simp] theorem updateSens_fab (s : State) : (updateSens s).fab = s.fab :=
  updateSens_within (Within.refl [.ph, .gal, .ch] s) (by decide) .fab (by decide)

@[simp] theorem goMode_mode (m : Mode) (s : State) : (goMode m s).mode = m := by
  unfold goMode
  dsimp only
  split
  · exact loopCh_mode ..
  · rfl

@[simp] theorem goMode_saf (m : Mode) (s : State) : (goMode m s).saf = s.saf :=
  goMode_within (Within.refl [.mode, .ch] s) (by decide) .saf (by decide)

@[simp] theorem abortAll_saf (s : State) : (abortAll s).saf = s.saf :=
  abortAll_within (Within.refl [.fe] s) (by decide) .saf (by decide)

@[simp] theorem abortAll_ch (s : State) : (abortAll s).ch = s.ch :=
  abortAll_within (Within.refl [.fe] s) (by decide) .ch (by decide)

@[simp] theorem updateSafeN_mode (s : State) : (updateSafeN s).mode = s.mode := rfl

@[simp] theorem updateSafeN_saf (s : State) : (updateSafeN s).saf = { s.saf with safeN := safeNOn s } := rfl

@[simp] theorem updateSafeN_ch (s : State) : (updateSafeN s).ch = s.ch := rfl

/-- What is raised last stands last in the crossings. -/
theorem raiseSrc_last_cause (p : Producer) (c ch src ak : Nat) (arg : List Byte) (s : State) :
    ((raiseSrc p c ch src ak arg s).fab.events.getLast?).map (·.cause) = some c := by
  obtain ⟨e, events, cause⟩ := raiseSrc_events p c ch src ak arg s
  simp [events, cause]

/-! ### The accepted release -/

/-- The mode is entered with the device safe state ended; its outputs do not follow yet. -/
def leaveSafe (s : State) : State := goMode (releaseMode s) (abortAll { s with saf := { s.saf with dev := none } })

theorem leaveSafe_mode (s : State) : (leaveSafe s).mode = releaseMode s := goMode_mode ..

theorem leaveSafe_saf (s : State) : (leaveSafe s).saf = { s.saf with dev := none } := by simp [leaveSafe]

theorem leaveSafe_sameSteps (s : State) : SameSteps s (leaveSafe s) :=
  (SameSteps.of_ch (abortAll_ch { s with saf := { s.saf with dev := none } })).trans (goMode_sameSteps _ _)

/-- SAFE_N follows at the same moment, and the release is raised (R344). -/
def announceRelease (s : State) : State := raiseSrc .island Cause.safReleased 0xFF 136 0 [] (updateSafeN (leaveSafe s))

theorem devRelease_of_no_unmet {s : State} (h : devUnmet s = none) : devRelease s = updateSens (announceRelease s) := by
  simp only [devRelease, h, leaveSafe, announceRelease]

theorem announceRelease_mode (s : State) : (announceRelease s).mode = releaseMode s := by simp [announceRelease, leaveSafe_mode]

theorem announceRelease_saf (s : State) :
    (announceRelease s).saf = { s.saf with dev := none, safeN := safeNOn (leaveSafe s) } := by simp [announceRelease, leaveSafe_saf]

theorem announceRelease_last_cause (s : State) :
    ((announceRelease s).fab.events.getLast?).map (·.cause) = some Cause.safReleased := raiseSrc_last_cause ..

theorem announceRelease_sameSteps (s : State) : SameSteps s (announceRelease s) :=
  (leaveSafe_sameSteps s).trans (.of_ch (by simp [announceRelease]))

theorem exec_devRelease (p : Path) (key : Byte) (s : State) : exec (.devRelease p key) s = .next (safCmd p key devRelease s) := rfl

theorem exec_devRelease_of_path {s : State} {p : Path} (up : s.mode.up = true) (idle : loaderBusy s = false)
    (path : mayRelease s p = true) : exec (.devRelease p 0xA5) s = .next (devRelease s) := by
  simp [exec_devRelease, safCmd, regGate, up, idle, path]

theorem safeNOn_leaveSafe {s : State} (alive : s.saf.keepAlive = true) (checked : s.saf.checked = true) (no_proof : s.saf.proof = none)
    (up : (releaseMode s).up = true) : safeNOn (leaveSafe s) = false := by
  simp [safeNOn, leaveSafe_saf, leaveSafe_mode, alive, checked, no_proof, up]

/-! ### The mode it returns to -/

theorem hasController_iff {s : State} : hasController s = true ↔ ∃ x, some x ∈ s.link.sess ∧ x.role = .controller := by
  simp only [hasController, List.any_eq_true]
  constructor
  · rintro ⟨_ | x, mem, role⟩
    · cases role
    · exact ⟨x, mem, by simpa using role⟩
  · rintro ⟨x, mem, role⟩
    exact ⟨some x, mem, by simp [role]⟩

theorem mem_sess_of_getSess {s : State} {i : Nat} {x : Session} (h : s.getSess i = some x) : some x ∈ s.link.sess := by
  have entry : s.link.sess[i]? = some (some x) := by
    simpa [State.getSess, List.getD_eq_getElem?_getD, Option.getD_eq_iff] using h
  exact List.mem_of_getElem? entry

theorem releaseMode_of_controller {s : State} (h : hasController s = true) : releaseMode s = s.saf.from_ := by
  simp [releaseMode, h]

theorem releaseMode_of_not_service {s : State} (h : s.saf.from_ ≠ .service) : releaseMode s = s.saf.from_ := by
  simp [releaseMode, h]

theorem releaseMode_of_lost_controller {s : State} (from_service : s.saf.from_ = .service) (h : hasController s = false) :
    releaseMode s = .run := by
  simp [releaseMode, from_service, h]

/-- Settles O12: the mode entered is `releaseMode`, the stages after it touch neither mode nor island but for SAFE_N, and none touches a
channel's state or step. -/
theorem deviceReleaseReturnsToTheFormerMode : Obligations.DeviceReleaseReturnsToTheFormerMode := by
  intro s p up idle path unmet
  refine ⟨_, exec_devRelease_of_path up idle path, ?_⟩
  rw [devRelease_of_no_unmet unmet, updateSens_mode, updateSens_saf, updateSens_fab, announceRelease_mode, announceRelease_saf]
  refine ⟨rfl, releaseMode_of_not_service, fun service => ?_, fun service lost => ?_, fun alive checked no_proof up => ?_,
    announceRelease_last_cause s, (announceRelease_sameSteps s).trans (updateSens_sameSteps _)⟩
  · rintro ⟨i, x, session, role⟩
    rw [releaseMode_of_controller (hasController_iff.mpr ⟨x, mem_sess_of_getSess session, role⟩), service]
  · refine releaseMode_of_lost_controller service ?_
    rw [Bool.eq_false_iff, ne_eq, hasController_iff]
    rintro ⟨x, mem, role⟩
    exact lost _ mem x rfl role
  · exact safeNOn_leaveSafe alive checked no_proof up

end Sys2Proof.Machine
end

section
/-!
The judging of a watchdog service (R427): what a write of WDT_SERVE leaves waiting (R423, R440), what becomes of one slot under a modification
and a strike, and then one equation per row of the table *Service outcomes*.
-/

namespace Sys2Proof.Machine

/-! ### The write -/

theorem regGate_of_no_path {s : State} (off : s.mode.up = false) (addr : Nat) (f : State → State) : regGate addr f s = s := by
  simp [regGate, off]

theorem regGate_of_busy {s : State} (up : s.mode.up = true) (busy : loaderBusy s = true) (addr : Nat) (f : State → State) :
    regGate addr f s = raiseReg Cause.ldrBusy addr s := by
  simp [regGate, up, busy]

theorem regGate_of_path {s : State} (up : s.mode.up = true) (idle : loaderBusy s = false) (addr : Nat) (f : State → State) :
    regGate addr f s = f s := by
  simp [regGate, up, idle]

theorem exec_wdtServe (p : Path) (i : Fin 24) (v : Word) (s : State) :
    exec (.wdtServe p i v) s = .next (regGate (Addr.wdtCfg i + 4) (serve i v) s) := rfl

theorem serve_of_internal {i : Nat} (internal : 16 ≤ i) (v : Word) (s : State) : serve i v s = s := if_pos internal

theorem serve_of_host {i : Nat} (host : i < 16) (v : Word) (s : State) :
    serve i v s = { s with wdt := { s.wdt with pend := s.wdt.pend ++ [(i, field v 0 16)] } } := if_neg (by omega)

theorem exec_wdtServe_ignored {s : State} {i : Fin 24} (h : s.mode.up = false ∨ loaderBusy s = false ∧ 16 ≤ i.val) (p : Path) (v : Word) :
    exec (.wdtServe p i v) s = .next s := by
  rw [exec_wdtServe]
  cases up : s.mode.up with
  | false => rw [regGate_of_no_path up]
  | true =>
    obtain ⟨idle, internal⟩ := h.resolve_left (by simp [up])
    rw [regGate_of_path up idle, serve_of_internal internal]

/-- The counts do not depend on the services that wait. -/
theorem wdtTick_of_one_service (s : State) (i tok : Nat) :
    wdtTick { s with wdt := { s.wdt with pend := [(i, tok)] } } = judgeServe i tok (wdtTick { s with wdt := { s.wdt with pend := [] } }) := rfl

/-! ### One slot -/

theorem lmod_eq_modify {α : Type} (l : List α) (i : Nat) (f : α → α) : lmod l i f = l.modify i f := by
  rw [List.modify_eq_set_getElem?, lmod]
  cases l[i]? <;> rfl

theorem length_slots_of_Lengths {s : State} (h : Lengths s = true) : s.wdt.slots.length = 24 := by
  simp only [Lengths, Bool.and_eq_true, beq_iff_eq] at h
  tauto

theorem slot_modSlot_self {i : Nat} {s : State} (stands : i < s.wdt.slots.length) (f : WdtSlot → WdtSlot) :
    (modSlot i f s).slot i = f (s.slot i) := by
  simp [modSlot, modWdt, State.slot, lmod_eq_modify, stands]

@[simp] theorem length_slots_modSlot (i : Nat) (f : WdtSlot → WdtSlot) (s : State) :
    (modSlot i f s).wdt.slots.length = s.wdt.slots.length := by
  simp [modSlot, modWdt, lmod_eq_modify]

/-- The actions of a slot touch no slot. -/
@[simp] theorem slot_wdtAct (i : Nat) (s : State) (j : Nat) : (wdtAct i s).slot j = s.slot j := by
  unfold wdtAct
  split <;> split <;> rfl

@[simp] theorem slot_raiseA (p : Producer) (c ch a : Nat) (s : State) (j : Nat) : (raiseA p c ch a s).slot j = s.slot j := rfl

theorem slot_wdtStrike_self {i : Nat} {s : State} (stands : i < s.wdt.slots.length) (cause : Nat) :
    (wdtStrike i cause s).slot i = { s.slot i with count := 0 } := by
  simp only [wdtStrike, slot_wdtAct, slot_raiseA]
  exact slot_modSlot_self stands _

/-! ### The outcomes -/

/-- An early or used token after it is counted: a fault in a strict slot, ignored in a normal one. -/
def faultIfStrict (i cause : Nat) (s : State) : State := if i < 12 then s else wdtStrike i cause s

theorem faultIfStrict_of_normal {i : Nat} (normal : i < 12) (cause : Nat) (s : State) : faultIfStrict i cause s = s := if_pos normal

theorem faultIfStrict_of_strict {i : Nat} (strict : 12 ≤ i) (cause : Nat) (s : State) : faultIfStrict i cause s = wdtStrike i cause s :=
  if_neg (by omega)

/-- Strict or not, only the slot's count may change. -/
theorem slot_faultIfStrict_self {i : Nat} {s : State} (stands : i < s.wdt.slots.length) (cause : Nat) :
    ∃ n, (faultIfStrict i cause s).slot i = { s.slot i with count := n } := by
  rcases Nat.lt_or_ge i 12 with normal | strict
  · exact ⟨(s.slot i).count, by rw [faultIfStrict_of_normal normal]⟩
  · exact ⟨0, by rw [faultIfStrict_of_strict strict, slot_wdtStrike_self stands]⟩

theorem judgeServe_of_unjudged {s : State} {i : Nat} (h : wdtEn s i = false ∨ (s.slot i).count = wdtPeriod s i) (tok : Nat) :
    judgeServe i tok s = s := by
  rcases h with disabled | expires
  · simp [judgeServe, disabled]
  · simp [judgeServe, expires]

section
variable {s : State} {i tok : Nat} (enabled : wdtEn s i = true) (running : (s.slot i).count ≠ wdtPeriod s i)
include enabled running

theorem judgeServe_of_valid (expected : tok = (s.slot i).token) (fresh : (s.slot i).used ≠ some tok)
    (inside : wdtOpenPoint s i ≤ (s.slot i).count) :
    judgeServe i tok s = modSlot i (fun x => { x with count := 0, token := rollToken x.token, used := some tok }) s := by
  subst expected
  simp [judgeServe, enabled, running, fresh, inside]

theorem judgeServe_of_early (expected : tok = (s.slot i).token) (fresh : (s.slot i).used ≠ some tok)
    (early : (s.slot i).count < wdtOpenPoint s i) :
    judgeServe i tok s = faultIfStrict i Cause.wdtEarly (modSlot i (fun x => { x with nEarly := incSat 8 x.nEarly }) s) := by
  subst expected
  simp [judgeServe, faultIfStrict, enabled, running, fresh, early.not_ge]

theorem judgeServe_of_used (used : (s.slot i).used = some tok) :
    judgeServe i tok s = faultIfStrict i Cause.wdtDup (modSlot i (fun x => { x with nDup := incSat 8 x.nDup }) s) := by
  simp [judgeServe, faultIfStrict, enabled, running, used]

theorem judgeServe_of_bad (other : tok ≠ (s.slot i).token) (fresh : (s.slot i).used ≠ some tok) :
    judgeServe i tok s = wdtStrike i Cause.wdtBadToken (modSlot i (fun x => { x with nBad := incSat 8 x.nBad }) s) := by
  simp [judgeServe, enabled, running, other, fresh]

end

/-- Settles O48: the gate decides the write; the waiting service is judged after the counts, one case per row of *Service outcomes*. -/
theorem watchdogServicesAreJudged : Obligations.WatchdogServicesAreJudged := by
  refine ⟨fun s p i v h => exec_wdtServe_ignored h p v,
    fun s p i v up busy => by rw [exec_wdtServe, regGate_of_busy up busy],
    fun s p i v up idle host => by rw [exec_wdtServe, regGate_of_path up idle, serve_of_host host],
    wdtTick_of_one_service, fun s i tok h => judgeServe_of_unjudged h tok, ?_⟩
  rintro s i tok _ host lengths enabled running rfl
  have stands : i < s.wdt.slots.length := by rw [length_slots_of_Lengths lengths]; omega
  have modified (f : WdtSlot → WdtSlot) : (modSlot i f s).slot i = f (s.slot i) := slot_modSlot_self stands f
  have judged (f : WdtSlot → WdtSlot) (cause : Nat) :
      ∃ n, (faultIfStrict i cause (modSlot i f s)).slot i = { f (s.slot i) with count := n } := by
    rw [← modified f]
    exact slot_faultIfStrict_self (by simpa using stands) cause
  refine ⟨fun expected fresh inside => ?valid, fun expected fresh early => ?early, fun used => ?used, fun other fresh => ?bad⟩
  case valid =>
    rw [judgeServe_of_valid enabled running expected fresh inside, modified, modSlot_fab]
    exact ⟨rfl, rfl, rfl, rfl⟩
  case early =>
    rw [judgeServe_of_early enabled running expected fresh early]
    obtain ⟨n, slot⟩ := judged (fun x => { x with nEarly := incSat 8 x.nEarly }) Cause.wdtEarly
    refine ⟨by rw [slot], by rw [slot], fun normal => ?_, fun strict => faultIfStrict_of_strict strict ..⟩
    rw [faultIfStrict_of_normal normal, modified, modSlot_fab]
    exact ⟨rfl, rfl⟩
  case used =>
    rw [judgeServe_of_used enabled running used]
    obtain ⟨n, slot⟩ := judged (fun x => { x with nDup := incSat 8 x.nDup }) Cause.wdtDup
    refine ⟨by rw [slot], by rw [slot], fun normal => ?_, fun strict => faultIfStrict_of_strict strict ..⟩
    rw [faultIfStrict_of_normal normal, modified, modSlot_fab]
    exact ⟨rfl, rfl⟩
  case bad =>
    rw [judgeServe_of_bad enabled running other fresh, slot_wdtStrike_self (by simpa using stands), modified]
    exact ⟨rfl, rfl⟩

end Sys2Proof.Machine
end

section
/-!
Told temperatures (R436): what an entry of a told message leaves when it is refused, and what an accepted temperature leaves in its channel.
-/

namespace Sys2Proof.Machine

/-! ### The told temperature in force -/

/-- Noting that a told temperature has become stale leaves its value and take time. -/
theorem noteStale_told (k : Nat) (s : State) (j : Nat) : ((noteStale k s).getTold j).t = (s.getTold j).t := by
  unfold noteStale
  split
  · change ((modTold k (fun y => { y with stale := true }) s).getTold j).t = _
    rw [getTold_modTold]
    split <;> rfl
  · rfl

theorem putTold_told {k : Nat} (channel : k < 128) (t take : Int) (r : Option (Int × Int)) (rise : Bool) (s : State) :
    ((putTold k t take r rise s).getTold k).t = some (t, take) := by
  rw [putTold, noteStale_told, apply_ite (fun u : State => (u.getTold k).t)]
  simp [getTold_modTold, channel]

theorem getTold_raise (p : Producer) (c ch : Nat) (s : State) (k : Nat) : (raise p c ch s).getTold k = s.getTold k := rfl

theorem getTold_set_nRise (n : Nat) (s : State) (k : Nat) :
    ({ s with thm := { s.thm with nRise := n } } : State).getTold k = s.getTold k := rfl

/-- Whatever becomes of the reference and of RISE, the accepted value is in force. -/
theorem takeTold_told {k : Nat} (channel : k < 128) (t take : Int) (s : State) :
    ((takeTold k t take s).getTold k).t = some (t, take) := by
  simp only [takeTold]
  split
  · exact putTold_told channel ..
  · split
    · split
      · rw [getTold_raise, getTold_set_nRise]
        exact putTold_told channel ..
      · exact putTold_told channel ..
    · exact putTold_told channel ..

/-! ### An entry -/

theorem slotRefused_eq_none_iff {s : State} {k : Nat} : slotRefused s k = none ↔ k < 128 ∧ populated s k = true := by
  simp [slotRefused]

theorem toldEntry_refused {k : Nat} (channel : k < 128) (i c : Nat) (take : State → State) (r : ToldRes) :
    (toldEntry i k (some c) take r).ref = r.ref + 1 ∧ (toldEntry i k (some c) take r).ok = r.ok ∧
      (r.cause = 0 → (toldEntry i k (some c) take r).cause = c) ∧ (toldEntry i k (some c) take r).st.thm = r.st.thm := by
  simp +contextual [toldEntry, channel]

/-- The age of a told entry. -/
def entryAge (e : List Byte) (s : State) : Int := ageU s (bitN (byteAt e 1) 0) (leAt e 4 4) (leAt e 8 4)

/-- Taking a told temperature of an entry. -/
def takeEntry (e : List Byte) (r : ToldRes) : State → State :=
  takeTold (byteAt e 0) (leAtS e 2 2) (takeTk r.st (entryAge e r.st))

theorem tempEntry_of_outside {e : List Byte} {r : ToldRes} (present : slotRefused r.st (byteAt e 0) = none)
    (outside : leAtS e 2 2 < -4000 ∨ 15000 < leAtS e 2 2) (i : Nat) :
    tempEntry i e r = toldEntry i (byteAt e 0) (some Cause.thmTRange) (takeEntry e r) r := by
  simp only [tempEntry, present, if_pos outside]
  rfl

theorem tempEntry_of_inside {e : List Byte} {r : ToldRes} (present : slotRefused r.st (byteAt e 0) = none)
    (low : -4000 ≤ leAtS e 2 2) (high : leAtS e 2 2 ≤ 15000) (i : Nat) :
    tempEntry i e r = toldEntry i (byteAt e 0)
      (ageRefused r.st (entryAge e r.st) ((r.st.getTold (byteAt e 0)).t.map (·.2))) (takeEntry e r) r := by
  have inside : ¬ (leAtS e 2 2 < -4000 ∨ 15000 < leAtS e 2 2) := by omega
  simp only [tempEntry, present, if_neg inside]
  rfl

/-- Settles O49: the range decides before the age does; a refusal only raises its cause, and an accepted entry is taken. -/
theorem toldTemperaturesAreRangeCheckedFirst : Obligations.ToldTemperaturesAreRangeCheckedFirst := by
  intro i e r present
  obtain ⟨channel, -⟩ := slotRefused_eq_none_iff.mp present
  refine ⟨fun outside => ?_, fun low high => ⟨fun accepted => ?_, fun c refused => ?_⟩⟩
  · rw [tempEntry_of_outside present outside]
    exact toldEntry_refused channel ..
  · rw [tempEntry_of_inside present low high, entryAge, accepted]
    exact ⟨rfl, rfl, takeTold_told channel ..⟩
  · rw [tempEntry_of_inside present low high, entryAge, refused]
    obtain ⟨ref, -, cause, thm⟩ := toldEntry_refused channel i c (takeEntry e r) r
    exact ⟨ref, cause, thm⟩

end Sys2Proof.Machine
end

section
/-!
The end of an interrupt (R451): what a write of INTC_EOI does for each top of the target's stack, and the bound that rising priorities
put on a stack.
-/

namespace Sys2Proof.Machine

/-! ### In-service stacks -/

/-- The stack of target t replaced. -/
def setStack (t : Nat) (l : List (Nat × Nat)) (s : State) : State := { s with intc := { s.intc with stk := lset s.intc.stk t l } }

theorem stackOf_setStack_self {t : Nat} {s : State} (stands : t < s.intc.stk.length) (l : List (Nat × Nat)) :
    stackOf (setStack t l s) t = l := by
  simp [stackOf, setStack, lset, stands]

theorem stackOf_setStack_of_ne {t j : Nat} (other : j ≠ t) (l : List (Nat × Nat)) (s : State) :
    stackOf (setStack t l s) j = stackOf s j := by
  simp [stackOf, setStack, lset, List.getElem?_set_ne other.symm]

theorem length_stk_of_Lengths {s : State} (h : Lengths s = true) : s.intc.stk.length = 8 := by
  simp only [Lengths, Bool.and_eq_true, beq_iff_eq] at h
  tauto

theorem stackOf_mem {t : Nat} {s : State} (stands : t < s.intc.stk.length) : stackOf s t ∈ s.intc.stk := by
  rw [stackOf, List.getD_eq_getElem _ _ stands]
  exact List.getElem_mem stands

/-- Falling priorities are distinct, and there are only n below n. -/
theorem length_le_of_priorities_fall {l : List (Nat × Nat)} {n : Nat} (fall : l.Pairwise fun a b => b.2 < a.2)
    (below : ∀ a ∈ l, a.2 < n) : l.length ≤ n := by
  have distinct : (l.map Prod.snd).Nodup := List.pairwise_map.mpr (fall.imp ne_of_gt)
  have inside : l.map Prod.snd ⊆ List.range n := fun p mem => by
    obtain ⟨a, ha, rfl⟩ := List.mem_map.mp mem
    exact List.mem_range.mpr (below a ha)
  simpa using (distinct.subperm inside).length_le

theorem StacksRise.length_stackOf_le {s : State} (rise : StacksRise s) (t : Fin 8) : (stackOf s t).length ≤ 16 := by
  obtain ⟨eight, falls⟩ := rise
  obtain ⟨fall, below⟩ := falls _ (stackOf_mem (t.isLt.trans_eq eight.symm))
  exact length_le_of_priorities_fall fall below

/-! ### The order fault -/

/-- The answer to an id that is not the top: counted, and raised with both ids. -/
def orderFault (id top : Nat) (s : State) : State :=
  raiseA .fabric Cause.intcOrderFault 0xFF (id + top * 2 ^ 16) { s with intc := { s.intc with nOrder := incSat 16 s.intc.nOrder } }

theorem orderFault_intc (id top : Nat) (s : State) : (orderFault id top s).intc = { s.intc with nOrder := incSat 16 s.intc.nOrder } := rfl

/-- The fabric's own events keep their arguments (R495). -/
theorem orderFault_events (id top : Nat) (s : State) :
    ∃ e, (orderFault id top s).fab.events = s.fab.events ++ [e] ∧ e.cause = Cause.intcOrderFault ∧ e.arg = leBytes 4 (id + top * 2 ^ 16) :=
  ⟨_, rfl, rfl, rfl⟩

/-! ### The write -/

theorem exec_intcEoi_of_path {s : State} (up : s.mode.up = true) (idle : loaderBusy s = false) (p : Path) (t : Fin 8) (v : Word) :
    exec (.intcEoi p t v) s = .next (eoi t v s) :=
  congrArg Host.Outcome.next (regGate_of_path up idle ..)

section
variable {s : State} {t : Nat} {v : Word} {rest : List (Nat × Nat)}

theorem eoi_of_top {q : Nat} (top : stackOf s t = (field v 0 10, q) :: rest) : eoi t v s = setStack t rest s := by
  simp [eoi, top, setStack]

theorem eoi_of_other {i q : Nat} (top : stackOf s t = (i, q) :: rest) (other : i ≠ field v 0 10) :
    eoi t v s = orderFault (field v 0 10) i s := by
  simp [eoi, top, other, orderFault]

theorem eoi_of_empty (empty : stackOf s t = []) : eoi t v s = orderFault (field v 0 10) (topId []) s := by
  simp [eoi, empty, orderFault, topId]

end

/-- Settles O47: the gate is open, so one case per top of the stack; the bound is that of rising priorities. -/
theorem endOfInterruptPopsTheTop : Obligations.EndOfInterruptPopsTheTop := by
  intro s p t v up idle
  refine ⟨fun q rest top lengths => ?top, fun i q rest top other => ?other, fun empty => ?empty, fun rise => rise.length_stackOf_le t⟩ <;>
    refine ⟨_, exec_intcEoi_of_path up idle p t v, ?_⟩
  case top =>
    have stands : t.val < s.intc.stk.length := t.isLt.trans_eq (length_stk_of_Lengths lengths).symm
    rw [eoi_of_top top]
    exact ⟨stackOf_setStack_self stands rest, fun j other => stackOf_setStack_of_ne other rest s, rfl, rfl⟩
  case other =>
    rw [eoi_of_other top other, orderFault_intc]
    exact ⟨rfl, rfl, orderFault_events ..⟩
  case empty =>
    rw [eoi_of_empty empty, orderFault_intc]
    obtain ⟨e, events, cause, -⟩ := orderFault_events (field v 0 10) (topId []) s
    exact ⟨rfl, rfl, e, events, cause⟩

end Sys2Proof.Machine
end

section
/-!
One step: the command at the front of the queue always answers a next state; and what State.reset holds.
-/

namespace Sys2Proof.Machine

/-! ### Every command answers -/

/-- An outcome that is a next state. -/
def Answers (o : Host.Outcome State Fault Refusal) : Prop := ∃ t, o = .next t

theorem Answers.next (s : State) : Answers (.next s) := ⟨s, rfl⟩

theorem Answers.ite {c : Prop} [Decidable c] {a b : Host.Outcome State Fault Refusal} (h : Answers a) (k : Answers b) :
    Answers (if c then a else b) := by split <;> assumption

/-- Settles O2: each meaning is a tree of conditions and matches whose leaves are next states. -/
theorem everyCommandAnswersANextState : Obligations.EveryCommandAnswersANextState := by
  intro c s
  change Answers (exec c s)
  cases c <;> repeat' first | apply Answers.next | apply Answers.ite
  all_goals repeat' first
    | apply Answers.next | apply Answers.ite | split
    | simp only [exec, execCommitDone, execEepromPageWriteDone, execShedComplete, execConfirmBiasStart, execConfirmTestOutcome,
        execBaseSample, execEchoPassEnd, execKlogPoint, execDroopRecovered, execPauseClassClear, execTimeStepApply,
        execDeviceDrainDone, execModeDrainTimeout, execPpsEnd, execInputRingConsume, execRingRetransmit, execPzSessionLost,
        execUnlockLapse, execNonceLapse, execCmpTestStart, execCmpTestDone, execSafetySetApplied, execNvmWordWriteDone, execAccFuseDone]

/-- Settles O1: both forms are `step`'s own; the counts touch only their own parts. -/
theorem stepTakesTheFrontCommand : Obligations.StepTakesTheFrontCommand := by
  refine ⟨fun c rest s => rfl, fun s empty => ⟨oscTick (wdtTick s), by simp [step, empty], rfl, ?_⟩⟩
  have counts : Within [.wdt, .seq, .intc, .fab, .rtc, .shadow] s (oscTick (wdtTick s)) :=
    oscTick_within (wdtTick_within (Within.refl _ _) (by decide)) (by decide)
  exact (counts .pending (by decide)).trans empty

/-! ### The state after reset -/

theorem tget_replicate {α : Type} {n i : Nat} (d a : α) (h : i < n) : tget d (Vector.replicate n a) i = a := by
  simp [tget, h]

theorem getD_replicate_default {α : Type} (n i : Nat) (a : α) : (List.replicate n a).getD i a = a := by
  rw [List.getD_eq_getElem?_getD, List.getElem?_replicate]
  split <;> rfl

theorem reset_slot {i : Nat} (h : i < 24) : State.reset.slot i = { token := 0x5A00 + i } := by
  change ((List.range 24).map fun s => ({ token := 0x5A00 + s } : WdtSlot)).getD i _ = _
  simp [h]

/-- No session is open at reset, whatever the index. -/
theorem reset_getSess (i : Nat) : State.reset.getSess i = none := getD_replicate_default 4 i none

theorem reset_shad (p : Path) : State.reset.shad p = {} := by
  change (List.replicate 9 ({} : Shadow)).getD (Path.slot p) {} = {}
  exact getD_replicate_default ..

theorem reset_capturesWf : CapturesWf State.reset := fun h mem => by
  rw [List.eq_of_mem_replicate (show h ∈ List.replicate 9 {} from mem)]
  rfl

theorem reset_stacksRise : StacksRise State.reset :=
  ⟨rfl, fun l mem => by rw [List.eq_of_mem_replicate (show l ∈ List.replicate 8 [] from mem)]; simp⟩

theorem reset_oneController : OneController State.reset :=
  ⟨rfl, fun i j x y here _ _ _ => by rw [reset_getSess] at here; cases here⟩

/-- Settles O3: each part of the state after reset has its default value, entry by entry. -/
theorem resetHoldsTheStatedValues : Obligations.ResetHoldsTheStatedValues :=
  ⟨rfl, rfl, rfl, rfl, fun _ => rfl,
    fun r h => by rw [show State.reset.getRing r = {} from tget_replicate _ _ h]; exact ⟨rfl, rfl, rfl, rfl⟩,
    fun i h => by rw [reset_slot h]; exact ⟨rfl, rfl⟩,
    fun k h => by rw [show State.reset.getCh k = {} from tget_replicate _ _ h],
    fun i _ => reset_getSess i, by decide, rfl, fun p => by rw [reset_shad], rfl, rfl, reset_capturesWf, rfl, reset_stacksRise,
    reset_oneController⟩

end Sys2Proof.Machine
end

section
/-!
The predictive codec (R308): a code reads back as the value it was made of, and a stream as the elements it was made of.
-/

namespace Sys2Proof.Machine

/-! ### Mapped residuals -/

theorem sqzUnmap_sqzMap (e : Int) : sqzUnmap (sqzMap e) = e := by
  rcases le_or_gt 0 e with pos | neg
  · have map : sqzMap e = 2 * e.toNat := by simp only [sqzMap, if_pos pos]; omega
    rw [map, sqzUnmap, if_pos (by omega)]
    omega
  · have map : sqzMap e = 2 * (-e).toNat - 1 := by simp only [sqzMap, if_neg neg.not_ge]; omega
    rw [map, sqzUnmap, if_neg (by omega)]
    omega

/-! ### Numbers as bits -/

/-- The number that bits spell, most significant first. -/
def numMsb (l : List Bool) : Nat := l.foldl (fun a b => 2 * a + b2n b) 0

theorem length_bitsMsb (w x : Nat) : (bitsMsb w x).length = w := by simp [bitsMsb, upto]

theorem bitsMsb_succ (w x : Nat) : bitsMsb (w + 1) x = bitsMsb w (x / 2) ++ [x.testBit 0] := by
  rw [bitsMsb, upto, List.range_succ, List.map_append, List.map_singleton, bitsMsb, upto]
  congr 1
  · refine List.map_congr_left fun i mem => ?_
    have below : i < w := List.mem_range.mp mem
    rw [show w + 1 - 1 - i = (w - 1 - i) + 1 by omega, Nat.testBit_succ]
  · simp

theorem numMsb_bitsMsb (w x : Nat) : numMsb (bitsMsb w x) = x % 2 ^ w := by
  induction w generalizing x with
  | zero => simp [bitsMsb, upto, numMsb, Nat.mod_one]
  | succ w ih =>
    have bit : b2n (x.testBit 0) = x % 2 := by
      rw [Nat.testBit_zero, b2n]
      rcases Nat.mod_two_eq_zero_or_one x with h | h <;> simp [h]
    rw [bitsMsb_succ, numMsb, List.foldl_append, ← numMsb, ih, List.foldl_cons, List.foldl_nil, bit, Nat.pow_succ', Nat.mod_mul]
    omega

/-! ### One code -/

/-- The unary run a decoder counts, at most 24 bits. -/
def unaryPrefix (l : List Bool) : Nat := ((l.take 24).takeWhile id).length

theorem readCode_eq (k : Nat) (l : List Bool) :
    readCode k l = if unaryPrefix l = 24 then (if 56 ≤ l.length then some (numMsb ((l.drop 24).take 32), l.drop 56) else none)
      else if unaryPrefix l + 1 + k ≤ l.length then
        some (unaryPrefix l * 2 ^ k + numMsb ((l.drop (unaryPrefix l + 1)).take k), l.drop (unaryPrefix l + 1 + k))
      else none := rfl

theorem unaryPrefix_short {q : Nat} (short : q < 24) (l : List Bool) : unaryPrefix (List.replicate q true ++ false :: l) = q := by
  rw [unaryPrefix, List.take_append, List.length_replicate, List.take_replicate, Nat.min_eq_right short.le,
    show 24 - q = (23 - q) + 1 by omega, List.take_succ_cons, List.takeWhile_append_of_pos (by simp)]
  simp

theorem unaryPrefix_escape (l : List Bool) : unaryPrefix (List.replicate 24 true ++ l) = 24 := by
  rw [unaryPrefix, List.take_left' (by simp)]
  simp

/-- A code reads back, whatever bits follow it. -/
theorem readCode_sqzCode {u : Nat} (k : Nat) (fits : u < 2 ^ 32) (rest : List Bool) : readCode k (sqzCode k u ++ rest) = some (u, rest) := by
  rcases Nat.lt_or_ge (u >>> k) 24 with short | long
  · have code : sqzCode k u ++ rest = List.replicate (u >>> k) true ++ false :: (bitsMsb k u ++ rest) := by
      simp [sqzCode, short]
    have after : (List.replicate (u >>> k) true ++ false :: (bitsMsb k u ++ rest)).drop (u >>> k + 1) = bitsMsb k u ++ rest := by
      rw [List.append_cons, List.drop_left' (by simp)]
    rw [code, readCode_eq, unaryPrefix_short short, if_neg short.ne, if_pos (by simp [length_bitsMsb]; omega), after,
      ← List.drop_drop, after, List.take_left' (length_bitsMsb k u), List.drop_left' (length_bitsMsb k u), numMsb_bitsMsb,
      Nat.shiftRight_eq_div_pow, Nat.div_add_mod']
  · have code : sqzCode k u ++ rest = List.replicate 24 true ++ (bitsMsb 32 u ++ rest) := by
      simp [sqzCode, long.not_gt]
    have after : (List.replicate 24 true ++ (bitsMsb 32 u ++ rest)).drop 24 = bitsMsb 32 u ++ rest := List.drop_left' (by simp)
    rw [code, readCode_eq, unaryPrefix_escape, if_pos rfl, if_pos (by simp [length_bitsMsb]), after,
      show (56 : Nat) = 24 + 32 from rfl, ← List.drop_drop, after, List.take_left' (length_bitsMsb 32 u),
      List.drop_left' (length_bitsMsb 32 u), numMsb_bitsMsb, Nat.mod_eq_of_lt fits]

/-! ### A stream -/

/-- The decoder follows the coder element by element: both predict from the same past. -/
theorem readStream_residuals {order k : Nat} {z0 : Int} {l past : List Int} (pad : List Bool)
    (fits : ∀ u ∈ sqzResiduals order z0 past l, u < 2 ^ 32) :
    readStream order k z0 past l.length ((sqzResiduals order z0 past l).flatMap (sqzCode k) ++ pad) = some l := by
  induction l generalizing past with
  | nil => rfl
  | cons z l ih =>
    obtain ⟨here, later⟩ := List.forall_mem_cons.mp fits
    have element : sqzPredict order z0 past + sqzUnmap (sqzMap (z - sqzPredict order z0 past)) = z := by
      rw [sqzUnmap_sqzMap]; omega
    rw [sqzResiduals, List.flatMap_cons, List.append_assoc, List.length_cons, readStream, readCode_sqzCode k here]
    simp only [element]
    rw [ih later, Option.map_some]

/-- Settles O10: a parameter up to 23 is never the raw one, so the stream is that of the residuals. -/
theorem codedStreamsDecode : Obligations.CodedStreamsDecode := by
  intro order k z0 l pad small fits
  have predictive : sqzBits order k (z0 :: l) = (sqzResiduals order z0 [z0] l).flatMap (sqzCode k) := if_neg (by omega)
  rw [predictive]
  exact readStream_residuals pad fits

end Sys2Proof.Machine
end

section
/-!
The forms that every step keeps, as one relation between states, and what each primitive update does to it. A form speaks of few fields; an
update that leaves those as they are keeps every form.
-/

namespace Sys2Proof.Machine

/-! ### The forms -/

/-- The forms of `Obligations` that every step keeps. -/
inductive Form where
  | regs | memory | captures | lengths | claims | controller

def Form.Holds : Form → State → Prop
  | .regs, s => regsWf 0 s.regs = true
  | .memory, s => Memory.wf s = true
  | .captures, s => CapturesWf s
  | .lengths, s => Lengths s = true
  | .claims, s => StacksRise s
  | .controller, s => OneController s

/-- Every form that s has, t has. -/
def Keeps (s t : State) : Prop := ∀ f : Form, f.Holds s → f.Holds t

/-- What the forms speak of. -/
structure Stored where
  regs : List (Nat × Word)
  mem : List Host.Cell
  wide : List (List (Nat × Word))
  roles : List (Option Role)
  stk : List (List (Nat × Nat))
  slots : Nat
  fuse : Nat
  bram : Nat
  bcrc : Nat

/-- The roles of the sessions (R283). -/
def roles (l : Link) : List (Option Role) := l.sess.map (Option.map Session.role)

def stored (s : State) : Stored :=
  { regs := s.regs, mem := s.nvm.mem, wide := s.shadow.map Shadow.wide, roles := roles s.link, stk := s.intc.stk,
    slots := s.wdt.slots.length, fuse := s.acc.fuse.length, bram := s.rtc.bram.length, bcrc := s.rtc.bcrc.length }

theorem capturesWf_iff {s : State} : CapturesWf s ↔ ∀ l ∈ (stored s).wide, alWf 0 0 l = true := by
  simp [CapturesWf, stored]

theorem lengths_iff {s : State} : Lengths s = true ↔
    (stored s).roles.length = 4 ∧ (stored s).stk.length = 8 ∧ (stored s).slots = 24 ∧ (stored s).fuse = 64 ∧ (stored s).bram = 64 ∧
      (stored s).bcrc = 8 ∧ (stored s).wide.length = 9 := by
  simp [Lengths, stored, roles, and_assoc]

/-- Session i is the controller. -/
def IsController (r : List (Option Role)) (i : Nat) : Prop := r.getD i none = some .controller

theorem isController_iff {s : State} {i : Nat} :
    IsController (stored s).roles i ↔ ∃ x, s.getSess i = some x ∧ x.role = .controller := by
  have entry : (stored s).roles.getD i none = (s.getSess i).map Session.role := by
    simp only [stored, roles, State.getSess, List.getD_eq_getElem?_getD, List.getElem?_map]
    cases s.link.sess[i]? <;> rfl
  rw [IsController, entry, Option.map_eq_some_iff]

theorem oneController_iff {s : State} : OneController s ↔
    (stored s).roles.length = 4 ∧ ∀ i j, IsController (stored s).roles i → IsController (stored s).roles j → i = j := by
  have four : (stored s).roles.length = s.link.sess.length := List.length_map _
  rw [OneController, four]
  refine and_congr_right fun _ => ⟨fun one i j hi hj => ?_, fun one i j x y hx hy cx cy => ?_⟩
  · obtain ⟨x, hx, cx⟩ := isController_iff.mp hi
    obtain ⟨y, hy, cy⟩ := isController_iff.mp hj
    exact one i j x y hx hy cx cy
  · exact one i j (isController_iff.mpr ⟨x, hx, cx⟩) (isController_iff.mpr ⟨y, hy, cy⟩)

/-- Freeing a session makes no other the controller. -/
theorem isController_of_set_none {r : List (Option Role)} {i j : Nat} (h : IsController (r.set i none) j) : IsController r j := by
  simp only [IsController, List.getD_eq_getElem?_getD, List.getElem?_set] at h ⊢
  split at h
  · split at h <;> cases h
  · exact h

/-- A form is a statement about what is stored. -/
theorem Form.Holds.of_stored {f : Form} {s t : State} (h : f.Holds s) (same : stored t = stored s) : f.Holds t := by
  cases f with
  | regs =>
    have regs : t.regs = s.regs := congrArg Stored.regs same
    simpa only [Form.Holds, regs] using h
  | memory =>
    have mem : t.nvm.mem = s.nvm.mem := congrArg Stored.mem same
    simpa only [Form.Holds, Memory.wf, mem] using h
  | captures => exact capturesWf_iff.mpr (same ▸ capturesWf_iff.mp h)
  | lengths => exact lengths_iff.mpr (same ▸ lengths_iff.mp h)
  | claims =>
    have stk : t.intc.stk = s.intc.stk := congrArg Stored.stk same
    simpa only [Form.Holds, StacksRise, stk] using h
  | controller => exact oneController_iff.mpr (same ▸ oneController_iff.mp h)

/-! ### How they compose -/

theorem Keeps.refl (s : State) : Keeps s s := fun _ h => h

theorem Keeps.trans {s t u : State} (h : Keeps s t) (k : Keeps t u) : Keeps s u := fun f holds => k f (h f holds)

theorem Keeps.update {u s t : State} (h : Keeps u s) (same : stored t = stored s) : Keeps u t := fun f holds => (h f holds).of_stored same

theorem Keeps.ite {u a b : State} {c : Prop} [Decidable c] (h : Keeps u a) (k : Keeps u b) : Keeps u (if c then a else b) := by
  split <;> assumption

theorem Keeps.ite2 {α : Type} {u : State} {c : Prop} [Decidable c] {a b : α × State} (h : Keeps u a.2) (k : Keeps u b.2) :
    Keeps u (if c then a else b).2 := by split <;> assumption

theorem Keeps.foldl {α : Type} {u s : State} {f : State → α → State} {xs : List α} (step : ∀ t x, Keeps t (f t x)) (h : Keeps u s) :
    Keeps u (xs.foldl f s) := by
  induction xs generalizing s with
  | nil => exact h
  | cons x xs ih => exact ih (h.trans (step s x))

theorem Keeps.forEach {u s : State} {f : Nat → State → State} {xs : List Nat} (step : ∀ i t, Keeps t (f i t)) (h : Keeps u s) :
    Keeps u (forEach xs f s) := Keeps.foldl (fun t i => step i t) h

/-- A part that no form speaks of. -/
def Part.apart : Part → Bool
  | .regs | .nvm | .shadow | .link | .intc | .wdt | .acc | .rtc => false
  | _ => true

theorem stored_of_within {l : List Part} {s t : State} (w : Within l s t) (free : l.all Part.apart = true) : stored t = stored s := by
  have same (p : Part) (spoken : p.apart = false) : p.same s t :=
    w p fun mem => by simp [List.all_eq_true.mp free p mem] at spoken
  have regs : t.regs = s.regs := same .regs rfl
  have nvm : t.nvm = s.nvm := same .nvm rfl
  have shadow : t.shadow = s.shadow := same .shadow rfl
  have link : t.link = s.link := same .link rfl
  have intc : t.intc = s.intc := same .intc rfl
  have wdt : t.wdt = s.wdt := same .wdt rfl
  have acc : t.acc = s.acc := same .acc rfl
  have rtc : t.rtc = s.rtc := same .rtc rfl
  rw [stored, stored, regs, nvm, shadow, link, intc, wdt, acc, rtc]

/-- A frame names the parts of its operation. -/
theorem all_contains_self (l : List Part) : l.all l.contains = true := by simp

/-- A frame apart from the forms' parts. -/
theorem Keeps.frame {l : List Part} {u s t : State} (h : Keeps u s) (w : Within l s t) (free : l.all Part.apart = true) : Keeps u t :=
  h.update (stored_of_within w free)

/-! ### Updates that leave what is stored -/

section
variable {u s : State} (h : Keeps u s)
include h

/-- Any update of a record, seen by what is stored; the configuration words tell which state it updates. -/
theorem Keeps.literal {mode seq tb ph gal fe ch est rcp sump link ring sqz saf ldr twi rtc wdt thm intc nvm acc fab shadow out free pending}
    (same : stored ⟨mode, seq, s.regs, tb, ph, gal, fe, ch, est, rcp, sump, link, ring, sqz, saf, ldr, twi, rtc, wdt, thm, intc, nvm, acc, fab,
      shadow, out, free, pending⟩ = stored s) :
    Keeps u ⟨mode, seq, s.regs, tb, ph, gal, fe, ch, est, rcp, sump, link, ring, sqz, saf, ldr, twi, rtc, wdt, thm, intc, nvm, acc, fab,
      shadow, out, free, pending⟩ := h.update same

theorem Keeps.set_nvm {v : Nvm} (same : v.mem = s.nvm.mem) : Keeps u { s with nvm := v } :=
  h.update (by simp only [stored, same])

theorem Keeps.set_intc {v : Intc} (same : v.stk = s.intc.stk) : Keeps u { s with intc := v } :=
  h.update (by simp only [stored, same])

theorem modLink_keeps {f : Link → Link} (same : ∀ l, roles (f l) = roles l) : Keeps u (modLink f s) :=
  h.update (by simp only [stored, modLink, same])

theorem modAcc_keeps {f : Acc → Acc} (same : ∀ a, (f a).fuse.length = a.fuse.length) : Keeps u (modAcc f s) :=
  h.update (by simp only [stored, modAcc, same])

theorem modWdt_keeps {f : Wdt → Wdt} (same : ∀ w, (f w).slots.length = w.slots.length) : Keeps u (modWdt f s) :=
  h.update (by simp only [stored, modWdt, same])

theorem modRtc_keeps {f : Rtc → Rtc} (bram : ∀ r, (f r).bram.length = r.bram.length)
    (bcrc : ∀ r, (f r).bcrc.length = r.bcrc.length) : Keeps u (modRtc f s) :=
  h.update (by simp only [stored, modRtc, bram, bcrc])

theorem modSlot_keeps (i : Nat) (f : WdtSlot → WdtSlot) : Keeps u (modSlot i f s) :=
  modWdt_keeps h fun _ => by simp [lmod_eq_modify]

theorem modSess_keeps {i : Nat} {f : Session → Session} (same : ∀ x, (f x).role = x.role) : Keeps u (modSess i f s) := by
  refine modLink_keeps h fun l => ?_
  have entry : ∀ x : Option Session, (x.map f).map Session.role = x.map Session.role := by rintro (_ | x) <;> simp [same]
  refine List.ext_getElem? fun j => ?_
  simp only [roles, lmod_eq_modify, List.getElem?_map, List.getElem?_modify]
  split <;> simp [Function.comp_def, entry]

end

/-! ### Updates that keep a form -/

/-- A configuration word is stored in its place (R3). -/
theorem setCfg_keeps {u s : State} (h : Keeps u s) (a : Nat) (v : Word) : Keeps u (setCfg a v s) := by
  refine h.trans fun f holds => ?_
  cases f with
  | regs => exact setCfg_regsWf holds
  | memory | captures | lengths | claims | controller => exact holds

/-- The bytes of the store change, and stay canonical. -/
theorem memory_keeps {u s : State} (h : Keeps u s) {v : Nvm} (wf : alWf (0 : Byte) 0 s.nvm.mem = true → alWf (0 : Byte) 0 v.mem = true) :
    Keeps u { s with nvm := v } := by
  refine h.trans fun f holds => ?_
  cases f with
  | memory => exact wf holds
  | regs | captures | lengths | claims | controller => exact holds

/-- Entries of the per-path state change, and what they have captured stays canonical. -/
theorem shadow_keeps {u s : State} (h : Keeps u s) {v : List Shadow} (len : v.length = s.shadow.length)
    (wf : CapturesWf s → ∀ x ∈ v, alWf 0 0 x.wide = true) : Keeps u { s with shadow := v } := by
  refine h.trans fun f holds => ?_
  cases f with
  | captures => exact wf holds
  | lengths => simpa only [Form.Holds, Lengths, len] using holds
  | regs | memory | claims | controller => exact holds

theorem modShad_keeps {u s : State} (h : Keeps u s) {p : Path} {f : Shadow → Shadow}
    (wf : ∀ x, alWf 0 0 x.wide = true → alWf 0 0 (f x).wide = true) : Keeps u (modShad p f s) := by
  refine shadow_keeps h (by simp [lmod_eq_modify]) fun all x mem => ?_
  rw [lmod_eq_modify] at mem
  obtain ⟨j, bound, rfl⟩ := List.getElem_of_mem mem
  rw [List.getElem_modify]
  split
  · exact wf _ (all _ (List.getElem_mem _))
  · exact all _ (List.getElem_mem _)

/-- Words captured one by one stay canonical (R8). -/
theorem capture_keeps {u s : State} (h : Keeps u s) (p : Path) (l : List (Nat × Word)) : Keeps u (capture p l s) :=
  modShad_keeps h fun x wf => by
    change alWf 0 0 (l.foldl (fun w x => alSet 0 x.1 x.2 w) x.wide) = true
    generalize x.wide = w at wf
    induction l generalizing w with
    | nil => exact wf
    | cons x l ih => exact ih _ (alWf_alSet (Nat.zero_le _) wf)

/-- One in-service stack changes to one that rises. -/
theorem stack_keeps {u s : State} (h : Keeps u s) {t : Nat} {l : List (Nat × Nat)} {v : Intc} (stk : v.stk = lset s.intc.stk t l)
    (rise : (∀ l ∈ s.intc.stk, l.Pairwise (fun a b => b.2 < a.2) ∧ ∀ a ∈ l, a.2 < 16) →
      t < s.intc.stk.length → l.Pairwise (fun a b => b.2 < a.2) ∧ ∀ a ∈ l, a.2 < 16) : Keeps u { s with intc := v } := by
  have len : v.stk.length = s.intc.stk.length := by simp [stk, lset]
  refine h.trans fun f holds => ?_
  cases f with
  | lengths => simpa only [Form.Holds, Lengths, len] using holds
  | claims =>
    obtain ⟨eight, all⟩ := holds
    refine ⟨len.trans eight, fun m mem => ?_⟩
    rw [stk, lset] at mem
    rcases List.mem_or_eq_of_mem_set mem with old | rfl
    · exact all m old
    · by_cases inside : t < s.intc.stk.length
      · exact rise all inside
      · rw [List.set_eq_of_length_le (by omega)] at mem
        exact all m mem
  | regs | memory | captures | controller => exact holds

end Sys2Proof.Machine
end

section
/-!
The register map (R3, R521): what a look-up finds is a row of one of the blocks, inside its counts.
-/

namespace Sys2Proof.Machine

/-- Every block of the map. -/
def regBlocks : List RegBlock :=
  [Map.dev, Map.seq, Map.tb, Map.rtc, Map.thm, Map.wdt, Map.intc, Map.saf, Map.sump, Map.link, Map.ring, Map.sqz, Map.twi, Map.nvm, Map.acc,
   Map.ldr, Map.ph, Map.ch, Map.fe, Map.est, Map.rcp, Map.win]

theorem regBlock_mem {a : Nat} {b : RegBlock} (h : regBlock a = some b) : b ∈ regBlocks := by
  have leaf {c : Prop} [Decidable c] {o o' : Option RegBlock} (yes : o = some b → b ∈ regBlocks) (no : o' = some b → b ∈ regBlocks)
      (k : (if c then o else o') = some b) : b ∈ regBlocks := by
    split at k
    · exact yes k
    · exact no k
  unfold regBlock at h
  revert h
  repeat' refine leaf ?_ ?_
  all_goals intro h; cases h
  all_goals simp [regBlocks]

theorem findRow_spec {o : Nat} {l : List RegRow} {r : RegRow} {j : Nat} (h : findRow o l = some (r, j)) :
    r ∈ l ∧ j < r.count ∧ r.off ≤ o ∧ (o - r.off) % r.stride = 0 ∧ j = (o - r.off) / r.stride := by
  induction l with
  | nil => cases h
  | cons x l ih =>
    unfold findRow at h
    split at h
    next fits =>
      obtain ⟨rfl, rfl⟩ := Prod.mk.inj (Option.some_inj.mp h)
      exact ⟨List.mem_cons_self, fits.2.2, fits.1, fits.2.1, rfl⟩
    next =>
      obtain ⟨mem, rest⟩ := ih h
      exact ⟨List.mem_cons_of_mem _ mem, rest⟩

/-- What a look-up found: the block, the row and the place of the register in them. -/
theorem findReg_spec {a : Nat} {h : RegHit} (found : findReg a = some h) :
    ∃ b ∈ regBlocks, regBlock a = some b ∧ h.row ∈ b.rows ∧ h.inst = (a - b.base) / b.stride ∧ h.inst < b.count ∧
      h.idx = ((a - b.base) % b.stride - h.row.off) / h.row.stride ∧ h.idx < h.row.count := by
  unfold findReg at found
  split at found
  · cases found
  next b block =>
    dsimp only at found
    split at found
    next inside =>
      split at found
      next r j row =>
        obtain rfl := Option.some_inj.mp found
        obtain ⟨mem, below, -, -, place⟩ := findRow_spec row
        exact ⟨b, regBlock_mem block, block, mem, rfl, inside, place, below⟩
      · cases found
    · cases found

theorem rtcBram_count : ∀ b ∈ regBlocks, ∀ r ∈ b.rows, r.id = .rtcBram → r.count = 16 := by decide

/-- A word of backup RAM is one of sixteen (R417). -/
theorem rtcBram_idx_lt {a : Nat} {h : RegHit} (found : findReg a = some h) (bram : h.row.id = .rtcBram) : h.idx < 16 := by
  obtain ⟨b, block, -, row, -, -, -, below⟩ := findReg_spec found
  exact rtcBram_count b block _ row bram ▸ below

end Sys2Proof.Machine
end

section
/-!
The forms through the model's operations: one lemma per operation that touches what a form speaks of. An operation touches nothing else of
it; what it does to the part is shown where it is done, and its callers keep the forms because it does.
-/

namespace Sys2Proof.Machine

theorem regGate_keeps {u s : State} {a : Nat} {f : State → State} (h : Keeps u s) (hf : Keeps u (f s)) : Keeps u (regGate a f s) := by
  unfold regGate
  repeat' first
    | exact h | exact hf | exact h.frame (raiseReg_within (Within.refl _ _) (all_contains_self _)) (by decide) | split

theorem nvmTear_keeps {u s : State} (h : Keeps u s) : Keeps u (nvmTear s) := by
  unfold nvmTear
  repeat' first
    | (with_reducible exact h) | split | ((with_reducible apply Keeps.literal); case same => simp only [stored, roles])

theorem freeFuse_keeps {u s : State} {w : Nat} (h : Keeps u s) : Keeps u (freeFuse w s) := by
  have drawn : Keeps u (freeBytes 4 s).2 := h.frame (freeBytes_within (Within.refl _ _) (all_contains_self _)) (by decide)
  exact drawn.update (by simp [stored, freeFuse, lset])

theorem fuseTear_keeps {u s : State} (h : Keeps u s) : Keeps u (fuseTear s) := by
  unfold fuseTear
  repeat' first
    | (with_reducible exact h) | (with_reducible exact Keeps.refl _) | (with_reducible apply freeFuse_keeps)
    | (with_reducible refine Keeps.forEach (fun _ _ => ?_) ?_) | split
    | ((with_reducible apply Keeps.literal); case same => simp only [stored, roles])

theorem powerTear_keeps {u s : State} (h : Keeps u s) : Keeps u (powerTear s) := by
  unfold powerTear
  repeat' first
    | (with_reducible exact h) | (with_reducible exact Keeps.refl _) | (with_reducible apply Keeps.ite)
    | (with_reducible apply fuseTear_keeps) | (with_reducible apply nvmTear_keeps)

theorem updateWcr_keeps {u s : State} (h : Keeps u s) : Keeps u (updateWcr s) := by
  unfold updateWcr
  repeat' first
    | (with_reducible exact h) | ((with_reducible apply Keeps.literal); case same => simp only [stored, roles])

theorem cfgFollow_keeps {u s : State} {a : Nat} (h : Keeps u s) : Keeps u (cfgFollow a s) := by
  unfold cfgFollow
  repeat' first
    | (with_reducible exact h) | (with_reducible apply Keeps.ite)
    | (with_reducible apply Keeps.frame ?_ (inhUpdate_within (Within.refl _ _) (all_contains_self _)) (by decide))
    | (with_reducible apply Keeps.frame ?_ (updateSil_within (Within.refl _ _) (all_contains_self _)) (by decide))
    | (with_reducible apply updateWcr_keeps)

theorem leaveService_keeps {u s : State} (h : Keeps u s) : Keeps u (leaveService s) := by
  unfold leaveService
  repeat' first
    | (with_reducible exact h) | ((with_reducible apply Keeps.literal); case same => simp only [stored, roles])

theorem enterLoad_keeps {u s : State} (h : Keeps u s) : Keeps u (enterLoad s) := by
  unfold enterLoad
  repeat' first
    | (with_reducible exact h) | (with_reducible exact Keeps.refl _) | (with_reducible apply Keeps.ite)
    | (with_reducible apply Keeps.frame ?_ (abortEchoes_within (Within.refl _ _) (all_contains_self _)) (by decide))
    | (with_reducible apply Keeps.frame ?_ (abortUpd_within (Within.refl _ _) (all_contains_self _)) (by decide))
    | (with_reducible apply leaveService_keeps) | (with_reducible refine modAcc_keeps ?_ (fun _ => rfl))
    | (with_reducible apply Keeps.frame ?_ (startRead_within (Within.refl _ _) (all_contains_self _)) (by decide))
    | (with_reducible apply Keeps.frame ?_ (stopStreams_within (Within.refl _ _) (all_contains_self _)) (by decide))
    | (with_reducible apply Keeps.frame ?_ (tcComplete_within (Within.refl _ _) (all_contains_self _)) (by decide))
    | (with_reducible apply Keeps.frame ?_ (updateSens_within (Within.refl _ _) (all_contains_self _)) (by decide))
    | (with_reducible refine Keeps.forEach (fun _ _ => ?_) ?_)
    | ((with_reducible apply Keeps.literal); case same => simp only [stored, roles])

theorem nvmNext_keeps {u s : State} (h : Keeps u s) : Keeps u (nvmNext s) := by
  unfold nvmNext
  repeat' first
    | (with_reducible exact h) | split | ((with_reducible apply Keeps.literal); case same => simp only [stored, roles])

theorem nvmRequest_keeps {u s : State} {a : NvmReq} (h : Keeps u s) : Keeps u (nvmRequest a s) := by
  unfold nvmRequest
  repeat' first
    | (with_reducible exact h) | (with_reducible exact Keeps.refl _) | (with_reducible apply Keeps.ite)
    | (with_reducible apply nvmNext_keeps) | ((with_reducible apply Keeps.literal); case same => simp only [stored, roles])

theorem pzDiscard_keeps {u s : State} (h : Keeps u s) : Keeps u (pzDiscard s) := by
  unfold pzDiscard
  repeat' first
    | (with_reducible exact h) | (with_reducible refine modLink_keeps ?_ (fun _ => rfl))

theorem modPort_keeps {u s : State} {a : Nat} {b : Port → Port} (h : Keeps u s) : Keeps u (modPort a b s) := by
  unfold modPort
  repeat' first
    | (with_reducible exact h) | (with_reducible refine modLink_keeps ?_ (fun _ => rfl)) | split

theorem txFrame_keeps {u s : State} {a : Nat} {b : Bool} {c : Nat} {d : Out} (h : Keeps u s) : Keeps u (txFrame a b c d s) := by
  unfold txFrame
  repeat' first
    | (with_reducible exact h) | (with_reducible apply Keeps.ite)
    | (with_reducible apply Keeps.frame ?_ (emit_within (Within.refl _ _) (all_contains_self _)) (by decide))
    | (with_reducible apply modPort_keeps)

theorem sendUdp_keeps {u s : State} {a : Nat} {b : Nat} {c : Option Nat} {d : Nat} {e : Nat} {f : List Byte} (h : Keeps u s) : Keeps u (sendUdp a b c d e f s) := by
  unfold sendUdp
  repeat' first
    | (with_reducible exact h) | (with_reducible apply txFrame_keeps)

theorem pzSend_keeps {u s : State} {a : Endpoint} {b : List Byte} (h : Keeps u s) : Keeps u (pzSend a b s) := by
  unfold pzSend
  repeat' first
    | (with_reducible exact h) | (with_reducible apply sendUdp_keeps)

theorem pzAnswer_keeps {u s : State} {a : Endpoint} {b : Nat} {c : Nat} {d : Nat} {e : Nat} {f : List Byte} (h : Keeps u s) : Keeps u (pzAnswer a b c d e f s) := by
  unfold pzAnswer
  repeat' first
    | (with_reducible exact h) | (with_reducible refine modSess_keeps ?_ (fun _ => rfl)) | (with_reducible apply pzSend_keeps)

/-- An answered request keeps what its answer's state keeps. -/
theorem pzDone_keeps {u : State} {ep : Endpoint} {i ty seq : Nat} {a : PzAns} (h : Keeps u a.st) : Keeps u (pzDone ep i ty seq a) := by
  cases a with
  | ok p s => exact pzAnswer_keeps h
  | refuse c arg s =>
    exact pzAnswer_keeps (h.frame (pzRaise_within (Within.refl _ _) (all_contains_self _)) (by decide))
  | failed p s => exact pzAnswer_keeps h
  | later s => exact modSess_keeps h fun _ => rfl

/-- A request keeps what its execution keeps, whatever the sequence number decides. -/
theorem pzRequest_keeps {u s : State} {ep : Endpoint} {m : List Byte} {during : Bool} {form : List Byte → Bool} {least : Role}
    {f : Nat → Session → List Byte → State → PzAns} (hf : ∀ i x p t, Keeps t (f i x p t).st) (h : Keeps u s) :
    Keeps u (pzRequest ep m during form least f s) := by
  unfold pzRequest
  refine h.ite ?_
  split
  · exact pzDiscard_keeps h
  next i _ =>
    split
    · exact h
    · refine Keeps.ite (pzDiscard_keeps h) ?_
      have heard : Keeps u (modSess i (fun y => { y with lastTk := s.tb.run }) s) := modSess_keeps h fun _ => rfl
      have taken : Keeps u (modSess i (fun y => { y with seq := Pz.seq m }) (modSess i (fun y => { y with lastTk := s.tb.run }) s)) :=
        modSess_keeps heard fun _ => rfl
      refine Keeps.ite heard (Keeps.ite (modLink_keeps heard fun _ => rfl) (Keeps.ite ?_ (Keeps.ite ?_ ?_)))
      · split
        · exact pzSend_keeps heard
        · exact heard
      · refine pzSend_keeps ?_
        apply Keeps.frame ?_ (pzRaise_within (Within.refl _ _) (all_contains_self _)) (by decide)
        exact modLink_keeps heard fun _ => rfl
      · exact Keeps.ite (pzDone_keeps taken) (Keeps.ite (pzDone_keeps taken) (pzDone_keeps (taken.trans (hf _ _ _ _))))

theorem pzFrame_keeps {u s : State} {ep : Endpoint} {m : List Byte} (h : Keeps u s) : Keeps u (pzFrame ep m s) := by
  unfold pzFrame
  refine h.ite ((pzDiscard_keeps h).ite (h.ite (pzRequest_keeps (fun _ _ _ _ => Keeps.refl _) h)))

theorem writeRtcPwake_keeps {u s : State} {a : Word} (h : Keeps u s) : Keeps u (writeRtcPwake a s) := by
  unfold writeRtcPwake
  repeat' first
    | (with_reducible exact h) | (with_reducible refine modRtc_keeps ?_ (fun _ => rfl) (fun _ => rfl))
    | (with_reducible apply setCfg_keeps)

theorem exitService_keeps {u s : State} (h : Keeps u s) : Keeps u (exitService s) := by
  unfold exitService
  apply Keeps.frame ?_ (raise_within (Within.refl _ _) (all_contains_self _)) (by decide)
  apply Keeps.frame ?_ (updateSens_within (Within.refl _ _) (all_contains_self _)) (by decide)
  refine modLink_keeps ?_ fun l => by simp [roles, Function.comp_def]
  refine leaveService_keeps ?_
  apply Keeps.frame ?_ (goMode_within (Within.refl _ _) (all_contains_self _)) (by decide)
  apply Keeps.frame ?_ (abortAll_within (Within.refl _ _) (all_contains_self _)) (by decide)
  exact modAcc_keeps h fun _ => rfl

theorem abandonEnter_keeps {u s : State} (h : Keeps u s) : Keeps u (abandonEnter s) := by
  unfold abandonEnter
  repeat' first
    | (with_reducible exact h) | (with_reducible refine modAcc_keeps ?_ (fun _ => rfl))
    | ((with_reducible apply Keeps.literal); case same => simp only [stored, roles])

/-- A session that ends was the controller at most. -/
theorem freeSession_keeps {u s : State} (h : Keeps u s) (i : Nat) : Keeps u (modLink (fun l => { l with sess := lset l.sess i none }) s) := by
  have roles' : roles { s.link with sess := lset s.link.sess i none } = (roles s.link).set i none := by simp [roles, lset]
  refine h.trans fun f holds => ?_
  cases f with
  | lengths => simpa [Form.Holds, Lengths, modLink, lset] using holds
  | controller =>
    obtain ⟨four, one⟩ := oneController_iff.mp holds
    have freed : (stored (modLink (fun l => { l with sess := lset l.sess i none }) s)).roles = (stored s).roles.set i none := roles'
    rw [Form.Holds, oneController_iff, freed]
    exact ⟨by simpa using four, fun a b ha hb => one a b (isController_of_set_none ha) (isController_of_set_none hb)⟩
  | regs | memory | captures | claims => exact holds

theorem dropSession_keeps {u s : State} {i : Nat} (h : Keeps u s) : Keeps u (dropSession i s) := by
  unfold dropSession
  have rings : Keeps u (modRing (52 + i) (fun r => { r with recs := [], acked := r.next, sendNext := r.next, owner := none })
      (forEach (upto 64) (modRing · fun r => { r with owner := if r.owner = some i then none else r.owner,
                                                      stream := if r.stream = some i then none else r.stream }) s)) :=
    (Keeps.forEach (fun _ t => (Keeps.refl t).frame (modRing_within (Within.refl _ _) (all_contains_self _)) (by decide)) h).frame
      (modRing_within (Within.refl _ _) (all_contains_self _)) (by decide)
  have freed := freeSession_keeps rings i
  have update {c : Prop} [Decidable c] (l : Loader) {t : State} (k : Keeps u t) : Keeps u (if c then { t with ldr := l } else t) :=
    (k.frame (Within.set_ldr (Within.refl [.ldr] _) (by decide)) (by decide)).ite k
  exact (abandonEnter_keeps (update _ freed)).ite (update _ freed)

theorem closeSession_keeps {u s : State} {a : Nat} {b : Bool} (h : Keeps u s) : Keeps u (closeSession a b s) := by
  unfold closeSession
  repeat' first
    | (with_reducible exact h) | (with_reducible apply dropSession_keeps) | (with_reducible apply exitService_keeps)
    | (with_reducible refine modLink_keeps ?_ (fun _ => rfl))
    | (with_reducible apply Keeps.frame ?_ (raiseAt_within (Within.refl _ _) (all_contains_self _)) (by decide)) | split

theorem putCfg_keeps {u s : State} {a : Nat} {b : RegHit} {c : Word} (h : Keeps u s) : Keeps u (putCfg a b c s) := by
  unfold putCfg
  repeat' first
    | (with_reducible exact h) | (with_reducible apply Keeps.ite) | (with_reducible apply cfgFollow_keeps)
    | (with_reducible apply setCfg_keeps)

theorem writeCfg_keeps {u s : State} {a : Nat} {b : RegHit} {c : Word} (h : Keeps u s) : Keeps u (writeCfg a b c s) := by
  unfold writeCfg
  repeat' first
    | (with_reducible exact h)
    | (with_reducible apply Keeps.frame ?_ (lockedOut_within (Within.refl _ _) (all_contains_self _)) (by decide))
    | (with_reducible apply putCfg_keeps) | split

theorem announce_keeps {u s : State} {a : Nat} {b : Nat} (h : Keeps u s) : Keeps u (announce a b s) := by
  unfold announce
  repeat' first
    | (with_reducible exact h) | (with_reducible apply txFrame_keeps)

theorem disableRing_keeps {u s : State} {a : Nat} (h : Keeps u s) : Keeps u (disableRing a s) := by
  unfold disableRing
  repeat' first
    | (with_reducible exact h)
    | (with_reducible apply Keeps.frame ?_ (modRing_within (Within.refl _ _) (all_contains_self _)) (by decide))
    | (with_reducible apply updateWcr_keeps)

theorem writeRtcTrim_keeps {u s : State} {a : Word} (h : Keeps u s) : Keeps u (writeRtcTrim a s) := by
  unfold writeRtcTrim
  repeat' first
    | (with_reducible exact h) | (with_reducible refine modRtc_keeps ?_ (fun _ => rfl) (fun _ => rfl))

theorem writeRcpSel_keeps {u s : State} {a : Path} {b : Word} (h : Keeps u s) : Keeps u (writeRcpSel a b s) := by
  unfold writeRcpSel
  repeat' first
    | (with_reducible exact h) | (with_reducible refine modShad_keeps ?_ (fun _ wf => wf))

theorem sendData_keeps {u s : State} {a : Nat} {b : Bool} {c : Nat} {d : Nat} {e : List RingRec} (h : Keeps u s) : Keeps u (sendData a b c d e s) := by
  unfold sendData
  repeat' first
    | (with_reducible exact h) | (with_reducible apply sendUdp_keeps) | split

theorem sendReliable_keeps {u s : State} {a : Nat} (h : Keeps u s) : Keeps u (sendReliable a s) := by
  unfold sendReliable
  repeat' first
    | (with_reducible exact h) | (with_reducible exact Keeps.refl _)
    | (with_reducible apply Keeps.frame ?_ (modRing_within (Within.refl _ _) (all_contains_self _)) (by decide))
    | (with_reducible apply sendData_keeps) | (with_reducible refine Keeps.forEach (fun _ _ => ?_) ?_) | split | dsimp only

theorem paced_keeps {u s : State} {a : Nat} (h : Keeps u s) : Keeps u (paced a s) := by
  unfold paced
  repeat' first
    | (with_reducible exact h) | (with_reducible refine modLink_keeps ?_ (fun _ => rfl))

theorem sendStream_keeps {u s : State} {a : Nat} (h : Keeps u s) : Keeps u (sendStream a s) := by
  unfold sendStream
  repeat' first
    | (with_reducible exact h) | (with_reducible exact Keeps.refl _)
    | (with_reducible apply Keeps.frame ?_ (modRing_within (Within.refl _ _) (all_contains_self _)) (by decide))
    | (with_reducible apply paced_keeps) | (with_reducible apply sendData_keeps) | (with_reducible apply sendUdp_keeps)
    | (with_reducible refine Keeps.forEach (fun _ _ => ?_) ?_) | split | dsimp only

theorem sendReplay_keeps {u s : State} {a : Nat} {b : Nat} (h : Keeps u s) : Keeps u (sendReplay a b s) := by
  unfold sendReplay
  repeat' first
    | (with_reducible exact h) | (with_reducible refine modSess_keeps ?_ (fun _ => rfl)) | (with_reducible apply paced_keeps)
    | (with_reducible apply sendData_keeps) | split | dsimp only

theorem nvmCorrect_keeps {u s : State} {a : Nat} {b : Nat} (h : Keeps u s) : Keeps u (nvmCorrect a b s) := by
  unfold nvmCorrect
  repeat' first
    | (with_reducible exact h) | ((with_reducible apply Keeps.literal); case same => simp only [stored, roles])

theorem enterSafe_keeps {u s : State} (h : Keeps u s) : Keeps u (enterSafe s) := by
  unfold enterSafe
  repeat' first
    | (with_reducible exact h) | (with_reducible apply Keeps.ite)
    | (with_reducible apply Keeps.frame ?_ (abortAll_within (Within.refl _ _) (all_contains_self _)) (by decide))
    | (with_reducible apply leaveService_keeps)
    | (with_reducible apply Keeps.frame ?_ (raise_within (Within.refl _ _) (all_contains_self _)) (by decide))
    | (with_reducible apply Keeps.frame ?_ (safeRails_within (Within.refl _ _) (all_contains_self _)) (by decide))
    | ((with_reducible apply Keeps.literal); case same => simp only [stored, roles])

theorem enterDev_keeps {u s : State} {a : Nat} {b : Nat} {c : Bool} (h : Keeps u s) : Keeps u (enterDev a b c s) := by
  unfold enterDev
  repeat' first
    | (with_reducible exact h) | (with_reducible apply Keeps.ite) | (with_reducible apply enterSafe_keeps)
    | (with_reducible apply Keeps.frame ?_ (raiseSrc_within (Within.refl _ _) (all_contains_self _)) (by decide))
    | ((with_reducible apply Keeps.literal); case same => simp only [stored, roles])

theorem decideDev_keeps {u s : State} {a : Nat} {b : Nat} {c : Bool} (h : Keeps u s) : Keeps u (decideDev a b c s) := by
  unfold decideDev
  repeat' first
    | (with_reducible exact h) | (with_reducible apply Keeps.ite) | (with_reducible apply enterDev_keeps)
    | (with_reducible apply Keeps.frame ?_ (safeDevice_within (Within.refl _ _) (all_contains_self _)) (by decide))
    | (with_reducible apply Keeps.frame ?_ (setHist_within (Within.refl _ _) (all_contains_self _)) (by decide))
    | ((with_reducible apply Keeps.literal); case same => simp only [stored, roles])

theorem readYear_keeps {u s : State} {a : Path} (h : Keeps u s) : Keeps u (readYear a s).2 := by
  unfold readYear
  repeat' first
    | (with_reducible exact h) | (with_reducible refine modShad_keeps ?_ (fun _ wf => wf))

theorem winRead_keeps {u s : State} {a : Path} {b : Bool} {c : Nat} (h : Keeps u s) : Keeps u (winRead a b c s).2 := by
  unfold winRead
  repeat' first
    | (with_reducible exact h) | (with_reducible apply Keeps.ite2) | (with_reducible apply nvmCorrect_keeps)

theorem rcPut_keeps {u s : State} {a : Path} {b : RegHit} {c : Word} (h : Keeps u s) : Keeps u (rcPut a b c s) := by
  unfold rcPut
  repeat' first
    | (with_reducible exact h) | (with_reducible apply Keeps.frame ?_ (modCh_within (Within.refl _ _) (all_contains_self _)) (by decide))
    | (with_reducible apply Keeps.frame ?_ (modEst_within (Within.refl _ _) (all_contains_self _)) (by decide))
    | (with_reducible apply Keeps.frame ?_ (modFab_within (Within.refl _ _) (all_contains_self _)) (by decide))
    | (with_reducible apply Keeps.frame ?_ (modFe_within (Within.refl _ _) (all_contains_self _)) (by decide))
    | (with_reducible apply Keeps.frame ?_ (modGal_within (Within.refl _ _) (all_contains_self _)) (by decide))
    | (with_reducible apply Keeps.frame ?_ (modLdr_within (Within.refl _ _) (all_contains_self _)) (by decide))
    | (with_reducible refine modLink_keeps ?_ (fun _ => rfl))
    | (with_reducible apply Keeps.frame ?_ (modPh_within (Within.refl _ _) (all_contains_self _)) (by decide))
    | (with_reducible apply modPort_keeps)
    | (with_reducible apply Keeps.frame ?_ (modRing_within (Within.refl _ _) (all_contains_self _)) (by decide))
    | (with_reducible apply Keeps.frame ?_ (modSaf_within (Within.refl _ _) (all_contains_self _)) (by decide))
    | (with_reducible refine modShad_keeps ?_ (fun _ wf => wf)) | (with_reducible apply modSlot_keeps)
    | (with_reducible apply Keeps.frame ?_ (modSqz_within (Within.refl _ _) (all_contains_self _)) (by decide))
    | (with_reducible apply Keeps.frame ?_ (modSump_within (Within.refl _ _) (all_contains_self _)) (by decide))
    | (with_reducible apply Keeps.frame ?_ (modTb_within (Within.refl _ _) (all_contains_self _)) (by decide)) | split
    | ((with_reducible apply Keeps.literal); case same => simp only [stored, roles])

theorem checkBram_keeps {u s : State} {a : List Nat} (h : Keeps u s) : Keeps u (checkBram a s) := by
  unfold checkBram
  repeat' first
    | (with_reducible exact h) | (with_reducible apply Keeps.ite) | (with_reducible refine modRtc_keeps ?_ (fun _ => rfl) (fun _ => rfl))
    | (with_reducible apply Keeps.frame ?_ (raiseA_within (Within.refl _ _) (all_contains_self _)) (by decide))

theorem readBram_keeps {u s : State} {a : Nat} (h : Keeps u s) : Keeps u (readBram a s).2 := by
  unfold readBram
  repeat' first
    | (with_reducible exact h) | (with_reducible apply checkBram_keeps)

theorem claimable_aboveTop {s : State} {t i : Nat} (h : claimable s t i = true) : aboveTop (stackOf s t) (srcPrio s i) = true := by
  simp only [claimable, Bool.and_eq_true] at h
  exact h.2

theorem bestClaim_claimable {s : State} {t i : Nat} (h : bestClaim s t = some i) : claimable s t i = true := by
  have best (l : List Nat) (o : Option Nat) (all : ∀ j ∈ l, claimable s t j = true) (start : ∀ j, o = some j → claimable s t j = true) :
      ∀ j, l.foldl (fun b i => match b with
        | none => some i
        | some j => if srcPrio s j < srcPrio s i then some i else some j) o = some j → claimable s t j = true := by
    induction l generalizing o with
    | nil => exact start
    | cons x l ih =>
      obtain ⟨hx, hl⟩ := List.forall_mem_cons.mp all
      refine ih _ hl fun j hj => ?_
      dsimp only at hj
      split at hj
      · exact Option.some_inj.mp hj ▸ hx
      · split at hj <;> obtain rfl := Option.some_inj.mp hj
        · exact hx
        · exact start _ rfl
  exact best _ none (fun j mem => (List.mem_filter.mp mem).2) (fun _ none => by cases none) i h

theorem srcPrio_lt (s : State) (i : Nat) : srcPrio s i < 16 := Nat.mod_lt _ (by decide)

/-- A source above the top of a rising stack makes a rising stack. -/
theorem rises_cons {l : List (Nat × Nat)} {i p : Nat} (small : p < 16) (above : aboveTop l p = true)
    (rise : l.Pairwise (fun a b => b.2 < a.2) ∧ ∀ a ∈ l, a.2 < 16) :
    ((i, p) :: l).Pairwise (fun a b => b.2 < a.2) ∧ ∀ a ∈ (i, p) :: l, a.2 < 16 := by
  obtain ⟨fall, below⟩ := rise
  refine ⟨List.pairwise_cons.mpr ⟨fun b mem => ?_, fall⟩, List.forall_mem_cons.mpr ⟨small, below⟩⟩
  cases l with
  | nil => cases mem
  | cons x l =>
    have top : x.2 < p := by simpa [aboveTop] using above
    rcases List.mem_cons.mp mem with rfl | later
    · exact top
    · exact ((List.pairwise_cons.mp fall).1 b later).trans top

theorem claim_keeps {u s : State} {t : Nat} (h : Keeps u s) : Keeps u (claim t s).2 := by
  unfold claim
  split
  next i best =>
    refine stack_keeps h rfl fun rise inside => ?_
    exact rises_cons (srcPrio_lt s i) (claimable_aboveTop (bestClaim_claimable best)) (rise _ (stackOf_mem inside))
  next => exact h.set_intc rfl

theorem claimRead_keeps {u s : State} {a : Path} {b : Nat} (h : Keeps u s) : Keeps u (claimRead a b s).2 := by
  unfold claimRead
  repeat' first
    | (with_reducible exact h) | (with_reducible apply claim_keeps) | split

theorem freezeCal_keeps {u s : State} {a : Path} (h : Keeps u s) : Keeps u (freezeCal a s).2 := by
  unfold freezeCal
  repeat' first
    | (with_reducible exact h) | (with_reducible refine modShad_keeps ?_ (fun _ wf => wf))

theorem readEffect_keeps {u s : State} {a : Path} {b : Nat} {c : RegHit} {d : Word} (h : Keeps u s) : Keeps u (readEffect a b c d s) := by
  unfold readEffect
  repeat' first
    | (with_reducible exact h) | (with_reducible exact Keeps.refl _) | (with_reducible apply Keeps.ite)
    | (with_reducible apply capture_keeps) | (with_reducible apply claimRead_keeps) | (with_reducible apply freezeCal_keeps)
    | (with_reducible apply rcPut_keeps) | (with_reducible apply readBram_keeps) | (with_reducible apply readYear_keeps)
    | (with_reducible apply winRead_keeps) | split

theorem readRacing_keeps {u s : State} {a : Path} {b : Nat} {c : Word} (h : Keeps u s) : Keeps u (readRacing a b c s).2 := by
  unfold readRacing
  repeat' first
    | (with_reducible exact h) | (with_reducible apply readEffect_keeps) | split

theorem readReg_keeps {u s : State} {a : Path} {b : Nat} (h : Keeps u s) : Keeps u (readReg a b s).2 := by
  unfold readReg
  repeat' first
    | (with_reducible exact h) | (with_reducible apply readRacing_keeps)

theorem sendResult_keeps {u s : State} {a : Nat} {b : Nat} {c : Nat} {d : Bool} {e : Graded} (h : Keeps u s) : Keeps u (sendResult a b c d e s) := by
  unfold sendResult
  repeat' first
    | (with_reducible exact h) | (with_reducible apply Keeps.frame ?_ (modEst_within (Within.refl _ _) (all_contains_self _)) (by decide))
    | (with_reducible apply nvmRequest_keeps)
    | (with_reducible apply Keeps.frame ?_ (raise_within (Within.refl _ _) (all_contains_self _)) (by decide))
    | (with_reducible apply Keeps.frame ?_ (ringPush_within (Within.refl _ _) (all_contains_self _)) (by decide))
    | ((with_reducible apply Keeps.literal); case same => simp only [stored, roles])

theorem grade_keeps {u s : State} {a : Nat} {b : Nat} (h : Keeps u s) : Keeps u (grade a b s) := by
  unfold grade
  repeat' first
    | (with_reducible exact h) | (with_reducible apply Keeps.frame ?_ (modEst_within (Within.refl _ _) (all_contains_self _)) (by decide))
    | (with_reducible apply Keeps.frame ?_ (raise_within (Within.refl _ _) (all_contains_self _)) (by decide))
    | (with_reducible apply sendResult_keeps) | split

theorem gradeCmd_keeps {u s : State} {a : Nat} (h : Keeps u s) : Keeps u (gradeCmd a s) := by
  unfold gradeCmd
  repeat' first
    | (with_reducible exact h) | (with_reducible apply Keeps.ite) | (with_reducible apply grade_keeps)
    | (with_reducible apply Keeps.frame ?_ (raise_within (Within.refl _ _) (all_contains_self _)) (by decide))

theorem rtcWerr_keeps {u s : State} (h : Keeps u s) : Keeps u (rtcWerr s) := by
  unfold rtcWerr
  repeat' first
    | (with_reducible exact h) | (with_reducible refine modRtc_keeps ?_ (fun _ => rfl) (fun _ => rfl))
    | (with_reducible apply Keeps.frame ?_ (raise_within (Within.refl _ _) (all_contains_self _)) (by decide))

theorem writeRtcCtrl_keeps {u s : State} {a : Word} (h : Keeps u s) : Keeps u (writeRtcCtrl a s) := by
  unfold writeRtcCtrl
  repeat' first
    | (with_reducible exact h) | (with_reducible apply Keeps.ite) | (with_reducible refine modRtc_keeps ?_ (fun _ => rfl) (fun _ => rfl))
    | (with_reducible apply rtcWerr_keeps) | (with_reducible apply setCfg_keeps)

theorem downDone_keeps {u s : State} (h : Keeps u s) : Keeps u (downDone s) := by
  unfold downDone
  have torn : Keeps u (powerTear s) := powerTear_keeps h
  generalize powerTear s = t at torn
  dsimp only
  repeat' first
    | split | exact torn.literal (by simp only [stored, roles])

theorem downBelow_keeps {u s : State} {a : Nat} (h : Keeps u s) : Keeps u (downBelow a s) := by
  unfold downBelow
  repeat' first
    | (with_reducible exact h) | (with_reducible apply downDone_keeps)
    | (with_reducible apply Keeps.frame ?_ (railOff_within (Within.refl _ _) (all_contains_self _)) (by decide)) | split

theorem reverse_keeps {u s : State} {a : DownGoal} (h : Keeps u s) : Keeps u (reverse a s) := by
  unfold reverse
  repeat' first
    | (with_reducible exact h) | (with_reducible apply Keeps.ite) | (with_reducible apply downBelow_keeps)
    | (with_reducible apply Keeps.frame ?_ (modSeq_within (Within.refl _ _) (all_contains_self _)) (by decide))
    | (with_reducible apply Keeps.frame ?_ (railOff_within (Within.refl _ _) (all_contains_self _)) (by decide))

theorem failedAttempt_keeps {u s : State} (h : Keeps u s) : Keeps u (failedAttempt s) := by
  unfold failedAttempt
  repeat' first
    | (with_reducible exact h) | (with_reducible apply Keeps.frame ?_ (modSeq_within (Within.refl _ _) (all_contains_self _)) (by decide))
    | (with_reducible apply reverse_keeps)

theorem enableSlot_keeps {u s : State} {a : Nat} {b : Bool} (h : Keeps u s) : Keeps u (enableSlot a b s) := by
  unfold enableSlot
  repeat' first
    | (with_reducible exact h) | (with_reducible apply Keeps.ite) | (with_reducible apply failedAttempt_keeps)
    | (with_reducible apply Keeps.frame ?_ (modRail_within (Within.refl _ _) (all_contains_self _)) (by decide))
    | (with_reducible apply Keeps.frame ?_ (modSeq_within (Within.refl _ _) (all_contains_self _)) (by decide))
    | (with_reducible apply Keeps.frame ?_ (railOn_within (Within.refl _ _) (all_contains_self _)) (by decide))
    | (with_reducible apply Keeps.frame ?_ (raiseSlot_within (Within.refl _ _) (all_contains_self _)) (by decide))

theorem coldStart_keeps {u s : State} (h : Keeps u s) : Keeps u (coldStart s) := by
  refine h.trans ?_
  have cold : Keeps s { ({} : State) with
      mode := .load, seq := s.seq, rtc := { s.rtc with oscEv := false }, regs := s.regs.filter (fun x => inBackup x.1)
      nvm := { mem := s.nvm.mem, bad := s.nvm.bad, weak := s.nvm.weak }
      acc := { fuse := s.acc.fuse }
      fab := { events := s.fab.events.filter fun e => e.prod == .backup || e.prod == .supervisor }
      gal := s.gal.map fun g => { sflt := g.sflt }
      twi := { addrPins := s.twi.addrPins, addr := s.twi.addrPins }
      ph := Vector.replicate 128 { pwm := .mid }
      out := s.out, free := s.free, pending := s.pending } := by
    intro f holds
    cases f with
    | regs => exact regsWf_filter _ holds
    | memory => exact holds
    | captures => exact reset_capturesWf
    | lengths =>
      simp only [Form.Holds, Lengths, Bool.and_eq_true, beq_iff_eq] at holds ⊢
      simp [holds]
    | claims => exact reset_stacksRise
    | controller => exact reset_oneController
  exact (cold.frame (raise_within (Within.refl _ _) (all_contains_self _)) (by decide)).ite cold

theorem powerUpDone_keeps {u s : State} (h : Keeps u s) : Keeps u (powerUpDone s) := by
  unfold powerUpDone
  repeat' first
    | (with_reducible exact h)
    | (with_reducible apply Keeps.frame ?_ (abortAll_within (Within.refl _ _) (all_contains_self _)) (by decide))
    | (with_reducible apply coldStart_keeps)
    | (with_reducible apply Keeps.frame ?_ (goMode_within (Within.refl _ _) (all_contains_self _)) (by decide))
    | (with_reducible apply Keeps.frame ?_ (updateSens_within (Within.refl _ _) (all_contains_self _)) (by decide)) | split
    | ((with_reducible apply Keeps.literal); case same => simp only [stored, roles])

theorem portDown_keeps {u s : State} {a : Nat} (h : Keeps u s) : Keeps u (portDown a s) := by
  unfold portDown
  repeat' first
    | (with_reducible exact h) | (with_reducible apply modPort_keeps)

theorem takeAddress_keeps {u s : State} (h : Keeps u s) : Keeps u (takeAddress s) := by
  unfold takeAddress
  repeat' first
    | (with_reducible exact h) | (with_reducible exact Keeps.refl _) | (with_reducible apply announce_keeps)
    | (with_reducible refine modLink_keeps ?_ (fun _ => rfl)) | (with_reducible refine Keeps.forEach (fun _ _ => ?_) ?_) | split
    | dsimp only

theorem refuseRecall_keeps {u s : State} {reason : Nat} (h : Keeps u s) : Keeps u (refuseRecall reason s) := by
  unfold refuseRecall
  have rails : Keeps u (forEach (upto 8) (modRail · fun x => { x with noRise := 0, stuck := 0, uv := 0, ov := 0 }) s) :=
    Keeps.forEach (fun _ t => (Keeps.refl t).frame (modRail_within (Within.refl _ _) (all_contains_self _)) (by decide)) h
  have cleared := rails.frame (modSeq_within (x0 := fun q => { q with nPfw := 0, nVin := 0, nBrown := 0, nLong := 0, noStore := true })
    (Within.refl _ _) (all_contains_self _)) (by decide)
  exact (cleared.literal (by simp only [stored])).frame (raiseA_within (Within.refl _ _) (all_contains_self _)) (by decide)

theorem applyPatch_keeps {u s : State} (h : Keeps u s) : Keeps u (applyPatch s) := by
  unfold applyPatch
  repeat' first
    | (with_reducible exact h) | (with_reducible apply Keeps.ite)
    | (with_reducible apply Keeps.frame ?_ (raise_within (Within.refl _ _) (all_contains_self _)) (by decide))
    | ((with_reducible apply Keeps.literal); case same => simp only [stored, roles])

theorem recallRecord_keeps {u s : State} {a : Nat} {b : Nat} (h : Keeps u s) : Keeps u (recallRecord a b s) := by
  unfold recallRecord
  repeat' first
    | (with_reducible exact h) | (with_reducible exact Keeps.refl _) | (with_reducible apply Keeps.ite)
    | (with_reducible apply Keeps.frame ?_ (raise_within (Within.refl _ _) (all_contains_self _)) (by decide))
    | (with_reducible apply Keeps.frame ?_ (raiseA_within (Within.refl _ _) (all_contains_self _)) (by decide))
    | (with_reducible refine Keeps.forEach (fun _ _ => ?_) ?_)
    | ((with_reducible apply Keeps.literal); case same => simp only [stored, roles])

theorem recalled_keeps {u s : State} (h : Keeps u s) {a n nUncorr scanPage : Nat} {resSeq : _} {passSec fails : Option Nat} :
    Keeps u (let t := nvmCorrect a n { s with nvm := { s.nvm with recalled := true, nUncorr := nUncorr, scanPage := scanPage } }
      { t with rcp := { t.rcp with resSeq := resSeq }, saf := { t.saf with passSec := passSec }, acc := { t.acc with fails := fails } }) := by
  have corrected := nvmCorrect_keeps (a := a) (b := n)
    (h.set_nvm (v := { s.nvm with recalled := true, nUncorr := nUncorr, scanPage := scanPage }) rfl)
  exact corrected.update rfl

theorem recallAll_keeps {u s : State} (h : Keeps u s) : Keeps u (recallAll s) := by
  have records : Keeps u (recallRecords.foldl (fun t r => recallRecord r.1 r.2 t) (recallRecord Kind.table 0 s)) :=
    Keeps.foldl (fun t _ => recallRecord_keeps (Keeps.refl t)) (recallRecord_keeps h)
  unfold recallAll
  generalize recallRecords.foldl (fun t r => recallRecord r.1 r.2 t) (recallRecord Kind.table 0 s) = t at records
  exact recalled_keeps (records.frame (recallSeq_within (Within.refl _ _) (all_contains_self _)) (by decide))

theorem helloRefuse_keeps {u s : State} {a : Endpoint} {b : List Byte} {c : Nat} (h : Keeps u s) : Keeps u (helloRefuse a b c s) := by
  unfold helloRefuse
  repeat' first
    | (with_reducible exact h)
    | (with_reducible apply Keeps.frame ?_ (pzRaise_within (Within.refl _ _) (all_contains_self _)) (by decide))
    | (with_reducible apply pzSend_keeps)

theorem learnArp_keeps {u s : State} {a : Nat} {b : Nat} (h : Keeps u s) : Keeps u (learnArp a b s) := by
  unfold learnArp
  repeat' first
    | (with_reducible exact h) | (with_reducible refine modLink_keeps ?_ (fun _ => rfl))

theorem fuseCmd_keeps {u s : State} {a : Word} (h : Keeps u s) : Keeps u (fuseCmd a s) := by
  unfold fuseCmd
  repeat' first
    | (with_reducible exact h) | (with_reducible apply Keeps.ite)
    | (with_reducible apply Keeps.frame ?_ (raise_within (Within.refl _ _) (all_contains_self _)) (by decide))
    | ((with_reducible apply Keeps.literal); case same => simp only [stored, roles])

theorem powerUp_keeps {u s : State} {a : Bool} (h : Keeps u s) : Keeps u (powerUp a s) := by
  unfold powerUp
  repeat' first
    | (with_reducible exact h) | (with_reducible apply Keeps.ite) | (with_reducible apply downDone_keeps)
    | (with_reducible apply Keeps.frame ?_ (modRail_within (Within.refl _ _) (all_contains_self _)) (by decide))
    | (with_reducible apply Keeps.frame ?_ (modSeq_within (Within.refl _ _) (all_contains_self _)) (by decide))
    | (with_reducible apply Keeps.frame ?_ (railOn_within (Within.refl _ _) (all_contains_self _)) (by decide))
    | (with_reducible apply Keeps.frame ?_ (raiseSlot_within (Within.refl _ _) (all_contains_self _)) (by decide))

theorem onRequest_keeps {u s : State} {a : Bool} (h : Keeps u s) : Keeps u (onRequest a s) := by
  unfold onRequest
  repeat' first
    | (with_reducible exact h) | (with_reducible apply Keeps.frame ?_ (modSeq_within (Within.refl _ _) (all_contains_self _)) (by decide))
    | (with_reducible apply powerUp_keeps)
    | (with_reducible apply Keeps.frame ?_ (raise_within (Within.refl _ _) (all_contains_self _)) (by decide)) | split

theorem wake_keeps {u s : State} {a : Bool} (h : Keeps u s) : Keeps u (wake a s) := by
  unfold wake
  repeat' first
    | (with_reducible exact h)
    | (with_reducible apply Keeps.frame ?_ (exitRest_within (Within.refl _ _) (all_contains_self _)) (by decide))
    | (with_reducible refine modRtc_keeps ?_ (fun _ => rfl) (fun _ => rfl)) | (with_reducible apply onRequest_keeps) | split

theorem formatStore_keeps {u s : State} {a : Byte} (h : Keeps u s) : Keeps u (formatStore a s) := by
  unfold formatStore nvmCmdGate regGate
  repeat' first
    | (with_reducible exact h) | (with_reducible apply Keeps.frame ?_ (raise_within (Within.refl _ _) (all_contains_self _)) (by decide))
    | (with_reducible apply Keeps.frame ?_ (raiseReg_within (Within.refl _ _) (all_contains_self _)) (by decide)) | split
    | ((with_reducible apply Keeps.literal); case same => simp only [stored, roles])

theorem commitCal_keeps {u s : State} {a : Byte} (h : Keeps u s) : Keeps u (commitCal a s) := by
  unfold commitCal nvmCmdGate regGate
  repeat' first
    | (with_reducible exact h) | (with_reducible apply nvmRequest_keeps)
    | (with_reducible apply Keeps.frame ?_ (raise_within (Within.refl _ _) (all_contains_self _)) (by decide))
    | (with_reducible apply Keeps.frame ?_ (raiseReg_within (Within.refl _ _) (all_contains_self _)) (by decide)) | split
    | ((with_reducible apply Keeps.literal); case same => simp only [stored, roles])

theorem scanStore_keeps {u s : State} {a : Byte} (h : Keeps u s) : Keeps u (scanStore a s) := by
  unfold scanStore nvmCmdGate regGate
  repeat' first
    | (with_reducible exact h) | (with_reducible apply Keeps.frame ?_ (raise_within (Within.refl _ _) (all_contains_self _)) (by decide))
    | (with_reducible apply Keeps.frame ?_ (raiseReg_within (Within.refl _ _) (all_contains_self _)) (by decide)) | split
    | ((with_reducible apply Keeps.literal); case same => simp only [stored, roles])

theorem nvmZeroPages_keeps {u s : State} {page n : Nat} (h : Keeps u s) : Keeps u (nvmZeroPages page n s) :=
  memory_keeps h (alWf_filter _)

theorem putRegion_keeps {u s : State} {a : Nat} {b : Nat} {c : Nat} {d : Nat} {e : Nat} {f : List Byte} (h : Keeps u s) : Keeps u (putRegion a b c d e f s) := by
  unfold putRegion
  repeat' first
    | (with_reducible exact h) | (with_reducible apply nvmRequest_keeps)

theorem defineRegion_keeps {u s : State} (h : Keeps u s) : Keeps u (defineRegion s) := by
  unfold defineRegion
  repeat' first
    | (with_reducible exact h) | (with_reducible apply Keeps.ite) | (with_reducible apply nvmZeroPages_keeps)
    | (with_reducible apply putRegion_keeps)
    | (with_reducible apply Keeps.frame ?_ (raise_within (Within.refl _ _) (all_contains_self _)) (by decide))

theorem defineStore_keeps {u s : State} {a : Byte} (h : Keeps u s) : Keeps u (defineStore a s) := by
  unfold defineStore nvmCmdGate regGate
  repeat' first
    | (with_reducible exact h) | (with_reducible apply defineRegion_keeps)
    | (with_reducible apply Keeps.frame ?_ (raise_within (Within.refl _ _) (all_contains_self _)) (by decide))
    | (with_reducible apply Keeps.frame ?_ (raiseReg_within (Within.refl _ _) (all_contains_self _)) (by decide)) | split | dsimp only

theorem writeNvmCmd_keeps {u s : State} {a : Path} {b : Word} (h : Keeps u s) : Keeps u (writeNvmCmd a b s) := by
  unfold writeNvmCmd
  repeat' first
    | (with_reducible exact h) | (with_reducible exact Keeps.refl _) | (with_reducible apply Keeps.ite)
    | (with_reducible apply commitCal_keeps) | (with_reducible apply defineStore_keeps) | (with_reducible apply formatStore_keeps)
    | (with_reducible apply Keeps.frame ?_ (raise_within (Within.refl _ _) (all_contains_self _)) (by decide))
    | (with_reducible apply scanStore_keeps) | split

theorem writeRingCtrl_keeps {u s : State} {a : Nat} {b : Word} (h : Keeps u s) : Keeps u (writeRingCtrl a b s) := by
  unfold writeRingCtrl
  repeat' first
    | (with_reducible exact h) | (with_reducible apply Keeps.ite) | (with_reducible apply disableRing_keeps)
    | (with_reducible apply Keeps.frame ?_ (modRing_within (Within.refl _ _) (all_contains_self _)) (by decide))
    | (with_reducible apply Keeps.frame ?_ (raise_within (Within.refl _ _) (all_contains_self _)) (by decide))
    | (with_reducible apply updateWcr_keeps)

theorem winWrite_keeps {u s : State} {a : Path} {b : Nat} {c : Word} (h : Keeps u s) : Keeps u (winWrite a b c s).2 := by
  unfold winWrite
  repeat' first
    | (with_reducible exact h) | (with_reducible refine modShad_keeps ?_ (fun _ wf => wf)) | (with_reducible apply nvmRequest_keeps)
    | split | dsimp only

theorem writeSqz_keeps {u s : State} {a : Nat} {b : Word} (h : Keeps u s) : Keeps u (writeSqz a b s) := by
  unfold writeSqz
  repeat' first
    | (with_reducible exact h) | (with_reducible apply Keeps.ite)
    | (with_reducible apply Keeps.frame ?_ (modSqz_within (Within.refl _ _) (all_contains_self _)) (by decide))
    | (with_reducible apply Keeps.frame ?_ (raise_within (Within.refl _ _) (all_contains_self _)) (by decide))
    | (with_reducible apply Keeps.frame ?_ (raiseReg_within (Within.refl _ _) (all_contains_self _)) (by decide))
    | (with_reducible apply setCfg_keeps) | (with_reducible apply updateWcr_keeps)

theorem orderly_keeps {u s : State} {a : DownGoal} {b : Nat} (h : Keeps u s) : Keeps u (orderly a b s) := by
  unfold orderly
  repeat' first
    | (with_reducible exact h) | (with_reducible apply Keeps.ite)
    | (with_reducible apply Keeps.frame ?_ (hostDrain_within (Within.refl _ _) (all_contains_self _)) (by decide))
    | (with_reducible apply Keeps.frame ?_ (modSeq_within (Within.refl _ _) (all_contains_self _)) (by decide))
    | (with_reducible apply reverse_keeps)
    | (with_reducible apply Keeps.frame ?_ (seqRefused_within (Within.refl _ _) (all_contains_self _)) (by decide))

theorem writeSeqCmd_keeps {u s : State} {v : Word} (h : Keeps u s) : Keeps u (writeSeqCmd v s) := by
  have refused : Keeps u (seqRefused s) := h.frame (seqRefused_within (Within.refl _ _) (all_contains_self _)) (by decide)
  have gate {key : Byte} {f : State → State} (k : Keeps u (f s)) : Keeps u (seqCmdGate key f s) := by
    unfold seqCmdGate
    refine regGate_keeps h ?_
    split <;> assumption
  unfold writeSeqCmd
  dsimp only
  split
  · exact gate (orderly_keeps h)
  · exact gate (orderly_keeps h)
  · exact gate (h.frame (hostReset_within (Within.refl _ _) (all_contains_self _)) (by decide))
  · exact gate (h.frame (clearEvt_within (Within.refl _ _) (all_contains_self _)) (by decide))
  · exact gate refused

theorem writeWdtCtrl_keeps {u s : State} {a : Word} (h : Keeps u s) : Keeps u (writeWdtCtrl a s) := by
  unfold writeWdtCtrl
  repeat' first
    | (with_reducible exact h) | (with_reducible apply Keeps.ite) | (with_reducible refine modWdt_keeps ?_ (fun _ => rfl))
    | (with_reducible apply Keeps.frame ?_ (raise_within (Within.refl _ _) (all_contains_self _)) (by decide))
    | (with_reducible apply setCfg_keeps)

theorem writeRtcStat_keeps {u s : State} {a : Word} (h : Keeps u s) : Keeps u (writeRtcStat a s) := by
  unfold writeRtcStat
  repeat' first
    | (with_reducible exact h) | (with_reducible refine modRtc_keeps ?_ (fun _ => rfl) (fun _ => rfl))

theorem writeFeCal_keeps {u s : State} {a : Nat} {b : Word} (h : Keeps u s) : Keeps u (writeFeCal a b s) := by
  unfold writeFeCal
  repeat' first
    | (with_reducible exact h) | (with_reducible apply Keeps.ite)
    | (with_reducible apply Keeps.frame ?_ (modFe_within (Within.refl _ _) (all_contains_self _)) (by decide))
    | (with_reducible apply Keeps.frame ?_ (raiseReg_within (Within.refl _ _) (all_contains_self _)) (by decide))
    | (with_reducible apply setCfg_keeps)

theorem writeEstCmd_keeps {u s : State} {a : Path} {b : Nat} {c : Word} (h : Keeps u s) : Keeps u (writeEstCmd a b c s) := by
  unfold writeEstCmd estCmd chGate regGate
  repeat' first
    | (with_reducible exact h) | (with_reducible apply Keeps.ite)
    | (with_reducible apply Keeps.frame ?_ (estWait_within (Within.refl _ _) (all_contains_self _)) (by decide))
    | (with_reducible apply gradeCmd_keeps)
    | (with_reducible apply Keeps.frame ?_ (klogStart_within (Within.refl _ _) (all_contains_self _)) (by decide))
    | (with_reducible apply Keeps.frame ?_ (klogStop_within (Within.refl _ _) (all_contains_self _)) (by decide))
    | (with_reducible apply Keeps.frame ?_ (raise_within (Within.refl _ _) (all_contains_self _)) (by decide))
    | (with_reducible apply Keeps.frame ?_ (raiseA_within (Within.refl _ _) (all_contains_self _)) (by decide))
    | (with_reducible apply Keeps.frame ?_ (raiseReg_within (Within.refl _ _) (all_contains_self _)) (by decide))
    | (with_reducible apply Keeps.frame ?_ (relearnCmd_within (Within.refl _ _) (all_contains_self _)) (by decide)) | split

theorem writeIntcSrc_keeps {u s : State} {a : Nat} {b : Word} (h : Keeps u s) : Keeps u (writeIntcSrc a b s) := by
  unfold writeIntcSrc
  repeat' first
    | (with_reducible exact h) | (with_reducible apply Keeps.ite) | (with_reducible apply setCfg_keeps)
    | ((with_reducible apply Keeps.literal); case same => simp only [stored, roles])

theorem writeWdtCfg_keeps {u s : State} {a : Nat} {b : Word} (h : Keeps u s) : Keeps u (writeWdtCfg a b s) := by
  unfold writeWdtCfg
  repeat' first
    | (with_reducible exact h) | (with_reducible apply Keeps.ite) | (with_reducible apply modSlot_keeps)
    | (with_reducible apply Keeps.frame ?_ (raise_within (Within.refl _ _) (all_contains_self _)) (by decide))
    | (with_reducible apply setCfg_keeps)

theorem setStageOp_keeps {u s : State} {a : Bool} (h : Keeps u s) : Keeps u (setStageOp a s) := by
  unfold setStageOp
  repeat' first
    | (with_reducible exact h) | (with_reducible apply Keeps.ite)
    | (with_reducible apply Keeps.frame ?_ (updateSens_within (Within.refl _ _) (all_contains_self _)) (by decide))
    | (with_reducible apply Keeps.frame ?_ (zeroGrants_within (Within.refl _ _) (all_contains_self _)) (by decide))
    | ((with_reducible apply Keeps.literal); case same => simp only [stored, roles])

theorem writeAccSvc_keeps {u s : State} {a : Bool} (h : Keeps u s) : Keeps u (writeAccSvc a s) := by
  unfold writeAccSvc
  repeat' first
    | (with_reducible exact h) | (with_reducible apply Keeps.ite)
    | (with_reducible apply Keeps.frame ?_ (raiseReg_within (Within.refl _ _) (all_contains_self _)) (by decide))
    | (with_reducible apply setStageOp_keeps)

theorem writeAgain_keeps {u s : State} {a : Nat} {b : Word} (h : Keeps u s) : Keeps u (writeAgain a b s) := by
  unfold writeAgain
  repeat' first
    | (with_reducible exact h) | ((with_reducible apply Keeps.literal); case same => simp only [stored, roles])

theorem serve_keeps {u s : State} {a : Nat} {b : Word} (h : Keeps u s) : Keeps u (serve a b s) := by
  unfold serve
  repeat' first
    | (with_reducible exact h) | (with_reducible apply Keeps.ite) | (with_reducible refine modWdt_keeps ?_ (fun _ => rfl))

theorem writeCount_keeps {u s : State} {a : CalField} {b : Word} (h : Keeps u s) : Keeps u (writeCount a b s) := by
  unfold writeCount
  repeat' first
    | (with_reducible exact h) | (with_reducible apply Keeps.ite) | (with_reducible refine modRtc_keeps ?_ (fun _ => rfl) (fun _ => rfl))
    | (with_reducible apply rtcWerr_keeps)

theorem eoi_keeps {u s : State} {t : Nat} {v : Word} (h : Keeps u s) : Keeps u (eoi t v s) := by
  have fault (n : Nat) (i : Intc) (stk : i.stk = s.intc.stk) :
      Keeps u (raiseA .fabric Cause.intcOrderFault 0xFF n { s with intc := i }) :=
    (h.set_intc stk).frame (raiseA_within (Within.refl _ _) (all_contains_self _)) (by decide)
  unfold eoi
  dsimp only
  split
  next i q rest top =>
    refine Keeps.ite (stack_keeps h rfl fun rise inside => ?_) (fault _ _ rfl)
    obtain ⟨fall, below⟩ := rise _ (stackOf_mem inside)
    rw [top] at fall below
    exact ⟨(List.pairwise_cons.mp fall).2, (List.forall_mem_cons.mp below).2⟩
  next => exact fault _ _ rfl

/-- A word of backup RAM is written in its place. -/
theorem writeBram_keeps {u s : State} {i : Nat} {v : Word} (inside : i < 16) (h : Keeps u s) : Keeps u (writeBram i v s) := by
  refine h.trans fun f holds => ?_
  cases f with
  | lengths =>
    rw [Form.Holds, lengths_iff] at holds ⊢
    obtain ⟨roles, stk, slots, fuse, bram, bcrc, wide⟩ := holds
    simp only [stored] at bram bcrc
    refine ⟨roles, stk, slots, fuse, ?_, ?_, wide⟩
    · simp only [stored, writeBram, modRtc, List.length_append, List.length_take, List.length_drop, length_leBytes]
      omega
    · simpa [stored, writeBram, modRtc, lset] using bcrc
  | regs | memory | captures | claims | controller => exact holds

theorem winWrite_leaves {u s : State} {p : Path} {a : Nat} {v : Word} (h : Keeps u s) :
    Keeps u (match winWrite p a v s with | (some c, t) => raise .fabric c 0xFF t | (none, t) => t) := by
  have written : Keeps u (winWrite p a v s).2 := winWrite_keeps h
  split
  next eq =>
    rw [eq] at written
    exact written.frame (raise_within (Within.refl _ _) (all_contains_self _)) (by decide)
  next eq => rwa [eq] at written

/-- A register write, by the register it hits. -/
theorem writeHit_keeps {u s : State} {p : Path} {a : Nat} {g : RegHit} {v : Word} (bram : g.row.id = .rtcBram → g.idx < 16) (h : Keeps u s) :
    Keeps u (writeHit p a g v s) := by
  have free {l : List Part} {t : State} (w : Within l s t) (d : l.all Part.apart = true) : Keeps u t := h.frame w d
  unfold writeHit
  dsimp only
  split
  · exact writeCfg_keeps h
  · exact (free (modFab_within (Within.refl _ _) (all_contains_self _)) (by decide)).ite
      (free (lockedOut_within (Within.refl _ _) (all_contains_self _)) (by decide))
  · exact writeSeqCmd_keeps h
  · exact free (modTb_within (Within.refl _ _) (all_contains_self _)) (by decide)
  · exact (free (commitMask_within (Within.refl _ _) (all_contains_self _)) (by decide)).ite
      (free (holdMask_within (Within.refl _ _) (all_contains_self _)) (by decide))
  · exact free (writeGctrl_within (Within.refl _ _) (all_contains_self _)) (by decide)
  · exact writeCount_keeps h
  · exact writeCount_keeps h
  · exact writeCount_keeps h
  · exact writeCount_keeps h
  · exact writeCount_keeps h
  · exact writeCount_keeps h
  · exact writeRtcCtrl_keeps h
  · exact writeRtcStat_keeps h
  · exact writeRtcTrim_keeps h
  · exact writeRtcPwake_keeps h
  next id => exact writeBram_keeps (bram id) h
  · exact writeWdtCtrl_keeps h
  · exact modWdt_keeps h fun _ => rfl
  · exact writeWdtCfg_keeps h
  · exact serve_keeps h
  · exact setCfg_keeps h _ _
  · exact eoi_keeps h
  · exact writeIntcSrc_keeps h
  · exact writeAgain_keeps h
  · exact free (swset_within (Within.refl _ _) (all_contains_self _)) (by decide)
  · exact free (sigrefWrite_within (Within.refl _ _) (all_contains_self _)) (by decide)
  · exact free (writeSafetySet_within (Within.refl _ _) (all_contains_self _)) (by decide)
  · exact free (writeSafCmd_within (Within.refl _ _) (all_contains_self _)) (by decide)
  · exact free (modSaf_within (Within.refl _ _) (all_contains_self _)) (by decide)
  · exact writeRingCtrl_keeps h
  · exact writeSqz_keeps h
  · exact writeSqz_keeps h
  · exact free (writeXctl_within (Within.refl _ _) (all_contains_self _)) (by decide)
  · exact free (Within.set_twi (Within.refl [.twi] _) (by decide)) (by decide)
  · exact writeNvmCmd_keeps h
  · exact modShad_keeps h fun _ wf => wf
  · exact writeAccSvc_keeps h
  · exact fuseCmd_keeps h
  · exact modAcc_keeps h fun _ => rfl
  · exact free (writeLdrCmd_within (Within.refl _ _) (all_contains_self _)) (by decide)
  · exact free (modPh_within (Within.refl _ _) (all_contains_self _)) (by decide)
  · exact free (writeChCmd_within (Within.refl _ _) (all_contains_self _)) (by decide)
  · exact free (writeRcpArm_within (Within.refl _ _) (all_contains_self _)) (by decide)
  · exact writeFeCal_keeps h
  · exact free (modFe_within (Within.refl _ _) (all_contains_self _)) (by decide)
  · exact writeEstCmd_keeps h
  · exact writeRcpSel_keeps h
  · exact winWrite_leaves h
  · exact h

theorem writeWord_keeps {u s : State} {p : Path} {a : Nat} {v : Word} (h : Keeps u s) : Keeps u (writeWord p a v s) := by
  unfold writeWord
  split
  · exact h
  next g found =>
    have go : Keeps u (if slotReg a && !populated s g.inst then raiseA .fabric Cause.chAbsent g.inst a s else writeHit p a g v s) :=
      (h.frame (raiseA_within (Within.refl _ _) (all_contains_self _)) (by decide)).ite (writeHit_keeps (rtcBram_idx_lt found) h)
    exact h.ite (go.ite (regGate_keeps h go))

theorem writeReg_keeps {u s : State} {a : Path} {b : Nat} {c : Word} (h : Keeps u s) : Keeps u (writeReg a b c s).2 := by
  unfold writeReg
  repeat' first
    | (with_reducible exact h) | (with_reducible apply writeWord_keeps)

theorem twiPut_keeps {u s : State} {a : Word} (h : Keeps u s) : Keeps u (twiPut s a) := by
  unfold twiPut
  repeat' first
    | (with_reducible exact h) | (with_reducible apply Keeps.frame ?_ (modTwi_within (Within.refl _ _) (all_contains_self _)) (by decide))
    | (with_reducible apply writeReg_keeps)

theorem twiData_keeps {u s : State} {a : List Byte} {b : List Byte} {c : TwiBusy} (h : Keeps u s) : Keeps u (twiData a b c s) := by
  unfold twiData
  repeat' first
    | (with_reducible exact h) | (with_reducible exact Keeps.refl _) | (with_reducible apply Keeps.ite)
    | (with_reducible apply Keeps.frame ?_ (raise_within (Within.refl _ _) (all_contains_self _)) (by decide))
    | (with_reducible apply Keeps.frame ?_ (twiAnswer_within (Within.refl _ _) (all_contains_self _)) (by decide))
    | (with_reducible apply Keeps.frame ?_ (twiBusyNack_within (Within.refl _ _) (all_contains_self _)) (by decide))
    | (with_reducible apply twiPut_keeps) | (with_reducible refine Keeps.foldl (fun _ _ => ?_) ?_) | split

theorem orderlyStore_keeps {u s : State} (h : Keeps u s) : Keeps u (orderlyStore s) := by
  unfold orderlyStore
  repeat' first
    | (with_reducible exact h) | (with_reducible exact Keeps.refl _) | (with_reducible apply nvmNext_keeps)
    | ((with_reducible apply Keeps.literal); case same => simp only [stored, roles])

theorem enterService_keeps {u s : State} (h : Keeps u s) : Keeps u (enterService s) := by
  unfold enterService
  repeat' first
    | (with_reducible exact h)
    | (with_reducible apply Keeps.frame ?_ (abortAll_within (Within.refl _ _) (all_contains_self _)) (by decide))
    | (with_reducible refine modAcc_keeps ?_ (fun _ => rfl))
    | (with_reducible apply Keeps.frame ?_ (raise_within (Within.refl _ _) (all_contains_self _)) (by decide))
    | (with_reducible apply Keeps.frame ?_ (updateSens_within (Within.refl _ _) (all_contains_self _)) (by decide))
    | ((with_reducible apply Keeps.literal); case same => simp only [stored, roles])

theorem linkRest_keeps {u s : State} (h : Keeps u s) : Keeps u (linkRest s) := by
  unfold linkRest
  repeat' first
    | (with_reducible exact h) | (with_reducible exact Keeps.refl _) | (with_reducible apply Keeps.ite)
    | (with_reducible apply closeSession_keeps) | (with_reducible apply portDown_keeps)
    | (with_reducible refine Keeps.forEach (fun _ _ => ?_) ?_)

theorem enterRest_keeps {u s : State} (h : Keeps u s) : Keeps u (enterRest s) := by
  unfold enterRest
  repeat' first
    | (with_reducible exact h) | (with_reducible exact Keeps.refl _)
    | (with_reducible apply Keeps.frame ?_ (abortEchoes_within (Within.refl _ _) (all_contains_self _)) (by decide))
    | (with_reducible apply Keeps.frame ?_ (estChanged_within (Within.refl _ _) (all_contains_self _)) (by decide))
    | (with_reducible apply linkRest_keeps)
    | (with_reducible apply Keeps.frame ?_ (stopStreams_within (Within.refl _ _) (all_contains_self _)) (by decide))
    | (with_reducible apply Keeps.frame ?_ (updateSens_within (Within.refl _ _) (all_contains_self _)) (by decide))
    | (with_reducible refine Keeps.forEach (fun _ _ => ?_) ?_)
    | ((with_reducible apply Keeps.literal); case same => simp only [stored, roles])

theorem hwStartSlot_keeps {u s : State} (h : Keeps u s) : Keeps u (hwStartSlot s) := by
  unfold hwStartSlot
  repeat' first
    | (with_reducible exact h) | (with_reducible apply Keeps.ite) | (with_reducible apply modSlot_keeps)
    | (with_reducible apply setCfg_keeps)

theorem reportBackup_keeps {u s : State} (h : Keeps u s) : Keeps u (reportBackup s) := by
  unfold reportBackup
  repeat' first
    | (with_reducible exact h) | (with_reducible apply Keeps.ite) | (with_reducible apply checkBram_keeps)
    | (with_reducible apply Keeps.frame ?_ (raise_within (Within.refl _ _) (all_contains_self _)) (by decide))

theorem keepSessions_keeps {u s : State} (h : Keeps u s) : Keeps u (keepSessions s) := by
  unfold keepSessions
  refine modLink_keeps ?_ fun l => by simp [roles, Function.comp_def]
  refine Keeps.ite h ?_
  refine takeAddress_keeps (modLink_keeps ?_ fun _ => rfl)
  exact Keeps.forEach (fun _ t => closeSession_keeps (Keeps.refl t)) h

theorem endLoad_keeps {u s : State} {a : List Byte} {b : List Nat} (h : Keeps u s) : Keeps u (endLoad a b s) := by
  unfold endLoad
  repeat' first
    | (with_reducible exact h) | (with_reducible exact Keeps.refl _) | (with_reducible apply Keeps.ite)
    | (with_reducible apply hwStartSlot_keeps) | (with_reducible apply keepSessions_keeps)
    | (with_reducible apply Keeps.frame ?_ (modLdr_within (Within.refl _ _) (all_contains_self _)) (by decide))
    | (with_reducible apply Keeps.frame ?_ (modSaf_within (Within.refl _ _) (all_contains_self _)) (by decide))
    | (with_reducible apply Keeps.frame ?_ (raiseA_within (Within.refl _ _) (all_contains_self _)) (by decide))
    | (with_reducible apply reportBackup_keeps)
    | (with_reducible apply Keeps.frame ?_ (startCh_within (Within.refl _ _) (all_contains_self _)) (by decide))
    | (with_reducible apply Keeps.frame ?_ (startEst_within (Within.refl _ _) (all_contains_self _)) (by decide))
    | (with_reducible apply Keeps.frame ?_ (startFe_within (Within.refl _ _) (all_contains_self _)) (by decide))
    | (with_reducible apply Keeps.frame ?_ (startGal_within (Within.refl _ _) (all_contains_self _)) (by decide))
    | (with_reducible apply Keeps.frame ?_ (updateSens_within (Within.refl _ _) (all_contains_self _)) (by decide))
    | (with_reducible apply Keeps.frame ?_ (updateSil_within (Within.refl _ _) (all_contains_self _)) (by decide))
    | (with_reducible apply updateWcr_keeps) | (with_reducible refine Keeps.forEach (fun _ _ => ?_) ?_)
    | ((with_reducible apply Keeps.literal); case same => simp only [stored, roles])

theorem sendPtp_keeps {u s : State} {a : Nat} {b : Nat} {c : Nat} {d : Int} {e : Int} (h : Keeps u s) : Keeps u (sendPtp a b c d e s) := by
  unfold sendPtp
  repeat' first
    | (with_reducible exact h) | (with_reducible apply Keeps.ite) | (with_reducible apply txFrame_keeps)

theorem answerPdelay_keeps {u s : State} {a : PtpMsg} {b : Int} (h : Keeps u s) : Keeps u (answerPdelay a b s) := by
  unfold answerPdelay
  repeat' first
    | (with_reducible exact h) | (with_reducible apply Keeps.ite) | (with_reducible apply sendPtp_keeps)

theorem forwardFrame_keeps {u s : State} {a : Nat} {b : Sys2Proof.Frame} (h : Keeps u s) : Keeps u (forwardFrame a b s) := by
  unfold forwardFrame
  repeat' first
    | (with_reducible exact h) | (with_reducible apply Keeps.ite) | (with_reducible apply modPort_keeps)
    | (with_reducible apply txFrame_keeps)

theorem ingressFrame_keeps {u s : State} {a : Nat} {b : Sys2Proof.Frame} (h : Keeps u s) : Keeps u (ingressFrame a b s) := by
  unfold ingressFrame
  repeat' first
    | (with_reducible exact h) | (with_reducible apply Keeps.ite) | (with_reducible apply forwardFrame_keeps)
    | (with_reducible apply modPort_keeps)

theorem txTick_keeps {u s : State} (h : Keeps u s) : Keeps u (txTick s) := by
  unfold txTick
  repeat' first
    | (with_reducible exact h) | (with_reducible apply modPort_keeps)

theorem gradeHold_keeps {u s : State} {a : Nat} {b : Nat} (h : Keeps u s) : Keeps u (gradeHold a b s) := by
  unfold gradeHold
  repeat' first
    | (with_reducible exact h) | (with_reducible apply Keeps.ite) | (with_reducible apply sendResult_keeps)

theorem quitRcp_keeps {u s : State} {a : Nat} {b : Nat} (h : Keeps u s) : Keeps u (quitRcp a b s) := by
  unfold quitRcp
  repeat' first
    | (with_reducible exact h) | (with_reducible apply Keeps.ite)
    | (with_reducible apply Keeps.frame ?_ (closeStep_within (Within.refl _ _) (all_contains_self _)) (by decide))
    | (with_reducible apply Keeps.frame ?_ (drainCh_within (Within.refl _ _) (all_contains_self _)) (by decide))
    | (with_reducible apply gradeHold_keeps)
    | (with_reducible apply Keeps.frame ?_ (modCh_within (Within.refl _ _) (all_contains_self _)) (by decide))
    | (with_reducible apply Keeps.frame ?_ (raise_within (Within.refl _ _) (all_contains_self _)) (by decide))

theorem completeRcp_keeps {u s : State} {a : Nat} (h : Keeps u s) : Keeps u (completeRcp a s) := by
  unfold completeRcp
  repeat' first
    | (with_reducible exact h) | (with_reducible apply Keeps.ite)
    | (with_reducible apply Keeps.frame ?_ (estChanged_within (Within.refl _ _) (all_contains_self _)) (by decide))
    | (with_reducible apply grade_keeps)
    | (with_reducible apply Keeps.frame ?_ (modCh_within (Within.refl _ _) (all_contains_self _)) (by decide))

theorem goOn_keeps {u s : State} {a : Nat} {b : RcpNext} {c : EngAct} (h : Keeps u s) : Keeps u (goOn a b c s) := by
  unfold goOn
  repeat' first
    | (with_reducible exact h) | (with_reducible apply completeRcp_keeps)
    | (with_reducible apply Keeps.frame ?_ (drainCh_within (Within.refl _ _) (all_contains_self _)) (by decide))
    | (with_reducible apply Keeps.frame ?_ (enterHold_within (Within.refl _ _) (all_contains_self _)) (by decide))
    | (with_reducible apply Keeps.frame ?_ (enterStep_within (Within.refl _ _) (all_contains_self _)) (by decide))
    | (with_reducible apply Keeps.frame ?_ (modCh_within (Within.refl _ _) (all_contains_self _)) (by decide))
    | (with_reducible apply Keeps.frame ?_ (raise_within (Within.refl _ _) (all_contains_self _)) (by decide)) | split

theorem actEng_keeps {u s : State} {a : Nat} {b : EngAct} (h : Keeps u s) : Keeps u (actEng a b s) := by
  unfold actEng
  repeat' first
    | (with_reducible exact h)
    | (with_reducible apply Keeps.frame ?_ (endStep_within (Within.refl _ _) (all_contains_self _)) (by decide))
    | (with_reducible apply Keeps.frame ?_ (engFault_within (Within.refl _ _) (all_contains_self _)) (by decide))
    | (with_reducible apply goOn_keeps)
    | (with_reducible apply Keeps.frame ?_ (keepEdge_within (Within.refl _ _) (all_contains_self _)) (by decide))
    | (with_reducible apply Keeps.frame ?_ (markLaunch_within (Within.refl _ _) (all_contains_self _)) (by decide))
    | (with_reducible apply Keeps.frame ?_ (modCh_within (Within.refl _ _) (all_contains_self _)) (by decide))
    | (with_reducible apply quitRcp_keeps)
    | (with_reducible apply Keeps.frame ?_ (restartCh_within (Within.refl _ _) (all_contains_self _)) (by decide))
    | (with_reducible apply Keeps.frame ?_ (setRange_within (Within.refl _ _) (all_contains_self _)) (by decide))
    | (with_reducible apply Keeps.frame ?_ (stopReg_within (Within.refl _ _) (all_contains_self _)) (by decide)) | split

theorem hostReset_keeps {u s : State} (h : Keeps u s) : Keeps u (hostReset s) :=
  h.frame (hostReset_within (Within.refl _ _) (all_contains_self _)) (by decide)

theorem wdtAct_keeps {u s : State} {a : Nat} (h : Keeps u s) : Keeps u (wdtAct a s) := by
  unfold wdtAct
  have reset : Keeps u (if wdtHostRst s a then hostReset s else s) := (hostReset_keeps h).ite h
  exact Keeps.ite (modWdt_keeps reset fun _ => rfl) reset

theorem wdtStrike_keeps {u s : State} {a : Nat} {b : Nat} (h : Keeps u s) : Keeps u (wdtStrike a b s) := by
  unfold wdtStrike
  repeat' first
    | (with_reducible exact h) | (with_reducible apply modSlot_keeps) | (with_reducible refine modWdt_keeps ?_ (fun _ => rfl))
    | (with_reducible apply Keeps.frame ?_ (raiseA_within (Within.refl _ _) (all_contains_self _)) (by decide))
    | (with_reducible apply wdtAct_keeps)

theorem oscCount_keeps {u s : State} (h : Keeps u s) : Keeps u (oscCount s) := by
  have lens (r : Rtc) : (pwCount r).bram.length = r.bram.length ∧ (pwCount r).bcrc.length = r.bcrc.length ∧
      (calCount r).bram.length = r.bram.length ∧ (calCount r).bcrc.length = r.bcrc.length := by
    refine ⟨?_, ?_, ?_, ?_⟩ <;> simp only [pwCount, calCount] <;> repeat' split
    all_goals rfl
  have wake : Keeps u (modRtc (fun r => if rtcPwakeEn s && decide (0 < rtcN s) then pwCount r else r) s) :=
    modRtc_keeps h (fun r => by split <;> simp [lens r]) (fun r => by split <;> simp [lens r])
  have count := (wake.ite (c := (rtcHalt s || calLast s.rtc.cal) = true)
    (modRtc_keeps wake (fun r => (lens r).2.2.1) fun r => (lens r).2.2.2))
  unfold oscCount
  dsimp only
  refine shadow_keeps count (by simp) fun all x mem => ?_
  obtain ⟨y, hy, rfl⟩ := List.mem_map.mp mem
  split <;> exact all y hy

theorem beginDown_keeps {u s : State} (h : Keeps u s) : Keeps u (beginDown s) := by
  unfold beginDown
  repeat' first
    | (with_reducible exact h) | (with_reducible exact Keeps.refl _) | (with_reducible apply downBelow_keeps)
    | (with_reducible apply Keeps.frame ?_ (midPhase_within (Within.refl _ _) (all_contains_self _)) (by decide))
    | (with_reducible apply Keeps.frame ?_ (modGal_within (Within.refl _ _) (all_contains_self _)) (by decide))
    | (with_reducible apply Keeps.frame ?_ (modSeq_within (Within.refl _ _) (all_contains_self _)) (by decide))
    | (with_reducible refine Keeps.forEach (fun _ _ => ?_) ?_)

theorem flushUnit_keeps {u s : State} {a : Nat} (h : Keeps u s) : Keeps u (flushUnit a s) := by
  unfold flushUnit
  repeat' first
    | (with_reducible exact h) | (with_reducible exact Keeps.refl _)
    | (with_reducible apply Keeps.frame ?_ (flushCore_within (Within.refl _ _) (all_contains_self _)) (by decide))
    | (with_reducible apply Keeps.frame ?_ (modCh_within (Within.refl _ _) (all_contains_self _)) (by decide))
    | (with_reducible apply Keeps.frame ?_ (modGal_within (Within.refl _ _) (all_contains_self _)) (by decide))
    | (with_reducible apply nvmTear_keeps) | (with_reducible refine Keeps.forEach (fun _ _ => ?_) ?_) | split
    | ((with_reducible apply Keeps.literal); case same => simp only [stored, roles])

theorem updateSeg_keeps {u s : State} (h : Keeps u s) : Keeps u (updateSeg s) := by
  unfold updateSeg
  repeat' first
    | (with_reducible exact h) | (with_reducible apply Keeps.ite) | (with_reducible refine modLink_keeps ?_ (fun _ => rfl))
    | (with_reducible apply Keeps.frame ?_ (raise_within (Within.refl _ _) (all_contains_self _)) (by decide))

theorem byeAct_keeps {u s : State} {ep : Endpoint} {m : List Byte} (h : Keeps u s) : Keeps u (byeAct ep m s) := by
  have request : Keeps u (pzRequest ep m false emptyForm .observer (fun _ _ _ u => .ok [] u) s) :=
    pzRequest_keeps (fun _ _ _ _ => Keeps.refl _) h
  unfold byeAct
  generalize pzRequest ep m false emptyForm .observer (fun _ _ _ u => .ok [] u) s = t at request
  dsimp only
  repeat' first
    | exact request | exact closeSession_keeps request | split

theorem applyCal_keeps {u s : State} {a : List Byte} (h : Keeps u s) : Keeps u (applyCal a s) := by
  unfold applyCal
  repeat' first
    | (with_reducible exact h) | (with_reducible exact Keeps.refl _) | (with_reducible apply setCfg_keeps)
    | (with_reducible refine Keeps.foldl (fun _ _ => ?_) ?_)

theorem applyWord_keeps {u s : State} {a : Nat} {b : Nat} (h : Keeps u s) : Keeps u (applyWord a b s) := by
  unfold applyWord
  repeat' first
    | (with_reducible exact h) | (with_reducible apply Keeps.ite) | (with_reducible apply modSlot_keeps)
    | (with_reducible refine modWdt_keeps ?_ (fun _ => rfl)) | (with_reducible apply setCfg_keeps)
    | (with_reducible apply writeIntcSrc_keeps) | (with_reducible apply writeRtcCtrl_keeps) | (with_reducible apply writeRtcPwake_keeps)

theorem applyAbsent_keeps {u s : State} {a : Img} {b : Nat} (h : Keeps u s) : Keeps u (applyAbsent a b s) := by
  unfold applyAbsent
  repeat' first
    | (with_reducible exact h) | (with_reducible exact Keeps.refl _) | (with_reducible apply Keeps.ite)
    | (with_reducible apply applyWord_keeps) | (with_reducible refine Keeps.foldl (fun _ _ => ?_) ?_)

theorem applyCh_keeps {u s : State} {a : Img} {b : Nat} {c : Nat} (h : Keeps u s) : Keeps u (applyCh a b c s) := by
  unfold applyCh
  repeat' first
    | (with_reducible exact h) | (with_reducible apply Keeps.ite) | (with_reducible apply applyWord_keeps)
    | (with_reducible apply setCfg_keeps)

theorem applySect_keeps {u s : State} {a : Img} {b : Sect} (h : Keeps u s) : Keeps u (applySect a b s) := by
  unfold applySect
  repeat' first
    | (with_reducible exact h) | (with_reducible exact Keeps.refl _) | (with_reducible apply Keeps.ite)
    | (with_reducible apply applyCh_keeps) | (with_reducible apply applyWord_keeps)
    | (with_reducible apply Keeps.frame ?_ (modGrp_within (Within.refl _ _) (all_contains_self _)) (by decide))
    | (with_reducible refine Keeps.forEach (fun _ _ => ?_) ?_) | (with_reducible refine Keeps.foldl (fun _ _ => ?_) ?_)

theorem applyTypes_keeps {u s : State} {a : Img} (h : Keeps u s) : Keeps u (applyTypes a s) := by
  unfold applyTypes
  repeat' first
    | (with_reducible exact h) | (with_reducible exact Keeps.refl _) | (with_reducible apply applyAbsent_keeps)
    | (with_reducible apply applySect_keeps) | (with_reducible refine Keeps.foldl (fun _ _ => ?_) ?_) | split

theorem chooseCal_keeps {u s : State} {a : Img} (h : Keeps u s) : Keeps u (chooseCal a s) := by
  unfold chooseCal
  repeat' first
    | (with_reducible exact h) | (with_reducible exact Keeps.refl _) | (with_reducible apply Keeps.ite)
    | (with_reducible apply applyCal_keeps)
    | (with_reducible apply Keeps.frame ?_ (modFe_within (Within.refl _ _) (all_contains_self _)) (by decide))
    | (with_reducible apply Keeps.frame ?_ (raise_within (Within.refl _ _) (all_contains_self _)) (by decide))
    | (with_reducible apply Keeps.frame ?_ (raiseSrc_within (Within.refl _ _) (all_contains_self _)) (by decide))
    | (with_reducible apply setCfg_keeps) | (with_reducible refine Keeps.forEach (fun _ _ => ?_) ?_)
    | (with_reducible refine Keeps.foldl (fun _ _ => ?_) ?_) | split

theorem applyImage_keeps {u s : State} {a : List Byte} (h : Keeps u s) : Keeps u (applyImage a s) := by
  unfold applyImage
  repeat' first
    | (with_reducible exact h) | (with_reducible apply Keeps.ite)
    | (with_reducible apply Keeps.frame ?_ (applyMemory_within (Within.refl _ _) (all_contains_self _)) (by decide))
    | (with_reducible apply applyTypes_keeps) | (with_reducible apply chooseCal_keeps)
    | (with_reducible apply Keeps.frame ?_ (inhUpdate_within (Within.refl _ _) (all_contains_self _)) (by decide))
    | (with_reducible apply Keeps.frame ?_ (modLdr_within (Within.refl _ _) (all_contains_self _)) (by decide))
    | (with_reducible apply Keeps.frame ?_ (modSaf_within (Within.refl _ _) (all_contains_self _)) (by decide))
    | (with_reducible apply Keeps.frame ?_ (modTb_within (Within.refl _ _) (all_contains_self _)) (by decide))
    | (with_reducible apply Keeps.frame ?_ (raise_within (Within.refl _ _) (all_contains_self _)) (by decide))
    | (with_reducible apply Keeps.frame ?_ (seedLine_within (Within.refl _ _) (all_contains_self _)) (by decide))
    | (with_reducible apply takeAddress_keeps) | (with_reducible apply updateWcr_keeps)

theorem nvmLock_keeps {u s : State} (h : Keeps u s) : Keeps u (nvmLock s) := by
  unfold nvmLock
  repeat' first
    | (with_reducible exact h) | (with_reducible exact Keeps.refl _)
    | (with_reducible apply Keeps.frame ?_ (dropHeld_within (Within.refl _ _) (all_contains_self _)) (by decide))
    | (with_reducible apply Keeps.frame ?_ (dropReq_within (Within.refl _ _) (all_contains_self _)) (by decide))
    | (with_reducible apply nvmNext_keeps) | (with_reducible refine Keeps.forEach (fun _ _ => ?_) ?_)
    | (with_reducible refine Keeps.foldl (fun _ _ => ?_) ?_)
    | ((with_reducible apply Keeps.literal); case same => simp only [stored, roles])

theorem ackAct_keeps {u s : State} {a : Endpoint} {b : List Byte} (h : Keeps u s) : Keeps u (ackAct a b s) := by
  unfold ackAct
  repeat' first
    | (with_reducible exact h) | (with_reducible apply Keeps.ite)
    | (with_reducible apply Keeps.frame ?_ (ackRing_within (Within.refl _ _) (all_contains_self _)) (by decide))
    | (with_reducible refine modLink_keeps ?_ (fun _ => rfl)) | (with_reducible refine modSess_keeps ?_ (fun _ => rfl))
    | (with_reducible apply pzDiscard_keeps)
    | (with_reducible apply Keeps.frame ?_ (pzRaise_within (Within.refl _ _) (all_contains_self _)) (by decide))
    | (with_reducible apply pzSend_keeps) | split

theorem dieShut_keeps {u s : State} {a : Nat} (h : Keeps u s) : Keeps u (dieShut a s) := by
  unfold dieShut
  repeat' first
    | (with_reducible exact h) | (with_reducible apply Keeps.ite) | (with_reducible apply decideDev_keeps)
    | (with_reducible apply Keeps.frame ?_ (decideGal_within (Within.refl _ _) (all_contains_self _)) (by decide))

theorem dieTake_keeps {u s : State} {i : Nat} {x : Int} (h : Keeps u s) : Keeps u (dieTake i x s) := by
  have raise {c : Prop} [Decidable c] {cause : Nat} {t : State} (k : Keeps u t) : Keeps u (if c then raiseDie cause i t else t) :=
    (k.frame (raiseDie_within (Within.refl _ _) (all_contains_self _)) (by decide)).ite k
  have thm {c : Prop} [Decidable c] {v : State → Thm} {t : State} (k : Keeps u t) : Keeps u (if c then { t with thm := v t } else t) :=
    (k.frame (Within.set_thm (Within.refl [.thm] _) (by decide)) (by decide)).ite k
  have saf {c : Prop} [Decidable c] {v : State → Island} {t : State} (k : Keeps u t) : Keeps u (if c then { t with saf := v t } else t) :=
    (k.frame (Within.set_saf (Within.refl [.saf] _) (by decide)) (by decide)).ite k
  have shut {c : Prop} [Decidable c] {t : State} (k : Keeps u t) : Keeps u (if c then dieShut i t else t) := (dieShut_keeps k).ite k
  unfold dieTake
  exact shut (saf (v := fun t => { t.saf with devBadTk := _ }) (thm (v := fun t => { t.thm with nDer := _ }) (raise (raise (raise
    (h.frame (modDie_within (Within.refl _ _) (all_contains_self _)) (by decide)))))))

theorem twiGet_keeps {u s : State} (h : Keeps u s) : Keeps u (twiGet s).2 := by
  unfold twiGet
  repeat' first
    | (with_reducible exact h) | (with_reducible apply Keeps.frame ?_ (modTwi_within (Within.refl _ _) (all_contains_self _)) (by decide))
    | (with_reducible apply readReg_keeps) | split

theorem twiGetAll_keeps {u s : State} {n : Nat} (h : Keeps u s) : Keeps u (twiGetAll n s).2 := by
  induction n generalizing s with
  | zero => exact h
  | succ n ih => exact ih (twiGet_keeps h)

theorem twiRead_keeps {u s : State} {a : Nat} {b : TwiBusy} (h : Keeps u s) : Keeps u (twiRead a b s) := by
  unfold twiRead
  repeat' first
    | (with_reducible exact h) | (with_reducible apply Keeps.ite)
    | (with_reducible apply Keeps.frame ?_ (modTwi_within (Within.refl _ _) (all_contains_self _)) (by decide))
    | (with_reducible apply readReg_keeps)
    | (with_reducible apply Keeps.frame ?_ (twiAnswer_within (Within.refl _ _) (all_contains_self _)) (by decide))
    | (with_reducible apply Keeps.frame ?_ (twiBusyNack_within (Within.refl _ _) (all_contains_self _)) (by decide))
    | (with_reducible apply twiGetAll_keeps)

theorem readCmd_keeps {u s : State} {a : Path} {b : Nat} {c : Word} (h : Keeps u s) : Keeps u (readCmd a b c s) := by
  unfold readCmd
  repeat' first
    | (with_reducible exact h) | (with_reducible apply Keeps.ite)
    | (with_reducible apply Keeps.frame ?_ (emit_within (Within.refl _ _) (all_contains_self _)) (by decide))
    | (with_reducible apply readRacing_keeps)

theorem tickEnd_keeps {u s : State} (h : Keeps u s) : Keeps u (tickEnd s) := by
  unfold tickEnd
  have gals : Keeps u (forEach (upto 8) (modGal · fun g => { g with engCommit := none }) s) :=
    Keeps.forEach (fun _ t => (Keeps.refl t).frame (modGal_within (Within.refl _ _) (all_contains_self _)) (by decide)) h
  exact gals.literal (by simp only [stored, roles])

theorem noImage_keeps {u s : State} (h : Keeps u s) : Keeps u (noImage s) := by
  unfold noImage
  repeat' first
    | (with_reducible exact h) | (with_reducible apply Keeps.frame ?_ (modLdr_within (Within.refl _ _) (all_contains_self _)) (by decide))
    | (with_reducible refine modLink_keeps ?_ (fun _ => rfl))
    | (with_reducible apply Keeps.frame ?_ (raise_within (Within.refl _ _) (all_contains_self _)) (by decide))

theorem slotFails_keeps {u s : State} {a : Nat} {b : Nat} {c : Nat} (h : Keeps u s) : Keeps u (slotFails a b c s) := by
  unfold slotFails
  repeat' first
    | (with_reducible exact h) | (with_reducible apply Keeps.frame ?_ (emit_within (Within.refl _ _) (all_contains_self _)) (by decide))
    | (with_reducible apply Keeps.frame ?_ (modLdr_within (Within.refl _ _) (all_contains_self _)) (by decide))
    | (with_reducible apply noImage_keeps)
    | (with_reducible apply Keeps.frame ?_ (raiseSrc_within (Within.refl _ _) (all_contains_self _)) (by decide)) | split | dsimp only

theorem actStep_keeps {u s : State} {a : State} {b : Nat} {c : Option EngAct} (h : Keeps u s) : Keeps u (actStep a b c s) := by
  unfold actStep
  repeat' first
    | (with_reducible exact h) | (with_reducible apply actEng_keeps)
    | (with_reducible apply Keeps.frame ?_ (keepEdge_within (Within.refl _ _) (all_contains_self _)) (by decide))
    | (with_reducible apply Keeps.frame ?_ (keepRelease_within (Within.refl _ _) (all_contains_self _)) (by decide))
    | (with_reducible apply Keeps.frame ?_ (markReleases_within (Within.refl _ _) (all_contains_self _)) (by decide)) | split

theorem timedShutdown_keeps {u s : State} {a : DownGoal} {b : Nat} (h : Keeps u s) : Keeps u (timedShutdown a b s) := by
  unfold timedShutdown
  repeat' first
    | (with_reducible exact h) | (with_reducible apply Keeps.frame ?_ (modSeq_within (Within.refl _ _) (all_contains_self _)) (by decide))
    | (with_reducible apply nvmLock_keeps) | ((with_reducible apply Keeps.literal); case same => simp only [stored, roles])

theorem linkSecond_keeps {u s : State} (h : Keeps u s) : Keeps u (linkSecond s) := by
  unfold linkSecond
  repeat' first
    | (with_reducible exact h) | (with_reducible refine modLink_keeps ?_ (fun _ => rfl))

theorem stallTick_keeps {u s : State} (h : Keeps u s) : Keeps u (stallTick s) := by
  unfold stallTick
  repeat' first
    | (with_reducible exact h) | (with_reducible apply Keeps.ite) | (with_reducible apply decideDev_keeps)

/-- What befalls a channel at the tick changes the store's queue at most. -/
theorem fate_keeps {u s t : State} {k : Nat} {a : Option EngAct} (h : Keeps u s) (some : fate k a s = some t) : Keeps u t := by
  unfold fate at some
  dsimp only at some
  repeat' split at some
  all_goals try cases some
  · exact h.frame (toFault_within (Within.refl _ _) (all_contains_self _)) (by decide)
  · exact h.frame (safeEntry_within (Within.refl _ _) (all_contains_self _)) (by decide)
  · exact (h.frame (forceZero_within (Within.refl _ _) (all_contains_self _)) (by decide)).frame
      (drainCh_within (Within.refl _ _) (all_contains_self _)) (by decide)
  · exact h.frame (toLost_within (Within.refl _ _) (all_contains_self _)) (by decide)
  · exact actEng_keeps h

theorem strikeCh_keeps {u s pre : State} {k : Nat} (h : Keeps u s) : Keeps u (strikeCh pre k s) := by
  have counted : Keeps u (countCh k s) := h.frame (countCh_within (Within.refl _ _) (all_contains_self _)) (by decide)
  have ch (f : Channel → Channel) {t : State} (q : Keeps u t) : Keeps u (modCh k f t) :=
    q.frame (modCh_within (Within.refl _ _) (all_contains_self _)) (by decide)
  have stepped {a : Option EngAct} {t : State} (q : Keeps u t) : Keeps u (actStep pre k a (actPause k (actCmds k t))) := by
    refine actStep_keeps ?_
    apply Keeps.frame ?_ (actPause_within (Within.refl _ _) (all_contains_self _)) (by decide)
    exact q.frame (actCmds_within (Within.refl _ _) (all_contains_self _)) (by decide)
  unfold strikeCh
  apply Keeps.frame ?_ (estTick_within (Within.refl _ _) (all_contains_self _)) (by decide)
  apply Keeps.frame ?_ (qualTick_within (Within.refl _ _) (all_contains_self _)) (by decide)
  apply Keeps.frame ?_ (echoTick_within (Within.refl _ _) (all_contains_self _)) (by decide)
  apply Keeps.frame ?_ (takeDefRange_within (Within.refl _ _) (all_contains_self _)) (by decide)
  apply Keeps.frame ?_ (drainTick_within (Within.refl _ _) (all_contains_self _)) (by decide)
  apply Keeps.frame ?_ (tryDisc_within (Within.refl _ _) (all_contains_self _)) (by decide)
  refine ch _ ?_
  apply Keeps.frame ?_ (strikeDemand_within (Within.refl _ _) (all_contains_self _)) (by decide)
  apply Keeps.frame ?_ (refuseTimed_within (Within.refl _ _) (all_contains_self _)) (by decide)
  have fated : Keeps u (match fate k (if (engStruck pre k).isSome then ((countCh k s).getCh k).eng else none) (countCh k s) with
    | some t => keepRelease k (if (engStruck pre k).isSome then ((countCh k s).getCh k).eng else none) t
    | none => if engLate pre k then
        deferEng pre k (actStep pre k (if (engStruck pre k).isSome then ((countCh k s).getCh k).eng else none)
          (actPause k (actCmds k (modCh k (fun c => { c with fltNext := none }) (countCh k s)))))
        else actStep pre k (if (engStruck pre k).isSome then ((countCh k s).getCh k).eng else none)
          (actPause k (actCmds k (modCh k (fun c => { c with fltNext := none }) (countCh k s))))) := by
    split
    next t befalls => exact (fate_keeps counted befalls).frame (keepRelease_within (Within.refl _ _) (all_contains_self _)) (by decide)
    next =>
      have now := stepped (a := if (engStruck pre k).isSome then ((countCh k s).getCh k).eng else none)
        (ch (fun c => { c with fltNext := none }) counted)
      exact (now.frame (deferEng_within (Within.refl _ _) (all_contains_self _)) (by decide)).ite now
  exact fated.ite (ch _ fated)

theorem strike_keeps {u s : State} {a : Option Int} (h : Keeps u s) : Keeps u (strike a s) := by
  unfold strike
  repeat' first
    | (with_reducible exact h) | (with_reducible exact Keeps.refl _) | (with_reducible apply Keeps.ite)
    | (with_reducible apply Keeps.frame ?_ (advance_within (Within.refl _ _) (all_contains_self _)) (by decide))
    | (with_reducible apply Keeps.frame ?_ (allocTick_within (Within.refl _ _) (all_contains_self _)) (by decide))
    | (with_reducible apply Keeps.frame ?_ (drainStart_within (Within.refl _ _) (all_contains_self _)) (by decide))
    | (with_reducible apply Keeps.frame ?_ (estEdge_within (Within.refl _ _) (all_contains_self _)) (by decide))
    | (with_reducible apply Keeps.frame ?_ (flushWaiting_within (Within.refl _ _) (all_contains_self _)) (by decide))
    | (with_reducible apply Keeps.frame ?_ (fswTick_within (Within.refl _ _) (all_contains_self _)) (by decide))
    | (with_reducible apply Keeps.frame ?_ (judgeTick_within (Within.refl _ _) (all_contains_self _)) (by decide))
    | (with_reducible apply linkSecond_keeps)
    | (with_reducible apply Keeps.frame ?_ (reconnectTick_within (Within.refl _ _) (all_contains_self _)) (by decide))
    | (with_reducible apply Keeps.frame ?_ (rideTick_within (Within.refl _ _) (all_contains_self _)) (by decide))
    | (with_reducible apply stallTick_keeps) | (with_reducible apply strikeCh_keeps) | (with_reducible apply tickEnd_keeps)
    | (with_reducible apply txTick_keeps)
    | (with_reducible apply Keeps.frame ?_ (updateSafeN_within (Within.refl _ _) (all_contains_self _)) (by decide))
    | (with_reducible refine Keeps.forEach (fun _ _ => ?_) ?_)

theorem blockEnd_keeps {u s : State} {x : Update} {a : State → PzAns} (h : Keeps u s) (ha : Keeps u (a s).st) : Keeps u (blockEnd x a s) := by
  unfold blockEnd
  repeat' first
    | exact h | exact pzDone_keeps ha | split

theorem pagesFail_keeps {u s : State} {cause : Nat} (h : Keeps u s) : Keeps u (pagesFail cause s) := by
  unfold pagesFail
  split
  next x _ =>
    have ended : Keeps u (modLdr (fun l => { l with upd := some { x with pages := [], block := none } }) s) :=
      h.frame (modLdr_within (Within.refl _ _) (all_contains_self _)) (by decide)
    exact h.ite (blockEnd_keeps ended ended)
  · exact h

theorem twiFails_keeps {u s : State} {a : Nat} (h : Keeps u s) : Keeps u (twiFails a s) := by
  unfold twiFails
  repeat' first
    | (with_reducible exact h) | (with_reducible apply Keeps.ite)
    | (with_reducible apply Keeps.frame ?_ (modTwi_within (Within.refl _ _) (all_contains_self _)) (by decide))
    | (with_reducible apply pagesFail_keeps)

theorem setPending_keeps {u s : State} {i : Nat} (h : Keeps u s) : Keeps u (setPending i s) := by
  unfold setPending
  exact h.ite (Keeps.ite (h.set_intc rfl) (Keeps.ite (h.set_intc rfl) (h.set_intc rfl)))

theorem consumeEvent_keeps {u s : State} {a : Event} (h : Keeps u s) : Keeps u (consumeEvent a s) := by
  unfold consumeEvent
  repeat' first
    | (with_reducible exact h) | (with_reducible apply Keeps.ite)
    | (with_reducible apply Keeps.frame ?_ (raise_within (Within.refl _ _) (all_contains_self _)) (by decide))
    | (with_reducible apply Keeps.frame ?_ (ringPush_within (Within.refl _ _) (all_contains_self _)) (by decide))
    | (with_reducible apply setPending_keeps)

theorem setFails_keeps {u s : State} {a : Nat} (h : Keeps u s) : Keeps u (setFails a s) := by
  unfold setFails
  repeat' first
    | (with_reducible exact h) | (with_reducible apply Keeps.ite) | (with_reducible refine modAcc_keeps ?_ (fun _ => rfl))
    | (with_reducible apply nvmRequest_keeps)

theorem authOk_keeps {u s : State} (h : Keeps u s) : Keeps u (authOk s) := by
  unfold authOk
  repeat' first
    | (with_reducible exact h) | (with_reducible refine modAcc_keeps ?_ (fun _ => rfl)) | (with_reducible apply setFails_keeps)

theorem writeWords_keeps {u s : State} {p : Path} {l : List Word} {a n : Nat} (h : Keeps u s) : Keeps u (writeWords p l a n s).2.2 := by
  induction l generalizing a n s with
  | nil => exact h
  | cons v l ih =>
    have written : Keeps u (writeReg p a v s).2 := writeReg_keeps h
    unfold writeWords
    split
    next eq => rwa [eq] at written
    next eq => exact ih (by rwa [eq] at written)

theorem slotDown_keeps {u s : State} {a : Nat} (h : Keeps u s) : Keeps u (slotDown a s) := by
  unfold slotDown
  repeat' first
    | (with_reducible exact h) | (with_reducible apply Keeps.ite) | (with_reducible apply downBelow_keeps)
    | (with_reducible apply Keeps.frame ?_ (modSeq_within (Within.refl _ _) (all_contains_self _)) (by decide))
    | (with_reducible apply Keeps.frame ?_ (railOff_within (Within.refl _ _) (all_contains_self _)) (by decide))
    | (with_reducible apply Keeps.frame ?_ (safeRails_within (Within.refl _ _) (all_contains_self _)) (by decide))

theorem setPos_keeps {u s : State} {a : Nat} {b : Bool} (h : Keeps u s) : Keeps u (setPos a b s) := by
  unfold setPos
  repeat' first
    | (with_reducible exact h) | (with_reducible refine modLink_keeps ?_ (fun _ => rfl))
    | (with_reducible apply Keeps.frame ?_ (raise_within (Within.refl _ _) (all_contains_self _)) (by decide))
    | (with_reducible apply takeAddress_keeps) | split

theorem helloIn_keeps {u s : State} {a : Nat} {b : List Byte} (h : Keeps u s) : Keeps u (helloIn a b s) := by
  unfold helloIn
  repeat' first
    | (with_reducible exact h) | (with_reducible apply Keeps.ite) | (with_reducible refine modLink_keeps ?_ (fun _ => rfl))
    | (with_reducible apply modPort_keeps) | (with_reducible apply setPos_keeps) | (with_reducible apply updateSeg_keeps)

theorem unsubscribe_keeps {u s : State} {a : Nat} {b : Nat} (h : Keeps u s) : Keeps u (unsubscribe a b s) := by
  unfold unsubscribe
  repeat' first
    | (with_reducible exact h)
    | (with_reducible apply Keeps.frame ?_ (modRing_within (Within.refl _ _) (all_contains_self _)) (by decide))
    | (with_reducible refine modSess_keeps ?_ (fun _ => rfl))

theorem authFail_keeps {u s : State} (h : Keeps u s) : Keeps u (authFail s) := by
  unfold authFail
  repeat' first
    | (with_reducible exact h) | (with_reducible refine modAcc_keeps ?_ (fun _ => rfl))
    | (with_reducible apply Keeps.frame ?_ (raise_within (Within.refl _ _) (all_contains_self _)) (by decide))
    | (with_reducible apply setFails_keeps)

theorem nvmWriteWord_keeps {u s : State} {a : Nat} {b : List Byte} (h : Keeps u s) : Keeps u (nvmWriteWord a b s) :=
  memory_keeps h nvmPut_wf

theorem judgeServe_keeps {u s : State} {a : Nat} {b : Nat} (h : Keeps u s) : Keeps u (judgeServe a b s) := by
  unfold judgeServe
  repeat' first
    | (with_reducible exact h) | (with_reducible apply Keeps.ite) | (with_reducible apply modSlot_keeps)
    | (with_reducible apply wdtStrike_keeps)

theorem wdtTick_keeps {u s : State} (h : Keeps u s) : Keeps u (wdtTick s) := by
  unfold wdtTick
  refine Keeps.foldl (fun t x => judgeServe_keeps (Keeps.refl t)) ?_
  have counted : Keeps u { s with intc := { s.intc with left := s.intc.left.map (· - 1) } } := h.set_intc rfl
  refine counted.trans fun f holds => ?_
  cases f with
  | lengths =>
    simp only [Form.Holds, Lengths, Bool.and_eq_true, beq_iff_eq] at holds ⊢
    simp [modWdt, holds, upto]
  | regs | memory | captures | claims | controller => exact holds

theorem oscTick_keeps {u s : State} (h : Keeps u s) : Keeps u (oscTick s) := by
  unfold oscTick
  repeat' first
    | (with_reducible exact h) | (with_reducible apply Keeps.ite) | (with_reducible refine modRtc_keeps ?_ (fun _ => rfl) (fun _ => rfl))
    | (with_reducible apply oscCount_keeps)

theorem unlockSess_keeps {u s : State} {a : Nat} {b : Bool} (h : Keeps u s) : Keeps u (unlockSess a b s) := by
  unfold unlockSess
  repeat' first
    | (with_reducible exact h) | (with_reducible apply authOk_keeps) | (with_reducible refine modSess_keeps ?_ (fun _ => rfl))
    | (with_reducible apply Keeps.frame ?_ (raise_within (Within.refl _ _) (all_contains_self _)) (by decide))

theorem readWords_keeps {u s : State} {p : Path} {n a : Nat} (h : Keeps u s) : Keeps u (readWords p n a s).2 := by
  induction n generalizing a s with
  | zero => exact h
  | succ n ih => exact ih (readReg_keeps h)

end Sys2Proof.Machine
end

section
/-!
Sessions that end and sessions that start: who is the controller afterwards (R283), and that HELLO keeps the forms.
-/

namespace Sys2Proof.Machine

theorem link_of_within {l : List Part} {s t : State} (w : Within l s t) (free : l.contains .link = false) : t.link = s.link :=
  w .link (by simpa using free)

/-! ### The end of a session -/

theorem roles_exitService (s : State) : roles (exitService s).link = roles s.link := by
  have left : Within [.acc, .fe, .mode, .ch, .saf, .fab] s
      (leaveService (goMode (s.acc.svcFrom.getD .run) (abortAll (modAcc (fun a => { a with svcFrom := none }) s)))) :=
    leaveService_within (goMode_within (abortAll_within (modAcc_within (Within.refl _ _) rfl) rfl) rfl) rfl
  have locked (l : Link) : roles { l with sess := l.sess.map fun x => x.map fun y => { y with unlockTk := none, byHmac := false } } = roles l := by
    simp [roles, Function.comp_def]
  unfold exitService
  dsimp only
  rw [link_of_within (raise_within (updateSens_within (Within.refl [.fab, .ph, .gal, .ch] _) rfl) rfl) rfl, modLink, locked,
    link_of_within left rfl]

theorem link_dropSession (i : Nat) (s : State) : (dropSession i s).link = { s.link with sess := lset s.link.sess i none } := by
  have rings : Within [.ring] s (modRing (52 + i) (fun r => { r with recs := [], acked := r.next, sendNext := r.next, owner := none })
      (forEach (upto 64) (modRing · fun r => { r with owner := if r.owner = some i then none else r.owner,
                                                      stream := if r.stream = some i then none else r.stream }) s)) :=
    modRing_within (Within.forEach (fun _ _ => modRing_within (Within.refl _ _) rfl) (Within.refl _ _)) rfl
  have set_ldr {c : Prop} [Decidable c] {t : State} {x : Loader} : (if c then { t with ldr := x } else t).link = t.link := by split <;> rfl
  have abandon {c : Prop} [Decidable c] {t : State} : (if c then abandonEnter t else t).link = t.link := by split <;> rfl
  unfold dropSession
  dsimp only
  rw [abandon, set_ldr, modLink, link_of_within rings rfl]

theorem roles_dropSession (i : Nat) (s : State) : roles (dropSession i s).link = (roles s.link).set i none := by
  rw [link_dropSession]
  simp [roles, lset]

theorem roles_closeSession {i : Nat} {x : Session} {lost : Bool} {s : State} (there : s.getSess i = some x) :
    roles (closeSession i lost s).link = (roles s.link).set i none := by
  have told : (if lost then raiseAt .fabric Cause.pzSessionLost 0xFF (143 + i) i (dropSession i s) else dropSession i s).link =
      (dropSession i s).link := by
    split
    · exact link_of_within (raiseAt_within (Within.refl [.fab] _) rfl) rfl
    · rfl
  unfold closeSession
  rw [there]
  dsimp only
  rw [← roles_dropSession, ← told]
  generalize (if lost then _ else dropSession i s) = t
  split
  · rfl
  · split
    · exact roles_exitService t
    · split <;> rfl

/-! ### The start of a session -/

theorem controllerOf_spec {s : State} {j : Nat} (h : controllerOf s = some j) : ∃ x, s.getSess j = some x ∧ x.role = .controller := by
  have found := List.find?_some h
  split at found
  next x there => exact ⟨x, there, by simpa using found⟩
  next => cases found

theorem no_controller {s : State} (four : (stored s).roles.length = 4) (h : controllerOf s = none) (j : Nat) :
    ¬ IsController (stored s).roles j := by
  intro holds
  have inside : j < 4 := by
    by_contra beyond
    rw [IsController, List.getD_eq_default _ _ (by omega)] at holds
    cases holds
  obtain ⟨x, there, role⟩ := isController_iff.mp holds
  have all := List.find?_eq_none.mp h j (List.mem_range.mpr inside)
  simp [there, role] at all

/-- A session starts in its place; it may be the controller only where no other is. -/
theorem seat_holds {f : Form} {s : State} {i : Nat} {x : Session} (holds : f.Holds s)
    (alone : f = .controller → x.role = .controller → ∀ j, ¬ IsController (stored s).roles j) :
    f.Holds (modLink (fun l => { l with sess := lset l.sess i (some x) }) s) := by
  have seated : (stored (modLink (fun l => { l with sess := lset l.sess i (some x) }) s)).roles =
      (stored s).roles.set i (some x.role) := by simp [stored, roles, modLink, lset]
  cases f with
  | regs | memory | captures | claims => exact holds
  | lengths => simpa [Form.Holds, Lengths, modLink, lset] using holds
  | controller =>
    obtain ⟨four, one⟩ := oneController_iff.mp holds
    rw [Form.Holds, oneController_iff, seated]
    refine ⟨by simpa using four, fun a b ha hb => ?_⟩
    have place {j : Nat} (h : IsController ((stored s).roles.set i (some x.role)) j) :
        IsController (stored s).roles j ∨ (j = i ∧ x.role = .controller) := by
      simp only [IsController, List.getD_eq_getElem?_getD, List.getElem?_set] at h ⊢
      split at h
      next same =>
        split at h
        · exact .inr ⟨same.symm, by simpa using h⟩
        · cases h
      · exact .inl h
    rcases place ha with ca | ⟨rfl, role⟩ <;> rcases place hb with cb | ⟨rfl, role'⟩
    · exact one a b ca cb
    · exact absurd ca (alone rfl role' a)
    · exact absurd cb (alone rfl role b)
    · rfl

theorem openSession_holds {f : Form} {ep : Endpoint} {i : Nat} {m : List Byte} {s : State} (holds : f.Holds s)
    (alone : f = .controller → roleOf (byteAt (Pz.payload m) 0) = .controller → ∀ j, ¬ IsController (stored s).roles j) :
    f.Holds (openSession ep i m s) := by
  have seated : f.Holds (modLink (fun l => { l with sess := lset l.sess i (some (askedSession ep m s)) }) s) := seat_holds holds alone
  have installed : Keeps (modLink (fun l => { l with sess := lset l.sess i (some (askedSession ep m s)) }) s) (installSession ep i m s) := by
    refine modShad_keeps ?_ fun _ _ => rfl
    apply Keeps.frame ?_ (ownRing_within (Within.refl _ _) (all_contains_self _)) (by decide)
    exact learnArp_keeps (Keeps.refl _)
  rw [openSession_eq]
  exact pzAnswer_keeps installed f seated

theorem helloOpen_holds {f : Form} {ep : Endpoint} {m : List Byte} {s : State} (holds : f.Holds s)
    (alone : f = .controller → roleOf (byteAt (Pz.payload m) 0) = .controller → ∀ j, ¬ IsController (stored s).roles j) :
    f.Holds (helloOpen ep m s) := by
  unfold helloOpen
  split
  · exact helloRefuse_keeps (Keeps.refl s) f holds
  · exact openSession_holds holds alone

theorem roleOf_ne_controller {n : Nat} (small : n ≤ 2) (h : n ≠ 2) : roleOf n ≠ .controller := by
  have : n < 2 := by omega
  interval_cases n <;> simp [roleOf]

theorem helloForm_role {b : List Byte} (h : helloForm b = true) : byteAt b 0 ≤ 2 := by
  simp only [helloForm, Bool.and_eq_true, decide_eq_true_eq] at h
  tauto

theorem helloRole_keeps {u s : State} {ep : Endpoint} {m : List Byte} (form : helloForm (Pz.payload m) = true) (h : Keeps u s) :
    Keeps u (helloRole ep m s) := by
  refine h.trans fun f holds => ?_
  unfold helloRole
  dsimp only
  split
  next other => exact helloOpen_holds holds fun _ role => absurd role (roleOf_ne_controller (helloForm_role form) other)
  · split
    next none =>
      refine helloOpen_holds holds fun kind _ => ?_
      subst kind
      exact no_controller (oneController_iff.mp holds).1 none
    next j found =>
      obtain ⟨x, there, role⟩ := controllerOf_spec found
      have refused := helloRefuse_keeps (a := ep) (b := m) (c := Cause.pzWriterBusy) (Keeps.refl s) f holds
      have taken : f.Holds (helloOpen ep m (closeSession j false s)) := by
        refine helloOpen_holds (closeSession_keeps (Keeps.refl s) f holds) fun kind _ k again => ?_
        subst kind
        have freed : (stored (closeSession j false s)).roles = (stored s).roles.set j none := roles_closeSession there
        rw [freed] at again
        have same : j = k := (oneController_iff.mp holds).2 j k (isController_iff.mpr ⟨x, there, role⟩) (isController_of_set_none again)
        subst same
        simp only [IsController, List.getD_eq_getElem?_getD, List.getElem?_set, ite_true] at again
        split at again <;> cases again
      rw [there]
      dsimp only
      split <;> assumption

theorem helloAct_keeps {u s : State} {ep : Endpoint} {m : List Byte} (h : Keeps u s) : Keeps u (helloAct ep m s) := by
  have fresh {t : State} (k : Keeps u t) :
      Keeps u (if !pzHeadOk m || !helloForm (Pz.payload m) then helloRefuse ep m Cause.pzBad t else helloRole ep m t) := by
    split
    · exact helloRefuse_keeps k
    next ok =>
      simp only [Bool.or_eq_true, Bool.not_eq_true', not_or, Bool.not_eq_false] at ok
      exact helloRole_keeps ok.2 k
  unfold helloAct
  refine h.ite ((pzDiscard_keeps h).ite (h.ite ?_))
  dsimp only
  split
  · exact fresh h
  · split
    · exact h
    · refine Keeps.ite ?_ (fresh (closeSession_keeps h))
      have heard {i : Nat} : Keeps u (modSess i (fun y => { y with lastTk := s.tb.run }) s) := modSess_keeps h fun _ => rfl
      split
      · exact pzSend_keeps heard
      · exact modLink_keeps heard fun _ => rfl

end Sys2Proof.Machine
end

section
/-!
Perzo requests keep the forms: what each request type executes, and the ACCESS operations.
-/

namespace Sys2Proof.Machine

theorem ofType_keeps {u s : State} {n : Nat} {m : List Byte} {f : State → State} (h : Keeps u s) (hf : Keeps u (f s)) :
    Keeps u (ofType n m f s) := by
  unfold ofType
  exact hf.ite h

/-! ### Told facts -/

theorem toldEntry_keeps {u : State} {i k : Nat} {why : Option Nat} {take : State → State} {r : ToldRes} (h : Keeps u r.st)
    (taken : Keeps u (take r.st)) : Keeps u (toldEntry i k why take r).st := by
  unfold toldEntry
  split
  · exact taken
  · exact (h.frame (raiseSrc_within (Within.refl _ _) (all_contains_self _)) (by decide)).ite
      (h.frame (pzRaise_within (Within.refl _ _) (all_contains_self _)) (by decide))

theorem toldFold_keeps {s : State} {b : List Byte} {n count : Nat} {f : List Byte → ToldRes → ToldRes}
    (hf : ∀ e r, Keeps r.st (f e r).st) : Keeps s (toldFold b n count f s).st := by
  have all (l : List Nat) (r : ToldRes) : Keeps r.st (l.foldl (fun r j => f (slice b (4 + n * j) n) r) r).st := by
    induction l generalizing r with
    | nil => exact Keeps.refl _
    | cons j l ih => exact (hf _ r).trans (ih _)
  exact all _ { st := s }

theorem tempAns_keeps {i : Nat} {b : List Byte} {s : State} : Keeps s (tempAns i b s).st :=
  toldFold_keeps fun _ _ => toldEntry_keeps (Keeps.refl _)
    ((Keeps.refl _).frame (takeTold_within (Within.refl _ _) (all_contains_self _)) (by decide))

theorem fixtureAns_keeps {i : Nat} {b : List Byte} {s : State} : Keeps s (fixtureAns i b s).st := by
  have all (l : List Nat) (r : ToldRes) : Keeps r.st
      (l.foldl (fun r k => toldEntry i k (slotRefused r.st k) (tellFixture k ((leAt b 16 16).testBit k)) r) r).st := by
    induction l generalizing r with
    | nil => exact Keeps.refl _
    | cons k l ih =>
      exact (toldEntry_keeps (Keeps.refl _)
        ((Keeps.refl _).frame (tellFixture_within (Within.refl _ _) (all_contains_self _)) (by decide))).trans (ih _)
  exact all _ { st := s }

theorem budgetAns_keeps {i : Nat} {b : List Byte} {s : State} : Keeps s (budgetAns i b s).st :=
  toldEntry_keeps (r := { st := s }) (Keeps.refl _)
    ((Keeps.refl _).frame (modSump_within (Within.refl _ _) (all_contains_self _)) (by decide))

theorem cellAns_keeps {i : Nat} {b : List Byte} {n : Nat} {s : State} : Keeps s (toldFold b 12 n (cellEntry i) s).st :=
  toldFold_keeps fun _ _ => toldEntry_keeps (Keeps.refl _)
    ((Keeps.refl _).frame (tellCell_within (Within.refl _ _) (all_contains_self _)) (by decide))

theorem extAns_keeps {i : Nat} {b : List Byte} {n : Nat} {s : State} : Keeps s (toldFold b 24 n (extEntry i) s).st :=
  toldFold_keeps fun _ _ => toldEntry_keeps (Keeps.refl _)
    ((Keeps.refl _).frame (modCh_within (Within.refl _ _) (all_contains_self _)) (by decide))

/-! ### Registers, rings and the image -/

theorem readAns_keeps {i : Nat} {b : List Byte} {s : State} : Keeps s (readAns i b s).st := by
  unfold readAns
  dsimp only
  split
  · exact Keeps.refl s
  · exact readWords_keeps (Keeps.refl s)

theorem writeAns_keeps {i : Nat} {b : List Byte} {s : State} : Keeps s (writeAns i b s).st := by
  unfold writeAns
  dsimp only
  split
  · exact Keeps.refl s
  · exact writeWords_keeps (Keeps.refl s)

theorem subscribe_keeps {u s t : State} {i r : Nat} {stream own : Bool} {x : Session} (h : Keeps u s)
    (taken : subscribe i r stream own x s = some t) : Keeps u t := by
  have plain : Keeps u (modSess i (fun y => { y with subs := setBitN y.subs r true }) s) := modSess_keeps h fun _ => rfl
  unfold subscribe at taken
  dsimp only at taken
  repeat' split at taken
  all_goals try cases taken
  all_goals first
    | exact plain
    | exact plain.frame (modRing_within (Within.refl _ _) (all_contains_self _)) (by decide)

theorem subAns_keeps {i : Nat} {x : Session} {b : List Byte} {s : State} : Keeps s (subAns i x b s).st := by
  have all (l : List Nat) (a : Nat × State) : Keeps a.2 (l.foldl (fun (a : Nat × State) r =>
      match subscribe i r (bitN (byteAt b 9) 0) (bitN (byteAt b 9) 1) x a.2 with
      | some t => (setBitN a.1 r true, t)
      | none => a) a).2 := by
    induction l generalizing a with
    | nil => exact Keeps.refl _
    | cons r l ih =>
      rw [List.foldl_cons]
      refine Keeps.trans ?_ (ih _)
      split
      next t taken => exact subscribe_keeps (Keeps.refl _) taken
      next => exact Keeps.refl _
  unfold subAns
  dsimp only
  split
  · exact Keeps.forEach (fun _ t => unsubscribe_keeps (Keeps.refl t)) (Keeps.refl s)
  · exact all _ (0, s)

theorem replayAns_keeps {i : Nat} {x : Session} {b : List Byte} {s : State} : Keeps s (replayAns i x b s).st := by
  unfold replayAns
  dsimp only
  split
  · exact Keeps.refl s
  · exact modSess_keeps (Keeps.refl s) fun _ => rfl

theorem pushAns_keeps {i : Nat} {b : List Byte} {s : State} : Keeps s (pushAns i b s).st := by
  unfold pushAns
  dsimp only
  split
  · exact Keeps.refl s
  · split
    · exact Keeps.refl s
    · exact Keeps.forEach (fun _ t => (Keeps.refl t).frame (pushOne_within (Within.refl _ _) (all_contains_self _)) (by decide)) (Keeps.refl s)

theorem blockAns_keeps {i : Nat} {b : List Byte} {s : State} : Keeps s (blockAns i b s).st := by
  have acted : Keeps s (blockAct i (byteAt b 0) (leAt b 4 4) (b.drop 8) s).1 :=
    (Keeps.refl s).frame (blockAct_within (Within.refl _ _) (all_contains_self _)) (by decide)
  unfold blockAns
  dsimp only
  split
  · dsimp only [PzAns.st]
    exact (Keeps.refl s).frame (modLdr_within (Within.refl _ _) (all_contains_self _)) (by decide)
  · split
    next eq => rwa [eq] at acted
    next eq => rwa [eq] at acted

/-! ### ACCESS -/

theorem accAns_st (a : AccAns) : (accAns a).st = a.st := by
  unfold accAns
  dsimp only
  split <;> rfl

theorem accessOp_keeps {u s : State} {op n : Nat} {reserved : List Byte → Bool} {least : Role} {service : Bool}
    {f : Nat → List Byte → State → AccAns} {ep : Endpoint} {m : List Byte} (hf : ∀ i d t, Keeps t (f i d t).st) (h : Keeps u s) :
    Keeps u (accessOp op n reserved least service f ep m s) := by
  unfold accessOp
  refine h.ite (pzRequest_keeps (fun i x b t => ?_) h)
  split
  · exact Keeps.refl t
  · rw [accAns_st]
    exact hf _ _ _

section
variable {u s : State} (h : Keeps u s) {i r : Nat} {d : List Byte}
include h

theorem accRefuse_keeps {c : Nat} : Keeps u (accRefuse c s).st :=
  h.frame (raise_within (Within.refl _ _) (all_contains_self _)) (by decide)

theorem accChallenge_keeps : Keeps u (accChallenge i s).st :=
  modSess_keeps (h.frame (freeBytes_within (Within.refl _ _) (all_contains_self _)) (by decide)) fun _ => rfl

theorem accUnlockHmac_keeps : Keeps u (accUnlockHmac i d s).st := by
  have used : Keeps u (modSess i (fun y => { y with nonce := none }) s) := modSess_keeps h fun _ => rfl
  unfold accUnlockHmac
  dsimp only
  repeat' split
  · exact accRefuse_keeps h
  · exact h
  · exact unlockSess_keeps used
  · exact authFail_keeps used
  · exact authFail_keeps used
  · exact h

theorem accUnlockPwd_keeps : Keeps u (accUnlockPwd i d s).st := by
  unfold accUnlockPwd
  repeat' split
  · exact accRefuse_keeps h
  · exact h
  · exact unlockSess_keeps h
  · exact authFail_keeps h

theorem accEnter_keeps : Keeps u (accEnter i s).st := by
  unfold accEnter
  repeat' split
  · exact accRefuse_keeps h
  · exact accRefuse_keeps h
  · apply Keeps.frame ?_ (hostDrain_within (Within.refl _ _) (all_contains_self _)) (by decide)
    exact modAcc_keeps h fun _ => rfl
  · exact enterService_keeps h
  · exact accRefuse_keeps h

theorem accExit_keeps : Keeps u (accExit s).st := by
  unfold accExit
  split
  · exact exitService_keeps h
  · exact accRefuse_keeps h

theorem accRegionUnlock_keeps : Keeps u (accRegionUnlock i r d s).st := by
  unfold accRegionUnlock
  repeat' split
  · exact accRefuse_keeps h
  · exact h
  · exact modSess_keeps (authOk_keeps h) fun _ => rfl
  · exact authFail_keeps h

theorem accRegionLock_keeps : Keeps u (accRegionLock i r s).st := by
  unfold accRegionLock
  split
  · exact accRefuse_keeps h
  · exact modSess_keeps h fun _ => rfl

theorem accRegionPwd_keeps : Keeps u (accRegionPwd r d s).st := by
  unfold accRegionPwd
  split
  · exact accRefuse_keeps h
  · exact putRegion_keeps h

theorem accTap_keeps {open_ : Bool} : Keeps u (accTap i open_ s).st := by
  unfold accTap
  repeat' split
  · dsimp only
    exact modAcc_keeps h fun _ => rfl
  · apply Keeps.frame ?_ (raise_within (Within.refl _ _) (all_contains_self _)) (by decide)
    exact modAcc_keeps h fun _ => rfl
  · exact accRefuse_keeps h
  · exact h

end

end Sys2Proof.Machine
end

section
/-!
The forms through the commands: one lemma per command, from what its operations keep.
-/

namespace Sys2Proof.Machine

/-- Every next state of the outcome has the forms that u has. -/
def Runs (u : State) (o : Host.Outcome State Fault Refusal) : Prop := ∀ t, o = .next t → Keeps u t

theorem Runs.next {u t : State} (h : Keeps u t) : Runs u (.next t) := by
  rintro _ ⟨⟩
  exact h

theorem Runs.ite {u : State} {c : Prop} [Decidable c] {a b : Host.Outcome State Fault Refusal} (h : Runs u a) (k : Runs u b) :
    Runs u (if c then a else b) := by split <;> assumption

theorem execSqzCfgWrite_keeps {u s : State} {p : Path} {addr : Nat} {v : Word} (h : Keeps u s) : Runs u (execSqzCfgWrite p addr v s) := by
  unfold execSqzCfgWrite
  repeat' first
    | (with_reducible exact h) | (with_reducible apply Runs.next) | (with_reducible apply Keeps.ite)
    | (with_reducible apply regGate_keeps h) | (with_reducible apply writeSqz_keeps)

theorem execNvmWordWriteDone_keeps {u s : State} (h : Keeps u s) : Runs u (execNvmWordWriteDone s) := by
  unfold execNvmWordWriteDone
  repeat' first
    | (with_reducible exact h) | (with_reducible apply Runs.next) | (with_reducible apply nvmWriteWord_keeps)
    | (with_reducible apply nvmNext_keeps) | split | ((with_reducible apply Keeps.literal); case same => simp only [stored, roles])

theorem execCommitSetDone_keeps {u s : State} (h : Keeps u s) : Runs u (execCommitSetDone s) := by
  unfold execCommitSetDone
  repeat' first
    | (with_reducible exact h) | (with_reducible apply Runs.next) | (with_reducible apply Runs.ite)
    | ((with_reducible apply Keeps.literal); case same => simp only [stored, roles])

theorem execNvmFormat_keeps {u s : State} {p : Path} {key : Byte} (h : Keeps u s) : Runs u (execNvmFormat p key s) :=
  Runs.next (formatStore_keeps h)

theorem formatted_keeps {u s : State} (h : Keeps u s) {l k : List Byte} {a b : Nat} {busy : Option NvmBusy} {refused : Bool} :
    Keeps u { s with nvm := { s.nvm with mem := nvmPut a l (nvmPut b k s.nvm.mem), busy := busy, refused := refused } } :=
  memory_keeps h fun wf => nvmPut_wf (nvmPut_wf wf)

theorem fuse_keeps {u s : State} (h : Keeps u s) {w : Nat} {v : Word} : Keeps u { s with acc := { s.acc with fuse := lset s.acc.fuse w v } } :=
  h.update (by simp [stored, lset])

theorem execNvmFormatted_keeps {u s : State} (h : Keeps u s) : Runs u (execNvmFormatted s) := by
  have zeroed : Keeps u (nvmZeroPages 442 3654 (nvmZeroPages 0 186 s)) := nvmZeroPages_keeps (nvmZeroPages_keeps h)
  unfold execNvmFormatted
  generalize nvmZeroPages 442 3654 (nvmZeroPages 0 186 s) = z at zeroed
  have fresh := formatted_keeps zeroed (l := recHeader Kind.table 0 1 tabFresh ++ tabFresh) (k := recHeader Kind.table 0 1 tabFresh ++ tabFresh)
    (a := 256) (b := 0) (busy := none) (refused := false)
  have formed {c : Prop} [Decidable c] {t : State} (k : Keeps u t) :
      Keeps u (if c then t else { t with acc := { t.acc with fuse := lset t.acc.fuse 17 (fuseFieldWord 1) } }) := k.ite (fuse_keeps k)
  have counted {c : Prop} [Decidable c] {t : State} (k : Keeps u t) :
      Keeps u (if c then t else { t with acc := { t.acc with fails := none } }) := k.ite (k.update (by simp only [stored]))
  refine Runs.ite (Runs.next (nvmNext_keeps ?_)) (Runs.next h)
  apply Keeps.frame ?_ (raise_within (Within.refl _ _) (all_contains_self _)) (by decide)
  exact counted (formed fresh)

theorem execCalCommit_keeps {u s : State} {p : Path} {key : Byte} (h : Keeps u s) : Runs u (execCalCommit p key s) :=
  Runs.next (commitCal_keeps h)

theorem execNvmCalCommitted_keeps {u s : State} (h : Keeps u s) : Runs u (execNvmCalCommitted s) := by
  unfold execNvmCalCommitted
  repeat' first
    | (with_reducible exact h) | (with_reducible exact Keeps.refl _) | (with_reducible apply Runs.next) | (with_reducible apply Runs.ite)
    | (with_reducible apply Keeps.frame ?_ (raise_within (Within.refl _ _) (all_contains_self _)) (by decide))
    | (with_reducible refine Keeps.forEach (fun _ _ => ?_) ?_)
    | (with_reducible apply Keeps.frame ?_ (modFe_within (Within.refl _ _) (all_contains_self _)) (by decide))
    | ((with_reducible apply Keeps.literal); case same => simp only [stored, roles])

theorem execDefine_keeps {u s : State} {p : Path} {key : Byte} (h : Keeps u s) : Runs u (execDefine p key s) :=
  Runs.next (defineStore_keeps h)

theorem execScanNow_keeps {u s : State} {p : Path} {key : Byte} (h : Keeps u s) : Runs u (execScanNow p key s) :=
  Runs.next (scanStore_keeps h)

theorem execMarginScan_keeps {u s : State} {weak bad : List (Fin 32)} (h : Keeps u s) : Runs u (execMarginScan weak bad s) := by
  unfold execMarginScan
  repeat' first
    | (with_reducible exact h) | (with_reducible exact Keeps.refl _) | (with_reducible apply Runs.next) | (with_reducible apply Runs.ite)
    | (with_reducible apply Keeps.frame ?_ (raiseA_within (Within.refl _ _) (all_contains_self _)) (by decide))
    | (with_reducible apply nvmRequest_keeps) | (with_reducible apply nvmCorrect_keeps)
    | (with_reducible refine Keeps.foldl (fun _ _ => ?_) ?_)
    | ((with_reducible apply Keeps.literal); case same => simp only [stored, roles])

theorem execNvmWindowWrite_keeps {u s : State} {p : Path} {addr : Nat} {v : Word} (h : Keeps u s) : Runs u (execNvmWindowWrite p addr v s) := by
  unfold execNvmWindowWrite
  exact Runs.ite (Runs.next h) (Runs.next (regGate_keeps h (winWrite_leaves h)))

theorem execFuseProgramWord_keeps {u s : State} {p : Path} {v : Word} (h : Keeps u s) : Runs u (execFuseProgramWord p v s) := by
  unfold execFuseProgramWord
  repeat' first
    | (with_reducible exact h) | (with_reducible apply Runs.next) | (with_reducible apply Keeps.ite)
    | (with_reducible apply regGate_keeps h) | (with_reducible apply fuseCmd_keeps)

theorem execFuseProgramBlock_keeps {u s : State} {p : Path} {v : Word} (h : Keeps u s) : Runs u (execFuseProgramBlock p v s) := by
  unfold execFuseProgramBlock
  repeat' first
    | (with_reducible exact h) | (with_reducible apply Runs.next) | (with_reducible apply Keeps.ite)
    | (with_reducible apply regGate_keeps h) | (with_reducible apply fuseCmd_keeps)

theorem length_fuseMade (s : State) (j : FuseJob) : (fuseMade s j).length = s.acc.fuse.length := by
  have words (l : List Nat) (w : Nat) (v : List Word) (f : List Word) :
      (l.foldl (fun f i => lset f (w + i) (v.getD i 0)) f).length = f.length := by
    induction l generalizing f with
    | nil => rfl
    | cons i l ih => exact (ih _).trans List.length_set
  cases j with
  | word w v => exact List.length_set
  | block w l => exact List.length_set.trans (words _ _ _ _)

theorem execAccFuseDone_keeps {u s : State} (h : Keeps u s) : Runs u (execAccFuseDone s) := by
  unfold execAccFuseDone
  split
  next j _ =>
    refine Runs.ite (Runs.next ?_) (Runs.next h)
    apply Keeps.frame ?_ (raise_within (Within.refl _ _) (all_contains_self _)) (by decide)
    exact h.update (by simp only [stored, length_fuseMade])
  next => exact Runs.next h

theorem execStageOperationEnable_keeps {u s : State} {p : Path} (h : Keeps u s) : Runs u (execStageOperationEnable p s) :=
  Runs.next (regGate_keeps h (writeAccSvc_keeps h))

theorem execRailGood_keeps {u s : State} {r : Fin 8} {nextFallen : Bool} (h : Keeps u s) : Runs u (execRailGood r nextFallen s) := by
  unfold execRailGood
  repeat' first
    | (with_reducible exact h) | (with_reducible exact Keeps.refl _) | (with_reducible apply Runs.next) | (with_reducible apply Runs.ite)
    | (with_reducible apply Keeps.ite)
    | (with_reducible apply Keeps.frame ?_ (modRail_within (Within.refl _ _) (all_contains_self _)) (by decide))
    | (with_reducible apply Keeps.frame ?_ (modSeq_within (Within.refl _ _) (all_contains_self _)) (by decide))
    | (with_reducible refine Keeps.forEach (fun _ _ => ?_) ?_)
    | (with_reducible apply Keeps.frame ?_ (modPh_within (Within.refl _ _) (all_contains_self _)) (by decide))
    | (with_reducible apply powerUpDone_keeps)
    | (with_reducible apply Keeps.frame ?_ (raiseSlot_within (Within.refl _ _) (all_contains_self _)) (by decide))
    | (with_reducible apply Keeps.frame ?_ (decideGal_within (Within.refl _ _) (all_contains_self _)) (by decide))
    | (with_reducible apply enableSlot_keeps)
    | (with_reducible apply Keeps.frame ?_ (updateSens_within (Within.refl _ _) (all_contains_self _)) (by decide))
    | ((with_reducible apply Keeps.literal); case same => simp only [stored, roles])

theorem execRailNorise_keeps {u s : State} {r : Fin 8} (h : Keeps u s) : Runs u (execRailNorise r s) := by
  unfold execRailNorise
  repeat' first
    | (with_reducible exact h) | (with_reducible exact Keeps.refl _) | (with_reducible apply Runs.next) | (with_reducible apply Runs.ite)
    | (with_reducible apply Keeps.ite)
    | (with_reducible apply Keeps.frame ?_ (raiseSlot_within (Within.refl _ _) (all_contains_self _)) (by decide))
    | (with_reducible apply Keeps.frame ?_ (modRail_within (Within.refl _ _) (all_contains_self _)) (by decide))
    | (with_reducible refine Keeps.forEach (fun _ _ => ?_) ?_)
    | (with_reducible apply Keeps.frame ?_ (decideGal_within (Within.refl _ _) (all_contains_self _)) (by decide))
    | (with_reducible apply Keeps.frame ?_ (railOff_within (Within.refl _ _) (all_contains_self _)) (by decide))
    | (with_reducible apply Keeps.frame ?_ (railOn_within (Within.refl _ _) (all_contains_self _)) (by decide))
    | (with_reducible apply powerUpDone_keeps) | (with_reducible apply failedAttempt_keeps)

theorem execPowerUpRetry_keeps {u s : State} {fallen : Bool} (h : Keeps u s) : Runs u (execPowerUpRetry fallen s) := by
  unfold execPowerUpRetry
  repeat' first
    | (with_reducible exact h) | (with_reducible apply Runs.next) | (with_reducible apply Runs.ite) | (with_reducible apply powerUp_keeps)
    | ((with_reducible apply Keeps.literal); case same => simp only [stored, roles])

theorem execRailFallen_keeps {u s : State} {r : Fin 8} (h : Keeps u s) : Runs u (execRailFallen r s) := by
  unfold execRailFallen
  repeat' first
    | (with_reducible exact h) | (with_reducible apply Runs.next) | (with_reducible apply Runs.ite)
    | (with_reducible apply slotDown_keeps)

theorem execRailFallTimeout_keeps {u s : State} {r : Fin 8} (h : Keeps u s) : Runs u (execRailFallTimeout r s) := by
  unfold execRailFallTimeout
  repeat' first
    | (with_reducible exact h) | (with_reducible apply Runs.next) | (with_reducible apply Runs.ite)
    | (with_reducible apply slotDown_keeps)
    | (with_reducible apply Keeps.frame ?_ (raiseSlot_within (Within.refl _ _) (all_contains_self _)) (by decide))
    | (with_reducible apply Keeps.frame ?_ (modRail_within (Within.refl _ _) (all_contains_self _)) (by decide))

theorem execPowerDownStart_keeps {u s : State} (h : Keeps u s) : Runs u (execPowerDownStart s) := by
  unfold execPowerDownStart
  repeat' first
    | (with_reducible exact h) | (with_reducible apply Runs.next) | (with_reducible apply Runs.ite)
    | (with_reducible apply beginDown_keeps)

theorem execVinAuxValid_keeps {u s : State} {mv : Nat} {fallen : Bool} (h : Keeps u s) : Runs u (execVinAuxValid mv fallen s) := by
  unfold execVinAuxValid
  repeat' first
    | (with_reducible exact h) | (with_reducible apply Runs.next) | (with_reducible apply Runs.ite) | (with_reducible apply Keeps.ite)
    | (with_reducible apply Keeps.frame ?_ (modSeq_within (Within.refl _ _) (all_contains_self _)) (by decide))
    | (with_reducible apply powerUp_keeps) | ((with_reducible apply Keeps.literal); case same => simp only [stored, roles])

theorem execVinAuxLost_keeps {u s : State} {mv : Nat} (h : Keeps u s) : Runs u (execVinAuxLost mv s) := by
  unfold execVinAuxLost
  repeat' first
    | (with_reducible exact h) | (with_reducible exact Keeps.refl _) | (with_reducible apply Runs.next)
    | (with_reducible apply powerTear_keeps) | (with_reducible refine Keeps.forEach (fun _ _ => ?_) ?_)
    | (with_reducible apply Keeps.frame ?_ (modRail_within (Within.refl _ _) (all_contains_self _)) (by decide))
    | (with_reducible apply Keeps.frame ?_ (modPh_within (Within.refl _ _) (all_contains_self _)) (by decide))
    | (with_reducible apply Keeps.frame ?_ (modCh_within (Within.refl _ _) (all_contains_self _)) (by decide))
    | (with_reducible apply Keeps.frame ?_ (modGal_within (Within.refl _ _) (all_contains_self _)) (by decide))
    | (with_reducible apply Keeps.frame ?_ (modSeq_within (Within.refl _ _) (all_contains_self _)) (by decide))
    | (with_reducible apply Keeps.frame ?_ (raise_within (Within.refl _ _) (all_contains_self _)) (by decide))
    | ((with_reducible apply Keeps.literal); case same => simp only [stored, roles])

theorem execSeqPfw_keeps {u s : State} {mv : Nat} (h : Keeps u s) : Runs u (execSeqPfw mv s) := by
  unfold execSeqPfw
  repeat' first
    | (with_reducible exact h) | (with_reducible apply Runs.next)
    | (with_reducible apply Keeps.frame ?_ (raise_within (Within.refl _ _) (all_contains_self _)) (by decide))
    | (with_reducible apply Keeps.frame ?_ (modSeq_within (Within.refl _ _) (all_contains_self _)) (by decide))
    | (with_reducible apply reverse_keeps) | (with_reducible apply nvmLock_keeps) | (with_reducible apply timedShutdown_keeps) | split

theorem execRailWindowExit_keeps {u s : State} {r : Fin 8} {above : Bool} (h : Keeps u s) : Runs u (execRailWindowExit r above s) := by
  unfold execRailWindowExit
  repeat' first
    | (with_reducible exact h) | (with_reducible exact Keeps.refl _) | (with_reducible apply Runs.next) | (with_reducible apply Runs.ite)
    | (with_reducible apply Keeps.ite)
    | (with_reducible apply Keeps.frame ?_ (modRail_within (Within.refl _ _) (all_contains_self _)) (by decide))
    | (with_reducible refine Keeps.forEach (fun _ _ => ?_) ?_)
    | (with_reducible apply Keeps.frame ?_ (decideGal_within (Within.refl _ _) (all_contains_self _)) (by decide))
    | (with_reducible apply decideDev_keeps)
    | (with_reducible apply Keeps.frame ?_ (stopKeepAlive_within (Within.refl _ _) (all_contains_self _)) (by decide))
    | (with_reducible apply Keeps.frame ?_ (setHist_within (Within.refl _ _) (all_contains_self _)) (by decide))
    | (with_reducible apply Keeps.frame ?_ (raise_within (Within.refl _ _) (all_contains_self _)) (by decide))
    | (with_reducible apply Keeps.frame ?_ (modSeq_within (Within.refl _ _) (all_contains_self _)) (by decide))
    | (with_reducible apply beginDown_keeps) | (with_reducible apply timedShutdown_keeps)

theorem execPbShortPress_keeps {u s : State} (h : Keeps u s) : Runs u (execPbShortPress s) := by
  unfold execPbShortPress
  repeat' first
    | (with_reducible exact h) | (with_reducible apply Runs.next) | (with_reducible apply Runs.ite) | (with_reducible apply orderly_keeps)

theorem execPbWake_keeps {u s : State} {fallen : Bool} (h : Keeps u s) : Runs u (execPbWake fallen s) := by
  unfold execPbWake
  repeat' first
    | (with_reducible exact h) | (with_reducible apply Runs.next) | (with_reducible apply Runs.ite)
    | (with_reducible apply onRequest_keeps)
    | (with_reducible apply Keeps.frame ?_ (modSeq_within (Within.refl _ _) (all_contains_self _)) (by decide))

theorem execPbLongPress_keeps {u s : State} (h : Keeps u s) : Runs u (execPbLongPress s) := by
  unfold execPbLongPress
  repeat' first
    | (with_reducible exact h) | (with_reducible apply Runs.next)
    | (with_reducible apply Keeps.frame ?_ (raise_within (Within.refl _ _) (all_contains_self _)) (by decide))
    | (with_reducible apply Keeps.frame ?_ (modSeq_within (Within.refl _ _) (all_contains_self _)) (by decide))
    | (with_reducible apply reverse_keeps) | split | ((with_reducible apply Keeps.literal); case same => simp only [stored, roles])

theorem execSeqCmdOff_keeps {u s : State} {p : Path} {key : Byte} (h : Keeps u s) : Runs u (execSeqCmdOff p key s) := by
  unfold execSeqCmdOff seqCmdGate
  repeat' first
    | (with_reducible exact h) | (with_reducible apply Runs.next) | (with_reducible apply Keeps.ite)
    | (with_reducible apply regGate_keeps h)
    | (with_reducible apply Keeps.frame ?_ (seqRefused_within (Within.refl _ _) (all_contains_self _)) (by decide))
    | (with_reducible apply orderly_keeps)

theorem execSeqCmdReboot_keeps {u s : State} {p : Path} {key : Byte} (h : Keeps u s) : Runs u (execSeqCmdReboot p key s) := by
  unfold execSeqCmdReboot seqCmdGate
  repeat' first
    | (with_reducible exact h) | (with_reducible apply Runs.next) | (with_reducible apply Keeps.ite)
    | (with_reducible apply regGate_keeps h)
    | (with_reducible apply Keeps.frame ?_ (seqRefused_within (Within.refl _ _) (all_contains_self _)) (by decide))
    | (with_reducible apply orderly_keeps)

theorem execSeqCmdHostrst_keeps {u s : State} {p : Path} {key : Byte} (h : Keeps u s) : Runs u (execSeqCmdHostrst p key s) := by
  unfold execSeqCmdHostrst seqCmdGate
  repeat' first
    | (with_reducible exact h) | (with_reducible apply Runs.next) | (with_reducible apply Keeps.ite)
    | (with_reducible apply regGate_keeps h)
    | (with_reducible apply Keeps.frame ?_ (seqRefused_within (Within.refl _ _) (all_contains_self _)) (by decide))
    | (with_reducible apply hostReset_keeps)

theorem execSeqCmdClrEvt_keeps {u s : State} {p : Path} {key : Byte} (h : Keeps u s) : Runs u (execSeqCmdClrEvt p key s) := by
  unfold execSeqCmdClrEvt seqCmdGate
  repeat' first
    | (with_reducible exact h) | (with_reducible apply Runs.next) | (with_reducible apply Keeps.ite)
    | (with_reducible apply regGate_keeps h)
    | (with_reducible apply Keeps.frame ?_ (seqRefused_within (Within.refl _ _) (all_contains_self _)) (by decide))
    | (with_reducible apply Keeps.frame ?_ (clearEvt_within (Within.refl _ _) (all_contains_self _)) (by decide))

theorem execResetStretchEnd_keeps {u s : State} {which : Fin 2} (h : Keeps u s) : Runs u (execResetStretchEnd which s) := by
  unfold execResetStretchEnd
  repeat' first
    | (with_reducible exact h) | (with_reducible apply Runs.next) | (with_reducible apply Runs.ite)
    | (with_reducible apply Keeps.frame ?_ (modSeq_within (Within.refl _ _) (all_contains_self _)) (by decide))
    | (with_reducible apply Keeps.frame ?_ (updateSens_within (Within.refl _ _) (all_contains_self _)) (by decide))

theorem execRestEntry_keeps {u s : State} (h : Keeps u s) : Runs u (execRestEntry s) := by
  unfold execRestEntry
  repeat' first
    | (with_reducible exact h) | (with_reducible exact Keeps.refl _) | (with_reducible apply Runs.next) | (with_reducible apply Runs.ite)
    | (with_reducible apply Keeps.frame ?_ (railOff_within (Within.refl _ _) (all_contains_self _)) (by decide))
    | (with_reducible apply Keeps.frame ?_ (modSeq_within (Within.refl _ _) (all_contains_self _)) (by decide))
    | (with_reducible apply Keeps.frame ?_ (stopStreams_within (Within.refl _ _) (all_contains_self _)) (by decide))
    | (with_reducible refine Keeps.forEach (fun _ _ => ?_) ?_)
    | (with_reducible apply Keeps.frame ?_ (modGal_within (Within.refl _ _) (all_contains_self _)) (by decide))

theorem execRestExit_keeps {u s : State} {fallen : Bool} (h : Keeps u s) : Runs u (execRestExit fallen s) :=
  Runs.next (h.frame (exitRest_within (Within.refl _ _) (all_contains_self _)) (by decide))

theorem execDieSensorReading_keeps {u s : State} {i : Fin 10} {t e1 e2 : Int} (h : Keeps u s) : Runs u (execDieSensorReading i t e1 e2 s) := by
  unfold execDieSensorReading
  repeat' first
    | (with_reducible exact h) | (with_reducible apply Runs.next) | (with_reducible apply Runs.ite)
    | (with_reducible apply Keeps.frame ?_ (modDie_within (Within.refl _ _) (all_contains_self _)) (by decide))
    | (with_reducible apply dieShut_keeps)
    | (with_reducible apply Keeps.frame ?_ (raiseDie_within (Within.refl _ _) (all_contains_self _)) (by decide))
    | (with_reducible apply dieTake_keeps) | ((with_reducible apply Keeps.literal); case same => simp only [stored, roles])

theorem execThmTStale_keeps {u s : State} {k : Fin 128} (h : Keeps u s) : Runs u (execThmTStale k s) := by
  unfold execThmTStale
  repeat' first
    | (with_reducible exact h) | (with_reducible apply Runs.next) | (with_reducible apply Keeps.ite)
    | (with_reducible apply Keeps.frame ?_ (noteStale_within (Within.refl _ _) (all_contains_self _)) (by decide))

theorem execDrainQuiescent_keeps {u s : State} {k : Fin 128} (h : Keeps u s) : Runs u (execDrainQuiescent k s) := by
  unfold execDrainQuiescent
  repeat' first
    | (with_reducible exact h) | (with_reducible apply Runs.next) | (with_reducible apply Keeps.ite)
    | (with_reducible apply Keeps.frame ?_ (endDrain_within (Within.refl _ _) (all_contains_self _)) (by decide))

theorem execChCmdStop_keeps {u s : State} {p : Path} {k : Fin 128} (h : Keeps u s) : Runs u (execChCmdStop p k s) :=
  Runs.next (h.frame (chCmd_within (Within.refl _ _) (all_contains_self _)) (by decide))

theorem execChCmdPause_keeps {u s : State} {p : Path} {k : Fin 128} (h : Keeps u s) : Runs u (execChCmdPause p k s) :=
  Runs.next (h.frame (chCmd_within (Within.refl _ _) (all_contains_self _)) (by decide))

theorem execChCmdResume_keeps {u s : State} {p : Path} {k : Fin 128} (h : Keeps u s) : Runs u (execChCmdResume p k s) :=
  Runs.next (h.frame (chCmd_within (Within.refl _ _) (all_contains_self _)) (by decide))

theorem execChCmdDisable_keeps {u s : State} {p : Path} {k : Fin 128} (h : Keeps u s) : Runs u (execChCmdDisable p k s) :=
  Runs.next (h.frame (chCmd_within (Within.refl _ _) (all_contains_self _)) (by decide))

theorem execChCmdEnable_keeps {u s : State} {p : Path} {k : Fin 128} (h : Keeps u s) : Runs u (execChCmdEnable p k s) :=
  Runs.next (h.frame (chCmd_within (Within.refl _ _) (all_contains_self _)) (by decide))

theorem execChCmdClearFault_keeps {u s : State} {p : Path} {k : Fin 128} (h : Keeps u s) : Runs u (execChCmdClearFault p k s) := by
  unfold execChCmdClearFault chGate
  repeat' first
    | (with_reducible exact h) | (with_reducible apply Runs.next) | (with_reducible apply Keeps.ite)
    | (with_reducible apply regGate_keeps h)
    | (with_reducible apply Keeps.frame ?_ (raiseA_within (Within.refl _ _) (all_contains_self _)) (by decide))
    | (with_reducible apply Keeps.frame ?_ (clearCmd_within (Within.refl _ _) (all_contains_self _)) (by decide))

theorem execBaseSample_keeps {u s : State} {src : SampSrc} {codeV codeI : Int} {parityOk encFault : Bool} (h : Keeps u s) : Runs u (execBaseSample src codeV codeI parityOk encFault s) := by
  unfold execBaseSample
  repeat' first
    | (with_reducible exact h) | (with_reducible apply Runs.next)
    | (with_reducible apply Keeps.frame ?_ (feSample_within (Within.refl _ _) (all_contains_self _)) (by decide))
    | (with_reducible apply Keeps.frame ?_ (sumpSample_within (Within.refl _ _) (all_contains_self _)) (by decide)) | split

theorem execFabFifoOvf_keeps {u s : State} {n : Fin 128} (h : Keeps u s) : Runs u (execFabFifoOvf n s) := by
  unfold execFabFifoOvf
  repeat' first
    | (with_reducible exact h) | (with_reducible apply Runs.next) | (with_reducible apply Runs.ite) | (with_reducible apply Keeps.ite)
    | (with_reducible apply Keeps.frame ?_ (raiseA_within (Within.refl _ _) (all_contains_self _)) (by decide))
    | (with_reducible apply Keeps.frame ?_ (substOrWait_within (Within.refl _ _) (all_contains_self _)) (by decide))
    | ((with_reducible apply Keeps.literal); case same => simp only [stored, roles])

theorem execFeCalWrite_keeps {u s : State} {p : Path} {addr : Nat} {v : Word} (h : Keeps u s) : Runs u (execFeCalWrite p addr v s) := by
  unfold execFeCalWrite
  repeat' first
    | (with_reducible exact h) | (with_reducible apply Runs.next) | (with_reducible apply Keeps.ite)
    | (with_reducible apply regGate_keeps h) | (with_reducible apply writeFeCal_keeps)

theorem execOnTimeStart_keeps {u s : State} {n : Fin 128} {at_ : Nat} (h : Keeps u s) : Runs u (execOnTimeStart n at_ s) := by
  unfold execOnTimeStart
  repeat' first
    | (with_reducible exact h) | (with_reducible apply Runs.next) | (with_reducible apply Runs.ite) | (with_reducible apply Keeps.ite)
    | (with_reducible apply Keeps.frame ?_ (limitedCycle_within (Within.refl _ _) (all_contains_self _)) (by decide))
    | (with_reducible apply Keeps.frame ?_ (modPh_within (Within.refl _ _) (all_contains_self _)) (by decide))
    | (with_reducible apply Keeps.frame ?_ (modCh_within (Within.refl _ _) (all_contains_self _)) (by decide))
    | (with_reducible apply Keeps.frame ?_ (rampShares_within (Within.refl _ _) (all_contains_self _)) (by decide))

theorem execOnTimeEnd_keeps {u s : State} {n : Fin 128} {at_ : Nat} {code : BitVec 12} {calls : Bool} (h : Keeps u s) : Runs u (execOnTimeEnd n at_ code calls s) := by
  unfold execOnTimeEnd
  repeat' first
    | (with_reducible exact h) | (with_reducible apply Runs.next) | (with_reducible apply Runs.ite)
    | (with_reducible apply Keeps.frame ?_ (limitedCycle_within (Within.refl _ _) (all_contains_self _)) (by decide))
    | (with_reducible apply Keeps.frame ?_ (modPh_within (Within.refl _ _) (all_contains_self _)) (by decide))

theorem execImonZeroCross_keeps {u s : State} {n : Fin 128} (h : Keeps u s) : Runs u (execImonZeroCross n s) := by
  unfold execImonZeroCross
  repeat' first
    | (with_reducible exact h) | (with_reducible apply Runs.next) | (with_reducible apply Runs.ite)
    | (with_reducible apply Keeps.frame ?_ (modPh_within (Within.refl _ _) (all_contains_self _)) (by decide))

theorem execTonCodeUpdate_keeps {u s : State} {n : Fin 128} (h : Keeps u s) : Runs u (execTonCodeUpdate n s) := by
  unfold execTonCodeUpdate
  repeat' first
    | (with_reducible exact h) | (with_reducible apply Runs.next) | (with_reducible apply Runs.ite)
    | (with_reducible apply Keeps.frame ?_ (modPh_within (Within.refl _ _) (all_contains_self _)) (by decide))

theorem execTokenSkip_keeps {u s : State} {n : Fin 128} {at_ : Nat} (h : Keeps u s) : Runs u (execTokenSkip n at_ s) := by
  unfold execTokenSkip
  repeat' first
    | (with_reducible exact h) | (with_reducible apply Runs.next) | (with_reducible apply Runs.ite)
    | (with_reducible apply Keeps.frame ?_ (modCh_within (Within.refl _ _) (all_contains_self _)) (by decide))
    | (with_reducible apply Keeps.frame ?_ (modPh_within (Within.refl _ _) (all_contains_self _)) (by decide))

theorem execFastLimitCross_keeps {u s : State} {n : Fin 128} {at_ : Nat} {code : BitVec 12} (h : Keeps u s) : Runs u (execFastLimitCross n at_ code s) := by
  unfold execFastLimitCross
  repeat' first
    | (with_reducible exact h) | (with_reducible apply Runs.next) | (with_reducible apply Runs.ite)
    | (with_reducible apply Keeps.frame ?_ (modPh_within (Within.refl _ _) (all_contains_self _)) (by decide))
    | (with_reducible apply Keeps.frame ?_ (limitedCycle_within (Within.refl _ _) (all_contains_self _)) (by decide))

theorem execSlowLimitBinEnd_keeps {u s : State} {n : Fin 128} {sum : Nat} (h : Keeps u s) : Runs u (execSlowLimitBinEnd n sum s) := by
  unfold execSlowLimitBinEnd
  repeat' first
    | (with_reducible exact h) | (with_reducible apply Runs.next) | (with_reducible apply Runs.ite)
    | (with_reducible apply Keeps.frame ?_ (modPh_within (Within.refl _ _) (all_contains_self _)) (by decide))
    | (with_reducible apply Keeps.frame ?_ (latchPhase_within (Within.refl _ _) (all_contains_self _)) (by decide))

theorem execPhImonRange_keeps {u s : State} {n : Fin 128} {at_ : Nat} {codes : Vector (BitVec 12) 4} (h : Keeps u s) : Runs u (execPhImonRange n at_ codes s) := by
  unfold execPhImonRange
  repeat' first
    | (with_reducible exact h) | (with_reducible apply Runs.next) | (with_reducible apply Runs.ite)
    | (with_reducible apply Keeps.frame ?_ (latchPhase_within (Within.refl _ _) (all_contains_self _)) (by decide))
    | (with_reducible apply Keeps.frame ?_ (modPh_within (Within.refl _ _) (all_contains_self _)) (by decide))

theorem execBrakeExit_keeps {u s : State} {n : Fin 128} {us : Nat} {codes : Vector (BitVec 12) 4} (h : Keeps u s) : Runs u (execBrakeExit n us codes s) := by
  unfold execBrakeExit
  repeat' first
    | (with_reducible exact h) | (with_reducible apply Runs.next) | (with_reducible apply Runs.ite)
    | (with_reducible apply Keeps.frame ?_ (leaveBrake_within (Within.refl _ _) (all_contains_self _)) (by decide))
    | (with_reducible apply Keeps.frame ?_ (modPh_within (Within.refl _ _) (all_contains_self _)) (by decide))

theorem execPhBrakeStuck_keeps {u s : State} {n : Fin 128} {at_ : Nat} (h : Keeps u s) : Runs u (execPhBrakeStuck n at_ s) := by
  unfold execPhBrakeStuck
  repeat' first
    | (with_reducible exact h) | (with_reducible apply Runs.next) | (with_reducible apply Runs.ite)
    | (with_reducible apply Keeps.frame ?_ (latchPhase_within (Within.refl _ _) (all_contains_self _)) (by decide))
    | (with_reducible apply Keeps.frame ?_ (modPh_within (Within.refl _ _) (all_contains_self _)) (by decide))

theorem execDiscOffDeadline_keeps {u s : State} {k : Fin 128} (h : Keeps u s) : Runs u (execDiscOffDeadline k s) := by
  unfold execDiscOffDeadline
  repeat' first
    | (with_reducible exact h) | (with_reducible apply Runs.next) | (with_reducible apply Runs.ite)
    | (with_reducible apply Keeps.frame ?_ (modCh_within (Within.refl _ _) (all_contains_self _)) (by decide))

theorem execStageWakeDone_keeps {u s : State} {g : Fin 8} (h : Keeps u s) : Runs u (execStageWakeDone g s) := by
  unfold execStageWakeDone
  repeat' first
    | (with_reducible exact h) | (with_reducible exact Keeps.refl _) | (with_reducible apply Runs.next) | (with_reducible apply Runs.ite)
    | (with_reducible refine Keeps.forEach (fun _ _ => ?_) ?_)
    | (with_reducible apply Keeps.frame ?_ (modPh_within (Within.refl _ _) (all_contains_self _)) (by decide))
    | (with_reducible apply Keeps.frame ?_ (modGal_within (Within.refl _ _) (all_contains_self _)) (by decide))

theorem execShedStart_keeps {u s : State} {k : Fin 128} (h : Keeps u s) : Runs u (execShedStart k s) := by
  unfold execShedStart
  repeat' first
    | (with_reducible exact h) | (with_reducible apply Runs.next) | (with_reducible apply Runs.ite)
    | (with_reducible apply Keeps.frame ?_ (modPh_within (Within.refl _ _) (all_contains_self _)) (by decide))
    | (with_reducible apply Keeps.frame ?_ (rampShares_within (Within.refl _ _) (all_contains_self _)) (by decide))
    | (with_reducible apply Keeps.frame ?_ (modCh_within (Within.refl _ _) (all_contains_self _)) (by decide))

theorem execShedComplete_keeps {u s : State} {k : Fin 128} (h : Keeps u s) : Runs u (execShedComplete k s) := by
  unfold execShedComplete
  repeat' first
    | (with_reducible exact h) | (with_reducible apply Runs.next)
    | (with_reducible apply Keeps.frame ?_ (modPh_within (Within.refl _ _) (all_contains_self _)) (by decide))
    | (with_reducible apply Keeps.frame ?_ (midPhase_within (Within.refl _ _) (all_contains_self _)) (by decide))
    | (with_reducible apply Keeps.frame ?_ (readmit_within (Within.refl _ _) (all_contains_self _)) (by decide))
    | (with_reducible apply Keeps.frame ?_ (shareEqual_within (Within.refl _ _) (all_contains_self _)) (by decide))
    | (with_reducible apply Keeps.frame ?_ (modCh_within (Within.refl _ _) (all_contains_self _)) (by decide)) | split

theorem execPhOpenLoad_keeps {u s : State} {n : Fin 128} (h : Keeps u s) : Runs u (execPhOpenLoad n s) := by
  unfold execPhOpenLoad
  repeat' first
    | (with_reducible exact h) | (with_reducible apply Runs.next) | (with_reducible apply Runs.ite)
    | (with_reducible apply Keeps.frame ?_ (declare_within (Within.refl _ _) (all_contains_self _)) (by decide))
    | (with_reducible apply Keeps.frame ?_ (raiseA_within (Within.refl _ _) (all_contains_self _)) (by decide))
    | (with_reducible apply Keeps.frame ?_ (setPhFlt_within (Within.refl _ _) (all_contains_self _)) (by decide))

theorem execConfirmBiasStart_keeps {u s : State} {k : Fin 128} (h : Keeps u s) : Runs u (execConfirmBiasStart k s) := by
  unfold execConfirmBiasStart
  repeat' first
    | (with_reducible exact h) | (with_reducible apply Runs.next)
    | (with_reducible apply Keeps.frame ?_ (modCh_within (Within.refl _ _) (all_contains_self _)) (by decide)) | split

theorem execConfirmTestOutcome_keeps {u s : State} {k : Fin 128} (h : Keeps u s) : Runs u (execConfirmTestOutcome k s) := by
  unfold execConfirmTestOutcome
  repeat' first
    | (with_reducible exact h) | (with_reducible apply Runs.next)
    | (with_reducible apply Keeps.frame ?_ (modCh_within (Within.refl _ _) (all_contains_self _)) (by decide))
    | (with_reducible apply Keeps.frame ?_ (confirmFault_within (Within.refl _ _) (all_contains_self _)) (by decide)) | split | dsimp only

theorem execConfirmTestRepeat_keeps {u s : State} {k : Fin 128} (h : Keeps u s) : Runs u (execConfirmTestRepeat k s) := by
  unfold execConfirmTestRepeat
  repeat' first
    | (with_reducible exact h) | (with_reducible apply Runs.next) | (with_reducible apply Runs.ite)
    | (with_reducible apply Keeps.frame ?_ (modCh_within (Within.refl _ _) (all_contains_self _)) (by decide))

theorem execIslandSample_keeps {u s : State} {n : Fin 128} {codeV codeI : Int} {parityOk : Bool} (h : Keeps u s) : Runs u (execIslandSample n codeV codeI parityOk s) :=
  Runs.next (h.frame (islandSample_within (Within.refl _ _) (all_contains_self _)) (by decide))

theorem execWindowComparatorTrip_keeps {u s : State} {n : Fin 128} {above tested : Bool} (h : Keeps u s) : Runs u (execWindowComparatorTrip n above tested s) := by
  unfold execWindowComparatorTrip
  repeat' first
    | (with_reducible exact h) | (with_reducible apply Runs.next) | (with_reducible apply Runs.ite) | (with_reducible apply Keeps.ite)
    | (with_reducible apply Keeps.frame ?_ (modFe_within (Within.refl _ _) (all_contains_self _)) (by decide))
    | (with_reducible apply Keeps.frame ?_ (feCond_within (Within.refl _ _) (all_contains_self _)) (by decide))
    | (with_reducible apply Keeps.frame ?_ (decideCh_within (Within.refl _ _) (all_contains_self _)) (by decide))

theorem execWindowComparatorRelease_keeps {u s : State} {n : Fin 128} {above : Bool} (h : Keeps u s) : Runs u (execWindowComparatorRelease n above s) := by
  unfold execWindowComparatorRelease
  repeat' first
    | (with_reducible exact h) | (with_reducible apply Runs.next) | (with_reducible apply Runs.ite)
    | (with_reducible apply Keeps.frame ?_ (modFe_within (Within.refl _ _) (all_contains_self _)) (by decide))
    | (with_reducible apply Keeps.frame ?_ (feCond_within (Within.refl _ _) (all_contains_self _)) (by decide))

theorem execCmpTestStart_keeps {u s : State} {n : Fin 128} (h : Keeps u s) : Runs u (execCmpTestStart n s) := by
  unfold execCmpTestStart
  repeat' first
    | (with_reducible exact h) | (with_reducible apply Runs.next) | (with_reducible apply Runs.ite)
    | (with_reducible apply Keeps.frame ?_ (modFe_within (Within.refl _ _) (all_contains_self _)) (by decide))
    | (with_reducible apply Keeps.frame ?_ (raise_within (Within.refl _ _) (all_contains_self _)) (by decide)) | split

theorem execCmpTestDone_keeps {u s : State} {n : Fin 128} {pass : Bool} (h : Keeps u s) : Runs u (execCmpTestDone n pass s) := by
  unfold execCmpTestDone
  repeat' first
    | (with_reducible exact h) | (with_reducible exact Keeps.refl _) | (with_reducible apply Runs.next)
    | (with_reducible apply Keeps.frame ?_ (modFe_within (Within.refl _ _) (all_contains_self _)) (by decide))
    | (with_reducible apply Keeps.frame ?_ (cmpReact_within (Within.refl _ _) (all_contains_self _)) (by decide))
    | (with_reducible apply Keeps.frame ?_ (retestDone_within (Within.refl _ _) (all_contains_self _)) (by decide))
    | (with_reducible apply Keeps.frame ?_ (modSaf_within (Within.refl _ _) (all_contains_self _)) (by decide))
    | (with_reducible apply Keeps.frame ?_ (decideCh_within (Within.refl _ _) (all_contains_self _)) (by decide))
    | (with_reducible apply Keeps.frame ?_ (refuseCmd_within (Within.refl _ _) (all_contains_self _)) (by decide))
    | (with_reducible refine Keeps.forEach (fun _ _ => ?_) ?_) | split | dsimp only

theorem execIslandTempCheck_keeps {u s : State} (h : Keeps u s) : Runs u (execIslandTempCheck s) := by
  unfold execIslandTempCheck
  repeat' first
    | (with_reducible exact h) | (with_reducible exact Keeps.refl _) | (with_reducible apply Runs.next) | (with_reducible apply Keeps.ite)
    | (with_reducible refine Keeps.forEach (fun _ _ => ?_) ?_)
    | (with_reducible apply Keeps.frame ?_ (checkTemp_within (Within.refl _ _) (all_contains_self _)) (by decide))

theorem execSafSumpOv2_keeps {u s : State} {above : Bool} (h : Keeps u s) : Runs u (execSafSumpOv2 above s) := by
  unfold execSafSumpOv2
  repeat' first
    | (with_reducible exact h) | (with_reducible apply Runs.next) | (with_reducible apply Runs.ite) | (with_reducible apply Keeps.ite)
    | (with_reducible apply decideDev_keeps)
    | (with_reducible apply Keeps.frame ?_ (modSaf_within (Within.refl _ _) (all_contains_self _)) (by decide))

theorem execSafSflt_keeps {u s : State} {g : Fin 8} (h : Keeps u s) : Runs u (execSafSflt g s) := by
  unfold execSafSflt
  repeat' first
    | (with_reducible exact h) | (with_reducible apply Runs.next) | (with_reducible apply Keeps.ite)
    | (with_reducible apply Keeps.frame ?_ (decideGal_within (Within.refl _ _) (all_contains_self _)) (by decide))
    | (with_reducible apply Keeps.frame ?_ (modGal_within (Within.refl _ _) (all_contains_self _)) (by decide))

theorem execSfltHigh_keeps {u s : State} {g : Fin 8} (h : Keeps u s) : Runs u (execSfltHigh g s) := by
  unfold execSfltHigh
  repeat' first
    | (with_reducible exact h) | (with_reducible apply Runs.next) | (with_reducible apply Keeps.ite)
    | (with_reducible apply Keeps.frame ?_ (modGal_within (Within.refl _ _) (all_contains_self _)) (by decide))

theorem execSafClkLoss_keeps {u s : State} (h : Keeps u s) : Runs u (execSafClkLoss s) := by
  unfold execSafClkLoss
  repeat' first
    | (with_reducible exact h) | (with_reducible apply Runs.next) | (with_reducible apply Keeps.ite)
    | (with_reducible apply decideDev_keeps)
    | (with_reducible apply Keeps.frame ?_ (modSaf_within (Within.refl _ _) (all_contains_self _)) (by decide))

theorem execSafFabricStall_keeps {u s : State} (h : Keeps u s) : Runs u (execSafFabricStall s) := by
  unfold execSafFabricStall
  repeat' first
    | (with_reducible exact h) | (with_reducible apply Runs.next) | (with_reducible apply Keeps.ite)
    | (with_reducible apply decideDev_keeps)

theorem execSafParam_keeps {u s : State} {addr : Nat} {m : Word} (h : Keeps u s) : Runs u (execSafParam addr m s) := by
  unfold execSafParam
  repeat' first
    | (with_reducible exact h) | (with_reducible apply Runs.next) | (with_reducible apply Runs.ite)
    | (with_reducible apply decideDev_keeps)
    | (with_reducible apply Keeps.frame ?_ (modSaf_within (Within.refl _ _) (all_contains_self _)) (by decide))

theorem execKeepaliveLost_keeps {u s : State} (h : Keeps u s) : Runs u (execKeepaliveLost s) :=
  Runs.next (h.frame (keepaliveStop_within (Within.refl _ _) (all_contains_self _)) (by decide))

theorem execSafLockstep_keeps {u s : State} {recovers : Bool} (h : Keeps u s) : Runs u (execSafLockstep recovers s) := by
  unfold execSafLockstep
  repeat' first
    | (with_reducible exact h) | (with_reducible apply Runs.next) | (with_reducible apply Runs.ite) | (with_reducible apply Keeps.ite)
    | (with_reducible apply Keeps.frame ?_ (keepaliveStop_within (Within.refl _ _) (all_contains_self _)) (by decide))
    | (with_reducible apply decideDev_keeps)

theorem execGalRelease_keeps {u s : State} {p : Path} {g : Fin 8} {key : Byte} (h : Keeps u s) : Runs u (execGalRelease p g key s) := by
  unfold execGalRelease safCmd
  repeat' first
    | (with_reducible exact h) | (with_reducible apply Runs.next) | (with_reducible apply Keeps.ite)
    | (with_reducible apply regGate_keeps h)
    | (with_reducible apply Keeps.frame ?_ (refuseRelease_within (Within.refl _ _) (all_contains_self _)) (by decide))
    | (with_reducible apply Keeps.frame ?_ (galRelease_within (Within.refl _ _) (all_contains_self _)) (by decide))

theorem execDevRelease_keeps {u s : State} {p : Path} {key : Byte} (h : Keeps u s) : Runs u (execDevRelease p key s) := by
  unfold execDevRelease safCmd
  repeat' first
    | (with_reducible exact h) | (with_reducible apply Runs.next) | (with_reducible apply Keeps.ite)
    | (with_reducible apply regGate_keeps h)
    | (with_reducible apply Keeps.frame ?_ (refuseRelease_within (Within.refl _ _) (all_contains_self _)) (by decide))
    | (with_reducible apply Keeps.frame ?_ (devRelease_within (Within.refl _ _) (all_contains_self _)) (by decide))

theorem execProof_keeps {u s : State} {p : Path} {key : Byte} (h : Keeps u s) : Runs u (execProof p key s) := by
  unfold execProof safCmd
  repeat' first
    | (with_reducible exact h) | (with_reducible apply Runs.next) | (with_reducible apply Keeps.ite)
    | (with_reducible apply regGate_keeps h)
    | (with_reducible apply Keeps.frame ?_ (refuseRelease_within (Within.refl _ _) (all_contains_self _)) (by decide))
    | (with_reducible apply Keeps.frame ?_ (proofStart_within (Within.refl _ _) (all_contains_self _)) (by decide))

theorem execProofDone_keeps {u s : State} {safeN decay disc : Bool} (h : Keeps u s) : Runs u (execProofDone safeN decay disc s) := by
  unfold execProofDone
  repeat' first
    | (with_reducible exact h) | (with_reducible apply Runs.next) | (with_reducible apply Runs.ite) | (with_reducible apply Keeps.ite)
    | (with_reducible apply Keeps.frame ?_ (updateSafeN_within (Within.refl _ _) (all_contains_self _)) (by decide))
    | (with_reducible apply Keeps.frame ?_ (modSaf_within (Within.refl _ _) (all_contains_self _)) (by decide))
    | (with_reducible apply Keeps.frame ?_ (raiseSrc_within (Within.refl _ _) (all_contains_self _)) (by decide))
    | (with_reducible apply nvmRequest_keeps)

theorem execSafSigrefWrite_keeps {u s : State} {p : Path} {v : Word} (h : Keeps u s) : Runs u (execSafSigrefWrite p v s) :=
  Runs.next (regGate_keeps h (h.frame (sigrefWrite_within (Within.refl _ _) (all_contains_self _)) (by decide)))

theorem execSafetySetApplied_keeps {u s : State} (h : Keeps u s) : Runs u (execSafetySetApplied s) := by
  unfold execSafetySetApplied
  repeat' first
    | (with_reducible exact h) | (with_reducible exact Keeps.refl _) | (with_reducible apply Runs.next)
    | (with_reducible apply Keeps.frame ?_ (modSaf_within (Within.refl _ _) (all_contains_self _)) (by decide))
    | (with_reducible apply setCfg_keeps) | (with_reducible refine Keeps.forEach (fun _ _ => ?_) ?_)
    | (with_reducible apply Keeps.frame ?_ (modFe_within (Within.refl _ _) (all_contains_self _)) (by decide))
    | (with_reducible apply Keeps.frame ?_ (updateSil_within (Within.refl _ _) (all_contains_self _)) (by decide))
    | (with_reducible refine Keeps.foldl (fun _ _ => ?_) ?_) | split

theorem execSignatureDone_keeps {u s : State} {flip : Option (Nat × Word)} (h : Keeps u s) : Runs u (execSignatureDone flip s) := by
  unfold execSignatureDone
  repeat' first
    | (with_reducible exact h) | (with_reducible apply Runs.next)
    | (with_reducible apply Keeps.frame ?_ (modSaf_within (Within.refl _ _) (all_contains_self _)) (by decide))
    | (with_reducible apply decideDev_keeps) | split

theorem execTcmdLaunch_keeps {u s : State} (h : Keeps u s) : Runs u (execTcmdLaunch s) :=
  Runs.next (h.frame (tcTake_within (Within.refl _ _) (all_contains_self _)) (by decide))

theorem execTcmdSetpoint_keeps {u s : State} (h : Keeps u s) : Runs u (execTcmdSetpoint s) :=
  Runs.next (h.frame (tcTake_within (Within.refl _ _) (all_contains_self _)) (by decide))

theorem execTcmdGroupRelease_keeps {u s : State} (h : Keeps u s) : Runs u (execTcmdGroupRelease s) :=
  Runs.next (h.frame (tcTake_within (Within.refl _ _) (all_contains_self _)) (by decide))

theorem execTcmdChannelCmd_keeps {u s : State} (h : Keeps u s) : Runs u (execTcmdChannelCmd s) :=
  Runs.next (h.frame (tcTake_within (Within.refl _ _) (all_contains_self _)) (by decide))

theorem execTcmdMode_keeps {u s : State} (h : Keeps u s) : Runs u (execTcmdMode s) :=
  Runs.next (h.frame (tcTake_within (Within.refl _ _) (all_contains_self _)) (by decide))

theorem execTcmdCancel_keeps {u s : State} (h : Keeps u s) : Runs u (execTcmdCancel s) :=
  Runs.next (h.frame (tcTake_within (Within.refl _ _) (all_contains_self _)) (by decide))

theorem execTcmdRelease_keeps {u s : State} {e : Fin 256} (h : Keeps u s) : Runs u (execTcmdRelease e s) := by
  unfold execTcmdRelease
  repeat' first
    | (with_reducible exact h) | (with_reducible apply Runs.next) | (with_reducible apply Runs.ite) | (with_reducible apply Keeps.ite)
    | (with_reducible apply Keeps.frame ?_ (modTc_within (Within.refl _ _) (all_contains_self _)) (by decide))
    | (with_reducible apply Keeps.frame ?_ (startDrain_within (Within.refl _ _) (all_contains_self _)) (by decide))

theorem execTcmdDone_keeps {u s : State} {e : Fin 256} (h : Keeps u s) : Runs u (execTcmdDone e s) := by
  unfold execTcmdDone
  repeat' first
    | (with_reducible exact h) | (with_reducible apply Runs.next) | (with_reducible apply Runs.ite) | (with_reducible apply Keeps.ite)
    | (with_reducible apply Keeps.frame ?_ (tcComplete_within (Within.refl _ _) (all_contains_self _)) (by decide))

theorem execGmaskCommit_keeps {u s : State} {p : Path} {g : Fin 16} {v : Word} (h : Keeps u s) : Runs u (execGmaskCommit p g v s) :=
  Runs.next (regGate_keeps h (h.frame (commitMask_within (Within.refl _ _) (all_contains_self _)) (by decide)))

theorem execGroupDisable_keeps {u s : State} {p : Path} {g : Fin 16} (h : Keeps u s) : Runs u (execGroupDisable p g s) :=
  Runs.next (regGate_keeps h (h.frame (disableGroup_within (Within.refl _ _) (all_contains_self _)) (by decide)))

theorem execModeDrainTimeout_keeps {u s : State} (h : Keeps u s) : Runs u (execModeDrainTimeout s) := by
  unfold execModeDrainTimeout
  repeat' first
    | (with_reducible exact h) | (with_reducible exact Keeps.refl _) | (with_reducible apply Runs.next) | (with_reducible apply Runs.ite)
    | (with_reducible refine Keeps.forEach (fun _ _ => ?_) ?_)
    | (with_reducible apply Keeps.frame ?_ (openDisc_within (Within.refl _ _) (all_contains_self _)) (by decide))
    | (with_reducible apply Keeps.frame ?_ (forceZero_within (Within.refl _ _) (all_contains_self _)) (by decide))
    | (with_reducible apply Keeps.frame ?_ (raiseA_within (Within.refl _ _) (all_contains_self _)) (by decide))
    | (with_reducible apply Keeps.frame ?_ (modTb_within (Within.refl _ _) (all_contains_self _)) (by decide)) | split

theorem execPpsStart_keeps {u s : State} (h : Keeps u s) : Runs u (execPpsStart s) := by
  unfold execPpsStart
  repeat' first
    | (with_reducible exact h) | (with_reducible apply Runs.next) | (with_reducible apply Keeps.ite)
    | (with_reducible apply Keeps.frame ?_ (modTb_within (Within.refl _ _) (all_contains_self _)) (by decide))

theorem execPpsEnd_keeps {u s : State} (h : Keeps u s) : Runs u (execPpsEnd s) := by
  unfold execPpsEnd
  repeat' first
    | (with_reducible exact h) | (with_reducible apply Runs.next)
    | (with_reducible apply Keeps.frame ?_ (modTb_within (Within.refl _ _) (all_contains_self _)) (by decide)) | split

theorem execTimeStepApply_keeps {u s : State} (h : Keeps u s) : Runs u (execTimeStepApply s) := by
  unfold execTimeStepApply
  repeat' first
    | (with_reducible exact h) | (with_reducible exact Keeps.refl _) | (with_reducible apply Runs.next) | (with_reducible apply Runs.ite)
    | (with_reducible apply Keeps.frame ?_ (raise_within (Within.refl _ _) (all_contains_self _)) (by decide))
    | (with_reducible apply Keeps.frame ?_ (splitStreams_within (Within.refl _ _) (all_contains_self _)) (by decide))
    | (with_reducible apply Keeps.frame ?_ (modTb_within (Within.refl _ _) (all_contains_self _)) (by decide))
    | (with_reducible refine Keeps.forEach (fun _ _ => ?_) ?_)
    | (with_reducible apply Keeps.frame ?_ (modFe_within (Within.refl _ _) (all_contains_self _)) (by decide))
    | (with_reducible apply Keeps.frame ?_ (raiseSrc_within (Within.refl _ _) (all_contains_self _)) (by decide))
    | (with_reducible apply Keeps.frame ?_ (skipTc_within (Within.refl _ _) (all_contains_self _)) (by decide)) | split

theorem execEchoPassStart_keeps {u s : State} {n : Fin 128} (h : Keeps u s) : Runs u (execEchoPassStart n s) := by
  unfold execEchoPassStart
  repeat' first
    | (with_reducible exact h) | (with_reducible apply Runs.next) | (with_reducible apply Runs.ite)
    | (with_reducible apply Keeps.frame ?_ (startEcho_within (Within.refl _ _) (all_contains_self _)) (by decide))
    | (with_reducible apply Keeps.frame ?_ (modFe_within (Within.refl _ _) (all_contains_self _)) (by decide))

theorem execEchoPassEnd_keeps {u s : State} {n : Fin 128} (h : Keeps u s) : Runs u (execEchoPassEnd n s) := by
  unfold execEchoPassEnd
  repeat' first
    | (with_reducible exact h) | (with_reducible apply Runs.next)
    | (with_reducible apply Keeps.frame ?_ (echoResult_within (Within.refl _ _) (all_contains_self _)) (by decide))
    | (with_reducible apply Keeps.frame ?_ (startEcho_within (Within.refl _ _) (all_contains_self _)) (by decide))
    | (with_reducible apply Keeps.frame ?_ (faultNext_within (Within.refl _ _) (all_contains_self _)) (by decide))
    | (with_reducible apply Keeps.frame ?_ (raiseA_within (Within.refl _ _) (all_contains_self _)) (by decide))
    | (with_reducible apply Keeps.frame ?_ (feCond_within (Within.refl _ _) (all_contains_self _)) (by decide)) | split

theorem execFeEchoOverdue_keeps {u s : State} {n : Fin 128} (h : Keeps u s) : Runs u (execFeEchoOverdue n s) := by
  unfold execFeEchoOverdue
  repeat' first
    | (with_reducible exact h) | (with_reducible apply Runs.next) | (with_reducible apply Runs.ite) | (with_reducible apply Keeps.ite)
    | (with_reducible apply Keeps.frame ?_ (raiseA_within (Within.refl _ _) (all_contains_self _)) (by decide))
    | (with_reducible apply Keeps.frame ?_ (feCond_within (Within.refl _ _) (all_contains_self _)) (by decide))
    | (with_reducible apply Keeps.frame ?_ (modCh_within (Within.refl _ _) (all_contains_self _)) (by decide))

theorem execEstPublish_keeps {u s : State} {k : Fin 128} {inTime : Bool} (h : Keeps u s) : Runs u (execEstPublish k inTime s) := by
  unfold execEstPublish
  repeat' first
    | (with_reducible exact h) | (with_reducible apply Runs.next) | (with_reducible apply Runs.ite)
    | (with_reducible apply Keeps.frame ?_ (modEst_within (Within.refl _ _) (all_contains_self _)) (by decide))

theorem execEstDiverge_keeps {u s : State} {k : Fin 128} (h : Keeps u s) : Runs u (execEstDiverge k s) := by
  unfold execEstDiverge
  repeat' first
    | (with_reducible exact h) | (with_reducible apply Runs.next) | (with_reducible apply Runs.ite)
    | (with_reducible apply Keeps.frame ?_ (raise_within (Within.refl _ _) (all_contains_self _)) (by decide))
    | (with_reducible apply Keeps.frame ?_ (modEst_within (Within.refl _ _) (all_contains_self _)) (by decide))

theorem execCapWriteback_keeps {u s : State} {k : Fin 128} (h : Keeps u s) : Runs u (execCapWriteback k s) := by
  unfold execCapWriteback
  repeat' first
    | (with_reducible exact h) | (with_reducible apply Runs.next) | (with_reducible apply Runs.ite)
    | (with_reducible apply nvmRequest_keeps)
    | (with_reducible apply Keeps.frame ?_ (modEst_within (Within.refl _ _) (all_contains_self _)) (by decide))

theorem execKlogPoint_keeps {u s : State} {k : Fin 128} (h : Keeps u s) : Runs u (execKlogPoint k s) := by
  unfold execKlogPoint
  repeat' first
    | (with_reducible exact h) | (with_reducible apply Runs.next)
    | (with_reducible apply Keeps.frame ?_ (modEst_within (Within.refl _ _) (all_contains_self _)) (by decide))
    | (with_reducible apply Keeps.frame ?_ (pushLog_within (Within.refl _ _) (all_contains_self _)) (by decide)) | split

theorem execEstCmdReinit_keeps {u s : State} {p : Path} {k : Fin 128} (h : Keeps u s) : Runs u (execEstCmdReinit p k s) := by
  unfold execEstCmdReinit estCmd chGate
  repeat' first
    | (with_reducible exact h) | (with_reducible apply Runs.next) | (with_reducible apply Keeps.ite)
    | (with_reducible apply regGate_keeps h)
    | (with_reducible apply Keeps.frame ?_ (raiseA_within (Within.refl _ _) (all_contains_self _)) (by decide))
    | (with_reducible apply Keeps.frame ?_ (raise_within (Within.refl _ _) (all_contains_self _)) (by decide))
    | (with_reducible apply Keeps.frame ?_ (estWait_within (Within.refl _ _) (all_contains_self _)) (by decide))

theorem execEstCmdKlogStart_keeps {u s : State} {p : Path} {k : Fin 128} (h : Keeps u s) : Runs u (execEstCmdKlogStart p k s) := by
  unfold execEstCmdKlogStart estCmd chGate
  repeat' first
    | (with_reducible exact h) | (with_reducible apply Runs.next) | (with_reducible apply Keeps.ite)
    | (with_reducible apply regGate_keeps h)
    | (with_reducible apply Keeps.frame ?_ (raiseA_within (Within.refl _ _) (all_contains_self _)) (by decide))
    | (with_reducible apply Keeps.frame ?_ (raise_within (Within.refl _ _) (all_contains_self _)) (by decide))
    | (with_reducible apply Keeps.frame ?_ (klogStart_within (Within.refl _ _) (all_contains_self _)) (by decide))

theorem execEstCmdKlogStop_keeps {u s : State} {p : Path} {k : Fin 128} (h : Keeps u s) : Runs u (execEstCmdKlogStop p k s) := by
  unfold execEstCmdKlogStop estCmd chGate
  repeat' first
    | (with_reducible exact h) | (with_reducible apply Runs.next) | (with_reducible apply Keeps.ite)
    | (with_reducible apply regGate_keeps h)
    | (with_reducible apply Keeps.frame ?_ (raiseA_within (Within.refl _ _) (all_contains_self _)) (by decide))
    | (with_reducible apply Keeps.frame ?_ (raise_within (Within.refl _ _) (all_contains_self _)) (by decide))
    | (with_reducible apply Keeps.frame ?_ (klogStop_within (Within.refl _ _) (all_contains_self _)) (by decide))

theorem execEstCmdGrade_keeps {u s : State} {p : Path} {k : Fin 128} (h : Keeps u s) : Runs u (execEstCmdGrade p k s) := by
  unfold execEstCmdGrade estCmd chGate
  repeat' first
    | (with_reducible exact h) | (with_reducible apply Runs.next) | (with_reducible apply Keeps.ite)
    | (with_reducible apply regGate_keeps h)
    | (with_reducible apply Keeps.frame ?_ (raiseA_within (Within.refl _ _) (all_contains_self _)) (by decide))
    | (with_reducible apply Keeps.frame ?_ (raise_within (Within.refl _ _) (all_contains_self _)) (by decide))
    | (with_reducible apply gradeCmd_keeps)

theorem execEstCmdRelearn_keeps {u s : State} {p : Path} {k : Fin 128} (h : Keeps u s) : Runs u (execEstCmdRelearn p k s) := by
  unfold execEstCmdRelearn estCmd chGate
  repeat' first
    | (with_reducible exact h) | (with_reducible apply Runs.next) | (with_reducible apply Keeps.ite)
    | (with_reducible apply regGate_keeps h)
    | (with_reducible apply Keeps.frame ?_ (raiseA_within (Within.refl _ _) (all_contains_self _)) (by decide))
    | (with_reducible apply Keeps.frame ?_ (raise_within (Within.refl _ _) (all_contains_self _)) (by decide))
    | (with_reducible apply Keeps.frame ?_ (relearnCmd_within (Within.refl _ _) (all_contains_self _)) (by decide))

theorem execRegulatorCompute_keeps {u s : State} {k : Fin 128} {slack : Int} {sums : List Nat} (h : Keeps u s) : Runs u (execRegulatorCompute k slack sums s) := by
  unfold execRegulatorCompute
  repeat' first
    | (with_reducible exact h) | (with_reducible exact Keeps.refl _) | (with_reducible apply Runs.next) | (with_reducible apply Runs.ite)
    | (with_reducible apply Keeps.frame ?_ (modCh_within (Within.refl _ _) (all_contains_self _)) (by decide))
    | (with_reducible refine Keeps.forEach (fun _ _ => ?_) ?_)
    | (with_reducible apply Keeps.frame ?_ (modPh_within (Within.refl _ _) (all_contains_self _)) (by decide))

theorem execQualifiedReturn_keeps {u s : State} {k : Fin 128} (h : Keeps u s) : Runs u (execQualifiedReturn k s) := by
  unfold execQualifiedReturn
  repeat' first
    | (with_reducible exact h) | (with_reducible apply Runs.next) | (with_reducible apply Runs.ite) | (with_reducible apply Keeps.ite)
    | (with_reducible apply Keeps.frame ?_ (modEst_within (Within.refl _ _) (all_contains_self _)) (by decide))
    | (with_reducible apply Keeps.frame ?_ (estWait_within (Within.refl _ _) (all_contains_self _)) (by decide))
    | (with_reducible apply Keeps.frame ?_ (modCh_within (Within.refl _ _) (all_contains_self _)) (by decide))
    | (with_reducible apply Keeps.frame ?_ (clearOpenLoad_within (Within.refl _ _) (all_contains_self _)) (by decide))
    | (with_reducible apply Keeps.frame ?_ (reopenStep_within (Within.refl _ _) (all_contains_self _)) (by decide))
    | (with_reducible apply Keeps.frame ?_ (wantDisc_within (Within.refl _ _) (all_contains_self _)) (by decide))
    | (with_reducible apply Keeps.frame ?_ (toIdle_within (Within.refl _ _) (all_contains_self _)) (by decide))

theorem execStepResumed_keeps {u s : State} {k : Fin 128} (h : Keeps u s) : Runs u (execStepResumed k s) := by
  unfold execStepResumed
  repeat' first
    | (with_reducible exact h) | (with_reducible apply Runs.next) | (with_reducible apply Runs.ite)
    | (with_reducible apply Keeps.frame ?_ (raise_within (Within.refl _ _) (all_contains_self _)) (by decide))
    | (with_reducible apply Keeps.frame ?_ (modCh_within (Within.refl _ _) (all_contains_self _)) (by decide))

theorem execChRcpArm_keeps {u s : State} {p : Path} {k : Fin 128} {v : Word} (h : Keeps u s) : Runs u (execChRcpArm p k v s) :=
  Runs.next (h.frame (writeRcpArm_within (Within.refl _ _) (all_contains_self _)) (by decide))

theorem execChRcpGo_keeps {u s : State} {p : Path} {k : Fin 128} (h : Keeps u s) : Runs u (execChRcpGo p k s) := by
  unfold execChRcpGo chGate
  repeat' first
    | (with_reducible exact h) | (with_reducible apply Runs.next) | (with_reducible apply Keeps.ite)
    | (with_reducible apply regGate_keeps h)
    | (with_reducible apply Keeps.frame ?_ (raiseA_within (Within.refl _ _) (all_contains_self _)) (by decide))
    | (with_reducible apply Keeps.frame ?_ (goReq_within (Within.refl _ _) (all_contains_self _)) (by decide))

theorem execAutoLaunch_keeps {u s : State} {k : Fin 128} (h : Keeps u s) : Runs u (execAutoLaunch k s) := by
  unfold execAutoLaunch
  repeat' first
    | (with_reducible exact h) | (with_reducible apply Runs.next) | (with_reducible apply Keeps.ite)
    | (with_reducible apply Keeps.frame ?_ (tryLaunch_within (Within.refl _ _) (all_contains_self _)) (by decide))

theorem execStepEngineEval_keeps {u s : State} {g : Fin 8} {slack : Int} (h : Keeps u s) : Runs u (execStepEngineEval g slack s) := by
  unfold execStepEngineEval
  repeat' first
    | (with_reducible exact h) | (with_reducible exact Keeps.refl _) | (with_reducible apply Runs.next) | (with_reducible apply Runs.ite)
    | (with_reducible apply Keeps.frame ?_ (modCh_within (Within.refl _ _) (all_contains_self _)) (by decide))
    | (with_reducible apply Keeps.frame ?_ (modGal_within (Within.refl _ _) (all_contains_self _)) (by decide))
    | (with_reducible refine Keeps.forEach (fun _ _ => ?_) ?_)

theorem execPulseSegment_keeps {u s : State} {k : Fin 128} (h : Keeps u s) : Runs u (execPulseSegment k s) := by
  unfold execPulseSegment
  repeat' first
    | (with_reducible exact h) | (with_reducible apply Runs.next) | (with_reducible apply Runs.ite)
    | (with_reducible apply Keeps.frame ?_ (stageEng_within (Within.refl _ _) (all_contains_self _)) (by decide))

theorem execRcpTempTimeout_keeps {u s : State} {k : Fin 128} (h : Keeps u s) : Runs u (execRcpTempTimeout k s) := by
  unfold execRcpTempTimeout
  repeat' first
    | (with_reducible exact h) | (with_reducible apply Runs.next) | (with_reducible apply Runs.ite)
    | (with_reducible apply Keeps.frame ?_ (stageQuit_within (Within.refl _ _) (all_contains_self _)) (by decide))

theorem execTopOffStart_keeps {u s : State} {k : Fin 128} (h : Keeps u s) : Runs u (execTopOffStart k s) := by
  unfold execTopOffStart
  repeat' first
    | (with_reducible exact h) | (with_reducible apply Runs.next) | (with_reducible apply Runs.ite)
    | (with_reducible apply Keeps.frame ?_ (stageQuit_within (Within.refl _ _) (all_contains_self _)) (by decide))
    | (with_reducible apply Keeps.frame ?_ (stageEng_within (Within.refl _ _) (all_contains_self _)) (by decide))

theorem execRcpTopoffTimeout_keeps {u s : State} {k : Fin 128} (h : Keeps u s) : Runs u (execRcpTopoffTimeout k s) := by
  unfold execRcpTopoffTimeout
  repeat' first
    | (with_reducible exact h) | (with_reducible apply Runs.next) | (with_reducible apply Runs.ite)
    | (with_reducible apply Keeps.frame ?_ (stageQuit_within (Within.refl _ _) (all_contains_self _)) (by decide))

theorem execRcpHoldEnd_keeps {u s : State} {k : Fin 128} (h : Keeps u s) : Runs u (execRcpHoldEnd k s) := by
  unfold execRcpHoldEnd
  repeat' first
    | (with_reducible exact h) | (with_reducible apply Runs.next) | (with_reducible apply Runs.ite)
    | (with_reducible apply Keeps.frame ?_ (stageQuit_within (Within.refl _ _) (all_contains_self _)) (by decide))

theorem execSumpAllocation_keeps {u s : State} {slack : Int} (h : Keeps u s) : Runs u (execSumpAllocation slack s) := by
  unfold execSumpAllocation
  repeat' first
    | (with_reducible exact h) | (with_reducible apply Runs.next) | (with_reducible apply Runs.ite)
    | (with_reducible apply Keeps.frame ?_ (modSump_within (Within.refl _ _) (all_contains_self _)) (by decide))

theorem execGrantsZeroed_keeps {u s : State} (h : Keeps u s) : Runs u (execGrantsZeroed s) := by
  unfold execGrantsZeroed
  repeat' first
    | (with_reducible exact h) | (with_reducible exact Keeps.refl _) | (with_reducible apply Runs.next) | (with_reducible apply Runs.ite)
    | (with_reducible refine Keeps.forEach (fun _ _ => ?_) ?_)
    | (with_reducible apply Keeps.frame ?_ (modCh_within (Within.refl _ _) (all_contains_self _)) (by decide))
    | (with_reducible apply Keeps.frame ?_ (modSump_within (Within.refl _ _) (all_contains_self _)) (by decide))

theorem execSumpBudgetStale_keeps {u s : State} (h : Keeps u s) : Runs u (execSumpBudgetStale s) := by
  unfold execSumpBudgetStale
  repeat' first
    | (with_reducible exact h) | (with_reducible apply Runs.next) | (with_reducible apply Runs.ite)
    | (with_reducible apply Keeps.frame ?_ (raise_within (Within.refl _ _) (all_contains_self _)) (by decide))
    | (with_reducible apply Keeps.frame ?_ (modSump_within (Within.refl _ _) (all_contains_self _)) (by decide))

theorem execRideTransitionDone_keeps {u s : State} (h : Keeps u s) : Runs u (execRideTransitionDone s) := by
  unfold execRideTransitionDone
  repeat' first
    | (with_reducible exact h) | (with_reducible exact Keeps.refl _) | (with_reducible apply Runs.next) | (with_reducible apply Runs.ite)
    | (with_reducible apply Keeps.frame ?_ (rideEvent_within (Within.refl _ _) (all_contains_self _)) (by decide))
    | (with_reducible apply Keeps.frame ?_ (modSump_within (Within.refl _ _) (all_contains_self _)) (by decide))
    | (with_reducible refine Keeps.foldl (fun _ _ => ?_) ?_)

theorem execSumpFeLost_keeps {u s : State} (h : Keeps u s) : Runs u (execSumpFeLost s) := by
  unfold execSumpFeLost
  repeat' first
    | (with_reducible exact h) | (with_reducible apply Runs.next) | (with_reducible apply Runs.ite) | (with_reducible apply Keeps.ite)
    | (with_reducible apply Keeps.frame ?_ (noteLoss_within (Within.refl _ _) (all_contains_self _)) (by decide))
    | (with_reducible apply Keeps.frame ?_ (raise_within (Within.refl _ _) (all_contains_self _)) (by decide))
    | (with_reducible apply Keeps.frame ?_ (modSump_within (Within.refl _ _) (all_contains_self _)) (by decide))
    | (with_reducible apply Keeps.frame ?_ (stagePlan_within (Within.refl _ _) (all_contains_self _)) (by decide))
    | (with_reducible apply Keeps.frame ?_ (rideEvent_within (Within.refl _ _) (all_contains_self _)) (by decide))

theorem execSourceBack_keeps {u s : State} (h : Keeps u s) : Runs u (execSourceBack s) := by
  unfold execSourceBack
  repeat' first
    | (with_reducible exact h) | (with_reducible apply Runs.next) | (with_reducible apply Runs.ite) | (with_reducible apply Keeps.ite)
    | (with_reducible apply Keeps.frame ?_ (modSump_within (Within.refl _ _) (all_contains_self _)) (by decide))
    | (with_reducible apply Keeps.frame ?_ (rideEvent_within (Within.refl _ _) (all_contains_self _)) (by decide))

theorem execSumpDroop_keeps {u s : State} (h : Keeps u s) : Runs u (execSumpDroop s) := by
  unfold execSumpDroop
  repeat' first
    | (with_reducible exact h) | (with_reducible apply Runs.next) | (with_reducible apply Runs.ite)
    | (with_reducible apply Keeps.frame ?_ (raise_within (Within.refl _ _) (all_contains_self _)) (by decide))
    | (with_reducible apply Keeps.frame ?_ (modSump_within (Within.refl _ _) (all_contains_self _)) (by decide))
    | (with_reducible apply Keeps.frame ?_ (rideEvent_within (Within.refl _ _) (all_contains_self _)) (by decide))

theorem execDroopRelease_keeps {u s : State} (h : Keeps u s) : Runs u (execDroopRelease s) := by
  unfold execDroopRelease
  repeat' first
    | (with_reducible exact h) | (with_reducible apply Runs.next) | (with_reducible apply Runs.ite) | (with_reducible apply Keeps.ite)
    | (with_reducible apply Keeps.frame ?_ (modSump_within (Within.refl _ _) (all_contains_self _)) (by decide))
    | (with_reducible apply Keeps.frame ?_ (rideEvent_within (Within.refl _ _) (all_contains_self _)) (by decide))

theorem execSumpOv_keeps {u s : State} (h : Keeps u s) : Runs u (execSumpOv s) := by
  unfold execSumpOv
  repeat' first
    | (with_reducible exact h) | (with_reducible exact Keeps.refl _) | (with_reducible apply Runs.next) | (with_reducible apply Runs.ite)
    | (with_reducible apply Keeps.frame ?_ (raise_within (Within.refl _ _) (all_contains_self _)) (by decide))
    | (with_reducible apply Keeps.frame ?_ (modSump_within (Within.refl _ _) (all_contains_self _)) (by decide))
    | (with_reducible refine Keeps.forEach (fun _ _ => ?_) ?_)
    | (with_reducible apply Keeps.frame ?_ (modPh_within (Within.refl _ _) (all_contains_self _)) (by decide))

theorem execOvRelease_keeps {u s : State} (h : Keeps u s) : Runs u (execOvRelease s) :=
  Runs.next (h.frame (modSump_within (Within.refl _ _) (all_contains_self _)) (by decide))

theorem execDroopTimeout_keeps {u s : State} (h : Keeps u s) : Runs u (execDroopTimeout s) := by
  unfold execDroopTimeout
  repeat' first
    | (with_reducible exact h) | (with_reducible apply Runs.next) | (with_reducible apply Runs.ite)
    | (with_reducible apply Keeps.frame ?_ (rideEvent_within (Within.refl _ _) (all_contains_self _)) (by decide))
    | (with_reducible apply Keeps.frame ?_ (noteLoss_within (Within.refl _ _) (all_contains_self _)) (by decide))

theorem execDroopRecovered_keeps {u s : State} (h : Keeps u s) : Runs u (execDroopRecovered s) := by
  unfold execDroopRecovered
  repeat' first
    | (with_reducible exact h) | (with_reducible apply Runs.next)
    | (with_reducible apply Keeps.frame ?_ (rideEvent_within (Within.refl _ _) (all_contains_self _)) (by decide)) | split

theorem execPauseQuiescent_keeps {u s : State} (h : Keeps u s) : Runs u (execPauseQuiescent s) := by
  unfold execPauseQuiescent
  repeat' first
    | (with_reducible exact h) | (with_reducible apply Runs.next) | (with_reducible apply Keeps.ite)
    | (with_reducible apply Keeps.frame ?_ (rideEvent_within (Within.refl _ _) (all_contains_self _)) (by decide))

theorem execRideTimeout_keeps {u s : State} (h : Keeps u s) : Runs u (execRideTimeout s) := by
  unfold execRideTimeout
  repeat' first
    | (with_reducible exact h) | (with_reducible apply Runs.next) | (with_reducible apply Keeps.ite)
    | (with_reducible apply Keeps.frame ?_ (rideEvent_within (Within.refl _ _) (all_contains_self _)) (by decide))

theorem execSumpReturned_keeps {u s : State} (h : Keeps u s) : Runs u (execSumpReturned s) := by
  unfold execSumpReturned
  repeat' first
    | (with_reducible exact h) | (with_reducible apply Runs.next) | (with_reducible apply Keeps.ite)
    | (with_reducible apply Keeps.frame ?_ (rideEvent_within (Within.refl _ _) (all_contains_self _)) (by decide))

theorem execPauseClassClear_keeps {u s : State} (h : Keeps u s) : Runs u (execPauseClassClear s) := by
  unfold execPauseClassClear
  repeat' first
    | (with_reducible exact h) | (with_reducible exact Keeps.refl _) | (with_reducible apply Runs.next)
    | (with_reducible refine Keeps.forEach (fun _ _ => ?_) ?_)
    | (with_reducible apply Keeps.frame ?_ (clearSump_within (Within.refl _ _) (all_contains_self _)) (by decide))
    | (with_reducible apply Keeps.frame ?_ (modSump_within (Within.refl _ _) (all_contains_self _)) (by decide)) | split

theorem execSumpInhibit_keeps {u s : State} (h : Keeps u s) : Runs u (execSumpInhibit s) := by
  unfold execSumpInhibit
  repeat' first
    | (with_reducible exact h) | (with_reducible apply Runs.next) | (with_reducible apply Keeps.ite)
    | (with_reducible apply Keeps.frame ?_ (inhUpdate_within (Within.refl _ _) (all_contains_self _)) (by decide))
    | (with_reducible apply Keeps.frame ?_ (modSump_within (Within.refl _ _) (all_contains_self _)) (by decide))

theorem execInhibitClear_keeps {u s : State} (h : Keeps u s) : Runs u (execInhibitClear s) := by
  unfold execInhibitClear
  repeat' first
    | (with_reducible exact h) | (with_reducible apply Runs.next) | (with_reducible apply Runs.ite)
    | (with_reducible apply Keeps.frame ?_ (inhUpdate_within (Within.refl _ _) (all_contains_self _)) (by decide))
    | (with_reducible apply Keeps.frame ?_ (modSump_within (Within.refl _ _) (all_contains_self _)) (by decide))
    | (with_reducible apply Keeps.frame ?_ (startClear_within (Within.refl _ _) (all_contains_self _)) (by decide))

theorem execPzSessionLost_keeps {u s : State} {ses : Fin 4} (h : Keeps u s) : Runs u (execPzSessionLost ses s) := by
  unfold execPzSessionLost
  repeat' first
    | (with_reducible exact h) | (with_reducible apply Runs.next) | (with_reducible apply closeSession_keeps) | split

theorem execUnlockLapse_keeps {u s : State} {ses : Fin 4} (h : Keeps u s) : Runs u (execUnlockLapse ses s) := by
  unfold execUnlockLapse
  repeat' first
    | (with_reducible exact h) | (with_reducible apply Runs.next) | (with_reducible refine modSess_keeps ?_ (fun _ => rfl)) | split

theorem execNonceLapse_keeps {u s : State} {ses : Fin 4} (h : Keeps u s) : Runs u (execNonceLapse ses s) := by
  unfold execNonceLapse
  repeat' first
    | (with_reducible exact h) | (with_reducible apply Runs.next) | (with_reducible refine modSess_keeps ?_ (fun _ => rfl)) | split

theorem execCalendarWrap_keeps {u s : State} (h : Keeps u s) : Runs u (execCalendarWrap s) := by
  unfold execCalendarWrap
  repeat' first
    | (with_reducible exact h) | (with_reducible apply Runs.next) | (with_reducible apply Runs.ite)
    | (with_reducible refine modRtc_keeps ?_ (fun _ => rfl) (fun _ => rfl))

theorem execRtcOscFail_keeps {u s : State} (h : Keeps u s) : Runs u (execRtcOscFail s) := by
  unfold execRtcOscFail
  repeat' first
    | (with_reducible exact h) | (with_reducible apply Runs.next) | (with_reducible apply Runs.ite)
    | (with_reducible refine modRtc_keeps ?_ (fun _ => rfl) (fun _ => rfl))
    | (with_reducible apply Keeps.frame ?_ (raise_within (Within.refl _ _) (all_contains_self _)) (by decide))

theorem execRtcSubsecRead_keeps {u s : State} {p : Path} (h : Keeps u s) : Runs u (execRtcSubsecRead p s) := by
  unfold execRtcSubsecRead
  repeat' first
    | (with_reducible exact h) | (with_reducible apply Runs.next) | (with_reducible apply Runs.ite)
    | (with_reducible apply freezeCal_keeps)
    | (with_reducible apply Keeps.frame ?_ (emit_within (Within.refl _ _) (all_contains_self _)) (by decide))

theorem execRtcYearRead_keeps {u s : State} {p : Path} (h : Keeps u s) : Runs u (execRtcYearRead p s) := by
  unfold execRtcYearRead
  repeat' first
    | (with_reducible exact h) | (with_reducible apply Runs.next) | (with_reducible apply Runs.ite)
    | (with_reducible apply readYear_keeps)
    | (with_reducible apply Keeps.frame ?_ (emit_within (Within.refl _ _) (all_contains_self _)) (by decide))

theorem execRtcFreezeTimeout_keeps {u s : State} {p : Path} (h : Keeps u s) : Runs u (execRtcFreezeTimeout p s) := by
  unfold execRtcFreezeTimeout
  repeat' first
    | (with_reducible exact h) | (with_reducible apply Runs.next) | (with_reducible apply Runs.ite)
    | (with_reducible refine modShad_keeps ?_ (fun _ wf => wf))

theorem execRtcCountWrite_keeps {u s : State} {p : Path} {field : CalField} {v : Word} (h : Keeps u s) : Runs u (execRtcCountWrite p field v s) :=
  Runs.next (regGate_keeps h (writeCount_keeps h))

theorem execRtcCtrlWrite_keeps {u s : State} {p : Path} {v : Word} (h : Keeps u s) : Runs u (execRtcCtrlWrite p v s) :=
  Runs.next (regGate_keeps h (writeRtcCtrl_keeps h))

theorem execRtcTrimWindow_keeps {u s : State} (h : Keeps u s) : Runs u (execRtcTrimWindow s) := by
  unfold execRtcTrimWindow
  repeat' first
    | (with_reducible exact h) | (with_reducible apply Runs.next) | (with_reducible apply Runs.ite)
    | (with_reducible refine modRtc_keeps ?_ (fun _ => rfl) (fun _ => rfl))

theorem execRtcHandoff_keeps {u s : State} (h : Keeps u s) : Runs u (execRtcHandoff s) := by
  unfold execRtcHandoff
  repeat' first
    | (with_reducible exact h) | (with_reducible apply Runs.next) | (with_reducible apply Runs.ite) | (with_reducible apply Keeps.ite)
    | (with_reducible refine modRtc_keeps ?_ (fun _ => rfl) (fun _ => rfl))
    | (with_reducible apply Keeps.frame ?_ (raise_within (Within.refl _ _) (all_contains_self _)) (by decide))

theorem execRtcAlarm_keeps {u s : State} {fallen : Bool} (h : Keeps u s) : Runs u (execRtcAlarm fallen s) := by
  unfold execRtcAlarm
  repeat' first
    | (with_reducible exact h) | (with_reducible apply Runs.next) | (with_reducible apply Runs.ite) | (with_reducible apply wake_keeps)
    | (with_reducible apply Keeps.frame ?_ (raise_within (Within.refl _ _) (all_contains_self _)) (by decide))
    | (with_reducible refine modRtc_keeps ?_ (fun _ => rfl) (fun _ => rfl))

theorem execRtcPwake_keeps {u s : State} {fallen : Bool} (h : Keeps u s) : Runs u (execRtcPwake fallen s) := by
  unfold execRtcPwake
  repeat' first
    | (with_reducible exact h) | (with_reducible apply Runs.next) | (with_reducible apply Runs.ite) | (with_reducible apply wake_keeps)
    | (with_reducible apply Keeps.frame ?_ (raise_within (Within.refl _ _) (all_contains_self _)) (by decide))
    | (with_reducible refine modRtc_keeps ?_ (fun _ => rfl) (fun _ => rfl))

theorem execRtcPwakeWrite_keeps {u s : State} {p : Path} {v : Word} (h : Keeps u s) : Runs u (execRtcPwakeWrite p v s) :=
  Runs.next (regGate_keeps h (writeRtcPwake_keeps h))

theorem execRtcBramWrite_keeps {u s : State} {p : Path} {i : Fin 16} {v : Word} (h : Keeps u s) : Runs u (execRtcBramWrite p i v s) :=
  Runs.next (regGate_keeps h (writeBram_keeps i.isLt h))

theorem execVbakCheck_keeps {u s : State} {low : Bool} (h : Keeps u s) : Runs u (execVbakCheck low s) := by
  unfold execVbakCheck
  repeat' first
    | (with_reducible exact h) | (with_reducible apply Runs.next) | (with_reducible apply Runs.ite) | (with_reducible apply Keeps.ite)
    | (with_reducible refine modRtc_keeps ?_ (fun _ => rfl) (fun _ => rfl))
    | (with_reducible apply Keeps.frame ?_ (raise_within (Within.refl _ _) (all_contains_self _)) (by decide))

theorem length_freeBytes (n : Nat) (s : State) : (freeBytes n s).1.length = n := by
  simp [freeBytes, upto]

/-- A collapse gives the backup domain its reset values and its RAM free ones. -/
theorem collapsed_keeps {u s : State} (h : Keeps u s) {q : Seq} {m : Mode} {a b : List Byte} (la : a.length = 64) (lb : b.length = 8) :
    Keeps u { s with rtc := { ({} : Rtc) with bram := a, bcrc := b }, regs := s.regs.filter (fun x => !inBackup x.1), seq := q, mode := m } := by
  refine h.trans fun f holds => ?_
  cases f with
  | regs => exact regsWf_filter _ holds
  | lengths =>
    rw [Form.Holds, lengths_iff] at holds ⊢
    obtain ⟨roles, stk, slots, fuse, -, -, wide⟩ := holds
    exact ⟨roles, stk, slots, fuse, la, lb, wide⟩
  | memory | captures | claims | controller => exact holds

theorem execDomainCollapse_keeps {u s : State} (h : Keeps u s) : Runs u (execDomainCollapse s) := by
  have drawn : Keeps u (freeBytes 8 (freeBytes 64 s).2).2 := by
    apply Keeps.frame ?_ (freeBytes_within (Within.refl _ _) (all_contains_self _)) (by decide)
    apply Keeps.frame h (freeBytes_within (Within.refl _ _) (all_contains_self _)) (by decide)
  exact Runs.next (collapsed_keeps drawn (length_freeBytes ..) (length_freeBytes ..))

theorem execEventCrossingConsume_keeps {u s : State} {prod : Producer} (h : Keeps u s) : Runs u (execEventCrossingConsume prod s) := by
  unfold execEventCrossingConsume
  repeat' first
    | (with_reducible exact h) | (with_reducible exact Keeps.refl _) | (with_reducible apply Runs.next)
    | (with_reducible apply consumeEvent_keeps) | (with_reducible refine Keeps.foldl (fun _ _ => ?_) ?_)
    | ((with_reducible apply Keeps.literal); case same => simp only [stored, roles])

theorem execHoldoffExpire_keeps {u s : State} {g : Fin 16} (h : Keeps u s) : Runs u (execHoldoffExpire g s) := by
  unfold execHoldoffExpire
  refine Runs.ite (Runs.next (h.set_intc ?_)) (Runs.next h)
  dsimp only
  split <;> rfl

theorem execIntcClaim_keeps {u s : State} {p : Path} {t : Fin 8} (h : Keeps u s) : Runs u (execIntcClaim p t s) := by
  unfold execIntcClaim
  repeat' first
    | (with_reducible exact h) | (with_reducible apply Runs.next) | (with_reducible apply Runs.ite)
    | (with_reducible apply claimRead_keeps)
    | (with_reducible apply Keeps.frame ?_ (emit_within (Within.refl _ _) (all_contains_self _)) (by decide))

theorem execIntcEoi_keeps {u s : State} {p : Path} {t : Fin 8} {v : Word} (h : Keeps u s) : Runs u (execIntcEoi p t v s) :=
  Runs.next (regGate_keeps h (eoi_keeps h))

theorem execIntcSwset_keeps {u s : State} {p : Path} {v : Word} (h : Keeps u s) : Runs u (execIntcSwset p v s) :=
  Runs.next (regGate_keeps h (h.frame (swset_within (Within.refl _ _) (all_contains_self _)) (by decide)))

theorem execVcoreAdapt_keeps {u s : State} {rate vcore : Nat} (h : Keeps u s) : Runs u (execVcoreAdapt rate vcore s) := by
  unfold execVcoreAdapt
  repeat' first
    | (with_reducible exact h) | (with_reducible apply Runs.next) | (with_reducible apply Runs.ite) | (with_reducible apply Keeps.ite)
    | (with_reducible apply Keeps.frame ?_ (modFab_within (Within.refl _ _) (all_contains_self _)) (by decide))
    | (with_reducible apply Keeps.frame ?_ (raise_within (Within.refl _ _) (all_contains_self _)) (by decide))

theorem execTbFreerun_keeps {u s : State} (h : Keeps u s) : Runs u (execTbFreerun s) := by
  unfold execTbFreerun
  repeat' first
    | (with_reducible exact h) | (with_reducible apply Runs.next) | (with_reducible apply Runs.ite)
    | (with_reducible apply Keeps.frame ?_ (raise_within (Within.refl _ _) (all_contains_self _)) (by decide))
    | (with_reducible apply Keeps.frame ?_ (modTb_within (Within.refl _ _) (all_contains_self _)) (by decide))

theorem execPtpSync_keeps {u s : State} {m : PtpMsg} (h : Keeps u s) : Runs u (execPtpSync m s) := by
  unfold execPtpSync
  repeat' first
    | (with_reducible exact h) | (with_reducible apply Runs.next)
    | (with_reducible apply Keeps.frame ?_ (modTb_within (Within.refl _ _) (all_contains_self _)) (by decide))
    | (with_reducible apply Keeps.frame ?_ (acceptSync_within (Within.refl _ _) (all_contains_self _)) (by decide)) | split

theorem execPtpAnnounce_keeps {u s : State} {m : PtpMsg} (h : Keeps u s) : Runs u (execPtpAnnounce m s) := by
  unfold execPtpAnnounce
  repeat' first
    | (with_reducible exact h) | (with_reducible apply Runs.next) | (with_reducible apply Runs.ite)
    | (with_reducible apply Keeps.frame ?_ (selectMaster_within (Within.refl _ _) (all_contains_self _)) (by decide))
    | (with_reducible apply Keeps.frame ?_ (modTb_within (Within.refl _ _) (all_contains_self _)) (by decide))

theorem execSyncLoss_keeps {u s : State} (h : Keeps u s) : Runs u (execSyncLoss s) := by
  unfold execSyncLoss
  repeat' first
    | (with_reducible exact h) | (with_reducible apply Runs.next)
    | (with_reducible apply Keeps.frame ?_ (modTb_within (Within.refl _ _) (all_contains_self _)) (by decide))
    | (with_reducible apply Keeps.frame ?_ (selectMaster_within (Within.refl _ _) (all_contains_self _)) (by decide))
    | (with_reducible apply Keeps.frame ?_ (syncLost_within (Within.refl _ _) (all_contains_self _)) (by decide)) | split | dsimp only

theorem execDelayReqSend_keeps {u s : State} {tx : Int} (h : Keeps u s) : Runs u (execDelayReqSend tx s) := by
  unfold execDelayReqSend
  repeat' first
    | (with_reducible exact h) | (with_reducible apply Runs.next) | (with_reducible apply Runs.ite) | (with_reducible apply sendPtp_keeps)
    | (with_reducible apply Keeps.frame ?_ (modTb_within (Within.refl _ _) (all_contains_self _)) (by decide))

theorem execPdelayReqSend_keeps {u s : State} {port : Fin 2} {tx : Int} (h : Keeps u s) : Runs u (execPdelayReqSend port tx s) := by
  unfold execPdelayReqSend
  repeat' first
    | (with_reducible exact h) | (with_reducible apply Runs.next) | (with_reducible apply Runs.ite) | (with_reducible apply sendPtp_keeps)
    | (with_reducible apply Keeps.frame ?_ (modTb_within (Within.refl _ _) (all_contains_self _)) (by decide))

theorem execPtpDelayMessage_keeps {u s : State} {m : PtpMsg} {tx : Int} (h : Keeps u s) : Runs u (execPtpDelayMessage m tx s) := by
  unfold execPtpDelayMessage
  repeat' first
    | (with_reducible exact h) | (with_reducible apply Runs.next)
    | (with_reducible apply Keeps.frame ?_ (modTb_within (Within.refl _ _) (all_contains_self _)) (by decide))
    | (with_reducible apply answerPdelay_keeps)
    | (with_reducible apply Keeps.frame ?_ (setLinkDelay_within (Within.refl _ _) (all_contains_self _)) (by decide)) | split

theorem execPortUp_keeps {u s : State} {port : Fin 2} (h : Keeps u s) : Runs u (execPortUp port s) := by
  unfold execPortUp
  repeat' first
    | (with_reducible exact h) | (with_reducible apply Runs.next) | (with_reducible apply Runs.ite) | (with_reducible apply Keeps.ite)
    | (with_reducible apply modPort_keeps) | (with_reducible apply takeAddress_keeps) | (with_reducible apply announce_keeps)

theorem execLinkPortDown_keeps {u s : State} {port : Fin 2} (h : Keeps u s) : Runs u (execLinkPortDown port s) := by
  unfold execLinkPortDown
  repeat' first
    | (with_reducible exact h) | (with_reducible apply Runs.next) | (with_reducible apply Runs.ite)
    | (with_reducible apply Keeps.frame ?_ (raise_within (Within.refl _ _) (all_contains_self _)) (by decide))
    | (with_reducible apply portDown_keeps)

theorem execRopeHelloSend_keeps {u s : State} {port : Fin 2} (h : Keeps u s) : Runs u (execRopeHelloSend port s) := by
  unfold execRopeHelloSend
  repeat' first
    | (with_reducible exact h) | (with_reducible apply Runs.next) | (with_reducible apply Runs.ite)
    | (with_reducible apply updateSeg_keeps) | (with_reducible apply txFrame_keeps)

theorem execRopeHello_keeps {u s : State} {port : Fin 2} {msg : List Byte} (h : Keeps u s) : Runs u (execRopeHello port msg s) := by
  unfold execRopeHello
  repeat' first
    | (with_reducible exact h) | (with_reducible apply Runs.next) | (with_reducible apply Keeps.ite)
    | (with_reducible apply pzDiscard_keeps)
    | (with_reducible apply Keeps.frame ?_ (raiseSrc_within (Within.refl _ _) (all_contains_self _)) (by decide))
    | (with_reducible apply helloIn_keeps)

theorem execHeadTimeout_keeps {u s : State} (h : Keeps u s) : Runs u (execHeadTimeout s) := by
  unfold execHeadTimeout
  repeat' first
    | (with_reducible exact h) | (with_reducible apply Runs.next) | (with_reducible apply Runs.ite) | (with_reducible apply Keeps.ite)
    | (with_reducible apply setPos_keeps) | (with_reducible refine modLink_keeps ?_ (fun _ => rfl))

theorem execTailTimeout_keeps {u s : State} (h : Keeps u s) : Runs u (execTailTimeout s) := by
  unfold execTailTimeout
  repeat' first
    | (with_reducible exact h) | (with_reducible apply Runs.next) | (with_reducible apply Runs.ite)
    | (with_reducible apply updateSeg_keeps) | (with_reducible refine modLink_keeps ?_ (fun _ => rfl))

theorem execArpRequest_keeps {u s : State} {port : Fin 2} {target ip mac : Nat} {vid : Option Nat} (h : Keeps u s) : Runs u (execArpRequest port target ip mac vid s) := by
  unfold execArpRequest
  repeat' first
    | (with_reducible exact h) | (with_reducible apply Runs.next) | (with_reducible apply Runs.ite) | (with_reducible apply txFrame_keeps)
    | (with_reducible apply learnArp_keeps)

theorem execIcmpEcho_keeps {u s : State} {port : Fin 2} {ip mac : Nat} {vid : Option Nat} {bytes : List Byte} (h : Keeps u s) : Runs u (execIcmpEcho port ip mac vid bytes s) := by
  unfold execIcmpEcho
  repeat' first
    | (with_reducible exact h) | (with_reducible apply Runs.next) | (with_reducible apply Runs.ite) | (with_reducible apply txFrame_keeps)
    | (with_reducible refine modLink_keeps ?_ (fun _ => rfl))

theorem execLaunchTickStrike_keeps {u s : State} {live : Option Int} (h : Keeps u s) : Runs u (execLaunchTickStrike live s) := by
  unfold execLaunchTickStrike
  repeat' first
    | (with_reducible exact h) | (with_reducible apply Runs.next) | (with_reducible apply Runs.ite) | (with_reducible apply strike_keeps)

theorem execWdtServe_keeps {u s : State} {p : Path} {slot : Fin 24} {v : Word} (h : Keeps u s) : Runs u (execWdtServe p slot v s) :=
  Runs.next (regGate_keeps h (serve_keeps h))

theorem execWdtExpired_keeps {u s : State} {slot : Fin 24} (h : Keeps u s) : Runs u (execWdtExpired slot s) := by
  unfold execWdtExpired
  repeat' first
    | (with_reducible exact h) | (with_reducible apply Runs.next) | (with_reducible apply Runs.ite)
    | (with_reducible apply wdtStrike_keeps) | (with_reducible apply modSlot_keeps)

theorem execWdtCfgWrite_keeps {u s : State} {p : Path} {slot : Fin 24} {v : Word} (h : Keeps u s) : Runs u (execWdtCfgWrite p slot v s) :=
  Runs.next (regGate_keeps h (writeWdtCfg_keeps h))

theorem execWdtClkLoss_keeps {u s : State} (h : Keeps u s) : Runs u (execWdtClkLoss s) := by
  unfold execWdtClkLoss
  repeat' first
    | (with_reducible exact h) | (with_reducible apply Runs.next) | (with_reducible apply Runs.ite)
    | (with_reducible apply Keeps.frame ?_ (raise_within (Within.refl _ _) (all_contains_self _)) (by decide))
    | (with_reducible refine modWdt_keeps ?_ (fun _ => rfl))

theorem execWdtIntExpired_keeps {u s : State} {slot : Fin 24} (h : Keeps u s) : Runs u (execWdtIntExpired slot s) := by
  unfold execWdtIntExpired
  repeat' first
    | (with_reducible exact h) | (with_reducible apply Runs.next) | (with_reducible apply Runs.ite) | (with_reducible apply Keeps.ite)
    | (with_reducible apply modSlot_keeps)
    | (with_reducible apply Keeps.frame ?_ (modFab_within (Within.refl _ _) (all_contains_self _)) (by decide))
    | (with_reducible apply flushUnit_keeps)
    | (with_reducible apply Keeps.frame ?_ (raiseA_within (Within.refl _ _) (all_contains_self _)) (by decide))
    | (with_reducible apply orderly_keeps)

theorem execFabUnitReset_keeps {u s : State} {slot : Fin 8} (h : Keeps u s) : Runs u (execFabUnitReset slot s) := by
  unfold execFabUnitReset
  repeat' first
    | (with_reducible exact h) | (with_reducible apply Runs.next) | (with_reducible apply Runs.ite) | (with_reducible apply nvmNext_keeps)
    | (with_reducible apply Keeps.frame ?_ (raiseA_within (Within.refl _ _) (all_contains_self _)) (by decide))
    | ((with_reducible apply Keeps.literal); case same => simp only [stored, roles])

theorem execFuseRead_keeps {u s : State} (h : Keeps u s) : Runs u (execFuseRead s) := by
  unfold execFuseRead
  repeat' first
    | (with_reducible exact h) | (with_reducible apply Runs.next) | (with_reducible apply Runs.ite) | (with_reducible apply Keeps.ite)
    | (with_reducible apply setCfg_keeps)
    | (with_reducible apply Keeps.frame ?_ (modLdr_within (Within.refl _ _) (all_contains_self _)) (by decide))
    | (with_reducible apply Keeps.frame ?_ (haltLoader_within (Within.refl _ _) (all_contains_self _)) (by decide))

theorem execIslandSelfCheckDone_keeps {u s : State} {pass : Bool} (h : Keeps u s) : Runs u (execIslandSelfCheckDone pass s) := by
  unfold execIslandSelfCheckDone
  repeat' first
    | (with_reducible exact h) | (with_reducible apply Runs.next) | (with_reducible apply Runs.ite) | (with_reducible apply Keeps.ite)
    | (with_reducible apply Keeps.frame ?_ (updateSafeN_within (Within.refl _ _) (all_contains_self _)) (by decide))
    | (with_reducible apply Keeps.frame ?_ (modSaf_within (Within.refl _ _) (all_contains_self _)) (by decide))
    | (with_reducible apply Keeps.frame ?_ (haltLoader_within (Within.refl _ _) (all_contains_self _)) (by decide))

theorem execStoreRecallDone_keeps {u s : State} {romOk : Bool} (h : Keeps u s) : Runs u (execStoreRecallDone romOk s) := by
  unfold execStoreRecallDone
  repeat' first
    | (with_reducible exact h) | (with_reducible apply Runs.next)
    | (with_reducible apply Keeps.frame ?_ (startRead_within (Within.refl _ _) (all_contains_self _)) (by decide))
    | (with_reducible apply Keeps.frame ?_ (haltLoader_within (Within.refl _ _) (all_contains_self _)) (by decide))
    | (with_reducible apply refuseRecall_keeps) | (with_reducible apply applyPatch_keeps) | (with_reducible apply recallAll_keeps) | split

theorem execRecallTimeout_keeps {u s : State} {romOk : Bool} (h : Keeps u s) : Runs u (execRecallTimeout romOk s) := by
  unfold execRecallTimeout
  repeat' first
    | (with_reducible exact h) | (with_reducible apply Runs.next) | (with_reducible apply Runs.ite) | (with_reducible apply Keeps.ite)
    | (with_reducible apply refuseRecall_keeps)
    | (with_reducible apply Keeps.frame ?_ (startRead_within (Within.refl _ _) (all_contains_self _)) (by decide))
    | (with_reducible apply Keeps.frame ?_ (haltLoader_within (Within.refl _ _) (all_contains_self _)) (by decide))

theorem execImageReadDone_keeps {u s : State} {slot : Fin 2} {bytes otherHdr : List Byte} {fail : Option Nat} {speedDrop sramOk : Bool} (h : Keeps u s) : Runs u (execImageReadDone slot bytes otherHdr fail speedDrop sramOk s) := by
  unfold execImageReadDone
  repeat' first
    | (with_reducible exact h) | (with_reducible apply Runs.next)
    | (with_reducible apply Keeps.frame ?_ (modLdr_within (Within.refl _ _) (all_contains_self _)) (by decide))
    | (with_reducible apply Keeps.frame ?_ (nacksSeen_within (Within.refl _ _) (all_contains_self _)) (by decide))
    | (with_reducible apply Keeps.frame ?_ (haltLoader_within (Within.refl _ _) (all_contains_self _)) (by decide))
    | (with_reducible apply noImage_keeps)
    | (with_reducible apply Keeps.frame ?_ (emit_within (Within.refl _ _) (all_contains_self _)) (by decide))
    | (with_reducible apply slotFails_keeps) | split

theorem execImageApplyDone_keeps {u s : State} (h : Keeps u s) : Runs u (execImageApplyDone s) := by
  unfold execImageApplyDone
  repeat' first
    | (with_reducible exact h) | (with_reducible apply Runs.next) | (with_reducible apply applyImage_keeps) | split

theorem execEndOfLoad_keeps {u s : State} {fails : List (Fin 128 × Fin 6)} (h : Keeps u s) : Runs u (execEndOfLoad fails s) := by
  unfold execEndOfLoad
  repeat' first
    | (with_reducible exact h) | (with_reducible apply Runs.next) | (with_reducible apply endLoad_keeps) | split

theorem execLdrCmdReload_keeps {u s : State} {p : Path} {key : Byte} (h : Keeps u s) : Runs u (execLdrCmdReload p key s) := by
  unfold execLdrCmdReload ldrGate
  repeat' first
    | (with_reducible exact h) | (with_reducible apply Runs.next) | (with_reducible apply Keeps.ite)
    | (with_reducible apply Keeps.frame ?_ (updRefused_within (Within.refl _ _) (all_contains_self _)) (by decide))
    | (with_reducible apply Keeps.frame ?_ (reload_within (Within.refl _ _) (all_contains_self _)) (by decide))

theorem execLdrCmdCommit_keeps {u s : State} {p : Path} {key : Byte} {slot : Fin 2} (h : Keeps u s) : Runs u (execLdrCmdCommit p key slot s) := by
  unfold execLdrCmdCommit ldrGate
  repeat' first
    | (with_reducible exact h) | (with_reducible apply Runs.next) | (with_reducible apply Keeps.ite)
    | (with_reducible apply Keeps.frame ?_ (updRefused_within (Within.refl _ _) (all_contains_self _)) (by decide))
    | (with_reducible apply Keeps.frame ?_ (commit_within (Within.refl _ _) (all_contains_self _)) (by decide))

theorem execCommitDone_keeps {u s : State} {readback : List Byte} {hdrOk : Bool} (h : Keeps u s) : Runs u (execCommitDone readback hdrOk s) := by
  unfold execCommitDone
  repeat' first
    | (with_reducible exact h) | (with_reducible apply Runs.next)
    | (with_reducible apply Keeps.frame ?_ (nacksSeen_within (Within.refl _ _) (all_contains_self _)) (by decide))
    | (with_reducible apply Keeps.frame ?_ (commitFails_within (Within.refl _ _) (all_contains_self _)) (by decide))
    | (with_reducible apply Keeps.frame ?_ (emit_within (Within.refl _ _) (all_contains_self _)) (by decide))
    | (with_reducible apply Keeps.frame ?_ (raise_within (Within.refl _ _) (all_contains_self _)) (by decide))
    | (with_reducible apply Keeps.frame ?_ (modLdr_within (Within.refl _ _) (all_contains_self _)) (by decide)) | split | dsimp only

theorem execLdrCmdAbort_keeps {u s : State} {p : Path} {key : Byte} (h : Keeps u s) : Runs u (execLdrCmdAbort p key s) := by
  unfold execLdrCmdAbort ldrGate
  repeat' first
    | (with_reducible exact h) | (with_reducible apply Runs.next) | (with_reducible apply Keeps.ite)
    | (with_reducible apply Keeps.frame ?_ (updRefused_within (Within.refl _ _) (all_contains_self _)) (by decide))
    | (with_reducible apply Keeps.frame ?_ (abortUpd_within (Within.refl _ _) (all_contains_self _)) (by decide))

theorem execDeviceDrainDone_keeps {u s : State} (h : Keeps u s) : Runs u (execDeviceDrainDone s) := by
  unfold execDeviceDrainDone
  repeat' first
    | (with_reducible exact h) | (with_reducible apply Runs.next)
    | (with_reducible apply Keeps.frame ?_ (modeDone_within (Within.refl _ _) (all_contains_self _)) (by decide))
    | (with_reducible apply enterRest_keeps) | (with_reducible apply enterLoad_keeps) | (with_reducible apply enterService_keeps)
    | (with_reducible apply orderlyStore_keeps) | split | ((with_reducible apply Keeps.literal); case same => simp only [stored, roles])

theorem execRegWrite_keeps {u s : State} {p : Path} {addr : Nat} {v : Word} (h : Keeps u s) : Runs u (execRegWrite p addr v s) := by
  unfold execRegWrite
  repeat' first
    | (with_reducible exact h) | (with_reducible apply Runs.next) | (with_reducible apply Keeps.ite)
    | (with_reducible apply writeWord_keeps)

theorem execRcRead_keeps {u s : State} {p : Path} {addr : Nat} {racing : Word} (h : Keeps u s) : Runs u (execRcRead p addr racing s) := by
  unfold execRcRead
  repeat' first
    | (with_reducible exact h) | (with_reducible apply Runs.next) | (with_reducible apply Keeps.ite)
    | (with_reducible apply readCmd_keeps)

theorem execWideReadCapture_keeps {u s : State} {p : Path} {addr : Nat} (h : Keeps u s) : Runs u (execWideReadCapture p addr s) := by
  unfold execWideReadCapture
  repeat' first
    | (with_reducible exact h) | (with_reducible apply Runs.next) | (with_reducible apply Keeps.ite)
    | (with_reducible apply readCmd_keeps)

theorem execLfrRead_keeps {u s : State} {p : Path} {n : Fin 128} (h : Keeps u s) : Runs u (execLfrRead p n s) :=
  Runs.next (readCmd_keeps h)

theorem execFeVsampRead_keeps {u s : State} {p : Path} {n : Fin 128} (h : Keeps u s) : Runs u (execFeVsampRead p n s) :=
  Runs.next (readCmd_keeps h)

theorem execTbFracRead_keeps {u s : State} {p : Path} (h : Keeps u s) : Runs u (execTbFracRead p s) :=
  Runs.next (readCmd_keeps h)

theorem execRcpSelWrite_keeps {u s : State} {p : Path} {v : Word} (h : Keeps u s) : Runs u (execRcpSelWrite p v s) :=
  Runs.next (regGate_keeps h (writeRcpSel_keeps h))

theorem execHello_keeps {u s : State} {ep : Endpoint} {msg : List Byte} (h : Keeps u s) : Runs u (execHello ep msg s) := by
  unfold execHello
  repeat' first
    | (with_reducible exact h) | (with_reducible apply Runs.next) | (with_reducible apply Keeps.ite)
    | (with_reducible apply helloAct_keeps)

theorem execBye_keeps {u s : State} {ep : Endpoint} {msg : List Byte} (h : Keeps u s) : Runs u (execBye ep msg s) := by
  unfold execBye
  repeat' first
    | (with_reducible exact h) | (with_reducible apply Runs.next) | (with_reducible apply ofType_keeps h)
    | (with_reducible apply byeAct_keeps)

theorem execHeartbeat_keeps {u s : State} {ep : Endpoint} {msg : List Byte} (h : Keeps u s) : Runs u (execHeartbeat ep msg s) :=
  Runs.next (ofType_keeps h (pzRequest_keeps (fun _ _ _ _ => Keeps.refl _) h))

theorem execRead_keeps {u s : State} {ep : Endpoint} {msg : List Byte} (h : Keeps u s) : Runs u (execRead ep msg s) :=
  Runs.next (ofType_keeps h (pzRequest_keeps (fun _ _ _ _ => readAns_keeps) h))

theorem execWrite_keeps {u s : State} {ep : Endpoint} {msg : List Byte} (h : Keeps u s) : Runs u (execWrite ep msg s) :=
  Runs.next (ofType_keeps h (pzRequest_keeps (fun _ _ _ _ => writeAns_keeps) h))

theorem execToldTemp_keeps {u s : State} {ep : Endpoint} {msg : List Byte} (h : Keeps u s) : Runs u (execToldTemp ep msg s) :=
  Runs.next (ofType_keeps h (pzRequest_keeps (fun _ _ _ _ => tempAns_keeps) h))

theorem execToldFixture_keeps {u s : State} {ep : Endpoint} {msg : List Byte} (h : Keeps u s) : Runs u (execToldFixture ep msg s) :=
  Runs.next (ofType_keeps h (pzRequest_keeps (fun _ _ _ _ => fixtureAns_keeps) h))

theorem execToldBudget_keeps {u s : State} {ep : Endpoint} {msg : List Byte} (h : Keeps u s) : Runs u (execToldBudget ep msg s) :=
  Runs.next (ofType_keeps h (pzRequest_keeps (fun _ _ _ _ => budgetAns_keeps) h))

theorem execToldInhibit_keeps {u s : State} {ep : Endpoint} {msg : List Byte} (h : Keeps u s) : Runs u (execToldInhibit ep msg s) :=
  Runs.next (ofType_keeps h (pzRequest_keeps (fun _ _ _ t =>
    (Keeps.refl t).frame (tellInhibit_within (Within.refl _ _) (all_contains_self _)) (by decide)) h))

theorem execToldCellId_keeps {u s : State} {ep : Endpoint} {msg : List Byte} (h : Keeps u s) : Runs u (execToldCellId ep msg s) :=
  Runs.next (ofType_keeps h (pzRequest_keeps (fun _ _ _ _ => cellAns_keeps) h))

theorem execExtSetpoint_keeps {u s : State} {ep : Endpoint} {msg : List Byte} (h : Keeps u s) : Runs u (execExtSetpoint ep msg s) :=
  Runs.next (ofType_keeps h (pzRequest_keeps (fun _ _ _ _ => extAns_keeps) h))

theorem execRingSub_keeps {u s : State} {ep : Endpoint} {msg : List Byte} (h : Keeps u s) : Runs u (execRingSub ep msg s) :=
  Runs.next (ofType_keeps h (pzRequest_keeps (fun _ _ _ _ => subAns_keeps) h))

theorem execRingAck_keeps {u s : State} {ep : Endpoint} {msg : List Byte} (h : Keeps u s) : Runs u (execRingAck ep msg s) := by
  unfold execRingAck
  repeat' first
    | (with_reducible exact h) | (with_reducible apply Runs.next) | (with_reducible apply ofType_keeps h)
    | (with_reducible apply ackAct_keeps)

theorem execRingReplay_keeps {u s : State} {ep : Endpoint} {msg : List Byte} (h : Keeps u s) : Runs u (execRingReplay ep msg s) :=
  Runs.next (ofType_keeps h (pzRequest_keeps (fun _ _ _ _ => replayAns_keeps) h))

theorem execRingPush_keeps {u s : State} {ep : Endpoint} {msg : List Byte} (h : Keeps u s) : Runs u (execRingPush ep msg s) :=
  Runs.next (ofType_keeps h (pzRequest_keeps (fun _ _ _ _ => pushAns_keeps) h))

theorem execInputRingConsume_keeps {u s : State} {ses : Fin 4} (h : Keeps u s) : Runs u (execInputRingConsume ses s) := by
  unfold execInputRingConsume
  repeat' first
    | (with_reducible exact h) | (with_reducible apply Runs.next)
    | (with_reducible apply Keeps.frame ?_ (modRing_within (Within.refl _ _) (all_contains_self _)) (by decide))
    | (with_reducible apply Keeps.frame ?_ (modTb_within (Within.refl _ _) (all_contains_self _)) (by decide))
    | (with_reducible apply Keeps.frame ?_ (tcJudge_within (Within.refl _ _) (all_contains_self _)) (by decide)) | split

theorem execRingDataSend_keeps {u s : State} {r : Fin 64} (h : Keeps u s) : Runs u (execRingDataSend r s) := by
  unfold execRingDataSend
  repeat' first
    | (with_reducible exact h) | (with_reducible exact Keeps.refl _) | (with_reducible apply Runs.next)
    | (with_reducible refine Keeps.forEach (fun _ _ => ?_) ?_) | (with_reducible apply sendReplay_keeps)
    | (with_reducible apply sendStream_keeps) | (with_reducible apply sendReliable_keeps) | split

theorem execRingRetransmit_keeps {u s : State} {r : Fin 64} (h : Keeps u s) : Runs u (execRingRetransmit r s) := by
  unfold execRingRetransmit
  repeat' first
    | (with_reducible exact h) | (with_reducible apply Runs.next)
    | (with_reducible apply Keeps.frame ?_ (modRing_within (Within.refl _ _) (all_contains_self _)) (by decide))
    | (with_reducible apply sendData_keeps) | split | dsimp only

theorem execRingDisable_keeps {u s : State} {p : Path} {r : Fin 64} (h : Keeps u s) : Runs u (execRingDisable p r s) :=
  Runs.next (regGate_keeps h (disableRing_keeps h))

theorem execChallenge_keeps {u s : State} {ep : Endpoint} {msg : List Byte} (h : Keeps u s) : Runs u (execChallenge ep msg s) :=
  Runs.next (accessOp_keeps (fun _ _ _ => accChallenge_keeps (Keeps.refl _)) h)

theorem execUnlockHmac_keeps {u s : State} {ep : Endpoint} {msg : List Byte} (h : Keeps u s) : Runs u (execUnlockHmac ep msg s) :=
  Runs.next (accessOp_keeps (fun _ _ _ => accUnlockHmac_keeps (Keeps.refl _)) h)

theorem execUnlockPwd_keeps {u s : State} {ep : Endpoint} {msg : List Byte} (h : Keeps u s) : Runs u (execUnlockPwd ep msg s) :=
  Runs.next (accessOp_keeps (fun _ _ _ => accUnlockPwd_keeps (Keeps.refl _)) h)

theorem execEnter_keeps {u s : State} {ep : Endpoint} {msg : List Byte} (h : Keeps u s) : Runs u (execEnter ep msg s) :=
  Runs.next (accessOp_keeps (fun _ _ _ => accEnter_keeps (Keeps.refl _)) h)

theorem execExit_keeps {u s : State} {ep : Endpoint} {msg : List Byte} (h : Keeps u s) : Runs u (execExit ep msg s) :=
  Runs.next (accessOp_keeps (fun _ _ _ => accExit_keeps (Keeps.refl _)) h)

theorem execRegionUnlock_keeps {u s : State} {ep : Endpoint} {msg : List Byte} (h : Keeps u s) : Runs u (execRegionUnlock ep msg s) :=
  Runs.next (accessOp_keeps (fun _ _ _ => accRegionUnlock_keeps (Keeps.refl _)) h)

theorem execRegionLock_keeps {u s : State} {ep : Endpoint} {msg : List Byte} (h : Keeps u s) : Runs u (execRegionLock ep msg s) :=
  Runs.next (accessOp_keeps (fun _ _ _ => accRegionLock_keeps (Keeps.refl _)) h)

theorem execRegionPwd_keeps {u s : State} {ep : Endpoint} {msg : List Byte} (h : Keeps u s) : Runs u (execRegionPwd ep msg s) :=
  Runs.next (accessOp_keeps (fun _ _ _ => accRegionPwd_keeps (Keeps.refl _)) h)

theorem execTap_keeps {u s : State} {ep : Endpoint} {msg : List Byte} (h : Keeps u s) : Runs u (execTap ep msg s) :=
  Runs.next (accessOp_keeps (fun _ _ _ => accTap_keeps (Keeps.refl _)) h)

theorem execImageBlock_keeps {u s : State} {ep : Endpoint} {msg : List Byte} (h : Keeps u s) : Runs u (execImageBlock ep msg s) :=
  Runs.next (ofType_keeps h (pzRequest_keeps (fun _ _ _ _ => blockAns_keeps) h))

theorem execEepromPageWriteDone_keeps {u s : State} {ok : Bool} (h : Keeps u s) : Runs u (execEepromPageWriteDone ok s) := by
  have seen (n : Nat) : Keeps u (nacksSeen n s) := h.frame (nacksSeen_within (Within.refl _ _) (all_contains_self _)) (by decide)
  have ldr (f : Loader → Loader) (n : Nat) : Keeps u (modLdr f (nacksSeen n s)) :=
    (seen n).frame (modLdr_within (Within.refl _ _) (all_contains_self _)) (by decide)
  unfold execEepromPageWriteDone
  split
  · refine Runs.ite (Runs.next h) ?_
    split
    · exact Runs.next h
    · refine Runs.ite (Runs.next (pagesFail_keeps ?_)) ?_
      · exact (seen _).frame (raise_within (Within.refl _ _) (all_contains_self _)) (by decide)
      · split
        · exact Runs.next ((ldr _ _).frame (emit_within (Within.refl _ _) (all_contains_self _)) (by decide))
        · refine Runs.next (blockEnd_keeps (ldr _ _) ?_)
          dsimp only [PzAns.st]
          exact ldr _ _
  · exact Runs.next h

theorem execFrameIngress_keeps {u s : State} {port : Fin 2} {f : Frame} (h : Keeps u s) : Runs u (execFrameIngress port f s) := by
  unfold execFrameIngress
  repeat' first
    | (with_reducible exact h) | (with_reducible apply Runs.next) | (with_reducible apply ingressFrame_keeps)
    | (with_reducible apply pzFrame_keeps) | split

theorem execTwiXferStart_keeps {u s : State} {p : Path} {v : Word} (h : Keeps u s) : Runs u (execTwiXferStart p v s) := by
  unfold execTwiXferStart
  repeat' first
    | (with_reducible exact h) | (with_reducible apply Runs.next) | (with_reducible apply Keeps.ite)
    | (with_reducible apply regGate_keeps h)
    | (with_reducible apply Keeps.frame ?_ (writeXctl_within (Within.refl _ _) (all_contains_self _)) (by decide))

theorem execTwiXferDone_keeps {u s : State} {r : XferEnd} (h : Keeps u s) : Runs u (execTwiXferDone r s) := by
  unfold execTwiXferDone
  repeat' first
    | (with_reducible exact h) | (with_reducible apply Runs.next)
    | (with_reducible apply Keeps.frame ?_ (modTwi_within (Within.refl _ _) (all_contains_self _)) (by decide))
    | (with_reducible apply Keeps.frame ?_ (nacksSeen_within (Within.refl _ _) (all_contains_self _)) (by decide))
    | (with_reducible apply Keeps.frame ?_ (xferFails_within (Within.refl _ _) (all_contains_self _)) (by decide)) | split

theorem execTwiArbLoss_keeps {u s : State} {addrByte : Option Byte} (h : Keeps u s) : Runs u (execTwiArbLoss addrByte s) := by
  unfold execTwiArbLoss
  repeat' first
    | (with_reducible exact h) | (with_reducible apply Runs.next) | (with_reducible apply Keeps.ite)
    | (with_reducible apply Keeps.frame ?_ (modTwi_within (Within.refl _ _) (all_contains_self _)) (by decide))

theorem execTwiRetry_keeps {u s : State} (h : Keeps u s) : Runs u (execTwiRetry s) := by
  unfold execTwiRetry
  repeat' first
    | (with_reducible exact h) | (with_reducible apply Runs.next) | (with_reducible apply Keeps.ite)
    | (with_reducible apply Keeps.frame ?_ (modTwi_within (Within.refl _ _) (all_contains_self _)) (by decide))
    | (with_reducible apply Keeps.frame ?_ (raise_within (Within.refl _ _) (all_contains_self _)) (by decide))
    | (with_reducible apply twiFails_keeps)

theorem execTwiBusStuck_keeps {u s : State} {line : StuckLine} (h : Keeps u s) : Runs u (execTwiBusStuck line s) := by
  unfold execTwiBusStuck
  repeat' first
    | (with_reducible exact h) | (with_reducible apply Runs.next)
    | (with_reducible apply Keeps.frame ?_ (modTwi_within (Within.refl _ _) (all_contains_self _)) (by decide))
    | (with_reducible apply Keeps.frame ?_ (raise_within (Within.refl _ _) (all_contains_self _)) (by decide))
    | (with_reducible apply twiFails_keeps) | split

theorem execTwiTargetWrite_keeps {u s : State} {bytes : List Byte} {busy : TwiBusy} (h : Keeps u s) : Runs u (execTwiTargetWrite bytes busy s) := by
  unfold execTwiTargetWrite twiAddressed twiAligned
  repeat' first
    | (with_reducible exact h) | (with_reducible apply Runs.next)
    | (with_reducible apply Keeps.frame ?_ (twiBusyNack_within (Within.refl _ _) (all_contains_self _)) (by decide))
    | (with_reducible apply Keeps.frame ?_ (twiAnswer_within (Within.refl _ _) (all_contains_self _)) (by decide))
    | (with_reducible apply Keeps.frame ?_ (modTwi_within (Within.refl _ _) (all_contains_self _)) (by decide))
    | (with_reducible apply twiData_keeps) | split

theorem execTwiTargetRead_keeps {u s : State} {addr : Option (List Byte)} {words : Nat} {busy : TwiBusy} (h : Keeps u s) : Runs u (execTwiTargetRead addr words busy s) := by
  unfold execTwiTargetRead twiAddressed twiAligned
  repeat' first
    | (with_reducible exact h) | (with_reducible apply Runs.next)
    | (with_reducible apply Keeps.frame ?_ (twiBusyNack_within (Within.refl _ _) (all_contains_self _)) (by decide))
    | (with_reducible apply Keeps.frame ?_ (twiAnswer_within (Within.refl _ _) (all_contains_self _)) (by decide))
    | (with_reducible apply Keeps.frame ?_ (modTwi_within (Within.refl _ _) (all_contains_self _)) (by decide))
    | (with_reducible apply twiRead_keeps) | split

end Sys2Proof.Machine
end

section
/-!
Every step keeps the forms; the obligations on what is kept.
-/

namespace Sys2Proof.Machine

/-- Every command keeps the forms. -/
theorem exec_keeps (c : Instr) {u s : State} (h : Keeps u s) : Runs u (exec c s) :=
  match c with
  | .regWrite .. => execRegWrite_keeps h | .rcRead .. => execRcRead_keeps h | .wideReadCapture .. => execWideReadCapture_keeps h
  | .lfrRead .. => execLfrRead_keeps h | .feVsampRead .. => execFeVsampRead_keeps h | .tbFracRead .. => execTbFracRead_keeps h
  | .rcpSelWrite .. => execRcpSelWrite_keeps h | .vinAuxValid .. => execVinAuxValid_keeps h | .vinAuxLost .. => execVinAuxLost_keeps h
  | .seqPfw .. => execSeqPfw_keeps h | .powerDownStart => execPowerDownStart_keeps h | .railGood .. => execRailGood_keeps h
  | .railNorise .. => execRailNorise_keeps h | .powerUpRetry .. => execPowerUpRetry_keeps h | .railFallen .. => execRailFallen_keeps h
  | .railFallTimeout .. => execRailFallTimeout_keeps h | .railWindowExit .. => execRailWindowExit_keeps h
  | .pbWake .. => execPbWake_keeps h | .pbShortPress => execPbShortPress_keeps h | .pbLongPress => execPbLongPress_keeps h
  | .seqCmdOff p .. => execSeqCmdOff_keeps (p := p) h | .seqCmdReboot p .. => execSeqCmdReboot_keeps (p := p) h
  | .seqCmdHostrst p .. => execSeqCmdHostrst_keeps (p := p) h | .seqCmdClrEvt p .. => execSeqCmdClrEvt_keeps (p := p) h
  | .resetStretchEnd .. => execResetStretchEnd_keeps h | .restEntry => execRestEntry_keeps h | .restExit .. => execRestExit_keeps h
  | .fuseRead => execFuseRead_keeps h | .islandSelfCheckDone .. => execIslandSelfCheckDone_keeps h
  | .storeRecallDone .. => execStoreRecallDone_keeps h | .recallTimeout .. => execRecallTimeout_keeps h
  | .imageReadDone .. => execImageReadDone_keeps h | .imageApplyDone => execImageApplyDone_keeps h
  | .endOfLoad .. => execEndOfLoad_keeps h | .ldrCmdReload .. => execLdrCmdReload_keeps h | .ldrCmdCommit .. => execLdrCmdCommit_keeps h
  | .commitDone .. => execCommitDone_keeps h | .ldrCmdAbort .. => execLdrCmdAbort_keeps h | .imageBlock .. => execImageBlock_keeps h
  | .eepromPageWriteDone .. => execEepromPageWriteDone_keeps h | .stageWakeDone .. => execStageWakeDone_keeps h
  | .onTimeStart .. => execOnTimeStart_keeps h | .onTimeEnd .. => execOnTimeEnd_keeps h | .imonZeroCross .. => execImonZeroCross_keeps h
  | .tonCodeUpdate .. => execTonCodeUpdate_keeps h | .tokenSkip .. => execTokenSkip_keeps h
  | .fastLimitCross .. => execFastLimitCross_keeps h | .slowLimitBinEnd .. => execSlowLimitBinEnd_keeps h
  | .phImonRange .. => execPhImonRange_keeps h | .brakeExit .. => execBrakeExit_keeps h | .phBrakeStuck .. => execPhBrakeStuck_keeps h
  | .discOffDeadline .. => execDiscOffDeadline_keeps h | .shedStart .. => execShedStart_keeps h
  | .shedComplete .. => execShedComplete_keeps h | .phOpenLoad .. => execPhOpenLoad_keeps h
  | .confirmBiasStart .. => execConfirmBiasStart_keeps h | .confirmTestOutcome .. => execConfirmTestOutcome_keeps h
  | .confirmTestRepeat .. => execConfirmTestRepeat_keeps h | .baseSample .. => execBaseSample_keeps h
  | .fabFifoOvf .. => execFabFifoOvf_keeps h | .islandSample .. => execIslandSample_keeps h
  | .windowComparatorTrip .. => execWindowComparatorTrip_keeps h | .windowComparatorRelease .. => execWindowComparatorRelease_keeps h
  | .echoPassStart .. => execEchoPassStart_keeps h | .echoPassEnd .. => execEchoPassEnd_keeps h
  | .feEchoOverdue .. => execFeEchoOverdue_keeps h | .feCalWrite p .. => execFeCalWrite_keeps (p := p) h
  | .regulatorCompute .. => execRegulatorCompute_keeps h | .launchTickStrike .. => execLaunchTickStrike_keeps h
  | .chCmdStop .. => execChCmdStop_keeps h | .chCmdPause .. => execChCmdPause_keeps h | .chCmdResume .. => execChCmdResume_keeps h
  | .chCmdClearFault .. => execChCmdClearFault_keeps h | .chCmdDisable .. => execChCmdDisable_keeps h
  | .chCmdEnable .. => execChCmdEnable_keeps h | .drainQuiescent .. => execDrainQuiescent_keeps h
  | .qualifiedReturn .. => execQualifiedReturn_keeps h | .stepResumed .. => execStepResumed_keeps h | .chRcpArm .. => execChRcpArm_keeps h
  | .chRcpGo .. => execChRcpGo_keeps h | .autoLaunch .. => execAutoLaunch_keeps h | .stepEngineEval .. => execStepEngineEval_keeps h
  | .pulseSegment .. => execPulseSegment_keeps h | .rcpTempTimeout .. => execRcpTempTimeout_keeps h
  | .topOffStart .. => execTopOffStart_keeps h | .rcpTopoffTimeout .. => execRcpTopoffTimeout_keeps h
  | .rcpHoldEnd .. => execRcpHoldEnd_keeps h | .estPublish .. => execEstPublish_keeps h | .estDiverge .. => execEstDiverge_keeps h
  | .capWriteback .. => execCapWriteback_keeps h | .estCmdReinit .. => execEstCmdReinit_keeps h
  | .estCmdKlogStart .. => execEstCmdKlogStart_keeps h | .estCmdKlogStop .. => execEstCmdKlogStop_keeps h
  | .estCmdGrade .. => execEstCmdGrade_keeps h | .estCmdRelearn .. => execEstCmdRelearn_keeps h | .klogPoint .. => execKlogPoint_keeps h
  | .sumpAllocation .. => execSumpAllocation_keeps h | .grantsZeroed => execGrantsZeroed_keeps h | .sumpFeLost => execSumpFeLost_keeps h
  | .sourceBack => execSourceBack_keeps h | .sumpInhibit => execSumpInhibit_keeps h | .inhibitClear => execInhibitClear_keeps h
  | .sumpDroop => execSumpDroop_keeps h | .droopRelease => execDroopRelease_keeps h | .sumpOv => execSumpOv_keeps h
  | .ovRelease => execOvRelease_keeps h | .droopTimeout => execDroopTimeout_keeps h | .droopRecovered => execDroopRecovered_keeps h
  | .pauseQuiescent => execPauseQuiescent_keeps h | .rideTimeout => execRideTimeout_keeps h | .sumpReturned => execSumpReturned_keeps h
  | .rideTransitionDone => execRideTransitionDone_keeps h | .pauseClassClear => execPauseClassClear_keeps h
  | .sumpBudgetStale => execSumpBudgetStale_keeps h | .ptpSync .. => execPtpSync_keeps h | .ptpAnnounce .. => execPtpAnnounce_keeps h
  | .ptpDelayMessage .. => execPtpDelayMessage_keeps h | .delayReqSend .. => execDelayReqSend_keeps h
  | .pdelayReqSend .. => execPdelayReqSend_keeps h | .syncLoss => execSyncLoss_keeps h | .tbFreerun => execTbFreerun_keeps h
  | .timeStepApply => execTimeStepApply_keeps h | .tcmdLaunch => execTcmdLaunch_keeps h | .tcmdSetpoint => execTcmdSetpoint_keeps h
  | .tcmdGroupRelease => execTcmdGroupRelease_keeps h | .tcmdChannelCmd => execTcmdChannelCmd_keeps h | .tcmdMode => execTcmdMode_keeps h
  | .tcmdCancel => execTcmdCancel_keeps h | .tcmdRelease .. => execTcmdRelease_keeps h | .tcmdDone .. => execTcmdDone_keeps h
  | .gmaskCommit p .. => execGmaskCommit_keeps (p := p) h | .groupDisable p .. => execGroupDisable_keeps (p := p) h
  | .deviceDrainDone => execDeviceDrainDone_keeps h | .modeDrainTimeout => execModeDrainTimeout_keeps h
  | .ppsStart => execPpsStart_keeps h | .ppsEnd => execPpsEnd_keeps h | .rtcHandoff => execRtcHandoff_keeps h
  | .portUp .. => execPortUp_keeps h | .linkPortDown .. => execLinkPortDown_keeps h | .frameIngress .. => execFrameIngress_keeps h
  | .ropeHelloSend .. => execRopeHelloSend_keeps h | .ropeHello .. => execRopeHello_keeps h | .headTimeout => execHeadTimeout_keeps h
  | .tailTimeout => execTailTimeout_keeps h | .arpRequest .. => execArpRequest_keeps h | .icmpEcho .. => execIcmpEcho_keeps h
  | .hello .. => execHello_keeps h | .bye .. => execBye_keeps h | .heartbeat .. => execHeartbeat_keeps h | .read .. => execRead_keeps h
  | .write .. => execWrite_keeps h | .toldTemp .. => execToldTemp_keeps h | .toldFixture .. => execToldFixture_keeps h
  | .toldBudget .. => execToldBudget_keeps h | .toldInhibit .. => execToldInhibit_keeps h | .toldCellId .. => execToldCellId_keeps h
  | .extSetpoint .. => execExtSetpoint_keeps h | .ringSub .. => execRingSub_keeps h | .ringAck .. => execRingAck_keeps h
  | .ringReplay .. => execRingReplay_keeps h | .ringPush .. => execRingPush_keeps h | .inputRingConsume .. => execInputRingConsume_keeps h
  | .ringDataSend .. => execRingDataSend_keeps h | .ringRetransmit .. => execRingRetransmit_keeps h
  | .ringDisable p .. => execRingDisable_keeps (p := p) h | .pzSessionLost .. => execPzSessionLost_keeps h
  | .challenge .. => execChallenge_keeps h | .unlockHmac .. => execUnlockHmac_keeps h | .unlockPwd .. => execUnlockPwd_keeps h
  | .enter .. => execEnter_keeps h | .exit .. => execExit_keeps h | .regionUnlock .. => execRegionUnlock_keeps h
  | .regionLock .. => execRegionLock_keeps h | .regionPwd .. => execRegionPwd_keeps h | .tap .. => execTap_keeps h
  | .unlockLapse .. => execUnlockLapse_keeps h | .nonceLapse .. => execNonceLapse_keeps h
  | .sqzCfgWrite p .. => execSqzCfgWrite_keeps (p := p) h | .islandTempCheck => execIslandTempCheck_keeps h
  | .safSumpOv2 .. => execSafSumpOv2_keeps h | .safSflt .. => execSafSflt_keeps h | .safClkLoss => execSafClkLoss_keeps h
  | .safFabricStall => execSafFabricStall_keeps h | .safParam .. => execSafParam_keeps h | .cmpTestStart .. => execCmpTestStart_keeps h
  | .cmpTestDone .. => execCmpTestDone_keeps h | .signatureDone .. => execSignatureDone_keeps h
  | .keepaliveLost => execKeepaliveLost_keeps h | .safLockstep .. => execSafLockstep_keeps h | .galRelease .. => execGalRelease_keeps h
  | .devRelease .. => execDevRelease_keeps h | .proof .. => execProof_keeps h | .proofDone .. => execProofDone_keeps h
  | .safSigrefWrite p .. => execSafSigrefWrite_keeps (p := p) h | .safetySetApplied => execSafetySetApplied_keeps h
  | .twiTargetWrite .. => execTwiTargetWrite_keeps h | .twiTargetRead .. => execTwiTargetRead_keeps h
  | .twiXferStart p .. => execTwiXferStart_keeps (p := p) h | .twiXferDone .. => execTwiXferDone_keeps h
  | .twiArbLoss .. => execTwiArbLoss_keeps h | .twiRetry => execTwiRetry_keeps h | .twiBusStuck .. => execTwiBusStuck_keeps h
  | .rtcAlarm .. => execRtcAlarm_keeps h | .rtcPwake .. => execRtcPwake_keeps h | .rtcOscFail => execRtcOscFail_keeps h
  | .rtcSubsecRead .. => execRtcSubsecRead_keeps h | .rtcYearRead .. => execRtcYearRead_keeps h
  | .rtcFreezeTimeout .. => execRtcFreezeTimeout_keeps h | .rtcCtrlWrite p .. => execRtcCtrlWrite_keeps (p := p) h
  | .rtcPwakeWrite p .. => execRtcPwakeWrite_keeps (p := p) h | .rtcBramWrite p .. => execRtcBramWrite_keeps (p := p) h
  | .vbakCheck .. => execVbakCheck_keeps h | .domainCollapse => execDomainCollapse_keeps h
  | .wdtServe p .. => execWdtServe_keeps (p := p) h | .wdtExpired .. => execWdtExpired_keeps h
  | .wdtCfgWrite p .. => execWdtCfgWrite_keeps (p := p) h | .wdtClkLoss => execWdtClkLoss_keeps h
  | .wdtIntExpired .. => execWdtIntExpired_keeps h | .dieSensorReading .. => execDieSensorReading_keeps h
  | .thmTStale .. => execThmTStale_keeps h | .eventCrossingConsume .. => execEventCrossingConsume_keeps h
  | .holdoffExpire .. => execHoldoffExpire_keeps h | .intcClaim .. => execIntcClaim_keeps h
  | .intcEoi p .. => execIntcEoi_keeps (p := p) h | .intcSwset p .. => execIntcSwset_keeps (p := p) h
  | .nvmFormat p .. => execNvmFormat_keeps (p := p) h | .nvmFormatted => execNvmFormatted_keeps h
  | .calCommit p .. => execCalCommit_keeps (p := p) h | .nvmCalCommitted => execNvmCalCommitted_keeps h
  | .define p .. => execDefine_keeps (p := p) h | .scanNow p .. => execScanNow_keeps (p := p) h | .marginScan .. => execMarginScan_keeps h
  | .nvmWordWriteDone => execNvmWordWriteDone_keeps h | .nvmWindowWrite .. => execNvmWindowWrite_keeps h
  | .commitSetDone => execCommitSetDone_keeps h | .fuseProgramWord p .. => execFuseProgramWord_keeps (p := p) h
  | .fuseProgramBlock p .. => execFuseProgramBlock_keeps (p := p) h | .accFuseDone => execAccFuseDone_keeps h
  | .vcoreAdapt .. => execVcoreAdapt_keeps h | .fabUnitReset .. => execFabUnitReset_keeps h | .calendarWrap => execCalendarWrap_keeps h
  | .rtcTrimWindow => execRtcTrimWindow_keeps h | .rtcCountWrite p .. => execRtcCountWrite_keeps (p := p) h
  | .sfltHigh .. => execSfltHigh_keeps h | .stageOperationEnable p .. => execStageOperationEnable_keeps (p := p) h

/-- A step keeps the forms: the front command on the rest of the queue, or a microsecond of the counts. -/
theorem step_keeps {s t : State} (h : step s = .next t) : Keeps s t := by
  unfold step at h
  split at h
  next c rest _ => exact exec_keeps c ((Keeps.refl s).literal (by simp only [stored])) t h
  next => exact (Host.Outcome.next.inj h) ▸ oscTick_keeps (wdtTick_keeps (Keeps.refl s))

/-- Settles O5: each of the three is a form. -/
theorem storedWordsStayCanonical : Obligations.StoredWordsStayCanonical :=
  fun _ _ h => ⟨step_keeps h .regs, step_keeps h .memory, step_keeps h .captures⟩

/-- Settles O6: the lengths are a form. -/
theorem tablesKeepTheirLengths : Obligations.TablesKeepTheirLengths := fun _ _ lengths h => step_keeps h .lengths lengths

/-- Settles O7: rising stacks are a form, and a list whose priorities fall strictly below 16 has no more entries than there are priorities. -/
theorem claimStacksKeepRising : Obligations.ClaimStacksKeepRising := by
  intro s t rise h
  have kept : StacksRise t := step_keeps h .claims rise
  refine ⟨kept, fun l mem => ?_⟩
  obtain ⟨fall, below⟩ := kept.2 l mem
  exact length_le_of_priorities_fall fall below

/-- Settles O8: at most one controller is a form. -/
theorem atMostOneController : Obligations.AtMostOneController := fun _ _ one h => step_keeps h .controller one

end Sys2Proof.Machine
end

section
/-!
Events only join the crossings: what an operation raises stands there, and what stood there stays. One lemma per operation that may raise.
-/

namespace Sys2Proof.Machine

/-- No event of s is missing in t. -/
def Grows (s t : State) : Prop := ∀ e ∈ s.fab.events, e ∈ t.fab.events

theorem Grows.refl (s : State) : Grows s s := fun _ h => h

theorem Grows.trans {s t u : State} (h : Grows s t) (k : Grows t u) : Grows s u := fun e mem => k e (h e mem)

theorem Raised.grows {c : Nat} {s t : State} (h : Raised c s) (k : Grows s t) : Raised c t := by
  obtain ⟨e, mem, cause⟩ := h
  exact ⟨e, k e mem, cause⟩

theorem Grows.update {u s t : State} (h : Grows u s) (same : t.fab.events = s.fab.events) : Grows u t := fun e mem => same ▸ h e mem

/-- A frame without the crossings. -/
theorem Grows.frame {l : List Part} {u s t : State} (h : Grows u s) (w : Within l s t) (free : l.contains .fab = false) : Grows u t := by
  have same : t.fab = s.fab := w .fab (by simpa using free)
  exact h.update (by rw [same])

theorem Grows.ite {u a b : State} {c : Prop} [Decidable c] (h : Grows u a) (k : Grows u b) : Grows u (if c then a else b) := by
  split <;> assumption

theorem Grows.ite2 {α : Type} {u : State} {c : Prop} [Decidable c] {a b : α × State} (h : Grows u a.2) (k : Grows u b.2) :
    Grows u (if c then a else b).2 := by split <;> assumption

theorem Grows.foldl {α : Type} {u s : State} {f : State → α → State} {xs : List α} (step : ∀ t x, Grows t (f t x)) (h : Grows u s) :
    Grows u (xs.foldl f s) := by
  induction xs generalizing s with
  | nil => exact h
  | cons x xs ih => exact ih (h.trans (step s x))

theorem Grows.forEach {u s : State} {f : Nat → State → State} {xs : List Nat} (step : ∀ i t, Grows t (f i t)) (h : Grows u s) :
    Grows u (forEach xs f s) := Grows.foldl (fun t i => step i t) h

section
variable {u s : State} (h : Grows u s)
include h

/-- Any update of a record that leaves the crossings. -/
theorem Grows.literal {mode seq tb ph gal fe ch est rcp sump link ring sqz saf ldr twi rtc wdt thm intc nvm acc fab shadow out free pending}
    (same : fab.events = s.fab.events) :
    Grows u ⟨mode, seq, s.regs, tb, ph, gal, fe, ch, est, rcp, sump, link, ring, sqz, saf, ldr, twi, rtc, wdt, thm, intc, nvm, acc, fab,
      shadow, out, free, pending⟩ := h.update same

theorem raiseSrc_grows {p : Producer} {c ch src k : Nat} {arg : List Byte} : Grows u (raiseSrc p c ch src k arg s) := by
  obtain ⟨e, events, -⟩ := raiseSrc_events p c ch src k arg s
  exact fun x mem => by simp [events, h x mem]

theorem raise_grows {p : Producer} {c ch : Nat} : Grows u (raise p c ch s) := raiseSrc_grows h

theorem raiseA_grows {p : Producer} {c ch a : Nat} : Grows u (raiseA p c ch a s) := raiseSrc_grows h

theorem raiseAt_grows {p : Producer} {c ch src a : Nat} : Grows u (raiseAt p c ch src a s) := raiseSrc_grows h

end

theorem clearSump_grows {u s : State} {a : Nat} {b : Nat} (h : Grows u s) : Grows u (clearSump a b s) := by
  unfold clearSump
  repeat' first
    | (with_reducible exact h) | (with_reducible exact Grows.refl _) | (with_reducible apply Grows.ite)
    | (with_reducible apply Grows.frame ?_ (modCh_within (Within.refl _ _) (all_contains_self _)) rfl)
    | (with_reducible apply raiseSrc_grows)

theorem sumpPauses_grows {u s : State} (h : Grows u s) : Grows u (sumpPauses s) := by
  unfold sumpPauses
  repeat' first
    | (with_reducible exact h) | (with_reducible exact Grows.refl _) | (with_reducible apply Grows.ite)
    | (with_reducible apply clearSump_grows)
    | (with_reducible apply Grows.frame ?_ (setSump_within (Within.refl _ _) (all_contains_self _)) rfl)
    | (with_reducible refine Grows.forEach (fun _ _ => ?_) ?_)

theorem ringPush_grows {u s : State} {a : Nat} {b : List Byte} (h : Grows u s) : Grows u (ringPush a b s) := by
  unfold ringPush
  repeat' first
    | (with_reducible exact h) | (with_reducible exact Grows.refl _) | (with_reducible apply Grows.ite)
    | (with_reducible apply Grows.frame ?_ (modRing_within (Within.refl _ _) (all_contains_self _)) rfl)
    | (with_reducible apply raiseA_grows)

theorem ringPushN_grows {u s : State} {a : Nat} {b : List Byte} (h : Grows u s) : Grows u (ringPushN a b s) := by
  unfold ringPushN
  repeat' first
    | (with_reducible exact h) | (with_reducible exact Grows.refl _) | (with_reducible apply Grows.ite)
    | (with_reducible apply Grows.frame ?_ (modRing_within (Within.refl _ _) (all_contains_self _)) rfl)
    | (with_reducible apply ringPush_grows)

theorem sendBlock_grows {u s : State} {a : Blk} {b : Nat} {c : Nat} {d : Nat} {e : Bool} {f : Bool} (h : Grows u s) : Grows u (sendBlock a b c d e f s) := by
  unfold sendBlock
  repeat' first
    | (with_reducible exact h) | (with_reducible exact Grows.refl _) | (with_reducible apply Grows.ite)
    | (with_reducible apply Grows.frame ?_ (freeBytes_within (Within.refl _ _) (all_contains_self _)) rfl)
    | (with_reducible apply Grows.frame ?_ (modSqz_within (Within.refl _ _) (all_contains_self _)) rfl)
    | (with_reducible apply raise_grows) | (with_reducible apply ringPushN_grows) | split

theorem closeBlock_grows {u s : State} {a : Nat} {b : Nat} {c : Bool} {d : Bool} {e : Bool} (h : Grows u s) : Grows u (closeBlock a b c d e s) := by
  unfold closeBlock
  repeat' first
    | (with_reducible exact h) | (with_reducible exact Grows.refl _) | (with_reducible apply Grows.ite)
    | (with_reducible apply Grows.frame ?_ (modFe_within (Within.refl _ _) (all_contains_self _)) rfl)
    | (with_reducible apply Grows.frame ?_ (modRing_within (Within.refl _ _) (all_contains_self _)) rfl)
    | (with_reducible apply Grows.frame ?_ (modSqz_within (Within.refl _ _) (all_contains_self _)) rfl)
    | (with_reducible apply Grows.frame ?_ (openBlock_within (Within.refl _ _) (all_contains_self _)) rfl)
    | (with_reducible apply sendBlock_grows) | split

theorem closeF_grows {u s : State} {a : Nat} {b : Bool} (h : Grows u s) : Grows u (closeF a b s) := by
  unfold closeF
  repeat' first
    | (with_reducible exact h) | (with_reducible exact Grows.refl _) | (with_reducible apply Grows.ite)
    | (with_reducible apply Grows.frame ?_ (modGal_within (Within.refl _ _) (all_contains_self _)) rfl)
    | (with_reducible apply ringPush_grows) | split | dsimp only

theorem leaveService_grows {u s : State} (h : Grows u s) : Grows u (leaveService s) := by
  unfold leaveService
  repeat' first
    | (with_reducible exact h) | (with_reducible exact Grows.refl _) | (with_reducible apply Grows.ite) | split
    | ((with_reducible apply Grows.literal); case same => dsimp only)

theorem tcComplete_grows {u s : State} {a : Nat} {b : Nat} (h : Grows u s) : Grows u (tcComplete a b s) := by
  unfold tcComplete
  repeat' first
    | (with_reducible exact h) | (with_reducible exact Grows.refl _) | (with_reducible apply Grows.ite)
    | (with_reducible apply Grows.frame ?_ (groupIdle_within (Within.refl _ _) (all_contains_self _)) rfl)
    | (with_reducible apply Grows.frame ?_ (modTc_within (Within.refl _ _) (all_contains_self _)) rfl)
    | (with_reducible apply raiseA_grows) | (with_reducible apply raiseSrc_grows)
    | (with_reducible refine Grows.forEach (fun _ _ => ?_) ?_)

theorem pzRaise_grows {u s : State} {a : Option Nat} {b : Nat} {c : Option Nat} (h : Grows u s) : Grows u (pzRaise a b c s) := by
  unfold pzRaise
  repeat' first
    | (with_reducible exact h) | (with_reducible exact Grows.refl _) | (with_reducible apply Grows.ite)
    | (with_reducible apply raiseSrc_grows) | split

theorem pzAnswer_grows {u s : State} {ep : Endpoint} {i ty seq fl : Nat} {b : List Byte} (h : Grows u s) :
    Grows u (pzAnswer ep i ty seq fl b s) := h.frame (pzAnswer_within (Within.refl _ _) (all_contains_self _)) rfl

/-- An answered request keeps what its answer's state keeps. -/
theorem pzDone_grows {u : State} {ep : Endpoint} {i ty seq : Nat} {a : PzAns} (h : Grows u a.st) : Grows u (pzDone ep i ty seq a) := by
  cases a with
  | ok p s => exact pzAnswer_grows h
  | refuse c arg s =>
    exact pzAnswer_grows (pzRaise_grows h)
  | failed p s => exact pzAnswer_grows h
  | later s => exact h.frame (modSess_within (Within.refl _ _) (all_contains_self _)) rfl

theorem exitService_grows {u s : State} (h : Grows u s) : Grows u (exitService s) := by
  unfold exitService
  repeat' first
    | (with_reducible exact h) | (with_reducible exact Grows.refl _) | (with_reducible apply Grows.ite)
    | (with_reducible apply Grows.frame ?_ (abortAll_within (Within.refl _ _) (all_contains_self _)) rfl)
    | (with_reducible apply Grows.frame ?_ (goMode_within (Within.refl _ _) (all_contains_self _)) rfl)
    | (with_reducible apply leaveService_grows)
    | (with_reducible apply Grows.frame ?_ (modAcc_within (Within.refl _ _) (all_contains_self _)) rfl)
    | (with_reducible apply Grows.frame ?_ (modLink_within (Within.refl _ _) (all_contains_self _)) rfl)
    | (with_reducible apply raise_grows)
    | (with_reducible apply Grows.frame ?_ (updateSens_within (Within.refl _ _) (all_contains_self _)) rfl)

theorem enterSafe_grows {u s : State} (h : Grows u s) : Grows u (enterSafe s) := by
  unfold enterSafe
  repeat' first
    | (with_reducible exact h) | (with_reducible exact Grows.refl _) | (with_reducible apply Grows.ite)
    | (with_reducible apply Grows.frame ?_ (abortAll_within (Within.refl _ _) (all_contains_self _)) rfl)
    | (with_reducible apply leaveService_grows) | (with_reducible apply raise_grows)
    | (with_reducible apply Grows.frame ?_ (safeRails_within (Within.refl _ _) (all_contains_self _)) rfl) | split
    | ((with_reducible apply Grows.literal); case same => dsimp only)

theorem enterDev_grows {u s : State} {a : Nat} {b : Nat} {c : Bool} (h : Grows u s) : Grows u (enterDev a b c s) := by
  unfold enterDev
  repeat' first
    | (with_reducible exact h) | (with_reducible exact Grows.refl _) | (with_reducible apply Grows.ite)
    | (with_reducible apply enterSafe_grows) | (with_reducible apply raiseSrc_grows) | split
    | ((with_reducible apply Grows.literal); case same => dsimp only)

theorem decideDev_grows {u s : State} {a : Nat} {b : Nat} {c : Bool} (h : Grows u s) : Grows u (decideDev a b c s) := by
  unfold decideDev
  repeat' first
    | (with_reducible exact h) | (with_reducible exact Grows.refl _) | (with_reducible apply Grows.ite)
    | (with_reducible apply enterDev_grows)
    | (with_reducible apply Grows.frame ?_ (safeDevice_within (Within.refl _ _) (all_contains_self _)) rfl)
    | (with_reducible apply Grows.frame ?_ (setHist_within (Within.refl _ _) (all_contains_self _)) rfl) | split
    | ((with_reducible apply Grows.literal); case same => dsimp only)

theorem sendResult_grows {u s : State} {a : Nat} {b : Nat} {c : Nat} {d : Bool} {e : Graded} (h : Grows u s) : Grows u (sendResult a b c d e s) := by
  unfold sendResult
  repeat' first
    | (with_reducible exact h) | (with_reducible exact Grows.refl _) | (with_reducible apply Grows.ite)
    | (with_reducible apply Grows.frame ?_ (modEst_within (Within.refl _ _) (all_contains_self _)) rfl)
    | (with_reducible apply Grows.frame ?_ (nvmRequest_within (Within.refl _ _) (all_contains_self _)) rfl)
    | (with_reducible apply raise_grows) | (with_reducible apply ringPush_grows) | split
    | ((with_reducible apply Grows.literal); case same => dsimp only)

theorem decideGal_grows {u s : State} {a : Nat} {b : Nat} (h : Grows u s) : Grows u (decideGal a b s) := by
  unfold decideGal
  repeat' first
    | (with_reducible exact h) | (with_reducible exact Grows.refl _) | (with_reducible apply Grows.ite)
    | (with_reducible apply Grows.frame ?_ (modCh_within (Within.refl _ _) (all_contains_self _)) rfl)
    | (with_reducible apply Grows.frame ?_ (modGal_within (Within.refl _ _) (all_contains_self _)) rfl)
    | (with_reducible apply raiseAt_grows)
    | (with_reducible apply Grows.frame ?_ (safeGallery_within (Within.refl _ _) (all_contains_self _)) rfl)
    | (with_reducible apply Grows.frame ?_ (setHist_within (Within.refl _ _) (all_contains_self _)) rfl)
    | (with_reducible refine Grows.forEach (fun _ _ => ?_) ?_) | split | ((with_reducible apply Grows.literal); case same => dsimp only)

theorem dieShut_grows {u s : State} {a : Nat} (h : Grows u s) : Grows u (dieShut a s) := by
  unfold dieShut
  repeat' first
    | (with_reducible exact h) | (with_reducible exact Grows.refl _) | (with_reducible apply Grows.ite)
    | (with_reducible apply decideDev_grows) | (with_reducible apply decideGal_grows)

theorem blockEnd_grows {u s : State} {x : Update} {a : State → PzAns} (h : Grows u s) (ha : Grows u (a s).st) : Grows u (blockEnd x a s) := by
  unfold blockEnd
  repeat' first
    | exact h | exact pzDone_grows ha | split

theorem pagesFail_grows {u s : State} {cause : Nat} (h : Grows u s) : Grows u (pagesFail cause s) := by
  unfold pagesFail
  split
  next x _ =>
    have ended : Grows u (modLdr (fun l => { l with upd := some { x with pages := [], block := none } }) s) :=
      h.frame (modLdr_within (Within.refl _ _) (all_contains_self _)) rfl
    exact h.ite (blockEnd_grows ended ended)
  · exact h

theorem skipTc_grows {u s : State} {a : Nat} {b : Nat} {c : Nat} (h : Grows u s) : Grows u (skipTc a b c s) := by
  unfold skipTc
  repeat' first
    | (with_reducible exact h) | (with_reducible exact Grows.refl _) | (with_reducible apply Grows.ite)
    | (with_reducible apply Grows.frame ?_ (drainOf_within (Within.refl _ _) (all_contains_self _)) rfl)
    | (with_reducible apply Grows.frame ?_ (modTc_within (Within.refl _ _) (all_contains_self _)) rfl)
    | (with_reducible apply tcComplete_grows)

theorem splitStreams_grows {u s : State} (h : Grows u s) : Grows u (splitStreams s) := by
  unfold splitStreams
  repeat' first
    | (with_reducible exact h) | (with_reducible exact Grows.refl _) | (with_reducible apply Grows.ite)
    | (with_reducible apply closeBlock_grows) | (with_reducible apply closeF_grows)
    | (with_reducible apply Grows.frame ?_ (modGal_within (Within.refl _ _) (all_contains_self _)) rfl)
    | (with_reducible refine Grows.forEach (fun _ _ => ?_) ?_) | split | dsimp only

end Sys2Proof.Machine
end

section
/-!
The step of line time (R258): the timed commands it skips or moves keep the clock, and the front ends are marked one by one.
-/

namespace Sys2Proof.Machine

/-! ### The clock -/

/-- Run time, line time and what is requested and counted of steps. -/
def Timebase.clock (t : Timebase) : Nat × Nat × Nat × Option (Int × Nat) × Nat := (t.run, t.sec, t.frac, t.step, t.nSteps)

theorem tb_forEach_raiseA {p : Producer} {c a : Nat} (l : List Nat) (s : State) :
    (forEach l (fun k t => raiseA p c k a t) s).tb = s.tb :=
  Within.forEach (fun _ _ => raiseA_within (Within.refl [.fab] _) rfl) (Within.refl _ _) .tb (by decide)

theorem clock_tcComplete (i outcome : Nat) (s : State) : (tcComplete i outcome s).tb.clock = s.tb.clock := by
  have idle (g : Nat) (t : State) : (groupIdle g t).tb.clock = t.tb.clock := by
    unfold groupIdle
    split <;> rfl
  unfold tcComplete
  dsimp only
  split
  · rw [idle, tb_forEach_raiseA]; rfl
  · rw [tb_forEach_raiseA]; rfl

theorem clock_skipTc (old new i : Nat) (s : State) : (skipTc old new i s).tb.clock = s.tb.clock := by
  have drain (f : DevDrain → Option DevDrain) (t : State) : (drainOf i f t).tb.clock = t.tb.clock := rfl
  unfold skipTc
  dsimp only
  split
  · rw [drain, clock_tcComplete]; rfl
  · split
    · rw [drain]; rfl
    · rfl

theorem clock_skipAll (old new : Nat) (l : List Nat) (s : State) : (forEach l (skipTc old new) s).tb.clock = s.tb.clock := by
  unfold forEach
  induction l generalizing s with
  | nil => rfl
  | cons i l ih => rw [List.foldl_cons, ih, clock_skipTc]

theorem skipAll_within (old new : Nat) (l : List Nat) (s : State) : Within [.tb, .fab] s (forEach l (skipTc old new) s) :=
  Within.forEach (fun _ _ => skipTc_within (Within.refl _ _) rfl) (Within.refl _ _)

/-- The clock after a step to the line time u. -/
theorem clock_setLine (u : Nat) (t : Timebase) :
    ({ setLine u t with step := none, nSteps := incSat 8 t.nSteps, stepTk := t.run } : Timebase).clock =
      (t.run, u / 2 ^ 32, u % 2 ^ 32, none, incSat 8 t.nSteps) := rfl

/-! ### The step -/

/-- The streams are split and the clock is set, after TB_STEP_FORCED where the step was forced. -/
def steppedClock (new : Nat) (forced : Bool) (s : State) : State :=
  modTb (fun t => { setLine new t with step := none, nSteps := incSat 8 t.nSteps, stepTk := t.run })
    (splitStreams (if forced then raise .timebase Cause.tbStepForced 0xFF s else s))

theorem steppedClock_within (new : Nat) (forced : Bool) (s : State) :
    Within [.tb, .gal, .fe, .ring, .sqz, .fab, .free] s (steppedClock new forced s) :=
  modTb_within (splitStreams_within (Within.ite (raise_within (Within.refl _ _) rfl) (Within.refl _ _)) rfl) rfl

theorem steppedClock_clock (new : Nat) (forced : Bool) (s : State) :
    (steppedClock new forced s).tb.clock = (s.tb.run, new / 2 ^ 32, new % 2 ^ 32, none, incSat 8 s.tb.nSteps) := by
  have same : (splitStreams (if forced then raise .timebase Cause.tbStepForced 0xFF s else s)).tb = s.tb :=
    splitStreams_within (l := [.gal, .fe, .ring, .sqz, .fab, .free]) (Within.ite (raise_within (Within.refl _ _) rfl) (Within.refl _ _)) rfl
      .tb (by decide)
  simp only [steppedClock, modTb, clock_setLine, same]

theorem steppedClock_raised (new : Nat) (s : State) : Raised Cause.tbStepForced (steppedClock new true s) :=
  (raised_raise ..).grows ((splitStreams_grows (Grows.refl _)).frame (modTb_within (Within.refl [.tb] _) rfl) rfl)

/-- The front ends after each is marked for its substituted samples. -/
def markFes (at_ : Nat) (s : State) : State := forEach (upto 128) (modFe · fun f => { f with stepSub := at_ }) s

/-- The front ends are marked and the step of dc, in seconds of 2^-28, is raised with line time before and after. -/
def announceStep (dc : Int) (before s : State) : State :=
  let t := markFes (before.tb.run + 3) s
  raiseSrc .timebase Cause.timeStepped 0xFF 141 5
    (leBytesI 8 (rnd (dc * 1000000000) (2 ^ 28)) ++ (leBytes 4 before.tb.frac ++ leBytes 6 before.tb.sec ++ [0, 0]) ++
      leBytes 4 t.tb.frac ++ leBytes 6 t.tb.sec ++ [0, 0]) t

theorem announceStep_fe (dc : Int) (before s : State) : (announceStep dc before s).fe = (markFes (before.tb.run + 3) s).fe := raiseSrc_fe ..

theorem markFes_within (at_ : Nat) (s : State) : Within [.fe] s (markFes at_ s) := loopFe_within _ _ _

theorem announceStep_tb (dc : Int) (before s : State) : (announceStep dc before s).tb = s.tb :=
  (raiseSrc_tb ..).trans (markFes_within _ s .tb (by decide))

theorem getFe_markFes {n : Nat} (h : n < 128) (at_ : Nat) (s : State) : ((markFes at_ s).getFe n).stepSub = at_ := by
  rw [markFes, getFe_forEach _ (nodup_upto 128), if_pos ⟨mem_upto h, h⟩]

/-- The requested step is applied: line time moves, and timed commands are skipped or moved with it. -/
theorem execTimeStepApply_of_due {s : State} {d : Int} {a : Nat} (asked : s.tb.step = some (d, a))
    (due : launchWaits s = false ∨ 16384 < since s a) :
    execTimeStepApply s = .next (forEach (tcFind s fun e => e.live)
      (skipTc (lineU s) ((lineU s : Int) + rnd (d * 2 ^ 28) 1000000000 * 16).toNat)
      (announceStep (rnd (d * 2 ^ 28) 1000000000) s
        (steppedClock ((lineU s : Int) + rnd (d * 2 ^ 28) 1000000000 * 16).toNat (decide (16384 < since s a)) s))) := by
  have goes : ¬ (launchWaits s && !decide (16384 < since s a)) = true := by
    rcases due with h | h <;> simp [h]
  unfold execTimeStepApply
  rw [asked]
  dsimp only
  rw [if_neg goes]
  rfl

/-- Settles O36: without a request and while a launch waits nothing happens; else the stages of the step, none of which touches a channel or
a configuration word. -/
theorem stepsOfLineTime : Obligations.StepsOfLineTime := by
  refine ⟨fun s none_asked => ?_, fun s d a asked waits young => ?_, fun s d a asked due => ?_⟩
  · simp only [exec, execTimeStepApply, none_asked]
  · simp [exec, execTimeStepApply, asked, waits, young.not_gt]
  · refine ⟨_, execTimeStepApply_of_due asked due, ?_⟩
    generalize ((lineU s : Int) + rnd (d * 2 ^ 28) 1000000000 * 16).toNat = new
    generalize rnd (d * 2 ^ 28) 1000000000 = dc
    generalize tcFind s (fun e => e.live) = l
    have stepped := steppedClock_within new (decide (16384 < since s a)) s
    have clock := steppedClock_clock new (decide (16384 < since s a)) s
    have forced : 16384 < since s a → Raised Cause.tbStepForced (steppedClock new (decide (16384 < since s a)) s) := fun h => by
      rw [decide_eq_true h]
      exact steppedClock_raised new s
    generalize steppedClock new (decide (16384 < since s a)) s = t at stepped clock forced
    have skipped := skipAll_within (lineU s) new l (announceStep dc s t)
    have announced : Within [.fe, .fab] t (announceStep dc s t) := raiseSrc_within ((markFes_within _ _).mono rfl) rfl
    have kept := (stepped.andThen announced rfl).andThen skipped rfl
    have grows : Grows (announceStep dc s t) (forEach l (skipTc (lineU s) new) (announceStep dc s t)) :=
      Grows.forEach (fun _ t => skipTc_grows (Grows.refl t)) (Grows.refl _)
    have told : Grows t (announceStep dc s t) := raiseSrc_grows ((Grows.refl t).frame (markFes_within _ _) rfl)
    rw [← announceStep_tb dc s, ← clock_skipAll (lineU s) new l] at clock
    simp only [Timebase.clock, Prod.mk.injEq] at clock
    obtain ⟨run, sec, frac, step, count⟩ := clock
    refine ⟨run, step, count, ?_, fun n small => ?_, kept .ch (by decide), kept .regs (by decide), (raised_raiseSrc ..).grows grows,
      fun late => ((forced late).grows told).grows grows⟩
    · rw [sec, frac]
      exact Nat.div_add_mod' new (2 ^ 32)
    · rw [State.getFe, skipped .fe (by decide), announceStep_fe]
      exact getFe_markFes small ..

end Sys2Proof.Machine
end

section
/-!
Allocations (R216 to R219): what the class-by-class allotment gives away, and what its commands leave.
-/

namespace Sys2Proof.Machine

/-! ### The allotment -/

theorem powerOf_cons (r : Req) (l : List Req) : powerOf (r :: l) = r.p + powerOf l := by
  rw [powerOf, List.map_cons, sumI_cons, powerOf]

theorem powerOf_nonneg {l : List Req} (h : ∀ r ∈ l, 0 ≤ r.p) : 0 ≤ powerOf l := by
  induction l with
  | nil => exact le_rfl
  | cons r l ih =>
    obtain ⟨head, tail⟩ := List.forall_mem_cons.mp h
    rw [powerOf_cons]
    exact add_nonneg head (ih tail)

/-- The power of a class and of the classes after it. -/
theorem powerOf_filter_cons {c : Nat} {cs : List Nat} (new : c ∉ cs) (l : List Req) :
    powerOf (l.filter fun r => (c :: cs).contains r.cls) =
      powerOf (l.filter fun r => r.cls == c) + powerOf (l.filter fun r => cs.contains r.cls) := by
  induction l with
  | nil => rfl
  | cons r l ih =>
    by_cases same : r.cls = c
    · simp [same, new, powerOf_cons] at ih ⊢
      omega
    · by_cases later : r.cls ∈ cs
      · simp [same, later, powerOf_cons] at ih ⊢
        omega
      · simpa [same, later] using ih

/-- A class gets what it asks for, or the rest. -/
theorem allotCharge_cons (s : State) (l : List Req) (c : Nat) (cs : List Nat) (rest : Int) :
    (allotCharge s l (c :: cs) rest).2.2 =
      (allotCharge s l cs (if powerOf (l.filter fun r => r.cls == c) ≤ rest then rest - powerOf (l.filter fun r => r.cls == c) else 0)).2.2 +
        min rest (powerOf (l.filter fun r => r.cls == c)) := by
  simp only [allotCharge, allotClass]
  split <;> rfl

theorem allotCharge_le (s : State) (l : List Req) (cs : List Nat) {rest : Int} (some_left : 0 ≤ rest) :
    (allotCharge s l cs rest).2.2 ≤ rest := by
  induction cs generalizing rest with
  | nil => exact some_left
  | cons c cs ih =>
    rw [allotCharge_cons]
    split
    next fits =>
      have := ih (rest := rest - powerOf (l.filter fun r => r.cls == c)) (by omega)
      omega
    next =>
      have := ih (rest := 0) le_rfl
      omega

theorem allotCharge_all (s : State) {l : List Req} (ask : ∀ r ∈ l, 0 ≤ r.p) {cs : List Nat} (distinct : cs.Nodup) {rest : Int}
    (covers : powerOf (l.filter fun r => cs.contains r.cls) ≤ rest) :
    (allotCharge s l cs rest).2.2 = powerOf (l.filter fun r => cs.contains r.cls) := by
  induction cs generalizing rest with
  | nil => simp [allotCharge, powerOf, sumI]
  | cons c cs ih =>
    obtain ⟨new, distinct⟩ := List.nodup_cons.mp distinct
    have later : 0 ≤ powerOf (l.filter fun r => cs.contains r.cls) := powerOf_nonneg fun r mem => ask r (List.mem_filter.mp mem).1
    rw [powerOf_filter_cons new] at covers ⊢
    rw [allotCharge_cons, if_pos (by omega), ih distinct (by omega)]
    omega

/-! ### An allocation -/

theorem allocate_shape (s : State) (at_ : Nat) : (allocate s at_).at_ = at_ ∧ (∃ f : Nat → Int, (allocate s at_).grants = (popAll s).map fun k => (k, f k)) ∧
    ((allocate s at_).constr = false → (allocate s at_).noCls = 0) := by
  refine ⟨rfl, ⟨_, rfl⟩, fun free => if_neg ?_⟩
  exact Bool.eq_false_iff.mp free

theorem mem_popAll {s : State} {k : Nat} : k ∈ popAll s ↔ k < 128 ∧ populated s k = true := by simp [popAll]

theorem nodup_popAll (s : State) : (popAll s).Nodup := (nodup_upto 128).filter _

theorem execGrantsZeroed_eq {s : State} (late : 4 ≤ s.sump.lateRun) : exec .grantsZeroed s = .next
    (forEach (popAll s) (modCh · fun c => if charges c then { c with reg := { c.reg with gEff := 0 } } else c)
      (modSump (fun x => { x with zeroed := true }) s)) := if_pos late

/-- Settles O33: the allotment's total by induction over the classes; the commands are their definitions, case by case. -/
theorem allocationsStayWithinThePower : Obligations.AllocationsStayWithinThePower := by
  refine ⟨fun s l cs _ => allotCharge_le s l cs, fun s l cs _ ask covers distinct => allotCharge_all s ask distinct covers,
    fun s slack up stage due tick slackok => ?stages, fun s slack h => ?idle, fun s at_ => ?shape, fun s late => ?zeroes, fun s early => ?early,
    fun s => ?stale⟩
  case stages =>
    refine ⟨modSump _ s, by simp [exec, execSumpAllocation, up, stage, due, tick, slackok]; rfl, rfl, rfl, modSump_within (Within.refl _ _) rfl⟩
  case idle =>
    have blocked : ¬ (s.mode.up && stageOn s && s.sump.due && decide (s.tb.run % 8 = 7) && decide (0 ≤ slack)) = true := by
      rcases h with h | h | h | h | h <;> simp [h]
    exact if_neg blocked
  case shape =>
    obtain ⟨at_eq, ⟨f, grants⟩, free⟩ := allocate_shape s at_
    refine ⟨at_eq, fun x mem => ?_, free⟩
    rw [grants] at mem
    obtain ⟨k, inside, rfl⟩ := List.mem_map.mp mem
    exact (mem_popAll.mp inside).2
  case zeroes =>
    refine ⟨_, execGrantsZeroed_eq late, ?_, fun k small pop charging => ?_, fun k h => ?_, ?_⟩
    · exact congrArg Sump.zeroed (loopCh_sump ..)
    · rw [getCh_forEach _ (nodup_popAll s), if_pos ⟨mem_popAll.mpr ⟨small, pop⟩, small⟩, getCh_of_ch (modSump_ch ..), if_pos charging]
    · rw [getCh_forEach _ (nodup_popAll s), getCh_of_ch (modSump_ch ..)]
      split
      next inside => rw [h.resolve_left (by simp [(mem_popAll.mp inside.1).2]), if_neg Bool.false_ne_true]
      next => rfl
    · exact ((modSump_within (Within.refl _ _) rfl)).andThen (loopCh_within _ _ _) rfl
  case early => exact if_neg (by omega)
  case stale =>
    simp only [exec, execSumpBudgetStale, Bool.and_eq_true, Bool.not_eq_true', and_assoc]
    split <;> rfl

end Sys2Proof.Machine
end

section
/-!
The loops of regulation (R123, R128, R129): a demand is clamped to its bound before the voltage limit and the grant reduce it, and shares are
taken from a sum.
-/

namespace Sys2Proof.Machine

/-! ### The demand -/

/-- What a loop may give: from 0 to the bound, in the command's direction. -/
def InBound (ib : Int) (dis : Bool) (c : Int) : Prop := (c.natAbs : Int) ≤ ib ∧ (dis = false → 0 ≤ c) ∧ (dis = true → c ≤ 0)

theorem clampI_inBound {ib : Int} (h : 0 ≤ ib) (dis : Bool) (c : Int) :
    InBound ib dis (clampI c (min 0 ((if dis then -1 else 1) * ib)) (max 0 ((if dis then -1 else 1) * ib))) := by
  obtain ⟨low, high⟩ := clampI_mem (lo := min 0 ((if dis then -1 else 1) * ib)) (hi := max 0 ((if dis then -1 else 1) * ib)) c (by omega)
  generalize clampI c _ _ = x at low high
  cases dis <;> simp only [Bool.false_eq_true, if_false, if_true] at low high
  · exact ⟨by omega, fun _ => by omega, fun h => by cases h⟩
  · exact ⟨by omega, fun h => (by cases h), fun _ => by omega⟩

/-- The voltage limit gives its own value, clamped, or the one it was given. -/
theorem limLoop_inBound {p : LoopIn} {n : Sp} {lo hi : Int} (clamped : ∀ c, InBound p.ib n.dis (clampI c lo hi)) {r : Reg} {c : Int}
    (inside : InBound p.ib n.dis c) : InBound p.ib n.dis (limLoop p n lo hi (r, c)).2 := by
  unfold limLoop
  dsimp only
  split
  · split
    · exact clamped _
    · exact inside
  · exact inside

theorem limLoop_x (p : LoopIn) (n : Sp) (lo hi : Int) (rc : Reg × Int) : (limLoop p n lo hi rc).1.x = rc.1.x := by
  unfold limLoop
  dsimp only
  split
  · split <;> rfl
  · rfl

theorem modeLoop_x (p : LoopIn) (n : Sp) (lo hi : Int) (r : Reg) : (modeLoop p n lo hi r).1.x = r.x := by
  unfold modeLoop
  split <;> rfl

/-- The loops end in a demand within the bound, and the grant reduces it. -/
theorem loops_demand {p : LoopIn} (n : Sp) (r : Reg) (h : 0 ≤ p.ib) :
    ∃ c, InBound p.ib n.dis c ∧ (loops p n r).1.cDem = c ∧ (loops p n r).1.iDem = grantLimit p.gEff c :=
  ⟨_, limLoop_inBound (clampI_inBound h _) (clampI_inBound h _ _), rfl, rfl⟩

theorem loops_x (p : LoopIn) {n : Sp} (slews : n.mode ≠ .cr) (r : Reg) : (loops p n r).1.x = slewTo r.x r.target n.slew := by
  unfold loops
  dsimp only
  rw [limLoop_x, modeLoop_x, if_neg slews]

theorem grantLimit_inBound {ib g c : Int} {dis : Bool} (h : 0 ≤ g) (inside : InBound ib dis c) :
    InBound ib dis (grantLimit g c) ∧ ((grantLimit g c).natAbs : Int) ≤ g := by
  obtain ⟨bound, charge, discharge⟩ := inside
  unfold grantLimit InBound
  split_ifs
  · exact ⟨⟨by omega, fun up => by have := charge up; omega, fun _ => by omega⟩, by omega⟩
  · exact ⟨⟨by omega, fun _ => h, fun down => by have := discharge down; omega⟩, by omega⟩
  · exact ⟨⟨bound, charge, discharge⟩, by omega⟩

/-! ### Slewing -/

theorem slewTo_step {x t step : Int} (h : 0 ≤ step) : ((slewTo x t step - x).natAbs : Int) ≤ step := by
  unfold slewTo
  split_ifs <;> omega

theorem slewTo_towards {x t step : Int} (h : 0 ≤ step) : (slewTo x t step - t).natAbs ≤ (x - t).natAbs := by
  unfold slewTo
  split_ifs <;> omega

/-! ### Shares -/

theorem sumI_map_add (b : Int) (l : List Int) : sumI (l.map (b + ·)) = b * l.length + sumI l := by
  induction l with
  | nil => simp [sumI]
  | cons a l ih =>
    rw [List.map_cons, sumI_cons, sumI_cons, ih, List.length_cons]
    push_cast
    ring

theorem sumI_splitDemand (i : Int) {bals : List Int} (h : bals ≠ []) : sumI (splitDemand i bals) = i + sumI bals := by
  cases bals with
  | nil => exact absurd rfl h
  | cons b l =>
    have some_phase : ¬ ((b :: l).length : Int) = 0 := by rw [List.length_cons]; omega
    simp only [splitDemand]
    rw [if_neg some_phase, sumI_cons, sumI_cons, sumI_map_add, List.length_cons]
    push_cast
    ring

/-- What the first term gives back is what all of them add up to. -/
theorem sumI_balNext {s : State} {k : Nat} {act : List Nat} (several : 2 ≤ act.length) (steady : shedding s k = none) (imons : List Int) :
    sumI (balNext s k act imons) = 0 := by
  unfold balNext
  dsimp only
  rw [if_neg (by omega), steady, if_neg (by simp)]
  split
  next x l terms => rw [terms, sumI_cons, sumI_cons]; ring
  next => rfl

/-- Settles O29: the last clamp is inside the bound and what follows only reduces; the sums telescope. -/
theorem demandStaysInItsBounds : Obligations.DemandStaysInItsBounds := by
  refine ⟨fun p n r bound grant => ?_, fun p n r slews step => ?_, fun _ _ _ => slewTo_towards, fun i _ => sumI_splitDemand i,
    fun _ _ _ imons several steady => sumI_balNext several steady imons⟩
  · obtain ⟨c, inside, companion, demand⟩ := loops_demand n r bound
    obtain ⟨⟨within, charge, discharge⟩, granted⟩ := grantLimit_inBound grant inside
    rw [demand, companion]
    exact ⟨within, granted, charge, discharge, inside.1⟩
  · rw [loops_x p slews]
    exact slewTo_step step

end Sys2Proof.Machine
end

section
/-!
The adaptation of the core voltage (R496) and the account of overruns (R494).
-/

namespace Sys2Proof.Machine

/-! ### The step of the code -/

/-- The rate fell by more than three in a hundred. -/
def rateDrops (s : State) (rate : Nat) : Bool := decide (rate * 100 < s.fab.ratePrev * 97)

section
variable {s : State} {slack rate : Nat}

theorem adaptStep_of_short (h : slack < 1500 ∨ rateDrops s rate = true) : adaptStep s slack rate = (4, 0) := by
  unfold adaptStep
  dsimp only
  rw [if_pos]
  simpa [rateDrops] using h

theorem adaptStep_of_low (low : 1500 ≤ slack) (high : slack < 3000) (steady : rateDrops s rate = false) :
    adaptStep s slack rate = (1, 0) := by
  have long : ¬ (decide (slack < 1500) || rateDrops s rate) = true := by simp [steady]; omega
  exact (if_neg long).trans (if_pos high)

theorem anyFast_iff : ((upto 10).any fun i => (s.getDie i).fast) = true ↔ ∃ i < 10, (s.getDie i).fast = true := by
  simp

theorem adaptStep_of_enough (enough : 3000 ≤ slack) (steady : rateDrops s rate = false) : adaptStep s slack rate =
    if decide (4500 < slack) && !(upto 10).any (fun i => (s.getDie i).fast) then
      (if s.fab.lowRun + 1 = 1024 then (-1, 0) else (0, s.fab.lowRun + 1))
    else (0, 0) := by
  have long : ¬ (decide (slack < 1500) || rateDrops s rate) = true := by simp [steady]; omega
  exact (if_neg long).trans (if_neg (by omega))

theorem adaptStep_of_between (enough : 3000 ≤ slack) (h : slack ≤ 4500 ∨ ∃ i < 10, (s.getDie i).fast = true)
    (steady : rateDrops s rate = false) : adaptStep s slack rate = (0, 0) := by
  rw [adaptStep_of_enough enough steady, if_neg]
  rw [← anyFast_iff] at h
  rcases h with h | h <;> simp [h]

theorem adaptStep_of_plenty (plenty : 4500 < slack) (cool : ∀ i, i < 10 → (s.getDie i).fast = false) (steady : rateDrops s rate = false) :
    adaptStep s slack rate = if s.fab.lowRun + 1 = 1024 then (-1, 0) else (0, s.fab.lowRun + 1) := by
  have none_fast : ((upto 10).any fun i => (s.getDie i).fast) = false := by simpa using cool
  rw [adaptStep_of_enough (by omega) steady, none_fast, if_pos (by simp [plenty])]

end

/-! ### The adaptation -/

/-- What is measured is recorded. -/
def recordSlack (rate vcore : Nat) (s : State) : State :=
  modFab (fun f => { f with
    rate := rate % 2 ^ 32, slack := minSlack s.fab.slacks,
    slackLow := some (match s.fab.slackLow with | some x => Nat.min x (minSlack s.fab.slacks) | none => minSlack s.fab.slacks),
    slacks := [], vcore := satN vcore 1023 }) s

/-- The code would have to rise at the top voltage. -/
def atTop (up : Int) (vcore : Nat) : Bool := decide (0 < up) && decide (880 ≤ vcore)

/-- What is raised of the limit and of the rate. -/
def raiseAdapt (top drop : Bool) (s : State) : State :=
  let t := if top then raise .fabric Cause.fabVcoreLimit 0xFF s else s
  if drop then raise .fabric Cause.fabRateDrop 0xFF t else t

theorem raiseAdapt_within (top drop : Bool) (s : State) : Within [.fab] s (raiseAdapt top drop s) := by
  have limit : Within [.fab] s (if top then raise .fabric Cause.fabVcoreLimit 0xFF s else s) :=
    Within.ite (raise_within (Within.refl _ _) rfl) (Within.refl _ _)
  exact Within.ite (raise_within limit rfl) limit

theorem raiseAdapt_fab (top drop : Bool) (s : State) : ∃ l, (raiseAdapt top drop s).fab = { s.fab with events := l } := by
  cases top <;> cases drop <;> exact ⟨_, rfl⟩

theorem raised_rateDrop (top : Bool) (s : State) : Raised Cause.fabRateDrop (raiseAdapt top true s) := raised_raise ..

theorem raised_vcoreLimit (drop : Bool) (s : State) : Raised Cause.fabVcoreLimit (raiseAdapt true drop s) := by
  cases drop
  · exact raised_raise ..
  · exact (raised_raise ..).raise ..

/-- How far the code goes: not up at the top voltage, not down at the least. -/
def codeStep (up : Int) (vcore : Nat) : Int := if atTop up vcore then 0 else if decide (up < 0) && decide (vcore ≤ 620) then 0 else up

/-- The step of an adaptation and the run of low slack after it. -/
def stepOf (rate : Nat) (s : State) : Int × Nat := adaptStep s (minSlack s.fab.slacks) rate

/-- What is measured and raised, before the code goes. -/
def announceCore (rate vcore : Nat) (s : State) : State :=
  raiseAdapt (atTop (stepOf rate s).1 vcore) (rateDrops s rate) (recordSlack rate vcore s)

theorem announceCore_within (rate vcore : Nat) (s : State) : Within [.fab] s (announceCore rate vcore s) :=
  (modFab_within (Within.refl _ _) rfl).andThen (raiseAdapt_within _ _ _) rfl

theorem announceCore_fab (rate vcore : Nat) (s : State) :
    (announceCore rate vcore s).fab.code = s.fab.code ∧ (announceCore rate vcore s).fab.slack = minSlack s.fab.slacks := by
  obtain ⟨l, fab⟩ := raiseAdapt_fab (atTop (stepOf rate s).1 vcore) (rateDrops s rate) (recordSlack rate vcore s)
  rw [announceCore, fab]
  exact ⟨rfl, rfl⟩

/-- The core after an adaptation. -/
def adaptCore (rate vcore : Nat) (s : State) : State :=
  modFab (fun f => { f with code := (clampI (f.code + codeStep (stepOf rate s).1 vcore) 0 255).toNat, lowRun := (stepOf rate s).2,
                            ratePrev := rate }) (announceCore rate vcore s)

theorem execVcoreAdapt_of_adapts {s : State} (up : s.mode.up = true) (adapting : adapts s = true) (rate vcore : Nat) :
    execVcoreAdapt rate vcore s = .next (adaptCore rate vcore s) := by
  have on : ¬ s.mode.up = false := by simp [up]
  simp only [execVcoreAdapt, if_neg on, if_pos adapting, adaptCore, announceCore, stepOf, codeStep, atTop, rateDrops, raiseAdapt, recordSlack,
    decide_eq_true_eq]
  rfl

theorem adaptCore_within (rate vcore : Nat) (s : State) : Within [.fab] s (adaptCore rate vcore s) :=
  modFab_within (announceCore_within _ _ _) rfl

theorem adaptCore_code (rate vcore : Nat) (s : State) :
    (adaptCore rate vcore s).fab.code = (clampI (s.fab.code + codeStep (stepOf rate s).1 vcore) 0 255).toNat := by
  rw [← (announceCore_fab rate vcore s).1]
  rfl

theorem adaptCore_lowRun (rate vcore : Nat) (s : State) : (adaptCore rate vcore s).fab.lowRun = (stepOf rate s).2 := rfl

theorem adaptCore_slack (rate vcore : Nat) (s : State) : (adaptCore rate vcore s).fab.slack = minSlack s.fab.slacks :=
  (announceCore_fab rate vcore s).2

theorem adaptCore_rateDrop {rate : Nat} {s : State} (h : rateDrops s rate = true) (vcore : Nat) :
    Raised Cause.fabRateDrop (adaptCore rate vcore s) := by
  have raised : Raised Cause.fabRateDrop (announceCore rate vcore s) := by
    rw [announceCore, h]
    exact raised_rateDrop ..
  exact raised

theorem adaptCore_vcoreLimit {rate vcore : Nat} {s : State} (h : atTop (stepOf rate s).1 vcore = true) :
    Raised Cause.fabVcoreLimit (adaptCore rate vcore s) := by
  have raised : Raised Cause.fabVcoreLimit (announceCore rate vcore s) := by
    rw [announceCore, h]
    exact raised_vcoreLimit ..
  exact raised

theorem clampCode_le (x : Int) : (clampI x 0 255).toNat ≤ 255 := by
  have := clampI_mem x (lo := 0) (hi := 255) (by omega)
  omega

theorem clampCode_up (c : Nat) {n vcore : Nat} (room : vcore < 880) :
    (clampI ((c : Int) + codeStep n vcore) 0 255).toNat = min (c + n) 255 := by
  have step : codeStep n vcore = n := by simp [codeStep, atTop, room.not_ge]
  rw [step]
  unfold clampI
  split_ifs <;> omega

theorem clampCode_zero {c : Nat} (h : c ≤ 255) : (clampI ((c : Int) + 0) 0 255).toNat = c := by
  unfold clampI
  split_ifs <;> omega

theorem clampCode_same {c : Nat} (h : c ≤ 255) (vcore : Nat) : (clampI ((c : Int) + codeStep 0 vcore) 0 255).toNat = c := by
  have step : codeStep 0 vcore = 0 := by simp [codeStep, atTop]
  rw [step, clampCode_zero h]

theorem clampCode_top {c : Nat} (h : c ≤ 255) {up : Int} {vcore : Nat} (top : atTop up vcore = true) :
    (clampI ((c : Int) + codeStep up vcore) 0 255).toNat = c := by
  rw [codeStep, if_pos top, clampCode_zero h]

theorem clampCode_down {c : Nat} (h : c ≤ 255) (vcore : Nat) :
    (clampI ((c : Int) + codeStep (-1) vcore) 0 255).toNat = if vcore ≤ 620 then c else c - 1 := by
  have step : codeStep (-1) vcore = if vcore ≤ 620 then 0 else -1 := by simp [codeStep, atTop]
  rw [step]
  split
  · exact clampCode_zero h
  · unfold clampI
    split_ifs <;> omega

/-! ### Overruns -/

theorem judgeTick_of_overrun {s : State} {units : Nat} (h : units ≠ 0) (slack : Nat) :
    (judgeTick units slack s).fab.ovNow = s.fab.ovNow + 1 ∧ (judgeTick units slack s).fab.ovUnits = units ∧
      (judgeTick units slack s).fab.nOvr = incSat 16 s.fab.nOvr ∧
      (s.fab.ovNow = 0 → Raised Cause.tickOverrun (judgeTick units slack s)) ∧ Within [.fab] s (judgeTick units slack s) := by
  simp only [judgeTick, if_pos h]
  split
  · exact ⟨rfl, rfl, rfl, fun _ => raised_raiseSrc .., raiseA_within (modFab_within (modFab_within (Within.refl _ _) rfl) rfl) rfl⟩
  next later => exact ⟨rfl, rfl, rfl, fun first => absurd (by simp [first]) later, modFab_within (modFab_within (Within.refl _ _) rfl) rfl⟩

theorem judgeTick_of_end {s : State} (h : s.fab.ovNow ≠ 0) (slack : Nat) :
    (judgeTick 0 slack s).fab.ovNow = 0 ∧ Raised Cause.fabOverrunEnd (judgeTick 0 slack s) ∧ Within [.fab] s (judgeTick 0 slack s) := by
  simp only [judgeTick, ne_eq, not_true_eq_false, if_false, if_neg h]
  exact ⟨rfl, raised_raiseSrc .., raiseA_within (modFab_within (modFab_within (Within.refl _ _) rfl) rfl) rfl⟩

/-- Settles O53: the code goes by its step, clamped to 8 bits, and nothing else of the fabric depends on it. -/
theorem coreVoltageAndOverruns : Obligations.CoreVoltageAndOverruns := by
  refine ⟨fun s rate vcore off => if_pos off, fun s rate vcore up fixed => ?fixed, fun s rate vcore drop up adapting dropped => ?adapts,
    fun s units slack h => ⟨_, rfl, judgeTick_of_overrun h slack⟩, fun s slack h => ⟨_, rfl, judgeTick_of_end h slack⟩,
    fun s slack h => by simp [judgeTick, h, modFab]⟩
  case fixed =>
    exact ⟨recordSlack rate vcore s, (if_neg (by simp [up])).trans (if_neg (by simp [fixed])), rfl, rfl, rfl, rfl, rfl,
      modFab_within (Within.refl _ _) rfl⟩
  case adapts =>
    have dropped : drop = rateDrops s rate := dropped
    subst dropped
    refine ⟨_, execVcoreAdapt_of_adapts up adapting rate vcore, ?_⟩
    rw [adaptCore_code, adaptCore_slack, adaptCore_lowRun]
    refine ⟨clampCode_le _, rfl, rfl, fun h => adaptCore_rateDrop h vcore, fun short room => ?short, fun low top small => ?top,
      fun low high steady room => ?low, fun enough h steady small => ?between, fun plenty cool steady small => ?plenty,
      adaptCore_within rate vcore s⟩
    case short =>
      rw [stepOf, adaptStep_of_short short]
      exact clampCode_up _ room
    case top =>
      have rises : 0 < (stepOf rate s).1 := by
        by_cases short : minSlack s.fab.slacks < 1500 ∨ rateDrops s rate = true
        · rw [stepOf, adaptStep_of_short short]; decide
        · obtain ⟨long, steady⟩ := not_or.mp short
          rw [stepOf, adaptStep_of_low (by omega) (low.resolve_right steady) (by simpa using steady)]; decide
      have at_top : atTop (stepOf rate s).1 vcore = true := by simp [atTop, rises, top]
      exact ⟨clampCode_top small at_top, adaptCore_vcoreLimit at_top⟩
    case low =>
      rw [stepOf, adaptStep_of_low low high steady]
      exact clampCode_up _ room
    case between =>
      rw [stepOf, adaptStep_of_between enough h steady]
      exact ⟨clampCode_same small _, rfl⟩
    case plenty =>
      rw [stepOf, adaptStep_of_plenty plenty cool steady]
      refine ⟨fun last => ?_, fun before => ?_⟩
      · rw [if_pos last]
        exact ⟨clampCode_down small _, rfl⟩
      · rw [if_neg before]
        exact ⟨clampCode_same small _, rfl⟩

end Sys2Proof.Machine
end

section
/-!
Die sensors (R433) and told temperatures that grow old (R436, R438).
-/

namespace Sys2Proof.Machine

/-! ### Die sensors -/

theorem getDie_of_thm {s t : State} (h : t.thm = s.thm) (i : Nat) : t.getDie i = s.getDie i := by simp [State.getDie, h]

theorem dieShut_thm (i : Nat) (s : State) : (dieShut i s).thm = s.thm :=
  dieShut_within (Within.refl [.mode, .seq, .tb, .ph, .gal, .fe, .ch, .saf, .acc, .fab] s) rfl .thm (by decide)

/-- An implausible reading is counted, three in a row break the sensor. -/
def countImplausible (i : Nat) (s : State) : State :=
  modDie i (fun d => { d with impl := satN (d.impl + 1) 3, broken := d.broken || decide (2 ≤ d.impl) })
    { s with thm := { s.thm with nImpl := incSat 8 s.thm.nImpl } }

theorem getDie_countImplausible (i : Fin 10) (s : State) : (countImplausible i s).getDie i =
    { s.getDie i with impl := satN ((s.getDie i).impl + 1) 3, broken := (s.getDie i).broken || decide (2 ≤ (s.getDie i).impl) } := by
  rw [countImplausible, getDie_modDie, if_pos ⟨rfl, i.isLt⟩]
  rfl

section
variable {s : State} {i : Fin 10} {t e1 e2 : Int} (up : s.mode.up = true)
include up

theorem execDieSensorReading_of_implausible (bad : implausible (s.getDie i) t e1 e2 = true) : execDieSensorReading i t e1 e2 s =
    if decide (2 ≤ (s.getDie i).impl) && !(s.getDie i).broken then .next (dieShut i (raiseDie Cause.thmBroken i (countImplausible i s)))
    else .next (countImplausible i s) :=
  (if_neg (by simp [up])).trans (if_pos bad)

theorem execDieSensorReading_of_plausible (good : implausible (s.getDie i) t e1 e2 = false) :
    execDieSensorReading i t e1 e2 s = .next (dieTake i t s) :=
  (if_neg (by simp [up])).trans (if_neg (by simp [good]))

end

/-- A plausible reading is taken with its flags, whatever they raise and shut. -/
theorem getDie_dieTake (i : Fin 10) (t : Int) (s : State) :
    ((dieTake i t s).getDie i).t = t ∧ ((dieTake i t s).getDie i).ok = true ∧ ((dieTake i t s).getDie i).impl = 0 ∧
      ((dieTake i t s).getDie i).warn = dieFlag (s.getDie i).warn t (thmWarn s) ∧
      ((dieTake i t s).getDie i).derate = dieFlag (s.getDie i).derate t (thmDerate s) ∧
      ((dieTake i t s).getDie i).shut = dieFlag (s.getDie i).shut t 13500 ∧
      ((dieTake i t s).getDie i).fast = decide (thmWarn s - 1000 ≤ t) := by
  have raised {c : Prop} [Decidable c] (cause : Nat) (u : State) : (if c then raiseDie cause i u else u).getDie i = u.getDie i := by
    split <;> rfl
  have counted {c : Prop} [Decidable c] (n : Nat) (u : State) :
      (if c then { u with thm := { u.thm with nDer := n } } else u : State).getDie i = u.getDie i := by split <;> rfl
  have noted {c : Prop} [Decidable c] (x : Island) (u : State) : (if c then { u with saf := x } else u : State).getDie i = u.getDie i := by
    split <;> rfl
  have shut {c : Prop} [Decidable c] (u : State) : (if c then dieShut i u else u).getDie i = u.getDie i := by
    split
    · exact getDie_of_thm (dieShut_thm ..) _
    · rfl
  unfold dieTake
  dsimp only
  simp only [shut, noted, counted, raised, getDie_modDie, i.isLt, and_self, if_true]

/-! ### Told temperatures -/

theorem dieFlag_iff {was : Bool} {t lim : Int} : dieFlag was t lim = true ↔ lim ≤ t ∨ (was = true ∧ lim - 500 < t) := by
  unfold dieFlag
  split <;> simp_all

theorem toldStale_of_told {s : State} {k : Nat} {t take : Int} (h : (s.getTold k).t = some (t, take)) :
    toldStale s k = decide (thmStaleMs s * 8192 < ((s.tb.run : Int) - take).toNat * 1000) := by
  simp [toldStale, toldAgeTk, h]

theorem noteStale_of_same {s : State} {k : Nat} (h : (s.getTold k).stale = true ∨ toldStale s k = false) : noteStale k s = s := by
  rcases h with h | h <;> simp [noteStale, h]

/-- Becoming stale is marked, counted and raised. -/
theorem noteStale_of_new {s : State} {k : Nat} (fresh : (s.getTold k).stale = false) (old : toldStale s k = true) :
    noteStale k s = raise .fabric Cause.thmTStale k
      { modTold k (fun t => { t with stale := true }) s with
        thm := { (modTold k (fun t => { t with stale := true }) s).thm with nStale := incSat 8 s.thm.nStale } } := by
  simp [noteStale, fresh, old]
  rfl

theorem getTold_noteStale_of_new {s : State} {k : Nat} (fresh : (s.getTold k).stale = false) (old : toldStale s k = true) (j : Nat) :
    (noteStale k s).getTold j = if k = j ∧ j < 128 then { s.getTold j with stale := true } else s.getTold j := by
  rw [noteStale_of_new fresh old]
  exact getTold_modTold k j _ s

theorem thmStaleMs_of_regs {s t : State} (h : t.regs = s.regs) : thmStaleMs t = thmStaleMs s := by
  simp [thmStaleMs, cfgF, cfgW, h]

theorem toldStale_of_young {s u : State} {k : Nat} {t take : Int} (told : (u.getTold k).t = some (t, take)) (run : u.tb.run = s.tb.run)
    (regs : u.regs = s.regs) (young : ((s.tb.run : Int) - take).toNat * 1000 ≤ thmStaleMs s * 8192) : toldStale u k = false := by
  rw [toldStale_of_told told, run, thmStaleMs_of_regs regs]
  simpa using young

/-- The stale mark of a value that is not old is cleared and stays so. -/
theorem getTold_freshen {s u : State} {k : Nat} (channel : k < 128) {t take : Int} (f : Told → Told)
    (told : (f (u.getTold k)).t = some (t, take)) (run : u.tb.run = s.tb.run) (regs : u.regs = s.regs)
    (young : ((s.tb.run : Int) - take).toNat * 1000 ≤ thmStaleMs s * 8192) :
    (noteStale k (if toldStale (modTold k f u) k then modTold k f u
      else modTold k (fun y => { y with stale := false }) (modTold k f u))).getTold k = { f (u.getTold k) with stale := false } := by
  have put : (modTold k f u).getTold k = f (u.getTold k) := by rw [getTold_modTold, if_pos ⟨rfl, channel⟩]
  have cleared : (modTold k (fun y => { y with stale := false }) (modTold k f u)).getTold k =
      { f (u.getTold k) with stale := false } := by rw [getTold_modTold, if_pos ⟨rfl, channel⟩, put]
  have before : toldStale (modTold k f u) k = false := toldStale_of_young ((congrArg Told.t put).trans told) run regs young
  have after : toldStale (modTold k (fun y => { y with stale := false }) (modTold k f u)) k = false :=
    toldStale_of_young ((congrArg Told.t cleared).trans told) run regs young
  rw [before, if_neg Bool.false_ne_true, noteStale_of_same (.inr after), cleared]

/-- A value that is not old is in force, with the given reference, and not stale. -/
theorem getTold_putTold_fresh {s : State} {k : Nat} (channel : k < 128) {t take : Int} (r : Option (Int × Int)) (rise : Bool)
    (young : ((s.tb.run : Int) - take).toNat * 1000 ≤ thmStaleMs s * 8192) :
    ((putTold k t take r rise s).getTold k).t = some (t, take) ∧ ((putTold k t take r rise s).getTold k).ref = r ∧
      ((putTold k t take r rise s).getTold k).stale = false := by
  have noted := noteStale_within (x0 := k) (Within.refl [.thm, .fab] s) rfl
  have settled := getTold_freshen channel (u := noteStale k s)
    (fun y => { y with t := some (t, take), ref := r, rise := rise, badTk := if toldInside s k then y.badTk else some s.tb.run })
    rfl (congrArg _ (noted .tb (by decide))) (noted .regs (by decide)) young
  unfold putTold
  dsimp only
  rw [settled]
  exact ⟨rfl, rfl, rfl⟩

theorem takeTold_of_first {s : State} {k : Nat} (first : (s.getTold k).ref = none) (t take : Int) :
    takeTold k t take s = putTold k t take (some (t, take)) (s.getTold k).rise s := by
  simp [takeTold, first]

/-- Settles O52: each reading by its plausibility, each flag by its hysteresis, and the stale mark is set once. -/
theorem thermalReadingsAreJudged : Obligations.ThermalReadingsAreJudged := by
  refine ⟨fun s i t e1 e2 off => if_pos off, fun s i t e1 e2 up bad h => ?counted, fun s i t e1 e2 up bad third unbroken => ?breaks,
    fun s i t e1 e2 up good => ⟨_, execDieSensorReading_of_plausible up good, getDie_dieTake i t s⟩, fun _ _ _ => dieFlag_iff,
    fun s k h => ?same, fun s k up fresh old => ?stale, fun s k none_told => by simp [toldStale, toldAgeTk, none_told],
    fun s k t take told => by rw [toldStale_of_told told, decide_eq_true_eq], fun s k t take channel first young => ?first⟩
  case counted =>
    have no_break : ¬ (decide (2 ≤ (s.getDie i).impl) && !(s.getDie i).broken) = true := by
      rcases h with h | h
      · simp [h.not_ge]
      · simp [h]
    refine ⟨_, (execDieSensorReading_of_implausible up bad).trans (if_neg no_break), ?_⟩
    rw [getDie_countImplausible]
    refine ⟨rfl, rfl, ?_, rfl, modDie_within (Within.set_thm (Within.refl [.thm] s) rfl) rfl⟩
    rcases h with h | h
    · simp [h.not_ge]
    · simp [h]
  case breaks =>
    refine ⟨_, (execDieSensorReading_of_implausible up bad).trans (if_pos (by simp [third, unbroken])), ?_⟩
    rw [getDie_of_thm (dieShut_thm ..), dieShut_thm]
    refine ⟨?_, (raised_raiseSrc ..).grows (dieShut_grows (Grows.refl _)), rfl⟩
    have same : (raiseDie Cause.thmBroken i (countImplausible i s)).getDie i = (countImplausible i s).getDie i := rfl
    rw [same, getDie_countImplausible]
    simp [third]
  case same =>
    refine congrArg Host.Outcome.next ?_
    rcases h with off | h
    · exact if_neg (by simp [off])
    · rw [noteStale_of_same h, ite_self]
  case stale =>
    have marked := getTold_noteStale_of_new fresh old
    refine ⟨_, congrArg Host.Outcome.next (if_pos up), ?_, fun j other => ?_, ?_, ?_, noteStale_within (Within.refl _ _) rfl⟩
    · rw [marked, if_pos ⟨rfl, k.isLt⟩]
    · rw [marked, if_neg fun h => other h.1.symm]
    · rw [noteStale_of_new fresh old]; rfl
    · rw [noteStale_of_new fresh old]; exact raised_raise ..
  case first =>
    rw [takeTold_of_first first]
    exact getTold_putTold_fresh channel _ _ young

end Sys2Proof.Machine
end

section
/-!
What a safe state does to the outputs (R331): stage enables off, no phase switching, every switch open or opening; and the island's
device decisions.
-/

namespace Sys2Proof.Machine

/-! ### Towards the safe outputs -/

/-- The switch of channel k is open, or opens when its brake is over (R57). -/
def Opened (s : State) (k : Nat) : Prop := (s.getCh k).discWant = false ∧ ((s.getCh k).disc = false ∨ (s.getCh k).discOpening = true)

/-- No output goes on: a stage that is off, a phase that does not switch and an open switch stay so, and channels keep their size. -/
structure TowardsSafe (s t : State) : Prop where
  nph : ∀ k, (t.getCh k).nph = (s.getCh k).nph
  quiet : ∀ n, (s.getPh n).pwm.switching = false → (t.getPh n).pwm.switching = false
  opened : ∀ k, Opened s k → Opened t k
  sen : ∀ g, (s.getGal g).sen = false → (t.getGal g).sen = false

theorem TowardsSafe.refl (s : State) : TowardsSafe s s := ⟨fun _ => rfl, fun _ => id, fun _ => id, fun _ => id⟩

theorem TowardsSafe.trans {s t u : State} (h : TowardsSafe s t) (k : TowardsSafe t u) : TowardsSafe s u :=
  ⟨fun c => (k.nph c).trans (h.nph c), fun n => k.quiet n ∘ h.quiet n, fun c => k.opened c ∘ h.opened c, fun g => k.sen g ∘ h.sen g⟩

theorem TowardsSafe.forEach {f : Nat → State → State} (step : ∀ i t, TowardsSafe t (f i t)) (l : List Nat) (s : State) :
    TowardsSafe s (forEach l f s) := by
  unfold Machine.forEach
  induction l generalizing s with
  | nil => exact .refl s
  | cons i l ih => exact (step i s).trans (ih (f i s))

theorem getGal_of_gal {s t : State} (h : t.gal = s.gal) (g : Nat) : t.getGal g = s.getGal g := by simp [State.getGal, h]

/-- What leaves phases, channels and galleries leaves the outputs. -/
theorem TowardsSafe.of_same {s t : State} (ph : t.ph = s.ph) (ch : t.ch = s.ch) (gal : t.gal = s.gal) : TowardsSafe s t := by
  refine ⟨fun k => ?_, fun n => ?_, fun k => ?_, fun g => ?_⟩
  · rw [getCh_of_ch ch]
  · rw [getPh_of_ph ph]; exact id
  · unfold Opened; rw [getCh_of_ch ch]; exact id
  · rw [getGal_of_gal gal]; exact id

theorem TowardsSafe.modCh {f : Channel → Channel} (nph : ∀ c, (f c).nph = c.nph)
    (opened : ∀ c, c.discWant = false ∧ (c.disc = false ∨ c.discOpening = true) →
      (f c).discWant = false ∧ ((f c).disc = false ∨ (f c).discOpening = true)) (i : Nat) (s : State) :
    TowardsSafe s (modCh i f s) := by
  refine ⟨fun k => ?_, fun _ => id, fun k => ?_, fun _ => id⟩
  · rw [getCh_modCh]; split
    · exact nph _
    · rfl
  · unfold Opened; rw [getCh_modCh]; split
    · exact opened _
    · exact id

theorem switching_idlePwm (s : State) : (if vioGood s then Pwm.mid else Pwm.hiZ).switching = false := by split <;> rfl

theorem midPhase_pwm (r : PhSt) (n : Nat) (s : State) (j : Nat) : ((midPhase r n s).getPh j).pwm =
    if n = j ∧ j < 128 then (if vioGood s then Pwm.mid else Pwm.hiZ) else (s.getPh j).pwm := by
  unfold midPhase; dsimp only; rw [getPh_modPh]
  split
  · split
    · rfl
    · split <;> rfl
  · rfl

theorem midPhase_quiet {n : Nat} (h : n < 128) (r : PhSt) (s : State) : ((midPhase r n s).getPh n).pwm.switching = false := by
  rw [midPhase_pwm, if_pos ⟨rfl, h⟩]; exact switching_idlePwm s

theorem midPhase_towards (r : PhSt) (n : Nat) (s : State) : TowardsSafe s (midPhase r n s) := by
  refine ⟨fun _ => rfl, fun j quiet => ?_, fun _ => id, fun _ => id⟩
  rw [midPhase_pwm]; split
  · exact switching_idlePwm s
  · exact quiet

theorem openDisc_opens {k : Nat} (h : k < 128) (s : State) : Opened (openDisc k s) k := by
  unfold Opened openDisc
  split <;> rw [getCh_modCh, if_pos ⟨rfl, h⟩] <;> simp

theorem safeChannel_opens {k : Nat} (h : k < 128) (s : State) : Opened (safeChannel k s) k := openDisc_opens h _

theorem openDisc_towards (k : Nat) (s : State) : TowardsSafe s (openDisc k s) := by
  unfold openDisc
  split
  · exact .modCh (f := fun c => { c with discWant := false, discOpening := true }) (fun _ => rfl) (fun _ _ => ⟨rfl, .inr rfl⟩) k s
  · exact .modCh (f := fun c => { c with discWant := false, discOpening := false, disc := false }) (fun _ => rfl)
      (fun _ _ => ⟨rfl, .inl rfl⟩) k s

theorem midChannel_towards (k : Nat) (s : State) : TowardsSafe s (midChannel k s) :=
  (TowardsSafe.forEach (midPhase_towards .idle) (phasesOf s k) s).trans
    (.modCh (f := fun c => { c with allMid := true, dwell := 0, token := 0, active := [] }) (fun _ => rfl) (fun _ => id) k _)

theorem safeChannel_towards (k : Nat) (s : State) : TowardsSafe s (safeChannel k s) :=
  (midChannel_towards k s).trans (openDisc_towards k _)

/-- The stage enable of a gallery goes off. -/
def senOff (g : Nat) (s : State) : State := modGal g (fun x => { x with sen := false, awake := false }) s

theorem getGal_senOff (g j : Nat) (s : State) :
    (senOff g s).getGal j = if g = j ∧ j < 8 then { s.getGal j with sen := false, awake := false } else s.getGal j := getGal_modGal ..

theorem senOff_towards (g : Nat) (s : State) : TowardsSafe s (senOff g s) := by
  refine ⟨fun _ => rfl, fun _ => id, fun _ => id, fun j off => ?_⟩
  rw [getGal_senOff]; split
  · rfl
  · exact off

theorem forEach_keeps {P : State → Prop} {f : Nat → State → State} (keeps : ∀ j t, P t → P (f j t)) (l : List Nat) {s : State} (h : P s) :
    P (forEach l f s) := by
  unfold forEach
  induction l generalizing s with
  | nil => exact h
  | cons i l ih => exact ih (keeps i s h)

/-- A loop keeps what one of its turns brings about. -/
theorem forEach_brings {P : State → Prop} {l : List Nat} {f : Nat → State → State} {i : Nat} (there : i ∈ l) (brings : ∀ t, P (f i t))
    (keeps : ∀ j t, P t → P (f j t)) (s : State) : P (forEach l f s) := by
  obtain ⟨a, b, rfl⟩ := List.append_of_mem there
  unfold forEach
  rw [List.foldl_append, List.foldl_cons]
  exact forEach_keeps keeps b (brings _)

/-! ### The outputs of a gallery and of the device -/

theorem mem_galleryPhases {n : Nat} : n ∈ (upto 16).map (16 * (n / 16) + ·) := by
  rw [List.mem_map]
  exact ⟨n % 16, by simp [upto]; omega, by omega⟩

theorem mem_chansOfGal {s : State} {k : Nat} (h : declared s k = true) : k ∈ chansOfGal s (k / 16) :=
  List.mem_filter.mpr ⟨mem_galleryPhases, h⟩

/-- The phases of a gallery go off. -/
def phasesOff (g : Nat) (s : State) : State := forEach ((upto 16).map (16 * g + ·)) (midPhase .off) s

theorem safeGallery_eq (g : Nat) (s : State) : safeGallery g s = forEach (chansOfGal s g) safeChannel (phasesOff g (senOff g s)) := rfl

theorem phasesOff_towards (g : Nat) (s : State) : TowardsSafe s (phasesOff g s) := .forEach (midPhase_towards .off) _ s

theorem safeGallery_towards (g : Nat) (s : State) : TowardsSafe s (safeGallery g s) := by
  rw [safeGallery_eq]
  exact ((senOff_towards g s).trans (phasesOff_towards g _)).trans (.forEach safeChannel_towards _ _)

theorem safeGallery_sen {g : Nat} (h : g < 8) (s : State) : ((safeGallery g s).getGal g).sen = false := by
  rw [safeGallery_eq]
  refine ((phasesOff_towards g _).trans (.forEach safeChannel_towards _ _)).sen g ?_
  rw [getGal_senOff, if_pos ⟨rfl, h⟩]

theorem safeGallery_quiet {n : Nat} (h : n < 128) (s : State) : ((safeGallery (n / 16) s).getPh n).pwm.switching = false := by
  rw [safeGallery_eq]
  refine (TowardsSafe.forEach safeChannel_towards _ _).quiet n ?_
  exact forEach_brings (P := fun t => (t.getPh n).pwm.switching = false) mem_galleryPhases (midPhase_quiet h .off)
    (fun j t => (midPhase_towards .off j t).quiet n) _

theorem safeGallery_opens {k : Nat} (h : k < 128) {s : State} (there : declared s k = true) : Opened (safeGallery (k / 16) s) k := by
  rw [safeGallery_eq]
  exact forEach_brings (P := fun t => Opened t k) (f := safeChannel) (mem_chansOfGal there) (safeChannel_opens h)
    (fun j t => (safeChannel_towards j t).opened k) _

/-- The outputs of a device safe state: every stage enable off, no phase switching, every declared channel's switch open or opening. -/
structure OutputsSafe (s : State) : Prop where
  sen : ∀ g, g < 8 → (s.getGal g).sen = false
  quiet : ∀ n, n < 128 → (s.getPh n).pwm.switching = false
  opened : ∀ k, k < 128 → declared s k = true → Opened s k

theorem declared_of_nph {s t : State} {k : Nat} (h : (t.getCh k).nph = (s.getCh k).nph) : declared t k = declared s k := by
  simp [declared, h]

theorem OutputsSafe.towards {s t : State} (h : OutputsSafe s) (k : TowardsSafe s t) : OutputsSafe t :=
  ⟨fun g hg => k.sen g (h.sen g hg), fun n hn => k.quiet n (h.quiet n hn),
    fun c hc there => k.opened c (h.opened c hc (by rw [← declared_of_nph (k.nph c)]; exact there))⟩

theorem galleries_towards (s : State) : TowardsSafe s (forEach (upto 8) safeGallery s) := .forEach safeGallery_towards _ s

theorem galleries_quiet {n : Nat} (h : n < 128) (s : State) : ((forEach (upto 8) safeGallery s).getPh n).pwm.switching = false :=
  forEach_brings (P := fun t => (t.getPh n).pwm.switching = false) (f := safeGallery) (mem_upto (by omega)) (safeGallery_quiet h)
    (fun j t => (safeGallery_towards j t).quiet n) s

theorem galleries_sen {g : Nat} (h : g < 8) (s : State) : ((forEach (upto 8) safeGallery s).getGal g).sen = false :=
  forEach_brings (P := fun t => (t.getGal g).sen = false) (f := safeGallery) (mem_upto h) (safeGallery_sen h)
    (fun j t => (safeGallery_towards j t).sen g) s

theorem declared_safeGallery (g : Nat) (s : State) (k : Nat) : declared (safeGallery g s) k = declared s k :=
  declared_of_nph ((safeGallery_towards g s).nph k)

theorem galleries_opened {k : Nat} (h : k < 128) (s : State) :
    declared (forEach (upto 8) safeGallery s) k = true → Opened (forEach (upto 8) safeGallery s) k :=
  forEach_brings (i := k / 16) (P := fun t => declared t k = true → Opened t k) (f := safeGallery) (mem_upto (by omega))
    (fun t there => safeGallery_opens h (declared_safeGallery _ t k ▸ there))
    (fun j t was there => (safeGallery_towards j t).opened k (was (declared_safeGallery j t k ▸ there))) s

theorem galleries_outputs (s : State) : OutputsSafe (forEach (upto 8) safeGallery s) :=
  ⟨fun _ h => galleries_sen h s, fun _ h => galleries_quiet h s, fun _ h => galleries_opened h s⟩

theorem galleries_within (s : State) : Within [.ph, .gal, .ch] s (forEach (upto 8) safeGallery s) :=
  Within.forEach (fun _ _ => safeGallery_within (Within.refl _ _) rfl) (Within.refl _ _)

/-- SAFE_N is asserted. -/
def assertSafeN (s : State) : State := { s with saf := { s.saf with safeN := true } }

theorem safeDevice_eq (s : State) : safeDevice s = assertSafeN (forEach (upto 8) safeGallery s) := rfl

theorem assertSafeN_towards (s : State) : TowardsSafe s (assertSafeN s) := .of_same rfl rfl rfl

theorem safeDevice_towards (s : State) : TowardsSafe s (safeDevice s) := by
  rw [safeDevice_eq]; exact (galleries_towards s).trans (assertSafeN_towards _)

theorem safeDevice_outputs (s : State) : OutputsSafe (safeDevice s) := by
  rw [safeDevice_eq]; exact (galleries_outputs s).towards (assertSafeN_towards _)

theorem safeDevice_saf (s : State) : (safeDevice s).saf = { s.saf with safeN := true } := by
  rw [safeDevice_eq]
  exact congrArg (fun f : Island => { f with safeN := true }) (galleries_within s .saf (by decide))

/-! ### Entry to SAFE -/

/-- SAFE is the mode, no drain goes on, and every Echo pass is aborted. -/
def toSafe (s : State) : State :=
  abortAll { s with mode := .safe, saf := { s.saf with from_ := s.mode, entry := true }, tb := { s.tb with drain := none } }

/-- What ends with the mode that was left. -/
def leftMode (m : Mode) (s : State) : State := if m = .service then leaveService s else if m = .rest then safeRails s else s

/-- An orderly off that drained is refused. -/
def refuseOff (off : Bool) (s : State) : State :=
  if off then raise .supervisor Cause.seqCmdRefused 0xFF { s with seq := { s.seq with wait := none, lastDown := 0 } } else s

theorem enterSafe_eq (s : State) : ∃ off, enterSafe s = refuseOff off (leftMode s.mode (toSafe s)) := ⟨_, rfl⟩

theorem toSafe_mode (s : State) : (toSafe s).mode = .safe := abortAll_within (Within.refl [.fe] _) rfl .mode (by decide)

theorem toSafe_saf (s : State) : (toSafe s).saf = { s.saf with from_ := s.mode, entry := true } := abortAll_saf _

theorem leftMode_within (m : Mode) (s : State) : Within [.saf, .acc, .fab, .seq] s (leftMode m s) :=
  Within.ite (leaveService_within (Within.refl _ _) rfl) (Within.ite (safeRails_within (Within.refl _ _) rfl) (Within.refl _ _))

theorem leftMode_saf (m : Mode) (s : State) : ∃ p, (leftMode m s).saf = { s.saf with pend := p } := by
  unfold leftMode
  split
  · exact ⟨_, rfl⟩
  split
  · exact ⟨_, safeRails_within (Within.refl [.seq] s) rfl .saf (by decide)⟩
  · exact ⟨_, rfl⟩

theorem refuseOff_within (off : Bool) (s : State) : Within [.seq, .fab] s (refuseOff off s) :=
  Within.ite (raise_within (Within.set_seq (Within.refl _ s) rfl) rfl) (Within.refl _ s)

theorem enterSafe_mode (s : State) : (enterSafe s).mode = .safe := by
  obtain ⟨off, h⟩ := enterSafe_eq s
  calc (enterSafe s).mode = (leftMode s.mode (toSafe s)).mode := by rw [h]; exact refuseOff_within _ _ .mode (by decide)
    _ = (toSafe s).mode := leftMode_within _ _ .mode (by decide)
    _ = .safe := toSafe_mode s

theorem enterSafe_saf (s : State) : ∃ p, (enterSafe s).saf = { s.saf with from_ := s.mode, entry := true, pend := p } := by
  obtain ⟨off, h⟩ := enterSafe_eq s
  obtain ⟨p, left⟩ := leftMode_saf s.mode (toSafe s)
  refine ⟨p, ?_⟩
  calc (enterSafe s).saf = (leftMode s.mode (toSafe s)).saf := by rw [h]; exact refuseOff_within _ _ .saf (by decide)
    _ = _ := by rw [left, toSafe_saf]

theorem towardsSafe_of_within {l : List Part} {s t : State} (w : Within l s t) (free : l.all (fun p => p ≠ .ph ∧ p ≠ .ch ∧ p ≠ .gal) = true) :
    TowardsSafe s t := by
  have out (p : Part) (h : p = .ph ∨ p = .ch ∨ p = .gal) : p ∉ l := fun m => by
    have := List.all_eq_true.mp free p m
    rcases h with rfl | rfl | rfl <;> simp at this
  exact .of_same (w .ph (out _ (.inl rfl))) (w .ch (out _ (.inr (.inl rfl)))) (w .gal (out _ (.inr (.inr rfl))))

/-! ### The decision -/

/-- The decision is noted: its history bit, its class, its time and the count of decisions. -/
def noteDev (cause : Nat) (x : Bool) (s : State) : State :=
  { s with saf := { s.saf with hist := setBitN s.saf.hist (cause % 32) true, classX := s.saf.classX || x, devBadTk := s.tb.run } }

theorem noteDev_towards (cause : Nat) (x : Bool) (s : State) : TowardsSafe s (noteDev cause x s) := .of_same rfl rfl rfl

/-- A new decision counts. -/
def countDev (s : State) : State := { s with saf := { s.saf with nDev := incSat 8 s.saf.nDev, devTk := s.tb.run } }

theorem decideDev_of_new {s : State} (up : s.mode.up = true) (none : s.saf.dev = none) (cause ch : Nat) (x : Bool) :
    decideDev cause ch x s = enterDev cause ch x (safeDevice (countDev (noteDev cause x s))) := by
  unfold decideDev
  exact if_neg (by simp [up, none])

theorem decideDev_of_old {s : State} {d : Nat × Nat} (held : s.saf.dev = some d) (cause ch : Nat) (x : Bool) :
    decideDev cause ch x s = noteDev cause x s := by
  unfold decideDev
  exact if_pos (by simp [held])

/-- The cause in force. -/
def holdDev (cause ch : Nat) (x : Bool) (s : State) : State :=
  { s with saf := { s.saf with dev := some (cause, ch), lastCause := (cause, ch), classX := x } }

/-- SAFE, unless it is the mode. -/
def nowSafe (s : State) : State := if s.mode = .safe then s else enterSafe s

theorem enterDev_eq (cause ch : Nat) (x : Bool) (s : State) :
    enterDev cause ch x s = raiseSrc .island cause 0xFF 136 0 [] (nowSafe (holdDev cause ch x s)) := rfl

theorem nowSafe_mode (s : State) : (nowSafe s).mode = .safe := by
  unfold nowSafe
  split
  · assumption
  · exact enterSafe_mode s

theorem nowSafe_saf (s : State) : ∃ f e p, (nowSafe s).saf = { s.saf with from_ := f, entry := e, pend := p } := by
  unfold nowSafe
  split
  · exact ⟨_, _, _, rfl⟩
  · obtain ⟨p, h⟩ := enterSafe_saf s
    exact ⟨_, _, p, h⟩

theorem nowSafe_towards (s : State) : TowardsSafe s (nowSafe s) := by
  unfold nowSafe
  split
  · exact .refl s
  · exact towardsSafe_of_within (enterSafe_within (Within.refl [.mode, .seq, .tb, .fe, .saf, .acc, .fab] s) rfl) rfl

theorem enterDev_mode (cause ch : Nat) (x : Bool) (s : State) : (enterDev cause ch x s).mode = .safe := by
  rw [enterDev_eq]
  exact (raiseSrc_mode ..).trans (nowSafe_mode _)

theorem enterDev_saf (cause ch : Nat) (x : Bool) (s : State) : ∃ f e p, (enterDev cause ch x s).saf =
    { s.saf with dev := some (cause, ch), lastCause := (cause, ch), classX := x, from_ := f, entry := e, pend := p } := by
  obtain ⟨f, e, p, h⟩ := nowSafe_saf (holdDev cause ch x s)
  exact ⟨f, e, p, by rw [enterDev_eq, raiseSrc_saf, h]; rfl⟩

theorem enterDev_towards (cause ch : Nat) (x : Bool) (s : State) : TowardsSafe s (enterDev cause ch x s) := by
  rw [enterDev_eq]
  have held : TowardsSafe s (holdDev cause ch x s) := .of_same rfl rfl rfl
  exact (held.trans (nowSafe_towards _)).trans (.of_same (raiseSrc_ph ..) (raiseSrc_ch ..) (raiseSrc_gal ..))

/-- A new device decision: SAFE with its cause, SAFE_N asserted, its class and its count, and the outputs safe. -/
theorem decideDev_new {s : State} (up : s.mode.up = true) (none : s.saf.dev = none) (cause ch : Nat) (x : Bool) :
    (decideDev cause ch x s).mode = .safe ∧ (decideDev cause ch x s).saf.dev = some (cause, ch) ∧
      (decideDev cause ch x s).saf.lastCause = (cause, ch) ∧ (decideDev cause ch x s).saf.safeN = true ∧
      (decideDev cause ch x s).saf.classX = x ∧ (decideDev cause ch x s).saf.nDev = incSat 8 s.saf.nDev ∧
      OutputsSafe (decideDev cause ch x s) ∧ TowardsSafe s (decideDev cause ch x s) := by
  rw [decideDev_of_new up none]
  obtain ⟨f, e, p, saf⟩ := enterDev_saf cause ch x (safeDevice (countDev (noteDev cause x s)))
  rw [safeDevice_saf] at saf
  have noted : TowardsSafe s (countDev (noteDev cause x s)) := .of_same rfl rfl rfl
  exact ⟨enterDev_mode .., congrArg Island.dev saf, congrArg Island.lastCause saf, congrArg Island.safeN saf, congrArg Island.classX saf,
    congrArg Island.nDev saf, (safeDevice_outputs _).towards (enterDev_towards ..),
    (noted.trans (safeDevice_towards _)).trans (enterDev_towards ..)⟩

/-! ### The keep-alive -/

theorem modSaf_towards (f : Island → Island) (s : State) : TowardsSafe s (modSaf f s) := .of_same rfl rfl rfl

theorem stopKeepAlive_eq (s : State) : stopKeepAlive s = modSaf (fun f => { f with keepAlive := false }) (safeDevice s) := rfl

theorem keepaliveStop_outputs (s : State) : OutputsSafe (keepaliveStop s) := by
  unfold keepaliveStop
  rw [stopKeepAlive_eq]
  exact ((safeDevice_outputs s).towards (modSaf_towards _ _)).towards (modSaf_towards _ _)

theorem keepaliveStop_frame (s : State) : Within [.ph, .gal, .ch, .saf] s (keepaliveStop s) := keepaliveStop_within (Within.refl _ _) rfl

theorem keepaliveStop_mode (s : State) : (keepaliveStop s).mode = s.mode := keepaliveStop_frame s .mode (by decide)

theorem keepaliveStop_saf (s : State) :
    (keepaliveStop s).saf = { s.saf with safeN := true, keepAlive := false, entry := s.saf.entry || s.mode.up } := by
  have mode : (stopKeepAlive s).mode = s.mode := stopKeepAlive_within (Within.refl [.ph, .gal, .ch, .saf] s) rfl .mode (by decide)
  have saf : (stopKeepAlive s).saf = { s.saf with safeN := true, keepAlive := false } :=
    congrArg (fun f : Island => { f with keepAlive := false }) (safeDevice_saf s)
  unfold keepaliveStop
  simp only [modSaf, saf, mode]

theorem keepaliveStop_towards (s : State) : TowardsSafe s (keepaliveStop s) := by
  unfold keepaliveStop
  rw [stopKeepAlive_eq]
  exact ((safeDevice_towards s).trans (modSaf_towards _ _)).trans (modSaf_towards _ _)

/-! ### The decisions of the family -/

section
variable {s : State}

theorem execSafSumpOv2_above (up : s.mode.up = true) :
    exec (.safSumpOv2 true) s = .next (decideDev Cause.safSumpOv2 0xFF false (modSaf (fun f => { f with ov2 := true }) s)) :=
  (if_neg (by simp [up])).trans (if_pos rfl)

theorem execSafClkLoss_up (up : s.mode.up = true) :
    exec .safClkLoss s = .next (decideDev Cause.safClkLoss 0xFF true (modSaf (fun f => { f with clkLost := true }) s)) :=
  congrArg _ (if_pos up)

theorem execSafParam_of_fault (up : s.mode.up = true) {a : Nat} {m : Word} (threshold : isThreshold a = true) (differs : m ≠ 0) :
    exec (.safParam a m) s =
      .next (decideDev Cause.safParam 0xFF true (modSaf (fun f => { f with copies := alSet 0 a m f.copies }) s)) :=
  if_pos (by rw [up, threshold]; simpa using differs)

theorem execSafParam_of_none {a : Nat} {m : Word} (h : s.mode.up = false ∨ isThreshold a = false ∨ m = 0) :
    exec (.safParam a m) s = .next s := by
  refine if_neg ?_
  rcases h with h | h | h <;> simp [h]

theorem execSafLockstep_recovers (up : s.mode.up = true) :
    exec (.safLockstep true) s = .next (decideDev Cause.safLockstep 0xFF true (keepaliveStop s)) :=
  (if_pos up).trans (congrArg Host.Outcome.next (if_pos rfl))

theorem execSafLockstep_stops (up : s.mode.up = true) : exec (.safLockstep false) s = .next (keepaliveStop s) :=
  (if_pos up).trans (congrArg Host.Outcome.next (if_neg Bool.false_ne_true))

end

/-- A new decision on a state on the way to its outputs. -/
theorem decides {s u : State} {c : Instr} {cause : Nat} {x : Bool} (h : exec c s = .next (decideDev cause 0xFF x u))
    (towards : TowardsSafe s u) (count : u.saf.nDev = s.saf.nDev) (up : u.mode.up = true) (none : u.saf.dev = none) :
    ∃ t, exec c s = .next t ∧ t.mode = .safe ∧ t.saf.dev = some (cause, 0xFF) ∧ t.saf.lastCause = (cause, 0xFF) ∧ t.saf.safeN = true ∧
      t.saf.classX = x ∧ t.saf.nDev = incSat 8 s.saf.nDev ∧ (∀ g, g < 8 → (t.getGal g).sen = false) ∧
      (∀ n, n < 128 → (t.getPh n).pwm.switching = false) ∧
      (∀ k, k < 128 → declared s k = true → (t.getCh k).discWant = false ∧
        ((t.getCh k).disc = false ∨ (t.getCh k).discOpening = true)) := by
  obtain ⟨mode, dev, last, safeN, cls, n, outputs, more⟩ := decideDev_new up none cause 0xFF x
  refine ⟨_, h, mode, dev, last, safeN, cls, count ▸ n, outputs.sen, outputs.quiet, fun k hk there => outputs.opened k hk ?_⟩
  rw [declared_of_nph ((towards.trans more).nph k)]
  exact there

/-- Settles O24: a new decision takes the outputs, SAFE and its cause; one while a decision stands notes itself. -/
theorem deviceSafeStateOutputs : Obligations.DeviceSafeStateOutputs := by
  refine ⟨fun s up none c cause h => ?new, fun s d up held => ⟨?ov2, ?clk, fun a m threshold differs => ?param, ?lockstep⟩,
    fun s up => ?stops, fun s up => ?below, fun s b a m off => ?off, fun s a m h => execSafParam_of_none (.inr h)⟩
  case new =>
    rcases h with ⟨rfl, rfl⟩ | ⟨rfl, rfl⟩ | ⟨⟨a, m, rfl, threshold, differs⟩, rfl⟩ | ⟨rfl, rfl⟩
    · exact decides (execSafSumpOv2_above up) (modSaf_towards _ s) rfl up none
    · exact decides (execSafClkLoss_up up) (modSaf_towards _ s) rfl up none
    · exact decides (execSafParam_of_fault up threshold differs) (modSaf_towards _ s) rfl up none
    · exact decides (execSafLockstep_recovers up) (keepaliveStop_towards s) (by rw [keepaliveStop_saf])
        ((congrArg Mode.up (keepaliveStop_mode s)).trans up) ((congrArg Island.dev (keepaliveStop_saf s)).trans none)
  case ov2 =>
    rw [execSafSumpOv2_above up, decideDev_of_old (d := d)]
    · simp [noteDev, modSaf]
    · exact held
  case clk =>
    rw [execSafClkLoss_up up, decideDev_of_old (d := d)]
    · simp [noteDev, modSaf]
    · exact held
  case param =>
    rw [execSafParam_of_fault up threshold differs, decideDev_of_old (d := d)]
    · simp [noteDev, modSaf]
    · exact held
  case lockstep =>
    rw [execSafLockstep_recovers up, decideDev_of_old ((congrArg Island.dev (keepaliveStop_saf s)).trans held)]
    obtain saf := keepaliveStop_saf s
    obtain mode := keepaliveStop_mode s
    obtain outputs := (keepaliveStop_outputs s).towards (noteDev_towards Cause.safLockstep true _)
    generalize keepaliveStop s = u at *
    exact ⟨_, rfl, (congrArg Island.dev saf).trans held, (congrArg Island.keepAlive saf :), (congrArg Island.safeN saf :), Bool.or_true _,
      (congrArg Island.nDev saf :), mode, outputs.sen, outputs.quiet⟩
  case stops =>
    rw [execSafLockstep_stops up]
    obtain saf := keepaliveStop_saf s
    obtain mode := keepaliveStop_mode s
    obtain outputs := keepaliveStop_outputs s
    generalize keepaliveStop s = u at *
    exact ⟨_, rfl, (congrArg Island.dev saf :), (congrArg Island.keepAlive saf :), (congrArg Island.safeN saf :), mode,
      (congrArg Island.entry saf).trans (by simp [up]), outputs.sen, outputs.quiet⟩
  case below =>
    exact (if_neg (by simp [up])).trans (if_neg Bool.false_ne_true)
  case off =>
    exact ⟨if_pos (by simp [off]), congrArg _ (if_neg (by simp [off])), execSafParam_of_none (.inl off), if_neg (by simp [off])⟩

end Sys2Proof.Machine
end

section
/-!
Register writes (R3 to R9): where a write goes, what each access type does with it, and the bits that a write of 1 clears.
-/

namespace Sys2Proof.Machine

/-! ### Masks -/

theorem testBit_foldl_or (l : List Nat) (m i : Nat) :
    (l.foldl (fun m i => m ||| (1 <<< i)) m).testBit i = (m.testBit i || decide (i ∈ l)) := by
  induction l generalizing m with
  | nil => simp
  | cons j l ih =>
    rw [List.foldl_cons, ih, Nat.testBit_or, Nat.one_shiftLeft, Nat.testBit_two_pow]
    by_cases h : j = i
    · simp [h]
    · simp [h, Ne.symm h]

theorem bitN_maskOf (l : List Nat) (i : Nat) : bitN (maskOf l) i = decide (i ∈ l) := by
  simp [bitN, maskOf, testBit_foldl_or]

/-- What a write of 1 clears (W1C). -/
theorem bitN_w1c (x : Nat) (v : Word) (w i : Nat) : bitN (w1c x v w) i = (decide (i < w) && bitN x i && !v.toNat.testBit i) := by
  rw [w1c, bitN_maskOf]
  simp only [bitsOf, List.mem_filter, List.mem_range, bitN, Bool.decide_and, Bool.decide_eq_true]

/-! ### Where a write goes -/

section
variable {s : State} {p : Path} {a : Nat} {v : Word} {h : RegHit}

theorem execRegWrite_aligned (aligned : a % 4 = 0) : exec (.regWrite p a v) s = .next (writeWord p a v s) :=
  congrArg Host.Outcome.next (if_pos aligned)

theorem execRegWrite_misaligned (misaligned : a % 4 ≠ 0) : exec (.regWrite p a v) s = .next s :=
  congrArg Host.Outcome.next (if_neg misaligned)

theorem writeWord_of_unmapped (unmapped : findReg a = none) : writeWord p a v s = s := by simp [writeWord, unmapped]

/-- A write that reaches its register. -/
def writeGo (p : Path) (a : Nat) (h : RegHit) (v : Word) (t : State) : State :=
  if slotReg a && !populated t h.inst then raiseA .fabric Cause.chAbsent h.inst a t else writeHit p a h v t

theorem writeWord_of_found (found : findReg a = some h) : writeWord p a v s =
    if !s.mode.up then s else if h.row.id = .ldrCmd then writeGo p a h v s else regGate a (writeGo p a h v) s := by
  unfold writeWord
  rw [found]
  rfl

theorem writeWord_off (off : s.mode.up = false) : writeWord p a v s = s := by
  cases found : findReg a with
  | none => exact writeWord_of_unmapped found
  | some h => rw [writeWord_of_found found, if_pos (by simp [off])]

theorem writeWord_busy (found : findReg a = some h) (up : s.mode.up = true) (busy : loaderBusy s = true) (other : h.row.id ≠ .ldrCmd) :
    writeWord p a v s = raiseReg Cause.ldrBusy a s := by
  rw [writeWord_of_found found, if_neg (by simp [up]), if_neg other, regGate_of_busy up busy]

theorem writeWord_idle (found : findReg a = some h) (up : s.mode.up = true) (idle : loaderBusy s = false) :
    writeWord p a v s = writeGo p a h v s := by
  rw [writeWord_of_found found, if_neg (by simp [up]), regGate_of_path up idle, ite_self]

theorem writeGo_absent (slot : slotReg a = true) (absent : populated s h.inst = false) :
    writeGo p a h v s = raiseA .fabric Cause.chAbsent h.inst a s := if_pos (by simp [slot, absent])

theorem writeGo_present (present : slotReg a = false ∨ populated s h.inst = true) : writeGo p a h v s = writeHit p a h v s := by
  refine if_neg ?_
  rcases present with present | present <;> simp [present]

/-- A write of an aligned, mapped register that nothing stands against is the register's own. -/
theorem execRegWrite_hit (aligned : a % 4 = 0) (found : findReg a = some h) (up : s.mode.up = true) (idle : loaderBusy s = false)
    (present : slotReg a = false ∨ populated s h.inst = true) : exec (.regWrite p a v) s = .next (writeHit p a h v s) := by
  rw [execRegWrite_aligned aligned, writeWord_idle found up idle, writeGo_present present]

/-! ### What a write does, by the access type -/

/-- The registers that a write has an effect on by their own operation. -/
def commanded : List RegId :=
  [.devVtrim, .seqCmd, .tbTcsel, .tbGmask, .tbGctrl, .rtcSec, .rtcMin, .rtcHour, .rtcDay, .rtcMon, .rtcYear, .rtcCtrl, .rtcStat, .rtcTrim,
   .rtcPwake, .rtcBram, .wdtCtrl, .wdtExp, .wdtCfg, .wdtServe, .intcGrp, .intcEoi, .intcSrc, .intcAgain, .intcSwset, .safSigref, .safSet,
   .safCmd, .safHist, .ringCtrl, .sqzCfg, .sqzQ, .twiXctl, .twiXbuf, .nvmCmd, .nvmWinsel, .accSvc, .accFcmd, .accFbuf, .ldrCmd, .phFltHist,
   .chCmd, .chRcpArm, .feCal, .feFltHist, .estCmd, .rcpSel, .window]

theorem readOnly_rows : ∀ b ∈ regBlocks, ∀ r ∈ b.rows, r.acc = .ro ∨ r.acc = .rc → r.id ∉ commanded := by decide

theorem writeCfg_readOnly (ro : h.row.acc = .ro ∨ h.row.acc = .rc) : writeCfg a h v s = s := by
  unfold writeCfg
  rcases ro with ro | ro <;> rw [ro]

theorem writeHit_of_not_commanded (other : h.row.id ∉ commanded) (cfg : h.row.id = .cfg → writeCfg a h v s = s) :
    writeHit p a h v s = s := by
  unfold writeHit
  dsimp only
  split
  next id => exact cfg id
  all_goals first | rfl | exact absurd (by simp [commanded, *]) other

theorem writeHit_readOnly (found : findReg a = some h) (ro : h.row.acc = .ro ∨ h.row.acc = .rc) : writeHit p a h v s = s := by
  obtain ⟨b, block, -, row, -⟩ := findReg_spec found
  exact writeHit_of_not_commanded (readOnly_rows b block _ row ro) fun _ => writeCfg_readOnly ro

theorem writeHit_cfg (cfg : h.row.id = .cfg) : writeHit p a h v s = writeCfg a h v s := by
  unfold writeHit
  rw [cfg]

theorem writeCfg_locked (outside : h.row.acc = .rwl ∧ s.mode ≠ .load ∧ s.mode ≠ .service ∨ h.row.acc = .rws ∧ s.mode ≠ .service) :
    writeCfg a h v s = raiseReg Cause.regWriteLocked a s := by
  unfold writeCfg
  rcases outside with ⟨acc, load, service⟩ | ⟨acc, service⟩ <;> rw [acc]
  · exact if_neg (by simp [load, service])
  · exact if_neg service

theorem writeCfg_takes (inside : h.row.acc = .rw ∨ h.row.acc = .rwl ∧ (s.mode = .load ∨ s.mode = .service) ∨
    h.row.acc = .rws ∧ s.mode = .service) : writeCfg a h v s = putCfg a h v s := by
  unfold writeCfg
  rcases inside with acc | ⟨acc, mode⟩ | ⟨acc, mode⟩ <;> rw [acc]
  · exact if_pos mode
  · exact if_pos mode

theorem putCfg_takes (acts : ¬(0x010000 ≤ a ∧ a < 0x020000 ∧ 0x28 ≤ a % 0x200 ∧ a % 0x200 ≤ 0x34 ∧ native s h.inst = false)) :
    putCfg a h v s = cfgFollow a (setCfg a (v &&& wordN h.row.mask) s) := if_neg acts

theorem putCfg_idle (block : 0x010000 ≤ a ∧ a < 0x020000 ∧ 0x28 ≤ a % 0x200 ∧ a % 0x200 ≤ 0x34 ∧ native s h.inst = false) :
    putCfg a h v s = s := if_pos block

theorem cfgFollow_regs (a : Nat) (s : State) : (cfgFollow a s).regs = s.regs := by
  unfold cfgFollow
  split
  · rfl
  split
  · exact inhUpdate_within (Within.refl [.ch, .sump, .fab] s) rfl .regs (by decide)
  · rfl

theorem cfgFollow_within_of_plain (other : a ≠ 0x006000) (s : State) : Within [.regs, .link, .saf] s (cfgFollow a s) := by
  unfold cfgFollow
  rw [if_neg other]
  exact Within.ite (updateSil_within (updateWcr_within (Within.refl _ _) rfl) rfl) (Within.refl _ _)

theorem cfgW_of_regs {s t : State} (h : t.regs = s.regs) (b : Nat) : cfgW t b = cfgW s b := by simp [cfgW, h]

theorem cfgW_cfgFollow_setCfg (wf : regsWf 0 s.regs = true) (b : Nat) :
    cfgW (cfgFollow a (setCfg a v s)) b = if b = a then v else cfgW s b := by
  rw [cfgW_of_regs (cfgFollow_regs a _), cfgW_setCfg wf]

/-- The rows of a phase in its block part are configuration words for LOAD and SERVICE. -/
theorem blockRows : ∀ r ∈ Map.ph.rows, r.id = .cfg → r.acc = .rwl := by decide

theorem acc_of_blockWord (found : findReg a = some h) (cfg : h.row.id = .cfg) (low : 0x010000 ≤ a) (high : a < 0x020000) :
    h.row.acc = .rwl := by
  obtain ⟨b, -, block, row, -⟩ := findReg_spec found
  have phase : regBlock a = some Map.ph := by
    unfold regBlock
    simp only [show ¬ a < 0x001000 by omega, show ¬ a < 0x002000 by omega, show ¬ a < 0x003000 by omega, show ¬ a < 0x003400 by omega,
      show ¬ a < 0x003800 by omega, show ¬ a < 0x004000 by omega, show ¬ a < 0x005000 by omega, show ¬ a < 0x006000 by omega,
      show ¬ a < 0x007000 by omega, show ¬ a < 0x008000 by omega, show ¬ a < 0x009000 by omega, show ¬ a < 0x00A000 by omega,
      show ¬ a < 0x00B000 by omega, show ¬ a < 0x00C000 by omega, show ¬ a < 0x00D000 by omega, show ¬ a < 0x00E000 by omega,
      show ¬ a < 0x010000 by omega, high, if_true, if_false]
  obtain rfl := Option.some_inj.mp (block.symm.trans phase)
  exact blockRows _ row cfg

end

/-! ### Single registers -/

theorem findReg_ldrCmd : ∃ h, findReg 0x00D000 = some h ∧ h.row.id = .ldrCmd := ⟨_, rfl, rfl⟩

theorem findReg_devVtrim : ∃ h, findReg 0x000208 = some h ∧ h.row.id = .devVtrim := ⟨_, rfl, rfl⟩

theorem findReg_phFltHist : ∀ n : Fin 128, (findReg (Addr.ph n 0x98)).map (fun h => (h.row.id, h.inst)) = some (.phFltHist, n.val) := by
  decide

theorem findReg_of_map {a : Nat} {id : RegId} {n : Nat} (h : (findReg a).map (fun h => (h.row.id, h.inst)) = some (id, n)) :
    ∃ h, findReg a = some h ∧ h.row.id = id ∧ h.inst = n := by
  obtain ⟨h, found, same⟩ := Option.map_eq_some_iff.mp h
  exact ⟨h, found, congrArg Prod.fst same, congrArg Prod.snd same⟩

theorem slotReg_ph (n : Fin 128) (o : Nat) (h : o < 0x200) : slotReg (Addr.ph n o) = false := by
  have below : Addr.ph n o < 0x020000 := by have := n.isLt; unfold Addr.ph; omega
  simp [slotReg, below.not_ge, (show ¬ 0x050000 ≤ Addr.ph n o by omega)]

/-- Settles O14: where a write goes, then each access type's effect. -/
theorem registerWritesByAccessType : Obligations.RegisterWritesByAccessType := by
  refine ⟨fun s p a v h => ?nothing, fun s p a v h up busy aligned found other => ?busy, fun s p v up => ?ldrCmd,
    fun s p a v h up idle aligned found slot absent => ?absent, fun s p a v h up idle aligned found present => ?written,
    fun s p v service idle => ?hold, fun s p v up idle outside => ?locked, fun s p n v up idle => ?hist, bitN_w1c⟩
  case nothing =>
    by_cases aligned : a % 4 = 0
    · rw [execRegWrite_aligned aligned]
      rcases h with h | unmapped | off
      · exact absurd aligned h
      · rw [writeWord_of_unmapped unmapped]
      · rw [writeWord_off off]
    · exact execRegWrite_misaligned aligned
  case busy => rw [execRegWrite_aligned aligned, writeWord_busy found up busy other]
  case ldrCmd =>
    obtain ⟨h, found, id⟩ := findReg_ldrCmd
    rw [execRegWrite_aligned rfl, writeWord_of_found found, if_neg (by simp [up]), if_pos id, writeGo_present (.inl (by decide))]
    simp only [writeHit, id]
  case absent => rw [execRegWrite_aligned aligned, writeWord_idle found up idle, writeGo_absent slot absent]
  case written =>
    have hit := execRegWrite_hit (p := p) (v := v) aligned found up idle present
    refine ⟨hit, fun ro => ?_, fun cfg outside => ?_, fun cfg wf inside acts => ?_, fun cfg low high first last foreign mode => ?_⟩
    · rw [hit, writeHit_readOnly found ro]
    · rw [hit, writeHit_cfg cfg, writeCfg_locked outside]
    · rw [hit, writeHit_cfg cfg, writeCfg_takes inside, putCfg_takes acts]
      refine ⟨_, rfl, ?_, fun b other => ?_, fun plain =>
        (setCfg_within (Within.refl _ _) rfl).andThen (cfgFollow_within_of_plain plain _) rfl⟩
      · rw [cfgW_cfgFollow_setCfg wf, if_pos rfl]
      · rw [cfgW_cfgFollow_setCfg wf, if_neg other]
    · have acc := acc_of_blockWord found cfg low high
      rw [hit, writeHit_cfg cfg, writeCfg_takes (.inr (.inl ⟨acc, mode⟩)), putCfg_idle ⟨low, high, first, last, foreign⟩]
  case hold =>
    obtain ⟨h, found, id⟩ := findReg_devVtrim
    rw [execRegWrite_hit rfl found (by simp [service, Mode.up]) idle (.inl (by decide))]
    simp only [writeHit, id, if_pos service]
    rfl
  case locked =>
    obtain ⟨h, found, id⟩ := findReg_devVtrim
    rw [execRegWrite_hit rfl found up idle (.inl (by decide))]
    simp only [writeHit, id, if_neg outside]
    rfl
  case hist =>
    obtain ⟨h, found, id, inst⟩ := findReg_of_map (findReg_phFltHist n)
    have aligned : Addr.ph n 0x98 % 4 = 0 := by unfold Addr.ph; omega
    rw [execRegWrite_hit aligned found up idle (.inl (slotReg_ph n _ (by decide)))]
    simp only [writeHit, id, inst]
    refine ⟨_, rfl, modPh_within (Within.refl _ _) rfl, fun j other => ?_, ?_⟩
    · rw [getPh_modPh, if_neg fun h => other h.1.symm]
    · rw [getPh_modPh, if_pos ⟨rfl, n.isLt⟩]

end Sys2Proof.Machine
end

section
/-!
Register reads (R4, R5, R8): what a read-and-clear register holds afterwards, and what a read of a lowest word captures for its path.
-/

namespace Sys2Proof.Machine

/-! ### Read-and-clear -/

/-- The read-and-clear registers. -/
def counters : List RegId :=
  [.devFcnt, .tbCnt, .rtcShstat, .thmCnt, .wdtCnt, .intcCnt, .safCnt, .sumpCnt, .linkP0Cnt, .linkP1Cnt, .linkPzCnt, .ringRetx, .sqzCnt,
   .twiCnt, .nvmCnt, .ldrCnt, .phCntLim, .phCntSkip, .phCntShed, .chCnt, .feEchoCnt, .estCnt, .rcpEngLate]

theorem counter_rows : ∀ b ∈ regBlocks, ∀ r ∈ b.rows, r.acc = .rc → r.id ∈ counters := by decide

/-- What an update brings about at its place, and the table's default has too. -/
theorem tget_tmod_self {α : Type} {n : Nat} {P : α → Prop} {d : α} (default : P d) {f : α → α} (brings : ∀ x, P (f x)) (v : Vector α n)
    (i : Nat) : P (tget d (tmod v i f) i) := by
  rw [tget_tmod]
  split
  · exact brings _
  next outside =>
    have beyond : n ≤ i := by
      by_contra inside
      exact outside ⟨rfl, by omega⟩
    rw [tget]
    simpa [beyond] using default

theorem lmod_getD_self {α : Type} {P : α → Prop} {d : α} (default : P d) {f : α → α} (brings : ∀ x, P (f x)) (l : List α) (i : Nat) :
    P ((lmod l i f).getD i d) := by
  rw [lmod_eq_modify, List.getD_eq_getElem?_getD, List.getElem?_modify_eq]
  cases l[i]? with
  | none => exact default
  | some x => exact brings x

theorem rcPut_emit (p : Path) (h : RegHit) (w : Word) (o : Out) (s : State) : rcPut p h w (emit o s) = emit o (rcPut p h w s) := by
  unfold rcPut
  dsimp only
  split <;> rfl

theorem field_zero (lo w : Nat) : field 0 lo w = 0 := by simp [field, fieldN]

theorem foldl_add_zero {l : List Nat} (h : ∀ x ∈ l, x = 0) (m : Nat) : l.foldl (· + ·) m = m := by
  induction l with
  | nil => rfl
  | cons x l ih =>
    rw [List.foldl_cons, h x List.mem_cons_self, Nat.add_zero]
    exact ih fun y mem => h y (List.mem_cons_of_mem _ mem)

/-- A word of fields that are all 0. -/
theorem packW_eq_zero {l : List (Nat × Nat × Nat)} (h : ∀ x ∈ l, x.2.2 = 0) : packW l = 0 := by
  rw [packW, sumN, foldl_add_zero]
  · rfl
  · intro x mem
    obtain ⟨y, there, rfl⟩ := List.mem_map.mp mem
    simp [h y there]

section
variable {s : State} {p : Path} {a : Nat} {h : RegHit}

/-- A register of the global counters, cleared field by field. -/
theorem viewReg_rcPut_global (counter : h.row.id ∈ ([.devFcnt, .tbCnt, .thmCnt, .intcCnt, .safCnt, .sumpCnt, .linkP0Cnt, .linkP1Cnt,
    .linkPzCnt, .twiCnt, .nvmCnt, .ldrCnt] : List RegId)) : viewReg (rcPut p h 0 s) p a h = 0 := by
  simp only [List.mem_cons, List.not_mem_nil, or_false] at counter
  rcases counter with id | id | id | id | id | id | id | id | id | id | id | id <;> simp only [viewReg, rcPut, id, field_zero]
  all_goals exact packW_eq_zero (by simp [modFab, modTb, modSaf, modSump, modPort, modLink, modLdr])

theorem viewReg_rcPut_phase (counter : h.row.id ∈ ([.phCntLim, .phCntSkip, .phCntShed] : List RegId)) :
    viewReg (rcPut p h 0 s) p a h = 0 := by
  simp only [List.mem_cons, List.not_mem_nil, or_false] at counter
  rcases counter with id | id | id <;> simp only [viewReg, rcPut, id, field_zero, State.getPh, modPh]
  · exact tget_tmod_self (P := fun x : Phase => wordN x.cntLim = 0) rfl (fun _ => rfl) _ _
  · exact tget_tmod_self (P := fun x : Phase => wordN x.cntSkip = 0) rfl (fun _ => rfl) _ _
  · exact tget_tmod_self (P := fun x : Phase => packW [(0, 16, x.cntShed), (16, 16, x.cntShedX)] = 0) (packW_eq_zero (by simp))
      (fun _ => packW_eq_zero (by simp)) _ _

/-- A register of one entry of a table. -/
theorem viewReg_rcPut_entry (counter : h.row.id ∈ ([.wdtCnt, .ringRetx, .sqzCnt, .chCnt, .estCnt, .rcpEngLate] : List RegId)) :
    viewReg (rcPut p h 0 s) p a h = 0 := by
  simp only [List.mem_cons, List.not_mem_nil, or_false] at counter
  rcases counter with id | id | id | id | id | id <;> simp only [viewReg, rcPut, id, field_zero]
  · simp only [viewWdtCnt, State.slot, modSlot, modWdt]
    exact lmod_getD_self (P := fun x : WdtSlot => packW [(0, 8, x.nExp), (8, 8, x.nEarly), (16, 8, x.nDup), (24, 8, x.nBad)] = 0)
      (packW_eq_zero (by simp)) (fun _ => packW_eq_zero (by simp)) _ _
  · exact tget_tmod_self (P := fun x : Ring => wordN x.retx = 0) rfl (fun _ => rfl) _ _
  · simp only [viewSqzCnt, State.getSqz, modSqz]
    exact tget_tmod_self (P := fun x : Sqz => packW [(0, 16, x.degraded), (16, 16, x.vfail)] = 0) (packW_eq_zero (by simp))
      (fun _ => packW_eq_zero (by simp)) _ _
  · simp only [viewChCnt, State.getCh, modCh]
    exact tget_tmod_self (P := fun x : Channel => packW [(0, 16, x.nRev), (16, 16, x.nSup)] = 0) (packW_eq_zero (by simp))
      (fun _ => packW_eq_zero (by simp)) _ _
  · simp only [State.getEst, modEst]
    exact tget_tmod_self (P := fun x : Estimator => packW [(0, 16, x.overruns), (16, 16, x.wbDrops)] = 0) (packW_eq_zero (by simp))
      (fun _ => packW_eq_zero (by simp)) _ _
  · exact tget_tmod_self (P := fun x : Gallery => wordN x.late = 0) rfl (fun _ => rfl) _ _

theorem viewReg_rcPut_echo (id : h.row.id = .feEchoCnt) : viewReg (rcPut p h 0 s) p a h = 0 := by
  simp only [viewReg, rcPut, id, field_zero, viewFe]
  split
  · rfl
  · simp only [State.getFe, modFe]
    exact tget_tmod_self (P := fun x : FrontEnd => packW [(0, 16, x.echoDone), (16, 16, x.echoAbort)] = 0) (packW_eq_zero (by simp))
      (fun _ => packW_eq_zero (by simp)) _ _

/-- The stale mark is cleared, and a freeze that lasted too long ends with it. -/
theorem viewReg_rcPut_stale (id : h.row.id = .rtcShstat) : viewReg (rcPut p h 0 s) p a h = 0 := by
  simp only [viewReg, rcPut, id, State.shad, modShad]
  refine lmod_getD_self (P := fun x : Shadow => wordN (b2n (x.stale || freezeOver x)) = 0) rfl (fun x => ?_) _ _
  by_cases long : freezeOver x = true
  · simp only [long, if_true]; rfl
  · have short : freezeOver x = false := by simpa using long
    simp only [if_neg long]
    change wordN (b2n (false || freezeOver x)) = 0
    rw [short]
    rfl

theorem viewReg_rcPut_zero (counter : h.row.id ∈ counters) : viewReg (rcPut p h 0 s) p a h = 0 := by
  have kinds : h.row.id ∈ ([.devFcnt, .tbCnt, .thmCnt, .intcCnt, .safCnt, .sumpCnt, .linkP0Cnt, .linkP1Cnt, .linkPzCnt, .twiCnt, .nvmCnt,
      .ldrCnt] : List RegId) ∨ h.row.id ∈ ([.phCntLim, .phCntSkip, .phCntShed] : List RegId) ∨
      h.row.id ∈ ([.wdtCnt, .ringRetx, .sqzCnt, .chCnt, .estCnt, .rcpEngLate] : List RegId) ∨ h.row.id = .feEchoCnt ∨
      h.row.id = .rtcShstat := by
    simp only [counters, List.mem_cons, List.not_mem_nil, or_false] at counter ⊢
    tauto
  rcases kinds with k | k | k | k | k
  · exact viewReg_rcPut_global k
  · exact viewReg_rcPut_phase k
  · exact viewReg_rcPut_entry k
  · exact viewReg_rcPut_echo k
  · exact viewReg_rcPut_stale k

/-! ### The effect of a read -/

/-- The registers a read of which captures. -/
def lowest : List RegId :=
  [.feVsamp, .feAccLo, .tbFrac, .tbMasterLo, .ldrImgidLo, .linkMacLo, .chQstepLo, .estCellidLo, .estRes, .phLfr]

theorem lowest_rows : ∀ b ∈ regBlocks, ∀ r ∈ b.rows, r.id ∈ lowest → r.acc = .ro := by decide

theorem captureSet_of_not_lowest (other : h.row.id ∉ lowest) : captureSet s a h = [] := by
  unfold captureSet
  dsimp only
  split
  all_goals first | rfl | exact absurd (by simp [lowest, *]) other

/-- The registers whose read has an effect of its own. -/
def readActs : List RegId := [.rtcSubsec, .rtcYear, .rtcBram, .intcClaim, .window]

theorem readEffect_plain (plain : h.row.id ∉ readActs) (racing : Word) : readEffect p a h racing s =
    if h.row.acc = .rc then rcPut p h racing s else match captureSet s a h with | [] => s | l => capture p l s := by
  unfold readEffect
  split
  all_goals first | rfl | exact absurd (by simp [readActs, *]) plain

theorem readEffect_counter (found : findReg a = some h) (rc : h.row.acc = .rc) (racing : Word) :
    readEffect p a h racing s = rcPut p h racing s := by
  obtain ⟨b, block, -, row, -⟩ := findReg_spec found
  have plain : h.row.id ∉ readActs := fun acts => absurd (counter_rows b block _ row rc) (by revert acts; unfold readActs counters; generalize h.row.id = i; revert i; decide)
  rw [readEffect_plain plain, if_pos rc]

theorem readEffect_capture (found : findReg a = some h) (some_words : captureSet s a h ≠ []) (racing : Word) :
    readEffect p a h racing s = capture p (captureSet s a h) s := by
  obtain ⟨b, block, -, row, -⟩ := findReg_spec found
  have low : h.row.id ∈ lowest := by_contra fun other => some_words (captureSet_of_not_lowest other)
  have plain : h.row.id ∉ readActs := fun acts => absurd low (by revert acts; unfold readActs lowest; generalize h.row.id = i; revert i; decide)
  rw [readEffect_plain plain, if_neg (by rw [lowest_rows b block _ row low]; decide)]
  cases words : captureSet s a h with
  | nil => exact absurd words some_words
  | cons => rfl

theorem readCmd_off {racing : Word} (off : s.mode.up = false ∨ a % 4 ≠ 0) : readCmd p a racing s = s := by
  refine if_pos ?_
  rcases off with off | off <;> simp [off]

theorem readCmd_found {racing : Word} (up : s.mode.up = true) (aligned : a % 4 = 0) (found : findReg a = some h) :
    readCmd p a racing s = emit (.readData p a (viewReg s p a h)) (readEffect p a h racing s) := by
  unfold readCmd readRacing
  rw [if_neg (by simp [up, aligned]), found]

end

/-! ### What a path has captured -/

theorem Path.slot_lt (p : Path) : Path.slot p < 9 := by
  cases p with
  | sess i => exact Nat.lt_of_lt_of_le i.isLt (by decide)
  | i2c => decide
  | core c => have := c.isLt; simp only [Path.slot]; omega

theorem Path.slot_injective {p q : Path} (h : Path.slot p = Path.slot q) : p = q := by
  cases p <;> cases q <;> simp only [Path.slot] at h
  case sess.sess i j => rw [Fin.ext h]
  case core.core i j => rw [Fin.ext (Nat.add_left_cancel h)]
  case i2c.i2c => rfl
  all_goals exact absurd h (by omega)

theorem shad_modShad_other {p q : Path} (other : q ≠ p) (f : Shadow → Shadow) (s : State) : (modShad p f s).shad q = s.shad q := by
  have slots : Path.slot p ≠ Path.slot q := fun h => other (Path.slot_injective h).symm
  simp [State.shad, modShad, lmod_eq_modify, slots]

theorem length_shadow_of_Lengths {s : State} (lengths : Lengths s = true) : s.shadow.length = 9 := by
  obtain ⟨-, -, -, -, -, -, wide⟩ := lengths_iff.mp lengths
  simpa [stored] using wide

theorem shad_modShad_of_length {s : State} (nine : s.shadow.length = 9) (p : Path) (f : Shadow → Shadow) :
    (modShad p f s).shad p = f (s.shad p) := by
  have stands : Path.slot p < s.shadow.length := nine ▸ Path.slot_lt p
  simp [State.shad, modShad, lmod_eq_modify, stands]

theorem shad_modShad_self {s : State} (lengths : Lengths s = true) (p : Path) (f : Shadow → Shadow) :
    (modShad p f s).shad p = f (s.shad p) := shad_modShad_of_length (length_shadow_of_Lengths lengths) p f

/-- Words that are put elsewhere leave a word. -/
theorem alGet_foldl_other {l : List (Nat × Word)} {a : Nat} (other : a ∉ l.map Prod.fst) {w : List (Nat × Word)}
    (wf : alWf (0 : Word) 0 w = true) : alGet 0 a (l.foldl (fun w x => alSet 0 x.1 x.2 w) w) = alGet 0 a w := by
  induction l generalizing w with
  | nil => rfl
  | cons x l ih =>
    obtain ⟨here, rest⟩ : a ≠ x.1 ∧ a ∉ l.map Prod.fst := by simpa [List.map_cons] using other
    rw [List.foldl_cons, ih rest (alWf_alSet (Nat.zero_le _) wf), alGet_alSet a wf, if_neg here]

theorem alGet_foldl_alSet {l : List (Nat × Word)} {a : Nat} {v : Word} (keys : (l.map Prod.fst).Nodup) (there : (a, v) ∈ l)
    {w : List (Nat × Word)} (wf : alWf (0 : Word) 0 w = true) : alGet 0 a (l.foldl (fun w x => alSet 0 x.1 x.2 w) w) = v := by
  induction l generalizing w with
  | nil => cases there
  | cons x l ih =>
    rw [List.map_cons, List.nodup_cons] at keys
    rw [List.foldl_cons]
    rcases List.mem_cons.mp there with rfl | later
    · rw [alGet_foldl_other keys.1 (alWf_alSet (Nat.zero_le _) wf), alGet_alSet a wf, if_pos rfl]
    · exact ih keys.2 later (alWf_alSet (Nat.zero_le _) wf)

theorem shad_wide_wf {s : State} (wf : CapturesWf s) (p : Path) : alWf (0 : Word) 0 (s.shad p).wide = true := by
  unfold State.shad
  rw [List.getD_eq_getElem?_getD]
  cases h : s.shadow[Path.slot p]? with
  | none => rfl
  | some x => exact wf x (List.mem_of_getElem? h)

/-- A captured word reads back from its path. -/
theorem captured_capture {s : State} (lengths : Lengths s = true) (wf : CapturesWf s) (p : Path) {l : List (Nat × Word)}
    (keys : (l.map Prod.fst).Nodup) {a : Nat} {v : Word} (there : (a, v) ∈ l) : captured (capture p l s) p a = v := by
  unfold captured capture
  rw [shad_modShad_self lengths]
  exact alGet_foldl_alSet keys there (shad_wide_wf wf p)

theorem captured_read {s : State} (lengths : Lengths s = true) (wf : CapturesWf s) (p : Path) (o : Out) {l : List (Nat × Word)}
    (keys : (l.map Prod.fst).Nodup) {a : Nat} {v : Word} (there : (a, v) ∈ l) : captured (emit o (capture p l s)) p a = v :=
  captured_capture lengths wf p keys there

/-! ### Single registers -/

theorem findReg_feVsamp : ∀ n : Fin 128, (findReg (Addr.fe n 0x84)).map (fun h => (h.row.id, h.inst)) = some (.feVsamp, n.val) := by decide

theorem findReg_phCntLim : ∀ n : Fin 128, (findReg (Addr.ph n 0x9C)).map (fun h => (h.row.id, h.inst)) = some (.phCntLim, n.val) := by decide

theorem isRc_phCntLim : ∀ n : Fin 128, isRc (Addr.ph n 0x9C) = true := by decide

theorem findReg_phLfr : ∀ n : Fin 128, (findReg (Addr.ph n 0x100)).map (fun h => (h.row.id, h.inst, h.idx)) = some (.phLfr, n.val, 0) := by
  decide

theorem findReg_tbFrac : ∃ h, findReg 0x002084 = some h ∧ h.row.id = .tbFrac := ⟨_, rfl, rfl⟩

/-- A read of a lowest word: what it answers, and what its path has captured afterwards. -/
theorem readCmd_lowest {s : State} {p : Path} {a : Nat} {h : RegHit} (up : s.mode.up = true) (aligned : a % 4 = 0)
    (found : findReg a = some h) (words : captureSet s a h ≠ []) (racing : Word) :
    readCmd p a racing s = emit (.readData p a (viewReg s p a h)) (capture p (captureSet s a h) s) := by
  rw [readCmd_found up aligned found, readEffect_capture found words]

theorem read_within (p : Path) (l : List (Nat × Word)) (s : State) (o : Out) : Within [.shadow, .out] s (emit o (capture p l s)) :=
  emit_within (capture_within (Within.refl _ _) rfl) rfl

/-- The higher words of a phase's last-fault record (R75). -/
def recordWords (s : State) (n : Nat) : List (Nat × Word) :=
  (upto 15).map fun j => (Addr.ph n 0x100 + 4 + 4 * j, bytesWord (s.getPh n).lfr (j + 1))

theorem recordWords_ne_nil (s : State) (n : Nat) : recordWords s n ≠ [] := by simp [recordWords, upto]

theorem recordWords_keys (s : State) (n : Nat) : ((recordWords s n).map Prod.fst).Nodup := by
  rw [recordWords, List.map_map]
  refine (nodup_upto 15).map fun i j h => ?_
  simp only [Function.comp] at h
  omega

theorem mem_recordWords {s : State} {n j : Nat} (low : 1 ≤ j) (high : j < 16) :
    (Addr.ph n 0x100 + 4 * j, bytesWord (s.getPh n).lfr j) ∈ recordWords s n := by
  refine List.mem_map.mpr ⟨j - 1, mem_upto (by omega), ?_⟩
  rw [Nat.sub_add_cancel low, (show Addr.ph n 0x100 + 4 + 4 * (j - 1) = Addr.ph n 0x100 + 4 * j by omega)]

/-- Settles O15: a read by its register's type, and each capture for its path alone. -/
theorem readsClearAndCapture : Obligations.ReadsClearAndCapture := by
  refine ⟨fun s p a racing h => ?idle, fun s p a h racing up aligned found rc => ?clears, fun s p n racing up => ?limits,
    fun s p a unmapped => by simp [readReg, readRacing, unmapped], fun s p a h up aligned found words => ?wide, fun s p a h => ?narrow,
    fun s p l => ⟨fun q other => shad_modShad_other other _ s, capture_within (Within.refl _ _) rfl⟩, fun s p n off => ?off,
    fun s p n lengths wf up => ?sample, fun s p n lengths wf up => ?record, fun s p lengths wf up => ?time⟩
  case idle =>
    refine congrArg Host.Outcome.next ?_
    rcases h with off | misaligned | other
    · rw [readCmd_off (.inl off), ite_self]
    · rw [readCmd_off (.inr misaligned), ite_self]
    · exact if_neg (by simp [other])
  case clears =>
    have counter : isRc a = true := by simp [isRc, found, rc]
    obtain ⟨b, block, -, row, -⟩ := findReg_spec found
    have read := readCmd_found (p := p) (racing := racing) up aligned found
    rw [readEffect_counter found rc] at read
    refine ⟨_, congrArg Host.Outcome.next ((if_pos counter).trans read), ?_, rfl, ?_⟩
    · have out : (rcPut p h racing s).out = s.out := rcPut_within (Within.refl [.tb, .ph, .gal, .fe, .ch, .est, .sump, .link, .ring, .sqz,
        .saf, .ldr, .twi, .wdt, .thm, .intc, .nvm, .fab, .shadow] s) rfl .out (by decide)
      exact congrArg (· ++ _) out
    · rintro rfl
      rw [← rcPut_emit]
      exact viewReg_rcPut_zero (counter_rows b block _ row rc)
  case limits =>
    obtain ⟨h, found, id, inst⟩ := findReg_of_map (findReg_phCntLim n)
    have counter := isRc_phCntLim n
    have rc : h.row.acc = .rc := by simpa [isRc, found] using counter
    have aligned : Addr.ph n 0x9C % 4 = 0 := by unfold Addr.ph; omega
    have read := readCmd_found (p := p) (racing := racing) up aligned found
    rw [readEffect_counter found rc] at read
    refine ⟨_, congrArg Host.Outcome.next ((if_pos counter).trans read), ?_⟩
    simp only [rcPut, id, inst]
    refine ⟨?_, fun j other => ?_, emit_within (modPh_within (Within.refl _ _) rfl) rfl⟩
    · exact congrArg Phase.cntLim ((getPh_modPh ..).trans (if_pos ⟨rfl, n.isLt⟩))
    · exact (getPh_modPh ..).trans (if_neg fun h => other h.1.symm)
  case wide =>
    have low : isLowest s a = true := by simp [isLowest, found, words]
    exact congrArg Host.Outcome.next ((if_pos low).trans (readCmd_lowest up aligned found words 0))
  case narrow =>
    refine congrArg Host.Outcome.next ?_
    rcases h with off | misaligned | none
    · rw [readCmd_off (.inl off), ite_self]
    · rw [readCmd_off (.inr misaligned), ite_self]
    · refine if_neg ?_
      unfold isLowest
      cases found : findReg a with
      | none => exact Bool.false_ne_true
      | some h => simp [none h found]
  case off =>
    exact ⟨congrArg _ (readCmd_off (.inl off)), congrArg _ (readCmd_off (.inl off)), congrArg _ (readCmd_off (.inl off))⟩
  case sample =>
    obtain ⟨h, found, id, inst⟩ := findReg_of_map (findReg_feVsamp n)
    have aligned : Addr.fe n 0x84 % 4 = 0 := by unfold Addr.fe; omega
    have words : captureSet s (Addr.fe n 0x84) h = [(Addr.fe n 0x88, viewFe s n .feIsamp), (Addr.fe n 0x8C, viewFe s n .feIcur),
        (Addr.fe n 0x90, viewFe s n .feSflag)] := by simp only [captureSet, id, inst]
    have keys : ([(Addr.fe n 0x88, viewFe s n .feIsamp), (Addr.fe n 0x8C, viewFe s n .feIcur),
        (Addr.fe n 0x90, viewFe s n .feSflag)].map Prod.fst).Nodup := by simp [Addr.fe]
    have view : viewReg s p (Addr.fe n 0x84) h = viewFe s n .feVsamp := by simp only [viewReg, id, inst]
    have read := readCmd_lowest (p := p) up aligned found (words ▸ List.cons_ne_nil _ _) 0
    rw [words, view] at read
    refine ⟨_, congrArg Host.Outcome.next read, rfl, ?_, ?_, ?_, fun q other => shad_modShad_other other _ s, read_within _ _ _ _⟩
    all_goals exact captured_read lengths wf p _ keys (by simp)
  case record =>
    obtain ⟨h, found, place⟩ := Option.map_eq_some_iff.mp (findReg_phLfr n)
    obtain ⟨id, inst, idx⟩ : h.row.id = .phLfr ∧ h.inst = n.val ∧ h.idx = 0 := by simpa using place
    have aligned : Addr.ph n 0x100 % 4 = 0 := by unfold Addr.ph; omega
    have words : captureSet s (Addr.ph n 0x100) h = recordWords s n := by simp only [captureSet, id, inst, idx, if_true, recordWords]
    have view : viewReg s p (Addr.ph n 0x100) h = bytesWord (s.getPh n).lfr 0 := by simp only [viewReg, id, inst, idx, if_true]
    have read := readCmd_lowest (p := p) up aligned found (words ▸ recordWords_ne_nil s n) 0
    rw [words, view] at read
    exact ⟨_, congrArg Host.Outcome.next read, rfl,
      fun j low high => captured_read lengths wf p _ (recordWords_keys s n) (mem_recordWords low high),
      fun q other => shad_modShad_other other _ s, read_within _ _ _ _⟩
  case time =>
    obtain ⟨h, found, id⟩ := findReg_tbFrac
    have words : captureSet s 0x002084 h = [(0x002088, wordOf s.tb.sec 0), (0x00208C, wordOf (s.tb.sec % 2 ^ 48) 1),
        (0x002090, wordOf s.tb.run 0), (0x002094, wordOf s.tb.run 1)] := by simp only [captureSet, id]
    have view : viewReg s p 0x002084 h = wordN s.tb.frac := by simp only [viewReg, id]
    have read := readCmd_lowest (p := p) up rfl found (words ▸ List.cons_ne_nil _ _) 0
    rw [words, view] at read
    refine ⟨_, congrArg Host.Outcome.next read, rfl, ?_, ?_, ?_, ?_, fun q other => shad_modShad_other other _ s, read_within _ _ _ _⟩
    all_goals exact captured_read lengths wf p _ (by simp) (by simp)

end Sys2Proof.Machine
end

section
/-!
Writes of the recipe selection, of the codec's configuration and of its steps (R149, R313, R316, R323).
-/

namespace Sys2Proof.Machine

/-! ### The word that SQZ_CFG takes -/

/-- The mode of a write with the VERIFY bit of another word. -/
def codecWord (v x : Word) : Word := (v &&& 3) ||| (x &&& 4)

theorem testBit_codecWord (v x : Word) (i : Nat) :
    (codecWord v x).toNat.testBit i = if i < 2 then v.toNat.testBit i else decide (i = 2) && x.toNat.testBit i := by
  have bits (k : Nat) : (k < 2 ∨ k = 2 ∨ 3 ≤ k) := by omega
  have three : (3 : Word).toNat = 2 ^ 2 - 1 := rfl
  have four : (4 : Word).toNat = 2 ^ 2 := rfl
  simp only [codecWord, BitVec.toNat_or, BitVec.toNat_and, Nat.testBit_or, Nat.testBit_and, three, four, Nat.testBit_two_pow_sub_one,
    Nat.testBit_two_pow]
  rcases bits i with low | mid | high
  · simp [low, (show ¬ 2 = i by omega)]
  · simp [mid]
  · simp [(show ¬ i < 2 by omega), (show ¬ 2 = i by omega), (show ¬ i = 2 by omega)]

theorem field_codecWord (v x : Word) : field (codecWord v x) 0 2 = field v 0 2 := by
  refine Nat.eq_of_testBit_eq fun i => ?_
  simp only [field, fieldN, Nat.shiftRight_zero, Nat.testBit_mod_two_pow, testBit_codecWord]
  by_cases low : i < 2 <;> simp [low]

theorem verify_codecWord (v x : Word) : (codecWord v x).toNat.testBit 2 = x.toNat.testBit 2 := by simp [testBit_codecWord]

theorem and_four_eq_iff (v x : Word) : v &&& 4 = x &&& 4 ↔ v.toNat.testBit 2 = x.toNat.testBit 2 := by
  have four : (4 : Word).toNat = 2 ^ 2 := rfl
  constructor
  · intro h
    have := congrArg (fun w : Word => w.toNat.testBit 2) h
    simpa [show Nat.testBit 4 2 = true from rfl] using this
  · intro h
    refine BitVec.eq_of_toNat_eq (Nat.eq_of_testBit_eq fun i => ?_)
    simp only [BitVec.toNat_and, Nat.testBit_and, four, Nat.testBit_two_pow]
    by_cases mid : 2 = i
    · subst mid; simp [h]
    · simp [mid]

/-! ### A write of the codec -/

section
variable {s : State} {p : Path} {a : Nat} {v : Word}

theorem execSqzCfgWrite_inside (low : 0x009000 ≤ a) (high : a < 0x009100) (aligned : a % 4 = 0) :
    exec (.sqzCfgWrite p a v) s = .next (regGate a (writeSqz a v) s) :=
  congrArg Host.Outcome.next (if_pos (by simp [low, high, aligned]))

theorem execSqzCfgWrite_outside (outside : a < 0x009000 ∨ 0x009100 ≤ a ∨ a % 4 ≠ 0) : exec (.sqzCfgWrite p a v) s = .next s := by
  refine congrArg Host.Outcome.next (if_neg ?_)
  simp only [Bool.and_eq_true, decide_eq_true_eq, beq_iff_eq]
  omega

/-- A codec's word is stored, and the front ends whose block is open change at their next. -/
def storeSqz (a r : Nat) (w : Word) (s : State) : State :=
  updateWcr (modSqz r (fun q => { q with pend := openMask s r }) (setCfg a w s))

theorem storeSqz_within (a r : Nat) (w : Word) (s : State) : Within [.regs, .sqz, .link] s (storeSqz a r w s) :=
  updateWcr_within (modSqz_within (setCfg_within (Within.refl _ _) rfl) rfl) rfl

theorem cfgW_storeSqz (wf : regsWf 0 s.regs = true) (r : Nat) (w : Word) (b : Nat) :
    cfgW (storeSqz a r w s) b = if b = a then w else cfgW s b := cfgW_setCfg wf b

theorem pend_storeSqz (r : Fin 32) (w : Word) : ((storeSqz a r w s).getSqz r).pend = openMask s r :=
  congrArg Sqz.pend ((getSqz_modSqz ..).trans (if_pos ⟨rfl, r.isLt⟩))

theorem sqzCfg_place (r : Fin 32) : (0x009000 + 4 * r.val) % 0x80 / 4 = r.val := by have := r.isLt; omega

theorem sqzQ_place (r : Fin 32) : (0x009080 + 4 * r.val) % 0x80 / 4 = r.val := by have := r.isLt; omega

/-- The modes in which VERIFY can be written. -/
def verifyOpen (s : State) : Bool := s.mode == .load || s.mode == .service

theorem writeSqz_cfg (r : Fin 32) : writeSqz (0x009000 + 4 * r.val) v s =
    if field v 0 2 = 3 then raise .fabric Cause.sqzWriteBad 0xFF s
    else
      let w := codecWord v (if verifyOpen s then v else cfgW s (0x009000 + 4 * r.val))
      let t := storeSqz (0x009000 + 4 * r.val) r w s
      if (!verifyOpen s && v &&& 4 != cfgW s (0x009000 + 4 * r.val) &&& 4) = true then
        raiseReg Cause.regWriteLocked (0x009000 + 4 * r.val) t else t := by
  have low : decide (0x009080 ≤ 0x009000 + 4 * r.val) = false := by have := r.isLt; simp; omega
  simp only [writeSqz, low, sqzCfg_place, Bool.false_eq_true, if_false, Bool.not_false, Bool.true_and, beq_iff_eq]
  rfl

theorem writeSqz_q (r : Fin 32) : writeSqz (0x009080 + 4 * r.val) v s =
    if (!((stepOk (field v 0 16) && stepOk (field v 16 16)) || (sqzMode s r != 1 && v == 0))) = true then
      raise .fabric Cause.sqzWriteBad 0xFF s
    else storeSqz (0x009080 + 4 * r.val) r v s := by
  have high : decide (0x009080 ≤ 0x009080 + 4 * r.val) = true := by simp
  simp only [writeSqz, high, sqzQ_place, if_true, Bool.not_true, Bool.false_and, Bool.false_eq_true, if_false]
  rfl

/-- What a ring's codec is set to by a word that takes its VERIFY bit from x. -/
theorem storeSqz_codecWord (wf : regsWf 0 s.regs = true) (r : Fin 32) (v x : Word) :
    sqzMode (storeSqz (0x009000 + 4 * r.val) r (codecWord v x) s) r = field v 0 2 ∧
      sqzVerify (storeSqz (0x009000 + 4 * r.val) r (codecWord v x) s) r = x.toNat.testBit 2 ∧
      ((storeSqz (0x009000 + 4 * r.val) r (codecWord v x) s).getSqz r).pend = openMask s r ∧
      ∀ a, a ≠ 0x009000 + 4 * r.val → cfgW (storeSqz (0x009000 + 4 * r.val) r (codecWord v x) s) a = cfgW s a := by
  have word : cfgW (storeSqz (0x009000 + 4 * r.val) r (codecWord v x) s) (Addr.sqzCfg r) = codecWord v x :=
    (cfgW_storeSqz wf r _ _).trans (if_pos rfl)
  refine ⟨?_, ?_, pend_storeSqz r _, fun a other => (cfgW_storeSqz wf r _ a).trans (if_neg other)⟩
  · rw [sqzMode, cfgF, word, field_codecWord]
  · rw [sqzVerify, cfgN, word, bitN, verify_codecWord]

end

/-- Settles O16: each write by its place and its value. -/
theorem recipeWindowAndCodecWrites : Obligations.RecipeWindowAndCodecWrites := by
  refine ⟨fun s p v off => congrArg _ (regGate_of_no_path off _ _), fun s p v up busy => congrArg _ (regGate_of_busy up busy _ _),
    fun s p v lengths up idle => ?select, fun s p a v h => ?outside, fun s p a v up busy low high aligned => ?busy,
    fun s p r v up idle bad => ?badMode, fun s p r v up idle h bad => ?badStep, fun s p r v wf up idle good => ?steps,
    fun s p r v wf up load service idle good => ?mode, fun s p r v wf inside idle good => ?verify⟩
  case select =>
    refine ⟨writeRcpSel p v s, congrArg Host.Outcome.next (regGate_of_path up idle _ _), ?_, ?_, fun q other => shad_modShad_other other _ s,
      writeRcpSel_within (Within.refl _ _) rfl⟩
    · exact congrArg Shadow.rcpSel (shad_modShad_self lengths p _)
    · exact congrArg Shadow.rcpWin (shad_modShad_self lengths p _)
  case outside =>
    by_cases inside : a < 0x009000 ∨ 0x009100 ≤ a ∨ a % 4 ≠ 0
    · exact execSqzCfgWrite_outside inside
    · have off : s.mode.up = false := h.resolve_right inside
      rw [execSqzCfgWrite_inside (by omega) (by omega) (by omega), regGate_of_no_path off]
  case busy => rw [execSqzCfgWrite_inside low high aligned, regGate_of_busy up busy]
  all_goals have := r.isLt
  case badMode =>
    rw [execSqzCfgWrite_inside (by omega) (by omega) (by omega), regGate_of_path up idle, writeSqz_cfg, if_pos bad]
  case badStep =>
    rw [execSqzCfgWrite_inside (by omega) (by omega) (by omega), regGate_of_path up idle, writeSqz_q, if_pos]
    rcases h with h | h
    · rw [bad, beq_eq_false_iff_ne.mpr h, Bool.and_false]; rfl
    · simp [bad, h]
  case steps =>
    rw [execSqzCfgWrite_inside (by omega) (by omega) (by omega), regGate_of_path up idle, writeSqz_q, if_neg]
    · have word : cfgW (storeSqz (0x009080 + 4 * r.val) r v s) (Addr.sqzQ r) = v := (cfgW_storeSqz wf r v _).trans (if_pos rfl)
      refine ⟨_, rfl, ?_, ?_, pend_storeSqz r v, fun a other => ?_, storeSqz_within _ _ _ _⟩
      · rw [sqzQv, cfgF, word]
      · rw [sqzQi, cfgF, word]
      · rw [cfgW_storeSqz wf, if_neg other]
    · rcases good with good | ⟨rfl, unbounded⟩ <;> simp [*]
  case mode =>
    have closed : verifyOpen s = false := by simp [verifyOpen, load, service]
    rw [execSqzCfgWrite_inside (by omega) (by omega) (by omega), regGate_of_path up idle, writeSqz_cfg, if_neg good]
    simp only [closed, Bool.false_eq_true, if_false, Bool.not_false, Bool.true_and, bne_iff_ne, ne_eq, and_four_eq_iff]
    obtain ⟨mode, verify, pend, others⟩ := storeSqz_codecWord wf r v (cfgW s (0x009000 + 4 * r.val))
    by_cases same : v.toNat.testBit 2 = (cfgW s (0x009000 + 4 * r.val)).toNat.testBit 2
    · rw [if_neg (not_not_intro same)]
      exact ⟨_, rfl, mode, verify, pend, others, fun _ => storeSqz_within _ _ _ _, fun differs => absurd same differs⟩
    · rw [if_pos same]
      exact ⟨_, rfl, mode, verify, pend, others, fun h => absurd h same, fun _ => raiseSrc_events ..⟩
  case verify =>
    have opened : verifyOpen s = true := by simpa [verifyOpen] using inside
    rw [execSqzCfgWrite_inside (by omega) (by omega) (by omega), regGate_of_path (by rcases inside with h | h <;> rw [h] <;> rfl) idle,
      writeSqz_cfg, if_neg good]
    simp only [opened, if_true, Bool.not_true, Bool.false_and, Bool.false_eq_true, if_false]
    obtain ⟨mode, verify, pend, others⟩ := storeSqz_codecWord wf r v v
    exact ⟨_, rfl, mode, verify, pend, others, storeSqz_within _ _ _ _⟩

end Sys2Proof.Machine
end

section
/-!
Requests of a session (R279 to R283): one lemma per case in which a request is decided, and how each answer leaves.
-/

namespace Sys2Proof.Machine

/-! ### The cases of a request -/

section
variable {s : State} {ep : Endpoint} {m : List Byte} {i : Nat} {x : Session} {during : Bool} {form : List Byte → Bool} {least : Role}
  {f : Nat → Session → List Byte → State → PzAns}

/-- The session notes that it was heard. -/
def heardNow (i : Nat) (s : State) : State := modSess i (fun y => { y with lastTk := s.tb.run }) s

theorem pzRequest_unheard (deaf : pzHeard s ep = false) : pzRequest ep m during form least f s = s := by
  unfold pzRequest
  exact if_pos (by simp [deaf])

theorem pzRequest_discarded (heard : pzHeard s ep = true) (h : sessOf s ep = none ∨ ∃ i x, sessOf s ep = some i ∧ s.getSess i = some x ∧
    (Pz.whole m = false ∨ Pz.sess m ≠ i)) : pzRequest ep m during form least f s = pzDiscard s := by
  unfold pzRequest
  rw [if_neg (by simp [heard])]
  rcases h with none_of | ⟨i, x, sess, stands, broken⟩
  · rw [none_of]
  · simp only [sess, stands]
    exact if_pos (by rcases broken with h | h <;> simp [h])

/-- What a right message of a session comes to. -/
theorem pzRequest_from (h : FromSession s ep m i x) : pzRequest ep m during form least f s =
    if loadRuns s = true ∧ during = false then heardNow i s
    else if x.busy.isSome then modLink (fun l => { l with nBusy := incSat 8 l.nBusy }) (heardNow i s)
    else if Pz.seq m = x.seq then (match x.kept with | some r => pzSend ep (pzDup r) (heardNow i s) | none => heardNow i s)
    else if Pz.seq m ≠ (x.seq + 1) % 2 ^ 32 then
      pzSend ep (pzMsg s (Pz.type m) i 3 (Pz.seq m) (pzRefusal Cause.pzSeq ((x.seq + 1) % 2 ^ 32)))
        (pzRaise (some i) Cause.pzSeq (some ((x.seq + 1) % 2 ^ 32)) (modLink (fun l => { l with nSeq := incSat 8 l.nSeq }) (heardNow i s)))
    else if !pzHeadOk m || !form (Pz.payload m) then answered ep m i (.refuse Cause.pzBad none (takenBy m i s))
    else if x.role.code < least.code then answered ep m i (.refuse Cause.pzNotPermitted none (takenBy m i s))
    else answered ep m i (f i x (Pz.payload m) (takenBy m i s)) := by
  obtain ⟨heard, sess, stands, whole, own⟩ := h
  unfold pzRequest
  simp only [heard, sess, stands, whole, own, Bool.not_true, Bool.false_eq_true, if_false, bne_self_eq_false, Bool.or_self]
  rfl

theorem pzRequest_loading (h : FromSession s ep m i x) (loads : loadRuns s = true) (waits : during = false) :
    pzRequest ep m during form least f s = heardNow i s := (pzRequest_from h).trans (if_pos ⟨loads, waits⟩)

section
variable (free : loadRuns s = false ∨ during = true)

include free in
theorem not_loading : ¬(loadRuns s = true ∧ during = false) := by rcases free with h | h <;> simp [h]

include free in
theorem pzRequest_busy (h : FromSession s ep m i x) (busy : x.busy ≠ none) :
    pzRequest ep m during form least f s = modLink (fun l => { l with nBusy := incSat 8 l.nBusy }) (heardNow i s) := by
  rw [pzRequest_from h, if_neg (not_loading free), if_pos (Option.isSome_iff_ne_none.mpr busy)]

include free in
theorem pzRequest_again (h : FromSession s ep m i x) (idle : x.busy = none) (same : Pz.seq m = x.seq) :
    pzRequest ep m during form least f s =
      (match x.kept with | some r => pzSend ep (pzDup r) (heardNow i s) | none => heardNow i s) := by
  rw [pzRequest_from h, if_neg (not_loading free), if_neg (by simp [idle]), if_pos same]

include free in
theorem pzRequest_gap (h : FromSession s ep m i x) (idle : x.busy = none) (other : Pz.seq m ≠ x.seq)
    (gap : Pz.seq m ≠ (x.seq + 1) % 2 ^ 32) : pzRequest ep m during form least f s =
      pzSend ep (pzMsg s (Pz.type m) i 3 (Pz.seq m) (pzRefusal Cause.pzSeq ((x.seq + 1) % 2 ^ 32)))
        (pzRaise (some i) Cause.pzSeq (some ((x.seq + 1) % 2 ^ 32))
          (modLink (fun l => { l with nSeq := incSat 8 l.nSeq }) (heardNow i s))) := by
  rw [pzRequest_from h, if_neg (not_loading free), if_neg (by simp [idle]), if_neg other, if_pos gap]

include free in
theorem pzRequest_next (h : NextRequest s ep m i x) : pzRequest ep m during form least f s =
    if !pzHeadOk m || !form (Pz.payload m) then answered ep m i (.refuse Cause.pzBad none (takenBy m i s))
    else if x.role.code < least.code then answered ep m i (.refuse Cause.pzNotPermitted none (takenBy m i s))
    else answered ep m i (f i x (Pz.payload m) (takenBy m i s)) := by
  obtain ⟨sent, idle, next, other⟩ := h
  rw [pzRequest_from sent, if_neg (not_loading free), if_neg (by simp [idle]), if_neg other, if_neg (not_not_intro next)]

include free in
theorem pzRequest_bad (h : NextRequest s ep m i x) (bad : pzHeadOk m = false ∨ form (Pz.payload m) = false) :
    pzRequest ep m during form least f s = answered ep m i (.refuse Cause.pzBad none (takenBy m i s)) := by
  rw [pzRequest_next free h, if_pos (by rcases bad with h | h <;> simp [h])]

include free in
theorem pzRequest_notPermitted (h : NextRequest s ep m i x) (head : pzHeadOk m = true) (good : form (Pz.payload m) = true)
    (low : x.role.code < least.code) :
    pzRequest ep m during form least f s = answered ep m i (.refuse Cause.pzNotPermitted none (takenBy m i s)) := by
  rw [pzRequest_next free h, if_neg (by simp [head, good]), if_pos low]

include free in
theorem pzRequest_executed (h : NextRequest s ep m i x) (head : pzHeadOk m = true) (good : form (Pz.payload m) = true)
    (may : least.code ≤ x.role.code) :
    pzRequest ep m during form least f s = answered ep m i (f i x (Pz.payload m) (takenBy m i s)) := by
  rw [pzRequest_next free h, if_neg (by simp [head, good]), if_neg may.not_gt]

end

end

/-! ### The answers -/

theorem pzMsg_of_link {s t : State} (h : t.link = s.link) (type sess flags seq : Nat) (b : List Byte) :
    pzMsg t type sess flags seq b = pzMsg s type sess flags seq b := by
  simp [pzMsg, ropePos, h]

theorem pzRaise_link (i : Option Nat) (c : Nat) (a : Option Nat) (s : State) : (pzRaise i c a s).link = s.link :=
  pzRaise_within (Within.refl [.fab] s) rfl .link (by decide)

/-- A raised event has its source where its crossing has room. -/
theorem raiseSrc_event (p : Producer) (c ch src ak : Nat) (arg : List Byte) (s : State) :
    ∃ e ∈ (raiseSrc p c ch src ak arg s).fab.events, e.cause = c ∧ e.src = src := by
  refine ⟨_, List.mem_append_right _ List.mem_cons_self, ?_⟩
  dsimp only
  split <;> exact ⟨rfl, rfl⟩

theorem pzRaise_event (i : Option Nat) (c : Nat) (a : Option Nat) (s : State) :
    ∃ e ∈ (pzRaise i c a s).fab.events, e.cause = c ∧ e.src = pzSource i := by
  unfold pzRaise
  split
  · exact raiseSrc_event ..
  · exact raiseSrc_event ..

theorem getSess_of_link {s t : State} (h : t.link = s.link) (i : Nat) : t.getSess i = s.getSess i := by simp [State.getSess, h]

theorem answered_ok (ep : Endpoint) (m : List Byte) (i : Nat) (p : List Byte) (s : State) : answered ep m i (.ok p s) =
    pzSend ep (pzMsg s (Pz.type m) i 1 (Pz.seq m) p)
      (modSess i (fun y => { y with kept := some (pzMsg s (Pz.type m) i 1 (Pz.seq m) p), busy := none }) s) := rfl

/-- A refusal before it leaves: raised, and kept by its session. -/
def refusedBy (i c : Nat) (a : Option Nat) (r : List Byte) (s : State) : State :=
  modSess i (fun y => { y with kept := some r, busy := none }) (pzRaise (some i) c a s)

theorem answered_refuse (ep : Endpoint) (m : List Byte) (i c : Nat) (a : Option Nat) (s : State) : answered ep m i (.refuse c a s) =
    pzSend ep (pzMsg s (Pz.type m) i 3 (Pz.seq m) (pzRefusal c (a.getD 0)))
      (refusedBy i c a (pzMsg s (Pz.type m) i 3 (Pz.seq m) (pzRefusal c (a.getD 0))) s) := by
  rw [answered, pzDone, pzAnswer, pzMsg_of_link (pzRaise_link (some i) c a s)]
  rfl

theorem pzSend_of_room {s : State} {ep : Endpoint} {b : List Byte}
    (room : (s.getPort ep.port).full (frameLen (b.length + 46) (ownTag s (pcpCtl s))) = false) :
    (pzSend ep b s).out = s.out ++ [.perzo ep.port 51520 (some ep.mac) ep.ip ep.udp (ownTag s (pcpCtl s)) b] :=
  txFrame_out_of_room room

/-! ### The commands that are requests -/

/-- What is answered while a load is in progress (R371, R373). -/
def duringLoad (type : Nat) : Bool := type == 3 || type == 0x10 || type == 0x61

theorem exec_request {q : Nat × (Endpoint → List Byte → Instr) × (List Byte → Bool) × Role × (Nat → Session → List Byte → State → PzAns)}
    (listed : q ∈ requestTable) (ep : Endpoint) (m : List Byte) (s : State) : exec (q.2.1 ep m) s =
      .next (ofType q.1 m (pzRequest ep m (duringLoad q.1) q.2.2.1 q.2.2.2.1 q.2.2.2.2) s) := by
  simp only [requestTable, List.mem_cons, List.not_mem_nil, or_false] at listed
  rcases listed with rfl | rfl | rfl | rfl | rfl | rfl | rfl | rfl | rfl | rfl | rfl | rfl | rfl <;> rfl

theorem ofType_other {t : Nat} {m : List Byte} (h : Pz.type m ≠ t) (f : State → State) (s : State) : ofType t m f s = s := if_neg h

theorem ofType_same {t : Nat} {m : List Byte} (h : Pz.type m = t) (f : State → State) (s : State) : ofType t m f s = f s := if_pos h

theorem ofType_of_still {t : Nat} {m : List Byte} {f : State → State} {s : State} (still : f s = s) : ofType t m f s = s := by
  unfold ofType
  split
  · exact still
  · rfl

/-- Settles O40: each request by its session's state, and each answer kept and sent. -/
theorem requestsAreExecutedOnce : Obligations.RequestsAreExecutedOnce := by
  refine ⟨fun q listed s ep m => ⟨fun h => ?still, fun type heard broken => ?discarded, fun i x u sent type hu => ⟨fun loads a b c => ?loading,
    fun open_ => ⟨fun busy => ?busy, fun idle same => ?again, fun want hw idle other gap => ?gap, fun next bad => ?bad,
      fun next head good low => ?low, fun next head good may => ?executed⟩⟩⟩,
    fun ep m i x s four stands lengths => ⟨fun p r hr => ?ok, fun c a r hr => ?refuse, ?later⟩,
    fun s ep b tag n ht hn room => ?sent⟩
  case still =>
    rw [exec_request listed]
    refine congrArg Host.Outcome.next ?_
    rcases h with other | deaf
    · exact ofType_other other _ _
    · exact ofType_of_still (pzRequest_unheard deaf)
  case discarded => rw [exec_request listed, ofType_same type, pzRequest_discarded heard broken]; rfl
  case ok => subst hr; exact answered_ok ep m i p s
  case refuse =>
    subst hr
    refine ⟨_, answered_refuse ep m i c a s, ?_, pzRaise_event (some i) c a s,
      modSess_within (pzRaise_within (Within.refl _ _) rfl) rfl⟩
    exact getSess_modSess_self ((getSess_of_link (pzRaise_link _ _ _ _) i).trans stands)
  case later => exact ⟨_, rfl, getSess_modSess_self stands, modSess_within (Within.refl _ _) rfl⟩
  case sent =>
    subst ht hn
    exact ⟨pzSend_of_room room, pzSend_within (Within.refl _ _) rfl⟩
  all_goals subst hu; rw [exec_request listed, ofType_same type]
  case loading => exact congrArg _ (pzRequest_loading sent loads (by simp [duringLoad, a, b, c]))
  all_goals have free : loadRuns s = false ∨ duringLoad q.1 = true := open_.imp_right (by simp [duringLoad, or_assoc])
  case busy => rw [pzRequest_busy free sent busy]; rfl
  case again => rw [pzRequest_again free sent idle same]; rfl
  case gap => subst hw; rw [pzRequest_gap free sent idle other gap]; rfl
  case bad => rw [pzRequest_bad free next bad]
  case low => rw [pzRequest_notPermitted free next head good low]
  case executed => rw [pzRequest_executed free next head good may]

end Sys2Proof.Machine
end

section
/-!
ACCESS operations (R476): each is a request of type 0x60 with its operation number; those that need SERVICE are refused elsewhere.
-/

namespace Sys2Proof.Machine

/-- The form of an operation with n bytes of data. -/
def accessForm (n : Nat) (reserved : List Byte → Bool) (b : List Byte) : Bool :=
  b.length == 4 + n && allZero (slice b 1 3) && reserved (b.drop 4)

/-- What an operation answers, refused where it needs SERVICE and the mode is another. -/
def accessAnswer (service : Bool) (f : Nat → List Byte → State → AccAns) (i : Nat) (_ : Session) (b : List Byte) (t : State) : PzAns :=
  if service && t.mode != .service then .refuse Cause.pzNotPermitted none t else accAns (f i (b.drop 4) t)

theorem accessOp_other {op n : Nat} {reserved : List Byte → Bool} {least : Role} {service : Bool} {f : Nat → List Byte → State → AccAns}
    {ep : Endpoint} {m : List Byte} {s : State} (h : Pz.type m ≠ 0x60 ∨ byteAt (Pz.payload m) 0 ≠ op) :
    accessOp op n reserved least service f ep m s = s := if_pos h

theorem accessOp_same {op n : Nat} {reserved : List Byte → Bool} {least : Role} {service : Bool} {f : Nat → List Byte → State → AccAns}
    {ep : Endpoint} {m : List Byte} {s : State} (type : Pz.type m = 0x60) (same : byteAt (Pz.payload m) 0 = op) :
    accessOp op n reserved least service f ep m s =
      pzRequest ep m false (accessForm n reserved) least (accessAnswer service f) s := if_neg (by simp [type, same])

theorem exec_access {q : Nat × (Endpoint → List Byte → Instr) × Nat × (List Byte → Bool) × Role × Bool × (Nat → List Byte → State → AccAns)}
    (listed : q ∈ accessTable) (ep : Endpoint) (m : List Byte) (s : State) : exec (q.2.1 ep m) s =
      .next (accessOp q.1 q.2.2.1 q.2.2.2.1 q.2.2.2.2.1 q.2.2.2.2.2.1 q.2.2.2.2.2.2 ep m s) := by
  simp only [accessTable, List.mem_cons, List.not_mem_nil, or_false] at listed
  rcases listed with rfl | rfl | rfl | rfl | rfl | rfl | rfl | rfl | rfl <;> rfl

theorem accessAnswer_outside {service : Bool} {f : Nat → List Byte → State → AccAns} {i : Nat} {x : Session} {b : List Byte} {t : State}
    (needs : service = true) (mode : t.mode ≠ .service) : accessAnswer service f i x b t = .refuse Cause.pzNotPermitted none t :=
  if_pos (by simp [needs, mode])

theorem accessAnswer_inside {service : Bool} {f : Nat → List Byte → State → AccAns} {i : Nat} {x : Session} {b : List Byte} {t : State}
    (may : service = true → t.mode = .service) : accessAnswer service f i x b t = accAns (f i (b.drop 4) t) := by
  refine if_neg ?_
  cases service with
  | false => simp
  | true => simp [may rfl]

/-- Settles O45: an ACCESS message is a request like any other, with SERVICE as one more condition. -/
theorem accessOperationsAreCarriedOut : Obligations.AccessOperationsAreCarriedOut := by
  intro q listed s ep m b good hb hgood
  subst hb
  refine ⟨fun h => ?still, fun type op heard broken => ?discarded, fun i x u sent type op hu => ⟨fun loads => ?loading,
    fun free busy => ?busy, fun free idle same => ?again, fun want hw free idle other gap => ?gap, fun next free bad => ?bad,
    fun next free fine h => ?refused, fun next free fine may service => ?executed⟩, fun a => rfl⟩
  case still =>
    rw [exec_access listed]
    refine congrArg Host.Outcome.next ?_
    by_cases here : Pz.type m ≠ 0x60 ∨ byteAt (Pz.payload m) 0 ≠ q.1
    · exact accessOp_other here
    · obtain ⟨type, op⟩ := not_or.mp here
      rw [accessOp_same (not_not.mp type) (not_not.mp op)]
      exact pzRequest_unheard ((h.resolve_left type).resolve_left op)
  case discarded => rw [exec_access listed, accessOp_same type op, pzRequest_discarded heard broken]; rfl
  all_goals subst hu; rw [exec_access listed, accessOp_same type op]
  case loading => exact congrArg _ (pzRequest_loading sent loads rfl)
  case busy => rw [pzRequest_busy (.inl free) sent busy]; rfl
  case again => rw [pzRequest_again (.inl free) sent idle same]; rfl
  case gap => subst hw; rw [pzRequest_gap (.inl free) sent idle other gap, type]; rfl
  case bad =>
    rw [pzRequest_bad (.inl free) next]
    rwa [bad, eq_comm, Bool.and_eq_false_iff] at hgood
  all_goals
    rw [fine, eq_comm, Bool.and_eq_true] at hgood
    obtain ⟨head, form⟩ := hgood
  case refused =>
    by_cases low : x.role.code < q.2.2.2.2.1.code
    · rw [pzRequest_notPermitted (.inl free) next head form low]
    · obtain ⟨needs, mode⟩ := h.resolve_left low
      rw [pzRequest_executed (.inl free) next head form (not_lt.mp low), accessAnswer_outside (t := takenBy m i s) needs mode]
  case executed =>
    rw [pzRequest_executed (.inl free) next head form may, accessAnswer_inside (t := takenBy m i s) service]

end Sys2Proof.Machine
end

section
/-!
HELLO (R283, R284): its steps in their order, and what a session that opens holds.
-/

namespace Sys2Proof.Machine

section
variable {s : State} {ep : Endpoint} {m : List Byte}

/-- Step 2 of R284: the form, then the role. -/
def helloFresh (ep : Endpoint) (m : List Byte) (t : State) : State :=
  if !pzHeadOk m || !helloForm (Pz.payload m) then helloRefuse ep m Cause.pzBad t else helloRole ep m t

theorem helloFresh_eq (t : State) : helloFresh ep m t =
    if pzHeadOk m = true ∧ helloForm (Pz.payload m) = true then helloRole ep m t else helloRefuse ep m Cause.pzBad t := by
  unfold helloFresh
  cases pzHeadOk m <;> cases helloForm (Pz.payload m) <;> rfl

theorem execHello_of_type (type : Pz.type m = 1) : exec (.hello ep m) s = .next (helloAct ep m s) :=
  congrArg Host.Outcome.next (if_pos type)

theorem helloAct_unheard (deaf : pzHeard s ep = false) : helloAct ep m s = s := if_pos (by simp [deaf])

theorem helloAct_discarded (heard : pzHeard s ep = true) (broken : Pz.whole m = false ∨ Pz.sess m ≠ 0xFF) :
    helloAct ep m s = pzDiscard s := by
  refine (if_neg (by simp [heard])).trans (if_pos ?_)
  rcases broken with h | h <;> simp [h]

section
variable (heard : pzHeard s ep = true) (whole : Pz.whole m = true) (open_ : Pz.sess m = 0xFF)

include heard whole open_

theorem helloAct_loading (loads : loadRuns s = true) : helloAct ep m s = s := by
  unfold helloAct
  rw [if_neg (by simp [heard]), if_neg (by simp [whole, open_]), if_pos loads]

theorem helloAct_idle (idle : loadRuns s = false) : helloAct ep m s =
    match sessOf s ep with
    | none => helloFresh ep m s
    | some i =>
      match s.getSess i with
      | none => s
      | some x =>
        if x.seq = Pz.seq m then
          (match x.kept with
           | some r => pzSend ep (pzDup r) (heardNow i s)
           | none => modLink (fun l => { l with nBusy := incSat 8 l.nBusy }) (heardNow i s))
        else helloFresh ep m (closeSession i false s) := by
  unfold helloAct
  rw [if_neg (by simp [heard]), if_neg (by simp [whole, open_]), if_neg (by simp [idle])]
  rfl

theorem helloAct_new (idle : loadRuns s = false) (new : sessOf s ep = none) : helloAct ep m s = helloFresh ep m s := by
  rw [helloAct_idle heard whole open_ idle, new]

theorem helloAct_again (idle : loadRuns s = false) {i : Nat} {x : Session} (sess : sessOf s ep = some i) (stands : s.getSess i = some x)
    (same : x.seq = Pz.seq m) : helloAct ep m s =
      (match x.kept with
        | some r => pzSend ep (pzDup r) (heardNow i s)
        | none => modLink (fun l => { l with nBusy := incSat 8 l.nBusy }) (heardNow i s)) := by
  rw [helloAct_idle heard whole open_ idle]
  simp only [sess, stands, if_pos same]

theorem helloAct_replaced (idle : loadRuns s = false) {i : Nat} {x : Session} (sess : sessOf s ep = some i) (stands : s.getSess i = some x)
    (other : x.seq ≠ Pz.seq m) : helloAct ep m s = helloFresh ep m (closeSession i false s) := by
  rw [helloAct_idle heard whole open_ idle]
  simp only [sess, stands, if_neg other]

end

/-! ### Steps 3 to 5 -/

theorem freeSess_lt {i : Nat} (free : freeSess s = some i) : i < 4 := by
  have mem := List.mem_of_find?_eq_some free
  simpa using mem

theorem helloOpen_none (full : freeSess s = none) : helloOpen ep m s = helloRefuse ep m Cause.pzNoSession s := by simp [helloOpen, full]

theorem helloOpen_free {i : Nat} (free : freeSess s = some i) : helloOpen ep m s = openSession ep i m s := by simp [helloOpen, free]

theorem helloRole_open (h : byteAt (Pz.payload m) 0 ≠ 2 ∨ controllerOf s = none) : helloRole ep m s = helloOpen ep m s := by
  unfold helloRole
  dsimp only
  split
  · rfl
  next controller => rw [h.resolve_left controller]

theorem helloRole_held {j : Nat} {y : Session} (controller : byteAt (Pz.payload m) 0 = 2) (held : controllerOf s = some j)
    (stands : s.getSess j = some y) : helloRole ep m s =
      if byteAt (Pz.payload m) 1 = 1 ∧ (y.hostId == leAt (Pz.payload m) 4 8) = true then helloOpen ep m (closeSession j false s)
      else helloRefuse ep m Cause.pzWriterBusy s := by
  unfold helloRole
  simp only [controller, ne_eq, not_true_eq_false, if_false, held, stands]

theorem getSess_installSession_other {i j : Nat} (other : j ≠ i) : (installSession ep i m s).getSess j = s.getSess j := by
  simp [installSession, ownRing, learnArp, State.getSess, modLink, lset, other.symm]

theorem getSess_modSess_other {i j : Nat} (other : j ≠ i) (f : Session → Session) : (modSess i f s).getSess j = s.getSess j := by
  simp [State.getSess, modSess, modLink, lmod_eq_modify, other.symm]

theorem getRing_installSession_owner {i : Nat} (four : i < 4) : ((installSession ep i m s).getRing (52 + i)).owner = some i :=
  congrArg Ring.owner ((getRing_modRing ..).trans (if_pos ⟨rfl, by omega⟩))

end

theorem length_sess_of_Lengths {s : State} (lengths : Lengths s = true) : s.link.sess.length = 4 := by
  obtain ⟨roles, -⟩ := lengths_iff.mp lengths
  simpa [stored, Machine.roles] using roles

theorem openSession_opens {s : State} (lengths : Lengths s = true) {i : Nat} (four : i < 4) (ep : Endpoint) (m : List Byte) :
    (openSession ep i m s).getSess i = some { askedSession ep m s with
      kept := some (pzMsg (installSession ep i m s) 1 i 1 (Pz.seq m) (helloPayload i s)), busy := none } := by
  rw [openSession_eq]
  exact getSess_pzAnswer (getSess_installSession (length_sess_of_Lengths lengths ▸ four))

theorem openSession_others {s : State} {i j : Nat} (other : j ≠ i) (ep : Endpoint) (m : List Byte) :
    (openSession ep i m s).getSess j = s.getSess j := by
  rw [openSession_eq, pzAnswer, pzSend, sendUdp, getSess_txFrame, getSess_modSess_other other, getSess_installSession_other other]

theorem pzAnswer_frame (ep : Endpoint) (i type seq flags : Nat) (b : List Byte) (s : State) :
    Within [.link, .out] s (pzAnswer ep i type seq flags b s) := pzAnswer_within (Within.refl _ _) rfl

theorem openSession_ring {s : State} {i : Nat} (four : i < 4) (ep : Endpoint) (m : List Byte) :
    ((openSession ep i m s).getRing (52 + i)).owner = some i := by
  have same : (openSession ep i m s).ring = (installSession ep i m s).ring := pzAnswer_frame _ _ _ _ _ _ _ .ring (by decide)
  rw [State.getRing, same]
  exact getRing_installSession_owner four

/-- The session stands and owns its ring; what its path held still stands. -/
def seatSession (ep : Endpoint) (i : Nat) (m : List Byte) (s : State) : State :=
  ownRing (52 + i) i (learnArp (nextHop s ep.ip) ep.mac (modLink (fun l => { l with sess := lset l.sess i (some (askedSession ep m s)) }) s))

theorem seatSession_shadow (ep : Endpoint) (i : Nat) (m : List Byte) (s : State) : (seatSession ep i m s).shadow = s.shadow :=
  ownRing_within (learnArp_within (modLink_within (Within.refl [.link, .ring] s) rfl) rfl) rfl .shadow (by decide)

theorem installSession_eq (ep : Endpoint) (i : Nat) (m : List Byte) (s : State) :
    installSession ep i m s = modShad (sessPath i) (fun _ => {}) (seatSession ep i m s) := rfl

theorem openSession_shad {s : State} (lengths : Lengths s = true) (i : Nat) (ep : Endpoint) (m : List Byte) :
    (openSession ep i m s).shad (sessPath i) = {} := by
  have same : (openSession ep i m s).shadow = (installSession ep i m s).shadow := pzAnswer_frame _ _ _ _ _ _ _ .shadow (by decide)
  have nine : (seatSession ep i m s).shadow.length = 9 := by rw [seatSession_shadow, length_shadow_of_Lengths lengths]
  rw [State.shad, same, installSession_eq]
  exact shad_modShad_of_length nine (sessPath i) fun _ => {}

/-- Settles O41: HELLO step by step. -/
theorem helloIsDecidedInOrder : Obligations.HelloIsDecidedInOrder := by
  refine ⟨fun s ep m h => ?still, fun s ep m type heard => ⟨fun broken => ?discarded, fun whole own loads => ?loading,
    fun whole own idle => ⟨fun i x u sess stands same hu => ?again, fun u h => ?fresh⟩⟩,
    fun s ep m lengths => ⟨fun i h free => ?opens, fun h full => ?full, fun j y controller held stands h => ?busy,
      fun j y controller held stands takes same => ?takes⟩, fun s ep m c => ?refusal⟩
  case still =>
    rcases h with other | deaf
    · exact congrArg _ (if_neg other)
    · refine congrArg Host.Outcome.next ?_
      rw [helloAct_unheard deaf, ite_self]
  case discarded => rw [execHello_of_type type, helloAct_discarded heard broken]; rfl
  case loading => rw [execHello_of_type type, helloAct_loading heard whole own loads]
  case again => subst hu; rw [execHello_of_type type, helloAct_again heard whole own idle sess stands same]; rfl
  case fresh =>
    rw [execHello_of_type type, ← helloFresh_eq]
    rcases h with ⟨new, rfl⟩ | ⟨i, x, sess, stands, other, rfl⟩
    · rw [helloAct_new heard whole own idle new]
    · rw [helloAct_replaced heard whole own idle sess stands other]
  case opens =>
    have four := freeSess_lt free
    rw [helloRole_open h, helloOpen_free free]
    exact ⟨_, rfl, ⟨_, openSession_opens lengths four ep m, rfl, rfl, rfl, rfl, rfl, rfl, rfl, rfl, rfl, rfl, rfl, rfl, rfl⟩,
      fun j other => openSession_others other ep m, openSession_ring four ep m, openSession_shad lengths i ep m,
      openSession_within (Within.refl _ _) rfl⟩
  case full => rw [helloRole_open h, helloOpen_none full]
  case busy =>
    rw [helloRole_held controller held stands, if_neg]
    rintro ⟨takes, same⟩
    exact h.elim (fun h => h takes) (fun h => h (by simpa using same))
  case takes => rw [helloRole_held controller held stands, if_pos ⟨takes, by simpa using same⟩]
  case refusal => exact ⟨_, rfl, pzRaise_event none c none s, pzRaise_within (Within.refl _ _) rfl⟩

end Sys2Proof.Machine
end

section
/-!
The end of a session (R283, R285): BYE, a session that is lost, what closing leaves, and the lapse of an unlock or a nonce.
-/

namespace Sys2Proof.Machine

/-! ### What a closed session leaves -/

/-- The rings of session i are nobody's. -/
def freeRings (i : Nat) (s : State) : State :=
  forEach (upto 64) (modRing · fun r => { r with owner := if r.owner = some i then none else r.owner,
                                                 stream := if r.stream = some i then none else r.stream }) s

/-- Its response ring is emptied. -/
def emptyRing (i : Nat) (s : State) : State :=
  modRing (52 + i) (fun r => { r with recs := [], acked := r.next, sendNext := r.next, owner := none }) s

theorem getRing_freeRings {r : Nat} (h : r < 64) (i : Nat) (s : State) : (freeRings i s).getRing r =
    { s.getRing r with owner := if (s.getRing r).owner = some i then none else (s.getRing r).owner,
                       stream := if (s.getRing r).stream = some i then none else (s.getRing r).stream } :=
  (getRing_forEach _ (nodup_upto 64) r _ s).trans (if_pos ⟨mem_upto h, h⟩)

theorem getRing_emptyRing (i r : Nat) (s : State) : (emptyRing i s).getRing r = if 52 + i = r ∧ r < 64 then
    { s.getRing r with recs := [], acked := (s.getRing r).next, sendNext := (s.getRing r).next, owner := none } else s.getRing r :=
  getRing_modRing ..

theorem getRing_of_ring {s t : State} (h : t.ring = s.ring) (r : Nat) : t.getRing r = s.getRing r := by simp [State.getRing, h]

/-- The update and the entry of the session end with it. -/
def endItsTasks (i : Nat) (mine : Bool) (s t : State) : State :=
  let u := if mine then { t with ldr := { t.ldr with upd := none } } else t
  if s.acc.entering = some i then abandonEnter u else u

/-- The session's place is free. -/
def freeSeat (i : Nat) (s : State) : State := modLink (fun l => { l with sess := lset l.sess i none }) s

theorem dropSession_eq (i : Nat) (s : State) :
    ∃ mine, dropSession i s = endItsTasks i mine s (freeSeat i (emptyRing i (freeRings i s))) := ⟨_, rfl⟩

theorem endItsTasks_within (i : Nat) (mine : Bool) (s t : State) : Within [.tb, .ldr, .acc] t (endItsTasks i mine s t) := by
  have upd : Within [.tb, .ldr, .acc] t (if mine then { t with ldr := { t.ldr with upd := none } } else t) :=
    Within.ite (Within.set_ldr (Within.refl _ _) rfl) (Within.refl _ _)
  exact Within.ite (abandonEnter_within upd rfl) upd

theorem endItsTasks_kept (i : Nat) (mine : Bool) (s t : State) :
    (endItsTasks i mine s t).tb.tc = t.tb.tc ∧ (endItsTasks i mine s t).acc.svcFrom = t.acc.svcFrom := by
  unfold endItsTasks
  cases mine <;> dsimp only <;> split <;> exact ⟨rfl, rfl⟩

theorem freeRings_within (i : Nat) (s : State) : Within [.ring] s (freeRings i s) :=
  Within.forEach (fun _ _ => modRing_within (Within.refl _ _) rfl) (Within.refl _ _)

theorem emptied_within (i : Nat) (s : State) : Within [.ring] s (emptyRing i (freeRings i s)) :=
  modRing_within (freeRings_within i s) rfl

theorem dropSession_ring (i : Nat) (s : State) : (dropSession i s).ring = (emptyRing i (freeRings i s)).ring := by
  obtain ⟨mine, h⟩ := dropSession_eq i s
  rw [h]
  exact endItsTasks_within i mine s _ .ring (by decide)

theorem dropSession_kept (i : Nat) (s : State) : (dropSession i s).tb.tc = s.tb.tc ∧ (dropSession i s).acc.svcFrom = s.acc.svcFrom := by
  obtain ⟨mine, h⟩ := dropSession_eq i s
  obtain ⟨tc, from_⟩ := endItsTasks_kept i mine s (freeSeat i (emptyRing i (freeRings i s)))
  have tb : (emptyRing i (freeRings i s)).tb = s.tb := emptied_within i s .tb (by decide)
  have acc : (emptyRing i (freeRings i s)).acc = s.acc := emptied_within i s .acc (by decide)
  rw [h, tc, from_]
  exact ⟨congrArg Timebase.tc tb, congrArg Acc.svcFrom acc⟩

/-- The session is dropped, and its loss raised. -/
def leaveSeat (i : Nat) (lost : Bool) (s : State) : State :=
  if lost then raiseAt .fabric Cause.pzSessionLost 0xFF (143 + i) i (dropSession i s) else dropSession i s

theorem leaveSeat_within (i : Nat) (lost : Bool) (s : State) : Within [.fab] (dropSession i s) (leaveSeat i lost s) :=
  Within.ite (raiseAt_within (Within.refl _ _) rfl) (Within.refl _ _)

theorem leaveSeat_frame (i : Nat) (lost : Bool) (s : State) : Within [.tb, .link, .ring, .ldr, .acc, .fab] s (leaveSeat i lost s) :=
  (dropSession_within (Within.refl _ _) rfl).andThen (leaveSeat_within i lost s) rfl

theorem leaveSeat_raised (i : Nat) (s : State) : Raised Cause.pzSessionLost (leaveSeat i true s) := raised_raiseSrc ..

theorem closeSession_of_stands {i : Nat} {x : Session} {s : State} (stands : s.getSess i = some x) (lost : Bool) :
    closeSession i lost s = if x.role ≠ .controller then leaveSeat i lost s
      else if s.mode = .service then exitService (leaveSeat i lost s)
      else if lost ∧ s.mode = .run then modLink (fun l => { l with lossAct := some (cfgF s 0x007000 5 2) }) (leaveSeat i lost s)
      else leaveSeat i lost s := by
  unfold closeSession
  rw [stands]
  rfl

/-- What every closing leaves as the session's seat was left. -/
structure Closes (s t : State) : Prop where
  ring : t.ring = s.ring
  tc : t.tb.tc = s.tb.tc
  sump : t.sump = s.sump
  grows : Grows s t
  free : ∀ i, s.getSess i = none → t.getSess i = none

theorem Closes.refl (s : State) : Closes s s := ⟨rfl, rfl, rfl, .refl s, fun _ => id⟩

theorem exitService_frame (s : State) : Within [.mode, .ph, .gal, .fe, .ch, .link, .saf, .acc, .fab] s (exitService s) :=
  exitService_within (Within.refl _ _) rfl

/-- SERVICE is left, its unlocks not yet ended. -/
def leftService (s : State) : State :=
  leaveService (goMode (s.acc.svcFrom.getD .run) (abortAll (modAcc (fun a => { a with svcFrom := none }) s)))

/-- Every unlock ends. -/
def endUnlocks (s : State) : State :=
  modLink (fun l => { l with sess := l.sess.map fun x => x.map fun y => { y with unlockTk := none, byHmac := false } }) s

theorem exitService_eq (s : State) : exitService s = raise .fabric Cause.accServiceExit 0xFF (updateSens (endUnlocks (leftService s))) := rfl

theorem leftService_mode (s : State) : (leftService s).mode = s.acc.svcFrom.getD .run := goMode_mode ..

theorem leftService_link (s : State) : (leftService s).link = s.link :=
  leaveService_within (goMode_within (abortAll_within (modAcc_within (Within.refl [.acc, .fe, .mode, .ch, .saf, .fab] s) rfl) rfl) rfl) rfl
    .link (by decide)

theorem exitService_mode (s : State) : (exitService s).mode = s.acc.svcFrom.getD .run := by
  rw [exitService_eq]
  exact (raise_mode ..).trans ((updateSens_mode _).trans (leftService_mode s))

theorem exitService_link (s : State) : (exitService s).link =
    { s.link with sess := s.link.sess.map fun x => x.map fun y => { y with unlockTk := none, byHmac := false } } := by
  have outputs : (updateSens (endUnlocks (leftService s))).link = (endUnlocks (leftService s)).link :=
    updateSens_within (Within.refl [.ph, .gal, .ch] _) rfl .link (by decide)
  rw [exitService_eq]
  refine (raise_link ..).trans (outputs.trans ?_)
  rw [endUnlocks, modLink, leftService_link]

theorem exitService_closes (s : State) : Closes s (exitService s) := by
  have w := exitService_frame s
  refine ⟨w .ring (by decide), congrArg Timebase.tc (w .tb (by decide)), w .sump (by decide), exitService_grows (.refl s), fun i none_there => ?_⟩
  have there : s.link.sess[i]? = none ∨ s.link.sess[i]? = some none := by
    rw [State.getSess, List.getD_eq_getElem?_getD] at none_there
    cases h : s.link.sess[i]? with
    | none => exact .inl rfl
    | some x => rw [h] at none_there; exact .inr (congrArg some none_there)
  rw [State.getSess, exitService_link, List.getD_eq_getElem?_getD]
  rcases there with h | h <;> simp [h]

theorem closeSession_closes {i : Nat} {x : Session} {s : State} (stands : s.getSess i = some x) (lost : Bool) :
    Closes (leaveSeat i lost s) (closeSession i lost s) := by
  rw [closeSession_of_stands stands]
  split
  · exact .refl _
  split
  · exact exitService_closes _
  split
  · exact ⟨rfl, rfl, rfl, .update (.refl _) rfl, fun _ => id⟩
  · exact .refl _

theorem leaveSeat_link (i : Nat) (lost : Bool) (s : State) : (leaveSeat i lost s).link = { s.link with sess := lset s.link.sess i none } :=
  (leaveSeat_within i lost s .link (by decide)).trans (link_dropSession i s)

theorem leaveSeat_free (i : Nat) (lost : Bool) (s : State) : (leaveSeat i lost s).getSess i = none := by
  rw [State.getSess, leaveSeat_link, List.getD_eq_getElem?_getD, lset, List.getElem?_set]
  simp only [if_true]
  split <;> rfl

theorem leaveSeat_ring (i : Nat) (lost : Bool) (s : State) : (leaveSeat i lost s).ring = (emptyRing i (freeRings i s)).ring :=
  (leaveSeat_within i lost s .ring (by decide)).trans (dropSession_ring i s)

theorem leaveSeat_tc (i : Nat) (lost : Bool) (s : State) : (leaveSeat i lost s).tb.tc = s.tb.tc :=
  (congrArg Timebase.tc (leaveSeat_within i lost s .tb (by decide))).trans (dropSession_kept i s).1

theorem leaveSeat_svcFrom (i : Nat) (lost : Bool) (s : State) : (leaveSeat i lost s).acc.svcFrom = s.acc.svcFrom :=
  (congrArg Acc.svcFrom (leaveSeat_within i lost s .acc (by decide))).trans (dropSession_kept i s).2

/-! ### The rings after closing -/

theorem emptied_freed {r : Nat} (h : r < 64) (i : Nat) (s : State) :
    ((emptyRing i (freeRings i s)).getRing r).owner ≠ some i ∧ ((emptyRing i (freeRings i s)).getRing r).stream ≠ some i := by
  have freed (o : Option Nat) : (if o = some i then none else o) ≠ some i := by
    split
    · exact (Option.some_ne_none i).symm
    · assumption
  rw [getRing_emptyRing, getRing_freeRings h]
  split
  · exact ⟨(Option.some_ne_none i).symm, freed _⟩
  · exact ⟨freed _, freed _⟩

theorem emptied_others {r : Nat} (h : r < 64) {i : Nat} (other : r ≠ 52 + i) (s : State) :
    ((emptyRing i (freeRings i s)).getRing r).recs = (s.getRing r).recs ∧
      ((emptyRing i (freeRings i s)).getRing r).next = (s.getRing r).next := by
  rw [getRing_emptyRing, if_neg fun k => other k.1.symm, getRing_freeRings h]
  exact ⟨rfl, rfl⟩

theorem emptied_own {i : Nat} (four : i < 4) (s : State) : ((emptyRing i (freeRings i s)).getRing (52 + i)).recs = [] := by
  rw [getRing_emptyRing, if_pos ⟨rfl, by omega⟩]

/-! ### BYE -/

/-- The request that a BYE is, before its session closes. -/
def byeRequest (ep : Endpoint) (m : List Byte) (s : State) : State := pzRequest ep m false emptyForm .observer (fun _ _ _ u => .ok [] u) s

theorem byeAct_nobody {s : State} {ep : Endpoint} {m : List Byte} (nobody : sessOf s ep = none) : byeAct ep m s = byeRequest ep m s := by
  simp only [byeAct, nobody]
  rfl

/-- A BYE that is not executed closes nothing. -/
theorem byeAct_stays {s : State} {ep : Endpoint} {m : List Byte} {i : Nat} {x y : Session} (sess : sessOf s ep = some i)
    (stands : s.getSess i = some x) (after : (byeRequest ep m s).getSess i = some y)
    (h : y.seq = x.seq ∨ emptyForm (Pz.payload m) = false ∨ pzHeadOk m = false) : byeAct ep m s = byeRequest ep m s := by
  have after' : (pzRequest ep m false emptyForm .observer (fun _ _ _ u => .ok [] u) s).getSess i = some y := after
  simp only [byeAct, sess, stands, after']
  refine if_neg ?_
  rintro ⟨moved, form, head⟩
  rcases h with h | h | h
  · exact moved h
  · rw [form] at h; cases h
  · rw [head] at h; cases h

theorem byeAct_closes {s : State} {ep : Endpoint} {m : List Byte} {i : Nat} {x y : Session} (sess : sessOf s ep = some i)
    (stands : s.getSess i = some x) (after : (byeRequest ep m s).getSess i = some y) (moved : y.seq ≠ x.seq)
    (form : emptyForm (Pz.payload m) = true) (head : pzHeadOk m = true) : byeAct ep m s = closeSession i false (byeRequest ep m s) := by
  have after' : (pzRequest ep m false emptyForm .observer (fun _ _ _ u => .ok [] u) s).getSess i = some y := after
  simp only [byeAct, sess, stands, after']
  exact if_pos ⟨moved, form, head⟩

/-- A BYE that changes nothing closes nothing. -/
theorem byeAct_still {s : State} {ep : Endpoint} {m : List Byte} (still : byeRequest ep m s = s) : byeAct ep m s = s := by
  cases sess : sessOf s ep with
  | none => rw [byeAct_nobody sess, still]
  | some i =>
    cases stands : s.getSess i with
    | none => simp only [byeAct, sess, stands]; exact still
    | some x => rw [byeAct_stays sess stands ((congrArg (·.getSess i) still).trans stands) (.inl rfl), still]

theorem execBye_of_type {s : State} {ep : Endpoint} {m : List Byte} (type : Pz.type m = 2) : exec (.bye ep m) s = .next (byeAct ep m s) :=
  congrArg Host.Outcome.next (ofType_same type _ _)

theorem getSess_heardNow {i : Nat} {s : State} {x : Session} (stands : s.getSess i = some x) :
    (heardNow i s).getSess i = some { x with lastTk := s.tb.run } := getSess_modSess_self stands

theorem getSess_pzSend (ep : Endpoint) (b : List Byte) (s : State) (i : Nat) : (pzSend ep b s).getSess i = s.getSess i := getSess_txFrame ..

theorem getSess_takenBy {i : Nat} {m : List Byte} {s : State} {x : Session} (stands : s.getSess i = some x) :
    (takenBy m i s).getSess i = some { x with lastTk := s.tb.run, seq := Pz.seq m } :=
  getSess_modSess_self (getSess_heardNow stands)

theorem getSess_refused {i c : Nat} {ep : Endpoint} {m : List Byte} {s : State} {x : Session} (stands : s.getSess i = some x) :
    ∃ y, (answered ep m i (.refuse c none s)).getSess i = some y ∧ y.seq = x.seq := by
  rw [answered_refuse, getSess_pzSend]
  exact ⟨_, getSess_modSess_self ((getSess_of_link (pzRaise_link _ _ _ _) i).trans stands), rfl⟩

theorem floor_lapsed {s : State} {i : Fin 4} {x : Session} (stands : s.getSess i = some x) : exec (.pzSessionLost i) s =
    .next (if s.mode.up && decide (floorTk (3 * x.hbMs) ≤ since s x.lastTk) then closeSession i true s else s) := by
  simp only [exec, execPzSessionLost, stands]

/-- Settles O42: BYE as a request that closes, what a closed session leaves, and the lapses. -/
theorem sessionsEnd : Obligations.SessionsEnd := by
  refine ⟨fun s ep m i x next idle type head empty four lengths => ?closes, fun s ep m i x next idle type bad => ?bad, fun s ep m h => ?still,
    fun s ep m type heard broken => ?discarded, fun s ep m i x u sent type four lengths hu => ?request,
    fun s i x up stands silent => ?lost, fun s i h => ?kept, fun s i x lost lengths stands => ?left,
    fun s i x tk stands unlocked mode entering old => ?lapse, fun s i h => ?unlocked, fun s i x n tk stands nonce => ?nonce,
    fun s i none_held => ?noNonce⟩
  case closes =>
    obtain ⟨⟨heard, sess, stands, whole, own⟩, -, -, moved⟩ := id next
    have form : emptyForm (Pz.payload m) = true := by simp [emptyForm, empty]
    have request : byeRequest ep m s = answered ep m i (.ok [] (takenBy m i s)) := by
      rw [byeRequest, pzRequest_executed (.inl idle) next head form (Nat.zero_le _)]
    have after : (byeRequest ep m s).getSess i = some _ := (congrArg (·.getSess i) request).trans (getSess_pzAnswer (getSess_takenBy stands))
    rw [execBye_of_type type, byeAct_closes sess stands after moved form head, request]
  case bad =>
    obtain ⟨⟨heard, sess, stands, whole, own⟩, -, -, moved⟩ := id next
    have wrong : pzHeadOk m = false ∨ emptyForm (Pz.payload m) = false := bad.imp_right (by simp [emptyForm])
    have request : byeRequest ep m s = answered ep m i (.refuse Cause.pzBad none (takenBy m i s)) := by
      rw [byeRequest, pzRequest_bad (.inl idle) next wrong]
    obtain ⟨y, after, -⟩ := getSess_refused (ep := ep) (m := m) (c := Cause.pzBad) (getSess_takenBy (m := m) stands)
    rw [← request] at after
    rw [execBye_of_type type, byeAct_stays sess stands after (.inr wrong.symm), request]
  case still =>
    rcases h with other | deaf
    · exact congrArg _ (ofType_other other _ _)
    · exact congrArg Host.Outcome.next (ofType_of_still (byeAct_still (pzRequest_unheard deaf)))
  case discarded =>
    have request : byeRequest ep m s = pzDiscard s := pzRequest_discarded heard broken
    rw [execBye_of_type type]
    rcases broken with nobody | ⟨i, x, sess, stands, -⟩
    · rw [byeAct_nobody nobody, request]; rfl
    · have after : (byeRequest ep m s).getSess i = some x := (congrArg (·.getSess i) request).trans stands
      rw [byeAct_stays sess stands after (.inl rfl), request]; rfl
  case request =>
    subst hu
    obtain ⟨heard, sess, stands, whole, own⟩ := id sent
    have noted := getSess_heardNow stands
    rw [execBye_of_type type]
    refine ⟨fun loads => ?_, fun idle free same => ?_, fun idle busy => ?_, fun want hw idle free other gap => ?_⟩
    · have request : byeRequest ep m s = heardNow i s := pzRequest_loading sent loads rfl
      have after : (byeRequest ep m s).getSess i = some { x with lastTk := s.tb.run } := (congrArg (·.getSess i) request).trans noted
      rw [byeAct_stays sess stands after (.inl rfl), request]; rfl
    · have request : byeRequest ep m s = _ := pzRequest_again (.inl idle) sent free same
      have after : (byeRequest ep m s).getSess i = some { x with lastTk := s.tb.run } := by
        rw [request]
        split
        · exact (getSess_pzSend ..).trans noted
        · exact noted
      rw [byeAct_stays sess stands after (.inl rfl), request]; rfl
    · have request : byeRequest ep m s = _ := pzRequest_busy (.inl idle) sent busy
      have after : (byeRequest ep m s).getSess i = some { x with lastTk := s.tb.run } := (congrArg (·.getSess i) request).trans noted
      rw [byeAct_stays sess stands after (.inl rfl), request]; rfl
    · subst hw
      have request : byeRequest ep m s = _ := pzRequest_gap (.inl idle) sent free other gap
      have after : (byeRequest ep m s).getSess i = some { x with lastTk := s.tb.run } := by
        rw [request, getSess_pzSend, getSess_of_link (pzRaise_link _ _ _ _)]
        exact noted
      rw [byeAct_stays sess stands after (.inl rfl), request, type]; rfl
  case lost =>
    rw [floor_lapsed stands, if_pos (by simp [up, silent])]
  case kept =>
    cases stands : s.getSess i with
    | none => simp only [exec, execPzSessionLost, stands]
    | some x =>
      rw [floor_lapsed stands, if_neg]
      rcases h with off | h
      · simp [off]
      · simp [(h x stands).not_ge]
  case left =>
    have closes := closeSession_closes stands lost
    have eq := closeSession_of_stands stands lost
    have rings (r : Nat) := getRing_of_ring (closes.ring.trans (leaveSeat_ring i lost s)) r
    refine ⟨_, rfl, closes.free i (leaveSeat_free i lost s), fun r hr => ?_, fun r hr other => ?_, ?_, fun h => ?_, fun h controller run => ?_,
      fun controller service => ?_, fun other => ?_, closes.tc.trans (leaveSeat_tc i lost s), ?_⟩
    · rw [rings]; exact emptied_freed hr i s
    · rw [rings]; exact emptied_others hr other s
    · rw [rings]; exact emptied_own i.isLt s
    · subst h; exact (leaveSeat_raised i s).grows closes.grows
    · rw [eq, if_neg (not_not_intro controller), if_neg (by rw [run]; decide), if_pos ⟨h, run⟩]; rfl
    · rw [eq, if_neg (not_not_intro controller), if_pos service, exitService_mode, leaveSeat_svcFrom]
    · rw [eq, if_pos other, leaveSeat_link]
      exact ⟨leaveSeat_frame i lost s .mode (by decide), rfl⟩
    · rw [closes.sump]; exact congrArg Sump.told (leaveSeat_frame i lost s .sump (by decide))
  case lapse =>
    simp only [exec, execUnlockLapse, stands, unlocked]
    exact if_pos (by simp [mode, entering, old])
  case unlocked =>
    cases stands : s.getSess i with
    | none => simp only [exec, execUnlockLapse, stands]
    | some x =>
      cases held : x.unlockTk with
      | none => simp only [exec, execUnlockLapse, stands, held]
      | some tk =>
        simp only [exec, execUnlockLapse, stands, held]
        refine if_neg ?_
        rcases h with h | h | h
        · simp [h]
        · simp [h]
        · simp [(h x tk stands held).not_ge]
  case nonce => simp only [exec, execNonceLapse, stands, nonce]
  case noNonce =>
    cases stands : s.getSess i with
    | none => simp only [exec, execNonceLapse, stands]
    | some x => simp only [exec, execNonceLapse, stands, none_held x stands]

end Sys2Proof.Machine
end

section
/-!
Watchdog slots that expire (R425 to R429), their configuration, internal slots (R431) and unit resets (R498).
-/

namespace Sys2Proof.Machine

/-! ### A strike -/

theorem bitN_setBitN (x i : Nat) : bitN (setBitN x i true) i = true := by
  simp [bitN, setBitN, Nat.one_shiftLeft]

/-- A slot strikes: its count restarts and its bit is set. -/
def struck (i : Nat) (s : State) : State :=
  modSlot i (fun x => { x with count := 0 }) (modWdt (fun w => { w with exp := setBitN w.exp i true }) s)

theorem wdtStrike_eq (i cause : Nat) (s : State) : wdtStrike i cause s = wdtAct i (raiseA .watchdog cause 0xFF i (struck i s)) := rfl

theorem slot_modSlot_other {i j : Nat} (other : j ≠ i) (f : WdtSlot → WdtSlot) (s : State) : (modSlot i f s).slot j = s.slot j := by
  simp [modSlot, modWdt, State.slot, lmod_eq_modify, other.symm]

theorem struck_within (i : Nat) (s : State) : Within [.wdt] s (struck i s) :=
  modSlot_within (modWdt_within (Within.refl _ _) rfl) rfl

/-- A strike raised, before its actions. -/
def strikeRaised (i cause : Nat) (s : State) : State := raiseA .watchdog cause 0xFF i (struck i s)

/-- Without a reset of the host a strike's action is that of its channels. -/
theorem wdtStrike_of_no_reset {i : Nat} {s : State} (no_reset : wdtHostRst s i = false) (cause : Nat) : wdtStrike i cause s =
    if s.mode = .run then modWdt (fun w => { w with act := max w.act (wdtChact s i % 3) }) (strikeRaised i cause s)
    else strikeRaised i cause s := by
  have same : wdtHostRst (strikeRaised i cause s) i = false := no_reset
  rw [wdtStrike_eq, ← strikeRaised, wdtAct]
  simp only [same, Bool.false_eq_true, if_false]
  rfl

theorem wdtAct_exp (i : Nat) (s : State) : (wdtAct i s).wdt.exp = s.wdt.exp := by
  unfold wdtAct
  split <;> split <;> rfl

/-! ### The configuration of a slot -/

theorem writeWdtCfg_internal {i : Nat} (internal : 16 ≤ i) (v : Word) (s : State) : writeWdtCfg i v s = s := if_pos internal

theorem writeWdtCfg_locked {i : Nat} {s : State} (host : i < 16) (locked : wdtLocked s i = true) (v : Word) :
    writeWdtCfg i v s = raise .fabric Cause.wdtLocked 0xFF s := (if_neg (by omega)).trans (if_pos locked)

/-- What an enable does to its slot: the count restarts, and from disabled also the token. -/
def enabledSlot (was : Bool) (i : Nat) (x : WdtSlot) : WdtSlot :=
  if was then { x with count := 0 } else { x with count := 0, token := 0x5A00 + i, used := none }

theorem writeWdtCfg_open {i : Nat} {s : State} (host : i < 16) (unlocked : wdtLocked s i = false) (v : Word) : writeWdtCfg i v s =
    if v.toNat.testBit 30 then modSlot i (enabledSlot (wdtEn s i) i) (setCfg (Addr.wdtCfg i) (v &&& 0xC03FFFFF) s)
    else setCfg (Addr.wdtCfg i) (v &&& 0xC03FFFFF) s :=
  (if_neg (by omega)).trans (if_neg (by simp [unlocked]))

theorem execWdtCfgWrite_eq (p : Path) (i : Fin 24) (v : Word) (s : State) :
    exec (.wdtCfgWrite p i v) s = .next (regGate (Addr.wdtCfg i) (writeWdtCfg i v) s) := rfl

theorem writeWdtCfg_regs {i : Nat} {s : State} (host : i < 16) (unlocked : wdtLocked s i = false) (v : Word) :
    (writeWdtCfg i v s).regs = (setCfg (Addr.wdtCfg i) (v &&& 0xC03FFFFF) s).regs := by
  rw [writeWdtCfg_open host unlocked]
  split <;> rfl

/-! ### Units -/

theorem flushUnit_engine (s : State) {k : Nat} (h : k < 128) : ((flushUnit 21 s).getCh k).eng = none := by
  have loop : ((forEach (upto 128) (modCh · fun c => { c with eng := none }) s).getCh k).eng = none := by
    rw [getCh_forEach _ (nodup_upto 128), if_pos ⟨mem_upto h, h⟩]
  have galleries : (flushUnit 21 s).ch = (forEach (upto 128) (modCh · fun c => { c with eng := none }) s).ch :=
    Within.forEach (l := [.gal]) (fun _ _ => modGal_within (Within.refl _ _) rfl) (Within.refl _ _) .ch (by decide)
  rw [getCh_of_ch galleries, loop]

theorem flushUnit_store (s : State) : (flushUnit 23 s).nvm.job = none := by
  change (nvmTear s).nvm.job = none
  unfold nvmTear
  split <;> rfl

/-- The unit in reset rejoins, before it is raised. -/
def unitBack (i : Nat) (s : State) : State :=
  nvmNext { s with fab := { s.fab with nReset := incSat 8 s.fab.nReset, resetting := delN (16 + i) s.fab.resetting } }

theorem execFabUnitReset_up {s : State} (up : s.mode.up = true) (i : Fin 8) :
    exec (.fabUnitReset i) s = .next (raiseA .fabric Cause.fabUnitReset 0xFF (16 + i.val) (unitBack i s)) := if_pos up

theorem unitBack_fab (i : Nat) (s : State) :
    (unitBack i s).fab = { s.fab with nReset := incSat 8 s.fab.nReset, resetting := delN (16 + i) s.fab.resetting } :=
  nvmNext_within (Within.refl [.nvm] _) rfl .fab (by decide)

theorem unitBack_mode (i : Nat) (s : State) : (unitBack i s).mode = s.mode := nvmNext_within (Within.refl [.nvm] _) rfl .mode (by decide)

/-- An event of the fabric is never left out of its crossing, nor its argument. -/
theorem raiseSrc_fabric (c ch src ak : Nat) (arg : List Byte) (s : State) : ∃ e ∈ (raiseSrc .fabric c ch src ak arg s).fab.events,
    e.cause = c ∧ e.arg = arg ∧ e.ch = ch ∧ e.src = src :=
  ⟨_, List.mem_append_right _ List.mem_cons_self, rfl, rfl, rfl, rfl⟩

/-- Settles O51: a slot that expires strikes, a configuration word takes effect unless it is locked, and a unit's reset ends. -/
theorem watchdogsExpireAndUnitsReset : Obligations.WatchdogsExpireAndUnitsReset := by
  refine ⟨fun s i => ?expired, fun s i cause bound no_reset lengths => ?strikes, fun s p i v up idle host locked => ?locked,
    fun s p i v wf up idle host unlocked => ?takes, fun s p i v h => ?ignored, fun s p i v up busy => ?busy, fun s running up => ?lost,
    fun s h => ?same, fun s i tks u internal up ht hu => ?internal, fun s i h => if_pos h,
    fun s => ⟨rfl, flushUnit_store s, fun k h => flushUnit_engine s h⟩, fun s i off => if_neg (by simp [off]), fun s i up => ?rejoins⟩
  case expired => exact (apply_ite Host.Outcome.next _ _ _).symm
  case strikes =>
    have stands : i < s.wdt.slots.length := length_slots_of_Lengths lengths ▸ bound
    have raised : Raised cause (raiseA .watchdog cause 0xFF i (struck i s)) := raised_raiseSrc ..
    have others : ∀ j, j ≠ i → (raiseA .watchdog cause 0xFF i (struck i s)).slot j = s.slot j := fun j other => slot_modSlot_other other _ _
    have frame : Within [.wdt, .fab] s (raiseA .watchdog cause 0xFF i (struck i s)) :=
      raiseA_within ((struck_within i s).mono rfl) rfl
    refine ⟨_, rfl, ?_, ?_, ?_, fun run => ?_, fun other => ?_, fun j other => ?_, ?_⟩
    · rw [slot_wdtStrike_self stands]
    · rw [wdtStrike_eq, wdtAct_exp]; exact bitN_setBitN _ _
    all_goals rw [wdtStrike_of_no_reset no_reset]
    · split
      · exact raised
      · exact raised
    · rw [if_pos run]; rfl
    · rw [if_neg other]; rfl
    · split
      · exact others j other
      · exact others j other
    · exact Within.ite (modWdt_within frame rfl) frame
  case locked => rw [execWdtCfgWrite_eq, regGate_of_path up idle, writeWdtCfg_locked host locked]
  case takes =>
    have regs := writeWdtCfg_regs host unlocked v
    refine ⟨writeWdtCfg i v s, by rw [execWdtCfgWrite_eq, regGate_of_path up idle], ?_, fun a other => ?_, fun enables lengths => ?_, ?_⟩
    · rw [cfgW_of_regs regs, cfgW_setCfg wf, if_pos rfl]
    · rw [cfgW_of_regs regs, cfgW_setCfg wf, if_neg other]
    · have stands : i.val < s.wdt.slots.length := by rw [length_slots_of_Lengths lengths]; exact i.isLt
      rw [writeWdtCfg_open host unlocked, if_pos enables, slot_modSlot_self (s := setCfg _ _ s) stands]
      refine ⟨?_, fun was => ?_⟩
      · unfold enabledSlot; split <;> rfl
      · rw [was]; exact ⟨rfl, rfl⟩
    · rw [writeWdtCfg_open host unlocked]
      have stored : Within [.wdt, .regs] s (setCfg (Addr.wdtCfg i) (v &&& 0xC03FFFFF) s) := setCfg_within (Within.refl _ _) rfl
      exact Within.ite (modSlot_within stored rfl) stored
  case ignored =>
    rw [execWdtCfgWrite_eq]
    rcases h with off | ⟨idle, internal⟩
    · rw [regGate_of_no_path off]
    · cases up : s.mode.up with
      | false => rw [regGate_of_no_path up]
      | true => rw [regGate_of_path up idle, writeWdtCfg_internal internal]
  case busy => rw [execWdtCfgWrite_eq, regGate_of_busy up busy]
  case lost => exact ⟨_, if_neg (by simp [running, up]), rfl, rfl, raised_raise .., raise_within (modWdt_within (Within.refl _ _) rfl) rfl⟩
  case same => exact if_pos (by rcases h with h | h <;> simp [h])
  case internal =>
    subst hu ht
    exact (if_neg (by simp [up]; omega)).trans rfl
  case rejoins =>
    obtain ⟨e, there, cause, arg, -, -⟩ := raiseSrc_fabric Cause.fabUnitReset 0xFF (eventSource Cause.fabUnitReset 0xFF) 2
      (leBytes 4 (16 + i.val)) (unitBack i s)
    exact ⟨_, e, execFabUnitReset_up up i, congrArg Fabric.nReset (unitBack_fab i s), congrArg Fabric.resetting (unitBack_fab i s), there, cause,
      arg, unitBack_mode i s⟩

end Sys2Proof.Machine
end

section
/-!
Fuse programming (R481 to R483) and stage operation in SERVICE (R484).
-/

namespace Sys2Proof.Machine

/-! ### The decision of a command -/

section
variable {s : State} {v : Word}

theorem fuseCmd_refused (h : field v 24 8 ≠ 0x46 ∨ s.mode ≠ .service ∨ s.nvm.lock = true ∨ s.acc.job ≠ none) :
    fuseCmd v s = raise .fabric Cause.accRefused 0xFF s := if_pos (by simpa [Option.isSome_iff_ne_none] using h)

/-- What a command that may act comes to. -/
theorem fuseCmd_open (service : s.mode = .service) (key : field v 24 8 = 0x46) (unlocked : s.nvm.lock = false) (idle : s.acc.job = none) :
    fuseCmd v s =
      if v.toNat.testBit 8 then
        if field v 0 6 ≠ 20 ∧ field v 0 6 ≠ 29 then raise .fabric Cause.accRefused 0xFF s
        else if fuseBlockSet s (field v 0 6) then raise .fabric Cause.accFuseUsed 0xFF s
        else { s with acc := { s.acc with job := some (.block (field v 0 6) s.acc.fbuf), jobTk := s.tb.run } }
      else if fuseW s (field v 0 6) ≠ 0 then raise .fabric Cause.accFuseUsed 0xFF s
      else if field v 0 6 < 16 ∨ (20 ≤ field v 0 6 ∧ field v 0 6 < 38) then raise .fabric Cause.accRefused 0xFF s
      else if field v 0 6 = 18 ∧ authUnbacked s (cfgF s 0x00C090 0 2) = true then raise .fabric Cause.accRefused 0xFF s
      else { s with acc := { s.acc with job := some (.word (field v 0 6) (fuseFieldWord (cfgN s 0x00C090))), jobTk := s.tb.run } } :=
  if_neg (by simp [service, key, unlocked, idle])

theorem execFuseProgramWord_word (word : v.toNat.testBit 8 = false) (p : Path) :
    exec (.fuseProgramWord p v) s = .next (regGate 0x00C08C (fuseCmd v) s) := congrArg Host.Outcome.next (if_pos (by simp [word]))

theorem execFuseProgramBlock_block (block : v.toNat.testBit 8 = true) (p : Path) :
    exec (.fuseProgramBlock p v) s = .next (regGate 0x00C08C (fuseCmd v) s) := congrArg Host.Outcome.next (if_pos block)

end

/-! ### The map after a programming -/

/-- Words put one after another from a place. -/
theorem getD_foldl_lset (w : Nat) (v : Nat → Word) (l : List Nat) (f : List Word) (inside : ∀ i ∈ l, w + i < f.length) (j : Nat) :
    (l.foldl (fun f i => lset f (w + i) (v i)) f).getD j 0 = if w ≤ j ∧ j - w ∈ l then v (j - w) else f.getD j 0 := by
  induction l generalizing f with
  | nil => simp
  | cons a l ih =>
    have here := inside a List.mem_cons_self
    rw [List.foldl_cons, ih (lset f (w + a) (v a)) fun i mem => by
      rw [lset, List.length_set]; exact inside i (List.mem_cons_of_mem _ mem)]
    by_cases later : w ≤ j ∧ j - w ∈ l
    · rw [if_pos later, if_pos ⟨later.1, List.mem_cons_of_mem _ later.2⟩]
    · rw [if_neg later]
      by_cases now : w + a = j
      · subst now
        rw [if_pos ⟨by omega, by simp⟩]
        simp [lset, here]
      · rw [if_neg]
        · simp [lset, now]
        · rintro ⟨low, mem⟩
          rcases List.mem_cons.mp mem with h | h
          · exact now (by omega)
          · exact later ⟨low, h⟩

theorem length_fuse_of_Lengths {s : State} (lengths : Lengths s = true) : s.acc.fuse.length = 64 := by
  obtain ⟨-, -, -, fuse, -⟩ := lengths_iff.mp lengths
  simpa [stored] using fuse

/-- A block's word, its check word and any other word once it is programmed. -/
theorem getD_fuseMade_block {s : State} (lengths : Lengths s = true) {w : Nat} (fits : w + 8 < 64) (l : List Word) (j : Nat) :
    (fuseMade s (.block w l)).getD j 0 =
      if j = w + 8 then wordN (crc32 ((upto 8).flatMap fun i => leBytes 4 (l.getD i 0).toNat))
      else if w ≤ j ∧ j < w + 8 then l.getD (j - w) 0 else s.acc.fuse.getD j 0 := by
  have len := length_fuse_of_Lengths lengths
  have words := getD_foldl_lset w (fun i => l.getD i 0) (upto 8) s.acc.fuse (fun i mem => by
    have := mem_upto_iff.mp mem; omega) j
  have total : ((upto 8).foldl (fun f i => lset f (w + i) (l.getD i 0)) s.acc.fuse).length = 64 := by
    have := length_fuseMade s (.block w l)
    rw [fuseMade, lset, List.length_set, len] at this
    exact this
  rw [fuseMade, lset, List.getD_eq_getElem?_getD, List.getElem?_set, total]
  by_cases check : w + 8 = j
  · rw [if_pos check, if_pos (by omega), if_pos check.symm, Option.getD_some]
  · rw [if_neg check, if_neg fun h => check h.symm, ← List.getD_eq_getElem?_getD, words]
    refine if_congr ?_ rfl rfl
    rw [mem_upto_iff]
    omega

theorem fuseMade_word {s : State} (lengths : Lengths s = true) {w : Nat} (fits : w < 64) (v : Word) (j : Nat) :
    (fuseMade s (.word w v)).getD j 0 = if w = j then v else s.acc.fuse.getD j 0 := by
  have inside : w < s.acc.fuse.length := length_fuse_of_Lengths lengths ▸ fits
  rw [fuseMade, lset, List.getD_eq_getElem?_getD, List.getElem?_set]
  by_cases here : w = j
  · rw [if_pos here, if_pos here, if_pos inside, Option.getD_some]
  · rw [if_neg here, if_neg here, List.getD_eq_getElem?_getD]

theorem crc32_lt (l : List Byte) : crc32 l < 2 ^ 32 := crcRefl_lt (by decide) l

/-- A block that holds its words and their check word passes the fuse check (R482). -/
theorem fuseBlockOk_of_check {t : State} {w : Nat} {l : List Word} (words : ∀ i, i < 8 → fuseW t (w + i) = (l.getD i 0).toNat)
    (check : fuseW t (w + 8) = crc32 ((upto 8).flatMap fun i => leBytes 4 (l.getD i 0).toNat)) : fuseBlockOk t w = true := by
  have same : ((upto 8).flatMap fun i => leBytes 4 (fuseW t (w + i))) = (upto 8).flatMap fun i => leBytes 4 (l.getD i 0).toNat :=
    List.flatMap_congr fun i mem => by rw [words i (mem_upto_iff.mp mem)]
  unfold fuseBlockOk
  simp only [same, check, beq_self_eq_true, Bool.or_true]

theorem execAccFuseDone_of_due {s : State} {j : FuseJob} (job : s.acc.job = some j) (due : floorTk (10 * j.words) ≤ since s s.acc.jobTk) :
    exec .accFuseDone s = .next (raise .fabric Cause.accFuseDone 0xFF { s with acc := { s.acc with job := none, fuse := fuseMade s j } }) := by
  simp only [exec, execAccFuseDone, job, if_pos due]

/-- The map is the one made, and the end raised. -/
def fuseDone (s : State) (j : FuseJob) : State :=
  raise .fabric Cause.accFuseDone 0xFF { s with acc := { s.acc with job := none, fuse := fuseMade s j } }

theorem fuseDone_within (s : State) (j : FuseJob) : Within [.acc, .fab] s (fuseDone s j) :=
  raise_within (Within.set_acc (Within.refl _ _) rfl) rfl

/-! ### Stage operation -/

/-- What a stage enable that follows its conditions changes of a channel (R64). -/
def MidOnly (c d : Channel) : Prop := d = { c with allMid := d.allMid, dwell := d.dwell, token := d.token, active := d.active }

theorem MidOnly.refl (c : Channel) : MidOnly c c := rfl

theorem MidOnly.trans {c d e : Channel} (h : MidOnly c d) (k : MidOnly d e) : MidOnly c e := by unfold MidOnly at *; rw [k, h]

theorem MidOnly.reg {c d : Channel} (h : MidOnly c d) : d.reg = c.reg := (congrArg Channel.reg h :)

theorem forEach_midOnly {f : Nat → State → State} (h : ∀ i t k, MidOnly (t.getCh k) ((f i t).getCh k)) (l : List Nat) (s : State) (k : Nat) :
    MidOnly (s.getCh k) ((forEach l f s).getCh k) := by
  unfold forEach
  induction l generalizing s with
  | nil => exact .refl _
  | cons i l ih => exact (h i s k).trans (ih (f i s))

theorem midPhases_ch (r : PhSt) (l : List Nat) (s : State) : (forEach l (midPhase r) s).ch = s.ch :=
  Within.forEach (l := [.ph]) (fun _ _ => midPhase_within (Within.refl _ _) rfl) (Within.refl _ _) .ch (by decide)

theorem midChannel_midOnly (i : Nat) (s : State) (k : Nat) : MidOnly (s.getCh k) ((midChannel i s).getCh k) := by
  unfold midChannel
  rw [getCh_modCh, getCh_of_ch (midPhases_ch _ _ s)]
  split <;> rfl

theorem updateSen_midOnly (g : Nat) (s : State) (k : Nat) : MidOnly (s.getCh k) ((updateSen g s).getCh k) := by
  unfold updateSen
  split
  · split <;> rfl
  split
  · have off : (forEach ((upto 16).map (16 * g + ·)) (midPhase .off) (modGal g (fun x => { x with sen := false, awake := false }) s)).ch = s.ch :=
      midPhases_ch _ _ _
    have channels := forEach_midOnly midChannel_midOnly (chansOfGal s g)
      (forEach ((upto 16).map (16 * g + ·)) (midPhase .off) (modGal g (fun x => { x with sen := false, awake := false }) s)) k
    rwa [getCh_of_ch off] at channels
  · rfl

theorem updateSens_midOnly (s : State) (k : Nat) : MidOnly (s.getCh k) ((updateSens s).getCh k) :=
  forEach_midOnly updateSen_midOnly (upto 8) s k

theorem getCh_zeroGrants {k : Nat} (h : k < 128) (s : State) :
    (zeroGrants s).getCh k = { s.getCh k with reg := { (s.getCh k).reg with gEff := 0 } } :=
  (getCh_forEach (upto 128) (nodup_upto 128) k _ s).trans (if_pos ⟨mem_upto h, h⟩)

/-- Stage operation is switched, before the stage enables follow. -/
def stageSwitched (b : Bool) (s : State) : State := { s with acc := { s.acc with stageOp := b } }

theorem setStageOp_eq (b : Bool) (s : State) :
    setStageOp b s = updateSens (stageSwitched b (if b && !s.acc.stageOp then zeroGrants s else s)) := rfl

theorem updateSens_acc (s : State) : (updateSens s).acc = s.acc := updateSens_within (Within.refl [.ph, .gal, .ch] s) rfl .acc (by decide)

theorem getCh_stageSwitched (b : Bool) (s : State) (k : Nat) : (stageSwitched b s).getCh k = s.getCh k := rfl

theorem setStageOp_stageOp (b : Bool) (s : State) : (setStageOp b s).acc.stageOp = b := by
  rw [setStageOp_eq, updateSens_acc]
  rfl

theorem updateSens_reg (s : State) (k : Nat) : ((updateSens s).getCh k).reg = (s.getCh k).reg := (updateSens_midOnly s k).reg

theorem setStageOp_grants {s : State} (new : s.acc.stageOp = false) {k : Nat} (h : k < 128) :
    ((setStageOp true s).getCh k).reg.gEff = 0 := by
  rw [setStageOp_eq, updateSens_reg, getCh_stageSwitched, if_pos (by simp [new]), getCh_zeroGrants h]

theorem execStageOperationEnable_eq (p : Path) (s : State) :
    exec (.stageOperationEnable p) s = .next (regGate 0x00C088 (writeAccSvc true) s) := rfl

/-- Settles O58: each refusal, the map after a programming, and stage operation by its mode. -/
theorem fusesAndStageOperation : Obligations.FusesAndStageOperation := by
  refine ⟨fun s p v up idle => ⟨fun word => ?_, fun block => ?_⟩, fun s p v h => ?noWord, fun s p v h => ?noBlock,
    fun s p v up busy => ⟨fun word => ?_, fun block => ?_⟩, fun s v h => fuseCmd_refused h,
    fun s v service key unlocked idle => ?command, fun s w v job due lengths fits => ?wordDone, fun s w l job due lengths place => ?blockDone,
    fun s early => ?early, fun s p service idle => ⟨?_, setStageOp_stageOp true s, fun new k h => setStageOp_grants new h⟩,
    fun s p up idle other => ?_, fun s p up busy => ?_, fun s p off => ?_⟩
  · rw [execFuseProgramWord_word word, regGate_of_path up idle]
  · rw [execFuseProgramBlock_block block, regGate_of_path up idle]
  case noWord =>
    rcases h with block | off
    · exact congrArg Host.Outcome.next (if_neg (by simp [block]))
    · refine congrArg Host.Outcome.next ?_
      rw [regGate_of_no_path off, ite_self]
  case noBlock =>
    rcases h with word | off
    · exact congrArg Host.Outcome.next (if_neg (by simp [word]))
    · refine congrArg Host.Outcome.next ?_
      rw [regGate_of_no_path off, ite_self]
  · rw [execFuseProgramWord_word word, regGate_of_busy up busy]
  · rw [execFuseProgramBlock_block block, regGate_of_busy up busy]
  case command =>
    rw [fuseCmd_open service key unlocked idle]
    refine ⟨fun word used => ?_, fun word blank h => ?_, fun word blank place backed => ?_, fun block a b => ?_, fun block place used => ?_,
      fun block place blank => ?_⟩
    · rw [if_neg (by simp [word]), if_pos used]
    · rw [if_neg (by simp [word]), if_neg (not_not_intro blank)]
      by_cases fixed : field v 0 6 < 16 ∨ (20 ≤ field v 0 6 ∧ field v 0 6 < 38)
      · rw [if_pos fixed]
      · rw [if_neg fixed, if_pos ((h.resolve_left fun k => fixed (.inl k)).resolve_left fun k => fixed (.inr k))]
    · rw [if_neg (by simp [word]), if_neg (not_not_intro blank), if_neg (by omega), if_neg]
      rintro ⟨auth, unbacked⟩
      rw [backed auth] at unbacked
      cases unbacked
    · rw [if_pos block, if_pos ⟨a, b⟩]
    · rw [if_pos block, if_neg (by omega), if_pos used]
    · rw [if_pos block, if_neg (by omega), if_neg (by simp [blank])]
  case wordDone =>
    have made := fuseMade_word lengths fits v
    exact ⟨fuseDone s (.word w v), execAccFuseDone_of_due job due, rfl, (made w).trans (if_pos rfl),
      fun j other => (made j).trans (if_neg other.symm), rfl, fuseDone_within _ _⟩
  case blockDone =>
    have made (j : Nat) : fuseW (fuseDone s (.block w l)) j = _ :=
      congrArg BitVec.toNat (getD_fuseMade_block lengths (show w + 8 < 64 by omega) l j)
    have words (i : Nat) (h : i < 8) : fuseW (fuseDone s (.block w l)) (w + i) = (l.getD i 0).toNat := by
      rw [made, if_neg (by omega), if_pos ⟨by omega, by omega⟩, Nat.add_sub_cancel_left]
    have check : fuseW (fuseDone s (.block w l)) (w + 8) = crc32 ((upto 8).flatMap fun i => leBytes 4 (l.getD i 0).toNat) := by
      rw [made, if_pos rfl, wordN, BitVec.toNat_ofNat, Nat.mod_eq_of_lt (crc32_lt _)]
    refine ⟨fuseDone s (.block w l), execAccFuseDone_of_due job due, rfl, fuseBlockOk_of_check words check, words, fun j other => ?_, rfl,
      fuseDone_within _ _⟩
    rw [made, if_neg (by omega), if_neg (by omega)]
    rfl
  case early =>
    cases job : s.acc.job with
    | none => simp only [exec, execAccFuseDone, job]
    | some j => simp only [exec, execAccFuseDone, job, if_neg (early j job).not_ge]
  · rw [execStageOperationEnable_eq, regGate_of_path (by rw [service]; rfl) idle, writeAccSvc, if_pos service]
  · rw [execStageOperationEnable_eq, regGate_of_path up idle, writeAccSvc, if_neg other]
  · rw [execStageOperationEnable_eq, regGate_of_busy up busy]
  · rw [execStageOperationEnable_eq, regGate_of_no_path off]

end Sys2Proof.Machine
end

section
/-!
The calendar (R407 to R409): its roll-over, its freezes for a path, and the writes of its counts and of its control.
-/

namespace Sys2Proof.Machine

section
variable {s : State} {p : Path} {v : Word}

/-! ### Counts -/

theorem writeCount_taken {f : CalField} (halted : rtcHalt s = true) (low : (calRange f).1 ≤ field v 0 (calBits f))
    (high : field v 0 (calBits f) ≤ (calRange f).2) :
    writeCount f v s = modRtc (fun r => { r with cal := setCal f (field v 0 (calBits f)) r.cal }) s := if_pos (by simp [halted, low, high])

theorem writeCount_refused {f : CalField}
    (h : rtcHalt s = false ∨ field v 0 (calBits f) < (calRange f).1 ∨ (calRange f).2 < field v 0 (calBits f)) :
    writeCount f v s = rtcWerr s := by
  refine if_neg ?_
  rcases h with h | h | h
  · simp [h]
  · simp [h.not_ge]
  · simp [h.not_ge]

/-! ### Control -/

theorem testBit_low_five (v : Word) : (v &&& 0x1F).toNat.testBit 0 = v.toNat.testBit 0 := by
  have low : (0x1F : Word).toNat = 2 ^ 5 - 1 := rfl
  rw [BitVec.toNat_and, Nat.testBit_and, low, Nat.testBit_two_pow_sub_one]
  simp

/-- The clock starts: a new trim window from the next trim, and valid (R409, R410). -/
def startClock (s : State) : State :=
  modRtc (fun r => { r with cal := { r.cal with sub := 0 }, winSec := 0, held := false, trim := r.trimNext, valid := true }) s

theorem writeRtcCtrl_starts (halted : rtcHalt s = true) (clears : v.toNat.testBit 0 = false) (date : dateExists s.rtc.cal = true) :
    writeRtcCtrl v s = setCfg 0x003020 (v &&& 0x1F) (startClock s) :=
  (if_pos (by rw [halted, testBit_low_five, clears]; rfl)).trans (if_pos date)

theorem writeRtcCtrl_noDate (halted : rtcHalt s = true) (clears : v.toNat.testBit 0 = false) (noDate : dateExists s.rtc.cal = false) :
    writeRtcCtrl v s = rtcWerr (setCfg 0x003020 ((v &&& 0x1F) ||| 1) s) :=
  (if_pos (by rw [halted, testBit_low_five, clears]; rfl)).trans (if_neg (by simp [noDate]))

theorem writeRtcCtrl_plain (h : rtcHalt s = false ∨ v.toNat.testBit 0 = true) : writeRtcCtrl v s = setCfg 0x003020 (v &&& 0x1F) s := by
  refine if_neg ?_
  rw [testBit_low_five]
  rcases h with h | h <;> simp [h]

theorem execRtcCountWrite_eq (f : CalField) : exec (.rtcCountWrite p f v) s = .next (regGate (calAddr f) (writeCount f v) s) := rfl

theorem execRtcCtrlWrite_eq : exec (.rtcCtrlWrite p v) s = .next (regGate 0x003020 (writeRtcCtrl v) s) := rfl

end

/-- Settles O54: the roll-over, each freeze for its path, and each write by what it finds. -/
theorem calendarFreezesAndCounts : Obligations.CalendarFreezesAndCounts := by
  refine ⟨fun c h => if_pos h, by decide, fun s running last => if_neg (by simp [running, last]), fun s h => if_pos (by rcases h with h | h <;> simp [h]),
    fun s up => ⟨_, if_pos up, rfl⟩, fun s off => if_neg (by simp [pathsUp, off]), fun s p lengths up => ?freeze,
    fun s p c n frozen => by simp only [calSeen, frozen], fun s p free => by simp only [calSeen, free], fun s p lengths up => ?year,
    fun s p off => ⟨if_pos (by simp [pathsUp, off]), if_pos (by simp [pathsUp, off])⟩, fun s p lengths long => ?long,
    fun s p short => if_neg (by simp [short]), fun s p f v up idle halted low high => ?_, fun s p f v up idle h => ?_,
    fun s p v up idle halted clears date => ?starts, fun s p v up idle halted clears noDate => ?noDate,
    fun s p v up idle h => ?_, fun s p f v up busy => ⟨?_, ?_⟩, fun s p f v off => ⟨?_, ?_⟩⟩
  case freeze =>
    exact ⟨_, if_neg (by simp [pathsUp, up]), rfl, congrArg Shadow.cal (shad_modShad_self lengths p _),
      fun q other => shad_modShad_other other _ s, emit_within (modShad_within (Within.refl _ _) rfl) rfl⟩
  case year =>
    exact ⟨_, if_neg (by simp [pathsUp, up]), rfl, congrArg Shadow.cal (shad_modShad_self lengths p _),
      congrArg Shadow.stale (shad_modShad_self lengths p _), fun q other => shad_modShad_other other _ s,
      emit_within (modShad_within (Within.refl _ _) rfl) rfl⟩
  case long =>
    exact ⟨_, if_pos long, congrArg Shadow.cal (shad_modShad_self lengths p _), congrArg Shadow.stale (shad_modShad_self lengths p _),
      fun q other => shad_modShad_other other _ s, modShad_within (Within.refl _ _) rfl⟩
  · rw [execRtcCountWrite_eq, regGate_of_path up idle, writeCount_taken halted low high]; rfl
  · rw [execRtcCountWrite_eq, regGate_of_path up idle, writeCount_refused h]; rfl
  case starts =>
    refine ⟨setCfg 0x003020 (v &&& 0x1F) (startClock s),
      by rw [execRtcCtrlWrite_eq, regGate_of_path up idle, writeRtcCtrl_starts halted clears date], ?_, rfl, rfl⟩
    exact setCfg_within (modRtc_within (Within.refl _ _) rfl) rfl
  case noDate =>
    refine ⟨rtcWerr (setCfg 0x003020 ((v &&& 0x1F) ||| 1) s),
      by rw [execRtcCtrlWrite_eq, regGate_of_path up idle, writeRtcCtrl_noDate halted clears noDate], rfl, rfl, rfl, ?_⟩
    exact raise_within (modRtc_within (setCfg_within (Within.refl _ _) rfl) rfl) rfl
  · rw [execRtcCtrlWrite_eq, regGate_of_path up idle, writeRtcCtrl_plain h]
  · rw [execRtcCountWrite_eq, regGate_of_busy up busy]
  · rw [execRtcCtrlWrite_eq, regGate_of_busy up busy]
  · rw [execRtcCountWrite_eq, regGate_of_no_path off]
  · rw [execRtcCtrlWrite_eq, regGate_of_no_path off]

end Sys2Proof.Machine
end

section
/-!
The backup domain (R401 to R415): trim window, alarm and periodic wake, what a wake does by mode, backup RAM, and the supply of the domain.
-/

namespace Sys2Proof.Machine

section
variable {s : State} {p : Path} {b : Bool}

/-! ### Wakes -/

theorem wake_of_rails (notShip : s.mode ≠ .ship) (notRest : s.mode ≠ .rest) (notBackup : s.mode ≠ .backup) : wake b s = s := by
  unfold wake
  cases h : s.mode
  case ship => exact absurd h notShip
  case rest => exact absurd h notRest
  case backup => exact absurd h notBackup
  all_goals rfl

theorem wake_of_ship (ship : s.mode = .ship) : wake b s = if s.seq.lockout then s else onRequest b s := by simp only [wake, ship]

theorem wake_of_rest (rest : s.mode = .rest) :
    wake b s = if rtcRestAct s then exitRest .run b s else modRtc (fun r => { r with restWake := true }) s := by simp only [wake, rest]

theorem wake_of_backup (backup : s.mode = .backup) : wake b s = modRtc (fun r => { r with wakePend := true }) s := by
  simp only [wake, backup]

/-! ### Backup RAM -/

theorem length_bram_of_Lengths (lengths : Lengths s = true) : s.rtc.bram.length = 64 := by
  simp only [Lengths, Bool.and_eq_true, beq_iff_eq] at lengths
  tauto

theorem length_bcrc_of_Lengths (lengths : Lengths s = true) : s.rtc.bcrc.length = 8 := by
  simp only [Lengths, Bool.and_eq_true, beq_iff_eq] at lengths
  tauto

theorem bitN_setBitN_clear (x i : Nat) : bitN (setBitN x i false) i = false := by
  have cleared : setBitN x i false = if x.testBit i then x - 2 ^ i else x := rfl
  rw [cleared]
  by_cases set : x.testBit i = true
  · rw [if_pos set, bitN, Nat.testBit_eq_decide_div_mod_eq]
    rw [Nat.testBit_eq_decide_div_mod_eq, decide_eq_true_eq] at set
    have lower : (x - 2 ^ i) / 2 ^ i = x / 2 ^ i - 1 := by simpa using Nat.sub_mul_div x (2 ^ i) 1
    rw [lower, decide_eq_false_iff_not]
    omega
  · rw [if_neg set]
    exact Bool.eq_false_iff.mpr set

/-- `m` with the four bytes from `4 i` replaced by `w`, as a write of a word of backup RAM leaves it. -/
def withWord (m : List Byte) (i : Nat) (w : List Byte) : List Byte := m.take (4 * i) ++ w ++ m.drop (4 * i + 4)

theorem leAt_withWord_self {m : List Byte} {i x : Nat} (room : 4 * i ≤ m.length) (fits : x < 256 ^ 4) :
    leAt (withWord m i (leBytes 4 x)) (4 * i) 4 = x := by
  rw [withWord, List.append_assoc]
  exact leAt_field _ (List.length_take_of_le room) fits

theorem leAt_withWord_other {m w : List Byte} {i j : Nat} (width : w.length = 4) (room : 4 * i ≤ m.length) (other : j ≠ i) :
    leAt (withWord m i w) (4 * j) 4 = leAt m (4 * j) 4 := by
  have front : (m.take (4 * i)).length = 4 * i := List.length_take_of_le room
  refine congrArg leNat ?_
  rw [withWord]
  rcases Nat.lt_or_gt_of_ne other with below | above
  · rw [List.append_assoc, List.drop_append_of_le_length (by omega), List.take_append_of_le_length (by rw [List.length_drop]; omega),
      List.drop_take, List.take_take, Nat.min_eq_left (by omega)]
  · have past : 4 * j = (m.take (4 * i) ++ w).length + (4 * j - (4 * i + 4)) := by rw [List.length_append]; omega
    have rejoin : 4 * i + 4 + (4 * j - (4 * i + 4)) = 4 * j := by omega
    rw [past, List.drop_length_add_append, List.drop_drop, rejoin, ← past]

/-- What a write of word `i` of backup RAM holds: the word, its block's check byte, and the block good (R414, R415). -/
def bramWritten (i : Nat) (v : Word) (r : Rtc) : Rtc :=
  { r with bram := withWord r.bram i (leBytes 4 v.toNat),
           bcrc := lset r.bcrc (i / 2) (BitVec.ofNat 8 (crc8 (slice (withWord r.bram i (leBytes 4 v.toNat)) (8 * (i / 2)) 8))),
           bstat := setBitN r.bstat (i / 2) false }

theorem bramBad_bramWritten {r : Rtc} {i : Nat} (v : Word) (block : i / 2 < r.bcrc.length) : bramBad (bramWritten i v r) (i / 2) = false := by
  have check : (bramWritten i v r).bcrc.getD (i / 2) 0 = BitVec.ofNat 8 (crc8 (bramBlock (bramWritten i v r) (i / 2))) := by
    rw [List.getD_eq_getElem?_getD]
    exact congrArg (·.getD 0) (List.getElem?_set_self block)
  rw [bramBad, check, BitVec.toNat_ofNat, Nat.mod_eq_of_lt (crc8_lt _)]
  simp

/-! ### Collapse -/

theorem not_mem_filter_outside (l : List (Nat × Word)) {a : Nat} (inside : inBackup a = true) (v : Word) :
    (a, v) ∉ l.filter fun x => !inBackup x.1 := by
  simp [List.mem_filter, inside]

end

/-- Settles O55: each command by its condition, a wake by the mode, and what a collapse resets and keeps. -/
theorem wakesBackupRamAndSupply : Obligations.WakesBackupRamAndSupply := by
  refine ⟨fun s run due => if_neg (by simp [run, due]), fun s h => if_pos (by rcases h with h | h <;> simp [h]),
    fun s b en run hit => if_pos (by simp [en, run, hit]), fun s b h => if_neg (by rcases h with h | h | h <;> simp [h]),
    fun s b en n zero => if_pos (by simp [en, n, zero]), fun s b h => if_neg (by rcases h with h | h | h <;> simp [h]),
    fun s b => wake_of_rails, fun s b => wake_of_ship, fun s b rest act => (wake_of_rest rest).trans (if_pos act),
    fun s b rest act => (wake_of_rest rest).trans (if_neg (by simp [act])), fun s b => wake_of_backup,
    fun s p v up idle => ?pwake, fun s p i v up idle lengths => ?bram,
    fun s p i v up busy => ⟨congrArg Host.Outcome.next (regGate_of_busy up busy _ _), congrArg Host.Outcome.next (regGate_of_busy up busy _ _)⟩,
    fun s p i v off => ⟨congrArg Host.Outcome.next (regGate_of_no_path off _ _), congrArg Host.Outcome.next (regGate_of_no_path off _ _)⟩,
    fun s vin high => ?becomesLow, fun s vin low => ?staysLow, fun s vin => ?good, fun s b off => if_neg (by simp [off]), fun s => ?collapse⟩
  case pwake =>
    exact ⟨writeRtcPwake v s, congrArg Host.Outcome.next (regGate_of_path up idle _ _), rfl, rfl,
      modRtc_within (setCfg_within (Within.refl _ _) rfl) rfl⟩
  case bram =>
    have room : 4 * i.val ≤ s.rtc.bram.length := by rw [length_bram_of_Lengths lengths]; omega
    have reads : leAt (withWord s.rtc.bram i (leBytes 4 v.toNat)) (4 * i.val) 4 = v.toNat := leAt_withWord_self room v.isLt
    refine ⟨modRtc (bramWritten i v) s, congrArg Host.Outcome.next (regGate_of_path up idle _ _), ?_,
      fun j other => leAt_withWord_other (length_leBytes 4 v.toNat) room fun e => other (Fin.ext e),
      bramBad_bramWritten v (by rw [length_bcrc_of_Lengths lengths]; omega), bitN_setBitN_clear _ _, modRtc_within (Within.refl _ _) rfl⟩
    exact (congrArg wordN reads).trans (BitVec.ofNat_toNat 32 v)
  case becomesLow => exact (if_pos vin).trans (congrArg Host.Outcome.next (if_pos (by simp [high])))
  case staysLow =>
    refine (if_pos vin).trans (congrArg Host.Outcome.next ((if_neg (by simp [low])).trans ?_))
    exact congrArg (fun r => { s with rtc := r }) (congrArg (fun l => { s.rtc with vbakLow := l }) low.symm)
  case good => exact (if_pos vin).trans (congrArg Host.Outcome.next (if_neg (by simp)))
  case collapse =>
    refine ⟨_, rfl, rfl, fun a inside v => not_mem_filter_outside _ inside v, fun x mem outside => List.mem_filter.mpr ⟨mem, by simp [outside]⟩,
      rfl, fun down => if_neg (fun up => absurd (up.symm.trans down) (by decide)), fun up => ?_, ?_⟩
    · rw [show (freeBytes 8 (freeBytes 64 s).2).2.mode.up = true from up]
      refine ⟨rfl, rfl, rfl, rfl, rfl, rfl, fun r mem => ?_⟩
      obtain ⟨r', -, rfl⟩ := Vector.mem_map.mp mem
      exact ⟨rfl, rfl, rfl, rfl⟩
    · exact Within.mk (Within.refl _ _) fun part outside => by
        cases part <;> first | rfl | exact absurd (by simp) outside

end Sys2Proof.Machine
end

section
/-!
The event controller (R440 to R451): a crossing consumed, a source that becomes pending, the hold-off of its group, and claims.
-/

namespace Sys2Proof.Machine

section
variable {s : State} {i : Nat}

/-! ### Crossings -/

theorem consumeEvent_recorded {e : Event} (record : noRecord e = false) (kept : e.lost = false) (s : State) :
    consumeEvent e s = setPending e.src (ringPush (eventRing s e) (eRecord e) s) := by
  simp only [consumeEvent, record, kept, Bool.false_eq_true, if_false]

theorem consumeEvent_unrecorded {e : Event} (none : noRecord e = true) (kept : e.lost = false) (s : State) :
    consumeEvent e s = setPending e.src s := by
  simp only [consumeEvent, none, kept, Bool.false_eq_true, if_false, if_true]

/-- An event that lost its argument is consumed as any other, and the loss is an event. -/
theorem consumeEvent_lost {e : Event} (lost : e.lost = true) (s : State) :
    consumeEvent e s = raise .fabric Cause.fabEvtLost 0xFF (consumeEvent { e with lost := false } s) :=
  if_pos lost

/-! ### Sources -/

theorem mem_insN (x : Nat) (l : List Nat) : x ∈ insN x l := by
  induction l with
  | nil => exact List.mem_singleton_self x
  | cons y l ih =>
    unfold insN
    split
    · exact List.mem_cons_self
    · split
      next e => exact e ▸ List.mem_cons_self
      · exact List.mem_cons_of_mem y ih

theorem testBit_setBitN (x i : Nat) (b : Bool) : (setBitN x i b).testBit i = b := by
  cases b
  · exact bitN_setBitN_clear x i
  · exact bitN_setBitN x i

theorem setPending_ignored (h : srcReal i = false ∨ srcEnabled s i = false) : setPending i s = s :=
  if_pos (by rcases h with h | h <;> simp [h])

section
variable (real : srcReal i = true) (enabled : srcEnabled s i = true)
include real enabled

theorem setPending_again (stands : i ∈ s.intc.pend) :
    setPending i s = { s with intc := { s.intc with again := insN i s.intc.again } } :=
  (if_neg (by simp [real, enabled])).trans (if_pos (by simpa using stands))

variable (fresh : i ∉ s.intc.pend)
include fresh

theorem setPending_held (runs : s.intc.run.testBit (srcGroup s i) = true) :
    setPending i s = { s with intc := { s.intc with pend := insN i s.intc.pend, held := insN i s.intc.held } } :=
  (if_neg (by simp [real, enabled])).trans ((if_neg (by simpa using fresh)).trans (if_pos runs))

theorem setPending_starts (rests : s.intc.run.testBit (srcGroup s i) = false) :
    setPending i s = { s with intc := startHold s (srcGroup s i) { s.intc with pend := insN i s.intc.pend } } :=
  (if_neg (by simp [real, enabled])).trans ((if_neg (by simpa using fresh)).trans (if_neg (by simp [rests])))

end

/-! ### Hold-off -/

/-- What is held when the hold-off of group `g` has run down: the sources of the other groups (R449). -/
def heldElsewhere (g : Nat) (s : State) : List Nat := s.intc.held.filter fun i => srcGroup s i != g

section
variable {g : Fin 16} (runs : s.intc.run.testBit g = true) (down : s.intc.left.getD g 0 = 0)
include runs down

theorem holdoffExpire_starts (held : ∃ i ∈ s.intc.held, srcGroup s i = g.val) :
    exec (.holdoffExpire g) s = .next { s with intc := startHold s g { s.intc with held := heldElsewhere g s } } :=
  (if_pos (by rw [runs, down]; rfl)).trans (congrArg (fun c => Host.Outcome.next { s with intc := c }) (if_pos (by simpa using held)))

theorem holdoffExpire_frees (none : ∀ i ∈ s.intc.held, srcGroup s i ≠ g.val) :
    exec (.holdoffExpire g) s = .next { s with intc := { s.intc with held := heldElsewhere g s, run := setBitN s.intc.run g false } } :=
  (if_pos (by rw [runs, down]; rfl)).trans (congrArg (fun c => Host.Outcome.next { s with intc := c }) (if_neg (by simpa using none)))

end

/-! ### Claims -/

/-- The better of a claim so far and the source `i`: a later one wins by a higher priority only. -/
def preferred (s : State) (b : Option Nat) (i : Nat) : Option Nat :=
  match b with
  | none => some i
  | some j => if srcPrio s j < srcPrio s i then some i else some j

theorem bestClaim_eq (s : State) (t : Nat) : bestClaim s t = (s.intc.pend.filter (claimable s t)).foldl (preferred s) none := rfl

theorem preferred_some (s : State) (j x : Nat) :
    ∃ k, preferred s (some j) x = some k ∧ (k = j ∨ k = x) ∧ srcPrio s j ≤ srcPrio s k ∧ srcPrio s x ≤ srcPrio s k := by
  by_cases above : srcPrio s j < srcPrio s x
  · exact ⟨x, if_pos above, .inr rfl, above.le, le_rfl⟩
  · exact ⟨j, if_neg above, .inl rfl, le_rfl, not_lt.mp above⟩

theorem foldl_preferred (s : State) (l : List Nat) (j : Nat) :
    ∃ i, l.foldl (preferred s) (some j) = some i ∧ i ∈ j :: l ∧ ∀ x ∈ j :: l, srcPrio s x ≤ srcPrio s i := by
  induction l generalizing j with
  | nil => exact ⟨j, rfl, by simp⟩
  | cons x l ih =>
    obtain ⟨k, kept, which, aboveJ, aboveX⟩ := preferred_some s j x
    obtain ⟨i, best, mem, most⟩ := ih k
    obtain ⟨top, rest⟩ := List.forall_mem_cons.mp most
    refine ⟨i, (congrArg (List.foldl (preferred s) · l) kept).trans best, ?_,
      List.forall_mem_cons.mpr ⟨aboveJ.trans top, List.forall_mem_cons.mpr ⟨aboveX.trans top, rest⟩⟩⟩
    rcases List.mem_cons.mp mem with rfl | later
    · rcases which with rfl | rfl <;> simp
    · exact List.mem_cons_of_mem _ (List.mem_cons_of_mem _ later)

/-- The best claim is the head of the claimable sources or beats it; there is one as soon as one source is claimable. -/
theorem bestClaim_cases (s : State) (t : Nat) :
    (s.intc.pend.filter (claimable s t) = [] ∧ bestClaim s t = none) ∨
    ∃ i, bestClaim s t = some i ∧ i ∈ s.intc.pend.filter (claimable s t) ∧
      ∀ x ∈ s.intc.pend.filter (claimable s t), srcPrio s x ≤ srcPrio s i := by
  rw [bestClaim_eq]
  cases s.intc.pend.filter (claimable s t) with
  | nil => exact .inl ⟨rfl, rfl⟩
  | cons j l => exact .inr (foldl_preferred s l j)

theorem claimRead_claims {p : Path} {t : Nat} (sees : 4 ≤ t ∨ ∃ c, p = .core c) (s : State) : claimRead p t s = claim t s := by
  cases p with
  | core c => rfl
  | _ => exact if_neg (not_lt.mpr (sees.resolve_right (by rintro ⟨c, h⟩; cases h)))

theorem claimRead_hidden {p : Path} {t : Nat} (low : t < 4) (outside : ∀ c, p ≠ .core c) (s : State) : claimRead p t s = (0x3FF, s) := by
  cases p with
  | core c => exact absurd rfl (outside c)
  | _ => exact if_pos low

/-- The claim of source `i` by target `t`: no longer pending, on top of the target's stack. -/
def claimed (t i : Nat) (s : State) : State :=
  { s with intc := { s.intc with pend := delN i s.intc.pend, stk := lset s.intc.stk t ((i, srcPrio s i) :: stackOf s t) } }

theorem claim_of_best {t : Nat} (best : bestClaim s t = some i) : claim t s = (i, claimed t i s) := by
  rw [claim, best]
  rfl

theorem claim_of_none {t : Nat} (none : bestClaim s t = none) :
    claim t s = (0x3FF, { s with intc := { s.intc with nSpur := incSat 16 s.intc.nSpur } }) := by
  rw [claim, none]

end

section
variable {s : State} {p : Path} {t : Fin 8}

theorem exec_intcClaim (up : s.mode.up = true) :
    exec (.intcClaim p t) s = .next (emit (.readData p (0x004200 + 16 * t.val) (wordN (claimRead p t s).1)) (claimRead p t s).2) :=
  if_neg (by simp [up])

end

/-- Settles O56: a crossing event by event, a source by its group's timer, a claim by the best claimable source. -/
theorem eventsBecomePendingAndAreClaimed : Obligations.EventsBecomePendingAndAreClaimed := by
  refine ⟨fun s prod => ⟨_, rfl, rfl⟩, fun e s record kept => consumeEvent_recorded record kept s,
    fun e s none kept => consumeEvent_unrecorded none kept s, fun e s lost => consumeEvent_lost lost s,
    fun s i real enabled fresh rests => ?starts, fun s i real enabled fresh runs => ?held,
    fun s i real enabled stands => setPending_again real enabled stands, fun s i h => setPending_ignored h,
    fun s g runs down => ?expires, fun s g h => if_neg ?runs, fun s p t i up sees best => ?claims, fun s p t up sees none => ?spurious,
    fun s p t up low outside => by rw [exec_intcClaim up, claimRead_hidden low outside]; rfl, fun s p t off => if_pos (by simp [off]),
    fun s t i best => ?best, fun s t => ?none, fun s p v up idle => congrArg Host.Outcome.next (regGate_of_path up idle _ _),
    fun s p t v up busy => ⟨congrArg Host.Outcome.next (regGate_of_busy up busy _ _), congrArg Host.Outcome.next (regGate_of_busy up busy _ _)⟩,
    fun s p t v off => ⟨congrArg Host.Outcome.next (regGate_of_no_path off _ _), congrArg Host.Outcome.next (regGate_of_no_path off _ _)⟩⟩
  case starts =>
    rw [setPending_starts real enabled fresh rests]
    exact ⟨mem_insN i _, rfl, rfl, testBit_setBitN _ _ _, (Within.refl _ _).set_intc rfl⟩
  case held =>
    rw [setPending_held real enabled fresh runs]
    exact ⟨mem_insN i _, mem_insN i _, rfl, rfl, (Within.refl _ _).set_intc rfl⟩
  case expires =>
    by_cases held : ∃ i ∈ s.intc.held, srcGroup s i = g.val
    · exact ⟨_, holdoffExpire_starts runs down held, rfl, rfl, fun none => absurd held (by simpa using none),
        fun i _ _ => testBit_setBitN _ _ _, (Within.refl _ _).set_intc rfl⟩
    · have none : ∀ i ∈ s.intc.held, srcGroup s i ≠ g.val := fun i mem group => held ⟨i, mem, group⟩
      exact ⟨_, holdoffExpire_frees runs down none, rfl, rfl, fun _ => testBit_setBitN s.intc.run g false,
        fun i mem group => absurd group (none i mem), (Within.refl _ _).set_intc rfl⟩
  case runs =>
    rw [Bool.and_eq_true, beq_iff_eq]
    rintro ⟨runs, down⟩
    exact h.elim (fun off => Bool.false_ne_true (off.symm.trans runs)) (fun left => left down)
  case claims =>
    refine ⟨_, exec_intcClaim up, ?_⟩
    rw [claimRead_claims sees, claim_of_best best]
    refine ⟨rfl, rfl, fun lengths => ⟨?_, fun j other => ?_⟩, emit_within ((Within.refl _ _).set_intc rfl) rfl⟩
    · exact stackOf_setStack_self (t.isLt.trans_eq (length_stk_of_Lengths lengths).symm) _
    · exact stackOf_setStack_of_ne other _ s
  case spurious =>
    refine ⟨_, exec_intcClaim up, ?_⟩
    rw [claimRead_claims sees, claim_of_none none]
    exact ⟨rfl, rfl, emit_within ((Within.refl _ _).set_intc rfl) rfl⟩
  case best =>
    rcases bestClaim_cases s t with ⟨-, none⟩ | ⟨k, some, mem, most⟩
    · exact absurd (best.symm.trans none) (by simp)
    · obtain rfl : k = i := Option.some_inj.mp (some.symm.trans best)
      obtain ⟨pending, may⟩ := List.mem_filter.mp mem
      exact ⟨pending, may, fun j stands claims => most j (List.mem_filter.mpr ⟨stands, claims⟩)⟩
  case none =>
    rcases bestClaim_cases s t with ⟨empty, none⟩ | ⟨k, some, mem, -⟩
    · simpa [none] using List.filter_eq_nil_iff.mp empty
    · obtain ⟨pending, may⟩ := List.mem_filter.mp mem
      exact ⟨fun none => absurd (some.symm.trans none) (by simp), fun all => absurd (may.symm.trans (all k pending)) (by simp)⟩

end Sys2Proof.Machine
end

section
/-!
The two-wire target (R379, R380): when an address is answered, the words of a write with and without PEC, and the words of a read.
-/

namespace Sys2Proof.Machine

section
variable {s : State} {busy : TwiBusy} {f : State → State}

/-! ### The address -/

theorem twiAddressed_silent (h : s.mode.up = false ∨ cfgF s 0x00A000 2 1 = 0) : twiAddressed busy f s = s :=
  if_pos (by rcases h with h | h <;> simp [h])

section
variable (up : s.mode.up = true) (enabled : cfgF s 0x00A000 2 1 = 1)
include up enabled

theorem twiAddressed_applying (applying : s.ldr.st = .applying) : twiAddressed busy f s = twiBusyNack s :=
  (if_neg (by simp [up, enabled])).trans (if_pos applying)

variable (free : s.ldr.st ≠ .applying)
include free

theorem twiAddressed_reset (h : busy = .address ∨ justReset s = true) : twiAddressed busy f s = twiAnswer false [] s :=
  (if_neg (by simp [up, enabled])).trans ((if_neg free).trans (if_pos h))

theorem twiAddressed_answered (settled : justReset s = false) (notReset : busy ≠ .address) : twiAddressed busy f s = f s :=
  (if_neg (by simp [up, enabled])).trans ((if_neg free).trans (if_neg (by simp [settled, notReset])))

end

theorem twiAligned_bad {a : Nat} (odd : a % 4 ≠ 0) :
    twiAligned a f s = twiAnswer false [] (modTwi (fun t => { t with lastAlign := true }) s) := if_pos odd

theorem twiAligned_good {a : Nat} (even : a % 4 = 0) :
    twiAligned a f s = f (modTwi (fun t => { t with lastAlign := false, ptr := a }) s) := if_neg (not_not.mpr even)

theorem execTwiTargetWrite_eq (a2 a1 a0 : Byte) (d : List Byte) :
    exec (.twiTargetWrite (a2 :: a1 :: a0 :: d) busy) s =
      .next (twiAddressed busy (twiAligned (twiAddr a2 a1 a0) (twiData [a2, a1, a0] d busy)) s) := rfl

theorem execTwiTargetRead_eq (a2 a1 a0 : Byte) (n : Nat) :
    exec (.twiTargetRead (some [a2, a1, a0]) n busy) s =
      .next (twiAddressed busy (twiAligned (twiAddr a2 a1 a0) (twiRead n busy)) s) := rfl

theorem execTwiTargetRead_on (n : Nat) : exec (.twiTargetRead none n busy) s = .next (twiAddressed busy (twiRead n busy) s) := rfl

/-- An address of other than three bytes is not one of a register. -/
theorem execTwiTargetRead_malformed {l : List Byte} (bytes : l.length ≠ 3) (n : Nat) : exec (.twiTargetRead (some l) n busy) s = .next s := by
  match l, bytes with
  | [], _ | [_], _ | [_, _], _ | _ :: _ :: _ :: _ :: _, _ => rfl
  | [_, _, _], three => exact absurd rfl three

theorem execTwiTargetWrite_short {l : List Byte} (short : l.length < 3) : exec (.twiTargetWrite l busy) s = .next s := by
  match l, short with
  | [], _ | [_], _ | [_, _], _ => rfl
  | _ :: _ :: _ :: _, long => simp at long; omega

/-! ### The words of a write -/

/-- All words are performed in order, and the last is acknowledged. -/
def twiPerform (l : List Word) (s : State) : State := twiAnswer true [] (l.foldl twiPut s)

theorem length_twiWords (d : List Byte) : (twiWords d).length = d.length / 4 := by simp [twiWords, upto]

theorem twiWords_short {d : List Byte} (short : d.length < 8) : ∀ w x l, twiWords d ≠ w :: x :: l := by
  intro w x l two
  have count : d.length / 4 = l.length + 2 := (length_twiWords d).symm.trans (congrArg List.length two)
  omega

theorem twiWords_long {d : List Byte} (long : 8 ≤ d.length) : ∃ x l, twiWords d = wordN (leAt d 0 4) :: x :: l := by
  obtain ⟨n, words⟩ : ∃ n, d.length / 4 = n + 2 := ⟨d.length / 4 - 2, by omega⟩
  rw [twiWords, words, upto, List.range_succ_eq_map, List.range_succ_eq_map]
  exact ⟨_, _, rfl⟩

section
variable {a d : List Byte} (noPec : cfgF s 0x00A000 4 1 = 0)
include noPec

theorem twiData_plain : twiData a d busy s =
    match twiWords d with
    | w :: _ :: _ => if (match busy with | .fetch w => !stretched s w | _ => false) = true then twiBusyNack (twiPut s w)
                     else twiPerform (twiWords d) s
    | l => twiPerform l s := if_neg (by simp [noPec])

/-- One word, or none, has no predecessor to wait for. -/
theorem twiData_plain_short (short : d.length < 8) : twiData a d busy s = twiPerform (twiWords d) s := by
  rw [twiData_plain noPec]
  split
  next w x l two => exact absurd two (twiWords_short short w x l)
  next => rfl

theorem twiData_plain_ready (ready : ∀ within, busy = .fetch within → stretched s within = true) :
    twiData a d busy s = twiPerform (twiWords d) s := by
  rw [twiData_plain noPec]
  split
  next =>
    refine if_neg ?_
    cases busy with
    | fetch within => simp [ready within rfl]
    | _ => exact Bool.false_ne_true
  next => rfl

/-- The second word comes while the first is still being performed (R380). -/
theorem twiData_plain_late {within : Bool} (long : 8 ≤ d.length) (late : stretched s within = false) :
    twiData a d (.fetch within) s = twiBusyNack (twiPut s (wordN (leAt d 0 4))) := by
  obtain ⟨x, l, words⟩ := twiWords_long long
  rw [twiData_plain noPec, words]
  exact if_pos (by simp [late])

end

section
variable {a d : List Byte} (pec : cfgF s 0x00A000 4 1 = 1) (data : d ≠ [])
include pec data

theorem twiData_pec_bad (bad : d.dropLast.length % 4 ≠ 0 ∨ 64 < d.dropLast.length ∨ crc8 (a ++ d) ≠ 0) :
    twiData a d busy s = twiAnswer false [] (raise .fabric Cause.twiPecBad 0xFF s) :=
  (if_pos ⟨pec, data⟩).trans (if_neg (by omega))

theorem twiData_pec_good (words : d.dropLast.length % 4 = 0) (fits : d.dropLast.length ≤ 64) (check : crc8 (a ++ d) = 0) :
    twiData a d busy s = twiPerform (twiWords d.dropLast) s :=
  (if_pos ⟨pec, data⟩).trans (if_pos ⟨words, fits, check⟩)

end
/-! ### The words of a read -/

theorem stretched_eq_false {within : Bool} (h : within = false ∨ cfgF s 0x00A000 3 1 = 0) : stretched s within = false := by
  rcases h with h | h <;> simp [stretched, h]

theorem twiRead_served {n : Nat} (ready : ∀ within, busy = .fetch within → twiHasKept s = true ∨ stretched s within = true) :
    twiRead n busy s = twiAnswer true (twiGetAll n s).1 (twiGetAll n s).2 := by
  refine if_neg ?_
  cases busy with
  | fetch within => rcases ready within rfl with h | h <;> simp [h]
  | _ => exact Bool.false_ne_true

theorem rcPut_run (p : Path) (h : RegHit) (w : Word) (s : State) : (rcPut p h w s).tb.run = s.tb.run := by
  unfold rcPut
  split <;> rfl

/-- A read of a register leaves the run time. -/
theorem readReg_run (p : Path) (a : Nat) (s : State) : (readReg p a s).2.tb.run = s.tb.run := by
  have kept {t : State} {l : List Part} (outside : Part.tb ∉ l) (within : Within l s t) : t.tb.run = s.tb.run :=
    congrArg Timebase.run (within .tb outside)
  rw [readReg, readRacing]
  split
  next => rfl
  next h _ =>
    unfold readEffect
    split
    · exact kept (by decide) (freezeCal_within (Within.refl _ _) (all_contains_self _))
    · exact kept (by decide) (readYear_within (Within.refl _ _) (all_contains_self _))
    · exact kept (by decide) (readBram_within (Within.refl _ _) (all_contains_self _))
    · exact kept (by decide) (claimRead_within (Within.refl _ _) (all_contains_self _))
    · exact kept (by decide) (winRead_within (Within.refl _ _) (all_contains_self _))
    · split
      · exact rcPut_run p h 0 s
      · split
        · rfl
        · rfl

theorem twiRead_late {n : Nat} {within : Bool} (fresh : twiHasKept s = false) (late : stretched s within = false) :
    twiRead n (.fetch within) s = twiBusyNack (modTwi (fun t => { t with
      kept := some (t.ptr, (readReg .i2c s.twi.ptr s).1, (readReg .i2c s.twi.ptr s).2.tb.run) }) (readReg .i2c s.twi.ptr s).2) := by
  rw [readReg_run]
  exact if_pos (by simp [fresh, late])

theorem twiGet_kept {w : Word} {t : Nat} (kept : s.twi.kept = some (s.twi.ptr, w, t)) (recent : since s t ≤ msTk 1) :
    twiGet s = (w, modTwi (fun t => { t with ptr := (t.ptr + 4) % 2 ^ 24, kept := none }) s) := by
  simp only [twiGet, kept, recent, and_self, if_true]

theorem twiGet_fetched (fresh : twiHasKept s = false) : (twiGet s).1 = (readReg .i2c s.twi.ptr s).1 := by
  unfold twiGet twiHasKept at *
  split
  next a w t kept =>
    rw [kept] at fresh
    have other : ¬ (a = s.twi.ptr ∧ since s t ≤ msTk 1) := by simpa using fresh
    dsimp only
    rw [if_neg other]
  next => rfl

end

/-- Settles O60: an address by what answers it, a write by its words and check byte, a read by its kept word. -/
theorem twoWireTargetAccess : Obligations.TwoWireTargetAccess := by
  refine ⟨fun s a2 a1 a0 d n b silent => ?silent, fun s l n b short => ⟨execTwiTargetWrite_short short, execTwiTargetRead_malformed (by omega) n⟩,
    fun s l n b long => execTwiTargetRead_malformed (by omega) n, fun s a2 a1 a0 d n b up enabled applying => ?applying,
    fun s a2 a1 a0 d n b up enabled free h => ?reset, fun s up enabled free settled => ⟨fun a2 a1 a0 d n b odd notReset => ?odd,
      fun a2 a1 a0 d b even notReset => ?write, fun n b notReset => ?readOn, fun a2 a1 a0 n b even notReset => ?read⟩,
    fun s v => ⟨rfl, rfl⟩, fun a d s noPec => twiData_plain_ready noPec (by simp), fun a d s b noPec short => ?short,
    fun a d s x noPec long => ⟨fun late => twiData_plain_late noPec long (stretched_eq_false late), fun sufficed stretch => ?stretched⟩,
    fun a d s b pec data bad => twiData_pec_bad pec data bad, fun a d s b pec data words fits check => twiData_pec_good pec data words fits check,
    fun n s => twiRead_served (by simp), fun n s x h => ?served, fun n s x fresh late => twiRead_late fresh (stretched_eq_false late),
    fun s a w t kept same recent => twiGet_kept (same ▸ kept) recent, fun s fresh => twiGet_fetched fresh⟩
  case silent =>
    rw [execTwiTargetWrite_eq, execTwiTargetRead_on, execTwiTargetRead_eq]
    iterate rw [twiAddressed_silent silent]
    exact ⟨rfl, rfl, rfl⟩
  case applying =>
    rw [execTwiTargetWrite_eq, execTwiTargetRead_on, execTwiTargetRead_eq]
    iterate rw [twiAddressed_applying up enabled applying]
    exact ⟨rfl, rfl, rfl⟩
  case reset =>
    rw [execTwiTargetWrite_eq, execTwiTargetRead_on, execTwiTargetRead_eq]
    iterate rw [twiAddressed_reset up enabled free h]
    exact ⟨rfl, rfl, rfl⟩
  case odd =>
    refine ⟨_, rfl, ?_, ?_⟩
    · rw [execTwiTargetWrite_eq, twiAddressed_answered up enabled free settled notReset, twiAligned_bad odd]; rfl
    · rw [execTwiTargetRead_eq, twiAddressed_answered up enabled free settled notReset, twiAligned_bad odd]; rfl
  case write => rw [execTwiTargetWrite_eq, twiAddressed_answered up enabled free settled notReset, twiAligned_good even]; rfl
  case readOn => rw [execTwiTargetRead_on, twiAddressed_answered up enabled free settled notReset]
  case read => rw [execTwiTargetRead_eq, twiAddressed_answered up enabled free settled notReset, twiAligned_good even]; rfl
  case short => rw [twiData_plain_short noPec short, twiData_plain_short noPec short]
  case stretched =>
    rw [twiData_plain_ready noPec (by rintro _ ⟨⟩; simp [stretched, sufficed, stretch]), twiData_plain_ready noPec (by simp)]
  case served =>
    rw [twiRead_served (by simp : ∀ within, TwiBusy.free = .fetch within → _)]
    refine twiRead_served ?_
    rintro _ ⟨⟩
    exact h.imp id fun ⟨sufficed, stretch⟩ => by simp [stretched, sufficed, stretch]

end Sys2Proof.Machine
end

section
/-!
The two-wire controller (R375 to R381): the host transfer and its end, lost arbitration and its retries, and a stuck bus.
-/

namespace Sys2Proof.Machine

section
variable {s : State} {p : Path} {v : Word}

/-! ### The host transfer -/

theorem execTwiXferStart_go (go : v.toNat.testBit 31 = true) :
    exec (.twiXferStart p v) s = .next (regGate 0x00A100 (writeXctl v) s) :=
  congrArg Host.Outcome.next (if_pos go)

theorem writeXctl_go (go : v.toNat.testBit 31 = true) : writeXctl v s = startXfer v s := if_pos go

theorem xferRefused_iff : xferRefused s v = true ↔ ((s.mode ≠ .run ∧ s.mode ≠ .safe ∧ s.mode ≠ .service) ∨ s.twi.xst = .busy ∨
    field v 0 7 = 0x58 + s.twi.addr ∨
    0 < field v 8 6 ∧ (eeAmode s = true ∧ field v 0 7 = 0x50 ∨ eeAmode s = false ∧ 0x50 ≤ field v 0 7 ∧ field v 0 7 ≤ 0x53)) := by
  unfold xferRefused
  cases eeAmode s <;> simp only [Bool.or_eq_true, Bool.and_eq_true, Bool.not_eq_true', Bool.or_eq_false_iff, beq_iff_eq, beq_eq_false_iff_ne,
    decide_eq_true_eq, Bool.false_eq_true, if_true, if_false, ne_eq, true_and, false_and, or_false, false_or, reduceCtorEq] <;> tauto

theorem execTwiXferDone_busy (r : XferEnd) (busy : s.twi.xst = .busy) : exec (.twiXferDone r) s = .next (match r with
    | .done read =>
      modTwi (fun t => xferEnd .done (field t.xctl 8 6 + read.length) 0 { t with xbuf := read ++ t.xbuf.drop read.length })
        (nacksSeen (twiRetryMax s) s)
    | .nack n => xferFails Cause.twiNack n (modTwi (fun t => { t with nNack := addSat 8 t.nNack (twiRetryMax s) }) s)
    | .arbLost n => xferFails Cause.twiArbLost n s
    | .stuck n => xferFails Cause.twiBusStuck n s) :=
  congrArg Host.Outcome.next (if_neg (not_not.mpr busy))

/-! ### Arbitration and a stuck bus -/

theorem execTwiRetry_again (waits : s.twi.retry = true) (left : s.twi.tries < twiRetryMax s) : exec .twiRetry s = .next
    (modTwi (fun t => { busFree t with tries := t.tries + 1, retry := false, ctl := t.xst == .busy, busBusy := true }) s) :=
  congrArg Host.Outcome.next ((if_neg (by simp [waits])).trans (if_pos left))

theorem execTwiRetry_fails (waits : s.twi.retry = true) (spent : twiRetryMax s ≤ s.twi.tries) : exec .twiRetry s =
    .next (raise .fabric Cause.twiArbLost 0xFF (twiFails Cause.twiArbLost (modTwi (fun t => { t with tries := 0 }) s))) :=
  congrArg Host.Outcome.next ((if_neg (by simp [waits])).trans (if_neg spent.not_gt))

theorem twiFails_transfer (cause : Nat) (busy : s.twi.xst = .busy) : twiFails cause s = modTwi (xferEnd .failed s.twi.xbytes cause) s :=
  if_pos busy

theorem twiFails_pages (cause : Nat) (idle : s.twi.xst ≠ .busy) :
    twiFails cause s = pagesFail cause (modTwi (fun t => { busFree t with ctl := false, retry := false }) s) :=
  if_neg idle

end

/-- Settles O59: a transfer by what allows it, its end by the outcome, and the loss of the bus by who controls it. -/
theorem twoWireControllerTransactions : Obligations.TwoWireControllerTransactions := by
  refine ⟨fun s p v h => ?idle, fun s p v up busy go => (execTwiXferStart_go go).trans (congrArg Host.Outcome.next (regGate_of_busy up busy _ _)),
    fun s p v up idle go may writes reads => ?starts, fun s p v up idle go refused => ?refused, fun s v => xferRefused_iff,
    fun s b busy => ?done, fun s n busy r c mem => ?fails, fun s r idle => congrArg Host.Outcome.next (if_pos idle),
    fun s b controls => ?loses, fun s b rests => congrArg Host.Outcome.next (if_neg (by simp [rests])), fun s waits left => ?again,
    fun s waits spent busy => ?spent, fun s waits spent idle => ?pages, fun s free => congrArg Host.Outcome.next (if_pos free),
    fun s controls busy => ?clock, fun s controls idle => ?clockPages, fun s rests => congrArg Host.Outcome.next (if_neg (by simp [rests])),
    fun s controls => congrArg Host.Outcome.next (if_pos controls), fun s rests => congrArg Host.Outcome.next (if_neg (by simp [rests]))⟩
  case idle =>
    by_cases go : v.toNat.testBit 31 = true
    · rw [execTwiXferStart_go go, regGate_of_no_path (h.resolve_left (by simp [go]))]
    · exact congrArg Host.Outcome.next (if_neg go)
  case starts =>
    refine ⟨startXfer v s, by rw [execTwiXferStart_go go, regGate_of_path up idle, writeXctl_go go], ?_⟩
    have allowed : ¬ (xferRefused s v || decide (32 < field v 8 6) || decide (32 < field v 16 6)) = true := by simp [may, writes, reads]
    rw [startXfer, if_neg allowed]
    exact ⟨rfl, rfl, emit_within ((Within.refl _ _).set_twi rfl) rfl⟩
  case refused =>
    rw [execTwiXferStart_go go, regGate_of_path up idle, writeXctl_go go]
    exact congrArg Host.Outcome.next (if_pos (by rcases refused with h | h | h <;> simp [h]))
  case done =>
    exact ⟨_, execTwiXferDone_busy (.done b) busy, rfl, rfl, rfl, rfl, rfl, rfl, rfl,
      modTwi_within (nacksSeen_within (Within.refl _ _) rfl) rfl⟩
  case fails =>
    refine ⟨_, execTwiXferDone_busy r busy, ?_⟩
    simp only [List.mem_cons, List.not_mem_nil, or_false, Prod.mk.injEq] at mem
    rcases mem with ⟨rfl, rfl⟩ | ⟨rfl, rfl⟩ | ⟨rfl, rfl⟩
    · exact ⟨rfl, rfl, rfl, rfl, rfl, (if_pos rfl).symm, rfl, xferFails_within (modTwi_within (Within.refl _ _) rfl) rfl⟩
    · exact ⟨rfl, rfl, rfl, rfl, rfl, (if_neg (by simp)).symm, rfl, xferFails_within (Within.refl _ _) rfl⟩
    · exact ⟨rfl, rfl, rfl, rfl, rfl, (if_neg (by simp)).symm, rfl, xferFails_within (Within.refl _ _) rfl⟩
  case loses =>
    refine ⟨_, congrArg Host.Outcome.next (if_pos controls), rfl, rfl, rfl, rfl, ?_, ?_, modTwi_within (Within.refl _ _) rfl⟩
    · rintro rfl
      rfl
    · rintro a rfl
      exact (Bool.decide_and _ _).symm
  case again =>
    exact ⟨_, execTwiRetry_again waits left, rfl, rfl, rfl, rfl, modTwi_within (Within.refl _ _) rfl⟩
  case spent =>
    refine ⟨_, execTwiRetry_fails waits spent, ?_⟩
    rw [twiFails_transfer (s := modTwi (fun t => { t with tries := 0 }) s) _ busy]
    exact ⟨rfl, rfl, rfl, rfl, raise_within (modTwi_within (modTwi_within (Within.refl _ _) rfl) rfl) rfl⟩
  case pages =>
    rw [execTwiRetry_fails waits spent, twiFails_pages (s := modTwi (fun t => { t with tries := 0 }) s) _ idle]
    rfl
  case clock =>
    refine ⟨_, congrArg Host.Outcome.next (if_pos controls), ?_⟩
    rw [twiFails_transfer _ busy]
    exact ⟨rfl, rfl, rfl, rfl, raise_within (modTwi_within (modTwi_within (Within.refl _ _) rfl) rfl) rfl⟩
  case clockPages =>
    refine ⟨_, rfl, (congrArg Host.Outcome.next (if_pos controls)).trans ?_⟩
    rw [twiFails_pages _ idle]
    rfl

end Sys2Proof.Machine
end

section
/-!
Told facts (R286 to R288): what an entry of each told message takes or refuses, and the age of a told value.
-/

namespace Sys2Proof.Machine

section
variable {i c k : Nat} {e : List Byte} {take : State → State} {r : ToldRes}

/-! ### A refused entry -/

theorem toldEntry_refused_counts : (toldEntry i k (some c) take r).ref = r.ref + 1 ∧ (toldEntry i k (some c) take r).ok = r.ok ∧
    (r.cause = 0 → (toldEntry i k (some c) take r).cause = c) ∧ Within [.fab] r.st (toldEntry i k (some c) take r).st :=
  ⟨rfl, rfl, fun none => if_pos none, .ite (raiseSrc_within (Within.refl _ _) rfl) (pzRaise_within (Within.refl _ _) rfl)⟩

theorem tempEntry_absent (absent : slotRefused r.st (byteAt e 0) = some c) :
    tempEntry i e r = toldEntry i (byteAt e 0) (some c) (takeEntry e r) r := by
  simp only [tempEntry, absent]
  rfl

theorem cellEntry_eq : cellEntry i e r = toldEntry i (byteAt e 0) (slotRefused r.st (byteAt e 0)) (tellCell (byteAt e 0) (leAt e 4 8)) r := rfl

/-! ### Setpoints of the host -/

/-- The entry is for an open EXT step, with fields that are legal for its channel. -/
def extLegal (e : List Byte) (s : State) : Bool :=
  let k := byteAt e 0
  (s.getCh k).rcp.isOpen && Stp.type (openStep s k) == StepT.ext
    && spLegal s k (SpMode.ofCode (byteAt e 1)) (leAt e 4 4) (leAt e 12 4) (leAt e 16 4)

/-- Queueing the setpoint of the entry, with the defaults of state `s`, for the next tick. -/
def queueSp (e : List Byte) (s : State) : State → State :=
  let k := byteAt e 0
  let sp := mkSp s k (SpMode.ofCode (byteAt e 1)) (byteAt e 2 == 1) (leAt e 4 4) (leAt e 8 4) (leAt e 12 4) (leAt e 16 4) (leAt e 20 4)
  modCh k fun c => { c with cmds := c.cmds ++ [(.host, sp, s.tb.run)] }

theorem extEntry_absent (absent : slotRefused r.st (byteAt e 0) = some c) :
    extEntry i e r = toldEntry i (byteAt e 0) (some c) (queueSp e r.st) r := by
  simp only [extEntry, absent]
  rfl

theorem extEntry_present (present : slotRefused r.st (byteAt e 0) = none) :
    extEntry i e r = toldEntry i (byteAt e 0) (if extLegal e r.st then none else some Cause.chCmdRefused) (queueSp e r.st) r := by
  simp only [extEntry, present]
  rfl

theorem extEntry_illegal (present : slotRefused r.st (byteAt e 0) = none) (illegal : extLegal e r.st = false) :
    extEntry i e r = toldEntry i (byteAt e 0) (some Cause.chCmdRefused) (queueSp e r.st) r := by
  rw [extEntry_present present, illegal]
  rfl

theorem extEntry_legal (present : slotRefused r.st (byteAt e 0) = none) (legal : extLegal e r.st = true) :
    extEntry i e r = { r with ok := r.ok + 1, st := queueSp e r.st r.st } := by
  rw [extEntry_present present, legal]
  rfl

end

/-! ### Ages -/

section
variable {s : State} {age : Int}

theorem ageU_configured {untimed : Bool} {frac lo : Nat} (h : untimed = true ∨ s.tb.trace = false) :
    ageU s untimed frac lo = (cfgF s 0x00701C 0 14 : Int) * 2 ^ 32 / 1000 := if_pos (by rcases h with h | h <;> simp [h])

theorem signN_wrapN_of_same_low {a b : Nat} (low : b = a % 2 ^ 32) : signN 32 (wrapN 32 ((a : Int) - b)) = 0 := by
  have whole : ((a : Int) - b) % 2 ^ 32 = 0 := by omega
  rw [wrapN, whole]
  rfl

/-- Within the second that both name, the age is the difference of the fractions. -/
theorem ageU_same_second {frac lo : Nat} (trace : s.tb.trace = true) (second : lo = s.tb.sec % 2 ^ 32) :
    ageU s false frac lo = (s.tb.frac : Int) - frac := by
  have timed : ageU s false frac lo = signN 32 (wrapN 32 ((s.tb.sec : Int) - lo)) * 2 ^ 32 + ((s.tb.frac : Int) - frac) :=
    if_neg (by simp [trace])
  rw [timed, signN_wrapN_of_same_low second]
  omega

theorem ageRefused_future (future : age * 1000 < -(2 ^ 32)) (now : Option Int) : ageRefused s age now = some Cause.pzToldFuture :=
  if_pos future

theorem ageRefused_past (past : -(2 ^ 32) ≤ age * 1000) (now : Option Int) : ageRefused s age now =
    match now with
    | some t => if takeTk s age ≤ t then some Cause.pzToldOld else none
    | none => none := if_neg past.not_gt

theorem budgetAns_taken {i : Nat} {b : List Byte} (taken : ageRefused s (ageU s (bitN (byteAt b 4) 0) (leAt b 8 4) (leAt b 12 4)) (s.sump.told.map (·.2)) = none) :
    budgetAns i b s = .ok (leBytes 2 1 ++ leBytes 2 0 ++ leBytes 2 0 ++ [0, 0] ++ leBytes 16 0)
      { s with sump := { s.sump with told := some (leAt b 0 4, takeTk s (ageU s (bitN (byteAt b 4) 0) (leAt b 8 4) (leAt b 12 4))), stale := false } } := by
  unfold budgetAns
  dsimp only
  rw [taken]
  rfl

/-! ### Inhibit and fixtures -/

/-- The inhibit in force, and the told one; its pauses and the end of lending leave both. -/
def Sump.inhibits (x : Sump) : Bool × Bool := (x.inh, x.inhTold)

theorem sumpPauses_inhibits (s : State) : (sumpPauses s).sump.inhibits = s.sump.inhibits :=
  congrArg Sump.inhibits (sumpPauses_within (Within.refl [.ch, .fab] s) (by decide) .sump (by decide))

theorem stopLending_inhibits (s : State) : (stopLending s).sump.inhibits = s.sump.inhibits := by
  have ends : (stopLending s).sump = (modSump (fun x => { x with stage := x.stage.map fun a => { a with lends := [] } }) s).sump :=
    loopCh_sump (popAll s) (fun _ c => { c with lend := 0 }) _
  rw [ends]
  rfl

theorem inhUpdate_told (s : State) :
    (inhUpdate s).sump.inhTold = s.sump.inhTold ∧ (s.sump.inhTold = true → (inhUpdate s).sump.inh = true) := by
  unfold inhUpdate
  dsimp only
  split
  · have both := (sumpPauses_inhibits _).trans (stopLending_inhibits (raise .timebase Cause.sumpInhibit 0xFF
      (modSump (fun x => { x with inh := true, inhPause := true, clrCls := none }) s)))
    exact ⟨congrArg Prod.snd both, fun _ => congrArg Prod.fst both⟩
  next keeps =>
    split
    next clears => exact ⟨rfl, fun told => by simp [told] at clears⟩
    next => exact ⟨rfl, fun told => by simpa [told] using keeps⟩

theorem tellInhibit_told (on : Bool) (s : State) : (tellInhibit on s).sump.inhTold = on ∧ (on = true → (tellInhibit on s).sump.inh = true) :=
  inhUpdate_told _

theorem getCh_tellFixture {k : Nat} (channel : k < 128) (there : Bool) (s : State) : (tellFixture k there s).getCh k =
    if !there && (s.getCh k).st.active then { s.getCh k with told := some there, toldLoss := true, lostNext := true }
    else { s.getCh k with told := some there } :=
  (getCh_modCh ..).trans (if_pos ⟨rfl, channel⟩)

theorem getCh_tellFixture_other {k j : Nat} (other : j ≠ k) (there : Bool) (s : State) : (tellFixture k there s).getCh j = s.getCh j :=
  (getCh_modCh ..).trans (if_neg fun h => other h.1.symm)

end

/-- Settles O43: an entry by what refuses its channel, its range and its age, and what a taken one leaves. -/
theorem toldFactsTakeEffect : Obligations.ToldFactsTakeEffect := by
  refine ⟨fun i e r absent f mem => ?absent, fun i e r k age present channel aged => ⟨fun low high young => ?taken, fun outside => ?outside⟩,
    fun i e r present => by rw [cellEntry_eq, present]; rfl, fun i b s age aged young => ?budget, fun s on => tellInhibit_told on s,
    fun s k channel => ⟨?there, ?absentFixture, fun active => ?lost, fun idle => ?stays, fun on j other => getCh_tellFixture_other other on s⟩,
    fun s frac lo => ⟨ageU_configured (.inl rfl), fun free => ?untraced, fun trace second => ageU_same_second trace second⟩,
    fun s age => ⟨ageRefused_future, fun past => ⟨ageRefused_past past none, fun t => ageRefused_past past (some t)⟩⟩,
    fun i e r k channel present => ⟨fun bad => ?illegal, fun isOpen ext legal => ?legal⟩⟩
  case absent =>
    simp only [List.mem_cons, List.not_mem_nil, or_false] at mem
    rcases mem with rfl | rfl | rfl
    · exact tempEntry_absent absent ▸ toldEntry_refused_counts
    · exact (cellEntry_eq.trans (by rw [absent])) ▸ toldEntry_refused_counts
    · exact extEntry_absent absent ▸ toldEntry_refused_counts
  case taken =>
    obtain rfl := channel
    obtain rfl : age = entryAge e r.st := aged
    rw [tempEntry_of_inside present low high, young]
    rfl
  case outside =>
    obtain rfl := channel
    rw [tempEntry_of_outside present outside]
    obtain ⟨ref, -, cause, frame⟩ := toldEntry_refused_counts (i := i) (k := byteAt e 0) (c := Cause.thmTRange) (take := takeEntry e r) (r := r)
    exact ⟨ref, cause, frame⟩
  case budget =>
    subst aged
    exact budgetAns_taken young
  case there => exact congrArg Channel.told ((getCh_tellFixture channel true s).trans (if_neg (by simp)))
  case absentFixture =>
    rw [getCh_tellFixture channel]
    split <;> rfl
  case lost => exact congrArg Channel.lostNext ((getCh_tellFixture channel false s).trans (if_pos (by simp [active])))
  case stays => rw [getCh_tellFixture channel, if_neg (by simp [idle])]
  case untraced => rw [ageU_configured (.inr free), ageU_configured (.inl rfl)]
  case illegal =>
    obtain rfl := channel
    have illegal : extLegal e r.st = false := by
      rcases bad with h | h | h <;> simp [extLegal, h]
    rw [extEntry_illegal present illegal]
    obtain ⟨ref, -, cause, frame⟩ := toldEntry_refused_counts (i := i) (k := byteAt e 0) (c := Cause.chCmdRefused) (take := queueSp e r.st) (r := r)
    exact ⟨ref, cause, frame .ch (by decide)⟩
  case legal =>
    obtain rfl := channel
    have small := (slotRefused_eq_none_iff.mp present).1
    rw [extEntry_legal present (by simp [extLegal, isOpen, ext, legal])]
    exact ⟨rfl, congrArg Channel.cmds ((getCh_modCh ..).trans (if_pos ⟨rfl, small⟩)), fun j other => (getCh_modCh ..).trans (if_neg fun h => other h.1.symm)⟩

end Sys2Proof.Machine
end

section
/-!
SERVICE access (R475 to R480): challenges and unlocks, failures and their back-off, entry to SERVICE and exit from it, the tap, and the
passwords of user regions.
-/

namespace Sys2Proof.Machine

section
variable {i u : Nat} {s : State} {x : Session} {d : List Byte}

/-! ### Failures -/

theorem nvmNext_refused (s : State) : (nvmNext s).nvm.refused = s.nvm.refused := by
  unfold nvmNext
  split
  · rfl
  · dsimp only
    split <;> rfl

theorem nvmRequest_refused (r : NvmReq) (s : State) : (nvmRequest r s).nvm.refused = s.nvm.refused := by
  unfold nvmRequest
  split
  · rfl
  · exact nvmNext_refused _

theorem setFails_refused (n : Nat) (s : State) : (setFails n s).nvm.refused = s.nvm.refused := by
  unfold setFails
  split
  · rfl
  · exact nvmRequest_refused _ _

theorem setFails_acc (n : Nat) (s : State) : (setFails n s).acc = { s.acc with fails := some n } := by
  unfold setFails
  split
  next same => rw [← same]
  next => exact nvmRequest_within (Within.refl [.nvm] _) rfl .acc (by decide)

theorem authFail_acc (s : State) :
    (authFail s).acc = { s.acc with fails := some (satN (failCount s + 1) 255), failTk := s.tb.run, waiting := true } := by
  have fails := setFails_acc (satN (failCount s + 1) 255) s
  exact congrArg (fun a : Acc => { a with failTk := s.tb.run, waiting := true }) fails

theorem authOk_acc (s : State) : (authOk s).acc = { s.acc with fails := some 0, waiting := false } :=
  congrArg (fun a : Acc => { a with waiting := false }) (setFails_acc 0 s)

theorem failCount_of_fails {n : Nat} (usable : s.nvm.refused = false) (fails : s.acc.fails = some n) : failCount s = n := by
  simp [failCount, usable, fails]

theorem failCount_authFail (usable : s.nvm.refused = false) : failCount (authFail s) = satN (failCount s + 1) 255 :=
  failCount_of_fails ((setFails_refused _ s).trans usable) (congrArg Acc.fails (authFail_acc s))

theorem backoffTk_none (rests : s.acc.waiting = false) : backoffTk s = 0 := if_neg (by simp [rests])

/-- At the failure itself the whole back-off remains: it doubles with each failure. -/
theorem backoffS_fresh {n : Nat} (waits : s.acc.waiting = true) (usable : s.nvm.refused = false) (fails : s.acc.fails = some (n + 1))
    (now : s.tb.run = s.acc.failTk) : backoffS s = Nat.min (2 ^ n) 1024 := by
  have whole : backoffTk s = Nat.min (2 ^ n) 1024 * 8192 := by
    rw [backoffTk, failCount_of_fails usable fails, if_pos ⟨waits, Nat.succ_pos n⟩, since, now]
    simp
  rw [backoffS, whole]
  omega

/-! ### Unlocks -/

theorem getSess_authOk (i : Nat) (s : State) : (authOk s).getSess i = s.getSess i :=
  getSess_of_link (authOk_within (Within.refl [.nvm, .acc] s) rfl .link (by decide)) i

theorem getSess_authFail (i : Nat) (s : State) : (authFail s).getSess i = s.getSess i :=
  getSess_of_link (authFail_within (Within.refl [.nvm, .acc, .fab] s) rfl .link (by decide)) i

theorem getSess_unlockSess (stands : s.getSess i = some x) (hmac : Bool) :
    (unlockSess i hmac s).getSess i = some { x with unlockTk := some s.tb.run, byHmac := hmac } :=
  (getSess_of_link (raise_link ..) i).trans (getSess_modSess_self ((getSess_authOk i s).trans stands))

theorem unlockSess_waiting (i : Nat) (hmac : Bool) (s : State) : (unlockSess i hmac s).acc.waiting = false :=
  congrArg Acc.waiting (authOk_acc s)

/-- The answer to an HMAC in time under the right nonce (R477). -/
def hmacRight (d n : List Byte) (tk : Nat) (x : Session) (s : State) : Prop :=
  since s tk < secTk 30 ∧ d = hmacSha256 (fuseBytes s 20 8) (n ++ leBytes 8 (unitId s) ++ leBytes 8 x.hostId ++ [0x02])

theorem accUnlockHmac_judged {n : List Byte} {tk : Nat} (may : methodOk s 1 20 = true) (free : backoffTk s = 0)
    (stands : s.getSess i = some x) (nonce : x.nonce = some (n, tk)) :
    (hmacRight d n tk x s ∧ accUnlockHmac i d s = { cause := 0, st := unlockSess i true (modSess i (fun y => { y with nonce := none }) s) }) ∨
    (¬ hmacRight d n tk x s ∧
      accUnlockHmac i d s = { cause := Cause.accAuthFail, st := authFail (modSess i (fun y => { y with nonce := none }) s) }) := by
  unfold accUnlockHmac
  rw [may, free, stands]
  dsimp only
  rw [nonce]
  dsimp only
  by_cases right : hmacRight d n tk x s
  · exact .inl ⟨right, if_pos right⟩
  · exact .inr ⟨right, if_neg right⟩

/-! ### Entry and exit -/

theorem accEnter_refused (h : svcAuth s ≠ 0 ∧ unlocked s i = false ∨ s.seq.st ≠ .on ∨ s.seq.wait ≠ none ∨ (s.mode ≠ .run ∧ s.mode ≠ .load) ∨
    (s.mode = .run ∧ s.tb.drain ≠ none) ∨ (s.mode = .load ∧ loadIdle s = false)) : accEnter i s = accRefuse Cause.accRefused s := by
  unfold accEnter
  split
  · rfl
  next permitted =>
    split
    · rfl
    next settled =>
      obtain ⟨on, free⟩ := not_or.mp settled
      rcases h with h | h | h | ⟨h, k⟩ | ⟨run, drains⟩ | ⟨load, loads⟩
      · exact absurd h permitted
      · exact absurd h on
      · exact absurd h free
      · rw [if_neg fun c => h c.1, if_neg fun c => k c.1]
      · rw [if_neg fun c => drains c.2, if_neg (by simp [run])]
      · rw [if_neg (by simp [load]), if_neg (by simp [loads])]

section
variable (may : svcAuth s = 0 ∨ unlocked s i = true) (on : s.seq.st = .on) (settled : s.seq.wait = none)
include may on settled

theorem accEnter_drains (run : s.mode = .run) (free : s.tb.drain = none) :
    accEnter i s = { cause := 0, st := hostDrain .service { s with acc := { s.acc with entering := some i } } } :=
  (if_neg (by rcases may with h | h <;> simp [h])).trans ((if_neg (by simp [on, settled])).trans (if_pos ⟨run, free⟩))

theorem accEnter_enters (load : s.mode = .load) (idle : loadIdle s = true) : accEnter i s = { cause := 0, st := enterService s } :=
  (if_neg (by rcases may with h | h <;> simp [h])).trans ((if_neg (by simp [on, settled])).trans
    ((if_neg (by simp [load])).trans (if_pos ⟨load, idle⟩)))

end

/-- SERVICE holds, its outputs do not follow yet. -/
def enteredService (s : State) : State :=
  { modAcc (fun a => { a with svcFrom := some s.mode, entering := none, stageOp := false }) (abortAll s) with mode := .service }

theorem enterService_mode (s : State) : (enterService s).mode = .service := (raise_mode ..).trans (updateSens_mode (enteredService s))

theorem enterService_acc (s : State) : (enterService s).acc = { s.acc with svcFrom := some s.mode, entering := none, stageOp := false } := by
  have aborted : (abortAll s).acc = s.acc := abortAll_within (Within.refl [.fe] s) rfl .acc (by decide)
  exact (raise_acc ..).trans ((updateSens_acc (enteredService s)).trans
    (congrArg (fun a : Acc => { a with svcFrom := some s.mode, entering := none, stageOp := false }) aborted))

theorem exitService_acc (s : State) : (exitService s).acc = { s.acc with svcFrom := none, stageOp := false, tapOpen := false } := by
  have left : (goMode (s.acc.svcFrom.getD .run) (abortAll (modAcc (fun a => { a with svcFrom := none }) s))).acc = { s.acc with svcFrom := none } :=
    goMode_within (abortAll_within (Within.refl [.fe, .mode, .ch] _) rfl) rfl .acc (by decide)
  rw [exitService_eq]
  exact (raise_acc ..).trans ((updateSens_acc _).trans (congrArg (fun a : Acc => { a with stageOp := false, tapOpen := false }) left))

theorem exitService_locks (s : State) : ∀ x ∈ (exitService s).link.sess, ∀ y, x = some y → y.unlockTk = none := by
  rw [exitService_link]
  rintro _ mem y rfl
  obtain ⟨z, -, ended⟩ := List.mem_map.mp mem
  obtain ⟨w, -, rfl⟩ := Option.map_eq_some_iff.mp ended
  rfl

/-! ### User regions -/

section
variable (small : u < 8) (user : (regionOf s u).kind = 2)
include small user

theorem region_stands : ¬ (8 ≤ u ∨ (regionOf s u).kind ≠ 2) := by
  rintro (h | h)
  · omega
  · exact h user

theorem accRegionUnlock_opens (free : backoffTk s = 0) (right : regionDigest s u d = (regionOf s u).pwd) :
    accRegionUnlock i u d s = { cause := 0, st := modSess i (fun x => { x with regions := setBitN x.regions u true }) (authOk s) } :=
  (if_neg (region_stands small user)).trans ((if_neg (by omega)).trans (if_pos right))

theorem accRegionUnlock_fails (free : backoffTk s = 0) (wrong : regionDigest s u d ≠ (regionOf s u).pwd) :
    accRegionUnlock i u d s = { cause := Cause.accAuthFail, st := authFail s } :=
  (if_neg (region_stands small user)).trans ((if_neg (by omega)).trans (if_neg wrong))

theorem accRegionPwd_sets : accRegionPwd u d s =
    { cause := 0,
      st := putRegion u 2 (regionOf s u).flags (regionOf s u).base (regionOf s u).pages (if allZero d = true then [] else regionDigest s u d) s } := by
  rw [← user]
  exact if_neg (region_stands small user)

end
end

theorem accRefuse_cause (c : Nat) (s : State) :
    (accRefuse c s).cause = c ∧ (∃ e ∈ (accRefuse c s).st.fab.events, e.cause = c) ∧ Within [.fab] s (accRefuse c s).st :=
  ⟨rfl, raised_raise .., raise_within (Within.refl _ _) rfl⟩

theorem slice_middle {a b c : List Byte} {o n : Nat} (place : a.length = o) (width : b.length = n) : slice (a ++ b ++ c) o n = b := by
  have taken : ((a ++ b ++ c).drop o).take n = b := by
    rw [List.append_assoc, List.drop_left' place, List.take_left' width]
  rw [slice, taken]
  simp [width]

theorem accChallenge_eq (i : Nat) (s : State) : accChallenge i s =
    { cause := 0, data := (freeBytes 16 s).1 ++ leBytes 8 (unitId s) ++ (leBytes 1 (svcAuth s) ++ [0, 0, 0]),
      st := modSess i (fun x => { x with nonce := some ((freeBytes 16 s).1, s.tb.run) }) (freeBytes 16 s).2 } := by
  rw [← List.append_assoc]
  rfl

section
variable {i : Nat} {s : State} {x : Session} (stands : s.getSess i = some x)
include stands

theorem accTap_closes : accTap i false s = { cause := 0, st := { s with acc := { s.acc with tapOpen := false } } } := by
  simp only [accTap, stands]
  rfl

theorem accTap_refused (h : x.byHmac = false ∨ unlocked s i = false) : accTap i true s = accRefuse Cause.accRefused s := by
  simp only [accTap, stands]
  exact (if_neg (by decide)).trans (if_neg (by rcases h with h | h <;> simp [h]))

theorem accTap_opens (hmac : x.byHmac = true) (live : unlocked s i = true) :
    accTap i true s = { cause := 0, st := raise .fabric Cause.accTapOpen 0xFF (modAcc (fun a => { a with tapOpen := true }) s) } := by
  simp only [accTap, stands]
  exact (if_neg (by decide)).trans (if_pos (by simp [hmac, live]))

end

/-- Settles O46: each operation by its conditions, and the session, the failure count and SERVICE as it leaves them. -/
theorem serviceAccessIsGuarded : Obligations.ServiceAccessIsGuarded := by
  refine ⟨fun i s x stands four lengths => ?challenge, fun i d s => ⟨fun bad => if_pos (by simp [bad]), fun may waits => ?hmacWaits,
      fun bad => if_pos (by simp [bad]), fun may waits => ?pwdWaits, fun may free right => ?pwdRight, fun may free wrong => ?pwdWrong⟩,
    accRefuse_cause, fun i h s x stands four lengths => ⟨getSess_unlockSess stands h, unlockSess_waiting i h s, raised_raise ..⟩,
    fun s usable => failCount_authFail usable,
    fun s => ⟨congrArg Acc.waiting (authFail_acc s), congrArg Acc.failTk (authFail_acc s), raised_raise ..⟩,
    fun s n waits usable fails now => backoffS_fresh waits usable fails now, fun s rests => backoffTk_none rests,
    fun i d s x n tk may free stands nonce four => ?nonce, fun i s h => accEnter_refused h,
    fun i s may on settled run free => accEnter_drains may on settled run free,
    fun i s may on settled load idle => ⟨accEnter_enters may on settled load idle, enterService_mode s, ?svcFrom, ?stageOp, raised_raise ..⟩,
    fun s service => ⟨if_pos service, exitService_mode s, congrArg Acc.tapOpen (exitService_acc s), congrArg Acc.svcFrom (exitService_acc s),
      exitService_locks s, raised_raise ..⟩,
    fun i s x stands h => accTap_refused stands h, fun i s x stands hmac live => ?tap, fun i s x stands => accTap_closes stands,
    fun i u d s x small user free right stands four lengths => ?region, fun i u d s small user free wrong => accRegionUnlock_fails small user free wrong,
    fun i u d s small user waits => (if_neg (region_stands small user)).trans (if_pos waits), fun i u d s h => ⟨if_pos h, if_pos h⟩,
    fun u d s small user => ?pwd, fun i u s => ⟨fun h => if_pos h, fun h => if_neg (by omega)⟩⟩
  case challenge =>
    rw [accChallenge_eq]
    have width := length_freeBytes 16 s
    refine ⟨rfl, by simp [width, length_leBytes], slice_middle width (length_leBytes 8 _), ?_, ?_⟩
    · have place : ((freeBytes 16 s).1 ++ leBytes 8 (unitId s)).length = 24 := by rw [List.length_append, width, length_leBytes]
      rw [byteAt, leAt, List.drop_left' place, List.take_left' (length_leBytes 1 _), leNat_leBytes, pow_one]
    · rw [List.append_assoc, List.take_left' width]
      exact getSess_modSess_self stands
  case hmacWaits => exact (if_neg (by simp [may])).trans (if_pos waits)
  case pwdWaits => exact (if_neg (by simp [may])).trans (if_pos waits)
  case pwdRight => exact (if_neg (by simp [may])).trans ((if_neg (by omega)).trans (if_pos right))
  case pwdWrong => exact (if_neg (by simp [may])).trans ((if_neg (by omega)).trans (if_neg wrong))
  case nonce =>
    have used : (modSess i (fun y => { y with nonce := none }) s).getSess i = some { x with nonce := none } := getSess_modSess_self stands
    rcases accUnlockHmac_judged (d := d) may free stands nonce with ⟨right, e⟩ | ⟨wrong, e⟩ <;> rw [e]
    · rw [getSess_unlockSess used]
      exact ⟨Option.some_ne_none _, rfl, fun _ => right, fun _ => rfl⟩
    · rw [getSess_authFail, used]
      exact ⟨Option.some_ne_none _, rfl, fun c => absurd c (by decide : Cause.accAuthFail ≠ 0), fun c => absurd c wrong⟩
  case svcFrom => rw [enterService_acc, load]
  case stageOp => rw [enterService_acc]
  case tap =>
    rw [accTap_opens stands hmac live]
    exact ⟨rfl, rfl, raised_raise ..⟩
  case region =>
    exact ⟨_, accRegionUnlock_opens small user free right, congrArg Acc.waiting (authOk_acc s),
      getSess_modSess_self ((getSess_authOk i s).trans stands)⟩
  case pwd =>
    rw [accRegionPwd_sets small user]
    exact ⟨rfl, rfl⟩

end Sys2Proof.Machine
end

section
/-!
The rings (R290 to R297): acknowledgements, subscriptions, replays, pushed records, the input rings, sending and disabling.
-/

namespace Sys2Proof.Machine

section
variable {ep : Endpoint} {m : List Byte} {i r : Nat} {s : State} {x : Session} {b : List Byte}

theorem getRing_modRing_self (small : r < 64) (f : Ring → Ring) : (modRing r f s).getRing r = f (s.getRing r) :=
  (getRing_modRing ..).trans (if_pos ⟨rfl, small⟩)

theorem getRing_modRing_other {q : Nat} (other : q ≠ r) (f : Ring → Ring) : (modRing r f s).getRing q = s.getRing q :=
  (getRing_modRing ..).trans (if_neg fun h => other h.1.symm)

/-! ### Acknowledgements -/

theorem exec_ringAck (type : Pz.type m = 0x42) : exec (.ringAck ep m) s = .next (ackAct ep m s) :=
  congrArg Host.Outcome.next (ofType_same type _ s)

theorem ackAct_unheard (deaf : pzHeard s ep = false) : ackAct ep m s = s := if_pos (by simp [deaf])

theorem ackAct_discarded (heard : pzHeard s ep = true) (h : sessOf s ep = none ∨ ∃ i x, sessOf s ep = some i ∧ s.getSess i = some x ∧
    (Pz.whole m = false ∨ Pz.sess m ≠ i)) : ackAct ep m s = pzDiscard s := by
  unfold ackAct
  rw [if_neg (by simp [heard])]
  rcases h with none_of | ⟨i, x, sess, -, broken⟩
  · rw [none_of]
  · rw [sess]
    exact if_pos (by rcases broken with h | h <;> simp [h])

/-- The acknowledgement is of a reliable ring that the session owns, and of records that were sent. -/
def ackGood (i : Nat) (b : List Byte) (s : State) : Bool :=
  let g := s.getRing (byteAt b 0)
  decide (byteAt b 0 < 64) && ringKind (byteAt b 0) == 1 && g.owner == some i && decide (rsnGap g.acked (leAt b 4 4) ≤ rsnGap g.acked g.next)

theorem ackAct_from (h : FromSession s ep m i x) : ackAct ep m s =
    if !pzHeadOk m || !ackForm (Pz.payload m) then
      pzSend ep (pzMsg (heardNow i s) 0x42 i 3 (Pz.seq m) (pzRefusal Cause.pzBad 0)) (pzRaise (some i) Cause.pzBad none (heardNow i s))
    else if ackGood i (Pz.payload m) s then ackRing (byteAt (Pz.payload m) 0) (leAt (Pz.payload m) 4 4) (heardNow i s)
    else modLink (fun l => { l with nAck := incSat 8 l.nAck }) (heardNow i s) := by
  obtain ⟨heard, sess, -, whole, own⟩ := h
  unfold ackAct
  simp only [heard, sess, whole, own, Bool.not_true, Bool.false_eq_true, if_false, bne_self_eq_false, Bool.or_self]
  rfl

theorem ackRing_self {a : Nat} (small : r < 64) :
    ((ackRing r a s).getRing r).acked = a ∧ ((ackRing r a s).getRing r).next = (s.getRing r).next ∧
      ∀ y ∈ (s.getRing r).recs, rsnGap (s.getRing r).acked a ≤ rsnGap (s.getRing r).acked y.rsn → y ∈ ((ackRing r a s).getRing r).recs := by
  rw [ackRing, getRing_modRing_self small]
  split
  next same => exact ⟨same, rfl, fun y mem _ => mem⟩
  next => exact ⟨rfl, rfl, fun y mem later => List.mem_filter.mpr ⟨mem, by simpa using later⟩⟩

/-! ### Subscriptions -/

/-- The session subscribes to the ring. -/
def subscribed (i r : Nat) (s : State) : State := modSess i (fun y => { y with subs := setBitN y.subs r true }) s

theorem subscribe_input (input : ringKind r = 2) (stream own : Bool) : subscribe i r stream own x s = none := by
  unfold subscribe
  simp only [input]

section
variable {own : Bool} (kind : ringKind r = 0)
include kind

theorem subscribe_stream_taken (h : linkTel s ≠ 0 ∨ (s.getRing r).stream.isSome = true ∨ x.telPort = 0) :
    subscribe i r true own x s = none := by
  unfold subscribe
  simp only [kind]
  exact (if_neg (by decide)).trans (if_pos h)

theorem subscribe_stream_free (tel : linkTel s = 0) (free : (s.getRing r).stream = none) (port : x.telPort ≠ 0) :
    subscribe i r true own x s = some (modRing r (fun y => { y with stream := some i, sendNext := y.next }) (subscribed i r s)) := by
  unfold subscribe
  simp only [kind]
  exact (if_neg (by decide)).trans (if_neg (by simp [tel, free, port]))

end

section
variable {stream : Bool} (kind : ringKind r = 1)
include kind

theorem subscribe_ring_free (free : (s.getRing r).owner = none) (may : r < 52 ∨ 56 ≤ r ∨ r = 52 + i) :
    subscribe i r stream true x s = some (ownRing r i (subscribed i r s)) := by
  unfold subscribe
  simp only [kind]
  refine (if_neg (by decide)).trans ((if_neg (by simp [free])).trans (if_neg ?_))
  rw [free]
  rintro (h | ⟨low, high, other⟩)
  · cases h
  · omega

theorem subscribe_ring_taken (other : (s.getRing r).owner ≠ some i) (taken : (s.getRing r).owner ≠ none) :
    subscribe i r stream true x s = none := by
  unfold subscribe
  simp only [kind]
  exact (if_neg (by decide)).trans ((if_neg other).trans (if_pos (.inl (Option.isSome_iff_ne_none.mpr taken))))

end

/-! ### Replays -/

theorem replayAns_wrong (h : 64 ≤ byteAt b 0 ∨ ringKind (byteAt b 0) ≠ 0) : replayAns i x b s = .refuse Cause.pzRingBad none s := if_pos h

/-- How many records a replay from a held record sends. -/
def replayCount (b : List Byte) (s : State) : Nat := Nat.min (leAt b 8 4) (rsnGap (leAt b 4 4) (s.getRing (byteAt b 0)).next)

theorem replayAns_held (small : byteAt b 0 < 64) (kind : ringKind (byteAt b 0) = 0)
    (held : rsnBefore (leAt b 4 4) (ringOldest (s.getRing (byteAt b 0))) = false)
    (inside : rsnGap (ringOldest (s.getRing (byteAt b 0))) (leAt b 4 4) ≤ rsnGap (ringOldest (s.getRing (byteAt b 0))) (s.getRing (byteAt b 0)).next)
    (port : x.telPort ≠ 0) :
    replayAns i x b s = .ok (leBytes 4 (ringOldest (s.getRing (byteAt b 0))) ++ leBytes 4 (s.getRing (byteAt b 0)).next ++ leBytes 4 (replayCount b s))
      (modSess i (fun y => { y with replay := if replayCount b s = 0 then none else some (byteAt b 0, leAt b 4 4, replayCount b s) }) s) := by
  unfold replayAns
  rw [if_neg (by rw [not_or]; exact ⟨not_le.mpr small, not_not.mpr kind⟩)]
  simp only [held, Bool.false_eq_true, if_false, inside, if_true, port, List.append_nil]
  rfl

/-! ### Pushed records -/

theorem pushAns_wrong (h : byteAt b 0 ≠ 60 + i ∨ (s.getRing (byteAt b 0)).en = false) : pushAns i b s = .refuse Cause.pzRingBad none s := if_pos h

theorem pushAns_gap (own : byteAt b 0 = 60 + i) (enabled : (s.getRing (60 + i)).en = true)
    (gap : rsnBefore (s.getRing (60 + i)).next (leAt b 4 4) = true) :
    pushAns i b s = .refuse Cause.pzPushGap (some (s.getRing (60 + i)).next) s := by
  unfold pushAns
  rw [own]
  exact (if_neg (by simp [enabled])).trans (if_pos gap)

/-- The pushed records enter one by one. -/
def pushAll (i : Nat) (b : List Byte) (s : State) : State :=
  forEach (upto (byteAt b 1)) (fun j u => pushOne (60 + i) ((leAt b 4 4 + j) % 2 ^ 32) (slice b (8 + 64 * j) 64) u) s

theorem pushAns_takes (own : byteAt b 0 = 60 + i) (enabled : (s.getRing (60 + i)).en = true)
    (next : rsnBefore (s.getRing (60 + i)).next (leAt b 4 4) = false) :
    pushAns i b s = .ok (leBytes 4 ((pushAll i b s).getRing (60 + i)).next ++
      leBytes 4 ((ringSize (pushAll i b s) (60 + i) - ringUsed ((pushAll i b s).getRing (60 + i))) / 64)) (pushAll i b s) := by
  unfold pushAns
  rw [own]
  exact (if_neg (by simp [enabled])).trans (if_neg (by simp [next]))

theorem pushOne_kept {n : Nat} (h : (s.getRing r).next ≠ n ∨ ringSize s r < ringUsed (s.getRing r) + 64) : pushOne r n b s = s :=
  if_neg (by rintro ⟨h1, h2⟩; rcases h with h | h; exacts [h h1, by omega])

/-- A record joins an input ring that is enabled and has room. -/
theorem pushOne_taken (input : 60 ≤ r) (size : b.length = 64) (enabled : (s.getRing r).en = true)
    (room : ringUsed (s.getRing r) + 64 ≤ ringSize s r) : pushOne r (s.getRing r).next b s =
      modRing r (fun _ => { s.getRing r with recs := (s.getRing r).recs ++ [{ rsn := (s.getRing r).next, bytes := b }],
                                             next := ((s.getRing r).next + 1) % 2 ^ 32 }) s := by
  have kind : ringKind r ≠ 0 := by
    unfold ringKind
    split
    · omega
    · split <;> decide
  rw [pushOne, if_pos ⟨rfl, room⟩]
  unfold ringPush
  simp only [enabled, Bool.and_true, Bool.not_true, Bool.false_and, Bool.false_eq_true, if_false, kind, size, ringUsed] at room ⊢
  rw [if_pos room]

/-! ### Input rings -/

/-- The input ring without its front record. -/
def consumed (i : Nat) (x : RingRec) (rest : List RingRec) (s : State) : State :=
  modRing (60 + i) (fun g => { g with recs := rest, acked := (x.rsn + 1) % 2 ^ 32 }) s

theorem exec_inputRingConsume {i : Fin 4} {x : RingRec} {rest : List RingRec} (up : s.mode.up = true)
    (front : (s.getRing (60 + i.val)).recs = x :: rest) : exec (.inputRingConsume i) s =
      .next (if 1 ≤ Tc.kind x.bytes ∧ Tc.kind x.bytes ≤ 6 then modTb (fun t => { t with tcIn := t.tcIn ++ [(i.val, x.rsn, x.bytes)] }) (consumed i x rest s)
        else tcJudge i x.rsn x.bytes (consumed i x rest s)) := by
  have run : exec (.inputRingConsume i) s = execInputRingConsume i s := rfl
  rw [run, execInputRingConsume]
  simp only [front]
  rw [if_pos up]
  split <;> rfl

theorem exec_inputRingConsume_idle {i : Fin 4} (h : s.mode.up = false ∨ (s.getRing (60 + i.val)).recs = []) :
    exec (.inputRingConsume i) s = .next s := by
  have run : exec (.inputRingConsume i) s = execInputRingConsume i s := rfl
  rw [run, execInputRingConsume]
  split
  · rfl
  next x rest front => exact if_neg (by rcases h with h | h <;> simp [h] at front ⊢)

end

/-! ### Sending -/

section
variable {r : Fin 64} {s : State}

theorem exec_ringDataSend_runs (runs : linkRuns s = true) (addressed : s.link.ipNow ≠ 0) : exec (.ringDataSend r) s =
    match ringKind r with
    | 0 => .next (forEach (upto 4) (sendReplay r) (sendStream r s))
    | 1 => .next (sendReliable r s)
    | _ => .next s := if_neg (by simp [runs, addressed])

theorem exec_ringDataSend_idle (h : linkRuns s = false ∨ s.link.ipNow = 0) : exec (.ringDataSend r) s = .next s :=
  if_pos (by rcases h with h | h <;> simp [h])

theorem exec_ringDataSend_input (input : ringKind r = 2) : exec (.ringDataSend r) s = .next s := by
  by_cases silent : linkRuns s = false ∨ s.link.ipNow = 0
  · exact exec_ringDataSend_idle silent
  · obtain ⟨runs, addressed⟩ := not_or.mp silent
    rw [exec_ringDataSend_runs (Bool.not_eq_false _ ▸ runs) addressed, input]
    rfl

theorem exec_ringDataSend_stream (runs : linkRuns s = true) (addressed : s.link.ipNow ≠ 0) (stream : ringKind r = 0) :
    exec (.ringDataSend r) s = .next (forEach (upto 4) (sendReplay r) (sendStream r s)) := by
  rw [exec_ringDataSend_runs runs addressed, stream]
  rfl

theorem exec_ringDataSend_reliable (runs : linkRuns s = true) (addressed : s.link.ipNow ≠ 0) (reliable : ringKind r = 1) :
    exec (.ringDataSend r) s = .next (sendReliable r s) := by
  rw [exec_ringDataSend_runs runs addressed, reliable]
  rfl

/-- A retransmission of a reliable ring to its owner is due: something is not acknowledged for its delay (R292). -/
def retransmits (r : Nat) (s : State) : Bool :=
  linkRuns s && ringKind r == 1 && (s.getRing r).sendNext != (s.getRing r).acked && decide (msTk (s.getRing r).rto ≤ since s (s.getRing r).ackTk)

/-- The records that are not acknowledged go to the owner again. -/
def sentAgain (r i : Nat) (s : State) : State :=
  sendData i false r 2 (fitRecs (1452 - 16) (rsnGap (s.getRing r).acked (s.getRing r).sendNext) (recsFrom (s.getRing r) (s.getRing r).acked)) s

theorem exec_ringRetransmit {i : Nat} (owner : (s.getRing r).owner = some i) (due : retransmits r s = true) :
    ∃ n, exec (.ringRetransmit r) s = .next (modRing r
      (fun y => { y with retx := addSat 32 y.retx n, rto := Nat.min (2 * y.rto) 1000, ackTk := s.tb.run }) (sentAgain r i s)) := by
  have run : exec (.ringRetransmit r) s = execRingRetransmit r s := rfl
  rw [run, execRingRetransmit]
  simp only [owner]
  exact ⟨_, if_pos due⟩

theorem exec_ringRetransmit_idle (h : (s.getRing r).owner = none ∨ retransmits r s = false) : exec (.ringRetransmit r) s = .next s := by
  have run : exec (.ringRetransmit r) s = execRingRetransmit r s := rfl
  rw [run, execRingRetransmit]
  dsimp only
  split
  next i owner => exact if_neg (Bool.eq_false_iff.mp (h.resolve_left (by simp [owner])))
  next => rfl

end

theorem getRing_disableRing {r : Nat} (small : r < 64) (s : State) : (disableRing r s).getRing r =
    { s.getRing r with en := false, busy := if (s.getRing r).en then recordOpen s r else (s.getRing r).busy } :=
  getRing_modRing_self small _

theorem linkWcr_updateWcr (s : State) : (updateWcr s).link.wcr = linkWcr (updateWcr s) := rfl

/-- Settles O44: an acknowledgement by what it fits, a subscription by who holds the ring, records by the room, and sending by ring kind. -/
theorem ringsMoveTheirRecords : Obligations.RingsMoveTheirRecords := by
  refine ⟨fun s ep m h => ?silent, fun s ep m type heard h => ?discarded, fun s ep m i x b g u from_ type payload ring heard => ?ack,
    fun i r stream own x s input => subscribe_input input stream own,
    fun i r own x s kind => ⟨fun h => subscribe_stream_taken kind h, fun tel free port small => ⟨_, subscribe_stream_free kind tel free port, ?stream, ?next⟩⟩,
    fun i r stream x s kind small free may => ⟨_, subscribe_ring_free kind free may, congrArg Ring.owner (getRing_modRing_self small _)⟩,
    fun i r stream x s kind other taken => subscribe_ring_taken kind other taken, fun i x b s h => replayAns_wrong h,
    fun i x b s g small kind ring held inside port => ?replay, fun i b s h => pushAns_wrong h,
    fun i b s own enabled gap => pushAns_gap own enabled gap, fun i b s t own enabled next all => ?push, fun r n b s h => pushOne_kept h,
    fun r b s input small size enabled room => ?pushOne, fun i s h => exec_inputRingConsume_idle h, fun i s x rest up front => ?consume,
    fun r s h => ?sendIdle, fun r s runs addressed => ⟨exec_ringDataSend_stream runs addressed, exec_ringDataSend_reliable runs addressed⟩,
    fun r s h => ?resendIdle, fun r s i runs kind owner more late => ?resend, fun p r s off => congrArg Host.Outcome.next (regGate_of_no_path off _ _),
    fun p r s up busy => congrArg Host.Outcome.next (regGate_of_busy up busy _ _), fun p r s up idle => ?disable⟩
  case silent =>
    by_cases type : Pz.type m = 0x42
    · rw [exec_ringAck type, ackAct_unheard (h.resolve_left (not_not.mpr type))]
    · exact congrArg Host.Outcome.next (ofType_other type _ s)
  case discarded => rw [exec_ringAck type, ackAct_discarded heard h]; rfl
  case ack =>
    subst payload ring heard
    rw [exec_ringAck type, ackAct_from from_]
    refine ⟨fun bad => ?_, fun head form small kind owner sent => ?_, fun head form h => ?_⟩
    · exact congrArg Host.Outcome.next (if_pos (by rcases bad with h | h <;> simp [h]))
    · obtain ⟨acked, next, kept⟩ := ackRing_self (a := leAt (Pz.payload m) 4 4) (s := heardNow i s) small
      refine ⟨_, congrArg Host.Outcome.next ((if_neg (by simp [head, form])).trans (if_pos ?_)), acked, next, kept,
        fun r other => (getRing_modRing_other other _), modRing_within (modSess_within (Within.refl _ _) rfl) rfl⟩
      simp [ackGood, small, kind, owner, sent]
    · refine congrArg Host.Outcome.next ((if_neg (by simp [head, form])).trans (if_neg ?_))
      simp only [ackGood, Bool.and_eq_true, decide_eq_true_eq, beq_iff_eq]
      rintro ⟨⟨⟨small, kind⟩, owner⟩, sent⟩
      rcases h with h | h | h | h
      · omega
      · exact h kind
      · exact h owner
      · omega
  case stream => exact congrArg Ring.stream (getRing_modRing_self small _)
  case next => exact congrArg Ring.sendNext (getRing_modRing_self small _)
  case replay =>
    subst ring
    exact ⟨_, rfl, replayAns_held small kind held inside port⟩
  case push =>
    subst all
    exact pushAns_takes own enabled next
  case pushOne =>
    refine ⟨_, pushOne_taken input size enabled room, ?_, ?_, fun q other => getRing_modRing_other other _⟩
    · rw [getRing_modRing_self small]
    · rw [getRing_modRing_self small, List.map_append]
      rfl
  case consume =>
    refine ⟨consumed i x rest s, ?_, ?_, modRing_within (Within.refl _ _) rfl, exec_inputRingConsume up front⟩
    · exact congrArg Ring.recs (getRing_modRing_self (by omega) _)
    · exact congrArg Ring.acked (getRing_modRing_self (by omega) _)
  case sendIdle =>
    rcases h with h | h | h
    · exact exec_ringDataSend_idle (.inl h)
    · exact exec_ringDataSend_idle (.inr h)
    · exact exec_ringDataSend_input h
  case resendIdle =>
    refine exec_ringRetransmit_idle (h.imp_right fun h => ?_)
    rcases h with h | h | h | h <;> simp [retransmits, h]
  case resend =>
    obtain ⟨n, run⟩ := exec_ringRetransmit (i := i) owner (by simp [retransmits, runs, kind, more, late])
    have sends : Within [.link, .out] s (sentAgain r i s) := sendData_within (Within.refl _ _) rfl
    have rings (q : Nat) : (sentAgain r i s).getRing q = s.getRing q := getRing_of_ring (sends .ring (by decide)) q
    refine ⟨_, run, ?_, ?_, ?_, ?_, fun q other => (getRing_modRing_other other _).trans (rings q), modRing_within (sends.mono rfl) rfl⟩ <;>
      rw [getRing_modRing_self r.isLt, rings]
  case disable =>
    refine ⟨disableRing r s, congrArg Host.Outcome.next (regGate_of_path up idle _ _), ?_, ?_, fun enabled => ?_, linkWcr_updateWcr _,
      fun q other => getRing_modRing_other other _⟩
    · rw [getRing_disableRing r.isLt]
    · rw [getRing_disableRing r.isLt]
    · rw [getRing_disableRing r.isLt]
      exact if_pos enabled

end Sys2Proof.Machine
end

section
/-!
Power-down (R388 to R394): rail by rail, what starts it and what waits for it, the loss of VIN_AUX and its early warning, and a rail that
leaves its window.
-/

namespace Sys2Proof.Machine

/-! ### Rails -/

section
variable {r : Nat} {s t : State}

theorem getRail_of_seq (h : t.seq = s.seq) (r : Nat) : t.getRail r = s.getRail r := by simp [State.getRail, h]

theorem getRail_modRail_self (small : r < 8) (f : Rail → Rail) : (modRail r f s).getRail r = f (s.getRail r) :=
  (getRail_modRail ..).trans (if_pos ⟨rfl, small⟩)

theorem getRail_modRail_other {q : Nat} (other : q ≠ r) (f : Rail → Rail) : (modRail r f s).getRail q = s.getRail q :=
  (getRail_modRail ..).trans (if_neg fun h => other h.1.symm)

/-- Slot r disabled, the PWM pins still driven. -/
def railCut (r : Nat) (s : State) : State :=
  modRail r (fun x => { x with en := false, good := false }) (modSeq (fun q => { q with slot := r }) s)

/-- Every PWM pin high-impedance. -/
def pinsOut (s : State) : State := forEach (upto 128) (modPh · fun p => { p with pwm := .hiZ, onTime := false }) s

theorem railOff_eq (r : Nat) (s : State) : railOff r s = if r = 1 then pinsOut (railCut r s) else railCut r s := rfl

theorem pinsOut_within (s : State) : Within [.ph] s (pinsOut s) := by
  unfold pinsOut
  exact loopPh_within (upto 128) (fun _ p => { p with pwm := .hiZ, onTime := false }) s

theorem railOff_seq (r : Nat) (s : State) : (railOff r s).seq = (railCut r s).seq := by
  rw [railOff_eq]
  split
  · exact pinsOut_within _ .seq (by decide)
  · rfl

theorem railOff_self (small : r < 8) (s : State) : (railOff r s).getRail r = { s.getRail r with en := false, good := false } :=
  (getRail_of_seq (railOff_seq r s) r).trans (getRail_modRail_self small _)

theorem railOff_other {q : Nat} (other : q ≠ r) (s : State) : (railOff r s).getRail q = s.getRail q :=
  (getRail_of_seq (railOff_seq r s) q).trans (getRail_modRail_other other _)

theorem railOff_slot (r : Nat) (s : State) : (railOff r s).seq.slot = r := congrArg Seq.slot (railOff_seq r s)

theorem railOff_st (r : Nat) (s : State) : (railOff r s).seq.st = s.seq.st := (congrArg Seq.st (railOff_seq r s)).trans rfl

theorem modPh_towards {f : Phase → Phase} (quiet : ∀ p, p.pwm.switching = false → (f p).pwm.switching = false) (n : Nat) (s : State) :
    TowardsSafe s (modPh n f s) := by
  refine ⟨fun _ => rfl, fun i rests => ?_, fun _ => id, fun _ => id⟩
  rw [getPh_modPh]
  split
  · exact quiet _ rests
  · exact rests

theorem pinsOut_towards (s : State) : TowardsSafe s (pinsOut s) := by
  unfold pinsOut
  exact .forEach (fun n t => modPh_towards (fun _ _ => rfl) n t) (upto 128) s

theorem railOff_towards (r : Nat) (s : State) : TowardsSafe s (railOff r s) := by
  have cut : TowardsSafe s (railCut r s) := .of_same rfl rfl rfl
  rw [railOff_eq]
  split
  · exact cut.trans (pinsOut_towards _)
  · exact cut

/-! ### The next slot down -/

theorem find_highest {P : Nat → Bool} {q : Nat} (below : q < r) (on : P q = true) (highest : ∀ j, q < j → j < r → P j = false) :
    (upto r).reverse.find? P = some q := by
  induction r with
  | zero => cases below
  | succ r ih =>
    have down : (upto (r + 1)).reverse = r :: (upto r).reverse := by simp [upto, List.range_succ]
    rw [down, List.find?_cons]
    by_cases top : q = r
    · rw [← top, on]
    · rw [highest r (by omega) (by omega)]
      exact ih (by omega) fun j above under => highest j above (by omega)

theorem downBelow_next {q : Nat} (below : q < r) (on : (s.getRail q).en = true) (highest : ∀ j, q < j → j < r → (s.getRail j).en = false) :
    downBelow r s = railOff q s := by
  rw [downBelow, find_highest (P := fun i => (s.getRail i).en) below on highest]

theorem downDone_within_mode (s : State) : Within [.mode, .seq, .saf, .nvm, .acc, .free] s (downDone s) := downDone_within (Within.refl _ _) rfl

theorem downBelow_towards (r : Nat) (s : State) : TowardsSafe s (downBelow r s) := by
  unfold downBelow
  split
  · exact railOff_towards _ s
  · exact towardsSafe_of_within (downDone_within_mode s) (by decide)

theorem goingDown_iff : goingDown s r = true ↔ (s.seq.st = .down ∨ s.seq.st = .reverse) ∧ s.seq.slot = r ∧ (s.getRail r).en = false := by
  simp [goingDown, and_assoc]

/-! ### The start of a power-down -/

/-- Every phase off and every stage enable off, the rails still up. -/
def stagesOff (s : State) : State :=
  forEach (upto 8) (fun g t => modGal g (fun x => { x with sen := false, awake := false }) t) (forEach (upto 128) (midPhase .off) s)

theorem beginDown_eq (s : State) : beginDown s = downBelow 8 (modSeq (fun q =>
    { q with st := .down, goal := s.seq.wait, wait := none, restEntry := false, restExit := none, pfwTk := none }) (stagesOff s)) := rfl

theorem stagesOff_gal {g : Nat} (small : g < 8) (s : State) : (stagesOff s).getGal g = { s.getGal g with sen := false, awake := false } := by
  have same : (forEach (upto 128) (midPhase .off) s).gal = s.gal :=
    Within.forEach (fun _ _ => midPhase_within (Within.refl [.ph] _) rfl) (Within.refl [.ph] s) .gal (by decide)
  rw [stagesOff, getGal_forEach (upto 8) (nodup_upto 8), if_pos ⟨mem_upto small, small⟩, getGal_of_gal same]

theorem stagesOff_quiet {n : Nat} (small : n < 128) (s : State) : ((stagesOff s).getPh n).pwm.switching = false := by
  have quiet : ((forEach (upto 128) (midPhase .off) s).getPh n).pwm.switching = false :=
    forEach_brings (P := fun t => (t.getPh n).pwm.switching = false) (mem_upto small) (fun t => midPhase_quiet small .off t)
      (fun j t => (midPhase_towards .off j t).quiet n) s
  unfold stagesOff
  rw [getPh_of_ph (loopGal_ph (upto 8) (fun _ x => { x with sen := false, awake := false }) _)]
  exact quiet

theorem beginDown_gal {g : Nat} (small : g < 8) (s : State) : (beginDown s).getGal g = { s.getGal g with sen := false, awake := false } := by
  rw [beginDown_eq, getGal_of_gal (downBelow_within (Within.refl [.mode, .seq, .ph, .saf, .nvm, .acc, .free] _) rfl .gal (by decide)),
    getGal_of_gal (modSeq_gal _ _)]
  exact stagesOff_gal small s

theorem beginDown_quiet {n : Nat} (small : n < 128) (s : State) : ((beginDown s).getPh n).pwm.switching = false := by
  rw [beginDown_eq]
  refine (downBelow_towards 8 _).quiet n ?_
  rw [getPh_of_ph (modSeq_ph _ _)]
  exact stagesOff_quiet small s

theorem beginDown_frame (s : State) : Within [.mode, .seq, .ph, .gal, .saf, .nvm, .acc, .free] s (beginDown s) :=
  beginDown_within (Within.refl _ _) rfl

theorem downReady_iff : downReady s = true ↔ (s.seq.wait.isSome = true ∧ s.tb.drain = none ∧ s.nvm.commit = none ∧
    (∀ t, s.seq.pfwTk = some t → floorTk (cfgF s 0x001004 16 5) ≤ since s t) ∧
    (s.seq.lastDown = 4 ∨ s.nvm.job = none ∧ (s.nvm.queue = [] ∨ s.nvm.refused = true)) ∧
    ∀ n, n < 128 → (s.getPh n).st ≠ .brake) := by
  have warned : pfwOver s = true ↔ ∀ t, s.seq.pfwTk = some t → floorTk (cfgF s 0x001004 16 5) ≤ since s t := by
    unfold pfwOver
    split
    next t k => simp [k]
    next k => simp [k]
  simp only [downReady, Bool.and_eq_true, Bool.or_eq_true, warned, Option.isNone_iff_eq_none, beq_iff_eq, List.isEmpty_iff, List.all_eq_true,
    mem_upto_iff, bne_iff_ne, and_assoc]
  tauto

/-! ### The loss of VIN_AUX -/

/-- Every enable off, what was being written torn. -/
def enablesOff (s : State) : State := powerTear (forEach (upto 8) (fun r t => modRail r (fun x => { x with en := false, good := false }) t) s)

theorem enablesOff_rail (small : r < 8) (s : State) : ((enablesOff s).getRail r).en = false := by
  have torn : (enablesOff s).seq = (forEach (upto 8) (modRail · fun x => { x with en := false, good := false }) s).seq :=
    powerTear_within (Within.refl [.nvm, .acc, .free] _) rfl .seq (by decide)
  rw [getRail_of_seq torn, getRail_forEach (upto 8) (nodup_upto 8), if_pos ⟨mem_upto small, small⟩]

/-- The pins, switches and stage enables of a device without supply. -/
def outputsDead (s : State) : State :=
  forEach (upto 8) (modGal · fun g => { g with sen := false, awake := false })
    (forEach (upto 128) (modCh · fun c => { c with disc := false, discOpening := false, discWant := false })
      (forEach (upto 128) (modPh · fun p => { p with pwm := .hiZ, onTime := false, st := .off }) s))

theorem outputsDead_within (s : State) : Within [.ph, .ch, .gal] s (outputsDead s) := by
  unfold outputsDead
  refine .forEach (fun _ t => modGal_within (Within.refl _ t) rfl) ?_
  refine .forEach (fun _ t => modCh_within (Within.refl _ t) rfl) ?_
  exact .forEach (fun _ t => modPh_within (Within.refl _ t) rfl) (Within.refl _ s)

theorem outputsDead_pwm {n : Nat} (small : n < 128) (s : State) : ((outputsDead s).getPh n).pwm = .hiZ := by
  unfold outputsDead
  rw [getPh_of_ph (loopGal_ph _ (fun _ g => { g with sen := false, awake := false }) _),
    getPh_of_ph (loopCh_ph _ (fun _ c => { c with disc := false, discOpening := false, discWant := false }) _),
    getPh_forEach (upto 128) (nodup_upto 128), if_pos ⟨mem_upto small, small⟩]

theorem outputsDead_disc {k : Nat} (small : k < 128) (s : State) : ((outputsDead s).getCh k).disc = false := by
  unfold outputsDead
  rw [getCh_of_ch (loopGal_ch _ (fun _ g => { g with sen := false, awake := false }) _),
    getCh_forEach (upto 128) (nodup_upto 128), if_pos ⟨mem_upto small, small⟩]

theorem outputsDead_sen {g : Nat} (small : g < 8) (s : State) : ((outputsDead s).getGal g).sen = false := by
  unfold outputsDead
  rw [getGal_forEach (upto 8) (nodup_upto 8), if_pos ⟨mem_upto small, small⟩]

/-- The sequencer without supply: all that it was doing is discarded, and the loss counted. -/
def lostSeq (mv : Nat) (q : Seq) : Seq :=
  { q with st := .off, slot := 0, onLatched := false, vinOk := false, vin := mv % 2 ^ 16, pfw := false, pfwTk := none, wait := none,
           goal := none, restExit := none, restEntry := false, force := false, lockout := false,
           fails := 0, lastDown := 5, nVin := incSat 8 q.nVin, rst0 := false, rst1 := false }

/-- The device in BACKUP after the loss. -/
def inBackupNow (mv : Nat) (s : State) : State :=
  let t := modSeq (lostSeq mv) s
  { t with mode := .backup, saf := { t.saf with safeN := true, keepAlive := false }, tb := { t.tb with drain := none },
           nvm := { t.nvm with lock := false, commit := none, queue := [], busy := none } }

theorem execVinAuxLost_eq (mv : Nat) (s : State) : exec (.vinAuxLost mv) s =
    .next (raise .supervisor Cause.seqVinLost 0xFF (inBackupNow mv (outputsDead (enablesOff s)))) := by
  have run : exec (.vinAuxLost mv) s = execVinAuxLost mv s := rfl
  rw [run]
  unfold execVinAuxLost outputsDead enablesOff
  rfl

theorem nvmTear_job (s : State) : (nvmTear s).nvm.job = none := by
  unfold nvmTear
  split <;> rfl

theorem fuseTear_nvm (s : State) : (fuseTear s).nvm = s.nvm := by
  unfold fuseTear
  split
  · rfl
  · exact Within.forEach (fun _ t => freeFuse_within (Within.refl [.acc, .free] t) rfl) (Within.refl [.acc, .free] _) .nvm (by decide)
  · rfl

theorem enablesOff_job (s : State) : (enablesOff s).nvm.job = none := by
  unfold enablesOff powerTear
  rw [fuseTear_nvm]
  exact nvmTear_job _

theorem enablesOff_nVin (s : State) : (enablesOff s).seq.nVin = s.seq.nVin := by
  unfold enablesOff
  rw [powerTear_within (Within.refl [.nvm, .acc, .free] _) rfl .seq (by decide)]
  exact forEach_keeps (P := fun t => t.seq.nVin = s.seq.nVin) (f := fun r t => modRail r (fun x => { x with en := false, good := false }) t)
    (fun _ _ h => h) (upto 8) rfl

theorem outputsDead_seq (s : State) : (outputsDead s).seq = s.seq := outputsDead_within s .seq (by decide)

/-! ### The early warning -/

/-- The warning is noted, counted and raised. -/
def warned (mv : Nat) (s : State) : State :=
  raise .supervisor Cause.seqPfw 0xFF (modSeq (fun q => { q with pfw := true, vin := mv % 2 ^ 16, nPfw := incSat 8 q.nPfw }) s)

section
variable {mv : Nat}

theorem exec_seqPfw_again (h : (s.getRail 0).en = false ∨ s.seq.pfw = true) : exec (.seqPfw mv) s = .next s := if_pos h

variable (on : (s.getRail 0).en = true) (first : s.seq.pfw = false)
include on first

theorem exec_seqPfw : exec (.seqPfw mv) s = match s.seq.st with
    | .up => .next (reverse .backup (modSeq (fun q => { q with lastDown := 3 }) (warned mv s)))
    | .on | .down =>
      if s.seq.st = .down ∧ s.seq.restEntry = false then .next (if s.nvm.lock then warned mv s else nvmLock (warned mv s))
      else if shuttingDown s then .next (warned mv s)
      else .next (modSeq (fun q => { q with pfwTk := some s.tb.run })
        (timedShutdown (if s.seq.wait = some .ship then DownGoal.ship else .backup) 3 (warned mv s)))
    | _ => .next (warned mv s) := if_neg (by simp [on, first])

theorem exec_seqPfw_up (up : s.seq.st = .up) :
    exec (.seqPfw mv) s = .next (reverse .backup (modSeq (fun q => { q with lastDown := 3 }) (warned mv s))) := by
  rw [exec_seqPfw on first, up]

theorem exec_seqPfw_down (down : s.seq.st = .down) (whole : s.seq.restEntry = false) :
    exec (.seqPfw mv) s = .next (if s.nvm.lock then warned mv s else nvmLock (warned mv s)) := by
  rw [exec_seqPfw on first, down]
  exact if_pos ⟨rfl, whole⟩

theorem exec_seqPfw_idle (idle : s.seq.st = .off ∨ s.seq.st = .reverse ∨ s.seq.st = .restartWait) :
    exec (.seqPfw mv) s = .next (warned mv s) := by
  rw [exec_seqPfw on first]
  rcases idle with h | h | h <;> rw [h]

theorem exec_seqPfw_on (st : s.seq.st = .on) : exec (.seqPfw mv) s = if shuttingDown s then .next (warned mv s)
    else .next (modSeq (fun q => { q with pfwTk := some s.tb.run })
      (timedShutdown (if s.seq.wait = some .ship then DownGoal.ship else .backup) 3 (warned mv s))) := by
  rw [exec_seqPfw on first, st]
  exact if_neg (by simp)

end

/-! ### A rail that leaves its window -/

/-- The rail is out of its window, counted by the side it left it on. -/
def railOut (r : Nat) (above : Bool) (s : State) : State :=
  modRail r (fun x => { x with good := false, uv := if above then x.uv else incSat 8 x.uv,
                               ov := if above then incSat 8 x.ov else x.ov }) s

/-- Where slot 0 fails, the keep-alive stops. -/
def supplyLost (r : Nat) (s : State) : State := if r = 0 then stopKeepAlive (setHist Cause.safSupply s) else s

/-- Every gallery is decided safe, and the brown-out counted. -/
def brownOut (s : State) : State := modSeq (fun q => { q with nBrown := incSat 8 q.nBrown }) (forEach (upto 8) (decideGal · Cause.safSupply) s)

theorem supplyLost_within (r : Nat) (s : State) : Within [.ph, .gal, .ch, .saf] s (supplyLost r s) :=
  .ite (stopKeepAlive_within (setHist_within (Within.refl _ _) rfl) rfl) (Within.refl _ _)

theorem galleriesSafe_within (l : List Nat) (s : State) : Within [.ph, .gal, .ch, .saf, .fab] s (forEach l (decideGal · Cause.safSupply) s) :=
  .forEach (fun _ _ => decideGal_within (Within.refl _ _) rfl) (Within.refl _ _)

section
variable {r : Fin 8} {above : Bool}

theorem exec_railWindowExit (sees : s.seq.st = .on ∨ (r.val < 6 ∧ (s.seq.restExit.isSome = true ∨ s.seq.restEntry = true)))
    (en : (s.getRail r).en = true) (good : (s.getRail r).good = true) : exec (.railWindowExit r above) s =
    if 6 ≤ r.val then .next (forEach (galsOfRail r) (decideGal · Cause.safSupply) (railOut r above s))
    else if 4 ≤ r.val then .next (decideDev Cause.safSupply 0xFF false (railOut r above s))
    else .next (beginDown (timedShutdown .backup 7 (raise .supervisor Cause.seqBrownout 0xFF (brownOut (supplyLost r (railOut r above s)))))) :=
  if_pos ⟨sees, en, good⟩

theorem exec_railWindowExit_none (h : (s.getRail r).en = false ∨ (s.getRail r).good = false ∨
    s.seq.st ≠ .on ∧ (6 ≤ r.val ∨ s.seq.restExit = none ∧ s.seq.restEntry = false)) : exec (.railWindowExit r above) s = .next s := by
  refine if_neg ?_
  rintro ⟨sees, en, good⟩
  rcases h with h | h | ⟨moving, h⟩
  · exact Bool.false_ne_true (h.symm.trans en)
  · exact Bool.false_ne_true (h.symm.trans good)
  · obtain ⟨low, sees⟩ := sees.resolve_left moving
    rcases h with high | ⟨none, still⟩
    · omega
    · simp [none, still] at sees

theorem brownOut_seq (s : State) : (brownOut s).seq = { s.seq with nBrown := incSat 8 s.seq.nBrown } := by
  have safe : (forEach (upto 8) (decideGal · Cause.safSupply) s).seq = s.seq := galleriesSafe_within (upto 8) s .seq (by decide)
  exact congrArg (fun q : Seq => { q with nBrown := incSat 8 q.nBrown }) safe

theorem supplyLost_seq (r : Nat) (s : State) : (supplyLost r s).seq = s.seq := supplyLost_within r s .seq (by decide)

theorem brownDown_gal (g : Nat) (s : State) :
    (timedShutdown .backup 7 (raise .supervisor Cause.seqBrownout 0xFF s)).getGal g = s.getGal g :=
  getGal_of_gal (timedShutdown_within (raise_within (Within.refl [.seq, .tb, .est, .nvm, .fab] s) rfl) rfl .gal (by decide)) g

theorem brownOut_within (r : Nat) (above : Bool) (s : State) :
    Within [.seq, .ph, .gal, .ch, .saf, .fab] s (brownOut (supplyLost r (railOut r above s))) :=
  have out : Within [.seq, .ph, .gal, .ch, .saf, .fab] s (railOut r above s) := modRail_within (Within.refl _ s) rfl
  have lost := out.andThen (supplyLost_within r (railOut r above s)) rfl
  modSeq_within (lost.andThen (galleriesSafe_within (upto 8) _) rfl) rfl

end

end

/-- Settles O18: rail by rail downwards, each start and each loss by the state of the sequencer. -/
theorem powerDownDisablesDescending : Obligations.PowerDownDisablesDescending := by
  refine ⟨fun s r q down slot off whole below on highest => ?next, fun s r down slot off => ?falls, fun s r h => ?stays,
    fun s waits => if_neg (by simp [waits]), fun s => downReady_iff, fun s ready => ⟨beginDown s, if_pos ready, ?stages⟩,
    fun s mv => ⟨_, execVinAuxLost_eq mv s, ?lost⟩, fun s mv h => exec_seqPfw_again h, fun s mv on first => ⟨warned mv s, rfl, ?warned⟩,
    fun s r above st en good drive => ?drive, fun s r above st en good low high => ?device, fun s r above st en good low => ?brown,
    fun s r above h => exec_railWindowExit_none h⟩
  case next =>
    have moves : exec (.railFallen r) s = .next (slotDown r s) :=
      if_pos (goingDown_iff.mpr ⟨.inl down, slot, off⟩)
    have goesOn : slotDown r s = railOff q s := by
      rw [slotDown, whole, if_neg Bool.false_ne_true, downBelow_next below on highest]
    rw [moves, goesOn]
    refine ⟨_, rfl, ?_, ?_, railOff_slot _ _, (railOff_st _ _).trans down, fun j other => railOff_other other s, railOff_within (Within.refl _ _) rfl⟩ <;>
      rw [railOff_self q.isLt]
  case falls =>
    have going := goingDown_iff.mpr ⟨.inl down, slot, off⟩
    exact ⟨if_pos going, if_pos going⟩
  case stays =>
    have rests : ¬ goingDown s r = true := by
      rw [goingDown_iff]
      rintro ⟨st, slot, off⟩
      rcases h with h | h | h
      · exact st.elim h.1 h.2
      · exact h slot
      · exact Bool.false_ne_true (off.symm.trans h)
    exact ⟨if_neg rests, if_neg rests⟩
  case stages =>
    have frame := beginDown_frame s
    exact ⟨fun g small => by rw [beginDown_gal small]; exact ⟨rfl, rfl⟩, fun n small => beginDown_quiet small s, frame .tb (by decide),
      frame .ch (by decide)⟩
  case lost =>
    have seq : (outputsDead (enablesOff s)).seq = (enablesOff s).seq := outputsDead_seq _
    have job : (outputsDead (enablesOff s)).nvm.job = none :=
      (congrArg Nvm.job (outputsDead_within _ .nvm (by decide))).trans (enablesOff_job s)
    have rails (r : Nat) (small : r < 8) : ((outputsDead (enablesOff s)).getRail r).en = false := by
      rw [getRail_of_seq seq, enablesOff_rail small]
    have count : (outputsDead (enablesOff s)).seq.nVin = s.seq.nVin := (congrArg Seq.nVin seq).trans (enablesOff_nVin s)
    have pins (n : Nat) (small : n < 128) := outputsDead_pwm small (enablesOff s)
    have discs (k : Nat) (small : k < 128) := outputsDead_disc small (enablesOff s)
    have sens (g : Nat) (small : g < 8) := outputsDead_sen small (enablesOff s)
    generalize outputsDead (enablesOff s) = u at *
    exact ⟨rfl, rfl, rfl, rfl, rfl, rfl, congrArg (incSat 8) count, rails, pins, discs, sens, rfl, job, rfl, rfl⟩
  case warned =>
    refine ⟨fun st free => ?_, fun st shuts => ?_, exec_seqPfw_up on first, exec_seqPfw_down on first, exec_seqPfw_idle on first⟩
    · rw [exec_seqPfw_on on first st, free]
      rfl
    · rw [exec_seqPfw_on on first st, shuts]
      rfl
  case drive =>
    have galleries : galsOfRail r = if r.val = 6 then [0, 1, 2, 3] else [4, 5, 6, 7] := by
      obtain h | h : r.val = 6 ∨ r.val = 7 := by omega
      all_goals rw [h]; rfl
    rw [exec_railWindowExit (.inl st) en good, if_pos drive, galleries]
    rfl
  case device =>
    rw [exec_railWindowExit (.inl st) en good, if_neg (by omega), if_pos low]
    rfl
  case brown =>
    have run := (exec_railWindowExit (.inl st) en good (above := above)).trans ((if_neg (by omega)).trans (if_neg (by omega)))
    have seq : (brownOut (supplyLost r (railOut r above s))).seq = { (railOut r above s).seq with nBrown := incSat 8 s.seq.nBrown } := by
      rw [brownOut_seq, supplyLost_seq]
      rfl
    have out : ((railOut r above s).getRail r).good = false := congrArg Rail.good (getRail_modRail_self r.isLt _)
    have frame := brownOut_within r above s
    generalize brownOut (supplyLost r (railOut r above s)) = u at run seq frame
    have rail : (u.getRail r).good = ((railOut r above s).getRail r).good := by
      simp only [State.getRail, seq]
    exact ⟨_, u, run, rfl, congrArg Seq.nBrown seq, rail.trans out, frame,
      fun g small => by rw [beginDown_gal small, brownDown_gal], fun n small => beginDown_quiet small _⟩

end Sys2Proof.Machine
end

section
/-!
Power-up (R386, R387, R390, R391): what starts it, each slot as it rises, slots that do not rise or have not fallen, and the retry.
-/

namespace Sys2Proof.Machine

section
variable {r q : Nat} {s t : State}

/-! ### Slots going down -/

theorem downDone_rails (s : State) : (downDone s).seq.rails = s.seq.rails := by
  have torn : (powerTear s).seq = s.seq := powerTear_within (Within.refl [.nvm, .acc, .free] s) rfl .seq (by decide)
  rw [← torn]
  unfold downDone
  generalize powerTear s = u
  dsimp only
  split
  · rfl
  · rfl
  · split <;> rfl
  · rfl

theorem downDone_st (s : State) : (downDone s).seq.st ≠ .up := by
  unfold downDone
  generalize powerTear s = u
  dsimp only
  split
  · dsimp only
    split <;> exact SeqSt.noConfusion
  · exact SeqSt.noConfusion
  · split <;> exact SeqSt.noConfusion
  · exact SeqSt.noConfusion

theorem downBelow_st (moves : s.seq.st ≠ .up) (r : Nat) : (downBelow r s).seq.st ≠ .up := by
  unfold downBelow
  split
  · rwa [railOff_st]
  · exact downDone_st s

theorem railOff_stuck (r q : Nat) (s : State) : ((railOff r s).getRail q).stuck = (s.getRail q).stuck := by
  rw [getRail_of_seq (railOff_seq r s), railCut, getRail_modRail]
  split <;> rfl

theorem downBelow_stuck (r q : Nat) (s : State) : ((downBelow r s).getRail q).stuck = (s.getRail q).stuck := by
  unfold downBelow
  split
  · exact railOff_stuck _ q s
  · rw [State.getRail, downDone_rails, State.getRail]

/-- A reversed power-up ends in no state of a power-up, and its failures stay counted. -/
theorem reverse_st (goal : DownGoal) (s : State) : (reverse goal s).seq.st ≠ .up := by
  unfold reverse
  dsimp only
  split
  · exact downBelow_st (by rw [railOff_st]; exact SeqSt.noConfusion) _
  · exact downBelow_st SeqSt.noConfusion _

theorem reverse_stuck (goal : DownGoal) (q : Nat) (s : State) : ((reverse goal s).getRail q).stuck = (s.getRail q).stuck := by
  unfold reverse
  dsimp only
  split
  · rw [downBelow_stuck, railOff_stuck]
    rfl
  · rw [downBelow_stuck]
    rfl

theorem reverse_fab (goal : DownGoal) (s : State) : (reverse goal s).fab = s.fab :=
  reverse_within (Within.refl [.mode, .seq, .ph, .saf, .nvm, .acc, .free] s) rfl .fab (by decide)

/-! ### Slots going up -/

/-- Slot `r` has not fallen: counted and raised. -/
def stuckAt (r : Nat) (s : State) : State := raiseSlot Cause.railStuck r (modRail r (fun x => { x with stuck := incSat 8 x.stuck }) s)

theorem stuckAt_raised (r : Nat) (s : State) : Raised Cause.railStuck (stuckAt r s) := raised_raiseSrc ..

theorem stuckAt_self (small : r < 8) (s : State) : ((stuckAt r s).getRail r).stuck = incSat 8 (s.getRail r).stuck :=
  congrArg Rail.stuck (getRail_modRail_self small _)

theorem stuckAt_en (r q : Nat) (s : State) : ((stuckAt r s).getRail q).en = (s.getRail q).en := by
  have rail : (stuckAt r s).getRail q = (modRail r (fun x => { x with stuck := incSat 8 x.stuck }) s).getRail q := rfl
  rw [rail, getRail_modRail]
  split <;> rfl

theorem enableSlot_fallen (r : Nat) (s : State) : enableSlot r true s = railOn r s := rfl

/-- The attempt that fails at slot `r`, from the slot below it. -/
def attemptFails (r : Nat) (s : State) : State := failedAttempt (stuckAt r (modSeq (fun q => { q with slot := r - 1 }) s))

theorem enableSlot_stuck (r : Nat) (s : State) : enableSlot r false s = attemptFails r s := rfl

theorem attemptFails_stuck (small : r < 8) (s : State) : ((attemptFails r s).getRail r).stuck = incSat 8 (s.getRail r).stuck := by
  unfold attemptFails failedAttempt
  rw [reverse_stuck]
  exact stuckAt_self small (modSeq (fun q => { q with slot := r - 1 }) s)

theorem attemptFails_st (r : Nat) (s : State) : (attemptFails r s).seq.st ≠ .up := reverse_st _ _

theorem attemptFails_raised (r : Nat) (s : State) : Raised Cause.railStuck (attemptFails r s) := by
  unfold attemptFails failedAttempt Raised
  rw [reverse_fab]
  exact stuckAt_raised r _

theorem railOn_self (small : r < 8) (s : State) : ((railOn r s).getRail r).en = true := congrArg Rail.en (getRail_modRail_self small _)

theorem railOn_other (other : q ≠ r) (s : State) : (railOn r s).getRail q = s.getRail q := getRail_modRail_other other _

/-- What a slot that is good brings: the pins of VIO driven to mid, the core's code at its start value. -/
def slotGood (r : Nat) (s : State) : State :=
  let s1 := modRail r (fun x => { x with good := true }) s
  if r = 1 then modSeq (fun q => { q with rst0 := true }) (forEach (upto 128) (modPh · fun p => { p with pwm := .mid }) s1)
  else if r = 2 then { s1 with fab := { s1.fab with code := 128 } } else s1

theorem slotGood_within (r : Nat) (s : State) : Within [.seq, .ph, .fab] s (slotGood r s) := by
  unfold slotGood
  dsimp only
  have rail : Within [.seq, .ph, .fab] s (modRail r (fun x => { x with good := true }) s) := modRail_within (Within.refl _ _) rfl
  exact .ite (modSeq_within (.forEach (fun _ _ => modPh_within (Within.refl _ _) rfl) rail) rfl) (.ite (rail.set_fab rfl) rail)

theorem slotGood_seq (r : Nat) (s : State) : ∃ b, (slotGood r s).seq = { (modRail r (fun x => { x with good := true }) s).seq with rst0 := b } := by
  unfold slotGood
  dsimp only
  split
  · have pins := loopPh_seq (upto 128) (fun _ p => { p with pwm := .mid }) (modRail r (fun x => { x with good := true }) s)
    exact ⟨true, congrArg (fun q : Seq => { q with rst0 := true }) pins⟩
  · split
    · exact ⟨s.seq.rst0, rfl⟩
    · exact ⟨s.seq.rst0, rfl⟩

theorem slotGood_rail (r q : Nat) (s : State) : (slotGood r s).getRail q = (modRail r (fun x => { x with good := true }) s).getRail q := by
  obtain ⟨b, seq⟩ := slotGood_seq r s
  simp only [State.getRail, seq]

theorem slotGood_restExit (r : Nat) (s : State) : (slotGood r s).seq.restExit = s.seq.restExit := by
  obtain ⟨b, seq⟩ := slotGood_seq r s
  rw [seq]
  rfl

theorem slotGood_st (r : Nat) (s : State) : (slotGood r s).seq.st = s.seq.st := by
  obtain ⟨b, seq⟩ := slotGood_seq r s
  rw [seq]
  rfl

/-! ### The end of a power-up -/

/-- The sequencer is on, its power-up over. -/
def seqOn (q : Seq) : Seq := { q with st := .on, slot := 0, fails := 0, restExit := none, rst1 := true }

theorem powerUpDone_cold (cold : s.seq.restExit = none) : powerUpDone s = coldStart (modSeq seqOn s) := by
  unfold powerUpDone
  rw [cold]
  rfl

theorem powerUpDone_exit {m : Mode} (exits : s.seq.restExit = some m) :
    powerUpDone s = updateSens (if m = .safe then modSeq seqOn s else goMode m (abortAll (modSeq seqOn s))) := by
  unfold powerUpDone
  rw [exits]
  rfl

theorem powerUpDone_seq (s : State) : (powerUpDone s).seq = seqOn s.seq := by
  cases exits : s.seq.restExit with
  | none =>
    rw [powerUpDone_cold exits]
    unfold coldStart
    dsimp only
    split <;> rfl
  | some m =>
    rw [powerUpDone_exit exits, updateSens_within (Within.refl [.ph, .gal, .ch] _) rfl .seq (by decide)]
    split
    · rfl
    · exact goMode_within (abortAll_within (Within.refl [.fe, .mode, .ch] (modSeq seqOn s)) rfl) rfl .seq (by decide)

theorem coldStart_start (s : State) : (coldStart s).mode = .load ∧ (coldStart s).tb = {} ∧ (coldStart s).ldr = {} ∧ (coldStart s).link = {} ∧
    (coldStart s).intc = {} ∧ (coldStart s).saf = {} ∧ (coldStart s).pending = s.pending := by
  unfold coldStart
  dsimp only
  split <;> exact ⟨rfl, rfl, rfl, rfl, rfl, rfl, rfl⟩

theorem powerUpDone_mode {m : Mode} (exits : s.seq.restExit = some m) : (powerUpDone s).mode = if m = .safe then s.mode else m := by
  rw [powerUpDone_exit exits, updateSens_mode]
  split
  · rfl
  · exact goMode_mode m _

/-- Slot `r` ramps: it is awaited, enabled and not yet good. -/
def Ramps (r : Nat) (s : State) : Prop := s.seq.st = .up ∧ s.seq.slot = r ∧ (s.getRail r).en = true ∧ (s.getRail r).good = false

end

section
variable {s : State} {r : Fin 8} {fallen : Bool}

theorem exec_railGood_ramps (ramps : Ramps r s) : exec (.railGood r fallen) s = .next
    (if r.val = 7 then powerUpDone (slotGood r s)
     else if (slotGood r s).seq.restExit.isSome && !fallen then
       powerUpDone (forEach [4, 5, 6, 7] (decideGal · Cause.safSupply) (stuckAt (r.val + 1) (slotGood r s)))
     else enableSlot (r.val + 1) fallen (slotGood r s)) := if_pos ramps

theorem exec_railGood_last (ramps : Ramps 7 s) : exec (.railGood 7 fallen) s = .next (powerUpDone (slotGood 7 s)) :=
  (exec_railGood_ramps (r := 7) ramps).trans (congrArg Host.Outcome.next (if_pos rfl))

theorem powerUpDone_rail (q : Nat) (s : State) : (powerUpDone s).getRail q = s.getRail q := by
  rw [State.getRail, powerUpDone_seq]
  rfl

/-- The moment a rail of the device, back in its window, lets a device safe state be released. -/
def deviceRailBack (r : Nat) (s : State) : State := if r = 4 ∨ r = 5 then { s with saf := { s.saf with devBadTk := s.tb.run } } else s

theorem deviceRailBack_within (r : Nat) (s : State) : Within [.saf] s (deviceRailBack r s) := .ite ((Within.refl _ _).set_saf rfl) (Within.refl _ _)

theorem exec_railGood_back (on : s.seq.st = .on) (en : (s.getRail r).en = true) (bad : (s.getRail r).good = false) :
    exec (.railGood r fallen) s = .next (updateSens (modRail r (fun x => { x with good := true }) (deviceRailBack r s))) :=
  (if_neg (by simp [on])).trans (if_pos ⟨on, en, bad⟩)

theorem exec_railNorise_ramps (ramps : Ramps r s) : exec (.railNorise r) s =
    let s1 := raiseSlot Cause.railNorise r (modRail r (fun x => { x with noRise := incSat 8 x.noRise }) s)
    if s1.seq.restExit.isSome then
      let s2 := forEach (galsOfRail r) (decideGal · Cause.safSupply) (railOff r s1)
      .next (if r.val = 6 then railOn 7 s2 else powerUpDone s2)
    else .next (failedAttempt s1) := if_pos ramps

end

/-- VIN_AUX is noted valid, with its voltage. -/
def vinNoted (mv : Nat) (s : State) : State := modSeq (fun q => { q with vinOk := true, vin := mv % 2 ^ 16 }) s

section
variable {s : State} {mv : Nat} {fallen : Bool}

theorem exec_vinAuxValid_on (backup : s.mode = .backup) (off : s.seq.st = .off) (clear : s.seq.shipLatch = false) :
    exec (.vinAuxValid mv fallen) s = .next (powerUp fallen (vinNoted mv s)) :=
  (if_pos ⟨backup, off⟩).trans (if_neg (by simp [clear]))

theorem exec_vinAuxValid_latched (backup : s.mode = .backup) (off : s.seq.st = .off) (latched : s.seq.shipLatch = true) :
    exec (.vinAuxValid mv fallen) s = .next (if s.rtc.wakePend then
      powerUp fallen { { vinNoted mv s with mode := .ship } with rtc := { s.rtc with wakePend := false } } else { vinNoted mv s with mode := .ship }) :=
  (if_pos ⟨backup, off⟩).trans (if_pos latched)

/-- What a power-up starts from: the sequencer's record of what was asked before is cleared. -/
def starting (s : State) : State :=
  modSeq (fun q => { q with st := .up, slot := 0, onLatched := false, goal := none, lockout := false, shipLatch := false, lastDown := q.lastDown }) s

theorem powerUp_fallen (s : State) : powerUp true s = railOn 0 (starting s) := rfl

theorem powerUp_stuck (s : State) :
    powerUp false s = downDone (modSeq (fun q => { q with fails := q.fails + 1, goal := some .retry }) (stuckAt 0 (starting s))) := rfl

theorem powerUp_stuck_rail (s : State) (q : Nat) : (powerUp false s).getRail q = (stuckAt 0 (starting s)).getRail q := by
  rw [powerUp_stuck, State.getRail, downDone_rails]
  rfl

theorem powerUp_stuck_raised (s : State) : Raised Cause.railStuck (powerUp false s) := by
  rw [powerUp_stuck, Raised, downDone_within (Within.refl [.mode, .seq, .saf, .nvm, .acc, .free] _) rfl .fab (by decide)]
  exact stuckAt_raised 0 _

end

/-- Settles O17: each start, each slot as it rises or does not, and the retry by what holds then. -/
theorem powerUpGoesFromSlotToSlot : Obligations.PowerUpGoesFromSlotToSlot := by
  refine ⟨fun s mv backup off clear => ⟨_, exec_vinAuxValid_on backup off clear, backup, rfl, rfl, rfl, rfl, railOn_self (by decide) _,
      fun r other => railOn_other other _, modRail_within (modSeq_within (modSeq_within (modSeq_within (Within.refl _ _) rfl) rfl) rfl) rfl⟩,
    fun s mv backup off clear => ⟨_, exec_vinAuxValid_on backup off clear, rfl, ?en, ?count, powerUp_stuck_raised _⟩,
    fun s mv f backup off latched => ⟨fun none => ?ship, fun wakes => ?wakes⟩, fun s mv f h => if_neg fun c => h.elim (· c.1) (· c.2),
    fun s r up slot en bad low => ?rises, fun s f up slot en bad cold => ?cold, fun s f m up slot en bad exits => ?exits,
    fun s r up slot en bad low cold => ?fails, fun s r f on en bad => ?back, fun s r up slot en bad low exits => ?restStuck,
    fun s r f h => ?stays, fun s r h => if_neg fun c => ?noRise, fun s r up slot en bad cold => ?norise, fun s r up slot en bad exits => ?restNorise,
    fun s fallen other => if_neg other, fun s fallen waits lost => (if_pos waits).trans (if_neg (by simp [lost])),
    fun s fallen waits vin => ⟨fun backup latched none => ?latched, fun h => ?again⟩, fun s waits vin notBackup => ?retry⟩
  case en =>
    rw [powerUp_stuck_rail, stuckAt_en]
    rfl
  case count =>
    rw [powerUp_stuck_rail, stuckAt_self (by decide)]
    rfl
  case ship =>
    rw [exec_vinAuxValid_latched backup off latched, none]
    rfl
  case wakes =>
    rw [exec_vinAuxValid_latched backup off latched, wakes]
    rfl
  case rises =>
    have ramps : Ramps r s := ⟨up, slot, en, bad⟩
    have run := exec_railGood_ramps (fallen := true) ramps
    rw [if_neg (by omega), if_neg (by simp), enableSlot_fallen] at run
    refine ⟨_, run, (slotGood_st r s).trans up, rfl, ?_, railOn_self (by omega) _, fun q other next => ?_,
      modRail_within (modSeq_within ((slotGood_within r s).mono rfl) rfl) rfl⟩
    · rw [railOn_other (by omega), slotGood_rail, getRail_modRail_self r.isLt]
    · rw [railOn_other next, slotGood_rail, getRail_modRail_other other]
  case cold =>
    have start := coldStart_start (modSeq seqOn (slotGood 7 s))
    rw [← powerUpDone_cold ((slotGood_restExit 7 s).trans cold)] at start
    obtain ⟨mode, tb, ldr, link, intc, saf, pending⟩ := start
    have seq := powerUpDone_seq (slotGood 7 s)
    refine ⟨_, exec_railGood_last ⟨up, slot, en, bad⟩, mode, congrArg Seq.st seq, ?_, congrArg Seq.fails seq, tb, ldr, link, intc, saf,
      pending.trans (slotGood_within 7 s .pending (by decide))⟩
    rw [powerUpDone_rail, slotGood_rail, getRail_modRail_self (by decide)]
  case exits =>
    have mode := powerUpDone_mode ((slotGood_restExit 7 s).trans exits)
    have seq := powerUpDone_seq (slotGood 7 s)
    refine ⟨_, exec_railGood_last ⟨up, slot, en, bad⟩, congrArg Seq.st seq, congrArg Seq.restExit seq, ?_, fun safe => ?_, fun other => ?_⟩
    · rw [powerUpDone_rail, slotGood_rail, getRail_modRail_self (by decide)]
    · rw [mode, if_pos safe]
      exact slotGood_within 7 s .mode (by decide)
    · rw [mode, if_neg other]
  case fails =>
    have run := exec_railGood_ramps (fallen := false) (⟨up, slot, en, bad⟩ : Ramps r s)
    rw [if_neg (by omega), if_neg (by rw [slotGood_restExit, cold]; decide), enableSlot_stuck] at run
    refine ⟨_, run, ?_, attemptFails_st _ _, attemptFails_raised _ _⟩
    rw [attemptFails_stuck (by omega), slotGood_rail, getRail_modRail_other (by omega)]
  case back =>
    refine ⟨_, exec_railGood_back on en bad, ?_, fun q other => ?_, ?_⟩
    · rw [getRail_of_seq (updateSens_within (Within.refl [.ph, .gal, .ch] _) rfl .seq (by decide)), getRail_modRail_self r.isLt]
    · rw [getRail_of_seq (updateSens_within (Within.refl [.ph, .gal, .ch] _) rfl .seq (by decide)), getRail_modRail_other other]
      exact getRail_of_seq (deviceRailBack_within r s .seq (by decide)) q
    · exact updateSens_within (modRail_within ((deviceRailBack_within r s).mono rfl) rfl) rfl
  case restStuck =>
    have run := exec_railGood_ramps (fallen := false) (⟨up, slot, en, bad⟩ : Ramps r s)
    rw [if_neg (by omega), if_pos (by rw [slotGood_restExit, exits]; rfl)] at run
    refine ⟨_, run, ?_, ?_, stuckAt_raised _ _⟩
    · rw [stuckAt_self (by omega), slotGood_rail, getRail_modRail_other (by omega)]
    · have rail := getRail_modRail_other (s := slotGood r s) (q := r.val) (r := r.val + 1) (by omega) (fun x => { x with stuck := incSat 8 x.stuck })
      exact (congrArg Rail.good rail).trans (by rw [slotGood_rail, getRail_modRail_self r.isLt])
  case stays =>
    refine (if_neg ?_).trans (if_neg ?_)
    · rintro ⟨up, slot, en, bad⟩
      rcases h with h | h | ⟨-, h⟩
      · exact Bool.false_ne_true (h.symm.trans en)
      · exact Bool.false_ne_true (bad.symm.trans h)
      · exact h ⟨up, slot⟩
    · rintro ⟨on, en, bad⟩
      rcases h with h | h | ⟨h, -⟩
      · exact Bool.false_ne_true (h.symm.trans en)
      · exact Bool.false_ne_true (bad.symm.trans h)
      · exact h on
  case noRise =>
    obtain ⟨up, slot, en, bad⟩ := c
    rcases h with h | h | h
    · exact Bool.false_ne_true (h.symm.trans en)
    · exact Bool.false_ne_true (bad.symm.trans h)
    · exact h ⟨up, slot⟩
  case norise =>
    rw [exec_railNorise_ramps ⟨up, slot, en, bad⟩]
    exact if_neg (by rw [Bool.not_eq_true]; exact congrArg Option.isSome cold)
  case restNorise =>
    refine ⟨raiseSlot Cause.railNorise r (modRail r (fun x => { x with noRise := incSat 8 x.noRise }) s), ?_, ?_, raised_raiseSrc ..⟩
    · rw [exec_railNorise_ramps ⟨up, slot, en, bad⟩]
      exact if_pos exits
    · exact congrArg Rail.noRise (getRail_modRail_self r.isLt _)
  case latched =>
    exact ⟨_, (if_pos waits).trans ((if_pos vin).trans (if_pos ⟨backup, latched, none⟩)), rfl, rfl,
      Within.mk (Within.refl _ _) fun part outside => by cases part <;> first | rfl | exact absurd (by simp) outside⟩
  case again =>
    refine (if_pos waits).trans ((if_pos vin).trans (if_neg ?_))
    rintro ⟨backup, latched, none⟩
    rcases h with h | h | h
    · exact h backup
    · exact Bool.false_ne_true (h.symm.trans latched)
    · exact Bool.false_ne_true (none.symm.trans h)
  case retry =>
    refine ⟨_, (if_pos waits).trans ((if_pos vin).trans (if_neg fun c => notBackup c.1)), rfl, rfl, railOn_self (by decide) _, rfl, ?_⟩
    exact modRail_within (modSeq_within (modSeq_within ((Within.refl _ _).set_rtc rfl) rfl) rfl) rfl

end Sys2Proof.Machine
end

section
/-!
Push-button and SEQ_CMD (R396 to R400): requests by the sequencer's state, the reset outputs, and entry to REST and exit from it.
-/

namespace Sys2Proof.Machine

section
variable {s : State} {p : Path} {key : Byte} {fallen : Bool}

/-! ### Waking -/

theorem onRequest_off (off : s.seq.st = .off) : onRequest fallen s = if s.seq.vinOk && !s.mode.up then powerUp fallen s else s := by
  simp only [onRequest, off]

theorem onRequest_latched (moves : s.seq.st = .down ∨ s.seq.st = .reverse ∨ s.seq.st = .restartWait) : onRequest fallen s =
    if s.seq.restEntry then s else raise .supervisor Cause.seqOnLatched 0xFF (modSeq (fun q => { q with onLatched := true }) s) := by
  rcases moves with h | h | h <;> simp only [onRequest, h]

theorem onRequest_restEntry (moves : s.seq.st ≠ .off) (entry : s.seq.restEntry = true) : onRequest fallen s = s := by
  unfold onRequest
  split
  next off => exact absurd off moves
  all_goals simp only [entry, if_true]

theorem onRequest_up (up : s.seq.st = .on ∨ s.seq.st = .up) : onRequest fallen s = s := by
  rcases up with h | h <;> simp only [onRequest, h]

section
variable (enabled : cfgF s 0x001000 2 1 ≠ 0)
include enabled

theorem exec_pbWake_ship (ship : s.mode = .ship) (off : s.seq.st = .off) :
    exec (.pbWake fallen) s = .next (onRequest fallen (modSeq (fun q => { q with shipLatch := false }) s)) :=
  (if_neg enabled).trans (if_pos ⟨ship, off⟩)

theorem exec_pbWake_other (h : s.mode ≠ .ship ∨ s.seq.st ≠ .off) : exec (.pbWake fallen) s = .next (onRequest fallen s) :=
  (if_neg enabled).trans (if_neg fun c => h.elim (· c.1) (· c.2))

end

/-! ### Off and reboot -/

/-- The shutdown that a request waits for: a drain with the default limit. -/
def drains (goal : DownGoal) (down : Nat) (s : State) : State := hostDrain .off (modSeq (fun q => { q with wait := some goal, lastDown := down }) s)

theorem sequenceRuns_on (on : s.seq.st = .on) (free : s.seq.wait = none) (whole : s.seq.restExit = none) : sequenceRuns s = false := by
  simp [sequenceRuns, on, free, whole]

theorem orderly_idle {goal : DownGoal} {down : Nat} (on : s.seq.st = .on) (idle : sequenceRuns s = false) : orderly goal down s = drains goal down s :=
  (if_neg (by simp [on])).trans (if_neg (by simp [idle]))

theorem orderly_reverses {down : Nat} (up : s.seq.st = .up) (whole : s.seq.restExit = none) :
    orderly .ship down s = reverse .ship (modSeq (fun q => { q with lastDown := down }) s) := if_pos ⟨up, whole, rfl⟩

theorem orderly_refused {goal : DownGoal} {down : Nat} (runs : sequenceRuns s = true)
    (h : s.seq.st ≠ .up ∨ s.seq.restExit ≠ none ∨ goal ≠ .ship) : orderly goal down s = seqRefused s := by
  refine (if_neg ?_).trans (if_pos runs)
  rintro ⟨up, whole, ship⟩
  rcases h with h | h | h
  · exact h up
  · exact h whole
  · exact h ship

/-! ### The long press -/

/-- The press is counted and raised, and latched requests go. -/
def pressedLong (s : State) : State :=
  raise .supervisor Cause.seqPbLong 0xFF (modSeq (fun q => { q with nLong := incSat 8 q.nLong, onLatched := false, lastDown := 4 }) s)

theorem exec_pbLongPress (enabled : cfgF s 0x001000 1 1 ≠ 0) : exec .pbLongPress s = match s.seq.st with
    | .up => .next (reverse .ship (modSeq (fun q => { q with restExit := none }) (pressedLong s)))
    | .on => .next { (modSeq (fun q => { q with wait := some .ship, force := true }) (pressedLong s)) with tb := { (pressedLong s).tb with drain := none } }
    | .off => .next { pressedLong s with mode := if (pressedLong s).seq.vinOk then .ship else (pressedLong s).mode,
                                         seq := { (pressedLong s).seq with shipLatch := true } }
    | .restartWait => .next { pressedLong s with mode := .ship, seq := { (pressedLong s).seq with st := .off, shipLatch := true } }
    | _ => .next (modSeq (fun q => { q with goal := some .ship, restEntry := false }) (pressedLong s)) := if_neg enabled

/-! ### SEQ_CMD -/

section
variable {f : State → State}

theorem seqCmdGate_off (off : s.mode.up = false) : seqCmdGate key f s = s := regGate_of_no_path off ..

theorem seqCmdGate_busy (up : s.mode.up = true) (busy : loaderBusy s = true) : seqCmdGate key f s = raiseReg Cause.ldrBusy 0x00100C s :=
  regGate_of_busy up busy ..

theorem seqCmdGate_wrong (up : s.mode.up = true) (idle : loaderBusy s = false) (wrong : key ≠ 0x69) : seqCmdGate key f s = seqRefused s :=
  (regGate_of_path up idle ..).trans (if_pos wrong)

theorem seqCmdGate_right (up : s.mode.up = true) (idle : loaderBusy s = false) : seqCmdGate 0x69 f s = f s :=
  (regGate_of_path up idle ..).trans (if_neg (not_not.mpr rfl))

end

/-- Every counter of the rails and of the sequencer at 0. -/
def evtCleared (s : State) : State :=
  modSeq (fun q => { q with nPfw := 0, nVin := 0, nBrown := 0, nLong := 0 })
    (forEach (upto 8) (modRail · fun x => { x with noRise := 0, stuck := 0, uv := 0, ov := 0 }) s)

theorem clearEvt_service (service : s.mode = .service) : clearEvt s = evtCleared s := if_pos service

theorem clearEvt_refused (other : s.mode ≠ .service) : clearEvt s = seqRefused s := if_neg other

theorem evtCleared_rail {r : Nat} (small : r < 8) (s : State) :
    (evtCleared s).getRail r = { s.getRail r with noRise := 0, stuck := 0, uv := 0, ov := 0 } := by
  have rails : (evtCleared s).getRail r = (forEach (upto 8) (modRail · fun x => { x with noRise := 0, stuck := 0, uv := 0, ov := 0 }) s).getRail r := rfl
  rw [rails, getRail_forEach (upto 8) (nodup_upto 8), if_pos ⟨mem_upto small, small⟩]

end

/-- Settles O19: each press and command by the sequencer's state, behind the gate that SEQ_CMD has. -/
theorem buttonAndSeqCommands : Obligations.ButtonAndSeqCommands := by
  refine ⟨fun s f off => if_pos off, fun s f enabled h => ?idleWake, fun s f enabled moves whole => ?latched, fun s f enabled off notShip vin down => ?onWake,
    fun s f enabled off ship => ?shipWake, fun s enabled ship off vin => ?fromShip, fun s enabled run on free whole => ?short,
    fun s h => if_pos h, fun s heard => ⟨fun up whole => ?shortUp, fun runs h => ?shortRefused⟩, fun s off => if_pos off,
    fun s enabled => ⟨pressedLong s, rfl, ?longUp, ?longOff, ?longWait, ?longDown⟩, fun s enabled on => ?longOn,
    fun s p up idle on free whole => ?offReboot,
    fun s p key off => ?noPath, fun s p key up busy => ?busy, fun s p key up idle wrong => ?wrong, fun s p up idle runs => ⟨fun h => ?refusedOff, ?refusedReboot⟩,
    fun s p up other idle => ?clearRefused, fun s p up idle => ?hostrst, fun s p service idle => ?clear, fun s => rfl,
    fun s => ⟨updateSens (modSeq (fun q => { q with rst1 := false }) s), rfl, ?rst1⟩, fun s h => if_neg h, fun s f h => congrArg Host.Outcome.next (if_neg h),
    fun s rest on free => ?exitStuck, fun s rest on free drives => if_pos ⟨rest, on, free, drives⟩, fun s rest on free => ?exit⟩
  case idleWake =>
    rcases h with on | up | ⟨moves, entry⟩ | ⟨off, notShip, still⟩
    · rw [exec_pbWake_other enabled (.inr (by simp [on])), onRequest_up (.inl on)]
    · rw [exec_pbWake_other enabled (.inr (by simp [up])), onRequest_up (.inr up)]
    · rw [exec_pbWake_other enabled (.inr moves), onRequest_restEntry moves entry]
    · rw [exec_pbWake_other enabled (.inl notShip), onRequest_off off, if_neg (by rcases still with h | h <;> simp [h])]
  case latched =>
    rw [exec_pbWake_other enabled (.inr (by rcases moves with h | h | h <;> simp [h])), onRequest_latched moves, whole]
    rfl
  case onWake => rw [exec_pbWake_other enabled (.inl notShip), onRequest_off off, if_pos (by simp [vin, down])]
  case shipWake =>
    have down : s.mode.up = false := by rw [ship]; rfl
    rw [exec_pbWake_ship enabled ship off, onRequest_off (s := modSeq (fun q => { q with shipLatch := false }) s) off]
    refine congrArg Host.Outcome.next (if_congr ?_ rfl rfl)
    simp [modSeq, down]
  case fromShip =>
    have down : s.mode.up = false := by rw [ship]; rfl
    refine ⟨railOn 0 (starting (modSeq (fun q => { q with shipLatch := false }) s)), ?_, rfl, rfl, rfl, railOn_self (by decide) _,
      modRail_within (modSeq_within (modSeq_within (modSeq_within (Within.refl _ _) rfl) rfl) rfl) rfl⟩
    rw [exec_pbWake_ship (by omega) ship off, onRequest_off (s := modSeq (fun q => { q with shipLatch := false }) s) off]
    exact congrArg Host.Outcome.next ((if_pos (by simp [modSeq, vin, down])).trans (powerUp_fallen _))
  case short =>
    have heard : ¬ (s.mode = .ship ∨ (s.mode = .backup ∧ s.seq.st ≠ .up) ∨ cfgF s 0x001000 0 1 = 0) := by simp [run, enabled]
    exact (if_neg heard).trans (congrArg Host.Outcome.next (orderly_idle on (sequenceRuns_on on free whole)))
  case shortUp => exact (if_neg heard).trans (congrArg Host.Outcome.next (orderly_reverses up whole))
  case shortRefused => exact (if_neg heard).trans (congrArg Host.Outcome.next (orderly_refused runs (h.imp_right .inl)))
  case longUp =>
    intro up
    rw [exec_pbLongPress enabled, up]
    rfl
  case longOff =>
    intro off
    rw [exec_pbLongPress enabled, off]
    rfl
  case longWait =>
    intro waits
    rw [exec_pbLongPress enabled, waits]
  case longDown =>
    rintro (down | down) <;> rw [exec_pbLongPress enabled, down] <;> rfl
  case longOn =>
    rw [exec_pbLongPress (by omega), on]
    rfl
  case offReboot =>
    have quiet := sequenceRuns_on on free whole
    exact ⟨congrArg Host.Outcome.next ((seqCmdGate_right up idle).trans (orderly_idle on quiet)),
      congrArg Host.Outcome.next ((seqCmdGate_right up idle).trans (orderly_idle on quiet))⟩
  case noPath =>
    refine ⟨?_, ?_, ?_, ?_⟩ <;> exact congrArg Host.Outcome.next (seqCmdGate_off off)
  case busy =>
    refine ⟨?_, ?_, ?_, ?_⟩ <;> exact congrArg Host.Outcome.next (seqCmdGate_busy up busy)
  case wrong =>
    refine ⟨?_, ?_, ?_, ?_⟩ <;> exact congrArg Host.Outcome.next (seqCmdGate_wrong up idle wrong)
  case refusedOff =>
    exact congrArg Host.Outcome.next ((seqCmdGate_right up idle).trans (orderly_refused runs (h.imp_right .inl)))
  case refusedReboot =>
    exact congrArg Host.Outcome.next ((seqCmdGate_right up idle).trans (orderly_refused runs (.inr (.inr DownGoal.noConfusion))))
  case clearRefused => exact congrArg Host.Outcome.next ((seqCmdGate_right up idle).trans (clearEvt_refused other))
  case hostrst => exact congrArg Host.Outcome.next (seqCmdGate_right up idle)
  case clear =>
    have up : s.mode.up = true := by rw [service]; rfl
    refine ⟨evtCleared s, congrArg Host.Outcome.next ((seqCmdGate_right up idle).trans (clearEvt_service service)), rfl, rfl, rfl, rfl,
      fun r small => ?_, modSeq_within (.forEach (fun _ t => modRail_within (Within.refl _ t) rfl) (Within.refl _ s)) rfl⟩
    rw [evtCleared_rail small]
    exact ⟨rfl, rfl, rfl, rfl, rfl⟩
  case rst1 => exact updateSens_within (Within.refl [.ph, .gal, .ch] _) rfl .seq (by decide)
  case exitStuck =>
    refine ⟨stuckAt 6 (modSeq (fun q => { q with st := .up, restExit := some .run }) s), congrArg Host.Outcome.next (if_pos ⟨rest, on, free⟩),
      ?_, rfl, rfl, stuckAt_raised _ _⟩
    exact stuckAt_self (by decide) _
  case exit =>
    refine ⟨railOn 6 (modSeq (fun q => { q with st := .up, restExit := some .run }) s), congrArg Host.Outcome.next (if_pos ⟨rest, on, free⟩),
      rfl, rfl, railOn_self (by decide) _, rfl, modRail_within (modSeq_within (modSeq_within (Within.refl _ _) rfl) rfl) rfl⟩

end Sys2Proof.Machine
end

section
/-!
Start-up and the loader (R356 to R369): fuses, self-check, recall and ROM check, the choice of a slot, its image applied, and the end of LOAD.
-/

namespace Sys2Proof.Machine

section
variable {s : State}

/-! ### Fuses and self-checks -/

theorem exec_fuseRead (load : s.mode = .load) (boot : s.ldr.st = .boot) : exec .fuseRead s = .next
    (if fuseOk s then setCfg 0x00A000 (wordN (4 + eeSpeed s)) (modLdr (fun l => { l with t2 := some s.tb.run }) s)
     else haltLoader Cause.ldrFuseBad s) := if_pos ⟨load, boot⟩

theorem exec_islandSelfCheckDone {ok : Bool} (load : s.mode = .load) (boot : s.ldr.st = .boot) (fused : s.ldr.t2.isSome = true)
    (fresh : s.saf.checked = false) : exec (.islandSelfCheckDone ok) s = .next
      (if ok then updateSafeN (modSaf (fun f => { f with checked := true, keepAlive := true }) s) else haltLoader Cause.ldrIslandFail s) :=
  if_pos ⟨load, boot, fused, fresh⟩

theorem exec_islandSelfCheckDone_other {ok : Bool} (h : s.mode ≠ .load ∨ s.ldr.st ≠ .boot ∨ s.ldr.t2 = none ∨ s.saf.checked = true) :
    exec (.islandSelfCheckDone ok) s = .next s := by
  refine if_neg ?_
  rintro ⟨load, boot, fused, fresh⟩
  rcases h with h | h | h | h
  · exact h load
  · exact h boot
  · simp [h] at fused
  · exact Bool.false_ne_true (fresh.symm.trans h)

/-! ### Recall -/

/-- Start-up goes on after the recall, where the ROM is good (R360). -/
def afterRecall (ok : Bool) (s : State) : State := if ok then startRead s else haltLoader Cause.ldrRomFail s

theorem exec_storeRecallDone {ok : Bool} (load : s.mode = .load) (boot : s.ldr.st = .boot) (fused : s.ldr.t2.isSome = true)
    (checked : s.saf.checked = true) : exec (.storeRecallDone ok) s = .next (match recallReason s with
      | some r => afterRecall ok (refuseRecall r s)
      | none => afterRecall ok (if ok then applyPatch (recallAll s) else recallAll s)) := if_pos ⟨load, boot, fused, checked⟩

theorem exec_storeRecallDone_other {ok : Bool} (h : s.mode ≠ .load ∨ s.ldr.st ≠ .boot ∨ s.ldr.t2 = none ∨ s.saf.checked = false) :
    exec (.storeRecallDone ok) s = .next s := by
  refine if_neg ?_
  rintro ⟨load, boot, fused, checked⟩
  rcases h with h | h | h | h
  · exact h load
  · exact h boot
  · simp [h] at fused
  · exact Bool.false_ne_true (h.symm.trans checked)

/-- 15 ms have passed since the fuses (R359). -/
def recallLate (s : State) : Bool := match s.ldr.t2 with | some t => decide (floorTk 15 ≤ since s t) | none => false

theorem exec_recallTimeout {ok : Bool} (load : s.mode = .load) (boot : s.ldr.st = .boot) (late : recallLate s = true)
    (checked : s.saf.checked = true) : exec (.recallTimeout ok) s = .next (afterRecall ok (refuseRecall 3 s)) := if_pos ⟨load, boot, late, checked⟩

theorem exec_recallTimeout_other {ok : Bool} (h : s.mode ≠ .load ∨ s.ldr.st ≠ .boot ∨ recallLate s = false ∨ s.saf.checked = false) :
    exec (.recallTimeout ok) s = .next s := by
  refine if_neg ?_
  rintro ⟨load, boot, late, checked⟩
  rcases h with h | h | h | h
  · exact h load
  · exact h boot
  · exact Bool.false_ne_true (h.symm.trans late)
  · exact Bool.false_ne_true (h.symm.trans checked)

theorem refuseRecall_ldr (r : Nat) (s : State) : (refuseRecall r s).ldr = { s.ldr with recallRef := true } := by
  have rails := loopRail_ldr (upto 8) (fun _ x => { x with noRise := 0, stuck := 0, uv := 0, ov := 0 }) s
  exact congrArg (fun l : Loader => { l with recallRef := true }) rails

theorem refuseRecall_nvm (r : Nat) (s : State) : (refuseRecall r s).nvm = { s.nvm with refused := true } := by
  have rails := loopRail_nvm (upto 8) (fun _ x => { x with noRise := 0, stuck := 0, uv := 0, ov := 0 }) s
  exact congrArg (fun n : Nvm => { n with refused := true }) rails

theorem refuseRecall_out (r : Nat) (s : State) : (refuseRecall r s).out = s.out :=
  refuseRecall_within (Within.refl [.seq, .ldr, .nvm, .fab] s) rfl .out (by decide)

theorem refuseRecall_seq (r : Nat) (s : State) : (refuseRecall r s).seq.noStore = true ∧ (refuseRecall r s).seq.nPfw = 0 ∧
    (refuseRecall r s).seq.nVin = 0 ∧ (refuseRecall r s).seq.nBrown = 0 ∧ (refuseRecall r s).seq.nLong = 0 := ⟨rfl, rfl, rfl, rfl, rfl⟩

theorem refuseRecall_event (r : Nat) (s : State) :
    ∃ e ∈ (refuseRecall r s).fab.events, e.cause = Cause.ldrRecallRefused ∧ (e.arg = leBytes 4 r ∨ e.lost = true) := by
  unfold refuseRecall raiseA
  obtain ⟨e, there, cause, arg, -, -⟩ := raiseSrc_fabric Cause.ldrRecallRefused 0xFF (eventSource Cause.ldrRecallRefused 0xFF) 2 (leBytes 4 r) _
  exact ⟨e, there, cause, .inl arg⟩

/-! ### The choice of a slot -/

/-- A slot has been read: the order of the candidates stands, and a drop of the bus's speed is noted. -/
def slotSeen (order : List Nat) (drop : Bool) (s : State) : State :=
  modLdr (fun l => { l with order := order, speedDrop := l.speedDrop || drop }) (nacksSeen 255 s)

theorem slotSeen_ldr (order : List Nat) (drop : Bool) (s : State) : (slotSeen order drop s).ldr =
    { s.ldr with order := order, speedDrop := s.ldr.speedDrop || drop } := by
  have same : (nacksSeen 255 s).ldr = s.ldr := nacksSeen_within (Within.refl [.twi, .free] s) rfl .ldr (by decide)
  exact congrArg (fun l : Loader => { l with order := order, speedDrop := l.speedDrop || drop }) same

theorem slotSeen_within (order : List Nat) (drop : Bool) (s : State) : Within [.twi, .free, .ldr] s (slotSeen order drop s) :=
  modLdr_within (nacksSeen_within (Within.refl _ _) rfl) rfl

/-- The candidates: the order that stands, or that of the generations read (R365). -/
def readOrder (slot : Fin 2) (bytes other : List Byte) (s : State) : List Nat :=
  if s.ldr.order.isEmpty then (if slot.val = 0 then slotOrder (hdrGen bytes) (hdrGen other) else slotOrder (hdrGen other) (hdrGen bytes))
  else s.ldr.order

section
variable {slot : Fin 2} {bytes other : List Byte} {fail : Option Nat} {drop ok : Bool}

theorem exec_imageReadDone (reading : s.ldr.st = .reading) (load : inLoad s = true) : exec (.imageReadDone slot bytes other fail drop ok) s = .next
    (if ok = false then haltLoader Cause.ldrSramFail (slotSeen (readOrder slot bytes other s) drop s)
      else if (readOrder slot bytes other s).isEmpty then noImage (slotSeen (readOrder slot bytes other s) drop s)
      else if (readOrder slot bytes other s).head? ≠ some slot.val then
        emit (.eepromRead ((readOrder slot bytes other s).headD 0)) (slotSeen (readOrder slot bytes other s) drop s)
      else match fail with
        | some c => slotFails slot c 0xFF (slotSeen (readOrder slot bytes other s) drop s)
        | none =>
          match checkContainer bytes with
          | .inl e => slotFails slot e.1 e.2 (slotSeen (readOrder slot bytes other s) drop s)
          | .inr _ => modLdr (fun l => { l with st := .applying, image := some bytes, genAlt := hdrGen other })
              (slotSeen (readOrder slot bytes other s) drop s)) :=
  if_neg (by simp [reading, load])

theorem readOrder_standing {n : Nat} {rest : List Nat} (order : s.ldr.order = n :: rest) : readOrder slot bytes other s = n :: rest := by
  rw [readOrder, order]
  rfl

theorem readOrder_none (fresh : s.ldr.order = []) (mine : hdrGen bytes = 0) (theirs : hdrGen other = 0) : readOrder slot bytes other s = [] := by
  rw [readOrder, fresh, mine, theirs]
  split
  · split <;> rfl
  next h => exact absurd rfl h

section
variable (reading : s.ldr.st = .reading) (load : inLoad s = true)
include reading load

theorem exec_imageReadDone_broken : exec (.imageReadDone slot bytes other fail drop false) s =
    .next (haltLoader Cause.ldrSramFail (slotSeen (readOrder slot bytes other s) drop s)) :=
  (exec_imageReadDone reading load).trans (congrArg Host.Outcome.next (if_pos rfl))

theorem exec_imageReadDone_none (order : readOrder slot bytes other s = []) : exec (.imageReadDone slot bytes other fail drop true) s =
    .next (noImage (slotSeen [] drop s)) := by
  rw [exec_imageReadDone reading load, order]
  rfl

theorem exec_imageReadDone_wrong {n : Nat} {rest : List Nat} (order : s.ldr.order = n :: rest) (wrong : n ≠ slot.val) :
    exec (.imageReadDone slot bytes other fail drop true) s = .next (emit (.eepromRead n) (slotSeen (n :: rest) drop s)) := by
  rw [exec_imageReadDone reading load, readOrder_standing order]
  exact congrArg Host.Outcome.next ((if_neg (by decide)).trans ((if_neg (by simp)).trans (if_pos (by simpa using wrong))))

variable {rest : List Nat} (order : s.ldr.order = slot.val :: rest)
include order

theorem exec_imageReadDone_mine : exec (.imageReadDone slot bytes other fail drop true) s = .next
    (match fail with
      | some c => slotFails slot c 0xFF (slotSeen (slot.val :: rest) drop s)
      | none =>
        match checkContainer bytes with
        | .inl e => slotFails slot e.1 e.2 (slotSeen (slot.val :: rest) drop s)
        | .inr _ => modLdr (fun l => { l with st := .applying, image := some bytes, genAlt := hdrGen other }) (slotSeen (slot.val :: rest) drop s)) := by
  rw [exec_imageReadDone reading load, readOrder_standing order]
  exact congrArg Host.Outcome.next ((if_neg (by decide)).trans ((if_neg (by simp)).trans (if_neg (by simp))))

end
end

/-! ### A slot that fails -/

/-- The loader's record of a slot that failed: the first failure of the load stays, and the slot is no more a candidate. -/
def dropSlot (first : Nat) (l : Loader) : Loader :=
  { l with cause := if l.cause = 0 then first else l.cause, order := l.order.drop 1, second := true }

/-- The first failure of the load is recorded, and the slot is no more a candidate. -/
def slotDropped (slot cause sect : Nat) (s : State) : State :=
  modLdr (dropSlot (cause + sect * 2 ^ 16 + slot * 2 ^ 24))
    (raiseSrc .fabric cause 0xFF (if cause / 256 = 0x0D ∧ cause ∉ Cause.imageChecks then 151 else 150) 0 [] s)

theorem slotDropped_ldr (slot cause sect : Nat) (s : State) :
    (slotDropped slot cause sect s).ldr = dropSlot (cause + sect * 2 ^ 16 + slot * 2 ^ 24) s.ldr := rfl

theorem slotDropped_within (slot cause sect : Nat) (s : State) : Within [.ldr, .fab] s (slotDropped slot cause sect s) :=
  modLdr_within (raiseSrc_within (Within.refl _ _) rfl) rfl

theorem slotFails_eq (slot cause sect : Nat) (s : State) : slotFails slot cause sect s =
    match (slotDropped slot cause sect s).ldr.order with
    | [] => noImage (slotDropped slot cause sect s)
    | n :: _ => emit (.eepromRead n) (slotDropped slot cause sect s) := rfl

section
variable {slot cause sect : Nat} {rest : List Nat}

theorem slotDropped_order (order : s.ldr.order = slot :: rest) : (slotDropped slot cause sect s).ldr.order = rest := by
  rw [slotDropped_ldr, dropSlot, order]
  rfl

theorem slotFails_last (order : s.ldr.order = [slot]) : slotFails slot cause sect s = noImage (slotDropped slot cause sect s) := by
  rw [slotFails_eq, slotDropped_order order]

theorem slotFails_more {n : Nat} (order : s.ldr.order = slot :: n :: rest) :
    slotFails slot cause sect s = emit (.eepromRead n) (slotDropped slot cause sect s) := by
  rw [slotFails_eq, slotDropped_order order]

theorem slotFails_spec (order : s.ldr.order = slot :: rest) : (slotFails slot cause sect s).regs = s.regs ∧ (slotFails slot cause sect s).mode = s.mode ∧
    (slotFails slot cause sect s).ldr.order = rest ∧
    (slotFails slot cause sect s).ldr.cause = (if s.ldr.cause = 0 then cause + sect * 2 ^ 16 + slot * 2 ^ 24 else s.ldr.cause) ∧
    (rest = [] → (slotFails slot cause sect s).ldr.st = .noImage) ∧
    ∀ m l, rest = m :: l → (slotFails slot cause sect s).ldr.st = s.ldr.st ∧ (slotFails slot cause sect s).ldr.second = true ∧
      (slotFails slot cause sect s).out = s.out ++ [.eepromRead m] := by
  have frame := slotDropped_within slot cause sect s
  have record := slotDropped_ldr slot cause sect s
  have left := slotDropped_order (cause := cause) (sect := sect) order
  cases rest with
  | nil =>
    rw [slotFails_last order]
    generalize slotDropped slot cause sect s = u at *
    exact ⟨frame .regs (by decide), frame .mode (by decide), rfl, congrArg Loader.cause record, fun _ => rfl, fun m l h => by cases h⟩
  | cons n rest =>
    rw [slotFails_more order]
    generalize slotDropped slot cause sect s = u at *
    refine ⟨frame .regs (by decide), frame .mode (by decide), left, congrArg Loader.cause record, fun h => (by cases h), ?_⟩
    rintro _ _ ⟨⟩
    exact ⟨(congrArg Loader.st record :), (congrArg Loader.second record :), congrArg (· ++ [Out.eepromRead n]) (frame .out (by decide))⟩

end

/-! ### The image applied -/

/-- The registers and the working memory of the image, the loader not yet moved on. -/
def imageTaken (b : List Byte) (s : State) : State :=
  modSaf (fun f => { f with flips := [], copies := [], pend := none, apply := none })
    (applyMemory (loadedImg b) (chooseCal (loadedImg b) (applyTypes (loadedImg b) s)))

/-- The loader waits for the self-test. -/
def toSelftest (b : List Byte) (slot : Nat) (s : State) : State :=
  modLdr (fun l => { l with st := .selftest, slot := slot, fallback := l.second, gen := (loadedImg b).gen, imgId := leAt b 20 8,
                            nFall := if l.second then incSat 8 l.nFall else l.nFall }) s

theorem loadedImg_gen (b : List Byte) : (loadedImg b).gen = hdrGen b := by
  unfold loadedImg imgOf
  split <;> rfl

theorem imageTaken_within (b : List Byte) (s : State) : Within [.regs, .tb, .rtc, .wdt, .intc, .fab, .fe, .rcp, .saf] s (imageTaken b s) :=
  modSaf_within (applyMemory_within (chooseCal_within (applyTypes_within (Within.refl _ _) rfl) rfl) rfl) rfl

/-- What follows the image: a fall-back is raised, the timebase starts anew where its profile changed, and address, rates and inhibit follow. -/
theorem applyImage_follows (b : List Byte) (s : State) :
    Within [.fab, .tb, .link, .out, .ch, .sump] (toSelftest b (s.ldr.order.headD 0) (imageTaken b s)) (applyImage b s) := by
  unfold applyImage
  extract_lets m s1 slot s2 s3 s4
  have fallback : Within [.fab, .tb, .link, .out, .ch, .sump] s2 s3 := .ite (raise_within (Within.refl _ _) rfl) (Within.refl _ _)
  have anew : Within [.fab, .tb, .link, .out, .ch, .sump] s2 s4 := .ite fallback (modTb_within fallback rfl)
  exact inhUpdate_within (updateWcr_within (takeAddress_within (seedLine_within anew rfl) rfl) rfl) rfl

/-! ### The end of LOAD -/

/-- What keeps of a state while its sessions close outside SERVICE. -/
structure KeepsLoad (s t : State) : Prop where
  mode : t.mode = s.mode
  loadTk : t.ldr.loadTk = s.ldr.loadTk
  ch : t.ch = s.ch
  saf : t.saf = s.saf

theorem KeepsLoad.refl (s : State) : KeepsLoad s s := ⟨rfl, rfl, rfl, rfl⟩

theorem KeepsLoad.trans {s t u : State} (h : KeepsLoad s t) (k : KeepsLoad t u) : KeepsLoad s u :=
  ⟨k.mode.trans h.mode, k.loadTk.trans h.loadTk, k.ch.trans h.ch, k.saf.trans h.saf⟩

theorem KeepsLoad.of_within {l : List Part} {s t : State} (w : Within l s t) (mode : .mode ∉ l) (ldr : .ldr ∉ l) (ch : .ch ∉ l) (saf : .saf ∉ l) :
    KeepsLoad s t := ⟨w .mode mode, congrArg Loader.loadTk (w .ldr ldr), w .ch ch, w .saf saf⟩

theorem dropSession_loadTk (i : Nat) (s : State) : (dropSession i s).ldr.loadTk = s.ldr.loadTk := by
  unfold dropSession
  extract_lets s1 s2 s3 mine record s4
  have rings : s3.ldr = s.ldr :=
    loopRing_ldr (upto 64) (fun _ r => { r with owner := if r.owner = some i then none else r.owner, stream := if r.stream = some i then none else r.stream }) s
  have update : s4.ldr.loadTk = s.ldr.loadTk := by
    rw [← rings]
    unfold s4
    split <;> rfl
  split
  · exact update
  · exact update

theorem leaveSeat_keepsLoad (i : Nat) (lost : Bool) (s : State) : KeepsLoad s (leaveSeat i lost s) := by
  have frame := leaveSeat_frame i lost s
  refine ⟨frame .mode (by decide), ?_, frame .ch (by decide), frame .saf (by decide)⟩
  exact (congrArg Loader.loadTk (leaveSeat_within i lost s .ldr (by decide))).trans (dropSession_loadTk i s)

theorem closeSession_keepsLoad (i : Nat) (lost : Bool) (other : s.mode ≠ .service) : KeepsLoad s (closeSession i lost s) := by
  cases stands : s.getSess i with
  | none =>
    unfold closeSession
    rw [stands]
    exact .refl s
  | some x =>
    rw [closeSession_of_stands stands, if_neg other]
    have seat := leaveSeat_keepsLoad i lost s
    split
    · exact seat
    · split
      · exact seat.trans ⟨rfl, rfl, rfl, rfl⟩
      · exact seat

theorem keepSessions_keepsLoad (other : s.mode ≠ .service) : KeepsLoad s (keepSessions s) := by
  have closed : KeepsLoad s (forEach (upto 4) (closeSession · true) s) :=
    forEach_keeps (P := KeepsLoad s) (fun i t h => h.trans (closeSession_keepsLoad i true (by rw [h.mode]; exact other))) _ (.refl s)
  unfold keepSessions
  extract_lets key same s1
  have seated : KeepsLoad s s1 := by
    unfold s1
    split
    · exact .refl s
    · exact closed.trans (.of_within (takeAddress_within (modLink_within (Within.refl [.link, .out] _) rfl) rfl) (by decide) (by decide) (by decide) (by decide))
  exact seated.trans ⟨rfl, rfl, rfl, rfl⟩

/-! ### Channels after LOAD -/

/-- A loop whose turn `i` changes channel `i` alone does to channel `k` what turn `k` does. -/
theorem getCh_loop {P : Channel → Channel → Prop} {f : Nat → State → State} {k : Nat} (other : ∀ i t, k ≠ i → (f i t).getCh k = t.getCh k)
    (own : ∀ t, P (t.getCh k) ((f k t).getCh k)) {l : List Nat} (distinct : l.Nodup) (mem : k ∈ l) (s : State) :
    P (s.getCh k) ((forEach l f s).getCh k) := by
  have still (l : List Nat) (t : State) (out : k ∉ l) : (forEach l f t).getCh k = t.getCh k := by
    unfold forEach
    induction l generalizing t with
    | nil => rfl
    | cons i l ih =>
      rw [List.mem_cons, not_or] at out
      exact (ih (f i t) out.2).trans (other i t out.1)
  obtain ⟨a, b, rfl⟩ := List.append_of_mem mem
  obtain ⟨-, rest, apart⟩ := List.nodup_append.mp distinct
  have before : k ∉ a := fun h => apart k h k List.mem_cons_self rfl
  have after : k ∉ b := (List.nodup_cons.mp rest).1
  have turn := own (forEach a f s)
  rw [still a s before] at turn
  have split : (forEach (a ++ k :: b) f s).getCh k = (f k (forEach a f s)).getCh k := by
    unfold forEach
    rw [List.foldl_append, List.foldl_cons]
    exact still b _ after
  rwa [split]

/-- Channel `k` as the image declares it, its front ends judged by their failed passes (R361). -/
def ChStarted (m : Img) (failed : List Nat) (k : Nat) (old new : Channel) : Prop :=
  new.nph = m.n k ∧ new.pop = m.p k ∧ (old.safe = none → (∀ n ∈ (if 2 ≤ m.n k then [k, k + 1] else [k]), n ∉ failed) →
    new.st = if decide (0 < m.n k) && m.p k then .idle else .disabled)

theorem startCh_other {m : Img} {failed : List Nat} {i k : Nat} (other : k ≠ i) (s : State) : (startCh m failed i s).getCh k = s.getCh k := by
  unfold startCh
  dsimp only
  rw [getCh_modCh, if_neg fun h => other h.1.symm, getCh_modCh, if_neg fun h => other h.1.symm]

theorem startCh_self {m : Img} {failed : List Nat} {k : Nat} (small : k < 128) (s : State) :
    ChStarted m failed k (s.getCh k) ((startCh m failed k s).getCh k) := by
  unfold startCh
  extract_lets old c s1 bad
  have declared : s1.getCh k = c := (getCh_modCh ..).trans (if_pos ⟨rfl, small⟩)
  have pop : populated s1 k = (decide (0 < m.n k) && m.p k) := by rw [populated, declared]
  have ends : frontEndsOf s1 k = if 2 ≤ m.n k then [k, k + 1] else [k] := by
    rw [frontEndsOf, native, declared]
    simp only [decide_eq_true_eq]
    rfl
  rw [getCh_modCh, if_pos ⟨rfl, small⟩, declared, pop]
  cases here : decide (0 < m.n k) && m.p k with
  | false => exact ⟨rfl, rfl, fun _ _ => by rw [here]; rfl⟩
  | true =>
    have stands : old = s.getCh k := rfl
    rw [← stands]
    cases safe : old.safe with
    | some x => exact ⟨rfl, rfl, fun none => by cases none.symm.trans safe⟩
    | none =>
      refine ⟨?_, ?_, fun _ good => ?_⟩
      · cases bad <;> rfl
      · cases bad <;> rfl
      · have fine : bad = false := by
          unfold bad
          rw [ends, List.any_eq_false]
          intro n there
          simpa using good n there
        rw [fine, here]
        rfl

/-- The tables of galleries, channels, front ends and estimators at the end of LOAD. -/
def tablesStarted (m : Img) (topo : List Byte) (failed : List Nat) (s : State) : State :=
  forEach (upto 128) startEst (forEach (upto 128) (startFe failed) (forEach (upto 128) (startCh m failed) (forEach (upto 8) (startGal m topo) s)))

theorem startFe_loadTk (failed : List Nat) (n : Nat) (s : State) : (startFe failed n s).ldr.loadTk = s.ldr.loadTk := by
  unfold startFe
  extract_lets bad f run g s1
  split
  · rw [raiseA_ldr]
    rfl
  · rfl

section
variable {m : Img} {topo : List Byte} {failed : List Nat}

theorem tablesStarted_frame : Within [.gal, .ch, .fe, .ldr, .fab, .est] s (tablesStarted m topo failed s) :=
  .forEach (fun _ _ => startEst_within (Within.refl _ _) rfl) (.forEach (fun _ _ => startFe_within (.refl _ _) rfl) (.forEach (fun _ _ => startCh_within (.refl _ _) rfl)
    (.forEach (fun _ _ => startGal_within (.refl _ _) rfl) (.refl _ _))))

theorem tablesStarted_loadTk : (tablesStarted m topo failed s).ldr.loadTk = s.ldr.loadTk := by
  unfold tablesStarted
  generalize channels : forEach (upto 128) (startCh m failed) (forEach (upto 8) (startGal m topo) s) = u
  have before : Within [.gal, .ch] s u :=
    channels ▸ .forEach (fun _ _ => startCh_within (.refl _ _) rfl) (.forEach (fun _ _ => startGal_within (.refl _ _) rfl) (.refl _ _))
  have after : Within [.est] (forEach (upto 128) (startFe failed) u) (forEach (upto 128) startEst (forEach (upto 128) (startFe failed) u)) :=
    .forEach (fun _ _ => startEst_within (Within.refl _ _) rfl) (.refl _ _)
  have ends : (forEach (upto 128) (startFe failed) u).ldr.loadTk = u.ldr.loadTk :=
    forEach_keeps (P := fun t => t.ldr.loadTk = u.ldr.loadTk) (fun n t h => (startFe_loadTk failed n t).trans h) _ rfl
  rw [after .ldr (by decide), ends, before .ldr (by decide)]

theorem tablesStarted_ch {k : Nat} (small : k < 128) : ChStarted m failed k (s.getCh k) ((tablesStarted m topo failed s).getCh k) := by
  unfold tablesStarted
  generalize galleries : forEach (upto 8) (startGal m topo) s = u
  have before : Within [.gal] s u := galleries ▸ .forEach (fun _ _ => startGal_within (.refl _ _) rfl) (.refl _ _)
  have after : Within [.fe, .ldr, .fab, .est] (forEach (upto 128) (startCh m failed) u)
      (forEach (upto 128) startEst (forEach (upto 128) (startFe failed) (forEach (upto 128) (startCh m failed) u))) :=
    .forEach (fun _ _ => startEst_within (Within.refl _ _) rfl) (.forEach (fun _ _ => startFe_within (.refl _ _) rfl) (.refl _ _))
  rw [getCh_of_ch (after .ch (by decide)), ← getCh_of_ch (before .ch (by decide))]
  exact getCh_loop (fun i t other => startCh_other other t) (fun t => startCh_self small t) (nodup_upto 128) (mem_upto small) u

end

/-- Phases, rings and timed commands at the end of LOAD. -/
def runtimeStarted (s : State) : State :=
  { s with ph := (s.ph.toList.zip (upto 128)).foldl (fun v x => tmod v x.2 (fun p => startPh s x.2 p)) s.ph,
           ring := (upto 64).foldl (fun v r => tmod v r (fun _ => startRing s r)) s.ring,
           tb := { s.tb with tc := Vector.replicate 256 {}, tcOrd := 0, tcIn := [], drain := none,
                             grp := s.tb.grp.map fun g => { g with epoch := 0, busy := false } },
           nvm := { s.nvm with scans := 0 }, fab := { s.fab with slackLow := none } }

theorem runtimeStarted_within (s : State) : Within [.ph, .ring, .tb, .nvm, .fab] s (runtimeStarted s) :=
  have parts (a b c d e : _) : Within [.ph, .ring, .tb, .nvm, .fab] s { s with ph := a, ring := b, tb := c, nvm := d, fab := e } :=
    Within.mk (Within.refl _ _) fun part outside => by cases part <;> first | rfl | exact absurd (by simp) outside
  parts _ _ _ _ _

/-- The island and the hardware watchdog slot at the end of LOAD; comparator tests are timed from `run`. -/
def islandStarted (run : Nat) (s : State) : State := hwStartSlot (updateSil (modSaf (fun f => { f with cmpFrom := run }) s))

theorem islandStarted_within (run : Nat) (s : State) : Within [.saf, .regs, .wdt] s (islandStarted run s) :=
  hwStartSlot_within (updateSil_within (modSaf_within (Within.refl _ _) rfl) rfl) rfl

/-- The loader is done, and the device runs, or would from SAFE; `old` is the state LOAD ended in. -/
def loadDone (old s : State) : State :=
  let s8 := modLdr (fun l => { l with st := .loaded, applied := true, image := none, order := [], nLoads := incSat 8 l.nLoads, time := satN (tkMs (since old l.loadTk)) 0xFFFF }) s
  if old.mode = .load then { s8 with mode := .run } else { s8 with saf := { s8.saf with from_ := .run } }

theorem loadDone_ldr (old s : State) : (loadDone old s).ldr =
    { s.ldr with st := .loaded, applied := true, image := none, order := [], nLoads := incSat 8 s.ldr.nLoads,
                 time := satN (tkMs (since old s.ldr.loadTk)) 0xFFFF } := by
  unfold loadDone
  dsimp only
  split <;> rfl

theorem loadDone_ch (old s : State) : (loadDone old s).ch = s.ch := by
  unfold loadDone
  dsimp only
  split <;> rfl

/-- What is raised and updated once the device runs. -/
def runEntered (s : State) : State := reportBackup (raiseA .fabric Cause.ldrLoaded 0xFF s.ldr.gen (updateWcr (updateSens s)))

theorem runEntered_within (s : State) : Within [.ph, .gal, .ch, .link, .fab, .rtc] s (runEntered s) :=
  reportBackup_within (raiseA_within (updateWcr_within (updateSens_within (Within.refl _ _) rfl) rfl) rfl) rfl

theorem runEntered_ch (s : State) (k : Nat) : MidOnly (s.getCh k) ((runEntered s).getCh k) := by
  have after : Within [.link, .fab, .rtc] (updateSens s) (runEntered s) :=
    reportBackup_within (raiseA_within (updateWcr_within (Within.refl _ _) rfl) rfl) rfl
  rw [getCh_of_ch (after .ch (by decide))]
  exact updateSens_midOnly s k

/-- The state at the end of LOAD before the loader is done. -/
def loadFollowed (b : List Byte) (failed : List Nat) (s : State) : State :=
  islandStarted s.tb.run (runtimeStarted (tablesStarted (loadedImg b) (((loadedImg b).sects.find? (·.type == SectT.topo)).elim [] (·.body)) failed
    (keepSessions { s with ldr := { s.ldr with echoFail := 0 } })))

theorem endLoad_eq (b : List Byte) (failed : List Nat) (s : State) : endLoad b failed s = runEntered (loadDone s (loadFollowed b failed s)) := by
  unfold endLoad loadFollowed
  extract_lets m topo record s1 s2 s3 s4 s5 tb1 nvm1 fab1 s6 s7 s8 s9
  have tables : tablesStarted m topo failed (keepSessions { s with ldr := { s.ldr with echoFail := 0 } }) = s5 := rfl
  rw [tables]
  clear_value s5
  have runtime : runtimeStarted s5 = s6 := rfl
  rw [runtime]
  clear_value s6
  have island : islandStarted s.tb.run s6 = s7 := rfl
  rw [island]
  clear_value s7
  rfl

theorem mode_of_inLoad (load : inLoad s = true) : s.mode ≠ .service := by
  intro service
  simp [inLoad, service] at load

section
variable {b : List Byte} {failed : List Nat}

theorem loadFollowed_loadTk (other : s.mode ≠ .service) : (loadFollowed b failed s).ldr.loadTk = s.ldr.loadTk := by
  unfold loadFollowed
  have kept : KeepsLoad s (keepSessions { s with ldr := { s.ldr with echoFail := 0 } }) := by
    obtain ⟨mode, loadTk, ch, saf⟩ := keepSessions_keepsLoad (s := { s with ldr := { s.ldr with echoFail := 0 } }) other
    exact ⟨mode, loadTk, ch, saf⟩
  rw [islandStarted_within _ _ .ldr (by decide), runtimeStarted_within _ .ldr (by decide), tablesStarted_loadTk, kept.loadTk]

theorem loadFollowed_mode (other : s.mode ≠ .service) : (loadFollowed b failed s).mode = s.mode := by
  unfold loadFollowed
  rw [islandStarted_within _ _ .mode (by decide), runtimeStarted_within _ .mode (by decide), tablesStarted_frame .mode (by decide)]
  exact (keepSessions_keepsLoad (s := { s with ldr := { s.ldr with echoFail := 0 } }) other).mode

theorem loadFollowed_ch (other : s.mode ≠ .service) {k : Nat} (small : k < 128) :
    ChStarted (loadedImg b) failed k (s.getCh k) ((loadFollowed b failed s).getCh k) := by
  unfold loadFollowed
  rw [getCh_of_ch (islandStarted_within _ _ .ch (by decide)), getCh_of_ch (runtimeStarted_within _ .ch (by decide))]
  have kept := (keepSessions_keepsLoad (s := { s with ldr := { s.ldr with echoFail := 0 } }) other).ch
  generalize keepSessions { s with ldr := { s.ldr with echoFail := 0 } } = u at kept ⊢
  rw [← getCh_of_ch (show u.ch = s.ch from kept)]
  exact tablesStarted_ch small

theorem endLoad_ch (other : s.mode ≠ .service) {k : Nat} (small : k < 128) :
    ChStarted (loadedImg b) failed k (s.getCh k) ((endLoad b failed s).getCh k) := by
  rw [endLoad_eq]
  have followed := loadFollowed_ch (b := b) (failed := failed) other small
  rw [← getCh_of_ch (loadDone_ch s (loadFollowed b failed s))] at followed
  have run := runEntered_ch (loadDone s (loadFollowed b failed s)) k
  obtain ⟨nph, pop, st⟩ := followed
  exact ⟨(congrArg Channel.nph run).trans nph, (congrArg Channel.pop run).trans pop, fun safe good => (congrArg Channel.st run).trans (st safe good)⟩

theorem endLoad_mode (load : s.mode = .load) : (endLoad b failed s).mode = .run := by
  rw [endLoad_eq, runEntered_within _ .mode (by decide), loadDone]
  exact congrArg State.mode (if_pos load)

theorem endLoad_from (safe : s.mode ≠ .load) (other : s.mode ≠ .service) :
    (endLoad b failed s).mode = s.mode ∧ (endLoad b failed s).saf.from_ = .run := by
  have done : loadDone s (loadFollowed b failed s) = _ := if_neg safe
  rw [endLoad_eq, runEntered_within _ .mode (by decide), runEntered_within _ .saf (by decide), done]
  exact ⟨loadFollowed_mode other, rfl⟩

theorem endLoad_ldr (other : s.mode ≠ .service) : (endLoad b failed s).ldr.st = .loaded ∧ (endLoad b failed s).ldr.applied = true ∧
    (endLoad b failed s).ldr.image = none ∧ (endLoad b failed s).ldr.time = satN (tkMs (since s s.ldr.loadTk)) 0xFFFF := by
  rw [endLoad_eq, runEntered_within _ .ldr (by decide), loadDone_ldr]
  refine ⟨rfl, rfl, rfl, ?_⟩
  dsimp only
  rw [loadFollowed_loadTk other]

end

theorem exec_endOfLoad {fails : List (Fin 128 × Fin 6)} {b : List Byte} (tested : s.ldr.st = .selftest) (load : inLoad s = true)
    (image : s.ldr.image = some b) : exec (.endOfLoad fails) s =
      .next (endLoad b ((fails.filter fun x => decide (2 ≤ x.2.val)).map (·.1.val)) s) := by
  refine (if_pos ⟨tested, load⟩).trans ?_
  rw [image]

theorem exec_endOfLoad_other {fails : List (Fin 128 × Fin 6)} (h : s.ldr.st ≠ .selftest ∨ inLoad s = false ∨ s.ldr.image = none) :
    exec (.endOfLoad fails) s = .next s := by
  by_cases due : s.ldr.st = .selftest ∧ inLoad s = true
  · have image : s.ldr.image = none := h.resolve_left (fun st => st due.1) |>.resolve_left (by simp [due.2])
    refine (if_pos due).trans ?_
    rw [image]
  · exact if_neg due

theorem exec_imageApplyDone {b : List Byte} (applying : s.ldr.st = .applying) (load : inLoad s = true) (image : s.ldr.image = some b) :
    exec .imageApplyDone s = .next (applyImage b s) := by
  refine (if_pos ⟨applying, load⟩).trans ?_
  rw [image]

theorem exec_imageApplyDone_other (h : s.ldr.st ≠ .applying ∨ inLoad s = false ∨ s.ldr.image = none) : exec .imageApplyDone s = .next s := by
  by_cases due : s.ldr.st = .applying ∧ inLoad s = true
  · have image : s.ldr.image = none := h.resolve_left (fun st => st due.1) |>.resolve_left (by simp [due.2])
    refine (if_pos due).trans ?_
    rw [image]
  · exact if_neg due

/-- A front end with fewer than two failed passes is not among the failed (R361). -/
theorem failed_of_counts {fails : List (Fin 128 × Fin 6)} {n : Nat}
    (few : ∀ c, ((n, c) ∈ fails.map fun x => (x.1.val, x.2.val)) → c < 2) :
    n ∉ (fails.filter fun x => decide (2 ≤ x.2.val)).map (·.1.val) := by
  intro failed
  obtain ⟨x, there, rfl⟩ := List.mem_map.mp failed
  obtain ⟨listed, twice⟩ := List.mem_filter.mp there
  have fewer := few x.2.val (List.mem_map.mpr ⟨x, listed, rfl⟩)
  have more := of_decide_eq_true twice
  omega

theorem haltLoader_event (cause : Nat) (s : State) : ∃ e ∈ (haltLoader cause s).fab.events, e.cause = cause := by
  obtain ⟨e, there, is, -⟩ := raiseSrc_fabric cause 0xFF (eventSource cause 0xFF) 0 [] (modLdr (fun l => { l with st := .halted }) s)
  exact ⟨e, there, is⟩

end

/-- Settles O20: each step of start-up acts in its own state of the loader; the store is read once, the slots in their order, and the
end of LOAD starts each table anew. -/
theorem startUpStepsOfTheLoader : Obligations.StartUpStepsOfTheLoader := by
  unfold Obligations.StartUpStepsOfTheLoader
  refine ⟨fun s load boot good => ?_, fun s load boot bad => ?_, fun s ok other => ?_, fun s load boot fused fresh => ?_, fun s ok other => ?_,
    fun s ok other => ?_, fun s load boot fused checked accepted => ?_, fun s r load boot fused checked refused => ?_,
    fun s t2 load boot fused checked late => ?_, fun s t2 ok fused early => ?_, fun s slot bytes theirs fail drop ok other => ?_,
    fun s slot bytes theirs fail drop reading load => ?_, fun s slot bytes theirs fail drop reading load fresh mine none => ?_,
    fun s slot bytes theirs fail drop n rest reading load order wrong => ?_, fun s slot bytes theirs drop c rest reading load order => ?_,
    fun s slot bytes theirs drop rest reading load order => ?_, fun s b applying load image => ?_, fun s fails other => ?_,
    fun s b fails tested load image => ?_⟩
  · exact (exec_fuseRead load boot).trans (congrArg Host.Outcome.next (if_pos good))
  · exact (exec_fuseRead load boot).trans (congrArg Host.Outcome.next (if_neg (by simp [bad])))
  · refine ⟨if_neg fun h => ?_, exec_islandSelfCheckDone_other (other.imp_right .inl), exec_storeRecallDone_other (other.imp_right .inl),
      exec_recallTimeout_other (other.imp_right .inl)⟩
    exact other.elim (· h.1) (· h.2)
  · exact ⟨exec_islandSelfCheckDone load boot fused fresh, exec_islandSelfCheckDone load boot fused fresh⟩
  · exact exec_islandSelfCheckDone_other (.inr (.inr other))
  · refine ⟨exec_storeRecallDone_other (.inr (.inr other)), exec_recallTimeout_other (.inr (.inr ?_))⟩
    exact other.imp_left fun none => by rw [recallLate, none]
  · refine ⟨(exec_storeRecallDone load boot fused checked).trans ?_, (exec_storeRecallDone load boot fused checked).trans ?_⟩
    · rw [accepted]
      simp only [afterRecall, if_true]
    · rw [accepted]
      simp only [afterRecall, Bool.false_eq_true, if_false]
      generalize recallAll s = u
      rfl
  · have run (ok : Bool) : exec (.storeRecallDone ok) s = .next (afterRecall ok (refuseRecall r s)) := by
      rw [exec_storeRecallDone load boot fused checked, refused]
    have ldr := refuseRecall_ldr r s
    have nvm := refuseRecall_nvm r s
    have out := refuseRecall_out r s
    obtain ⟨noStore, nPfw, nVin, nBrown, nLong⟩ := refuseRecall_seq r s
    generalize refuseRecall r s = u at *
    have halted := haltLoader_within (Within.refl [.ldr, .fab] u) (x0 := Cause.ldrRomFail) rfl
    refine ⟨_, _, run true, run false, rfl, (congrArg Loader.recallRef ldr :), (congrArg Nvm.refused nvm :), (congrArg Nvm.recalled nvm :),
      (congrArg Loader.patch ldr :), noStore, nPfw, nVin, nBrown, nLong, rfl, ?_, ?_, haltLoader_event _ u⟩
    · exact (congrArg Nvm.refused (halted .nvm (by decide))).trans (congrArg Nvm.refused nvm)
    · exact (halted .out (by decide)).trans out
  · have run (ok : Bool) : exec (.recallTimeout ok) s = .next (afterRecall ok (refuseRecall 3 s)) :=
      exec_recallTimeout load boot (by rw [recallLate, fused]; exact decide_eq_true late) checked
    have nvm := refuseRecall_nvm 3 s
    have out := refuseRecall_out 3 s
    have event := refuseRecall_event 3 s
    generalize refuseRecall 3 s = u at *
    have halted := haltLoader_within (Within.refl [.ldr, .fab] u) (x0 := Cause.ldrRomFail) rfl
    refine ⟨_, _, run true, run false, rfl, (congrArg Nvm.refused nvm :), ?_, rfl, ?_, ?_, event, haltLoader_event _ u⟩
    · rw [← out]
      exact List.append_assoc u.out [_] [_]
    · exact (congrArg Nvm.refused (halted .nvm (by decide))).trans (congrArg Nvm.refused nvm)
    · exact (halted .out (by decide)).trans out
  · refine exec_recallTimeout_other (.inr (.inr (.inl ?_)))
    rw [recallLate, fused]
    exact decide_eq_false (by omega)
  · exact if_pos (by simpa using other)
  · have seen := slotSeen_within (readOrder slot bytes theirs s) drop s
    have run := exec_imageReadDone_broken (slot := slot) (bytes := bytes) (other := theirs) (fail := fail) (drop := drop) reading load
    generalize slotSeen (readOrder slot bytes theirs s) drop s = u at *
    exact ⟨_, run, rfl, (haltLoader_within (Within.refl [.ldr, .fab] u) rfl .regs (by decide)).trans (seen .regs (by decide)), haltLoader_event _ u⟩
  · have seen := slotSeen_within [] drop s
    have run := exec_imageReadDone_none (fail := fail) (drop := drop) reading load (readOrder_none (slot := slot) fresh mine none)
    generalize slotSeen [] drop s = u at *
    exact ⟨_, run, rfl, seen .regs (by decide)⟩
  · have seen := nacksSeen_within (Within.refl [.twi, .free] s) (x0 := 255) rfl
    have run := exec_imageReadDone_wrong (bytes := bytes) (other := theirs) (fail := fail) (drop := drop) reading load order wrong
    unfold slotSeen at run
    generalize nacksSeen 255 s = u at *
    have loader : u.ldr = s.ldr := seen .ldr (by decide)
    exact ⟨_, run, (congrArg Loader.st loader).trans reading, order.symm, congrArg (· ++ [_]) (seen .out (by decide)), seen .regs (by decide)⟩
  · have run := exec_imageReadDone_mine (bytes := bytes) (other := theirs) (fail := some c) (drop := drop) reading load order
    have seen := slotSeen_within (slot.val :: rest) drop s
    have ldr := slotSeen_ldr (slot.val :: rest) drop s
    generalize slotSeen (slot.val :: rest) drop s = u at *
    have left : u.ldr.order = slot.val :: rest := (congrArg Loader.order ldr :)
    have cause : u.ldr.cause = s.ldr.cause := (congrArg Loader.cause ldr :)
    have st : u.ldr.st = .reading := ((congrArg Loader.st ldr).trans reading :)
    obtain ⟨regs, -, order', first, last, more⟩ := slotFails_spec (cause := c) (sect := 0xFF) left
    rw [cause] at first
    refine ⟨_, run, regs.trans (seen .regs (by decide)), order', fun none => first.trans (if_pos none), fun some => first.trans (if_neg some), last,
      fun m l h => ?_⟩
    obtain ⟨reads, second, out⟩ := more m l h
    exact ⟨reads.trans st, second, out.trans (congrArg (· ++ [_]) (seen .out (by decide)))⟩
  · have run := exec_imageReadDone_mine (bytes := bytes) (other := theirs) (fail := none) (drop := drop) reading load order
    have seen := slotSeen_within (slot.val :: rest) drop s
    have ldr := slotSeen_ldr (slot.val :: rest) drop s
    generalize slotSeen (slot.val :: rest) drop s = u at *
    have left : u.ldr.order = slot.val :: rest := (congrArg Loader.order ldr :)
    cases checked : checkContainer bytes with
    | inr m =>
      rw [checked] at run
      exact ⟨_, run, seen .regs (by decide), seen .mode (by decide), fun _ _ => ⟨rfl, rfl, left.trans order.symm, rfl⟩, fun e h => by cases h⟩
    | inl e =>
      rw [checked] at run
      have cause : u.ldr.cause = s.ldr.cause := (congrArg Loader.cause ldr :)
      have st : u.ldr.st = .reading := ((congrArg Loader.st ldr).trans reading :)
      obtain ⟨regs, mode, order', first, last, more⟩ := slotFails_spec (cause := e.1) (sect := e.2) left
      rw [cause] at first
      refine ⟨_, run, regs.trans (seen .regs (by decide)), mode.trans (seen .mode (by decide)), fun m h => by (cases h), ?_⟩
      rintro _ ⟨⟩
      refine ⟨order', fun none => first.trans (if_pos none), last, fun m l h => ?_⟩
      obtain ⟨reads, second, out⟩ := more m l h
      exact ⟨reads.trans st, second, out.trans (congrArg (· ++ [_]) (seen .out (by decide)))⟩
  · have run := exec_imageApplyDone applying load image
    have after := applyImage_follows b s
    have taken := imageTaken_within b s
    have recipes : (imageTaken b s).rcp.rcp = payloadsOf (loadedImg b) SectT.rcp := rfl
    generalize imageTaken b s = u at *
    have ldr : u.ldr = s.ldr := taken .ldr (by decide)
    have moved : (applyImage b s).ldr = (toSelftest b (s.ldr.order.headD 0) u).ldr := after .ldr (by decide)
    refine ⟨_, run, (congrArg Loader.st moved :), (congrArg Loader.slot moved :), ?_, (congrArg Loader.gen moved).trans (loadedImg_gen b), ?_, ?_, ?_⟩
    · exact (congrArg Loader.fallback moved).trans (congrArg Loader.second ldr)
    · exact (congrArg Recipes.rcp (after .rcp (by decide))).trans recipes
    · exact (after .mode (by decide)).trans (taken .mode (by decide))
    · exact (after .ph (by decide)).trans (taken .ph (by decide))
  · exact ⟨exec_imageApplyDone_other other, fun h => exec_endOfLoad_other h⟩
  · have other := mode_of_inLoad load
    generalize failing : (fails.filter fun x => decide (2 ≤ x.2.val)).map (·.1.val) = failed
    have run := exec_endOfLoad (fails := fails) tested load image
    rw [failing] at run
    have frame := endLoad_within (Within.refl [.mode, .regs, .tb, .ph, .gal, .fe, .ch, .est, .link, .ring, .saf, .ldr, .rtc, .wdt, .nvm, .acc, .fab, .out] s)
      (x0 := b) (x1 := failed) rfl
    obtain ⟨st, applied, done, time⟩ := endLoad_ldr (b := b) (failed := failed) other
    refine ⟨_, run, endLoad_mode, fun safe => endLoad_from safe other, st, applied, done, time, frame .rcp (by decide), frame .sump (by decide),
      fun k small => ?_⟩
    obtain ⟨nph, pop, state⟩ := endLoad_ch (b := b) (failed := failed) other small
    refine ⟨nph, pop, fun safe few => ?_⟩
    have ends : frontEndsOf (endLoad b failed s) k = if 2 ≤ (loadedImg b).n k then [k, k + 1] else [k] := by
      simp only [frontEndsOf, native, nph, decide_eq_true_eq]
    rw [populated, nph, pop]
    rw [ends] at few
    exact state safe fun n there => failing ▸ failed_of_counts (few n there)

end Sys2Proof.Machine
end

section
/-!
Timed commands (R254 to R263): judged at the front of the input, cancelled, released ahead of their tick, and completed.
-/

namespace Sys2Proof.Machine

section
variable {s : State}

/-! ### The table -/

theorem getTc_of_tc {s t : State} (same : t.tb.tc = s.tb.tc) (j : Nat) : t.getTc j = s.getTc j := by simp [State.getTc, same]

theorem getTc_modTc_self {i : Nat} (small : i < 256) (f : TcEnt → TcEnt) (s : State) : (modTc i f s).getTc i = f (s.getTc i) :=
  (getTc_modTc ..).trans (if_pos ⟨rfl, small⟩)

theorem getTc_modTc_other {i j : Nat} (other : j ≠ i) (f : TcEnt → TcEnt) (s : State) : (modTc i f s).getTc j = s.getTc j :=
  (getTc_modTc ..).trans (if_neg fun h => other h.1.symm)

theorem groupIdle_tc (g : Nat) (s : State) : (groupIdle g s).tb.tc = s.tb.tc := by
  unfold groupIdle
  split <;> rfl

/-! ### Judging and answering -/

theorem exec_timed {c : Instr} {kind : Nat} (listed : (c, kind) ∈ [(Instr.tcmdLaunch, 1), (.tcmdSetpoint, 2), (.tcmdGroupRelease, 3),
    (.tcmdChannelCmd, 4), (.tcmdMode, 5), (.tcmdCancel, 6)]) (s : State) : exec c s = .next (tcTake kind s) := by
  simp only [List.mem_cons, List.not_mem_nil, or_false, Prod.mk.injEq] at listed
  rcases listed with ⟨rfl, rfl⟩ | ⟨rfl, rfl⟩ | ⟨rfl, rfl⟩ | ⟨rfl, rfl⟩ | ⟨rfl, rfl⟩ | ⟨rfl, rfl⟩ <;> rfl

theorem tcTake_other {kind : Nat} (other : ∀ x ∈ s.tb.tcIn.head?, Tc.kind x.2.2 ≠ kind) : tcTake kind s = s := by
  unfold tcTake
  cases input : s.tb.tcIn with
  | nil => rfl
  | cons x rest => exact if_neg (other x (by rw [input]; rfl))

theorem tcTake_front {sess rsn : Nat} {b : List Byte} {rest : List (Nat × Nat × List Byte)} (input : s.tb.tcIn = (sess, rsn, b) :: rest) :
    tcTake (Tc.kind b) s = tcJudge sess rsn b { s with tb := { s.tb with tcIn := rest } } := by
  unfold tcTake
  rw [input]
  exact if_pos rfl

section
variable {sess rsn i : Nat} {b : List Byte}

theorem tcJudge_refused {c : Nat} (refused : tcRefused s b = some c) : tcJudge sess rsn b s = tcAnswer c sess rsn (Tc.tag b) s := by
  unfold tcJudge
  rw [refused]

theorem tcJudge_cancel (fine : tcRefused s b = none) (cancel : Tc.kind b = 6) :
    tcJudge sess rsn b s = tcAnswer (tcCancel b s).1 sess rsn (Tc.tag b) (tcCancel b s).2 := by
  unfold tcJudge
  rw [fine]
  exact if_pos cancel

/-- An accepted command takes its slot with the next order number. -/
def tcTaken (i sess rsn : Nat) (b : List Byte) (s : State) : State :=
  modTb (fun t => { t with tcOrd := t.tcOrd + 1 })
    (modTc i (fun _ => { slot := .pending, raw := b, sess := sess, rsn := rsn, ord := s.tb.tcOrd }) s)

theorem tcJudge_taken (fine : tcRefused s b = none) (kind : Tc.kind b ≠ 6) (free : tcFree s = some i) :
    tcJudge sess rsn b s = tcAnswer Cause.tcmdAccepted sess rsn (Tc.tag b) (tcTaken i sess rsn b s) := by
  unfold tcJudge
  rw [fine, free]
  exact if_neg kind

end

/-! ### Completion -/

/-- The entry of a completed command. -/
def tcEnded (outcome : Nat) (e : TcEnt) : TcEnt := { e with slot := .completed, outcome := outcome, missed := e.left }

/-- The entry is completed, its record made, and each target left raises MISSED. -/
def tcReported (i outcome : Nat) (s : State) : State :=
  forEach (bitsOf 128 (s.getTc i).left) (fun k t => raiseA .fabric Cause.missed k (Tc.tag (s.getTc i).raw) t)
    (raiseSrc .fabric Cause.tcmdDone 0xFF 142 4 (tcRecord (tcEnded outcome (s.getTc i))) (modTc i (fun _ => tcEnded outcome (s.getTc i)) s))

theorem tcComplete_eq (i outcome : Nat) (s : State) : tcComplete i outcome s =
    if Tc.kind (s.getTc i).raw ≤ 4 ∧ Tc.group (s.getTc i).raw ≤ 15 then groupIdle (Tc.group (s.getTc i).raw) (tcReported i outcome s)
    else tcReported i outcome s := rfl

theorem tcReported_tc (i outcome : Nat) (s : State) :
    (tcReported i outcome s).tb.tc = (modTc i (fun _ => tcEnded outcome (s.getTc i)) s).tb.tc := by
  have loud : Within [.fab] (modTc i (fun _ => tcEnded outcome (s.getTc i)) s) (tcReported i outcome s) :=
    .forEach (fun _ _ => raiseA_within (.refl _ _) rfl) (raiseSrc_within (.refl _ _) rfl)
  rw [loud .tb (by decide)]

theorem tcComplete_tc (i outcome : Nat) (s : State) :
    (tcComplete i outcome s).tb.tc = (modTc i (fun _ => tcEnded outcome (s.getTc i)) s).tb.tc := by
  rw [tcComplete_eq]
  split
  · exact (groupIdle_tc ..).trans (tcReported_tc i outcome s)
  · exact tcReported_tc i outcome s

theorem getTc_tcComplete_self {i : Nat} (small : i < 256) (outcome : Nat) (s : State) :
    (tcComplete i outcome s).getTc i = tcEnded outcome (s.getTc i) :=
  (getTc_of_tc (tcComplete_tc i outcome s) i).trans (getTc_modTc_self small _ s)

theorem getTc_tcComplete_other {i j : Nat} (other : j ≠ i) (outcome : Nat) (s : State) : (tcComplete i outcome s).getTc j = s.getTc j :=
  (getTc_of_tc (tcComplete_tc i outcome s) j).trans (getTc_modTc_other other _ s)

theorem tcComplete_events (i outcome : Nat) (s : State) : (tcComplete i outcome s).fab = (tcReported i outcome s).fab := by
  rw [tcComplete_eq]
  split
  · unfold groupIdle
    split <;> rfl
  · rfl

/-- What one turn of a loop raises stays while the loop raises more. -/
theorem forEach_event {f : Nat → State → State} {P : Nat → Event → Prop} (grows : ∀ i t, Grows t (f i t))
    (raises : ∀ i t, ∃ e ∈ (f i t).fab.events, P i e) {l : List Nat} {k : Nat} (mem : k ∈ l) (s : State) :
    ∃ e ∈ (forEach l f s).fab.events, P k e := by
  obtain ⟨a, b, rfl⟩ := List.append_of_mem mem
  obtain ⟨e, there, is⟩ := raises k (forEach a f s)
  have split : forEach (a ++ k :: b) f s = forEach b f (f k (forEach a f s)) := by
    unfold forEach
    rw [List.foldl_append, List.foldl_cons]
  rw [split]
  exact ⟨e, Grows.forEach grows (Grows.refl _) e there, is⟩

theorem raiseA_event (cause ch arg : Nat) (s : State) : ∃ e ∈ (raiseA .fabric cause ch arg s).fab.events, e.cause = cause ∧ e.ch = ch := by
  obtain ⟨e, there, is, -, on, -⟩ := raiseSrc_fabric cause ch (eventSource cause ch) 2 (leBytes 4 arg) s
  exact ⟨e, there, is, on⟩

theorem tcComplete_done (i outcome : Nat) (s : State) : ∃ x ∈ (tcComplete i outcome s).fab.events, x.cause = Cause.tcmdDone := by
  rw [tcComplete_events]
  obtain ⟨e, there, is, -⟩ := raiseSrc_fabric Cause.tcmdDone 0xFF 142 4 (tcRecord (tcEnded outcome (s.getTc i)))
    (modTc i (fun _ => tcEnded outcome (s.getTc i)) s)
  exact ⟨e, Grows.forEach (fun _ _ => raiseA_grows (Grows.refl _)) (Grows.refl _) e there, is⟩

theorem tcComplete_missed {k : Nat} (left : (s.getTc i).left.testBit k = true) (small : k < 128) (outcome : Nat) :
    ∃ x ∈ (tcComplete i outcome s).fab.events, x.cause = Cause.missed ∧ x.ch = k := by
  rw [tcComplete_events]
  exact forEach_event (fun _ _ => raiseA_grows (Grows.refl _)) (fun k t => raiseA_event Cause.missed k _ t)
    (List.mem_filter.mpr ⟨List.mem_range.mpr small, left⟩) _

/-! ### Cancelling -/

/-- The entries a CANCEL may name: those with its tag that are neither free nor cancelled before (R262). -/
def tcNamed (b : List Byte) (e : TcEnt) : Bool :=
  Tc.tag e.raw == Tc.cancel b && e.slot != .free && !(e.slot == .completed && e.outcome == 5)

theorem tcCancel_eq (b : List Byte) (s : State) : tcCancel b s = match tcFind s (fun e => tcNamed b e && e.slot == .pending) with
    | i :: _ => (Cause.tcmdAccepted, tcAnswer Cause.tcmdCancelled (s.getTc i).sess (s.getTc i).rsn (Tc.tag (s.getTc i).raw)
        (tcComplete i 5 (modTc i (fun e => { e with l := tickOf s (Tc.time e.raw), epoch := Tc.epoch e.raw }) s)))
    | [] => (if (tcFind s (tcNamed b)).isEmpty then Cause.tcmdBad else Cause.tcmdCancelLate, s) := rfl

theorem tcInsert_ne_nil (x : Nat × Nat) (l : List (Nat × Nat)) : tcInsert x l ≠ [] := by
  cases l with
  | nil => exact List.cons_ne_nil _ _
  | cons y l =>
    unfold tcInsert
    split <;> exact List.cons_ne_nil _ _

/-- A search is empty exactly when no entry fits. -/
theorem tcFind_eq_nil {p : TcEnt → Bool} : tcFind s p = [] ↔ ∀ x ∈ s.tb.tc.toList.zip (upto 256), p x.1 = false := by
  have fold (xs : List (TcEnt × Nat)) (l : List (Nat × Nat)) :
      xs.foldl (fun l x => if p x.1 then tcInsert (x.1.ord, x.2) l else l) l = [] ↔ l = [] ∧ ∀ x ∈ xs, p x.1 = false := by
    induction xs generalizing l with
    | nil => simp
    | cons x xs ih =>
      rw [List.foldl_cons, ih, List.forall_mem_cons]
      cases fits : p x.1 with
      | true => simp [tcInsert_ne_nil]
      | false => simp
  unfold tcFind
  rw [List.map_eq_nil_iff, fold]
  simp only [true_and]

section
variable {b : List Byte} {i : Nat}

theorem tcCancel_unknown (none : tcFind s (tcNamed b) = []) : tcCancel b s = (Cause.tcmdBad, s) := by
  have pending : tcFind s (fun e => tcNamed b e && e.slot == .pending) = [] :=
    tcFind_eq_nil.mpr fun x there => by rw [tcFind_eq_nil.mp none x there, Bool.false_and]
  rw [tcCancel_eq, pending, none]
  rfl

theorem tcCancel_late (named : tcFind s (tcNamed b) ≠ []) (late : tcFind s (fun e => tcNamed b e && e.slot == .pending) = []) :
    tcCancel b s = (Cause.tcmdCancelLate, s) := by
  rw [tcCancel_eq, late]
  exact congrArg (·, s) (if_neg (by simpa using named))

theorem tcCancel_first {l : List Nat} (first : tcFind s (fun e => tcNamed b e && e.slot == .pending) = i :: l) : tcCancel b s =
    (Cause.tcmdAccepted, tcAnswer Cause.tcmdCancelled (s.getTc i).sess (s.getTc i).rsn (Tc.tag (s.getTc i).raw)
      (tcComplete i 5 (modTc i (fun e => { e with l := tickOf s (Tc.time e.raw), epoch := Tc.epoch e.raw }) s))) := by
  rw [tcCancel_eq, first]

end

theorem getTc_tcAnswer (cause sess rsn tag j : Nat) (s : State) : (tcAnswer cause sess rsn tag s).getTc j = s.getTc j := rfl

theorem tcAnswer_events (cause sess rsn tag : Nat) (s : State) : ∃ e, (tcAnswer cause sess rsn tag s).fab.events = s.fab.events ++ [e] ∧
    e.cause = cause ∧ e.arg = leBytes 4 tag ++ leBytes 4 rsn ∧ e.ring = some (52 + sess) := ⟨_, rfl, rfl, rfl, rfl⟩

/-! ### Release -/

/-- The epoch a command is released under: its group's, or its own where it has none. -/
def epochAtRelease (b : List Byte) (s : State) : Nat :=
  if decide (Tc.kind b ≤ 4) && decide (Tc.group b ≤ 15) then (s.getGrp (Tc.group b)).epoch else Tc.epoch b

/-- The entry is released, and its tick, targets and epoch stand. -/
def tcReleased (e : Nat) (b : List Byte) (s : State) : State :=
  modTc e (fun x => { x with slot := .released, l := tickOf s (Tc.time b), targets := tcTargets s b, epoch := epochAtRelease b s,
                             epochBad := epochAtRelease b s != Tc.epoch b }) s

theorem exec_tcmdRelease {e : Fin 256} (pending : (s.getTc e).slot = .pending) (near : Tc.time (s.getTc e).raw ≤ lineU s + 16 * 2 ^ 19) :
    exec (.tcmdRelease e) s = .next (if Tc.kind (s.getTc e).raw = 5 ∧ s.tb.drain = none then
      startDrain (if Tc.target (s.getTc e).raw = 1 then .rest else .load) (tickOf s (Tc.time (s.getTc e).raw)) (Tc.drainMs (s.getTc e).raw)
        (some e.val) (tcReleased e (s.getTc e).raw s)
      else tcReleased e (s.getTc e).raw s) := if_pos ⟨pending, near⟩

theorem exec_tcmdDone {e : Fin 256} (released : (s.getTc e).slot = .released) : exec (.tcmdDone e) s =
    if Tc.kind (s.getTc e).raw = 5 then
      .next (if !(match s.tb.drain with | some d => d.entry == some e.val | none => false) && decide ((s.getTc e).l ≤ s.tb.run)
        then tcComplete e 2 s else s)
    else if ((s.getTc e).l ≤ s.tb.run ∧ (s.getTc e).applied = (s.getTc e).targets ∧ (s.getTc e).lastTk = 0) ∨
        (s.getTc e).l + Tc.grace (s.getTc e).raw < s.tb.run then .next (tcComplete e (tcOutcome (s.getTc e)) s)
    else .next s := if_pos released

end

/-- Settles O37: the front record alone is judged, in the order given; a command is released ahead of its tick and completes once, and
each moves its own slot. -/
theorem timedCommandsAreJudgedReleasedAndCompleted : Obligations.TimedCommandsAreJudgedReleasedAndCompleted := by
  unfold Obligations.TimedCommandsAreJudgedReleasedAndCompleted
  refine ⟨fun s c kind listed other => ?_, fun s u sess rsn b rest c kind listed input is front => ?_, fun s cause sess rsn tag => ?_,
    fun b s p named => ?_, fun s e early => ?_, fun s e b pending raw near => ?_, fun s e x here h => ?_, fun s e x here released kind due => ?_,
    fun s e x here released kind due foreign => ?_, fun s e o => ?_, fun e fine => ?_, fun e bad => if_pos bad⟩
  · rw [exec_timed listed, tcTake_other other]
  · subst is
    have run : exec c s = .next (tcJudge sess rsn b u) := by rw [exec_timed listed, tcTake_front input, front]
    have same : tcFree u = tcFree s := by rw [front]; rfl
    have order : u.tb.tcOrd = s.tb.tcOrd := by rw [front]
    have table (j : Nat) : u.getTc j = s.getTc j := by rw [front]; rfl
    have input' : u.tb.tcIn = rest := by rw [front]
    have frame : Within [.tb] s u := front ▸ Within.set_tb (Within.refl _ _) rfl
    refine ⟨fun x refused => run.trans (congrArg _ (tcJudge_refused refused)), fun i kind fine free small => ?_,
      fun kind fine => run.trans (congrArg _ (tcJudge_cancel fine kind))⟩
    refine ⟨tcTaken i sess rsn b u, run.trans (congrArg _ (tcJudge_taken fine kind (same.trans free))), input', ?_, fun j other => ?_, ?_, ?_⟩
    · rw [← order]
      exact getTc_modTc_self small _ u
    · exact (getTc_modTc_other other _ u).trans (table j)
    · exact congrArg (· + 1) order
    · exact modTb_within (modTc_within frame rfl) rfl
  · obtain ⟨e, events, is, arg, ring⟩ := tcAnswer_events cause sess rsn tag s
    exact ⟨_, e, rfl, events, is, arg, ring, pushEvent_within (Within.refl _ _) rfl⟩
  · have is : p = tcNamed b := named
    subst is
    refine ⟨tcCancel_unknown, tcCancel_late, fun i l first small => ?_⟩
    rw [tcCancel_first first]
    have done := getTc_tcComplete_self small 5 (modTc i (fun e => { e with l := tickOf s (Tc.time e.raw), epoch := Tc.epoch e.raw }) s)
    refine ⟨rfl, ?_, ?_, fun j other => ?_, ?_⟩
    · exact (congrArg TcEnt.slot ((getTc_tcAnswer ..).trans done) :)
    · exact (congrArg TcEnt.outcome ((getTc_tcAnswer ..).trans done) :)
    · exact (getTc_tcAnswer ..).trans ((getTc_tcComplete_other other _ _).trans (getTc_modTc_other other _ s))
    · exact ⟨_, List.mem_append_right _ List.mem_cons_self, rfl⟩
  · refine if_neg fun h => ?_
    exact early.elim (· h.1) fun later => absurd h.2 (Nat.not_le.mpr later)
  · subst raw
    have run := exec_tcmdRelease pending near
    have self : (tcReleased e (s.getTc e).raw s).getTc e = _ := getTc_modTc_self e.isLt _ s
    have others (j : Nat) (other : j ≠ e.val) : (tcReleased e (s.getTc e).raw s).getTc j = s.getTc j := getTc_modTc_other other _ s
    have drain : (tcReleased e (s.getTc e).raw s).tb.drain = s.tb.drain := rfl
    have epoch : Tc.kind (s.getTc e).raw ≤ 4 → Tc.group (s.getTc e).raw ≤ 15 →
        epochAtRelease (s.getTc e).raw s = (s.getGrp (Tc.group (s.getTc e).raw)).epoch := fun kind group => if_pos (by simp [kind, group])
    generalize stage : tcReleased e (s.getTc e).raw s = u at *
    have facts (t : State) (same : t.tb.tc = u.tb.tc) : (t.getTc e).slot = .released ∧ (t.getTc e).l = tickOf s (Tc.time (s.getTc e).raw) ∧
        (t.getTc e).targets = tcTargets s (s.getTc e).raw ∧ (t.getTc e).raw = (s.getTc e).raw ∧
        (Tc.kind (s.getTc e).raw ≤ 4 → Tc.group (s.getTc e).raw ≤ 15 →
          (t.getTc e).epoch = (s.getGrp (Tc.group (s.getTc e).raw)).epoch ∧
          ((t.getTc e).epochBad = true ↔ (s.getGrp (Tc.group (s.getTc e).raw)).epoch ≠ Tc.epoch (s.getTc e).raw)) ∧
        (∀ j, j ≠ e.val → t.getTc j = s.getTc j) := by
      rw [getTc_of_tc same, self]
      refine ⟨rfl, rfl, rfl, rfl, fun kind group => ⟨epoch kind group, ?_⟩, fun j other => (getTc_of_tc same j).trans (others j other)⟩
      rw [← epoch kind group]
      exact bne_iff_ne
    by_cases mode : Tc.kind (s.getTc e).raw = 5 ∧ s.tb.drain = none
    · obtain ⟨slot, l, targets, raw, grouped, apart⟩ := facts (startDrain (if Tc.target (s.getTc e).raw = 1 then .rest else .load)
        (tickOf s (Tc.time (s.getTc e).raw)) (Tc.drainMs (s.getTc e).raw) (some e.val) u) rfl
      exact ⟨_, run.trans (congrArg _ (if_pos mode)), slot, l, targets, raw, grouped, fun _ _ => ⟨_, rfl, rfl, rfl, rfl, rfl⟩,
        fun other => absurd mode.1 other, apart⟩
    · obtain ⟨slot, l, targets, raw, grouped, apart⟩ := facts u rfl
      exact ⟨u, run.trans (congrArg _ (if_neg mode)), slot, l, targets, raw, grouped, fun kind none => absurd ⟨kind, none⟩ mode, fun _ => drain, apart⟩
  · subst here
    by_cases released : (s.getTc e).slot = .released
    · rw [exec_tcmdDone released]
      rcases h with idle | ⟨kind, open_, early⟩ | ⟨kind, early⟩
      · exact absurd released idle
      · rw [if_neg kind]
        exact if_neg fun h => h.elim open_ fun later => absurd early (Nat.not_le.mpr later)
      · rw [if_pos kind]
        refine congrArg Host.Outcome.next (if_neg ?_)
        rcases early with early | ⟨d, drain, mine⟩
        · simp [Nat.not_le.mpr early]
        · simp [drain, mine]
    · exact if_neg released
  · subst here
    rw [exec_tcmdDone released, if_neg kind]
    exact if_pos due
  · subst here
    rw [exec_tcmdDone released, if_pos kind]
    refine congrArg Host.Outcome.next (if_pos ?_)
    cases drain : s.tb.drain with
    | none => simp [due]
    | some d => simp [due, foreign d drain]
  · have small := e.isLt
    have done := getTc_tcComplete_self small o s
    exact ⟨_, rfl, (congrArg TcEnt.slot done :), (congrArg TcEnt.outcome done :), (congrArg TcEnt.missed done :),
      fun j other => getTc_tcComplete_other other o s, tcComplete_done e o s, fun k left below => tcComplete_missed left below o,
      tcComplete_within (Within.refl _ _) rfl⟩
  · exact if_neg (by simp [fine])

end Sys2Proof.Machine
end

section
/-!
Base samples and full FIFOs (R96 to R113, R484): own, replaced, waiting for the partner, and failed parity.
-/

namespace Sys2Proof.Machine

section
variable {s u : State} {n : Nat}

theorem getFe_of_fe {s t : State} (h : t.fe = s.fe) (k : Nat) : t.getFe k = s.getFe k := by simp [State.getFe, h]

theorem getFe_modFe_self (small : n < 128) (f : FrontEnd → FrontEnd) (s : State) : (modFe n f s).getFe n = f (s.getFe n) :=
  (getFe_modFe ..).trans (if_pos ⟨rfl, small⟩)

theorem getFe_modFe_other {j : Nat} (other : j ≠ n) (f : FrontEnd → FrontEnd) (s : State) : (modFe n f s).getFe j = s.getFe j :=
  (getFe_modFe ..).trans (if_neg fun h => other h.1.symm)

theorem chanOr_of_ch (h : u.ch = s.ch) (n : Nat) : chanOr u n = chanOr s n := by
  have same : u.getCh = s.getCh := funext (getCh_of_ch h)
  unfold chanOr chanOf
  rw [same]

theorem partner_of_ch (h : u.ch = s.ch) (n : Nat) : partner u n = partner s n := by
  unfold partner native
  rw [chanOr_of_ch h]
  dsimp only
  rw [getCh_of_ch h]

/-! ### The Echo pass and what a sample reads of it -/

/-- An Echo pass with a sample in its window (R102). -/
def echoWith (run : Nat) (v i : Int) (p : EchoPass) : EchoPass :=
  if 5 ≤ run - p.start ∧ run - p.start ≤ 20 then { p with v0 := p.v0 + v, i0 := p.i0 + i }
  else if 25 ≤ run - p.start ∧ run - p.start ≤ 40 then { p with v1 := p.v1 + v, i1 := p.i1 + i }
  else if 45 ≤ run - p.start ∧ run - p.start ≤ 60 then { p with v2 := p.v2 + v, i2 := p.i2 + i }
  else p

theorem echoWith_start (run : Nat) (v i : Int) (p : EchoPass) : (echoWith run v i p).start = p.start := by
  unfold echoWith
  split
  · rfl
  split
  · rfl
  split <;> rfl

/-- A front end that has taken a word of good parity, and of its Echo pass the start. -/
def Heard (p q : FrontEnd) : Prop := ∃ e : Option EchoPass, q = { p with parRun := 0, echo := e } ∧ e.map (·.start) = p.echo.map (·.start)

/-- A word of good parity, and the Echo pass's sums. -/
def heardSample (n : Nat) (v i : Int) (s : State) : State := echoAdd n v i (modFe n (fun f => { f with parRun := 0 }) s)

theorem heardSample_within (n : Nat) (v i : Int) (s : State) : Within [.fe] s (heardSample n v i s) :=
  echoAdd_within (modFe_within (Within.refl _ _) rfl) rfl

theorem heardSample_self (small : n < 128) (v i : Int) (s : State) : Heard (s.getFe n) ((heardSample n v i s).getFe n) := by
  have good := getFe_modFe_self small (fun f => { f with parRun := 0 }) s
  unfold heardSample
  generalize modFe n (fun f => { f with parRun := 0 }) s = t at *
  unfold echoAdd
  split
  next idle =>
    rw [good] at idle ⊢
    exact ⟨_, rfl, rfl⟩
  next p pass =>
    rw [good] at pass
    refine ⟨some (echoWith t.tb.run v i p), ?_, ?_⟩
    · exact (getFe_modFe_self small _ t).trans (by rw [good]; rfl)
    · rw [pass]
      exact congrArg some (echoWith_start ..)

theorem heardSample_other {j : Nat} (other : j ≠ n) (v i : Int) (s : State) : (heardSample n v i s).getFe j = s.getFe j := by
  have good := getFe_modFe_other other (fun f => { f with parRun := 0 }) s
  rw [← good]
  unfold heardSample echoAdd
  split
  · rfl
  · exact getFe_modFe_other other _ _

section
variable (heard : Heard (s.getFe n) (u.getFe n)) (time : u.tb = s.tb)
include heard time

theorem settling_heard : settling u n = settling s n := by
  obtain ⟨e, is, starts⟩ := heard
  unfold settling
  rw [is, time]
  dsimp only
  congr 1
  cases e with
  | none => cases old : (s.getFe n).echo with
    | none => rfl
    | some p => simp [old] at starts
  | some q => cases old : (s.getFe n).echo with
    | none => simp [old] at starts
    | some p =>
      simp only [old, Option.map_some, Option.some.injEq] at starts
      simp [starts]

theorem sampleFlags_heard (base : Nat) (o sub : Bool) : sampleFlags u n base o sub = sampleFlags s n base o sub := by
  unfold sampleFlags
  rw [settling_heard heard time]
  obtain ⟨e, is, -⟩ := heard
  rw [is]

theorem echoOut_heard (nat : Bool) : echoOut u n nat = echoOut s n nat := by
  obtain ⟨e, is, starts⟩ := heard
  unfold echoOut
  rw [is, time]
  dsimp only
  congr 2
  cases e with
  | none => cases old : (s.getFe n).echo with
    | none => rfl
    | some p => simp [old] at starts
  | some q => cases old : (s.getFe n).echo with
    | none => simp [old] at starts
    | some p =>
      simp only [old, Option.map_some, Option.some.injEq] at starts
      simp [starts]

theorem replaced_heard (channels : u.ch = s.ch) : replaced u n = replaced s n := by
  have partners : partner u n = partner s n := partner_of_ch channels n
  unfold replaced
  rw [echoOut_heard heard time, partners]
  obtain ⟨e, is, -⟩ := heard
  rw [stepping, is, time]
  rfl

end

/-! ### The path's own sample -/

theorem iUa_of_regs (h : u.regs = s.regs) (n : Nat) (i : Int) : iUa u n i = iUa s n i := by simp only [iUa, rsh, cfgI, cfgW, h]

theorem ownValue_good (small : n < 128) (s : State) (cv ci : Int) :
    ownValue (modFe n (fun f => { f with parRun := 0 }) s) n cv ci = ownValue s n cv ci := by
  have range : ownRange (modFe n (fun f => { f with parRun := 0 }) s) n = ownRange s n := by
    unfold ownRange
    rw [getFe_modFe_self small]
    rfl
  unfold ownValue
  rw [range]
  rfl

theorem sampleFlags_subst (s : State) (n base : Nat) (o sub : Bool) : bitN (sampleFlags s n base o sub) 2 = (bitN base 2 || sub) := by
  unfold sampleFlags bitN
  rw [Nat.testBit_or]
  congr 1
  generalize settling s n = x
  generalize ((s.getFe n).calSrc == 0) = y
  cases o <;> cases x <;> cases sub <;> cases y <;> rfl

/-- The path's own sample, entered. -/
def ownTaken (n : Nat) (v i : Int) (vO iO enc : Bool) (s : State) : State :=
  confirmSample n v vO (takeSample n v i (sampleFlags s n 0 (vO || iO) false) vO iO (vO || iO) enc s)

section
variable {cv ci v i : Int} {vO iO enc ok : Bool}

theorem feSample_idle (h : s.mode.up = false ∨ fePowered s n = false ∨ sampleSeen s n = true) : feSample n cv ci ok enc s = s := by
  refine if_pos ?_
  rcases h with h | h | h <;> simp [h]

section
variable (up : s.mode.up = true) (powered : fePowered s n = true) (unseen : sampleSeen s n = false)
include up powered unseen

theorem feSample_bad : feSample n cv ci false enc s = substOrWait n enc (parityFail n s) :=
  (if_neg (by simp [up, powered, unseen])).trans (if_pos rfl)

theorem feSample_good (small : n < 128) (own : ownValue s n cv ci = (v, i, vO, iO)) : feSample n cv ci true enc s =
    if replaced (heardSample n v i s) n then substOrWait n enc (heardSample n v i s)
    else wakePartner n (ownTaken n v i vO iO enc (heardSample n v i s)) := by
  unfold feSample
  rw [if_neg (by simp [up, powered, unseen]), if_neg (by decide)]
  dsimp only
  rw [ownValue_good small, own]
  rfl

end

theorem ownTaken_self (small : n < 128) : Kept { s.getFe n with
      vs := v, is := i, icur := satI 32 (iUa s n i), fl := sampleFlags s n 0 (vO || iO) false, stk := s.tb.run,
      acc := signN 64 (wrapN 64 ((s.getFe n).acc + i)), accLast := i, accSubst := (s.getFe n).accSubst,
      accOvr := if (vO || iO) = true then incSat 32 (s.getFe n).accOvr else (s.getFe n).accOvr,
      hist := ((ownTaken n v i vO iO enc s).getFe n).hist } ((ownTaken n v i vO iO enc s).getFe n) := by
  have taken := (takeSample_sample n v i (sampleFlags s n 0 (vO || iO) false) vO iO (vO || iO) enc s).2 small
  have own : bitN (sampleFlags s n 0 (vO || iO) false) 2 = false := sampleFlags_subst ..
  rw [own] at taken
  exact taken

theorem ownTaken_other {j : Nat} (other : j ≠ n) : Kept (s.getFe j) ((ownTaken n v i vO iO enc s).getFe j) :=
  (takeSample_sample n v i (sampleFlags s n 0 (vO || iO) false) vO iO (vO || iO) enc s).1 j other

theorem wakePartner_other {j : Nat} (idle : (s.getFe j).waitSub = none) : Kept (s.getFe j) ((wakePartner n s).getFe j) := by
  unfold wakePartner
  split
  next m is =>
    split
    next e waits =>
      have apart : j ≠ m := fun same => by rw [same, waits] at idle; cases idle
      exact takeSubst_other m e s j apart
    · exact .refl _
  · exact .refl _

end

/-! ### Failed parity -/

/-- The word is counted and its bit set. -/
def parityCounted (n : Nat) (s : State) : State := feCond n 8 true (modFe n (fun f => { f with parRun := satN ((s.getFe n).parRun + 1) 3 }) s)

theorem parityFail_eq (n : Nat) (s : State) : parityFail n s = if (s.getFe n).parRun + 1 = 3
    then faultNext (chanOr s n) Cause.feParity (raiseA .fabric Cause.feParity (chanOr s n) n (parityCounted n s)) else parityCounted n s := rfl

theorem parityCounted_self (small : n < 128) (s : State) : ((parityCounted n s).getFe n).parRun = satN ((s.getFe n).parRun + 1) 3 ∧
    bitN ((parityCounted n s).getFe n).flt 8 = true := by
  unfold parityCounted feCond
  rw [getFe_modFe_self small, getFe_modFe_self small]
  exact ⟨rfl, bitN_setBitN ..⟩

theorem parityFail_fe (n : Nat) (s : State) : (parityFail n s).fe = (parityCounted n s).fe := by
  rw [parityFail_eq]
  split
  · exact faultNext_within (raiseA_within (Within.refl [.ch, .fab] _) rfl) rfl .fe (by decide)
  · rfl

theorem faultNext_self {k cause : Nat} (small : k < 128) (fresh : (s.getCh k).fltNext = none) (on : (s.getCh k).st ≠ .disabled)
    (fine : (s.getCh k).st ≠ .fault) : ((faultNext k cause s).getCh k).fltNext = some cause := by
  unfold faultNext
  rw [getCh_modCh, if_pos ⟨rfl, small⟩, if_neg (by simp [fresh, on, fine])]

/-! ### Substitution -/

section
variable {m : Nat} {enc : Bool}

theorem substOrWait_takes (h : partner s n = none ∨ stepping s n = true ∨ ∃ m, partner s n = some m ∧ (s.getFe m).waitSub = none ∧ sampleSeen s m = true) :
    substOrWait n enc s = takeSubst n enc s := by
  unfold substOrWait
  split
  · rfl
  next m is =>
    rcases h with h | h | ⟨m', is', idle, seen⟩
    · cases h.symm.trans is
    · exact if_pos h
    · cases is.symm.trans is'
      rw [idle]
      dsimp only
      rw [if_pos seen, ite_self]

theorem substOrWait_partner (is : partner s n = some m) (still : stepping s n = false) : substOrWait n enc s =
    match (s.getFe m).waitSub with
    | some e => takeSubst n enc (takeSubst m e s)
    | none => if sampleSeen s m then takeSubst n enc s else modFe n (fun f => { f with waitSub := some enc }) s := by
  unfold substOrWait
  rw [is]
  refine (if_neg (by simp [still])).trans ?_
  cases (s.getFe m).waitSub <;> rfl

/-- The front end waits no more. -/
def unwaited (n : Nat) (s : State) : State := modFe n (fun f => { f with waitSub := none }) s

theorem takeSubst_eq {v i : Int} {fl : Nat} {vO iO ovr : Bool} (value : substValue s n = ((v, i, fl), vO, iO, ovr)) : takeSubst n enc s =
    takeSample n v i (sampleFlags s n (fl &&& 9) false true) vO iO ovr enc (unwaited n s) := by
  unfold takeSubst
  rw [value]
  rfl

theorem takeSubst_self {v i : Int} {fl : Nat} {vO iO ovr : Bool} (value : substValue s n = ((v, i, fl), vO, iO, ovr)) (small : n < 128) :
    Kept { (unwaited n s).getFe n with
      vs := v, is := i, icur := satI 32 (iUa s n i), fl := sampleFlags s n (fl &&& 9) false true, stk := s.tb.run,
      acc := signN 64 (wrapN 64 ((s.getFe n).acc + i)), accLast := i, accSubst := incSat 32 (s.getFe n).accSubst,
      accOvr := if ovr then incSat 32 (s.getFe n).accOvr else (s.getFe n).accOvr,
      hist := ((takeSubst n enc s).getFe n).hist } ((takeSubst n enc s).getFe n) := by
  rw [takeSubst_eq value]
  have taken := (takeSample_sample n v i (sampleFlags s n (fl &&& 9) false true) vO iO ovr enc (unwaited n s)).2 small
  have subst : bitN (sampleFlags s n (fl &&& 9) false true) 2 = true := by rw [sampleFlags_subst, Bool.or_true]
  have quiet : (unwaited n s).getFe n = _ := getFe_modFe_self small _ s
  have current : iUa (unwaited n s) n i = iUa s n i := iUa_of_regs rfl n i
  rw [subst, current] at taken
  rw [quiet] at taken ⊢
  exact taken

theorem substValue_own {x : Samp} {l : List Samp} (mine : (s.getFe n).hist = x :: l)
    (alone : partner s n = none ∨ ∃ m, partner s n = some m ∧ (s.getFe m).hist = []) : substValue s n = ((x.v, x.i, x.fl), x.vO, x.iO, false) := by
  unfold substValue
  rw [mine]
  rcases alone with none | ⟨m, is, empty⟩
  · rw [none]
  · rw [is]
    dsimp only
    rw [empty]

theorem substValue_partner {x : Samp} {l : List Samp} (is : partner s n = some m) (theirs : (s.getFe m).hist = x :: l) (now : x.run = s.tb.run)
    (own : bitN x.fl 2 = false) : substValue s n = ((x.v, x.i, x.fl), x.vO, x.iO, bitN x.fl 0) := by
  unfold substValue
  rw [is]
  dsimp only
  rw [theirs]
  exact if_pos ⟨now, own⟩

end

end

/-- Settles O27: a front end's sample of the tick enters once, as its own or as a substitute, and no other path's does. -/
theorem baseSamplesEnterTheFrontEnd : Obligations.BaseSamplesEnterTheFrontEnd := by
  unfold Obligations.BaseSamplesEnterTheFrontEnd
  refine ⟨fun s n cv ci ok enc idle => congrArg Host.Outcome.next (feSample_idle idle),
    fun s n cv ci enc v i vO iO up powered unseen own value => ?_, fun s n cv ci enc up powered unseen subst => ?_,
    fun s n cv ci enc up powered unseen => congrArg Host.Outcome.next (feSample_bad up powered unseen), fun s n => ?_,
    fun s n enc h => substOrWait_takes h, fun s n enc m is still => ⟨fun idle unseen => ?_, fun e waits => ?_⟩,
    fun s n enc v i fl vO iO ovr value => ?_, fun s n m x l is theirs now own => substValue_partner is theirs now own,
    fun s n x l mine alone => substValue_own mine alone, fun s code ci enc up => ?_, fun s code ci ok enc h => ?_, fun s n off => ?_,
    fun s n up powered => ⟨_, rfl, fun seen => ?_, fun unseen => ?_⟩⟩
  · have small := n.isLt
    have run := feSample_good (enc := enc) up powered unseen small value
    have heard := heardSample_self small v i s
    have others (j : Nat) (other : j ≠ n.val) := heardSample_other other v i s
    have frame := heardSample_within n v i s
    generalize heardSample n v i s = u at *
    have time : u.tb = s.tb := frame .tb (by decide)
    rw [replaced_heard heard time (frame .ch (by decide)), own] at run
    have taken := ownTaken_self (s := u) (v := v) (i := i) (vO := vO) (iO := iO) (enc := enc) small
    have beside (j : Nat) (other : j ≠ n.val) := ownTaken_other (s := u) (v := v) (i := i) (vO := vO) (iO := iO) (enc := enc) other
    have after : Within [.ph, .gal, .fe, .ch, .est, .ring, .sqz, .fab, .free] u (ownTaken n v i vO iO enc u) :=
      confirmSample_within (takeSample_within (Within.refl _ _) rfl) rfl
    rw [sampleFlags_heard heard time, iUa_of_regs (s := s) (frame .regs (by decide)), time] at taken
    generalize ownTaken n v i vO iO enc u = w at *
    have final := taken.trans (wakePartner_own n w)
    obtain ⟨e, is, -⟩ := heard
    rw [is] at final
    refine ⟨_, congrArg Host.Outcome.next run, (congrArg FrontEnd.vs final :), (congrArg FrontEnd.is final :), (congrArg FrontEnd.icur final :),
      (congrArg FrontEnd.stk final :), (congrArg FrontEnd.parRun final :), (congrArg FrontEnd.fl final :), (congrArg FrontEnd.acc final :),
      (congrArg FrontEnd.accSubst final :), (congrArg FrontEnd.accOvr final :), fun j other idle => ?_, ?_⟩
    · have kept := beside j other
      rw [others j other] at kept
      have still : (w.getFe j).waitSub = none := (congrArg FrontEnd.waitSub kept).trans idle
      have all := kept.trans (wakePartner_other still (n := n))
      exact ⟨(congrArg FrontEnd.vs all :), (congrArg FrontEnd.is all :), (congrArg FrontEnd.acc all :), (congrArg FrontEnd.stk all :)⟩
    · exact wakePartner_within ((frame.mono rfl).andThen after rfl) rfl
  · rcases value : ownValue s n cv ci with ⟨v, i, vO, iO⟩
    have small := n.isLt
    have run := feSample_good (enc := enc) up powered unseen small value
    have heard := heardSample_self small v i s
    have frame := heardSample_within n v i s
    refine ⟨heardSample n v i s, ?_, ?_, ?_, ?_, ?_, fun j other => heardSample_other other v i s, frame⟩
    · rw [replaced_heard heard (frame .tb (by decide)) (frame .ch (by decide)), subst] at run
      exact congrArg Host.Outcome.next run
    all_goals
      obtain ⟨e, is, -⟩ := heard
      rw [is]
  · obtain ⟨counted, bit⟩ := parityCounted_self n.isLt s
    have same := getFe_of_fe (parityFail_fe n s) n
    rw [same]
    refine ⟨counted, bit, fun fewer => ?_, fun third => ?_⟩
    · rw [parityFail_eq, if_neg (by omega)]
      exact feCond_within (modFe_within (Within.refl _ _) rfl) rfl
    · have fails : parityFail n s = _ := (parityFail_eq n s).trans (if_pos (by omega))
      rw [fails]
      refine ⟨?_, fun fresh on fine => ?_⟩
      · obtain ⟨e, there, is, -⟩ := raiseSrc_fabric Cause.feParity (chanOr s n) (eventSource Cause.feParity (chanOr s n)) 2 (leBytes 4 n)
          (parityCounted n s)
        exact ⟨e, there, is⟩
      · have same : ((raiseA .fabric Cause.feParity (chanOr s n) n (parityCounted n s))).getCh (chanOr s n) = s.getCh (chanOr s n) := rfl
        exact faultNext_self (chanOr_lt s n) (same ▸ fresh) (same ▸ on) (same ▸ fine)
  · exact (substOrWait_partner is still).trans (by rw [idle]; exact if_neg (by simp [unseen]))
  · exact (substOrWait_partner is still).trans (by rw [waits])
  · have small := n.isLt
    have taken := takeSubst_self (enc := enc) value small
    have others (j : Nat) (other : j ≠ n.val) := takeSubst_other n enc s j other
    have quiet : (unwaited n s).getFe n = _ := getFe_modFe_self small _ s
    rw [quiet] at taken
    have flags : bitN (sampleFlags s n (fl &&& 9) false true) 2 = true := by rw [sampleFlags_subst, Bool.or_true]
    refine ⟨(congrArg FrontEnd.vs taken :), (congrArg FrontEnd.is taken :), ?_, (congrArg FrontEnd.acc taken :),
      (congrArg FrontEnd.waitSub taken :), (congrArg FrontEnd.accSubst taken :), (congrArg FrontEnd.stk taken :),
      fun j other => (congrArg FrontEnd.acc (others j other) :), takeSubst_within (Within.refl _ _) rfl⟩
    exact (congrArg (fun f : FrontEnd => bitN f.fl 2) taken).trans flags
  · refine ⟨_, congrArg Host.Outcome.next (if_pos (by simp [up])), ?_, sumpSample_within (Within.refl _ _) rfl⟩
    unfold sumpSample
    dsimp only
    split <;> rfl
  · exact congrArg Host.Outcome.next (if_neg (by rcases h with h | h <;> simp [h]))
  · exact if_pos (by rcases off with h | h <;> simp [h])
  · exact (if_neg (by simp [up, powered])).trans (congrArg Host.Outcome.next (if_pos seen))
  · exact (if_neg (by simp [up, powered])).trans (congrArg Host.Outcome.next (if_neg (by simpa using unseen)))

end Sys2Proof.Machine
end

section
/-!
Launch groups (R257 to R264), the drain of the device (R265), the PPS pulse (R268) and the hand-off to the calendar (R411 to R413).
-/

namespace Sys2Proof.Machine

section
variable {s : State}

/-! ### Groups -/

theorem getGrp_modGrp_self {g : Nat} (small : g < 16) (f : Group → Group) (s : State) : (modGrp g f s).getGrp g = f (s.getGrp g) :=
  (getGrp_modGrp ..).trans (if_pos ⟨rfl, small⟩)

theorem getGrp_modGrp_other {g j : Nat} (other : j ≠ g) (f : Group → Group) (s : State) : (modGrp g f s).getGrp j = s.getGrp j :=
  (getGrp_modGrp ..).trans (if_neg fun h => other h.1.symm)

/-- Word `w` of a mask that is committed: the held one, or that of the mask in force. -/
def maskWord (x : Group) (w : Nat) : Nat := match x.held.getD w none with | some y => y.toNat | none => fieldN x.mask (32 * w) 32

theorem commitMask_eq (g : Nat) (v : Word) (s : State) : commitMask g v s = modGrp g (fun x =>
    { x with mask := maskWord x 0 + maskWord x 1 * 2 ^ 32 + maskWord x 2 * 2 ^ 64 + v.toNat * 2 ^ 96, held := [none, none, none],
             epoch := (x.epoch + 1) % 2 ^ 32 }) s := rfl

/-- With no word held the committed mask keeps its lower three words. -/
theorem maskWords_kept {x : Group} (held : x.held = [none, none, none]) :
    maskWord x 0 + maskWord x 1 * 2 ^ 32 + maskWord x 2 * 2 ^ 64 = x.mask % 2 ^ 96 := by
  have word (w : Nat) (three : w < 3) : maskWord x w = x.mask / 2 ^ (32 * w) % 2 ^ 32 := by
    have none : x.held.getD w none = none := by
      rw [held]
      rcases w with _ | _ | _ | w
      · rfl
      · rfl
      · rfl
      · omega
    unfold maskWord
    rw [none]
    exact congrArg (· % 2 ^ 32) (Nat.shiftRight_eq_div_pow ..)
  rw [word 0 (by decide), word 1 (by decide), word 2 (by decide)]
  omega

/-! ### The limit of a drain -/

theorem drainOpen_nodup (s : State) (d : DevDrain) : (drainOpen s d).Nodup :=
  (List.nodup_range.filter _).filter _

/-- An open channel at the drain's limit. -/
def forcedOff (k : Nat) (s : State) : State := openDisc k (forceZero k s)

theorem openDisc_reg (i k : Nat) (s : State) : ((openDisc i s).getCh k).reg = (s.getCh k).reg := by
  unfold openDisc
  split
  · rw [getCh_modCh]
    split <;> rfl
  · rw [getCh_modCh]
    split <;> rfl

theorem openDisc_other {i k : Nat} (other : k ≠ i) (s : State) : (openDisc i s).getCh k = s.getCh k := by
  unfold openDisc
  split
  · exact (getCh_modCh ..).trans (if_neg fun h => other h.1.symm)
  · exact (getCh_modCh ..).trans (if_neg fun h => other h.1.symm)

theorem midChannel_other {i k : Nat} (other : k ≠ i) (s : State) : (midChannel i s).getCh k = s.getCh k := by
  unfold midChannel
  rw [getCh_modCh, if_neg fun h => other h.1.symm, getCh_of_ch (midPhases_ch _ _ s)]

theorem forcedOff_other {i k : Nat} (other : k ≠ i) (s : State) : (forcedOff i s).getCh k = s.getCh k := by
  unfold forcedOff forceZero
  rw [openDisc_other other, midChannel_other other]
  exact (getCh_modCh ..).trans (if_neg fun h => other h.1.symm)

theorem forcedOff_reg {k : Nat} (small : k < 128) (s : State) : ((forcedOff k s).getCh k).reg.iDem = 0 ∧ ((forcedOff k s).getCh k).reg.cmd = none := by
  unfold forcedOff forceZero
  rw [openDisc_reg, (midChannel_midOnly k _ k).reg, getCh_modCh, if_pos ⟨rfl, small⟩]
  exact ⟨rfl, rfl⟩

/-- The drain's limit has passed with channels open (R265). -/
def drainForced (d : DevDrain) (ks : List Nat) (s : State) : State :=
  raiseA .fabric Cause.modeDrainTimeout 0xFF ks.length
    (modTb (fun t => { t with drain := some { d with timedOut := true, forced := maskOf ks } }) (forEach ks forcedOff s))

theorem exec_modeDrainTimeout {d : DevDrain} (drain : s.tb.drain = some d) : exec .modeDrainTimeout s =
    if d.timedOut = false ∧ d.from_ ≤ s.tb.run ∧ msTk d.lim < s.tb.run - d.from_ + 1 then
      (if (drainOpen s d).isEmpty then .next s else .next (drainForced d (drainOpen s d) s))
    else .next s := by
  change execModeDrainTimeout s = _
  unfold execModeDrainTimeout
  rw [drain]
  rfl

theorem exec_modeDrainTimeout_none (drain : s.tb.drain = none) : exec .modeDrainTimeout s = .next s := by
  change execModeDrainTimeout s = _
  unfold execModeDrainTimeout
  rw [drain]

/-! ### The end of a drain -/

/-- Where a finished drain goes. -/
def drainGoes (goal : DrainGoal) (s : State) : State :=
  match goal with
  | .rest => enterRest s
  | .load => enterLoad s
  | .service => enterService s
  | .off => orderlyStore s

theorem exec_deviceDrainDone {d : DevDrain} (drain : s.tb.drain = some d) : exec .deviceDrainDone s =
    if d.from_ ≤ s.tb.run ∧ (drainOpen s d).isEmpty then .next (drainGoes d.goal (modeDone d { s with tb := { s.tb with drain := none } }))
    else .next s := by
  change execDeviceDrainDone s = _
  unfold execDeviceDrainDone
  rw [drain]
  rfl

theorem exec_deviceDrainDone_none (drain : s.tb.drain = none) : exec .deviceDrainDone s = .next s := by
  change execDeviceDrainDone s = _
  unfold execDeviceDrainDone
  rw [drain]

theorem linkRest_mode (other : s.mode ≠ .service) : (linkRest s).mode = s.mode := by
  unfold linkRest
  split
  · rfl
  · have ports : Within [.link] s (portDown 1 (portDown 0 s)) := portDown_within (portDown_within (Within.refl _ _) rfl) rfl
    have closed : KeepsLoad (portDown 1 (portDown 0 s)) (forEach (upto 4) (closeSession · true) (portDown 1 (portDown 0 s))) :=
      forEach_keeps (P := KeepsLoad (portDown 1 (portDown 0 s)))
        (fun i t h => h.trans (closeSession_keepsLoad i true (by rw [h.mode, ports .mode (by decide)]; exact other))) _ (.refl _)
    exact closed.mode.trans (ports .mode (by decide))

theorem enterRest_mode (s : State) : (enterRest s).mode = .rest := by
  unfold enterRest
  generalize resting : updateSens (stopStreams (forEach (popAll s) (fun k t => estChanged k (abortEchoes k t)) { s with mode := .rest })) = u
  have mode : u.mode = .rest := by
    have frame : Within [.gal, .fe, .ring, .sqz, .fab, .free, .ph, .ch, .est] { s with mode := .rest } u := resting ▸
      updateSens_within (stopStreams_within (.forEach (fun _ _ => estChanged_within (abortEchoes_within (.refl _ _) rfl) rfl) (.refl _ _)) rfl) rfl
    exact frame .mode (by decide)
  exact (linkRest_mode (by rw [mode]; decide)).trans mode

theorem enterLoad_mode (s : State) : (enterLoad s).mode = .load := by
  unfold enterLoad
  extract_lets s1 s2 record s3
  have mode : s3.mode = .load := by
    have after : Within [.gal, .fe, .ring, .sqz, .fab, .free, .ldr] { s2 with mode := .load, ldr := { s2.ldr with loadTk := s.tb.run } } s3 :=
      abortUpd_within (stopStreams_within (.refl _ _) rfl) rfl
    exact after .mode (by decide)
  have last : Within [.ph, .gal, .ch, .fe, .ldr, .out] s3 (startRead (updateSens (forEach (popAll s) abortEchoes s3))) :=
    startRead_within (updateSens_within (.forEach (fun _ _ => abortEchoes_within (.refl _ _) rfl) (.refl _ _)) rfl) rfl
  exact (last .mode (by decide)).trans mode

/-! ### The pulse -/

theorem exec_ppsEnd (s : State) : exec .ppsEnd s =
    .next (if (∃ t, s.tb.pps = some t ∧ floorTk (ppsWidth s) ≤ since s t) then { s with tb := { s.tb with pps := none } } else s) := by
  change execPpsEnd s = _
  unfold execPpsEnd
  cases pulse : s.tb.pps with
  | none => exact congrArg Host.Outcome.next (if_neg (by simp)).symm
  | some t =>
    by_cases over_ : floorTk (ppsWidth s) ≤ since s t
    · exact congrArg Host.Outcome.next ((if_pos over_).trans (if_pos ⟨t, rfl, over_⟩).symm)
    · exact congrArg Host.Outcome.next ((if_neg over_).trans (if_neg (by simp [over_])).symm)

/-! ### The hand-off to the calendar -/

/-- The second the calendar should show, of its epoch. -/
def handoffSecond (s : State) : Int := (s.tb.sec : Int) - s.tb.utc.1 - ptpEpoch2000

/-- By how many counts of 1/32768 s the calendar is ahead. -/
def handoffError (s : State) : Int := ((calSeconds s.rtc.cal : Int) - handoffSecond s) * 32768 + s.rtc.cal.sub

/-- The calendar takes line time. -/
def handoffTaken (s : State) : State :=
  modRtc (fun r => { r with cal := calOfSeconds (handoffSecond s).toNat, utcOfs := s.tb.utc.1, valid := true, utcOk := true,
                            winSec := 0, held := false, ePrev := 0, trim := r.trimNext })
    (modRtc (fun r => { r with derr := handoffError s, disc := true }) s)

/-- The calendar is disciplined by its trim (R413). -/
def handoffTrimmed (s : State) : State :=
  let f := clampI (s.rtc.trim - (handoffError s - s.rtc.ePrev)) (-511) 511
  let t := clampI (f - rnd (handoffError s) 4) (-511) 511
  let sat := f == 511 || f == -511
  let s2 := modRtc (fun r => { r with f := f, trim := t, trimNext := t, ePrev := handoffError s, winSec := 0, held := false, trimSat := sat })
    (modRtc (fun r => { r with derr := handoffError s, disc := true }) s)
  if sat && !s.rtc.trimSat then raise .backup Cause.rtcTrimSat 0xFF s2 else s2

theorem exec_rtcHandoff_idle (h : handoffRuns s = false ∨ s.tb.sec % 64 ≠ 0 ∨ 2 ^ 19 ≤ s.tb.frac) :
    exec .rtcHandoff s = .next (if handoffRuns s then s else modRtc (fun r => { r with disc := false }) s) := if_pos h

section
variable (runs : handoffRuns s = true) (sec : s.tb.sec % 64 = 0) (start : s.tb.frac < 2 ^ 19)
include runs sec start

theorem exec_rtcHandoff_halted (halt : rtcHalt s = true) : exec .rtcHandoff s = .next (modRtc (fun r => { r with disc := false }) s) :=
  (if_neg (by simp [runs, sec]; omega)).trans (if_pos halt)

theorem exec_rtcHandoff_due (halt : rtcHalt s = false) : exec .rtcHandoff s =
    if s.rtc.valid = false ∨ s.rtc.utcOk = false ∨ 16384 ≤ (handoffError s).natAbs ∨ s.tb.utc.1 ≠ s.rtc.utcOfs then
      (if s.rtc.valid then .next (raise .backup Cause.rtcStepped 0xFF (handoffTaken s))
       else .next (raise .backup Cause.rtcSet 0xFF (modRtc (fun r => { r with f := 0, trim := 0, trimNext := 0, trimSat := false }) (handoffTaken s))))
    else .next (handoffTrimmed s) :=
  (if_neg (by simp [runs, sec]; omega)).trans (if_neg (by simp [halt]))

end

theorem handoffTaken_within (s : State) : Within [.rtc, .fab] s (handoffTaken s) := modRtc_within (modRtc_within (Within.refl _ _) rfl) rfl

theorem handoffTrimmed_rtc (s : State) : (handoffTrimmed s).rtc = { s.rtc with
      derr := handoffError s, disc := true, f := clampI (s.rtc.trim - (handoffError s - s.rtc.ePrev)) (-511) 511,
      trim := (handoffTrimmed s).rtc.trim, trimNext := (handoffTrimmed s).rtc.trimNext, ePrev := handoffError s, winSec := 0, held := false,
      trimSat := (handoffTrimmed s).rtc.trimSat } ∧
    (handoffTrimmed s).rtc.trim = clampI ((handoffTrimmed s).rtc.f - rnd (handoffError s) 4) (-511) 511 := by
  unfold handoffTrimmed
  dsimp only
  split <;> exact ⟨rfl, rfl⟩

theorem handoffTrimmed_within (s : State) : Within [.rtc, .fab] s (handoffTrimmed s) := by
  unfold handoffTrimmed
  extract_lets f t sat s2
  have trimmed : Within [.rtc, .fab] s s2 := modRtc_within (modRtc_within (Within.refl _ _) rfl) rfl
  exact .ite (raise_within trimmed rfl) trimmed

end

/-- Settles O38: groups commit and close, the drain ends where it was to go, the pulse has its second and width, and the calendar follows line time. -/
theorem groupsDrainLimitPulseAndHandoff : Obligations.GroupsDrainLimitPulseAndHandoff := by
  unfold Obligations.GroupsDrainLimitPulseAndHandoff
  refine ⟨fun s p g v c listed off => ?_, fun s p g v up busy => ⟨congrArg Host.Outcome.next (regGate_of_busy up busy _ _),
      congrArg Host.Outcome.next (regGate_of_busy up busy _ _)⟩, fun s p g v up idle => ?_, fun s p g up idle => ?_,
    fun s d drain fresh begun late left => ?_, fun s none => ?_, fun s d u drain begun closed is => ?_,
    fun u => ⟨enterRest_mode u, enterLoad_mode u, enterService_mode u⟩, fun s h => ?_, fun s => ?_, exec_ppsEnd, fun s => ?_,
    fun s runs h => ?_, fun s h => ?_, fun s runs sec start halt stopped => ?_, fun s e runs sec start halt valid is => ⟨fun far => ?_, fun ok near same => ?_⟩⟩
  · simp only [List.mem_cons, List.not_mem_nil, or_false] at listed
    rcases listed with rfl | rfl
    · exact congrArg Host.Outcome.next (regGate_of_no_path off _ _)
    · exact congrArg Host.Outcome.next (regGate_of_no_path off _ _)
  · have small := g.isLt
    have new := getGrp_modGrp_self small (fun x => { x with
      mask := maskWord x 0 + maskWord x 1 * 2 ^ 32 + maskWord x 2 * 2 ^ 64 + v.toNat * 2 ^ 96, held := [none, none, none],
      epoch := (x.epoch + 1) % 2 ^ 32 }) s
    rw [← commitMask_eq] at new
    refine ⟨_, congrArg Host.Outcome.next (regGate_of_path up idle _ _), (congrArg Group.epoch new :), (congrArg Group.held new :),
      (congrArg Group.en new :), fun a b c held => ?_, fun held _ => ?_, fun j other => getGrp_modGrp_other other _ s,
      modGrp_within (Within.refl _ _) rfl⟩
    · refine (congrArg Group.mask new).trans ?_
      simp [maskWord, held]
    · refine (congrArg Group.mask new).trans ?_
      exact congrArg (· + v.toNat * 2 ^ 96) (maskWords_kept held)
  · have new := getGrp_modGrp_self g.isLt (fun x => { x with en := false, busy := !(tcFind s fun e => e.inGroup g).isEmpty }) s
    exact ⟨_, congrArg Host.Outcome.next (regGate_of_path up idle _ _), (congrArg Group.en new :), (congrArg Group.busy new :),
      fun j other => getGrp_modGrp_other other _ s, modGrp_within (Within.refl _ _) rfl⟩
  · refine ⟨drainForced d (drainOpen s d) s, ?_, rfl, fun k small open_ => ?_, ?_⟩
    · rw [exec_modeDrainTimeout drain, if_pos ⟨fresh, begun, late⟩, if_neg (by simpa using left)]
    · exact getCh_loop (P := fun _ c => c.reg.iDem = 0 ∧ c.reg.cmd = none) (fun i t other => forcedOff_other other t) (forcedOff_reg small)
        (drainOpen_nodup s d) open_ s
    · obtain ⟨e, there, is, -⟩ := raiseA_event Cause.modeDrainTimeout 0xFF (drainOpen s d).length
        (modTb (fun t => { t with drain := some { d with timedOut := true, forced := maskOf (drainOpen s d) } }) (forEach (drainOpen s d) forcedOff s))
      exact ⟨e, there, is⟩
  · cases drain : s.tb.drain with
    | none => exact exec_modeDrainTimeout_none drain
    | some d =>
      rw [exec_modeDrainTimeout drain]
      split
      next due =>
        obtain ⟨fresh, begun, late⟩ := due
        rcases none d drain with h | h | h | h
        · exact absurd (fresh.symm.trans h) (by decide)
        · omega
        · omega
        · exact if_pos (by rw [h]; rfl)
      · rfl
  · rw [exec_deviceDrainDone drain, if_pos ⟨begun, by rw [closed]; rfl⟩, is]
    rfl
  · cases drain : s.tb.drain with
    | none => exact exec_deviceDrainDone_none drain
    | some d =>
      rw [exec_deviceDrainDone drain]
      refine if_neg fun due => ?_
      rcases h d drain with early | left
      · omega
      · exact left (by simpa using due.2)
  · exact congrArg Host.Outcome.next (if_congr (by simp) rfl rfl)
  · exact ⟨by simp [ppsActive], rfl⟩
  · exact (exec_rtcHandoff_idle (.inr (by omega))).trans (congrArg Host.Outcome.next (if_pos runs))
  · by_cases runs : handoffRuns s = true
    · obtain ⟨sec, start, halt⟩ := h.resolve_left (by simp [runs])
      exact exec_rtcHandoff_halted runs sec start halt
    · exact (exec_rtcHandoff_idle (.inl (by simpa using runs))).trans (congrArg Host.Outcome.next (if_neg runs))
  · have run := exec_rtcHandoff_due runs sec start halt
    rw [if_pos (.inl stopped), if_neg (by simp [stopped])] at run
    refine ⟨_, run, rfl, rfl, rfl, rfl, rfl, rfl, rfl, ?_, raise_within (modRtc_within (handoffTaken_within s) rfl) rfl⟩
    obtain ⟨e, there, is, -⟩ := raiseSrc_event .backup Cause.rtcSet 0xFF (eventSource Cause.rtcSet 0xFF) 0 []
      (modRtc (fun r => { r with f := 0, trim := 0, trimNext := 0, trimSat := false }) (handoffTaken s))
    exact ⟨e, there, is⟩
  · have error : handoffError s = e := is.symm
    have run := exec_rtcHandoff_due runs sec start halt
    rw [error, if_pos (.inr far), if_pos valid] at run
    refine ⟨_, run, rfl, rfl, error, ?_, raise_within (handoffTaken_within s) rfl⟩
    obtain ⟨e, there, is, -⟩ := raiseSrc_event .backup Cause.rtcStepped 0xFF (eventSource Cause.rtcStepped 0xFF) 0 [] (handoffTaken s)
    exact ⟨e, there, is⟩
  · have error : handoffError s = e := is.symm
    have run := exec_rtcHandoff_due runs sec start halt
    rw [if_neg (by simp [valid, ok, same, error]; omega)] at run
    obtain ⟨rtc, trim⟩ := handoffTrimmed_rtc s
    rw [error] at rtc trim
    exact ⟨_, run, (congrArg Rtc.cal rtc :), (congrArg Rtc.derr rtc :), (congrArg Rtc.ePrev rtc :), (congrArg Rtc.f rtc :), trim,
      handoffTrimmed_within s⟩

end Sys2Proof.Machine
end

section
/-!
The regulator, the launch tick (R242, R243), host commands to a channel (R135), the end of a drain (R134) and a cell's return (R140, R141).
-/

namespace Sys2Proof.Machine

/-! ### What a tick does not move: run time and line time -/

/-- Run time and line time stand. -/
def SameClock (s t : State) : Prop := t.tb.run = s.tb.run ∧ t.tb.sec = s.tb.sec ∧ t.tb.frac = s.tb.frac

theorem SameClock.refl (s : State) : SameClock s s := ⟨rfl, rfl, rfl⟩

theorem SameClock.trans {s t u : State} (h : SameClock s t) (k : SameClock t u) : SameClock s u :=
  ⟨k.1.trans h.1, k.2.1.trans h.2.1, k.2.2.trans h.2.2⟩

/-- A frame without the timebase. -/
theorem SameClock.frame {l : List Part} {u s t : State} (h : SameClock u s) (w : Within l s t) (free : l.contains .tb = false) : SameClock u t := by
  have same : t.tb = s.tb := w .tb (by simpa using free)
  exact h.trans ⟨by rw [same], by rw [same], by rw [same]⟩

theorem SameClock.ite {u a b : State} {c : Prop} [Decidable c] (h : SameClock u a) (k : SameClock u b) : SameClock u (if c then a else b) := by
  split <;> assumption

theorem SameClock.forEach {u s : State} {f : Nat → State → State} {xs : List Nat} (step : ∀ i t, SameClock u t → SameClock u (f i t))
    (h : SameClock u s) : SameClock u (forEach xs f s) := forEach_keeps step xs h

section
variable {u s : State} (h : SameClock u s)
include h

theorem modCh_clock {k : Nat} {f : Channel → Channel} : SameClock u (modCh k f s) := h

theorem tcApplied_clock {i k t : Nat} : SameClock u (tcApplied i k t s) := h.trans ⟨rfl, rfl, rfl⟩

theorem tcSuperseded_clock {i k : Nat} : SameClock u (tcSuperseded i k s) := h.trans ⟨rfl, rfl, rfl⟩

theorem drainStart_clock : SameClock u (drainStart s) := by
  unfold drainStart
  split
  · split
    · exact h
    · exact .ite (h.trans ⟨rfl, rfl, rfl⟩) (h.trans ⟨rfl, rfl, rfl⟩)
  · exact h

theorem markReleases_clock {pre : State} {k : Nat} {x : EngAct} : SameClock u (markReleases pre k x s) :=
  .ite (.forEach (fun _ _ kept => tcApplied_clock kept) h) h

theorem markLaunch_clock {k : Nat} {e : Option Nat} : SameClock u (markLaunch k e s) := by
  unfold markLaunch
  split
  · exact h
  · exact .forEach (fun _ _ kept => tcSuperseded_clock kept) (tcApplied_clock h)

theorem actTimed_clock {k : Nat} : SameClock u (actTimed k s) :=
  .forEach (fun _ _ kept => .ite (tcApplied_clock (kept.frame (actCmd_within (Within.refl _ _) (all_contains_self _)) rfl)) kept) h

theorem keepEdge_clock {k : Nat} {x : EngAct} : SameClock u (keepEdge k x s) := h.frame (keepEdge_within (Within.refl _ _) (all_contains_self _)) rfl

theorem actEng_clock {k : Nat} {a : EngAct} : SameClock u (actEng k a s) := by
  unfold actEng
  extract_lets take
  have took : SameClock u (take s) := h.trans ⟨rfl, rfl, rfl⟩
  split
  · exact took
  · exact modCh_clock (keepEdge_clock h)
  · exact took.frame (restartCh_within (modCh_within (Within.refl [.ch] _) rfl) rfl) rfl
  · have range : SameClock u (setRange k (autoRange s k (Hdr.iTop (boundRcp s k))) (take s)) :=
      took.frame (setRange_within (Within.refl _ _) (all_contains_self _)) rfl
    exact .ite (modCh_clock range) range
  · exact took.frame (setRange_within (stopReg_within (Within.refl [.fe, .ch] _) rfl) rfl) rfl
  · exact took.frame (quitRcp_within (Within.refl _ _) (all_contains_self _)) rfl
  · exact took.frame (engFault_within (Within.refl _ _) (all_contains_self _)) rfl
  · exact (modCh_clock (markLaunch_clock h)).frame (goOn_within (Within.refl _ _) (all_contains_self _)) rfl
  · exact took.frame (goOn_within (modCh_within (endStep_within (Within.refl [.fe, .ch, .est, .rcp, .ring, .nvm, .fab] _) rfl) rfl) rfl) rfl

theorem actStep_clock {pre : State} {k : Nat} {a : Option EngAct} : SameClock u (actStep pre k a s) := by
  unfold actStep
  split
  · exact .ite (markReleases_clock (actEng_clock h)) (keepEdge_clock (h.frame (keepRelease_within (Within.refl _ _) (all_contains_self _)) rfl))
  · exact h

theorem actCmds_clock {k : Nat} : SameClock u (actCmds k s) := by
  unfold actCmds
  extract_lets hs s1
  have host : Within [.ph, .fe, .ch, .est, .ring, .fab] s s1 :=
    .foldl (fun _ _ => actCmd_within (Within.refl _ _) rfl) (modCh_within (Within.refl _ _) rfl)
  have loss := actLoss_within (x0 := k) (x1 := s.link.lossAct.getD 0) (actLoss_within (x0 := k) (x1 := s.wdt.act) host rfl) rfl
  exact (actTimed_clock (h.frame loss rfl)).frame (actDrain_within (Within.refl _ _) (all_contains_self _)) rfl

theorem supersededAll_clock {k : Nat} {l : List Nat} : SameClock u (forEach l (fun i => tcSuperseded i k) s) :=
  .forEach (fun _ _ kept => tcSuperseded_clock kept) h

theorem appliedOpt_clock {k t : Nat} {e : Option Nat} : SameClock u (match e with | some i => tcApplied i k t s | none => s) := by
  split
  · exact tcApplied_clock h
  · exact h

theorem strikeReg_clock {k : Nat} {x : RegStage} : SameClock u (strikeReg k x s) := by
  unfold strikeReg
  extract_lets c s1 s2 s3 s4 s5 s6
  have timed : SameClock u s3 := supersededAll_clock (appliedOpt_clock (modCh_clock h))
  have lent : SameClock u s5 := by
    have slewed : SameClock u s4 := .ite (timed.frame (raise_within (Within.refl _ _) (all_contains_self _)) rfl) timed
    exact slewed.frame (setLending_within (Within.refl _ _) (all_contains_self _)) rfl
  have turned : SameClock u s6 := .ite (lent.frame (turnPhases_within (Within.refl _ _) (all_contains_self _)) rfl) lent
  refine .ite (.ite turned (turned.frame (midChannel_within (Within.refl _ _) (all_contains_self _)) rfl)) ?_
  exact turned.frame (strikeShed_within (strikeShares_within (Within.refl [.ph, .ch] _) rfl) rfl) rfl

theorem keepCmd_clock {pre : State} {k : Nat} {a : Option EngAct} : SameClock u (keepCmd pre k a s) := by
  unfold keepCmd
  extract_lets c x
  split
  · split
    · exact supersededAll_clock (appliedOpt_clock (modCh_clock h))
    · exact h
  · exact h

theorem strikeRest_clock {k : Nat} : SameClock u (strikeRest k s) := h.frame (strikeRest_within (Within.refl _ _) (all_contains_self _)) rfl

theorem strikeDemand_clock {pre : State} {k : Nat} {a : Option EngAct} : SameClock u (strikeDemand pre k a s) := by
  unfold strikeDemand
  extract_lets c p
  split
  · exact keepCmd_clock (strikeRest_clock h)
  split
  · split
    · exact strikeRest_clock h
    split
    · split
      · exact .ite (strikeReg_clock h) (strikeReg_clock h)
      · exact h
    · exact h
  split
  · exact strikeRest_clock h
  split
  · exact strikeReg_clock h
  · exact modCh_clock h

theorem countCh_clock {k : Nat} : SameClock u (countCh k s) := modCh_clock h

theorem fate_clock {k : Nat} {a : Option EngAct} {t : State} (ends : fate k a s = some t) : SameClock u t := by
  have fault (cause : Nat) : SameClock u (toFault k cause s) := h.frame (toFault_within (Within.refl _ _) (all_contains_self _)) rfl
  have entry : SameClock u (safeEntry k s) := h.frame (safeEntry_within (Within.refl _ _) (all_contains_self _)) rfl
  have forced : SameClock u (drainCh k .mode Cause.abortedMode (forceZero k s)) :=
    h.frame (drainCh_within (forceZero_within (Within.refl [.ph, .ch, .fab] _) rfl) rfl) rfl
  have lost : SameClock u (toLost k s) := h.frame (toLost_within (Within.refl _ _) (all_contains_self _)) rfl
  have engine (x : EngAct) : SameClock u (actEng k x s) := actEng_clock h
  unfold fate at ends
  extract_lets c runs at ends
  split at ends
  next cause _ =>
    split at ends
    · cases ends
    · exact Option.some.inj ends ▸ fault cause
  · split at ends
    · exact Option.some.inj ends ▸ entry
    split at ends
    · exact Option.some.inj ends ▸ forced
    split at ends
    · exact Option.some.inj ends ▸ lost
    split at ends
    next x =>
      split at ends
      · split at ends
        · cases ends
        · exact Option.some.inj ends ▸ engine x
      · cases ends
    · cases ends

theorem strikeCh_clock {pre : State} {k : Nat} : SameClock u (strikeCh pre k s) := by
  unfold strikeCh
  extract_lets a s0 a' late t1 t2 s1 s2 s3
  have counted : SameClock u s0 := countCh_clock h
  have fated : SameClock u s1 := by
    unfold s1
    split
    next t ends => exact (fate_clock counted ends).frame (keepRelease_within (Within.refl _ _) (all_contains_self _)) rfl
    · have acted : SameClock u (actStep pre k a' (actPause k (actCmds k (modCh k (fun c => { c with fltNext := none }) s0)))) :=
        actStep_clock ((actCmds_clock (modCh_clock counted)).frame (actPause_within (Within.refl _ _) (all_contains_self _)) rfl)
      exact .ite (acted.frame (deferEng_within (Within.refl _ _) (all_contains_self _)) rfl) acted
  have cleared : SameClock u s2 := .ite fated (modCh_clock fated)
  have demanded : SameClock u s3 :=
    modCh_clock (strikeDemand_clock (cleared.frame (refuseTimed_within (Within.refl _ _) (all_contains_self _)) rfl))
  exact demanded.frame (estTick_within (qualTick_within (echoTick_within (takeDefRange_within (drainTick_within (tryDisc_within
    (Within.refl [.ph, .fe, .ch, .est] _) rfl) rfl) rfl) rfl) rfl) rfl) rfl

/-! ### A device's safe state -/

theorem enterSafe_clock : SameClock u (enterSafe s) := by
  unfold enterSafe
  extract_lets record t1 s1 s2 off q
  have begun : SameClock u s1 := by
    have moved : SameClock s { s with mode := .safe, saf := { s.saf with from_ := s.mode, entry := true }, tb := { s.tb with drain := none } } := ⟨rfl, rfl, rfl⟩
    exact (h.trans moved).frame (abortAll_within (Within.refl _ _) (all_contains_self _)) rfl
  have left : SameClock u s2 := .ite (begun.frame (leaveService_within (Within.refl _ _) (all_contains_self _)) rfl)
    (.ite (begun.frame (safeRails_within (Within.refl _ _) (all_contains_self _)) rfl) begun)
  exact .ite (left.frame (raise_within (Within.set_seq (Within.refl [.seq, .fab] _) rfl) rfl) rfl) left

theorem enterDev_clock {cause ch : Nat} {x : Bool} : SameClock u (enterDev cause ch x s) := by
  unfold enterDev
  extract_lets island t
  have noted : SameClock u t := h
  exact SameClock.frame (.ite noted (enterSafe_clock noted)) (raiseSrc_within (Within.refl _ _) (all_contains_self _)) rfl

theorem decideDev_clock {cause ch : Nat} {x : Bool} : SameClock u (decideDev cause ch x s) := by
  unfold decideDev
  extract_lets s1 island s2 struck
  have noted : SameClock u s2 := h
  exact .ite noted (enterDev_clock (SameClock.frame noted (safeDevice_within (Within.set_saf (Within.refl [.ph, .gal, .ch, .saf] _) rfl) rfl) rfl))

end

/-! ### The launch tick -/

/-- Before the edge: the samples that waited, and the ports' octets. -/
def beforeEdge (s : State) : State := txTick (flushWaiting s)

theorem beforeEdge_within (s : State) : Within [.ph, .gal, .fe, .ch, .est, .ring, .sqz, .fab, .free, .link] s (beforeEdge s) :=
  txTick_within (flushWaiting_within (Within.refl _ _) rfl) rfl

theorem strike_clock (live : Option Int) (s : State) : SameClock (advance (beforeEdge s)) (strike live s) := by
  unfold strike
  extract_lets pre units slack s1 s2 s3 s4
  have judged : SameClock (advance (beforeEdge s)) s1 :=
    (SameClock.refl (advance pre)).frame (judgeTick_within (reconnectTick_within (Within.refl [.fab, .fe] _) rfl) rfl) rfl
  have drained : SameClock (advance (beforeEdge s)) s2 := drainStart_clock (judged.frame (allocTick_within (Within.refl _ _) (all_contains_self _)) rfl)
  have channels : SameClock (advance (beforeEdge s)) s3 := .forEach (fun _ _ kept => strikeCh_clock kept)
    (.forEach (fun _ _ kept => kept.frame (estEdge_within (Within.refl _ _) (all_contains_self _)) rfl) drained)
  have stalled : SameClock (advance (beforeEdge s)) (stallTick (tickEnd (fswTick s3))) := by
    have ended := channels.frame (tickEnd_within (fswTick_within (Within.refl [.ph, .seq, .gal, .link, .saf, .rtc, .wdt] _) rfl) rfl) rfl
    exact .ite (decideDev_clock ended) ended
  have last : SameClock (advance (beforeEdge s)) s4 :=
    stalled.frame (updateSafeN_within (rideTick_within (Within.refl [.ch, .sump, .fab, .saf] _) rfl) rfl) rfl
  exact .ite (last.frame (linkSecond_within (Within.refl _ _) (all_contains_self _)) rfl) last

theorem strike_time (live : Option Int) (s : State) : (strike live s).tb.run = s.tb.run + 1 ∧ (strike live s).tb.sec = nextEdgeU s / 2 ^ 32 ∧
    (strike live s).tb.frac = nextEdgeU s % 2 ^ 32 := by
  obtain ⟨run, sec, frac⟩ := strike_clock live s
  have same : (beforeEdge s).tb = s.tb := beforeEdge_within s .tb (by decide)
  have edge : nextEdgeU (beforeEdge s) = nextEdgeU s := by simp only [nextEdgeU, lineU, same]
  refine ⟨run.trans (congrArg (·.run + 1) same), sec.trans ?_, frac.trans ?_⟩
  · rw [← edge]
    rfl
  · rw [← edge]
    rfl

/-! ### What ends a channel's run -/

section
variable {s : State} {k : Nat}

theorem getCh_modCh_self (small : k < 128) (f : Channel → Channel) (s : State) : (modCh k f s).getCh k = f (s.getCh k) :=
  (getCh_modCh ..).trans (if_pos ⟨rfl, small⟩)

theorem getCh_modCh_other {j : Nat} (other : j ≠ k) (f : Channel → Channel) (s : State) : (modCh k f s).getCh j = s.getCh j :=
  (getCh_modCh ..).trans (if_neg fun h => other h.1.symm)

theorem endPause_other {j : Nat} (other : j ≠ k) (s : State) : (endPause k s).getCh j = s.getCh j := by
  unfold endPause
  extract_lets c
  split
  · rfl
  · rw [getCh_of_ch (pushLog_within (Within.refl [.ring, .fab] _) rfl .ch (by decide))]
    exact getCh_modCh_other other _ s

theorem clearSump_other {how j : Nat} (other : j ≠ k) (s : State) : (clearSump k how s).getCh j = s.getCh j := by
  unfold clearSump
  extract_lets c tk
  split
  · rfl
  · exact getCh_modCh_other other _ s

theorem clearRun_other {j : Nat} (other : j ≠ k) (s : State) : (clearRun k s).getCh j = s.getCh j :=
  (getCh_modCh_other other _ _).trans ((clearSump_other other _).trans (endPause_other other s))

theorem safeChannel_other {j : Nat} (other : j ≠ k) (s : State) : (safeChannel k s).getCh j = s.getCh j :=
  (openDisc_other other _).trans (midChannel_other other s)

theorem clearOpenLoad_ch (k : Nat) (s : State) : (clearOpenLoad k s).ch = s.ch := clearOpenLoad_within (Within.refl [.ph] s) rfl .ch (by decide)

theorem toIdle_other {j : Nat} (other : j ≠ k) (s : State) : (toIdle k s).getCh j = s.getCh j := by
  unfold toIdle
  extract_lets s0
  have same : s0.ch = s.ch := by
    unfold s0
    split
    · exact clearOpenLoad_ch k s
    · rfl
  rw [getCh_modCh_other other, safeChannel_other other, clearRun_other other, getCh_of_ch same]

/-- A channel without a drain, an open step or a wish for DISC, with the SUSPECT and LOST marks cleared. -/
structure Ended (c : Channel) : Prop where
  drain : c.drain = none
  step : c.rcp.isOpen = false
  disc : c.discWant = false

theorem openDisc_self (small : k < 128) (s : State) :
    ∃ a b, (openDisc k s).getCh k = { s.getCh k with discWant := false, discOpening := a, disc := b } := by
  unfold openDisc
  split
  · exact ⟨_, _, getCh_modCh_self small _ s⟩
  · exact ⟨_, _, getCh_modCh_self small _ s⟩

theorem endPause_absTk (k : Nat) (s : State) : ((endPause k s).getCh k).absTk = (s.getCh k).absTk := by
  unfold endPause
  extract_lets c
  split
  · rfl
  · rw [getCh_of_ch (pushLog_within (Within.refl [.ring, .fab] _) rfl .ch (by decide)), getCh_modCh]
    split <;> rfl

theorem clearSump_absTk (k how : Nat) (s : State) : ((clearSump k how s).getCh k).absTk = (s.getCh k).absTk := by
  unfold clearSump
  extract_lets c tk
  split
  · rfl
  · refine congrArg Channel.absTk (getCh_modCh ..) |>.trans ?_
    split <;> rfl

theorem toIdle_absTk (small : k < 128) (s : State) : ((toIdle k s).getCh k).absTk = (s.getCh k).absTk := by
  unfold toIdle
  extract_lets s0
  have same : s0.ch = s.ch := by
    unfold s0
    split
    · exact clearOpenLoad_ch k s
    · rfl
  have cleared : (clearRun k s0).getCh k = _ := getCh_modCh_self small _ _
  have mid := midChannel_midOnly k (clearRun k s0) k
  obtain ⟨a, b, opened⟩ := openDisc_self small (midChannel k (clearRun k s0))
  rw [getCh_modCh_self small, safeChannel, opened]
  calc ((midChannel k (clearRun k s0)).getCh k).absTk
    _ = ((clearRun k s0).getCh k).absTk := (congrArg Channel.absTk mid :)
    _ = ((clearSump k 0 (endPause k s0)).getCh k).absTk := (congrArg Channel.absTk cleared :)
    _ = ((endPause k s0).getCh k).absTk := clearSump_absTk ..
    _ = (s0.getCh k).absTk := endPause_absTk ..
    _ = (s.getCh k).absTk := by rw [getCh_of_ch same]

theorem toIdle_self (small : k < 128) (s : State) : ((toIdle k s).getCh k).st = .idle ∧ Ended ((toIdle k s).getCh k) := by
  unfold toIdle
  extract_lets s0
  have cleared : (clearRun k s0).getCh k = _ := getCh_modCh_self small _ _
  have mid := midChannel_midOnly k (clearRun k s0) k
  obtain ⟨a, b, opened⟩ := openDisc_self small (midChannel k (clearRun k s0))
  have drain : ((midChannel k (clearRun k s0)).getCh k).drain = none := (congrArg Channel.drain mid).trans (congrArg Channel.drain cleared)
  have step : ((midChannel k (clearRun k s0)).getCh k).rcp.isOpen = false :=
    (congrArg (·.rcp.isOpen) mid).trans (congrArg (·.rcp.isOpen) cleared)
  rw [getCh_modCh_self small, safeChannel, opened]
  exact ⟨rfl, drain, step, rfl⟩

theorem toDisabled_other {j : Nat} (other : j ≠ k) (s : State) : (toDisabled k s).getCh j = s.getCh j :=
  (getCh_modCh_other other _ _).trans (toIdle_other other s)

theorem toDisabled_self (small : k < 128) (s : State) : ((toDisabled k s).getCh k).st = .disabled ∧ Ended ((toDisabled k s).getCh k) := by
  obtain ⟨-, drain, step, disc⟩ := toIdle_self small s
  have moved : (toDisabled k s).getCh k = _ := getCh_modCh_self small _ _
  rw [moved]
  exact ⟨rfl, drain, step, disc⟩

/-! ### Host commands -/

theorem chCmd_of_channel {p : Path} {c : ChCmd} (up : s.mode.up = true) (idle : loaderBusy s = false) (here : populated s k = true) :
    chCmd p k c s = if cmdHasRow s k c then modCh k (fun x => { x with host := x.host ++ [c] }) s else raise .fabric Cause.chCmdRefused k s := by
  unfold chCmd chGate
  rw [regGate_of_path up idle, if_neg (by simp [here])]
  rfl

theorem chGate_absent {p : Path} {addr : Nat} {f : State → State} (up : s.mode.up = true) (idle : loaderBusy s = false)
    (absent : populated s k = false) : chGate p k addr f s = raiseA .fabric Cause.chAbsent k addr s := by
  unfold chGate
  rw [regGate_of_path up idle, if_pos (by simp [absent])]

/-- Each host command passes the gate of its channel with an effect of its own. -/
theorem exec_chCmd_gate {p : Path} {k : Fin 128} {c : Instr}
    (listed : c ∈ [Instr.chCmdStop p k, .chCmdPause p k, .chCmdResume p k, .chCmdClearFault p k, .chCmdDisable p k, .chCmdEnable p k]) :
    ∃ f, ∀ s, exec c s = .next (chGate p k (Addr.ch k 8) f s) := by
  simp only [List.mem_cons, List.not_mem_nil, or_false] at listed
  rcases listed with rfl | rfl | rfl | rfl | rfl | rfl
  · exact ⟨queueCmd k .stop, fun _ => rfl⟩
  · exact ⟨queueCmd k .pause, fun _ => rfl⟩
  · exact ⟨queueCmd k .resume, fun _ => rfl⟩
  · exact ⟨clearCmd k, fun _ => rfl⟩
  · exact ⟨queueCmd k .disable, fun _ => rfl⟩
  · exact ⟨queueCmd k .enable, fun _ => rfl⟩

theorem exec_chCmd {p : Path} {k : Fin 128} {c : Instr} {h : ChCmd} (listed : (c, h) ∈ [(Instr.chCmdStop p k, ChCmd.stop), (.chCmdPause p k, .pause),
    (.chCmdResume p k, .resume), (.chCmdDisable p k, .disable), (.chCmdEnable p k, .enable)]) (s : State) : exec c s = .next (chCmd p k h s) := by
  simp only [List.mem_cons, List.not_mem_nil, or_false, Prod.mk.injEq] at listed
  rcases listed with ⟨rfl, rfl⟩ | ⟨rfl, rfl⟩ | ⟨rfl, rfl⟩ | ⟨rfl, rfl⟩ | ⟨rfl, rfl⟩ <;> rfl

/-! ### A cell's return -/

/-- A qualified return is noted: the absence, and the estimator waits (R140). -/
def returnNoted (k : Nat) (s : State) : State :=
  modEst k (fun e => { e with waitTk := s.tb.run }) (estWait k (modCh k (fun c => { c with
    absTk := satN ((s.getCh k).qualFrom - (s.getCh k).declTk) (2 ^ 32 - 1) }) (clearOpenLoad k s)))

/-- The channel resumes: ARMED again, or paused for the return. -/
def returnTaken (k : Nat) (c : Channel) (s : State) : State :=
  let s2 := if c.left = .step ∨ c.left = .tempWait then reopenStep k s else s
  if c.left = .armed then modCh k (fun c => { c with st := .armed, toldLoss := false, qual := 0 }) s2
  else modCh k (fun c => { c with st := .paused, psRet := true, toldLoss := false, qual := 0, psSeen := c.psSeen ||| 8,
                                  pauseFrom := if c.pauseFrom.isSome then c.pauseFrom else some c.declTk }) s2

theorem exec_qualifiedReturn_other {k : Fin 128} (h : s.mode.up = false ∨ (s.getCh k).st ≠ .lost ∨ (s.getCh k).drain ≠ none ∨ (s.getCh k).qual < 820 ∨
    s.tb.run < (s.getCh k).qualFrom + 820) : exec (.qualifiedReturn k) s = .next s := by
  refine if_pos ?_
  rcases h with h | h | h | h | h
  · simp [h]
  · simp [h]
  · simp [Option.isSome_iff_ne_none.mpr h]
  · simp [h]
  · simp [h]

theorem exec_qualifiedReturn {k : Fin 128} (up : s.mode.up = true) (lost : (s.getCh k).st = .lost) (drain : (s.getCh k).drain = none)
    (qual : 820 ≤ (s.getCh k).qual) (late : (s.getCh k).qualFrom + 820 ≤ s.tb.run) : exec (.qualifiedReturn k) s =
      if Hdr.resume (boundRcp s k) = true ∧ satN ((s.getCh k).qualFrom - (s.getCh k).declTk) (2 ^ 32 - 1) ≤ 81920 then
        .next (wantDisc k (returnTaken k (s.getCh k) (returnNoted k s)))
      else .next (toIdle k (returnNoted k s)) :=
  if_neg (by simp [up, lost, drain]; omega)

theorem returnNoted_self (small : k < 128) (s : State) : (returnNoted k s).getCh k =
    { s.getCh k with absTk := satN ((s.getCh k).qualFrom - (s.getCh k).declTk) (2 ^ 32 - 1) } := by
  have est : (returnNoted k s).ch = _ := modEst_within (estWait_within (Within.refl [.est] _) rfl) rfl .ch (by decide)
  rw [getCh_of_ch est, getCh_modCh_self small, getCh_of_ch (clearOpenLoad_ch k s)]

theorem returnNoted_within (k : Nat) (s : State) : Within [.ph, .ch, .est] s (returnNoted k s) :=
  modEst_within (estWait_within (modCh_within (clearOpenLoad_within (Within.refl _ _) rfl) rfl) rfl) rfl

theorem satN_le {x m : Nat} (le : m < 2 ^ 32 - 1) : satN x (2 ^ 32 - 1) ≤ m ↔ x ≤ m := by
  unfold satN
  split <;> omega

theorem wantDisc_self (small : k < 128) (s : State) : ∃ a b c, (wantDisc k s).getCh k =
    { s.getCh k with discWant := true, disc := a, discTk := b, discOpening := c } := by
  unfold wantDisc tryDisc
  extract_lets c
  split
  · rw [getCh_modCh_self small, getCh_modCh_self small]
    exact ⟨_, _, _, rfl⟩
  · rw [getCh_modCh_self small]
    exact ⟨_, _, _, rfl⟩

theorem reopenStep_self (small : k < 128) (s : State) :
    ∃ r : RcpRun, (reopenStep k s).getCh k = { s.getCh k with rcp := r } ∧ r.isOpen = true := by
  refine ⟨_, getCh_modCh_self small _ s, ?_⟩
  unfold subCharge
  split <;> rfl

/-- The step is open again where the channel left it, and the rest of the channel is as the return leaves it. -/
theorem returnTaken_self (small : k < 128) (c : Channel) (s : State) : ((returnTaken k c s).getCh k).qual = 0 ∧
    ((returnTaken k c s).getCh k).toldLoss = false ∧ ((returnTaken k c s).getCh k).absTk = (s.getCh k).absTk ∧
    (c.left = .armed → ((returnTaken k c s).getCh k).st = .armed) ∧
    (c.left ≠ .armed → ((returnTaken k c s).getCh k).st = .paused ∧ ((returnTaken k c s).getCh k).psRet = true) ∧
    ((c.left = .step ∨ c.left = .tempWait) → ((returnTaken k c s).getCh k).rcp.isOpen = true) := by
  unfold returnTaken
  extract_lets s2
  have opened : ∃ r : RcpRun, s2.getCh k = { s.getCh k with rcp := r } ∧ ((c.left = .step ∨ c.left = .tempWait) → r.isOpen = true) := by
    unfold s2
    split
    · obtain ⟨r, is, open_⟩ := reopenStep_self small s
      exact ⟨r, is, fun _ => open_⟩
    next closed => exact ⟨(s.getCh k).rcp, rfl, fun h => absurd h closed⟩
  obtain ⟨r, is, open_⟩ := opened
  split
  next armed =>
    rw [getCh_modCh_self small, is]
    exact ⟨rfl, rfl, rfl, fun _ => rfl, fun other => absurd armed other, open_⟩
  next other =>
    rw [getCh_modCh_self small, is]
    exact ⟨rfl, rfl, rfl, fun armed => absurd armed other, fun _ => ⟨rfl, rfl⟩, open_⟩

theorem returnTaken_within (k : Nat) (c : Channel) (s : State) : Within [.ch] s (returnTaken k c s) := by
  unfold returnTaken
  extract_lets s2
  have opened : Within [.ch] s s2 := .ite (reopenStep_within (Within.refl _ _) rfl) (Within.refl _ _)
  exact .ite (modCh_within opened rfl) (modCh_within opened rfl)

end

/-- Settles O30: the regulator stages, the edge moves the clocks by one tick, and a channel takes a command, ends a drain or takes its cell back
where its state has the row. -/
theorem launchTickAndChannelCommands : Obligations.LaunchTickAndChannelCommands := by
  unfold Obligations.LaunchTickAndChannelCommands
  refine ⟨fun s k slack sums up here => ?_, fun s k slack sums h => ?_, fun s live up => ?_, fun s live off => if_neg (by simp [off]),
    fun s p k c h listed up idle here => ⟨fun row => ?_, fun none => ?_⟩, fun s k => ?_,
    fun s p k c listed => ⟨fun off => ?_, fun up busy => ?_, fun up idle absent => ?_⟩, fun s p k up idle here => ?_, fun s k h => ?_,
    fun s k d up quiet drain => ?_, fun s k h => exec_qualifiedReturn_other h, fun s k up lost drain qual late => ?_, fun s k => ?_⟩
  · have phases : Within [.ph] s (forEach (phasesOf s k) (fun n => modPh n fun p => { p with imonAvg := (imonAvgs s k sums).getD (n - k) 0 }) s) :=
      .forEach (fun _ _ => modPh_within (Within.refl _ _) rfl) (.refl _ _)
    have run : exec (.regulatorCompute k slack sums) s = _ := if_pos (by simp [up, here])
    refine ⟨_, run, ?_, ?_, fun j other => ?_, modCh_within (phases.mono rfl) rfl⟩
    · rw [getCh_modCh_self k.isLt]
    · rw [getCh_modCh_self k.isLt, getCh_of_ch (phases .ch (by decide))]
    · rw [getCh_modCh_other other, getCh_of_ch (phases .ch (by decide))]
  · exact if_neg (by rcases h with h | h <;> simp [h])
  · obtain ⟨run, sec, frac⟩ := strike_time live s
    have frame := strike_within (x0 := live) (Within.refl [.mode, .seq, .tb, .ph, .gal, .fe, .ch, .est, .rcp, .sump, .link, .ring, .sqz, .saf, .rtc,
      .wdt, .nvm, .acc, .fab, .free] s) rfl
    exact ⟨_, if_pos up, run, sec, frac, frame .regs (by decide), frame .pending (by decide)⟩
  · rw [exec_chCmd listed, chCmd_of_channel up idle here, if_pos row]
  · rw [exec_chCmd listed, chCmd_of_channel up idle here, if_neg (by simp [none])]
  · refine ⟨_, rfl, ?_, ?_, ?_, ?_, ?_⟩ <;> simp [cmdHasRow, pausable, or_assoc]
  · obtain ⟨f, run⟩ := exec_chCmd_gate listed
    exact (run s).trans (congrArg Host.Outcome.next (regGate_of_no_path off _ _))
  · obtain ⟨f, run⟩ := exec_chCmd_gate listed
    exact (run s).trans (congrArg Host.Outcome.next (regGate_of_busy up busy _ _))
  · obtain ⟨f, run⟩ := exec_chCmd_gate listed
    have addr : Addr.ch k 8 = 0x020008 + 0x400 * k.val := by
      unfold Addr.ch
      omega
    rw [run s, chGate_absent up idle absent, addr]
  · change Host.Outcome.next (chGate p k (Addr.ch k 8) (clearCmd k) s) = _
    unfold chGate
    rw [regGate_of_path up idle, if_neg (by simp [here])]
    rfl
  · exact congrArg Host.Outcome.next (if_neg (by rcases h with h | h <;> simp [h]))
  · have small := k.isLt
    have run : exec (.drainQuiescent k) s = .next (endDrain k s) := congrArg Host.Outcome.next (if_pos (by simp [up, quiet]))
    have noted : Within [.est] s (estChanged k s) := estChanged_within (Within.refl _ _) rfl
    by_cases disable : d = .disable
    · have ends : endDrain k s = toDisabled k (estChanged k s) := by rw [endDrain, drain, disable]
      rw [ends] at run
      obtain ⟨st, over_, step, disc⟩ := toDisabled_self small (estChanged k s)
      have frame : Within [.ph, .ch, .est, .ring, .fab] s (toDisabled k (estChanged k s)) := toDisabled_within (noted.mono rfl) rfl
      exact ⟨_, run, st.trans (if_pos disable).symm, over_, step, disc,
        fun j other => (toDisabled_other other _).trans (getCh_of_ch (noted .ch (by decide)) j), frame .mode (by decide), frame .regs (by decide)⟩
    · have ends : endDrain k s = toIdle k (estChanged k s) := by
        unfold endDrain
        rw [drain]
        cases d
        · rfl
        · exact absurd rfl disable
        · rfl
        · rfl
      rw [ends] at run
      obtain ⟨st, over_, step, disc⟩ := toIdle_self small (estChanged k s)
      have frame : Within [.ph, .ch, .est, .ring, .fab] s (toIdle k (estChanged k s)) := toIdle_within (noted.mono rfl) rfl
      exact ⟨_, run, st.trans (if_neg disable).symm, over_, step, disc,
        fun j other => (toIdle_other other _).trans (getCh_of_ch (noted .ch (by decide)) j), frame .mode (by decide), frame .regs (by decide)⟩
  · have small := k.isLt
    have run := exec_qualifiedReturn up lost drain qual late
    have noted := returnNoted_self small s
    have frame := returnNoted_within k s
    have absent : ((returnNoted k s).getCh k).absTk = satN ((s.getCh k).qualFrom - (s.getCh k).declTk) (2 ^ 32 - 1) := by rw [noted]
    generalize returnNoted k s = u at *
    simp only [satN_le (m := 81920) (by decide)] at run
    by_cases back : Hdr.resume (boundRcp s k) = true ∧ (s.getCh k).qualFrom - (s.getCh k).declTk ≤ 81920
    · rw [if_pos back] at run
      obtain ⟨qual, loss, abs, armed, paused, open_⟩ := returnTaken_self small (s.getCh k) u
      have taken := returnTaken_within k (s.getCh k) u
      obtain ⟨a, b, c, want⟩ := wantDisc_self small (returnTaken k (s.getCh k) u)
      have after : Within [.ph, .ch, .est] s (wantDisc k (returnTaken k (s.getCh k) u)) := wantDisc_within (frame.andThen taken rfl) rfl
      refine ⟨_, run, ?_, after .mode (by decide), after .regs (by decide), fun far => ?_, fun _ _ => ?_⟩
      · exact (congrArg Channel.absTk want).trans (abs.trans absent)
      · rcases far with no | far
        · exact absurd (back.1.symm.trans no) (by decide)
        · omega
      · rw [want]
        exact ⟨qual, loss, rfl, armed, paused, open_⟩
    · rw [if_neg back] at run
      have after : Within [.ph, .ch, .est, .ring, .fab] s (toIdle k u) := toIdle_within (frame.mono rfl) rfl
      exact ⟨_, run, (toIdle_absTk small u).trans absent, after .mode (by decide), after .regs (by decide), fun _ => (toIdle_self small u).1,
        fun resume near => absurd ⟨resume, near⟩ back⟩
  · change execStepResumed k s = _
    unfold execStepResumed
    refine (apply_ite Host.Outcome.next _ _ _).symm.trans (congrArg Host.Outcome.next (if_congr ?_ rfl rfl))
    simp [and_assoc]

end Sys2Proof.Machine
end

section
/-!
The loader's commands and an update of the image (R372, R373, R382): RELOAD, COMMIT with its read-back, ABORT and the page writes.
-/

namespace Sys2Proof.Machine

section
variable {s : State}

/-! ### The gate of LDR_CMD -/

theorem ldrGate_of_no_path {p : Path} {key : Byte} {f : State → State} (off : s.mode.up = false) : ldrGate p key f s = s := if_pos (by simp [off])

theorem ldrGate_refused {p : Path} {key : Byte} {f : State → State} (up : s.mode.up = true) (bad : key ≠ 0x3C ∨ ldrMay s p = false) :
    ldrGate p key f s = updRefused none s :=
  (if_neg (by simp [up])).trans (if_pos (by simpa using bad))

theorem ldrGate_passed {p : Path} {f : State → State} (up : s.mode.up = true) (may : ldrMay s p = true) : ldrGate p 0x3C f s = f s :=
  (if_neg (by simp [up])).trans (if_neg (by simp [may]))

/-! ### RELOAD -/

theorem reload_busy (busy : loading s = true) : reload s = raise .fabric Cause.ldrBusy 0xFF s := if_pos busy

section
variable (idle : loading s = false)
include idle

theorem reload_seq (h : s.seq.st ≠ .on ∨ s.seq.wait ≠ none) : reload s = updRefused none s := (if_neg (by simp [idle])).trans (if_pos h)

variable (on : s.seq.st = .on) (free : s.seq.wait = none)
include on free

theorem reload_load (load : s.mode = .load) (runs : s.ldr.st ≠ .halted) : reload s = startRead s :=
  (if_neg (by simp [idle])).trans ((if_neg (by simp [on, free])).trans (if_pos ⟨load, runs⟩))

theorem reload_drain (mode : s.mode = .run ∨ s.mode = .service) (none : s.tb.drain = none) : reload s = hostDrain .load s :=
  (if_neg (by simp [idle])).trans ((if_neg (by simp [on, free])).trans
    ((if_neg (by rcases mode with h | h <;> simp [h])).trans (if_pos ⟨mode, none⟩)))

theorem reload_other (load : s.mode = .load → s.ldr.st = .halted) (drain : ¬ ((s.mode = .run ∨ s.mode = .service) ∧ s.tb.drain = none)) :
    reload s = updRefused none s :=
  (if_neg (by simp [idle])).trans ((if_neg (by simp [on, free])).trans ((if_neg fun h => h.2 (load h.1)).trans (if_neg drain)))

end

/-! ### COMMIT -/

/-- What a COMMIT that is for the open update does with its held header. -/
def commitHeader (u : Update) (slot : Nat) (s : State) : State :=
  match heldHdr u with
  | none => commitFails Cause.ldrHdrBad s
  | some h =>
    if hdrGen h = 0 then commitFails Cause.ldrHdrBad s
    else if hdrGen h ≤ s.ldr.gen then commitFails Cause.ldrGenOld s
    else emit (.eepromRead slot) (modLdr (fun l => { l with upd := some { u with committing := true } }) s)

theorem commit_of_update {u : Update} {i : Fin 4} {slot : Nat} (upd : s.ldr.upd = some u) (mine : u.sess = i.val) (same : u.slot = slot)
    (idle : u.committing = false) : commit (.sess i) slot s = commitHeader u slot s := by
  unfold commit
  rw [upd]
  exact if_neg (by simp [mine, same, idle])

theorem commit_other {p : Path} {slot : Nat} (h : ∀ u (i : Fin 4), s.ldr.upd = some u → p = .sess i → u.sess ≠ i.val ∨ u.slot ≠ slot ∨ u.committing = true) :
    commit p slot s = updRefused none s := by
  unfold commit
  split
  next u i upd => exact if_pos (h u i upd rfl)
  · rfl

/-- What a failed COMMIT leaves: the update open and not committing, one more refusal, and the cause raised. -/
theorem commitFails_ldr (cause : Nat) (s : State) : (commitFails cause s).ldr =
    { s.ldr with upd := s.ldr.upd.map fun u => { u with committing := false }, nRef := incSat 8 s.ldr.nRef } := by
  unfold commitFails
  cases upd : s.ldr.upd <;> simp only [updRefused, raiseA_ldr, modLdr, raise_ldr, upd] <;> rfl

theorem commitFails_out (cause : Nat) (s : State) : (commitFails cause s).out = s.out :=
  commitFails_within (Within.refl [.ldr, .fab] s) rfl .out (by decide)

theorem commitFails_event (cause : Nat) (s : State) : ∃ e ∈ (commitFails cause s).fab.events, e.cause = cause := by
  obtain ⟨e, there, is, -⟩ := raiseSrc_event .fabric cause 0xFF (eventSource cause 0xFF) 0 []
    (modLdr (fun l => { l with upd := match l.upd with | some u => some { u with committing := false } | none => none }) s)
  exact ⟨e, List.mem_append_left _ there, is⟩

/-- An update that was not committing stays as it was. -/
theorem update_still {u : Update} (idle : u.committing = false) : { u with committing := false } = u := by rw [← idle]

/-! ### The read-back -/

/-- The image has been read back whole: the header is written, and ends the update where it reads back. -/
def committed (u : Update) (h : List Byte) (ok : Bool) (s : State) : State :=
  if ok then
    raise .fabric Cause.ldrUpdCommitted 0xFF
      (modLdr (fun l => { l with upd := none, nCommit := incSat 8 l.nCommit, genAlt := hdrGen h }) (emit (.eepromWrite (u.slot * 0x20000) h) s))
  else commitFails Cause.ldrHdrBad (emit (.eepromWrite (u.slot * 0x20000) h) s)

theorem exec_commitDone_other {rb : List Byte} {ok : Bool} (h : s.mode.up = false ∨ ∀ u, s.ldr.upd = some u → u.committing = false) :
    exec (.commitDone rb ok) s = .next s := by
  change execCommitDone rb ok s = _
  unfold execCommitDone
  split
  next u upd => exact if_pos (h.symm.imp_left fun idle => idle u upd)
  · rfl

theorem exec_commitDone {u : Update} {h rb : List Byte} {ok : Bool} (up : s.mode.up = true) (upd : s.ldr.upd = some u)
    (busy : u.committing = true) (held : heldHdr u = some h) : exec (.commitDone rb ok) s = .next (match walkAndCrc (h ++ rb) with
      | .inl e => commitFails e.1 (nacksSeen 255 s)
      | .inr _ => committed u h ok (nacksSeen 255 s)) := by
  change execCommitDone rb ok s = _
  unfold execCommitDone
  rw [upd]
  refine (if_neg (by simp [busy, up])).trans ?_
  rw [held]
  dsimp only [Option.getD_some]
  cases walkAndCrc (h ++ rb) <;> rfl

/-! ### Page writes -/

theorem exec_pageWrite_other {ok : Bool} (h : s.mode.up = false ∨ ∀ u, s.ldr.upd = some u → u.pages = []) :
    exec (.eepromPageWriteDone ok) s = .next s := by
  change execEepromPageWriteDone ok s = _
  unfold execEepromPageWriteDone
  split
  next u upd =>
    rcases h with off | none
    · exact if_pos (by simp [off])
    · rw [none u upd]
      split <;> rfl
  · rfl

/-- The acknowledgements polled for during the page write. -/
def pagePolled (s : State) : State := nacksSeen (10 * cfgF s 0x00A008 16 8) s

theorem pagePolled_within (s : State) : Within [.twi, .free] s (pagePolled s) := nacksSeen_within (Within.refl _ _) rfl

section
variable {u : Update} {p1 : Nat × List Byte} {rest : List (Nat × List Byte)}
variable (up : s.mode.up = true) (upd : s.ldr.upd = some u) (pages : u.pages = p1 :: rest)
include up upd pages

theorem exec_pageWrite_bad : exec (.eepromPageWriteDone false) s =
    .next (pagesFail Cause.twiNack (raise .fabric Cause.twiNack 0xFF (pagePolled s))) := by
  change execEepromPageWriteDone false s = _
  unfold execEepromPageWriteDone
  rw [upd]
  refine (if_neg (by simp [up])).trans ?_
  rw [pages]
  rfl

theorem exec_pageWrite_good : exec (.eepromPageWriteDone true) s = .next (match rest with
    | (a, b) :: _ => emit (.eepromWrite a b) (modLdr (fun l => { l with upd := some { u with pages := rest } }) (pagePolled s))
    | [] => blockEnd u (fun t => .ok (leBytes 4 (u.block.getD (0, 0)).1 ++ leBytes 4 (u.block.getD (0, 0)).2) t)
        (modLdr (fun l => { l with upd := some { u with pages := [], block := none } }) (pagePolled s))) := by
  change execEepromPageWriteDone true s = _
  unfold execEepromPageWriteDone
  rw [upd]
  refine (if_neg (by simp [up])).trans ?_
  split
  next none => cases pages.symm.trans none
  next first tail is =>
    obtain ⟨rfl, rfl⟩ := List.cons.inj (is.symm.trans pages)
    cases tail <;> rfl

end

theorem blockEnd_frame (u : Update) {a : State → PzAns} (same : ∀ t, (a t).st = t) (s : State) : Within [.link, .fab, .out] s (blockEnd u a s) := by
  unfold blockEnd
  split
  · split
    · exact pzDone_within (by rw [same]; exact Within.refl _ _) rfl
    · exact Within.refl _ _
  · exact Within.refl _ _

/-- A failed page ends the block: no page of it is left. -/
theorem pagesFail_pages (cause : Nat) (s : State) : ∀ v, (pagesFail cause s).ldr.upd = some v → v.pages = [] := by
  intro v is
  unfold pagesFail at is
  cases upd : s.ldr.upd with
  | none =>
    rw [upd] at is
    cases upd.symm.trans is
  | some u =>
    rw [upd] at is
    dsimp only at is
    split at is
    next empty =>
      cases upd.symm.trans is
      simpa using empty
    · have same := blockEnd_frame u (a := fun t => .refuse cause none t) (fun _ => rfl)
        (modLdr (fun l => { l with upd := some { u with pages := [], block := none } }) s) .ldr (by decide)
      cases ((congrArg Loader.upd same).symm.trans is)
      rfl

end

/-- Settles O21: LDR_CMD passes one gate; an update is committed with its header last, and its pages follow one another. -/
theorem loaderCommandsAndUpdates : Obligations.LoaderCommandsAndUpdates := by
  unfold Obligations.LoaderCommandsAndUpdates
  refine ⟨fun s p key slot off => ⟨congrArg Host.Outcome.next (ldrGate_of_no_path off), congrArg Host.Outcome.next (ldrGate_of_no_path off),
      congrArg Host.Outcome.next (ldrGate_of_no_path off)⟩, fun s p key slot up bad c listed => ?_, fun s p up may busy => ?_,
    fun s p mode idle may none on free => ?_, fun s p load idle runs may on free => ?_, fun s p up idle may h => ?_,
    fun s i u h slot up may upd mine same idle held newer => ?_, fun s i u slot up may upd mine same idle old => ?_, fun s p slot up may other => ?_,
    fun s rb ok h => exec_commitDone_other h, fun s u h rb up upd busy held => ?_, fun s p up may => ?_, fun s ok h => exec_pageWrite_other h,
    fun s u p1 rest up upd pages => ?_, fun s u p1 a b rest up upd pages => ?_, fun s u p1 up upd pages => ?_⟩
  · simp only [List.mem_cons, List.not_mem_nil, or_false] at listed
    rcases listed with rfl | rfl | rfl
    · exact congrArg Host.Outcome.next (ldrGate_refused up bad)
    · exact congrArg Host.Outcome.next (ldrGate_refused up bad)
    · exact congrArg Host.Outcome.next (ldrGate_refused up bad)
  · exact congrArg Host.Outcome.next ((ldrGate_passed up may).trans (reload_busy busy))
  · have up : s.mode.up = true := by rcases mode with h | h <;> rw [h] <;> rfl
    exact congrArg Host.Outcome.next ((ldrGate_passed up may).trans (reload_drain idle on free mode none))
  · have up : s.mode.up = true := by rw [load]; rfl
    refine ⟨_, congrArg Host.Outcome.next ((ldrGate_passed up may).trans (reload_load idle on free load runs)), rfl, rfl, rfl, ?_,
      startRead_within (Within.refl _ _) rfl⟩
    exact List.append_assoc s.out [_] [_]
  · refine congrArg Host.Outcome.next ((ldrGate_passed up may).trans ?_)
    by_cases seq : s.seq.st ≠ .on ∨ s.seq.wait ≠ none
    · exact reload_seq idle seq
    · obtain ⟨on, free⟩ := not_or.mp seq
      have rest := (h.resolve_left on).resolve_left free
      refine reload_other idle (not_not.mp on) (not_not.mp free) (fun load => ?_) ?_
      · rcases rest with h | h | ⟨-, h⟩ | ⟨h, -⟩
        · cases load.symm.trans h
        · cases load.symm.trans h
        · exact h
        · exact absurd load h
      · rintro ⟨mode, none⟩
        rcases rest with h | h | ⟨h, -⟩ | ⟨-, h⟩
        · simp [h] at mode
        · simp [h] at mode
        · simp [h] at mode
        · exact h none
  · refine congrArg Host.Outcome.next ((ldrGate_passed up may).trans ((commit_of_update upd mine same idle).trans ?_))
    unfold commitHeader
    rw [held]
    dsimp only
    rw [if_neg (by omega), if_neg (by omega)]
    rfl
  · have run : exec (.ldrCmdCommit (.sess i) 0x3C slot) s = .next (commitHeader u slot s) :=
      congrArg Host.Outcome.next ((ldrGate_passed up may).trans (commit_of_update upd mine same idle))
    have fails (cause : Nat) : (commitFails cause s).ldr.upd = some u ∧ (commitFails cause s).ldr.nRef = incSat 8 s.ldr.nRef := by
      rw [commitFails_ldr, upd]
      exact ⟨congrArg some (update_still idle), rfl⟩
    unfold commitHeader at run
    cases held : heldHdr u with
    | none =>
      rw [held] at run
      exact ⟨_, run, (fails _).1, (fails _).2, commitFails_out _ s, fun _ => commitFails_event _ s, fun h is => by cases is⟩
    | some h =>
      rw [held] at run
      dsimp only at run
      by_cases zero : hdrGen h = 0
      · rw [if_pos zero] at run
        refine ⟨_, run, (fails _).1, (fails _).2, commitFails_out _ s, fun _ => commitFails_event _ s, ?_⟩
        rintro _ ⟨⟩ some
        exact absurd zero some
      · rw [if_neg zero, if_pos (old h held)] at run
        refine ⟨_, run, (fails _).1, (fails _).2, commitFails_out _ s, ?_, fun _ _ _ => commitFails_event _ s⟩
        rintro (no | ⟨_, ⟨⟩, is⟩)
        · cases no
        · exact absurd is zero
  · exact congrArg Host.Outcome.next ((ldrGate_passed up may).trans (commit_other other))
  · have run (ok : Bool) := exec_commitDone (rb := rb) (ok := ok) up upd busy held
    have polled := nacksSeen_within (Within.refl [.twi, .free] s) (x0 := 255) rfl
    generalize nacksSeen 255 s = v at *
    have ldr : v.ldr = s.ldr := polled .ldr (by decide)
    have out : v.out = s.out := polled .out (by decide)
    have regs : v.regs = s.regs := polled .regs (by decide)
    have fails (cause : Nat) (w : State) (same : w.ldr = s.ldr) : (commitFails cause w).ldr.upd = some { u with committing := false } ∧
        (commitFails cause w).ldr.nRef = incSat 8 s.ldr.nRef := by
      rw [commitFails_ldr, same, upd]
      exact ⟨rfl, rfl⟩
    cases checked : walkAndCrc (h ++ rb) with
    | inl e =>
      rw [checked] at run
      have kept : (commitFails e.1 v).regs = s.regs := (commitFails_within (Within.refl [.ldr, .fab] v) rfl .regs (by decide)).trans regs
      refine ⟨_, _, run true, run false, kept, kept, fun m is => by (cases is), ?_⟩
      rintro _ ⟨⟩
      exact ⟨(fails _ v ldr).1, (commitFails_out _ v).trans out, (fails _ v ldr).2, rfl⟩
    | inr m =>
      rw [checked] at run
      refine ⟨_, _, run true, run false, regs, ?_, ?_, fun e is => by cases is⟩
      · exact (commitFails_within (Within.refl [.ldr, .fab] _) rfl .regs (by decide)).trans regs
      · rintro _ -
        obtain ⟨upd', nRef⟩ := fails Cause.ldrHdrBad (emit (.eepromWrite (u.slot * 0x20000) h) v) ldr
        have appended : v.out ++ [.eepromWrite (u.slot * 0x20000) h] = s.out ++ [.eepromWrite (u.slot * 0x20000) h] := by rw [out]
        exact ⟨rfl, congrArg (fun l : Loader => incSat 8 l.nCommit) ldr, rfl, appended, upd', nRef, (commitFails_out _ _).trans appended⟩
  · exact congrArg Host.Outcome.next (ldrGate_passed up may)
  · have run := exec_pageWrite_bad up upd pages
    have polled := pagePolled_within s
    generalize pagePolled s = v at *
    refine ⟨_, run, ?_, pagesFail_pages _ _, ?_⟩
    · exact (pagesFail_within (Within.refl [.link, .ldr, .fab, .out] _) rfl .regs (by decide)).trans (polled .regs (by decide))
    · obtain ⟨e, there, is, -⟩ := raiseSrc_event .fabric Cause.twiNack 0xFF (eventSource Cause.twiNack 0xFF) 0 [] v
      exact ⟨e, pagesFail_grows (Grows.refl _) e there, is⟩
  · have run := exec_pageWrite_good up upd pages
    have polled := pagePolled_within s
    generalize pagePolled s = v at *
    refine ⟨_, run, congrArg (· ++ [_]) (polled .out (by decide)), rfl, emit_within (modLdr_within (polled.mono rfl) rfl) rfl⟩
  · have run := exec_pageWrite_good up upd pages
    have polled := pagePolled_within s
    generalize pagePolled s = v at *
    have after := blockEnd_frame u (a := fun t => .ok (leBytes 4 (u.block.getD (0, 0)).1 ++ leBytes 4 (u.block.getD (0, 0)).2) t) (fun _ => rfl)
      (modLdr (fun l => { l with upd := some { u with pages := [], block := none } }) v)
    exact ⟨_, run, congrArg Loader.upd (after .ldr (by decide)), (after .ring (by decide)).trans (polled .ring (by decide)),
      (after .regs (by decide)).trans (polled .regs (by decide))⟩

end Sys2Proof.Machine
end

section
/-!
On-times, the token and the current limits of a phase (R40 to R59): what starts and ends an on-time, and what latches a fault.
-/

namespace Sys2Proof.Machine

section
variable {s : State} {n : Nat}

theorem getPh_modPh_self (small : n < 128) (f : Phase → Phase) (s : State) : (modPh n f s).getPh n = f (s.getPh n) :=
  (getPh_modPh ..).trans (if_pos ⟨rfl, small⟩)

theorem getPh_modPh_other {j : Nat} (other : j ≠ n) (f : Phase → Phase) (s : State) : (modPh n f s).getPh j = s.getPh j :=
  (getPh_modPh ..).trans (if_neg fun h => other h.1.symm)

/-! ### The start of an on-time -/

/-- The on-time's previous cycle ran at its maximum and the minimum off-time (R47). -/
def saturated (at_ : Nat) (p : Phase) : Bool := p.reachedMax && at_ == p.tEnd + tOffMin

/-- A phase whose on-time starts: the cycle before it is judged, and the latest code is latched. -/
def begun (at_ : Nat) (sat : Bool) (p : Phase) : Phase :=
  { p with pwm := if p.dir then .low else .high, onTime := true, cut := false, olHit := false, tStart := at_, toff := satN (at_ - p.tEnd) 0xFFFF,
           sat := sat, satRun := if sat then satN (p.satRun + 1) 4 else 0, olRun := if sat && !p.olHit then satN (p.olRun + 1) 4 else 0,
           lim := p.limCycle, limCycle := false, ocfRun := if p.limCycle then p.ocfRun else 0, reachedMax := false,
           tonCode := p.tonMail.getLastD p.tonCode, tonMail := [],
           st := if p.shedStep ≠ 0 then .shedding else if p.dir then .runD else .runC }

/-- The phase's on-time has started. -/
def phaseBegun (n at_ : Nat) (s : State) : State := modPh n (begun at_ (saturated at_ (s.getPh n))) s

/-- The on-time has started, and the token has passed to the next active phase where there is one. -/
def onTimeBegun (n at_ : Nat) (s : State) : State :=
  if (s.getCh (chanOr s n)).nph < 2 then phaseBegun n at_ s
  else modCh (chanOr s n) (fun x => { x with token := nextToken x.active (n - chanOr s n), tokT := at_, tokStart := at_ })
    (phaseBegun n at_ s)

theorem exec_onTimeStart {n : Fin 128} {at_ : Nat} (may : mayStart s n at_ = true) (clear : (s.getPh n).limNow = false) : exec (.onTimeStart n at_) s =
    .next (if 0 < (s.getPh n).shedStep ∧ (s.getPh n).shedStep < 8
      then rampShares (chanOr s n) (n.val - chanOr s n) ((s.getPh n).shedStep + 1) (onTimeBegun n at_ s) else onTimeBegun n at_ s) := by
  change execOnTimeStart n at_ s = _
  unfold execOnTimeStart
  rw [if_neg (by simp [may]), if_neg (by simp [clear])]
  rfl

theorem onTimeBegun_ph (n at_ : Nat) (s : State) : (onTimeBegun n at_ s).ph = (phaseBegun n at_ s).ph := by
  unfold onTimeBegun
  split <;> rfl

theorem onTimeBegun_within (n at_ : Nat) (s : State) : Within [.ph, .ch] s (onTimeBegun n at_ s) :=
  .ite (modPh_within (Within.refl _ _) rfl) (modCh_within (modPh_within (Within.refl _ _) rfl) rfl)

theorem mayStart_offTime {at_ : Nat} (may : mayStart s n at_ = true) : (s.getPh n).onTime = false := by
  unfold mayStart at may
  simp only [Bool.and_eq_true, Bool.not_eq_true'] at may
  obtain ⟨⟨⟨⟨-, off⟩, -⟩, -⟩, -⟩ := may
  exact off

/-! ### What latching a fault does to the phase -/

theorem supplyCause_getPh (k m cause count : Nat) (had : Bool) (s : State) (j : Nat) : (supplyCause k m cause count had s).getPh j = s.getPh j := rfl

theorem getPh_ite {c : Prop} [Decidable c] {a b : State} {j : Nat} {x : Phase} (ha : a.getPh j = x) (hb : b.getPh j = x) :
    (if c then a else b).getPh j = x := by split <;> assumption

/-- The phase's bit is set, its channel safe, and the phase itself brakes or is in FAULT. -/
def faulted (n bit : Nat) (s : State) : State :=
  modPh n (fun p => if p.st = .brake then p else { p with st := .fault }) (safeChannel (chanOr s n) (setPhFlt n bit s))

/-- The fault is recorded, and the channel is decided. -/
def faultDecided (n bit cause : Nat) (s : State) : State :=
  decideCh (chanOr s n) cause (some n) (captureLfr n cause s (faulted n bit s))

section
variable {bit cause count : Nat}

theorem latchPhase_again (set : bitN (s.getPh n).flt bit = true) : latchPhase n bit cause count s = s := if_pos set

theorem latchPhase_ph (fresh : bitN (s.getPh n).flt bit = false) (j : Nat) :
    (latchPhase n bit cause count s).getPh j = (faultDecided n bit cause s).getPh j := by
  have latched : latchPhase n bit cause count s = _ := if_neg (by simp [fresh])
  rw [latched, supplyCause_getPh]
  exact getPh_ite rfl rfl

theorem faulted_calm (n bit : Nat) (s : State) (j : Nat) : Calm ((setPhFlt n bit s).getPh j) ((faulted n bit s).getPh j) :=
  (safeChannel_calm _ _ j).trans (modPh_calm n _ (fun p => by split <;> rfl) _ j)

theorem faultDecided_calm (n bit cause : Nat) (s : State) (j : Nat) : Calm ((setPhFlt n bit s).getPh j) ((faultDecided n bit cause s).getPh j) :=
  (faulted_calm n bit s j).trans ((captureLfr_calm n cause s _ j).trans (decideCh_calm _ cause (some n) _ j))

/-- All but the fault bits of a phase that only Calm keeps. -/
theorem latchPhase_calm (fresh : bitN (s.getPh n).flt bit = false) (j : Nat) :
    Calm ((setPhFlt n bit s).getPh j) ((latchPhase n bit cause count s).getPh j) := by
  rw [latchPhase_ph fresh]
  exact faultDecided_calm n bit cause s j

theorem captureLfr_still (n cause : Nat) (pre s : State) (j : Nat) : ((captureLfr n cause pre s).getPh j).st = (s.getPh j).st ∧
    ((captureLfr n cause pre s).getPh j).onTime = (s.getPh j).onTime := by
  unfold captureLfr
  dsimp only
  rw [getPh_modPh]
  split
  · split
    · exact ⟨rfl, rfl⟩
    · split <;> exact ⟨rfl, rfl⟩
  · exact ⟨rfl, rfl⟩

theorem decideCh_held (k cause : Nat) (arg : Option Nat) (s : State) (j : Nat) : Held (s.getPh j) ((decideCh k cause arg s).getPh j) := by
  unfold decideCh
  dsimp only
  split
  · exact .refl _
  · rw [raiseOpt_getPh]
    exact safeChannel_held k { setHist cause s with saf := { (setHist cause s).saf with nCh := incSat 8 (setHist cause s).saf.nCh } } j

theorem faulted_st (small : n < 128) (bit : Nat) (s : State) : ((faulted n bit s).getPh n).st = .brake ∨ ((faulted n bit s).getPh n).st = .fault := by
  unfold faulted
  rw [getPh_modPh_self small]
  split
  next brakes => exact .inl brakes
  · exact .inr rfl

theorem latchPhase_st (small : n < 128) (fresh : bitN (s.getPh n).flt bit = false) :
    ((latchPhase n bit cause count s).getPh n).st = .brake ∨ ((latchPhase n bit cause count s).getPh n).st = .fault := by
  rw [latchPhase_ph fresh]
  have held := decideCh_held (chanOr s n) cause (some n) (captureLfr n cause s (faulted n bit s)) n
  have still := (captureLfr_still n cause s (faulted n bit s) n).1
  exact (faulted_st small bit s).imp (fun h => held.1 (still.trans h)) (fun h => held.2 (still.trans h))

theorem phasesOf_of_nph {t : State} {k : Nat} (same : (t.getCh k).nph = (s.getCh k).nph) : phasesOf t k = phasesOf s k := by
  unfold phasesOf
  rw [same]

theorem safeChannel_nph (k : Nat) (s : State) (j : Nat) : ((safeChannel k s).getCh j).nph = (s.getCh j).nph := by
  have mid : ((midChannel k s).getCh j).nph = (s.getCh j).nph := (congrArg Channel.nph (midChannel_midOnly k s j :) :)
  refine Eq.trans ?_ mid
  unfold safeChannel openDisc
  split
  · rw [getCh_modCh]
    split <;> rfl
  · rw [getCh_modCh]
    split <;> rfl

/-- The phases of the channel that is decided end their on-times, if no safe state covered it. -/
theorem decideCh_onTime (k cause : Nat) (arg : Option Nat) (s : State) (j : Nat) : ((decideCh k cause arg s).getPh j).onTime = (s.getPh j).onTime ∨
    ((decideCh k cause arg s).getPh j).onTime = ((s.getPh j).onTime && !decide (j ∈ phasesOf s k ∧ j < 128)) := by
  unfold decideCh
  dsimp only
  split
  · exact .inl rfl
  · rw [raiseOpt_getPh]
    exact .inr (safeChannel_onTime k { setHist cause s with saf := { (setHist cause s).saf with nCh := incSat 8 (setHist cause s).saf.nCh } } j)

theorem faulted_onTime (small : n < 128) (bit : Nat) (s : State) : ((faulted n bit s).getPh n).onTime =
    ((s.getPh n).onTime && !decide (n ∈ phasesOf s (chanOr s n) ∧ n < 128)) := by
  have same : ((setPhFlt n bit s).getPh n).onTime = (s.getPh n).onTime := by
    unfold setPhFlt
    rw [getPh_modPh_self small]
  have safe := safeChannel_onTime (chanOr s n) (setPhFlt n bit s) n
  rw [same, phasesOf_of_nph (s := s) (t := setPhFlt n bit s) rfl] at safe
  refine Eq.trans ?_ safe
  unfold faulted
  rw [getPh_modPh_self small]
  split <;> rfl

theorem latchPhase_onTime (small : n < 128) (fresh : bitN (s.getPh n).flt bit = false) :
    ((latchPhase n bit cause count s).getPh n).onTime = ((s.getPh n).onTime && decide (n ∉ phasesOf s (chanOr s n))) := by
  rw [latchPhase_ph fresh]
  have decided := decideCh_onTime (chanOr s n) cause (some n) (captureLfr n cause s (faulted n bit s)) n
  have nph : ((captureLfr n cause s (faulted n bit s)).getCh (chanOr s n)).nph = (s.getCh (chanOr s n)).nph := safeChannel_nph ..
  rw [(captureLfr_still n cause s (faulted n bit s) n).2, faulted_onTime small, phasesOf_of_nph nph] at decided
  unfold faultDecided
  by_cases mem : n ∈ phasesOf s (chanOr s n)
  · rcases decided with h | h <;> simp [h, mem, small]
  · rcases decided with h | h <;> simp [h, mem]

/-- The bit that is latched, and the history. -/
theorem latchPhase_bits (small : n < 128) (fresh : bitN (s.getPh n).flt bit = false) :
    ((latchPhase n bit cause count s).getPh n).flt = setBitN (s.getPh n).flt bit true ∧
    ((latchPhase n bit cause count s).getPh n).fltHist = setBitN (s.getPh n).fltHist bit true := by
  have calm := latchPhase_calm (cause := cause) (count := count) fresh n
  unfold setPhFlt at calm
  rw [getPh_modPh_self small] at calm
  exact ⟨(congrArg Phase.flt calm :), (congrArg Phase.fltHist calm :)⟩

end

/-! ### A limited cycle -/

/-- A phase with a cycle limited for the first time in its period. -/
def limited (p : Phase) : Phase := { p with limCycle := true, lim := true, cntLim := incSat 32 p.cntLim, ocfRun := incSat 8 p.ocfRun }

theorem limitedCycle_again {at_ : Nat} (again : (s.getPh n).limCycle = true) : limitedCycle n at_ s = s := if_pos again

theorem limitedCycle_first {at_ : Nat} (first : (s.getPh n).limCycle = false) : limitedCycle n at_ s =
    if (s.getPh n).ocfRun + 1 = 8 then latchPhase n PhFlt.ocf Cause.phOcfLatch (at_ / 4) (demandEvent (chanOr s n) (modPh n limited s))
    else demandEvent (chanOr s n) (modPh n limited s) := if_neg (by simp [first])

theorem cancelShed_onTime (k : Nat) (s : State) (j : Nat) : ((cancelShed k s).getPh j).onTime = (s.getPh j).onTime := by
  unfold cancelShed
  split
  next o _ =>
    refine (shareEqual_still k _ j).2.1.trans ?_
    rw [getPh_modPh]
    split <;> rfl
  · rfl

theorem limitedShared_calm (small : n < 128) (s : State) : Calm (limited (s.getPh n)) ((demandEvent (chanOr s n) (modPh n limited s)).getPh n) := by
  have calm := demandEvent_calm (chanOr s n) (modPh n limited s) n
  rwa [getPh_modPh_self small] at calm

theorem limitedShared_onTime (small : n < 128) (s : State) :
    ((demandEvent (chanOr s n) (modPh n limited s)).getPh n).onTime = (s.getPh n).onTime := by
  refine (cancelShed_onTime _ _ n).trans ?_
  have counted := getPh_modPh_self small limited s
  exact (congrArg Phase.onTime counted :)

theorem limitedCycle_onTime (small : n < 128) {at_ : Nat} (off : (s.getPh n).onTime = false) : ((limitedCycle n at_ s).getPh n).onTime = false := by
  cases first : (s.getPh n).limCycle with
  | true =>
    rw [limitedCycle_again first]
    exact off
  | false =>
    rw [limitedCycle_first first]
    have shared := (limitedShared_onTime small s).trans off
    split
    · cases fresh : bitN ((demandEvent (chanOr s n) (modPh n limited s)).getPh n).flt PhFlt.ocf with
      | true =>
        rw [latchPhase_again fresh]
        exact shared
      | false =>
        rw [latchPhase_onTime small fresh, shared]
        rfl
    · exact shared

theorem limitedCycle_record (small : n < 128) {at_ : Nat} (first : (s.getPh n).limCycle = false) :
    ((limitedCycle n at_ s).getPh n).limCycle = true ∧ ((limitedCycle n at_ s).getPh n).lim = true ∧
    ((limitedCycle n at_ s).getPh n).cntLim = incSat 32 (s.getPh n).cntLim ∧
    ((limitedCycle n at_ s).getPh n).ocfRun = incSat 8 (s.getPh n).ocfRun := by
  rw [limitedCycle_first first]
  have shared := limitedShared_calm small s
  generalize demandEvent (chanOr s n) (modPh n limited s) = u at *
  split
  · cases fresh : bitN (u.getPh n).flt PhFlt.ocf with
    | true =>
      rw [latchPhase_again fresh, shared]
      exact ⟨rfl, rfl, rfl, rfl⟩
    | false =>
      have calm := latchPhase_calm (cause := Cause.phOcfLatch) (count := at_ / 4) fresh n
      unfold setPhFlt at calm
      rw [getPh_modPh_self small, shared] at calm
      rw [calm]
      exact ⟨rfl, rfl, rfl, rfl⟩
  · rw [shared]
    exact ⟨rfl, rfl, rfl, rfl⟩

theorem limitedCycle_latches (small : n < 128) {at_ : Nat} (first : (s.getPh n).limCycle = false) (eighth : (s.getPh n).ocfRun + 1 = 8) :
    bitN ((limitedCycle n at_ s).getPh n).flt 0 = true := by
  rw [limitedCycle_first first, if_pos eighth]
  generalize demandEvent (chanOr s n) (modPh n limited s) = u
  cases fresh : bitN (u.getPh n).flt PhFlt.ocf with
  | true =>
    rw [latchPhase_again fresh]
    exact fresh
  | false =>
    rw [(latchPhase_bits small fresh).1]
    exact bitN_setBitN ..

/-! ### The end of an on-time and the readings of IMON -/

/-- The phase's on-time ends. -/
def onTimeEnded (n at_ code : Nat) (reached : Bool) (s : State) : State := modPh n (endOnTime s n at_ code reached) s

theorem exec_onTimeEnd_limited {n : Fin 128} {at_ : Nat} {code : BitVec 12} {calls : Bool} (on : (s.getPh n).onTime = true)
    (crossed : (s.getPh n).limNow = true) (open_ : blanked s n at_ = false) :
    exec (.onTimeEnd n at_ code calls) s = .next (limitedCycle n at_ (onTimeEnded n at_ code.toNat false s)) := if_pos (by simp [on, crossed, open_])

theorem exec_onTimeEnd_stays {n : Fin 128} {at_ : Nat} {code : BitVec 12} {calls : Bool}
    (clear : ((s.getPh n).onTime && (s.getPh n).limNow && !blanked s n at_) = false)
    (stays : (s.getPh n).onTime = false ∨ at_ - (s.getPh n).tStart < (s.getPh n).tonCode ∨
      calls = true ∧ at_ - (s.getPh n).tStart < tonMax s n (s.getPh n).tonCode) : exec (.onTimeEnd n at_ code calls) s = .next s :=
  (if_neg (by rw [clear]; exact Bool.false_ne_true)).trans (if_pos (by
    rcases stays with h | h | ⟨c, h⟩
    · simp [h]
    · simp [h]
    · simp [c, h]))

theorem exec_onTimeEnd_ends {n : Fin 128} {at_ : Nat} {code : BitVec 12} {calls : Bool}
    (clear : ((s.getPh n).limNow && !blanked s n at_) = false) (on : (s.getPh n).onTime = true) (long : (s.getPh n).tonCode ≤ at_ - (s.getPh n).tStart)
    (ends : calls = false ∨ tonMax s n (s.getPh n).tonCode ≤ at_ - (s.getPh n).tStart) : exec (.onTimeEnd n at_ code calls) s =
      .next (onTimeEnded n at_ code.toNat (decide (tonMax s n (s.getPh n).tonCode ≤ at_ - (s.getPh n).tStart)) s) := by
  refine (if_neg ?_).trans (if_neg ?_)
  · rw [on, Bool.true_and, clear]
    exact Bool.false_ne_true
  · rcases ends with h | h
    · simp [on, h, long]
    · simp [on, long, h]

/-- A reading beyond, or within, the fast limit. -/
def limitRead (n code : Nat) (beyond : Bool) (s : State) : State := modPh n (fun p => { takeImon s n code p with limNow := beyond }) s

theorem exec_fastLimitCross {n : Fin 128} {at_ : Nat} {code : BitVec 12} (up : s.mode.up = true) (here : populated s (chanOr s n) = true) :
    exec (.fastLimitCross n at_ code) s =
      if beyondOcf s n code.toNat then
        (if (s.getPh n).onTime then
          (if blanked s n at_ then .next (limitRead n code.toNat true s)
            else .next (limitedCycle n at_ (modPh n (endOnTime s n at_ code.toNat false) (limitRead n code.toNat true s))))
        else if coincides s n at_ then .next (limitedCycle n at_ (limitRead n code.toNat true s))
        else .next (limitRead n code.toNat true s))
      else .next (limitRead n code.toNat false s) := if_neg (by simp [up, here])

/-- The bin of the slow window that ends. -/
def slowBin (n sum : Nat) (s : State) : Int × Nat :=
  (imonMean s n sum (128 * Nat.max 1 (Nat.min 8 (since s (s.getPh n).ocsFrom))), Nat.max 1 (Nat.min 8 (since s (s.getPh n).ocsFrom)))

def slowBins (n sum : Nat) (s : State) : List (Int × Nat) := (slowBin n sum s :: (s.getPh n).ocsBins).take (ocsBinsN s n)

def slowMean (bins : List (Int × Nat)) : Int := rnd (sumI (bins.map fun b => b.1 * (b.2 : Int))) (sumN (bins.map fun b => b.2))

/-- The window's bins and average are in force. -/
def slowRead (n sum : Nat) (s : State) : State :=
  modPh n (fun p => { p with ocsBins := slowBins n sum s, iavg := slowMean (slowBins n sum s) }) s

theorem exec_slowLimitBinEnd {n : Fin 128} {sum : Nat} (up : s.mode.up = true) (here : populated s (chanOr s n) = true) :
    exec (.slowLimitBinEnd n sum) s = if phOcsThr s n < (slowMean (slowBins n sum s)).natAbs
      then .next (latchPhase n PhFlt.ocs Cause.phOcsTrip (lineU s / 16) (slowRead n sum s)) else .next (slowRead n sum s) :=
  if_neg (by simp [up, here])

end

/-- Settles O22: an on-time starts, ends and is limited where its conditions hold, the token goes round, and a fault is latched once. -/
theorem onTimesTokenAndLimits : Obligations.OnTimesTokenAndLimits := by
  unfold Obligations.OnTimesTokenAndLimits
  refine ⟨fun s n at_ may => if_pos (by simp [may]), fun s n at_ may crossed => ?_, fun s n at_ may clear => ?_,
    fun s n at_ again => limitedCycle_again again, fun s n at_ first => ?_, fun s n at_ code calls on crossed open_ => ?_,
    fun s n at_ code calls clear stays => exec_onTimeEnd_stays clear stays, fun s n at_ code calls clear on long ends => ?_, fun s n => ?_,
    fun s n h => ?_, fun s n up here fsw => ?_, fun s n at_ => ?_, fun s n at_ code idle => if_pos (by simpa [imp_iff_not_or] using idle),
    fun s n at_ code up here => ?_, fun s n sum idle => if_pos (by simpa [imp_iff_not_or] using idle), fun s n sum up here => ?_,
    fun s n at_ codes h => ?_, fun s n at_ codes sen here bad => ?_, fun s n b cause count set => latchPhase_again set,
    fun s n b cause count fresh => ?_⟩
  · refine ⟨_, (if_neg (by simp [may])).trans (if_pos crossed), rfl, limitedCycle_onTime n.isLt (mayStart_offTime may)⟩
  · have small := n.isLt
    have run := exec_onTimeStart may clear
    have start : (onTimeBegun n at_ s).getPh n = _ := (getPh_of_ph (onTimeBegun_ph n at_ s) n).trans (getPh_modPh_self small _ s)
    have frame := onTimeBegun_within n at_ s
    have others (j : Nat) (other : j ≠ n.val) : (onTimeBegun n at_ s).getPh j = s.getPh j :=
      (getPh_of_ph (onTimeBegun_ph n at_ s) j).trans (getPh_modPh_other other _ s)
    have alone (one : (s.getCh (chanOr s n)).nph < 2) (k : Nat) : (onTimeBegun n at_ s).getCh k = s.getCh k := by
      unfold onTimeBegun
      rw [if_pos one]
      rfl
    have token (two : 2 ≤ (s.getCh (chanOr s n)).nph) : ((onTimeBegun n at_ s).getCh (chanOr s n)).tokStart = at_ ∧
        ((onTimeBegun n at_ s).getCh (chanOr s n)).token = nextToken (s.getCh (chanOr s n)).active (n.val - chanOr s n) ∧
        ∀ k, k ≠ chanOr s n → (onTimeBegun n at_ s).getCh k = s.getCh k := by
      unfold onTimeBegun
      rw [if_neg (by omega), getCh_modCh_self (chanOr_lt s n)]
      exact ⟨rfl, rfl, fun k other => getCh_modCh_other other _ _⟩
    have mine : chanOr s n + (n.val - chanOr s n) = n.val := by
      have le := chanOr_le s n
      omega
    generalize onTimeBegun n at_ s = u at *
    by_cases ramps : 0 < (s.getPh n).shedStep ∧ (s.getPh n).shedStep < 8
    · rw [if_pos ramps] at run
      have calm := rampShares_calm (chanOr s n) (n.val - chanOr s n) ((s.getPh n).shedStep + 1) u n
      obtain ⟨pwm, on, shed, -, -, -⟩ := rampShares_ph (chanOr s n) (n.val - chanOr s n) ((s.getPh n).shedStep + 1) u n
      have channels := rampShares_ch (chanOr s n) (n.val - chanOr s n) ((s.getPh n).shedStep + 1) u
      rw [start] at calm pwm on shed
      refine ⟨_, run, on, (congrArg Phase.tStart calm :), pwm, (congrArg Phase.tonCode calm :), (congrArg Phase.tonMail calm :),
        (congrArg Phase.sat calm :), (congrArg Phase.olRun calm :), (congrArg Phase.ocfRun calm :), (congrArg Phase.limCycle calm :), ?_,
        fun one k => (getCh_of_ch channels k).trans (alone one k), fun two => ?_, fun none => ?_, rampShares_within frame rfl⟩
      · rw [if_pos ramps]
        exact shed.trans (if_pos ⟨mine, small⟩)
      · obtain ⟨first, second, third⟩ := token two
        rw [getCh_of_ch channels]
        exact ⟨first, second, fun k other => (getCh_of_ch channels k).trans (third k other)⟩
      · omega
    · rw [if_neg ramps] at run
      refine ⟨u, run, ?_, ?_, ?_, ?_, ?_, ?_, ?_, ?_, ?_, ?_, alone, token, fun _ => others, frame⟩
      all_goals
        rw [start]
      exacts [rfl, rfl, rfl, rfl, rfl, rfl, rfl, rfl, rfl, (if_neg ramps).symm]
  · obtain ⟨lc, lim, cnt, run⟩ := limitedCycle_record n.isLt (at_ := at_) first
    refine ⟨lc, lim, cnt, run, limitedCycle_latches n.isLt first, fun fewer => ?_⟩
    have shared := limitedShared_calm n.isLt s
    rw [limitedCycle_first first, if_neg fewer, shared]
    exact ⟨rfl, demandEvent_within (modPh_within (Within.refl _ _) rfl) rfl⟩
  · have ended : (onTimeEnded n at_ code.toNat false s).getPh n = _ := getPh_modPh_self n.isLt _ s
    refine ⟨_, exec_onTimeEnd_limited on crossed open_, ?_, ?_, ?_, ?_, fun j other => getPh_modPh_other other _ s, modPh_within (Within.refl _ _) rfl⟩
    all_goals
      rw [ended]
      rfl
  · have ended := getPh_modPh_self n.isLt (endOnTime s n at_ code.toNat (decide (tonMax s n (s.getPh n).tonCode ≤ at_ - (s.getPh n).tStart))) s
    refine ⟨_, exec_onTimeEnd_ends clear on long ends, ?_, ?_, ?_, ?_, ?_, ?_, fun j other => getPh_modPh_other other _ s,
      modPh_within (Within.refl _ _) rfl⟩
    all_goals
      unfold onTimeEnded
      rw [ended]
      rfl
  · change execImonZeroCross n s = _
    unfold execImonZeroCross
    refine (apply_ite Host.Outcome.next _ _ _).symm.trans (congrArg Host.Outcome.next (if_congr ?_ rfl rfl))
    simp
  · exact if_neg (by simpa [and_assoc] using h)
  · have run : exec (.tonCodeUpdate n) s = _ := if_pos (by simp [up, here, fsw])
    refine ⟨_, run, ?_, ?_, fun two => ?_, fun j other => getPh_modPh_other other _ s, modPh_within (Within.refl _ _) rfl⟩
    · rw [getPh_modPh_self n.isLt]
    · rw [getPh_modPh_self n.isLt]
      dsimp only
      split <;> simp
    · rw [getPh_modPh_self n.isLt]
      dsimp only
      split
      · simp
        omega
      · simp
        omega
  · change execTokenSkip n at_ s = _
    unfold execTokenSkip
    exact (apply_ite Host.Outcome.next _ _ _).symm
  · have small := n.isLt
    have run := exec_fastLimitCross (at_ := at_) (code := code) up here
    have read (b : Bool) : (limitRead n code.toNat b s).getPh n = _ := getPh_modPh_self small _ s
    have others (b : Bool) (j : Nat) (other : j ≠ n.val) : (limitRead n code.toNat b s).getPh j = s.getPh j := getPh_modPh_other other _ s
    have frame (b : Bool) : Within [.ph] s (limitRead n code.toNat b s) := modPh_within (Within.refl _ _) rfl
    by_cases ends : beyondOcf s n code.toNat = true ∧ (s.getPh n).onTime = true ∧ blanked s n at_ = false
    · obtain ⟨beyond, on, open_⟩ := ends
      have ended := getPh_modPh_self small (endOnTime s n at_ code.toNat false) (limitRead n code.toNat true s)
      rw [read] at ended
      rw [if_pos beyond, if_pos on, if_neg (by simp [open_])] at run
      refine ⟨_, ?_, ?_, fun j other => (getPh_modPh_other other _ _).trans (others true j other), modPh_within (frame true) rfl,
        fun _ _ _ => ⟨run, ?_, ?_, ?_⟩, fun _ off => ?_, fun h => ?_⟩
      · rw [ended]
        rfl
      · rw [ended, beyond]
        rfl
      · rw [ended]
        rfl
      · rw [ended]
        rfl
      · rw [ended]
        rfl
      · cases on.symm.trans off
      · rcases h with h | ⟨-, h⟩ | ⟨h, -⟩
        · cases beyond.symm.trans h
        · cases open_.symm.trans h
        · cases on.symm.trans h
    · refine ⟨limitRead n code.toNat (beyondOcf s n code.toNat) s, ?_, ?_, others _, frame _, fun beyond on open_ => absurd ⟨beyond, on, open_⟩ ends,
        fun beyond off same => ?_, fun h => ⟨?_, ?_⟩⟩
      · rw [read]
        rfl
      · rw [read]
      · rw [run, if_pos beyond, if_neg (by simp [off]), if_pos same, beyond]
      · rw [run]
        rcases h with h | ⟨on, open_⟩ | ⟨off, apart⟩
        · rw [h]
          exact if_neg Bool.false_ne_true
        · cases beyond : beyondOcf s n code.toNat
          · exact if_neg Bool.false_ne_true
          · rw [if_pos rfl, if_pos on, if_pos open_]
        · cases beyond : beyondOcf s n code.toNat
          · exact if_neg Bool.false_ne_true
          · rw [if_pos rfl, if_neg (by simp [off]), if_neg (by simp [apart])]
      · rw [read]
        rfl
  · have run := exec_slowLimitBinEnd (sum := sum) up here
    have read : (slowRead n sum s).getPh n = _ := getPh_modPh_self n.isLt _ s
    refine ⟨slowRead n sum s, ?_, ?_, fun j other => getPh_modPh_other other _ s, modPh_within (Within.refl _ _) rfl, fun within_ => ?_, fun beyond => ?_⟩
    · rw [read]
      rfl
    · rw [read]
      rfl
    · rw [read] at within_
      exact run.trans (if_neg (not_lt.mpr within_))
    · rw [read] at beyond
      exact run.trans (if_pos beyond)
  · refine if_neg ?_
    rcases h with off | ⟨c, there, good⟩
    · simp only [Bool.and_eq_true, List.all_eq_true]
      rintro ⟨⟨sen, -⟩, here⟩
      simp [sen, here] at off
    · simp only [Bool.and_eq_true, List.all_eq_true]
      rintro ⟨⟨-, all⟩, -⟩
      simpa [good] using all c there
  · have all : codes.toList.all (fun c => !imonInRange c.toNat) = true := List.all_eq_true.mpr fun c there => by rw [bad c there]; rfl
    refine ⟨modPh n (takeImon s n codes[3].toNat) s, if_pos (by rw [sen, all, here]; rfl), modPh_within (Within.refl _ _) rfl, ?_,
      fun j other => getPh_modPh_other other _ s⟩
    rw [getPh_modPh_self n.isLt]
    rfl
  · obtain ⟨flt, hist⟩ := latchPhase_bits (cause := cause) (count := count) n.isLt fresh
    refine ⟨flt, hist, latchPhase_onTime n.isLt fresh, ?_, latchPhase_within (Within.refl _ _) rfl⟩
    rcases latchPhase_st (cause := cause) (count := count) n.isLt fresh with h | h <;> simp [h]

end Sys2Proof.Machine
end

section
/-!
A stage that wakes, braking (R56, R57), DISC, shedding (R61, R62), open load and the confirmation of a suspicion (R65 to R67).
-/

namespace Sys2Proof.Machine

section
variable {s : State} {n k : Nat}

/-! ### A stage that wakes -/

/-- The phases of a gallery. -/
def galPhases (g : Nat) : List Nat := (upto 16).map (16 * g + ·)

theorem mem_galPhases {g j : Nat} : j ∈ galPhases g ↔ galOf j = g := by
  unfold galPhases galOf upto
  simp only [List.mem_map, List.mem_range]
  constructor
  · rintro ⟨i, small, rfl⟩
    omega
  · intro mine
    exact ⟨j - 16 * g, by omega, by omega⟩

theorem nodup_galPhases (g : Nat) : (galPhases g).Nodup := (nodup_upto 16).map fun a b h => by simpa using h

/-- The gallery's stages are awake, and its phases leave OFF. -/
def stagesAwake (g : Nat) (s : State) : State :=
  forEach (galPhases g) (modPh · fun p => { p with st := if p.st = .off then .idle else p.st }) (modGal g (fun x => { x with awake := true }) s)

theorem stagesAwake_within (g : Nat) (s : State) : Within [.ph, .gal] s (stagesAwake g s) :=
  .forEach (fun _ _ => modPh_within (Within.refl _ _) rfl) (modGal_within (Within.refl _ _) rfl)

theorem stagesAwake_getPh {j : Nat} (small : j < 128) (g : Nat) (s : State) :
    (stagesAwake g s).getPh j = if galOf j = g ∧ (s.getPh j).st = .off then { s.getPh j with st := .idle } else s.getPh j := by
  have turned := getPh_forEach (galPhases g) (nodup_galPhases g) j (fun p => { p with st := if p.st = .off then .idle else p.st })
    (modGal g (fun x => { x with awake := true }) s)
  refine turned.trans ?_
  have same : (modGal g (fun x => { x with awake := true }) s).getPh j = s.getPh j := rfl
  rw [same]
  simp only [mem_galPhases, small, and_true]
  by_cases mine : galOf j = g
  · by_cases off : (s.getPh j).st = .off
    · simp only [mine, off, and_self, if_true]
    · simp only [mine, off, and_false, if_true, if_false]
  · simp only [mine, false_and, if_false]

theorem stagesAwake_awake {g : Nat} (small : g < 8) (s : State) : ((stagesAwake g s).getGal g).awake = true := by
  have phases : Within [.ph] (modGal g (fun x => { x with awake := true }) s) (stagesAwake g s) :=
    .forEach (fun _ _ => modPh_within (Within.refl _ _) rfl) (.refl _ _)
  rw [getGal_of_gal (phases .gal (by decide)), getGal_modGal, if_pos ⟨rfl, small⟩]

/-! ### The end of a brake -/

/-- The state a phase leaves BRAKE for (R56). -/
def afterBrake (n : Nat) (s : State) (flt : Nat) : PhSt :=
  if flt &&& phFaultMask ≠ 0 then .fault
  else if (s.getCh (chanOr s n)).allMid = false ∧ (s.getCh (chanOr s n)).active.contains (n - chanOr s n) = false then .shed
  else if (s.getGal (galOf n)).sen then .idle else .off

theorem afterBrake_eq (n : Nat) (s : State) (flt : Nat) : afterBrake n s flt = (if flt &&& phFaultMask ≠ 0 then .fault
    else if !(s.getCh (chanOr s n)).allMid && !(s.getCh (chanOr s n)).active.contains (n - chanOr s n) then .shed
    else if (s.getGal (galOf n)).sen then .idle else .off) := by
  unfold afterBrake
  simp only [Bool.and_eq_true, Bool.not_eq_true']

theorem leaveBrake_ph (us n : Nat) (s : State) : ∃ f : Phase → Phase, (leaveBrake n us s).ph = (modPh n f s).ph ∧
    ∀ p, (f p).st = afterBrake n s p.flt ∧ (f p).lfr = (match p.lfrOpen with | some b => lfrFinish us b | none => p.lfr) ∧ (f p).lfrOpen = none := by
  unfold leaveBrake
  extract_lets k c s1
  refine ⟨_, (?_ : _ = s1.ph), fun p => ?_⟩
  · split <;> rfl
  · dsimp only
    rw [afterBrake_eq]
    cases open_ : p.lfrOpen with
    | some b => exact ⟨rfl, rfl, rfl⟩
    | none => exact ⟨rfl, rfl, rfl⟩

/-! ### Shedding -/

/-- The highest active phase is on its way out, its share noted. -/
def shedBegun (k o : Nat) (s : State) : State :=
  modCh k (fun c => { c with dwell := 0 }) (modPh (k + o) (fun p => { p with shedFrom := p.share, st := .shedding }) s)

theorem exec_shedStart {k : Fin 128} (due : shedDue s k = true) : exec (.shedStart k) s =
    .next (rampShares k ((s.getCh k).active.getLastD 0) 1 (shedBegun k ((s.getCh k).active.getLastD 0) s)) := if_pos due

/-- The phase is out of the active set, and the token passes on from it. -/
def shedDone (k o : Nat) (s : State) : State :=
  modCh k (fun c => { c with active := (s.getCh k).active.filter (· != o),
                             token := if c.token = o then nextToken ((s.getCh k).active.filter (· != o)) o else c.token })
    (modPh (k + o) (fun p => { p with cntShed := incSat 16 p.cntShed, bal := 0, dem := 0 }) (midPhase .shed (k + o) s))

theorem exec_shedComplete_other {k : Fin 128} (h : ∀ o, shedding s k = some o → (s.getPh (k.val + o)).shedStep ≠ 8) : exec (.shedComplete k) s = .next s := by
  change execShedComplete k s = _
  unfold execShedComplete
  split
  next o sheds => exact if_neg (h o sheds)
  · rfl

theorem exec_shedComplete {k : Fin 128} {o : Nat} (sheds : shedding s k = some o) (last : (s.getPh (k.val + o)).shedStep = 8) :
    exec (.shedComplete k) s = .next (readmit k (shareEqual k (shedDone k o s))) := by
  change execShedComplete k s = _
  unfold execShedComplete
  rw [sheds]
  exact if_pos last

theorem shedDone_within (k o : Nat) (s : State) : Within [.ph, .ch] s (shedDone k o s) :=
  modCh_within (modPh_within (midPhase_within (Within.refl _ _) rfl) rfl) rfl

theorem shedDone_getPh {o : Nat} (small : k + o < 128) (s : State) : ((shedDone k o s).getPh (k + o)).cntShed = incSat 16 (s.getPh (k + o)).cntShed ∧
    ((shedDone k o s).getPh (k + o)).onTime = false := by
  have calm := midPhase_calm .shed (k + o) s (k + o)
  have off := midPhase_onTime .shed (k + o) s (k + o)
  have done : (shedDone k o s).getPh (k + o) = _ := getPh_modPh_self small _ (midPhase .shed (k + o) s)
  rw [done]
  refine ⟨congrArg (incSat 16) (congrArg Phase.cntShed calm :), off.trans ?_⟩
  simp [small]

/-- The token goes to another phase, while one is left. -/
theorem nextToken_ne {l : List Nat} {o : Nat} (out : o ∉ l) (some : l ≠ []) : nextToken l o ≠ o := by
  unfold nextToken
  split
  next j found =>
    have later := List.find?_some found
    simp only [decide_eq_true_eq] at later
    omega
  · cases l with
    | nil => exact absurd rfl some
    | cons a l =>
      intro same
      exact out (same ▸ List.mem_cons_self)

theorem shedDone_token {o : Nat} (small : k < 128) (left : (s.getCh k).active.filter (· != o) ≠ []) : ((shedDone k o s).getCh k).token ≠ o := by
  have done : (shedDone k o s).getCh k = _ := getCh_modCh_self small _ _
  rw [done]
  dsimp only
  split
  · exact nextToken_ne (by simp) left
  next other => exact other

/-! ### Open load and the confirmation test -/

theorem declare_calm (k : Nat) (ovr : Bool) (s : State) (j : Nat) : Calm (s.getPh j) ((declare k ovr s).getPh j) := by
  unfold declare
  dsimp only
  split
  · have echoes : (abortEchoes k (safeChannel k s)).ph = (safeChannel k s).ph := abortEchoes_within (Within.refl [.fe] _) rfl .ph (by decide)
    exact (safeChannel_calm k s j).trans ((getPh_of_ph echoes j) ▸ Calm.refl _)
  · exact .refl _

theorem declare_channel {ovr : Bool} (small : k < 128) (active : (s.getCh k).st.active = true) (fresh : (s.getCh k).suspect = false) :
    ((declare k ovr s).getCh k).suspect = true ∧ ((declare k ovr s).getCh k).test = some {} ∧ ((declare k ovr s).getCh k).reg.iDem = 0 ∧
    ((declare k ovr s).getCh k).declTk = s.tb.run + 1 := by
  unfold declare
  dsimp only
  rw [if_pos (by simp [active, fresh]), getCh_modCh_self small]
  exact ⟨rfl, rfl, rfl, rfl⟩

/-- The fault of a confirmed suspicion, given to the channel for the next tick. -/
theorem confirmFault_next {m bit cause arg : Nat} (small : k < 128) (fresh : (s.getCh k).fltNext = none) :
    ((confirmFault k m bit cause arg s).getCh k).fltNext = some cause := by
  unfold confirmFault
  dsimp only
  rw [getCh_modCh_self small]
  have same : (raiseA .fabric cause k arg (captureLfr m cause s (setPhFlt m bit s))).getCh k = s.getCh k := rfl
  rw [same, fresh]
  rfl

theorem confirmFault_test {m bit cause arg : Nat} (small : k < 128) : ((confirmFault k m bit cause arg s).getCh k).test = (s.getCh k).test := by
  unfold confirmFault
  dsimp only
  rw [getCh_modCh_self small]
  rfl

theorem confirmFault_bit {bit cause arg : Nat} (small : k < 128) : bitN ((confirmFault k k bit cause arg s).getPh k).flt bit = true := by
  have calm := captureLfr_calm k cause s (setPhFlt k bit s) k
  have same : ((confirmFault k k bit cause arg s).getPh k) = (captureLfr k cause s (setPhFlt k bit s)).getPh k := rfl
  unfold setPhFlt at calm
  rw [getPh_modPh_self small] at calm
  rw [same]
  exact (congrArg (fun p : Phase => bitN p.flt bit) calm).trans (bitN_setBitN _ _)

/-- The channel's test has ended. -/
def testEnded (k : Nat) (s : State) : State := modCh k (fun c => { c with test := none }) s

theorem exec_confirmTestOutcome {k : Fin 128} {u : ConfTest} (test : (s.getCh k).test = some u) (biased : u.biased = true) :
    exec (.confirmTestOutcome k) s = .next (if (s.getCh k).st = .lost then modCh k (fun c => { c with isOpen := openAfter s k u }) (testEnded k s)
      else if u.openA && (u.openB || !native s k) then modCh k (fun c => { c with lostNext := true, isOpen := true }) (testEnded k s)
      else if native s k && u.openA then confirmFault k k PhFlt.senseOpen Cause.phSenseOpenA k (testEnded k s)
      else if native s k && u.openB then confirmFault k k PhFlt.senseOpen Cause.phSenseOpenB k (testEnded k s)
      else if (s.getCh k).susOvr then modCh k (fun c => { c with fltNext := if c.fltNext.isSome then c.fltNext else some Cause.feVOvr }) (testEnded k s)
      else confirmFault k (openPhase s k) PhFlt.noCurrent Cause.phNoCurrent (openPhase s k) (testEnded k s)) := by
  change execConfirmTestOutcome k s = _
  unfold execConfirmTestOutcome
  dsimp only
  rw [test]
  dsimp only
  rw [if_pos biased]
  rfl

end

/-- Settles O23: a stage wakes, a brake ends, a phase is shed and a suspicion is confirmed in their own states alone. -/
theorem brakeShedAndConfirmation : Obligations.BrakeShedAndConfirmation := by
  unfold Obligations.BrakeShedAndConfirmation
  refine ⟨fun s g off => if_neg (by simp [off]), fun s g sen => ⟨stagesAwake g s, if_pos sen, stagesAwake_awake g.isLt s,
      fun n small => stagesAwake_getPh small g s, stagesAwake_within g s⟩, fun s n us codes h => ?_, fun s n us codes brakes low => ?_,
    fun s n at_ other => if_neg other, fun s n at_ brakes => ?_, fun s k => ?_, fun s k idle => if_neg (by simp [idle]), fun s k due => ?_,
    fun s k h => exec_shedComplete_other h, fun s k o sheds last => ?_, fun s n h => if_neg h, fun s n run active fresh => ?_, fun s k => ?_,
    fun s k h => ?_, fun s k u test biased => ?_, fun s k => ?_⟩
  · refine if_neg ?_
    rintro ⟨brakes, all⟩
    rcases h with other | ⟨c, there, high⟩
    · exact other brakes
    · have low := of_decide_eq_true (List.all_eq_true.mp all c there)
      omega
  · have small := n.isLt
    have run : exec (.brakeExit n us codes) s = .next (leaveBrake n us (modPh n (takeImon s n codes[3].toNat) s)) :=
      if_pos ⟨brakes, List.all_eq_true.mpr fun c there => decide_eq_true (low c there)⟩
    obtain ⟨f, ph, f_spec⟩ := leaveBrake_ph us n (modPh n (takeImon s n codes[3].toNat) s)
    have read := getPh_modPh_self small (takeImon s n codes[3].toNat) s
    have left := (getPh_of_ph ph n).trans (getPh_modPh_self small f _)
    obtain ⟨st, lfr, lfrOpen⟩ := f_spec ((modPh n (takeImon s n codes[3].toNat) s).getPh n)
    rw [← left] at st lfr lfrOpen
    rw [read] at st lfr
    exact ⟨_, run, st, lfr, lfrOpen, fun j other => (getPh_of_ph ph j).trans ((getPh_modPh_other other _ _).trans (getPh_modPh_other other _ s)),
      leaveBrake_within (modPh_within (Within.refl _ _) rfl) rfl⟩
  · have small := n.isLt
    have bit : bitN ((latchPhase n PhFlt.brakeStuck Cause.phBrakeStuck (at_ / 4) s).getPh n).flt 5 = true := by
      cases fresh : bitN (s.getPh n).flt PhFlt.brakeStuck with
      | true => rw [latchPhase_again fresh]; exact fresh
      | false => rw [(latchPhase_bits small fresh).1]; exact bitN_setBitN ..
    refine ⟨_, if_pos brakes, ?_, ?_, ?_, modPh_within (latchPhase_within (Within.refl _ _) rfl) rfl⟩
    · rw [getPh_modPh_self small]
    · rw [getPh_modPh_self small]
    · rw [getPh_modPh_self small]
      exact bit
  · exact (apply_ite Host.Outcome.next _ _ _).symm
  · have run := exec_shedStart due
    have channels := rampShares_ch k ((s.getCh k).active.getLastD 0) 1 (shedBegun k ((s.getCh k).active.getLastD 0) s)
    have begun_ : (shedBegun k ((s.getCh k).active.getLastD 0) s).getCh k = _ := getCh_modCh_self k.isLt _ _
    refine ⟨_, run, ?_, ?_, fun n small is => ?_, rampShares_within (modCh_within (modPh_within (Within.refl _ _) rfl) rfl) rfl⟩
    · rw [getCh_of_ch channels, begun_]
    · rw [getCh_of_ch channels, begun_]
      rfl
    · subst is
      have start : (shedBegun k ((s.getCh k).active.getLastD 0) s).getPh (k + (s.getCh k).active.getLastD 0) = _ := getPh_modPh_self small _ s
      have calm := rampShares_calm k ((s.getCh k).active.getLastD 0) 1 (shedBegun k ((s.getCh k).active.getLastD 0) s)
        (k + (s.getCh k).active.getLastD 0)
      obtain ⟨-, -, shed, st, -, -⟩ := rampShares_ph k ((s.getCh k).active.getLastD 0) 1 (shedBegun k ((s.getCh k).active.getLastD 0) s)
        (k + (s.getCh k).active.getLastD 0)
      rw [start] at calm st
      exact ⟨st, shed.trans (if_pos ⟨rfl, small⟩), (congrArg Phase.shedFrom calm :)⟩
  · have small := k.isLt
    have run := exec_shedComplete sheds last
    have channels := shareEqual_ch k (shedDone k o s)
    have done : (shedDone k o s).getCh k = _ := getCh_modCh_self small _ _
    have shared := shareEqual_within (Within.refl [.ph] (shedDone k o s)) (x0 := k) rfl
    have frame : Within [.ph, .ch] s (shareEqual k (shedDone k o s)) := shareEqual_within (shedDone_within k o s) rfl
    refine ⟨_, shareEqual k (shedDone k o s), run, rfl, ?_, fun left => ?_, fun below => ?_, readmit_within frame rfl⟩
    · rw [getCh_of_ch channels, done]
    · rw [getCh_of_ch channels]
      exact shedDone_token small left
    · obtain ⟨cnt, off⟩ := shedDone_getPh below s
      have calm := shareEqual_calm k (shedDone k o s) (k + o)
      have still := shareEqual_still k (shedDone k o s) (k + o)
      exact ⟨(congrArg Phase.cntShed calm).trans cnt, still.2.1.trans off⟩
  · have small := n.isLt
    have line : exec (.phOpenLoad n) s = .next (declare (chanOr s n) false
      (raiseA .timebase Cause.phOpenLoad (chanOr s n) n (setPhFlt n PhFlt.openLoad s))) := if_pos ⟨run, active, fresh⟩
    have calm := declare_calm (chanOr s n) false (raiseA .timebase Cause.phOpenLoad (chanOr s n) n (setPhFlt n PhFlt.openLoad s)) n
    have set : (raiseA .timebase Cause.phOpenLoad (chanOr s n) n (setPhFlt n PhFlt.openLoad s)).getPh n = _ := getPh_modPh_self small _ s
    rw [set] at calm
    refine ⟨_, line, ?_, ?_, fun on => ?_, ?_⟩
    · exact (congrArg (fun p : Phase => bitN p.flt 2) calm).trans (bitN_setBitN _ _)
    · exact (congrArg (fun p : Phase => bitN p.fltHist 2) calm).trans (bitN_setBitN _ _)
    · exact declare_channel (s := raiseA .timebase Cause.phOpenLoad (chanOr s n) n (setPhFlt n PhFlt.openLoad s)) (chanOr_lt s n) on fresh
    · obtain ⟨e, events, cause⟩ := raiseSrc_events .timebase Cause.phOpenLoad (chanOr s n) (eventSource Cause.phOpenLoad (chanOr s n)) 2 (leBytes 4 n)
        (setPhFlt n PhFlt.openLoad s)
      have same := declare_within (Within.refl [.ph, .fe, .ch, .est] (raiseA .timebase Cause.phOpenLoad (chanOr s n) n (setPhFlt n PhFlt.openLoad s)))
        (x0 := chanOr s n) (x1 := false) rfl .fab (by decide)
      exact ⟨e, [], (congrArg Fabric.events same).trans events, cause⟩
  · change execConfirmBiasStart k s = _
    unfold execConfirmBiasStart
    cases (s.getCh k).test <;> rfl
  · change execConfirmTestOutcome k s = _
    unfold execConfirmTestOutcome
    dsimp only
    split
    next u test => exact if_neg (by rw [h u test]; exact Bool.false_ne_true)
    · rfl
  · have small := k.isLt
    have run := exec_confirmTestOutcome test biased
    have ended : (testEnded k s).getCh k = _ := getCh_modCh_self small _ s
    have quiet : Within [.ch] s (testEnded k s) := modCh_within (Within.refl _ _) rfl
    have still : ((testEnded k s).getCh k).test = none := congrArg Channel.test ended
    have fresh (empty : (s.getCh k).fltNext = none) : ((testEnded k s).getCh k).fltNext = none := (congrArg Channel.fltNext ended).trans empty
    by_cases lost : (s.getCh k).st = .lost
    · rw [if_pos lost] at run
      refine ⟨_, run, ?_, fun _ => ⟨?_, ?_, modCh_within quiet rfl⟩, fun h => absurd lost h, fun h => absurd lost h, fun h => absurd lost h,
        fun h => absurd lost h⟩
      all_goals
        rw [getCh_modCh_self small]
      · exact still
      · rw [ended]
    · rw [if_neg lost] at run
      cases a : u.openA with
      | true =>
        by_cases both : u.openB = true ∨ native s k = false
        · rw [a, if_pos (by rcases both with h | h <;> simp [h])] at run
          refine ⟨_, run, ?_, fun h => absurd h lost, fun _ _ _ => ⟨?_, ?_, modCh_within quiet rfl⟩, fun _ nat _ b => ?_, fun _ _ h => (by cases h),
            fun _ h => by cases h⟩
          · rw [getCh_modCh_self small]
            exact still
          · rw [getCh_modCh_self small]
          · rw [getCh_modCh_self small]
          · rcases both with h | h
            · cases h.symm.trans b
            · cases h.symm.trans nat
        · have one := not_or.mp both
          have nat : native s k = true := by simpa using one.2
          rw [a, if_neg (by simp [one.1, nat]), if_pos (by simp [nat])] at run
          refine ⟨_, run, (confirmFault_test small).trans still, fun h => absurd h lost, fun _ _ h => absurd h both,
            fun _ _ _ _ none => ⟨confirmFault_next small (fresh none), confirmFault_bit small⟩, fun _ _ h => (by cases h), fun _ h => by cases h⟩
      | false =>
        rw [a, Bool.false_and, Bool.and_false, if_neg Bool.false_ne_true, if_neg Bool.false_ne_true] at run
        by_cases b : native s k = true ∧ u.openB = true
        · rw [if_pos (by simp [b])] at run
          refine ⟨_, run, (confirmFault_test small).trans still, fun h => absurd h lost, fun _ h => (by cases h), fun _ _ h => (by cases h),
            fun _ _ _ _ none => ⟨confirmFault_next small (fresh none), confirmFault_bit small⟩, fun _ _ h => ?_⟩
          rcases h with h | h
          · cases b.2.symm.trans h
          · cases b.1.symm.trans h
        · rw [if_neg (by simpa using b)] at run
          by_cases ovr : (s.getCh k).susOvr = true
          · rw [if_pos ovr] at run
            refine ⟨_, run, ?_, fun h => absurd h lost, fun _ h => (by cases h), fun _ _ h => (by cases h),
              fun _ nat _ open_ => absurd ⟨nat, open_⟩ b, fun _ _ _ none => ?_⟩
            · rw [getCh_modCh_self small]
              exact still
            · rw [getCh_modCh_self small, if_pos ovr]
              dsimp only
              rw [fresh none]
              rfl
          · rw [if_neg ovr] at run
            exact ⟨_, run, (confirmFault_test small).trans still, fun h => absurd h lost, fun _ h => (by cases h), fun _ _ h => (by cases h),
              fun _ nat _ open_ => absurd ⟨nat, open_⟩ b, fun _ _ _ none => (confirmFault_next small (fresh none)).trans (congrArg some (if_neg ovr).symm)⟩
  · exact (apply_ite Host.Outcome.next _ _ _).symm

end Sys2Proof.Machine
end

section
/-!
The release of a gallery and of the device (R343, R344), the proof test (R349) and the writes of the safety set (R345, R341).
-/

namespace Sys2Proof.Machine

section
variable {s : State}

/-! ### The gate of the safety commands -/

theorem safCmd_of_busy {p : Path} {key : Byte} {f : State → State} (up : s.mode.up = true) (busy : loaderBusy s = true) :
    safCmd p key f s = raiseReg Cause.ldrBusy 0x00508C s := regGate_of_busy up busy _ _

section
variable (up : s.mode.up = true) (idle : loaderBusy s = false)
include up idle

theorem safCmd_passed {p : Path} {f : State → State} (may : mayRelease s p = true) : safCmd p 0xA5 f s = f s := by
  unfold safCmd
  rw [regGate_of_path up idle, if_neg (by simp [may]), if_neg (by simp)]

theorem safCmd_refused {p : Path} {key : Byte} {f : State → State} (bad : key ≠ 0xA5 ∨ mayRelease s p = false) :
    ∃ u, safCmd p key f s = refuseRelease 137 u s := by
  unfold safCmd
  rw [regGate_of_path up idle]
  cases may : mayRelease s p with
  | false => exact ⟨.path, if_pos (by simp)⟩
  | true =>
    have wrong : key ≠ 0xA5 := bad.resolve_right (by simp [may])
    exact ⟨.key, (if_neg (by simp)).trans (if_pos wrong)⟩

end

/-- A refusal raises its event and changes nothing else. -/
theorem refuseRelease_only (src : Nat) (u : Unmet) (s : State) :
    Within [.fab] s (refuseRelease src u s) ∧ ∃ e ∈ (refuseRelease src u s).fab.events, e.cause = Cause.safReleaseRefused :=
  ⟨raiseSrc_within (Within.refl _ _) rfl, raised_raiseSrc ..⟩

/-! ### Releases -/

theorem galUnmet_none_iff {g : Nat} : galUnmet s g = none ↔ (s.getGal g).safe.isSome = true ∧ s.saf.dev = none ∧ (s.getGal g).sflt = false ∧
    msTk 10 ≤ since s (s.getGal g).sfltHighTk ∧ driveGood s g = true ∧ (s.getDie g).broken = false ∧ (s.getDie g).t ≤ 12500 := by
  unfold galUnmet
  dsimp only
  cases safe : (s.getGal g).safe with
  | none => simp
  | some x =>
    rw [if_neg (by simp)]
    split
    next cause =>
      simp only [Bool.or_eq_true, Bool.not_eq_true', decide_eq_true_eq] at cause
      refine ⟨fun h => (by cases h), ?_⟩
      rintro ⟨-, -, sflt, late, drive, sensor, cold⟩
      rcases cause with (((h | h) | h) | h) | h
      · cases h.symm.trans sflt
      · omega
      · cases h.symm.trans drive
      · cases h.symm.trans sensor
      · omega
    next clear =>
      simp only [Bool.or_eq_true, Bool.not_eq_true', decide_eq_true_eq, not_or, Bool.not_eq_true, not_lt] at clear
      obtain ⟨⟨⟨⟨sflt, late⟩, drive⟩, sensor⟩, cold⟩ := clear
      cases dev : s.saf.dev with
      | none => simp [sflt, late, sensor, cold, Bool.not_eq_false _ ▸ drive]
      | some y => simp

theorem galRelease_accepted {g : Nat} (met : galUnmet s g = none) : galRelease g s = updateSens (modGal g (fun x => { x with safe := none }) s) := by
  unfold galRelease
  rw [met]

theorem galRelease_refused {g : Nat} (unmet : galUnmet s g ≠ none) : ∃ u, galRelease g s = refuseRelease (128 + g) u s := by
  obtain ⟨u, is⟩ := Option.ne_none_iff_exists'.mp unmet
  unfold galRelease
  rw [is]
  exact ⟨u, rfl⟩

theorem devUnmet_none_iff : devUnmet s = none ↔ s.saf.dev.isSome = true ∧ s.saf.classX = false ∧ secTk 1 ≤ since s s.saf.devTk ∧
    devCausePresent s = false ∧ secTk 1 ≤ since s s.saf.devBadTk ∧ s.saf.sigOk = true ∧ s.seq.wait = none ∧ s.seq.st ≠ .down ∧ s.seq.st ≠ .reverse := by
  unfold devUnmet
  cases dev : s.saf.dev with
  | none => simp
  | some d =>
    cases s.saf.classX
    · by_cases held : since s s.saf.devTk < secTk 1
      · simp [held, Nat.not_le.mpr held]
      · cases devCausePresent s
        · by_cases absent : since s s.saf.devBadTk < secTk 1
          · simp [held, absent, Nat.not_le.mpr absent]
          · cases s.saf.sigOk
            · simp [held, absent]
            · cases wait : s.seq.wait with
              | some w => simp [held, absent]
              | none => cases st : s.seq.st <;> simp [held, absent, Nat.not_lt.mp held, Nat.not_lt.mp absent]
        · simp [held]
    · simp

theorem devRelease_refused (unmet : devUnmet s ≠ none) : ∃ u, devRelease s = refuseRelease 136 u s := by
  obtain ⟨u, is⟩ := Option.ne_none_iff_exists'.mp unmet
  unfold devRelease
  rw [is]
  exact ⟨u, rfl⟩

/-! ### The proof test -/

theorem proofStart_refused (h : s.mode ≠ .service ∨ (∃ g, g < 8 ∧ (s.getGal g).sen = true) ∨ s.saf.proof ≠ none) :
    ∃ u, proofStart s = refuseRelease 137 u s := by
  unfold proofStart
  by_cases service : s.mode = .service
  · rw [if_neg (not_not.mpr service)]
    cases on : (upto 8).any fun g => (s.getGal g).sen with
    | true => exact ⟨.senOn, if_pos rfl⟩
    | false =>
      have none : ¬ ∃ g, g < 8 ∧ (s.getGal g).sen = true := by
        rintro ⟨g, small, sen⟩
        have off := List.any_eq_false.mp on g (mem_upto small)
        exact off sen
      have runs := (h.resolve_left (not_not.mpr service)).resolve_left none
      exact ⟨.running, (if_neg (by simp)).trans (if_pos (Option.isSome_iff_ne_none.mpr runs))⟩
  · exact ⟨.mode, if_pos service⟩

theorem proofStart_starts (service : s.mode = .service) (off : ∀ g, g < 8 → (s.getGal g).sen = false) (idle : s.saf.proof = none) :
    proofStart s = updateSafeN (modSaf (fun f => { f with proof := some { from_ := s.tb.run } }) s) := by
  have none : ((upto 8).any fun g => (s.getGal g).sen) = false := by
    rw [List.any_eq_false]
    intro g there
    rw [off g (List.mem_range.mp there)]
    exact Bool.false_ne_true
  exact (if_neg (not_not.mpr service)).trans ((if_neg (by rw [none]; exact Bool.false_ne_true)).trans (if_neg (by simp [idle])))

/-- SAFE_N is asserted from the start of a test. -/
theorem safeNOn_of_fresh_proof (h : s.saf.proof = some { from_ := s.tb.run }) : safeNOn s = true := by
  simp [safeNOn, h, since, msTk]

/-- A test with a failed item does not have the result of a passed one. -/
theorem failed_result : ∀ {a b c : Bool}, (a && b && c) = false → ¬ b2n a + 2 * b2n b + 4 * b2n c = 7 := by decide

/-- The test has ended with its result, and SAFE_N follows. -/
def proofEnded (a b c : Bool) (s : State) : State :=
  let s1 := updateSafeN (modSaf (fun f => { f with proof := none, proofRes := b2n a + 2 * b2n b + 4 * b2n c }) s)
  modSaf (fun f => { f with safeN := safeNOn s1 }) s1

/-- An item that failed raises its event. -/
def itemFails (ok : Bool) (s : State) : State := if ok then s else raiseSrc .island Cause.safProofFail 0xFF 137 0 [] s

theorem exec_proofDone {a b c : Bool} {q : Proof} (runs : s.saf.proof = some q) (late : floorTk 1000 ≤ since s q.from_) : exec (.proofDone a b c) s =
    .next (if b2n a + 2 * b2n b + 4 * b2n c = 7 then
      nvmRequest (.record Kind.proof 0 (leBytes 6 s.tb.sec ++ [0, 0]))
        (modSaf (fun f => { f with passSec := some s.tb.sec }) (itemFails c (itemFails b (itemFails a (proofEnded a b c s)))))
    else itemFails c (itemFails b (itemFails a (proofEnded a b c s)))) := by
  refine if_neg ?_
  rw [runs]
  simp [late]

theorem itemFails_saf (ok : Bool) (s : State) : (itemFails ok s).saf = s.saf := by
  unfold itemFails
  split <;> rfl

theorem itemFails_nvm (ok : Bool) (s : State) : (itemFails ok s).nvm = s.nvm := by
  unfold itemFails
  split <;> rfl

theorem itemFails_events (ok : Bool) (s : State) : (itemFails ok s).fab.events.length = s.fab.events.length + b2n (!ok) := by
  unfold itemFails
  cases ok with
  | true => rfl
  | false =>
    obtain ⟨e, events, -⟩ := raiseSrc_events .island Cause.safProofFail 0xFF 137 0 [] s
    rw [if_neg Bool.false_ne_true, events, List.length_append]
    rfl

theorem itemFails_raised (s : State) : Raised Cause.safProofFail (itemFails false s) := raised_raiseSrc ..

theorem itemFails_grows (ok : Bool) (s : State) : Grows s (itemFails ok s) := .ite (.refl _) (raiseSrc_grows (Grows.refl _))

/-! ### The safety set -/

/-- The accepted set is written, and the copies are good. -/
def setWritten (l : List (Nat × Word)) (s : State) : State :=
  modSaf (fun f => { f with apply := none, flips := [], copies := [] }) (l.foldl (fun t x => setCfg x.1 x.2 t) s)

/-- The test intervals begin afresh. -/
def testsAfresh (run : Nat) (s : State) : State :=
  modSaf (fun f => { f with cmpFrom := run }) (forEach (upto 128) (modFe · fun f => { f with cmpDefer := none, cmpDone := 0 }) s)

theorem exec_safetySetApplied {l : List (Nat × Word)} (accepted : s.saf.apply = some l) : exec .safetySetApplied s =
    .next (updateSil (if cmptEn (setWritten l s) != cmptEn s || cmptS (setWritten l s) != cmptS s then testsAfresh s.tb.run (setWritten l s)
      else setWritten l s)) := by
  change execSafetySetApplied s = _
  unfold execSafetySetApplied
  rw [accepted]
  rfl

theorem setCfgs_within (l : List (Nat × Word)) (s : State) : Within [.regs] s (l.foldl (fun t x => setCfg x.1 x.2 t) s) :=
  .foldl (fun _ _ => setCfg_within (Within.refl _ _) rfl) (.refl _ _)

theorem setWritten_fe (l : List (Nat × Word)) (s : State) : (setWritten l s).fe = s.fe := setCfgs_within l s .fe (by decide)

theorem setWritten_saf (l : List (Nat × Word)) (s : State) : (setWritten l s).saf = { s.saf with apply := none, flips := [], copies := [] } :=
  congrArg (fun f : Island => { f with apply := none, flips := [], copies := [] }) (setCfgs_within l s .saf (by decide))

theorem getFe_modSaf (n : Nat) (f : Island → Island) (s : State) : (modSaf f s).getFe n = s.getFe n := getFe_of_fe (s := s) rfl n

theorem testsAfresh_getFe {run n : Nat} (small : n < 128) (s : State) :
    ((testsAfresh run s).getFe n).cmpDone = 0 ∧ ((testsAfresh run s).getFe n).cmpDefer = none := by
  unfold testsAfresh
  rw [getFe_modSaf, getFe_forEach (upto 128) (nodup_upto 128), if_pos ⟨mem_upto small, small⟩]
  exact ⟨rfl, rfl⟩

theorem testsAfresh_within (run : Nat) (s : State) : Within [.saf, .fe] s (testsAfresh run s) :=
  modSaf_within (Within.forEach (fun _ _ => modFe_within (.refl _ _) rfl) (.refl _ _)) rfl

theorem testsAfresh_saf (run : Nat) (s : State) : (testsAfresh run s).saf = { s.saf with cmpFrom := run } :=
  congrArg (fun f : Island => { f with cmpFrom := run })
    ((Within.forEach (fun _ _ => modFe_within (.refl _ _) rfl) (.refl _ _) : Within [.fe] s _) .saf (by decide))

theorem updateSil_saf (s : State) : (updateSil s).saf = { s.saf with sil := maskOf ((upto 8).filter (silOk s)) } := rfl

theorem cmpt_of_regs {t : State} (regs : t.regs = s.regs) (flips : t.saf.flips = s.saf.flips) : cmptEn t = cmptEn s ∧ cmptS t = cmptS s := by
  unfold cmptEn cmptS safF safW cfgW
  rw [regs, flips]
  exact ⟨rfl, rfl⟩

/-- What the written set leaves: the enable and the interval judge whether the tests begin afresh. -/
theorem safetySet_applied {l : List (Nat × Word)} (accepted : s.saf.apply = some l) : ∃ t, exec .safetySetApplied s = .next t ∧
    t.saf.apply = none ∧ t.saf.flips = [] ∧ t.saf.copies = [] ∧ t.regs = (l.foldl (fun r x => setCfg x.1 x.2 r) s).regs ∧
    ((cmptEn t = cmptEn s ∧ cmptS t = cmptS s) → t.saf.cmpFrom = s.saf.cmpFrom ∧ t.fe = s.fe) ∧
    ((cmptEn t ≠ cmptEn s ∨ cmptS t ≠ cmptS s) → t.saf.cmpFrom = s.tb.run ∧
      ∀ n, n < 128 → (t.getFe n).cmpDone = 0 ∧ (t.getFe n).cmpDefer = none) := by
  have saf := setWritten_saf l s
  refine ⟨_, exec_safetySetApplied accepted, ?_⟩
  split
  next fresh =>
    have changed : cmptEn (setWritten l s) ≠ cmptEn s ∨ cmptS (setWritten l s) ≠ cmptS s := by simpa using fresh
    have islandIs := (updateSil_saf (testsAfresh s.tb.run (setWritten l s)))
    rw [testsAfresh_saf, saf] at islandIs
    have regs :
        (updateSil (testsAfresh s.tb.run (setWritten l s))).regs = (setWritten l s).regs :=
      (updateSil_within (testsAfresh_within _ _) rfl : Within [.saf, .fe] _ _) .regs (by decide)
    obtain ⟨en, interval⟩ := cmpt_of_regs regs (by rw [islandIs, saf])
    refine ⟨by rw [islandIs], by rw [islandIs], by rw [islandIs], regs, fun same => ?_, fun _ => ⟨by rw [islandIs], fun n small => ?_⟩⟩
    · rw [en, interval] at same
      exact absurd same (not_and_or.mpr changed)
    · rw [getFe_of_fe ((updateSil_within (Within.refl _ _) rfl : Within [.saf] (testsAfresh s.tb.run (setWritten l s)) _) .fe (by decide)) n]
      exact testsAfresh_getFe small _
  next same =>
    have kept : cmptEn (setWritten l s) = cmptEn s ∧ cmptS (setWritten l s) = cmptS s := by simpa using same
    have islandIs := updateSil_saf (setWritten l s)
    rw [saf] at islandIs
    obtain ⟨en, interval⟩ := cmpt_of_regs (s := setWritten l s) (t := updateSil (setWritten l s)) rfl (by rw [islandIs, saf])
    refine ⟨by rw [islandIs], by rw [islandIs], by rw [islandIs], rfl, fun _ => ⟨by rw [islandIs], setWritten_fe l s⟩, fun changed => ?_⟩
    rw [en, interval] at changed
    exact absurd kept (not_and_or.mpr changed)

/-! ### The end of the proof test -/

/-- The three items of a test that has ended. -/
def itemsJudged (a b c : Bool) (s : State) : State := itemFails c (itemFails b (itemFails a (proofEnded a b c s)))

theorem itemsJudged_saf (a b c : Bool) (s : State) : (itemsJudged a b c s).saf = (proofEnded a b c s).saf :=
  (itemFails_saf ..).trans ((itemFails_saf ..).trans (itemFails_saf ..))

theorem itemsJudged_nvm (a b c : Bool) (s : State) : (itemsJudged a b c s).nvm = s.nvm :=
  (itemFails_nvm ..).trans ((itemFails_nvm ..).trans (itemFails_nvm ..))

theorem itemsJudged_events (a b c : Bool) (s : State) :
    (itemsJudged a b c s).fab.events.length = s.fab.events.length + b2n (!a) + b2n (!b) + b2n (!c) :=
  (itemFails_events ..).trans (congrArg (· + b2n (!c)) ((itemFails_events ..).trans (congrArg (· + b2n (!b)) (itemFails_events ..))))

theorem itemsJudged_raised {a b c : Bool} (failed : (a && b && c) = false) (s : State) : Raised Cause.safProofFail (itemsJudged a b c s) := by
  unfold itemsJudged
  cases c with
  | false => exact itemFails_raised _
  | true =>
    refine Raised.grows ?_ (itemFails_grows _ _)
    cases b with
    | false => exact itemFails_raised _
    | true =>
      refine Raised.grows ?_ (itemFails_grows _ _)
      cases a with
      | false => exact itemFails_raised _
      | true => cases failed

/-! ### The write of the signature -/

theorem sigrefWrite_locked {v : Word} (h : s.mode ≠ .service) : sigrefWrite v s = raiseReg Cause.regWriteLocked 0x00500C s := if_pos h

theorem sigrefWrite_accepted {v : Word} (h : s.mode = .service) (matches_ : signature (pendW s) = v) : sigrefWrite v s =
    modSaf (fun f => { f with pend := none, apply := some (s.saf.pend.getD [] ++ [(0x00500C, v)]) }) s :=
  (if_neg (not_not.mpr h)).trans (if_pos matches_)

theorem sigrefWrite_dropped {v : Word} (h : s.mode = .service) (differs : signature (pendW s) ≠ v) : sigrefWrite v s =
    raiseSrc .island Cause.safcfgSig 0xFF 137 0 [] (modSaf (fun f => { f with pend := none }) s) :=
  (if_neg (not_not.mpr h)).trans (if_neg differs)

/-! ### The release of the device -/

theorem devRelease_accepted (met : devUnmet s = none) : (devRelease s).saf.dev = none ∧ (devRelease s).mode = releaseMode s ∧
    (devRelease s).regs = s.regs ∧ (devRelease s).tb = s.tb ∧ ∃ e ∈ (devRelease s).fab.events, e.cause = Cause.safReleased := by
  have rest : Within [.mode, .ch, .fe, .saf, .fab, .ph, .gal] s (devRelease s) := by
    rw [devRelease_of_no_unmet met]
    exact updateSens_within (raiseSrc_within (updateSafeN_within (goMode_within (abortAll_within
      (modSaf_within (x0 := fun f => { f with dev := none }) (.refl _ _) rfl) rfl) rfl) rfl) rfl) rfl
  refine ⟨?_, ?_, rest .regs (by decide), rest .tb (by decide), ?_⟩
  · rw [devRelease_of_no_unmet met, updateSens_saf, announceRelease_saf]
  · rw [devRelease_of_no_unmet met, updateSens_mode, announceRelease_mode]
  · rw [devRelease_of_no_unmet met, updateSens_fab]
    exact raised_raiseSrc ..

end

/-- Settles O26: each command is judged by its gate first, then by its conditions; a refusal raises its event alone. -/
theorem releaseProofAndSafetySet : Obligations.ReleaseProofAndSafetySet := by
  have refused : ∀ {s : State} {f : State → State} {p : Path} {src : Nat}, s.mode.up = true → loaderBusy s = false → mayRelease s p = true →
      (∃ u, f s = refuseRelease src u s) →
      ∃ t, Host.Outcome.next (safCmd p 0xA5 f s) = (.next t : Host.Outcome State Fault Refusal) ∧ Within [.fab] s t ∧
        ∃ e ∈ t.fab.events, e.cause = Cause.safReleaseRefused := by
    rintro s f p src up idle may ⟨u, is⟩
    exact ⟨_, congrArg Host.Outcome.next ((safCmd_passed up idle may).trans is), refuseRelease_only src u s⟩
  refine ⟨fun s p g key v off c among => ?_, fun s p g key v up busy => ⟨fun c among => ?_, congrArg Host.Outcome.next (regGate_of_busy up busy _ _)⟩,
    fun s p key g up idle bad c among => ?_, fun s p g up idle may safe dev sflt late drive sensor cold =>
      congrArg Host.Outcome.next ((safCmd_passed up idle may).trans (galRelease_accepted (galUnmet_none_iff.mpr ⟨safe, dev, sflt, late, drive, sensor, cold⟩))),
    fun s p g up idle may unmet => refused up idle may (galRelease_refused fun met => ?_),
    fun s p up idle may dev class_ held absent since_ sig wait down reverse => ?_,
    fun s p up idle may unmet => refused up idle may (devRelease_refused fun met => ?_),
    fun s p service idle may off none_ => ?_, fun s p up idle may unmet => refused up idle may (proofStart_refused unmet),
    fun s a b c early => ?_, fun s q runs late => ?_, fun s q a b c runs late failed => ?_,
    fun s p v up idle locked => congrArg Host.Outcome.next ((regGate_of_path up idle _ _).trans (sigrefWrite_locked locked)),
    fun s p v service idle is => ?_, fun s p v service idle differs => ?_, fun s nothing => ?_, fun s l accepted => safetySet_applied accepted⟩
  · simp only [List.mem_cons, List.not_mem_nil, or_false] at among
    rcases among with rfl | rfl | rfl | rfl <;> exact congrArg Host.Outcome.next (regGate_of_no_path off _ _)
  · simp only [List.mem_cons, List.not_mem_nil, or_false] at among
    rcases among with rfl | rfl | rfl <;> exact congrArg Host.Outcome.next (safCmd_of_busy up busy)
  · have judged : ∀ f, ∃ t, Host.Outcome.next (safCmd p key f s) = (.next t : Host.Outcome State Fault Refusal) ∧ Within [.fab] s t ∧
        ∃ e ∈ t.fab.events, e.cause = Cause.safReleaseRefused := fun f => by
      obtain ⟨u, is⟩ := safCmd_refused up idle bad (f := f)
      exact ⟨_, congrArg Host.Outcome.next is, refuseRelease_only 137 u s⟩
    simp only [List.mem_cons, List.not_mem_nil, or_false] at among
    rcases among with rfl | rfl | rfl
    · exact judged _
    · exact judged _
    · exact judged _
  · obtain ⟨safe, dev, sflt, late, drive, sensor, cold⟩ := galUnmet_none_iff.mp met
    rcases unmet with h | h | h | h | h | h | h
    · cases h ▸ safe
    · exact h dev
    · cases h.symm.trans sflt
    · omega
    · cases h.symm.trans drive
    · cases h.symm.trans sensor
    · omega
  · exact ⟨_, congrArg Host.Outcome.next (safCmd_passed up idle may),
      devRelease_accepted (devUnmet_none_iff.mpr ⟨dev, class_, held, absent, since_, sig, wait, down, reverse⟩)⟩
  · obtain ⟨dev, class_, held, absent, since_, sig, wait, down, reverse⟩ := devUnmet_none_iff.mp met
    rcases unmet with h | h | h | h | h | h | h | h | h
    · cases h ▸ dev
    · cases h.symm.trans class_
    · omega
    · cases h.symm.trans absent
    · omega
    · cases h.symm.trans sig
    · exact h wait
    · exact down h
    · exact reverse h
  · have up : s.mode.up = true := by rw [service]; rfl
    refine ⟨_, congrArg Host.Outcome.next ((safCmd_passed up idle may).trans (proofStart_starts service off none_)), rfl, ?_,
      updateSafeN_within (modSaf_within (.refl _ _) rfl) rfl⟩
    exact safeNOn_of_fresh_proof rfl
  · refine if_pos ?_
    rcases early with h | ⟨q, h, early⟩
    · rw [h]
    · rw [h]
      simp [early]
  · refine ⟨_, (exec_proofDone runs late).trans (congrArg Host.Outcome.next (if_pos rfl)), ?_⟩
    have island : ∀ k t, (nvmRequest k t).saf = t.saf := fun k t => (nvmRequest_within (Within.refl _ _) (all_contains_self _) : Within _ t _) .saf (by decide)
    rw [island]
    have saf := itemsJudged_saf true true true s
    exact ⟨congrArg Island.proof saf, congrArg Island.proofRes saf, rfl⟩
  · have below : ¬ b2n a + 2 * b2n b + 4 * b2n c = 7 := failed_result failed
    have saf := itemsJudged_saf a b c s
    exact ⟨_, (exec_proofDone runs late).trans (congrArg Host.Outcome.next (if_neg below)), congrArg Island.proof saf,
      congrArg Island.proofRes saf, (congrArg Island.passSec saf :), itemsJudged_nvm .., itemsJudged_events .., itemsJudged_raised failed s⟩
  · have up : s.mode.up = true := by rw [service]; rfl
    exact congrArg Host.Outcome.next ((regGate_of_path up idle _ _).trans (sigrefWrite_accepted service is))
  · have up : s.mode.up = true := by rw [service]; rfl
    refine ⟨_, congrArg Host.Outcome.next ((regGate_of_path up idle _ _).trans (sigrefWrite_dropped service differs)), rfl, rfl, raised_raiseSrc ..⟩
  · change execSafetySetApplied s = _
    unfold execSafetySetApplied
    rw [nothing]

end Sys2Proof.Machine
end

section
/-!
The estimator's periods and their publication (R182, R190 to R196), divergence (R205), the capacity record (R203), the K log (R207),
grading (R210 to R212) and the commands of EST_CMD (R215).
-/

namespace Sys2Proof.Machine

section
variable {s : State} {k : Fin 128}

theorem getEst_of_est {s t : State} (h : t.est = s.est) (j : Nat) : t.getEst j = s.getEst j := by simp [State.getEst, h]

theorem getEst_modEst_self (f : Estimator → Estimator) (s : State) : (modEst k f s).getEst k = f (s.getEst k) :=
  (getEst_modEst k k f s).trans (if_pos ⟨rfl, k.isLt⟩)

theorem getEst_modEst_other {j : Nat} (other : j ≠ k.val) (f : Estimator → Estimator) (s : State) : (modEst k f s).getEst j = s.getEst j :=
  (getEst_modEst k j f s).trans (if_neg fun both => other both.1.symm)

/-! ### Publication -/

/-- The estimator at a publication tick: the period leaves its mark, and nothing is due. -/
def periodMarked (e : Estimator) : Estimator := { e with gap := e.gap || e.st != .valid, pubDue := none }

/-- A publication tick has come. -/
def periodEnds (k : Nat) (s : State) : State := modEst k periodMarked s

theorem getEst_periodEnds : (periodEnds k s).getEst k = periodMarked (s.getEst k) := getEst_modEst_self ..

/-- What a publication leaves of the state at its tick. -/
def publication (k : Nat) (s : State) : Option (Estimator × Bool) → State
  | none => s
  | some (e, false) => modEst k (fun _ => e) s
  | some (e, true) =>
    if e.ocvClamp then raise .fabric Cause.estOcvClamp k (raise .fabric Cause.estInit k (modEst k (fun _ => e) s))
    else raise .fabric Cause.estInit k (modEst k (fun _ => e) s)

theorem publish_idle {b : Bool} (wait : (s.getEst k).st ≠ .wait) (valid : (s.getEst k).st ≠ .valid) : publish k b s = periodEnds k s :=
  if_pos (by simp [wait, valid])

section
variable (runs : (s.getEst k).st = .wait ∨ (s.getEst k).st = .valid)
include runs

theorem publish_late : publish k false s =
    raise .fabric Cause.estOverrun k (modEst k (fun e => { e with overruns := incSat 16 e.overruns }) (periodEnds k s)) := by
  refine (if_neg ?_).trans (if_pos rfl)
  rcases runs with h | h <;> simp [h]

theorem publish_inTime : publish k true s = publication k (periodEnds k s) (published (periodEnds k s) k s.tb.run) := by
  refine (if_neg ?_).trans ((if_neg Bool.false_ne_true).trans ?_)
  · rcases runs with h | h <;> simp [h]
  · have cases_ : ∀ o, (match o with
        | none => periodEnds k s
        | some (e, false) => modEst k (fun _ => e) (periodEnds k s)
        | some (e, true) => if e.ocvClamp then raise .fabric Cause.estOcvClamp k (raise .fabric Cause.estInit k (modEst k (fun _ => e) (periodEnds k s)))
          else raise .fabric Cause.estInit k (modEst k (fun _ => e) (periodEnds k s))) = publication k (periodEnds k s) o := by
      rintro (_ | ⟨e, _ | _⟩) <;> rfl
    exact cases_ _

theorem publish_late_spec : ∃ t, publish k false s = t ∧ (t.getEst k).overruns = incSat 16 (s.getEst k).overruns ∧
    (t.getEst k).socRep = (s.getEst k).socRep ∧ (t.getEst k).pubTk = (s.getEst k).pubTk ∧ (t.getEst k).st = (s.getEst k).st ∧
    (∃ e ∈ t.fab.events, e.cause = Cause.estOverrun) ∧ (∀ j, j ≠ k.val → t.getEst j = s.getEst j) ∧ Within [.est, .fab] s t := by
  have counted : (raise .fabric Cause.estOverrun k (modEst k (fun e => { e with overruns := incSat 16 e.overruns }) (periodEnds k s))).getEst k =
      { periodMarked (s.getEst k) with overruns := incSat 16 (s.getEst k).overruns } := by
    refine (getEst_of_est (raise_est ..) k).trans ((getEst_modEst_self _ _).trans ?_)
    rw [getEst_periodEnds]
    rfl
  refine ⟨_, publish_late runs, by rw [counted], by rw [counted]; rfl, by rw [counted]; rfl, by rw [counted]; rfl, raised_raise .., fun j other => ?_,
    raise_within (modEst_within (modEst_within (.refl _ _) rfl) rfl) rfl⟩
  exact (getEst_of_est (raise_est ..) j).trans ((getEst_modEst_other other _ _).trans (getEst_modEst_other other _ _))

end

/-! What is published at a tick, by what the period holds. -/
section
variable {t : Nat} {m : List Byte}

theorem published_no_model (h : modelOf s k = none) : published s k t = none := by
  unfold published
  rw [h]

section
variable (model : modelOf s k = some m)
include model

theorem published_no_inputs (h : estInputs s k (t - 257) m = none) : published s k t = none := by
  unfold published
  simp only [model, h]

variable {x : EstIn} (inputs : estInputs s k (t - 257) m = some x)
include inputs

theorem published_update (h : (s.getEst k).st = .valid) : published s k t = some (estUpdate s k (t - 257) m x (s.getEst k), false) := by
  unfold published
  simp only [model, inputs, h, if_true]

theorem published_start (h : (s.getEst k).st = .wait) (may : estMayInit s k (t - 257) m x = true) :
    published s k t = some (estInit s t (t - 257) m x (s.getEst k), true) := by
  unfold published
  simp [model, inputs, h, may]

theorem published_waits (h : (s.getEst k).st = .wait) (mayNot : estMayInit s k (t - 257) m x = false) : published s k t = none := by
  unfold published
  simp [model, inputs, h, mayNot]

end
end

theorem estInit_valid {t last : Nat} {m : List Byte} {x : EstIn} {e : Estimator} : (estInit s t last m x e).st = .valid := rfl

theorem publication_start (e : Estimator) : (publication k s (some (e, true))).getEst k = e ∧ Raised Cause.estInit (publication k s (some (e, true))) := by
  have started : (raise .fabric Cause.estInit k (modEst k (fun _ => e) s)).getEst k = e :=
    (getEst_of_est (raise_est ..) k).trans (getEst_modEst_self _ _)
  unfold publication
  dsimp only
  split
  · exact ⟨(getEst_of_est (raise_est ..) k).trans started, (raised_raise ..).raise ..⟩
  · exact ⟨started, raised_raise ..⟩

theorem estEdge_within_period {b : Bool} (due : (s.getEst k).pubDue = some b) (inside : s.tb.run % 512 ≠ 0) : estEdge k s = publish k b s := by
  unfold estEdge
  rw [due]
  cases modelOf s k with
  | none => rfl
  | some m => exact if_neg inside

/-! ### Divergence and the capacity record -/

theorem execEstDiverge_spec (valid : (s.getEst k).st = .valid) (long : 960 ≤ (s.getEst k).divCnt) :
    ∃ t, exec (.estDiverge k) s = .next t ∧ (t.getEst k).relearn = true ∧ (t.getEst k).diverge = true ∧ (t.getEst k).divCnt = 0 ∧
      (t.getEst k).changed = true ∧ (t.getEst k).socA = (s.getEst k).socRep ∧ (t.getEst k).accA = (s.getEst k).pubAcc ∧
      (∃ e ∈ t.fab.events, e.cause = Cause.estDiverge) ∧ (∀ j, j ≠ k.val → t.getEst j = s.getEst j) ∧ Within [.est, .fab] s t := by
  refine ⟨_, if_pos ⟨valid, long⟩, ?_⟩
  rw [getEst_of_est (raise_est ..) k, getEst_modEst_self]
  exact ⟨rfl, rfl, rfl, rfl, rfl, rfl, raised_raise .., fun j other => (getEst_of_est (raise_est ..) j).trans (getEst_modEst_other other _ _),
    raise_within (modEst_within (.refl _ _) rfl) rfl⟩

theorem exec_capWriteback (up : s.mode.up = true) (changed : (s.getEst k).changed = true) (waits : (s.getEst k).wbWait = true)
    (open_ : s.nvm.lock = false) (hour : ∀ t, (s.getEst k).wbTk = some t → secTk 3600 ≤ since s t) : exec (.capWriteback k) s =
    .next (nvmRequest (.record Kind.cap k (capPayload (s.getEst k)))
      (modEst k (fun e => { e with changed := false, wbWait := false, wbTk := some s.tb.run }) s)) := by
  refine if_pos ?_
  cases last : (s.getEst k).wbTk with
  | none => simp [up, changed, waits, open_]
  | some t => simp [up, changed, waits, open_, hour t last]

theorem exec_capWriteback_idle (h : s.mode.up = false ∨ (s.getEst k).changed = false ∨ (s.getEst k).wbWait = false ∨ s.nvm.lock = true ∨
    ∃ t, (s.getEst k).wbTk = some t ∧ since s t < secTk 3600) : exec (.capWriteback k) s = .next s := by
  refine if_neg ?_
  rcases h with h | h | h | h | ⟨t, last, early⟩
  · simp [h]
  · simp [h]
  · simp [h]
  · simp [h]
  · simp [last, Nat.not_le.mpr early]

/-! ### EST_CMD -/

/-- Each command of EST_CMD passes its gate with an effect of its own. -/
theorem exec_estCmd {p : Path} {c : Instr}
    (listed : c ∈ [Instr.estCmdReinit p k, .estCmdKlogStart p k, .estCmdKlogStop p k, .estCmdGrade p k, .estCmdRelearn p k]) :
    ∃ f, ∀ s, exec c s = .next (estCmd p k f s) := by
  simp only [List.mem_cons, List.not_mem_nil, or_false] at listed
  rcases listed with rfl | rfl | rfl | rfl | rfl
  · exact ⟨estWait k, fun _ => rfl⟩
  · exact ⟨klogStart k, fun _ => rfl⟩
  · exact ⟨klogStop k, fun _ => rfl⟩
  · exact ⟨gradeCmd k, fun _ => rfl⟩
  · exact ⟨relearnCmd k, fun _ => rfl⟩

theorem estCmd_no_path {p : Path} {f : State → State} (off : s.mode.up = false) : estCmd p k f s = s := by
  unfold estCmd chGate
  exact regGate_of_no_path off _ _

theorem estCmd_busy {p : Path} {f : State → State} (up : s.mode.up = true) (busy : loaderBusy s = true) :
    estCmd p k f s = raiseReg Cause.ldrBusy (Addr.est k 4) s := by
  unfold estCmd chGate
  exact regGate_of_busy up busy _ _

section
variable {p : Path} {f : State → State} (up : s.mode.up = true) (idle : loaderBusy s = false) (there : populated s k = true)
include up idle there

theorem estCmd_passed (on : (s.getEst k).st ≠ .off) : estCmd p k f s = f s := by
  unfold estCmd chGate
  rw [regGate_of_path up idle, if_neg (by simp [there])]
  exact if_neg on

theorem estCmd_off (off : (s.getEst k).st = .off) : estCmd p k f s = raise .fabric Cause.estCmdRefused k s := by
  unfold estCmd chGate
  rw [regGate_of_path up idle, if_neg (by simp [there])]
  exact if_pos off

end

/-! ### Grading -/

theorem length_leBytesI (n : Nat) (x : Int) : (leBytesI n x).length = n := length_leBytes ..

theorem length_resultRecord (k bin cause : Nat) (hold : Bool) (x : Graded) : (resultRecord s k bin cause hold x).length = 64 := by
  simp only [resultRecord, withCrc32c, List.length_append, length_leBytes, length_leBytesI, List.length_cons, List.length_nil]

/-- The record of a channel is published, with the sequence number used up. -/
def resultPublished (k bin cause : Nat) (hold : Bool) (x : Graded) (s : State) : State :=
  let t := modEst k (fun e => { e with res := resultRecord s k bin cause hold x }) s
  { t with rcp := { t.rcp with resSeq := (t.rcp.resSeq + 1) % 2 ^ 32 } }

theorem sendResult_frame (bin cause : Nat) (hold : Bool) (x : Graded) :
    Within [.ring, .nvm, .fab] (resultPublished k bin cause hold x s) (sendResult k bin cause hold x s) :=
  raise_within (nvmRequest_within (ringPush_within (.refl _ _) rfl) rfl) rfl

theorem sendResult_spec (bin cause : Nat) (hold : Bool) (x : Graded) :
    (sendResult k bin cause hold x s).rcp.resSeq = (s.rcp.resSeq + 1) % 2 ^ 32 ∧ ((sendResult k bin cause hold x s).getEst k).res.length = 64 ∧
      Raised Cause.estGraded (sendResult k bin cause hold x s) ∧
      ∀ j, j ≠ k.val → (sendResult k bin cause hold x s).getEst j = s.getEst j := by
  have frame := sendResult_frame (s := s) (k := k) bin cause hold x
  have est : (sendResult k bin cause hold x s).est = (modEst k (fun e => { e with res := resultRecord s k bin cause hold x }) s).est :=
    frame .est (by decide)
  refine ⟨congrArg Recipes.resSeq (frame .rcp (by decide)), ?_, raised_raise .., fun j other => ?_⟩
  · rw [getEst_of_est est, getEst_modEst_self]
    exact length_resultRecord ..
  · rw [getEst_of_est est, getEst_modEst_other other]

/-- A slope that is valid is published, and a grade without a bin raises its event. -/
def slopePublished (k : Nat) (x : Graded) (s : State) : State :=
  match x.k with | some v => modEst k (fun e => { e with k := v }) s | none => s

def binJudged (k bin : Nat) (s : State) : State := if bin = 0xFF then raise .fabric Cause.estNoBin k s else s

theorem grade_eq {cause : Nat} {g : List Byte} (section_ : alFind (s.getCh k).rcp.recipe s.rcp.grades = some g) : grade k cause s =
    sendResult k (binOf g (gradedOf s k)) cause false (gradedOf s k)
      (binJudged k (binOf g (gradedOf s k)) (slopePublished k (gradedOf s k) s)) := by
  unfold grade
  rw [section_]
  rfl

theorem slopePublished_within (x : Graded) : Within [.est] s (slopePublished k x s) := by
  unfold slopePublished
  split
  · exact modEst_within (.refl _ _) rfl
  · exact .refl _ _

theorem slopePublished_other (x : Graded) {j : Nat} (other : j ≠ k.val) : (slopePublished k x s).getEst j = s.getEst j := by
  unfold slopePublished
  split
  · exact getEst_modEst_other other _ _
  · rfl

theorem binJudged_within (bin : Nat) : Within [.fab] s (binJudged k bin s) := .ite (raise_within (.refl _ _) rfl) (.refl _ _)

theorem grade_spec {cause : Nat} {g : List Byte} (section_ : alFind (s.getCh k).rcp.recipe s.rcp.grades = some g) :
    ∃ t, grade k cause s = t ∧ t.rcp.resSeq = (s.rcp.resSeq + 1) % 2 ^ 32 ∧ (t.getEst k).res.length = 64 ∧
      (∃ e ∈ t.fab.events, e.cause = Cause.estGraded) ∧
      (binOf g (gradedOf s k) = 0xFF → ∃ e ∈ t.fab.events, e.cause = Cause.estNoBin) ∧ (∀ j, j ≠ k.val → t.getEst j = s.getEst j) := by
  have before : Within [.est, .fab] s (binJudged k (binOf g (gradedOf s k)) (slopePublished k (gradedOf s k) s)) :=
    ((slopePublished_within _).mono rfl).andThen (binJudged_within _) rfl
  obtain ⟨seq, length, raised, others⟩ := sendResult_spec (k := k) (s := binJudged k (binOf g (gradedOf s k)) (slopePublished k (gradedOf s k) s))
    (binOf g (gradedOf s k)) cause false (gradedOf s k)
  refine ⟨_, grade_eq section_, ?_, length, raised, fun none_ => ?_, fun j other => ?_⟩
  · rw [seq, before .rcp (by decide)]
  · have noBin : Raised Cause.estNoBin (binJudged k (binOf g (gradedOf s k)) (slopePublished k (gradedOf s k) s)) := by
      rw [binJudged, if_pos none_]
      exact raised_raise ..
    exact Raised.grows noBin (sendResult_grows (Grows.refl _))
  · rw [others j other, getEst_of_est (binJudged_within _ .est (by decide)), slopePublished_other _ other]

/-! ### K log -/

theorem length_kPoint {m : List Byte} {v : Int} {b : List Byte} (h : kPoint s k m = some (v, b)) : b.length = 16 := by
  unfold kPoint at h
  split at h
  next => cases h
  next =>
    dsimp only at h
    split at h
    · cases h
      simp only [List.length_append, length_leBytes, length_leBytesI, List.length_cons, List.length_nil]
    · cases h

theorem exec_klogPoint {m : List Byte} (model : modelOf s k = some m) (up : s.mode.up = true) (due : kPointDue s k = true) :
    exec (.klogPoint k) s = .next (match kPoint s k m with
      | some (v, b) => pushLog 1 k b (modEst k (fun e => { e with kPts := (b :: e.kPts).take 64, kArm := some (s.tb.run, v) })
          (modEst k (fun e => { e with kTk := s.tb.run }) s))
      | none => modEst k (fun e => { e with kTk := s.tb.run }) s) := by
  change execKlogPoint k s = _
  unfold execKlogPoint
  rw [model]
  refine (if_pos (by simp [up, due])).trans ?_
  cases kPoint s k m <;> rfl

theorem exec_klogPoint_idle (h : s.mode.up = false ∨ modelOf s k = none ∨ kPointDue s k = false) : exec (.klogPoint k) s = .next s := by
  change execKlogPoint k s = _
  unfold execKlogPoint
  cases model : modelOf s k with
  | none => rfl
  | some m =>
    refine if_neg ?_
    rcases h with h | h | h
    · simp [h]
    · cases h.symm.trans model
    · simp [h]

end

/-- Settles O32: a publication is judged by the estimator's state and its inputs, a command of EST_CMD by its gate. -/
theorem estimatorPublishesAndObeys : Obligations.EstimatorPublishesAndObeys := by
  refine ⟨fun s k b up there late tick => if_pos (by simp [up, there, late, tick]), fun s k b h => if_neg ?_,
    fun s k b due inside => estEdge_within_period due inside, fun s k u is => ?_,
    fun s k unmet => if_neg unmet, fun s k valid long => execEstDiverge_spec valid long,
    fun s k up changed waits open_ hour => exec_capWriteback up changed waits open_ hour, fun s k h => exec_capWriteback_idle h,
    fun s p k c listed => ?_, fun s p k up idle there on => ?_,
    fun s p k up idle there on => congrArg Host.Outcome.next (estCmd_passed up idle there on),
    fun s k cause g section_ => grade_spec section_, fun s k h => exec_klogPoint_idle h, fun s k m u up model due is => ?_⟩
  · rcases h with h | h | h | h
    · simp [h]
    · simp [h]
    · simp [Nat.not_le.mpr h]
    · simp [h]
  · have marked : u = periodEnds k s := is
    subst marked
    have st : ((periodEnds k s).getEst k).st = (s.getEst k).st := (congrArg Estimator.st (getEst_periodEnds (s := s) (k := k)) :)
    refine ⟨fun b wait valid => publish_idle wait valid, fun m x model valid inputs => ?_, fun m x model wait inputs may => ?_,
      fun m model inputs runs => ?_, fun m x model wait inputs mayNot => ?_, fun runs model => ?_, fun runs => publish_late_spec runs⟩
    · rw [publish_inTime (.inr valid), published_update model inputs (st.trans valid)]
      rfl
    · refine ⟨_, publish_inTime (.inl wait), ?_⟩
      rw [published_start model inputs (st.trans wait) may]
      obtain ⟨started, raised⟩ := publication_start (k := k) (s := periodEnds k s)
        (estInit (periodEnds k s) s.tb.run (s.tb.run - 257) m x ((periodEnds k s).getEst k))
      exact ⟨started, (congrArg Estimator.st started).trans estInit_valid, raised⟩
    · rw [publish_inTime runs, published_no_inputs model inputs]
      rfl
    · rw [publish_inTime (.inl wait), published_waits model inputs (st.trans wait) mayNot]
      rfl
    · rw [publish_inTime runs, published_no_model model]
      rfl
  · obtain ⟨f, is⟩ := exec_estCmd listed
    exact ⟨fun off => (is s).trans (congrArg Host.Outcome.next (estCmd_no_path off)),
      fun up busy => (is s).trans (congrArg Host.Outcome.next (estCmd_busy up busy)),
      fun up idle absent => (is s).trans (congrArg Host.Outcome.next (chGate_absent up idle absent)),
      fun up idle there off => (is s).trans (congrArg Host.Outcome.next (estCmd_off up idle there off))⟩
  · have passed : ∀ f, Host.Outcome.next (estCmd p k f s) = (.next (f s) : Host.Outcome State Fault Refusal) :=
      fun f => congrArg Host.Outcome.next (estCmd_passed up idle there on)
    exact ⟨passed _, passed _, passed _, passed _⟩
  · subst is
    refine ⟨fun out => ?_, fun v b point => ⟨length_kPoint point, ?_⟩⟩
    · rw [exec_klogPoint model up due, out]
    · rw [exec_klogPoint model up due, point]

end Sys2Proof.Machine
end

section
/-!
The checks of the safety island: told temperatures (R328), SFLT, fabric overruns and the keep-alive, the comparator tests (R347) and the
signature of the working copy (R342).
-/

namespace Sys2Proof.Machine

section
variable {s : State}

/-! ### The decision of a channel -/

theorem decideCh_again {k cause : Nat} {arg : Option Nat} (held : chSafe s k = true) : decideCh k cause arg s = setHist cause s := if_pos held

/-- A new decision: counted and recorded, the outputs of the channel safe. -/
def chDecided (k cause : Nat) (s : State) : State :=
  let t := setHist cause s
  modCh k (fun c => { c with safe := some cause, fltNext := if c.fltNext.isSome then c.fltNext else some cause })
    (safeChannel k { t with saf := { t.saf with nCh := incSat 8 t.saf.nCh } })

theorem decideCh_new {k cause : Nat} {arg : Option Nat} (free : chSafe s k = false) :
    decideCh k cause arg s = raiseOpt .island cause k arg (chDecided k cause s) :=
  if_neg (by rw [free]; exact Bool.false_ne_true)

theorem raised_raiseOpt (p : Producer) (cause ch : Nat) (arg : Option Nat) (s : State) : Raised cause (raiseOpt p cause ch arg s) := by
  unfold raiseOpt
  split
  · exact raised_raiseSrc ..
  · exact raised_raise ..

theorem raiseOpt_fab (p : Producer) (cause ch : Nat) (arg : Option Nat) (s : State) : Within [.fab] s (raiseOpt p cause ch arg s) :=
  raiseOpt_within (.refl _ _) rfl

theorem chDecided_saf (k cause : Nat) (s : State) :
    (chDecided k cause s).saf = { s.saf with hist := setBitN s.saf.hist (cause % 32) true, nCh := incSat 8 s.saf.nCh } :=
  (safeChannel_within (Within.refl _ _) (all_contains_self _) : Within _ _ _) .saf (by decide)

theorem chDecided_frame (k cause : Nat) (s : State) : Within [.ph, .ch, .saf] s (chDecided k cause s) :=
  modCh_within (safeChannel_within (.set_saf (setHist_within (.refl _ _) rfl) rfl) rfl) rfl

theorem chDecided_quiet {k : Nat} (cause : Nat) {n : Nat} (own : n ∈ phasesOf s k) (inside : n < 128) : ((chDecided k cause s).getPh n).pwm.switching = false := by
  unfold chDecided safeChannel midChannel
  refine (openDisc_towards k _).quiet n ?_
  have midway : ((forEach (phasesOf s k) (midPhase .idle)
      { setHist cause s with saf := { (setHist cause s).saf with nCh := incSat 8 (setHist cause s).saf.nCh } }).getPh n).pwm.switching = false :=
    forEach_brings own (fun t => midPhase_quiet inside .idle t) (fun j t quiet => (midPhase_towards .idle j t).quiet n quiet) _
  exact midway

section
variable {k : Nat} (small : k < 128)
include small

theorem chDecided_self (cause : Nat) (s : State) : ((chDecided k cause s).getCh k).safe = some cause ∧
    ((chDecided k cause s).getCh k).fltNext.isSome = true ∧ ((chDecided k cause s).getCh k).discWant = false := by
  unfold chDecided
  dsimp only
  rw [getCh_modCh_self small]
  refine ⟨rfl, ?_, (safeChannel_opens small _).1⟩
  dsimp only
  split
  · assumption
  · rfl

theorem chSafe_decideCh (cause : Nat) (arg : Option Nat) (s : State) : chSafe (decideCh k cause arg s) k = true := by
  cases held : chSafe s k with
  | true => exact (congrArg (chSafe · k) (decideCh_again held)).trans held
  | false =>
    have safe : ((decideCh k cause arg s).getCh k).safe = some cause := by
      rw [decideCh_new held, raiseOpt_getCh]
      exact (chDecided_self small cause s).1
    unfold chSafe
    rw [safe]
    rfl

theorem decideCh_spec {cause : Nat} {arg : Option Nat} (free : chSafe s k = false) :
    ∃ t, decideCh k cause arg s = t ∧ (t.getCh k).safe = some cause ∧ (t.getCh k).fltNext.isSome = true ∧ t.saf.nCh = incSat 8 s.saf.nCh ∧
      bitN t.saf.hist (cause % 32) = true ∧ (t.getCh k).discWant = false ∧ (∃ e ∈ t.fab.events, e.cause = cause) ∧ t.mode = s.mode ∧
      (∀ n ∈ phasesOf s k, n < 128 → (t.getPh n).pwm.switching = false) := by
  refine ⟨_, decideCh_new free, ?_⟩
  have frame := raiseOpt_fab .island cause k arg (chDecided k cause s)
  rw [raiseOpt_getCh, frame .saf (by decide), frame .mode (by decide), chDecided_saf]
  obtain ⟨safe, next_, disc⟩ := chDecided_self small cause s
  refine ⟨safe, next_, rfl, bitN_setBitN .., disc, raised_raiseOpt .., chDecided_frame k cause s .mode (by decide), fun n own inside => ?_⟩
  rw [raiseOpt_getPh]
  exact chDecided_quiet cause own inside

end

theorem decideCh_nph (k cause : Nat) (arg : Option Nat) (s : State) (j : Nat) : ((decideCh k cause arg s).getCh j).nph = (s.getCh j).nph := by
  cases held : chSafe s k with
  | true => rw [decideCh_again held]; rfl
  | false =>
    rw [decideCh_new held, raiseOpt_getCh]
    unfold chDecided
    dsimp only
    rw [getCh_modCh]
    split
    · exact safeChannel_nph k _ j
    · exact safeChannel_nph k _ j

theorem decideChs_nph (k : Nat) (l : List (Nat × Option Nat)) (s : State) (j : Nat) : ((decideChs k l s).getCh j).nph = (s.getCh j).nph := by
  cases l with
  | nil => rfl
  | cons x rest =>
    obtain ⟨c, a⟩ := x
    have rest : Within [.saf] (decideCh k c a s) (decideChs k ((c, a) :: rest) s) :=
      .foldl (fun _ _ => setHist_within (.ite (.refl _ _) (.set_saf (.refl _ _) rfl)) rfl) (.refl _ _)
    rw [getCh_of_ch (rest .ch (by decide))]
    exact decideCh_nph k c a s j

theorem cmpReact_nph (n : Nat) (s : State) (j : Nat) : ((cmpReact n s).getCh j).nph = (s.getCh j).nph := by
  unfold cmpReact
  dsimp only
  split
  · rfl
  · exact decideChs_nph ..

/-! ### Told temperatures -/

section
variable {k : Nat}

theorem checkTemp_runs (runs : (s.getCh k).st = .step ∨ (s.getCh k).st = .hold) : checkTemp k s =
    decideChs k ((if toldHot s k then [(Cause.safTmax, none)] else []) ++ if toldOld s k then [(Cause.safTstale, none)] else []) s := if_pos runs

theorem checkTemp_idle (step : (s.getCh k).st ≠ .step) (hold : (s.getCh k).st ≠ .hold) : checkTemp k s = s := if_neg (by simp [step, hold])

theorem told_of_never (never : (s.getTold k).t = none) : toldHot s k = false ∧ toldOld s k = true := by
  unfold toldHot toldOld
  rw [never]
  exact ⟨rfl, rfl⟩

theorem checkTemp_old (runs : (s.getCh k).st = .step ∨ (s.getCh k).st = .hold) (hot : toldHot s k = false) (old : toldOld s k = true) :
    checkTemp k s = decideCh k Cause.safTstale none s := by
  rw [checkTemp_runs runs, hot, old]
  rfl

end

/-! ### Comparator tests -/

section
variable {n : Fin 128}

theorem exec_cmpTestStart_idle (h : cmpDue s n = none ∨ s.mode.up = false ∨ cmptEn s = false ∨ fePowered s n = false ∨ (s.getFe n).cmpTest ≠ none ∨
    ∃ a i, cmpDue s n = some (a, i) ∧ i ≤ (s.getFe n).cmpDone) : exec (.cmpTestStart n) s = .next s := by
  change execCmpTestStart n s = _
  unfold execCmpTestStart
  dsimp only
  cases due : cmpDue s n with
  | none => rfl
  | some x =>
    obtain ⟨a, i⟩ := x
    refine if_pos ?_
    rcases h with h | h | h | h | h | ⟨a', i', is, done⟩
    · cases due.symm.trans h
    · simp [h]
    · simp [h]
    · simp [h]
    · cases test : (s.getFe n).cmpTest with
      | none => exact absurd test h
      | some b => simp
    · cases due.symm.trans is
      simp [Nat.not_lt.mpr done]

section
variable {a i : Nat} (up : s.mode.up = true) (enabled : cmptEn s = true) (powered : fePowered s n = true) (free : (s.getFe n).cmpTest = none)
  (due : cmpDue s n = some (a, i)) (fresh : (s.getFe n).cmpDone < i)
include up enabled powered free due fresh

/-- A test that is due runs, or waits for its front end. -/
theorem exec_cmpTestStart : exec (.cmpTestStart n) s =
    if cmpTestOk s n then .next (modFe n (fun f => { f with cmpTest := some false, cmpDefer := none, cmpRetest := false, cmpDone := i }) s)
    else match (s.getFe n).cmpDefer with
      | none => .next (modFe n (fun f => { f with cmpDefer := some a }) s)
      | some t =>
        if secTk (cmptS s) ≤ since s t then
          .next (raise .island Cause.safCmpDefer (chanOr s n) (modFe n (fun f => { f with cmpDefer := some (t + secTk (cmptS s)) }) s))
        else .next s := by
  change execCmpTestStart n s = _
  unfold execCmpTestStart
  rw [due]
  refine (if_neg (by simp [up, enabled, powered, free, fresh])).trans ?_
  cases (s.getFe n).cmpDefer <;> rfl

theorem exec_cmpTestStart_waits (notOk : cmpTestOk s n = false) : exec (.cmpTestStart n) s =
    match (s.getFe n).cmpDefer with
      | none => .next (modFe n (fun f => { f with cmpDefer := some a }) s)
      | some t =>
        if secTk (cmptS s) ≤ since s t then
          .next (raise .island Cause.safCmpDefer (chanOr s n) (modFe n (fun f => { f with cmpDefer := some (t + secTk (cmptS s)) }) s))
        else .next s :=
  (exec_cmpTestStart up enabled powered free due fresh).trans (if_neg (by rw [notOk]; exact Bool.false_ne_true))

end

/-- The test of a front end ends. -/
def testOver (f : FrontEnd) : FrontEnd := { f with cmpTest := none }

/-- A failed test is counted. -/
def failCounted (s : State) : State := { s with saf := { s.saf with nCmpt := incSat 8 s.saf.nCmpt } }

theorem exec_cmpTestDone_passed {r : Bool} (runs : (s.getFe n).cmpTest = some r) : exec (.cmpTestDone n true) s =
    .next (if (s.getFe n).cmpRetest then retestDone (chanOr s n) (cmpReact n (modFe n testOver s)) else cmpReact n (modFe n testOver s)) := by
  change execCmpTestDone n true s = _
  unfold execCmpTestDone
  dsimp only
  rw [runs]
  rfl

theorem exec_cmpTestDone_failed (runs : (s.getFe n).cmpTest = some false) : exec (.cmpTestDone n false) s =
    .next (modFe n (fun f => { f with cmpTest := some true }) (failCounted s)) := by
  change execCmpTestDone n false s = _
  unfold execCmpTestDone
  dsimp only
  rw [runs]
  rfl

/-- The second failure decides the channel. -/
def testDecided (n : Fin 128) (s : State) : State :=
  decideCh (chanOr s n) Cause.safCmpTest none (cmpReact n (modFe n testOver (failCounted s)))

/-- A retest that failed refuses its CLEAR_FAULT. -/
def retestRefused (n : Fin 128) (s : State) : State :=
  refuseCmd (chanOr s n) (forEach (frontEndsOf (testDecided n s) (chanOr s n)) (modFe · fun f => { f with cmpRetest := false, cmpTest := none })
    (testDecided n s))

theorem exec_cmpTestDone_repeated (runs : (s.getFe n).cmpTest = some true) : exec (.cmpTestDone n false) s =
    .next (if (s.getFe n).cmpRetest then retestRefused n s else testDecided n s) := by
  change execCmpTestDone n false s = _
  unfold execCmpTestDone
  dsimp only
  rw [runs]
  rfl

theorem testDecided_frame (n : Fin 128) (s : State) : Within [.ph, .ch, .saf, .fab] (modFe n testOver (failCounted s)) (testDecided n s) :=
  decideCh_within (cmpReact_within (.refl _ _) rfl) rfl

theorem frontEndsOf_testDecided (n : Fin 128) (s : State) (k : Nat) : frontEndsOf (testDecided n s) k = frontEndsOf s k := by
  have same : ((testDecided n s).getCh k).nph = (s.getCh k).nph := (decideCh_nph ..).trans (cmpReact_nph ..)
  unfold frontEndsOf native
  rw [same]

theorem testDecided_cmpTest (n : Fin 128) (s : State) : ((testDecided n s).getFe n).cmpTest = none := by
  rw [getFe_of_fe (testDecided_frame n s .fe (by decide)), getFe_modFe_self n.isLt]
  rfl

theorem frontEndsOf_nodup (s : State) (k : Nat) : (frontEndsOf s k).Nodup := by
  unfold frontEndsOf
  split <;> simp

theorem retestRefused_spec : ((retestRefused n s).getFe n).cmpTest = none ∧
    (∀ m ∈ frontEndsOf s (chanOr s n), m < 128 → ((retestRefused n s).getFe m).cmpTest = none ∧ ((retestRefused n s).getFe m).cmpRetest = false) ∧
    chSafe (retestRefused n s) (chanOr s n) = true ∧ Raised Cause.chCmdRefused (retestRefused n s) ∧ (retestRefused n s).mode = s.mode := by
  have loop : Within [.fe] (testDecided n s) (forEach (frontEndsOf (testDecided n s) (chanOr s n))
      (modFe · fun f => { f with cmpRetest := false, cmpTest := none }) (testDecided n s)) := .forEach (fun _ _ => modFe_within (.refl _ _) rfl) (.refl _ _)
  have frame : Within [.fe, .fab] (testDecided n s) (retestRefused n s) := raise_within (loop.mono rfl) rfl
  have fes : ∀ m, (retestRefused n s).getFe m = if m ∈ frontEndsOf s (chanOr s n) ∧ m < 128 then
      { (testDecided n s).getFe m with cmpRetest := false, cmpTest := none } else (testDecided n s).getFe m := fun m => by
    unfold retestRefused refuseCmd
    rw [getFe_of_fe (raise_fe ..), getFe_forEach _ (frontEndsOf_nodup _ _), frontEndsOf_testDecided]
  refine ⟨?_, fun m own inside => ?_, ?_, raised_raise .., ?_⟩
  · rw [fes n]
    split
    · rfl
    · exact testDecided_cmpTest n s
  · rw [fes m, if_pos ⟨own, inside⟩]
    exact ⟨rfl, rfl⟩
  · have decided : chSafe (testDecided n s) (chanOr s n) = true := chSafe_decideCh (chanOr_lt s n) ..
    unfold chSafe at decided ⊢
    rwa [getCh_of_ch (frame .ch (by decide)), getGal_of_gal (frame .gal (by decide)), frame .saf (by decide)]
  · exact (frame .mode (by decide)).trans (testDecided_frame n s .mode (by decide))

theorem cmpReact_quiet (over_ : (s.getFe n).cmpOv = false) (under : (s.getFe n).cmpUv = false) : cmpReact n s = s := by
  unfold cmpReact
  dsimp only
  rw [over_, under]
  split <;> rfl

end

/-! ### The signature -/

section
variable (up : s.mode.up = true) (applied : s.ldr.applied = true)
include up applied

/-- The corrupted word, if one is given and it is of the safety set. -/
def wordFlipped (s : State) : Option (Nat × Word) → State
  | some (a, m) => if inSafetySet a then modSaf (fun f => { f with flips := alSet 0 a (alGet 0 a f.flips ^^^ m) f.flips }) s else s
  | none => s

/-- The signature of the working copy is recorded, and judged against the kept one. -/
def signatureJudged (s : State) : State :=
  let t := modSaf (fun f => { f with sigNow := signature (safW s), sigOk := signature (safW s) == sigRef s }) s
  if signature (safW s) == sigRef s then t else decideDev Cause.safSig 0xFF true t

theorem exec_signatureDone (flip : Option (Nat × Word)) : exec (.signatureDone flip) s = .next (signatureJudged (wordFlipped s flip)) := by
  refine (if_neg (by simp [up, applied])).trans ?_
  cases flip <;> rfl

end

end

/-- Settles O25: each check decides by what it reads; the decision of a channel is new or sets its bit of the history alone. -/
theorem islandChecksAndTests : Obligations.IslandChecksAndTests := by
  refine ⟨fun s up enabled => congrArg Host.Outcome.next (if_pos (by simp [up, enabled])),
    fun s h => congrArg Host.Outcome.next (if_neg (by rcases h with h | h <;> simp [h])),
    fun s k runs => ⟨fun hot old => ?_, fun hot old => checkTemp_old runs hot old, fun never => ?_, fun hot old => ?_⟩,
    fun s k step hold => checkTemp_idle step hold, fun s k cause a small free => decideCh_spec small free, fun s k cause a held => decideCh_again held,
    fun s g good => congrArg Host.Outcome.next (if_pos good), fun s g bad => congrArg Host.Outcome.next (if_neg (by rw [bad]; exact Bool.false_ne_true)),
    fun s g => rfl, fun s up overrun => congrArg Host.Outcome.next (if_pos (by simp [up, overrun])),
    fun s h => congrArg Host.Outcome.next (if_neg ?_), fun s => ?_, fun s n h => exec_cmpTestStart_idle h,
    fun s n a i up enabled powered free due fresh => ⟨fun ok => ?_, fun notOk first => ?_, fun t notOk since_ early => ?_, fun t notOk since_ late => ?_⟩,
    fun s n => rfl, fun s n pass idle => ?_, fun s n runs => exec_cmpTestDone_failed runs, fun s n runs first => ?_, fun s n runs retest => ?_,
    fun s n r runs first => ⟨?_, fun over_ under => ?_⟩, fun s n r runs retest => ?_, fun s fl h => if_pos ?_,
    fun s up applied => ⟨fun same => ?_, fun differs => ?_, fun a m outside => ?_, fun a m inside => ?_⟩⟩
  · rw [checkTemp_runs runs, hot, old]
    rfl
  · obtain ⟨hot, old⟩ := told_of_never never
    exact checkTemp_old runs hot old
  · rw [checkTemp_runs runs, hot, old]
    rfl
  · rcases h with h | h
    · simp [h]
    · simp [Nat.not_le.mpr h]
  · obtain ⟨sen, quiet⟩ := keepaliveStop_outputs s
    refine ⟨_, rfl, (congrArg Island.keepAlive (keepaliveStop_saf s) :), (congrArg Island.safeN (keepaliveStop_saf s) :), keepaliveStop_mode s,
      (congrArg Island.dev (keepaliveStop_saf s) :), sen, quiet⟩
  · exact (exec_cmpTestStart up enabled powered free due fresh).trans (if_pos ok)
  · rw [exec_cmpTestStart_waits up enabled powered free due fresh notOk, first]
  · rw [exec_cmpTestStart_waits up enabled powered free due fresh notOk, since_]
    exact if_neg (Nat.not_le.mpr early)
  · rw [exec_cmpTestStart_waits up enabled powered free due fresh notOk, since_]
    exact if_pos late
  · change execCmpTestDone n pass s = _
    unfold execCmpTestDone
    dsimp only
    rw [idle]
  · exact (exec_cmpTestDone_repeated runs).trans (congrArg Host.Outcome.next (if_neg (by rw [first]; exact Bool.false_ne_true)))
  · exact ⟨_, (exec_cmpTestDone_repeated runs).trans (congrArg Host.Outcome.next (if_pos retest)), retestRefused_spec⟩
  · exact (exec_cmpTestDone_passed runs).trans (congrArg Host.Outcome.next (if_neg (by rw [first]; exact Bool.false_ne_true)))
  · refine (exec_cmpTestDone_passed runs).trans (congrArg Host.Outcome.next ((if_neg (by rw [first]; exact Bool.false_ne_true)).trans (cmpReact_quiet ?_ ?_)))
    · rw [getFe_modFe_self n.isLt]
      exact over_
    · rw [getFe_modFe_self n.isLt]
      exact under
  · exact (exec_cmpTestDone_passed runs).trans (congrArg Host.Outcome.next (if_pos retest))
  · rcases h with h | h <;> simp [h]
  · refine (exec_signatureDone up applied none).trans (congrArg Host.Outcome.next ?_)
    unfold wordFlipped signatureJudged
    simp [same, modSaf]
  · refine (exec_signatureDone up applied none).trans (congrArg Host.Outcome.next ?_)
    have bad : (signature (safW s) == sigRef s) = false := beq_eq_false_iff_ne.mpr differs
    change signatureJudged s = _
    unfold signatureJudged
    rw [bad]
    rfl
  · refine (exec_signatureDone up applied _).trans (Eq.trans ?_ (exec_signatureDone up applied none).symm)
    exact congrArg (Host.Outcome.next ∘ signatureJudged) (if_neg (by rw [outside]; exact Bool.false_ne_true))
  · refine (exec_signatureDone up applied _).trans (Eq.trans ?_ (exec_signatureDone ?_ ?_ none).symm)
    · exact congrArg (Host.Outcome.next ∘ signatureJudged) (if_pos inside)
    · exact up
    · exact applied

end Sys2Proof.Machine
end

section
/-!
Ports and switch (R267 to R271), the rope (R272 to R274), and addressing: ARP and ICMP (R275, R276).
-/

namespace Sys2Proof.Machine

section
variable {s : State}

/-! ### What traffic leaves of the link -/

/-- Traffic fills queues and counts drops; a port's state, the last hello and the place in the rope stay, and so does an address in force. -/
structure RopeKept (s t : State) : Prop where
  up : ∀ p, (t.getPort p).up = (s.getPort p).up
  upTk : ∀ p, (t.getPort p).upTk = (s.getPort p).upTk
  hello : ∀ p, (t.getPort p).hello = (s.getPort p).hello
  fcs : ∀ p, (t.getPort p).fcs = (s.getPort p).fcs
  pos : t.link.pos = s.link.pos
  head : t.link.head = s.link.head
  address : s.link.ipNow ≠ 0 → t.link.ipNow = s.link.ipNow

theorem RopeKept.refl (s : State) : RopeKept s s := ⟨fun _ => rfl, fun _ => rfl, fun _ => rfl, fun _ => rfl, rfl, rfl, fun _ => rfl⟩

theorem RopeKept.trans {t u : State} (h : RopeKept s t) (k : RopeKept t u) : RopeKept s u :=
  ⟨fun p => (k.up p).trans (h.up p), fun p => (k.upTk p).trans (h.upTk p), fun p => (k.hello p).trans (h.hello p),
    fun p => (k.fcs p).trans (h.fcs p), k.pos.trans h.pos, k.head.trans h.head,
    fun set => (k.address (by rw [h.address set]; exact set)).trans (h.address set)⟩

theorem RopeKept.of_link {t : State} (same : t.link = s.link) : RopeKept s t := by
  refine ⟨fun p => ?_, fun p => ?_, fun p => ?_, fun p => ?_, by rw [same], by rw [same], fun _ => by rw [same]⟩ <;> (unfold State.getPort; rw [same])

theorem RopeKept.forEach {f : Nat → State → State} (step : ∀ i t, RopeKept t (f i t)) (l : List Nat) (s : State) : RopeKept s (forEach l f s) := by
  unfold Machine.forEach
  induction l generalizing s with
  | nil => exact .refl s
  | cons i l ih => exact (step i s).trans (ih (f i s))

/-- Which port `modPort p` changes: 0, or the other one. -/
theorem getPort_modPort (p q : Nat) (f : Port → Port) (s : State) :
    (modPort p f s).getPort q = if (p = 0 ↔ q = 0) then f (s.getPort q) else s.getPort q := by
  by_cases hp : p = 0 <;> by_cases hq : q = 0 <;> simp [State.getPort, modPort, modLink, hp, hq]

theorem getPort_modPort_self (p : Nat) (f : Port → Port) (s : State) : (modPort p f s).getPort p = f (s.getPort p) :=
  (getPort_modPort p p f s).trans (if_pos Iff.rfl)

theorem modPort_within' (p : Nat) (f : Port → Port) (s : State) : Within [.link] s (modPort p f s) := modPort_within (.refl _ _) rfl

theorem modPort_rest (p : Nat) (f : Port → Port) (s : State) : (modPort p f s).link.pos = s.link.pos ∧ (modPort p f s).link.head = s.link.head ∧
    (modPort p f s).link.ipNow = s.link.ipNow ∧ (modPort p f s).link.sess = s.link.sess := by
  unfold modPort modLink
  dsimp only
  split <;> exact ⟨rfl, rfl, rfl, rfl⟩

theorem modPort_kept {f : Port → Port} (up : ∀ x, (f x).up = x.up) (upTk : ∀ x, (f x).upTk = x.upTk) (hello : ∀ x, (f x).hello = x.hello)
    (fcs : ∀ x, (f x).fcs = x.fcs) (p : Nat) (s : State) : RopeKept s (modPort p f s) := by
  obtain ⟨pos, head, ip, -⟩ := modPort_rest p f s
  refine ⟨fun q => ?_, fun q => ?_, fun q => ?_, fun q => ?_, pos, head, fun _ => ip⟩ <;> rw [getPort_modPort] <;> split
  · exact up _
  · rfl
  · exact upTk _
  · rfl
  · exact hello _
  · rfl
  · exact fcs _
  · rfl

theorem dropped_kept (p : Nat) (s : State) : RopeKept s (modPort p (fun x => { x with drop := incSat 16 x.drop }) s) :=
  modPort_kept (f := fun x => { x with drop := incSat 16 x.drop }) (fun _ => rfl) (fun _ => rfl) (fun _ => rfl) (fun _ => rfl) p s

theorem enqueue_kept (p : Nat) (high : Bool) (n : Nat) (s : State) : RopeKept s (modPort p (Port.enqueue high n) s) := by
  cases high <;> exact modPort_kept (f := Port.enqueue _ n) (fun _ => rfl) (fun _ => rfl) (fun _ => rfl) (fun _ => rfl) p s

theorem atTime_kept (p a : Nat) (s : State) : RopeKept s (modPort p (Port.atTime a) s) := by
  have port : ∀ x : Port, (Port.atTime a x).up = x.up ∧ (Port.atTime a x).upTk = x.upTk ∧ (Port.atTime a x).hello = x.hello ∧
      (Port.atTime a x).fcs = x.fcs := fun x => by
    unfold Port.atTime Port.drain
    split <;> exact ⟨rfl, rfl, rfl, rfl⟩
  exact modPort_kept (fun x => (port x).1) (fun x => (port x).2.1) (fun x => (port x).2.2.1) (fun x => (port x).2.2.2) p s

theorem txFrame_full {p : Nat} {high : Bool} {n : Nat} {o : Out} (full : (s.getPort p).full n = true) :
    txFrame p high n o s = modPort p (fun x => { x with drop := incSat 16 x.drop }) s := if_pos full

theorem txFrame_kept (p : Nat) (high : Bool) (n : Nat) (o : Out) (s : State) : RopeKept s (txFrame p high n o s) := by
  unfold txFrame
  split
  · exact dropped_kept p s
  · exact (enqueue_kept p high n s).trans (.of_link rfl)

theorem txFrame_frame (p : Nat) (high : Bool) (n : Nat) (o : Out) (s : State) : Within [.link, .out] s (txFrame p high n o s) :=
  txFrame_within (.refl _ _) rfl

/-! ### The address -/

/-- The address taken is announced on each port that is up. -/
def addressAnnounced (a : Nat) (s : State) : State := forEach [0, 1] (fun p t => if linkUp t p then announce p a t else t) s

theorem addressAnnounced_kept (a : Nat) (s : State) : RopeKept s (addressAnnounced a s) := by
  refine .forEach (fun p t => ?_) _ s
  split
  · exact txFrame_kept ..
  · exact .refl _

theorem takeAddress_kept (s : State) : RopeKept s (takeAddress s) := by
  unfold takeAddress
  split
  · exact .refl s
  next open_ =>
    have free : s.link.ipNow = 0 := not_not.mp fun set => open_ (.inl set)
    dsimp only
    split
    next a _ =>
      have taken : RopeKept s (modLink (fun l => { l with ipNow := a }) s) :=
        ⟨fun _ => rfl, fun _ => rfl, fun _ => rfl, fun _ => rfl, rfl, rfl, fun set => absurd free set⟩
      split
      · exact taken
      · exact taken.trans (addressAnnounced_kept a _)
    · exact .refl s

/-! ### Ports -/

section
variable {p : Fin 2}

/-- A port comes up with empty queues. -/
def portRaised (p : Nat) (s : State) : State := modPort p (fun x => { x with up := true, upTk := s.tb.run, hi := 0, lo := 0 }) s

theorem exec_portUp (runs : linkRuns s = true) (down : (s.getPort p).up = false) : exec (.portUp p) s =
    .next (if (portRaised p s).link.ipNow = 0 then takeAddress (portRaised p s) else announce p (portRaised p s).link.ipNow (portRaised p s)) :=
  if_pos (by simp [runs, down])

theorem portRaised_then {t : State} (kept : RopeKept (portRaised p s) t) (frame : Within [.link, .out] (portRaised p s) t) :
    (t.getPort p).up = true ∧ (t.getPort p).upTk = s.tb.run ∧ (t.getPort p).hello = (s.getPort p).hello ∧
      (s.link.ipNow ≠ 0 → t.link.ipNow = s.link.ipNow) ∧ t.link.pos = s.link.pos ∧ Within [.link, .out] s t := by
  have port : (portRaised p s).getPort p = { s.getPort p with up := true, upTk := s.tb.run, hi := 0, lo := 0 } := getPort_modPort_self ..
  obtain ⟨pos, -, ip, -⟩ := modPort_rest p (fun x => { x with up := true, upTk := s.tb.run, hi := 0, lo := 0 }) s
  have ip' : (portRaised p s).link.ipNow = s.link.ipNow := ip
  refine ⟨?_, ?_, ?_, fun set => (kept.address (by rw [ip']; exact set)).trans ip', kept.pos.trans pos, ((modPort_within' _ _ _).mono rfl).andThen frame rfl⟩
  · rw [kept.up, port]
  · rw [kept.upTk, port]
  · rw [kept.hello, port]

theorem portUp_spec (runs : linkRuns s = true) (down : (s.getPort p).up = false) :
    ∃ t, exec (.portUp p) s = .next t ∧ (t.getPort p).up = true ∧ (t.getPort p).upTk = s.tb.run ∧ (t.getPort p).hello = (s.getPort p).hello ∧
      (s.link.ipNow ≠ 0 → t.link.ipNow = s.link.ipNow) ∧ t.link.pos = s.link.pos ∧ Within [.link, .out] s t := by
  refine ⟨_, exec_portUp runs down, ?_⟩
  split
  · exact portRaised_then (takeAddress_kept _) (takeAddress_within (.refl _ _) rfl)
  · exact portRaised_then (txFrame_kept ..) (txFrame_frame _ _ _ _ _)

theorem getPort_portDown_other {q : Nat} (port : q = 0 ∨ q = 1) (other : q ≠ p.val) (s : State) : (portDown p s).getPort q = s.getPort q := by
  unfold portDown
  rw [getPort_modPort, if_neg]
  omega

theorem linkPortDown_spec (up : (s.getPort p).up = true) :
    ∃ t, exec (.linkPortDown p) s = .next t ∧ (t.getPort p).up = false ∧ (t.getPort p).hello = (s.getPort p).hello ∧
      (∀ q, (q = 0 ∨ q = 1) → q ≠ p.val → t.getPort q = s.getPort q) ∧ (∃ e ∈ t.fab.events, e.cause = Cause.linkPortDown) ∧
      t.link.pos = s.link.pos ∧ t.link.sess = s.link.sess ∧ Within [.link, .fab] s t := by
  have port : (portDown p s).getPort p = { s.getPort p with up := false, hi := 0, lo := 0 } := getPort_modPort_self ..
  obtain ⟨pos, -, -, sess⟩ := modPort_rest p (fun x => { x with up := false, hi := 0, lo := 0 }) s
  refine ⟨_, if_pos up, ?_, ?_, fun q is other => getPort_portDown_other is other s, raised_raise .., pos, sess,
    raise_within (portDown_within (.refl _ _) rfl) rfl⟩
  · exact (congrArg Port.up port :)
  · exact (congrArg Port.hello port :)

end

/-! ### The rope -/

/-- The load told from below, while its hello is not older than 3 s. -/
def loadBelow (s : State) : Nat := match s.link.p1.hello with | some (_, seg, tk) => if since s tk ≤ secTk 3 then seg else 0 | none => 0

/-- The load of the segment is taken, and judged against its budget. -/
def loadTaken (s : State) : State :=
  modLink (fun l => { l with seg := s.link.wcr + loadBelow s, budgetOver := decide (800000 < s.link.wcr + loadBelow s) }) s

theorem updateSeg_link (s : State) : (updateSeg s).link =
    { s.link with seg := s.link.wcr + loadBelow s, budgetOver := decide (800000 < s.link.wcr + loadBelow s) } := by
  have stage : updateSeg s = if decide (800000 < s.link.wcr + loadBelow s) && !s.link.budgetOver then
      raise .ports Cause.linkBudgetOver 0xFF (loadTaken s) else loadTaken s := rfl
  rw [stage]
  split <;> rfl

/-- The position is taken; a change, and one beyond 31, raises its event. -/
def posTaken (p : Nat) (head : Bool) (s : State) : State :=
  let s1 := modLink (fun l => { l with pos := some p, lastPos := some p, head := head }) s
  let s2 := match s.link.lastPos with
    | some q => if q ≠ p then raise .ports Cause.linkPosChange 0xFF s1 else s1
    | none => s1
  if 32 ≤ p ∧ s.link.pos ≠ some p then raise .ports Cause.linkRopeLong 0xFF s2 else s2

theorem setPos_eq (p : Nat) (head : Bool) (s : State) : setPos p head s = takeAddress (posTaken p head s) := rfl

theorem posTaken_link (p : Nat) (head : Bool) (s : State) :
    (posTaken p head s).link = { s.link with pos := some p, lastPos := some p, head := head } := by
  unfold posTaken
  dsimp only
  split <;> split <;> first | rfl | (split <;> rfl)

theorem posTaken_raised {p q : Nat} {head : Bool} (last : s.link.lastPos = some q) (moved : q ≠ p) :
    Raised Cause.linkPosChange (posTaken p head s) := by
  unfold posTaken
  rw [last]
  simp only [if_pos moved]
  split
  · exact (raised_raise ..).raise ..
  · exact raised_raise ..

theorem setPos_raised {p : Nat} {head : Bool} (h : Raised Cause.linkPosChange (posTaken p head s)) : Raised Cause.linkPosChange (setPos p head s) :=
  h.of_fab ((takeAddress_within (Within.refl _ _) rfl : Within [.link, .out] (posTaken p head s) _) .fab (by decide))

/-! The gate of a hello. -/
section
variable {p : Fin 2} {m : List Byte} (up : linkUp s p = true)
include up

theorem ropeHello_discarded (bad : Pz.whole m = false ∨ Pz.sess m ≠ 0xFF) : exec (.ropeHello p m) s = .next (pzDiscard s) := by
  refine congrArg Host.Outcome.next ((if_neg (by simp [up])).trans (if_pos ?_))
  rcases bad with h | h <;> simp [h]

variable (whole : Pz.whole m = true) (sess : Pz.sess m = 0xFF)
include whole sess

theorem ropeHello_malformed (bad : helloOk m = false) : exec (.ropeHello p m) s = .next (raiseSrc .fabric Cause.pzBad 0xFF 160 0 [] s) :=
  congrArg Host.Outcome.next ((if_neg (by simp [up])).trans ((if_neg (by simp [whole, sess])).trans (if_pos (by simp [bad]))))

theorem ropeHello_heard (ok : helloOk m = true) : exec (.ropeHello p m) s = .next (helloIn p (Pz.payload m) s) :=
  congrArg Host.Outcome.next ((if_neg (by simp [up])).trans ((if_neg (by simp [whole, sess])).trans (if_neg (by simp [ok]))))

end

/-- A hello is kept with the time it came. -/
def helloKept (p : Nat) (b : List Byte) (s : State) : State :=
  modPort p (fun x => { x with hello := some (byteAt b 0, leAt b 16 4, s.tb.run) }) s

theorem helloIn_upper (b : List Byte) : ∃ t, helloIn 0 b s = t ∧ t.link.p0.hello = some (byteAt b 0, leAt b 16 4, s.tb.run) ∧ t.link.head = false ∧
    t.link.pos = (if bitN (byteAt b 1) 0 = true then some (Nat.min (byteAt b 0 + 1) 63) else s.link.pos) ∧
    (s.link.ipNow ≠ 0 → t.link.ipNow = s.link.ipNow) ∧ Within [.link, .fab, .out] s t := by
  have frame : Within [.link, .fab, .out] s (helloIn 0 b s) := helloIn_within (.refl _ _) rfl
  cases valid : bitN (byteAt b 1) 0 with
  | false =>
    refine ⟨_, rfl, ?_⟩
    have is : helloIn 0 b s = modLink (fun l => { l with head := false }) (helloKept 0 b s) := if_neg (by rw [valid]; exact Bool.false_ne_true)
    rw [is] at frame ⊢
    exact ⟨rfl, rfl, rfl, fun _ => rfl, frame⟩
  | true =>
    refine ⟨_, rfl, ?_⟩
    have is : helloIn 0 b s = setPos (Nat.min (byteAt b 0 + 1) 63) false (helloKept 0 b s) := if_pos valid
    have link := posTaken_link (Nat.min (byteAt b 0 + 1) 63) false (helloKept 0 b s)
    have kept := takeAddress_kept (posTaken (Nat.min (byteAt b 0 + 1) 63) false (helloKept 0 b s))
    rw [is, setPos_eq] at frame ⊢
    have ip : (posTaken (Nat.min (byteAt b 0 + 1) 63) false (helloKept 0 b s)).link.ipNow = s.link.ipNow := by rw [link]; rfl
    refine ⟨(kept.hello 0).trans ?_, kept.head.trans (by rw [link]), kept.pos.trans (by rw [link]; rfl),
      fun set => (kept.address (by rw [ip]; exact set)).trans ip, frame⟩
    exact (congrArg (fun l : Link => l.p0.hello) link :)

theorem helloIn_lower (b : List Byte) : ∃ t, helloIn 1 b s = t ∧ t.link.seg = s.link.wcr + leAt b 16 4 ∧ t.link.tail = false ∧
    t.link.budgetOver = decide (800000 < s.link.wcr + leAt b 16 4) ∧ t.link.pos = s.link.pos ∧ Within [.link, .fab] s t := by
  refine ⟨_, rfl, ?_⟩
  have is : helloIn 1 b s = updateSeg (modLink (fun l => { l with tail := false }) (helloKept 1 b s)) := rfl
  have below : loadBelow (modLink (fun l => { l with tail := false }) (helloKept 1 b s)) = leAt b 16 4 := by
    have now : since s s.tb.run ≤ secTk 3 := by simp [since]
    exact if_pos now
  rw [is, updateSeg_link, below]
  exact ⟨rfl, rfl, rfl, rfl, updateSeg_within (modLink_within (modPort_within (.refl _ _) rfl) rfl) rfl⟩

theorem exec_tailTimeout (runs : linkRuns s = true) (silent : quiet s 1 = true) (h : s.link.p1.hello.isSome = true ∨ secTk 3 ≤ since s s.link.p1.upTk) :
    exec .tailTimeout s = .next (updateSeg (modLink (fun l => { l with tail := true, p1 := { l.p1 with hello := none } }) s)) := by
  refine if_pos ?_
  rcases h with h | h <;> simp [runs, silent, h]

/-! ### ARP and ICMP -/

theorem ipHeard_iff {p : Nat} {vid : Option Nat} : ipHeard s p vid = true ↔
    linkUp s p = true ∧ s.link.ipNow ≠ 0 ∧ (vid = none ∨ vid = some 0 ∨ vid = some (vlanVid s)) := by
  unfold ipHeard vlanIn
  cases vid with
  | none => simp
  | some v => simp [and_assoc]

theorem learnArp_spec (ip mac : Nat) (s : State) : (learnArp ip mac s).link.arp.length ≤ 16 ∧
    (arpKeeps s ip = true → (ip, mac) ∈ (learnArp ip mac s).link.arp) ∧ Within [.link] s (learnArp ip mac s) := by
  refine ⟨List.length_take_le .., fun keeps => ?_, learnArp_within (.refl _ _) rfl⟩
  unfold learnArp modLink
  dsimp only
  rw [List.filter_cons_of_pos (p := fun x : Nat × Nat => arpKeeps s x.1) keeps]
  exact List.mem_cons_self

/-! ### Frames -/

theorem exec_frameIngress {p : Fin 2} {f : Frame} (up : linkUp s p = true) : exec (.frameIngress p f) s =
    (match f.kind with
    | .perzo ep m => .next (if (f.dst == .own || f.dst == .group) && f.fcsOk && decide (f.len ≤ 1522) then
        pzFrame { ep with port := p, vid := f.tag.map (·.1) } m (ingressFrame p f s) else ingressFrame p f s)
    | _ => .next (ingressFrame p f s)) := by
  refine (if_neg (by simp [up])).trans ?_
  cases f.kind <;> rfl

section
variable {p : Fin 2} {f : Frame} (fits : f.len ≤ 1522)
include fits

theorem ingressFrame_good (good : f.fcsOk = true) : ingressFrame p f s = forwardFrame p f s := by
  refine (if_neg (Nat.not_lt.mpr fits)).trans ?_
  dsimp only
  rw [if_pos good]

theorem ingressFrame_bad (bad : f.fcsOk = false) :
    ingressFrame p f s = forwardFrame p f (modPort p (fun x => { x with fcs := incSat 16 x.fcs }) s) := by
  refine (if_neg (Nat.not_lt.mpr fits)).trans ?_
  dsimp only
  rw [if_neg (by rw [bad]; exact Bool.false_ne_true)]

end

theorem forwardFrame_local {p : Nat} {f : Frame} (h : f.dst = .own ∨ f.dst = .pdelay ∨ f.dst = .ropeHello ∨ linkUp s (1 - p) = false) :
    forwardFrame p f s = s := if_pos h

theorem forwardFrame_on {p : Nat} {f : Frame} (dst : f.dst = .other ∨ f.dst = .group) (up : linkUp s (1 - p) = true) (good : f.fcsOk = true) :
    forwardFrame p f s = txFrame (1 - p) (highQueue f) f.len (.forward (1 - p) (highQueue f) false (tcCorrection s p f)
      (f.udp && tcCorrection s p f != 0) f.ident) (modPort (1 - p) (Port.atTime f.at_) s) := by
  have onward : ¬ (f.dst = .own ∨ f.dst = .pdelay ∨ f.dst = .ropeHello ∨ linkUp s (1 - p) = false) := by
    rcases dst with h | h <;> simp [h, up]
  refine (if_neg onward).trans ((if_neg (by simp [good])).trans ?_)
  rw [good]
  rfl

theorem forwardFrame_kept (p : Nat) (f : Frame) (s : State) : RopeKept s (forwardFrame p f s) := by
  unfold forwardFrame
  dsimp only
  split
  · exact .refl s
  · split
    · exact atTime_kept ..
    · exact (atTime_kept ..).trans (txFrame_kept ..)

end

/-- Settles O39: traffic leaves a port's state and the rope; the rest is each command's own case split. -/
theorem portsRopeAndFrames : Obligations.PortsRopeAndFrames := by
  refine ⟨fun s p h => if_neg (by rcases h with h | h <;> simp [h]), fun s p runs down => portUp_spec runs down,
    fun s p down => if_neg (by rw [down]; exact Bool.false_ne_true), fun s p up => linkPortDown_spec up,
    fun s p down => ⟨if_neg (by rw [down]; exact Bool.false_ne_true), fun m => congrArg Host.Outcome.next (if_pos (by simp [down]))⟩,
    fun s p u up is => ?_, fun s p high n o => ⟨txFrame_full, fun room => ⟨txFrame_out_of_room room, txFrame_frame _ _ _ _ _⟩⟩,
    fun s p m up bad => ropeHello_discarded up bad, fun s p m up whole sess bad => ropeHello_malformed up whole sess bad,
    fun s m b up whole sess ok is => ?_, fun s m b up whole sess ok is => ?_, fun s => ?_,
    fun s h => if_neg (by rcases h with h | h <;> simp [h]),
    fun s runs silent up long => (if_pos (by simp [runs, silent])).trans (congrArg Host.Outcome.next (if_pos (by simp [up, long]))),
    fun s runs silent h => (if_pos (by simp [runs, silent])).trans (congrArg Host.Outcome.next (if_neg ?_)),
    fun s h => if_neg ?_, fun s runs silent h => ?_, fun s p target ip mac vid h => if_neg ?_,
    fun s p ip mac vid heard => if_pos (by simp [heard]), fun s ip mac => learnArp_spec ip mac s,
    fun s p ip mac vid b heard enabled few => if_pos (by simp [heard, enabled, few]), fun s p ip mac vid b h => if_neg ?_,
    fun s p vid => ipHeard_iff, fun s p f down => if_pos (by simp [down]), fun s p f up h => ?_, fun s p f ep m up kind dst good fits => ?_,
    fun s p f long => if_pos long, fun s p f fits good h => (ingressFrame_good fits good).trans (forwardFrame_local h),
    fun s p f u fits good dst up is => ?_, fun s p f fits bad => ?_⟩
  · subst is
    exact if_pos up
  · subst is
    obtain ⟨t, eq, spec⟩ := helloIn_upper (s := s) (Pz.payload m)
    exact ⟨t, (ropeHello_heard up whole sess ok).trans (congrArg Host.Outcome.next eq), spec⟩
  · subst is
    obtain ⟨t, eq, spec⟩ := helloIn_lower (s := s) (Pz.payload m)
    exact ⟨t, (ropeHello_heard up whole sess ok).trans (congrArg Host.Outcome.next eq), spec⟩
  · have kept := takeAddress_kept (posTaken 0 true s)
    have link := posTaken_link 0 true s
    refine ⟨_, rfl, ?_, ?_, fun known moved => ?_⟩
    · rw [setPos_eq, kept.pos, link]
    · rw [setPos_eq, kept.head, link]
    · obtain ⟨q, last⟩ := Option.isSome_iff_exists.mp known
      exact setPos_raised (posTaken_raised last fun zero => moved (last.trans (congrArg some zero)))
  · rcases h with h | h
    · simp [h]
    · simp [Nat.not_le.mpr h]
  · rcases h with h | h | ⟨h, early⟩
    · simp [h]
    · simp [h]
    · simp [h, Nat.not_le.mpr early]
  · refine ⟨_, exec_tailTimeout runs silent h, ?_⟩
    rw [updateSeg_link]
    exact ⟨rfl, rfl, rfl, rfl, updateSeg_within (modLink_within (.refl _ _) rfl) rfl⟩
  · rcases h with h | h <;> simp [h]
  · rcases h with h | h | h
    · simp [h]
    · simp [h]
    · simp [Nat.not_lt.mpr h]
  · rw [exec_frameIngress up]
    split
    next ep m kind =>
      refine congrArg Host.Outcome.next (if_neg ?_)
      rcases h with h | ⟨own, group⟩ | h | h
      · exact absurd kind (h ep m)
      · simp [own, group]
      · simp [h]
      · simp [Nat.not_le.mpr h]
    · rfl
  · rw [exec_frameIngress up, kind]
    refine congrArg Host.Outcome.next (if_pos ?_)
    rcases dst with h | h <;> simp [h, good, fits]
  · subst is
    exact (ingressFrame_good fits good).trans (forwardFrame_on dst up good)
  · refine ⟨_, rfl, ?_, ingressFrame_within (.refl _ _) rfl⟩
    rw [ingressFrame_bad fits bad, (forwardFrame_kept ..).fcs, getPort_modPort_self]

end Sys2Proof.Machine
end

section
/-!
Recipes: arming and GO (R145, R146), what the step engine stages (R148), pulse segments (R156), and the ends of TEMP_WAIT, of a top-off and
of a hold (R161, R171 to R174).
-/

namespace Sys2Proof.Machine

/-- Two branches that step are a step to the branch taken. -/
theorem next_ite {c d : Prop} [Decidable c] [Decidable d] (h : c ↔ d) (a b : State) :
    (if c then Host.Outcome.next a else .next b : Host.Outcome State Fault Refusal) = .next (if d then a else b) := by
  by_cases holds : d
  · rw [if_pos holds, if_pos (h.mpr holds)]
  · rw [if_neg holds, if_neg fun c => holds (h.mp c)]

section
variable {s : State} {k : Fin 128}

theorem getCh_modCh_at (f : Channel → Channel) (s : State) : (modCh k f s).getCh k = f (s.getCh k) := getCh_modCh_self k.isLt f s

/-! ### The gate -/

section
variable {p : Path} {addr : Nat} {f : State → State}

theorem chGate_no_path (off : s.mode.up = false) : chGate p k addr f s = s := regGate_of_no_path off _ _

theorem chGate_busy (up : s.mode.up = true) (busy : loaderBusy s = true) : chGate p k addr f s = raiseReg Cause.ldrBusy addr s :=
  regGate_of_busy up busy _ _

theorem chGate_passed (up : s.mode.up = true) (idle : loaderBusy s = false) (there : populated s k = true) : chGate p k addr f s = f s := by
  unfold chGate
  rw [regGate_of_path up idle]
  exact if_neg (by simp [there])

end

/-! ### Arming -/

/-- The channel before its switch is asked for. -/
def armPrepared (k r start : Nat) (timed : Bool) (s : State) : State :=
  modCh k (fun c => { c with
    st := .armed, eng := none, stage := none, cmds := [], nSup := c.nSup,
    rcp := { recipe := r, bound := true, step := start, start := start, timed := timed, accArm := (s.getFe k).acc, armed := true, ibEff := c.rcp.ibEff } })
    (modEst k (fun e => { e with fullAcc := none, capArm := none, dcirArm := none, ocvArm := none, kArm := none, tsSeen := false, gap := false }) s)

theorem arm_eq (k r start : Nat) (timed : Bool) (s : State) : arm k r start timed s = wantDisc k (armPrepared k r start timed s) := rfl

theorem wantDisc_other {j k : Nat} (other : j ≠ k) (s : State) : (wantDisc k s).getCh j = s.getCh j := by
  unfold wantDisc tryDisc
  dsimp only
  split
  · rw [getCh_modCh_other other, getCh_modCh_other other]
  · exact getCh_modCh_other other _ _

/-- What an accepted ARM says of its channel. -/
structure ArmedAs (r start : Nat) (timed go : Bool) (acc : Int) (c : Channel) : Prop where
  st : c.st = .armed
  recipe : c.rcp.recipe = r
  start : c.rcp.start = start
  timed : c.rcp.timed = timed
  go : c.rcp.go = go
  acc : c.rcp.accArm = acc
  want : c.discWant = true

theorem arm_self (r start : Nat) (timed : Bool) (s : State) : ArmedAs r start timed false (s.getFe k).acc ((arm k r start timed s).getCh k) ∧
    ((arm k r start timed s).getCh k).eng = none := by
  obtain ⟨a, b, c, want⟩ := wantDisc_self k.isLt (armPrepared k r start timed s)
  have prepared : (armPrepared k r start timed s).getCh k = _ := getCh_modCh_self k.isLt _ _
  rw [arm_eq, want, prepared]
  exact ⟨⟨rfl, rfl, rfl, rfl, rfl, rfl, rfl⟩, rfl⟩

theorem arm_other {j : Nat} (other : j ≠ k.val) (r start : Nat) (timed : Bool) (s : State) : (arm k r start timed s).getCh j = s.getCh j := by
  rw [arm_eq, wantDisc_other other]
  exact getCh_modCh_other other _ _

/-! ### Launching -/

theorem launchAct_eff (s : State) (k : Nat) (entry : Option Nat) : ∃ n, (launchAct s k entry).eff = .launch n entry :=
  ⟨(follow s k (boundRcp s k) (s.getCh k).rcp (s.getCh k).rcp.start).2.1, rfl⟩

theorem tryLaunch_may (may : mayLaunch s k = true) : tryLaunch k s = stageEng k (launchAct s k none) s := if_pos may

theorem tryLaunch_waits (waits : mayLaunch s k = false) : tryLaunch k s = s := if_neg (by rw [waits]; exact Bool.false_ne_true)

/-- A GO stands at the channel. -/
def goMarked (k : Nat) (s : State) : State := modCh k (fun c => { c with rcp := { c.rcp with go := true } }) s

theorem goReq_armed (armed : (s.getCh k).st = .armed) : goReq k s = tryLaunch k (goMarked k s) := if_pos armed

theorem goReq_refused (other : (s.getCh k).st ≠ .armed) : goReq k s = raise .fabric Cause.chCmdRefused k s := if_neg other

theorem goMarked_self : (goMarked k s).getCh k = { s.getCh k with rcp := { (s.getCh k).rcp with go := true } } := getCh_modCh_at _ _

theorem floorMet_goMarked : floorMet (goMarked k s) k = floorMet s k := by
  unfold floorMet
  rw [goMarked_self]
  rfl

theorem mayLaunch_goMarked (armed : (s.getCh k).st = .armed) : mayLaunch (goMarked k s) k =
    ((s.getCh k).drain.isNone && !(s.getCh k).suspect && floorMet s k && engFree (s.getCh k)) := by
  have free : engFree ((goMarked k s).getCh k) = engFree (s.getCh k) := by rw [goMarked_self]; rfl
  unfold mayLaunch
  rw [floorMet_goMarked]
  dsimp only
  rw [free, goMarked_self]
  simp [armed]

/-- A GO changes its channel's mark and what is staged for it. -/
theorem goReq_keeps (armed : (s.getCh k).st = .armed) : ∃ eng, (goReq k s).getCh k =
      { s.getCh k with rcp := { (s.getCh k).rcp with go := true }, eng := eng } ∧
    (∀ j, j ≠ k.val → (goReq k s).getCh j = s.getCh j) ∧ Within [.ch] s (goReq k s) ∧
    (mayLaunch (goMarked k s) k = false → eng = (s.getCh k).eng) ∧
    (mayLaunch (goMarked k s) k = true → eng = some (launchAct (goMarked k s) k none)) := by
  have marked : Within [.ch] s (goMarked k s) := modCh_within (.refl _ _) rfl
  cases may : mayLaunch (goMarked k s) k with
  | false =>
    rw [goReq_armed armed, tryLaunch_waits may]
    exact ⟨(s.getCh k).eng, goMarked_self, fun j other => getCh_modCh_other other _ _, marked, fun _ => rfl, fun h => by cases h⟩
  | true =>
    rw [goReq_armed armed, tryLaunch_may may]
    refine ⟨some (launchAct (goMarked k s) k none), ?_, fun j other => ?_, modCh_within marked rfl, fun h => (by cases h), fun _ => rfl⟩
    · unfold stageEng
      rw [getCh_modCh_at, goMarked_self]
    · exact (getCh_modCh_other other _ _).trans (getCh_modCh_other other _ _)

/-! ### CH_RCP_ARM -/

/-- What a write asks for, in its order: ARM, then GO. -/
def armAsked (k : Nat) (v : Word) (s : State) : State :=
  if v.toNat.testBit 16 then armReq k (field v 0 5) (field v 8 6) (v.toNat.testBit 18) s else s

section
variable {p : Path} {v : Word} (up : s.mode.up = true) (idle : loaderBusy s = false) (there : populated s k = true)
include up idle there

theorem exec_chRcpArm : exec (.chRcpArm p k v) s = .next (if v.toNat.testBit 17 then goReq k (armAsked k v s) else armAsked k v s) :=
  congrArg Host.Outcome.next (chGate_passed up idle there)

theorem exec_chRcpGo : exec (.chRcpGo p k) s = .next (goReq k s) := congrArg Host.Outcome.next (chGate_passed up idle there)

theorem chRcpArm_accepted (asked : v.toNat.testBit 16 = true) (ok : armOk s k (field v 0 5) (field v 8 6) = true) :
    ∃ t, exec (.chRcpArm p k v) s = .next t ∧ (t.getCh k).st = .armed ∧ (t.getCh k).rcp.recipe = field v 0 5 ∧
      (t.getCh k).rcp.start = field v 8 6 ∧ (t.getCh k).rcp.timed = v.toNat.testBit 18 ∧ (t.getCh k).rcp.go = v.toNat.testBit 17 ∧
      (t.getCh k).rcp.accArm = (s.getFe k).acc ∧ (t.getCh k).discWant = true ∧
      (v.toNat.testBit 17 = false → (t.getCh k).eng = none) ∧
      (∀ j, j ≠ k.val → t.getCh j = s.getCh j) ∧ Within [.ch, .est] s t := by
  obtain ⟨armed, clear⟩ := arm_self (k := k) (field v 0 5) (field v 8 6) (v.toNat.testBit 18) s
  have frame : Within [.ch, .est] s (arm k (field v 0 5) (field v 8 6) (v.toNat.testBit 18) s) := arm_within (.refl _ _) rfl
  have others := fun j (other : j ≠ k.val) => arm_other other (field v 0 5) (field v 8 6) (v.toNat.testBit 18) s
  have taken : armAsked k v s = arm k (field v 0 5) (field v 8 6) (v.toNat.testBit 18) s := (if_pos asked).trans (if_pos ok)
  refine ⟨_, exec_chRcpArm up idle there, ?_⟩
  rw [taken]
  generalize arm k (field v 0 5) (field v 8 6) (v.toNat.testBit 18) s = u at *
  cases go : v.toNat.testBit 17 with
  | false => exact ⟨armed.st, armed.recipe, armed.start, armed.timed, armed.go, armed.acc, armed.want, fun _ => clear, others, frame⟩
  | true =>
    obtain ⟨eng, own, rest, within_, -, -⟩ := goReq_keeps (k := k) armed.st
    rw [if_pos rfl, own]
    exact ⟨armed.st, armed.recipe, armed.start, armed.timed, rfl, armed.acc, armed.want, fun h => (by cases h),
      fun j other => (rest j other).trans (others j other), frame.andThen within_ rfl⟩

theorem chRcpArm_refused (asked : v.toNat.testBit 16 = true) (bad : armOk s k (field v 0 5) (field v 8 6) = false) :
    (v.toNat.testBit 17 = false → exec (.chRcpArm p k v) s = .next (raise .fabric Cause.chCmdRefused k s)) ∧
    (v.toNat.testBit 17 = true → exec (.chRcpArm p k v) s = exec (.chRcpGo p k) (raise .fabric Cause.chCmdRefused k s)) := by
  have refused : armAsked k v s = raise .fabric Cause.chCmdRefused k s := (if_pos asked).trans (if_neg (by rw [bad]; exact Bool.false_ne_true))
  rw [exec_chRcpArm up idle there, refused]
  refine ⟨fun alone => congrArg Host.Outcome.next (if_neg (by rw [alone]; exact Bool.false_ne_true)), fun go => ?_⟩
  exact (congrArg Host.Outcome.next (if_pos go)).trans
    (exec_chRcpGo (s := raise .fabric Cause.chCmdRefused k s) (k := k) (p := p) up idle there).symm

theorem chRcpArm_no_arm (alone : v.toNat.testBit 16 = false) :
    exec (.chRcpArm p k v) s = if v.toNat.testBit 17 = true then exec (.chRcpGo p k) s else .next s := by
  have same : armAsked k v s = s := if_neg (by rw [alone]; exact Bool.false_ne_true)
  rw [exec_chRcpArm up idle there, exec_chRcpGo up idle there, same]
  exact apply_ite Host.Outcome.next _ _ _

theorem chRcpGo_armed (armed : (s.getCh k).st = .armed) :
    ∃ t, exec (.chRcpGo p k) s = .next t ∧ (t.getCh k).rcp.go = true ∧ (t.getCh k).st = .armed ∧ (∀ j, j ≠ k.val → t.getCh j = s.getCh j) ∧
      Within [.ch] s t ∧
      (((s.getCh k).drain ≠ none ∨ (s.getCh k).suspect = true ∨ floorMet s k = false ∨ engFree (s.getCh k) = false) →
        (t.getCh k).eng = (s.getCh k).eng) ∧
      ((s.getCh k).drain = none → (s.getCh k).suspect = false → floorMet s k = true → engFree (s.getCh k) = true →
        ∃ a n, (t.getCh k).eng = some a ∧ a.eff = .launch n none) := by
  obtain ⟨eng, own, others, frame, waits, launches⟩ := goReq_keeps (k := k) armed
  have may := mayLaunch_goMarked (k := k) armed
  refine ⟨_, exec_chRcpGo up idle there, ?_⟩
  rw [own]
  refine ⟨rfl, armed, others, frame, fun stands => waits (may.trans ?_), fun drain suspect floor free => ?_⟩
  · rcases stands with h | h | h | h
    · cases drain : (s.getCh k).drain with
      | none => exact absurd drain h
      | some d => rfl
    · simp [h]
    · simp [h]
    · simp [h]
  · obtain ⟨n, eff⟩ := launchAct_eff (goMarked k s) k none
    exact ⟨_, n, launches (may.trans (by simp [drain, suspect, floor, free])), eff⟩

end

/-- ARM and GO pass the gate of their channel with effects of their own. -/
theorem exec_rcpCmd {p : Path} {v : Word} {c : Instr} (listed : c ∈ [Instr.chRcpArm p k v, .chRcpGo p k]) :
    ∃ f, ∀ s, exec c s = .next (chGate p k (Addr.ch k 0x100) f s) := by
  simp only [List.mem_cons, List.not_mem_nil, or_false] at listed
  rcases listed with rfl | rfl
  · exact ⟨_, fun _ => rfl⟩
  · exact ⟨goReq k, fun _ => rfl⟩

/-! ### The step engine -/

/-- A loop of turns that each change a channel of its list leaves the channels out of the list. -/
theorem getCh_loop_out {f : Nat → State → State} {j : Nat} (other : ∀ i t, j ≠ i → (f i t).getCh j = t.getCh j) {l : List Nat} (out : j ∉ l) (s : State) :
    (forEach l f s).getCh j = s.getCh j := by
  unfold forEach
  induction l generalizing s with
  | nil => rfl
  | cons i l ih =>
    rw [List.mem_cons, not_or] at out
    exact (ih out.2 (f i s)).trans (other i s out.1)

theorem mem_popOfGal {g : Fin 8} {j : Nat} : j ∈ popOfGal s g ↔ populated s j = true ∧ galOf j = g.val := by
  unfold popOfGal galOf
  simp only [List.mem_filter, List.mem_map, mem_upto_iff]
  constructor
  · rintro ⟨⟨i, small, rfl⟩, there⟩
    exact ⟨there, by omega⟩
  · rintro ⟨there, gal⟩
    exact ⟨⟨j % 16, by omega, by omega⟩, there⟩

theorem popOfGal_nodup (g : Fin 8) : (popOfGal s g).Nodup :=
  ((nodup_upto 16).map fun a b h => by simpa using h).filter _

/-- The evaluations of a gallery's channels are staged. -/
def evalsStaged (g : Nat) (s : State) : State := forEach (popOfGal s g) (fun k t => modCh k (fun c => { c with eng := evalCh s k }) t) s

theorem evalsStaged_in {g : Fin 8} {j : Nat} (small : j < 128) (there : populated s j = true) (gal : galOf j = g.val) :
    (evalsStaged g s).getCh j = { s.getCh j with eng := evalCh s j } :=
  getCh_loop (P := fun old new => new = { old with eng := evalCh s j }) (fun _ _ other => getCh_modCh_other other _ _)
    (fun t => getCh_modCh_self small _ t) (popOfGal_nodup g) (mem_popOfGal.mpr ⟨there, gal⟩) s

theorem evalsStaged_out {g : Fin 8} {j : Nat} (out : populated s j = false ∨ galOf j ≠ g.val) : (evalsStaged g s).getCh j = s.getCh j := by
  refine getCh_loop_out (fun _ _ other => getCh_modCh_other other _ _) (fun mem => ?_) s
  obtain ⟨there, gal⟩ := mem_popOfGal.mp mem
  rcases out with h | h
  · cases there.symm.trans h
  · exact h gal

theorem stepEngineEval_spec {g : Fin 8} {slack : Int} (on : stageOn s = true) :
    ∃ t, exec (.stepEngineEval g slack) s = .next t ∧ (t.getGal g).engCommit = some (s.tb.run + 1, slack) ∧
      (∀ k, k < 128 → populated s k = true → galOf k = g.val → t.getCh k = { s.getCh k with eng := evalCh s k }) ∧
      (∀ k, populated s k = false ∨ galOf k ≠ g.val → t.getCh k = s.getCh k) ∧ Within [.gal, .ch] s t := by
  have loop : Within [.ch] s (evalsStaged g s) := .forEach (fun _ _ => modCh_within (.refl _ _) rfl) (.refl _ _)
  refine ⟨modGal g (fun x => { x with engCommit := some (s.tb.run + 1, slack) }) (evalsStaged g s), if_neg (by simp [on]), ?_,
    fun j small there gal => evalsStaged_in small there gal, fun j out => evalsStaged_out out, modGal_within (loop.mono rfl) rfl⟩
  rw [getGal_modGal, if_pos ⟨rfl, g.isLt⟩]

/-! ### Pulse segments -/

section
variable {eff : EngEff} (is : eff = (match (s.getCh k).eng with | some a => a.eff | none => .stay))
include is

theorem exec_pulseSegment_idle (h : s.mode.up = false ∨ inStepType s k StepT.pulse = false ∨ (eff ≠ .stay ∧ eff ≠ .tempIn) ∨ (s.getCh k).suspect = true ∨
    (s.getCh k).drain ≠ none ∨ segAt (openStep s k) (stepTime s k (s.tb.run + 1)) ≤ (engRcp (s.getCh k)).seg) :
    exec (.pulseSegment k) s = .next s := by
  subst is
  refine if_neg ?_
  rcases h with h | h | h | h | h | h
  · simp [h]
  · simp [h]
  · obtain ⟨stay, temp⟩ := h
    intro all
    simp only [Bool.and_eq_true, Bool.or_eq_true, beq_iff_eq] at all
    obtain ⟨⟨⟨⟨_, own⟩, _⟩, _⟩, _⟩ := all
    rcases own with h | h
    · exact stay h
    · exact temp h
  · simp [h]
  · cases drain : (s.getCh k).drain with
    | none => exact absurd drain h
    | some d => simp
  · simp [Nat.not_lt.mpr h]

/-- What a pulse segment stages. -/
def segmentAct (k : Nat) (eff : EngEff) (s : State) : EngAct :=
  { eff := eff,
    rcp := { pulseCapture s k (openStep s k) (stepTime s k (s.tb.run + 1)) (engRcp (s.getCh k)) with
      seg := segAt (openStep s k) (stepTime s k (s.tb.run + 1)) },
    cmd := if stepTime s k (s.tb.run + 1) < pulseEnd (openStep s k) then
      some (pulseSp s k (openStep s k) (segAt (openStep s k) (stepTime s k (s.tb.run + 1)))) else none }

theorem exec_pulseSegment (up : s.mode.up = true) (pulse : inStepType s k StepT.pulse = true) (own : eff = .stay ∨ eff = .tempIn)
    (suspect : (s.getCh k).suspect = false) (drain : (s.getCh k).drain = none)
    (reached : (engRcp (s.getCh k)).seg < segAt (openStep s k) (stepTime s k (s.tb.run + 1))) :
    exec (.pulseSegment k) s = .next (stageEng k (segmentAct k eff s) s) := by
  subst is
  refine if_pos ?_
  simp only [up, pulse, suspect, drain, reached, Option.isNone_none, Bool.true_and, Bool.not_false, Bool.and_true, decide_true, Bool.or_eq_true, beq_iff_eq]
  exact own

end

/-! ### A top-off -/

theorem holdFree_topOff (free : holdFree s k = true) (mode : Hdr.holdMode (boundRcp s k) = 1) (recharge : 0 < Hdr.nRechg (boundRcp s k))
    (idle : (engRcp (s.getCh k)).topoff = false) (low : 8192 ≤ (engRcp (s.getCh k)).lowTk) :
    (holdFree s k && Hdr.holdMode (boundRcp s k) == 1 && decide (0 < Hdr.nRechg (boundRcp s k)) && !(engRcp (s.getCh k)).topoff
      && decide (8192 ≤ (engRcp (s.getCh k)).lowTk)) = true := by
  simp [free, mode, recharge, idle, low]

end

/-- Settles O31: each command stages for its channel alone, what its condition allows. -/
theorem recipesArmLaunchAndEnd : Obligations.RecipesArmLaunchAndEnd := by
  refine ⟨fun s p k v c listed => ?_, fun s p k v up idle there asked ok => chRcpArm_accepted up idle there asked ok,
    fun s p k v up idle there asked bad => chRcpArm_refused up idle there asked bad, fun s p k v up idle there alone => chRcpArm_no_arm up idle there alone,
    fun s p k up idle there armed => chRcpGo_armed up idle there armed,
    fun s p k up idle there other => (exec_chRcpGo up idle there).trans (congrArg Host.Outcome.next (goReq_refused other)),
    fun s k up may => ?_, fun s k h => ?_, fun s g slack on => stepEngineEval_spec on, fun s g slack off => if_pos (by simp [off]),
    fun s k eff is => ⟨exec_pulseSegment_idle is, fun up pulse own suspect drain reached => ?_⟩,
    fun s k => next_ite (by simp [and_assoc]) _ _, fun s k unmet => if_neg ?_, fun s k free mode idle low few => ?_,
    fun s k free mode idle low recharge many => (if_pos (holdFree_topOff free mode recharge idle low)).trans (if_pos many),
    fun s k => next_ite (by simp [and_assoc]) _ _, fun s k => next_ite (by simp [and_assoc]) _ _⟩
  · obtain ⟨f, is⟩ := exec_rcpCmd listed
    exact ⟨fun off => (is s).trans (congrArg Host.Outcome.next (chGate_no_path off)),
      fun up busy => (is s).trans (congrArg Host.Outcome.next (chGate_busy up busy)),
      fun up idle absent => (is s).trans (congrArg Host.Outcome.next (chGate_absent up idle absent))⟩
  · obtain ⟨n, eff⟩ := launchAct_eff s k none
    exact ⟨_, n, rfl, eff, congrArg Host.Outcome.next ((if_pos up).trans (tryLaunch_may may))⟩
  · refine congrArg Host.Outcome.next ?_
    cases up : s.mode.up with
    | false => rfl
    | true => exact (if_pos rfl).trans (tryLaunch_waits (h.resolve_left (by simp [up])))
  · refine ⟨_, segmentAct k eff s, exec_pulseSegment is up pulse own suspect drain reached, congrArg Channel.eng (getCh_modCh_at _ s), rfl, rfl,
      fun running => if_pos running, fun over_ => if_neg (Nat.not_lt.mpr over_), fun j other => getCh_modCh_other other _ _,
      modCh_within (.refl _ _) rfl⟩
  · intro all
    simp only [Bool.and_eq_true, beq_iff_eq, decide_eq_true_eq, Bool.not_eq_true'] at all
    obtain ⟨⟨⟨⟨free, mode⟩, recharge⟩, idle⟩, low⟩ := all
    exact unmet ⟨free, mode, recharge, idle, low⟩
  · refine ⟨_, _, (if_pos (holdFree_topOff free mode (Nat.zero_lt_of_lt few) idle low)).trans (if_neg (Nat.not_le.mpr few)),
      congrArg Channel.eng (getCh_modCh_at _ s), rfl, rfl, rfl, rfl, rfl, rfl, fun j other => getCh_modCh_other other _ _, modCh_within (.refl _ _) rfl⟩

end Sys2Proof.Machine
end

section
/-!
The ride-through sequencer (R232 to R236), the comparators and the source (R219, R221, R222), and the line inhibit (R220).
-/

namespace Sys2Proof.Machine

section
variable {s : State}

/-! ### What each entry leaves of the sump's own state -/

theorem setRide_sump (new : Ride) (s : State) : (setRide new s).sump = { s.sump with ride := new, moving := true } :=
  loopCh_sump (popAll s) (fun _ c => if c.psSump then { c with sumpStates := c.sumpStates ||| 2 ^ new.ctorIdx } else c)
    (modSump (fun x => { x with ride := new, moving := true }) s)

theorem stopLending_sump (s : State) :
    (stopLending s).sump = { s.sump with stage := s.sump.stage.map fun a => { a with lends := [] } } :=
  loopCh_sump (popAll s) (fun _ c => { c with lend := 0 }) (modSump (fun x => { x with stage := x.stage.map fun a => { a with lends := [] } }) s)

theorem newPeriod_sump (all : Bool) (s : State) : (newPeriod all s).sump = s.sump :=
  newPeriod_within (Within.refl [.ch] s) rfl .sump (by decide)

theorem sumpPauses_sump (s : State) : (sumpPauses s).sump = s.sump := sumpPauses_within (Within.refl [.ch, .fab] s) rfl .sump (by decide)

theorem stagePlan_sump (s : State) : ∃ a b, (stagePlan s).sump = { s.sump with stage := a, planDue := b, due := false } := by
  unfold stagePlan
  split
  · exact ⟨_, _, rfl⟩
  · exact ⟨_, _, rfl⟩

/-- EXPIRE is entered, before the channels it paused drain. -/
def expireEntered (s : State) : State := setRide .expire (modSump (fun x => { x with nExp := incSat 8 x.nExp }) s)

theorem expireAll_sump (s : State) : (expireAll s).sump = { s.sump with ride := .expire, moving := true, nExp := incSat 8 s.sump.nExp } := by
  have loop : ∀ u v : State, Within [.ch, .fab] v (forEach (popAll u) (fun k t =>
      if (t.getCh k).psSump && sumpActs (t.getCh k) then clearSump k 1 (drainCh k .recipe Cause.sumpExpired t) else t) v) := fun u v =>
    .forEach (fun _ _ => .ite (clearSump_within (drainCh_within (.refl _ _) rfl) rfl) (.refl _ _)) (.refl _ _)
  have entered : (expireEntered s).sump = { s.sump with ride := .expire, moving := true, nExp := incSat 8 s.sump.nExp } := setRide_sump ..
  refine Eq.trans ?_ entered
  unfold expireAll
  dsimp only
  split
  · exact loop _ _ .sump (by decide)
  · rfl

/-- Every channel pauses and lenders stop. -/
def paused (new : Ride) (s : State) : State := sumpPauses (stopLending (setRide new s))

theorem paused_sump (new : Ride) (s : State) :
    (paused new s).sump = { s.sump with ride := new, moving := true, stage := s.sump.stage.map fun a => { a with lends := [] } } := by
  unfold paused
  rw [sumpPauses_sump, stopLending_sump, setRide_sump]

theorem rideDone_paused (new : Ride) (s : State) : rideDone (paused new s) = rideDone s := by
  have frame : Within [.ch, .sump, .fab] s (paused new s) := sumpPauses_within (stopLending_within (setRide_within (.refl _ _) rfl) rfl) rfl
  unfold rideDone Sump.tRideMs cfgF cfgW
  rw [paused_sump, frame .regs (by decide), frame .tb (by decide)]

theorem enterPause_pause : (enterPause .pause s).sump.ride = .pause ∧ (enterPause .pause s).sump.moving = true := by
  have is : enterPause .pause s = if Ride.pause = .hold ∧ rideDone (paused .pause s) = true then expireAll (paused .pause s) else paused .pause s := rfl
  rw [if_neg (by simp)] at is
  rw [is, paused_sump]
  exact ⟨rfl, rfl⟩

theorem enterPause_hold : (enterPause .hold s).sump.ride = (if rideDone s = true then .expire else .hold) ∧
    (enterPause .hold s).sump.moving = true := by
  have is : enterPause .hold s = if Ride.hold = .hold ∧ rideDone (paused .hold s) = true then expireAll (paused .hold s) else paused .hold s := rfl
  rw [is, rideDone_paused]
  cases rideDone s with
  | true =>
    rw [if_pos ⟨rfl, rfl⟩, expireAll_sump]
    exact ⟨rfl, rfl⟩
  | false =>
    rw [if_neg (by simp), paused_sump]
    exact ⟨rfl, rfl⟩

/-- A loss may be lent over. -/
def mayLend (s : State) : Bool := Sump.lendEn s && !s.sump.inh && !(lenders s).isEmpty && stageOn s

theorem enterLoss_sump : (enterLoss s).sump.moving = true ∧ (enterLoss s).sump.ride = if mayLend s = true then .lend else .pause := by
  cases may : mayLend s with
  | true =>
    have is : enterLoss s = stagePlan (newPeriod false (setRide .lend s)) := if_pos may
    obtain ⟨a, b, sump⟩ := stagePlan_sump (newPeriod false (setRide .lend s))
    rw [is, sump, newPeriod_sump, setRide_sump]
    exact ⟨rfl, rfl⟩
  | false =>
    have is : enterLoss s = enterPause .pause s := if_neg fun lends => Bool.false_ne_true (may.symm.trans lends)
    rw [is]
    exact ⟨enterPause_pause.2, enterPause_pause.1⟩

theorem enterDroop_sump (lost : Bool) : (enterDroop lost s).sump.ride = .droop ∧ (enterDroop lost s).sump.moving = true ∧
    (enterDroop lost s).sump.nDroop = incSat 8 s.sump.nDroop ∧
    (enterDroop lost s).sump.waiting = if lost then s.sump.waiting ++ [.lost] else s.sump.waiting := by
  unfold enterDroop
  dsimp only
  obtain ⟨a, b, sump⟩ := stagePlan_sump (stopLending (setRide .droop (modSump (fun x => { x with
    nDroop := incSat 8 x.nDroop, droopTk := s.tb.run, blocked := stageOn s, waiting := if lost then x.waiting ++ [.lost] else x.waiting }) s)))
  rw [sump, stopLending_sump, setRide_sump]
  exact ⟨rfl, rfl, rfl, rfl⟩

theorem enterReturn_sump : (enterReturn s).sump = { s.sump with ride := .ret, moving := true, retFrom := s.sump.ride, retOkTk := s.tb.run } :=
  setRide_sump ..

theorem enterNormal_sump : (enterNormal s).sump.ride = .normal ∧ (enterNormal s).sump.loss = false ∧ (enterNormal s).sump.rideFrom = none := by
  unfold enterNormal
  rw [newPeriod_sump, setRide_sump]
  exact ⟨rfl, rfl, rfl⟩

theorem startClear_sump : (startClear s).sump.ride = s.sump.ride ∧ (startClear s).sump.loss = s.sump.loss := by
  unfold startClear
  split <;> exact ⟨rfl, rfl⟩

/-! ### The table -/

theorem rideEvent_moving {e : RideEv} (moving : s.sump.moving = true) : rideEvent e s =
    { s with sump := { s.sump with waiting := if s.sump.waiting.contains e then s.sump.waiting else s.sump.waiting ++ [e] } } := if_pos moving

theorem rideEvent_still {e : RideEv} (still : s.sump.moving = false) : rideEvent e s = rideStep e s :=
  if_neg (by rw [still]; exact Bool.false_ne_true)

theorem rideStep_back (h : s.sump.feOk = true) (from_ : s.sump.ride = .lend ∨ s.sump.ride = .pause ∨ s.sump.ride = .hold ∨ s.sump.ride = .expire ∨
    s.sump.ride = .droop ∧ s.sump.loss = true) : rideStep .back s = enterReturn s := by
  unfold rideStep
  rcases from_ with ride | ride | ride | ride | ⟨ride, loss⟩
  · simp only [ride, h, if_true]
  · simp only [ride, h, if_true]
  · simp only [ride, h, if_true]
  · simp only [ride, h, if_true]
  · simp only [ride, h, loss, Bool.and_self, if_true]

theorem rideStep_back_idle (h : s.sump.feOk = false ∨ s.sump.ride = .normal ∨ s.sump.ride = .ret ∨ s.sump.ride = .droop ∧ s.sump.loss = false) :
    rideStep .back s = s := by
  unfold rideStep
  rcases h with off | ride | ride | ⟨ride, loss⟩
  · cases ride : s.sump.ride <;> simp only [off, Bool.and_false, Bool.false_eq_true, if_false]
  · simp only [ride]
  · simp only [ride]
  · simp only [ride, loss, Bool.false_and, Bool.false_eq_true, if_false]

/-- Every other pair of state and event changes nothing. -/
theorem rideStep_idle {e : RideEv} (h : e = .back ∧ (s.sump.feOk = false ∨ s.sump.ride = .normal ∨ s.sump.ride = .ret ∨ s.sump.ride = .droop ∧ s.sump.loss = false) ∨
    e = .lost ∧ (s.sump.ride = .lend ∨ s.sump.ride = .pause ∨ s.sump.ride = .hold ∨ s.sump.ride = .expire) ∨
    e = .droop ∧ s.sump.ride ≠ .normal ∨ (e = .droopTo ∨ e = .recovered) ∧ s.sump.ride ≠ .droop ∨ e = .quiescent ∧ s.sump.ride ≠ .pause ∨
    e = .returned ∧ s.sump.ride ≠ .ret ∨ e = .rideTo ∧ s.sump.ride ≠ .lend ∧ s.sump.ride ≠ .hold) : rideStep e s = s := by
  rcases h with ⟨rfl, idle⟩ | ⟨rfl, idle⟩ | ⟨rfl, other⟩ | ⟨rfl | rfl, other⟩ | ⟨rfl, other⟩ | ⟨rfl, other⟩ | ⟨rfl, lend, hold⟩
  · exact rideStep_back_idle idle
  · unfold rideStep
    rcases idle with ride | ride | ride | ride <;> simp only [ride]
  all_goals
    unfold rideStep
    cases ride : s.sump.ride <;> simp_all only [ne_eq, not_true_eq_false]

/-! ### Losses -/

/-- The loss of the source is noted. -/
def sourceLost (s : State) : State := noteLoss true (raise .timebase Cause.sumpFeLost 0xFF (modSump (fun x => { x with feOk := false }) s))

/-- An allocation in progress is discarded. -/
def planDiscarded (s : State) : State :=
  if s.sump.ride = .droop then stagePlan s
  else if s.sump.ride = .normal then modSump (fun x => { x with stage := none, planDue := false, due := false }) s else s

theorem exec_sumpFeLost (up : s.mode.up = true) (fresh : s.sump.feOk = true ∨ s.sump.loss = false) :
    exec .sumpFeLost s = .next (rideEvent .lost (planDiscarded (sourceLost s))) := by
  refine if_pos ?_
  rcases fresh with h | h <;> simp [up, h]

theorem sourceLost_sump (s : State) : (sourceLost s).sump = { s.sump with
    feOk := false, loss := true, nLoss := if s.sump.rideFrom.isNone then incSat 8 s.sump.nLoss else s.sump.nLoss,
    rideFrom := if s.sump.rideFrom.isNone then some s.tb.run else s.sump.rideFrom } := by
  have noted : (sourceLost s).sump = { s.sump with
    feOk := false, loss := s.sump.loss || true, nLoss := if s.sump.rideFrom.isNone then incSat 8 s.sump.nLoss else s.sump.nLoss,
    rideFrom := if s.sump.rideFrom.isNone then some s.tb.run else s.sump.rideFrom } := rfl
  rw [noted, Bool.or_true]

theorem planDiscarded_sump (s : State) : ∃ a b c, (planDiscarded s).sump = { s.sump with stage := a, planDue := b, due := c } := by
  unfold planDiscarded
  split
  · obtain ⟨a, b, sump⟩ := stagePlan_sump s
    exact ⟨a, b, false, sump⟩
  · split
    · exact ⟨_, _, _, rfl⟩
    · exact ⟨_, _, _, rfl⟩

theorem planDiscarded_within (s : State) : Within [.sump] s (planDiscarded s) := by
  unfold planDiscarded
  exact .ite (stagePlan_within (.refl _ _) rfl) (.ite (modSump_within (.refl _ _) rfl) (.refl _ _))

theorem sumpFeLost_spec (up : s.mode.up = true) (fresh : s.sump.feOk = true ∨ s.sump.loss = false) :
    ∃ u, exec .sumpFeLost s = .next (rideEvent .lost u) ∧ u.sump.feOk = false ∧ u.sump.loss = true ∧ u.sump.ride = s.sump.ride ∧
      u.sump.moving = s.sump.moving ∧ u.sump.nLoss = (if s.sump.rideFrom = none then incSat 8 s.sump.nLoss else s.sump.nLoss) ∧
      u.sump.rideFrom = some (s.sump.rideFrom.getD s.tb.run) ∧ (∃ x ∈ u.fab.events, x.cause = Cause.sumpFeLost) ∧ Within [.sump, .fab] s u := by
  obtain ⟨a, b, c, plan⟩ := planDiscarded_sump (sourceLost s)
  refine ⟨_, exec_sumpFeLost up fresh, ?_⟩
  have lost : Raised Cause.sumpFeLost (sourceLost s) := raised_raise ..
  have frame : Within [.sump, .fab] s (planDiscarded (sourceLost s)) :=
    (((modSump_within (raise_within (modSump_within (.refl _ _) rfl) rfl) rfl : Within [.sump, .fab] s (sourceLost s))).andThen (planDiscarded_within _) rfl)
  have raised := lost.of_fab (planDiscarded_within (sourceLost s) .fab (by decide))
  rw [plan, sourceLost_sump]
  refine ⟨rfl, rfl, rfl, rfl, ?_, ?_, raised, frame⟩
  · cases s.sump.rideFrom <;> rfl
  · cases s.sump.rideFrom <;> rfl

/-! ### Comparators -/

/-- A discharging on-time ends. -/
def dischargeEnds (p : Phase) : Phase := if p.onTime && p.dir then { p with onTime := false, pwm := offLevel true } else p

/-- The overvoltage is noted and raised. -/
def overvolted (s : State) : State := raise .timebase Cause.sumpOv 0xFF (modSump (fun x => { x with cmpOv := true }) s)

theorem exec_sumpOv (up : s.mode.up = true) (fresh : s.sump.cmpOv = false) :
    exec .sumpOv s = .next (forEach (upto 128) (modPh · dischargeEnds) (overvolted s)) := if_pos (by simp [up, fresh])

theorem sumpOv_spec (up : s.mode.up = true) (fresh : s.sump.cmpOv = false) :
    ∃ t, exec .sumpOv s = .next t ∧ t.sump.cmpOv = true ∧ (∃ x ∈ t.fab.events, x.cause = Cause.sumpOv) ∧
      (∀ n, n < 128 → (s.getPh n).onTime = true → (s.getPh n).dir = true → (t.getPh n).onTime = false ∧ (t.getPh n).pwm = .high) ∧
      (∀ n, ((s.getPh n).dir = false ∨ (s.getPh n).onTime = false) → t.getPh n = s.getPh n) ∧ Within [.sump, .ph, .fab] s t := by
  have loop : Within [.ph] (overvolted s) (forEach (upto 128) (modPh · dischargeEnds) (overvolted s)) :=
    .forEach (fun _ _ => modPh_within (.refl _ _) rfl) (.refl _ _)
  have noted : Within [.sump, .ph, .fab] s (overvolted s) := raise_within (modSump_within (.refl _ _) rfl) rfl
  have phase : ∀ n, (overvolted s).getPh n = s.getPh n := fun n => getPh_of_ph ((raise_within (modSump_within (.refl _ _) rfl) rfl : Within [.sump, .fab] s (overvolted s)) .ph (by decide)) n
  refine ⟨_, exec_sumpOv up fresh, ?_, ?_, fun n small on dis => ?_, fun n off => ?_, noted.andThen loop rfl⟩
  · rw [loop .sump (by decide)]
    rfl
  · exact Raised.of_fab (raised_raise ..) (loop .fab (by decide))
  · rw [getPh_forEach _ (nodup_upto 128), if_pos ⟨mem_upto small, small⟩, phase]
    unfold dischargeEnds
    rw [on, dis]
    exact ⟨rfl, rfl⟩
  · rw [getPh_forEach _ (nodup_upto 128), phase]
    have same : dischargeEnds (s.getPh n) = s.getPh n := if_neg (by rcases off with h | h <;> simp [h])
    rw [same, ite_self]

/-! ### The clearing of pauses -/

/-- Two loops whose turns agree where an invariant of theirs holds are the same. -/
theorem forEach_congr_of {I : State → Prop} {f g : Nat → State → State} (keeps : ∀ i t, I t → I (g i t)) (same : ∀ i t, I t → f i t = g i t)
    (l : List Nat) {s : State} (h : I s) : forEach l f s = forEach l g s := by
  unfold forEach
  induction l generalizing s with
  | nil => rfl
  | cons i l ih =>
    rw [List.foldl_cons, List.foldl_cons, same i s h]
    exact ih (keeps i s h)

theorem prio_of_regs {t : State} (same : t.regs = s.regs) (k : Nat) : Sump.prio t k = Sump.prio s k := by
  unfold Sump.prio cfgF cfgW
  rw [same]

/-- The pauses of a class clear. -/
def classCleared (c : Nat) (s : State) : State := forEach (popAll s) (fun k t => if Sump.prio s k = c then clearSump k 0 t else t) s

theorem exec_pauseClassClear {c from_ : Nat} (up : s.mode.up = true) (next_ : s.sump.clrCls = some (c, from_)) (later : from_ < s.tb.run)
    (tick : s.tb.run % 8 = 0) (free : s.sump.inhPause = false) (out : pauseState s = false) : exec .pauseClassClear s =
    .next (modSump (fun x => { x with clrCls := if c < 3 then some (c + 1, s.tb.run) else none }) (classCleared c s)) := by
  have same : forEach (popAll s) (fun k t => if Sump.prio t k = c then clearSump k 0 t else t) s = classCleared c s :=
    forEach_congr_of (I := fun t => t.regs = s.regs)
      (fun i t regs => ((.ite (clearSump_within (.refl _ _) rfl) (.refl _ _) : Within [.ch, .fab] t _) .regs (by decide)).trans regs)
      (fun i t regs => by rw [prio_of_regs regs]) _ rfl
  change execPauseClassClear s = _
  unfold execPauseClassClear
  rw [next_]
  refine (if_pos (by simp [up, later, tick, free, out])).trans ?_
  dsimp only
  rw [same]

theorem clearSump_psSump {k how : Nat} (small : k < 128) (s : State) : ((clearSump k how s).getCh k).psSump = false := by
  unfold clearSump
  extract_lets c tk
  split
  next idle => simpa using idle
  · rw [getCh_of_ch (raiseSrc_ch ..), getCh_modCh_self small]

theorem classTurn_other {c i j : Nat} (other : j ≠ i) (t : State) :
    (if Sump.prio s i = c then clearSump i 0 t else t).getCh j = t.getCh j := by
  split
  · exact clearSump_other other t
  · rfl

theorem classCleared_in {c k : Nat} (small : k < 128) (there : populated s k = true) (own : Sump.prio s k = c) :
    ((classCleared c s).getCh k).psSump = false :=
  getCh_loop (P := fun _ new => new.psSump = false) (f := fun i t => if Sump.prio s i = c then clearSump i 0 t else t)
    (fun _ t other => classTurn_other other t) (fun t => by rw [if_pos own]; exact clearSump_psSump small t) (nodup_popAll s)
    (mem_popAll.mpr ⟨small, there⟩) s

theorem classCleared_out {c k : Nat} (out : populated s k = false ∨ Sump.prio s k ≠ c) : (classCleared c s).getCh k = s.getCh k := by
  by_cases mem : k ∈ popAll s
  · obtain ⟨-, there⟩ := mem_popAll.mp mem
    have other := out.resolve_left (by simp [there])
    exact getCh_loop (P := fun old new => new = old) (f := fun i t => if Sump.prio s i = c then clearSump i 0 t else t)
      (fun _ t apart => classTurn_other apart t) (fun t => by rw [if_neg other]) (nodup_popAll s) mem s
  · exact getCh_loop_out (fun _ t apart => classTurn_other apart t) mem s

/-! ### The inhibit -/

/-- An inhibit begins: its event, the pauses, and the end of lending. -/
def inhibitBegins (s : State) : State :=
  sumpPauses (stopLending (raise .timebase Cause.sumpInhibit 0xFF (modSump (fun x => { x with inh := true, inhPause := true, clrCls := none }) s)))

theorem inhUpdate_begins (asked : (s.sump.inhPin && Sump.inhPinEn s || s.sump.inhTold) = true) (idle : s.sump.inh = false) :
    inhUpdate s = inhibitBegins s := if_pos (by simp [asked, idle])

theorem inhUpdate_same (same : (s.sump.inhPin && Sump.inhPinEn s || s.sump.inhTold) = s.sump.inh) : inhUpdate s = s := by
  refine (if_neg ?_).trans (if_neg ?_)
  · simp [same]
  · simp [same]

theorem inhUpdate_ends (free : (s.sump.inhPin && Sump.inhPinEn s || s.sump.inhTold) = false) (on : s.sump.inh = true) :
    inhUpdate s = modSump (fun x => { x with inh := false, inhClrTk := s.tb.run }) s := by
  refine (if_neg ?_).trans (if_pos ?_)
  · simp [free]
  · simp [free, on]

theorem inhibitBegins_sump (s : State) : (inhibitBegins s).sump.inh = true ∧ (inhibitBegins s).sump.inhPin = s.sump.inhPin ∧
    (inhibitBegins s).sump.inhPause = true ∧ (inhibitBegins s).sump.clrCls = none := by
  unfold inhibitBegins
  rw [sumpPauses_sump, stopLending_sump, raise_sump]
  exact ⟨rfl, rfl, rfl, rfl⟩

theorem inhibitBegins_raised (s : State) : Raised Cause.sumpInhibit (inhibitBegins s) :=
  (Raised.of_fab (raised_raise ..) ((stopLending_within (Within.refl _ _) rfl : Within [.ch, .sump] _ _) .fab (by decide))).grows
    (sumpPauses_grows (Grows.refl _))

/-! ### The commands with a wait of their own -/

theorem exec_droopTimeout {long late : Bool}
    (isLong : long = (s.sump.cmpDroop && match s.sump.droopFrom with | some t => decide (t + floorTk (Sump.tDroopMs s) ≤ s.tb.run) | none => false))
    (isLate : late = (s.sump.ride == .droop && !s.sump.loss && decide (s.sump.droopTk + floorTk (Sump.tDroopMs s) ≤ s.tb.run))) :
    exec .droopTimeout s = .next (if s.mode.up = true ∧ (long = true ∨ late = true) then rideEvent .droopTo (noteLoss long s) else s) := by
  have same : long = (match s.sump.droopFrom with
      | some t => s.sump.cmpDroop && decide (t + floorTk (Sump.tDroopMs s) ≤ s.tb.run)
      | none => false) := by
    rw [isLong]
    cases s.sump.droopFrom with
    | none => exact Bool.and_false _
    | some t => rfl
  have is : exec .droopTimeout s = if s.mode.up && ((match s.sump.droopFrom with
      | some t => s.sump.cmpDroop && decide (t + floorTk (Sump.tDroopMs s) ≤ s.tb.run)
      | none => false) || (s.sump.ride == .droop && !s.sump.loss && decide (s.sump.droopTk + floorTk (Sump.tDroopMs s) ≤ s.tb.run))) then
      .next (rideEvent .droopTo (noteLoss (match s.sump.droopFrom with
        | some t => s.sump.cmpDroop && decide (t + floorTk (Sump.tDroopMs s) ≤ s.tb.run)
        | none => false) s)) else .next s := rfl
  rw [is, ← same, ← isLate]
  exact next_ite (by simp) _ _

theorem exec_droopRecovered : exec .droopRecovered s = .next (if s.mode.up = true ∧ s.sump.cmpDroop = false ∧ busOk s = true ∧ s.sump.ride = .droop ∧
    (∃ t, s.sump.busOkFrom = some t ∧ t + 8 ≤ s.tb.run) then rideEvent .recovered s else s) := by
  change execDroopRecovered s = _
  unfold execDroopRecovered
  cases good : s.sump.busOkFrom with
  | none => exact congrArg Host.Outcome.next (if_neg (by simp)).symm
  | some t =>
    refine congrArg Host.Outcome.next (if_congr ?_ rfl rfl)
    simp only [Bool.and_eq_true, Bool.not_eq_true', decide_eq_true_eq, beq_iff_eq, Option.some.injEq, exists_eq_left']
    tauto

theorem exec_pauseClassClear_idle (h : s.sump.clrCls = none ∨ s.mode.up = false ∨ s.tb.run % 8 ≠ 0 ∨ s.sump.inhPause = true ∨ pauseState s = true ∨
    ∃ c f, s.sump.clrCls = some (c, f) ∧ s.tb.run ≤ f) : exec .pauseClassClear s = .next s := by
  change execPauseClassClear s = _
  unfold execPauseClassClear
  cases next_ : s.sump.clrCls with
  | none => rfl
  | some x =>
    obtain ⟨c, f⟩ := x
    refine if_neg ?_
    rcases h with h | h | h | h | h | ⟨c', f', is, early⟩
    · cases next_.symm.trans h
    · simp [h]
    · simp [h]
    · simp [h]
    · simp [h]
    · cases next_.symm.trans is
      simp [Nat.not_lt.mpr early]

/-- One event in a state without a transition, state by state. -/
theorem rideStep_spec (e : RideEv) :
    (s.sump.ride = .normal → (e = .lost ∨ e = .droop) → (rideStep e s).sump.ride = .droop ∧ (rideStep e s).sump.moving = true ∧
      (rideStep e s).sump.nDroop = incSat 8 s.sump.nDroop ∧
      (rideStep e s).sump.waiting = (if e = .lost then s.sump.waiting ++ [.lost] else s.sump.waiting)) ∧
    (s.sump.ride = .droop → (e = .lost ∨ e = .droopTo) → (rideStep e s).sump.moving = true ∧
      (rideStep e s).sump.ride = (if mayLend s = true then .lend else .pause)) ∧
    (s.sump.ride = .droop → e = .recovered → s.sump.loss = false → (rideStep e s).sump.ride = .normal ∧ (rideStep e s).sump.rideFrom = none) ∧
    (s.sump.ride = .droop → e = .recovered → s.sump.loss = true → rideStep e s = s) ∧
    (s.sump.ride = .lend → e = .rideTo → (rideStep e s).sump.ride = .pause ∧ (rideStep e s).sump.moving = true) ∧
    ((s.sump.ride = .pause ∧ e = .quiescent ∨ s.sump.ride = .ret ∧ e = .lost) → (rideStep e s).sump.moving = true ∧
      (rideStep e s).sump.ride = (if rideDone s = true then .expire else .hold)) ∧
    (s.sump.ride = .hold → e = .rideTo → (rideStep e s).sump.ride = .expire ∧ (rideStep e s).sump.nExp = incSat 8 s.sump.nExp) ∧
    (s.sump.ride = .ret → e = .returned → (rideStep e s).sump.ride = .normal ∧ (rideStep e s).sump.loss = false ∧
      Raised Cause.sumpReturned (rideStep e s)) := by
  refine ⟨fun ride is => ?_, fun ride is => ?_, fun ride is loss => ?_, fun ride is loss => ?_, fun ride is => ?_, fun is => ?_, fun ride is => ?_,
    fun ride is => ?_⟩
  · rcases is with rfl | rfl
    · have step : rideStep .lost s = enterDroop true s := by unfold rideStep; simp only [ride]
      rw [step]
      exact enterDroop_sump true
    · have step : rideStep .droop s = enterDroop false s := by unfold rideStep; simp only [ride]
      rw [step]
      exact enterDroop_sump false
  · have step : rideStep e s = enterLoss s := by
      rcases is with rfl | rfl <;> (unfold rideStep; simp only [ride])
    rw [step]
    exact enterLoss_sump
  · subst is
    have step : rideStep .recovered s = enterNormal s := by unfold rideStep; simp only [ride, loss, Bool.false_eq_true, if_false]
    rw [step]
    exact ⟨enterNormal_sump.1, enterNormal_sump.2.2⟩
  · subst is
    unfold rideStep
    simp only [ride, loss, if_true]
  · subst is
    have step : rideStep .rideTo s = enterPause .pause s := by unfold rideStep; simp only [ride]
    rw [step]
    exact enterPause_pause
  · have step : rideStep e s = enterPause .hold s := by
      rcases is with ⟨ride, rfl⟩ | ⟨ride, rfl⟩ <;> (unfold rideStep; simp only [ride])
    rw [step]
    exact ⟨enterPause_hold.2, enterPause_hold.1⟩
  · subst is
    have step : rideStep .rideTo s = expireAll s := by unfold rideStep; simp only [ride]
    rw [step, expireAll_sump]
    exact ⟨rfl, rfl⟩
  · subst is
    have step : rideStep .returned s = raise .timebase Cause.sumpReturned 0xFF (startClear (enterNormal s)) := by
      unfold rideStep; simp only [ride]
    obtain ⟨normal, loss, -⟩ := enterNormal_sump (s := s)
    rw [step, raise_sump, startClear_sump.1, startClear_sump.2]
    exact ⟨normal, loss, raised_raise ..⟩

end

/-- Settles O34: the table state by state, and each event by when it acts and what it notes first. -/
theorem rideThroughMoves : Obligations.RideThroughMoves := by
  refine ⟨fun s e moving => rideEvent_moving moving, fun s e still => ?_, fun s h => if_neg ?_, fun s up fresh => sumpFeLost_spec up fresh,
    fun s h => if_neg (by rcases h with h | h <;> simp [h]), fun s u up lost is => ?_,
    fun s h => if_neg (by rcases h with h | h <;> simp [h]), fun s up fresh => if_pos (by simp [up, fresh]),
    fun s off => if_neg (by simp [off]), fun s u on is => ?_, fun s h => if_neg (by rcases h with h | h <;> simp [h]),
    fun s up fresh => sumpOv_spec up fresh, fun s => rfl, fun s long late isLong isLate => exec_droopTimeout isLong isLate,
    fun s => exec_droopRecovered, fun s => congrArg Host.Outcome.next (if_congr (by simp [and_assoc]) rfl rfl),
    fun s => congrArg Host.Outcome.next (if_congr (by simp) rfl rfl), fun s => congrArg Host.Outcome.next (if_congr (by simp [and_assoc]) rfl rfl),
    fun s h => if_neg (by rcases h with h | h | h <;> simp [h]), fun s up moving done => if_pos (by simp [up, moving, done]),
    fun s h => exec_pauseClassClear_idle h, fun s c f up next_ later tick free out => ?_, fun s off => ⟨?_, if_pos (by simp [off])⟩,
    fun s up idle enabled => ?_, fun s up h => ?_, fun s up pin on told => ?_, fun s up pin same => ?_, fun s up pin => ?_⟩
  · obtain ⟨normal, loss, recovered, stays, lend, hold, expire, returned⟩ := rideStep_spec (s := s) e
    refine ⟨_, rideEvent_still still, normal, loss, recovered, stays, lend, hold, expire, returned, fun is ok from_ => ?_, fun h => rideStep_idle h⟩
    rw [is, rideStep_back ok from_, enterReturn_sump]
    exact ⟨rfl, rfl, rfl, rfl⟩
  · rcases h with h | ⟨off, loss⟩
    · simp [h]
    · simp [off, loss]
  · subst is
    exact if_pos (by simp [up, lost])
  · subst is
    exact if_pos on
  · exact ⟨_, exec_pauseClassClear up next_ later tick free out, rfl, fun k small there own => classCleared_in small there own,
      fun k out => classCleared_out out⟩
  · exact congrArg Host.Outcome.next (if_neg (by rw [off]; exact Bool.false_ne_true))
  · obtain ⟨inh, pin, pause, clear⟩ := inhibitBegins_sump (modSump (fun x => { x with inhPin := true }) s)
    have begins := inhUpdate_begins (s := modSump (fun x => { x with inhPin := true }) s) (Bool.or_eq_true_iff.mpr (.inl enabled)) idle
    exact ⟨_, congrArg Host.Outcome.next ((if_pos up).trans begins), inh, pin, pause, clear, inhibitBegins_raised _⟩
  · refine congrArg Host.Outcome.next ((if_pos up).trans (inhUpdate_same (s := modSump (fun x => { x with inhPin := true }) s) ?_))
    rcases h with ⟨off, same⟩ | ⟨on, inh⟩
    · exact (congrArg (true && · || s.sump.inhTold) off).trans same.symm
    · exact (congrArg (true && · || s.sump.inhTold) on).trans inh.symm
  · exact (if_neg (by simp [up])).trans ((if_pos pin).trans (congrArg Host.Outcome.next
      (inhUpdate_ends (s := modSump (fun x => { x with inhPin := false }) s) told on)))
  · exact (if_neg (by simp [up])).trans ((if_pos pin).trans (congrArg Host.Outcome.next
      (inhUpdate_same (s := modSump (fun x => { x with inhPin := false }) s) same.symm)))
  · exact (if_neg (by simp [up])).trans ((if_neg (by simp [pin])).trans (next_ite (by simp [and_assoc]) _ _))

end Sys2Proof.Machine
end

section
/-!
The IEEE 1588 slave: Sync and its servo (R246), the states of the timebase (R247), the best master (R245) and the path delays (R245, R270).
-/

namespace Sys2Proof.Machine

section
variable {s : State}

/-! ### The servo -/

theorem natAbs_clampI (x : Int) (m : Nat) : (clampI x (-(m : Int)) m).natAbs ≤ m := by
  unfold clampI
  split
  · omega
  · split <;> omega

theorem servo_steps {o log : Int} (far : stepLim s < o.natAbs) :
    servo o log s = modTb (fun t => { t with step := some (-o, match t.step with | some x => x.2 | none => t.run) }) s := if_pos far

theorem servo_moves {o log : Int} (near : o.natAbs ≤ stepLim s) :
    servo o log s = modTb (fun t => { t with yp := clampI (-(servoTerm (o * servoKp s) log)) (-ypMax) ypMax,
                                             yf := clampI (t.yf - servoTerm (o * servoKi s) log) (-yfMax) yfMax }) s := if_neg (Nat.not_lt.mpr near)

/-- The servo leaves the state of the timebase and the run time. -/
theorem servo_keeps (o log : Int) (s : State) : (servo o log s).tb.st = s.tb.st ∧ (servo o log s).tb.run = s.tb.run := by
  unfold servo
  split <;> exact ⟨rfl, rfl⟩

/-! ### Sync -/

/-- What an accepted Sync records before the states are judged. -/
def syncTaken (port : Nat) (origin rx corr log : Int) (s : State) : State :=
  let delay : Int := if ptpP2p s then (s.tb.linkDelay.getD port none).getD 0 else s.tb.mpd
  let t2 := rx - asymOf s port
  let o := rnd ((t2 - origin - delay) * 65536 - corr) 65536
  modTb (fun t => { t with ofs := satI 32 o, syncTk := t.run, logSync := log, port := port, yfs := (t.yf :: t.yfs).take 64,
                           mpd := delay, t12 := some (rnd (origin * 65536 + corr) 65536, t2) }) (servo o log s)

theorem acceptSync_eq (port : Nat) (origin rx corr log : Int) (s : State) : ∃ o, acceptSync port origin rx corr log s =
    syncState o (syncTaken port origin rx corr log s) := ⟨_, rfl⟩

theorem syncTaken_keeps (port : Nat) (origin rx corr log : Int) (s : State) : (syncTaken port origin rx corr log s).tb.st = s.tb.st ∧
    (syncTaken port origin rx corr log s).tb.run = s.tb.run ∧ (syncTaken port origin rx corr log s).tb.syncTk = s.tb.run ∧
    Within [.tb] s (syncTaken port origin rx corr log s) := by
  have kept := fun o => servo_keeps o log s
  exact ⟨(kept _).1, (kept _).2, (kept _).2, modTb_within (servo_within (.refl _ _) rfl) rfl⟩

theorem syncState_restarts {o : Int} (h : s.tb.st = .freerun ∨ s.tb.st = .holdover) : syncState o s = toAcquire s := by
  unfold syncState
  rcases h with st | st <;> simp only [st]

theorem acceptSync_restarts {port : Nat} {origin rx corr log : Int} (h : s.tb.st = .freerun ∨ s.tb.st = .holdover) :
    ∃ t, acceptSync port origin rx corr log s = t ∧ t.tb.st = .acquire ∧ t.tb.nIn = 0 ∧ t.tb.syncTk = s.tb.run ∧ t.tb.trace = false ∧
      t.tb.run = s.tb.run ∧ Within [.tb] s t := by
  obtain ⟨o, is⟩ := acceptSync_eq port origin rx corr log s
  obtain ⟨st, run, syncTk, within_⟩ := syncTaken_keeps port origin rx corr log s
  rw [syncState_restarts (by rwa [st])] at is
  exact ⟨_, is, rfl, rfl, syncTk, rfl, run, modTb_within within_ rfl⟩

/-- The count of good offsets, and that of bad ones, after one more. -/
def goodCount (o : Int) (s : State) : Nat := if o.natAbs ≤ lockNs s then s.tb.nIn + 1 else 0
def badCount (o : Int) (s : State) : Nat := if unlockNs s < o.natAbs then s.tb.nOut + 1 else 0

theorem syncState_acquire {o : Int} (st : s.tb.st = .acquire) : syncState o s =
    if 16 ≤ goodCount o s then
      raise .timebase Cause.tbLocked 0xFF (modTb (fun t => { t with st := .locked, trace := true, lockTk := t.run, nIn := 0, nOut := 0 }) s)
    else modTb (fun t => { t with nIn := goodCount o s }) s := by
  unfold syncState
  simp only [st]
  rfl

theorem syncState_locked {o : Int} (st : s.tb.st = .locked) : syncState o s =
    if 4 ≤ badCount o s then unlock s else modTb (fun t => { t with nOut := badCount o s }) s := by
  unfold syncState
  simp only [st]
  rfl

theorem goodCount_locks {o : Int} : 16 ≤ goodCount o s ↔ 15 ≤ s.tb.nIn ∧ o.natAbs ≤ lockNs s := by
  unfold goodCount
  split <;> omega

theorem badCount_unlocks {o : Int} : 4 ≤ badCount o s ↔ 3 ≤ s.tb.nOut ∧ unlockNs s < o.natAbs := by
  unfold badCount
  split <;> omega

/-! ### The best master -/

/-- A master selected, that was or was not the last one. -/
def masterTaken (m : Master) (s : State) : State :=
  modTb (fun t => { t with master := some m, lastMaster := some (m.ident, m.port), utc := (m.utc, m.utcValid), port := m.ingress }) s

/-- What goes with a change of master: acquisition starts afresh. -/
def masterChanged (m : Master) (s : State) : State :=
  let s2 := modTb (fun t => { t with nMaster := incSat 8 t.nMaster, syncWait := none, t12 := none, nIn := 0, nOut := 0 }) (masterTaken m s)
  let s3 := if s.tb.st = .locked ∨ s.tb.st = .holdover then toAcquire s2 else s2
  if s.tb.st = .locked then modTb (fun t => { t with nUnlock := incSat 8 t.nUnlock }) s3 else s3

theorem masterChanged_tb (m : Master) (s : State) : (masterChanged m s).tb.master = some m ∧ (masterChanged m s).tb.foreign = s.tb.foreign ∧
    (masterChanged m s).tb.nMaster = incSat 8 s.tb.nMaster ∧
    (s.tb.st = .locked ∨ s.tb.st = .holdover → (masterChanged m s).tb.st = .acquire) := by
  unfold masterChanged
  dsimp only
  split <;> split <;> first | exact ⟨rfl, rfl, rfl, fun _ => rfl⟩ | exact ⟨rfl, rfl, rfl, fun h => absurd h (by assumption)⟩

theorem selectMaster_none (none_ : bestOf (s.tb.foreign.filter (qualified s)) = none) : selectMaster s = s := by
  unfold selectMaster
  rw [none_]

section
variable {m : Master} (best : bestOf (s.tb.foreign.filter (qualified s)) = some m)
include best

theorem selectMaster_same (same : s.tb.lastMaster = none ∨ s.tb.lastMaster = some (m.ident, m.port)) : selectMaster s = masterTaken m s := by
  unfold selectMaster
  rw [best]
  exact if_pos same

theorem selectMaster_other (other : ¬ (s.tb.lastMaster = none ∨ s.tb.lastMaster = some (m.ident, m.port))) :
    selectMaster s = raise .timebase Cause.tbMasterChange 0xFF (masterChanged m s) := by
  unfold selectMaster
  rw [best]
  exact if_neg other

end

theorem selectMaster_foreign (s : State) : (selectMaster s).tb.foreign = s.tb.foreign := by
  cases best : bestOf (s.tb.foreign.filter (qualified s)) with
  | none => rw [selectMaster_none best]
  | some m =>
    by_cases same : s.tb.lastMaster = none ∨ s.tb.lastMaster = some (m.ident, m.port)
    · rw [selectMaster_same best same]
      rfl
    · rw [selectMaster_other best same]
      exact (masterChanged_tb m s).2.1

/-- The dataset of an Announce, with the times it was heard. -/
def foreignOf (m : PtpMsg) (s : State) : Master :=
  { p1 := m.p1, cls := m.cls, accu := m.accu, vari := m.vari, p2 := m.p2, gm := m.gm, steps := m.steps,
    ident := m.ident, port := m.srcPort, ingress := m.port.val, utc := m.utc, utcValid := m.utcValid,
    logAnn := m.logInt, heard := (s.tb.run :: (((s.tb.foreign.find? fun x => x.ident == m.ident && x.port == m.srcPort).map (·.heard)).getD [])).take 4 }

/-- The sender of an Announce enters the foreign masters. -/
def announced (m : PtpMsg) (s : State) : State :=
  modTb (fun t => { t with foreign := foreignOf m s :: t.foreign.filter fun y => !(y.ident == m.ident && y.port == m.srcPort) }) s

theorem exec_ptpAnnounce {m : PtpMsg} (enabled : ptpEn s = true) (heard : ptpHeard s m = true) (low : -3 ≤ m.logInt) (high : m.logInt ≤ 4)
    (steps : m.steps < 255) : exec (.ptpAnnounce m) s = .next (selectMaster (announced m s)) :=
  if_neg (by simp [enabled, heard, low, high, steps])

/-- One Announce does not qualify a master that is not selected. -/
theorem first_not_qualified {m : PtpMsg} (alone : s.tb.foreign = []) (free : s.tb.master = none) :
    bestOf ((announced m s).tb.foreign.filter (qualified (announced m s))) = none := by
  have heard : (foreignOf m s).heard = [s.tb.run] := by simp [foreignOf, alone]
  have foreign : (announced m s).tb.foreign = [foreignOf m s] := by simp [announced, modTb, alone]
  have not_ : qualified (announced m s) (foreignOf m s) = false := by
    have master : (announced m s).tb.master = none := free
    have few : ((foreignOf m s).heard.filter fun t => decide (since (announced m s) t ≤ 4 * pow2Tk (foreignOf m s).logAnn)).length ≤ 1 := by
      rw [heard]
      exact List.length_filter_le _ _
    unfold qualified
    rw [master]
    simp only [Bool.false_and, Bool.or_false, decide_eq_false_iff_not]
    omega
  rw [foreign, List.filter_cons_of_neg (by simp [not_])]
  rfl

theorem ptpAnnounce_spec {m : PtpMsg} (enabled : ptpEn s = true) (heard : ptpHeard s m = true) (low : -3 ≤ m.logInt) (high : m.logInt ≤ 4)
    (steps : m.steps < 255) : ∃ t, exec (.ptpAnnounce m) s = .next t ∧
      (∃ x ∈ t.tb.foreign, x.ident = m.ident ∧ x.port = m.srcPort ∧ x.gm = m.gm ∧ s.tb.run ∈ x.heard ∧ x.utc = m.utc) ∧
      (s.tb.foreign = [] → s.tb.master = none → t.tb.master = none) ∧ Within [.tb, .fab] s t := by
  refine ⟨_, exec_ptpAnnounce enabled heard low high steps, ⟨foreignOf m s, ?_, rfl, rfl, rfl, ?_, rfl⟩, fun alone free => ?_,
    selectMaster_within (modTb_within (.refl _ _) rfl) rfl⟩
  · rw [selectMaster_foreign]
    exact List.mem_cons_self
  · exact List.mem_cons_self
  · rw [selectMaster_none (first_not_qualified alone free)]
    exact free

/-! ### Delay messages -/

theorem heard_of_fromMaster {m : PtpMsg} (h : fromMaster s m = true) : ptpHeard s m = true := by
  unfold fromMaster at h
  simp only [Bool.and_eq_true] at h
  exact h.1.2

section
variable {m : PtpMsg} {tx : Int}

theorem delayMessage_unheard (deaf : ptpHeard s m = false) : exec (.ptpDelayMessage m tx) s = .next s := if_pos (by simp [deaf])

theorem delayMessage_e2e (heard : ptpHeard s m = true) (resp : m.mtype = 9) : exec (.ptpDelayMessage m tx) s =
    (match s.tb.dreq, s.tb.t12 with
    | some (q, t3), some (t1, t2) =>
      if fromMaster s m && q == m.seq && !ptpP2p s then
        .next (modTb (fun t => { t with mpd := rnd (((t2 - t1) + (m.origin - t3)) * 65536 - m.corr) (2 * 65536), dreq := none, logDreq := m.logInt }) s)
      else .next s
    | _, _ => .next s) := by
  refine (if_neg (by simp [heard])).trans ((if_pos resp).trans ?_)
  cases s.tb.dreq <;> cases s.tb.t12 <;> rfl

theorem delayMessage_e2e_only (other : m.mtype ≠ 9) (e2e : ptpP2p s = false) : exec (.ptpDelayMessage m tx) s = .next s := by
  cases heard : ptpHeard s m with
  | false => exact delayMessage_unheard heard
  | true => exact (if_neg (by simp [heard])).trans ((if_neg other).trans (if_pos (by simp [e2e])))

section
variable (heard : ptpHeard s m = true) (p2p : ptpP2p s = true)
include heard p2p

theorem delayMessage_p2p (other : m.mtype ≠ 9) : exec (.ptpDelayMessage m tx) s =
    if m.mtype = 2 then .next (answerPdelay m tx s)
    else if m.mtype = 3 then
      match s.tb.pdreq.getD m.port.val none with
      | some (q, t1) =>
        if q ≠ m.seq then .next s
        else if m.twoStep then .next (modTb (fun t => { t with pdwait := lset t.pdwait m.port.val (some (q, m.origin, m.rx, m.corr)) }) s)
        else .next (setLinkDelay m.port.val t1 0 0 m.rx m.corr s)
      | none => .next s
    else if m.mtype = 10 then
      match s.tb.pdreq.getD m.port.val none, s.tb.pdwait.getD m.port.val none with
      | some (_, t1), some (q, t2, t4, corr) =>
        if q = m.seq then .next (setLinkDelay m.port.val t1 t2 m.origin t4 (corr + m.corr) s) else .next s
      | _, _ => .next s
    else .next s := by
  refine (if_neg (by simp [heard])).trans ((if_neg other).trans ((if_neg (by simp [p2p])).trans ?_))
  cases s.tb.pdreq.getD m.port.val none <;> cases s.tb.pdwait.getD m.port.val none <;> rfl

end

/-- A response for which nothing waits changes nothing. -/
theorem delayMessage_unasked (h : m.mtype = 3 ∧ (∀ t1, s.tb.pdreq.getD m.port none ≠ some (m.seq, t1)) ∨
    m.mtype = 10 ∧ (s.tb.pdreq.getD m.port none = none ∨ ∀ x, s.tb.pdwait.getD m.port none ≠ some (m.seq, x))) :
    exec (.ptpDelayMessage m tx) s = .next s := by
  have other : m.mtype ≠ 9 := by omega
  cases heard : ptpHeard s m with
  | false => exact delayMessage_unheard heard
  | true =>
    cases p2p : ptpP2p s with
    | false => exact delayMessage_e2e_only other p2p
    | true =>
      rw [delayMessage_p2p heard p2p other]
      rcases h with ⟨resp, unasked⟩ | ⟨follow, unasked⟩
      · rw [if_neg (by omega), if_pos resp]
        cases asked : s.tb.pdreq.getD m.port.val none with
        | none => rfl
        | some x =>
          obtain ⟨q, t1⟩ := x
          refine if_pos fun same => ?_
          subst same
          exact unasked t1 asked
      · rw [if_neg (by omega), if_neg (by omega), if_pos follow]
        cases asked : s.tb.pdreq.getD m.port.val none with
        | none => rfl
        | some x =>
          cases waits : s.tb.pdwait.getD m.port.val none with
          | none => rfl
          | some y =>
            obtain ⟨q, y⟩ := y
            rcases unasked with no | unasked
            · cases asked.symm.trans no
            · refine if_neg fun same => ?_
              subst same
              exact unasked y waits

end

/-! ### Losses -/

theorem exec_syncLoss_sync (up : s.mode.up = true) (announces : annTimeout s = false) : exec .syncLoss s =
    if syncTo s * pow2Tk s.tb.logSync ≤ since s s.tb.syncTk then .next (syncLost s) else .next s :=
  (if_neg (by simp [up])).trans (if_neg (by rw [announces]; exact Bool.false_ne_true))

/-- The foreign masters without the selected one. -/
def othersHeard (s : State) : List Master :=
  s.tb.foreign.filter fun y => !(s.tb.master.any fun m => y.ident == m.ident && y.port == m.port)

/-- The selected master is forgotten. -/
def masterForgotten (s : State) : State := { s with tb := { s.tb with foreign := othersHeard s } }

theorem exec_syncLoss_announce (up : s.mode.up = true) (silent : annTimeout s = true) : exec .syncLoss s =
    .next (if (bestOf ((othersHeard s).filter (qualified s))).isSome = true then selectMaster (masterForgotten s)
      else syncLost (modTb (fun t => { t with master := none, syncWait := none, t12 := none }) (masterForgotten s))) := by
  have others : (modTb (fun t => { t with foreign := t.foreign.filter fun y => !(match s.tb.master with
      | some m => y.ident == m.ident && y.port == m.port | none => false) }) s) = masterForgotten s := by
    unfold masterForgotten othersHeard modTb
    cases s.tb.master <;> rfl
  have judged : ∀ u, u = masterForgotten s → (match bestOf (u.tb.foreign.filter (qualified u)) with
      | some _ => Host.Outcome.next (selectMaster u)
      | none => .next (syncLost (modTb (fun t => { t with master := none, syncWait := none, t12 := none }) u)) : Host.Outcome State Fault Refusal) =
      .next (if (bestOf ((othersHeard s).filter (qualified s))).isSome = true then selectMaster (masterForgotten s)
        else syncLost (modTb (fun t => { t with master := none, syncWait := none, t12 := none }) (masterForgotten s))) := by
    rintro u rfl
    have same : bestOf ((masterForgotten s).tb.foreign.filter (qualified (masterForgotten s))) = bestOf ((othersHeard s).filter (qualified s)) := rfl
    rw [same]
    cases bestOf ((othersHeard s).filter (qualified s)) <;> rfl
  exact (if_neg (by simp [up])).trans ((if_pos silent).trans (judged _ others))

theorem syncLost_locked (st : s.tb.st = .locked) : ∃ t, syncLost s = t ∧ t.tb.st = .holdover ∧ t.tb.yp = 0 ∧ t.tb.holdTk = s.tb.run ∧
    t.tb.nHold = incSat 8 s.tb.nHold ∧ (∃ e ∈ t.fab.events, e.cause = Cause.tbHoldover) ∧ Within [.tb, .fab] s t := by
  have is : syncLost s = raise .timebase Cause.tbHoldover 0xFF
      (modTb (fun t => { t with st := .holdover, yp := 0, yf := if s.tb.yfs.isEmpty then s.tb.yf else rnd (sumI s.tb.yfs) s.tb.yfs.length,
                                holdTk := t.run, nHold := incSat 8 t.nHold, nUnlock := incSat 8 t.nUnlock }) s) := by
    unfold syncLost
    simp only [st]
  exact ⟨_, is, rfl, rfl, rfl, rfl, raised_raise .., raise_within (modTb_within (.refl _ _) rfl) rfl⟩

theorem syncLost_acquire (st : s.tb.st = .acquire) : syncLost s = { s with tb := { s.tb with st := .freerun, yp := 0 } } := by
  unfold syncLost
  simp only [st]
  rfl

theorem syncLost_idle (h : s.tb.st = .freerun ∨ s.tb.st = .holdover) : syncLost s = s := by
  unfold syncLost
  rcases h with st | st <;> simp only [st]

/-! ### The gate of Sync -/

section
variable {m : PtpMsg}

theorem exec_ptpSync_idle (h : fromMaster s m = false ∨ (m.mtype ≠ 0 ∧ m.mtype ≠ 8) ∨ (m.mtype = 0 ∧ (m.logInt < -7 ∨ 1 < m.logInt)) ∨
    (m.mtype = 8 ∧ ∀ rx corr, s.tb.syncWait ≠ some (m.seq, rx, corr))) : exec (.ptpSync m) s = .next s := by
  cases mine : fromMaster s m with
  | false => exact if_pos (by simp [mine])
  | true =>
    refine (if_neg (by simp [mine])).trans ?_
    rcases h with h | ⟨sync, follow⟩ | ⟨sync, interval⟩ | ⟨follow, unasked⟩
    · cases mine.symm.trans h
    · exact (if_neg sync).trans (if_neg follow)
    · exact (if_pos sync).trans (if_pos interval)
    · refine (if_neg (by omega)).trans ((if_pos follow).trans ?_)
      cases waits : s.tb.syncWait with
      | none => rfl
      | some x =>
        obtain ⟨q, rx, corr⟩ := x
        refine if_neg fun same => ?_
        subst same
        exact unasked rx corr waits

theorem exec_ptpSync_sync (mine : fromMaster s m = true) (sync : m.mtype = 0) (low : -7 ≤ m.logInt) (high : m.logInt ≤ 1) :
    exec (.ptpSync m) s = .next (if m.twoStep = true then
        { s with tb := { s.tb with syncWait := some (m.seq, m.rx, m.corr), logSync := m.logInt } }
      else acceptSync m.port.val m.origin m.rx m.corr m.logInt { s with tb := { s.tb with syncWait := none } }) :=
  (if_neg (by simp [mine])).trans ((if_pos sync).trans ((if_neg (by omega)).trans (next_ite Iff.rfl _ _)))

theorem exec_ptpSync_follow {rx corr : Int} (mine : fromMaster s m = true) (follow : m.mtype = 8) (waits : s.tb.syncWait = some (m.seq, rx, corr)) :
    exec (.ptpSync m) s = .next (acceptSync m.port.val m.origin rx (corr + m.corr) s.tb.logSync { s with tb := { s.tb with syncWait := none } }) := by
  refine (if_neg (by simp [mine])).trans ((if_neg (by omega)).trans ((if_pos follow).trans ?_))
  rw [waits]
  exact if_pos rfl

end

end

/-- Settles O35: messages by their gate and kind, the timebase state by state, a loss by what is left to follow. -/
theorem ptpMessagesAndTimebaseStates : Obligations.PtpMessagesAndTimebaseStates := by
  refine ⟨fun s m h => exec_ptpSync_idle h, fun s m mine sync low high => exec_ptpSync_sync mine sync low high,
    fun s m rx corr mine follow waits => exec_ptpSync_follow mine follow waits, fun s port origin rx corr log h => acceptSync_restarts h,
    fun o s st many good => ?_, fun o s st h => ?_, fun o s st many bad => ?_, fun o s st h => ?_, fun o log s => ⟨fun far => ?_, fun near => ?_⟩,
    fun s m h => if_pos ?_, fun s m enabled heard low high steps => ptpAnnounce_spec enabled heard low high steps, fun s x best known other => ?_,
    fun s m tx deaf => delayMessage_unheard deaf, fun s m tx other h => ?_, fun s m tx t3 t1 t2 mine e2e resp asked times => ?_,
    fun s m tx resp h => ?_, fun s m tx heard p2p req => ?_, fun s m tx t1 heard p2p resp asked => ?_,
    fun s m tx t1 q t2 t4 corr heard p2p follow asked waits => ?_, fun s m tx h => delayMessage_unasked h,
    fun s tx u enabled e2e master times up over_ is => ?_, fun s tx h => if_neg ?_, fun s port tx p2p up over_ => ?_, fun s port tx h => if_neg ?_,
    fun s port ty q o corr => rfl, fun s h => ?_, fun s up announces late => (exec_syncLoss_sync up announces).trans (if_pos late),
    fun s f up silent is => ?_, fun s st => syncLost_locked st, fun s st => syncLost_acquire st, fun s h => syncLost_idle h, fun s => next_ite Iff.rfl _ _⟩
  · rw [syncState_acquire st, if_pos (goodCount_locks.mpr ⟨many, good⟩)]
    exact ⟨rfl, rfl, raised_raise ..⟩
  · rw [syncState_acquire st, if_neg fun locks => ?_]
    · exact st
    · obtain ⟨many, good⟩ := goodCount_locks.mp locks
      omega
  · rw [syncState_locked st, if_pos (badCount_unlocks.mpr ⟨many, bad⟩)]
    exact ⟨rfl, rfl, raised_raise ..⟩
  · rw [syncState_locked st, if_neg fun unlocks => ?_]
    · exact st
    · obtain ⟨many, bad⟩ := badCount_unlocks.mp unlocks
      omega
  · rw [servo_steps far]
    exact ⟨rfl, rfl⟩
  · rw [servo_moves near]
    exact ⟨rfl, natAbs_clampI _ 109951163, natAbs_clampI _ 219902326⟩
  · rcases h with h | h | h | h | h
    · simp [h]
    · simp [h]
    · simp [Int.not_le.mpr h]
    · simp [Int.not_le.mpr h]
    · simp [Nat.not_lt.mpr h]
  · obtain ⟨master, -, count, st⟩ := masterChanged_tb x s
    have changed : ¬ (s.tb.lastMaster = none ∨ s.tb.lastMaster = some (x.ident, x.port)) := by
      rintro (h | h)
      · rw [h] at known
        cases known
      · exact other h
    refine ⟨_, selectMaster_other best changed, ?_⟩
    rw [raise_tb]
    exact ⟨master, count, st, raised_raise ..⟩
  · rcases h with e2e | ⟨req, resp, follow⟩
    · exact delayMessage_e2e_only other e2e
    · cases heard : ptpHeard s m with
      | false => exact delayMessage_unheard heard
      | true =>
        cases p2p : ptpP2p s with
        | false => exact delayMessage_e2e_only other p2p
        | true => rw [delayMessage_p2p heard p2p other, if_neg req, if_neg resp, if_neg follow]
  · rw [delayMessage_e2e (heard_of_fromMaster mine) resp, asked, times]
    exact if_pos (by simp [mine, e2e])
  · cases heard : ptpHeard s m with
    | false => exact delayMessage_unheard heard
    | true =>
      rw [delayMessage_e2e heard resp]
      cases asked : s.tb.dreq with
      | none => rfl
      | some x =>
        cases times : s.tb.t12 with
        | none => rfl
        | some y =>
          refine if_neg ?_
          rcases h with h | h | h | h
          · simp [h]
          · simp [h]
          · cases times.symm.trans h
          · simp only [Bool.and_eq_true, beq_iff_eq, not_and]
            rintro ⟨-, same⟩
            exact absurd (asked.trans (by rw [← same])) (h x.2)
  · rw [delayMessage_p2p heard p2p (by omega), if_pos req]
    rfl
  · rw [delayMessage_p2p heard p2p (by omega), if_neg (by omega), if_pos resp, asked]
    exact (if_neg (by simp)).trans (next_ite Iff.rfl _ _)
  · rw [delayMessage_p2p heard p2p (by omega), if_neg (by omega), if_neg (by omega), if_pos follow, asked, waits]
    exact if_pos rfl
  · subst is
    exact if_pos (by simp [enabled, e2e, master, times, up, over_])
  · rcases h with h | h | h | h | h | h <;> simp [h]
  · exact ⟨_, if_pos (by rw [p2p, up, over_]; rfl), rfl, rfl, modTb_within (.refl _ _) rfl⟩
  · rcases h with h | h | h <;> (rw [h]; simp only [Bool.false_and, Bool.and_false, Bool.false_eq_true, not_false_eq_true])
  · rcases h with off | ⟨announces, early⟩
    · exact if_pos off
    · cases up : s.mode.up with
      | false => exact if_pos up
      | true => exact (exec_syncLoss_sync up announces).trans (if_neg (Nat.not_le.mpr early))
  · subst is
    exact exec_syncLoss_announce up silent

end Sys2Proof.Machine
end

section
/-!
The samples of the safety island and their limits (R333), the A/B cross-check (R109), the window comparators (R101), Echo passes (R103 to R107)
and the calibration registers (R97).
-/

namespace Sys2Proof.Machine

theorem bitN_setBitN_other {i j : Nat} (apart : i ≠ j) (x : Nat) : bitN (setBitN x i true) j = bitN x j := by
  have set : setBitN x i true = x ||| 1 <<< i := rfl
  unfold bitN
  rw [set, Nat.testBit_or, Nat.one_shiftLeft, Nat.testBit_two_pow, decide_eq_false apart, Bool.or_false]

section
variable {s : State} {n : Fin 128}

theorem feCond_self (b : Nat) (on : Bool) (s : State) : (feCond n b on s).getFe n =
    { s.getFe n with flt := setBitN (s.getFe n).flt b on, fltHist := if on then setBitN (s.getFe n).fltHist b true else (s.getFe n).fltHist } :=
  getFe_modFe_self n.isLt _ s

/-! ### Several decisions of one sample -/

theorem decideChs_frame (k : Nat) (l : List (Nat × Option Nat)) (s : State) : Within [.ph, .ch, .saf, .fab] s (decideChs k l s) :=
  decideChs_within (.refl _ _) rfl

/-- The decisions after the first leave the channel as the first did. -/
theorem decideChs_rest (k : Nat) (c : Nat) (a : Option Nat) (rest : List (Nat × Option Nat)) (s : State) :
    Within [.saf] (decideCh k c a s) (decideChs k ((c, a) :: rest) s) :=
  .foldl (fun _ _ => setHist_within (.ite (.refl _ _) (.set_saf (.refl _ _) rfl)) rfl) (.refl _ _)

theorem decideChs_dev (k : Nat) (l : List (Nat × Option Nat)) (s : State) : (decideChs k l s).saf.dev = s.saf.dev := by
  cases l with
  | nil => rfl
  | cons x rest =>
    obtain ⟨c, a⟩ := x
    have first : (decideCh k c a s).saf.dev = s.saf.dev := by
      cases held : chSafe s k with
      | true => rw [decideCh_again held]; rfl
      | false =>
        rw [decideCh_new held, raiseOpt_fab .island c k a _ .saf (by decide), chDecided_saf]
    refine Eq.trans ?_ first
    change (rest.foldl (fun t x => setHist x.1 (if chSafe s k then t else { t with saf := { t.saf with nCh := incSat 8 t.saf.nCh } })) (decideCh k c a s)).saf.dev = _
    generalize decideCh k c a s = u
    induction rest generalizing u with
    | nil => rfl
    | cons y l ih => exact (ih _).trans (by split <;> rfl)

section
variable {k : Nat} (small : k < 128)
include small

theorem decideChs_safe {c : Nat} {a : Option Nat} {rest : List (Nat × Option Nat)} (free : chSafe s k = false) :
    ((decideChs k ((c, a) :: rest) s).getCh k).safe = some c := by
  rw [getCh_of_ch (decideChs_rest k c a rest s .ch (by decide)), decideCh_new free, raiseOpt_getCh]
  exact (chDecided_self small c s).1

theorem chSafe_decideChs {l : List (Nat × Option Nat)} (some_ : l ≠ []) (s : State) : chSafe (decideChs k l s) k = true := by
  cases l with
  | nil => exact absurd rfl some_
  | cons x rest =>
    obtain ⟨c, a⟩ := x
    cases held : chSafe s k with
    | false =>
      unfold chSafe
      rw [decideChs_safe small held]
      rfl
    | true =>
      have decided : chSafe (decideCh k c a s) k = true := chSafe_decideCh small c a s
      have frame := decideChs_rest k c a rest s
      have dev : (decideChs k ((c, a) :: rest) s).saf.dev = (decideCh k c a s).saf.dev := by
        rw [decideChs_dev, decideCh_again held]
        rfl
      unfold chSafe at decided ⊢
      rwa [getCh_of_ch (frame .ch (by decide)), getGal_of_gal (frame .gal (by decide)), dev]

end

/-! ### The limits -/

/-- The counts of the three limits after a sample. -/
def limitsCounted (n : Nat) (rV rL rI : Nat) (beyond : Bool) (s : State) : State :=
  modFe n (fun f => { f with nVmax := rV, nVmin := rL, nImax := rI, badTk := if beyond then some s.tb.run else f.badTk }) s

/-- The decisions of the limits that a sample reaches. -/
def limitDecisions (v l i : Bool) : List (Nat × Option Nat) :=
  (if v then [(Cause.safVmax, none)] else []) ++ (if l then [(Cause.safVmin, none)] else []) ++ if i then [(Cause.safImax, none)] else []

section
variable {v i : Int} {subst settle vO iO bad bV bL bI : Bool}
    (isV : bV = (safVmax s (chanOr s n) != 0 && (bad || vO || decide (safVmax s (chanOr s n) ≤ v))))
    (isL : bL = (safVmin s (chanOr s n) != 0 && (bad || vO || decide (v ≤ safVmin s (chanOr s n)))))
    (isI : bI = (safImax s (chanOr s n) != 0 && (bad || iO || decide (safImax s (chanOr s n) ≤ i.natAbs))))
include isV isL isI

theorem checkLimits_eq : checkLimits n v i subst settle vO iO bad s =
    decideChs (chanOr s n) (limitDecisions (limitCount subst bV (s.getFe n).nVmax (nconf s (chanOr s n))).2
        (limitCount subst bL (s.getFe n).nVmin (nconf s (chanOr s n))).2 (limitCount (subst || settle) bI (s.getFe n).nImax (nconf s (chanOr s n))).2)
      (limitsCounted n (limitCount subst bV (s.getFe n).nVmax (nconf s (chanOr s n))).1 (limitCount subst bL (s.getFe n).nVmin (nconf s (chanOr s n))).1
        (limitCount (subst || settle) bI (s.getFe n).nImax (nconf s (chanOr s n))).1 (!subst && (bV || bL || bI)) s) := by
  subst isV isL isI
  rfl

theorem checkLimits_counts : ((checkLimits n v i subst settle vO iO bad s).getFe n).nVmax =
      (if subst = true then (s.getFe n).nVmax else if bV = true then satN ((s.getFe n).nVmax + 1) 3 else 0) ∧
    ((checkLimits n v i subst settle vO iO bad s).getFe n).nVmin =
      (if subst = true then (s.getFe n).nVmin else if bL = true then satN ((s.getFe n).nVmin + 1) 3 else 0) ∧
    ((checkLimits n v i subst settle vO iO bad s).getFe n).nImax =
      (if (subst || settle) = true then (s.getFe n).nImax else if bI = true then satN ((s.getFe n).nImax + 1) 3 else 0) := by
  rw [checkLimits_eq isV isL isI, getFe_of_fe (decideChs_frame _ _ _ .fe (by decide))]
  unfold limitsCounted
  rw [getFe_modFe_self n.isLt]
  unfold limitCount
  refine ⟨?_, ?_, ?_⟩
  · dsimp only
    split
    · rfl
    · split <;> rfl
  · dsimp only
    split
    · rfl
    · split <;> rfl
  · dsimp only
    split
    · rfl
    · split <;> rfl

theorem checkLimits_quiet (h : subst = true ∨ (bV = false ∧ bL = false ∧ (settle = true ∨ bI = false))) :
    Within [.fe] s (checkLimits n v i subst settle vO iO bad s) := by
  rw [checkLimits_eq isV isL isI]
  have quiet : ∀ hold beyond cnt conf, (hold = true ∨ beyond = false) → (limitCount hold beyond cnt conf).2 = false := by
    rintro hold beyond cnt conf (rfl | rfl)
    · rfl
    · cases hold <;> rfl
  have none_ : (limitCount subst bV (s.getFe n).nVmax (nconf s (chanOr s n))).2 = false ∧
      (limitCount subst bL (s.getFe n).nVmin (nconf s (chanOr s n))).2 = false ∧
      (limitCount (subst || settle) bI (s.getFe n).nImax (nconf s (chanOr s n))).2 = false := by
    rcases h with held | ⟨hv, hl, hi⟩
    · exact ⟨quiet _ _ _ _ (.inl held), quiet _ _ _ _ (.inl held), quiet _ _ _ _ (.inl (by rw [held]; rfl))⟩
    · refine ⟨quiet _ _ _ _ (.inr hv), quiet _ _ _ _ (.inr hl), quiet _ _ _ _ (hi.imp (fun h => ?_) id)⟩
      rw [h, Bool.or_true]
  obtain ⟨hv, hl, hi⟩ := none_
  rw [hv, hl, hi]
  exact modFe_within (.refl _ _) rfl

/-- The first limit that is reached names the decision. -/
theorem checkLimits_decides (free : chSafe s (chanOr s n) = false) {c : Nat} {rest : List (Nat × Option Nat)}
    (first : limitDecisions (limitCount subst bV (s.getFe n).nVmax (nconf s (chanOr s n))).2
        (limitCount subst bL (s.getFe n).nVmin (nconf s (chanOr s n))).2 (limitCount (subst || settle) bI (s.getFe n).nImax (nconf s (chanOr s n))).2 =
      (c, none) :: rest) :
    ((checkLimits n v i subst settle vO iO bad s).getCh (chanOr s n)).safe = some c := by
  rw [checkLimits_eq isV isL isI, first]
  exact decideChs_safe (chanOr_lt s n) free

theorem checkLimits_spec : ∃ t, checkLimits n v i subst settle vO iO bad s = t ∧
      (t.getFe n).nVmax = (if subst = true then (s.getFe n).nVmax else if bV = true then satN ((s.getFe n).nVmax + 1) 3 else 0) ∧
      (t.getFe n).nVmin = (if subst = true then (s.getFe n).nVmin else if bL = true then satN ((s.getFe n).nVmin + 1) 3 else 0) ∧
      (t.getFe n).nImax = (if (subst || settle) = true then (s.getFe n).nImax else if bI = true then satN ((s.getFe n).nImax + 1) 3 else 0) ∧
      ((subst = true ∨ (bV = false ∧ bL = false ∧ (settle = true ∨ bI = false))) → Within [.fe] s t) ∧
      (chSafe s (chanOr s n) = false → subst = false → bV = true → nconf s (chanOr s n) ≤ (s.getFe n).nVmax + 1 →
        (t.getCh (chanOr s n)).safe = some Cause.safVmax) ∧
      (chSafe s (chanOr s n) = false → subst = false → bV = false → bL = true → nconf s (chanOr s n) ≤ (s.getFe n).nVmin + 1 →
        (t.getCh (chanOr s n)).safe = some Cause.safVmin) ∧
      (chSafe s (chanOr s n) = false → subst = false → settle = false → bV = false → bL = false → bI = true →
        nconf s (chanOr s n) ≤ (s.getFe n).nImax + 1 → (t.getCh (chanOr s n)).safe = some Cause.safImax) := by
  obtain ⟨vmax, vmin, imax⟩ := checkLimits_counts isV isL isI (subst := subst) (settle := settle)
  refine ⟨_, rfl, vmax, vmin, imax, checkLimits_quiet isV isL isI, fun free own reached conf => ?_, fun free own no reached conf => ?_,
    fun free own settled no no' reached conf => ?_⟩
  · refine checkLimits_decides isV isL isI free (rest := limitDecisions false (limitCount subst bL (s.getFe n).nVmin (nconf s (chanOr s n))).2
      (limitCount (subst || settle) bI (s.getFe n).nImax (nconf s (chanOr s n))).2) ?_
    rw [own, reached, show limitCount false true (s.getFe n).nVmax (nconf s (chanOr s n)) = (_, _) from rfl, decide_eq_true conf]
    rfl
  · refine checkLimits_decides isV isL isI free (rest := limitDecisions false false
      (limitCount (subst || settle) bI (s.getFe n).nImax (nconf s (chanOr s n))).2) ?_
    rw [own, no, reached, show limitCount false true (s.getFe n).nVmin (nconf s (chanOr s n)) = (_, _) from rfl, decide_eq_true conf]
    rfl
  · refine checkLimits_decides isV isL isI free (rest := []) ?_
    rw [own, settled, no, no', reached]
    change limitDecisions false false (decide (nconf s (chanOr s n) ≤ (s.getFe n).nImax + 1)) = _
    rw [decide_eq_true conf]
    rfl

end

/-- The sample as it is held. -/
def sampleOf (s : State) (n : Nat) (v i : Int) (vO iO : Bool) : IslSamp :=
  { run := s.tb.run, v := v, i := i, fl := b2n (vO || iO) + 2 * b2n (settling s n) + 4 * b2n (replaced s n) }

/-- The sample is held if its parity is good, and judged against the limits. -/
def sampleJudged (n : Nat) (v i : Int) (vO iO ok : Bool) (s : State) : State :=
  checkLimits n v (iUa s n i) (replaced s n) (settling s n) (vO && ok) (iO && ok) (!ok)
    (modFe n (fun f => { f with isl := if ok then some (sampleOf s n v i vO iO) else (s.getFe n).isl }) s)

theorem exec_islandSample {cv ci v i : Int} {vO iO ok : Bool} (up : s.mode.up = true) (powered : fePowered s n = true)
    (own : ownValue s n cv ci = (v, i, vO, iO)) : exec (.islandSample n cv ci ok) s =
    .next (if native s (chanOr s n) && ok then crossCheck (chanOr s n) (sampleJudged n v i vO iO ok s) else sampleJudged n v i vO iO ok s) := by
  refine congrArg Host.Outcome.next ((if_neg (by simp [up, powered])).trans ?_)
  dsimp only
  rw [own]
  rfl

/-! ### The cross-check -/

section
variable {k : Nat}

theorem crossCheck_idle (h : (s.getFe k).isl = none ∨ (s.getFe (k + 1)).isl = none ∨ ∃ a b, (s.getFe k).isl = some a ∧ (s.getFe (k + 1)).isl = some b ∧
    (a.run ≠ b.run ∨ (a.fl ||| b.fl) &&& 6 ≠ 0)) : crossCheck k s = s := by
  unfold crossCheck
  cases own : (s.getFe k).isl with
  | none => rfl
  | some a =>
    cases other : (s.getFe (k + 1)).isl with
    | none => rfl
    | some b =>
      refine if_pos ?_
      rcases h with h | h | ⟨a', b', isA, isB, apart⟩
      · cases own.symm.trans h
      · cases other.symm.trans h
      · cases own.symm.trans isA
        cases other.symm.trans isB
        exact apart

/-- Whether the voltages and the currents of two samples differ. -/
def voltsDiffer (a b : IslSamp) : Bool := decide (2000 < (a.v - b.v).natAbs)
def ampsDiffer (s : State) (k : Nat) (a b : IslSamp) : Bool := decide (40000 * 2 ^ (s.getFe k).irng < (a.i - b.i).natAbs)

/-- The counts of a cross-check. -/
def crossCounted (k : Nat) (a b : IslSamp) (s : State) : State :=
  modFe k (fun f => { f with
    abV := abCount (s.getFe k).abV (voltsDiffer a b), abI := abCount (s.getFe k).abI (ampsDiffer s k a b),
    dv := satN (a.v - b.v).natAbs 0xFFFF, di := satN ((a.i - b.i).natAbs / 10) 0xFFFF,
    badTk := if voltsDiffer a b || ampsDiffer s k a b then some s.tb.run else f.badTk }) s

/-- The count reaches its limit with this sample. -/
def hitV (k : Nat) (a b : IslSamp) (s : State) : Bool := abCount (s.getFe k).abV (voltsDiffer a b) == 328 && (s.getFe k).abV != 328
def hitI (k : Nat) (a b : IslSamp) (s : State) : Bool := abCount (s.getFe k).abI (ampsDiffer s k a b) == 328 && (s.getFe k).abI != 328

/-- A count at its limit sets its condition. -/
def conditionsSet (k : Nat) (v i : Bool) (s : State) : State :=
  let t := if v then feCond k 1 true s else s
  if i then feCond k 2 true t else t

theorem crossCheck_eq {a b : IslSamp} (own : (s.getFe k).isl = some a) (other : (s.getFe (k + 1)).isl = some b) (same : a.run = b.run)
    (clear : (a.fl ||| b.fl) &&& 6 = 0) : crossCheck k s =
    decideChs k ((if hitV k a b s then [(Cause.feAbMismatchV, some k)] else []) ++ if hitI k a b s then [(Cause.feAbMismatchI, some k)] else [])
      (conditionsSet k (hitV k a b s) (hitI k a b s) (crossCounted k a b s)) := by
  unfold crossCheck
  rw [own, other]
  exact if_neg (by simp [same, clear])

theorem conditionsSet_counts (small : k < 128) (v i : Bool) (s : State) : ((conditionsSet k v i s).getFe k).abV = (s.getFe k).abV ∧
    ((conditionsSet k v i s).getFe k).abI = (s.getFe k).abI ∧ (v = true → bitN ((conditionsSet k v i s).getFe k).flt 1 = true) ∧
    (i = true → bitN ((conditionsSet k v i s).getFe k).flt 2 = true) := by
  have cond : ∀ b t, (feCond k b true t).getFe k = { t.getFe k with flt := setBitN (t.getFe k).flt b true, fltHist := setBitN (t.getFe k).fltHist b true } :=
    fun b t => feCond_self (n := ⟨k, small⟩) b true t
  unfold conditionsSet
  cases v <;> cases i <;> dsimp only
  · exact ⟨rfl, rfl, fun h => (by cases h), fun h => (by cases h)⟩
  · rw [if_neg Bool.false_ne_true, if_pos rfl, cond]
    exact ⟨rfl, rfl, fun h => (by cases h), fun _ => bitN_setBitN _ _⟩
  · rw [if_pos rfl, if_neg Bool.false_ne_true, cond]
    exact ⟨rfl, rfl, fun _ => bitN_setBitN _ _, fun h => (by cases h)⟩
  · rw [if_pos rfl, if_pos rfl, cond, cond]
    exact ⟨rfl, rfl, fun _ => (bitN_setBitN_other (by decide) _).trans (bitN_setBitN _ _), fun _ => bitN_setBitN _ _⟩

theorem abCount_hits : ∀ {c : Nat} {differ : Bool}, c = 327 → differ = true → (abCount c differ == 328 && c != 328) = true := by
  rintro c differ rfl rfl
  rfl

theorem crossCheck_spec {a b : IslSamp} (small : k < 128) (own : (s.getFe k).isl = some a) (other : (s.getFe (k + 1)).isl = some b) (same : a.run = b.run)
    (clear : (a.fl ||| b.fl) &&& 6 = 0) : ∃ t, crossCheck k s = t ∧
      (t.getFe k).abV = (if 2000 < (a.v - b.v).natAbs then satN ((s.getFe k).abV + 1) 328 else (s.getFe k).abV - 1) ∧
      (t.getFe k).abI = (if 40000 * 2 ^ (s.getFe k).irng < (a.i - b.i).natAbs then satN ((s.getFe k).abI + 1) 328 else (s.getFe k).abI - 1) ∧
      ((s.getFe k).abV = 327 → 2000 < (a.v - b.v).natAbs → bitN (t.getFe k).flt 1 = true ∧ chSafe t k = true) ∧
      ((s.getFe k).abI = 327 → 40000 * 2 ^ (s.getFe k).irng < (a.i - b.i).natAbs → bitN (t.getFe k).flt 2 = true ∧ chSafe t k = true) := by
  have counted : (crossCounted k a b s).getFe k = _ := getFe_modFe_self small _ _
  obtain ⟨volts, amps, bitV, bitI⟩ := conditionsSet_counts small (hitV k a b s) (hitI k a b s) (crossCounted k a b s)
  rw [counted] at volts amps
  refine ⟨_, crossCheck_eq own other same clear, ?_⟩
  rw [getFe_of_fe (decideChs_frame _ _ _ .fe (by decide)), volts, amps]
  refine ⟨?_, ?_, fun count far => ?_, fun count far => ?_⟩
  · unfold abCount voltsDiffer
    simp only [decide_eq_true_eq]
  · unfold abCount ampsDiffer
    simp only [decide_eq_true_eq]
  · have hit : hitV k a b s = true := abCount_hits count (decide_eq_true far)
    exact ⟨bitV hit, chSafe_decideChs small (by rw [hit]; simp) _⟩
  · have hit : hitI k a b s = true := abCount_hits count (decide_eq_true far)
    exact ⟨bitI hit, chSafe_decideChs small (by rw [hit]; simp) _⟩

end

/-! ### Window comparators -/

/-- A comparator trips, or returns: its level and its flag. -/
def tripNoted (n : Nat) (above : Bool) (s : State) : State :=
  feCond n (if above then 5 else 6) true (modFe n (fun f => { f with cmpOv := f.cmpOv || above, cmpUv := f.cmpUv || !above, badTk := some s.tb.run }) s)

def levelReturned (n : Nat) (above : Bool) (s : State) : State :=
  feCond n (if above then 5 else 6) false (modFe n (fun f => { f with cmpOv := f.cmpOv && !above, cmpUv := f.cmpUv && above, badTk := some s.tb.run }) s)

theorem tripNoted_spec (above : Bool) (s : State) : ((tripNoted n above s).getFe n).cmpOv = ((s.getFe n).cmpOv || above) ∧
    ((tripNoted n above s).getFe n).cmpUv = ((s.getFe n).cmpUv || !above) ∧
    bitN ((tripNoted n above s).getFe n).flt (if above = true then 5 else 6) = true ∧ Within [.fe] s (tripNoted n above s) := by
  refine ⟨?_, ?_, ?_, feCond_within (modFe_within (.refl _ _) rfl) rfl⟩
  · rw [tripNoted, feCond_self, getFe_modFe_self n.isLt]
  · rw [tripNoted, feCond_self, getFe_modFe_self n.isLt]
  · rw [tripNoted, feCond_self]
    exact bitN_setBitN _ _

theorem levelReturned_spec (above : Bool) (s : State) : ((levelReturned n above s).getFe n).cmpOv = ((s.getFe n).cmpOv && !above) ∧
    ((levelReturned n above s).getFe n).cmpUv = ((s.getFe n).cmpUv && above) ∧
    bitN ((levelReturned n above s).getFe n).flt (if above = true then 5 else 6) = false ∧
    ((levelReturned n above s).getFe n).fltHist = (s.getFe n).fltHist ∧ Within [.fe] s (levelReturned n above s) := by
  refine ⟨?_, ?_, ?_, ?_, feCond_within (modFe_within (.refl _ _) rfl) rfl⟩
  · rw [levelReturned, feCond_self, getFe_modFe_self n.isLt]
  · rw [levelReturned, feCond_self, getFe_modFe_self n.isLt]
  · rw [levelReturned, feCond_self]
    exact bitN_setBitN_clear _ _
  · rw [levelReturned, feCond_self, getFe_modFe_self n.isLt]
    rfl

section
variable {above tested : Bool} (up : s.mode.up = true) (powered : fePowered s n = true) (good : vanaGood s = true)
  (enabled : (if above = true then ovEn s n else uvEn s n) = true)
include up powered good enabled

theorem exec_windowTrip : exec (.windowComparatorTrip n above tested) s =
    .next (if tested && (s.getFe n).cmpTest.isSome then tripNoted n above s
      else decideCh (chanOr s n) (if above then Cause.feCmpOv else Cause.feCmpUv) (some n.val) (tripNoted n above s)) := by
  refine if_pos ?_
  rw [up, powered, good, enabled]
  rfl

end

theorem exec_windowTrip_idle {above tested : Bool} (h : s.mode.up = false ∨ fePowered s n = false ∨ vanaGood s = false ∨
    (if above = true then ovEn s n else uvEn s n) = false) : exec (.windowComparatorTrip n above tested) s = .next s := by
  refine if_neg ?_
  rcases h with h | h | h | h
  · simp [h]
  · simp [h]
  · simp [h]
  · rw [h, Bool.and_false]
    exact Bool.false_ne_true

/-! ### Echo -/

theorem startEcho_spec (rep : Bool) (s : State) : ((startEcho n rep s).getFe n).out = true ∧ ((startEcho n rep s).getFe n).echoDue = false ∧
    ((startEcho n rep s).getFe n).echo = some { start := s.tb.run, rep := rep, irng := (s.getFe n).irng } ∧
    (∀ j, j ≠ n.val → (startEcho n rep s).getFe j = s.getFe j) ∧ Within [.fe] s (startEcho n rep s) := by
  have own : (startEcho n rep s).getFe n = _ := getFe_modFe_self n.isLt _ s
  rw [own]
  exact ⟨rfl, rfl, rfl, fun j other => (getFe_modFe ..).trans (if_neg fun both => other both.1.symm), modFe_within (.refl _ _) rfl⟩

section
variable (powered : fePowered s n = true) (free : (s.getFe n).echo = none)
include powered free

theorem echoStart_rest (rest : s.mode = .rest) : exec (.echoPassStart n) s =
    .next (if restPassDue s n = true ∧ partnerIn s n = true then startEcho n false s else s) := by
  refine (if_neg (by simp [powered, free, rest, Mode.up])).trans ((if_pos rest).trans (next_ite (by simp) _ _))

theorem echoStart_works (works : echoMode s = true) : exec (.echoPassStart n) s =
    if native s (chanOr s n) then
      if echoSlot s (chanOr s n) n || (s.getFe n).echoDue then
        (if nativeOk s (chanOr s n) n then .next (startEcho n false s) else .next (modFe n (fun f => { f with echoDue := true }) s))
      else .next s
    else if densityOk s (chanOr s n) then .next (startEcho n false s)
    else .next s := by
  have mode : s.mode.up = true ∧ s.mode ≠ .rest := by
    have among : (s.mode = .run ∨ s.mode = .safe) ∨ s.mode = .service := by simpa [echoMode] using works
    rcases among with (mode | mode) | mode <;> (rw [mode]; exact ⟨rfl, by decide⟩)
  exact (if_neg (by simp [powered, free, mode.1])).trans ((if_neg mode.2).trans (if_neg (by simp [works])))

end

theorem echoStart_idle (h : s.mode.up = false ∨ fePowered s n = false ∨ (s.getFe n).echo.isSome = true ∨ s.mode = .load) :
    exec (.echoPassStart n) s = .next s := by
  rcases h with h | h | h | h
  · exact if_pos (by simp [h])
  · exact if_pos (by simp [h])
  · exact if_pos (by simp [h])
  · by_cases out : (!s.mode.up || !fePowered s n || (s.getFe n).echo.isSome) = true
    · exact if_pos out
    · exact (if_neg out).trans ((if_neg (by rw [h]; decide)).trans (if_pos (by simp [echoMode, h])))

theorem echoResult_spec (pts : List Bool) (start : Nat) (rep : Bool) (s : State) : ((echoResult n pts start rep s).getFe n).echo = none ∧
    ((echoResult n pts start rep s).getFe n).out = false ∧ ((echoResult n pts start rep s).getFe n).echoOk = pts.all id ∧
    ((echoResult n pts start rep s).getFe n).echoTk = s.tb.run ∧
    ((echoResult n pts start rep s).getFe n).echoDone = incSat 16 (s.getFe n).echoDone ∧
    ((echoResult n pts start rep s).getFe n).echoRetry = rep ∧ bitN ((echoResult n pts start rep s).getFe n).flt 7 = false := by
  have own : (echoResult n pts start rep s).getFe n = _ := (feCond_self 7 false _).trans (congrArg (fun f : FrontEnd =>
    { f with flt := setBitN f.flt 7 false, fltHist := if false then setBitN f.fltHist 7 true else f.fltHist }) (getFe_modFe_self n.isLt _ s))
  rw [own]
  exact ⟨rfl, rfl, rfl, rfl, rfl, rfl, bitN_setBitN_clear _ _⟩

theorem echoResult_channel (pts : List Bool) (start : Nat) (rep : Bool) (s : State) (k : Nat) :
    ((echoResult n pts start rep s).getCh k).fltNext = (s.getCh k).fltNext ∧ ((echoResult n pts start rep s).getCh k).st = (s.getCh k).st := by
  have before : Within [.fe] s (feCond n 7 false (modFe n (fun f => { f with
      echo := none, out := false, subTo := start + 64, reconn := start + 64, echoOk := pts.all id, echoRetry := rep,
      echoPts := maskOf ((upto 6).filter fun i => pts.getD i false), echoTk := s.tb.run, echoDone := incSat 16 f.echoDone }) s)) :=
    feCond_within (modFe_within (.refl _ _) rfl) rfl
  unfold echoResult
  dsimp only
  rw [getCh_modCh, getCh_of_ch (before .ch (by decide))]
  split <;> exact ⟨rfl, rfl⟩

/-- A repeated pass that fails: its flag, its event and the fault of the channel. -/
def echoFailed (k n : Nat) (s : State) : State := faultNext k Cause.feEchoFail (raiseA .fabric Cause.feEchoFail k n (feCond n 0 true s))

theorem exec_echoPassEnd {q : EchoPass} (runs : (s.getFe n).echo = some q) (late : q.start + 64 ≤ s.tb.run) : exec (.echoPassEnd n) s =
    .next (if (echoPoints s n q).all id then echoResult n (echoPoints s n q) q.start q.rep s
      else if !q.rep then startEcho n true (echoResult n (echoPoints s n q) q.start q.rep s)
      else echoFailed (chanOr s n) n (echoResult n (echoPoints s n q) q.start q.rep s)) := by
  change execEchoPassEnd n s = _
  unfold execEchoPassEnd
  dsimp only
  rw [runs]
  exact if_neg (Nat.not_lt.mpr late)

theorem echoFailed_spec {k : Nat} (small : k < 128) (idle : (s.getFe n).echo = none) : bitN ((echoFailed k n s).getFe n).flt 0 = true ∧
    ((echoFailed k n s).getFe n).echo = none ∧ (∃ e ∈ (echoFailed k n s).fab.events, e.cause = Cause.feEchoFail) ∧
    ((s.getCh k).fltNext = none → (s.getCh k).st ≠ .disabled → (s.getCh k).st ≠ .fault → ((echoFailed k n s).getCh k).fltNext = some Cause.feEchoFail) := by
  have fe : (echoFailed k n s).getFe n = (feCond n 0 true s).getFe n := rfl
  have ch : (raiseA .fabric Cause.feEchoFail k n (feCond n 0 true s)).getCh k = s.getCh k := rfl
  rw [fe, feCond_self]
  refine ⟨bitN_setBitN _ _, idle, raised_raiseSrc .., fun fresh on fine => ?_⟩
  exact faultNext_self small (by rwa [ch]) (by rwa [ch]) (by rwa [ch])

/-! ### Calibration -/

theorem exec_feCalWrite {p : Path} {addr : Nat} {v : Word} (cal : isFeCal addr = true) : exec (.feCalWrite p addr v) s =
    .next (regGate addr (writeFeCal addr (if addr % 0x200 = 0x1C then v &&& 0xFFFF else v)) s) := congrArg Host.Outcome.next (if_pos cal)

theorem writeFeCal_service {a : Nat} {v : Word} (service : s.mode = .service) : writeFeCal a v s =
    modFe (calFe a) (fun f => { f with calSrc := if f.pwr = 0 then f.calSrc else 3, flt := setBitN f.flt 9 false }) (setCfg a v s) := if_pos service

theorem feCalWrite_service {p : Path} {addr : Nat} {v : Word} (wf : regsWf 0 s.regs = true) (service : s.mode = .service) (idle : loaderBusy s = false)
    (cal : isFeCal addr = true) (small : calFe addr < 128) :
    ∃ t, exec (.feCalWrite p addr v) s = .next t ∧ cfgW t addr = (if addr % 0x200 = 0x1C then v &&& 0xFFFF else v) ∧
      (t.getFe (calFe addr)).calSrc = (if (s.getFe (calFe addr)).pwr = 0 then (s.getFe (calFe addr)).calSrc else 3) ∧
      bitN (t.getFe (calFe addr)).flt 9 = false ∧ (∀ a, a ≠ addr → cfgW t a = cfgW s a) ∧ Within [.regs, .fe] s t := by
  have up : s.mode.up = true := by rw [service]; rfl
  refine ⟨_, (exec_feCalWrite cal).trans (congrArg Host.Outcome.next ((regGate_of_path up idle _ _).trans (writeFeCal_service service))), ?_⟩
  rw [getFe_modFe_self small]
  have words : ∀ b, cfgW (modFe (calFe addr) (fun f => { f with calSrc := if f.pwr = 0 then f.calSrc else 3, flt := setBitN f.flt 9 false })
      (setCfg addr (if addr % 0x200 = 0x1C then v &&& 0xFFFF else v) s)) b =
      if b = addr then (if addr % 0x200 = 0x1C then v &&& 0xFFFF else v) else cfgW s b := fun b => cfgW_setCfg wf b
  refine ⟨(words addr).trans (if_pos rfl), rfl, bitN_setBitN_clear _ _, fun a other => (words a).trans (if_neg other),
    modFe_within (setCfg_within (.refl _ _) rfl) rfl⟩

end

/-- Settles O28: a sample is judged limit by limit, a comparator by its test, an Echo pass by its mode and its points. -/
theorem islandSamplesComparatorsAndEcho : Obligations.IslandSamplesComparatorsAndEcho := by
  refine ⟨fun s n cv ci ok h => congrArg Host.Outcome.next (if_pos (by rcases h with h | h <;> simp [h])),
    fun s n cv ci v i vO iO up powered own => ⟨_, _, rfl, rfl, fun single => ?_, fun native_ => ?_, ?_⟩,
    fun s n v i subst settle vO iO bad bV bL bI isV isL isI => checkLimits_spec isV isL isI, fun s k h => crossCheck_idle h,
    fun s k a b small own other same clear => crossCheck_spec small own other same clear, fun s n above tested h => exec_windowTrip_idle h,
    fun s n above tested up powered good enabled => ?_, fun s n above off => if_neg (by rw [off]; exact Bool.false_ne_true),
    fun s n above on => ⟨_, if_pos on, levelReturned_spec above s⟩, fun s n h => echoStart_idle h, fun s n powered free => ?_,
    fun s n h => ?_, fun s n q runs late => ?_, fun s n h => if_neg ?_, fun s n up pwr enabled late fresh => ⟨_, rfl, ?_⟩,
    fun s p addr v wf service idle cal small => feCalWrite_service wf service idle cal small,
    fun s p addr v h => ?_, fun s p addr v up cal busy => (exec_feCalWrite cal).trans (congrArg Host.Outcome.next (regGate_of_busy up busy _ _)),
    fun s p addr v up other idle cal => (exec_feCalWrite cal).trans (congrArg Host.Outcome.next ((regGate_of_path up idle _ _).trans (if_neg other)))⟩
  · rw [exec_islandSample up powered own, single]
    unfold sampleJudged
    rw [Bool.and_true, Bool.and_true, Bool.and_true]
    rfl
  · rw [exec_islandSample up powered own, native_]
    unfold sampleJudged
    rw [Bool.and_true, Bool.and_true, Bool.and_true]
    rfl
  · rw [exec_islandSample up powered own, Bool.and_false]
    unfold sampleJudged
    rw [Bool.and_false, Bool.and_false]
    rfl
  · obtain ⟨ov, uv, flag, frame⟩ := tripNoted_spec (n := n) above s
    refine ⟨tripNoted n above s, ov, uv, flag, frame, fun test runs => ?_, fun h => ?_⟩
    · exact (exec_windowTrip up powered good enabled).trans (congrArg Host.Outcome.next (if_pos (by simp [test, runs])))
    · exact (exec_windowTrip up powered good enabled).trans (congrArg Host.Outcome.next (if_neg (by rcases h with h | h <;> simp [h])))
  · obtain ⟨out, due, echo, others, frame⟩ := startEcho_spec (n := n) false s
    refine ⟨_, rfl, out, due, echo, others, frame, fun rest => echoStart_rest powered free rest, fun works native_ slot idle => ?_,
      fun works native_ h => ?_, fun works single => ?_⟩
    · rw [echoStart_works powered free works, if_pos native_, slot, idle]
      rfl
    · rw [echoStart_works powered free works, if_pos native_, if_pos (by simpa using h)]
      exact next_ite Iff.rfl _ _
    · rw [echoStart_works powered free works, if_neg (by rw [single]; exact Bool.false_ne_true)]
      exact next_ite Iff.rfl _ _
  · change execEchoPassEnd n s = _
    unfold execEchoPassEnd
    dsimp only
    rcases h with h | ⟨q, h, early⟩
    · rw [h]
    · rw [h]
      exact if_pos early
  · obtain ⟨echo, out, ok, tk, done, retry, flag⟩ := echoResult_spec (n := n) (echoPoints s n q) q.start q.rep s
    refine ⟨_, rfl, echo, out, ok, tk, done, retry, flag, fun good => ?_, fun bad first => ?_, fun bad again => ?_⟩
    · exact (exec_echoPassEnd runs late).trans (congrArg Host.Outcome.next (if_pos good))
    · exact (exec_echoPassEnd runs late).trans (congrArg Host.Outcome.next
        ((if_neg (by rw [bad]; exact Bool.false_ne_true)).trans (if_pos (by simp [first]))))
    · obtain ⟨fail, idle, raised, faults⟩ := echoFailed_spec (k := chanOr s n) (chanOr_lt s n) echo
      obtain ⟨fltNext, st⟩ := echoResult_channel (n := n) (echoPoints s n q) q.start q.rep s (chanOr s n)
      refine ⟨_, (exec_echoPassEnd runs late).trans (congrArg Host.Outcome.next
        ((if_neg (by rw [bad]; exact Bool.false_ne_true)).trans (if_neg (by simp [again])))), fail, idle, raised, fun fresh on fine => ?_⟩
      exact faults (fltNext.trans fresh) (by rwa [st]) (by rwa [st])
  · rcases h with h | h | h | h | h
    · simp [h]
    · simp [h]
    · simp [h]
    · simp [Nat.not_le.mpr h]
    · simp [h]
  · exact (if_pos (by simp [up, pwr, enabled, late, fresh])).trans (congrArg Host.Outcome.next (if_congr (by simp) rfl rfl))
  · rcases h with off | other
    · cases cal : isFeCal addr with
      | false => exact congrArg Host.Outcome.next (if_neg (by rw [cal]; exact Bool.false_ne_true))
      | true => exact (exec_feCalWrite cal).trans (congrArg Host.Outcome.next (regGate_of_no_path off _ _))
    · exact congrArg Host.Outcome.next (if_neg (by rw [other]; exact Bool.false_ne_true))

end Sys2Proof.Machine
end

section
/-!
The margin scan of the store (R468), and what it does to a counter that is beyond its 8 bits.
-/

namespace Sys2Proof.Machine

/-- A state of LOAD, its scan due, whose count of corrected words is beyond its 8 bits. -/
def overCounted : State :=
  { State.reset with
    mode := .load
    tb := { State.reset.tb with run := secTk 147 }
    nvm := { State.reset.nvm with nCorr := 256 } }

theorem overCounted_scanDue : scanDue overCounted = true := by decide

/-- The page's read counts no corrected word, and saturates the count on the way. -/
theorem nCorr_marginScan : ∃ t, exec (.marginScan [] []) overCounted = .next t ∧ t.nvm.nCorr = 255 := ⟨_, rfl, rfl⟩

/-- Refutes O57: a margin scan of a page without an error leaves `nCorr` saturated (`addSat 8 256 0 = 255`), so in a state that holds 256
there it is not the same state with the page moved on. -/
theorem not_storeWritesAndCommands : ¬ Obligations.StoreWritesAndCommands := by
  unfold Obligations.StoreWritesAndCommands
  rintro ⟨-, -, -, -, -, -, -, -, -, -, -, -, -, -, -, -, -, -, -, -, clean, -⟩
  obtain ⟨t, scanned, count⟩ := nCorr_marginScan
  have kept := clean overCounted overCounted_scanDue rfl rfl (by decide) rfl
  cases scanned.symm.trans kept
  exact absurd count (by decide)

end Sys2Proof.Machine
end
